-- ==== Sys2Proof/Word.lean ====
section
/-! DEFINITION. The word types of the EXL-1640 and their plainest arithmetic (R13: bit 0 is the least significant bit). -/

namespace Sys2Proof

/-- One byte. -/
abbrev Byte := BitVec 8

/-- One 16-bit register word, or one word of the Boolean processor array (R61). -/
abbrev Word := BitVec 16

/-- A 32-bit value (batch number, stream-control index). -/
abbrev DWord := BitVec 32

/-- A 64-bit value (instruction word, table-window entry, host address). -/
abbrev QWord := BitVec 64

/-- A 128-bit fail record (R287) or Partner Descriptor (R262). -/
abbrev Record := BitVec 128

/-- A 256-bit batch descriptor (R141), mesh block (R125) or twin block (R348). -/
abbrev Block := BitVec 256

/-- A 512-bit barrier cell (R37) or Mailbox slot (R540). -/
abbrev Cell := BitVec 512

/-- A 1,024-bit fabric configuration frame (R239). -/
abbrev CfgFrame := BitVec 1024

end Sys2Proof
end

