-- ==== Sys2Proof/Syntax.lean ====
section
/-! DEFINITION. The commands of the EXL-1640: one constructor per row of the operation table, with the operands the
spec's text gives that step. A command is a happening at the block's boundary or inside it: a register write, a cell, a
service call, a debug request, the end of a time the spec states. -/

namespace Sys2Proof

/-- Who issues a register access (R38): MASTER 0 to 4. -/
inductive Master where
  | cb | pcie | curator | debug | fieldUnit
  deriving DecidableEq, Repr

/-- The two sides of the Llyniz barrier. -/
inductive Side where
  | host | field
  deriving DecidableEq, Repr

/-- A direction of the barrier (R33). -/
inductive Dir where
  | hostToField | fieldToHost
  deriving DecidableEq, Repr

/-- The two field links (R247). -/
inductive FLink where
  | f0 | f1
  deriving DecidableEq, Repr

/-- The two mesh links (R121). -/
inductive MLink where
  | m0 | m1
  deriving DecidableEq, Repr

/-- The four cores (R537). -/
inductive Core where
  | curator | docentA | docentB | warden
  deriving DecidableEq, Repr

/-- The two Docents (R22). -/
inductive Docent where
  | a | b
  deriving DecidableEq, Repr

/-- A serial lane that trains under R265 or R267. -/
inductive AnyLane where
  | fieldLane (link : FLink) (lane : Nat)
  | meshLane (link : MLink) (lane : Nat)
  | twinLane (lane : Nat)
  deriving DecidableEq, Repr

/-- What a register write names: the register file (R615), the stream control registers (R607), the Mailbox (R539) or
the MSI-X table (R605). `be` holds the two low byte enables of a BAR0 write (R604). -/
inductive WriteTarget where
  | file (addr : BitVec 6) (data : Word) (be : BitVec 2)
  | stream (offset : Nat) (data : QWord)
  | mailbox (offset : Nat) (bytes : List Byte)
  | msix (offset : Nat) (bytes : List Byte)
  deriving DecidableEq, Repr

/-- A quantity the survey unit samples (R379): a field rail in mV or a sensor in quarter degrees. -/
inductive SurveyPoint where
  | rail (index : Nat) (millivolts : Nat)
  | sensor (index : Nat) (quarterDegrees : Int)
  deriving DecidableEq, Repr

/-- A power domain of the field die (R504). -/
inductive Domain where
  | gallery (g : Nat)
  | fabric
  | linkGroup (link : FLink)
  | meshGroup
  | twinGroup
  | bankGroup (k : Nat)
  | docents
  | edge
  deriving DecidableEq, Repr

/-- The bits of a core's or pin's wake sample (R522): which of the two selected wake pins held its active level. -/
structure WakeSample where
  fieldPin : Bool
  hostPin : Bool
  deriving DecidableEq, Repr

/-- One item of the state that a Primary sends to a joining member (R372). The spec gives item addresses no layout, so an item
stands here as what it carries. -/
inductive StateItem where
  | prevRow (bpn row : Nat) (words : List Word) (poison : Bool)
  | block (b : Nat) (stored edge : DWord) (memory : CfgFrame)
  | vaultWord (v address : Nat) (word : Word)
  | vaultQueue (v count rptr wptr : Nat) (ovf udf : Bool)
  | siteCounters (site : Nat) (seq : BitVec 24) (lost : Nat)
  | linkCounter (link : FLink) (seq : BitVec 24)
  | tracker (t : Nat) (rows cols : List Nat) (sparse : List (Nat × Nat)) (unrepairable incomplete suspect : Bool)
      (fails batch : DWord)
  | finish (next : DWord) (unloadWaits : Bool)
  deriving DecidableEq, Repr

/-- What a twin block carries (R348, R349, R354, R359, R361, R368, R372, R484). Blocks whose bodies the spec gives no bit
layout stand as their contents. -/
inductive TwinMsg where
  | heartbeat (role : BitVec 3) (token : Bool) (epoch : DWord) (last : Option DWord) (ack : Word) (join : DWord)
  | capability (part : Nat) (body : BitVec 192)
  | announce (batch : DWord) (frame : BitVec 6) (word : Byte) (freeze : Bool)
  | digest (batch : DWord) (digest : QWord) (fault : Bool)
  | control (code : BitVec 24)
  | state (item : StateItem)
  | signature (sweep : DWord)
  deriving DecidableEq, Repr

/-- The commands of the EXL-1640, one per row of the operation table. -/
inductive Instr where
  -- register file
  | registerWrite (m : Master) (target : WriteTarget) (pcieLost : Bool)
  | regReadTimeout (m : Master)
  | stageCommit (m : Master) (data : Word) (pcieLost : Bool)
  | stagedSetApply
  | tableEntryFetch (m : Master) (reg : Nat)
  | tableEntryWrite (m : Master) (reg : Nat) (data : Word) (pcieLost : Bool)
  | correctionLogPop (m : Master)
  | loadBegin (m : Master) (slot : BitVec 2) (group : BitVec 4) (devIndex : BitVec 8)
  | loadAbort (m : Master)
  | resync (m : Master)
  | release (m : Master)
  | run (m : Master) (value : Bool)
  | retrain (m : Master) (link : FLink)
  | failResume (m : Master)
  | detach (m : Master)
  | remeasure (m : Master)
  | countClear (m : Master)
  | logClear (m : Master)
  | conservatorRestart (m : Master)
  | checkTest (m : Master) (value : Bool)
  | hostSleep (m : Master) (pcieDown : Bool)
  | pwrRequestField (m : Master) (value : BitVec 3)
  | securityLock (m : Master) (data : Word)
  | otpProgrammed
  | pinLockKey (m : Master) (data : Word)
  | debugLevel (m : Master) (level : BitVec 2)
  | alertClr (m : Master) (key : Byte)
  | coreRestart (m : Master) (key : Byte) (cores : BitVec 4)
  | mailboxDoorbell (m : Master) (slot : Nat)
  | pinFunctionChange (m : Master) (index : Nat) (value : DWord)
  | batchDoorbell (value : DWord)
  | batchRingSetup (size : Bool) (value : BitVec 24)
  | lcons (link : FLink) (value : DWord)
  | lsize (link : FLink) (value : BitVec 5)
  | rcons (value : DWord)
  | sgo (data : BitVec 2)
  | stimDmaDone (bytes : List Byte)
  -- loading
  | imageFrameTake (slot : Nat)
  | repeatRetry (frame : Nat)
  | loadDeadline
  | verify
  | verificationDone
  | pllLock
  | pllLockTimeout
  | stageRelease
  -- crossing messages
  | regWrite (dir : Dir) (addr : BitVec 6) (master : Byte) (data : Word)
  | regRead (addr : BitVec 6) (master : Byte) (tag : Word)
  | regReply (tag : Word) (data : Word) (status : Byte)
  | imageFrame (frame : Nat) (prefixBits : Record) (payload : List Byte)
  | repeatRequest (frame : Nat) (reason : Byte)
  | ledgerBatch (link : FLink) (records : List Record)
  | ledgerWriteback (link : FLink)
  | event (code : Word) (unit : Byte) (detail : DWord)
  | timeMark (ns : QWord)
  | serviceCall (core : Core) (tag : Word) (call : Word) (args : List QWord)
  | serviceReply (core : Core) (tag : Word) (result : Word) (data : List QWord)
  | heartbeat (dir : Dir) (power : Byte) (reset : Byte) (ticks : DWord) (ack : Word)
  | heartbeatDue (side : Side)
  | barrierCellReceive (dir : Dir) (lane : Nat) (cell : Cell)
  | nak (dir : Dir) (ack : Word)
  | retransmitTimeout (dir : Dir)
  | barrierLaneFail (dir : Dir) (lane : Nat)
  | spareReq (dir : Dir) (lane : Nat)
  | barrierTrained (dir : Dir) (locked : BitVec 18)
  | counterpartSilent (side : Side)
  -- batches
  | descriptorFetch
  | batchIssue (d : Docent)
  | stimRefill
  | burstBegin
  | validClear
  | passBegin
  -- Boolean processor
  | nop (g bp i : Nat)
  | eval (g bp i : Nat)
  | evalExport (g bp i : Nat)
  | evalCommit (g bp i : Nat)
  | evalCommitExport (g bp i : Nat)
  | send (g bp i : Nat)
  | meshSend (g bp i : Nat)
  | stim (g bp i : Nat)
  | eval3 (g bp i : Nat)
  | eval3Commit (g bp i : Nat)
  | endOp (g bp i : Nat)
  | illegalInstruction (g bp i : Nat)
  | poisonedFetch (g bp i : Nat)
  | boulevardDelivery (step : Nat)
  | passTail
  | passTokenReceive (link : MLink) (block : Block)
  | tokenResend
  | meshBlockReceive (link : MLink) (block : Block) (wordsOk : Bool)
  | meshHold (step : Nat)
  | meshTimeout
  -- egress and unload
  | egressBegin
  | flushLoad
  | rowRead
  | delivery
  | bankRelease
  | docentStop (d : Docent)
  | docentResume
  | siteStrobe (site : Nat)
  | bitFailProcess
  -- fabric
  | blockMemoryWrite (block : Nat)
  | vaultWrite (v : Nat)
  | vaultRead (v : Nat)
  | vaultPush (v : Nat)
  | vaultPop (v : Nat)
  | vaultClr (v : Nat)
  | avenueContention (avenue : Nat)
  | contentionEnd (avenue : Nat)
  -- field links
  | ingressWord (link : FLink) (lane : Nat) (word : BitVec 34)
  | frameCrc (link : FLink) (lane : Nat) (quarter : QWord) (echo64 : Nat)
  | status (link : FLink) (lane : Nat) (quarter : QWord)
  | desc (link : FLink) (lane : Nat) (quarter : QWord)
  | train (link : FLink) (lane : Nat) (quarter : QWord)
  | sideChannelLockLoss (link : FLink) (lane : Nat)
  | arrivalDrift (link : FLink) (lane : Nat) (drift64 : Int)
  | linkTrain (link : FLink)
  | linkUp (link : FLink)
  | trainingStepTimeout (link : FLink) (lane : Nat)
  | partnerLost (link : FLink) (lane : Nat)
  | partnerRetry (link : FLink) (lane : Nat) (echo64 : Option Nat)
  | remeasurementDone (link : FLink) (echoes : List (Nat × Nat))
  | alignmentApply
  -- Ledger
  | recordEnter (link : FLink)
  | gapRecord (link : FLink) (site : Nat)
  | recordPassOn (link : FLink)
  | batchCommit (link : FLink)
  -- twin
  | twinHeartbeatReceive (crcOk : Bool) (role : BitVec 3) (token : Bool) (epoch : DWord) (last : Option DWord) (ack : Word) (join : DWord)
  | twinHeartbeatDue
  | twinBlockResend
  | tLost
  | leaseRenew
  | leaseLapse
  | tokenTake
  | tokenWaitTimeout
  | capabilityReceive (block : Block)
  | batchAnnounce (crcOk : Bool) (tseq : Word) (batch : DWord) (frame : BitVec 6) (word : Byte) (freeze : Bool)
  | digestReceive (crcOk : Bool) (tseq : Word) (batch : DWord) (digest : QWord) (fault : Bool)
  | handover (block : Block)
  | twinJoin (slot : Nat)
  | stateBlockReceive (crcOk : Bool) (tseq : Word) (item : StateItem)
  | joinAck (block : Block)
  | joinTimeout
  | sweepSignatureReceive (crcOk : Bool) (tseq : Word) (sweep : DWord)
  -- survey
  | surveySample (point : SurveyPoint)
  | hostReadingCopy (busy : Bool)
  | upsetWindow
  | throttleRaise
  | throttleLower
  | galleryPowerUp
  -- error protection
  | patrolCycle
  | lineRepair (slot : Nat)
  | frameCheck
  | sweepEnd
  -- on-chip network and Common Store
  | read (header : QWord)
  | write (header : QWord) (flits : List QWord)
  | exclRead (header : QWord)
  | condWrite (header : QWord) (flits : List QWord)
  | completion (header : QWord) (flits : List QWord)
  | asleepResend (src tag : Nat)
  | urgencyRise (src tag : Nat)
  | routeSwitch (entries : List (Nat × Word))
  | reservationBreak (core : Core)
  | bankTestStart
  | bankMapSwitch
  | marchDone (passed : Bool)
  | bankGroupSleep (k : Nat)
  | domainPowerDown (d : Domain)
  -- power and clocks
  | wakePin (sample : WakeSample)
  | perstDeassert
  | controlBusWake
  | powerTransitionDone
  | railsGood (side : Side)
  | railFail (side : Side)
  | trefLoss
  | trefReturn
  | hrefLoss
  | clockChange
  | relockFail
  | fieldResetDuringLoad
  -- cores, service calls
  | watchdogExpiry (core : Core)
  | coreRestarted (core : Core)
  | serviceCallTimeout (slot : Nat)
  | loadReport (slot : Nat)
  | keyProvision (slot : Nat)
  | barrierCounters (slot : Nat)
  | linkCounters (slot : Nat)
  | snapshotCopy (slot : Nat)
  | fabricCapture (slot : Nat)
  | captureOnStop
  | fabricReadback (slot : Nat)
  | memInfo (slot : Nat)
  | raConfigure (slot : Nat)
  | raClear (slot : Nat)
  | raRead (slot : Nat)
  | raStatus (slot : Nat)
  | surveyRead (slot : Nat)
  | scrubUnlock (slot : Nat)
  | checkWrite (slot : Nat)
  | checkRead (slot : Nat)
  | checkInject (slot : Nat)
  | scrubCounters (slot : Nat)
  | nocStatus (slot : Nat)
  | eventRead (slot : Nat)
  | debugChallenge (slot : Nat)
  | debugResponse (slot : Nat)
  | traceConfig (slot : Nat)
  -- debug wire
  | connect (flags : Byte)
  | debugRead (space : Byte) (addr : DWord) (count : Nat)
  | debugWrite (space : Byte) (addr : DWord) (words : List DWord)
  | halt (cores : BitVec 4)
  | resume (cores : BitVec 4)
  | step (core : Core) (n : Nat)
  | stepEnd (core : Core)
  | coreStatus
  | challenge (level : BitVec 2)
  | response (token : QWord)
  | nonceExpiry
  | challengeLockoutEnd
  | trigger (channel : Nat) (sources : DWord) (sinks : Word) (matchIndex : DWord)
  | trace (max : Nat)
  | crossTrigger (channel : Nat) (source : Nat)
  | tracePacket (core : Core) (port : Nat) (value : DWord)
  | debugBreak
  | debugReset
  | debugFrame (body : List Byte) (crc : Byte)
  | resetHoldEnd
  -- pins and remaining happenings
  | handlerStart
  | fabricCycle
  | egressWord
  | quarterLost (link : FLink) (lane : Nat) (quarter : Nat) (crcOk : Bool)
  | frameApertureWrite (slot : Nat) (offset : Nat) (bytes : List Byte)
  | padLevelChange (index : Nat) (level : Bool)
  | breakpoint (core : Core)
  | watchdogReload (core : Core)
  | pllRelocked
  | wordLock (lane : AnyLane)
  deriving DecidableEq, Repr

end Sys2Proof
end

