-- ==== Sys2Proof/WellFormed.lean ====
section
/-! DEFINITION. What a command must name to be one of this device's: numbers of Galleries, Boolean processors, lanes, sites,
blocks, Vaults, slots and offsets inside the ranges the spec gives them. -/

namespace Sys2Proof

/-- Galleries 0 to 63, Boolean processors 0 to 255, instruction words 0 to 511 (R61, R66, R102). -/
def wfBp (g bp i : Nat) : Bool := decide (g < 64) && decide (bp < 256) && decide (i < 512)

/-- Lanes 0 to 31 of a field link (R247). -/
def wfLane (lane : Nat) : Bool := decide (lane < 32)

/-- Request slots 0 to 63 of the Mailbox (R539). -/
def wfSlot (slot : Nat) : Bool := decide (slot < 64)

/-- The names a register write carries: an offset inside the area written (R539, R605, R607). -/
def WriteTarget.wf : WriteTarget → Bool
  | .file _ _ _ => true
  | .stream offset _ => decide (offset < 0x128) && decide (offset % 4 = 0)
  | .mailbox offset bytes => decide (offset + bytes.length ≤ 0x4000)
  | .msix offset bytes => decide (offset + bytes.length ≤ 0x100)

/-- A lane that exists: 32 to a field link, 12 to a mesh link, 8 to the twin link (R247, R121, R343). -/
def AnyLane.wf : AnyLane → Bool
  | .fieldLane _ lane => decide (lane < 32)
  | .meshLane _ lane => decide (lane < 12)
  | .twinLane lane => decide (lane < 8)

/-- A rail or sensor the survey unit samples (R379). -/
def SurveyPoint.wf : SurveyPoint → Bool
  | .rail index _ => decide (index < 9)
  | .sensor index _ => decide (index < 16)

/-- A domain the field die has (R504). -/
def Domain.wf : Domain → Bool
  | .gallery g => decide (g < 64)
  | .fabric => true
  | .linkGroup _ => true
  | .meshGroup => true
  | .twinGroup => true
  | .bankGroup k => decide (k < 9)
  | .docents => true
  | .edge => true

/-- An item of the state a Primary sends names stores that exist (R372). -/
def StateItem.wf : StateItem → Bool
  | .prevRow bpn row words _ => decide (bpn < 16384) && decide (row < 128) && decide (words.length = 4)
  | .block b _ _ _ => decide (b < 128)
  | .vaultWord v address _ => decide (v < 32) && decide (address < 4096)
  | .vaultQueue v _ _ _ _ _ => decide (v < 32)
  | .siteCounters site _ _ => decide (site < 1024)
  | .linkCounter _ _ => true
  | .tracker _ _ _ _ _ _ _ _ _ => true
  | .finish _ _ => true

/-- A command names only what the device has. -/
def Instr.wf : Instr → Bool
  | .registerWrite _ target _ => target.wf
  | .regReadTimeout _ => true
  | .stageCommit _ _ _ => true
  | .stagedSetApply => true
  | .tableEntryFetch _ reg => decide (reg < 4)
  | .tableEntryWrite _ reg _ _ => decide (reg < 4)
  | .correctionLogPop _ => true
  | .loadBegin _ _ _ _ => true
  | .loadAbort _ => true
  | .resync _ => true
  | .release _ => true
  | .run _ _ => true
  | .retrain _ _ => true
  | .failResume _ => true
  | .detach _ => true
  | .remeasure _ => true
  | .countClear _ => true
  | .logClear _ => true
  | .conservatorRestart _ => true
  | .checkTest _ _ => true
  | .hostSleep _ _ => true
  | .pwrRequestField _ _ => true
  | .securityLock _ _ => true
  | .otpProgrammed => true
  | .pinLockKey _ _ => true
  | .debugLevel _ _ => true
  | .alertClr _ _ => true
  | .coreRestart _ _ _ => true
  | .mailboxDoorbell _ slot => wfSlot slot
  | .pinFunctionChange _ index _ => decide (index < 40)
  | .batchDoorbell _ => true
  | .batchRingSetup _ _ => true
  | .lcons _ _ => true
  | .lsize _ _ => true
  | .rcons _ => true
  | .sgo _ => true
  | .stimDmaDone _ => true
  | .imageFrameTake slot => decide (slot < 64)
  | .repeatRetry _ => true
  | .loadDeadline => true
  | .verify => true
  | .verificationDone => true
  | .pllLock => true
  | .pllLockTimeout => true
  | .stageRelease => true
  | .regWrite _ _ _ _ => true
  | .regRead _ _ _ => true
  | .regReply _ _ _ => true
  | .imageFrame _ _ _ => true
  | .repeatRequest _ _ => true
  | .ledgerBatch _ _ => true
  | .ledgerWriteback _ => true
  | .event _ _ _ => true
  | .timeMark _ => true
  | .serviceCall _ _ _ _ => true
  | .serviceReply _ _ _ _ => true
  | .heartbeat _ _ _ _ _ => true
  | .heartbeatDue _ => true
  | .barrierCellReceive _ lane _ => decide (lane < 18)
  | .nak _ _ => true
  | .retransmitTimeout _ => true
  | .barrierLaneFail _ lane => decide (lane < 18)
  | .spareReq _ lane => decide (lane < 18)
  | .barrierTrained _ _ => true
  | .counterpartSilent _ => true
  | .descriptorFetch => true
  | .batchIssue _ => true
  | .stimRefill => true
  | .burstBegin => true
  | .validClear => true
  | .passBegin => true
  | .nop g bp i => wfBp g bp i
  | .eval g bp i => wfBp g bp i
  | .evalExport g bp i => wfBp g bp i
  | .evalCommit g bp i => wfBp g bp i
  | .evalCommitExport g bp i => wfBp g bp i
  | .send g bp i => wfBp g bp i
  | .meshSend g bp i => wfBp g bp i
  | .stim g bp i => wfBp g bp i
  | .eval3 g bp i => wfBp g bp i
  | .eval3Commit g bp i => wfBp g bp i
  | .endOp g bp i => wfBp g bp i
  | .illegalInstruction g bp i => wfBp g bp i
  | .poisonedFetch g bp i => wfBp g bp i
  | .boulevardDelivery n => decide (n < 32768)
  | .passTail => true
  | .passTokenReceive _ _ => true
  | .tokenResend => true
  | .meshBlockReceive _ _ _ => true
  | .meshHold n => decide (n < 32768)
  | .meshTimeout => true
  | .egressBegin => true
  | .flushLoad => true
  | .rowRead => true
  | .delivery => true
  | .bankRelease => true
  | .docentStop _ => true
  | .docentResume => true
  | .siteStrobe site => decide (site < 1024)
  | .bitFailProcess => true
  | .blockMemoryWrite block => decide (block < 128)
  | .vaultWrite v => decide (v < 32)
  | .vaultRead v => decide (v < 32)
  | .vaultPush v => decide (v < 32)
  | .vaultPop v => decide (v < 32)
  | .vaultClr v => decide (v < 32)
  | .avenueContention avenue => decide (avenue < 768)
  | .contentionEnd avenue => decide (avenue < 768)
  | .ingressWord _ lane _ => wfLane lane
  | .frameCrc _ lane _ _ => wfLane lane
  | .status _ lane _ => wfLane lane
  | .desc _ lane _ => wfLane lane
  | .train _ lane _ => wfLane lane
  | .sideChannelLockLoss _ lane => wfLane lane
  | .arrivalDrift _ lane _ => wfLane lane
  | .linkTrain _ => true
  | .linkUp _ => true
  | .trainingStepTimeout _ lane => wfLane lane
  | .partnerLost _ lane => wfLane lane
  | .partnerRetry _ lane _ => wfLane lane
  | .remeasurementDone _ _ => true
  | .alignmentApply => true
  | .recordEnter _ => true
  | .gapRecord _ site => decide (site < 1024)
  | .recordPassOn _ => true
  | .batchCommit _ => true
  | .twinHeartbeatReceive _ _ _ _ _ _ _ => true
  | .twinHeartbeatDue => true
  | .twinBlockResend => true
  | .tLost => true
  | .leaseRenew => true
  | .leaseLapse => true
  | .tokenTake => true
  | .tokenWaitTimeout => true
  | .capabilityReceive _ => true
  | .batchAnnounce _ _ _ _ _ _ => true
  | .digestReceive _ _ _ _ _ => true
  | .handover _ => true
  | .twinJoin slot => wfSlot slot
  | .stateBlockReceive _ _ item => item.wf
  | .joinAck _ => true
  | .joinTimeout => true
  | .sweepSignatureReceive _ _ _ => true
  | .surveySample point => point.wf
  | .hostReadingCopy _ => true
  | .upsetWindow => true
  | .throttleRaise => true
  | .throttleLower => true
  | .galleryPowerUp => true
  | .patrolCycle => true
  | .lineRepair slot => wfSlot slot
  | .frameCheck => true
  | .sweepEnd => true
  | .read _ => true
  | .write _ _ => true
  | .exclRead _ => true
  | .condWrite _ _ => true
  | .completion _ _ => true
  | .asleepResend _ _ => true
  | .urgencyRise _ _ => true
  | .routeSwitch _ => true
  | .reservationBreak _ => true
  | .bankTestStart => true
  | .bankMapSwitch => true
  | .marchDone _ => true
  | .bankGroupSleep k => decide (k < 9)
  | .domainPowerDown d => d.wf
  | .wakePin _ => true
  | .perstDeassert => true
  | .controlBusWake => true
  | .powerTransitionDone => true
  | .railsGood _ => true
  | .railFail _ => true
  | .trefLoss => true
  | .trefReturn => true
  | .hrefLoss => true
  | .clockChange => true
  | .relockFail => true
  | .fieldResetDuringLoad => true
  | .watchdogExpiry _ => true
  | .coreRestarted _ => true
  | .serviceCallTimeout slot => wfSlot slot
  | .loadReport slot => wfSlot slot
  | .keyProvision slot => wfSlot slot
  | .barrierCounters slot => wfSlot slot
  | .linkCounters slot => wfSlot slot
  | .snapshotCopy slot => wfSlot slot
  | .fabricCapture slot => wfSlot slot
  | .captureOnStop => true
  | .fabricReadback slot => wfSlot slot
  | .memInfo slot => wfSlot slot
  | .raConfigure slot => wfSlot slot
  | .raClear slot => wfSlot slot
  | .raRead slot => wfSlot slot
  | .raStatus slot => wfSlot slot
  | .surveyRead slot => wfSlot slot
  | .scrubUnlock slot => wfSlot slot
  | .checkWrite slot => wfSlot slot
  | .checkRead slot => wfSlot slot
  | .checkInject slot => wfSlot slot
  | .scrubCounters slot => wfSlot slot
  | .nocStatus slot => wfSlot slot
  | .eventRead slot => wfSlot slot
  | .debugChallenge slot => wfSlot slot
  | .debugResponse slot => wfSlot slot
  | .traceConfig slot => wfSlot slot
  | .connect _ => true
  | .debugRead _ _ count => decide (1 ≤ count) && decide (count ≤ 16)
  | .debugWrite _ _ words => decide (1 ≤ words.length) && decide (words.length ≤ 16)
  | .halt _ => true
  | .resume _ => true
  | .step _ n => decide (1 ≤ n) && decide (n ≤ 65535)
  | .stepEnd _ => true
  | .coreStatus => true
  | .challenge _ => true
  | .response _ => true
  | .nonceExpiry => true
  | .challengeLockoutEnd => true
  | .trigger channel _ _ _ => decide (channel < 8)
  | .trace max => decide (1 ≤ max) && decide (max ≤ 16)
  | .crossTrigger channel source => decide (channel < 8) && decide (source < 26)
  | .tracePacket _ port _ => decide (port < 32)
  | .debugBreak => true
  | .debugReset => true
  | .debugFrame _ _ => true
  | .resetHoldEnd => true
  | .handlerStart => true
  | .fabricCycle => true
  | .egressWord => true
  | .quarterLost _ lane quarter _ => wfLane lane && decide (quarter < 4)
  | .frameApertureWrite slot offset bytes => decide (slot < 64) && decide (offset + bytes.length ≤ 4096)
  | .padLevelChange index _ => decide (index < 40)
  | .breakpoint _ => true
  | .watchdogReload _ => true
  | .pllRelocked => true
  | .wordLock lane => lane.wf

end Sys2Proof
end

