-- ==== Sys2Proof/Decode.lean ====
section
/-! DEFINITION. Reading words: the command a table word spells (the operation table gives its rows no bits, so none), and the
64-bit instruction words that the Boolean processors execute (R66), with their encoder. -/

namespace Sys2Proof

/-- The command that a word of the operation table spells. No row of the table has bits, so no word spells one.
DESIGN CHOICE (log entry 7). -/
def decodeTableWord (_nbits _w : Nat) : Option Instr := none

/-- The opcodes of a Boolean processor (R75); codes 0xA to 0xE are reserved. -/
inductive BpOp where
  | nop | eval | evalExport | evalCommit | evalCommitExport | send | meshSend | stim | eval3 | eval3Commit | endOp
  | reserved (k : Fin 5)
  deriving DecidableEq, Repr

/-- One instruction of a Boolean processor (R66). -/
structure BpInstr where
  op : BpOp
  tt : BitVec 16
  a : BitVec 11
  b : BitVec 11
  c : BitVec 11
  d : BitVec 11
  deriving DecidableEq, Repr

/-- The opcode of a code (R75). -/
def bpOpOf (code : BitVec 4) : BpOp :=
  if code = 0x0#4 then .nop
  else if code = 0x1#4 then .eval
  else if code = 0x2#4 then .evalExport
  else if code = 0x3#4 then .evalCommit
  else if code = 0x4#4 then .evalCommitExport
  else if code = 0x5#4 then .send
  else if code = 0x6#4 then .meshSend
  else if code = 0x7#4 then .stim
  else if code = 0x8#4 then .eval3
  else if code = 0x9#4 then .eval3Commit
  else if code = 0xA#4 then .reserved 0
  else if code = 0xB#4 then .reserved 1
  else if code = 0xC#4 then .reserved 2
  else if code = 0xD#4 then .reserved 3
  else if code = 0xE#4 then .reserved 4
  else .endOp

/-- The code of an opcode (R75). -/
def bpCodeOf : BpOp → BitVec 4
  | .nop => 0x0#4
  | .eval => 0x1#4
  | .evalExport => 0x2#4
  | .evalCommit => 0x3#4
  | .evalCommitExport => 0x4#4
  | .send => 0x5#4
  | .meshSend => 0x6#4
  | .stim => 0x7#4
  | .eval3 => 0x8#4
  | .eval3Commit => 0x9#4
  | .reserved k => BitVec.ofNat 4 (10 + k.val)
  | .endOp => 0xF#4

/-- The instruction a 64-bit word holds (R66). -/
def decodeBp (w : BitVec 64) : BpInstr where
  op := bpOpOf (w.extractLsb' 60 4)
  tt := w.extractLsb' 44 16
  a := w.extractLsb' 33 11
  b := w.extractLsb' 22 11
  c := w.extractLsb' 11 11
  d := w.extractLsb' 0 11

/-- The 64-bit word of an instruction (R66). -/
def encodeBp (x : BpInstr) : BitVec 64 := bpCodeOf x.op ++ x.tt ++ x.a ++ x.b ++ x.c ++ x.d

/-- An operand's space and index (R68). -/
def operandSpace (o : BitVec 11) : Nat := o.toNat / 512
def operandIndex (o : BitVec 11) : Nat := o.toNat % 512

/-- The special-space indices of R69. -/
def specialListed (i : Nat) : Bool :=
  decide (i < 0x8) || (decide (0x20 ≤ i) && decide (i < 0x5C)) || decide (i = 0x60)

/-- An operand that an instruction may read (R81): a Gallery bus slot of 0 to 255, a listed special word, or a bank word. -/
def operandLegal (o : BitVec 11) : Bool :=
  match operandSpace o with
  | 2 => decide (operandIndex o < 256)
  | 3 => specialListed (operandIndex o)
  | _ => true

/-- The opcode is one that evaluates all four operands (R76). -/
def evaluating : BpOp → Bool
  | .eval | .evalExport | .evalCommit | .evalCommitExport | .eval3 | .eval3Commit => true
  | _ => false

/-- The opcode commits its result to the previous bank (R75). -/
def committing : BpOp → Bool
  | .evalCommit | .evalCommitExport | .eval3Commit => true
  | _ => false

/-- No condition of R81 holds for the instruction. -/
def bpLegal (x : BpInstr) : Bool :=
  match x.op with
  | .nop | .endOp => true
  | .reserved _ => false
  | .send => operandLegal x.a
  | .meshSend => operandLegal x.a && decide (x.tt.toNat % 16 < 12)
  | .stim => decide (0x620 ≤ x.a.toNat) && decide (x.a.toNat ≤ 0x63F)
  | _ => operandLegal x.a && operandLegal x.b && operandLegal x.c && operandLegal x.d

end Sys2Proof
end

