-- ==== Sys2Proof/Machine/State.lean ====
section
/-! DEFINITION. The state of the EXL-1640 as plain data: every register, store, queue, mode and pin the spec gives it, and
the queue of waiting commands. Sparse stores are lists of key and value pairs in ascending key order; an unlisted key
holds the default that the accessor names. -/

namespace Sys2Proof.Machine

/-- A sparse store: keys strictly rising, no entry equal to the value an unlisted key holds. -/
abbrev Table (α : Type) := List (Nat × α)

/-- A set of numbers, held strictly rising. -/
abbrev NatSet := List Nat

/-- Why the block stops. No command raises a fault: every access the spec calls absent reads 0 or is ignored (R5, R6, R603,
R605, R636). The one constructor stands for a machine stopped outside the model; no meaning answers it. Safe. -/
inductive Fault where
  | stopped
  deriving DecidableEq, Repr

/-- Why a command has no meaning. `notModelled` is raised only by an arm of the dispatcher that has no meaning yet. Safe. -/
inductive Refusal where
  | notModelled (mnemonic : String)
  deriving DecidableEq, Repr

/-- The four variants (R3). -/
inductive Variant where
  | a | l | m | s
  deriving DecidableEq, Repr

/-- What the device sends towards the host over PCI Express, in order: memory writes (R301, R428, R609, R543), MSI-X
messages (R610) and read completions with Completer Abort status (R458). -/
inductive HostOut where
  | memWrite (addr : Nat) (bytes : List Byte)
  | msix (vector : Nat)
  | completerAbort (offset : Nat)
  deriving DecidableEq, Repr

/-- The staged fields of R620, as one set. -/
structure StagedSet where
  clk : Word := 0x1840#16          -- FCLK_HALF, SMUL, SDIV at their CLK_CONTROL places (R530)
  linkRates : BitVec 4 := 0        -- RATE_F1, RATE_F0 (R284)
  laneEnF0 : BitVec 32 := 0xFFFFFFFF#32
  laneEnF1 : BitVec 32 := 0xFFFFFFFF#32
  catalogue : Table QWord := []    -- entries 0 to 2,047 (R268); unlisted: 0
  sites : BitVec 11 := 0
  mode : BitVec 3 := 0             -- OVERLAP, MODE (R139)
  galleryEn : BitVec 64 := 0xFFFFFFFFFFFFFFFF#64
  startup : BitVec 11 := 0         -- ORDER, GAP (R440)
  twinEnable : Bool := false
  deriving DecidableEq, Repr

/-- The registers of the host-die register file that hold their own value (R615). Staged fields stand in `StagedSet`;
SECURITY_STATE is read from the OTP bits; identity and capability registers from the variant. -/
structure RegFile where
  pwrState : Word := 0x0008#16
  pwrRequest : Word := 0x0003#16
  wakeEnable : Word := 0x000B#16
  wakeCause : Word := 0x0001#16
  stageStatus : Word := 0
  eventStatus : Word := 0
  eventMask : Word := 0
  faultA : Word := 0
  faultB : Word := 0
  faultC : Word := 0
  faultFirst : Word := 0
  loadControl : Word := 0          -- SLOT, GROUP, DEV_INDEX
  loadStatus : Word := 0
  loadDeadline : Word := 0x01F4#16
  loadElapsed : Word := 0
  debugLevel : BitVec 2 := 0       -- DEBUG_LEVEL.LEVEL (R558)
  arrayControl : Word := 0
  arrayStatus : Word := 0
  schedInfo : Word := 0
  batchControl : Word := 0         -- FREEZE_ON_FAIL, RUN
  linkStatus : Word := 0
  twinPrefer : Bool := false
  twinStatus : Word := 0x0800#16
  failControl : Word := 0x0004#16
  failStatus : Word := 0
  scrubControl : Word := 0x000C#16
  scrubStatus : Word := 0
  eccCountCe : Word := 0
  eccCountUe : Word := 0
  surveyControl : Word := 0
  surveyStatus : Word := 0
  wdogControl : Word := 0xCCCC#16
  clkStatus : Word := 0
  busCollision : Word := 0
  mailboxStatus : Word := 0
  scratch : Word := 0
  deriving DecidableEq, Repr

/-- The per-master copies of the table access registers and latch (R613), of the key sequences (R444, R594) and of the
staged-write sequence (R567), and the value the master's last crossing or table read returned. -/
structure MasterView where
  select : BitVec 4 := 0
  index : Word := 0
  viewStaged : Bool := false
  peek : Bool := false
  autoInc : Bool := false
  absent : Bool := false
  latch : QWord := 0
  latchValid : Bool := false
  lockPrev : Bool := false          -- the previous write of this master was 0xB10C to SECURITY_LOCK
  pinKeyPhase : Nat := 0            -- writes of the PIN_LOCK_KEY sequence done
  stagedWritten : Bool := false     -- a staged field was written since this master's last commit
  commitBlocked : Bool := false     -- a commit is ignored until a staged field is written (R567)
  readData : Word := 0
  deriving DecidableEq, Repr

/-- A read that has crossed the barrier and waits for its REG_REPLY (R56, R57). -/
structure CrossRead where
  master : Master
  tag : Word
  addr : BitVec 6
  window : Nat
  index : Nat
  entry : Option QWord              -- the entry the field unit read, once REG_READ has reached it
  deriving DecidableEq, Repr

/-- A host ring channel: Ledger DMA (R299) or repeat ring (R428). -/
structure RingChannel where
  base : QWord := 0
  size : BitVec 5 := 0
  wb : QWord := 0
  cons : DWord := 0
  next : Nat := 0                   -- index of the next record to write
  lastWb : Nat := 0                 -- index of the last writeback
  lastWbBatch : DWord := 0
  deriving DecidableEq, Repr

/-- The stream control registers (R607). -/
structure StreamRegs where
  brBase : BitVec 24 := 0
  brSize : BitVec 4 := 0
  brProd : DWord := 0
  brRel : DWord := 0
  brFetch : DWord := 0
  f0 : RingChannel := {}
  f1 : RingChannel := {}
  rep : RingChannel := {}
  sSrc : QWord := 0
  sDest : BitVec 24 := 0
  sLen : BitVec 24 := 0
  sBusy : Bool := false
  sError : Bool := false
  sWb : QWord := 0
  sCount : DWord := 0
  deriving DecidableEq, Repr

/-- A message for the barrier before it has a sequence number (R37, R38). -/
structure Msg where
  typ : Byte
  length : Byte
  payload : BitVec 416
  deriving DecidableEq, Repr

/-- A sequenced cell kept for replay (R42). -/
structure SentCell where
  seq : Word
  msg : Msg
  deriving DecidableEq, Repr

/-- One direction of the barrier: its transmitter and its receiver (R33 to R49). -/
structure BarrierDir where
  active : List Nat := []           -- active lanes in dealing order
  spares : List Nat := []
  nextLane : Nat := 0               -- position of the next dealt lane
  seqNext : Word := 0               -- SEQ of the next new cell
  unacked : List SentCell := []     -- oldest first, at most 128
  waiting : List Msg := []          -- accepted from no source yet while 128 are outstanding
  expected : Word := 0              -- next SEQ the receiver expects
  held : List SentCell := []        -- early cells within 64 (R41)
  nakWait : Bool := false           -- accept nothing until `expected` arrives (R44)
  nakDue : Bool := false            -- the next cell in the reverse direction carries NAK
  spareReqDue : List Nat := []      -- lanes to report with SPARE_REQ and NAK
  failed : NatSet := []             -- lanes that the receiver has declared failed
  ackDue : Bool := false            -- unacknowledged receptions
  inbox : List Msg := []            -- delivered cells whose step has not run yet, oldest first
  laneSeen : Table Nat := []        -- per lane, cells received
  laneBad : Table (List Nat) := []  -- per lane, those of the last 1,024 with a CRC failure (R47)
  undefinedCount : DWord := 0       -- discards of R39
  crcCount : Table DWord := []      -- per lane
  retxCount : Table DWord := []     -- per lane
  deriving DecidableEq, Repr

/-- A HEARTBEAT cell sent by a side (R37, R38, R43). -/
structure Beat where
  side : Side
  power : Nat
  reset : Bool
  ack : Word
  nak : Bool
  spareReq : Option Nat
  deriving DecidableEq, Repr

/-- The barrier: both directions, and which sides are treated as unpowered (R59). -/
structure Barrier where
  toField : BarrierDir := {}
  toHost : BarrierDir := {}
  fieldSilent : Bool := false       -- host side's view of the field side
  hostSilent : Bool := false        -- field side's view of the host side
  hostFirstCell : Bool := true      -- next HEARTBEAT of the host die carries RESET = 1
  fieldFirstCell : Bool := true
  beats : List Beat := []           -- HEARTBEAT cells sent, oldest first
  deriving DecidableEq, Repr

/-- One image section entry of the manifest (R410). -/
structure SectionEntry where
  number : Nat
  unit : Byte
  index : Nat
  groups : Word
  device : Byte
  galleries : Nat
  dest : Nat
  length : Nat
  deriving DecidableEq, Repr

/-- A valid frame the device holds (R426): its header bits and its plaintext payload. -/
structure HeldFrame where
  number : Nat
  header : BitVec 256
  payload : List Byte
  deriving DecidableEq, Repr

/-- A repeat request of R428. -/
structure RepeatReq where
  frame : Nat
  reason : Byte
  written : Bool
  deriving DecidableEq, Repr

/-- The loader (chapter "Loading the Image, Security and Start-Up"). -/
structure Loader where
  active : Bool := false
  slot : BitVec 2 := 0
  group : BitVec 4 := 0
  devIndex : Byte := 0
  aperture : Table (Table Byte) := []    -- slot to its bytes written since the last take
  nonce : Option QWord := none
  frames : List HeldFrame := []
  plainSeen : Option Bool := none
  manifestDone : Bool := false
  imageId : QWord := 0
  frameCount : Nat := 0                  -- FRAMES
  manifestFrames : Nat := 0
  sections : List SectionEntry := []
  skipped : List Nat := []
  buffered : NatSet := []                -- frames waiting to cross, at most 64 (R425)
  placed : NatSet := []                  -- frames the field side has placed
  begun : NatSet := []                   -- frames begun and not yet placed (R430)
  repeats : List RepeatReq := []
  waiting : Option (BitVec 2 × BitVec 4 × Byte) := none   -- a BEGIN that waits for a bank test (R515)
  asked : Bool := false                  -- the missing frames have been requested (R427)
  discarded : DWord := 0
  dropped : DWord := 0
  failed : DWord := 0
  repeated : DWord := 0
  cfgFault : Bool := false               -- CFG_FAULT driven low (R437)
  verified : Bool := false
  pllWait : Bool := false                -- start-up waits for PLL lock
  stagesLeft : List Nat := []            -- stages still to release: 0 outputs, 1 write enables, 2 resets
  releaseAt : Nat := 0                   -- FCLK cycle of the first release
  firmware : List (Nat × Nat) := []      -- core index and section length placed
  paramBytes : List Byte := []           -- unit 0x0A content received
  geometryBytes : List Byte := []        -- unit 0x0B content received
  umapStarts : NatSet := []              -- start address of every unload map placed (R162)
  shadowUpdate : List (Nat × List Byte) := []   -- unit 0x09 Curator bytes placed on the host die
  keyEpochs : List (Nat × BitVec 256) := []     -- keys derived for this load (R419), erased when it ends (R421)
  deriving DecidableEq, Repr

/-- The start-up stages released so far (R441). -/
structure Released where
  outputs : Bool := false
  writeEnables : Bool := false
  resets : Bool := false
  deriving DecidableEq, Repr

/-- Device parameters of the loaded image (R647), with the mesh position (R412). -/
structure Params where
  ringBase0 : Nat := 0
  ringBase1 : Nat := 0
  ringLog0 : Nat := 0
  ringLog1 : Nat := 0
  maLag : Nat := 0
  mrec : Bool := false
  siteMapBase : Nat := 0
  meshPos : Nat := 0
  meshSize : Nat := 0
  deriving DecidableEq, Repr

/-- OTP content of the host die: security bits (R443), key slots (R448). -/
structure Otp where
  capNone : Bool := false
  capObserve : Bool := false
  authOnly : Bool := false
  readbackDis : Bool := false
  retired : BitVec 4 := 0
  programmed : BitVec 4 := 0
  keys : Table (BitVec 256) := []       -- slot keys, never readable
  deriving DecidableEq, Repr

/-- Security bits being programmed (R445): READBACK_DIS [0], CAP_OBSERVE [1], CAP_NONE [2], AUTH_ONLY [3], RETIRE [7:4]. -/
abbrev OtpRequest := Byte

/-- One Gallery's descriptor fields the device sets (R114). -/
structure GalleryInfo where
  length : Nat := 0
  powered : Bool := false
  asleepValid : Bool := false
  asleepSource : Nat := 0
  illegalValid : Bool := false
  illegalBp : Nat := 0
  illegalStep : Nat := 0
  illegalPass : DWord × Nat := (0, 0)    -- batch and pass of the record (R84)
  deriving DecidableEq, Repr

/-- A word exported on a Gallery bus at a step (R103). -/
structure BusWord where
  gallery : Nat
  bp : Nat
  step : Nat
  value : Word
  deriving DecidableEq, Repr

/-- A Boulevard word in flight or delivered (R110, R116): the step it is due or was delivered at, its destination and
port, and the sleeping Gallery it comes from, if any. -/
structure BlvdWord where
  step : Nat
  gallery : Nat
  port : Nat
  value : Word
  asleepFrom : Option Nat
  deriving DecidableEq, Repr

/-- A mesh step-data block held for its due step (R135), or known lost (R137). -/
structure MeshHeld where
  link : MLink
  batch : BitVec 24
  pass : BitVec 12
  step : Nat
  words : List Word
  poison : Bool
  lost : Bool
  deriving DecidableEq, Repr

/-- The last pass token received on a mesh link (R131). -/
structure MeshToken where
  position : Word
  length : Word
  size : Word
  batch : BitVec 24
  pass : BitVec 12
  agrees : Bool
  deriving DecidableEq, Repr

/-- A word sent by a MESH_SEND of the pass in progress (R127). -/
structure MeshOut where
  step : Nat
  slot : Nat
  value : Word
  poison : Bool
  deriving DecidableEq, Repr

/-- A commit write of a batch (R360). -/
structure CommitWrite where
  batch : DWord
  gallery : Nat
  pass : Nat
  bp : Nat
  word : Nat
  value : Word
  deriving DecidableEq, Repr

/-- What the array is doing (R105). -/
inductive ArrayPhase where
  | idle | cleared | inPass | tail
  deriving DecidableEq, Repr

/-- The Boolean processor array. BP n of Gallery g has number 256 g + n (R102); words and rows are keyed by
BP number × 512 + word and BP number × 128 + row. -/
structure ArrayState where
  instr : Table QWord := []              -- BP number × 512 + i; unlisted: END (R415)
  cur : Table Word := []
  prev : Table Word := []
  curValid : NatSet := []
  prevValid : NatSet := []
  curPoison : NatSet := []
  prevPoison : NatSet := []
  instrPoison : NatSet := []
  routes : Table Word := []              -- (512 g + row) × 8 + port; unlisted: 0
  routePoison : NatSet := []             -- 1,024 g + 2 row + half
  meshSendTab : Table (BitVec 24) := []
  meshRecvTab : Table (BitVec 24) := []
  meshPoison : NatSet := []
  curDev : Table (BitVec 15) := []       -- stored check bits XOR the code of the stored data, per row
  prevDev : Table (BitVec 15) := []
  instrDev : Table (BitVec 15) := []
  routeDev : Table (BitVec 15) := []
  meshDev : Table (BitVec 15) := []
  awaiting : List (Nat × Nat × Nat) := []   -- Gallery, BP, ROW of codewords awaiting line repair (R474)
  repairHold : Bool := false             -- from the next boundary no batch is issued (R474)
  stim : Table (List Word) := []         -- 32 g + port
  refillAt : Nat := 0                    -- round-robin position of R677
  galleries : Table GalleryInfo := []
  toPower : NatSet := []                 -- Galleries waiting to be powered (R391)
  powerGroup : Nat := 0                  -- Galleries powered together while a power-up is in progress
  bus : List BusWord := []
  flight : List BlvdWord := []
  rx : List BlvdWord := []
  meshHeld : List MeshHeld := []
  meshOut : List MeshOut := []
  tokenM0 : Option MeshToken := none
  tokenM1 : Option MeshToken := none
  sentToken : Option (BitVec 24 × BitVec 12) := none
  meshBlocksSent : List (MLink × Block) := []
  meshBlockErrors : DWord := 0
  meshWaiting : Bool := false
  phase : ArrayPhase := .idle
  running : Option DWord := none         -- batch whose burst is in progress
  pass : Nat := 0
  passes : Nat := 0
  step : Nat := 0                        -- highest step executed plus one
  xmask : Word := 0
  halves : List (DWord × Nat) := []      -- batch and half (2: whole bank) held for the unload sequencer (R160)
  snapshotBatch : Option DWord := none   -- batch frozen under R176
  patrolPos : Nat := 0
  patrolLast : Table Nat := []           -- row key to the number of batches committed at its last check (R472)
  meshLock0 : NatSet := []               -- lanes of M0 and M1 with word lock (R267)
  meshLock1 : NatSet := []
  commits : List CommitWrite := []       -- commit writes of batches not yet committed (R360)
  deriving DecidableEq, Repr

/-- A batch descriptor's fields (R141). -/
structure Descriptor where
  batch : DWord := 0
  firstPattern : DWord := 0
  patterns : Nat := 0
  capture : Nat := 0
  clearPrev : Bool := false
  xmaskEn : Bool := false
  last : Bool := false
  cmpOff : Bool := false
  shiftLen : Nat := 0
  shiftDiv : Nat := 0
  capGap : Nat := 0
  passes : Nat := 0
  cyclePeriod : Nat := 0
  stimPtr : Nat := 0
  stimLen : Nat := 0
  xmaskPtr : Nat := 0
  unloadPtr : Nat := 0
  deriving DecidableEq, Repr

/-- A suspect window of a site in a batch (R279, R289): first cycle offset, length, SOURCE and DETAIL. -/
structure Window where
  site : Nat
  first : Nat
  length : Nat
  source : Nat
  detail : Nat
  deriving DecidableEq, Repr

/-- A site's lost records of a batch (R295, R296). -/
structure Lost where
  site : Nat
  count : Nat
  pattern : DWord
  cycle : BitVec 24
  deriving DecidableEq, Repr

/-- A committed batch as revisions need it (R310): its cycles and the verdicts delivered. -/
structure Committed where
  batch : DWord
  first : Nat
  last : Nat
  verdicts : List (Nat × Nat)
  deriving DecidableEq, Repr

/-- A batch from its fetch to its release. -/
structure Batch where
  d : Descriptor := {}
  mode : BitVec 2 := 0
  overlap : Bool := false
  ringIndex : DWord := 0
  malformed : Bool := false
  freeze : Bool := false
  issuedA : Bool := false
  issuedB : Bool := false
  stimSent : Table Nat := []             -- words written per ARRAY stream
  burstBegun : Bool := false
  burstDone : Bool := false
  egressBegun : Bool := false
  firstEgress : Nat := 0                 -- FCLK cycle of the first egress cycle
  egressDone : Bool := false
  comparesDone : Bool := false
  compareEnd : Nat := 0                  -- FCLK cycle after the last compare cycle
  egressEnd : Nat := 0                   -- FCLK cycle after the last egress cycle
  delivered : Nat := 0                   -- deliveries made (R170)
  rerun : Bool := false
  umapUnknown : Bool := false            -- R458: rows presented unknown from now on
  nstream : Nat := 0
  nrows : Nat := 0
  causes : List (Nat × Nat) := []        -- site, CAUSE
  windows : List Window := []
  fails : List (Nat × Nat × Nat) := []   -- site, fails counted, first fail's cycle offset
  lost : List Lost := []
  verdictsFormed : Bool := false
  committed0 : Bool := false
  committed1 : Bool := false
  passed0 : Bool := false                -- its commit record has passed from the queue
  passed1 : Bool := false
  visible0 : Bool := false               -- its commit is covered by a writeback
  visible1 : Bool := false
  lostSaved : List Lost := []            -- lost counts at the last commit (R309)
  twinDue : List Nat := []               -- TWIN_STATUS bits to set once its verdicts are visible
  agreed : Bool := false                 -- the digests agree, or arbitration lets this member commit
  peerFault : Bool := false
  digestMine : Option QWord := none
  digestPeer : Option QWord := none
  digestFirst : Option (QWord × QWord) := none   -- the first run's digests, mine and the peer's
  deriving DecidableEq, Repr

/-- What egress carries (R155, R157 to R159, R169). -/
inductive EgressPhase where
  | idle | hold | load | gap | emul | flush
  deriving DecidableEq, Repr

/-- The egress side of the Docents. -/
structure Egress where
  phase : EgressPhase := .idle
  batch : Option DWord := none           -- batch on egress
  pattern : Nat := 0
  cycle : Nat := 0                       -- cycle within the phase
  emulated : Nat := 0                    -- emulated cycle q
  waitingUnload : Option DWord := none   -- batch whose last pattern waits to unload (R159)
  stopped : Bool := false                -- a fabric stop is in force (R173)
  stopA : Bool := false
  stopB : Bool := false
  resumedA : Bool := false
  resumedB : Bool := false
  shift : Nat := 0                       -- total cycles of stops
  lastBits : Table Bool := []            -- channel to the last value carried (R255)
  taken : List (Nat × Nat × BitVec 34) := []   -- link, lane and slot word of the last take
  rerunFrom : Option DWord := none       -- a re-run begins at the next pattern boundary (R308)
  batchStart : Bool := false             -- the one cycle of R233, RSRC 0b10
  deriving DecidableEq, Repr

/-- A row waiting to be read and presented (R164, R170). -/
structure RowDue where
  batch : DWord
  pattern : Nat
  row : Nat
  passIndex : Nat
  first : Bool
  presentAt : Nat
  length : Nat
  late : Bool
  deriving DecidableEq, Repr

/-- The unload sequencer and the expected-stream port (R163). -/
structure Unload where
  due : List RowDue := []
  es : QWord := 0xAAAAAAAAAAAAAAAA#64     -- every stream unknown
  esFirst : Bool := false
  current : Option (DWord × Nat × Nat) := none   -- batch, pattern, row or pass index last presented (R148)
  read : List (RowDue × QWord) := []     -- rows read and not yet presented, with their ES value
  digestEs : List (DWord × QWord) := []  -- batch and ES of each cycle in which a row was presented (R360)
  deriving DecidableEq, Repr

/-- A Vault's queue state, sticky flags and read data (R210 to R214). -/
structure VaultState where
  count : Nat := 0
  rptr : Nat := 0
  wptr : Nat := 0
  ovf : Bool := false
  udf : Bool := false
  ce : Bool := false
  ue : Bool := false
  rdata : Word := 0
  deriving DecidableEq, Repr

/-- What a Vault samples at the end of the cycle last evaluated (R211): its inputs, its state before, and the word that its
read or pop takes, as it stands before any write of that cycle. -/
structure VaultSample where
  edge : Bool := false
  held : Bool := false                   -- its selected reset acts (R215), or the resets stage is not released
  waddr : Nat := 0
  wdata : Word := 0
  we : Bool := false
  raddr : Nat := 0
  re : Bool := false
  clr : Bool := false
  count : Nat := 0
  wptr : Nat := 0
  place : Nat := 0                       -- address of the word read or popped
  word : Word := 0
  devHigh : BitVec 5 := 0
  devLow : BitVec 5 := 0
  wrote : Bool := false
  fetched : Bool := false
  deriving DecidableEq, Repr

/-- A fabric capture (R241): per block the stored bits, edge detectors and Vault state. -/
structure Capture where
  stored : List DWord
  edges : List DWord
  vaults : List VaultState
  batch : DWord
  offset : DWord
  deriving DecidableEq, Repr

/-- The macrocell fabric. Bits of macrocell m of block b stand in bit m of word b; the wires and Avenue drivers of Square b in
bit o of entry b. -/
structure Fabric where
  frames : Table CfgFrame := []          -- live configuration frames 0 to 6,143, block memories among them; unlisted: 0
  stored : List DWord := List.replicate 128 0   -- S of the next cycle
  edge : List DWord := List.replicate 128 0     -- H1 of the cycle last evaluated
  storedNow : List DWord := List.replicate 128 0   -- S of the cycle last evaluated
  edgeNow : List DWord := List.replicate 128 0
  vaultsNow : List VaultState := List.replicate 32 {}
  mcOut : List DWord := List.replicate 128 0    -- outputs to routing of the cycle last evaluated
  inputs : List QWord := List.replicate 128 0   -- block inputs of the cycle last evaluated
  wires : List (BitVec 128) := List.replicate 128 0     -- Square output registers
  avenueDrv : List QWord := List.replicate 128 0        -- Avenue driver registers: 32 of the row, 32 of the column
  avenueRx : BitVec 768 := 0             -- Avenue values registered by the receiving Squares
  contended : NatSet := []               -- Avenues whose drivers the contention monitors have disabled
  contendSince : Table Nat := []
  vaultWords : Table Word := []          -- 2,048 v + w
  vaultDev : Table (BitVec 5) := []      -- 2 × (2,048 v + w) + byte: check deviation
  vaults : List VaultState := List.replicate 32 {}
  vaultIn : List VaultSample := List.replicate 32 {}
  ctEdges : BitVec 4 := 0                -- edges of CT0 to CT3 at the end of the cycle last evaluated
  ingress : Table Bool := []             -- ingress register, per port
  qualifier : Table Bool := []
  inBits : Table Bool := []              -- ingress bits at the block inputs in the cycle last evaluated
  egress : Table Bool := []              -- per port, what the link takes: the outputs of two cycles before (R227)
  egressLast : Table Bool := []
  egressNext : Table Bool := []
  userIn : BitVec 16 := 0
  userOut : BitVec 16 := 0
  userEn : BitVec 16 := 0
  userGrn : BitVec 16 := 0               -- user inputs one cycle earlier (R233)
  userGrn2 : BitVec 16 := 0              -- and two
  sigLast : List Bool := List.replicate 5 false   -- CT1 to CT3, GRN_A, GRN_B source outputs one cycle earlier
  strobes : NatSet := []                 -- sites whose strobe is 1 in the cycle
  strobed : NatSet := []                 -- those already turned into records
  failRep : NatSet := []                 -- ports with a fail report in the cycle
  maskRep : NatSet := []
  stopA : Bool := false
  stopB : Bool := false
  resumeA : Bool := false
  resumeB : Bool := false
  ma : List (BitVec 40) := []            -- MA values of recent cycles, newest first (R322)
  tR : Nat := 0                          -- first cycle after the resets stage (R231)
  capture : Option Capture := none
  stopCapture : Option (Nat × Word) := none     -- reply slot and tag of a pending STOP capture
  driverCheck : NatSet := []             -- frames the Conservator checks before it resumes (R236)
  deriving DecidableEq, Repr

/-- A lane's state as R640 encodes it. -/
inductive LaneState where
  | disabled | training | up | failed | lost | absent
  deriving DecidableEq, Repr

/-- One serial lane of a field link. -/
structure Lane where
  state : LaneState := .disabled
  step : Nat := 0                        -- training step; 7 once its CONFIG is sent, 8 once step 6 has ended
  wordLock : Bool := false
  sideLock : Bool := false
  goodQuarters : Nat := 0
  badQuarters : Nat := 0
  lastQuarter : Option (Nat × Nat) := none      -- FRAME, QUARTER of the last quarter
  partnerStep : Nat := 0                 -- training step the partner announced last
  descSeen : List (Nat × DWord) := []    -- the DESC part received last, per part
  descTwice : NatSet := []               -- parts received twice identically
  descDone : Bool := false               -- step 3 has ended
  descriptor : Option Record := none
  frameStarts : Nat := 0                 -- frame starts measured in step 5
  echo64 : Nat := 0                      -- E_l in 1/64 cycle
  echoNew : Nat := 0                     -- E_l measured in step 5 of the training in progress
  rpad : Nat := 0
  delay64 : Nat := 0                     -- D_l in 1/64 cycle
  configSent : Nat := 0                  -- CONFIG messages of the last APPLY
  applyLeft : Nat := 0                   -- egress frames until the partner applies them
  applyFrame : Option Nat := none        -- the frame whose STATUS must report the count
  alarm : Bool := false                  -- the last STATUS carried ALARM = 1
  lastWord : Nat := 0                    -- delivery cycle of the last word (R249)
  rxWord : Nat := 0                      -- place of the next word in its ingress frame
  rxCrc : Nat := 0xFFFF                  -- CRC of the ingress frame in progress
  prevCrc : Option Word := none          -- CRC of the last whole ingress frame
  frameStart : Nat := 0                  -- delivery cycle of the frame's first word
  prevStart : Nat := 0
  failedByDecision : Bool := false
  stopRetry : Bool := false              -- attempts stop until RETRAIN (R282)
  rejoinDue : Bool := false              -- a retry succeeded: rejoins at the next batch boundary
  checkedTo : Nat := 0                   -- delivery cycles before this one lie in checked frames (R283)
  statusTo : Nat := 0                    -- egress cycles before this one lie in reported frames (R283)
  egCrc : Nat := 0xFFFF                  -- CRC of the egress frame in progress (R260)
  egPrevCrc : Option Word := none        -- CRC of the last whole egress frame
  egQuarter : QWord := 0                 -- side-channel quarter in progress on egress
  outMsgs : List (Nat × DWord) := []     -- CONFIG and APPLY messages to send: MTYPE and MDATA
  suspectFrom : Option Nat := none       -- delivery cycle from which drift makes the lane suspect (R276)
  wordErrors : DWord := 0
  crcErrors : DWord := 0
  quarterErrors : DWord := 0
  lostCount : DWord := 0
  wordsSeen : Nat := 0                   -- words received, and those of the last 2^20 with an error (R280)
  errWords : List Nat := []
  framesSeen : Nat := 0                  -- frames checked, and those of the last 4,096 that failed (R280)
  errFrames : List Nat := []
  handed : Bool := false                 -- handed to the survey unit and not yet decided
  deriving DecidableEq, Repr

/-- One field link. -/
structure FieldLink where
  lanes : List Lane := List.replicate 32 {}
  rate34 : Bool := true
  everTrained : Bool := false
  retrainDue : Bool := false
  remeasureDue : Bool := false
  remeasureCode : Nat := 0x08
  measured : Bool := false               -- a re-measurement has completed and is not yet applied
  remeasureHeld : Option Nat := none     -- a re-measurement withheld by HOLD: its code
  failedCount : Nat := 0                 -- lanes failed by decision since the load
  fallback : Bool := false
  fullDue : Bool := true                 -- the next training runs every step of R265
  frame : Nat := 0                       -- egress frame number and word index (R257)
  word : Nat := 0
  egStart : Nat := 0                     -- FCLK cycle of word 0 of the egress frame in progress
  secondOfPair : Bool := false           -- second cycle of an egress pair at half rate (R249)
  tempAtEcho : Int := 0
  deriving DecidableEq, Repr

/-- A record on its way to the Ledger ring: the batch it belongs to, whether it is a site record, its 128 bits without SEQ
and whether it may be lost (R295). -/
structure QRec where
  batch : Option DWord
  site : Bool
  bits : Record
  losable : Bool
  deriving DecidableEq, Repr

/-- A record in a Common Store Ledger ring: with its SEQ, and the ring slot it stands in (R298). -/
structure RingRec where
  qrec : QRec
  bits : Record
  slot : Nat
  deriving DecidableEq, Repr

/-- A record on its way across the barrier, or held by the host die; `keep` falls when its batch is discarded (R309). -/
structure FlightRec where
  qrec : QRec
  bits : Record
  keep : Bool
  deriving DecidableEq, Repr

/-- A commit record written to a host ring and not yet covered by its writeback (R301): the index after it, its BATCH, and
what its writeback makes visible. -/
structure CommitDue where
  index : Nat
  batch : DWord
  notPass : Bool
  retest : Bool
  indet : Bool
  rerun : Bool
  decided : Bool
  deriving DecidableEq, Repr

/-- One link's Ledger (R292 to R303). -/
structure Ledger where
  offered : List QRec := []
  waiting : List QRec := []
  queue : List QRec := []
  gapsEntered : Nat := 0                 -- gap records that entered since the last RECORD_ENTER (R294)
  ring : List RingRec := []
  ringIndex : Nat := 0                   -- ring slots used so far
  flying : List FlightRec := []
  crossed : List FlightRec := []         -- held by the host die for want of ring space
  passedSite : List (DWord × Record) := []      -- site records passed on, per uncommitted batch (R360)
  seq : Table (BitVec 24) := []
  linkSeq : BitVec 24 := 0
  seqAtCommit : Table (BitVec 24) := []
  linkSeqAtCommit : BitVec 24 := 0
  commitPlaced : Bool := false           -- a commit record waits to pass on
  commitDue : List CommitDue := []
  accNotPass : Bool := false             -- what the records written since the last commit record hold
  accRetest : Bool := false
  accIndet : Bool := false
  accDecided : Bool := false
  deriving DecidableEq, Repr

/-- The Repair Analyser's geometry (R330). -/
structure Geometry where
  siteFirst : Nat := 0
  siteCount : Nat := 0
  rowLsb : Nat := 0
  rowWidth : Nat := 1
  colLsb : Nat := 0
  colWidth : Nat := 0
  regLsb : Nat := 0
  regWidth : Nat := 0
  sr : Nat := 0
  sc : Nat := 0
  deriving DecidableEq, Repr

/-- A region tracker's state (R333 to R337). -/
structure Tracker where
  mustRows : List Nat := []
  mustCols : List Nat := []
  sparse : List (Nat × Nat) := []
  unrepairable : Bool := false
  incomplete : Bool := false
  suspect : Bool := false
  fails : DWord := 0
  batch : DWord := 0xFFFFFFFF#32
  deriving DecidableEq, Repr

/-- The Repair Analyser. Trackers are keyed by (site − SITE_FIRST) × 2^REG_WIDTH + region. -/
structure Repair where
  geometry : Option Geometry := none
  working : Table Tracker := []
  committed : Table Tracker := []
  queue : List (Nat × Nat × Nat) := []   -- tracker, row key, column key
  dropped : DWord := 0
  pendingConfig : Option Geometry := none
  pendingClear : List (Nat × Nat) := []  -- first, count
  eventsDue : List (FLink × Nat) := []   -- trackers newly unrepairable, for the event after the writeback
  deriving DecidableEq, Repr

/-- TWIN_STATUS.ROLE. -/
inductive Role where
  | solo | negotiating | primary | mirror | joining | outOfLockstep | detached
  deriving DecidableEq, Repr

/-- A sequenced twin block sent and not yet acknowledged (R350). -/
structure TwinSent where
  tseq : Word
  msg : TwinMsg
  deriving DecidableEq, Repr

/-- A batch announced between the members (R359, R363): the FCLK cycle at which its egress begins, and FREEZE_ON_FAIL. -/
structure Announced where
  batch : DWord
  startAt : Nat
  freeze : Bool
  deriving DecidableEq, Repr

/-- Twin operation (chapter 11). -/
structure Twin where
  role : Role := .solo
  token : Bool := false
  line : Bool := true
  tUp : Bool := false
  lanesLocked : NatSet := []             -- lanes of T with word lock
  leaseValid : Bool := false
  epoch : DWord := 0
  peerEpoch : DWord := 0
  peerRole : BitVec 3 := 0
  peerToken : Bool := false
  peerLast : Option DWord := none        -- the peer's last committed batch
  peerJoin : DWord := 0
  tseqNext : Word := 1
  recvTseq : Word := 0
  unacked : List TwinSent := []
  sent : List TwinSent := []             -- blocks sent, oldest first
  discarded : DWord := 0                 -- blocks of a reserved TKIND (R348)
  caps0 : Option (BitVec 192) := none    -- the peer's capability blocks
  caps1 : Option (BitVec 192) := none
  capsAgree : Bool := false
  announced : List Announced := []
  oneWay : Word := 0
  skew : Word := 0
  joins : Nat := 0                       -- joins measured: the model's own index of the free values of R359
  faultSinceCommit : Bool := false
  faultHistory : List Bool := []         -- newest first, at most 256
  peerHistory : List Bool := []
  peerRetired : Bool := false
  joinBatch : Option DWord := none
  detachDue : Bool := false
  handoverSeen : Bool := false
  switchoverFrames : Nat := 0            -- frames still to carry SWITCHOVER (R370)
  peerSig : Option DWord := none         -- the peer's last sweep signature
  deriving DecidableEq, Repr

/-- A decision waiting for a batch boundary (R384 to R397): its code and argument. -/
structure Decision where
  code : Byte
  arg : Byte
  deriving DecidableEq, Repr

/-- The survey unit. -/
structure Survey where
  rails : List Nat := List.replicate 9 0       -- field rails 0 to 4, host rails 5 to 8, in mV
  sensors : List Int := List.replicate 16 0    -- quarter degrees
  hostRails : List Nat := List.replicate 4 0   -- the host die's own monitor
  hostSensor : Int := 0
  stale : Bool := false
  level : Nat := 0
  sag : Bool := false
  hot : Bool := false
  hotFirst : Bool := false
  policy : Table Word := []                    -- unlisted: the entry's reset value (R383)
  overrides : Byte := 0                        -- OVERRIDE bits in force
  pending : List Decision := []
  withheld : NatSet := []                      -- classes whose withheld decision was logged
  measuring : Bool := false
  upsets : Nat := 0                            -- repairs in this window
  quietWindows : Nat := 0
  arrayCe : Nat := 0
  lowCeWindows : Nat := 0
  stealSwitch : Bool := false
  levelDue : Option (Nat × Bool) := none       -- throttle level for the next pass boundary, and whether hot is the cause
  deriving DecidableEq, Repr

/-- One settings copy of the Conservator (R482). -/
structure ConsSettings where
  sweepLevel : Nat := 0
  frameCount : Nat := 6144
  skip : NatSet := []
  shadowBase : Nat := 0xE00000
  inventoryBase : Nat := 0xEC0000
  crcBase : Nat := 0xF80000
  deriving DecidableEq, Repr

/-- The Conservator (R477 to R485). -/
structure Conservator where
  copies : List ConsSettings := [{}, {}, {}]
  reference : ConsSettings := {}
  running : Bool := false
  next : Nat := 0
  lastCheck : Table Nat := []            -- frame to the cycle of its previous check
  loadEnd : Nat := 0
  lateRepairs : NatSet := []             -- non-essential repairs due at the end of the sweep
  computed : Table DWord := []           -- CRCs computed in this sweep
  signatureAtLoad : DWord := 0
  mismatches : Nat := 0
  essential : DWord := 0
  nonEssential : DWord := 0
  falseMismatch : DWord := 0
  lastSignature : Option DWord := none   -- of the last sweep
  shadowBroken : Bool := false           -- R481: no batch until the next load
  stopDue : Bool := false                -- R485: stopped outside lockstep
  stopHold : Bool := false               -- one of the two holds back every batch, from the next boundary
  deriving DecidableEq, Repr

/-- Error counters and the Correction Log (R463 to R467). -/
structure Protection where
  log : List QWord := []                 -- oldest first, at most 16
  perStore : Table (DWord × DWord) := [] -- STORE to correctable and uncorrectable counts
  unlocked : Bool := false
  repairEvents : List DWord := []
  localDev : Table (BitVec 5) := []      -- core local memory and Mailbox check deviations, keyed by store space
  deriving DecidableEq, Repr

/-- A router of the NoC (R491, R498). -/
structure Router where
  epoch : Bool := false
  asleepReplies : DWord := 0
  maxUrgency : Nat := 0
  deriving DecidableEq, Repr

/-- A request outstanding in the NoC. -/
structure NocRequest where
  header : QWord
  flits : List QWord
  urgency : Nat
  asleepCount : Nat
  deriving DecidableEq, Repr

/-- Progress of the Common Store background test (R512). -/
inductive BankTest where
  | idle
  | copying (logical physical loan : Nat)
  | march (logical former : Nat)
  deriving DecidableEq, Repr

/-- The on-chip network and Common Store. -/
structure Store where
  cs : List Host.Cell := []              -- Common Store bytes as stored; unlisted: 0
  csDev : Table (BitVec 5) := []         -- byte address to check deviation
  granules : NatSet := []                -- granules with the valid bit set
  bankMap : List Nat := List.range 32
  loan : Option Nat := some 32
  retired : Option Nat := none
  nextTest : Nat := 0
  test : BankTest := .idle
  sleepingGroups : NatSet := []
  routes : Table Word := []              -- bank × 16,384 + router × 128 + destination; unlisted: 0
  epoch : Bool := false
  routers : Table Router := []
  outstanding : List NocRequest := []
  replies : List (QWord × List QWord) := []
  reservations : List (Nat × Nat) := []  -- node, granule
  deriving DecidableEq, Repr

/-- Power states of the two sides (R516). -/
inductive PowerState where
  | off | dormant | standby | armed | running
  deriving DecidableEq, Repr

/-- Power, reset and clocks. -/
structure Power where
  field : PowerState := .off
  host : PowerState := .standby
  target : Option PowerState := none     -- a wake other than by PWR_REQUEST raises the field side to this state
  fieldRails : Bool := true
  hostRails : Bool := true
  domains : List Domain := []            -- domains gated
  tref : Bool := true
  clkInForce : Word := 0x1840#16
  clkPrev : Word := 0x1840#16
  relockS : Bool := false
  relockF : Bool := false
  clkDue : Bool := false                 -- a committed clock change waits for its moment
  hostWake : Bool := false               -- the host die is on its way from Dormant to Standby
  cbHeld : Bool := false                 -- a control-bus access is held with CB_RDY inactive
  fclk : Nat := 0                        -- FCLK cycle number
  timeMarked : Bool := false             -- a TIME_MARK has arrived
  hostTimeBase : Nat := 0                -- ns of the last TIME_MARK, or 0 from the last load
  hostTimeAt : Nat := 0                  -- FCLK cycle at which it arrived
  deriving DecidableEq, Repr

/-- Why a core is halted (R565), or none. -/
structure CoreState where
  halted : Bool := false
  cause : Byte := 0
  atReset : Bool := true
  restarting : Bool := false
  stepLeft : Nat := 0
  wdogPeriod : Nat := 0xC                -- code in force since the last reload
  wdogReloads : Nat := 0
  traceMask : BitVec 31 := 0
  regGen : Nat := 0                      -- the model's own: index of the free values its registers hold since it last ran
  deriving DecidableEq, Repr

/-- A service call queued and not yet replied to (R542). -/
structure QueuedCall where
  slot : Nat
  tag : Word
  call : Word
  args : List QWord
  forwarded : Bool
  deriving DecidableEq, Repr

/-- Cross-trigger channel (R565). -/
structure Channel where
  sources : DWord := 0
  sinks : Word := 0
  matchIndex : DWord := 0
  deriving DecidableEq, Repr

/-- Cores, Mailbox, debug port and trace (chapter 16). -/
structure Cores where
  curator : CoreState := {}
  docentA : CoreState := {}
  docentB : CoreState := {}
  warden : CoreState := {}
  alert : Bool := false                  -- CB_INT_N alert of R576
  mailbox : Table Byte := []             -- Mailbox bytes; unlisted: 0
  calls : List QueuedCall := []
  eventLog : List QWord := []            -- oldest first, at most 128
  eventCount : Byte := 0
  coreRegs : Table DWord := []           -- core × 256 + register
  localMem : Table Byte := []            -- core × 0x40000 + address
  channels : List Channel := List.replicate 8 {}
  nonce : Option (QWord × BitVec 2) := none
  wrongResponses : Nat := 0
  lockedOut : Bool := false
  resetHold : Bool := true               -- the 50 µs of R556
  haltOnReset : Bool := false
  debugReply : List Byte := []           -- last reply body
  debugReplies : Nat := 0
  lastRequest : List Byte := []          -- body of the last valid request
  trace : List QWord := []
  traceToRing : Bool := false
  traceBase : Nat := 0
  traceSize : Nat := 0
  traceNext : Nat := 0                   -- packets written to the ring
  traceDropped : DWord := 0
  msixTable : Table Byte := []
  freeCount : Nat := 0                   -- the model's own: counts the free values drawn
  deriving DecidableEq, Repr

/-- One pin crossbar entry and its pad (R587). -/
structure Pin where
  osel : BitVec 6 := 0
  isel : BitVec 6 := 0
  pull : BitVec 2 := 1
  drive : Bool := false
  od : Bool := false
  swout : Bool := false
  locked : Bool := false
  pad : Bool := false                    -- level that external drivers and the pull give the pad
  mirror : Bool := false                 -- the level the host die last learnt of (R589)
  held : Option Bool := none             -- level driven while the side is Dormant (R596)
  deriving DecidableEq, Repr

/-- General-purpose pins and the signals they carry. -/
structure Pins where
  pins : List Pin := List.replicate 40 {}
  handlerPrev : Bool := false            -- HANDLER_START as last sampled (R585)
  trigPulses : List Nat := [0, 0, 0, 0]  -- pulses sent on TRIG_OUT0 to 3 (R582)
  endOfTest : Bool := false
  deriving DecidableEq, Repr

/-- The EXL-1640. -/
structure State where
  variant : Variant := .a
  regs : RegFile := {}
  shadow : StagedSet := {}
  inForce : StagedSet := {}
  pendingSet : Option StagedSet := none
  masters : List MasterView := List.replicate 5 {}
  crossReads : List CrossRead := []
  nextTag : Word := 0
  fieldCopy : List Word := List.replicate 64 0   -- register values field units hold (R53)
  heldCommands : List (Master × BitVec 6 × Word) := []   -- WO commands for a Dormant field side (R54)
  stream : StreamRegs := {}
  hostOut : List HostOut := []
  barrier : Barrier := {}
  loader : Loader := {}
  released : Released := {}
  params : Params := {}
  imageId : QWord := 0
  otp : Otp := {}
  otpRequest : Option OtpRequest := none
  array : ArrayState := {}
  batches : List Batch := []
  fetchStopped : Bool := false           -- R143
  history : List Committed := []         -- batches committed since the last load
  anyBatch : Bool := false               -- the next descriptor may carry any BATCH
  lastBatch : DWord := 0
  egress : Egress := {}
  unload : Unload := {}
  fabric : Fabric := {}
  link0 : FieldLink := {}
  link1 : FieldLink := {}
  coffset : Nat := 0
  alignDue : Bool := false               -- an alignment is to be computed and applied at the boundary (R390)
  delaysDue : Bool := false              -- every delay is to be sent with it
  ledger0 : Ledger := {}
  ledger1 : Ledger := {}
  repair : Repair := {}
  twin : Twin := {}
  survey : Survey := {}
  conservator : Conservator := {}
  protection : Protection := {}
  store : Store := {}
  power : Power := {}
  cores : Cores := {}
  pins : Pins := {}
  pending : List Instr := []             -- waiting commands, first in, first out
  deriving DecidableEq, Repr

/-- The machine right after reset: the rails of both sides have just become good (R654), the host die runs, the field side is
on its way from Off to Standby (R518), the barrier is untrained, no image is loaded and every register holds its reset value
(R615, R616). DESIGN CHOICE (log entry 2). -/
def State.reset : State := {}

end Sys2Proof.Machine
end

