-- ==== Sys2Proof/Machine/Bits.lean ====
section
/-! DEFINITION. Bit fields (R13), byte order (R14), sparse stores, and the cyclic redundancy codes the chapters name. -/

namespace Sys2Proof.Machine

/-- Bits [hi:lo] of a word, as a number (R13). -/
def fld {n : Nat} (x : BitVec n) (hi lo : Nat) : Nat := (x.toNat >>> lo) % 2 ^ (hi + 1 - lo)

/-- `x` with bits [hi:lo] set to `v`. -/
def setFld {n : Nat} (x : BitVec n) (hi lo v : Nat) : BitVec n :=
  BitVec.ofNat n (x.toNat - (fld x hi lo) * 2 ^ lo + (v % 2 ^ (hi + 1 - lo)) * 2 ^ lo)

/-- `x` with bit `i` set to `b`. -/
def setBit {n : Nat} (x : BitVec n) (i : Nat) (b : Bool) : BitVec n := setFld x i i b.toNat

/-- The bits of a number, most significant first, `n` of them. -/
def bitsMsb : Nat → Nat → List Bool
  | 0, _ => []
  | n + 1, v => v.testBit n :: bitsMsb n v

/-- The bytes of a number, most significant byte first (R14), `n` of them. -/
def bytesOf : Nat → Nat → List Byte
  | 0, _ => []
  | n + 1, v => BitVec.ofNat 8 (v >>> (8 * n)) :: bytesOf n v

/-- The number that bytes spell, most significant byte first (R14). -/
def ofBytes (bs : List Byte) : Nat := bs.foldl (fun a b => a * 256 + b.toNat) 0

/-- The number that bits spell, most significant first. -/
def ofBits (bs : List Bool) : Nat := bs.foldl (fun a b => 2 * a + b.toNat) 0

/-- One bit of a cyclic code of width `w`, most significant bit first, no reflection. -/
def crcBit (w poly r : Nat) (b : Bool) : Nat :=
  let r2 := (2 * r) % 2 ^ w
  if r.testBit (w - 1) != b then r2 ^^^ poly else r2

/-- A cyclic code over bits, most significant first, with no final inversion. -/
def crcMsb (w poly init : Nat) (bs : List Bool) : Nat := bs.foldl (crcBit w poly) init

/-- The CRC-16 of mesh and twin blocks and of link frames (R125, R260). -/
def crc16 (bs : List Bool) : Nat := crcMsb 16 0x1021 0xFFFF bs

/-- The CRC-8 of side-channel quarters and debug frames (R258, R550). -/
def crc8 (bs : List Bool) : Nat := crcMsb 8 0x07 0x00 bs

/-- The CRC-64 of the batch digest (R360). -/
def crc64 (bs : List Bool) : Nat := crcMsb 64 0x42F0E1EBA9EA3693 0xFFFFFFFFFFFFFFFF bs

/-- Eight reflected steps of CRC-32C. -/
def crc32cShift : Nat → Nat → Nat
  | 0, r => r
  | n + 1, r => crc32cShift n (if r % 2 = 1 then (r >>> 1) ^^^ 0x82F63B78 else r >>> 1)

/-- CRC-32C over bytes: polynomial 0x1EDC6F41, reflected, initial value and final XOR all ones (R408). -/
def crc32c (bs : List Byte) : Nat :=
  (bs.foldl (fun r b => crc32cShift 8 (r ^^^ b.toNat)) 0xFFFFFFFF) ^^^ 0xFFFFFFFF

/-- The value a sparse store holds at a key; `d` where the key is not listed. -/
def tget {α : Type} (d : α) (t : Table α) (k : Nat) : α :=
  match t with
  | [] => d
  | (j, v) :: rest => if j = k then v else tget d rest k

/-- Remove a key from a sparse store. -/
def tdel {α : Type} (t : Table α) (k : Nat) : Table α :=
  match t with
  | [] => []
  | (j, v) :: rest => if j = k then tdel rest k else (j, v) :: tdel rest k

/-- List a key with a value, in ascending key order. -/
def tput {α : Type} (t : Table α) (k : Nat) (v : α) : Table α :=
  match t with
  | [] => [(k, v)]
  | (j, w) :: rest =>
    if k < j then (k, v) :: (j, w) :: rest
    else if j = k then (k, v) :: rest
    else (j, w) :: tput rest k v

/-- Write a sparse store: writing the default removes the entry, so that equal stores are equal lists. -/
def tset {α : Type} [DecidableEq α] (d : α) (t : Table α) (k : Nat) (v : α) : Table α :=
  if v = d then tdel t k else tput t k v

/-- Put a number into a set. -/
def nins (s : NatSet) (k : Nat) : NatSet :=
  match s with
  | [] => [k]
  | j :: rest => if k < j then k :: j :: rest else if j = k then j :: rest else j :: nins rest k

/-- Take a number out of a set. -/
def ndel (s : NatSet) (k : Nat) : NatSet :=
  match s with
  | [] => []
  | j :: rest => if j = k then rest else j :: ndel rest k

/-- The element of a list at an index, or a default. -/
def lget {α : Type} (d : α) (l : List α) (i : Nat) : α := l.getD i d

/-- A list with the element at an index replaced. -/
def lset {α : Type} (l : List α) (i : Nat) (v : α) : List α := l.set i v

/-- A count that saturates at all ones (R39, R285, R433, R467). -/
def satInc {n : Nat} (c : BitVec n) : BitVec n := if c = BitVec.allOnes n then c else c + 1

/-- A saturating addition of a number to a count. -/
def satAdd {n : Nat} (c : BitVec n) (k : Nat) : BitVec n :=
  if c.toNat + k < 2 ^ n then BitVec.ofNat n (c.toNat + k) else BitVec.allOnes n

end Sys2Proof.Machine
end

