-- ==== Sys2Proof/Machine/Crypto.lean ====
section
/-! DEFINITION. The named standards that the loader and the debug port use (R407, R419, R434, R448, R560): AES-256 with GCM and
key wrap, SHA-384 with HMAC and HKDF, and ECDSA on P-384. The spec names them; their content is taken from the published
standards. PRESUMED. -/

namespace Sys2Proof.Machine

/-! ### AES-256 -/

/-- Multiplication by x in the field of AES. -/
def xtime (a : Nat) : Nat := if a < 128 then 2 * a else (2 * a) ^^^ 0x11B

/-- The product of two field elements. -/
def gmul (a b : Nat) : Nat :=
  ((List.range 8).foldl (fun (r : Nat × Nat) i => (if b.testBit i then r.1 ^^^ r.2 else r.1, xtime r.2)) (0, a)).1

/-- The inverse a^254, with 0 for 0: seven squarings, each followed by a product but the last. -/
def ginv (a : Nat) : Nat :=
  let r := (List.range 6).foldl (fun r _ => gmul (gmul r r) a) a
  gmul r r

/-- An octet rotated left by `n`. -/
def rot8 (x n : Nat) : Nat := (x * 2 ^ n + x / 2 ^ (8 - n)) % 256

/-- The substitution box and its inverse. -/
def sbox (a : Nat) : Nat :=
  let x := ginv a
  x ^^^ rot8 x 1 ^^^ rot8 x 2 ^^^ rot8 x 3 ^^^ rot8 x 4 ^^^ 0x63
def sboxInv (y : Nat) : Nat := ginv (rot8 y 1 ^^^ rot8 y 3 ^^^ rot8 y 6 ^^^ 0x05)

/-- XOR of two byte lists. -/
def xorBytes (a b : List Nat) : List Nat := (a.zip b).map (fun p => p.1 ^^^ p.2)

/-- Key expansion: the words so far, newest last, extended by one (Nk = 8). -/
def keyWord (ws : List (List Nat)) : List Nat :=
  let i := ws.length
  let t := lget [] ws (i - 1)
  let u := if i % 8 = 0 then
      let s := (t.drop 1 ++ t.take 1).map sbox
      xorBytes s [(List.range (i / 8 - 1)).foldl (fun a _ => xtime a) 1, 0, 0, 0]
    else if i % 8 = 4 then t.map sbox
    else t
  xorBytes (lget [] ws (i - 8)) u

/-- The 15 round keys of a 32-byte key. -/
def roundKeys (key : List Nat) : List (List Nat) :=
  let first := (List.range 8).map (fun i => (key.drop (4 * i)).take 4)
  let ws := (List.range 52).foldl (fun ws _ => ws ++ [keyWord ws]) first
  (List.range 15).map (fun r => ((ws.drop (4 * r)).take 4).flatten)

/-- Row shifts on the 16 bytes held column by column. -/
def shiftRowsBy (sign : Nat) (x : List Nat) : List Nat :=
  (List.range 16).map (fun k => lget 0 x ((k + sign * 4 * (k % 4)) % 16))

/-- A column product with a circulant matrix. -/
def mixWith (m : List Nat) (x : List Nat) : List Nat :=
  (List.range 16).map (fun k =>
    (List.range 4).foldl (fun a j => a ^^^ gmul (lget 0 m ((j + 4 - k % 4) % 4)) (lget 0 x (k / 4 * 4 + j))) 0)

/-- One encryption round, without the last round's difference. -/
def aesRound (x k : List Nat) : List Nat := xorBytes (mixWith [2, 3, 1, 1] (shiftRowsBy 1 (x.map sbox))) k

/-- Encrypt one block with round keys. -/
def aesEnc (ks : List (List Nat)) (x : List Nat) : List Nat :=
  let y := ((ks.drop 1).take 13).foldl aesRound (xorBytes x (lget [] ks 0))
  xorBytes (shiftRowsBy 1 (y.map sbox)) (lget [] ks 14)

/-- One decryption round. -/
def aesUnround (x k : List Nat) : List Nat := mixWith [14, 11, 13, 9] (xorBytes ((shiftRowsBy 3 x).map sboxInv) k)

/-- Decrypt one block. -/
def aesDec (ks : List (List Nat)) (x : List Nat) : List Nat :=
  let y := ((ks.drop 1).take 13).reverse.foldl aesUnround (xorBytes x (lget [] ks 14))
  xorBytes ((shiftRowsBy 3 y).map sboxInv) (lget [] ks 0)

/-- A number as `n` octets, most significant first, and back. -/
def octets (n v : Nat) : List Nat := (List.range n).map (fun i => v >>> (8 * (n - 1 - i)) % 256)
def ofOctets (bs : List Nat) : Nat := bs.foldl (fun a b => a * 256 + b) 0

/-- Encrypt a 128-bit number under a 256-bit key. PRESUMED (log entry 78). -/
def aesBlock (ks : List (List Nat)) (v : Nat) : Nat := ofOctets (aesEnc ks (octets 16 v))

/-! ### GCM (R407) -/

/-- The product of two elements of GF(2^128) in GCM's bit order: bit 127 of the number is the coefficient of x^0. -/
def ghashMul (x y : Nat) : Nat :=
  ((List.range 128).foldl (fun (r : Nat × Nat) i =>
    (if x.testBit (127 - i) then r.1 ^^^ r.2 else r.1,
      if r.2 % 2 = 1 then (r.2 / 2) ^^^ (0xE1 <<< 120) else r.2 / 2)) (0, y)).1

/-- Octets cut into 16-byte blocks, the last one padded with zeros. -/
def blocks16 (bs : List Nat) : List Nat :=
  (List.range ((bs.length + 15) / 16)).map (fun i =>
    let b := (bs.drop (16 * i)).take 16
    ofOctets (b ++ List.replicate (16 - b.length) 0))

/-- GHASH of additional data and ciphertext. -/
def ghash (h : Nat) (aad ct : List Nat) : Nat :=
  let last := (8 * aad.length) * 2 ^ 64 + 8 * ct.length
  (blocks16 aad ++ blocks16 ct ++ [last]).foldl (fun a b => ghashMul (a ^^^ b) h) 0

/-- The key stream of counter mode from counter 2 on, applied to octets. -/
def ctrMode (ks : List (List Nat)) (nonce : Nat) (ct : List Nat) : List Nat :=
  let stream := (List.range ((ct.length + 15) / 16)).flatMap (fun i => octets 16 (aesBlock ks (nonce * 2 ^ 32 + i + 2)))
  xorBytes ct stream

/-- Open a sealed message: its plaintext, if the tag holds. -/
def gcmOpen (key : BitVec 256) (nonce : Nat) (aad ct : List Nat) (tag : Nat) : Option (List Nat) :=
  let ks := roundKeys (octets 32 key.toNat)
  let h := aesBlock ks 0
  if ghash h aad ct ^^^ aesBlock ks (nonce * 2 ^ 32 + 1) = tag then some (ctrMode ks nonce ct) else none

/-! ### Key wrap (R448) -/

/-- One unwrap step: the register A and the four key blocks, at step `t` for block `i`. -/
def unwrapStep (ks : List (List Nat)) (r : Nat × List Nat) (t : Nat) : Nat × List Nat :=
  let i := (t - 1) % 4
  let b := ofOctets (aesDec ks (octets 16 ((r.1 ^^^ t) * 2 ^ 64 + lget 0 r.2 i)))
  (b / 2 ^ 64, lset r.2 i (b % 2 ^ 64))

/-- Unwrap a 256-bit key: none where the integrity value fails. -/
def keyUnwrap (kek : BitVec 256) (wrapped : List QWord) : Option (BitVec 256) :=
  let ks := roundKeys (octets 32 kek.toNat)
  let start := ((lget 0 wrapped 0).toNat, ((wrapped.drop 1).take 4).map BitVec.toNat)
  let r := (List.range 24).foldl (fun r j => unwrapStep ks r (24 - j)) start
  if wrapped.length = 5 && r.1 = 0xA6A6A6A6A6A6A6A6 then
    some (BitVec.ofNat 256 (r.2.foldl (fun a b => a * 2 ^ 64 + b) 0))
  else none

/-- The check value of a slot key (R448). -/
def keyCheck (key : BitVec 256) : Word := BitVec.ofNat 16 (aesBlock (roundKeys (octets 32 key.toNat)) 0 / 2 ^ 112)

/-! ### SHA-384 -/

/-- The primes up to 409, of which there are 80. -/
def smallPrimes : List Nat := (List.range 410).filter (fun n => decide (2 ≤ n) && (List.range n).all (fun d => d < 2 || n % d ≠ 0))

/-- The greatest root r below 2^`n` with r^k ≤ v. -/
def rootOf (k v : Nat) : Nat → Nat → Nat
  | 0, r => r
  | n + 1, r => if (r + 2 ^ n) ^ k ≤ v then rootOf k v n (r + 2 ^ n) else rootOf k v n r

/-- The round constants: the first 64 fraction bits of the cube roots of those primes. -/
def shaK : List Nat := smallPrimes.map (fun p => rootOf 3 (p * 2 ^ 192) 70 0 % 2 ^ 64)

/-- The initial value: the first 64 fraction bits of the square roots of the 9th to 16th primes. -/
def sha384Init : List Nat := ((smallPrimes.drop 8).take 8).map (fun p => rootOf 2 (p * 2 ^ 128) 70 0 % 2 ^ 64)

def rotr64 (x n : Nat) : Nat := (x >>> n) ||| (x <<< (64 - n)) % 2 ^ 64
def add64 (a b : Nat) : Nat := (a + b) % 2 ^ 64

/-- The message schedule, extended by one word. -/
def shaExtend (w : List Nat) : List Nat :=
  let t := w.length
  let x := lget 0 w (t - 15)
  let y := lget 0 w (t - 2)
  let s0 := rotr64 x 1 ^^^ rotr64 x 8 ^^^ (x >>> 7)
  let s1 := rotr64 y 19 ^^^ rotr64 y 61 ^^^ (y >>> 6)
  w ++ [add64 (add64 s1 (lget 0 w (t - 7))) (add64 s0 (lget 0 w (t - 16)))]

/-- One round on the eight working words. -/
def shaRound (v : List Nat) (kw : Nat × Nat) : List Nat :=
  match v with
  | [a, b, c, d, e, f, g, h] =>
    let t1 := add64 (add64 h (rotr64 e 14 ^^^ rotr64 e 18 ^^^ rotr64 e 41))
      (add64 ((e &&& f) ^^^ ((e ^^^ (2 ^ 64 - 1)) &&& g)) (add64 kw.1 kw.2))
    let t2 := add64 (rotr64 a 28 ^^^ rotr64 a 34 ^^^ rotr64 a 39) ((a &&& b) ^^^ (a &&& c) ^^^ (b &&& c))
    [add64 t1 t2, a, b, c, add64 d t1, e, f, g]
  | _ => v

/-- One 128-byte block. -/
def shaBlock (h : List Nat) (block : List Nat) : List Nat :=
  let w0 := (List.range 16).map (fun i => ofOctets ((block.drop (8 * i)).take 8))
  let w := (List.range 64).foldl (fun w _ => shaExtend w) w0
  let v := (shaK.zip w).foldl shaRound h
  (h.zip v).map (fun p => add64 p.1 p.2)

/-- SHA-384 of octets: 48 octets. -/
def sha384 (m : List Nat) : List Nat :=
  let pad := (239 - m.length % 128) % 128
  let all := m ++ [0x80] ++ List.replicate pad 0 ++ octets 16 (8 * m.length)
  let h := (List.range (all.length / 128)).foldl (fun h i => shaBlock h ((all.drop (128 * i)).take 128)) sha384Init
  ((h.take 6).flatMap (octets 8))

/-- HMAC-SHA-384 (R560). -/
def hmac384 (key m : List Nat) : List Nat :=
  let k0 := if key.length ≤ 128 then key else sha384 key
  let k := k0 ++ List.replicate (128 - k0.length) 0
  sha384 (k.map (· ^^^ 0x5C) ++ sha384 (k.map (· ^^^ 0x36) ++ m))

/-- The first 32 bytes of HKDF-SHA-384 (R419). -/
def hkdf32 (ikm salt info : List Nat) : List Nat := (hmac384 (hmac384 salt ikm) (info ++ [1])).take 32

/-- The ASCII bytes "ZRDROLL". -/
def rollLabel : List Nat := [0x5A, 0x52, 0x44, 0x52, 0x4F, 0x4C, 0x4C]

/-- The key of epoch `e` from the key of the epoch before (R419). -/
def nextEpochKey (nonce : QWord) (e : Nat) (k : BitVec 256) : BitVec 256 :=
  BitVec.ofNat 256 (ofOctets (hkdf32 (octets 32 k.toNat) (octets 8 nonce.toNat) (rollLabel ++ octets 2 e)))

/-- The key of an epoch (R419): that of epoch −1 is the root key. -/
def epochKey (nonce : QWord) (root : BitVec 256) : Nat → BitVec 256
  | 0 => nextEpochKey nonce 0 root
  | e + 1 => nextEpochKey nonce (e + 1) (epochKey nonce root e)

/-! ### ECDSA on P-384 (R434) -/

def p384 : Nat := 2 ^ 384 - 2 ^ 128 - 2 ^ 96 + 2 ^ 32 - 1
def n384 : Nat := 0xFFFFFFFFFFFFFFFFFFFFFFFFFFFFFFFFFFFFFFFFFFFFFFFFC7634D81F4372DDF581A0DB248B0A77AECEC196ACCC52973
def gx384 : Nat := 0xAA87CA22BE8B05378EB1C71EF320AD746E1D3B628BA79B9859F741E082542A385502F25DBF55296C3A545E3872760AB7
def gy384 : Nat := 0x3617DE4A96262C6F5D9E98BF9292DC29F8F41DBD289A147CE9DA3113B5F0B8C00A60B1CE1D7E819D7A431D7C90EA0E5F

/-- Powers modulo m, from the exponent's top bit down. -/
def powMod (m b e : Nat) : Nat := (bitsMsb 384 e).foldl (fun r bit => if bit then r * r % m * b % m else r * r % m) 1

/-- The inverse modulo a prime. -/
def invMod (m a : Nat) : Nat := powMod m (a % m) (m - 2)

/-- Subtraction modulo p. -/
def subP (a b : Nat) : Nat := (a + p384 - b % p384) % p384

/-- Sum of two points of the curve; none is the point at infinity. -/
def pointAdd (a b : Option (Nat × Nat)) : Option (Nat × Nat) :=
  match a, b with
  | none, q => q
  | q, none => q
  | some (x1, y1), some (x2, y2) =>
    if x1 = x2 && (y1 + y2) % p384 = 0 then none
    else
      let l := if x1 = x2 then (3 * x1 * x1 + (p384 - 3)) % p384 * invMod p384 (2 * y1) % p384
        else subP y2 y1 * invMod p384 (subP x2 x1) % p384
      let x3 := subP (subP (l * l) x1) x2
      some (x3, subP (l * subP x1 x3) y1)

/-- A multiple of a point. -/
def pointMul (k : Nat) (q : Option (Nat × Nat)) : Option (Nat × Nat) :=
  (bitsMsb 384 k).foldl (fun r bit => let d := pointAdd r r; if bit then pointAdd d q else d) none

/-- Check a signature (r, s) over a message against a public key. -/
def ecdsaOk (qx qy : Nat) (m : List Nat) (r s : Nat) : Bool :=
  if r = 0 || s = 0 || n384 ≤ r || n384 ≤ s then false
  else
    let e := ofOctets (sha384 m)
    let w := invMod n384 s
    match pointAdd (pointMul (e * w % n384) (some (gx384, gy384))) (pointMul (r * w % n384) (some (qx, qy))) with
    | none => false
    | some (x, _) => decide (x % n384 = r)

end Sys2Proof.Machine
end

