-- ==== Sys2Proof/Machine/Ecc.lean ====
section
/-! DEFINITION. The error codes of R452 to R456. A store holds data as stored and, where it differs from zero, the deviation
of its stored check bits from the code of that data. Both codes are linear, so the deviation is the syndrome. -/

namespace Sys2Proof.Machine

/-- XOR of the bits of a number under a mask, `n` bits looked at. -/
def parity : Nat → Nat → Bool
  | 0, _ => false
  | n + 1, v => v.testBit n != parity n v

/-- The check bits c0 to c4 of a SEC-DED byte (R454). -/
def secdedCode (d : Byte) : BitVec 5 :=
  let c0 := parity 8 (d.toNat &&& 0x5B)
  let c1 := parity 8 (d.toNat &&& 0x6D)
  let c2 := parity 8 (d.toNat &&& 0x8E)
  let c3 := parity 8 (d.toNat &&& 0xF0)
  let c4 := parity 8 d.toNat != (c0 != (c1 != (c2 != c3)))
  BitVec.ofNat 5 (c0.toNat + 2 * c1.toNat + 4 * c2.toNat + 8 * c3.toNat + 16 * c4.toNat)

/-- One step of the remainder modulo g(x) = m1(x) · m3(x), degree 14 (R453). -/
def bchStep (r : Nat) (b : Bool) : Nat :=
  let r2 := (2 * r) % 2 ^ 14
  if r.testBit 13 != b then r2 ^^^ 0x0377 else r2

/-- The check bits c[14:0] of a BCH DEC-TED codeword (R453). -/
def bchCode (d : QWord) : BitVec 15 :=
  let r := (bitsMsb 64 d.toNat).foldl bchStep 0
  BitVec.ofNat 15 (2 * r + (parity 64 d.toNat != parity 14 r).toNat)

/-- The classes of R456. -/
inductive EccClass where
  | clean | dataBit | checkBit | twoBits | uncorrectable
  deriving DecidableEq, Repr

/-- The two-bit code of a class (R456); clean has none. -/
def classCode : EccClass → Nat
  | .clean => 0
  | .dataBit => 0
  | .checkBit => 1
  | .twoBits => 2
  | .uncorrectable => 3

/-- Decode a SEC-DED byte: its class and the data delivered. -/
def secdedDecode (d : Byte) (dev : BitVec 5) : EccClass × Byte :=
  if dev = 0 then (.clean, d)
  else
    match (List.range 8).find? (fun i => decide (secdedCode (BitVec.twoPow 8 i) = dev)) with
    | some i => (.dataBit, d ^^^ BitVec.twoPow 8 i)
    | none =>
      if (List.range 5).any (fun j => decide (BitVec.twoPow 5 j = dev)) then (.checkBit, d)
      else (.uncorrectable, d)

/-- The syndrome that a flip of bit `i` of a BCH codeword leaves: data bits 0 to 63, then check bits 0 to 14. -/
def bchColumn (i : Nat) : BitVec 15 := if i < 64 then bchCode (BitVec.twoPow 64 i) else BitVec.twoPow 15 (i - 64)

/-- The data with bit `i` of the codeword flipped. -/
def bchFlip (d : QWord) (i : Nat) : QWord := if i < 64 then d ^^^ BitVec.twoPow 64 i else d

/-- The first pair of codeword bits whose flips leave a syndrome. -/
def bchPair (dev : BitVec 15) : Option (Nat × Nat) :=
  (List.range 79).findSome? (fun i =>
    ((List.range i).find? (fun j => decide (bchColumn i ^^^ bchColumn j = dev))).map (fun j => (i, j)))

/-- Decode a BCH codeword: its class and the data delivered. -/
def bchDecode (d : QWord) (dev : BitVec 15) : EccClass × QWord :=
  if dev = 0 then (.clean, d)
  else
    match (List.range 79).find? (fun i => decide (bchColumn i = dev)) with
    | some i => (if i < 64 then .dataBit else .checkBit, bchFlip d i)
    | none =>
      match bchPair dev with
      | some (i, j) => (.twoBits, bchFlip (bchFlip d i) j)
      | none => (.uncorrectable, d)

end Sys2Proof.Machine
end

