-- ==== Sys2Proof/Config.lean ====
section
/-! DEFINITION. What one part fixes and the spec leaves open: constants of the individual device and free values. None has a
body that a proof could see; every statement holds whatever they are. -/

namespace Sys2Proof

/-- The stepping within MAJOR read in ID_REVISION.MINOR (R618: it may be higher on later steppings). DESIGN CHOICE (log entry 134). -/
opaque Config.stepping : Byte

/-- The device's 64-bit unique identifier (R354, R560). -/
opaque Config.uniqueId : QWord

/-- The device's debug key, held in host-die OTP (R560), as bytes. -/
opaque Config.debugKey : List Byte

/-- The device's provisioning key, under which key_provision unwraps a slot key (R448). -/
opaque Config.provisioningKey : BitVec 256

/-- Darhordo's public signing key on P-384, held in host-die ROM (R434). -/
opaque Config.signingKeyX : Nat
opaque Config.signingKeyY : Nat

/-- The nonce the Curator draws for its n-th challenge (R560 says only that it is drawn). -/
opaque Config.freeNonce : Nat → QWord

/-- The boot firmware byte of the Curator at a local address (R438 names host-die boot firmware; the spec gives no content). -/
opaque Config.bootByte : Nat → Byte

/-- A register of a core after it has run n further instructions (the spec gives the cores no instruction set).
DESIGN CHOICE (log entry 52). -/
opaque Config.freeCoreReg : Nat → Nat → DWord

/-- The one-way time of T and the skew of R359 measured at the n-th join (R359 gives no number). DESIGN CHOICE (log entry 130). -/
opaque Config.freeSkew : Nat → Word
opaque Config.freeOneWay : Nat → Word

/-- The UNIT code of an EVENT cell for each kind of happening (R38 gives the field, no rule gives its values).
DESIGN CHOICE (log entry 19). -/
opaque Config.eventUnit : Nat → Byte

/-- The DETAIL of an EVENT cell for each kind of happening whose rule states none (R38 gives the field). -/
opaque Config.eventDetail : Nat → DWord

/-- The FRAME_CRC that the first egress frame of a lane carries for the frame before it (R259 states none). -/
opaque Config.firstFrameCrc : Word

/-- The bit a channel carries from a stimulus stream that the batch's record does not hold (R153, R268 state none).
DESIGN CHOICE (log entry 101). -/
opaque Config.freeStimBit : Nat → Bool

/-- The side bit that a word with a word-check error contributes to its frame's CRC (R253, R260 state none). -/
opaque Config.freeSideBit : Nat → Bool

/-- The output port, north to west, by which router `r` reaches destination `d` in the bank that a load writes (R503 gives the rule
that routes obey, not the routes). DESIGN CHOICE (log entry 87). -/
opaque Config.freeRoute : Nat → Nat → Nat

/-- The completion status and the data of a request to a node other than a Common Store bank group (the spec gives those nodes no
address spaces): for destination, address and flit. DESIGN CHOICE (log entry 80). -/
opaque Config.nodeStatus : Nat → Nat → Nat
opaque Config.nodeWord : Nat → Nat → Nat → QWord

/-- The packets of an epoch that a router holds when noc_status is served (R503; the model holds no packet in a router between two
commands). DESIGN CHOICE (log entry 85). -/
opaque Config.packetsHeld : Nat → Nat → Nat → DWord

/-- The completion status of a NoC write that R450 refuses (R493 and R511 state none). DESIGN CHOICE (log entry 46). -/
opaque Config.refusedStatus : Nat

/-- What a check call reports as the class of a codeword without an error (R456 names no class for it). -/
opaque Config.cleanClass : QWord

/-- The Porter tick count and the SYSCLK cycle count at the n-th happening that reports one (the model runs no free clock).
DESIGN CHOICE (log entry 50). -/
opaque Config.freeTicks : Nat → DWord

/-- The n-th trace packet finds its destination without space (R571 gives the debug wire's buffer no size and the ring no consumer). -/
opaque Config.traceFull : Nat → Bool

/-- The state byte of CORE_STATUS for a core that runs (0), is halted (1) or stands at its reset vector (2) (R552 gives the field, no
rule gives its values). DESIGN CHOICE (log entry 51). -/
opaque Config.coreStateCode : Nat → Byte

end Sys2Proof
end

