-- ==== Sys2Proof/Machine/Flags.lean ====
section
/-! DEFINITION. Every status flag the device sets: event bits (R626), fault bits with FAULT_FIRST (R629 to R632), and the W1C
bits of the status registers, each with the event that its setting raises. -/

namespace Sys2Proof.Machine

/-- Galleries present (R3, R8). -/
def galleryCount (s : State) : Nat := match s.variant with | .m => 16 | _ => 64

/-- The twin link is present (R3). -/
def hasTwin (s : State) : Bool := decide (s.variant ≠ .s)

/-- The mesh links are present (R3). -/
def hasMesh (s : State) : Bool := decide (s.variant ≠ .m)

/-- The Repair Analyser is present (R3, R329). -/
def hasRepair (s : State) : Bool := decide (s.variant ≠ .l)

/-- Send towards the host (R610 and the writes that precede it, in order). -/
def emit (o : HostOut) (s : State) : State := { s with hostOut := s.hostOut ++ [o] }

/-- Signal an MSI-X vector (R610). -/
def msix (v : Nat) (s : State) : State := emit (.msix v) s

/-- Set bit `b` of EVENT_STATUS; vector 0 is signalled when the bit goes from 0 to 1 while its mask bit is 1 (R610, R626). -/
def setEvent (b : Nat) (s : State) : State :=
  let old := s.regs.eventStatus
  let s1 := { s with regs := { s.regs with eventStatus := old ||| BitVec.twoPow 16 b } }
  if !old.getLsbD b && s.regs.eventMask.getLsbD b then msix 0 s1 else s1

/-- Event bit numbers of R626. -/
def evFault : Nat := 15
def evLoad : Nat := 14
def evSnapshot : Nat := 13
def evHandler : Nat := 12
def evRepair : Nat := 11
def evRa : Nat := 10
def evSurvey : Nat := 9
def evTwin : Nat := 8
def evLedger : Nat := 7
def evScrub : Nat := 6
def evPower : Nat := 5
def evClock : Nat := 4
def evCollision : Nat := 3
def evDebug : Nat := 2
def evStage : Nat := 1

/-- Fault codes of R632: 16 r + b for bit b of FAULT_STATUS_A (r = 0), _B (r = 1) and _C (r = 2). -/
def fcBarrierDegraded : Nat := 0
def fcBarrierDown : Nat := 1
def fcBarrierSpared : Nat := 2
def fcStimUnderflow : Nat := 3
def fcArrayIllegal : Nat := 4
def fcGalleryAsleep : Nat := 5
def fcMeshError : Nat := 6
def fcContention : Nat := 7
def fcVaultUe : Nat := 8
def fcLinkWord : Nat := 9
def fcLinkCrc : Nat := 10
def fcPartnerLost : Nat := 11
def fcArrayUe : Nat := 12
def fcStoreUe : Nat := 13
def fcCfgUpset : Nat := 14
def fcCellUndefined : Nat := 16
def fcFieldUnavailable : Nat := 17
def fcMeshMismatch : Nat := 18
def fcMeshTimeout : Nat := 19
def fcCycleLate : Nat := 20
def fcLinkDrift : Nat := 21
def fcLinkTrain : Nat := 22
def fcPinConflict : Nat := 23
def fcPinLocked : Nat := 24
def fcConservator : Nat := 25
def fcBankRetired : Nat := 26
def fcReservedWrite : Nat := 32
def fcBadDescriptor : Nat := 33
def fcStimMismatch : Nat := 34
def fcSeqAbort : Nat := 35
def fcLockBroken : Nat := 36
def fcCfgWrite : Nat := 37
def fcWdog : Nat := 38

/-- A fault bit that belongs only to an absent unit never sets (R7). -/
def faultAbsent (code : Nat) (s : State) : Bool :=
  (code = fcMeshError || code = fcMeshMismatch || code = fcMeshTimeout) && !hasMesh s

/-- The three fault registers with the bit of a fault code set. -/
def withFaultBit (code : Nat) (r : RegFile) : RegFile :=
  if code < 16 then { r with faultA := r.faultA ||| BitVec.twoPow 16 code }
  else if code < 32 then { r with faultB := r.faultB ||| BitVec.twoPow 16 (code - 16) }
  else { r with faultC := r.faultC ||| BitVec.twoPow 16 (code - 32) }

/-- The bit of a fault code. -/
def faultBit (code : Nat) (r : RegFile) : Bool :=
  if code < 16 then r.faultA.getLsbD code
  else if code < 32 then r.faultB.getLsbD (code - 16)
  else r.faultC.getLsbD (code - 32)

/-- FAULT_FIRST takes the code while VALID is 0 (R632). -/
def withFaultFirst (code : Nat) (r : RegFile) : RegFile :=
  if r.faultFirst.getLsbD 15 then r else { r with faultFirst := BitVec.ofNat 16 (0x8000 + code % 256) }

/-- Set the fault bit of a code: the bit, FAULT_FIRST, and the FAULT event when the bit becomes set (R626, R629 to R632). -/
def setFault (code : Nat) (s : State) : State :=
  if faultAbsent code s then s
  else
    let was := faultBit code s.regs
    let s1 := { s with regs := withFaultFirst code (withFaultBit code s.regs) }
    if was then s1 else setEvent evFault s1

/-- A W1C bit of STAGE_STATUS (R624). -/
def setStageStatus (w : Word) (s : State) : State :=
  setEvent evStage { s with regs := { s.regs with stageStatus := w } }

/-- Set a W1C bit of TWIN_STATUS (R377), with the TWIN event when it becomes set. Absent without the twin link (R7). -/
def setTwinStatus (b : Nat) (s : State) : State :=
  if !hasTwin s then s
  else
    let was := s.regs.twinStatus.getLsbD b
    let s1 := { s with regs := { s.regs with twinStatus := s.regs.twinStatus ||| BitVec.twoPow 16 b } }
    if was then s1 else setEvent evTwin s1

/-- Set W1C bits of FAIL_STATUS (R319), with the LEDGER event when one becomes set. -/
def setFailStatus (w : Word) (s : State) : State :=
  let old := s.regs.failStatus
  let s1 := { s with regs := { s.regs with failStatus := old ||| w } }
  if old ||| w = old then s1 else setEvent evLedger s1

/-- Set a W1C bit of SCRUB_STATUS (R489), with the SCRUB event when it becomes set. -/
def setScrubStatus (b : Nat) (s : State) : State :=
  let was := s.regs.scrubStatus.getLsbD b
  let s1 := { s with regs := { s.regs with scrubStatus := s.regs.scrubStatus ||| BitVec.twoPow 16 b } }
  if was then s1 else setEvent evScrub s1

/-- Set a W1C bit of SURVEY_STATUS (R401), with the SURVEY event when it becomes set. -/
def setSurveyStatus (b : Nat) (s : State) : State :=
  let was := s.regs.surveyStatus.getLsbD b
  let s1 := { s with regs := { s.regs with surveyStatus := s.regs.surveyStatus ||| BitVec.twoPow 16 b } }
  if was then s1 else setEvent evSurvey s1

/-- Set a W1C bit of CLK_STATUS (R536), with the CLOCK event when it becomes set. -/
def setClkStatus (b : Nat) (s : State) : State :=
  let was := s.regs.clkStatus.getLsbD b
  let s1 := { s with regs := { s.regs with clkStatus := s.regs.clkStatus ||| BitVec.twoPow 16 b } }
  if was then s1 else setEvent evClock s1

/-- Set a bit of WAKE_CAUSE (R527), with the POWER event when it becomes set. -/
def setWakeCause (b : Nat) (s : State) : State :=
  let was := s.regs.wakeCause.getLsbD b
  let s1 := { s with regs := { s.regs with wakeCause := s.regs.wakeCause ||| BitVec.twoPow 16 b } }
  if was then s1 else setEvent evPower s1

/-- Set a bit of MAILBOX_STATUS (R548). -/
def setMailboxStatus (b : Nat) (s : State) : State :=
  { s with regs := { s.regs with mailboxStatus := s.regs.mailboxStatus ||| BitVec.twoPow 16 b } }

/-- A read-only status bit takes a value. -/
def putScrubBit (b : Nat) (v : Bool) (s : State) : State :=
  { s with regs := { s.regs with scrubStatus := setBit s.regs.scrubStatus b v } }
def putClkBit (b : Nat) (v : Bool) (s : State) : State :=
  { s with regs := { s.regs with clkStatus := setBit s.regs.clkStatus b v } }
def putArrayBit (b : Nat) (v : Bool) (s : State) : State :=
  { s with regs := { s.regs with arrayStatus := setBit s.regs.arrayStatus b v } }
def putTwinBit (b : Nat) (v : Bool) (s : State) : State :=
  { s with regs := { s.regs with twinStatus := setBit s.regs.twinStatus b v } }

/-- PWR_STATE.FIELD as last reported (R524); the POWER event when it becomes 0 or leaves 0 (R626). -/
def reportPower (code : Nat) (s : State) : State :=
  let old := fld s.regs.pwrState 2 0
  let s1 := { s with regs := { s.regs with pwrState := setFld s.regs.pwrState 2 0 code } }
  if old = code then s1 else if old = 0 || code = 0 then setEvent evPower s1 else s1

/-- PWR_STATE.IO_DISABLED (R524, R437). -/
def putIoDisabled (v : Bool) (s : State) : State :=
  { s with regs := { s.regs with pwrState := setBit s.regs.pwrState 3 v } }

/-- CB_INT_N is driven low (R602). -/
def cbIntLow (s : State) : Bool := (s.regs.eventStatus &&& s.regs.eventMask) ≠ 0 || s.cores.alert

end Sys2Proof.Machine
end

