-- ==== Sys2Proof/Machine/Ops.lean ====
section
/-! DEFINITION. The named operations that several families share: barrier messages and events, Common Store and host writes,
the committed Catalogue, batches, and fail records on their way to the Ledger. -/

namespace Sys2Proof.Machine

/-! ### Masters -/

/-- MASTER numbers of R38. -/
def masterNum : Master → Nat
  | .cb => 0 | .pcie => 1 | .curator => 2 | .debug => 3 | .fieldUnit => 4

/-- A master's own table registers and sequences (R613). -/
def view (m : Master) (s : State) : MasterView := lget {} s.masters (masterNum m)

/-- Replace a master's view. -/
def setView (m : Master) (v : MasterView) (s : State) : State :=
  { s with masters := lset s.masters (masterNum m) v }

/-- A write by a master to any register other than a key register abandons its open key sequences (R444, R594). -/
def dropKeys (m : Master) (s : State) : State :=
  setView m { view m s with lockPrev := false, pinKeyPhase := 0 } s

/-! ### The barrier (R37 to R42) -/

/-- Append to a direction: numbered at once while fewer than 128 cells are unacknowledged, else it waits (R40, R42). -/
def dirSend (msg : Msg) (d : BarrierDir) : BarrierDir :=
  if d.unacked.length < 128 then
    { d with
      unacked := d.unacked ++ [⟨d.seqNext, msg⟩]
      seqNext := d.seqNext + 1
      nextLane := (d.nextLane + 1) % max d.active.length 1 }
  else { d with waiting := d.waiting ++ [msg] }

/-- A payload of `n` bytes, left-aligned in the 52 payload bytes (R37). -/
def payloadOf (n v : Nat) : BitVec 416 := BitVec.ofNat 416 (v <<< (8 * (52 - n)))

/-- Send a message across (R38). -/
def sendMsg (dir : Dir) (typ n v : Nat) (s : State) : State :=
  let msg : Msg := ⟨BitVec.ofNat 8 typ, BitVec.ofNat 8 n, payloadOf n v⟩
  match dir with
  | .hostToField => { s with barrier := { s.barrier with toField := dirSend msg s.barrier.toField } }
  | .fieldToHost => { s with barrier := { s.barrier with toHost := dirSend msg s.barrier.toHost } }

/-- Take the oldest delivered cell of a type out of an inbox, now that its step runs. -/
def popInbox (typ : Nat) (d : BarrierDir) : BarrierDir :=
  { d with inbox := d.inbox.eraseP (fun m => m.typ.toNat = typ) }

def popHostInbox (typ : Nat) (s : State) : State :=
  { s with barrier := { s.barrier with toHost := popInbox typ s.barrier.toHost } }
def popFieldInbox (typ : Nat) (s : State) : State :=
  { s with barrier := { s.barrier with toField := popInbox typ s.barrier.toField } }

/-- A field unit raises an event: an EVENT cell (R58, R627). CODE holds the event bit number and, for a FAULT event, the
fault's code; the spec gives UNIT no values, so it is a free value of the part. -/
def raiseField (ev fault unit detail : Nat) (s : State) : State :=
  sendMsg .fieldToHost 0x07 7 (((ev * 256 + fault) * 256 + unit) * 2 ^ 32 + detail % 2 ^ 32) s

/-- A fault with an event whose DETAIL is given. DEDUCED (log entry 18). -/
def faultEvent (code detail : Nat) (s : State) : State :=
  raiseField evFault code (Config.eventUnit code).toNat detail (setFault code s)

/-- A fault with an event whose rule states no DETAIL: a free value of the part. -/
def faultEventFree (code : Nat) (s : State) : State := faultEvent code (Config.eventDetail code).toNat s

/-- A field unit's own event that is no fault. -/
def fieldEvent (ev detail : Nat) (s : State) : State :=
  raiseField ev 0 (Config.eventUnit (48 + ev)).toNat detail s

/-- A field unit's own event whose rule states no DETAIL. -/
def fieldEventFree (ev : Nat) (s : State) : State := fieldEvent ev (Config.eventDetail (48 + ev)).toNat s

/-- A free value has been drawn. DESIGN CHOICE (log entry 135). -/
def drawFree (s : State) : State := { s with cores := { s.cores with freeCount := s.cores.freeCount + 1 } }

/-- An entry of the event log (R546). -/
def logEvent (code : Word) (unit : Byte) (detail : DWord) (s : State) : State :=
  let full := decide (s.cores.calls.length ≥ 64) || s.cores.curator.halted || s.cores.curator.restarting
    || s.cores.curator.atReset
  if full then setMailboxStatus 2 s
  else
    let e := BitVec.ofNat 64 (((code.toNat * 256 + unit.toNat) * 2 ^ 32 + detail.toNat) * 256 + s.cores.eventCount.toNat)
    let l := s.cores.eventLog ++ [e]
    { s with cores := { s.cores with
        eventLog := l.drop (l.length - 128), eventCount := s.cores.eventCount + 1 } }

/-! ### Power -/

/-- The field side is powered, reachable and above Dormant: its units take register writes at once (R51, R54). -/
def fieldAwake (s : State) : Bool :=
  !s.barrier.fieldSilent &&
    (s.power.field = .standby || s.power.field = .armed || s.power.field = .running)

/-- The field side is Armed or Running. -/
def armed (s : State) : Bool := s.power.field = .armed || s.power.field = .running

/-- The image is loaded (LOAD_STATUS.STATE = 4, R433). -/
def loaded (s : State) : Bool := fld s.regs.loadStatus 15 13 = 4

/-- Field I/O is disabled (R437). -/
def ioDisabled (s : State) : Bool := s.regs.pwrState.getLsbD 3

/-- A register write reaches an awake field unit as a REG_WRITE (R51); a sleeping one takes the register's value at its
wake (R52, R53). DESIGN CHOICE (log entry 5). -/
def forwardWrite (m : Master) (addr : Nat) (data : Word) (s : State) : State :=
  if fieldAwake s then
    sendMsg .hostToField 0x01 4 ((addr * 256 + masterNum m) * 65536 + data.toNat) s
  else s

/-- A command write for a field side in Dormant is held and wakes it to Standby (R54). DEDUCED (log entry 31). -/
def holdCommand (m : Master) (addr : BitVec 6) (data : Word) (s : State) : State :=
  setWakeCause 3 { s with
    heldCommands := s.heldCommands ++ [(m, addr, data)],
    power := { s.power with target := some .standby } }

/-- A register write by a master reaches the register file: its open key sequences end (R444, R594), and the write crosses to an
awake field unit (R51). -/
def wrote (m : Master) (addr : Nat) (data : Word) (s : State) : State := dropKeys m (forwardWrite m addr data s)

/-- A WO command field of a field unit: an awake field side performs it, a Dormant one is woken and performs it after the
refresh (R54); a silent or unpowered one never learns of it (R52, R59). -/
def fieldCommand (m : Master) (addr : Nat) (data : Word) (f : State → State) (s : State) : State :=
  if fieldAwake s then f (wrote m addr data s)
  else if s.power.field = .dormant && !s.barrier.fieldSilent then
    dropKeys m (holdCommand m (BitVec.ofNat 6 addr) data s)
  else wrote m addr data s

/-! ### Host memory -/

/-- A device write to host memory of `n` bytes, most significant first (R14). DESIGN CHOICE (log entry 8). -/
def hostWrite (addr n v : Nat) (s : State) : State := emit (.memWrite addr (bytesOf n v)) s

def hostWriteBytes (addr : Nat) (bs : List Byte) (s : State) : State := emit (.memWrite addr bs) s

/-! ### Common Store (R508, R509) -/

/-- The granule of a byte address has its valid bit set (R509). -/
def granuleValid (a : Nat) (st : Store) : Bool := st.granules.contains (a / 8)

/-- The byte stored at an address. -/
def rawGet (a : Nat) : List Host.Cell → Byte
  | [] => 0
  | (k, v) :: rest => if k = a then v else rawGet a rest

/-- Remove a byte's entry: the byte reads as an unlisted one. -/
def rawDel (a : Nat) : List Host.Cell → List Host.Cell
  | [] => []
  | (k, v) :: rest => if k = a then rest else (k, v) :: rawDel a rest

/-- List a byte, in ascending address order. -/
def rawPut (a : Nat) (b : Byte) : List Host.Cell → List Host.Cell
  | [] => [(a, b)]
  | (k, v) :: rest =>
    if a < k then (a, b) :: (k, v) :: rest
    else if k = a then (a, b) :: rest
    else (k, v) :: rawPut a b rest

/-- Store a byte: an unlisted byte reads 0 (R509), so writing 0 removes the entry. -/
def rawSet (a : Nat) (b : Byte) (c : List Host.Cell) : List Host.Cell :=
  if b = 0 then rawDel a c else rawPut a b c

/-- Addresses strictly rising and no entry equal to what an unlisted address reads as. -/
def memWfFrom (lo : Nat) : List Host.Cell → Bool
  | [] => true
  | (k, v) :: rest => decide (lo ≤ k) && decide (v ≠ 0) && memWfFrom (k + 1) rest

/-- The canonical form of Common Store. -/
abbrev Memory.wf (c : List Host.Cell) : Bool := memWfFrom 0 c

/-- Common Store bytes (R508). -/
def csSize : Nat := 0x1000000

/-- The configuration-shadow range (R412, R450). -/
def inShadow (a : Nat) : Bool := 0xE00000 ≤ a && a ≤ 0xFFFFFF

/-- A range of `n` bytes from `a` touches the configuration-shadow range. -/
def touchesShadow (a n : Nat) : Bool := decide (n ≠ 0) && decide (a ≤ 0xFFFFFF) && decide (0xE00000 < a + n)

/-- Decode a Common Store byte (R456): an invalid granule reads 0 without decoding (R509). DESIGN CHOICE (log entry 137). -/
def csDecode (a : Nat) (st : Store) : EccClass × Byte :=
  if granuleValid a st then secdedDecode (rawGet a st.cs) (tget 0 st.csDev a) else (.clean, 0)

/-- The byte a read delivers. -/
def csByte (a : Nat) (st : Store) : Byte := (csDecode a st).2

/-- Write a byte with fresh check bits; the granule becomes valid (R509), and every reservation on it ends (R568). -/
def csPut (a : Nat) (b : Byte) (st : Store) : Store :=
  { st with
    cs := rawSet a b st.cs
    csDev := tdel st.csDev a
    granules := nins st.granules (a / 8)
    reservations := st.reservations.filter (fun r => r.2 ≠ a / 8) }

/-- Write bytes at ascending addresses. -/
def csPutAll (a : Nat) (bs : List Byte) (st : Store) : Store :=
  match bs with
  | [] => st
  | b :: rest => csPutAll (a + 1) rest (csPut a b st)

/-- Write Common Store. -/
def csWrite (a : Nat) (bs : List Byte) (s : State) : State := { s with store := csPutAll a bs s.store }

/-- The bytes at `n` ascending addresses, as delivered. -/
def csBytes (a : Nat) : Nat → Store → List Byte
  | 0, _ => []
  | n + 1, st => csByte a st :: csBytes (a + 1) n st

/-- A number held most significant byte first (R14). -/
def csNat (a n : Nat) (st : Store) : Nat := ofBytes (csBytes a n st)

/-- Some byte of a range decodes as uncorrectable. -/
def csUe (a : Nat) : Nat → Store → Bool
  | 0, _ => false
  | n + 1, st => decide ((csDecode a st).1 = .uncorrectable) || csUe (a + 1) n st

/-! ### Error counting and the Correction Log (R457, R458, R463, R464, R467) -/

/-- The store codes of R463 that the model names. -/
def stInstr : Nat := 0
def stCur : Nat := 1
def stPrev : Nat := 2
def stRoute : Nat := 3
def stMesh : Nat := 4
def stCommon : Nat := 5
def stVault : Nat := 6
def stMailbox : Nat := 7
def stLocal : Nat := 8
def stTriplet : Nat := 9

/-- A log entry (R463). -/
def logEntry (store cls loc bytes count : Nat) : QWord :=
  BitVec.ofNat 64 (2 ^ 63 + store * 2 ^ 59 + cls * 2 ^ 57 + loc * 2 ^ 16 + bytes * 256 + count)

/-- An entry names this store and location. -/
def sameLocation (store loc : Nat) (e : QWord) : Bool := fld e 62 59 = store && fld e 47 16 = loc

/-- One more error at an entry's location: COUNT saturates, CLASS takes the worse (R464). -/
def bumpEntry (cls bytes : Nat) (e : QWord) : QWord :=
  let e1 := if fld e 7 0 < 255 then setFld e 7 0 (fld e 7 0 + 1) else e
  let e2 := if fld e1 58 57 < cls then setFld e1 58 57 cls else e1
  setFld e2 15 8 (fld e2 15 8 ||| bytes)

/-- Place an error in the log (R464): the new log, and whether it was counted only because the log is full. -/
def logPlace (store cls loc bytes : Nat) (l : List QWord) : List QWord × Bool :=
  if l.any (sameLocation store loc) then
    (l.map (fun e => if sameLocation store loc e then bumpEntry cls bytes e else e), false)
  else if l.length < 16 then (l ++ [logEntry store cls loc bytes 1], false)
  else if cls = 3 && l.any (fun e => fld e 58 57 ≠ 3) then
    (l.eraseP (fun e => fld e 58 57 ≠ 3) ++ [logEntry store 3 loc bytes 1], false)
  else (l, true)

/-- A member logs a fault since its last commit (R364). DEDUCED (log entry 106). -/
def markFault (s : State) : State := { s with twin := { s.twin with faultSinceCommit := true } }

/-- Count an error and log it (R457, R458, R464, R467). -/
def countError (store cls loc bytes : Nat) (s : State) : State :=
  let r := logPlace store cls loc bytes s.protection.log
  let c := tget (0, 0) s.protection.perStore store
  let c' := if cls = 3 then (c.1, satInc c.2) else (satInc c.1, c.2)
  let regs' := if cls = 3 then { s.regs with eccCountUe := satInc s.regs.eccCountUe }
    else { s.regs with eccCountCe := satInc s.regs.eccCountCe }
  let s1 := { s with
    regs := regs'
    protection := { s.protection with log := r.1, perStore := tset (0, 0) s.protection.perStore store c' }
    survey := if store ≤ 4 && cls ≠ 3 then { s.survey with arrayCe := s.survey.arrayCe + 1 } else s.survey }
  markFault (if r.2 then setScrubStatus 1 s1 else s1)

/-- The physical bank of a Common Store byte address (R508). -/
def physicalBank (a : Nat) (st : Store) : Nat := lget 0 st.bankMap ((a / 8) % 32)

/-- The Correction Log location of a Common Store granule (R463). -/
def csLocation (a : Nat) (st : Store) : Nat := physicalBank a st * 2 ^ 24 + (a / 8) * 8

/-- What a read of one Common Store byte does besides delivering it (R457, R458), but for the fault: a correctable error is
counted, logged and written back; an uncorrectable one is counted and logged. -/
def csReadCount (a : Nat) (s : State) : State :=
  match (csDecode a s.store).1 with
  | .clean => s
  | .uncorrectable => countError stCommon 3 (csLocation a s.store) (2 ^ (a % 8)) s
  | c => csWrite a [csByte a s.store] (countError stCommon (classCode c) (csLocation a s.store) (2 ^ (a % 8)) s)

/-- The same of `n` bytes. -/
def csReadCounts (a : Nat) : Nat → State → State
  | 0, s => s
  | n + 1, s => csReadCounts (a + 1) n (csReadCount a s)

/-- A read of one Common Store byte: an uncorrectable error sets STORE_UE with an event (R458). DEDUCED (log entry 88). -/
def csReadEffect (a : Nat) (s : State) : State :=
  if (csDecode a s.store).1 = .uncorrectable then faultEventFree fcStoreUe (csReadCount a s) else csReadCount a s

/-- The read effects of `n` bytes. -/
def csReadEffects (a : Nat) : Nat → State → State
  | 0, s => s
  | n + 1, s => csReadEffects (a + 1) n (csReadEffect a s)

/-! ### The committed Catalogue (R268, R269) -/

def catEntry (c : Nat) (s : State) : QWord := tget 0 s.inForce.catalogue c
def catValid (e : QWord) : Bool := e.getLsbD 63
def catSite (e : QWord) : Nat := fld e 62 53
def catRole (e : QWord) : Nat := fld e 52 50
def catLink (e : QWord) : FLink := if e.getLsbD 49 then .f1 else .f0
def catLane (e : QWord) : Nat := fld e 48 44
def catSlot (e : QWord) : Nat := fld e 43 39
def catPort (e : QWord) : Nat := fld e 38 27
def catDelayCyc (e : QWord) : Nat := fld e 26 19
def catDelayPh (e : QWord) : Nat := fld e 18 13
def catMask (e : QWord) : Bool := e.getLsbD 12
def catStop (e : QWord) : Bool := e.getLsbD 11
def catStimSrc (e : QWord) : Bool := e.getLsbD 10
def catStream (e : QWord) : Nat := fld e 9 4

/-- Roles with ingress to their fabric port (R269): compare, drive+compare, handshake-in. -/
def roleIngress (r : Nat) : Bool := r = 2 || r = 3 || r = 5

/-- Roles with egress (R269). -/
def roleEgress (r : Nat) : Bool := r = 1 || r = 3 || r = 4 || r = 6

/-- The valid entries of a Catalogue, with their channel numbers, in ascending order. -/
def validEntries (cat : Table QWord) : List (Nat × QWord) := cat.filter (fun e => catValid e.2)

/-- The committed valid entry that names a fabric port. -/
def portEntry (p : Nat) (s : State) : Option (Nat × QWord) :=
  (validEntries s.inForce.catalogue).find? (fun e => catPort e.2 = p)

/-- The link whose Ledger holds a site's records (R293). -/
def siteLink (site : Nat) (s : State) : FLink :=
  let es := (validEntries s.inForce.catalogue).filter (fun e => catSite e.2 = site)
  match es.find? (fun e => roleIngress (catRole e.2)) with
  | some e => catLink e.2
  | none => match es with
    | [] => .f0
    | e :: _ => catLink e.2

/-- The committed site count (R638). -/
def siteCount (s : State) : Nat := s.inForce.sites.toNat

/-- A field link is named by a valid committed entry (R264). -/
def linkNamed (l : FLink) (s : State) : Bool := (validEntries s.inForce.catalogue).any (fun e => catLink e.2 = l)

/-- The sites with a valid ingress-role entry on a lane. -/
def ingressSites (l : FLink) (lane : Nat) (s : State) : List Nat :=
  (((validEntries s.inForce.catalogue).filter (fun e =>
    catLink e.2 = l && catLane e.2 = lane && roleIngress (catRole e.2))).map (fun e => catSite e.2)).eraseDups

/-- The sites with any valid entry on a lane (R281). -/
def laneSites (l : FLink) (lane : Nat) (s : State) : List Nat :=
  (((validEntries s.inForce.catalogue).filter (fun e => catLink e.2 = l && catLane e.2 = lane)).map
    (fun e => catSite e.2)).eraseDups

/-- The channels of a site with an ingress role, in ascending order: IO i is the i-th (R324). -/
def siteIos (site : Nat) (s : State) : List Nat :=
  ((validEntries s.inForce.catalogue).filter (fun e => catSite e.2 = site && roleIngress (catRole e.2))).map (·.1)

/-! ### Field links, Ledgers and cores by name -/

def flink (l : FLink) (s : State) : FieldLink := match l with | .f0 => s.link0 | .f1 => s.link1
def setFlink (l : FLink) (v : FieldLink) (s : State) : State :=
  match l with | .f0 => { s with link0 := v } | .f1 => { s with link1 := v }
def lane (l : FLink) (i : Nat) (s : State) : Lane := lget {} (flink l s).lanes i
def setLane (l : FLink) (i : Nat) (v : Lane) (s : State) : State :=
  setFlink l { flink l s with lanes := lset (flink l s).lanes i v } s
def ledger (l : FLink) (s : State) : Ledger := match l with | .f0 => s.ledger0 | .f1 => s.ledger1
def setLedger (l : FLink) (v : Ledger) (s : State) : State :=
  match l with | .f0 => { s with ledger0 := v } | .f1 => { s with ledger1 := v }
def linkNum : FLink → Nat | .f0 => 0 | .f1 => 1
def otherLink : FLink → FLink | .f0 => .f1 | .f1 => .f0
def coreState (c : Core) (s : State) : CoreState :=
  match c with
  | .curator => s.cores.curator | .docentA => s.cores.docentA
  | .docentB => s.cores.docentB | .warden => s.cores.warden
def setCore (c : Core) (v : CoreState) (s : State) : State :=
  match c with
  | .curator => { s with cores := { s.cores with curator := v } }
  | .docentA => { s with cores := { s.cores with docentA := v } }
  | .docentB => { s with cores := { s.cores with docentB := v } }
  | .warden => { s with cores := { s.cores with warden := v } }
def coreNum : Core → Nat | .curator => 0 | .docentA => 1 | .docentB => 2 | .warden => 3
def allCores : List Core := [.curator, .docentA, .docentB, .warden]

/-! ### Batches -/

/-- The batch of a number. -/
def findBatch (n : DWord) (s : State) : Option Batch := s.batches.find? (fun b => b.d.batch = n)

/-- Change the batch of a number. -/
def modBatch (n : DWord) (f : Batch → Batch) (s : State) : State :=
  { s with batches := s.batches.map (fun b => if b.d.batch = n then f b else b) }

/-- A batch is issued once both Docents have issued it (R22). -/
def issued (b : Batch) : Bool := b.issuedA && b.issuedB

/-- A batch has committed on both links. -/
def committedBoth (b : Batch) : Bool := b.committed0 && b.committed1

/-- No batch has been issued and none is in progress (R623). -/
def noBatch (s : State) : Bool := s.batches.all committedBoth

/-- A batch has committed, or its commit record has passed on, on a link. -/
def committedOn (l : FLink) (b : Batch) : Bool := match l with | .f0 => b.committed0 | .f1 => b.committed1
def passedOn (l : FLink) (b : Batch) : Bool := match l with | .f0 => b.passed0 | .f1 => b.passed1
def visibleOn (l : FLink) (b : Batch) : Bool := match l with | .f0 => b.visible0 | .f1 => b.visible1

/-- The oldest batch not yet committed on a link. -/
def oldestOpen (l : FLink) (s : State) : Option Batch := s.batches.find? (fun b => !committedOn l b)

/-- The oldest issued batch not yet committed on a link (R673). -/
def oldestIssued (l : FLink) (s : State) : Option Batch := s.batches.find? (fun b => issued b && !committedOn l b)

/-- The batch in progress: the one whose burst runs, else the one on egress, else the oldest open one that is issued. -/
def inProgress (s : State) : Option Batch :=
  match s.array.running.bind (fun n => findBatch n s) with
  | some b => some b
  | none => match s.egress.batch.bind (fun n => findBatch n s) with
    | some b => some b
    | none => s.batches.find? (fun b => issued b && !committedBoth b)

/-- The batch cycle offset (R288): FCLK cycles from the batch's first egress cycle, saturating at 0xFF_FFFF. -/
def offsetOf (b : Batch) (s : State) : Nat :=
  if b.egressBegun then min (s.power.fclk - b.firstEgress) 0xFFFFFF else 0

/-- The pattern of a batch in progress on egress. -/
def patternOf (b : Batch) (s : State) : DWord :=
  b.d.firstPattern + BitVec.ofNat 32 (if s.egress.batch = some b.d.batch then s.egress.pattern else 0)

/-! ### Records (R287, R288) -/

/-- A fail record with SEQ left 0; SEQ is placed as the record passes to the ring (R292). -/
def mkRecord (kind site channel flags : Nat) (pattern : DWord) (cycle aux : Nat) : Record :=
  BitVec.ofNat 128 (((((kind * 1024 + site % 1024) * 2048 + channel % 2048) * 128 + flags % 128) * 2 ^ 32
    + pattern.toNat) * 2 ^ 64 + (cycle % 2 ^ 24) * 2 ^ 40 + (aux % 65536) * 2 ^ 24)

/-- Put records among those waiting to enter a link's queue (R297). A link or revision record belongs to the oldest issued
batch not yet committed there, or waits for the next one (R673). -/
def wait (l : FLink) (rs : List QRec) (s : State) : State :=
  let place (r : QRec) : QRec :=
    if r.batch.isNone then { r with batch := (oldestIssued l s).map (fun b => b.d.batch) } else r
  setLedger l { ledger l s with waiting := (ledger l s).waiting ++ rs.map place } s

/-- The batch that begins at a boundary: the first whose burst has not begun. -/
def beginning (s : State) : Option DWord := (s.batches.find? (fun b => !b.burstBegun)).map (fun b => b.d.batch)

/-- A link record that stands ahead of every record of the batch that begins at this boundary (R397, R673). -/
def waitAhead (l : FLink) (r : QRec) (s : State) : State :=
  let r1 := { r with batch := beginning s }
  let w := (ledger l s).waiting
  let before := w.takeWhile (fun x => decide (x.batch ≠ r1.batch) || x.batch.isNone)
  setLedger l { ledger l s with waiting := before ++ [r1] ++ w.drop before.length } s

/-- The sites of a link below the committed site count, in ascending order. -/
def sitesOf (l : FLink) (s : State) : List Nat := (List.range (siteCount s)).filter (fun x => siteLink x s = l)

/-- The batch that takes a finding for batch `n` (R678): `n` itself until its verdicts are formed, then the batch in progress
at the finding, if there is one. -/
def findingBatch (n : DWord) (s : State) : Option Batch :=
  match findBatch n s with
  | none => none
  | some b => if b.verdictsFormed then (inProgress s).filter (fun x => !x.verdictsFormed) else some b

/-- One site receives a cause of R290 in a batch: one record at the first occurrence of that cause. -/
def addCause (n : DWord) (cause site : Nat) (s : State) : State :=
  match findingBatch n s with
  | none => s
  | some b =>
    if b.causes.contains (site, cause) then s
    else
      let m := b.d.batch
      let r : QRec := ⟨some m, true, mkRecord 5 site 0x7FF 0 (patternOf b s) (offsetOf b s) cause, false⟩
      markFault (wait (siteLink site s) [r] (modBatch m (fun b => { b with causes := b.causes ++ [(site, cause)] }) s))

/-- Every site of a list receives a cause. -/
def addCauses (n : DWord) (cause : Nat) (sites : List Nat) (s : State) : State :=
  sites.foldl (fun s x => addCause n cause x s) s

/-- Every site verdict of a batch becomes indeterminate with a cause (R290). -/
def indetAll (n : DWord) (cause : Nat) (s : State) : State := addCauses n cause (List.range (siteCount s)) s

/-- Every site verdict of the batch in progress, if any, becomes indeterminate. -/
def indetNow (cause : Nat) (s : State) : State :=
  match inProgress s with
  | none => s
  | some b => indetAll b.d.batch cause s

/-- The pattern index that a compare at a batch cycle offset belongs to (R148), without the holds of the batch: in capture
mode the pattern whose rows are presented there, C cycles after its unload shifts; else the pattern unit. DEDUCED.
DEDUCED (log entry 96). -/
def patternAt (b : Batch) (c off : Nat) : Nat :=
  let period := if b.mode = 1#2 then b.d.shiftLen * b.d.shiftDiv + b.d.capGap else b.d.passes * b.d.cyclePeriod
  let n := if b.mode = 1#2 then (off - c) / max period 1 - 1 else (off - c) / max period 1
  min n (b.d.patterns - 1)

/-- The record of a suspect window (R288, R289): it always carries FLAGS bit 98. -/
def windowRecord (c : Nat) (b : Batch) (w : Window) : QRec :=
  ⟨some b.d.batch, true,
    mkRecord 2 w.site (w.source * 256 + w.detail) 4 (b.d.firstPattern + BitVec.ofNat 32 (patternAt b c w.first))
      (min w.first 0xFFFFFF) (min w.length 0xFFFF), false⟩

/-- Two windows of one site and cause that overlap or abut (R279). -/
def windowsTouch (v w : Window) : Bool :=
  decide (v.site = w.site) && decide (v.source = w.source) && decide (v.detail = w.detail)
    && decide (v.first ≤ w.first + w.length) && decide (w.first ≤ v.first + v.length)

/-- The window that covers two that touch. -/
def windowJoin (v w : Window) : Window :=
  let first := min v.first w.first
  { v with first := first, length := max (v.first + v.length) (w.first + w.length) - first }

/-- A record that has not yet taken its SEQ stands in a Ledger. -/
def holdsRec (r : QRec) (l : Ledger) : Bool := l.offered.contains r || l.waiting.contains r || l.queue.contains r

/-- Replace such a record. -/
def swapRec (r r' : QRec) (l : Ledger) : Ledger :=
  let f (x : QRec) : QRec := if x = r then r' else x
  { l with offered := l.offered.map f, waiting := l.waiting.map f, queue := l.queue.map f }

/-- A suspect window for a site of a batch (R279): its record arises at once; a window that overlaps or abuts one of the same
cause whose record has not yet taken its SEQ joins that record. A finding after the batch's verdicts are formed falls to the
batch in progress (R678), in the cycle of the finding. DEDUCED (log entry 95). -/
def addWindow (n : DWord) (w0 : Window) (s : State) : State :=
  match findingBatch n s with
  | none => s
  | some b =>
    let m := b.d.batch
    let w := if m = n then w0 else { w0 with first := offsetOf b s }
    let l := siteLink w.site s
    let joins (v : Window) : Bool := windowsTouch v w && holdsRec (windowRecord s.coffset b v) (ledger l s)
    match b.windows.find? joins with
    | some v =>
      let j := windowJoin v w
      setLedger l (swapRec (windowRecord s.coffset b v) (windowRecord s.coffset b j) (ledger l s))
        (modBatch m (fun b => { b with windows := b.windows.map (fun x => if x = v then j else x) }) s)
    | none => wait l [windowRecord s.coffset b w] (modBatch m (fun b => { b with windows := b.windows ++ [w] }) s)

/-- Suspect cycles `a` to `e` − 1 of a list of sites: one window in each batch whose cycles they touch, clipped to them (R279). -/
def windowOver (sites : List Nat) (source detail a e : Nat) (s : State) : State :=
  let touched (b : Batch) : Bool := b.egressBegun && !b.verdictsFormed && decide (b.firstEgress < e)
    && (!b.comparesDone || decide (a < b.compareEnd))
  (s.batches.filter touched).foldl (fun s b =>
    let lo := max a b.firstEgress
    let hi := if b.comparesDone then min e b.compareEnd else e
    sites.foldl (fun s x => addWindow b.d.batch ⟨x, lo - b.firstEgress, hi - lo, source, detail⟩ s) s) s

/-- A link record (R288): time mark with SOURCE, TIME and code. -/
def timeMarkRecord (source : Nat) (time : Nat) (code : Nat) : QRec :=
  ⟨none, false, BitVec.ofNat 128 (7 * 2 ^ 124 + source * 2 ^ 103 + (time % 2 ^ 56) * 2 ^ 40 + (code % 65536) * 2 ^ 24),
    false⟩

/-- Host time in ns (R397): the last TIME_MARK, advanced by the time since; FCLK cycles count 1 ns, or 2 ns at 0.5 GHz.
DESIGN CHOICE (log entry 139). -/
def hostTime (s : State) : Nat :=
  s.power.hostTimeBase + (s.power.fclk - s.power.hostTimeAt) * (if s.power.clkInForce.getLsbD 15 then 2 else 1)

/-- Place a time mark in both Ledgers (R357, R397, R38). -/
def timeMarks (source code : Nat) (s : State) : State :=
  let r := timeMarkRecord source (hostTime s) code
  wait .f1 [r] (wait .f0 [r] s)

/-- LAST_CODE of SURVEY_STATUS (R401). -/
def putLastCode (code : Nat) (s : State) : State :=
  { s with regs := { s.regs with surveyStatus := setFld s.regs.surveyStatus 15 8 code } }

/-- A survey decision takes effect at once (R397): a SOURCE 1 time mark with its code and argument in both Ledgers. -/
def decide1 (code arg : Nat) (s : State) : State :=
  putLastCode code (timeMarks 1 ((code % 256) * 256 + arg % 256) s)

/-- A survey decision takes effect at a batch boundary: its records stand ahead of the batch that begins there (R397).
DEDUCED (log entry 114). -/
def decideAtBoundary (code arg : Nat) (s : State) : State :=
  let r := timeMarkRecord 1 (hostTime s) ((code % 256) * 256 + arg % 256)
  putLastCode code (waitAhead .f1 r (waitAhead .f0 r s))

/-- A twin role change (R357): a SOURCE 2 time mark. -/
def roleMark (code : Nat) (s : State) : State := timeMarks 2 code s

/-- Revision records of a committed batch for sites (R310, R291). -/
def revise (n : DWord) (reason : Nat) (sites : List Nat) (verdict : Nat → Nat) (s : State) : State :=
  sites.foldl (fun s x =>
    wait (siteLink x s) [⟨none, true, mkRecord 4 x 0x7FF 0 n 0 (reason * 256 + verdict x), false⟩] s) s

/-- The sites that the image's block site map associates with a block (R647). -/
def blockSites (b : Nat) (s : State) : List Nat :=
  (List.range 1024).filter (fun x =>
    (csByte (s.params.siteMapBase + 128 * b + x / 8) s.store).getLsbD (7 - x % 8))

end Sys2Proof.Machine
end

