-- ==== Sys2Proof/Machine/Lifecycle.lean ====
section
/-! DEFINITION. Resets, the disabled state of the field side, leaving lockstep, and the moment between two batches: what
several families do in common. -/

namespace Sys2Proof.Machine

/-- The device stands at a batch boundary: no flush is on egress, and every batch that has begun its egress has sent its last
egress cycle and, outside capture mode, ended its compares (R160). DEDUCED: further batches may already be issued (R264), and the
last pattern of a capture-mode batch unloads after the boundary (R159, R390). DESIGN CHOICE (log entry 107). -/
def atBoundary (s : State) : Bool :=
  decide (s.egress.phase ≠ .flush) &&
    s.batches.all (fun b => !b.egressBegun || (b.egressDone && (decide (b.mode = 1#2) || b.comparesDone)))

/-! ### The twin's token (R352) -/

/-- The lease lapses: TWIN_TOKEN is released (R352). The board's pull-up then raises the line unless the peer drives it. -/
def lapseLease (s : State) : State :=
  let l := if s.twin.token then !s.twin.peerToken else s.twin.line
  let s1 := { s with twin := { s.twin with leaseValid := false, token := false, line := l } }
  if hasTwin s then putTwinBit 11 s1.twin.line (putTwinBit 12 false s1) else s1

/-- ROLE takes a value (R377); a change raises the TWIN event (R626). -/
def setRole (r : Role) (s : State) : State :=
  if s.twin.role = r || !hasTwin s then s
  else
    let code : Nat := match r with
      | .solo => 0 | .negotiating => 1 | .primary => 2 | .mirror => 3
      | .joining => 4 | .outOfLockstep => 5 | .detached => 6
    setEvent evTwin { s with
      twin := { s.twin with role := r }
      regs := { s.regs with twinStatus := setFld s.regs.twinStatus 15 13 code } }

/-- The member runs in lockstep with its twin. -/
def inLockstep (s : State) : Bool := s.twin.role = .primary || s.twin.role = .mirror

/-- Send a sequenced twin block (R348, R350): it stays until the peer's heartbeats acknowledge it. DEDUCED (log entry 127). -/
def sendTwin (m : TwinMsg) (s : State) : State :=
  let x : TwinSent := ⟨s.twin.tseqNext, m⟩
  { s with twin := { s.twin with
      unacked := s.twin.unacked ++ [x]
      sent := s.twin.sent ++ [x]
      tseqNext := s.twin.tseqNext + 1 } }

/-- A holder of the token hands it over (R368): the handover block, time mark 0x0004, and the lease lapses. -/
def handOver (s : State) : State :=
  if s.twin.token then lapseLease (roleMark 4 (sendTwin (.control 1) s)) else s

/-- A member leaves lockstep (R367): ROLE out of lockstep, LEFT set, a time mark with its code (R357), an event; a holder of
the token hands it over. -/
def leaveLockstep (code : Nat) (s : State) : State :=
  if inLockstep s then
    let s1 := fieldEventFree evTwin (setTwinStatus 5 (setRole .outOfLockstep s))
    handOver (if code = 0 then s1 else roleMark code s1)
  else s

/-! ### The field side with field I/O disabled (R437) -/

/-- T and the mesh links untrained (R437). -/
def downMeshTwin (s : State) : State :=
  let s1 := { s with
    twin := { s.twin with tUp := false, lanesLocked := [], unacked := [], peerRole := 0, capsAgree := false }
    array := { s.array with meshLock0 := [], meshLock1 := [] } }
  if hasTwin s then putTwinBit 10 false s1 else s1

/-- Every lane of a link untrained (R254). -/
def downLink (l : FieldLink) : FieldLink :=
  { l with lanes := l.lanes.map (fun x => { x with
      state := .disabled, wordLock := false, sideLock := false, step := 0, outMsgs := [], applyLeft := 0, applyFrame := none
      rejoinDue := false, suspectFrom := none, alarm := false }) }

/-- Field I/O disabled: links send DISABLED words, the lease lapses, the fabric is held, the array runs no pass, the Docents
and Warden stand at their reset vectors (R437). -/
def disableFieldIo (s : State) : State :=
  let s1 := downMeshTwin (lapseLease s)
  let held (c : CoreState) : CoreState := { c with halted := false, cause := 0, atReset := true, stepLeft := 0 }
  putIoDisabled true { s1 with
    released := {}
    link0 := downLink s1.link0
    link1 := downLink s1.link1
    regs := { s1.regs with linkStatus := setFld (setFld s1.regs.linkStatus 5 4 0) 1 0 0 }
    array := { s1.array with phase := .idle, running := none }
    egress := { s1.egress with
      phase := .idle
      batch := none
      waitingUnload := none
      stopped := false
      stopA := false
      stopB := false
      resumedA := false
      resumedB := false }
    fabric := { s1.fabric with
      strobes := []
      failRep := []
      maskRep := []
      stopA := false
      stopB := false
      resumeA := false
      resumeB := false
      userEn := 0
      egress := []
      egressNext := [] }
    cores := { s1.cores with
      docentA := held s1.cores.docentA
      docentB := held s1.cores.docentB
      warden := held s1.cores.warden } }

/-- LOAD_STATUS.STATE leaves loaded when the field side no longer holds its configuration (R433). -/
def unloadStatus (s : State) : State :=
  if loaded s then { s with regs := { s.regs with loadStatus := setFld s.regs.loadStatus 15 13 0 } } else s

/-- A link's Ledger without the records no writeback covers. DEDUCED (log entry 136). -/
def dropRecords (l : Ledger) : Ledger :=
  { l with
    offered := []
    waiting := []
    queue := []
    gapsEntered := 0
    ring := []
    flying := l.flying.map (fun f => { f with keep := false })
    crossed := []
    passedSite := []
    commitPlaced := false
    commitDue := []
    accNotPass := false
    accRetest := false
    accIndet := false
    accDecided := false }

/-- The host ring beyond the last writeback is written again (R309). -/
def rewind (c : RingChannel) : RingChannel := { c with next := c.lastWb }

/-- Undelivered records of both links are discarded, and every batch without a verdict ends (R60, R405). -/
def dropBatches (s : State) : State :=
  { s with
    stream := { s.stream with f0 := rewind s.stream.f0, f1 := rewind s.stream.f1 }
    ledger0 := dropRecords s.ledger0
    ledger1 := dropRecords s.ledger1
    batches := []
    fetchStopped := false
    unload := {} }

/-- The field side discards its loaded configuration and all undelivered records (R60). -/
def discardConfig (s : State) : State :=
  unloadStatus (disableFieldIo (dropBatches s))

/-! ### Resets -/

/-- A reset of the field side (R655, R99, R467, R470, R508, R509): its barrier end, its stores' valid bits and its counters
start afresh. The register file keeps every register (R616). -/
def fieldReset (s : State) : State :=
  let s1 := discardConfig s
  { s1 with
    array := {}
    fabric := {}
    link0 := {}
    link1 := {}
    egress := {}
    ledger0 := { s1.ledger0 with seq := [], linkSeq := 0 }
    ledger1 := { s1.ledger1 with seq := [], linkSeq := 0 }
    repair := {}
    twin := { s1.twin with unacked := [], sent := [], tUp := false, joinBatch := none }
    survey := { s1.survey with
      stealSwitch := false
      level := 0
      sag := false
      hot := false
      pending := []
      measuring := false
      withheld := [] }
    conservator := {}
    protection := { s1.protection with log := [], perStore := [] }
    store := {}
    barrier := { s1.barrier with toHost := {}, toField := {}, fieldFirstCell := true }
    power := { s1.power with field := .off, target := none, domains := [] }
    regs := { s1.regs with eccCountCe := 0, eccCountUe := 0 } }

/-- The host-die part of the pin crossbar after a host-die reset: every entry at its reset value, unlocked (R587, R595). -/
def resetPins (p : Pins) : Pins :=
  { p with pins := p.pins.map (fun x => { pad := x.pad, mirror := x.mirror }) }

/-- A reset of the host die (R616, R549, R556): every register at its reset value except DEBUG_LEVEL, which keeps its value
unless the die powers up (R557); a load in progress is lost (R451); the next HEARTBEAT carries RESET = 1 (R59).
DEDUCED (log entries 20, 41). -/
def hostReset (powerUp : Bool) (s : State) : State :=
  let lvl := if powerUp then 0 else s.regs.debugLevel
  { s with
    regs := { debugLevel := lvl }
    shadow := {}
    inForce := {}
    pendingSet := none
    masters := List.replicate 5 {}
    crossReads := []
    heldCommands := []
    stream := {}
    loader := {}
    otpRequest := none
    barrier := { s.barrier with toField := {}, toHost := {}, fieldSilent := false, hostFirstCell := true }
    pins := resetPins s.pins
    power := { s.power with host := .standby, hostWake := false, cbHeld := false }
    cores := { s.cores with
      curator := { atReset := true }
      alert := false
      mailbox := []
      calls := []
      eventLog := []
      eventCount := 0
      nonce := none
      wrongResponses := 0
      lockedOut := false
      resetHold := true
      haltOnReset := false
      debugReply := []
      msixTable := []
      docentA := { s.cores.docentA with atReset := true, halted := false, cause := 0 }
      docentB := { s.cores.docentB with atReset := true, halted := false, cause := 0 }
      warden := { s.cores.warden with atReset := true, halted := false, cause := 0 } } }

/-! ### Mailbox replies (R540, R541, R676) -/

/-- RESULT codes of R545. -/
def resOk : Nat := 0
def resBusy : Nat := 1
def resRange : Nat := 2
def resNotPresent : Nat := 3
def resDenied : Nat := 4
def resNoCapture : Nat := 5
def resBusError : Nat := 6
def resNotWaiting : Nat := 7
def resRefused : Nat := 8
def resMismatch : Nat := 9
def resUnknownCall : Nat := 10
def resRestarted : Nat := 11
def resAsleep : Nat := 12
def resTimeout : Nat := 13

/-- Write Mailbox bytes. -/
def putMailbox (a : Nat) (bs : List Byte) (t : Table Byte) : Table Byte :=
  match bs with
  | [] => t
  | b :: rest => putMailbox (a + 1) rest (tset 0 t a b)

/-- CURATOR_LOAD (R548): calls in the service queue. -/
def putLoad (s : State) : State :=
  { s with regs := { s.regs with mailboxStatus := setFld s.regs.mailboxStatus 15 9 s.cores.calls.length } }

/-- The reply to a field core's call crosses as a SERVICE_REPLY (R38, R542). The queue holds such a call under slot 64 plus its
core number. -/
def sendReply (core : Nat) (tag : Word) (result : Nat) (data : List QWord) (s : State) : State :=
  let body := data.foldl (fun a d => a * 2 ^ 64 + d.toNat) 0
  sendMsg .hostToField 0x0A (5 + 8 * data.length) (((core * 65536 + tag.toNat) * 65536 + result) * 2 ^ (64 * data.length) + body) s

/-- Write the whole reply to a reply slot with the request's TAG, then signal vector 1 (R541). -/
def writeReply (slot : Nat) (tag : Word) (result : Nat) (data : List QWord) (s : State) : State :=
  if 64 ≤ slot then sendReply (slot - 64) tag result data s else
  let body := bytesOf 2 tag.toNat ++ bytesOf 2 result ++ [BitVec.ofNat 8 (8 * data.length)] ++ bytesOf 3 0
    ++ (data.flatMap (fun d => bytesOf 8 d.toNat))
  let full := body ++ List.replicate (64 - body.length) 0
  msix 1 { s with cores := { s.cores with mailbox := putMailbox (0x1000 + 64 * slot) full s.cores.mailbox } }

/-- Reply to a queued call and take it out of the service queue (R541, R542). -/
def reply (c : QueuedCall) (result : Nat) (data : List QWord) (s : State) : State :=
  writeReply c.slot c.tag result data
    (putLoad { s with cores := { s.cores with calls := s.cores.calls.filter (fun x => decide (x.slot ≠ c.slot) || decide (x.tag ≠ c.tag)) } })

/-! ### Restarting a core (R575) -/

/-- A core is reset alone (R572, R574, R575). -/
def resetCore (c : Core) (s : State) : State :=
  let fresh (x : CoreState) : CoreState :=
    { x with halted := false, cause := 0, atReset := true, restarting := true, stepLeft := 0 }
  let s1 := setCore c (fresh (coreState c s)) s
  match c with
  | .curator =>
    let answered := s1.cores.calls.foldl (fun s q => writeReply q.slot q.tag resRestarted [] s) s1
    putLoad { answered with cores := { answered.cores with calls := [] } }
  | .docentA => s1
  | .docentB => s1
  | .warden => leaveLockstep 0 (lapseLease s1)

/-! ### Registers the loader and the array report -/

/-- LOAD_STATUS.STATE (R433). -/
def setLoadState (v : Nat) (s : State) : State :=
  { s with regs := { s.regs with loadStatus := setFld s.regs.loadStatus 15 13 v } }

/-- A load fails (R437): STATE failed and CODE, keys erased, CFG_FAULT asserted, the load event, field I/O disabled. -/
def failLoad (code : Nat) (s : State) : State :=
  if s.loader.active then
    let s1 := { s with
      regs := { s.regs with loadStatus := setFld (setFld s.regs.loadStatus 15 13 5) 7 0 code }
      loader := { s.loader with
        active := false
        keyEpochs := []
        cfgFault := true
        stagesLeft := []
        pllWait := false
        frames := []
        buffered := []
        begun := []
        shadowUpdate := [] }
      repair := {} }
    setEvent evLoad (disableFieldIo s1)
  else s

/-- Load codes of R433. -/
def ldDeadline : Nat := 1
def ldTrailerCrc : Nat := 2
def ldCapacity : Nat := 3
def ldContention : Nat := 4
def ldFabric : Nat := 5
def ldSchedule : Nat := 6
def ldUnloadMap : Nat := 7
def ldPllLock : Nat := 8
def ldKey : Nat := 9
def ldFormat : Nat := 10
def ldSignature : Nat := 11
def ldAbort : Nat := 12
def ldFieldLost : Nat := 13

/-- END_OF_TEST (R584): RUN = 0, no batch in progress, every issued batch committed on both links, every commit covered by a
writeback. -/
def endOfTest (s : State) : Bool :=
  !s.regs.batchControl.getLsbD 0 && s.batches.all (fun b => committedBoth b && b.visible0 && b.visible1)

/-- The END_OF_TEST signal follows its conditions. -/
def refreshEndOfTest (s : State) : State := { s with pins := { s.pins with endOfTest := endOfTest s } }

/-- HELD_F0 and HELD_F1 of FAIL_STATUS (R319). -/
def ledgerHolds (l : Ledger) : Bool :=
  !(l.offered.isEmpty && l.waiting.isEmpty && l.queue.isEmpty && l.ring.isEmpty && l.flying.isEmpty && l.crossed.isEmpty)

/-- The sweep level, the stealing bit and the Conservator's run bit as SCRUB_STATUS reports them (R489). -/
def stealingInForce (s : State) : Bool :=
  let st := fld s.regs.scrubControl 4 3
  st = 2 || (st = 1 && s.survey.stealSwitch && !s.survey.overrides.getLsbD 5)

/-! ### Transitions of the field side (R516 to R520) -/

/-- The state that PWR_REQUEST.FIELD names (R525). -/
def requested (s : State) : PowerState :=
  match fld s.regs.pwrRequest 2 0 with
  | 1 => .dormant
  | 2 => .standby
  | _ => .armed

/-- The transition whose condition is met, if any (R518 to R520, R523, R438). Held commands keep the side awake until they have
run (R54). DEDUCED (log entry 22). -/
def dueTransition (s : State) : Option PowerState :=
  match s.power.field with
  | .off => if s.power.fieldRails && s.power.tref then some .standby else none
  | .dormant => if decide (s.power.target = some .standby) || decide (requested s ≠ .dormant) then some .standby else none
  | .standby =>
    if s.loader.active then none
    else if requested s = .armed then (if loaded s then some .armed else none)
    else if requested s = .dormant && !ledgerHolds s.ledger0 && !ledgerHolds s.ledger1 && decide (s.store.test = .idle)
        && s.store.outstanding.isEmpty && s.heldCommands.isEmpty then some .dormant
    else none
  | .armed =>
    if decide (requested s ≠ .armed) && !s.loader.active && atBoundary s && s.batches.all committedBoth then some .standby else none
  | .running => none

end Sys2Proof.Machine
end

