-- ==== Sys2Proof/Machine/Operands.lean ====
section
/-! DEFINITION. The stores of the Boolean processor array and every operand form its instructions read: bank words with their
valid, poison and check bits, Gallery bus slots, and the special words (R68, R69, R86 to R93, R456 to R461). -/

namespace Sys2Proof.Machine

/-- The device-wide number of BP `bp` of Gallery `g` (R102). -/
def bpNum (g bp : Nat) : Nat := 256 * g + bp

/-! ### Instruction stores and schedule lengths -/

/-- The END instruction word that an instruction not placed by the image holds (R415). -/
def endWord : QWord := 0xF000000000000000#64

/-- The stored instruction word of a BP. -/
def instrWord (bpn i : Nat) (s : State) : QWord := tget endWord s.array.instr (bpn * 512 + i)

/-- The class and the corrected instruction word (R456). -/
def instrDecode (bpn i : Nat) (s : State) : EccClass × QWord :=
  bchDecode (instrWord bpn i s) (tget 0 s.array.instrDev (bpn * 512 + i))

/-- An instruction codeword is poisoned (R459). -/
def instrPoisoned (bpn i : Nat) (s : State) : Bool := s.array.instrPoison.contains (bpn * 512 + i)

/-- The index of the first END from `i` on, or 512, `n` words looked at. -/
def firstEnd (bpn : Nat) (s : State) : Nat → Nat → Nat
  | 0, i => i
  | n + 1, i => if (decodeBp (instrDecode bpn i s).2).op = .endOp then i else firstEnd bpn s n (i + 1)

/-- The schedule length of a BP (R63). -/
def bpLength (bpn : Nat) (s : State) : Nat := firstEnd bpn s 512 0

/-- The device schedule length L (R63, R645). -/
def schedLength (s : State) : Nat := fld s.regs.schedInfo 9 0

/-- SCHED_INFO.MESH and THREE_VALUED (R645). -/
def schedMesh (s : State) : Bool := s.regs.schedInfo.getLsbD 13
def threeValued (s : State) : Bool := s.regs.schedInfo.getLsbD 15

/-- A Gallery's descriptor fields. -/
def gallery (g : Nat) (s : State) : GalleryInfo := tget {} s.array.galleries g

/-- The committed ENABLE of a Gallery (R114). -/
def galleryEnabled (g : Nat) (s : State) : Bool := s.inForce.galleryEn.getLsbD g

/-- A Gallery in use: LENGTH above 0 and ENABLE = 1 (R115). -/
def galleryInUse (g : Nat) (s : State) : Bool := decide ((gallery g s).length ≠ 0) && galleryEnabled g s

/-- The instruction that a BP executes at a step: what its store holds up to its first END, NOP above it (R62, R63, R79). -/
def fetched (bpn i : Nat) (s : State) : BpInstr :=
  if i ≤ bpLength bpn s then decodeBp (instrDecode bpn i s).2 else ⟨.nop, 0, 0, 0, 0, 0⟩

/-! ### Codewords awaiting line repair (R474) -/

/-- A poisoned codeword awaits repair: Gallery (0xFF for the mesh tables), BP and ROW; REPAIR_WAIT and the repair event (R474). -/
def awaitRepair (g bp row : Nat) (s : State) : State :=
  if s.array.awaiting.contains (g, bp, row) then s
  else
    fieldEvent evRepair (g * 2 ^ 24 + bp * 2 ^ 16 + row)
      (putScrubBit 11 true { s with array := { s.array with awaiting := s.array.awaiting ++ [(g, bp, row)] } })

/-- At a batch boundary with a codeword awaiting repair no further batch is issued (R474), and lockstep ends (R476). -/
def enterRepairWait (s : State) : State :=
  if s.array.awaiting.isEmpty || s.array.repairHold then s
  else leaveLockstep 0 { s with array := { s.array with repairHold := true } }

/-! ### State banks -/

/-- The physical previous-bank word (R89). -/
def prevWord (w : Nat) (s : State) : Nat :=
  match s.array.running.bind (fun n => findBatch n s) with
  | some b => if b.overlap then (w + 256 * (b.d.batch.toNat % 2)) % 512 else w
  | none => w

/-- The words of a bank, by bank: false current, true previous. -/
def bankWords (prev : Bool) (s : State) : Table Word := if prev then s.array.prev else s.array.cur
def bankValid (prev : Bool) (s : State) : NatSet := if prev then s.array.prevValid else s.array.curValid
def bankPoison (prev : Bool) (s : State) : NatSet := if prev then s.array.prevPoison else s.array.curPoison
def bankDev (prev : Bool) (s : State) : Table (BitVec 15) := if prev then s.array.prevDev else s.array.curDev

/-- The row key of a word of a BP: 128 rows of 4 words (R91). -/
def rowKey (bpn w : Nat) : Nat := bpn * 128 + w / 4

/-- The 64 bits of a row as stored, word 4r most significant (R452). -/
def rowWord (prev : Bool) (row : Nat) (s : State) : QWord :=
  let t := bankWords prev s
  BitVec.ofNat 64 ((((tget 0 t (4 * row)).toNat * 65536 + (tget 0 t (4 * row + 1)).toNat) * 65536
    + (tget 0 t (4 * row + 2)).toNat) * 65536 + (tget 0 t (4 * row + 3)).toNat)

/-- Word `k` of a row's 64 bits. -/
def wordOfRow (d : QWord) (k : Nat) : Word := d.extractLsb' (48 - 16 * (k % 4)) 16

/-- The decoded row (R456). DESIGN CHOICE (log entry 90). -/
def rowDecode (prev : Bool) (row : Nat) (s : State) : EccClass × QWord :=
  bchDecode (rowWord prev row s) (tget 0 (bankDev prev s) row)

/-- Store a whole row under fresh check bits and set its valid bit. -/
def putRow (prev : Bool) (row : Nat) (d : QWord) (s : State) : State :=
  let put (t : Table Word) : Table Word :=
    (List.range 4).foldl (fun t k => tset 0 t (4 * row + k) (wordOfRow d k)) t
  if prev then { s with array := { s.array with
    prev := put s.array.prev, prevValid := nins s.array.prevValid row, prevDev := tdel s.array.prevDev row } }
  else { s with array := { s.array with
    cur := put s.array.cur, curValid := nins s.array.curValid row, curDev := tdel s.array.curDev row } }

/-- Poison a row (R459). -/
def poisonRow (prev : Bool) (row : Nat) (s : State) : State :=
  setScrubStatus 0 (if prev then { s with array := { s.array with prevPoison := nins s.array.prevPoison row } }
    else { s with array := { s.array with curPoison := nins s.array.curPoison row } })

/-- The Correction Log store and location of a row (R463): row key × 2^9 keeps Gallery, BP and row at their places. -/
def rowStore (prev : Bool) : Nat := if prev then stPrev else stCur
def rowLocation (row : Nat) : Nat := (row / 128) * 2 ^ 18 + (row % 128) * 2 ^ 9

/-- A reader finds an uncorrectable error in a row: counted, logged, ARRAY_UE with an event, and the row poisoned (R458,
R459). -/
def rowUncorrectable (prev : Bool) (row : Nat) (s : State) : State :=
  poisonRow prev row (faultEventFree fcArrayUe (countError (rowStore prev) 3 (rowLocation row) 0 s))

/-- What a read of a state word delivers: 0 from an invalid, poisoned or uncorrectable row (R92, R460). -/
def stateValue (prev : Bool) (bpn w : Nat) (s : State) : Word :=
  let row := rowKey bpn w
  if !(bankValid prev s).contains row || (bankPoison prev s).contains row then 0
  else
    let r := rowDecode prev row s
    if r.1 = .uncorrectable then 0 else wordOfRow r.2 w

/-- What a read of a state word does besides delivering it (R457, R458, R460). -/
def stateReadEffect (prev : Bool) (bpn w : Nat) (s : State) : State :=
  let row := rowKey bpn w
  if !(bankValid prev s).contains row then s
  else if (bankPoison prev s).contains row then indetNow 6 s
  else
    match (rowDecode prev row s).1 with
    | .clean => s
    | .uncorrectable => indetNow 6 (rowUncorrectable prev row s)
    | c => countError (rowStore prev) (classCode c) (rowLocation row) 0 s

/-- `d` with word `k` of the row replaced. -/
def mergeRow (d : QWord) (k : Nat) (v : Word) : QWord := setFld d (63 - 16 * (k % 4)) (48 - 16 * (k % 4)) v.toNat

/-- A write of one word (R93, R460): a poisoned row keeps its content, an invalid row starts from zeros, a valid row is read to
merge its other words. -/
def stateWrite (prev : Bool) (bpn w : Nat) (v : Word) (s : State) : State :=
  let row := rowKey bpn w
  if (bankPoison prev s).contains row then s
  else if !(bankValid prev s).contains row then putRow prev row (mergeRow 0 w v) s
  else
    let r := rowDecode prev row s
    match r.1 with
    | .clean => putRow prev row (mergeRow r.2 w v) s
    | .uncorrectable => rowUncorrectable prev row s
    | c => putRow prev row (mergeRow r.2 w v) (countError (rowStore prev) (classCode c) (rowLocation row) 0 s)

/-! ### Route and mesh tables -/

/-- Route-table entry p of row i of Gallery g (R109). -/
def routeKey (g i p : Nat) : Nat := (512 * g + i) * 8 + p
def routeHalf (g i p : Nat) : Nat := 1024 * g + 2 * i + p / 4

/-- The 64 bits of half a route row, entry 0 or 4 most significant (R452). -/
def routeWord (half : Nat) (s : State) : QWord :=
  let e (k : Nat) : Nat := (tget 0 s.array.routes (4 * half + k)).toNat
  BitVec.ofNat 64 (((e 0 * 65536 + e 1) * 65536 + e 2) * 65536 + e 3)

def routeDecode (half : Nat) (s : State) : EccClass × QWord :=
  bchDecode (routeWord half s) (tget 0 s.array.routeDev half)

/-- The entry a route read delivers: not valid where its codeword is uncorrectable (R458). -/
def routeEntry (g i p : Nat) (s : State) : Word :=
  let r := routeDecode (routeHalf g i p) s
  if r.1 = .uncorrectable || s.array.routePoison.contains (routeHalf g i p) then 0 else wordOfRow r.2 (p % 4)

/-- What a route read does besides. -/
def routeReadEffect (g i p : Nat) (s : State) : State :=
  let half := routeHalf g i p
  let loc := g * 2 ^ 26 + i * 2 ^ 9 + (p / 4) * 2 ^ 8
  if s.array.routePoison.contains half then indetNow 6 s
  else
    match (routeDecode half s).1 with
    | .clean => s
    | .uncorrectable =>
      let s1 := faultEventFree fcArrayUe (countError stRoute 3 loc 0 s)
      let s2 := setScrubStatus 0 { s1 with array := { s1.array with routePoison := nins s1.array.routePoison half } }
      awaitRepair g 0 (0x200 + 2 * i + p / 4) (indetNow 6 s2)
    | c => countError stRoute (classCode c) loc 0 s

def routeValid (e : Word) : Bool := e.getLsbD 15
def routePort (e : Word) : Nat := fld e 8 6
def routeGallery (e : Word) : Nat := fld e 5 0

/-- The 64 bits of row i of the mesh tables: send row in [55:32], receive row in [23:0] (R452). -/
def meshWord (i : Nat) (s : State) : QWord :=
  BitVec.ofNat 64 ((tget 0 s.array.meshSendTab i).toNat * 2 ^ 32 + (tget 0 s.array.meshRecvTab i).toNat)

def meshDecode (i : Nat) (s : State) : EccClass × QWord := bchDecode (meshWord i s) (tget 0 s.array.meshDev i)

/-- A mesh codeword whose reads act as none. -/
def meshBad (i : Nat) (s : State) : Bool :=
  decide ((meshDecode i s).1 = .uncorrectable) || s.array.meshPoison.contains i

/-- Send entry (i, t): bit 0 names M0, bit 1 names M1 (R126). -/
def meshSendEntry (i t : Nat) (s : State) : Nat :=
  if meshBad i s then 0 else ((meshDecode i s).2.toNat >>> (32 + 2 * t)) % 4

/-- Receive entry (j, t) (R126). -/
def meshRecvEntry (j t : Nat) (s : State) : Nat :=
  if meshBad j s then 0 else ((meshDecode j s).2.toNat >>> (2 * t)) % 4

def meshReadEffect (i : Nat) (s : State) : State :=
  if s.array.meshPoison.contains i then indetNow 6 s
  else
    match (meshDecode i s).1 with
    | .clean => s
    | .uncorrectable =>
      let s1 := faultEventFree fcArrayUe (countError stMesh 3 (i * 2 ^ 9) 0 s)
      let s2 := setScrubStatus 0 { s1 with array := { s1.array with meshPoison := nins s1.array.meshPoison i } }
      awaitRepair 0xFF 0 i (indetNow 6 s2)
    | c => countError stMesh (classCode c) (i * 2 ^ 9) 0 s

/-- The link a receive entry names (R126). -/
def entryLink (e : Nat) : Option MLink := if e = 1 then some .m0 else if e = 2 then some .m1 else none

/-! ### Special words (R69 to R73, R117, R128) -/

/-- The stimulus words a port holds, oldest first. -/
def stimPort (g p : Nat) (s : State) : List Word := tget [] s.array.stim (32 * g + p)

/-- A read of an empty stimulus port (R73). -/
def stimUnderflow (s : State) : State := indetNow 1 (setFault fcStimUnderflow s)

/-- The word a Boulevard receive port holds for a read at step j: ports 0 to 7 at this step, 8 to 15 of the step before. -/
def blvdWord (j g n : Nat) (s : State) : Option BlvdWord :=
  s.array.rx.find? (fun w => w.gallery = g && w.port = n % 8 && w.step + n / 8 = j)

/-- A read of a word from a sleeping Gallery (R117). -/
def asleepRead (g src : Nat) (s : State) : State :=
  let i := gallery g s
  let s1 := if i.asleepValid then s else { s with array := { s.array with
    galleries := tset {} s.array.galleries g { i with asleepValid := true, asleepSource := src } } }
  indetNow 3 (faultEventFree fcGalleryAsleep s1)

/-- The low bits of the batch number and pass that mesh blocks carry (R125). -/
def meshBatch (s : State) : BitVec 24 :=
  match s.array.running with | some n => n.setWidth 24 | none => 0
def meshPass (s : State) : BitVec 12 := BitVec.ofNat 12 s.array.pass

/-- The block a receive slot reads at a step. -/
def meshHeldAt (l : MLink) (st : Nat) (s : State) : Option MeshHeld :=
  s.array.meshHeld.find? (fun h => h.link = l && h.step = st && h.batch = meshBatch s && h.pass = meshPass s)

/-- MESH_RXr read at step j (R128): 0 where no block is named, and where the block is known lost (R137). -/
def meshRx (j r : Nat) (s : State) : Word :=
  if !hasMesh s || j < 80 then 0
  else
    match entryLink (meshRecvEntry j r s) with
    | none => 0
    | some l =>
      match meshHeldAt l (j - 80) s with
      | none => 0
      | some h => if h.lost then 0 else lget 0 h.words r

/-- The constants of the special space (R69). -/
def specialConst (i : Nat) : Word :=
  match i with
  | 1 => 0xFFFF#16
  | 2 => 0x5555#16
  | 3 => 0xAAAA#16
  | 4 => 0xAAAA#16
  | 5 => 0xCCCC#16
  | 6 => 0xF0F0#16
  | 7 => 0xFF00#16
  | _ => 0#16

/-- A Gallery bus slot read at step j: what BP `slot` exported at the step before (R70). -/
def busWord (j g slot : Nat) (s : State) : Word :=
  match s.array.bus.find? (fun w => w.gallery = g && w.bp = slot && w.step + 1 = j) with
  | some w => w.value
  | none => 0

/-- The value of a special word read by a BP of Gallery g at step j. -/
def specialValue (j g i : Nat) (s : State) : Word :=
  if i < 0x20 then specialConst i
  else if i < 0x40 then (stimPort g (i - 0x20) s).headD 0
  else if i < 0x50 then
    match blvdWord j g (i - 0x40) s with
    | some w => if w.asleepFrom.isSome then 0 else w.value
    | none => 0
  else if i < 0x5C then meshRx j (i - 0x50) s
  else if i = 0x60 then s.array.xmask
  else 0

/-- What a read of a special word does besides. -/
def specialEffect (j g i : Nat) (s : State) : State :=
  if i < 0x20 then s
  else if i < 0x40 then (if (stimPort g (i - 0x20) s).isEmpty then stimUnderflow s else s)
  else if i < 0x50 then
    match blvdWord j g (i - 0x40) s with
    | some w => match w.asleepFrom with
      | some src => asleepRead g src s
      | none => s
    | none => s
  else if i < 0x5C then (if hasMesh s && 80 ≤ j then meshReadEffect j s else s)
  else s

/-! ### Operands (R68) -/

/-- The value of an operand that BP bp of Gallery g reads at step j. -/
def operandValue (j g bp : Nat) (o : BitVec 11) (s : State) : Word :=
  match operandSpace o with
  | 0 => stateValue false (bpNum g bp) (operandIndex o) s
  | 1 => stateValue true (bpNum g bp) (prevWord (operandIndex o) s) s
  | 2 => busWord j g (operandIndex o) s
  | _ => specialValue j g (operandIndex o) s

/-- What reading an operand does besides. -/
def operandEffect (j g bp : Nat) (o : BitVec 11) (s : State) : State :=
  match operandSpace o with
  | 0 => stateReadEffect false (bpNum g bp) (operandIndex o) s
  | 1 => stateReadEffect true (bpNum g bp) (prevWord (operandIndex o) s) s
  | 2 => s
  | _ => specialEffect j g (operandIndex o) s

/-- The effects of reading all four operands (R76). -/
def operandEffects (j g bp : Nat) (x : BpInstr) (s : State) : State :=
  operandEffect j g bp x.d (operandEffect j g bp x.c (operandEffect j g bp x.b (operandEffect j g bp x.a s)))

end Sys2Proof.Machine
end

