-- ==== Sys2Proof/Machine/Processor.lean ====
section
/-! DEFINITION. The instructions of the Boolean processors: what each opcode does when one BP executes one step (R62 to R98), and
the mesh blocks that go out as steps complete (R127). -/

namespace Sys2Proof.Machine

/-! ### Results -/

/-- A word from its lanes: bit n is lane n (R65). -/
def lanes (f : Nat → Bool) : Word := (BitVec.ofBoolListLE ((List.range 16).map f)).setWidth 16

/-- Bit TT[8A + 4B + 2C + D] (R67). -/
def ttBit (tt : Word) (a b c d : Bool) : Bool := tt.getLsbD (8 * a.toNat + 4 * b.toNat + 2 * c.toNat + d.toNat)

/-- The truth-table result (R67). -/
def evalTT (tt a b c d : Word) : Word := lanes (fun n => ttBit tt (a.getLsbD n) (b.getLsbD n) (c.getLsbD n) (d.getLsbD n))

/-- An operand's value in a pair may be `v`: X takes both values, a known pair its own (R95 to R97). -/
def pairAllows (x : Word) (m : Nat) (v : Bool) : Bool := x.getLsbD (2 * m + 1) || x.getLsbD (2 * m) == v

/-- The result of every assignment that the operands of pair m allow (R96). -/
def pairResults (tt a b c d : Word) (m : Nat) : List Bool :=
  ((List.range 16).filter (fun k => pairAllows a m (k.testBit 3) && pairAllows b m (k.testBit 2)
    && pairAllows c m (k.testBit 1) && pairAllows d m (k.testBit 0))).map (fun k => tt.getLsbD k)

/-- The three-valued result (R96, R97): lane 2m the value bit, lane 2m + 1 the unknown bit. -/
def eval3TT (tt a b c d : Word) : Word := lanes (fun n =>
  let rs := pairResults tt a b c d (n / 2)
  let known1 := rs.all id
  let known0 := rs.all not
  if n % 2 = 0 then known1 else !(known1 || known0))

/-! ### Mesh blocks sent (R116, R125 to R127) -/

/-- A mesh block (R125). -/
def meshBlock (words : List Word) (kind : Nat) (poison : Bool) (st : Nat) (batch : BitVec 24) (pass : BitVec 12) : Block :=
  let w := ofBytes ((words ++ List.replicate (12 - words.length) 0).flatMap (fun (x : Word) => bytesOf 2 x.toNat))
  let body := ((((w * 4 + kind) * 2 + poison.toNat) * 512 + st) * 2 ^ 24 + batch.toNat) * 2 ^ 12 + pass.toNat
  BitVec.ofNat 256 (body * 65536 + crc16 (bitsMsb 240 body))

/-- A send entry names a link (R126). -/
def namesLink (e : Nat) (l : MLink) : Bool := match l with | .m0 => e % 2 = 1 | .m1 => e / 2 % 2 = 1

/-- The MESH_SEND instructions of sleeping Galleries at a step, by slot (R116). -/
def asleepMeshSends (st : Nat) (s : State) : List Nat :=
  (s.array.instr.filter (fun e => e.1 % 512 = st
    && decide ((gallery (e.1 / 512 / 256) s).length ≠ 0) && !galleryEnabled (e.1 / 512 / 256) s
    && decide (st < bpLength (e.1 / 512) s) && bpLegal (decodeBp e.2) && (decodeBp e.2).op = .meshSend)).map
      (fun e => (decodeBp e.2).tt.toNat % 16)

/-- The step-data block of a step on a link (R127): each slot's word where its send entry names the link. -/
def stepBlock (l : MLink) (st : Nat) (s : State) : Block :=
  let word (t : Nat) : Word :=
    if namesLink (meshSendEntry st t s) l then
      match s.array.meshOut.find? (fun o => o.step = st && o.slot = t) with
      | some o => o.value
      | none => 0
    else 0
  let poison := (asleepMeshSends st s).any (fun t => namesLink (meshSendEntry st t s) l)
  meshBlock ((List.range 12).map word) 1 poison st (meshBatch s) (meshPass s)

/-- Send the step-data blocks of `n` steps from `st` on, up to step L − 81 (R127). -/
def sendStepBlocks (st n : Nat) (s : State) : State :=
  if schedMesh s then
    let steps := ((List.range n).map (· + st)).filter (fun x => decide (x + 81 ≤ schedLength s))
    { s with array := { s.array with
        meshBlocksSent := s.array.meshBlocksSent
          ++ steps.flatMap (fun x => [(MLink.m0, stepBlock .m0 x s), (MLink.m1, stepBlock .m1 x s)]) } }
  else s

/-- The pass has reached step `i`: the blocks of the steps before it go out, and bus words older than one step are gone
(R70). DESIGN CHOICE (log entry 89). -/
def atStep (i : Nat) (s : State) : State :=
  if s.array.step ≤ i then
    let s1 := sendStepBlocks (s.array.step - 1) (i - (s.array.step - 1)) s
    { s1 with array := { s1.array with
        step := i + 1
        bus := s1.array.bus.filter (fun w => decide (i ≤ w.step + 1)) } }
  else s

/-! ### The conditions of a step -/

/-- The links that a step's receive entries name (R134). -/
def meshNeeds (j : Nat) (s : State) : List MLink :=
  ((List.range 12).filterMap (fun r => entryLink (meshRecvEntry j r s))).eraseDups

/-- Every block that step j reads has arrived, or is known lost (R134, R137). -/
def meshReady (j : Nat) (s : State) : Bool :=
  !schedMesh s || decide (j < 80) || (meshNeeds j s).all (fun l => (meshHeldAt l (j - 80) s).isSome)

/-- A debug halt of a Docent stops the array (R179, R105). -/
def docentHalted (s : State) : Bool := s.cores.docentA.halted || s.cores.docentB.halted

/-- BP bp of Gallery g executes step i now: a pass runs, the Gallery takes part, the step is the one in progress or a later
one below L, and no hold stands before it (R62, R104, R105, R116, R134). -/
def bpRuns (g bp i : Nat) (s : State) : Bool :=
  decide (s.array.phase = .inPass) && s.array.running.isSome && decide (g < galleryCount s) && decide (bp < 256)
    && galleryInUse g s && decide (i < schedLength s) && decide (s.array.step ≤ i + 1) && meshReady i s && !docentHalted s

/-- The instruction of a step is fetched whole: not poisoned and no uncorrectable error found (R458, R461). -/
def fetchGood (bpn i : Nat) (s : State) : Bool :=
  decide (bpLength bpn s < i) ||
    (!instrPoisoned bpn i s && decide ((instrDecode bpn i s).1 ≠ .uncorrectable))

/-- A fetch with a correctable error is counted and logged (R457). -/
def fetchEffect (bpn i : Nat) (s : State) : State :=
  if bpLength bpn s < i then s
  else
    match (instrDecode bpn i s).1 with
    | .clean => s
    | .uncorrectable => s
    | c => countError stInstr (classCode c) (bpn * 2 ^ 18 + i * 2 ^ 9) 0 s

/-- The BP executes, at step i, a legal instruction of an opcode. -/
def executes (op : BpOp) (g bp i : Nat) (s : State) : Bool :=
  let x := fetched (bpNum g bp) i s
  bpRuns g bp i s && fetchGood (bpNum g bp) i s && decide (x.op = op) && bpLegal x

/-! ### Effects -/

/-- Export a word on the Gallery bus (R103). -/
def exportWord (g bp i : Nat) (v : Word) (s : State) : State :=
  { s with array := { s.array with bus := ⟨g, bp, i, v⟩ :: s.array.bus } }

/-- Commit a word to the previous bank (R88, R89), remembered for the batch digest (R360). -/
def commitWord (g bp i : Nat) (v : Word) (s : State) : State :=
  let s1 := stateWrite true (bpNum g bp) (prevWord i s) v s
  { s1 with array := { s1.array with
      commits := s1.array.commits ++ [⟨s.array.running.getD 0, g, s.array.pass, bp, i, v⟩] } }

/-- An instruction's step: the fetch, the operand reads, the result in current word i, and what else the opcode does with
the result (R64, R75). -/
def runStep (g bp i : Nat) (reads : BpInstr → State → State) (result : BpInstr → State → Word)
    (also : BpInstr → Word → State → State) (s : State) : State :=
  let s1 := fetchEffect (bpNum g bp) i (atStep i s)
  let x := fetched (bpNum g bp) i s1
  let v := result x s1
  also x v (stateWrite false (bpNum g bp) i v (reads x s1))

/-- The truth-table result of an instruction on the operands it reads at step i. -/
def ttResult (g bp i : Nat) (x : BpInstr) (s : State) : Word :=
  evalTT x.tt (operandValue i g bp x.a s) (operandValue i g bp x.b s) (operandValue i g bp x.c s) (operandValue i g bp x.d s)

/-- The three-valued result. -/
def tt3Result (g bp i : Nat) (x : BpInstr) (s : State) : Word :=
  eval3TT x.tt (operandValue i g bp x.a s) (operandValue i g bp x.b s) (operandValue i g bp x.c s) (operandValue i g bp x.d s)

/-- Put a word on the Boulevard (R110): due 6 steps later where the route entry is valid. -/
def sendBoulevard (g i : Nat) (x : BpInstr) (v : Word) (s : State) : State :=
  let p := x.tt.toNat % 8
  let e := routeEntry g i p s
  let s1 := routeReadEffect g i p s
  if routeValid e then
    { s1 with array := { s1.array with
        flight := s1.array.flight ++ [⟨i + 6, routeGallery e, routePort e, v, none⟩] } }
  else s1

/-- Put a word in a mesh send slot (R127). -/
def sendMesh (i : Nat) (x : BpInstr) (v : Word) (s : State) : State :=
  let s1 := if hasMesh s then meshReadEffect i s else s
  { s1 with array := { s1.array with meshOut := s1.array.meshOut ++ [⟨i, x.tt.toNat % 16, v, false⟩] } }

/-- Take the head word of a stimulus port (R75); an empty port underflows (R73). -/
def takeStim (g : Nat) (x : BpInstr) (s : State) : State :=
  let p := x.a.toNat - 0x620
  match stimPort g p s with
  | [] => stimUnderflow s
  | _ :: rest => { s with array := { s.array with stim := tset [] s.array.stim (32 * g + p) rest } }

/-- NOP, at a NOP instruction or above the BP's END (R63, R75). -/
def execNop (g bp i : Nat) (s : State) : Host.Outcome State Fault Refusal :=
  .next (if executes .nop g bp i s then runStep g bp i (fun _ s => s) (fun _ _ => 0) (fun _ _ s => s) s else s)

/-- EVAL (R67, R75). -/
def execEval (g bp i : Nat) (s : State) : Host.Outcome State Fault Refusal :=
  .next (if executes .eval g bp i s then
    runStep g bp i (operandEffects i g bp) (ttResult g bp i) (fun _ _ s => s) s else s)

/-- EVAL_EXPORT (R75, R103). -/
def execEvalExport (g bp i : Nat) (s : State) : Host.Outcome State Fault Refusal :=
  .next (if executes .evalExport g bp i s then
    runStep g bp i (operandEffects i g bp) (ttResult g bp i) (fun _ v s => exportWord g bp i v s) s else s)

/-- EVAL_COMMIT (R75, R88). -/
def execEvalCommit (g bp i : Nat) (s : State) : Host.Outcome State Fault Refusal :=
  .next (if executes .evalCommit g bp i s then
    runStep g bp i (operandEffects i g bp) (ttResult g bp i) (fun _ v s => commitWord g bp i v s) s else s)

/-- EVAL_COMMIT_EXPORT (R75). -/
def execEvalCommitExport (g bp i : Nat) (s : State) : Host.Outcome State Fault Refusal :=
  .next (if executes .evalCommitExport g bp i s then
    runStep g bp i (operandEffects i g bp) (ttResult g bp i)
      (fun _ v s => exportWord g bp i v (commitWord g bp i v s)) s else s)

/-- SEND (R75, R77, R110). -/
def execSend (g bp i : Nat) (s : State) : Host.Outcome State Fault Refusal :=
  .next (if executes .send g bp i s then
    runStep g bp i (fun x s => operandEffect i g bp x.a s) (fun x s => operandValue i g bp x.a s)
      (fun x v s => sendBoulevard g i x v s) s else s)

/-- MESH_SEND (R75, R77, R127). -/
def execMeshSend (g bp i : Nat) (s : State) : Host.Outcome State Fault Refusal :=
  .next (if executes .meshSend g bp i s then
    runStep g bp i (fun x s => operandEffect i g bp x.a s) (fun x s => operandValue i g bp x.a s)
      (fun x v s => sendMesh i x v s) s else s)

/-- STIM (R75, R78). -/
def execStim (g bp i : Nat) (s : State) : Host.Outcome State Fault Refusal :=
  .next (if executes .stim g bp i s then
    runStep g bp i (fun x s => takeStim g x s) (fun x s => (stimPort g (x.a.toNat - 0x620) s).headD 0)
      (fun _ _ s => s) s else s)

/-- EVAL3 (R96, R97). -/
def execEval3 (g bp i : Nat) (s : State) : Host.Outcome State Fault Refusal :=
  .next (if executes .eval3 g bp i s then
    runStep g bp i (operandEffects i g bp) (tt3Result g bp i) (fun _ _ s => s) s else s)

/-- EVAL3_COMMIT (R96, R97). -/
def execEval3Commit (g bp i : Nat) (s : State) : Host.Outcome State Fault Refusal :=
  .next (if executes .eval3Commit g bp i s then
    runStep g bp i (operandEffects i g bp) (tt3Result g bp i) (fun _ v s => commitWord g bp i v s) s else s)

/-- END: the BP writes 0 and executes NOP at every later step of the pass (R63, R75). -/
def execEndOp (g bp i : Nat) (s : State) : Host.Outcome State Fault Refusal :=
  .next (if executes .endOp g bp i s then runStep g bp i (fun _ s => s) (fun _ _ => 0) (fun _ _ s => s) s else s)

/-- The first illegal instruction of a Gallery since the fault was last cleared; in one step the lowest BP (R84). -/
def recordIllegal (g bp i : Nat) (s : State) : State :=
  let d := gallery g s
  let now := (s.array.running.getD 0, s.array.pass)
  if d.illegalValid && !(d.illegalStep = i && bp < d.illegalBp && d.illegalPass = now) then s
  else { s with array := { s.array with
    galleries := tset {} s.array.galleries g
      { d with illegalValid := true, illegalBp := bp, illegalStep := i, illegalPass := now } } }

/-- An illegal instruction writes 0x0000 and nothing else; ARRAY_ILLEGAL, the event, the record and the indeterminate
verdicts follow (R82 to R84). -/
def illegalEffect (g bp i : Nat) (s : State) : State :=
  let s1 := fetchEffect (bpNum g bp) i (atStep i s)
  let s2 := recordIllegal g bp i (stateWrite false (bpNum g bp) i 0 s1)
  indetNow 2 (faultEvent fcArrayIllegal (g * 2 ^ 24 + bp * 2 ^ 16 + i) s2)

/-- ILLEGAL_INSTRUCTION (R81 to R84). -/
def execIllegalInstruction (g bp i : Nat) (s : State) : Host.Outcome State Fault Refusal :=
  .next (if bpRuns g bp i s && fetchGood (bpNum g bp) i s && !bpLegal (fetched (bpNum g bp) i s) then
    illegalEffect g bp i s else s)

/-- A fetch that finds an uncorrectable error poisons the instruction, which then awaits line repair (R458, R459, R474). -/
def poisonInstr (g bp i : Nat) (s : State) : State :=
  let bpn := bpNum g bp
  if instrPoisoned bpn i s then s
  else
    let s1 := faultEventFree fcArrayUe (countError stInstr 3 (bpn * 2 ^ 18 + i * 2 ^ 9) 0 s)
    let s2 := setScrubStatus 0 { s1 with array := { s1.array with instrPoison := nins s1.array.instrPoison (bpn * 512 + i) } }
    awaitRepair g bp i s2

/-- POISONED_FETCH: the instruction executes as NOP and the batch becomes indeterminate (R461). -/
def execPoisonedFetch (g bp i : Nat) (s : State) : Host.Outcome State Fault Refusal :=
  .next (if bpRuns g bp i s && !fetchGood (bpNum g bp) i s then
    indetNow 6 (stateWrite false (bpNum g bp) i 0 (poisonInstr g bp i (atStep i s))) else s)

end Sys2Proof.Machine
end

