-- ==== Sys2Proof/Machine/Exchange.lean ====
section
/-! DEFINITION. Between the instruction steps: Boulevard deliveries, the exchange tail and the end of a burst, pass tokens, mesh
blocks, holds and their timeout (R105 to R138). -/

namespace Sys2Proof.Machine

/-! ### Boulevard (R110 to R118) -/

/-- The words that the SENDs of sleeping Galleries owe at a step: 0x0000, marked with the Gallery (R116). -/
def asleepSends (st : Nat) (s : State) : List BlvdWord :=
  (s.array.instr.filter (fun e => e.1 % 512 = st
    && decide ((gallery (e.1 / 512 / 256) s).length ≠ 0) && !galleryEnabled (e.1 / 512 / 256) s
    && decide (st < bpLength (e.1 / 512) s) && bpLegal (decodeBp e.2) && (decodeBp e.2).op = .send)).filterMap
      (fun e =>
        let g := e.1 / 512 / 256
        let r := routeEntry g st ((decodeBp e.2).tt.toNat % 8) s
        if routeValid r then some ⟨st + 6, routeGallery r, routePort r, 0, some g⟩ else none)

/-- The words that arrive at step `j`, those for sleeping or absent Galleries discarded (R110, R116, R118). -/
def arriving (j : Nat) (s : State) : List BlvdWord :=
  ((s.array.flight.filter (fun w => w.step = j)) ++ (if 6 ≤ j then asleepSends (j - 6) s else [])).filter
    (fun w => decide (w.gallery < galleryCount s) && galleryInUse w.gallery s && !s.array.rx.contains w)

/-- BOULEVARD_DELIVERY: the words due at a step reach their receive ports; those of the step before stay for the delayed
ports (R110). -/
def execBoulevardDelivery (j : Nat) (s : State) : Host.Outcome State Fault Refusal :=
  .next (if s.array.phase = .inPass && decide (j < schedLength s) then
    { s with array := { s.array with
        rx := arriving j s ++ s.array.rx.filter (fun w => decide (j ≤ w.step + 1))
        flight := s.array.flight.filter (fun w => decide (j < w.step)) } }
  else s)

/-! ### Pass tokens (R130 to R133) -/

/-- The pass-token block of a pass of the batch in progress (R125, R130). -/
def tokenBlock (pass : Nat) (s : State) : Block :=
  meshBlock [BitVec.ofNat 16 s.params.meshPos, BitVec.ofNat 16 (schedLength s), BitVec.ofNat 16 s.params.meshSize]
    2 false 0 (meshBatch s) (BitVec.ofNat 12 pass)

/-- Send the token of a pass on both mesh links (R130). -/
def sendToken (pass : Nat) (s : State) : State :=
  if schedMesh s then
    { s with array := { s.array with
        sentToken := some (meshBatch s, BitVec.ofNat 12 pass)
        meshBlocksSent := s.array.meshBlocksSent ++ [(.m0, tokenBlock pass s), (.m1, tokenBlock pass s)] } }
  else s

/-- The token received last on a link. -/
def tokenOf (l : MLink) (s : State) : Option MeshToken := match l with | .m0 => s.array.tokenM0 | .m1 => s.array.tokenM1

/-- `a` is `b` or comes after it, counted modulo the width. -/
def notBefore {n : Nat} (a b : BitVec n) : Bool := decide ((a - b).toNat < 2 ^ (n - 1))

/-- A link's token lets the pass in progress begin (R131). -/
def tokenGood (l : MLink) (s : State) : Bool :=
  match tokenOf l s with
  | none => false
  | some t => t.agrees &&
    (if t.batch = meshBatch s then notBefore t.pass (meshPass s) else notBefore t.batch (meshBatch s))

/-- The neighbours' tokens let the next pass begin (R124, R131). -/
def tokensReady (s : State) : Bool := !schedMesh s || (tokenGood .m0 s && tokenGood .m1 s)

/-- The device waits to begin a pass (R131, R133). -/
def awaitsToken (s : State) : Bool :=
  s.array.running.isSome && (decide (s.array.phase = .cleared) || decide (s.array.phase = .tail)) && !tokensReady s

/-- Fields of a mesh block (R125). -/
def blockWords (b : Block) : List Word := (List.range 12).map (fun t => b.extractLsb' (240 - 16 * t) 16)
def blockKind (b : Block) : Nat := fld b 63 62
def blockPoison (b : Block) : Bool := b.getLsbD 61
def blockStep (b : Block) : Nat := fld b 60 52
def blockBatch (b : Block) : BitVec 24 := b.extractLsb' 28 24
def blockPass (b : Block) : BitVec 12 := b.extractLsb' 16 12
def blockCrcOk (b : Block) : Bool := decide (crc16 (bitsMsb 240 (b.toNat / 65536)) = b.toNat % 65536)

/-- The batch among those in hand whose number has these low 24 bits. -/
def batchOfLow (b : BitVec 24) (s : State) : Option Batch := s.batches.find? (fun x => x.d.batch.setWidth 24 = b)

/-- Every site of the batch with these low bits becomes indeterminate. -/
def indetLow (b : BitVec 24) (cause : Nat) (s : State) : State :=
  match batchOfLow b s with
  | some x => indetAll x.d.batch cause s
  | none => s

/-- Step-data blocks of a batch and pass that are missing on a link below step `n`: each is known lost, and the batch becomes
indeterminate (R137). -/
def markLost (l : MLink) (b : BitVec 24) (p : BitVec 12) (n : Nat) (s : State) : State :=
  let missing := (List.range n).filter (fun st =>
    !s.array.meshHeld.any (fun h => h.link = l && h.batch = b && h.pass = p && h.step = st))
  if missing.isEmpty then s
  else indetLow b 5 { s with array := { s.array with
    meshHeld := s.array.meshHeld ++ missing.map (fun st => ⟨l, b, p, st, [], false, true⟩) } }

/-- A block that fails its check or has a reserved kind (R125, R137), a fault of the member (R364). -/
def discardBlock (s : State) : State :=
  markFault (setFault fcMeshError { s with array := { s.array with meshBlockErrors := satInc s.array.meshBlockErrors } })

/-- The ring position that a token on a link must carry (R131). -/
def neighbourPos (l : MLink) (s : State) : Nat :=
  match l with
  | .m0 => (s.params.meshPos + s.params.meshSize - 1) % s.params.meshSize
  | .m1 => (s.params.meshPos + 1) % s.params.meshSize

/-- A good pass token arrives (R131, R132, R137): a token that ends the pass in progress shows which of its blocks are
missing. -/
def takeToken (l : MLink) (b : Block) (s : State) : State :=
  let w := blockWords b
  let agrees := decide ((lget 0 w 0).toNat = neighbourPos l s) && decide ((lget 0 w 1).toNat = schedLength s)
    && decide ((lget 0 w 2).toNat = s.params.meshSize)
  let t : MeshToken := ⟨lget 0 w 0, lget 0 w 1, lget 0 w 2, blockBatch b, blockPass b, agrees⟩
  let s1 := match l with
    | .m0 => { s with array := { s.array with tokenM0 := some t } }
    | .m1 => { s with array := { s.array with tokenM1 := some t } }
  let ends := s.array.running.isSome &&
    ((t.batch = meshBatch s && t.pass = meshPass s + 1) || (t.batch = meshBatch s + 1 && s.array.pass + 1 = s.array.passes))
  let s2 := if ends then markLost l (meshBatch s) (meshPass s) (schedLength s - 80) s1 else s1
  if agrees then s2 else markFault (faultEventFree fcMeshMismatch s2)

/-- PASS_TOKEN_RECEIVE (R131, R132). -/
def execPassTokenReceive (l : MLink) (b : Block) (s : State) : Host.Outcome State Fault Refusal :=
  .next (if !hasMesh s then s
    else if !blockCrcOk b then discardBlock s
    else if blockKind b = 2 then takeToken l b s
    else s)

/-- TOKEN_RESEND (R133). -/
def execTokenResend (s : State) : Host.Outcome State Fault Refusal :=
  .next (if awaitsToken s then sendToken s.array.pass s else s)

/-! ### Mesh blocks (R125, R128, R134 to R138) -/

/-- A good step-data block is held for its due step (R135); earlier blocks of its pass that are missing are lost (R137); a
poisoned block makes its batch indeterminate (R138). -/
def holdBlock (l : MLink) (b : Block) (s : State) : State :=
  let st := blockStep b
  let s1 := markLost l (blockBatch b) (blockPass b) st s
  let known := s1.array.meshHeld.any (fun h => h.link = l && h.batch = blockBatch b && h.pass = blockPass b && h.step = st)
  let s2 := if known then s1 else { s1 with array := { s1.array with
    meshHeld := s1.array.meshHeld ++ [⟨l, blockBatch b, blockPass b, st, blockWords b, blockPoison b, false⟩] } }
  let s3 := if blockPoison b then indetLow (blockBatch b) 3 (setFault fcGalleryAsleep s2) else s2
  { s3 with array := { s3.array with meshWaiting := s3.array.meshWaiting && !meshReady s3.array.step s3 } }

/-- MESH_BLOCK_RECEIVE (R125, R137). -/
def execMeshBlockReceive (l : MLink) (b : Block) (wordsOk : Bool) (s : State) : Host.Outcome State Fault Refusal :=
  .next (if !hasMesh s then s
    else if !wordsOk || !blockCrcOk b || blockKind b = 3 then discardBlock s
    else if blockKind b = 1 then holdBlock l b s
    else s)

/-- MESH_HOLD: the array holds before a step whose block has not arrived (R134). -/
def execMeshHold (j : Nat) (s : State) : Host.Outcome State Fault Refusal :=
  .next (if s.array.phase = .inPass && decide (s.array.step = j) && decide (j < schedLength s) && !meshReady j s then
    putArrayBit 13 true { s with array := { s.array with meshWaiting := true } }
  else s)

/-! ### The end of a burst (R23, R106, R152, R160) -/

/-- A Gallery in use still holds stimulus words (R152). -/
def stimLeft (s : State) : Bool := s.array.stim.any (fun e => galleryInUse (e.1 / 32) s && !e.2.isEmpty)

/-- The half of the previous bank that a batch commits to: 0 or 1 under OVERLAP, 2 for the whole bank (R89, R160). -/
def halfOf (b : Batch) : Nat := if b.overlap then b.d.batch.toNat % 2 else 2

/-- The burst of the running batch ends (R23): the array returns to Armed; a capture-mode batch's half is held for the unload
(R160). -/
def endBurst (s : State) : State :=
  match s.array.running.bind (fun n => findBatch n s) with
  | none => s
  | some b =>
    let holds := decide (b.mode = 1#2) && decide (b.d.patterns ≠ 0) && decide (s.array.passes ≠ 0)
    let s1 := modBatch b.d.batch (fun b => { b with burstDone := true }) s
    let s2 := { s1 with
      array := { s1.array with
        phase := .idle
        running := none
        stim := []
        bus := []
        rx := []
        flight := []
        meshOut := []
        meshWaiting := false
        halves := if holds then s1.array.halves ++ [(b.d.batch, halfOf b)] else s1.array.halves }
      power := { s1.power with field := if s1.power.field = .running then .armed else s1.power.field } }
    putArrayBit 14 false (if s1.power.field = .running then reportPower 3 s2 else s2)

/-- The tail of a pass (R105, R106, R127, R130): its remaining blocks go out, the pass count advances, and either the next
pass's token is sent or the burst ends, with leftover stimulus discarded (R152). -/
def passTail (s : State) : State :=
  let s1 := sendStepBlocks (s.array.step - 1) (schedLength s) s
  let b := meshBatch s
  let p := meshPass s
  let s2 := { s1 with array := { s1.array with
    pass := s.array.pass + 1
    phase := .tail
    step := 0
    bus := []
    rx := []
    flight := []
    meshOut := []
    meshHeld := s1.array.meshHeld.filter (fun h => !(h.batch = b && h.pass = p)) } }
  if s.array.pass + 1 < s.array.passes then sendToken (s.array.pass + 1) s2
  else
    let s3 := if stimLeft s2 then indetNow 0xB (setFault fcStimMismatch s2) else s2
    endBurst s3

/-- PASS_TAIL (R106). -/
def execPassTail (s : State) : Host.Outcome State Fault Refusal :=
  .next (if s.array.phase = .inPass && s.array.running.isSome then passTail s else s)

/-- MESH_TIMEOUT (R136, R152): the array phase ends, the batch is indeterminate, and the words left in the ports are
discarded without STIM_MISMATCH. -/
def execMeshTimeout (s : State) : Host.Outcome State Fault Refusal :=
  .next (if awaitsToken s || (s.array.meshWaiting && s.array.running.isSome) then
    endBurst (indetNow 4 (faultEventFree fcMeshTimeout s))
  else s)

end Sys2Proof.Machine
end

