-- ==== Sys2Proof/Machine/Boundary.lean ====
section
/-! DEFINITION. The batch boundary: the survey unit's policy limits and overrides, decisions that wait for the boundary, lost
partners and failed lanes, and what else takes effect there (R281, R282, R338, R383 to R386, R399, R474). -/

namespace Sys2Proof.Machine

/-! ### Policy limits (R383) -/

/-- The reset value of a policy entry. -/
def policyReset (i : Nat) : Nat := lget 0 [0, 1, 4, 8, 8, 2, 4, 1, 16, 30, 100, 3] i

/-- A value lies in an entry's range; entries 12 to 15 are reserved. -/
def policyOk (i v : Nat) : Bool :=
  match i with
  | 0 => decide (v < 256)
  | 1 => decide (v ≤ 1)
  | 2 => decide (v ≤ 32)
  | 3 => decide (v ≤ 80)
  | 4 => decide (1 ≤ v) && decide (v ≤ 64)
  | 5 => decide (v ≤ 2)
  | 6 => decide (1 ≤ v) && decide (v ≤ 1000)
  | 7 => decide (v ≤ 1)
  | 8 => decide (1 ≤ v) && decide (v ≤ 10000)
  | 9 => decide (5 ≤ v) && decide (v ≤ 100)
  | 10 => decide (60 ≤ v) && decide (v ≤ 110)
  | 11 => decide (v ≤ 3)
  | _ => true

/-- What an entry holds as written, and as the survey unit takes it. -/
def policyWord (i : Nat) (s : State) : Word := tget (BitVec.ofNat 16 (policyReset i)) s.survey.policy i
def policy (i : Nat) (s : State) : Nat :=
  if policyOk i (policyWord i s).toNat then (policyWord i s).toNat else policyReset i

/-- HOLD of SURVEY_CONTROL (R399), and an OVERRIDE class in force (R384). -/
def surveyHold (s : State) : Bool := s.regs.surveyControl.getLsbD 0
def overridden (c : Nat) (s : State) : Bool := s.survey.overrides.getLsbD c

/-- PENDING of SURVEY_STATUS (R401). -/
def putPending (s : State) : State :=
  { s with regs := { s.regs with surveyStatus := setBit s.regs.surveyStatus 4 (!s.survey.pending.isEmpty) } }

/-- A decision of a class falls due while HOLD = 1: one record of code 0x0E per class (R399). -/
def withhold (c : Nat) (s : State) : State :=
  if s.survey.withheld.contains c then s
  else decide1 0xE c { s with survey := { s.survey with withheld := nins s.survey.withheld c } }

/-! ### Link state and rate (R248, R250, R284, R285) -/

/-- FCLK is 0.5 GHz. -/
def fclkHalf (s : State) : Bool := s.power.clkInForce.getLsbD 15

/-- LINK_STATUS.STATE of a link. -/
def linkState (l : FLink) (s : State) : Nat := if l = .f0 then fld s.regs.linkStatus 1 0 else fld s.regs.linkStatus 5 4
def putLinkState (l : FLink) (v : Nat) (s : State) : State :=
  let w := s.regs.linkStatus
  { s with regs := { s.regs with linkStatus := if l = .f0 then setFld w 1 0 v else setFld w 5 4 v } }

/-- A lane that the link reports as failed: failed, or named by a valid entry and absent (R278, R382). -/
def laneFailed (l : FLink) (i : Nat) (s : State) : Bool :=
  match (lane l i s).state with
  | .failed => true
  | .absent => !(laneSites l i s).isEmpty
  | _ => false

/-- The STATE of a link that is up: 0b11 with a failed lane, else 0b10. -/
def refreshLinkState (l : FLink) (s : State) : State :=
  if linkState l s < 2 then s
  else putLinkState l (if (List.range 32).any (fun i => laneFailed l i s) then 3 else 2) s

/-- HALF_OK and HALF of a link, and the committed RATE (R284). -/
def halfOk (l : FLink) (s : State) : Bool := s.regs.linkStatus.getLsbD (if l = .f0 then 3 else 7)
def committedRate (l : FLink) (s : State) : Nat := if l = .f0 then fld s.inForce.linkRates 1 0 else fld s.inForce.linkRates 3 2

/-- The rate of a link: 34 Gb/s or 17 Gb/s; at FCLK 1.0 GHz the latter is half rate (R248). -/
def setRate (l : FLink) (rate34 : Bool) (s : State) : State :=
  let s1 := setFlink l { flink l s with rate34 := rate34 } s
  { s1 with regs := { s1.regs with
      linkStatus := setBit s1.regs.linkStatus (if l = .f0 then 2 else 6) (!rate34 && !fclkHalf s) } }

/-- A link is to be trained at the next batch boundary, with every step of R265 or from its retained settings (R264, R266). -/
def retrainLink (l : FLink) (full : Bool) (s : State) : State :=
  if linkNamed l s then
    setFlink l { flink l s with retrainDue := true, fullDue := (flink l s).fullDue || full } s
  else s

/-! ### Lost partners and failed lanes (R281) -/

/-- Every batch in progress or issued receives CAUSE 0x0009 for the sites of a lane. -/
def lostCauses (l : FLink) (i : Nat) (s : State) : State :=
  (s.batches.filter (fun b => issued b && !b.verdictsFormed)).foldl
    (fun s b => addCauses b.d.batch 9 (laneSites l i s) s) s

/-- A lane's partner is lost, or the lane fails and is treated as lost. -/
def losePartner (l : FLink) (i : Nat) (st : LaneState) (s : State) : State :=
  let x := lane l i s
  let s1 := setLane l i { x with
    state := st
    rejoinDue := false
    lostCount := satInc x.lostCount
    outMsgs := []
    applyLeft := 0
    applyFrame := none } s
  refreshLinkState l (lostCauses l i (faultEventFree fcPartnerLost s1))

/-- Every ingress slot of a lane carries HOLD: the bit before stays, the qualifier is 0 (R256). -/
def holdLane (l : FLink) (i : Nat) (s : State) : State :=
  let ports := ((validEntries s.inForce.catalogue).filter (fun e =>
    catLink e.2 = l && catLane e.2 = i && roleIngress (catRole e.2))).map (fun e => catPort e.2)
  { s with fabric := { s.fabric with qualifier := ports.foldl (fun q p => tdel q p) s.fabric.qualifier } }

/-- The lane is in the link's use but its partner is lost or the lane failed. DEDUCED (log entry 123). -/
def laneOut (x : Lane) : Bool := x.state = .lost || x.state = .failed || x.state = .absent

/-- The windows of a lane that drift has made suspect, up to the cycle in progress (R276). DEDUCED (log entry 118). -/
def driftWindows (l : FLink) (i : Nat) (s : State) : State :=
  match (lane l i s).suspectFrom with
  | none => s
  | some a => windowOver (ingressSites l i s) 2 (linkNum l * 32 + i) a (s.power.fclk + 1) s

/-- Those of every lane of a link. -/
def linkDrift (l : FLink) (s : State) : State := (List.range 32).foldl (fun s i => driftWindows l i s) s

/-- A batch issued while partners are lost receives CAUSE 0x0009 for their sites (R281). -/
def lostAtIssue (n : DWord) (s : State) : State :=
  [FLink.f0, FLink.f1].foldl (fun s l => (List.range 32).foldl (fun s i =>
    if laneOut (lane l i s) then addCauses n 9 (laneSites l i s) s else s) s) s

/-! ### Decisions at the boundary (R384, R386, R392, R393, R399) -/

/-- Errors that persist on a lane, decided under R386 or withheld under R399; true in the second place: the finding stays. -/
def decidePersistent (arg : Nat) (s : State) : State × Bool :=
  let l := if arg / 32 % 2 = 1 then FLink.f1 else FLink.f0
  let i := arg % 32
  let x := lane l i s
  let k := flink l s
  if x.state ≠ .up || k.retrainDue then (setLane l i { x with handed := false } s, false)
  else
    let fall := k.rate34 && !fclkHalf s && !overridden 0 s && decide (committedRate l s = 0) && decide (policy 1 s = 1)
      && halfOk l s
    let fail := !overridden 1 s && decide (k.failedCount < policy 2 s)
    if surveyHold s then (withhold (if fall then 0 else 1) s, true)
    else
      let s1 := setLane l i { x with handed := false } s
      if fall then (retrainLink l true (setFlink l { flink l s1 with fallback := true } (decideAtBoundary 3 arg s1)), false)
      else if fail then
        let s2 := setLane l i { lane l i s1 with failedByDecision := true } (decideAtBoundary 4 arg s1)
        (losePartner l i .failed (setFlink l { flink l s2 with failedCount := k.failedCount + 1 } s2), false)
      else (decideAtBoundary 5 arg s1, false)

/-- The sweep level in all three settings copies and in SCRUB_STATUS (R392, R482, R489). -/
def setSweep (v : Nat) (s : State) : State :=
  { s with
    conservator := { s.conservator with copies := s.conservator.copies.map (fun c => { c with sweepLevel := v }) }
    regs := { s.regs with scrubStatus := setFld s.regs.scrubStatus 15 14 v } }

/-- STEALING of SCRUB_STATUS follows what is in force; a change of it takes effect at the next pass boundary (R470). -/
def refreshStealing (s : State) : State := putScrubBit 13 (stealingInForce s) s

/-- One scrub-rate decision: the sweep level (0x09) or patrol stealing (0x0A). -/
def decideScrub (d : Decision) (s : State) : State × Bool :=
  if overridden 5 s then (s, false)
  else if surveyHold s then (withhold 5 s, true)
  else
    let s1 := decideAtBoundary d.code.toNat d.arg.toNat s
    if d.code = 9#8 then (setSweep d.arg.toNat s1, false)
    else (refreshStealing { s1 with survey := { s1.survey with stealSwitch := decide (d.arg = 1#8) } }, false)

/-- One pending decision. -/
def decideOne (d : Decision) (s : State) : State × Bool :=
  if d.code = 4#8 then decidePersistent d.arg.toNat s else decideScrub d s

/-- Every pending decision, in order; those withheld stay. -/
def decideAll : List Decision → State → State
  | [], s => s
  | d :: rest, s =>
    let r := decideOne d s
    let s1 := if r.2 then { r.1 with survey := { r.1.survey with pending := r.1.survey.pending ++ [d] } } else r.1
    decideAll rest s1

def pendingDecisions (s : State) : State :=
  putPending (decideAll s.survey.pending { s with survey := { s.survey with pending := [] } })

/-- The rate that stands under the override of class 0 (R384). -/
def hostRate34 (l : FLink) (s : State) : Bool :=
  match committedRate l s with
  | 1 => true
  | 2 => false
  | _ => !fclkHalf s

/-- The host takes class `c`: its value replaces what decisions had put in force (R384). -/
def takeClass (c : Nat) (s : State) : State :=
  match c with
  | 0 =>
    [FLink.f0, FLink.f1].foldl (fun s l =>
      let k := flink l s
      let s1 := setFlink l { k with fallback := false } s
      if k.rate34 = hostRate34 l s then s1 else retrainLink l true s1) s
  | 1 =>
    [FLink.f0, FLink.f1].foldl (fun s l =>
      let k := flink l s
      if k.lanes.any (·.failedByDecision) then
        retrainLink l true (setFlink l { k with lanes := k.lanes.map (fun x => { x with failedByDecision := false }) } s)
      else s) s
  | 2 => { s with alignDue := true, delaysDue := true }
  | 5 => refreshStealing (setSweep 0 s)
  | 7 => { s with survey := { s.survey with levelDue := some (fld s.regs.surveyControl 3 2, false) } }
  | _ => s

/-- The host gives class `c` back: every condition is evaluated afresh (R384). -/
def giveClass (c : Nat) (s : State) : State :=
  match c with
  | 2 => { s with alignDue := true, delaysDue := true }
  | 5 => refreshStealing s
  | _ => s

/-- One class whose OVERRIDE bit changed (R384, R397). -/
def moveClass (taken : Bool) (c : Nat) (s : State) : State :=
  let s1 := decideAtBoundary 0xF (taken.toNat * 128 + c) { s with survey := { s.survey with
    overrides := setBit s.survey.overrides c taken } }
  if taken then takeClass c s1 else giveClass c s1

/-- OVERRIDE takes effect class by class. -/
def moveClasses (s : State) : State :=
  let want : Byte := BitVec.ofNat 8 (policy 0 s)
  (List.range 8).foldl (fun s c =>
    if want.getLsbD c = overridden c s then s else moveClass (want.getLsbD c) c s) s

/-! ### What else waits for the boundary -/

/-- A retried lane rejoins (R282). -/
def rejoinLanes (s : State) : State :=
  [FLink.f0, FLink.f1].foldl (fun s l =>
    refreshLinkState l (setFlink l { flink l s with lanes := (flink l s).lanes.map (fun x =>
      if x.rejoinDue && x.state = .lost then
        { x with state := .up, rejoinDue := false, rxWord := 0, prevCrc := none, checkedTo := s.power.fclk, statusTo := s.power.fclk }
      else x) } s)) s

/-- The tracker numbers of a cleared range leave a tracker store. -/
def clearRange (first count : Nat) (t : Table Tracker) : Table Tracker :=
  t.filter (fun e => decide (e.1 < first) || decide (first + count ≤ e.1))

/-- ra_configure and ra_clear take effect (R338). -/
def repairBoundary (s : State) : State :=
  let r := s.repair
  let r1 := match r.pendingConfig with
    | none => r
    | some g => { r with geometry := some g, working := [], committed := [], queue := [], pendingConfig := none }
  let r2 := r1.pendingClear.foldl (fun r c =>
    { r with working := clearRange c.1 c.2 r.working, committed := clearRange c.1 c.2 r.committed }) r1
  { s with repair := { r2 with pendingClear := [] } }

/-- A stopped Conservator outside lockstep, or a broken shadow, holds back every batch from the boundary (R481, R485). -/
def conservatorHold (s : State) : State :=
  { s with conservator := { s.conservator with stopHold := s.conservator.stopDue || s.conservator.shadowBroken } }

/-- Everything that takes effect at a batch boundary. -/
def boundaryWork (s : State) : State :=
  rejoinLanes (repairBoundary (pendingDecisions (moveClasses (conservatorHold (enterRepairWait s)))))

/-! ### Throttling (R394, R395) -/

/-- The throttle level of the next pass boundary takes effect, with its record (R395, R397, R401). -/
def applyThrottle (s : State) : State :=
  match s.survey.levelDue with
  | none => s
  | some (v, hot) =>
    let s1 := { s with
      survey := { s.survey with level := v, levelDue := none }
      regs := { s.regs with surveyStatus := setFld s.regs.surveyStatus 7 6 v } }
    if overridden 7 s || v = s.survey.level then s1 else decide1 0xB (hot.toNat * 128 + v) s1

/-- A pass boundary: no pass is in progress (R395). -/
def atPassBoundary (s : State) : Bool := decide (s.array.phase ≠ .inPass)
def settleThrottle (s : State) : State := if atPassBoundary s then applyThrottle s else s

/-- At a batch boundary the waiting happenings take effect. -/
def settle (s : State) : State := if atBoundary s then boundaryWork s else s

end Sys2Proof.Machine
end

