-- ==== Sys2Proof/Machine/Batches.lean ====
section
/-! DEFINITION. The Docents: descriptors, stimulus, issue, and the beginning of bursts and passes (R21 to R23, R139 to R156,
R175, R608, R677). -/

namespace Sys2Proof.Machine

/-! ### Records in Common Store, as a Docent reads them (R458) -/

/-- The number held in `n` bytes, each as delivered; an uncorrectable byte is used as stored. -/
def rawNat (a n : Nat) (st : Store) : Nat :=
  ofBytes ((List.range n).map (fun i => if granuleValid (a + i) st then
    (if (csDecode (a + i) st).1 = .uncorrectable then rawGet (a + i) st.cs else csByte (a + i) st) else 0))

/-- The effects of a Docent reading `n` bytes of a stimulus or X-mask record or an unload map for a batch: an uncorrectable
byte makes the batch indeterminate (R458). -/
def recordReadEffects (n : DWord) (a len : Nat) (s : State) : State :=
  let s1 := csReadEffects a len s
  if csUe a len s.store then indetAll n 0xD s1 else s1

/-- The stimulus record of a descriptor (R149). -/
def stimCountStreams (ptr : Nat) (st : Store) : Nat := rawNat ptr 1 st
def stimCountWords (ptr : Nat) (st : Store) : Nat := rawNat (ptr + 1) 2 st
def stimEntry (ptr i : Nat) (st : Store) : DWord := BitVec.ofNat 32 (rawNat (ptr + 8 + 4 * i) 4 st)
def ceilDiv (a b : Nat) : Nat := (a + b - 1) / b
def stimRecordLen (nstim count : Nat) : Nat := 8 + 8 * ceilDiv nstim 2 + 8 * ceilDiv (nstim * count) 4
/-- The byte address of word `k` of stream `i`. -/
def stimWordAddr (ptr nstim k i : Nat) : Nat := ptr + 8 + 8 * ceilDiv nstim 2 + 2 * (k * nstim + i)

/-- The unload map's streams and rows (R161). -/
def mapStreams (ptr : Nat) (st : Store) : Nat := rawNat ptr 1 st
def mapRows (ptr : Nat) (st : Store) : Nat := rawNat (ptr + 1) 2 st

/-- The X-mask record's entry count (R165). -/
def xmaskCount (ptr : Nat) (st : Store) : Nat := rawNat (ptr + 2) 2 st

/-! ### Descriptors (R141 to R145) -/

/-- The fields of a 256-bit descriptor (R141). -/
def descriptorOf (d : Block) : Descriptor where
  batch := d.extractLsb' 224 32
  firstPattern := d.extractLsb' 192 32
  patterns := fld d 191 187
  capture := fld d 186 183
  clearPrev := d.getLsbD 182
  xmaskEn := d.getLsbD 181
  last := d.getLsbD 180
  cmpOff := d.getLsbD 179
  shiftLen := fld d 175 160
  shiftDiv := fld d 159 156
  capGap := fld d 155 144
  passes := fld d 143 132
  cyclePeriod := fld d 127 112
  stimPtr := fld d 111 88
  stimLen := fld d 87 64
  xmaskPtr := fld d 63 40
  unloadPtr := fld d 39 16

/-- A record that R144 does not allow: not on 8 bytes, beyond 16 MiB, or touching the configuration-shadow range. -/
def rangeBad (ptr len : Nat) : Bool := decide (ptr % 8 ≠ 0) || decide (csSize < ptr + len) || touchesShadow ptr len

/-- The SDIV divisor of CLK_CONTROL (R530). -/
def sdivOf (clk : Word) : Nat := match fld clk 7 6 with | 0 => 1 | 1 => 2 | _ => 4

/-- FCLK in MHz, and SCLK in MHz times its divisor (R529). -/
def fclkMHz (clk : Word) : Nat := if clk.getLsbD 15 then 500 else 1000
def sclkMHzTimesDiv (clk : Word) : Nat := 100 * fld clk 13 8

/-- The minimum CYCLE_PERIOD (R171). DEDUCED (log entry 99). -/
def minCyclePeriod (rows : Nat) (s : State) : Nat :=
  let clk := s.power.clkInForce
  ceilDiv ((schedLength s + 16) * fclkMHz clk * sdivOf clk) (sclkMHzTimesDiv clk) + rows + 3

/-- Two ARRAY streams name one stimulus port (R144). -/
def portClash (ptr n : Nat) (st : Store) : Bool :=
  let keys := ((List.range n).map (fun i => stimEntry ptr i st)).filter (fun e => e.getLsbD 30)
  decide ((keys.map (fun e => fld e 10 0)).eraseDups.length ≠ keys.length)

/-- The conditions of R144 for a descriptor with PATTERNS above 0, in a mode: 1 capture, 2 cycle, 3 memory. -/
def malformedFields (d : Descriptor) (mode : Nat) (s : State) : Bool :=
  let st := s.store
  let nstim := stimCountStreams d.stimPtr st
  let count := stimCountWords d.stimPtr st
  let usesMap := mode ≠ 3 || decide (schedLength s ≠ 0)
  let rows := mapRows d.unloadPtr st
  let mapBad := decide (d.unloadPtr % 8 ≠ 0) || !s.loader.umapStarts.contains d.unloadPtr
  decide (16 < d.patterns) || (threeValued s && decide (8 < d.patterns))
    || rangeBad d.stimPtr d.stimLen || decide (nstim = 0) || decide (64 < nstim)
    || decide (d.stimLen ≠ stimRecordLen nstim count)
    || (d.xmaskEn && rangeBad d.xmaskPtr (8 + 8 * xmaskCount d.xmaskPtr st))
    || (usesMap && (mapBad || rangeBad d.unloadPtr (8 + 4 * mapStreams d.unloadPtr st * rows)))
    || portClash d.stimPtr nstim st
    || (if mode = 1 then decide (d.capture = 0) || decide (8 < d.capture) || decide (d.shiftLen = 0)
          || decide (d.shiftDiv = 0) || decide (d.shiftLen < rows) || decide (count ≠ d.shiftLen)
        else decide (d.passes = 0) || decide (count ≠ d.patterns * d.passes)
          || (usesMap && decide (d.cyclePeriod < minCyclePeriod rows s)))

/-- A field-side unit's core runs its firmware. -/
def coreRuns (c : CoreState) : Bool := !c.halted && !c.atReset && !c.restarting

/-- Both Docents run. -/
def docentsRun (s : State) : Bool := coreRuns s.cores.docentA && coreRuns s.cores.docentB

/-- The Docents may take a descriptor: RUN = 1, a mode is selected, the ring holds an entry, no bad descriptor stops them, no
load, checker test, power-down request, detach or lost lockstep stands in the way (R139, R143, R147, R405, R486, R519, R367). -/
def mayFetch (s : State) : Bool :=
  s.regs.batchControl.getLsbD 0 && decide (s.inForce.mode.toNat % 4 ≠ 0) && decide (s.stream.brSize ≠ 0)
    && decide (s.stream.brFetch ≠ s.stream.brProd) && !s.fetchStopped && loaded s && armed s
    && !s.loader.active && !s.regs.scrubControl.getLsbD 15 && decide (3 ≤ fld s.regs.pwrRequest 2 0)
    && docentsRun s && !s.twin.detachDue && !s.barrier.hostSilent
    && !(s.twin.role = .outOfLockstep || s.twin.role = .detached || s.twin.role = .joining || s.twin.role = .negotiating)

/-- The address of batch ring entry `i` (R608). -/
def ringEntryAddr (i : DWord) (s : State) : Nat :=
  s.stream.brBase.toNat + 32 * (i.toNat % 2 ^ s.stream.brSize.toNat)

/-- A descriptor that breaks R142, or whose number cannot be read (R143, R458): the Docents stop fetching. -/
def badDescriptor (s : State) : State := faultEventFree fcBadDescriptor { s with fetchStopped := true }

/-- A fetched descriptor becomes a batch; a malformed one goes straight to its commit with every verdict indeterminate (R144),
a no-op batch has no egress (R145). -/
def takeBatch (d : Descriptor) (bad : Bool) (s : State) : State :=
  let mode := s.inForce.mode.toNat % 4
  let malformed := bad || (decide (d.patterns ≠ 0) && malformedFields d mode s)
  let quiet := malformed || decide (d.patterns = 0)
  let nrows := if quiet then 0 else mapRows d.unloadPtr s.store
  let b : Batch := {
    d := d
    mode := BitVec.ofNat 2 mode
    overlap := s.inForce.mode.getLsbD 2
    ringIndex := s.stream.brFetch
    malformed := malformed
    burstBegun := malformed
    burstDone := malformed
    egressBegun := quiet
    egressDone := quiet
    comparesDone := quiet
    firstEgress := s.power.fclk
    nstream := if quiet then 0 else mapStreams d.unloadPtr s.store
    nrows := nrows }
  let s1 := { s with
    batches := s.batches ++ [b]
    stream := { s.stream with brFetch := s.stream.brFetch + 1 }
    lastBatch := d.batch
    anyBatch := false }
  if malformed then indetAll d.batch 0xA (faultEventFree fcBadDescriptor s1) else s1

/-- The fetch of the next ring entry. -/
def fetchDescriptor (s : State) : State :=
  let a := ringEntryAddr s.stream.brFetch s
  let s1 := csReadEffects a 32 s
  let d := descriptorOf (BitVec.ofNat 256 (rawNat a 32 s.store))
  if csUe a 4 s.store then badDescriptor s1
  else if !s.anyBatch && decide (d.batch ≠ s.lastBatch + 1) then badDescriptor s1
  else takeBatch d (csUe (a + 4) 28 s.store) s1

/-- DESCRIPTOR_FETCH (R142 to R145, R608). -/
def execDescriptorFetch (s : State) : Host.Outcome State Fault Refusal :=
  .next (if mayFetch s then fetchDescriptor s else s)

/-! ### Issue (R21, R22) -/

/-- A link's STATE in LINK_STATUS is up, with or without failed lanes (R285). -/
def linkIsUp (l : FLink) (s : State) : Bool :=
  match l with | .f0 => s.regs.linkStatus.getLsbD 1 | .f1 => s.regs.linkStatus.getLsbD 5

/-- No CONFIG or APPLY of a link waits to be sent or to be applied by its partner (R390). -/
def applied (k : FieldLink) : Bool := k.lanes.all (fun x => x.outMsgs.isEmpty && decide (x.applyLeft = 0))

/-- Every link that the committed Catalogue names is up, and none waits to retrain or to apply an alignment (R21, R264, R390). -/
def linksReady (s : State) : Bool :=
  (!linkNamed .f0 s || (linkIsUp .f0 s && !s.link0.retrainDue)) && (!linkNamed .f1 s || (linkIsUp .f1 s && !s.link1.retrainDue))
    && !s.alignDue && applied s.link0 && applied s.link1

/-- The next batch a Docent has not issued. -/
def nextToIssue (d : Docent) (s : State) : Option Batch :=
  s.batches.find? (fun b => match d with | .a => !b.issuedA | .b => !b.issuedB)

/-- What keeps every Docent from issuing: a codeword awaiting repair (R474), a stopped Conservator or broken shadow (R481,
R485), a PLL relocking (R532), a side not Armed (R21). -/
def issueBlocked (s : State) : Bool :=
  !loaded s || !armed s || s.array.repairHold || s.conservator.stopHold
    || s.twin.detachDue || s.power.relockS || s.power.relockF || s.power.clkDue || !linksReady s || s.survey.measuring

/-- A Mirror in lockstep issues only announced batches (R359). -/
def announcedOk (b : Batch) (s : State) : Bool :=
  decide (s.twin.role ≠ .mirror) || s.twin.announced.any (fun a => a.batch = b.d.batch)

/-- BATCH_ISSUE: one Docent issues the next batch of the common sequence (R22). -/
def issueBatch (d : Docent) (n : DWord) (s : State) : State :=
  modBatch n (fun b => match d with | .a => { b with issuedA := true } | .b => { b with issuedB := true }) s

/-- A Primary in lockstep announces a batch that both Docents have issued (R359, R363): its egress begins no earlier than 1,024
words of F0's egress later, which is more than 1 µs. DEDUCED (log entry 129). -/
def announce (n : DWord) (s : State) : State :=
  match findBatch n s with
  | none => s
  | some b =>
    if s.twin.role = .primary && s.twin.tUp && issued b && !s.twin.announced.any (fun a => a.batch = n) then
      let fr := s.regs.batchControl.getLsbD 1
      let at_ := s.link0.frame * 256 + s.link0.word + 1024
      sendTwin (.announce n (BitVec.ofNat 6 (at_ / 256)) (BitVec.ofNat 8 at_) fr)
        { s with twin := { s.twin with announced := s.twin.announced ++ [⟨n, s.power.fclk + (if s.regs.linkStatus.getLsbD 2 then 2048 else 1024), fr⟩] } }
    else s

/-- A batch that both Docents have issued meets the partners that are lost (R281). -/
def afterIssue (n : DWord) (s : State) : State :=
  match findBatch n s with
  | none => s
  | some b => if issued b then lostAtIssue n s else s

def execBatchIssue (d : Docent) (s : State) : Host.Outcome State Fault Refusal :=
  .next (match nextToIssue d s with
    | none => s
    | some b =>
      let runs := match d with | .a => coreRuns s.cores.docentA | .b => coreRuns s.cores.docentB
      if runs && !issueBlocked s && announcedOk b s then afterIssue b.d.batch (announce b.d.batch (issueBatch d b.d.batch s)) else s)

/-! ### Stimulus (R150, R151, R677) -/

/-- The batch whose array words Docent A writes: the one whose burst runs, else the next whose burst has not begun. -/
def fillBatch (s : State) : Option Batch :=
  match s.array.running with
  | some n => findBatch n s
  | none => s.batches.find? (fun b => b.issuedA && !b.burstBegun)

/-- The ports a batch's ARRAY streams fill: stream index and port key, in Galleries in use (R150, R151). -/
def fillPorts (b : Batch) (s : State) : List (Nat × Nat) :=
  if b.malformed || b.d.patterns = 0 then []
  else
    ((List.range (stimCountStreams b.d.stimPtr s.store)).filterMap (fun i =>
      let e := stimEntry b.d.stimPtr i s.store
      if e.getLsbD 30 && galleryInUse (fld e 10 5) s then some (i, fld e 10 0) else none))

/-- A port that takes a word now: fewer than 64 words held and words of its stream left. -/
def portWants (b : Batch) (p : Nat × Nat) (s : State) : Bool :=
  decide ((tget [] s.array.stim p.2).length < 64) && decide (tget 0 b.stimSent p.1 < stimCountWords b.d.stimPtr s.store)

/-- The next port in round-robin order from `refillAt` that takes a word. DEDUCED (log entry 97). -/
def nextPort (b : Batch) (s : State) : Option (Nat × Nat) :=
  let ps := (fillPorts b s).filter (fun p => portWants b p s)
  match ps.find? (fun p => decide (s.array.refillAt ≤ p.2)) with
  | some p => some p
  | none => ps.head?

/-- Write one word of a stream into its port. -/
def fillOne (b : Batch) (p : Nat × Nat) (s : State) : State :=
  let k := tget 0 b.stimSent p.1
  let a := stimWordAddr b.d.stimPtr (stimCountStreams b.d.stimPtr s.store) k p.1
  let w := BitVec.ofNat 16 (rawNat a 2 s.store)
  let s1 := recordReadEffects b.d.batch a 2 s
  let s2 := modBatch b.d.batch (fun b => { b with stimSent := tset 0 b.stimSent p.1 (k + 1) }) s1
  { s2 with array := { s2.array with
      stim := tset [] s2.array.stim p.2 (tget [] s2.array.stim p.2 ++ [w])
      refillAt := p.2 + 1 } }

/-- Up to `n` words of one SYSCLK cycle. -/
def fillWords : Nat → State → State
  | 0, s => s
  | n + 1, s =>
    match fillBatch s with
    | none => s
    | some b =>
      match nextPort b s with
      | none => s
      | some p => fillWords n (fillOne b p s)

/-- STIM_REFILL: one SYSCLK cycle of Docent A, up to 32 words (R677). -/
def execStimRefill (s : State) : Host.Outcome State Fault Refusal :=
  .next (if coreRuns s.cores.docentA then fillWords 32 s else s)

/-- Every port of a batch holds 64 words or all of its stream's words, whichever is fewer (R150). -/
def portsFilled (b : Batch) (s : State) : Bool := (fillPorts b s).all (fun p => !portWants b p s)

/-! ### Bursts and passes (R107, R131, R156, R175) -/

/-- The passes of a batch (R80, R145, R156, R168, R174). -/
def passCount (b : Batch) (s : State) : Nat :=
  if b.malformed || b.d.patterns = 0 || schedLength s = 0 then 0
  else if b.mode = 1#2 then b.d.capture else b.d.patterns * b.d.passes

/-- The batch whose burst is next: the first not begun, once every earlier burst has ended. -/
def nextBurst (s : State) : Option Batch :=
  match s.batches.find? (fun b => !b.burstDone) with
  | some b => if b.burstBegun then none else some b
  | none => none

/-- The bank or half that a batch writes or clears is held for the unload sequencer (R156, R160). DEDUCED (log entry 94). -/
def bankHeld (b : Batch) (s : State) : Bool :=
  let needs := decide (passCount b s ≠ 0) || b.d.clearPrev
  needs && s.array.halves.any (fun h => h.2 = 2 || halfOf b = 2 || h.2 = halfOf b)

/-- The batches before this one. -/
def earlier (b : Batch) (s : State) : List Batch := s.batches.takeWhile (fun x => decide (x.d.batch ≠ b.d.batch))

/-- The batch before this one in the sequence has committed (R175). -/
def previousCommitted (b : Batch) (s : State) : Bool :=
  (earlier b s).all committedBoth

/-- FREEZE_ON_FAIL as it applies to a burst (R176, R363): a Mirror takes the announcement's. -/
def freezeApplies (b : Batch) (s : State) : Bool :=
  match (if s.twin.role = .mirror then s.twin.announced.find? (fun a => a.batch = b.d.batch) else none) with
  | some a => a.freeze
  | none => s.regs.batchControl.getLsbD 1

/-- A batch's passes deliver rows on the expected streams: cycle mode, and memory mode with L above 0 (R170, R174). -/
def deliversRows (b : Batch) (s : State) : Bool := decide (b.mode ≠ 1#2) && decide (passCount b s ≠ 0)

/-- The deliveries of a batch are over and hold the bank no longer (R170). -/
def deliveriesOver (b : Batch) (s : State) : Bool :=
  !deliversRows b s || b.comparesDone ||
    (decide (passCount b s ≤ b.delivered)
      && s.unload.due.all (fun r => decide (r.batch ≠ b.d.batch))
      && s.unload.read.all (fun r => decide (r.1.batch ≠ b.d.batch) || decide (r.1.presentAt + r.1.length ≤ s.power.fclk)))

/-- A no-op batch with CLEAR_PREV = 1 waits for the flush of a pattern that waits to unload (R146). -/
def flushFirst (b : Batch) (s : State) : Bool :=
  decide (b.d.patterns = 0) && b.d.clearPrev && s.egress.waitingUnload.isSome

/-- The conditions of a burst (R156, R175, R176, R372). -/
def burstReady (b : Batch) (s : State) : Bool :=
  issued b && s.array.running.isNone && armed s && portsFilled b s && !bankHeld b s && !flushFirst b s
    && s.array.snapshotBatch.isNone && !s.regs.arrayStatus.getLsbD 15
    && (!freezeApplies b s || previousCommitted b s) && (earlier b s).all (fun x => deliveriesOver x s)
    && !docentHalted s && s.twin.joinBatch.isNone && s.egress.rerunFrom.isNone && s.pendingSet.isNone
    && !s.power.relockS && !s.power.relockF

/-- The X-mask word of a batch (R74, R166). -/
def xmaskWord (b : Batch) (s : State) : Word :=
  if b.d.xmaskEn && decide (b.d.patterns ≠ 0) then BitVec.ofNat 16 (rawNat b.d.xmaskPtr 2 s.store) else 0

/-- A burst begins: the array leaves Armed for Running (R23). -/
def beginBurst (b : Batch) (s : State) : State :=
  let s1 := if b.d.xmaskEn && decide (b.d.patterns ≠ 0) then recordReadEffects b.d.batch b.d.xmaskPtr 2 s else s
  let fr := freezeApplies b s
  let s2 := modBatch b.d.batch (fun b => { b with burstBegun := true, freeze := fr }) s1
  putArrayBit 14 true (reportPower 4 { s2 with
    array := { s2.array with
      running := some b.d.batch
      phase := .idle
      pass := 0
      passes := passCount b s
      step := 0
      xmask := xmaskWord b s }
    power := { s2.power with field := .running } })

/-- BURST_BEGIN (R156). -/
def execBurstBegin (s : State) : Host.Outcome State Fault Refusal :=
  .next (match nextBurst s with
    | none => s
    | some b => if burstReady b s then beginBurst b s else s)

/-- The rows of a half: words 256 P to 256 P + 255 of every BP (R89). -/
def rowInHalf (h row : Nat) : Bool := h = 2 || row % 128 / 64 = h

/-- Clear the previous bank's valid and poison bits, or those of one half (R94, R462). -/
def clearPrev (h : Nat) (a : ArrayState) : ArrayState :=
  { a with
    prevValid := a.prevValid.filter (fun r => !rowInHalf h r)
    prevPoison := a.prevPoison.filter (fun r => !rowInHalf h r) }

/-- The clear step of the running batch (R94, R107, R120, R462). -/
def validClear (b : Batch) (s : State) : State :=
  let a := { s.array with curValid := [], curPoison := [], phase := ArrayPhase.cleared }
  let s1 := { s with array := if b.d.clearPrev then clearPrev (halfOf b) a else a }
  if s.array.passes = 0 then endBurst s1 else sendToken 0 s1

/-- VALID_CLEAR. -/
def execValidClear (s : State) : Host.Outcome State Fault Refusal :=
  .next (match s.array.running.bind (fun n => findBatch n s) with
    | none => s
    | some b => if s.array.phase = .idle then validClear b s else s)

/-- What a cycle-mode pass waits for: the delivery of the pass before, its hold of the bank, and the end of a fabric stop
(R170, R172, R173). -/
def deliveryClear (s : State) : Bool :=
  match s.array.running.bind (fun n => findBatch n s) with
  | none => true
  | some b => decide (b.mode = 1#2) || decide (s.array.pass = 0) ||
      (decide (s.array.pass ≤ b.delivered) && !s.egress.stopped
        && s.unload.due.all (fun r => decide (s.array.pass ≤ r.passIndex))
        && s.unload.read.all (fun r => decide (s.array.pass ≤ r.1.passIndex)
            || decide (r.1.presentAt + r.1.length ≤ s.power.fclk)))

/-- A pass may begin (R105, R119, R131, R170). -/
def passReady (s : State) : Bool :=
  s.array.running.isSome && (decide (s.array.phase = .cleared) || decide (s.array.phase = .tail))
    && decide (s.array.pass < s.array.passes) && tokensReady s && deliveryClear s && !docentHalted s
    && (decide (s.array.pass ≠ 0) || s.array.toPower.isEmpty)

/-- PASS_BEGIN: step 0 is next (R105, R131); a throttle level waiting for the pass boundary takes effect (R395). -/
def execPassBegin (s : State) : Host.Outcome State Fault Refusal :=
  .next (if passReady s then
      let s1 := applyThrottle s
      { s1 with array := { s1.array with
        phase := .inPass
        step := 0
        bus := []
        rx := []
        flight := []
        meshOut := []
        meshWaiting := false } }
    else s)

end Sys2Proof.Machine
end

