-- ==== Sys2Proof/Machine/Egress.lean ====
section
/-! DEFINITION. Egress of a batch, slot words, the unload sequencer, the expected streams, and the stop and resume lines of the
Docents (R148, R153 to R174, R251 to R260). -/

namespace Sys2Proof.Machine

/-- A cycle of two bits of the expected streams with every stream unknown (R163). -/
def esUnknown : QWord := 0xAAAAAAAAAAAAAAAA#64

/-- The batch on egress. -/
def egressBatch (s : State) : Option Batch := s.egress.batch.bind (fun n => findBatch n s)

/-- The emulated cycles of a cycle-mode or memory-mode batch, and the FCLK cycles of each (R168, R174). -/
def emulCycles (b : Batch) : Nat := b.d.patterns * b.d.passes
def emulPeriod (b : Batch) (s : State) : Nat :=
  if schedLength s = 0 then max b.d.cyclePeriod 1 else b.d.cyclePeriod

/-! ### Rows due (R164, R170) -/

/-- The rows of pattern `n` of a capture-mode batch that the load phase beginning now unloads (R164). -/
def captureRows (w : Batch) (n shiftDiv : Nat) (s : State) : List RowDue :=
  (List.range w.nrows).map (fun j =>
    ⟨w.d.batch, n, j, 0, decide (j = 0), s.power.fclk + s.coffset + j * shiftDiv, shiftDiv, false⟩)

/-- The rows of pass `q`, whose emulated cycle begins now (R170). -/
def passRows (b : Batch) (q : Nat) (s : State) : List RowDue :=
  (List.range b.nrows).map (fun r =>
    ⟨b.d.batch, q / max b.d.passes 1, r, q, decide (r = 0), s.power.fclk + s.coffset + r, 1, false⟩)

def addRows (rs : List RowDue) (s : State) : State := { s with unload := { s.unload with due := s.unload.due ++ rs } }

/-! ### Egress phases (R155, R157 to R159, R169, R174) -/

/-- HOLD is in force without progress: a fabric stop, a Docent halt, or a silent host side (R173, R255). DEDUCED (log entry 102). -/
def egressPaused (s : State) : Bool := s.egress.stopped || docentHalted s || s.barrier.hostSilent

/-- The pattern or emulated cycle that begins in this egress cycle: the end of a hold whose condition has cleared (R157), and
the rows that follow the phase that begins. -/
def egressEnter (s : State) : State :=
  match egressBatch s with
  | none => s
  | some b =>
    if s.egress.rerunFrom.isSome then s
    else if s.egress.phase = .hold && !b.egressDone && (decide (s.egress.pattern ≠ 1) || b.burstDone) then
      addRows (captureRows b (s.egress.pattern - 1) b.d.shiftDiv s)
        { s with egress := { s.egress with phase := .load, cycle := 0 } }
    else if s.egress.phase = .emul && s.egress.cycle = 0 && deliversRows b s && s.egress.emulated ≠ 0 then
      addRows (passRows b s.egress.emulated s) s
    else s

/-- The last egress cycle of a batch has been sent. -/
def egressFinish (b : Batch) (s : State) : State :=
  let s1 := modBatch b.d.batch (fun b => { b with egressDone := true, egressEnd := s.power.fclk + 1 }) s
  { s1 with egress := { s1.egress with
      phase := .hold
      cycle := 0
      waitingUnload := if b.mode = 1#2 then some b.d.batch else none } }

/-- The capture gap of the pattern on egress ends. -/
def afterGap (b : Batch) (s : State) : State :=
  if s.egress.pattern + 1 < b.d.patterns then
    { s with egress := { s.egress with phase := .hold, cycle := 0, pattern := s.egress.pattern + 1 } }
  else egressFinish b s

/-- The phase of the next egress cycle. -/
def egressAdvance (s : State) : State :=
  match egressBatch s with
  | none => s
  | some b =>
    match s.egress.phase with
    | .load =>
      if s.egress.cycle + 1 < b.d.shiftLen * b.d.shiftDiv then
        { s with egress := { s.egress with cycle := s.egress.cycle + 1 } }
      else if b.d.capGap = 0 then afterGap b s
      else { s with egress := { s.egress with phase := .gap, cycle := 0 } }
    | .gap =>
      if s.egress.cycle + 1 < b.d.capGap then { s with egress := { s.egress with cycle := s.egress.cycle + 1 } }
      else afterGap b s
    | .emul =>
      if s.egress.cycle + 1 < emulPeriod b s then { s with egress := { s.egress with cycle := s.egress.cycle + 1 } }
      else if s.egress.rerunFrom.isSome && decide ((s.egress.emulated + 1) % max b.d.passes 1 = 0) then
        { s with egress := { s.egress with phase := .hold, cycle := 0 } }
      else if s.egress.emulated + 1 < emulCycles b then
        { s with egress := { s.egress with
            cycle := 0
            emulated := s.egress.emulated + 1
            pattern := (s.egress.emulated + 1) / max b.d.passes 1 } }
      else egressFinish b s
    | .flush =>
      if s.egress.cycle + 1 < b.d.shiftLen * b.d.shiftDiv then
        { s with egress := { s.egress with cycle := s.egress.cycle + 1 } }
      else { s with egress := { s.egress with phase := .idle, cycle := 0, batch := none } }
    | .idle => s
    | .hold => s

/-- While egress pauses, every row that belongs to an egress cycle not yet taken moves one cycle later (R173). -/
def shiftRows (s : State) : State :=
  let mv (r : RowDue) : RowDue :=
    if s.power.fclk + s.coffset ≤ r.presentAt then { r with presentAt := r.presentAt + 1 } else r
  { s with
    egress := { s.egress with shift := s.egress.shift + 1 }
    unload := { s.unload with due := s.unload.due.map mv, read := s.unload.read.map (fun x => (mv x.1, x.2)) } }

/-- The next batch to go on egress. -/
def nextEgress (s : State) : Option Batch := s.batches.find? (fun b => !b.egressBegun && issued b)

/-- The batch whose last pattern waits to unload. -/
def waitingBatch (s : State) : Option Batch := s.egress.waitingUnload.bind (fun n => findBatch n s)

/-- A waiting pattern unloads through this batch's first load phase (R159). -/
def unloadsThrough (w b : Batch) : Bool :=
  decide (b.mode = 1#2) && !w.d.last && decide (w.nrows ≤ b.d.shiftLen)

/-- In lockstep a batch begins no earlier than announced (R359). -/
def startReached (b : Batch) (s : State) : Bool :=
  !inLockstep s || !s.twin.tUp || s.twin.announced.any (fun a => decide (a.batch = b.d.batch) && decide (a.startAt ≤ s.power.fclk))

/-- The batch's first egress cycle may come (R157, R159, R169): no other batch is on egress, the links are up, and in cycle and
memory modes pass 0 has ended. DEDUCED (log entry 103). -/
def egressReady (b : Batch) (s : State) : Bool :=
  (decide (s.egress.phase = .idle) || decide (s.egress.phase = .hold))
    && (match egressBatch s with | none => true | some e => e.egressDone)
    && linksReady s && armed s && !egressPaused s && s.egress.rerunFrom.isNone && startReached b s
    && (match waitingBatch s with | none => true | some w => w.burstDone && unloadsThrough w b)
    && (decide (b.mode = 1#2) || b.burstDone || (decide (s.array.running = some b.d.batch) && decide (1 ≤ s.array.pass)))

/-- A batch goes on egress. -/
def beginEgress (b : Batch) (s : State) : State :=
  let s1 := modBatch b.d.batch (fun b => { b with egressBegun := true, firstEgress := s.power.fclk }) s
  let s2 := { s1 with egress := { s1.egress with
    phase := if b.mode = 1#2 then .load else .emul
    batch := some b.d.batch
    pattern := 0
    cycle := 0
    emulated := 0
    waitingUnload := none
    batchStart := false } }
  if b.mode = 1#2 then
    match waitingBatch s with
    | some w => addRows (captureRows w (w.d.patterns - 1) b.d.shiftDiv s) s2
    | none => s2
  else if deliversRows b s then addRows (passRows b 0 s) s2
  else s2

/-- EGRESS_BEGIN (R157, R159, R169): at the batch boundary before it, what waits for a boundary takes effect. -/
def execEgressBegin (s : State) : Host.Outcome State Fault Refusal :=
  .next (let s0 := settle s
    match nextEgress s0 with
    | none => s0
    | some b => if egressReady b s0 then beginEgress b s0 else s0)

/-- A waiting pattern must be flushed: its batch has LAST = 1, the next batch cannot unload it, or a no-op batch with
CLEAR_PREV = 1 is next (R146, R158, R159). -/
def flushDue (w : Batch) (s : State) : Bool :=
  w.d.last || (match nextBurst s with | some b => flushFirst b s | none => false)
    || (match nextEgress s with | some b => !unloadsThrough w b | none => false)

/-- FLUSH_LOAD: one load phase in which every stimulus stream carries 0 (R158). -/
def execFlushLoad (s : State) : Host.Outcome State Fault Refusal :=
  .next (match waitingBatch s with
    | none => s
    | some w =>
      if s.egress.phase = .hold && w.burstDone && flushDue w s && !egressPaused s && s.egress.rerunFrom.isNone then
        addRows (captureRows w (w.d.patterns - 1) w.d.shiftDiv s)
          { s with egress := { s.egress with
              phase := .flush, cycle := 0, batch := some w.d.batch, waitingUnload := none } }
      else s)

/-! ### Slot words (R153, R251 to R256) -/

/-- The lane of a stimulus word that a channel takes (R153, R268): in capture mode the pattern being loaded, else SITE mod
16. In a three-valued schedule pattern m stands in lane 2m (R167). -/
def stimLane (b : Batch) (e : QWord) (s : State) : Nat :=
  if b.mode = 1#2 then (if threeValued s then 2 * s.egress.pattern else s.egress.pattern) else catSite e % 16

/-- The word index of a stimulus stream in the egress cycle (R153, R155): the last load shift's during the capture gap. -/
def stimIndex (b : Batch) (s : State) : Nat :=
  match s.egress.phase with
  | .load => s.egress.cycle / max b.d.shiftDiv 1
  | .gap => b.d.shiftLen - 1
  | .emul => s.egress.emulated
  | _ => 0

/-- The address of a channel's stimulus word, where the batch's record carries its stream to the pins. -/
def stimAddr (b : Batch) (e : QWord) (s : State) : Option Nat :=
  let n := stimCountStreams b.d.stimPtr s.store
  if catStream e < n && (stimEntry b.d.stimPtr (catStream e) s.store).getLsbD 31 then
    some (stimWordAddr b.d.stimPtr n (stimIndex b s) (catStream e))
  else none

/-- The bit of an entry's stimulus stream (R153, R158). -/
def stimBit (c : Nat) (e : QWord) (s : State) : Bool :=
  match egressBatch s with
  | none => false
  | some b =>
    if s.egress.phase = .flush then false
    else
      match stimAddr b e s with
      | none => Config.freeStimBit c
      | some a => (rawNat a 2 s.store).testBit (stimLane b e s)

/-- The source of an entry (R255). -/
def sourceBit (c : Nat) (e : QWord) (s : State) : Bool :=
  if catStimSrc e then stimBit c e s else tget false s.fabric.egress (catPort e)

/-- HOLD, or no batch on egress (R255). -/
def holdInForce (s : State) : Bool :=
  egressPaused s || decide (s.egress.phase = .idle) || decide (s.egress.phase = .hold)

/-- The channel bit of a valid entry on a lane that is up, or on a lost one, which carries HOLD (R255, R281). -/
def channelBit (lost : Bool) (c : Nat) (e : QWord) (s : State) : Bool :=
  let hold := lost || holdInForce s
  match catRole e with
  | 1 => if hold then tget false s.egress.lastBits c else sourceBit c e s
  | 3 => if hold then tget false s.egress.lastBits c else sourceBit c e s
  | 4 => if hold then false else sourceBit c e s
  | 6 => sourceBit c e s
  | _ => false

/-- The 32 channel bits of a lane (R251, R255). -/
def laneBits (l : FLink) (i : Nat) (lost : Bool) (s : State) : DWord :=
  ((validEntries s.inForce.catalogue).filter (fun e => catLink e.2 = l && catLane e.2 = i)).foldl
    (fun w e => setBit w (catSlot e.2) (channelBit lost e.1 e.2 s)) 0

/-- The XOR of the odd and of the even channel bits (R252). -/
def oddParity (ch : DWord) : Bool := parity 32 (ch.toNat &&& 0xAAAAAAAA)
def evenParity (ch : DWord) : Bool := parity 32 (ch.toNat &&& 0x55555555)

/-- A slot word from its channel bits and side bit (R252). -/
def slotWord (ch : DWord) (side : Bool) : BitVec 34 :=
  BitVec.ofNat 34 ((oddParity ch != side).toNat * 2 ^ 33 + (evenParity ch != side).toNat * 2 ^ 32 + ch.toNat)

/-- A DISABLED word (R254). -/
def disabledWord : BitVec 34 := 0x200000000#34

/-- A side-channel quarter (R258). -/
def quarterOf (quarter frame mtype part mdata : Nat) : QWord :=
  let body := ((((0xD2 * 4 + quarter) * 64 + frame) * 16 + mtype) * 4 + part) * 2 ^ 34 + mdata * 4
  BitVec.ofNat 64 (body * 256 + crc8 (bitsMsb 56 body))

/-- The quarter that begins with this word on a lane, and the messages left: quarter 0 carries FRAME_CRC, a new Primary's
quarter 1 SWITCHOVER (R370), the others the lane's next message, or NONE (R259). -/
def nextQuarter (x : Lane) (link : FieldLink) (s : State) : QWord × List (Nat × DWord) :=
  let q := link.word / 64
  if q = 0 then
    (quarterOf 0 link.frame 1 0 ((x.egPrevCrc.getD Config.firstFrameCrc).toNat * 65536), x.outMsgs)
  else if q = 1 && s.twin.switchoverFrames ≠ 0 then (quarterOf 1 link.frame 7 0 s.twin.epoch.toNat, x.outMsgs)
  else
    match x.outMsgs with
    | [] => (quarterOf q link.frame 0 0 0, [])
    | m :: rest => (quarterOf q link.frame m.1 0 m.2.toNat, rest)

/-- A lane after it has sent one word: the quarter, the frame CRC (R257, R260). -/
def laneSent (l : FLink) (i : Nat) (s : State) (x : Lane) : Lane × BitVec 34 :=
  let link := flink l s
  let lost := decide (x.state = .lost)
  let nq := if link.word % 64 = 0 then nextQuarter x link s else (x.egQuarter, x.outMsgs)
  let side := nq.1.getLsbD (63 - link.word % 64)
  let ch := laneBits l i lost s
  let crc0 := if link.word = 0 then 0xFFFF else x.egCrc
  let crc := crcMsb 16 0x1021 crc0 (side :: bitsMsb 32 ch.toNat)
  let apply := decide (link.word % 64 = 0) && decide (fld nq.1 47 44 = 6)
  ({ x with
      applyLeft := if apply then 2 else if link.word = 255 then x.applyLeft - 1 else x.applyLeft
      applyFrame := if apply then some ((link.frame + 2) % 64) else x.applyFrame
      egQuarter := nq.1
      outMsgs := nq.2
      egCrc := crc
      egPrevCrc := if link.word = 255 then some (BitVec.ofNat 16 crc) else x.egPrevCrc }, slotWord ch side)

/-- The lanes that carry words: trained ones and lost ones (R255, R281). -/
def laneCarries (x : Lane) : Bool := x.state = .up || x.state = .lost

/-- A link runs at half rate (R249, R285). -/
def halfRate (l : FLink) (s : State) : Bool :=
  match l with | .f0 => s.regs.linkStatus.getLsbD 2 | .f1 => s.regs.linkStatus.getLsbD 6

/-- One link takes its egress words (R249, R255): at half rate only in the first cycle of each pair. -/
def takeLink (l : FLink) (s : State) : State :=
  let link := flink l s
  if !linkIsUp l s then s
  else if halfRate l s && link.secondOfPair then setFlink l { link with secondOfPair := false } s
  else
    let out := (List.range 32).map (fun i =>
      let x := lget {} link.lanes i
      if laneCarries x then (laneSent l i s x) else (x, disabledWord))
    let words := (List.range 32).filterMap (fun i =>
      if laneCarries (lget {} link.lanes i) then some (linkNum l, i, (lget ({}, disabledWord) out i).2) else none)
    let drives := (validEntries s.inForce.catalogue).filter (fun e =>
      catLink e.2 = l && laneCarries (lane l (catLane e.2) s) && (catRole e.2 = 1 || catRole e.2 = 3))
    let last := drives.foldl (fun t e =>
      tset false t e.1 (channelBit (decide ((lane l (catLane e.2) s).state = .lost)) e.1 e.2 s)) s.egress.lastBits
    let wrap := decide (link.word = 255)
    let s1 := setFlink l { link with
      lanes := out.map (·.1)
      word := if wrap then 0 else link.word + 1
      frame := if wrap then (link.frame + 1) % 64 else link.frame
      egStart := if link.word = 0 then s.power.fclk else link.egStart
      secondOfPair := halfRate l s } s
    { s1 with egress := { s1.egress with lastBits := last, taken := s1.egress.taken ++ words } }

/-- The stimulus bytes read for the stream-driven channels: an uncorrectable one makes the batch indeterminate (R458). -/
def stimReads (s : State) : State :=
  match egressBatch s with
  | none => s
  | some b =>
    if holdInForce s || s.egress.phase = .flush then s
    else
      ((validEntries s.inForce.catalogue).filter (fun e => catStimSrc e.2 && roleEgress (catRole e.2))).foldl
        (fun s e => match stimAddr b e.2 s with
          | some a => recordReadEffects b.d.batch a 2 s
          | none => s) s

/-- A frame boundary of F0 has passed: one SWITCHOVER frame fewer (R370). -/
def countSwitchover (before s : State) : State :=
  if before.twin.switchoverFrames ≠ 0 && before.link0.word = 255 && s.link0.word = 0 then
    { s with twin := { s.twin with switchoverFrames := before.twin.switchoverFrames - 1 } }
  else s

/-- A Mirror that has not fetched an announced batch in time leaves lockstep (R359). -/
def mirrorLate (s : State) : State :=
  if s.twin.role = .mirror && s.twin.announced.any (fun a => decide (a.startAt ≤ s.power.fclk) && (findBatch a.batch s).isNone)
  then leaveLockstep 5 s else s

/-- EGRESS_WORD: one egress cycle of both links (R154, R255). -/
def execEgressWord (s : State) : Host.Outcome State Fault Refusal :=
  .next (
    let s1 := if egressPaused s then s else egressEnter s
    let s2 := stimReads { s1 with egress := { s1.egress with taken := [] } }
    let s3 := countSwitchover s2 (takeLink .f1 (takeLink .f0 s2))
    mirrorLate (if egressPaused s then shiftRows s3 else egressAdvance s3))

/-! ### The unload sequencer (R161 to R167, R458) -/

/-- Entry `k` of row `r` of an unload map (R161). -/
def mapEntryAddr (b : Batch) (r k : Nat) : Nat := b.d.unloadPtr + 8 + 4 * (r * b.nstream + k)
def mapEntry (b : Batch) (r k : Nat) (st : Store) : DWord := BitVec.ofNat 32 (rawNat (mapEntryAddr b r k) 4 st)
def entryBpn (e : DWord) : Nat := bpNum (fld e 22 17) (fld e 16 9)

/-- The physical previous-bank word of a batch (R89). -/
def prevWordOf (b : Batch) (w : Nat) : Nat := if b.overlap then (w + 256 * (b.d.batch.toNat % 2)) % 512 else w

/-- The lane an entry names: FIXED_LANE, or in capture mode the pattern (R161). -/
def entryLane (r : RowDue) (e : DWord) : Nat := if e.getLsbD 30 then fld e 29 26 else r.pattern

/-- The lane is masked by an X-mask entry for the stream and row (R165 to R167). -/
def xmasked (b : Batch) (stream row ln : Nat) (s : State) : Bool :=
  b.d.xmaskEn && (List.range (xmaskCount b.d.xmaskPtr s.store)).any (fun i =>
    let a := b.d.xmaskPtr + 8 + 8 * i
    let e : QWord := BitVec.ofNat 64 (rawNat a 8 s.store)
    let lanes := fld e 63 48
    let hit := if threeValued s then lanes.testBit (2 * ln) || lanes.testBit (2 * ln + 1) else lanes.testBit ln
    hit && (decide (fld e 47 42 = stream) || decide (fld e 47 42 = 63))
      && decide (fld e 31 16 ≤ row) && decide (row < fld e 31 16 + fld e 15 0))

/-- The state row that an entry's word stands in is unreadable: uncorrectable, or already poisoned (R458, R459).
DEDUCED (log entry 98). -/
def entryUnreadable (b : Batch) (e : DWord) (s : State) : Bool :=
  let row := rowKey (entryBpn e) (prevWordOf b (fld e 8 0))
  s.array.prevValid.contains row &&
    (s.array.prevPoison.contains row || decide ((rowDecode true row s).1 = .uncorrectable))

/-- The value and unknown bits of a stream in a row (R163, R167): unknown, value. -/
def streamBits (b : Batch) (r : RowDue) (k : Nat) (s : State) : Bool × Bool :=
  let e := mapEntry b r.row k s.store
  let ln := entryLane r e
  let dead := !e.getLsbD 31 || (!e.getLsbD 30 && decide (b.mode ≠ 1#2)) || b.d.cmpOff || b.umapUnknown
    || xmasked b k r.row ln s || entryUnreadable b e s
  if dead then (true, false)
  else
    let w := stateValue true (entryBpn e) (prevWordOf b (fld e 8 0)) s
    if threeValued s then (if w.getLsbD (2 * ln + 1) then (true, false) else (false, w.getLsbD (2 * ln)))
    else (false, w.getLsbD ln)

/-- The expected-stream value of a row (R163). -/
def rowEs (b : Batch) (r : RowDue) (s : State) : QWord :=
  (List.range 32).foldl (fun es k =>
    if k < b.nstream then
      let v := streamBits b r k s
      setBit (setBit es (2 * k + 1) v.1) (2 * k) v.2
    else es) esUnknown

/-- What reading a row does besides (R458): the map's bytes, then each named word's state row. -/
def rowReadEffects (b : Batch) (r : RowDue) (s : State) : State :=
  let s1 := (List.range b.nstream).foldl (fun s k =>
    let a := mapEntryAddr b r.row k
    let s' := recordReadEffects b.d.batch a 4 s
    if csUe a 4 s.store then modBatch b.d.batch (fun x => { x with umapUnknown := true }) s' else s') s
  (List.range b.nstream).foldl (fun s k =>
    let e := mapEntry b r.row k s.store
    if !e.getLsbD 31 then s
    else
      let w := prevWordOf b (fld e 8 0)
      let row := rowKey (entryBpn e) w
      if !s.array.prevValid.contains row then s
      else if s.array.prevPoison.contains row then indetAll b.d.batch 6 s
      else
        match (rowDecode true row s).1 with
        | .clean => s
        | .uncorrectable => indetAll b.d.batch 6 (rowUncorrectable true row s)
        | c => countError stPrev (classCode c) (rowLocation row) 0 s) s1

/-- Pass `q` of a batch has ended. -/
def passEnded (b : Batch) (q : Nat) (s : State) : Bool :=
  b.burstDone || (decide (s.array.running = some b.d.batch) && decide (q < s.array.pass))

/-- Read the first due row: a cycle-mode pass that has not ended leaves it unread (R172). -/
def readRow (r : RowDue) (rest : List RowDue) (b : Batch) (s : State) : State :=
  if decide (b.mode ≠ 1#2) && !passEnded b r.passIndex s then
    { s with unload := { s.unload with due := rest, read := s.unload.read ++ [({ r with late := true }, esUnknown)] } }
  else
    let s1 := rowReadEffects b r s
    let b1 := (findBatch b.d.batch s1).getD b
    { s1 with unload := { s1.unload with due := rest, read := s1.unload.read ++ [(r, rowEs b1 r s)] } }

/-- ROW_READ: the next row, from 3 cycles before it is presented (R164, R170). -/
def execRowRead (s : State) : Host.Outcome State Fault Refusal :=
  .next (match s.unload.due with
    | [] => s
    | r :: rest =>
      match findBatch r.batch s with
      | none => { s with unload := { s.unload with due := rest } }
      | some b => if r.presentAt ≤ s.power.fclk + 3 then readRow r rest b s else s)

/-- A delivery that comes late: its rows are presented unknown, and the batch is lost (R172). -/
def lateDelivery (b : Batch) (q : Nat) (s : State) : State :=
  let mine (r : RowDue) : Bool := decide (r.batch = b.d.batch) && decide (r.passIndex = q)
  let unread := (s.unload.due.filter mine).map (fun r => ({ r with late := true }, esUnknown))
  let s1 := { s with unload := { s.unload with
    due := s.unload.due.filter (fun r => !mine r)
    read := s.unload.read.map (fun x => if mine x.1 then ({ x.1 with late := true }, esUnknown) else x) ++ unread } }
  indetAll b.d.batch 8 (faultEventFree fcCycleLate s1)

/-- The batch on egress whose next delivery is due: its emulated cycle has begun (R170). -/
def deliveryDue (b : Batch) (s : State) : Bool :=
  deliversRows b s && decide (b.delivered < emulCycles b) && b.egressBegun
    && (b.egressDone || decide (b.delivered ≤ s.egress.emulated))
    && (s.unload.due.all (fun r => !(decide (r.batch = b.d.batch) && decide (r.passIndex = b.delivered) && r.first)
        || decide (r.presentAt ≤ s.power.fclk)))
    && (s.unload.read.all (fun r => !(decide (r.1.batch = b.d.batch) && decide (r.1.passIndex = b.delivered) && r.1.first)
        || decide (r.1.presentAt ≤ s.power.fclk)))

/-- The delivery was missed: a row of it was due to be read before its pass ended (R172). -/
def deliveryLate (b : Batch) (s : State) : Bool :=
  s.unload.read.any (fun r => decide (r.1.batch = b.d.batch) && decide (r.1.passIndex = b.delivered) && r.1.late)
    || !passEnded b b.delivered s

/-- DELIVERY (R170, R172). -/
def deliver (b : Batch) (s : State) : State :=
  let s1 := if deliveryLate b s then lateDelivery b b.delivered s else s
  modBatch b.d.batch (fun b => { b with delivered := b.delivered + 1 }) s1

def execDelivery (s : State) : Host.Outcome State Fault Refusal :=
  .next (match s.batches.find? (fun b => deliveryDue b s) with
    | none => s
    | some b => deliver b s)

/-- The row presented in the cycle. -/
def presented (s : State) : Option (RowDue × QWord) :=
  s.unload.read.find? (fun x => decide (x.1.presentAt ≤ s.power.fclk) && decide (s.power.fclk < x.1.presentAt + x.1.length))

/-- The expected-stream port in the cycle (R148, R163): the row presented, or every stream unknown. -/
def presentRows (s : State) : State :=
  let keep := s.unload.read.filter (fun x => decide (s.power.fclk < x.1.presentAt + x.1.length))
  match presented s with
  | some x => { s with unload := { s.unload with
      read := keep
      es := x.2
      esFirst := x.1.first && decide (x.1.presentAt = s.power.fclk)
      current := some (x.1.batch, x.1.pattern, if (findBatch x.1.batch s).any (fun b => decide (b.mode = 1#2))
        then x.1.row else x.1.passIndex)
      digestEs := s.unload.digestEs ++ [(x.1.batch, x.2)] } }
  | none => { s with unload := { s.unload with read := keep, es := esUnknown, esFirst := false } }

/-! ### The end of a batch's compares (R160) -/

/-- No row of the batch is still to be presented. -/
def rowsOver (b : Batch) (s : State) : Bool :=
  s.unload.due.all (fun r => decide (r.batch ≠ b.d.batch))
    && s.unload.read.all (fun x => decide (x.1.batch ≠ b.d.batch) || decide (x.1.presentAt + x.1.length ≤ s.power.fclk))

/-- The last compare cycle of a batch has ended (R160): in capture mode its last pattern has been unloaded; in the other modes
the response to its last egress cycle has been compared, C cycles after it. DEDUCED (log entry 93). -/
def comparesOver (b : Batch) (s : State) : Bool :=
  b.egressDone && rowsOver b s &&
    (if b.mode = 1#2 then decide (s.egress.waitingUnload ≠ some b.d.batch) && b.burstDone
     else decide (b.egressEnd + s.coffset ≤ s.power.fclk) && deliveriesOver b s && b.burstDone)

/-- BANK_RELEASE: the first batch whose last compare cycle has ended releases its bank or half (R160). -/
def execBankRelease (s : State) : Host.Outcome State Fault Refusal :=
  .next (match s.batches.find? (fun b => !b.comparesDone && comparesOver b s) with
    | none => s
    | some b =>
      let s1 := modBatch b.d.batch (fun b => { b with comparesDone := true, compareEnd := s.power.fclk }) s
      { s1 with array := { s1.array with halves := s1.array.halves.filter (fun h => decide (h.1 ≠ b.d.batch)) } })

/-! ### Stop and resume (R173, R205) -/

/-- A stop asserted by a Docent's line. -/
def docentStop (d : Docent) (s : State) : State :=
  match d with
  | .a => { s with egress := { s.egress with stopped := true, stopA := true, resumedA := false } }
  | .b => { s with egress := { s.egress with stopped := true, stopB := true, resumedB := false } }

/-- DOCENT_STOP: the Docent's stop line is asserted in the cycle (R173). -/
def execDocentStop (d : Docent) (s : State) : Host.Outcome State Fault Refusal :=
  .next (
    let line := match d with | .a => s.fabric.stopA | .b => s.fabric.stopB
    if line then docentStop d s else s)

/-- A resume line of a Docent is asserted. -/
def noteResume (a b : Bool) (s : State) : State :=
  { s with egress := { s.egress with resumedA := s.egress.resumedA || (a && s.egress.stopA)
                                     resumedB := s.egress.resumedB || (b && s.egress.stopB) } }

/-- Every stopped Docent has been resumed. -/
def allResumed (s : State) : Bool :=
  (!s.egress.stopA || s.egress.resumedA) && (!s.egress.stopB || s.egress.resumedB)

/-- Egress continues once every stopped Docent has been resumed (R173). -/
def endStop (s : State) : State :=
  if s.egress.stopped && allResumed s then
    { s with egress := { s.egress with
        stopped := false, stopA := false, stopB := false, resumedA := false, resumedB := false } }
  else s

/-- DOCENT_RESUME (R173). -/
def execDocentResume (s : State) : Host.Outcome State Fault Refusal :=
  .next (endStop (noteResume s.fabric.resumeA s.fabric.resumeB s))

end Sys2Proof.Machine
end

