-- ==== Sys2Proof/Machine/Fabric.lean ====
section
/-! DEFINITION. One FCLK cycle of the macrocell fabric: configuration fields, block inputs, product terms, macrocells, routing,
clock trees and reset nets, ports, block memories, and contention on Avenues (R180 to R207, R217, R221 to R238). -/

namespace Sys2Proof.Machine

/-! ### Configuration fields (R239) -/

/-- Frame `f` of block `b`. -/
def cfgFrame (b f : Nat) (s : State) : CfgFrame := tget 0 s.fabric.frames (48 * b + f)

/-- The field of `w` bits whose first bit is `off` places below bit 1023. -/
def cfgField (fr : CfgFrame) (off w : Nat) : Nat := (fr.toNat >>> (1024 - off - w)) % 2 ^ w

/-- INSEL_k, MEM_MODE and MEM_CLK of a block. -/
def inselOf (b k : Nat) (s : State) : Nat := cfgField (cfgFrame b 20 s) (9 * k) 9
def memMode (b : Nat) (s : State) : Bool := decide (cfgField (cfgFrame b 20 s) 576 1 = 1)
def memClk (b : Nat) (s : State) : Nat := cfgField (cfgFrame b 20 s) 577 2

/-- The fields of a macrocell (R189). -/
structure McConfig where
  sumEn : Nat
  lend : Bool
  borrowBase : Nat
  borrowN : Nat
  xorSel : Nat
  regMode : Nat
  clkSel : Nat
  ceSel : Bool
  rstSel : Nat
  setSel : Nat
  init : Bool
  deriving DecidableEq, Repr

/-- Macrocell `m` of a block, from its frame 21. -/
def mcConfig (fr : CfgFrame) (m : Nat) : McConfig where
  sumEn := cfgField fr (26 * m) 5
  lend := decide (cfgField fr (26 * m + 5) 1 = 1)
  borrowBase := cfgField fr (26 * m + 6) 5
  borrowN := cfgField fr (26 * m + 11) 2
  xorSel := cfgField fr (26 * m + 13) 2
  regMode := cfgField fr (26 * m + 15) 2
  clkSel := cfgField fr (26 * m + 17) 3
  ceSel := decide (cfgField fr (26 * m + 20) 1 = 1)
  rstSel := cfgField fr (26 * m + 21) 2
  setSel := cfgField fr (26 * m + 23) 2
  init := decide (cfgField fr (26 * m + 25) 1 = 1)

/-- The INIT bits of a block. -/
def initWord (b : Nat) (s : State) : DWord :=
  let fr := cfgFrame b 21 s
  BitVec.ofNat 32 (ofBits ((List.range 32).map (fun i => (mcConfig fr (31 - i)).init)))

/-- The Square's wire source OSEL_o, and its Avenue driver enable and source: index 0 to 31 for the row, 32 to 63 for the
column. -/
def oselOf (b o : Nat) (s : State) : Nat := cfgField (cfgFrame b 23 s) (8 * o) 8
def aenOf (b k : Nat) (s : State) : Bool := decide (cfgField (cfgFrame b 24 s) (9 * k) 1 = 1)
def asrcOf (b k : Nat) (s : State) : Nat := cfgField (cfgFrame b 24 s) (9 * k + 1) 8

/-- The block a Vault is attached to (R208), and the Vault of a block. -/
def vaultBlock (v : Nat) : Nat := if v < 16 then v else 96 + v
def blockVault (b : Nat) : Option Nat := if b < 16 then some b else if 112 ≤ b then some (b - 96) else none

/-- Vault fields (R210, R239). -/
def vaultFrame (v : Nat) (s : State) : CfgFrame := cfgFrame (vaultBlock v) 25 s
def vaultMode (v : Nat) (s : State) : Nat := cfgField (vaultFrame v s) 369 2
def vaultClk (v : Nat) (s : State) : Nat := cfgField (vaultFrame v s) 371 2
def vaultRst (v : Nat) (s : State) : Nat := cfgField (vaultFrame v s) 373 2
def vaultAe (v : Nat) (s : State) : Nat := cfgField (vaultFrame v s) 375 11
def vaultAf (v : Nat) (s : State) : Nat := cfgField (vaultFrame v s) 386 11
def queueMode (m : Nat) : Bool := m = 2 || m = 3

/-- Clock tree `k` (1 to 3): CSRC, DIV, PHASE and its source macrocell (R231). -/
def ctField (k off w : Nat) (s : State) : Nat := cfgField (cfgFrame 0 26 s) (30 * (k - 1) + off) w
def ctSource (k : Nat) (s : State) : Nat × Nat := (ctField k 18 7 s, ctField k 25 5 s)

/-- Global reset net 0 (GRN_A) or 1 (GRN_B): RSRC, its source macrocell and USIG (R233). -/
def grnField (g off w : Nat) (s : State) : Nat := cfgField (cfgFrame 0 26 s) (90 + 18 * g + off) w
def grnSource (g : Nat) (s : State) : Nat × Nat := (grnField g 2 7 s, grnField g 9 5 s)

/-! ### Routing (R221 to R225) -/

def wireBit (b o : Nat) (s : State) : Bool := (lget 0 s.fabric.wires b).getLsbD o

/-- Track `t` as block `b` reads it (R221); a track that does not exist reads 0. -/
def trackBit (b t : Nat) (s : State) : Bool :=
  let j := t % 16
  if t < 16 then decide (16 ≤ b) && wireBit (b - 16) (32 + j) s
  else if t < 32 then decide (b % 16 ≠ 15) && wireBit (b + 1) (48 + j) s
  else if t < 48 then decide (b + 16 < 128) && wireBit (b + 16) j s
  else if t < 64 then decide (b % 16 ≠ 0) && wireBit (b - 1) (16 + j) s
  else if t < 80 then decide (64 ≤ b) && wireBit (b - 64) (96 + j) s
  else if t < 96 then decide (b % 16 + 4 < 16) && wireBit (b + 4) (112 + j) s
  else if t < 112 then decide (b + 64 < 128) && wireBit (b + 64) (64 + j) s
  else if t < 128 then decide (4 ≤ b % 16) && wireBit (b - 4) (80 + j) s
  else if t < 160 then s.fabric.avenueRx.getLsbD (32 * (b / 16) + (t - 128))
  else if t < 192 then s.fabric.avenueRx.getLsbD (256 + 32 * (b % 16) + (t - 160))
  else false

/-- The blocks whose Squares stand on an Avenue, with their driver index (R223). -/
def avenueSquares (a : Nat) : List (Nat × Nat) :=
  if a < 256 then (List.range 16).map (fun c => (16 * (a / 32) + c, a % 32))
  else (List.range 8).map (fun r => (16 * r + (a - 256) / 32, 32 + (a - 256) % 32))

/-- The Squares that enable an Avenue. -/
def avenueDrivers (a : Nat) (s : State) : List (Nat × Nat) := (avenueSquares a).filter (fun x => aenOf x.1 x.2 s)

/-- The value on an Avenue in the cycle (R224, R225, R235): its one enabled driver's register, else 0. -/
def avenueValue (a : Nat) (s : State) : Bool :=
  match avenueDrivers a s with
  | [x] => (lget 0 s.fabric.avenueDrv x.1).getLsbD x.2
  | _ => false

/-! ### Vault flags (R210, R212, R215, R217) -/

/-- A Vault's eight flags, EMPTY first. -/
def vaultFlags (v : Nat) (x : VaultState) (s : State) : List Bool :=
  let m := vaultMode v s
  if m = 0 then List.replicate 8 false
  else if m = 1 then [false, false, false, false, false, false, x.ce, x.ue]
  else [decide (x.count = 0), decide (x.count ≤ vaultAe v s), decide (2048 ≤ x.count + vaultAf v s), decide (x.count = 2048),
    x.ovf, x.udf, x.ce, x.ue]

/-- COUNT as the Vault reports it. -/
def vaultCount (v : Nat) (x : VaultState) (s : State) : Nat := if queueMode (vaultMode v s) then x.count else 0

/-- Read data as the Vault presents it. -/
def vaultData (v : Nat) (x : VaultState) (s : State) : Word :=
  if vaultMode v s = 0 || !s.released.writeEnables then 0 else x.rdata

/-! ### Block inputs (R181) -/

/-- A channel port's ingress bit and qualifier: 0 where no valid entry names the port (R198). -/
def ingressBit (p : Nat) (s : State) : Bool := (portEntry p s).isSome && tget false s.fabric.ingress p
def ingressQual (p : Nat) (s : State) : Bool := (portEntry p s).isSome && tget false s.fabric.qualifier p

/-- The stored bits at the start of the cycle: held at INIT until the resets stage (R217). -/
def storedAt (b : Nat) (s : State) : DWord := if s.released.resets then lget 0 s.fabric.stored b else initWord b s

/-- The source an INSEL encoding names in a block. -/
def inputBit (b sel : Nat) (s : State) : Bool :=
  if sel < 0x20 then (storedAt b s).getLsbD sel
  else if sel < 0x30 then ingressBit (16 * b + (sel - 0x20)) s
  else if sel < 0x40 then ingressQual (16 * b + (sel - 0x30)) s
  else if sel < 0x80 then s.unload.es.getLsbD (sel - 0x40)
  else if sel = 0x80 then s.unload.esFirst
  else if sel = 0x82 || sel = 0x83 then decide (b % 16 = 0) && s.fabric.userIn.getLsbD (2 * (b / 16) + sel % 2)
  else if 0x90 ≤ sel && sel < 0xB4 then
    match blockVault b with
    | none => false
    | some v =>
      let x := lget {} s.fabric.vaults v
      if sel < 0xA0 then (vaultData v x s).getLsbD (sel - 0x90)
      else if sel < 0xA8 then lget false (vaultFlags v x s) (sel - 0xA0)
      else (vaultCount v x s).testBit (sel - 0xA8)
  else if 0x100 ≤ sel then trackBit b (sel - 0x100) s
  else false

/-- The 64 inputs of a block. -/
def blockInputs (b : Nat) (s : State) : QWord :=
  (List.range 64).foldl (fun (w : QWord) k => if inputBit b (inselOf b k s) s then w ||| BitVec.twoPow 64 k else w) 0

/-! ### Product terms (R182) -/

/-- The 128 literals in the packing order of a term: each input's true form, then its complement, input 0 first. -/
def literals (inp : QWord) : Nat := ofBits ((List.range 64).flatMap (fun k => [inp.getLsbD k, !inp.getLsbD k]))

/-- A term of these literal enables: the AND of the enabled literals, 0 with none. -/
def termOf (enables lits : Nat) : Bool := decide (enables ≠ 0) && decide (enables &&& lits = enables)

/-- Product term `j` of a block; terms 0 to 79 of a memory-mode block take no part in logic (R195). -/
def blockTerm (b j lits : Nat) (s : State) : Bool :=
  !(memMode b s && decide (j < 80)) && termOf (cfgField (cfgFrame b (j / 8) s) (128 * (j % 8)) 128) lits

/-! ### Macrocells (R183 to R195) -/

/-- The home terms that a macrocell uses for their alternative use, and so not in its sum (R183, R186). -/
def altUse (c : McConfig) (j : Nat) : Bool :=
  match j with
  | 0 => c.xorSel = 2
  | 1 => c.clkSel = 4
  | 2 => c.rstSel = 3
  | 3 => c.setSel = 3
  | _ => c.ceSel

/-- The sum term (R184): own home terms, none when lent, and every term of the borrowed groups. -/
def sumTerm (c : McConfig) (m : Nat) (term : Nat → Bool) : Bool :=
  (!c.lend && (List.range 5).any (fun j => c.sumEn.testBit j && !altUse c j && term (5 * m + j)))
    || (List.range (5 * c.borrowN)).any (fun i => term (5 * c.borrowBase + i))

/-- The XOR input (R185). -/
def xorInput (c : McConfig) (h0 : Bool) : Bool := c.xorSel = 1 || (c.xorSel = 2 && h0)

/-- A selected reset or preset source (R189). -/
def netSel (sel : Nat) (grnA grnB term : Bool) : Bool :=
  match sel with | 0 => false | 1 => grnA | 2 => grnB | _ => term

/-- The output to routing and the next stored bit (R190, R191). -/
def mcStep (mode : Nat) (st d h1 update r p : Bool) : Bool × Bool :=
  if r then (false, false)
  else if p then (true, true)
  else
    match mode with
    | 0 => (d, st)
    | 1 => (st, if update then d else st)
    | 2 => (st, if update then st != d else st)
    | _ => if h1 then (d, d) else (st, st)

/-- A block evaluated in a cycle: outputs to routing, next stored bits, H1 of every macrocell. -/
structure BlockEval where
  out : DWord
  next : DWord
  h1 : DWord
  deriving DecidableEq, Repr

/-- The word a memory-mode block presents at its read address (R195, R196). -/
def memWord (b a : Nat) (s : State) : Word := BitVec.ofNat 16 (cfgField (cfgFrame b 0 s) (16 * a) 16)
def memReadAddr (inp : QWord) : Nat := fld inp 26 22

/-- One macrocell of a block: its output, next stored bit, and H1. -/
def mcEval (b m : Nat) (fr : CfgFrame) (term : Nat → Bool) (read : Word) (grnA grnB : Bool) (s : State) :
    Bool × Bool × Bool :=
  let c := mcConfig fr m
  let h (j : Nat) : Bool := term (5 * m + j)
  let mem := memMode b s && decide (m < 16)
  let d := (if mem then read.getLsbD m else sumTerm c m term) != xorInput c (h 0)
  let st := (storedAt b s).getLsbD m
  if s.released.resets then
    let prev := (lget 0 s.fabric.edge b).getLsbD m
    let clk := if c.clkSel < 4 then s.fabric.ctEdges.getLsbD c.clkSel else decide (c.clkSel = 4) && h 1 && !prev
    let update := clk && (!c.ceSel || h 4)
    let o := mcStep c.regMode st d (h 1) update (netSel c.rstSel grnA grnB (h 2)) (netSel c.setSel grnA grnB (h 3))
    (o.1, o.2, h 1)
  else ((mcStep c.regMode st d (h 1) false false false).1, st, false)

/-- One block in a cycle (R187). -/
def blockEval (b : Nat) (inp : QWord) (grnA grnB : Bool) (s : State) : BlockEval :=
  let lits := literals inp
  let term (j : Nat) : Bool := decide (j < 160) && blockTerm b j lits s
  let fr := cfgFrame b 21 s
  let read := if memMode b s then memWord b (memReadAddr inp) s else 0
  (List.range 32).foldl (fun (e : BlockEval) m =>
    let v := mcEval b m fr term read grnA grnB s
    { out := setBit e.out m v.1
      next := setBit e.next m v.2.1
      h1 := setBit e.h1 m v.2.2 }) ⟨0, 0, 0⟩

/-- The output to routing of a macrocell named by a source field. -/
def outBit (outs : List DWord) (src : Nat × Nat) : Bool := (lget 0 outs src.1).getLsbD src.2

/-- What an OSEL or ASRC encoding selects in Square `b` (R222). -/
def squareBit (b sel : Nat) (outs : List DWord) (s : State) : Bool :=
  if sel < 0x20 then (lget 0 outs b).getLsbD sel
  else if sel < 0xE0 then trackBit b (sel - 0x20) s
  else false

/-! ### Clock trees and reset nets (R231, R233) -/

/-- CT0 to CT3 have an edge at the end of this cycle. -/
def treeEdges (s : State) : BitVec 4 :=
  let t := s.power.fclk
  let edge (k : Nat) : Bool :=
    s.released.resets &&
      match ctField k 0 2 s with
      | 1 => decide (s.fabric.tR ≤ t)
          && decide ((t - s.fabric.tR) % (ctField k 2 8 s + 1) = ctField k 10 8 s)
      | 2 => lget false s.fabric.sigLast (k - 1)
      | _ => false
  BitVec.ofNat 4 (1 + 2 * (edge 1).toNat + 4 * (edge 2).toNat + 8 * (edge 3).toNat)

/-- The batch that would go on egress in the next cycle (R233): the one cycle before its first. DEDUCED (log entry 91). -/
def startNext (s : State) : Bool :=
  match nextEgress s with
  | none => false
  | some b => !s.egress.batchStart && egressReady b (egressAdvance (egressEnter s))

/-- A global reset net is asserted in this cycle. -/
def grnAsserted (g : Nat) (s : State) : Bool :=
  s.released.resets &&
    match grnField g 0 2 s with
    | 0 => false
    | 1 => lget false s.fabric.sigLast (3 + g)
    | 2 => startNext s
    | _ => s.fabric.userGrn2.getLsbD (grnField g 14 4 s)

/-! ### Vault inputs sampled in the cycle (R209, R211) -/

/-- The number that `n` selects from an offset of the Vault's frame spell, the first the most significant. -/
def vaultBus (v off n : Nat) (s : State) : Nat :=
  ofBits ((List.range n).map (fun i => inputBit (vaultBlock v) (cfgField (vaultFrame v s) (off + 9 * i) 9) s))

/-- The Vault's selected reset acts in this cycle (R215). -/
def vaultResetOn (v : Nat) (grnA grnB : Bool) (s : State) : Bool :=
  match vaultRst v s with | 1 => grnA | 2 => grnB | _ => false

/-- The queue state held at 0. -/
def clearQueue (x : VaultState) : VaultState := { x with count := 0, rptr := 0, wptr := 0, ovf := false, udf := false }

/-- A Vault's state in this cycle: a selected reset, or an unreleased resets stage, holds a queue at 0 (R215, R217). -/
def vaultAt (v : Nat) (grnA grnB : Bool) (s : State) : VaultState :=
  let x := lget {} s.fabric.vaults v
  if queueMode (vaultMode v s) && (vaultResetOn v grnA grnB s || !s.released.resets) then clearQueue x else x

/-- What a Vault samples at the end of this cycle. -/
def vaultSample (v : Nat) (edges : BitVec 4) (grnA grnB : Bool) (s : State) : VaultSample :=
  let m := vaultMode v s
  if m = 0 then {}
  else
    let x := lget {} s.fabric.vaults v
    let raddr := vaultBus v 252 11 s
    let place := if m = 1 then raddr else if m = 2 then x.rptr else (x.wptr + 2047) % 2048
    let key := 2048 * v + place
    { edge := edges.getLsbD (vaultClk v s)
      held := vaultResetOn v grnA grnB s || !s.released.resets
      waddr := vaultBus v 0 11 s
      wdata := BitVec.ofNat 16 (vaultBus v 99 16 s)
      we := decide (vaultBus v 243 1 s = 1)
      raddr := raddr
      re := decide (vaultBus v 351 1 s = 1)
      clr := decide (vaultBus v 360 1 s = 1)
      count := x.count
      wptr := x.wptr
      place := place
      word := tget 0 s.fabric.vaultWords key
      devHigh := tget 0 s.fabric.vaultDev (2 * key)
      devLow := tget 0 s.fabric.vaultDev (2 * key + 1) }

/-! ### Ports (R200, R206, R207, R321) -/

/-- The value of a port select. -/
def portSel (b sel : Nat) (egress : Bool) (outs : List DWord) : Bool :=
  if sel < 32 then (lget 0 outs b).getLsbD sel else egress && decide (sel = 33)

/-- The numbers below `n` whose select, `per` to a block from an offset of frame 22, is 1. -/
def portsOn (off per n : Nat) (egress : Bool) (outs : List DWord) (s : State) : NatSet :=
  (List.range n).filter (fun c =>
    portSel (c / per) (cfgField (cfgFrame (c / per) 22 s) (off + 6 * (c % per)) 6) egress outs)

/-- The egress bits. -/
def egressPorts (outs : List DWord) (s : State) : Table Bool := (portsOn 0 16 2048 true outs s).map (fun c => (c, true))

/-- Docent line `n`: STOP_A, RESUME_A, STOP_B, RESUME_B; read as 0 until the outputs stage (R217). -/
def ctlLine (n : Nat) (outs : List DWord) (s : State) : Bool :=
  s.released.outputs && portSel 0 (cfgField (cfgFrame 0 22 s) (336 + 6 * n) 6) false outs

/-- The 16 user signals' values from an offset of frame 22 of the column 0 blocks. -/
def userSel (off : Nat) (outs : List DWord) (s : State) : BitVec 16 :=
  (List.range 16).foldl (fun (w : BitVec 16) u =>
    let b := 16 * (u / 2)
    if portSel b (cfgField (cfgFrame b 22 s) (off + 6 * (u % 2)) 6) false outs then w ||| BitVec.twoPow 16 u else w) 0

/-- MA[39:0] (R321). -/
def maValue (outs : List DWord) : BitVec 40 :=
  BitVec.ofNat 40 (((lget 0 outs 113).toNat % 256) * 2 ^ 32 + (lget 0 outs 112).toNat)

/-! ### The cycle -/

/-- FCLK runs (R438, R516): it is locked, TREF is present, and the field side is Armed or Running or in start-up. -/
def fclkRuns (s : State) : Bool :=
  s.regs.clkStatus.getLsbD 14 && s.power.tref && !s.power.relockF && (armed s || !s.loader.stagesLeft.isEmpty)

/-- The next cycle's number. -/
def nextCycle (s : State) : State := { s with power := { s.power with fclk := s.power.fclk + 1 } }

/-- The cycle's state before its blocks evaluate: rows presented, clock edges, and Vault queues under reset. -/
def prepareCycle (grnA grnB : Bool) (s : State) : State :=
  { s with fabric := { s.fabric with
      ctEdges := treeEdges s
      vaults := (List.range 32).map (fun v => vaultAt v grnA grnB s)
      inBits := s.fabric.ingress } }

/-- Register everything that the cycle computed (R190, R224, R227, R231, R233). -/
def registerCycle (inps : List QWord) (evs : List BlockEval) (smp : List VaultSample) (s : State) : State :=
  let outs := evs.map (fun e => e.out)
  let f := s.fabric
  { s with fabric := { f with
      storedNow := (List.range 128).map (fun b => storedAt b s)
      edgeNow := f.edge
      vaultsNow := f.vaults
      stored := evs.map (fun e => e.next)
      edge := evs.map (fun e => e.h1)
      mcOut := outs
      inputs := inps
      wires := (List.range 128).map (fun b =>
        BitVec.ofNat 128 (ofBits ((List.range 128).map (fun i => squareBit b (oselOf b (127 - i) s) outs s))))
      avenueDrv := (List.range 128).map (fun b =>
        BitVec.ofNat 64 (ofBits ((List.range 64).map (fun i => squareBit b (asrcOf b (63 - i) s) outs s))))
      avenueRx := BitVec.ofNat 768 (ofBits ((List.range 768).map (fun i => avenueValue (767 - i) s)))
      vaults := f.vaults.map (fun x => { x with ce := false, ue := false })
      vaultIn := smp
      egress := f.egressLast
      egressLast := f.egressNext
      egressNext := if s.released.outputs then egressPorts outs s else []
      userOut := userSel 360 outs s
      userEn := if s.released.outputs then userSel 372 outs s else 0
      userGrn := f.userIn
      userGrn2 := f.userGrn
      sigLast := [outBit outs (ctSource 1 s), outBit outs (ctSource 2 s), outBit outs (ctSource 3 s),
        outBit outs (grnSource 0 s), outBit outs (grnSource 1 s)]
      strobes := if s.released.outputs then portsOn 288 8 1024 false outs s else []
      strobed := []
      failRep := if s.released.outputs then portsOn 96 16 2048 false outs s else []
      maskRep := if s.released.outputs then portsOn 192 16 2048 false outs s else []
      stopA := ctlLine 0 outs s
      resumeA := ctlLine 1 outs s
      stopB := ctlLine 2 outs s
      resumeB := ctlLine 3 outs s
      ma := (maValue outs :: f.ma).take (s.coffset + 3 + s.params.maLag) } }

/-- The evaluation of one FCLK cycle. -/
def evalCycle (s : State) : State :=
  let grnA := grnAsserted 0 s
  let grnB := grnAsserted 1 s
  let starts := startNext s || (s.egress.batchStart && (nextEgress s).isSome)
  let s1 := prepareCycle grnA grnB s
  let inps := (List.range 128).map (fun b => blockInputs b s1)
  let evs := (List.range 128).map (fun b => blockEval b (lget 0 inps b) grnA grnB s1)
  let smp := (List.range 32).map (fun v => vaultSample v s1.fabric.ctEdges grnA grnB s1)
  let s2 := registerCycle inps evs smp s1
  { s2 with egress := { s2.egress with batchStart := starts } }

/-- FABRIC_CYCLE (R190): the next FCLK cycle. -/
def execFabricCycle (s : State) : Host.Outcome State Fault Refusal :=
  .next (if fclkRuns s then evalCycle (presentRows (nextCycle s)) else s)

/-! ### Block memories (R196) -/

/-- The write that a memory-mode block samples in the cycle: address and data. -/
def memWrite (b : Nat) (s : State) : Option (Nat × Nat) :=
  let inp := lget 0 s.fabric.inputs b
  if memMode b s && s.released.writeEnables && s.fabric.ctEdges.getLsbD (memClk b s) && inp.getLsbD 21 then
    some (fld inp 4 0, fld inp 20 5)
  else none

/-- Word `a` of frame 0 of a block takes a value. -/
def putMemWord (b a v : Nat) (s : State) : State :=
  { s with fabric := { s.fabric with
      frames := tset 0 s.fabric.frames (48 * b) (setFld (cfgFrame b 0 s) (1023 - 16 * a) (1008 - 16 * a) v) } }

/-- BLOCK_MEMORY_WRITE (R196). -/
def execBlockMemoryWrite (b : Nat) (s : State) : Host.Outcome State Fault Refusal :=
  .next (match memWrite b s with
    | some (a, v) => putMemWord b a v s
    | none => s)

/-! ### Two drivers on one Avenue (R235 to R238) -/

/-- The frames that hold the drivers of an Avenue. -/
def driverFrames (a : Nat) : List Nat := (avenueSquares a).map (fun x => 48 * x.1 + 24)

/-- AVENUE_CONTENTION: the first cycle of contention on an Avenue (R236). -/
def beginContention (a : Nat) (s : State) : State :=
  markFault (faultEvent fcContention a { s with fabric := { s.fabric with
    contended := nins s.fabric.contended a
    contendSince := tput s.fabric.contendSince a s.power.fclk
    driverCheck := (driverFrames a).foldl nins s.fabric.driverCheck } })

def execAvenueContention (a : Nat) (s : State) : Host.Outcome State Fault Refusal :=
  .next (if 2 ≤ (avenueDrivers a s).length && !s.fabric.contended.contains a then beginContention a s else s)

/-- The track by which a block of its row or column reads an Avenue. -/
def avenueTrack (a : Nat) : Nat := if a < 256 then 128 + a % 32 else 160 + (a - 256) % 32

/-- A block reads the Avenue: a block input, a Vault input, a wire or an enabled driver of its Square selects its track. -/
def readsAvenue (a b : Nat) (s : State) : Bool :=
  let t := avenueTrack a
  (List.range 64).any (fun k => inselOf b k s = 0x100 + t)
    || (List.range 128).any (fun o => oselOf b o s = 0x20 + t)
    || (List.range 64).any (fun k => aenOf b k s && decide (asrcOf b k s = 0x20 + t))
    || ((blockVault b).isSome && (List.range 41).any (fun k => cfgField (cfgFrame b 25 s) (9 * k) 9 = 0x100 + t))

/-- The sites associated with the blocks that read an Avenue (R238). -/
def avenueSites (a : Nat) (s : State) : List Nat :=
  ((((avenueSquares a).map (·.1)).filter (fun b => readsAvenue a b s)).flatMap (fun b => blockSites b s)).eraseDups

/-- The cycle after the last one of a batch so far: its windows are clipped to its cycles (R279). -/
def lastCycle (b : Batch) (s : State) : Nat := if b.comparesDone then b.compareEnd else s.power.fclk + 1

/-- The suspect windows of one batch for a contention that began in cycle `since` and lasts to the cycle in progress (R238,
R289). -/
def contentionWindows (a since : Nat) (b : Batch) (s : State) : State :=
  let first := since - b.firstEgress
  (avenueSites a s).foldl (fun s x =>
    addWindow b.d.batch ⟨x, first, lastCycle b s - (b.firstEgress + first), 3, 0⟩ s) s

/-- The contention has touched a batch in progress. -/
def touchedBy (since : Nat) (b : Batch) : Bool :=
  b.egressBegun && !b.verdictsFormed && (!b.comparesDone || decide (since < b.compareEnd))

/-- CONTENTION_END: the first cycle with at most one driver (R237, R238). -/
def endContention (a : Nat) (s : State) : State :=
  let since := tget 0 s.fabric.contendSince a
  let s1 := (s.batches.filter (touchedBy since)).foldl (fun s b => contentionWindows a since b s) s
  { s1 with fabric := { s1.fabric with
      contended := ndel s1.fabric.contended a, contendSince := tdel s1.fabric.contendSince a } }

def execContentionEnd (a : Nat) (s : State) : Host.Outcome State Fault Refusal :=
  .next (if s.fabric.contended.contains a && decide ((avenueDrivers a s).length ≤ 1) then endContention a s else s)

end Sys2Proof.Machine
end

