-- ==== Sys2Proof/Machine/Vaults.lean ====
section
/-! DEFINITION. Vault operations at the end of the cycle last evaluated, on the inputs and state sampled there (R208 to R216). -/

namespace Sys2Proof.Machine

def vaultState (v : Nat) (s : State) : VaultState := lget {} s.fabric.vaults v
def setVault (v : Nat) (x : VaultState) (s : State) : State :=
  { s with fabric := { s.fabric with vaults := lset s.fabric.vaults v x } }
def sampleOf (v : Nat) (s : State) : VaultSample := lget {} s.fabric.vaultIn v
def setSample (v : Nat) (p : VaultSample) (s : State) : State :=
  { s with fabric := { s.fabric with vaultIn := lset s.fabric.vaultIn v p } }

/-- The Vault takes an operation at the end of the cycle: its clock has an edge there, and the write-enables stage is
released (R211, R217). -/
def vaultTakes (v : Nat) (s : State) : Bool := (sampleOf v s).edge && s.released.writeEnables

/-- Store a word with consistent check bits. -/
def putVaultWord (v a : Nat) (w : Word) (s : State) : State :=
  let key := 2048 * v + a
  { s with fabric := { s.fabric with
      vaultWords := tset 0 s.fabric.vaultWords key w
      vaultDev := tdel (tdel s.fabric.vaultDev (2 * key)) (2 * key + 1) } }

/-- The two decoded bytes of a sampled word: the high byte first. -/
def vaultDecode (w : Word) (hi lo : BitVec 5) : (EccClass × Byte) × (EccClass × Byte) :=
  (secdedDecode (w.extractLsb' 8 8) hi, secdedDecode (w.extractLsb' 0 8) lo)

/-- The location of a Vault word in the Correction Log (R463). -/
def vaultLocation (v a : Nat) : Nat := v * 2 ^ 27 + a * 2 ^ 16

/-- One byte of a Vault read: a correctable error is counted, logged and written back; an uncorrectable one is counted and
logged (R457, R458). -/
def vaultByteEffect (v a k : Nat) (c : EccClass) (fixed : Byte) (s : State) : State :=
  match c with
  | .clean => s
  | .uncorrectable => countError stVault 3 (vaultLocation v a) (2 ^ k) s
  | _ =>
    let key := 2048 * v + a
    let old := tget 0 s.fabric.vaultWords key
    let new := setFld old (15 - 8 * k) (8 - 8 * k) fixed.toNat
    countError stVault (classCode c) (vaultLocation v a) (2 ^ k) { s with fabric := { s.fabric with
      vaultWords := tset 0 s.fabric.vaultWords key new
      vaultDev := tdel s.fabric.vaultDev (2 * key + k) } }

/-- The word is stored to in the same cycle, so nothing is written back (R457). -/
def vaultOverwritten (v : Nat) (s : State) : Bool :=
  let p := sampleOf v s
  p.we && match vaultMode v s with
    | 1 => decide (p.waddr = p.place)
    | 2 => decide (p.wptr = p.place)
    | _ => true

/-- The sites of the attached block become indeterminate in the batch in progress (R216). -/
def vaultIndet (v : Nat) (s : State) : State :=
  match inProgress s with
  | none => s
  | some b => addCauses b.d.batch 7 (blockSites (vaultBlock v) s) s

/-- A read or pop of the sampled word (R213, R214, R216): the read data, CE and UE of the next cycle. -/
def fetchVault (v : Nat) (s : State) : State :=
  let p := sampleOf v s
  let r := vaultDecode p.word p.devHigh p.devLow
  let ue := decide (r.1.1 = .uncorrectable) || decide (r.2.1 = .uncorrectable)
  let ce := !ue && (decide (r.1.1 ≠ .clean) || decide (r.2.1 ≠ .clean))
  let data : Word := if ue then p.word else r.1.2 ++ r.2.2
  let keep := vaultOverwritten v s
  let s1 := vaultByteEffect v p.place 1 r.2.1 r.2.2 (vaultByteEffect v p.place 0 r.1.1 r.1.2 s)
  let s2 := if keep then { s1 with fabric := { s1.fabric with
      vaultWords := s.fabric.vaultWords, vaultDev := s.fabric.vaultDev } } else s1
  let s3 := setVault v { vaultState v s2 with rdata := data, ce := ce, ue := ue } s2
  let s4 := setSample v { p with fetched := true } s3
  if ue then vaultIndet v (faultEventFree fcVaultUe s4) else s4

/-- VAULT_WRITE (R213). -/
def execVaultWrite (v : Nat) (s : State) : Host.Outcome State Fault Refusal :=
  .next (
    let p := sampleOf v s
    if vaultMode v s = 1 && vaultTakes v s && p.we && !p.wrote then
      setSample v { p with wrote := true } (putVaultWord v p.waddr p.wdata s)
    else s)

/-- VAULT_READ (R213). -/
def execVaultRead (v : Nat) (s : State) : Host.Outcome State Fault Refusal :=
  .next (
    let p := sampleOf v s
    if vaultMode v s = 1 && vaultTakes v s && p.re && !p.fetched then fetchVault v s else s)

/-- A queue-mode Vault takes pushes and pops in this cycle (R214, R215). DEDUCED (log entry 92). -/
def queueTakes (v : Nat) (s : State) : Bool :=
  queueMode (vaultMode v s) && vaultTakes v s && !(sampleOf v s).clr && !(sampleOf v s).held

/-- A pop accompanies the push and succeeds (R214). -/
def popsToo (p : VaultSample) : Bool := p.re && decide (0 < p.count)

/-- A push that finds a place (R214): at the write pointer, or in LIFO mode with a pop in place of the top word. -/
def pushVault (v : Nat) (s : State) : State :=
  let p := sampleOf v s
  let x := vaultState v s
  let replace := decide (vaultMode v s = 3) && popsToo p
  let a := if replace then p.place else p.wptr
  setSample v { p with wrote := true }
    (setVault v { x with
        count := x.count + 1
        wptr := if replace then x.wptr else (p.wptr + 1) % 2048 } (putVaultWord v a p.wdata s))

/-- VAULT_PUSH (R214). -/
def execVaultPush (v : Nat) (s : State) : Host.Outcome State Fault Refusal :=
  .next (
    let p := sampleOf v s
    if queueTakes v s && p.we && !p.wrote then
      if p.count < 2048 || popsToo p then pushVault v s
      else setSample v { p with wrote := true } (setVault v { vaultState v s with ovf := true } s)
    else s)

/-- A pop that finds a word (R214). -/
def popVault (v : Nat) (s : State) : State :=
  let p := sampleOf v s
  let s1 := fetchVault v s
  let x := vaultState v s1
  let lifo := decide (vaultMode v s = 3)
  setVault v { x with
    count := x.count - 1
    rptr := if lifo then x.rptr else (x.rptr + 1) % 2048
    wptr := if lifo && !p.we then (x.wptr + 2047) % 2048 else x.wptr } s1

/-- VAULT_POP (R214). -/
def execVaultPop (v : Nat) (s : State) : Host.Outcome State Fault Refusal :=
  .next (
    let p := sampleOf v s
    if queueTakes v s && p.re && !p.fetched then
      if 0 < p.count then popVault v s
      else setSample v { p with fetched := true } (setVault v { vaultState v s with udf := true, rdata := 0 } s)
    else s)

/-- VAULT_CLR (R214). -/
def execVaultClr (v : Nat) (s : State) : Host.Outcome State Fault Refusal :=
  .next (if queueMode (vaultMode v s) && (sampleOf v s).edge && (sampleOf v s).clr then
    setVault v (clearQueue (vaultState v s)) s
  else s)

end Sys2Proof.Machine
end

