-- ==== Sys2Proof/Machine/Compare.lean ====
section
/-! DEFINITION. The port stage, the fail generator, the memory address port and the Repair Analyser (R148, R201 to R205, R321 to
R340). -/

namespace Sys2Proof.Machine

/-! ### The batch a compare belongs to (R148) -/

/-- What a compare in the cycle belongs to: the batch, its pattern (unit) n, and the value of CYCLE. -/
structure CompareCtx where
  batch : Batch
  pattern : Nat
  cycle : Nat
  deriving DecidableEq, Repr

/-- The batch on egress, its pattern, and the emulated cycle in memory mode. -/
def egressCtx (s : State) : Option CompareCtx :=
  (egressBatch s).map (fun b =>
    ⟨b, s.egress.pattern, if b.mode = 3#2 then s.egress.emulated % max b.d.passes 1 else 0⟩)

/-- The batch, pattern and row or pass of the latest row presented. -/
def rowCtx (s : State) : Option CompareCtx :=
  s.unload.current.bind (fun c => (findBatch c.1 s).map (fun b =>
    ⟨b, c.2.1, if b.mode = 1#2 then c.2.2 else c.2.2 % max b.d.passes 1⟩))

/-- A memory-mode batch with L = 0 is on egress. -/
def unscheduled (s : State) : Bool :=
  schedLength s = 0 && (egressBatch s).any (fun b => b.mode = 3#2)

/-- R148; nothing outside an issued batch, or after its last compare cycle. -/
def compareCtx (s : State) : Option CompareCtx :=
  let c := if s.unload.current.isNone || unscheduled s then egressCtx s else rowCtx s
  c.filter (fun x => issued x.batch && !x.batch.comparesDone && !x.batch.verdictsFormed)

/-! ### Passed reports (R201, R249) -/

/-- A passed report of a channel: its number, its entry, and whether it is a Fail or masked-but-logged. -/
structure Passed where
  channel : Nat
  entry : QWord
  fail : Bool
  deriving DecidableEq, Repr

/-- LOG_MASKED and AUTO_RETEST. -/
def logMasked (s : State) : Bool := s.regs.failControl.getLsbD 1
def autoRetest (s : State) : Bool := s.regs.failControl.getLsbD 0

/-- A report made in the second of the two input cycles of a half-rate link's word is discarded (R249). -/
def secondInput (e : QWord) (s : State) : Bool :=
  halfRate (catLink e) s && decide (s.power.fclk ≠ (lane (catLink e) (catLane e) s).lastWord + 1)

/-- The passed report of an entry's port, if any (R201). -/
def passedOf (c : Nat) (e : QWord) (s : State) : Option Passed :=
  if secondInput e s then none
  else
    let f := s.fabric.failRep.contains (catPort e)
    let m := s.fabric.maskRep.contains (catPort e)
    if f && !catMask e then some ⟨c, e, true⟩
    else if (f || m) && logMasked s then some ⟨c, e, false⟩
    else none

/-- The passed reports of a site, in ascending channel order. -/
def passedReports (site : Nat) (s : State) : List Passed :=
  ((validEntries s.inForce.catalogue).filter (fun e => catSite e.2 = site)).filterMap (fun e => passedOf e.1 e.2 s)

/-! ### Fail records (R202, R203, R326, R327) -/

/-- Offer records to a link's queue (R294). -/
def offer (l : FLink) (rs : List QRec) (s : State) : State :=
  setLedger l { ledger l s with offered := (ledger l s).offered ++ rs } s

/-- A compare-fail record of a channel with its two bits and FLAGS bit 99 (R203, R288). -/
def compareRecord (x : CompareCtx) (site channel : Nat) (observed expected masked : Bool) (s : State) : QRec :=
  ⟨some x.batch.d.batch, true,
    mkRecord 0 site channel (expected.toNat + 2 * observed.toNat + 8 * masked.toNat)
      (x.batch.d.firstPattern + BitVec.ofNat 32 x.pattern) x.cycle (offsetOf x.batch s), true⟩

/-- The records of a strobe under R202. -/
def compareRecords (x : CompareCtx) (site : Nat) (ps : List Passed) (s : State) : List QRec :=
  match ps with
  | [] => [compareRecord x site 0x7FF false false false s]
  | _ => ps.map (fun p =>
      let o := tget false s.fabric.inBits (catPort p.entry)
      compareRecord x site p.channel o (!o) (!p.fail) s)

/-- The MA value paired with this cycle (R322). -/
def pairedMa (s : State) : BitVec 40 := lget 0 s.fabric.ma (s.coffset + 2 + s.params.maLag)

/-- The IO number of a channel of a site (R324). -/
def ioOf (site channel : Nat) (s : State) : Nat := (siteIos site s).findIdx (fun c => c = channel)

/-- A memory fail-address record (R327). -/
def memRecord (x : CompareCtx) (site channel group aux : Nat) (s : State) : QRec :=
  let ma := pairedMa s
  ⟨some x.batch.d.batch, true,
    mkRecord 6 site channel 0 (ma.setWidth 32) ((ma.toNat / 2 ^ 32) * 2 ^ 16 + group * 2 ^ 12 + (x.pattern % 16) * 2 ^ 8) aux,
    true⟩

/-- The records of a strobe under R326: one for each IO group with a Fail, in ascending order, else the site-level one. -/
def memRecords (x : CompareCtx) (site : Nat) (ps : List Passed) (s : State) : List QRec :=
  let ios := (ps.filter (·.fail)).map (fun p => (p.channel, ioOf site p.channel s))
  match ios with
  | [] => [memRecord x site 0x7FF 0xF 0 s]
  | _ => (List.range 4).filterMap (fun g =>
      let mine := ios.filter (fun i => i.2 / 16 = g)
      match mine with
      | [] => none
      | i :: _ => some (memRecord x site i.1 g (mine.foldl (fun a j => a ||| 2 ^ (j.2 % 16)) 0) s))

/-- The fails that a strobe counts towards the verdict (R305): each passed report of Fail, or one site-level record; and none
where every passed report is masked-but-logged in a compare-fail record. -/
def failsOf (mem : Bool) (ps : List Passed) : Nat :=
  let n := (ps.filter (·.fail)).length
  if n = 0 && (ps.isEmpty || mem) then 1 else n

/-- A batch counts fails of a site; the first keeps its cycle offset (R305). -/
def countFails (site n off : Nat) (b : Batch) : Batch :=
  if n = 0 then b
  else if b.fails.any (fun f => f.1 = site) then
    { b with fails := b.fails.map (fun f => if f.1 = site then (site, f.2.1 + n, f.2.2) else f) }
  else { b with fails := b.fails ++ [(site, n, off)] }

/-! ### The Repair Analyser (R329 to R336) -/

/-- A site lies in the analysed range. -/
def analysed (g : Geometry) (site : Nat) : Bool :=
  decide (g.siteFirst ≤ site) && decide (site < g.siteFirst + g.siteCount)

/-- A field of MA. -/
def maField (ma : BitVec 40) (lsb width : Nat) : Nat := (ma.toNat >>> lsb) % 2 ^ width

/-- The tracker of a site and region. -/
def trackerOf (g : Geometry) (site region : Nat) : Nat := (site - g.siteFirst) * 2 ^ g.regWidth + region
def trackerCount (g : Geometry) : Nat := g.siteCount * 2 ^ g.regWidth
def workingOf (t : Nat) (s : State) : Tracker := tget {} s.repair.working t

/-- A bit fail enters the input queue, or is dropped and its tracker marked incomplete (R331, R332). -/
def enterBitFail (f : Nat × Nat × Nat) (r : Repair) : Repair :=
  if r.queue.length < 8192 then { r with queue := r.queue ++ [f] }
  else { r with
    working := tset {} r.working f.1 { tget {} r.working f.1 with incomplete := true }
    dropped := satInc r.dropped }

/-- The bit fails of a strobe in a memory-mode batch (R331). -/
def analyse (site : Nat) (ps : List Passed) (s : State) : State :=
  match s.repair.geometry with
  | none => s
  | some g =>
    if hasRepair s && analysed g site then
      let ma := pairedMa s
      let t := trackerOf g site (maField ma g.regLsb g.regWidth)
      { s with repair := (ps.filter (·.fail)).foldl (fun r p =>
          enterBitFail (t, maField ma g.rowLsb g.rowWidth,
            64 * maField ma g.colLsb g.colWidth + ioOf site p.channel s) r) s.repair }
    else s

/-- R333: what one bit fail does to its tracker. -/
def mustRepair (sr sc row col : Nat) (t0 : Tracker) : Tracker :=
  let t := { t0 with fails := satInc t0.fails }
  if t.unrepairable then t
  else if t.mustRows.contains row || t.mustCols.contains col || t.sparse.contains (row, col) then t
  else
    let nr := 1 + (t.sparse.filter (fun e => e.1 = row)).length
    let nc := 1 + (t.sparse.filter (fun e => e.2 = col)).length
    let t1 : Tracker :=
      if sc < nr then
        { t with sparse := t.sparse.filter (fun e => e.1 ≠ row), mustRows := t.mustRows ++ [row] }
      else if sr < nc then
        { t with sparse := t.sparse.filter (fun e => e.2 ≠ col), mustCols := t.mustCols ++ [col] }
      else if t.sparse.length = 2 * sr * sc then { t with unrepairable := true }
      else { t with sparse := t.sparse ++ [(row, col)] }
    if sr < t1.mustRows.length || sc < t1.mustCols.length then { t1 with unrepairable := true } else t1

/-- The Repair Analyser takes one bit fail from its queue. DEDUCED (log entry 126). -/
def processBitFail (f : Nat × Nat × Nat) (rest : List (Nat × Nat × Nat)) (g : Geometry) (s : State) : State :=
  { s with repair := { s.repair with
      queue := rest
      working := tset {} s.repair.working f.1 (mustRepair g.sr g.sc f.2.1 f.2.2 (workingOf f.1 s)) } }

/-- BIT_FAIL_PROCESS (R333). -/
def execBitFailProcess (s : State) : Host.Outcome State Fault Refusal :=
  .next (match s.repair.queue, s.repair.geometry with
    | f :: rest, some g => processBitFail f rest g s
    | _, _ => s)

/-! ### A strobe (R202, R204) -/

/-- Stop-on-fail: the stop lines of the Docents whose links carry a STOP = 1 channel with a Fail (R204). -/
def assertStops (ps : List Passed) (s : State) : State :=
  let hit (l : FLink) : Bool := ps.any (fun p => p.fail && catStop p.entry && decide (catLink p.entry = l))
  { s with fabric := { s.fabric with stopA := s.fabric.stopA || hit .f0, stopB := s.fabric.stopB || hit .f1 } }

/-- The fail generator at a site strobe (R202, R323, R331). -/
def strobe (x : CompareCtx) (site : Nat) (s : State) : State :=
  let ps := passedReports site s
  let mem := decide (x.batch.mode = 3#2)
  let addr := mem && s.params.mrec
  let recs := if addr then memRecords x site ps s else compareRecords x site ps s
  let s1 := offer (siteLink site s) recs s
  let s2 := modBatch x.batch.d.batch (countFails site (failsOf addr ps) (offsetOf x.batch s)) s1
  let s3 := assertStops ps s2
  if mem then analyse site ps s3 else s3

/-- SITE_STROBE: each strobe of the cycle acts once. -/
def execSiteStrobe (site : Nat) (s : State) : Host.Outcome State Fault Refusal :=
  .next (match compareCtx s with
    | none => s
    | some x =>
      if s.fabric.strobes.contains site && !s.fabric.strobed.contains site then
        strobe x site { s with fabric := { s.fabric with strobed := nins s.fabric.strobed site } }
      else s)

end Sys2Proof.Machine
end

