-- ==== Sys2Proof/Machine/Records.lean ====
section
/-! DEFINITION. Fail records from the hardware queue to host memory, commits, verdicts, re-runs and discards (R283, R287 to R320,
R335, R336, R360). -/

namespace Sys2Proof.Machine

/-! ### Record fields -/

def recKind (r : Record) : Nat := fld r 127 124
def recSite (r : Record) : Nat := fld r 123 114
def recChannel (r : Record) : Nat := fld r 113 103
def recAux (r : Record) : Nat := fld r 39 24
def recPattern (r : Record) : DWord := r.extractLsb' 64 32
def recCycle (r : Record) : BitVec 24 := r.extractLsb' 40 24

/-- A link record (R288): it takes its link's sequence number and belongs to no site. -/
def isLinkRec (r : Record) : Bool := recKind r = 3 || recKind r = 7

/-- Time-mark and revision records survive a discard of the batch they stand with (R309). -/
def survives (r : Record) : Bool := recKind r = 4 || recKind r = 7

/-! ### Entering the queue (R294 to R297) -/

/-- The oldest issued batch whose commit record has not passed on. -/
def headBatch (l : FLink) (s : State) : Option DWord :=
  (s.batches.find? (fun b => issued b && !passedOn l b)).map (fun b => b.d.batch)

/-- A record belongs to a batch later than the oldest. -/
def laterThanHead (l : FLink) (r : QRec) (s : State) : Bool := r.batch.isSome && decide (r.batch ≠ headBatch l s)

/-- The queue has a place for a record: one of a later batch needs more than 8 free places (R297). -/
def queueRoom (l : FLink) (r : QRec) (s : State) : Bool :=
  decide ((ledger l s).queue.length < if laterThanHead l r s then 56 else 64)

/-- Put a record into the queue. -/
def enqueue (l : FLink) (r : QRec) (s : State) : State :=
  setLedger l { ledger l s with queue := (ledger l s).queue ++ [r] } s

/-- The place that a gap record holds among the waiting records until it enters (R296). -/
def gapMarker (n : DWord) (site : Nat) : QRec := ⟨some n, true, mkRecord 1 site 0x7FF 0 0 0 0, false⟩

/-- A waiting record that holds the place of a gap. -/
def isGap (r : QRec) : Bool := recKind r.bits = 1

/-- A gap of the record's site and batch waits. -/
def gapWaits (r : QRec) (w : List QRec) : Bool :=
  w.any (fun x => isGap x && decide (x.batch = r.batch) && decide (recSite x.bits = recSite r.bits))

/-- Add to a site's lost count of a batch (R295). -/
def addLost (r : QRec) (b : Batch) : Batch :=
  let site := recSite r.bits
  if b.lost.any (fun x => x.site = site) then
    { b with lost := b.lost.map (fun x => if x.site = site then { x with count := x.count + 1 } else x) }
  else { b with lost := b.lost ++ [⟨site, 1, recPattern r.bits, recCycle r.bits⟩] }

/-- A record is lost (R295): counted, and its gap takes its place among the waiting records. -/
def loseRec (l : FLink) (r : QRec) (s : State) : State :=
  match r.batch with
  | none => s
  | some n =>
    let s1 := modBatch n (addLost r) s
    if gapWaits r (ledger l s1).waiting then s1
    else setLedger l { ledger l s1 with waiting := (ledger l s1).waiting ++ [gapMarker n (recSite r.bits)] } s1

/-- Waiting records enter in the order they arose, as far as R297 lets each; a gap keeps its place, and every later record of
its site and batch stays behind it. The remaining intake of the cycle is carried along. -/
def enterWaiting (l : FLink) : List QRec → List QRec → Nat → State → State × Nat
  | [], kept, n, s => (setLedger l { ledger l s with waiting := kept } s, n)
  | r :: rest, kept, n, s =>
    if n = 0 || isGap r || gapWaits r kept || !queueRoom l r s then enterWaiting l rest (kept ++ [r]) n s
    else enterWaiting l rest kept (n - 1) (enqueue l r s)

/-- Records offered in the cycle enter, or are lost. -/
def enterOffered (l : FLink) : List QRec → Nat → State → State
  | [], _, s => s
  | r :: rest, n, s =>
    if n ≠ 0 && queueRoom l r s && !gapWaits r (ledger l s).waiting then enterOffered l rest (n - 1) (enqueue l r s)
    else enterOffered l rest n (loseRec l r s)

/-- The order in which offered records enter (R294): ascending CHANNEL, then ascending SITE. -/
def entryKey (r : QRec) : Nat := recChannel r.bits * 1024 + recSite r.bits
def insertRec (r : QRec) : List QRec → List QRec
  | [] => [r]
  | x :: rest => if entryKey r < entryKey x then r :: x :: rest else x :: insertRec r rest
def sortRecs (rs : List QRec) : List QRec := rs.foldl (fun acc r => insertRec r acc) []

/-- One cycle's intake of a link's queue (R294). -/
def enterRecords (l : FLink) (s : State) : State :=
  let q := ledger l s
  let s1 := setLedger l { q with offered := [], gapsEntered := 0 } s
  let w := enterWaiting l q.waiting [] (4 - q.gapsEntered) s1
  enterOffered l (sortRecs q.offered) w.2 w.1

/-- RECORD_ENTER (R294). -/
def execRecordEnter (l : FLink) (s : State) : Host.Outcome State Fault Refusal := .next (enterRecords l s)

/-- HELD_F0 and HELD_F1 follow the Ledgers (R319). -/
def putHeld (s : State) : State :=
  { s with regs := { s.regs with
      failStatus := setBit (setBit s.regs.failStatus 5 (ledgerHolds s.ledger0)) 6 (ledgerHolds s.ledger1) } }

/-- The gap record of a site's lost count (R296, R288). -/
def gapRecord (n : DWord) (x : Lost) : QRec :=
  ⟨some n, true, mkRecord 1 x.site 0x7FF 0 x.pattern x.cycle.toNat (min x.count 0xFFFF), false⟩

/-- The first gap of a site that may enter now: it waits behind no earlier record of its site and batch. -/
def gapReady (l : FLink) (site : Nat) (s : State) : Option (DWord × Lost) :=
  let w := (ledger l s).waiting
  (w.find? (fun r => isGap r && decide (recSite r.bits = site))).bind (fun r =>
    let before := w.takeWhile (fun x => !(isGap x && decide (recSite x.bits = site)))
    let clear := before.all (fun x => !(decide (x.batch = r.batch) && decide (recSite x.bits = site)))
    if clear && decide ((ledger l s).gapsEntered < 4) && queueRoom l r s then
      r.batch.bind (fun n => (findBatch n s).bind (fun b => (b.lost.find? (fun x => x.site = site)).map (fun x => (n, x))))
    else none)

/-- A gap record enters the queue and its lost count is cleared: the link's OVERFLOW bit, and an event (R296). -/
def placeGap (l : FLink) (n : DWord) (x : Lost) (s : State) : State :=
  let q := ledger l s
  let s1 := setLedger l { q with
    queue := q.queue ++ [gapRecord n x]
    waiting := q.waiting.eraseP (fun r => isGap r && decide (r.batch = some n) && decide (recSite r.bits = x.site))
    gapsEntered := q.gapsEntered + 1 } s
  let s2 := modBatch n (fun b => { b with lost := b.lost.filter (fun y => y.site ≠ x.site) }) s1
  fieldEventFree evLedger (setFailStatus (BitVec.twoPow 16 (linkNum l)) s2)

/-- GAP_RECORD (R296). -/
def execGapRecord (l : FLink) (site : Nat) (s : State) : Host.Outcome State Fault Refusal :=
  .next (match gapReady l site s with
    | none => s
    | some (n, x) => placeGap l n x s)

/-! ### From the queue to the Common Store ring and across (R292, R294, R298, R673) -/

/-- The next record to pass on: records that wait for the next batch's commit first, then the oldest batch's in the order they
entered, its verdict and commit records last among them (R294, R673). -/
def nextToPass (l : FLink) (s : State) : Option QRec :=
  let q := (ledger l s).queue
  match s.batches.find? (fun b => issued b && !passedOn l b) with
  | none => none
  | some b =>
    let own := q.find? (fun r => r.batch = some b.d.batch)
    if committedOn l b then own
    else match q.find? (fun r => r.batch.isNone) with
      | some r => some r
      | none => own

/-- A link's ring in Common Store: its base and its length in records (R298, R647). -/
def ringBase (l : FLink) (s : State) : Nat := match l with | .f0 => s.params.ringBase0 | .f1 => s.params.ringBase1
def ringRecords (l : FLink) (s : State) : Nat :=
  match l with | .f0 => 2 ^ (s.params.ringLog0 - 4) | .f1 => 2 ^ (s.params.ringLog1 - 4)

/-- The sequence number a record takes, and the counters after it (R292). -/
def takeSeq (r : Record) (q : Ledger) : BitVec 24 × Ledger :=
  if isLinkRec r then (q.linkSeq, { q with linkSeq := q.linkSeq + 1 })
  else
    let n := tget 0 q.seq (recSite r)
    (n, { q with seq := tset 0 q.seq (recSite r) (n + 1) })

/-- The commit record of a batch passes on: the counters stand at this commit (R309). -/
def notePassed (l : FLink) (r : QRec) (s : State) : State :=
  if recKind r.bits = 3 then
    match r.batch with
    | none => s
    | some n =>
      let q := ledger l s
      setLedger l { q with seqAtCommit := q.seq, linkSeqAtCommit := q.linkSeq, commitPlaced := false }
        (modBatch n (fun b => match l with | .f0 => { b with passed0 := true } | .f1 => { b with passed1 := true }) s)
  else s

/-- A site record of a batch that enters its digest (R360): verdict and revision records do not. -/
def digested (r : QRec) : Bool := !isLinkRec r.bits && decide (recKind r.bits ≠ 8) && decide (recKind r.bits ≠ 4)

/-- One record passes from the queue to the ring, taking its SEQ. -/
def passOn (l : FLink) (r : QRec) (s : State) : State :=
  let q0 := ledger l s
  let t := takeSeq r.bits q0
  let bits : Record := r.bits + t.1.setWidth 128
  let slot := q0.ringIndex % ringRecords l s
  let s1 := setLedger l { t.2 with
    queue := q0.queue.erase r
    ring := q0.ring ++ [⟨r, bits, slot⟩]
    ringIndex := q0.ringIndex + 1
    passedSite := match r.batch with
      | some n => if digested r then q0.passedSite ++ [(n, bits)] else q0.passedSite
      | none => q0.passedSite } s
  csWrite (ringBase l s + 16 * slot) (bytesOf 16 bits.toNat) (notePassed l r s1)

/-- A link's host ring channel. -/
def channel (l : FLink) (s : State) : RingChannel := match l with | .f0 => s.stream.f0 | .f1 => s.stream.f1
def setChannel (l : FLink) (c : RingChannel) (s : State) : State :=
  match l with
  | .f0 => { s with stream := { s.stream with f0 := c } }
  | .f1 => { s with stream := { s.stream with f1 := c } }

/-- LCONS as the device uses it: a value beyond the last writeback counts as equal to it (R303). -/
def effCons (c : RingChannel) : DWord :=
  let wb := BitVec.ofNat 32 c.lastWb
  if (c.cons - wb).toNat < 2 ^ 31 then wb else c.cons

/-- Record number `i` may be written (R300). -/
def hostRoom (c : RingChannel) (i : Nat) : Bool :=
  decide (c.size ≠ 0) && decide ((BitVec.ofNat 32 i - effCons c).toNat < 2 ^ c.size.toNat)

/-- The records at the head of the ring that may cross now, at most three to a cell (R38, R300). -/
def crossable (l : FLink) (s : State) : Nat :=
  let c := channel l s
  let q := ledger l s
  let out := q.flying.length + q.crossed.length
  ((List.range 3).filter (fun k => decide (k < q.ring.length) && hostRoom c (c.next + out + k))).length

/-- The Ledger DMA reads one ring slot (R457, R458): an uncorrectable byte is delivered as stored, with an event that names the
link and the host ring index. -/
def readRingSlot (l : FLink) (slot index : Nat) (s : State) : Record × State :=
  let a := ringBase l s + 16 * slot
  let bits := BitVec.ofNat 128 (ofBytes ((List.range 16).map (fun k =>
    if (csDecode (a + k) s.store).1 = .uncorrectable then rawGet (a + k) s.store.cs else csByte (a + k) s.store)))
  let s1 := csReadCounts a 16 s
  (bits, if csUe a 16 s.store then faultEvent fcStoreUe (linkNum l * 2 ^ 31 + index % 2 ^ 24) s1 else s1)

/-- Read the records of one cell, numbered from a host ring index. -/
def readRing (l : FLink) : List RingRec → Nat → State → List FlightRec × State
  | [], _, s => ([], s)
  | r :: rest, index, s =>
    let v := readRingSlot l r.slot index s
    let w := readRing l rest (index + 1) v.2
    (⟨r.qrec, v.1, true⟩ :: w.1, w.2)

/-- Send one LEDGER_BATCH cell when records may cross (R38, R59, R300). DEDUCED (log entry 124). -/
def sendLedger (l : FLink) (s : State) : State :=
  let k := crossable l s
  if k = 0 || s.barrier.hostSilent || s.barrier.fieldSilent then s
  else
    let q := ledger l s
    let v := readRing l (q.ring.take k) ((channel l s).next + q.flying.length + q.crossed.length) s
    let head := linkNum l * 2 ^ 31 + k * 2 ^ 29
    let body := v.1.foldl (fun a f => a * 2 ^ 128 + f.bits.toNat) head
    let s1 := setLedger l { ledger l v.2 with ring := q.ring.drop k, flying := q.flying ++ v.1 } v.2
    sendMsg .fieldToHost 0x06 (4 + 16 * k) body s1

/-- RECORD_PASS_ON (R294, R298). -/
def passNext (l : FLink) (s : State) : State :=
  match nextToPass l s with
  | some r => if (ledger l s).ring.length < ringRecords l s then passOn l r s else s
  | none => s

def execRecordPassOn (l : FLink) (s : State) : Host.Outcome State Fault Refusal :=
  .next (putHeld (sendLedger l (passNext l s)))

/-! ### The host die's DMA (R300 to R303) -/

/-- Write one record to its slot of the host ring (R300). -/
def writeHostRecord (l : FLink) (f : FlightRec) (s : State) : State :=
  let c := channel l s
  let s1 := hostWrite (c.base.toNat + 16 * (c.next % 2 ^ c.size.toNat)) 16 f.bits.toNat s
  let s2 := setChannel l { c with next := c.next + 1 } s1
  let q := ledger l s2
  let k := recKind f.bits
  if k = 3 then
    setLedger l { q with
      commitDue := q.commitDue ++ [⟨c.next + 1, recPattern f.bits, q.accNotPass, q.accRetest, q.accIndet,
        (BitVec.ofNat 16 (recAux f.bits)).getLsbD 15, q.accDecided⟩]
      accNotPass := false
      accRetest := false
      accIndet := false
      accDecided := false } s2
  else if k = 8 then
    let v := recAux f.bits % 4
    setLedger l { q with
      accNotPass := q.accNotPass || decide (v ≠ 0)
      accRetest := q.accRetest || decide (v = 3)
      accIndet := q.accIndet || decide (v = 2) } s2
  else if k = 7 && recChannel f.bits = 1 then setLedger l { q with accDecided := true } s2
  else s2

/-- Write what the host die holds for as long as the ring has room. -/
def drainCrossed (l : FLink) : List FlightRec → State → State
  | [], s => setLedger l { ledger l s with crossed := [] } s
  | f :: rest, s =>
    if hostRoom (channel l s) (channel l s).next then drainCrossed l rest (writeHostRecord l f s)
    else setLedger l { ledger l s with crossed := f :: rest } s

/-- LEDGER_BATCH: the records of a cell reach the host die, those of a discarded span are left out (R300, R309). -/
def takeLedgerCell (l : FLink) (records : List Record) (s : State) : State :=
  let q := ledger l s
  let n := min records.length q.flying.length
  let arrived := ((q.flying.take n).zip records).filterMap (fun x =>
    if x.1.keep then some { x.1 with bits := x.2 } else none)
  let s1 := setLedger l { q with flying := q.flying.drop n } s
  drainCrossed l (q.crossed ++ arrived) s1

def execLedgerBatch (l : FLink) (records : List Record) (s : State) : Host.Outcome State Fault Refusal :=
  .next (putHeld (takeLedgerCell l records (popHostInbox 0x06 s)))

/-- LCONS (R303). -/
def writeLcons (l : FLink) (v : DWord) (s : State) : State :=
  let s1 := setChannel l { channel l s with cons := v } s
  putHeld (sendLedger l (drainCrossed l (ledger l s1).crossed s1))

def execLcons (l : FLink) (v : DWord) (s : State) : Host.Outcome State Fault Refusal := .next (writeLcons l v (dropKeys .pcie s))

/-- LSIZE (R300): record numbering starts again from 0; a reserved size takes the reset value (R16). -/
def writeLsize (l : FLink) (v : BitVec 5) (s : State) : State :=
  let ok := decide (v = 0) || (decide (8 ≤ v.toNat) && decide (v.toNat ≤ 24))
  let s1 := if ok then s else setFault fcReservedWrite s
  let s2 := setChannel l { channel l s1 with size := if ok then v else 0, next := 0, lastWb := 0 } s1
  let q := ledger l s2
  let s3 := setLedger l { q with commitDue := q.commitDue.map (fun d => { d with index := 0 }) } s2
  putHeld (sendLedger l (drainCrossed l (ledger l s3).crossed s3))

def execLsize (l : FLink) (v : BitVec 5) (s : State) : Host.Outcome State Fault Refusal := .next (writeLsize l v (dropKeys .pcie s))

/-! ### Writebacks (R301, R313, R319, R339) -/

/-- The link's Ledger vector is signalled for this commit (R301, R318). -/
def notifies (d : CommitDue) (s : State) : Bool :=
  match fld s.regs.failControl 3 2 with
  | 1 => true
  | 2 => d.notPass
  | _ => false

/-- A batch is visible once every link that carries verdicts of it has written it back. -/
def visibleAll (b : Batch) (s : State) : Bool :=
  committedBoth b && (b.visible0 || (sitesOf .f0 s).isEmpty) && (b.visible1 || (sitesOf .f1 s).isEmpty)

/-- The snapshot event once the freezing batch's verdicts are delivered (R176). -/
def snapshotDone (b : Batch) (s : State) : State :=
  if s.array.snapshotBatch = some b.d.batch then
    fieldEventFree evSnapshot (setEvent evSnapshot (putArrayBit 15 true { s with array := { s.array with
      snapshotBatch := none } }))
  else s

/-- What waits until a batch's verdicts are visible (R176, R377). -/
def batchVisible (b : Batch) (s : State) : State :=
  if visibleAll b s then
    modBatch b.d.batch (fun b => { b with twinDue := [] }) (b.twinDue.foldl (fun s k => setTwinStatus k s) (snapshotDone b s))
  else s

/-- The event of one newly unrepairable tracker (R339): site and region. -/
def raDetail (t : Nat) (s : State) : Nat :=
  match s.repair.geometry with
  | none => 0
  | some g => (g.siteFirst + t / 2 ^ g.regWidth) * 16 + t % 2 ^ g.regWidth

/-- The Repair Analyser's events for trackers whose sites a link carries. -/
def raiseRepair (l : FLink) (s : State) : State :=
  let due := s.repair.eventsDue.filter (fun e => e.1 = l)
  due.foldl (fun s e => fieldEvent evRa (raDetail e.2 s) (setEvent evRa s))
    { s with repair := { s.repair with eventsDue := s.repair.eventsDue.filter (fun e => e.1 ≠ l) } }

/-- The writeback of a commit (R301): the host sees everything up to it; only now do status bits, events and the vector
describe it (R313). DEDUCED (log entry 125). -/
def writeback (l : FLink) (d : CommitDue) (rest : List CommitDue) (s : State) : State :=
  let c := channel l s
  let s1 := hostWrite c.wb.toNat 8 (d.index % 2 ^ 32 * 2 ^ 32 + d.batch.toNat) s
  let s2 := setChannel l { c with lastWb := d.index, lastWbBatch := d.batch } s1
  let s3 := setLedger l { ledger l s2 with commitDue := rest } s2
  let bits : Word := BitVec.ofNat 16 (4 * d.indet.toNat + 8 * d.retest.toNat + 16 * d.rerun.toNat)
  let s4 := setFailStatus bits s3
  let s5 := if d.decided then setSurveyStatus 0 s4 else s4
  let s6 := modBatch d.batch (fun b => match l with | .f0 => { b with visible0 := true } | .f1 => { b with visible1 := true }) s5
  let s7 := match findBatch d.batch s6 with
    | some b => batchVisible b s6
    | none => s6
  let s8 := raiseRepair l s7
  let s9 := if notifies d s then msix (3 + linkNum l) s8 else s8
  { s9 with batches := s9.batches.filter (fun b => !(committedBoth b && b.visible0 && b.visible1)) }

/-- LEDGER_WRITEBACK (R301). -/
def execLedgerWriteback (l : FLink) (s : State) : Host.Outcome State Fault Refusal :=
  .next (match (ledger l s).commitDue with
    | [] => s
    | d :: rest => refreshEndOfTest (writeback l d rest s))

/-! ### Verdicts (R305) -/

/-- The fails of a site: their count and the first one's cycle offset. -/
def siteFails (b : Batch) (site : Nat) : Option (Nat × Nat) := (b.fails.find? (fun f => f.1 = site)).map (·.2)

/-- The first cycle of a site's earliest suspect window. -/
def firstWindow (b : Batch) (site : Nat) : Option Nat :=
  ((b.windows.filter (fun w => w.site = site)).map (·.first)).min?

/-- The verdict of a site: 0 pass, 1 fail, 2 indeterminate, 3 retest. -/
def verdictOf (b : Batch) (site : Nat) : Nat :=
  if b.causes.any (fun c => c.1 = site) then 2
  else
    match firstWindow b site, siteFails b site with
    | some w, some f => if f.2 < w then 1 else 3
    | some _, none => 3
    | none, some _ => 1
    | none, none => 0

/-- A site verdict record (R288). -/
def verdictRecord (b : Batch) (site : Nat) : QRec :=
  ⟨some b.d.batch, true,
    mkRecord 8 site 0x7FF (if (firstWindow b site).isSome then 4 else 0) b.d.batch
      (min ((siteFails b site).map (·.1) |>.getD 0) 0xFFFFFF) (b.rerun.toNat * 2 ^ 15 + verdictOf b site), false⟩

/-- A batch commit record of a link's sites (R288). -/
def commitRecord (b : Batch) (sites : List Nat) : QRec :=
  ⟨some b.d.batch, false,
    mkRecord 3 0 0 0 b.d.batch sites.length
      (b.rerun.toNat * 2 ^ 15 + (sites.filter (fun x => verdictOf b x = 1)).length), false⟩

/-! ### Commit (R283, R304) -/

/-- Every frame with a delivery or an egress cycle of the batch has been checked or reported, on every lane in use (R283). -/
def laneChecked (b : Batch) (x : Lane) : Bool :=
  decide (x.state ≠ .up) || (decide (b.compareEnd ≤ x.checkedTo) && decide (b.egressEnd ≤ x.statusTo))
def checksDone (b : Batch) (s : State) : Bool :=
  decide (b.egressEnd = 0) || (s.link0.lanes.all (laneChecked b) && s.link1.lanes.all (laneChecked b))

/-- Every site record of the batch, gaps included, has entered the link's queue. -/
def recordsIn (l : FLink) (n : DWord) (s : State) : Bool :=
  let mine (r : QRec) : Bool := decide (r.batch = some n) && !survives r.bits
  !(ledger l s).waiting.any mine && !(ledger l s).offered.any mine

/-- The contentions and drifts that last into the batch's commit leave their windows first (R238, R276). -/
def ongoingWindows (b : Batch) (s0 : State) : State :=
  let s := linkDrift .f1 (linkDrift .f0 s0)
  s.fabric.contended.foldl (fun s a =>
    let since := tget 0 s.fabric.contendSince a
    if touchedBy since b then contentionWindows a since b s else s) s

/-- A link meets the conditions of R304 for a batch, digests and R307 aside. -/
def linkReady (l : FLink) (b : Batch) (s : State) : Bool :=
  issued b && b.burstDone && b.comparesDone && checksDone b s && recordsIn l b.d.batch s
    && ((oldestOpen l s).any (fun x => x.d.batch = b.d.batch) || committedOn l b)

/-- A tracker's committed STATE (R337). -/
def trackerState (t : Tracker) : Nat :=
  if t.unrepairable then 3 else if !t.sparse.isEmpty then 2 else if t.fails = 0 then 0 else 1

/-- The trackers of a site. -/
def trackersOf (g : Geometry) (site : Nat) : List Nat :=
  if analysed g site then (List.range (2 ^ g.regWidth)).map (fun r => trackerOf g site r) else []

/-- One site's trackers at a commit (R335, R336, R339). -/
def absorbTracker (l : FLink) (n : DWord) (doubt : Bool) (t : Nat) (r : Repair) : Repair :=
  let old := tget {} r.committed t
  let w := tget {} r.working t
  let new := { w with batch := n, suspect := w.suspect || doubt }
  { r with
    working := tset {} r.working t new
    committed := tset {} r.committed t new
    eventsDue := if trackerState new = 3 && trackerState old ≠ 3 then r.eventsDue ++ [(l, t)] else r.eventsDue }

/-- The Repair Analyser at a link's commit. -/
def absorb (l : FLink) (b : Batch) (sites : List Nat) (s : State) : State :=
  match s.repair.geometry with
  | none => s
  | some g => { s with repair := sites.foldl (fun r x =>
      (trackersOf g x).foldl (fun r t => absorbTracker l b.d.batch (decide (2 ≤ verdictOf b x)) t r) r) s.repair }

/-- The history entry of a batch takes the verdicts of one more link. -/
def addHistory (b : Batch) (vs : List (Nat × Nat)) (h : List Committed) : List Committed :=
  if h.any (fun c => c.batch = b.d.batch) then
    h.map (fun c => if c.batch = b.d.batch then { c with verdicts := c.verdicts ++ vs } else c)
  else h ++ [⟨b.d.batch, b.firstEgress, max b.compareEnd b.firstEgress, vs⟩]

/-- Mark a batch committed on a link. -/
def markCommitted (l : FLink) (b : Batch) : Batch :=
  match l with | .f0 => { b with committed0 := true } | .f1 => { b with committed1 := true }

/-- What the commit of a batch on its second link does besides: its ring entry is released (R306), its digest inputs end, and
a freeze begins (R176). -/
def commitDone (b : Batch) (s : State) : State :=
  let fails := b.freeze && (List.range (siteCount s)).any (fun x => verdictOf b x = 1)
  let n := b.d.batch
  let keep (q : Ledger) : Ledger := { q with passedSite := q.passedSite.filter (fun x => x.1 ≠ n) }
  { s with
    stream := { s.stream with brRel := b.ringIndex + 1 }
    array := { s.array with
      commits := s.array.commits.filter (fun w => w.batch ≠ n)
      snapshotBatch := if fails then some n else s.array.snapshotBatch }
    unload := { s.unload with digestEs := s.unload.digestEs.filter (fun x => x.1 ≠ n) }
    ledger0 := keep s.ledger0
    ledger1 := keep s.ledger1
    twin := { s.twin with
      faultSinceCommit := false
      faultHistory := (s.twin.faultSinceCommit :: s.twin.faultHistory).take 256 } }

/-- A link commits a batch (R304): its verdicts form (R678), its records are placed, the Repair Analyser absorbs. -/
def commitLink (l : FLink) (b0 : Batch) (s : State) : State :=
  let n := b0.d.batch
  let s0 := ongoingWindows b0 s
  let b := (findBatch n s0).getD b0
  let sites := sitesOf l s0
  let s1 := modBatch n (fun b => markCommitted l { b with verdictsFormed := true }) s0
  let s2 := wait l (sites.map (verdictRecord b) ++ [commitRecord b sites]) s1
  let s3 := setLedger l { ledger l s2 with commitPlaced := true } s2
  let s4 := absorb l b sites { s3 with
    batches := s3.batches.map (fun x => if committedOn l x then x else { x with lostSaved := x.lost })
    history := addHistory b (sites.map (fun x => (x, verdictOf b x))) s3.history }
  if committedOn (otherLink l) b then commitDone b s4 else s4

/-! ### Discards and re-runs (R307 to R309, R335) -/

/-- The batches of a list from number `n` on. -/
def batchesFrom (n : DWord) (s : State) : List DWord :=
  (s.batches.dropWhile (fun b => decide (b.d.batch ≠ n))).map (fun b => b.d.batch)

/-- A record falls with a discard of these batches. -/
def falls (ns : List DWord) (r : QRec) : Bool := r.batch.any (fun n => ns.contains n)

/-- A link's records of the discarded batches go; its counters stand at its last commit; time marks and revisions of the span
are placed again, in their order (R309). -/
def discardLink (ns : List DWord) (l : FLink) (s : State) : State :=
  let q := ledger l s
  let fallen := (q.crossed.map (·.qrec) ++ q.flying.map (·.qrec) ++ q.ring.map (·.qrec) ++ q.queue ++ q.waiting).filter (falls ns)
  let again := (fallen.filter (fun r => survives r.bits))
  let wentOn := (q.crossed ++ q.flying).any (fun f => falls ns f.qrec) || q.ring.any (fun x => falls ns x.qrec)
  let s1 := setLedger l { q with
    offered := q.offered.filter (fun r => !falls ns r)
    waiting := q.waiting.filter (fun r => !falls ns r) ++ again
    queue := q.queue.filter (fun r => !falls ns r)
    ring := q.ring.filter (fun x => !falls ns x.qrec)
    flying := q.flying.map (fun f => if falls ns f.qrec then { f with keep := false } else f)
    crossed := q.crossed.filter (fun f => !falls ns f.qrec)
    passedSite := q.passedSite.filter (fun x => !ns.contains x.1)
    seq := if q.commitPlaced then q.seq else q.seqAtCommit
    linkSeq := if q.commitPlaced then q.linkSeq else q.linkSeqAtCommit } s
  let c := channel l s1
  let last := match q.commitDue.getLast? with | some d => d.index | none => c.lastWb
  if wentOn || !q.commitPlaced then setChannel l { c with next := if q.commitPlaced then c.next else last } s1 else s1

/-- The Repair Analyser reverts to its committed state (R335). -/
def revertRepair (s : State) : State :=
  { s with repair := { s.repair with working := s.repair.committed, queue := [] } }

/-- A batch as its Docents issue it again (R308). -/
def againBatch (n : DWord) (b : Batch) : Batch :=
  let quiet := b.malformed || b.d.patterns = 0
  { d := b.d
    mode := b.mode
    overlap := b.overlap
    ringIndex := b.ringIndex
    malformed := b.malformed
    burstBegun := b.malformed
    burstDone := b.malformed
    egressBegun := quiet
    egressDone := quiet
    comparesDone := quiet
    nstream := b.nstream
    nrows := b.nrows
    lost := b.lostSaved
    lostSaved := b.lostSaved
    digestFirst := b.digestFirst
    rerun := b.rerun || decide (b.d.batch = n) }

/-- The re-run of batch `n` begins: discard, and issue it and the batches after it again (R308, R309). -/
def performRerun (n : DWord) (s : State) : State :=
  let ns := batchesFrom n s
  let s1 := revertRepair (discardLink ns .f1 (discardLink ns .f0 s))
  let s2 := { s1 with
    batches := s1.batches.map (fun b => if ns.contains b.d.batch then againBatch n b else b)
    array := { s1.array with
      phase := .idle
      running := none
      stim := []
      bus := []
      rx := []
      flight := []
      meshOut := []
      meshWaiting := false
      halves := []
      commits := s1.array.commits.filter (fun w => !ns.contains w.batch) }
    unload := { s1.unload with
      due := []
      read := []
      digestEs := s1.unload.digestEs.filter (fun x => !ns.contains x.1) }
    egress := { s1.egress with phase := .idle, batch := none, cycle := 0, waitingUnload := none, rerunFrom := none }
    power := { s1.power with field := if s1.power.field = .running then .armed else s1.power.field } }
  let s3 := if s1.power.field = .running then putArrayBit 14 false (reportPower 3 s2) else s2
  (s3.batches.filter (fun b => ns.contains b.d.batch)).foldl (fun s b =>
    let gaps := b.lost.map (fun x => (siteLink x.site s, gapMarker b.d.batch x.site))
    let s' := gaps.foldl (fun s g => wait g.1 [g.2] s) s
    if b.malformed then indetAll b.d.batch 0xA s' else s') s3

/-- Egress stands at a pattern boundary (R308). -/
def patternBoundary (s : State) : Bool := s.egress.phase = .hold || s.egress.phase = .idle || (egressBatch s).isNone

/-- Begin a re-run of batch `n`, now or at the next pattern boundary (R308). -/
def beginRerun (n : DWord) (s : State) : State :=
  if patternBoundary s then performRerun n s else { s with egress := { s.egress with rerunFrom := some n } }

/-- R307: the batch would commit with a retest verdict and is re-run instead. -/
def rerunDecided (b : Batch) (s : State) : Bool :=
  autoRetest s && decide (b.mode = 1#2) && !b.rerun && (List.range (siteCount s)).any (fun x => verdictOf b x = 3)

/-- One decision of R307 covers both links (R304). -/
def jointly (b : Batch) (s : State) : Bool := autoRetest s && decide (b.mode = 1#2) && !b.rerun

end Sys2Proof.Machine
end

