-- ==== Sys2Proof/Machine/Twin.lean ====
section
/-! DEFINITION. Twin operation: heartbeats, the token, roles, the batch digest and arbitration, commits, switchover, joining and
detaching (R304, R343 to R378, R396). -/

namespace Sys2Proof.Machine

/-! ### Blocks (R348 to R351) -/

/-- ROLE codes of R377. -/
def roleCode : Role → BitVec 3
  | .solo => 0 | .negotiating => 1 | .primary => 2 | .mirror => 3
  | .joining => 4 | .outOfLockstep => 5 | .detached => 6

/-- The last batch committed on both links. -/
def lastCommitted (s : State) : Option DWord := s.history.getLast?.map (fun c => c.batch)

/-- Send a heartbeat (R349). -/
def sendHeartbeat (s : State) : State :=
  let m : TwinMsg := .heartbeat (roleCode s.twin.role) s.twin.token s.twin.epoch (lastCommitted s) s.twin.recvTseq
    (s.twin.joinBatch.getD 0)
  { s with twin := { s.twin with sent := s.twin.sent ++ [⟨0, m⟩] } }

/-- TWIN_HEARTBEAT_DUE (R349): only while the lease is valid. -/
def execTwinHeartbeatDue (s : State) : Host.Outcome State Fault Refusal :=
  .next (if hasTwin s && s.twin.leaseValid then sendHeartbeat s else s)

/-- TWIN_BLOCK_RESEND (R350): the oldest unacknowledged block. -/
def execTwinBlockResend (s : State) : Host.Outcome State Fault Refusal :=
  .next (match s.twin.unacked with
    | [] => s
    | x :: _ => { s with twin := { s.twin with sent := s.twin.sent ++ [x] } })

/-- A sequenced block is the next in TSEQ order (R350); a duplicate, a later one or a damaged one is not acted on. -/
def inOrder (crcOk : Bool) (tseq : Word) (s : State) : Bool := hasTwin s && crcOk && decide (tseq = s.twin.recvTseq + 1)

/-- Note a block as received in order. -/
def noteTseq (s : State) : State := { s with twin := { s.twin with recvTseq := s.twin.recvTseq + 1 } }

/-- Fields of a block whose layout R348 gives. -/
def twinKind (b : Block) : Nat := fld b 255 252
def twinAddr (b : Block) : Nat := fld b 247 224
def twinBody (b : Block) : BitVec 192 := b.extractLsb' 32 192
def twinTseq (b : Block) : Word := b.extractLsb' 16 16
def twinCrcOk (b : Block) : Bool := decide (crc16 (bitsMsb 240 (b.toNat / 65536)) = b.toNat % 65536)

/-- A block of a reserved TKIND is discarded and counted (R348). -/
def countReserved (b : Block) (s : State) : State :=
  if hasTwin s && twinCrcOk b && 6 ≤ twinKind b then
    { s with twin := { s.twin with discarded := satInc s.twin.discarded } }
  else s

/-! ### The token (R352, R353, R369) -/

/-- LEASE_RENEW: Warden renews the lease (R352). -/
def execLeaseRenew (s : State) : Host.Outcome State Fault Refusal :=
  .next (if hasTwin s && coreRuns s.cores.warden && fieldAwake s && s.inForce.twinEnable && decide (s.twin.role ≠ .detached) then
    { s with twin := { s.twin with leaseValid := true } }
  else s)

/-- LEASE_LAPSE: the token is released, and a member in lockstep leaves it (R352, R575, R577). -/
def execLeaseLapse (s : State) : Host.Outcome State Fault Refusal :=
  .next (if hasTwin s && s.twin.leaseValid then leaveLockstep 0 (lapseLease s) else s)

/-- No batch has committed on either member since the load. -/
def freshPair (s : State) : Bool := s.history.isEmpty && s.twin.peerLast.isNone

/-- PREFER of the peer, and its unique identifier (R354). -/
def peerPrefer (s : State) : Bool := (s.twin.caps0.getD 0).getLsbD 0
def peerUid (s : State) : QWord := (s.twin.caps1.getD 0).extractLsb' 128 64

/-- R356: this member is the one that takes the token. -/
def chosen (s : State) : Bool :=
  if s.regs.twinPrefer != peerPrefer s then s.regs.twinPrefer else decide (Config.uniqueId.toNat < (peerUid s).toNat)

/-- The member takes the token: TWIN_TOKEN low, a new epoch (R353). -/
def takeToken' (s : State) : State :=
  let e := (if s.twin.epoch.toNat < s.twin.peerEpoch.toNat then s.twin.peerEpoch else s.twin.epoch) + 1
  putTwinBit 12 true (putTwinBit 11 false { s with twin := { s.twin with token := true, line := false, epoch := e } })

/-- What a new Primary does with the batches its Primary left uncommitted (R371). -/
def switchBatches (s : State) : State :=
  match s.batches.find? (fun b => issued b && !committedBoth b) with
  | none => s
  | some b =>
    if b.mode = 1#2 || b.malformed || b.d.patterns = 0 then beginRerun b.d.batch s
    else
      (s.batches.filter (fun x => x.egressBegun && !x.verdictsFormed && decide (x.mode ≠ 1#2))).foldl (fun s x =>
        indetAll x.d.batch 9 s) s

/-- The take at switchover (R369 to R371). -/
def switchOver (s : State) : State :=
  let s1 := takeToken' s
  let s2 := setTwinStatus 4 (roleMark 3 (setRole .primary { s1 with twin := { s1.twin with
    switchoverFrames := 16, peerRole := 0, announced := [], handoverSeen := false } }))
  if s.twin.handoverSeen then s2 else switchBatches s2

/-- TOKEN_TAKE: the line has read high for 1 µs (R353). -/
def execTokenTake (s : State) : Host.Outcome State Fault Refusal :=
  .next (if hasTwin s && s.twin.leaseValid && s.twin.line && !s.twin.token then
      if s.twin.role = .mirror then switchOver s
      else if s.twin.role = .negotiating && s.twin.capsAgree && chosen s then
        roleMark 1 (setRole .primary (takeToken' s))
      else s
    else s)

/-- TOKEN_WAIT_TIMEOUT: 3 µs after the loss of T the line still reads low (R369). -/
def execTokenWaitTimeout (s : State) : Host.Outcome State Fault Refusal :=
  .next (if s.twin.role = .mirror && !s.twin.tUp && !s.twin.line then leaveLockstep 6 (setTwinStatus 6 s) else s)

/-- A join in progress ends without success (R373). -/
def failJoin (s : State) : State :=
  if s.twin.joinBatch.isSome || s.twin.role = .joining then
    let s1 := setTwinStatus 8 { s with twin := { s.twin with joinBatch := none } }
    if s.twin.role = .joining then setRole .outOfLockstep s1 else s1
  else s

/-- T_LOST (R351): LINK_LOST; a join fails (R373); the peer takes no further part. -/
def loseT (s : State) : State :=
  let s1 := setTwinStatus 6 (putTwinBit 10 false { s with twin := { s.twin with
    tUp := false, lanesLocked := [], unacked := [], peerRole := 0, capsAgree := false, caps0 := none, caps1 := none } })
  failJoin s1

def execTLost (s : State) : Host.Outcome State Fault Refusal :=
  .next (if hasTwin s && s.twin.tUp then loseT s else s)

/-! ### Capabilities and roles (R354 to R356) -/

/-- CAPS_UNITS and CAPS_SIZE (R619). -/
def capsUnits (s : State) : Word := match s.variant with | .a => 0x000E#16 | .l => 0x0006#16 | .m => 0x000A#16 | .s => 0x000C#16
def capsSize (s : State) : Word := match s.variant with | .m => 0x1082#16 | _ => 0x4082#16

/-- The CRC-64 of the committed Catalogue, site count and MODE_SELECT (R354): entries in ascending order, then SITES and
MODE_SELECT as 16-bit words. -/
def catalogueCrc (s : State) : Nat :=
  crc64 ((List.range 2048).flatMap (fun c => bitsMsb 64 (catEntry c s).toNat)
    ++ bitsMsb 16 s.inForce.sites.toNat ++ bitsMsb 16 s.inForce.mode.toNat)

/-- The two capability bodies of this member (R354). -/
def capability0 (s : State) : BitVec 192 :=
  BitVec.ofNat 192 (((((capsUnits s).toNat * 2 ^ 16 + (capsSize s).toNat) * 2 ^ 64 + s.imageId.toNat) * 2 ^ 64
    + catalogueCrc s) * 2 ^ 32 + s.regs.twinPrefer.toNat)
def capability1 : BitVec 192 := BitVec.ofNat 192 (Config.uniqueId.toNat * 2 ^ 128)

/-- A committed TWIN_CONTROL.ENABLE = 1 with T up begins negotiation (R354). -/
def negotiate (s : State) : State :=
  if hasTwin s && s.inForce.twinEnable && s.twin.tUp then
    sendTwin (.capability 1 capability1) (sendTwin (.capability 0 (capability0 s)) (setRole .negotiating s))
  else s

/-- Every partner on a referenced lane is dual-ported (R346). -/
def dualPorted (s : State) : Bool :=
  (validEntries s.inForce.catalogue).all (fun e =>
    match (lane (catLink e.2) (catLane e.2) s).descriptor with
    | some d => d.getLsbD 79
    | none => true)

/-- The peer's capability agrees with this member's (R355): BODY bits [223:64] of the ADDR 0 block. -/
def capsMatch (s : State) : Bool :=
  decide ((s.twin.caps0.getD 0).toNat / 2 ^ 32 = (capability0 s).toNat / 2 ^ 32)

/-- Both capability blocks have arrived (R355, R356). -/
def decideRoles (s : State) : State :=
  if !capsMatch s || !dualPorted s then
    setTwinStatus 7 (if s.twin.token then s else setRole .outOfLockstep s)
  else
    let s1 := { s with twin := { s.twin with capsAgree := true } }
    if s.twin.token then s1
    else if !s.twin.line then setRole .outOfLockstep s1
    else s1

/-- One capability block. -/
def takeCapability (b : Block) (s : State) : State :=
  let s1 := noteTseq s
  if twinAddr b = 0 then { s1 with twin := { s1.twin with caps0 := some (twinBody b) } }
  else decideRoles { s1 with twin := { s1.twin with caps1 := some (twinBody b) } }

/-- CAPABILITY_RECEIVE (R354 to R356). -/
def execCapabilityReceive (b : Block) (s : State) : Host.Outcome State Fault Refusal :=
  .next (if twinKind b = 2 && inOrder (twinCrcOk b) (twinTseq b) s then takeCapability b s else countReserved b s)

/-- A negotiating member sees its peer take the token (R356). -/
def followPeer (s : State) : State :=
  if s.twin.role = .negotiating && s.twin.capsAgree && s.twin.peerToken then
    if freshPair s then roleMark 2 (setRole .mirror s) else setRole .outOfLockstep s
  else s

/-! ### The state of a join (R372) -/

/-- The rows of the previous bank with their valid bit set. -/
def prevItems (s : State) : List StateItem :=
  s.array.prevValid.map (fun row =>
    .prevRow (row / 128) (row % 128)
      ((List.range 4).map (fun k => tget 0 s.array.prev (row / 128 * 512 + row % 128 * 4 + k)))
      (s.array.prevPoison.contains row))

/-- Every block: stored bits, edge detectors, and the memory of a memory-mode block. -/
def blockItems (s : State) : List StateItem :=
  (List.range 128).map (fun b => .block b (lget 0 s.fabric.stored b) (lget 0 s.fabric.edge b)
    (if memMode b s then cfgFrame b 0 s else 0))

/-- Every Vault: its words and its queue state. -/
def vaultItems (s : State) : List StateItem :=
  s.fabric.vaultWords.map (fun e => .vaultWord (e.1 / 2048) (e.1 % 2048) e.2)
    ++ (List.range 32).map (fun v =>
      let x := lget {} s.fabric.vaults v
      .vaultQueue v x.count x.rptr x.wptr x.ovf x.udf)

/-- Every site's and link's counters. -/
def counterItems (s : State) : List StateItem :=
  (List.range (siteCount s)).map (fun x => .siteCounters x (tget 0 (ledger (siteLink x s) s).seq x) 0)
    ++ [.linkCounter .f0 s.ledger0.linkSeq, .linkCounter .f1 s.ledger1.linkSeq]

/-- Committed Repair Analyser trackers. -/
def trackerItems (s : State) : List StateItem :=
  s.repair.committed.map (fun e =>
    .tracker e.1 e.2.mustRows e.2.mustCols e.2.sparse e.2.unrepairable e.2.incomplete e.2.suspect e.2.fails e.2.batch)

/-- Everything a Primary sends, in the order of R372. DESIGN CHOICE (log entry 128). -/
def stateItems (next : DWord) (s : State) : List StateItem :=
  prevItems s ++ blockItems s ++ vaultItems s ++ counterItems s ++ trackerItems s
    ++ [.finish next s.egress.waitingUnload.isSome]

/-- The batch before which a join takes place: `b`, or the next one where `b` is 0. -/
def joinPoint (b : DWord) (s : State) : DWord := if b = 0 then s.lastBatch + 1 else b

/-- A Primary whose peer is joining holds at the boundary before the join batch and sends the state (R372). -/
def serveJoin (s : State) : State :=
  if s.twin.role = .primary && s.twin.peerRole = 4#3 && s.twin.joinBatch.isNone && s.twin.tUp && atBoundary s
      && s.batches.all committedBoth
      && decide ((joinPoint s.twin.peerJoin s).toNat ≤ (s.lastBatch + 1).toNat) then
    let n := joinPoint s.twin.peerJoin s
    (stateItems n s).foldl (fun s i => sendTwin (.state i) s) { s with twin := { s.twin with joinBatch := some n } }
  else s

/-! ### Detaching (R374) -/

/-- A detach due is completed once every record has left: time mark 0x0008, field I/O disabled, ROLE detached. -/
def detachStep (s : State) : State :=
  if s.twin.detachDue && atBoundary s && s.batches.all committedBoth then
    let s1 := handOver s
    if ledgerHolds s1.ledger0 || ledgerHolds s1.ledger1 then s1
    else setRole .detached (disableFieldIo (roleMark 8 { s1 with twin := { s1.twin with detachDue := false } }))
  else s

/-- DETACH (R374, R376). -/
def requestDetach (s : State) : State :=
  if hasTwin s then detachStep { s with twin := { s.twin with detachDue := true } } else s
def execDetach (m : Master) (s : State) : Host.Outcome State Fault Refusal :=
  .next (fieldCommand m 0x26 (setBit (setBit (setBit 0 0 s.shadow.twinEnable) 1 s.regs.twinPrefer) 2 true) requestDetach s)

/-- TWIN_HEARTBEAT_RECEIVE (R349, R350): the peer's report, its acknowledgement, and what waits on them. -/
def takeHeartbeat (role : BitVec 3) (token : Bool) (epoch : DWord) (last : Option DWord) (ack : Word) (join : DWord)
    (s : State) : State :=
  let acked (x : TwinSent) : Bool := decide ((ack - x.tseq).toNat < 2 ^ 15)
  let s1 := { s with twin := { s.twin with
    peerRole := role
    peerToken := token
    peerEpoch := epoch
    peerLast := last
    peerJoin := join
    unacked := s.twin.unacked.filter (fun x => !acked x) } }
  serveJoin (followPeer s1)

def execTwinHeartbeatReceive (crcOk : Bool) (role : BitVec 3) (token : Bool) (epoch : DWord) (last : Option DWord)
    (ack : Word) (join : DWord) (s : State) : Host.Outcome State Fault Refusal :=
  .next (if hasTwin s && crcOk then takeHeartbeat role token epoch last ack join s else s)

/-! ### The batch digest (R360) -/

/-- The commit writes of a Gallery in a batch, in order of pass, step, BP. -/
def insertWrite (w : CommitWrite) : List CommitWrite → List CommitWrite
  | [] => [w]
  | x :: rest =>
    if (w.pass * 512 + w.word) * 256 + w.bp < (x.pass * 512 + x.word) * 256 + x.bp then w :: x :: rest
    else x :: insertWrite w rest
def galleryWrites (n : DWord) (g : Nat) (s : State) : List CommitWrite :=
  (s.array.commits.filter (fun w => decide (w.batch = n) && decide (w.gallery = g))).foldl (fun a w => insertWrite w a) []

/-- One Gallery's component. -/
def galleryCrc (n : DWord) (g : Nat) (s : State) : Nat :=
  crc64 ((galleryWrites n g s).flatMap (fun w =>
    bitsMsb 8 w.bp ++ bitsMsb 8 0 ++ bitsMsb 16 w.word ++ bitsMsb 16 w.value.toNat))

/-- The expected streams' component. -/
def streamsCrc (n : DWord) (s : State) : Nat :=
  crc64 ((s.unload.digestEs.filter (fun x => x.1 = n)).flatMap (fun x => bitsMsb 64 x.2.toNat))

/-- The records of a batch still in the queue, with the numbers they will take. -/
def queuedBits (n : DWord) : List QRec → Ledger → List Record
  | [], _ => []
  | r :: rest, q =>
    let t := takeSeq r.bits q
    let more := queuedBits n rest t.2
    if r.batch = some n && digested r then (r.bits + t.1.setWidth 128) :: more else more

/-- One link's component: its site records in the order they pass from the queue. -/
def linkCrc (n : DWord) (l : FLink) (s : State) : Nat :=
  let q := ledger l s
  let passed := (q.passedSite.filter (fun x => x.1 = n)).map (·.2)
  crc64 ((passed ++ queuedBits n (q.queue.filter (fun r => r.batch = some n || r.batch.isNone)) q).flatMap
    (fun r => bitsMsb 128 r.toNat))

/-- The digest of a batch. DEDUCED (log entry 100). -/
def digestOf (n : DWord) (s : State) : QWord :=
  let gs := ((List.range (galleryCount s)).filter (fun g => galleryInUse g s)).map (fun g => galleryCrc n g s)
  BitVec.ofNat 64 ((gs ++ [streamsCrc n s, linkCrc n .f0 s, linkCrc n .f1 s]).foldl (fun a c => a ^^^ c) 0)

/-! ### Arbitration (R364 to R366) -/

/-- The batch may commit, with TWIN_STATUS bits that follow its writeback. -/
def agree (n : DWord) (due : List Nat) (s : State) : State :=
  modBatch n (fun b => { b with agreed := true, twinDue := b.twinDue ++ due }) s

/-- The member whose run loses: it discards the batch and leaves lockstep (R365). -/
def loseRun (n : DWord) (s : State) : State :=
  let ns := batchesFrom n s
  let s1 := revertRepair (discardLink ns .f1 (discardLink ns .f0 s))
  leaveLockstep 5 (setTwinStatus 1 (roleMark 9 { s1 with
    batches := s1.batches.filter (fun b => !ns.contains b.d.batch)
    array := { s1.array with phase := .idle, running := none, stim := [], halves := [] }
    unload := { s1.unload with due := [], read := [] }
    egress := { s1.egress with phase := .idle, batch := none, waitingUnload := none } }))

/-- An undecided divergence (R366): the batch's records are discarded, every site receives CAUSE 0x000C and no other verdict,
DIVERGE follows the writeback, and a Mirror leaves lockstep. -/
def undecided (n : DWord) (s : State) : State :=
  let s1 := revertRepair (discardLink [n] .f1 (discardLink [n] .f0 s))
  let s2 := modBatch n (fun b => { b with causes := [], windows := [], fails := [], lost := [] }) s1
  let s3 := agree n [2] (roleMark 0xA (indetAll n 0xC s2))
  if s.twin.role = .mirror then leaveLockstep 5 s3 else s3

/-- Both members re-run the batch (R365). -/
def rerunBoth (b : Batch) (mine peer : QWord) (s : State) : State :=
  let s1 := modBatch b.d.batch (fun b => { b with digestFirst := some (mine, peer) }) s
  beginRerun b.d.batch (roleMark 9 s1)

/-- Digests that agree (R361, R365): after a divergence the member whose first run differed has lost that run. -/
def digestsAgree (b : Batch) (mine : QWord) (s : State) : State :=
  match b.digestFirst with
  | none => agree b.d.batch [] s
  | some (m, p) => agree b.d.batch (if mine = p && decide (m ≠ p) then [1, 3] else [1]) s

/-- R365, once both digests of a batch are known. -/
def arbitrate (b : Batch) (s : State) : State :=
  match b.digestMine, b.digestPeer with
  | some mine, some peer =>
    let me := s.twin.faultSinceCommit
    let s1 := { s with twin := { s.twin with peerHistory := (b.peerFault :: s.twin.peerHistory).take 256 } }
    if mine = peer then digestsAgree b mine s1
    else if me != b.peerFault then (if me then loseRun b.d.batch s1 else agree b.d.batch [1] (roleMark 9 s1))
    else if b.mode = 1#2 && !b.rerun then rerunBoth b mine peer s1
    else undecided b.d.batch s1
  | _, _ => s

/-- DIGEST_RECEIVE (R361, R365). -/
def takeDigest (n : DWord) (d : QWord) (fault : Bool) (s : State) : State :=
  let s1 := modBatch n (fun b => { b with digestPeer := some d, peerFault := fault }) (noteTseq s)
  match findBatch n s1 with
  | some b => if b.agreed then s1 else arbitrate b s1
  | none => s1

def execDigestReceive (crcOk : Bool) (tseq : Word) (n : DWord) (d : QWord) (fault : Bool) (s : State) :
    Host.Outcome State Fault Refusal :=
  .next (if inOrder crcOk tseq s then takeDigest n d fault s else s)

/-! ### Commit (R304, R307, R361, R375) -/

/-- This member commits only on agreed digests: a Mirror always, a Primary while its twin is in lockstep. -/
def needsDigest (s : State) : Bool :=
  s.twin.role = .mirror || (s.twin.role = .primary && s.twin.tUp && s.twin.peerRole = 3#3)

/-- A member sends the digest of a batch that meets every other condition (R361). -/
def sendDigest (b : Batch) (s : State) : State :=
  let d := digestOf b.d.batch s
  let s1 := modBatch b.d.batch (fun b => { b with digestMine := some d }) s
  let s2 := sendTwin (.digest b.d.batch d s.twin.faultSinceCommit) s1
  match findBatch b.d.batch s2 with
  | some b2 => arbitrate b2 s2
  | none => s2

/-- R396: a member that logs faults in more than 8 of 256 committed batches, whose twin does not, detaches by decision. -/
def retireCheck (s : State) : State :=
  let many (h : List Bool) : Bool := decide (8 < (h.filter (fun x => x)).length)
  if inLockstep s && many s.twin.faultHistory && !many s.twin.peerHistory && !s.twin.peerRetired && !s.twin.detachDue
      && (s.twin.peerRole = 2#3 || s.twin.peerRole = 3#3) && !s.regs.surveyControl.getLsbD 0
      && !s.survey.overrides.getLsbD 6 then
    decideAtBoundary 0xC 0 { s with twin := { s.twin with detachDue := true } }
  else s

/-- What follows a commit on both links: the member's history, a detach, a join. -/
def afterCommit (s : State) : State := putHeld (refreshEndOfTest (serveJoin (detachStep (retireCheck s))))

/-- BATCH_COMMIT: a link's oldest batch, once the conditions of R304 hold. -/
def tryCommit (l : FLink) (b : Batch) (s : State) : State :=
  let both := linkReady l b s && linkReady (otherLink l) b s
  if !linkReady l b s then s
  else if needsDigest s && !b.agreed then
    (if both && b.digestMine.isNone then sendDigest b s else s)
  else if jointly b s && !both then s
  else if rerunDecided b s then beginRerun b.d.batch s
  else afterCommit (commitLink l b s)

def execBatchCommit (l : FLink) (s : State) : Host.Outcome State Fault Refusal :=
  .next (match s.egress.rerunFrom with
    | some n => if patternBoundary s then performRerun n s else s
    | none =>
      match oldestOpen l s with
      | none => s
      | some b => tryCommit l b s)

/-! ### Announcements, handover and joining (R359, R363, R368, R372, R373) -/

/-- BATCH_ANNOUNCE: the Mirror counts the words from its own egress frame number and word index, which are equal to the
Primary's (R359). -/
def execBatchAnnounce (crcOk : Bool) (tseq : Word) (n : DWord) (frame : BitVec 6) (word : Byte) (freeze : Bool)
    (s : State) : Host.Outcome State Fault Refusal :=
  .next (if inOrder crcOk tseq s then
    let now := s.link0.frame * 256 + s.link0.word
    let words := (frame.toNat * 256 + word.toNat + 16384 - now % 16384) % 16384
    let at_ := s.power.fclk + words * (if halfRate .f0 s then 2 else 1)
    let s1 := noteTseq s
    { s1 with twin := { s1.twin with announced := s1.twin.announced ++ [⟨n, at_, freeze⟩] } }
  else s)

/-- HANDOVER (R368). DEDUCED (log entry 131). -/
def execHandover (b : Block) (s : State) : Host.Outcome State Fault Refusal :=
  .next (if twinKind b = 4 && twinAddr b = 1 && inOrder (twinCrcOk b) (twinTseq b) s then
    let s1 := noteTseq s
    { s1 with twin := { s1.twin with handoverSeen := true } }
  else countReserved b s)

/-- A call that the Curator serves by itself; field units serve the others (R537, R542, R544). -/
def curatorServes (code : Nat) : Bool := code = 1 || code = 2 || decide (0x16 ≤ code)

/-- The call in the service queue of a slot with a code. -/
def callOf (slot : Nat) (code : Nat) (s : State) : Option QueuedCall :=
  if coreRuns s.cores.curator && (curatorServes code || fieldAwake s) then
    s.cores.calls.find? (fun c => decide (c.slot = slot) && decide (c.call.toNat = code))
  else none

/-- A call's argument field (R676). -/
def argOf (c : QueuedCall) (i : Nat) : QWord := lget 0 c.args i

/-- A joining member begins its join (R372): it needs T up, agreed capabilities and the token held by its peer. -/
def startJoin (c : QueuedCall) (s : State) : State :=
  if !hasTwin s then reply c resNotPresent [] s
  else if s.twin.role = .outOfLockstep && s.twin.tUp && s.twin.capsAgree && !s.twin.line && !s.twin.token then
    reply c resOk [] (setRole .joining { s with twin := { s.twin with
      joinBatch := some (BitVec.ofNat 32 (argOf c 0).toNat) } })
  else reply c resRefused [] s

/-- TWIN_JOIN: service call twin_join(b). -/
def execTwinJoin (slot : Nat) (s : State) : Host.Outcome State Fault Refusal :=
  .next (match callOf slot 0x000D s with
    | none => s
    | some c => startJoin c s)

/-- One state item at the joining member (R372). -/
def applyItem (i : StateItem) (s : State) : State :=
  match i with
  | .prevRow bpn row words poison =>
    let key := bpn * 128 + row
    { s with array := { s.array with
        prev := (List.range 4).foldl (fun t k => tset 0 t (bpn * 512 + row * 4 + k) (lget 0 words k)) s.array.prev
        prevDev := tdel s.array.prevDev key
        prevValid := nins s.array.prevValid key
        prevPoison := if poison then nins s.array.prevPoison key else ndel s.array.prevPoison key } }
  | .block b stored edge memory =>
    { s with fabric := { s.fabric with
        stored := lset s.fabric.stored b stored
        edge := lset s.fabric.edge b edge
        frames := if memMode b s then tset 0 s.fabric.frames (48 * b) memory else s.fabric.frames } }
  | .vaultWord v a w => putVaultWord v a w s
  | .vaultQueue v count rptr wptr ovf udf =>
    setVault v { vaultState v s with count := count, rptr := rptr, wptr := wptr, ovf := ovf, udf := udf } s
  | .siteCounters x n _ =>
    let l := siteLink x s
    setLedger l { ledger l s with seq := tset 0 (ledger l s).seq x n, seqAtCommit := tset 0 (ledger l s).seqAtCommit x n } s
  | .linkCounter l n => setLedger l { ledger l s with linkSeq := n, linkSeqAtCommit := n } s
  | .tracker t rows cols sparse un inc sus fails batch =>
    let x : Tracker := ⟨rows, cols, sparse, un, inc, sus, fails, batch⟩
    { s with repair := { s.repair with
        working := tset {} s.repair.working t x, committed := tset {} s.repair.committed t x } }
  | .finish _ _ => s

/-- The last item: the skew is measured and the join acknowledged; the member enters lockstep as Mirror (R357, R359, R372). -/
def finishJoin (next : DWord) (s : State) : State :=
  let k := s.twin.joins
  let s1 := { s with
    lastBatch := next - 1
    anyBatch := false
    twin := { s.twin with
      joins := k + 1
      oneWay := Config.freeOneWay k
      skew := Config.freeSkew k
      joinBatch := none } }
  roleMark 7 (setRole .mirror (sendTwin (.control 2) s1))

/-- STATE_BLOCK_RECEIVE (R372): only a joining member applies state. -/
def execStateBlockReceive (crcOk : Bool) (tseq : Word) (item : StateItem) (s : State) : Host.Outcome State Fault Refusal :=
  .next (if inOrder crcOk tseq s then
    let s1 := noteTseq s
    if s.twin.role = .joining then
      match item with
      | .finish next _ => finishJoin next s1
      | .prevRow bpn row words poison => applyItem (.prevRow bpn row words poison) s1
      | .block b stored edge memory => applyItem (.block b stored edge memory) s1
      | .vaultWord v a w => applyItem (.vaultWord v a w) s1
      | .vaultQueue v c r w o u => applyItem (.vaultQueue v c r w o u) s1
      | .siteCounters x n k => applyItem (.siteCounters x n k) s1
      | .linkCounter l n => applyItem (.linkCounter l n) s1
      | .tracker t rows cols sparse un inc sus fails batch =>
        applyItem (.tracker t rows cols sparse un inc sus fails batch) s1
    else s1
  else s)

/-- JOIN_ACK (R372): the Primary begins the join batch in lockstep. -/
def execJoinAck (b : Block) (s : State) : Host.Outcome State Fault Refusal :=
  .next (if twinKind b = 4 && twinAddr b = 2 && inOrder (twinCrcOk b) (twinTseq b) s then
    let s1 := noteTseq s
    if s.twin.joinBatch.isSome && s.twin.role = .primary then
      { s1 with twin := { s1.twin with joinBatch := none, peerRole := 3#3 } }
    else s1
  else countReserved b s)

/-- JOIN_TIMEOUT (R373): 5 ms have passed. -/
def execJoinTimeout (s : State) : Host.Outcome State Fault Refusal := .next (failJoin s)

end Sys2Proof.Machine
end

