-- ==== Sys2Proof/Machine/Links.lean ====
section
/-! DEFINITION. Field links: ingress words, the side channel, training, alignment, suspect windows, lost partners and
re-measurement (R247 to R286, R385, R388 to R390). -/

namespace Sys2Proof.Machine

/-! ### Ingress words (R251 to R256, R278, R280) -/

/-- The side bit of a slot word, or none where exactly one check bit disagrees (R253). -/
def sideBit (w : BitVec 34) : Option Bool :=
  let ch : DWord := w.setWidth 32
  let a := w.getLsbD 33 != oddParity ch
  let b := w.getLsbD 32 != evenParity ch
  if a = b then some a else none

/-- Entries of a list less than `span` before `now`. -/
def recent (span now : Nat) (l : List Nat) : List Nat := l.filter (fun x => decide (now < x + span))

/-- A lane's errors persist (R280). -/
def persists (x : Lane) : Bool := decide (8 ≤ x.errWords.length) || decide (2 ≤ x.errFrames.length)

/-- Persistent errors: LINK_WORD, an event, and the hand-over to the survey unit's decision at the next batch boundary (R280,
R386). -/
def checkPersistent (l : FLink) (i : Nat) (s : State) : State :=
  let x := lane l i s
  if persists x && !x.handed && decide (x.state = .up) then
    let s1 := faultEventFree fcLinkWord (setLane l i { x with handed := true } s)
    settle (putPending { s1 with survey := { s1.survey with
      pending := s1.survey.pending ++ [⟨4, BitVec.ofNat 8 (linkNum l * 32 + i)⟩] } })
  else s

/-- A lane after one more ingress word of its frame (R257, R260). A word with a word-check error shows no side bit; which value
enters the frame CRC is a free value. -/
def frameWord (now : Nat) (w : BitVec 34) (x : Lane) : Lane :=
  let side := (sideBit w).getD (Config.freeSideBit now)
  let crc := crcMsb 16 0x1021 (if x.rxWord = 0 then 0xFFFF else x.rxCrc) (side :: bitsMsb 32 (w.toNat % 2 ^ 32))
  let start := if x.rxWord = 0 then now else x.frameStart
  let y := { x with rxCrc := crc, lastWord := now, wordsSeen := x.wordsSeen + 1 }
  if x.rxWord = 255 then { y with rxWord := 0, prevCrc := some (BitVec.ofNat 16 crc), prevStart := start, frameStart := now + 1 }
  else { y with rxWord := x.rxWord + 1, frameStart := start }

/-- The channel bits of a valid word reach their fabric ports with the qualifier at 1 (R256). -/
def deliverWord (l : FLink) (i : Nat) (ch : DWord) (s : State) : State :=
  let es := (validEntries s.inForce.catalogue).filter (fun e =>
    catLink e.2 = l && catLane e.2 = i && roleIngress (catRole e.2))
  { s with fabric := { s.fabric with
      ingress := es.foldl (fun t e => tset false t (catPort e.2) (ch.getLsbD (catSlot e.2))) s.fabric.ingress
      qualifier := es.foldl (fun t e => tset false t (catPort e.2) true) s.fabric.qualifier } }

/-- A word-check error (R278, R280): HOLD, a window of one cycle, LINK_WORD, the counts. -/
def wordError (l : FLink) (i : Nat) (s : State) : State :=
  let x := lane l i s
  let s1 := holdLane l i (setLane l i { x with
    wordErrors := satInc x.wordErrors
    errWords := recent (2 ^ 20) x.wordsSeen (x.errWords ++ [x.wordsSeen]) } s)
  let s2 := windowOver (ingressSites l i s1) 0 (linkNum l * 32 + i) s.power.fclk (s.power.fclk + 1) s1
  checkPersistent l i (markFault (setFault fcLinkWord s2))

/-- A word on a lane that is up. -/
def takeWord (l : FLink) (i : Nat) (w : BitVec 34) (s : State) : State :=
  let s1 := setLane l i (frameWord s.power.fclk w (lane l i s)) s
  match sideBit w with
  | some _ => deliverWord l i (w.setWidth 32) s1
  | none => wordError l i s1

/-- INGRESS_WORD: a slot word is delivered (R253, R256). -/
def execIngressWord (l : FLink) (i : Nat) (w : BitVec 34) (s : State) : Host.Outcome State Fault Refusal :=
  .next (match (lane l i s).state with
    | .up => takeWord l i w s
    | .lost => holdLane l i s
    | .failed => holdLane l i s
    | _ => s)

/-! ### The side channel (R257 to R261) -/

def qSync (q : QWord) : Bool := fld q 63 56 = 0xD2
def qQuarter (q : QWord) : Nat := fld q 55 54
def qFrame (q : QWord) : Nat := fld q 53 48
def qType (q : QWord) : Nat := fld q 47 44
def qPart (q : QWord) : Nat := fld q 43 42
def qData (q : QWord) : DWord := q.extractLsb' 10 32
def qCrcOk (q : QWord) : Bool := decide (fld q 7 0 = crc8 (bitsMsb 56 (q.toNat / 256)))

/-- The type is permitted from a partner in this quarter (R259). -/
def qPermitted (q : QWord) : Bool :=
  match qType q with
  | 0 => decide (qQuarter q ≠ 0)
  | 1 => decide (qQuarter q = 0)
  | 2 => decide (qQuarter q = 1)
  | 3 => decide (qQuarter q ≠ 0)
  | 4 => decide (qQuarter q ≠ 0)
  | _ => false

/-- A quarter of this message type that a receiver takes. -/
def qIs (t : Nat) (q : QWord) : Bool := qSync q && qCrcOk q && qPermitted q && decide (qType q = t)

/-- The lane listens to its side channel. -/
def laneListens (x : Lane) : Bool := x.state = .up || x.state = .training || x.state = .lost

/-- QUARTER and FRAME advance by one quarter (R261). -/
def advances (x : Lane) (frame quarter : Nat) : Bool :=
  match x.lastQuarter with
  | none => true
  | some (f, k) => decide (frame * 4 + quarter = (f * 4 + k + 1) % 256)

/-- The lane after one quarter with good SYNC and QCRC: lock after 4 consecutive that advance (R261). -/
def goodQuarter (frame quarter : Nat) (x : Lane) : Lane :=
  if advances x frame quarter then
    { x with
      goodQuarters := x.goodQuarters + 1
      badQuarters := 0
      sideLock := x.sideLock || decide (3 ≤ x.goodQuarters)
      lastQuarter := some (frame, quarter) }
  else { x with goodQuarters := 0, badQuarters := x.badQuarters + 1, lastQuarter := some (frame, quarter) }

/-- The lane after one quarter that fails. -/
def badQuarter (x : Lane) : Lane :=
  { x with
    goodQuarters := 0
    badQuarters := x.badQuarters + 1
    lastQuarter := x.lastQuarter.map (fun p => ((p.1 * 4 + p.2 + 1) / 4 % 64, (p.2 + 1) % 4)) }

/-! ### Training steps (R265, R266) -/

/-- A lane enters step 4 at the chosen rate, or step 5 where step 4 is skipped. -/
def enterRate (rate34 : Bool) (x : Lane) : Lane :=
  if rate34 then
    { x with step := 4, wordLock := false, sideLock := false, goodQuarters := 0, badQuarters := 0, lastQuarter := none }
  else { x with step := 5, frameStarts := 0 }

/-- Steps 2 and 4 end with word lock and side-channel lock. -/
def lockAdvance (full rate34 : Bool) (x : Lane) : Lane :=
  if decide (x.state = .training) && x.wordLock && x.sideLock then
    if x.step = 2 then
      (if full then { x with step := 3, descSeen := [], descTwice := [], descDone := false } else enterRate rate34 x)
    else if x.step = 4 then { x with step := 5, frameStarts := 0 }
    else x
  else x

/-- Change a lane of a link and advance its training. -/
def stepLane (l : FLink) (i : Nat) (f : Lane → Lane) (s : State) : State :=
  let k := flink l s
  setLane l i (lockAdvance k.fullDue k.rate34 (f (lane l i s))) s

/-- Descriptor fields (R262). -/
def dChannels (d : Record) : Nat := fld d 87 82
def dRate34 (d : Record) : Bool := d.getLsbD 81
def dRate17 (d : Record) : Bool := d.getLsbD 80
def dPhase (d : Record) : Bool := d.getLsbD 78
def dPlat (half : Bool) (d : Record) : Nat := if half then fld d 63 56 else fld d 71 64
def dPinRef64 (d : Record) : Nat := fld d 55 48 * 64 + fld d 47 42
def dDlyMax (d : Record) : Nat := fld d 41 34
def dRpadMax (d : Record) : Nat := fld d 33 26

/-- The lanes of a link that train. -/
def trainingLanes (l : FLink) (s : State) : List (Nat × Lane) :=
  (((List.range 32).map (fun i => (i, lane l i s))).filter (fun x => decide (x.2.state = .training)))

/-- The descriptors of partners on lanes that a valid entry names (R385). -/
def namedDescriptors (l : FLink) (s : State) : List Record :=
  (trainingLanes l s).filterMap (fun x => if (laneSites l x.1 s).isEmpty then none else x.2.descriptor)

/-- The survey unit's choice (R385). -/
def surveyRate34 (l : FLink) (s : State) : Bool :=
  let ds := namedDescriptors l s
  !fclkHalf s && (ds.all dRate34 || !(decide (policy 1 s = 1) && halfOk l s && ds.all dRate17))

/-- The rate after training step 3 (R284, R384 to R386, R399): 34 Gb/s or not, and the state with its record. -/
def chooseRate (l : FLink) (s : State) : Bool × State :=
  let k := flink l s
  if committedRate l s ≠ 0 then (decide (committedRate l s = 1), s)
  else if overridden 0 s then (hostRate34 l s, s)
  else if k.fallback then (false, s)
  else if surveyHold s then
    (if k.everTrained && !(fclkHalf s && k.rate34) then k.rate34 else hostRate34 l s, withhold 0 s)
  else
    let r := surveyRate34 l s
    (r, decideAtBoundary (if r then 1 else 2) (linkNum l) s)

/-- A lane fails in training and is treated as a lost partner (R265, R278). -/
def failTraining (l : FLink) (i : Nat) (s : State) : State := losePartner l i .failed s

/-- Every training lane has ended step 3: the rate is chosen, and lanes whose partner lacks it fail at step 4. -/
def rateChoice (l : FLink) (s : State) : State :=
  let ts := trainingLanes l s
  if linkState l s = 1 && (flink l s).fullDue && !ts.isEmpty && ts.all (fun x => decide (x.2.step = 3) && x.2.descDone) then
    let r := chooseRate l s
    let s1 := setRate l r.1 r.2
    ts.foldl (fun s x =>
      let ok := match x.2.descriptor with
        | some d => if r.1 then dRate34 d else dRate17 d
        | none => false
      if ok then setLane l x.1 (enterRate r.1 (lane l x.1 s)) s else failTraining l x.1 s) s1
  else s

/-! ### Alignment (R274 to R277) -/

/-- A lane in the alignment: its RT in cycles and s_l in 1/64 cycle. -/
structure AlignLane where
  link : FLink
  i : Nat
  rt : Nat
  s64 : Int
  desc : Record
  deriving DecidableEq, Repr

/-- Half of a number of 1/64 cycles, an exact half rounding up (R274). -/
def halfUp (x : Int) : Int := (x + 1) / 2

/-- R274's quantities for a lane with echo time `e` (in 1/64 cycle). -/
def alignLane (l : FLink) (i e : Nat) (d : Record) (s : State) : AlignLane :=
  let half := halfRate l s
  let w := halfUp ((e : Int) - 320 - 64 * (dPlat half d : Int))
  ⟨l, i, e / 64 + (if half then 6 else 5), w + (dPinRef64 d : Int), d⟩

/-- The largest RT of a list, and the largest s_l rounded up to a whole cycle. -/
def maxRt (ls : List AlignLane) : Nat := ls.foldl (fun m x => max m x.rt) 0
def maxS (ls : List AlignLane) : Int :=
  match ls with
  | [] => 0
  | x :: rest => rest.foldl (fun m y => max m y.s64) x.s64
def wireMax (ls : List AlignLane) : Int := (maxS ls + 63) / 64

/-- Remove the lanes of the largest RT while C is above 255 (R277): the lanes kept and those that fail. -/
def trimLanes : Nat → List AlignLane → List AlignLane × List AlignLane
  | 0, ls => (ls, [])
  | n + 1, ls =>
    if maxRt ls + 1 ≤ 255 then (ls, [])
    else
      let r := trimLanes n (ls.filter (fun x => decide (x.rt ≠ maxRt ls)))
      (r.1, ls.filter (fun x => decide (x.rt = maxRt ls)) ++ r.2)

/-- RPAD_l and D_l of a lane in an alignment (R274). -/
def rpadOf (ls : List AlignLane) (x : AlignLane) : Nat := maxRt ls - x.rt
def delayOf (ls : List AlignLane) (x : AlignLane) : Nat := (64 * wireMax ls - x.s64).toNat

/-- A lane beyond its partner's limits fails (R277). -/
def beyondLimits (ls : List AlignLane) (x : AlignLane) : Bool :=
  decide (dRpadMax x.desc < rpadOf ls x) || decide (dDlyMax x.desc < delayOf ls x / 64)

/-- The lanes of a link that take part: up, or past step 5 of a training, and named by a valid entry. -/
def alignLanes (l : FLink) (s : State) : List AlignLane :=
  (List.range 32).filterMap (fun i =>
    let x := lane l i s
    if (decide (x.state = .up) || (decide (x.state = .training) && decide (6 ≤ x.step))) && !(laneSites l i s).isEmpty then
      x.descriptor.map (fun d => alignLane l i x.echo64 d s)
    else none)

/-- The delay in force for an entry, in 1/64 cycle: the lane's measured one, or under the override of class 2 the staged one
(R271, R384). -/
def delay64Of (e : QWord) (s : State) : Nat :=
  if overridden 2 s then catDelayCyc e * 64 + catDelayPh e
  else (lane (catLink e) (catLane e) s).delay64

/-- The CONFIG messages of a lane (R259): each valid entry's delay, and RPAD. -/
def delayConfigs (l : FLink) (i : Nat) (s : State) : List (Nat × DWord) :=
  ((validEntries s.inForce.catalogue).filter (fun e => catLink e.2 = l && catLane e.2 = i)).map (fun e =>
    let d := delay64Of e.2 s
    (5, BitVec.ofNat 32 (catSlot e.2 * 2 ^ 26 + (d / 64) % 256 * 2 ^ 18 + (d % 64) * 2 ^ 12)))
def rpadConfig (l : FLink) (i : Nat) (s : State) : Nat × DWord :=
  (5, BitVec.ofNat 32 (2 ^ 31 + (lane l i s).rpad * 2 ^ 23))
def applyMsg (n : Nat) : Nat × DWord := (6, BitVec.ofNat 32 (n * 2 ^ 24))

/-- One lane takes its values of an alignment: a lane that is up sends the changed CONFIG messages and APPLY (R390). The result
says whether anything changed. `delays` forces every delay to be sent, for a change of the override of class 2. -/
def alignOne (delays : Bool) (ls : List AlignLane) (x : AlignLane) (r : State × Bool) : State × Bool :=
  let y := lane x.link x.i r.1
  let rp := rpadOf ls x
  let d := delayOf ls x
  let s1 := setLane x.link x.i { y with rpad := rp, delay64 := d } r.1
  let msgs := (if d ≠ y.delay64 || delays then delayConfigs x.link x.i s1 else [])
    ++ (if rp ≠ y.rpad then [rpadConfig x.link x.i s1] else [])
  if msgs.isEmpty then (s1, r.2)
  else if y.state = .up then
    (setLane x.link x.i { lane x.link x.i s1 with
      outMsgs := y.outMsgs ++ msgs ++ [applyMsg msgs.length], configSent := msgs.length, applyFrame := none } s1, true)
  else (s1, true)

/-- Compute and apply the alignment over every up lane of both links (R274, R275, R277): the state and whether anything
changed. -/
def realign (delays : Bool) (s : State) : State × Bool :=
  let all := alignLanes .f0 s ++ alignLanes .f1 s
  if all.isEmpty then (s, false)
  else
    let t := trimLanes all.length all
    let keep := t.1.filter (fun x => !beyondLimits t.1 x)
    let bad := t.2 ++ t.1.filter (beyondLimits t.1)
    let s1 := bad.foldl (fun s x => losePartner x.link x.i .failed s) s
    if t.1.isEmpty then (s1, !bad.isEmpty)
    else
      let c := maxRt t.1 + 1
      let r := keep.foldl (fun r x => alignOne delays t.1 x r) (s1, false)
      ({ r.1 with
          coffset := c
          regs := { r.1.regs with linkStatus := setFld r.1.regs.linkStatus 15 8 c } },
        r.2 || decide (c ≠ s.coffset) || !bad.isEmpty)

/-- The record of an alignment applied at a boundary (R397, code 0x06). -/
def alignAndLog (delays : Bool) (s : State) : State :=
  let r := realign delays s
  if r.2 then decideAtBoundary 6 r.1.coffset r.1 else r.1

/-- Every training lane has ended step 5: the alignment, then CONFIG for every entry with RPAD and APPLY on each lane (R265
step 6, R266, R390). A retained training keeps the retained echo times while each stays within 16/64 cycle. -/
def configStep (l : FLink) (s : State) : State :=
  let ts := trainingLanes l s
  if linkState l s = 1 && !ts.isEmpty && ts.all (fun x => decide (x.2.step = 6)) then
    let moved := (flink l s).fullDue || ts.any (fun x =>
      decide (x.2.echo64 + 16 ≤ x.2.echoNew) || decide (x.2.echoNew + 16 ≤ x.2.echo64))
    let s1 := if moved then ts.foldl (fun s x =>
      setLane l x.1 { lane l x.1 s with echo64 := x.2.echoNew } s) s else s
    let s2 := alignAndLog false s1
    (trainingLanes l s2).foldl (fun s x =>
      setLane l x.1 { lane l x.1 s with step := 7, configSent := (delayConfigs l x.1 s).length + 1 } s) s2
  else s

/-- The link's training after one of its lanes has moved on or failed. -/
def trainAdvance (l : FLink) (s : State) : State := configStep l (rateChoice l s)

/-! ### Starting and ending training -/

/-- The lane mask in force (R640). -/
def laneEnabled (l : FLink) (i : Nat) (s : State) : Bool :=
  match l with | .f0 => s.inForce.laneEnF0.getLsbD i | .f1 => s.inForce.laneEnF1.getLsbD i

/-- A lane as training begins: step 1, or step 2 from retained settings (R265, R266). -/
def startLane (full fresh enabled : Bool) (x : Lane) : Lane :=
  if !enabled then { x with state := .disabled, step := 0, wordLock := false, sideLock := false, suspectFrom := none }
  else if x.failedByDecision then { x with state := .failed, suspectFrom := none }
  else
    { x with
      state := .training
      step := if full then 1 else 2
      wordLock := false
      sideLock := false
      goodQuarters := 0
      badQuarters := 0
      lastQuarter := none
      descDone := false
      descSeen := []
      descTwice := []
      descriptor := if fresh then none else x.descriptor
      frameStarts := 0
      outMsgs := []
      applyLeft := 0
      applyFrame := none
      alarm := false
      stopRetry := false
      rejoinDue := false
      handed := false
      suspectFrom := none }

/-- A link begins to train: drift windows end here (R276), the slots of its lanes hold. DEDUCED (log entry 115). -/
def beginTraining (l : FLink) (s0 : State) : State :=
  let s := linkDrift l s0
  let k := flink l s
  let full := k.fullDue || k.lanes.any (fun x => x.descriptor.isNone || decide (x.state = .failed) || decide (x.state = .absent))
  let lanes := (List.range 32).map (fun i => startLane full (!k.everTrained) (laneEnabled l i s) (lget {} k.lanes i))
  let s1 := setFlink l { k with lanes := lanes, fullDue := full, remeasureDue := false, measured := false } s
  let s2 := (List.range 32).foldl (fun s i => holdLane l i s) s1
  putLinkState l 1 { s2 with survey := { s2.survey with measuring := s2.link0.remeasureDue || s2.link1.remeasureDue } }

/-- LINK_TRAIN: a training that is due begins at the batch boundary (R264). -/
def execLinkTrain (l : FLink) (s : State) : Host.Outcome State Fault Refusal :=
  .next (let s0 := settle s
    if atBoundary s0 && linkNamed l s0 && (flink l s0).retrainDue && linkState l s0 ≠ 1 && loaded s0 && armed s0
        && !ioDisabled s0 then beginTraining l s0
    else s0)

/-- The sensor of a link's serial-lane group (R380, R388). -/
def linkTemp (l : FLink) (s : State) : Int := lget 0 s.survey.sensors (12 + linkNum l)

/-- The link is up: its lanes deliver, its frames start at 0 (R265). -/
def linkUp (l : FLink) (s : State) : State :=
  let now := s.power.fclk
  let up (x : Lane) : Lane :=
    if x.state = .training then
      { x with
        state := .up
        step := 0
        rxWord := 0
        prevCrc := none
        frameStart := now
        checkedTo := now
        statusTo := now
        egPrevCrc := none
        errWords := []
        errFrames := [] }
    else x
  let k := flink l s
  let s1 := setFlink l { k with
    lanes := k.lanes.map up
    retrainDue := false
    fullDue := false
    everTrained := true
    frame := 0
    word := 0
    egStart := now
    secondOfPair := false
    tempAtEcho := linkTemp l s } s
  refreshLinkState l (putLinkState l 2 s1)

/-- LINK_UP: every enabled lane has ended step 6 or failed (R265). -/
def execLinkUp (l : FLink) (s : State) : Host.Outcome State Fault Refusal :=
  .next (if linkState l s = 1 && (trainingLanes l s).all (fun x => decide (x.2.step = 8)) then linkUp l s else s)

/-- TRAINING_STEP_TIMEOUT: no load at step 1 leaves the lane absent, a failed lane if an entry names it (R382); a later limit fails
the lane (R265). -/
def trainingTimeout (l : FLink) (i : Nat) (s : State) : State :=
  let x := lane l i s
  if x.step = 1 then
    (if (laneSites l i s).isEmpty then setLane l i { x with state := .absent } s else losePartner l i .absent s)
  else failTraining l i s

def execTrainingStepTimeout (l : FLink) (i : Nat) (s : State) : Host.Outcome State Fault Refusal :=
  .next (if (lane l i s).state = .training && decide ((lane l i s).step < 8) then trainAdvance l (trainingTimeout l i s) else s)

/-- Word lock on a lane of T: with all eight, T is up (R351, R377), and an enabled twin negotiates (R354).
DESIGN CHOICE (log entry 133). -/
def twinWordLock (i : Nat) (s : State) : State :=
  let locked := nins s.twin.lanesLocked i
  let s1 := { s with twin := { s.twin with lanesLocked := locked } }
  if locked.length = 8 && !s.twin.tUp then
    let s2 := putTwinBit 10 true { s1 with twin := { s1.twin with tUp := true } }
    if s2.twin.role = .solo then negotiate s2 else s2
  else s1

/-- WORD_LOCK: a receiver achieves word lock in training (R265, R267). -/
def execWordLock (a : AnyLane) (s : State) : Host.Outcome State Fault Refusal :=
  .next (match a with
    | .fieldLane l i =>
      let x := lane l i s
      if x.state = .training then
        trainAdvance l (stepLane l i (fun x => { x with wordLock := true, step := if x.step = 1 then 2 else x.step }) s)
      else if x.state = .lost then setLane l i { x with wordLock := true } s
      else s
    | .meshLane m i =>
      if hasMesh s && armed s && decide (i < 12) then
        (match m with
          | .m0 => { s with array := { s.array with meshLock0 := nins s.array.meshLock0 i } }
          | .m1 => { s with array := { s.array with meshLock1 := nins s.array.meshLock1 i } })
      else s
    | .twinLane i => if hasTwin s && armed s && decide (i < 8) then twinWordLock i s else s)

/-- TRAIN: the partner announces its training step (R259, R265). -/
def execTrain (l : FLink) (i : Nat) (q : QWord) (s : State) : Host.Outcome State Fault Refusal :=
  .next (if qIs 3 q && laneListens (lane l i s) then
      trainAdvance l (stepLane l i (fun x => { goodQuarter (qFrame q) (qQuarter q) x with
        partnerStep := fld (qData q) 31 28 }) s)
    else s)

/-- A part of the Partner Descriptor arrives (R262, R265 step 3): received twice identically, it counts. -/
def descPart (p : Nat) (d : DWord) (x : Lane) : Lane :=
  if x.descSeen.contains (p, d) then { x with descTwice := nins x.descTwice p }
  else { x with
    descSeen := x.descSeen.filter (fun e => e.1 ≠ p) ++ [(p, d)]
    descTwice := ndel x.descTwice p }

/-- The descriptor that four parts spell, part 0 carrying bits [127:96]. -/
def descOf (x : Lane) : Record :=
  let part (p : Nat) : DWord := ((x.descSeen.find? (fun e => e.1 = p)).map (·.2)).getD 0
  part 0 ++ part 1 ++ part 2 ++ part 3

/-- All four parts are complete: step 3 ends, or the lane fails on CHANNELS = 0 (R262) or on a descriptor that differs from the
one the Catalogue was checked against, with LINK_TRAIN (R278). -/
def endDesc (l : FLink) (i : Nat) (s : State) : State :=
  let x := lane l i s
  let d := descOf x
  if dChannels d = 0 then failTraining l i (setLane l i { x with descriptor := some d } s)
  else
    match x.descriptor with
    | some old =>
      if old = d then setLane l i { x with descDone := true } s
      else setFault fcLinkTrain (failTraining l i (setLane l i { x with descriptor := some d } s))
    | none => setLane l i { x with descDone := true, descriptor := some d } s

/-- DESC: a part of the descriptor; with the last lane's descriptor the rate is chosen (R262, R385). DEDUCED (log entry 116). -/
def takeDesc (l : FLink) (i : Nat) (q : QWord) (s : State) : State :=
  let s1 := stepLane l i (goodQuarter (qFrame q) (qQuarter q)) s
  let x := lane l i s1
  if x.state = .training && decide (x.step = 3) && !x.descDone then
    let y := descPart (qPart q) (qData q) x
    let s2 := setLane l i y s1
    if y.descTwice.length = 4 then trainAdvance l (endDesc l i s2) else s2
  else trainAdvance l s1

def execDesc (l : FLink) (i : Nat) (q : QWord) (s : State) : Host.Outcome State Fault Refusal :=
  .next (if qIs 4 q && laneListens (lane l i s) then takeDesc l i q s else s)

/-! ### Frame checks and STATUS (R260, R263, R278, R283) -/

/-- FCLK cycles of a frame of a link (R257). -/
def frameLen (l : FLink) (s : State) : Nat := if halfRate l s then 512 else 256

/-- An ingress frame fails its check (R278): a window over its delivery cycles, LINK_CRC, the counts. -/
def crcFail (l : FLink) (i : Nat) (s : State) : State :=
  let x := lane l i s
  let s1 := setLane l i { x with
    crcErrors := satInc x.crcErrors
    errFrames := recent 4096 x.framesSeen (x.errFrames ++ [x.framesSeen]) } s
  let s2 := windowOver (ingressSites l i s1) 0 (linkNum l * 32 + i) x.prevStart (x.prevStart + frameLen l s) s1
  checkPersistent l i (markFault (setFault fcLinkCrc s2))

/-- Quarter 0 of a frame settles the check of the frame before (R260, R283). -/
def checkFrame (l : FLink) (i : Nat) (ok : Bool) (s : State) : State :=
  let x := lane l i s
  let s1 := setLane l i { x with framesSeen := x.framesSeen + 1, checkedTo := x.frameStart } s
  if ok then s1 else crcFail l i s1

/-- A frame start measured in step 5: after 64, or 16 from retained settings, the echo time stands (R265, R266). -/
def frameStart5 (l : FLink) (i echo64 : Nat) (s : State) : State :=
  let x := lane l i s
  if x.state = .training && decide (x.step = 5) then
    let n := x.frameStarts + 1
    if n < (if (flink l s).fullDue then 64 else 16) then setLane l i { x with frameStarts := n } s
    else trainAdvance l (setLane l i { x with frameStarts := n, echoNew := echo64, step := 6 } s)
  else s

/-- FRAME_CRC (R260, R278, R280). -/
def takeFrameCrc (l : FLink) (i : Nat) (q : QWord) (echo64 : Nat) (s : State) : State :=
  let s1 := stepLane l i (goodQuarter (qFrame q) 0) s
  let x := lane l i s1
  if x.state = .up then
    (match x.prevCrc with
      | none => s1
      | some c => checkFrame l i (decide (fld (qData q) 31 16 = c.toNat)) s1)
  else trainAdvance l (frameStart5 l i echo64 s1)

def execFrameCrc (l : FLink) (i : Nat) (q : QWord) (echo64 : Nat) (s : State) : Host.Outcome State Fault Refusal :=
  .next (if qIs 1 q && laneListens (lane l i s) then takeFrameCrc l i q echo64 s else s)

/-- The first egress cycle of the egress frame of a number, the last such frame begun (R257). -/
def egressFrameStart (l : FLink) (n : Nat) (s : State) : Nat :=
  (flink l s).egStart - ((flink l s).frame + 64 - n) % 64 * frameLen l s

/-- A STATUS on a lane that is up: errors of the egress frame before give a window over its cycles (R278); a wrong count after an
APPLY fails the lane (R390). -/
def statusUp (l : FLink) (i : Nat) (q : QWord) (s : State) : State :=
  let d := qData q
  let a := egressFrameStart l ((qFrame q + 63) % 64) s
  let e := a + frameLen l s
  let x := lane l i s
  let due := decide (x.applyFrame = some (qFrame q)) && decide (x.applyLeft = 0)
  let s1 := setLane l i { x with
    statusTo := max x.statusTo e
    alarm := d.getLsbD 22
    applyFrame := if due then none else x.applyFrame } s
  let s2 := if fld d 31 24 ≠ 0 || d.getLsbD 23 then
    markFault (windowOver (ingressSites l i s1) 1 (linkNum l * 32 + i) a e s1) else s1
  if due && decide (fld d 21 14 ≠ x.configSent) then failTraining l i s2 else s2

/-- A STATUS in step 6: the count sent ends the step (R265). DEDUCED (log entry 117). -/
def statusTraining (l : FLink) (i : Nat) (q : QWord) (s : State) : State :=
  let x := lane l i s
  let d := qData q
  setLane l i { x with
    alarm := d.getLsbD 22
    step := if decide (x.step = 7) && decide (fld d 21 14 = x.configSent) then 8 else x.step } s

def takeStatus (l : FLink) (i : Nat) (q : QWord) (s : State) : State :=
  let s1 := stepLane l i (goodQuarter (qFrame q) 1) s
  match (lane l i s1).state with
  | .up => statusUp l i q s1
  | .training => trainAdvance l (statusTraining l i q s1)
  | _ => setLane l i { lane l i s1 with alarm := (qData q).getLsbD 22 } s1

/-- STATUS (R278). -/
def execStatus (l : FLink) (i : Nat) (q : QWord) (s : State) : Host.Outcome State Fault Refusal :=
  .next (if qIs 2 q && laneListens (lane l i s) then takeStatus l i q s else s)

/-- QUARTER_LOST: a quarter that fails its QCRC, or one discarded for its type; a lost quarter 0 marks the frame before as failed
(R259, R261, R278). -/
def quarterLost (l : FLink) (i quarter : Nat) (crcOk : Bool) (s : State) : State :=
  let x := lane l i s
  let y := { x with quarterErrors := satInc x.quarterErrors }
  let s1 := setLane l i (if crcOk then
    goodQuarter ((x.lastQuarter.map (·.1)).getD 0 + (if quarter = 0 then 1 else 0)) quarter y else badQuarter y) s
  if quarter = 0 && decide (x.state = .up) && x.prevCrc.isSome then checkFrame l i false s1 else s1

def execQuarterLost (l : FLink) (i quarter : Nat) (crcOk : Bool) (s : State) : Host.Outcome State Fault Refusal :=
  .next (if laneListens (lane l i s) then quarterLost l i quarter crcOk s else s)

/-- SIDE_CHANNEL_LOCK_LOSS: 4 consecutive quarters have failed (R261). -/
def execSideChannelLockLoss (l : FLink) (i : Nat) (s : State) : Host.Outcome State Fault Refusal :=
  .next (let x := lane l i s
    if 4 ≤ x.badQuarters && x.sideLock then setLane l i { x with sideLock := false } s else s)

/-! ### Lost partners (R281, R282) -/

/-- PARTNER_LOST: no word lock for 64 cycles, no side-channel lock, or ALARM (R281). -/
def execPartnerLost (l : FLink) (i : Nat) (s : State) : Host.Outcome State Fault Refusal :=
  .next (if (lane l i s).state = .up then holdLane l i (losePartner l i .lost (driftWindows l i s)) else s)

/-- C with a lane's echo time among the up lanes (R282). -/
def offsetWith (l : FLink) (i echo64 : Nat) (s : State) : Nat :=
  let x := lane l i s
  let mine := match x.descriptor with
    | some d => if (laneSites l i s).isEmpty then [] else [alignLane l i echo64 d s]
    | none => []
  maxRt (alignLanes .f0 s ++ alignLanes .f1 s ++ mine) + 1

/-- PARTNER_RETRY: an attempt fails, or succeeds with the echo time measured (R282). -/
def retryLane (l : FLink) (i : Nat) (e : Option Nat) (s : State) : State :=
  let x := lane l i s
  match e with
  | none => s
  | some n =>
    if x.alarm then s
    else if offsetWith l i n s = s.coffset then
      settle { (setLane l i { x with echo64 := n, rejoinDue := true, wordLock := true, sideLock := true } s) with alignDue := true }
    else setLane l i { x with stopRetry := true } s

def execPartnerRetry (l : FLink) (i : Nat) (e : Option Nat) (s : State) : Host.Outcome State Fault Refusal :=
  .next (let x := lane l i s
    if x.state = .lost && !x.stopRetry && !x.rejoinDue && decide (2 ≤ linkState l s) then retryLane l i e s else s)

/-! ### Drift and re-measurement (R276, R388 to R390) -/

/-- A re-measurement falls due on a link (R388), or is withheld (R399). -/
def remeasureDue (l : FLink) (code : Nat) (s : State) : State :=
  let k := flink l s
  if linkState l s < 2 || k.remeasureDue then s
  else if surveyHold s then setFlink l { k with remeasureHeld := some code } (withhold 3 s)
  else
    let s1 := setFlink l { k with remeasureDue := true, remeasureCode := code, remeasureHeld := none } s
    { s1 with
      survey := { s1.survey with measuring := true }
      regs := { s1.regs with surveyStatus := setBit s1.regs.surveyStatus 3 true } }

/-- ARRIVAL_DRIFT (R276): at 16/64 LINK_DRIFT and a re-measurement, at 24/64 the lane is suspect and retrains at the next batch
boundary. -/
def drift (l : FLink) (i : Nat) (d : Int) (s : State) : State :=
  let m := d.natAbs
  if m < 16 then s
  else
    let s1 := setFault fcLinkDrift s
    let s2 := if overridden 3 s then s1 else remeasureDue l 8 s1
    if m < 24 then s2
    else
      let x := lane l i s2
      retrainLink l false (markFault (setLane l i { x with suspectFrom := some (x.suspectFrom.getD s.power.fclk) } s2))

def execArrivalDrift (l : FLink) (i : Nat) (d : Int) (s : State) : Host.Outcome State Fault Refusal :=
  .next (if (lane l i s).state = .up then drift l i d s else s)

/-- REMEASUREMENT_DONE: new echo times for the up lanes; they apply at the next batch boundary (R389, R390). -/
def remeasured (l : FLink) (es : List (Nat × Nat)) (s : State) : State :=
  let k := flink l s
  let lanes := (List.range 32).map (fun i =>
    let x := lget {} k.lanes i
    match es.find? (fun e => e.1 = i) with
    | some e => if x.state = .up then { x with echo64 := e.2 } else x
    | none => x)
  let s1 := setFlink l { k with lanes := lanes, remeasureDue := false, measured := true, tempAtEcho := linkTemp l s } s
  let busy := s1.link0.remeasureDue || s1.link1.remeasureDue
  { s1 with
    alignDue := true
    survey := { s1.survey with measuring := busy }
    regs := { s1.regs with surveyStatus := setBit s1.regs.surveyStatus 3 busy } }

def execRemeasurementDone (l : FLink) (es : List (Nat × Nat)) (s : State) : Host.Outcome State Fault Refusal :=
  .next (if (flink l s).remeasureDue && decide (2 ≤ linkState l s) then remeasured l es s else s)

/-- A re-measurement applied at the boundary leaves its record (R397). -/
def logMeasured (l : FLink) (s : State) : State :=
  let k := flink l s
  if k.measured then decideAtBoundary k.remeasureCode (linkNum l) (setFlink l { k with measured := false } s) else s

/-- ALIGNMENT_APPLY: at the boundary the alignment is computed and its changed CONFIG and APPLY go out; the next batch waits for the
frame in which the partners apply them (R390). -/
def execAlignmentApply (s : State) : Host.Outcome State Fault Refusal :=
  .next (let s0 := settle s
    if s0.alignDue && atBoundary s0 && linkState .f0 s0 ≠ 1 && linkState .f1 s0 ≠ 1 then
      alignAndLog s0.delaysDue (logMeasured .f1 (logMeasured .f0 { s0 with alignDue := false, delaysDue := false }))
    else s0)

/-! ### The register commands (R264, R388) -/

/-- A write of 1 to a RETRAIN bit: lanes failed by decision and a fallback end, retries may start again (R264, R282, R386). -/
def requestRetrain (l : FLink) (s : State) : State :=
  if !linkNamed l s then s
  else
    let k := flink l s
    retrainLink l k.fallback (setFlink l { k with
      fallback := false
      lanes := k.lanes.map (fun x => { x with failedByDecision := false, stopRetry := false }) } s)

/-- RETRAIN. -/
def execRetrain (m : Master) (l : FLink) (s : State) : Host.Outcome State Fault Refusal :=
  .next (fieldCommand m 0x24 (s.shadow.linkRates.setWidth 16 ||| (if l = .f0 then 0x40 else 0x80)) (requestRetrain l) s)

/-- REMEASURE: a re-measurement falls due on both field links (R388). DEDUCED (log entry 122). -/
def requestRemeasure (s : State) : State := remeasureDue .f1 8 (remeasureDue .f0 8 s)
def execRemeasure (m : Master) (s : State) : Host.Outcome State Fault Refusal :=
  .next (fieldCommand m 0x2E (s.regs.surveyControl ||| 2) requestRemeasure s)

end Sys2Proof.Machine
end

