-- ==== Sys2Proof/Machine/Survey.lean ====
section
/-! DEFINITION. The survey unit: samples, the scrub rate, throttling and Gallery power-up (R379 to R402). -/

namespace Sys2Proof.Machine

/-! ### Samples (R379, R380) -/

/-- VDD_F sags by SAG_WARN or more below 0.75 V (R383, R394). -/
def sagging (s : State) : Bool := decide (lget 0 s.survey.rails 0 + policy 9 s ≤ 750)

/-- A sensor of 0 to 11 is at or above TEMP_LIMIT. -/
def isHot (s : State) : Bool :=
  (List.range 12).any (fun i => decide ((4 * policy 10 s : Int) ≤ lget 0 s.survey.sensors i))

/-- The sag and heat conditions after a sample; of the two, the one found first names the cause (R401, R402). -/
def noteConditions (s : State) : State :=
  let sg := sagging s
  let ht := isHot s
  let first := if s.survey.sag || s.survey.hot then s.survey.hotFirst && ht || (ht && !sg) else ht && !sg
  let s1 := { s with survey := { s.survey with sag := sg, hot := ht, hotFirst := first } }
  let s2 := if sg then setSurveyStatus 1 s1 else s1
  if ht then setSurveyStatus 2 s2 else s2

/-- Sensor 12 or 13 has moved by DRIFT_TEMP or more since its link's last echo measurement (R388). -/
def checkDriftTemp (l : FLink) (s : State) : State :=
  let d := policy 3 s
  if d ≠ 0 && decide (d ≤ (linkTemp l s - (flink l s).tempAtEcho).natAbs) && !overridden 3 s && !(flink l s).retrainDue then
    remeasureDue l 7 s
  else s

/-- The field survey unit measures: it is powered and above Dormant. -/
def surveyRuns (s : State) : Bool := fieldAwake s

/-- One reading arrives. Host-die rails and sensor 15 belong to the host die's own monitor (R379). -/
def sample (p : SurveyPoint) (s : State) : State :=
  match p with
  | .rail i mv =>
    if i < 5 then
      (if surveyRuns s then noteConditions { s with survey := { s.survey with rails := lset s.survey.rails i mv } } else s)
    else { s with survey := { s.survey with hostRails := lset s.survey.hostRails (i - 5) mv } }
  | .sensor i q =>
    if i = 15 then { s with survey := { s.survey with hostSensor := q } }
    else if surveyRuns s then
      let s1 := noteConditions { s with survey := { s.survey with sensors := lset s.survey.sensors i q } }
      if i = 12 then checkDriftTemp .f0 s1 else if i = 13 then checkDriftTemp .f1 s1 else s1
    else s

/-- SURVEY_SAMPLE (R379). -/
def execSurveySample (p : SurveyPoint) (s : State) : Host.Outcome State Fault Refusal := .next (sample p s)

/-- HOST_READING_COPY: every 1 ms the survey unit copies the host-die readings; BUSY leaves the copy, marked stale (R379). -/
def execHostReadingCopy (busy : Bool) (s : State) : Host.Outcome State Fault Refusal :=
  .next (if !surveyRuns s then s
    else if busy then { s with survey := { s.survey with stale := true } }
    else { s with survey := { s.survey with
      rails := s.survey.rails.take 5 ++ s.survey.hostRails
      sensors := lset s.survey.sensors 15 s.survey.hostSensor
      stale := false } })

/-! ### Scrub rate (R392, R393) -/

/-- A decision waits for the next batch boundary (R401). -/
def pend (code arg : Nat) (s : State) : State :=
  putPending { s with survey := { s.survey with
    pending := s.survey.pending ++ [⟨BitVec.ofNat 8 code, BitVec.ofNat 8 arg⟩] } }

/-- The sweep level in force, or the one that waits. -/
def sweepTarget (s : State) : Nat :=
  match s.survey.pending.reverse.find? (fun d => d.code = 9#8) with
  | some d => d.arg.toNat
  | none => fld s.regs.scrubStatus 15 14

/-- The sweep-level part of a 1 s window (R392). -/
def windowSweep (s : State) : State :=
  let v := sweepTarget s
  let quiet := if s.survey.upsets = 0 then s.survey.quietWindows + 1 else 0
  let slow := decide (10 ≤ quiet)
  let s1 := { s with survey := { s.survey with quietWindows := if slow then 0 else quiet } }
  if overridden 5 s then s1
  else if policy 6 s ≤ s.survey.upsets && decide (v < policy 5 s) then pend 9 (v + 1) s1
  else if slow && decide (0 < v) then pend 9 (v - 1) s1
  else s1

/-- The stealing part of a 1 s window (R393): STEAL = 0b01 lets the survey unit decide. -/
def windowSteal (s : State) : State :=
  let low := if 4 * s.survey.arrayCe < policy 8 s then s.survey.lowCeWindows + 1 else 0
  let off := decide (10 ≤ low)
  let s1 := { s with survey := { s.survey with lowCeWindows := if off then 0 else low } }
  if overridden 5 s || fld s.regs.scrubControl 4 3 ≠ 1 then s1
  else if policy 7 s = 1 && policy 8 s ≤ s.survey.arrayCe && !s.survey.stealSwitch then pend 0xA 1 s1
  else if off && s.survey.stealSwitch then pend 0xA 0 s1
  else s1

/-- UPSET_WINDOW: a 1 s window ends. -/
def execUpsetWindow (s : State) : Host.Outcome State Fault Refusal :=
  .next (if surveyRuns s then
      let s1 := windowSteal (windowSweep s)
      settle { s1 with survey := { s1.survey with upsets := 0, arrayCe := 0 } }
    else s)

/-! ### Throttling (R394) -/

/-- The throttle level in force, or the one that waits for the pass boundary. -/
def levelTarget (s : State) : Nat := (s.survey.levelDue.map (·.1)).getD s.survey.level

/-- A throttle decision of the survey unit: withheld under HOLD, not taken under its override. -/
def throttleTo (v : Nat) (s : State) : State :=
  if overridden 7 s then s
  else if surveyHold s then withhold 7 s
  else settleThrottle { s with survey := { s.survey with levelDue := some (v, s.survey.hotFirst) } }

/-- THROTTLE_RAISE: 10 µs of sag or heat (R394). -/
def execThrottleRaise (s : State) : Host.Outcome State Fault Refusal :=
  .next (if (s.survey.sag || s.survey.hot) && decide (levelTarget s < policy 11 s) then throttleTo (levelTarget s + 1) s else s)

/-- THROTTLE_LOWER: 1 ms without either (R394). -/
def execThrottleLower (s : State) : Host.Outcome State Fault Refusal :=
  .next (if !s.survey.sag && !s.survey.hot && decide (0 < levelTarget s) then throttleTo (levelTarget s - 1) s else s)

/-! ### Gallery power-up (R391) -/

/-- The size of a power-up group for `n` Galleries: WAKE_GROUP, or an eighth of them if more; all of them under the override of
class 4, and while HOLD withholds the decision (R384, R399). DEDUCED (log entry 119). -/
def groupSize (n : Nat) (s : State) : Nat :=
  if overridden 4 s || surveyHold s then n else max (policy 4 s) (ceilDiv n 8)

/-- The first group of a power-up takes the decision and leaves its record (R397). -/
def beginPowerUp (s : State) : State :=
  let n := s.array.toPower.length
  let k := groupSize n s
  let s1 := { s with array := { s.array with powerGroup := k } }
  if overridden 4 s then s1 else if surveyHold s then withhold 4 s1 else decideAtBoundary 0xD (ceilDiv n k) s1

/-- Power one group, in ascending Gallery order. -/
def powerGroup (s : State) : State :=
  let now := s.array.toPower.take s.array.powerGroup
  let rest := s.array.toPower.drop s.array.powerGroup
  { s with array := { s.array with
      galleries := now.foldl (fun t g => tset {} t g { tget {} t g with powered := true }) s.array.galleries
      toPower := rest
      powerGroup := if rest.isEmpty then 0 else s.array.powerGroup } }

/-- GALLERY_POWER_UP: one group, every 250 ns. -/
def execGalleryPowerUp (s : State) : Host.Outcome State Fault Refusal :=
  .next (if s.array.toPower.isEmpty then s
    else powerGroup (if s.array.powerGroup = 0 then beginPowerUp s else s))

end Sys2Proof.Machine
end

