-- ==== Sys2Proof/Machine/Schedule.lean ====
section
/-! DEFINITION. The checks of a schedule that the loader and each line repair apply (R85, R112, R129, R671), and the repair CRCs
(R455). -/

namespace Sys2Proof.Machine

/-- A fetched, legal instruction of the loaded schedule: its BP, its index and its fields (R671). -/
structure Sched where
  bpn : Nat
  i : Nat
  x : BpInstr
  deriving DecidableEq, Repr

/-- The instructions that the checks take into account: below their BP's first END, and legal (R671). -/
def schedule (s : State) : List Sched :=
  s.array.instr.filterMap (fun e =>
    let bpn := e.1 / 512
    let i := e.1 % 512
    let x := decodeBp (instrDecode bpn i s).2
    if decide (i < bpLength bpn s) && bpLegal x then some ⟨bpn, i, x⟩ else none)

/-- No key occurs twice. -/
def distinct (ks : List (Nat × Nat × Nat)) : Bool := decide (ks.eraseDups.length = ks.length)

/-- The send port of a SEND, the slot of a MESH_SEND, the stimulus port of a STIM. -/
def sendPort (x : BpInstr) : Nat := x.tt.toNat % 8
def meshSlot (x : BpInstr) : Nat := x.tt.toNat % 16
def stimPortOf (x : BpInstr) : Nat := x.a.toNat - 0x620

/-- The instructions of an opcode, keyed by Gallery, step and a number. -/
def opKeys (op : BpOp) (f : BpInstr → Nat) (l : List Sched) : List (Nat × Nat × Nat) :=
  (l.filter (fun e => e.x.op = op)).map (fun e => (e.bpn / 256, e.i, f e.x))

/-- R85: no two BPs of a Gallery use one send port, mesh send slot or stimulus port at the same step. -/
def portsOk (l : List Sched) : Bool :=
  distinct (opKeys .send sendPort l) && distinct (opKeys .meshSend meshSlot l) && distinct (opKeys .stim stimPortOf l)

/-- The schedule length over Galleries whose image is placed: the largest length of any BP (R63, R645). -/
def imageLength (s : State) : Nat := (s.array.instr.map (fun e => e.1 / 512)).eraseDups.foldl (fun m b => max m (bpLength b s)) 0

/-- The valid route entries of the device: Gallery, row, entry word. -/
def validRoutes (s : State) : List (Nat × Nat × Word) :=
  (s.array.routes.map (fun e => (e.1 / 4096, e.1 / 8 % 512, routeEntry (e.1 / 4096) (e.1 / 8 % 512) (e.1 % 8) s))).filter
    (fun r => routeValid r.2.2)

/-- R112: every SEND has a valid route entry and delivers inside the pass, and no two route entries deliver to one receive port at
the same step. -/
def routesOk (len : Nat) (l : List Sched) (s : State) : Bool :=
  (l.filter (fun e => e.x.op = .send)).all (fun e =>
    routeValid (routeEntry (e.bpn / 256) e.i (sendPort e.x) s) && decide (e.i + 7 ≤ len))
    && distinct ((validRoutes s).map (fun r => (routeGallery r.2.2, routePort r.2.2, r.2.1)))

/-- R129: mesh sends name a link, end 81 steps before the pass does and never share a slot; receive entries name a link only from
step 80 and within the pass, and hold no reserved value. -/
def meshOk (len : Nat) (l : List Sched) (s : State) : Bool :=
  let sends := l.filter (fun e => e.x.op = .meshSend)
  sends.all (fun e => decide (meshSendEntry e.i (meshSlot e.x) s ≠ 0) && decide (e.i + 81 ≤ len))
    && distinct (sends.map (fun e => (0, e.i, meshSlot e.x)))
    && s.array.meshRecvTab.all (fun r => (List.range 12).all (fun t =>
      let v := meshRecvEntry r.1 t s
      decide (v = 0) || (decide (v ≠ 3) && decide (80 ≤ r.1) && decide (r.1 < len))))

/-- The three checks together. -/
def scheduleOk (len : Nat) (s : State) : Bool :=
  let l := schedule s
  portsOk l && routesOk len l s && meshOk len l s

/-! ### Repair CRCs (R455) -/

/-- The codewords of a BP's instruction store, of a Gallery's route table and of the mesh tables, as read corrected. -/
def instrWords (bpn : Nat) (s : State) : List QWord := (List.range 512).map (fun i => (instrDecode bpn i s).2)
def routeWords (g : Nat) (s : State) : List QWord := (List.range 1024).map (fun k => (routeDecode (1024 * g + k) s).2)
def meshWords (s : State) : List QWord := (List.range 512).map (fun i => (meshDecode i s).2)

/-- The repair CRC of codewords in ascending order, each most significant byte first. -/
def repairCrc (ws : List QWord) : Nat := crc32c (ws.flatMap (fun w => bytesOf 8 w.toNat))

/-- Where the stored repair CRC of a poisoned codeword's store stands. -/
def repairCrcAddr (g bp row : Nat) : Nat :=
  if g = 0xFF then 0xFA0100 else if 0x200 ≤ row then 0xFA0000 + 4 * g else 0xF90000 + 4 * bpNum g bp

/-- The words of that store, and the place of the codeword in it. -/
def repairWords (g bp row : Nat) (s : State) : List QWord × Nat :=
  if g = 0xFF then (meshWords s, row)
  else if 0x200 ≤ row then (routeWords g s, row - 0x200)
  else (instrWords (bpNum g bp) s, row)

end Sys2Proof.Machine
end

