-- ==== Sys2Proof/Machine/Protection.lean ====
section
/-! DEFINITION. Error protection: the array patrol, line repair, the Conservator and its signatures, and checker test mode (R452 to
R490). -/

namespace Sys2Proof.Machine

/-! ### Array patrol (R468 to R473) -/

/-- A Gallery is powered. -/
def galleryPowered (g : Nat) (s : State) : Bool := (gallery g s).powered

/-- The bits of a state row of BP `bpn`: the Correction Log location keeps Gallery and BP (R463). -/
def codeLocation (bpn i : Nat) : Nat := bpn * 2 ^ 18 + i * 2 ^ 9

/-- One instruction codeword with deviating check bits (R471, R473). -/
def patrolInstr (key : Nat) (s : State) : State :=
  let bpn := key / 512
  let i := key % 512
  let r := instrDecode bpn i s
  match r.1 with
  | .clean => s
  | .uncorrectable =>
    let s1 := countError stInstr 3 (codeLocation bpn i) 0 s
    let s2 := setScrubStatus 0 { s1 with array := { s1.array with instrPoison := nins s1.array.instrPoison key } }
    awaitRepair (bpn / 256) (bpn % 256) i s2
  | c =>
    countError stInstr (classCode c) (codeLocation bpn i) 0 { s with array := { s.array with
      instr := tset endWord s.array.instr key r.2, instrDev := tdel s.array.instrDev key } }

/-- Every batch committed since the last check of a row receives a revision of REASON 0x03 for every site (R472, R310). -/
def revisePatrol (seen : Nat) (s : State) : State :=
  (s.history.drop seen).foldl (fun s c =>
    revise c.batch 3 (c.verdicts.map (·.1)) (fun x => ((c.verdicts.find? (fun v => v.1 = x)).map (·.2)).getD 0) s) s

/-- One valid state row with deviating check bits (R471, R472). DEDUCED (log entry 120). -/
def patrolRow (prev : Bool) (seen row : Nat) (s : State) : State :=
  let r := rowDecode prev row s
  match r.1 with
  | .clean => s
  | .uncorrectable =>
    revisePatrol seen (indetNow 6 (poisonRow prev row (countError (rowStore prev) 3 (rowLocation row) 0 s)))
  | c => putRow prev row r.2 (countError (rowStore prev) (classCode c) (rowLocation row) 0 s)

/-- One route-table codeword. -/
def patrolRoute (half : Nat) (s : State) : State :=
  let g := half / 1024
  let loc := g * 2 ^ 26 + (half / 2 % 512) * 2 ^ 9 + (half % 2) * 2 ^ 8
  let r := routeDecode half s
  match r.1 with
  | .clean => s
  | .uncorrectable =>
    let s1 := countError stRoute 3 loc 0 s
    let s2 := setScrubStatus 0 { s1 with array := { s1.array with routePoison := nins s1.array.routePoison half } }
    awaitRepair g 0 (0x200 + half % 1024) s2
  | c =>
    countError stRoute (classCode c) loc 0 { s with array := { s.array with
      routes := (List.range 4).foldl (fun t k => tset 0 t (4 * half + k) (wordOfRow r.2 k)) s.array.routes
      routeDev := tdel s.array.routeDev half } }

/-- Store a mesh-table codeword. -/
def putMesh (i : Nat) (d : QWord) (s : State) : State :=
  { s with array := { s.array with
      meshSendTab := tset 0 s.array.meshSendTab i (d.extractLsb' 32 24)
      meshRecvTab := tset 0 s.array.meshRecvTab i (d.extractLsb' 0 24)
      meshDev := tdel s.array.meshDev i } }

/-- One mesh-table codeword. -/
def patrolMesh (i : Nat) (s : State) : State :=
  let r := meshDecode i s
  match r.1 with
  | .clean => s
  | .uncorrectable =>
    let s1 := countError stMesh 3 (i * 2 ^ 9) 0 s
    let s2 := setScrubStatus 0 { s1 with array := { s1.array with meshPoison := nins s1.array.meshPoison i } }
    awaitRepair 0xFF 0 i s2
  | c => putMesh i r.2 (countError stMesh (classCode c) (i * 2 ^ 9) 0 s)

/-- The keys of a deviation table whose part below `m` is `k` and whose Gallery is powered. -/
def patrolKeys (t : Table (BitVec 15)) (m perGallery k : Nat) (s : State) : List Nat :=
  (t.filter (fun e => e.1 % m = k && galleryPowered (e.1 / perGallery) s)).map (·.1)

/-- The rows of patrol cycle `k`: previous bank or not, and the row of each BP. -/
def patrolRows (k : Nat) (s : State) : State :=
  if k < 512 || 768 ≤ k then s
  else
    let prev := decide (640 ≤ k)
    let row := if prev then k - 640 else k - 512
    let keys := (patrolKeys (bankDev prev s) 128 (128 * 256) row s).filter (fun r => (bankValid prev s).contains r)
    let s1 := keys.foldl (fun s r => patrolRow prev (tget 0 s.array.patrolLast (r / 32768 * 1024 + k)) r s) s
    let gs := (List.range (galleryCount s)).filter (fun g => galleryPowered g s)
    { s1 with array := { s1.array with
        patrolLast := gs.foldl (fun t g => tset 0 t (g * 1024 + k) s.history.length) s1.array.patrolLast } }

/-- Patrol cycle `k` (R468). -/
def patrolAt (k : Nat) (s : State) : State :=
  let s1 := if k < 512 then (patrolKeys s.array.instrDev 512 (512 * 256) k s).foldl (fun s x => patrolInstr x s) s else s
  let s2 := patrolRows k s1
  let s3 := (patrolKeys s2.array.routeDev 1024 1024 k s2).foldl (fun s x => patrolRoute x s) s2
  if k < 512 then patrolMesh k s3 else s3

/-- PATROL_CYCLE: outside bursts while PATROL = 1, in bursts while stealing is in force (R469). -/
def execPatrolCycle (s : State) : Host.Outcome State Fault Refusal :=
  .next (
    let idle := s.array.running.isNone && s.regs.scrubControl.getLsbD 2
    let steal := s.array.running.isSome && s.regs.scrubStatus.getLsbD 13
    if armed s && loaded s && !s.loader.active && (idle || steal) then
      let s1 := patrolAt s.array.patrolPos s
      { s1 with array := { s1.array with patrolPos := (s.array.patrolPos + 1) % 1024 } }
    else s)

/-! ### Line repair (R474 to R476) -/

/-- The state with a repaired codeword: fresh check bits, no poison. -/
def putRepaired (g bp row : Nat) (d : QWord) (s : State) : State :=
  if g = 0xFF then
    let s1 := putMesh row d s
    { s1 with array := { s1.array with meshPoison := ndel s1.array.meshPoison row } }
  else if 0x200 ≤ row then
    let half := 1024 * g + (row - 0x200)
    { s with array := { s.array with
        routes := (List.range 4).foldl (fun t k => tset 0 t (4 * half + k) (wordOfRow d k)) s.array.routes
        routeDev := tdel s.array.routeDev half
        routePoison := ndel s.array.routePoison half } }
  else
    let key := bpNum g bp * 512 + row
    { s with array := { s.array with
        instr := tset endWord s.array.instr key d
        instrDev := tdel s.array.instrDev key
        instrPoison := ndel s.array.instrPoison key } }

/-- The end of a line repair: with none left the wait ends (R475). -/
def endRepair (g bp row : Nat) (s : State) : State :=
  let left := s.array.awaiting.filter (fun a => a ≠ (g, bp, row))
  let s1 := { s with array := { s.array with awaiting := left, repairHold := s.array.repairHold && !left.isEmpty } }
  putScrubBit 11 (!left.isEmpty) s1

/-- The checks of R475 in their order, and the repair. -/
def lineRepair (c : QueuedCall) (s : State) : State :=
  let g := (argOf c 0).toNat
  let row := (argOf c 2).toNat
  let bp := if g = 0xFF || 0x200 ≤ row then 0 else (argOf c 1).toNat
  let d := argOf c 3
  if s.loader.active then reply c resRefused [] s
  else if !s.array.awaiting.contains (g, bp, row) then reply c resNotWaiting [] s
  else if s.otp.authOnly then reply c resRefused [] s
  else
    let fixed := putRepaired g bp row d s
    if !scheduleOk (schedLength s) fixed then reply c resRefused [] s
    else
      let w := repairWords g bp row fixed
      if repairCrc w.1 ≠ csNat (repairCrcAddr g bp row) 4 s.store then reply c resMismatch [] s
      else reply c resOk [] (endRepair g bp row fixed)

/-- LINE_REPAIR: service call line_repair. -/
def execLineRepair (slot : Nat) (s : State) : Host.Outcome State Fault Refusal :=
  .next (match callOf slot 0x000F s with
    | none => s
    | some c => lineRepair c (popFieldInbox 0x0B s))

/-! ### The Conservator (R477 to R485) -/

/-- Vote three copies of a settings word: the value, and whether a copy was outvoted; none when all differ (R482). -/
def vote {α : Type} [DecidableEq α] (a b c : α) : Option (α × Bool) :=
  if a = b then some (a, decide (c ≠ a))
  else if a = c then some (a, true)
  else if b = c then some (b, true)
  else none

/-- The settings that the Conservator uses, voted word by word, and whether any copy was outvoted. -/
def votedSettings (c : Conservator) : Option (ConsSettings × Bool) :=
  let x := lget {} c.copies 0
  let y := lget {} c.copies 1
  let z := lget {} c.copies 2
  match vote x.sweepLevel y.sweepLevel z.sweepLevel, vote x.frameCount y.frameCount z.frameCount, vote x.skip y.skip z.skip,
      vote x.shadowBase y.shadowBase z.shadowBase, vote x.inventoryBase y.inventoryBase z.inventoryBase,
      vote x.crcBase y.crcBase z.crcBase with
  | some a, some b, some d, some e, some f, some g =>
    some (⟨a.1, b.1, d.1, e.1, f.1, g.1⟩, a.2 || b.2 || d.2 || e.2 || f.2 || g.2)
  | _, _, _, _, _, _ => none

/-- The Conservator stops (R485). -/
def stopConservator (s : State) : State :=
  let lock := inLockstep s
  let s1 := { s with conservator := { s.conservator with running := false, stopDue := !lock } }
  let s2 := faultEventFree fcConservator (setScrubStatus 2 (putScrubBit 12 false s1))
  settle (leaveLockstep 0 s2)

/-- The sweep restarts at frame 0 with Warden's reference settings in all three copies (R485). -/
def restartConservator (s : State) : State :=
  let c := s.conservator
  putScrubBit 12 true { s with
    conservator := { c with
      copies := [c.reference, c.reference, c.reference]
      running := true
      next := 0
      lateRepairs := []
      computed := []
      stopDue := false
      stopHold := c.shadowBroken && c.stopHold }
    regs := { s.regs with scrubStatus := setFld s.regs.scrubStatus 15 14 c.reference.sweepLevel } }

/-- A shadow frame needed for a repair cannot be read (R481). -/
def shadowUe (s : State) : State :=
  let s1 := fieldEventFree evScrub (setScrubStatus 6 { s with conservator := { s.conservator with shadowBroken := true } })
  settle (leaveLockstep 0 s1)

/-- The bits of frame 24 of a block that concern the contended Avenues (R480). -/
def contendedBits (f : Nat) (s : State) : Nat :=
  if f % 48 = 24 then
    s.fabric.contended.foldl (fun m a =>
      match (avenueSquares a).find? (fun x => x.1 = f / 48) with
      | some x => m ||| (0x1FF <<< (1024 - 9 * (x.2 + 1)))
      | none => m) 0
  else 0

/-- The Inventory bits of a frame: an unreadable byte counts as all ones (R478). -/
def inventoryBits (base f : Nat) (st : Store) : Nat :=
  ofBytes ((List.range 128).map (fun k =>
    let a := base + 128 * f + k
    if (csDecode a st).1 = .uncorrectable then 0xFF#8 else csByte a st))

/-- The records of an essential repair of frame `f` whose last check was at `t0` (R479). -/
def repairRecords (f t0 : Nat) (s : State) : State :=
  let sites := blockSites (f / 48) s
  let t1 := s.power.fclk
  let s1 := windowOver sites 4 0 t0 (t1 + 1) s
  let s2 := (s1.history.filter (fun c => c.first ≤ t1 && t0 ≤ c.last)).foldl (fun s c =>
    revise c.batch 1 sites (fun x => ((c.verdicts.find? (fun v => v.1 = x)).map (·.2)).getD 0) s) s1
  faultEvent fcCfgUpset (f % 2 ^ 13) s2

/-- Rewrite a live frame from the shadow; the repair is counted for R392 and is a logged fault (R364). -/
def rewriteFrame (f : Nat) (content : CfgFrame) (essential : Bool) (s : State) : State :=
  let c := s.conservator
  markFault { s with
    fabric := { s.fabric with frames := tset 0 s.fabric.frames f content }
    conservator := { c with
      essential := if essential then satInc c.essential else c.essential
      nonEssential := if essential then c.nonEssential else satInc c.nonEssential }
    survey := { s.survey with upsets := s.survey.upsets + 1 } }

/-- The CRC of a frame (R454). -/
def frameCrcOf (x : CfgFrame) : Nat := crc32c (bytesOf 128 x.toNat)

/-- A frame in error is compared with the shadow (R478, R480, R481). -/
def frameInError (f t0 : Nat) (drivers : Bool) (q : ConsSettings) (live : CfgFrame) (s : State) : State :=
  let a := q.shadowBase + 128 * f
  let s1 := csReadCounts a 128 s
  if csUe a 128 s.store then shadowUe s1
  else
    let shadow : CfgFrame := BitVec.ofNat 1024 (csNat a 128 s.store)
    if live = shadow then
      csWrite (q.crcBase + 4 * f) (bytesOf 4 (frameCrcOf shadow)) { s1 with conservator := { s1.conservator with
        falseMismatch := satInc s1.conservator.falseMismatch } }
    else
      let s2 := csReadCounts (q.inventoryBase + 128 * f) 128 s1
      let excl : CfgFrame := BitVec.ofNat 1024 (if drivers then contendedBits f s else 0)
      let ess := (live ^^^ shadow) &&& BitVec.ofNat 1024 (inventoryBits q.inventoryBase f s.store) &&& ~~~excl
      if ess ≠ 0 then repairRecords f t0 (rewriteFrame f shadow true s2)
      else if drivers then rewriteFrame f shadow false s2
      else { s2 with conservator := { s2.conservator with lateRepairs := nins s2.conservator.lateRepairs f } }

/-- Check one frame (R477): the CRC of its live content against its entry. -/
def checkOne (f : Nat) (drivers : Bool) (q : ConsSettings) (s : State) : State :=
  let t0 := tget s.conservator.loadEnd s.conservator.lastCheck f
  let live := tget 0 s.fabric.frames f
  let s1 := csReadCounts (q.crcBase + 4 * f) 4 s
  let stored := ofBytes ((List.range 4).map (fun k => rawByte (q.crcBase + 4 * f + k) s.store))
  let s2 := if frameCrcOf live = stored then s1 else frameInError f t0 drivers q live s1
  { s2 with conservator := { s2.conservator with
      lastCheck := tput s2.conservator.lastCheck f s.power.fclk
      computed := tput s2.conservator.computed f (BitVec.ofNat 32 (frameCrcOf (tget 0 s2.fabric.frames f))) } }
where
  /-- A byte as delivered, or as stored where it cannot be corrected. -/
  rawByte (a : Nat) (st : Store) : Byte :=
    if (csDecode a st).1 = .uncorrectable then rawGet a st.cs else csByte a st

/-- FRAME_CHECK: the driver frames of a contended Avenue first (R236), else the next frame of the sweep. -/
def frameCheck (q : ConsSettings) (s : State) : State :=
  match s.fabric.driverCheck with
  | f :: rest => checkOne f true q { s with fabric := { s.fabric with driverCheck := rest } }
  | [] =>
    let f := s.conservator.next
    if q.frameCount ≤ f then s
    else
      let s1 := { s with conservator := { s.conservator with next := f + 1 } }
      if q.skip.contains f then s1 else checkOne f false q s1

/-- The Conservator runs: it sweeps while the field side is Armed or Running. -/
def conservatorRuns (s : State) : Bool := s.conservator.running && armed s && !s.loader.active

/-- The settings are voted before every use: an outvoted copy is rewritten, with VOTE and an event; no majority stops the
Conservator (R482). -/
def execFrameCheck (s : State) : Host.Outcome State Fault Refusal :=
  .next (if !conservatorRuns s then s
    else
      match votedSettings s.conservator with
      | none => stopConservator s
      | some (q, outvoted) =>
        let s1 := { s with conservator := { s.conservator with copies := [q, q, q] } }
        frameCheck q (if outvoted then fieldEventFree evScrub (setScrubStatus 3 s1) else s1))

/-- One non-essential repair at the end of the sweep (R478, R481). -/
def lateRepair (q : ConsSettings) (f : Nat) (s : State) : State :=
  let a := q.shadowBase + 128 * f
  let s1 := csReadCounts a 128 s
  if csUe a 128 s.store then shadowUe s1
  else
    let shadow : CfgFrame := BitVec.ofNat 1024 (csNat a 128 s.store)
    if tget 0 s.fabric.frames f = shadow then s1
    else
      let s2 := rewriteFrame f shadow false s1
      { s2 with conservator := { s2.conservator with
          computed := tput s2.conservator.computed f (BitVec.ofNat 32 (frameCrcOf shadow)) } }

/-- The sweep signature: the CRC of the computed CRCs in address order (R483). -/
def signature (t : Table DWord) : DWord := BitVec.ofNat 32 (crc32c (t.flatMap (fun e => bytesOf 4 e.2.toNat)))

/-- The end of a sweep (R478, R483, R484). -/
def sweepEnd (q : ConsSettings) (s : State) : State :=
  let s1 := s.conservator.lateRepairs.foldl (fun s f => lateRepair q f s) s
  let sig := signature s1.conservator.computed
  let s2 := { s1 with conservator := { s1.conservator with
    lateRepairs := [], next := 0, computed := [], lastSignature := some sig } }
  let s3 := if inLockstep s2 then sendTwin (.signature sig) s2 else s2
  if sig = s.conservator.signatureAtLoad then { s3 with conservator := { s3.conservator with mismatches := 0 } }
  else
    let n := s3.conservator.mismatches + 1
    let s4 := fieldEventFree evScrub (setScrubStatus 4 { s3 with conservator := { s3.conservator with mismatches := n } })
    if 2 ≤ n then stopConservator s4 else restartConservator s4

/-- SWEEP_END. -/
def execSweepEnd (s : State) : Host.Outcome State Fault Refusal :=
  .next (if !conservatorRuns s then s
    else
      match votedSettings s.conservator with
      | none => stopConservator s
      | some (q, _) => if q.frameCount ≤ s.conservator.next then sweepEnd q s else s)

/-- A twin's sweep signature that differs from this member's own: TWIN_SIG, and a logged fault of this member where its own
differs from its expected value (R484). -/
def compareSignature (sweep : DWord) (s : State) : State :=
  let own := s.conservator.lastSignature.getD s.conservator.signatureAtLoad
  let s1 := noteTseq { s with twin := { s.twin with peerSig := some sweep } }
  if own = sweep then s1
  else
    let s2 := setTwinSig s1
    if own = s.conservator.signatureAtLoad then s2 else markFault s2
where
  setTwinSig (s : State) : State := setScrubStatus 5 s

/-- SWEEP_SIGNATURE_RECEIVE. -/
def execSweepSignatureReceive (crcOk : Bool) (tseq : Word) (sweep : DWord) (s : State) : Host.Outcome State Fault Refusal :=
  .next (if inOrder crcOk tseq s then compareSignature sweep s else s)

/-- CONSERVATOR_RESTART: a write of 1 to RESTART (R485). -/
def requestRestart (s : State) : State :=
  if loaded s && !s.loader.active then
    restartConservator { s with conservator := { s.conservator with mismatches := 0 } }
  else s
def execConservatorRestart (m : Master) (s : State) : Host.Outcome State Fault Refusal :=
  .next (fieldCommand m 0x2A (s.regs.scrubControl ||| 0x20) requestRestart s)

/-! ### Counters and checker test mode (R467, R486 to R488) -/

/-- COUNT_CLEAR and LOG_CLEAR. -/
def clearCounts (s : State) : State := { s with regs := { s.regs with eccCountCe := 0, eccCountUe := 0 } }
def clearLog (s : State) : State := { s with protection := { s.protection with log := [] } }
def execCountClear (m : Master) (s : State) : Host.Outcome State Fault Refusal :=
  .next (fieldCommand m 0x2A (s.regs.scrubControl ||| 0x80) clearCounts s)
def execLogClear (m : Master) (s : State) : Host.Outcome State Fault Refusal :=
  .next (fieldCommand m 0x2A (s.regs.scrubControl ||| 0x40) clearLog s)

/-- The checker-test unlock (R486). -/
def putUnlock (v : Bool) (s : State) : State :=
  putScrubBit 10 v { s with protection := { s.protection with unlocked := v } }

/-- CHECK_TEST: set only under the unlock; clearing it ends the unlock (R486, R488). -/
def setCheckTest (v : Bool) (s : State) : State :=
  if v then
    (if s.protection.unlocked then { s with regs := { s.regs with scrubControl := setBit s.regs.scrubControl 15 true } } else s)
  else putUnlock false { s with regs := { s.regs with scrubControl := setBit s.regs.scrubControl 15 false } }
def execCheckTest (m : Master) (v : Bool) (s : State) : Host.Outcome State Fault Refusal :=
  .next (setCheckTest v (wrote m 0x2A (setBit s.regs.scrubControl 15 v) s))

/-- SCRUB_UNLOCK: service call scrub_unlock, granted while RUN = 0 and no batch is in progress (R486). -/
def execScrubUnlock (slot : Nat) (s : State) : Host.Outcome State Fault Refusal :=
  .next (match callOf slot 0x0010 s with
    | none => s
    | some c =>
      if !s.regs.batchControl.getLsbD 0 && noBatch s then reply c resOk [] (putUnlock true s) else reply c resRefused [] s)

/-- The key of a local-memory or Mailbox byte in the deviation table. -/
def localKey (core a : Nat) : Nat := core * 0x40000 + a
def mailboxKey (a : Nat) : Nat := 0x100000 + a

/-- Byte `k` of 8 data bytes, and its 5 check bits in 40, first byte first (R14). -/
def byteAt (d : QWord) (k : Nat) : Byte := d.extractLsb' (56 - 8 * k) 8
/-- DEDUCED (log entry 121). -/
def checkAt (c : QWord) (k : Nat) : BitVec 5 := c.extractLsb' (35 - 5 * k) 5

/-- Write stored bits of one granule byte by byte; `f` stores byte `k` with its deviation. -/
def writeGranule (d c : QWord) (f : Nat → Byte → BitVec 5 → State → State) (s : State) : State :=
  (List.range 8).foldl (fun s k => f k (byteAt d k) (checkAt c k ^^^ secdedCode (byteAt d k)) s) s

/-- Store a Common Store byte with a deviation of its check bits. -/
def csPutDev (a : Nat) (b : Byte) (dev : BitVec 5) (s : State) : State :=
  let st := csPut a b s.store
  { s with store := { st with csDev := tset 0 st.csDev a dev } }

/-- What a check call may name in a store, by its LOCATION (R463, R487): writes into the frame CRC table alone are allowed in
the configuration-shadow range. -/
def checkLocation (wr : Bool) (store loc : Nat) (s : State) : Option Nat :=
  match store with
  | 1 => if loc / 2 ^ 26 < galleryCount s && loc / 2 ^ 9 % 512 < 128 then some resOk else some resRange
  | 2 => if loc / 2 ^ 26 < galleryCount s && loc / 2 ^ 9 % 512 < 128 then some resOk else some resRange
  | 5 =>
    let a := loc % 2 ^ 24
    if a % 8 ≠ 0 || loc / 2 ^ 24 % 64 ≠ physicalBank a s.store then some resRange
    else if wr && inShadow a && !(decide (0xF80000 ≤ a) && decide (a < 0xF86000)) then some resRefused
    else some resOk
  | 6 => some resOk
  | 7 => if loc % 8 = 0 && loc < 0x4000 then some resOk else some resRange
  | 8 => if loc % 8 = 0 then some resOk else some resRange
  | _ => none

/-- The row key that a LOCATION names: Gallery and BP above bit 18, the row above bit 9. -/
def rowOfLocation (loc : Nat) : Nat := loc / 2 ^ 18 % 2 ^ 14 * 128 + loc / 2 ^ 9 % 128

/-- The Vault word that a LOCATION names. -/
def vaultOfLocation (loc : Nat) : Nat := loc / 2 ^ 27 % 32 * 2048 + loc / 2 ^ 16 % 2048

/-- Write data bits and check bits separately (R487). -/
def checkWrite (store loc : Nat) (d c : QWord) (s : State) : State :=
  match store with
  | 1 =>
    let row := rowOfLocation loc
    let s1 := putRow false row d s
    { s1 with array := { s1.array with curDev := tset 0 s1.array.curDev row (c.setWidth 15 ^^^ bchCode d) } }
  | 2 =>
    let row := rowOfLocation loc
    let s1 := putRow true row d s
    { s1 with array := { s1.array with prevDev := tset 0 s1.array.prevDev row (c.setWidth 15 ^^^ bchCode d) } }
  | 5 => writeGranule d c (fun k b dev s => csPutDev (loc % 2 ^ 24 + k) b dev s) s
  | 6 =>
    let key := vaultOfLocation loc
    let hi : Byte := d.extractLsb' 8 8
    let lo : Byte := d.extractLsb' 0 8
    { s with fabric := { s.fabric with
        vaultWords := tset 0 s.fabric.vaultWords key (d.setWidth 16)
        vaultDev := tset 0 (tset 0 s.fabric.vaultDev (2 * key) (c.extractLsb' 5 5 ^^^ secdedCode hi))
          (2 * key + 1) (c.extractLsb' 0 5 ^^^ secdedCode lo) } }
  | 7 => writeGranule d c (fun k b dev s => { s with
      cores := { s.cores with mailbox := tset 0 s.cores.mailbox (loc % 2 ^ 24 + k) b }
      protection := { s.protection with localDev := tset 0 s.protection.localDev (mailboxKey (loc % 2 ^ 24 + k)) dev } }) s
  | 8 => writeGranule d c (fun k b dev s =>
      let key := localKey (loc / 2 ^ 30 % 4) (loc % 2 ^ 18 + k)
      { s with
        cores := { s.cores with localMem := tset 0 s.cores.localMem key b }
        protection := { s.protection with localDev := tset 0 s.protection.localDev key dev } }) s
  | _ => s

/-- The class that a check call reports: a decoder without an error reports none of R456's classes, a free value. -/
def reportClass (c : EccClass) : QWord :=
  match c with
  | .clean => Config.cleanClass
  | x => BitVec.ofNat 64 (classCode x)

/-- The worst class of a granule. -/
def worstClass (cs : List EccClass) : EccClass :=
  cs.foldl (fun w c => if w = .clean then c else if c = .clean then w else if classCode w < classCode c then c else w) .clean

/-- Raw data, raw check bits and class of a granule of bytes. -/
def readGranule (f : Nat → Byte × BitVec 5) : List QWord :=
  let xs := (List.range 8).map f
  let d := ofBytes (xs.map (·.1))
  let c := xs.foldl (fun a x => a * 32 + (secdedCode x.1 ^^^ x.2).toNat) 0
  [BitVec.ofNat 64 d, BitVec.ofNat 64 c, reportClass (worstClass (xs.map (fun x => (secdedDecode x.1 x.2).1)))]

/-- check_read of a store (R487). -/
def checkRead (store loc : Nat) (s : State) : List QWord :=
  let row (prev : Bool) : List QWord :=
    let r := rowOfLocation loc
    let d := rowWord prev r s
    let dev := tget 0 (bankDev prev s) r
    [d, (bchCode d ^^^ dev).setWidth 64, reportClass (bchDecode d dev).1]
  match store with
  | 1 => row false
  | 2 => row true
  | 5 => readGranule (fun k => (rawGet (loc % 2 ^ 24 + k) s.store.cs, tget 0 s.store.csDev (loc % 2 ^ 24 + k)))
  | 6 =>
    let key := vaultOfLocation loc
    let w := tget 0 s.fabric.vaultWords key
    let hi : Byte := w.extractLsb' 8 8
    let lo : Byte := w.extractLsb' 0 8
    let dh := tget 0 s.fabric.vaultDev (2 * key)
    let dl := tget 0 s.fabric.vaultDev (2 * key + 1)
    [w.setWidth 64, BitVec.ofNat 64 ((secdedCode hi ^^^ dh).toNat * 32 + (secdedCode lo ^^^ dl).toNat),
      reportClass (worstClass [(secdedDecode hi dh).1, (secdedDecode lo dl).1])]
  | 7 => readGranule (fun k => (tget 0 s.cores.mailbox (loc % 2 ^ 24 + k),
      tget 0 s.protection.localDev (mailboxKey (loc % 2 ^ 24 + k))))
  | 8 => readGranule (fun k =>
      let key := localKey (loc / 2 ^ 30 % 4) (loc % 2 ^ 18 + k)
      (tget 0 s.cores.localMem key, tget 0 s.protection.localDev key))
  | _ => []

/-- Checker test mode is on (R487). -/
def checkTest (s : State) : Bool := s.regs.scrubControl.getLsbD 15

/-- CHECK_WRITE: service call check_write(store, location, data, check). -/
def execCheckWrite (slot : Nat) (s : State) : Host.Outcome State Fault Refusal :=
  .next (match callOf slot 0x0011 s with
    | none => s
    | some c =>
      if !checkTest s then reply c resRefused [] s
      else
        match checkLocation true (argOf c 0).toNat (argOf c 1).toNat s with
        | none => reply c resRange [] s
        | some r =>
          if r = resOk then reply c resOk [] (checkWrite (argOf c 0).toNat (argOf c 1).toNat (argOf c 2) (argOf c 3) s)
          else if r = resRefused then reply c resRefused [] (setFault fcCfgWrite s)
          else reply c r [] s)

/-- CHECK_READ: service call check_read(store, location). -/
def execCheckRead (slot : Nat) (s : State) : Host.Outcome State Fault Refusal :=
  .next (match callOf slot 0x0012 s with
    | none => s
    | some c =>
      if !checkTest s then reply c resRefused [] s
      else
        match checkLocation false (argOf c 0).toNat (argOf c 1).toNat s with
        | none => reply c resRange [] s
        | some r => if r = resOk then reply c resOk (checkRead (argOf c 0).toNat (argOf c 1).toNat s) s else reply c r [] s)

/-- CHECK_INJECT: service call check_inject(store, data, check) on an instruction, route or mesh decoder (R487). -/
def execCheckInject (slot : Nat) (s : State) : Host.Outcome State Fault Refusal :=
  .next (match callOf slot 0x0013 s with
    | none => s
    | some c =>
      let store := (argOf c 0).toNat
      let d := argOf c 1
      if !checkTest s then reply c resRefused [] s
      else if !(store = 0 || store = 3 || store = 4) then reply c resRange [] s
      else
        let r := bchDecode d ((argOf c 2).setWidth 15 ^^^ bchCode d)
        reply c resOk [reportClass r.1, r.2] s)

/-- Write a bulk result to the host address that a call gives as its last argument; the reply holds the bytes written (R676). -/
def replyBulk (c : QueuedCall) (addr : Nat) (bs : List Byte) (s : State) : State :=
  if addr % 8 ≠ 0 then reply c resRange [] s
  else reply c resOk [BitVec.ofNat 64 bs.length] (hostWriteBytes addr bs s)

/-- Fields packed as 8-byte numbers (R676). -/
def packed (xs : List Nat) : List Byte := xs.flatMap (fun x => bytesOf 8 x)

/-- SCRUB_COUNTERS: service call scrub_counters (R467, R676). -/
def execScrubCounters (slot : Nat) (s : State) : Host.Outcome State Fault Refusal :=
  .next (match callOf slot 0x0014 s with
    | none => s
    | some c =>
      let per := (List.range 10).flatMap (fun k =>
        let x := tget (0, 0) s.protection.perStore k
        [x.1.toNat, x.2.toNat])
      replyBulk c (argOf c 0).toNat
        (packed (per ++ [s.conservator.essential.toNat, s.conservator.nonEssential.toNat, s.conservator.falseMismatch.toNat])) s)

end Sys2Proof.Machine
end

