-- ==== Sys2Proof/Machine/Pins.lean ====
section
/-! DEFINITION. General-purpose pins: the crossbar, the signals it carries, function changes and locks (R578 to R598). -/

namespace Sys2Proof.Machine

/-- The pin of an entry: 0 to 7 host pins, 8 to 39 field pins (R587). -/
def pinAt (i : Nat) (s : State) : Pin := lget {} s.pins.pins i
def setPin (i : Nat) (p : Pin) (s : State) : State := { s with pins := { s.pins with pins := lset s.pins.pins i p } }

/-- A code of R581 that is not reserved for a pin. -/
def pinCodeOk (i code : Nat) (s : State) : Bool :=
  if i < 8 then code = 0 || code = 1 || code = 0x20 || code = 0x21
  else decide (code ≤ 0x18) && (decide (code ≠ 7) || hasTwin s)

/-- The code names an input signal. -/
def inputCode (code : Nat) : Bool := decide (2 ≤ code) && decide (code ≠ 0x18) && decide (code ≠ 0x21)

/-- The default of an input signal (R581). -/
def inputDefault (code : Nat) : Bool := code = 7 || code = 0x20

/-- The pins of a pin's side. -/
def sidePins (i : Nat) : List Nat := if i < 8 then List.range 8 else (List.range 32).map (· + 8)

/-- Another pin of the same side names the same input signal in ISEL (R587, R590). DEDUCED (log entry 111). -/
def pinConflict (i : Nat) (s : State) : Bool :=
  let c := (pinAt i s).isel.toNat
  inputCode c && (sidePins i).any (fun j => decide (j ≠ i) && decide ((pinAt j s).isel.toNat = c))

/-- The pin's side is Dormant, where levels are held and inputs are not sampled (R596). -/
def pinDormant (i : Nat) (s : State) : Bool := if i < 8 then s.power.host = .dormant else s.power.field = .dormant

/-- The crossbar is in force for a pin: its side is powered, and for a field pin the outputs stage is released (R437, R596). -/
def pinLive (i : Nat) (s : State) : Bool := if i < 8 then s.power.hostRails else s.power.fieldRails && s.released.outputs

/-- The value and enable of an output signal, where it is a level the model holds (R581, R584). Clock outputs, the console and
pulses have no level between their edges. -/
def outputLevel (p : Pin) (s : State) : Option Bool :=
  let c := p.osel.toNat
  if c = 1 then some p.swout
  else if c = 6 then some s.pins.endOfTest
  else if c = 7 then (if s.twin.token then some false else none)
  else if decide (8 ≤ c) && decide (c ≤ 0x17) then
    (if s.fabric.userEn.getLsbD (c - 8) then some (s.fabric.userOut.getLsbD (c - 8)) else none)
  else if decide (2 ≤ c) && decide (c ≤ 5) then some false
  else none

/-- The level that a pin drives, or none (R579, R588): an open-drain pin drives low only. -/
def pinDrive (i : Nat) (s : State) : Option Bool :=
  let p := pinAt i s
  if !pinLive i s then none
  else if pinDormant i s then p.held
  else
    match outputLevel p s with
    | some true => if p.od then none else some true
    | x => x

/-- The level at a pad (R588, R589). DESIGN CHOICE (log entry 108). -/
def padLevel (i : Nat) (s : State) : Bool := (pinDrive i s).getD (pinAt i s).pad

/-- The value of an input signal of the field side: the pad of the one pin that names it, else its default (R581, R590). -/
def fieldInput (code : Nat) (s : State) : Bool :=
  match ((List.range 32).map (· + 8)).filter (fun j => decide ((pinAt j s).isel.toNat = code)) with
  | [j] => if pinLive j s then padLevel j s else inputDefault code
  | _ => inputDefault code

/-- The input signals take their values: user signals to the fabric, the TWIN_TOKEN line (R377). HANDLER_START keeps its
previous value for the edge of R583 until it falls. -/
def sampleInputs (s : State) : State :=
  if s.power.field = .dormant || s.power.field = .off then s
  else
    let line := fieldInput 7 s
    let s1 := { s with
      fabric := { s.fabric with userIn := BitVec.ofNat 16 (ofBits (((List.range 16).map (fun n => fieldInput (8 + n) s)).reverse)) }
      pins := { s.pins with handlerPrev := s.pins.handlerPrev && fieldInput 6 s }
      twin := if hasTwin s then { s.twin with line := line } else s.twin }
    if hasTwin s then putTwinBit 11 line s1 else s1

/-- PAD_LEVEL_CHANGE: the level at a pad changes (R589). A silent or Dormant field side reports none. -/
def execPadLevelChange (i : Nat) (level : Bool) (s : State) : Host.Outcome State Fault Refusal :=
  .next (if i < 40 then
      let p := pinAt i s
      sampleInputs (setPin i { p with pad := level, mirror := if i < 8 || fieldAwake s then level else p.mirror } s)
    else s)

/-- HANDLER_START: a rising edge of the signal (R583). -/
def execHandlerStart (s : State) : Host.Outcome State Fault Refusal :=
  .next (if fieldAwake s && fieldInput 6 s && !s.pins.handlerPrev then
      setEvent evHandler { s with pins := { s.pins with handlerPrev := true } }
    else s)

/-! ### Crossbar entries (R587, R592, R595) -/

/-- What a crossbar entry reads. -/
def pinEntry (i : Nat) (s : State) : DWord :=
  let p := pinAt i s
  BitVec.ofNat 32 (p.locked.toNat * 2 ^ 31 + ((pinDrive i s).getD p.mirror).toNat * 2 ^ 30 + p.osel.toNat * 2 ^ 24 + p.isel.toNat * 2 ^ 18
    + p.pull.toNat * 2 ^ 16 + p.drive.toNat * 2 ^ 15 + p.od.toNat * 2 ^ 14 + p.swout.toNat * 2 ^ 13
    + (pinConflict i s).toNat * 2 ^ 12)

/-- The fields that a written entry names. -/
def pinOf (v : DWord) (p : Pin) : Pin :=
  { p with
    osel := v.extractLsb' 24 6
    isel := v.extractLsb' 18 6
    pull := v.extractLsb' 16 2
    drive := v.getLsbD 15
    od := v.getLsbD 14
    swout := v.getLsbD 13 }

/-- Exactly one field pin has OSEL and ISEL both set to TWIN_TOKEN (R591). -/
def tokenPinOk (s : State) : Bool :=
  decide ((((List.range 32).map (· + 8)).filter (fun j =>
    decide ((pinAt j s).osel = 7#6) && decide ((pinAt j s).isel = 7#6))).length = 1)

/-- Reserved selects take their reset value 0 with RESERVED_WRITE (R16, R581). -/
def pinSelects (i : Nat) (p : Pin) (s : State) : Pin × Bool :=
  let o := pinCodeOk i p.osel.toNat s
  let n := pinCodeOk i p.isel.toNat s
  ({ p with osel := if o then p.osel else 0, isel := if n then p.isel else 0 }, !(o && n))

/-- New settings of an entry (R592): the keeper holds the pad's level while the function changes, lost inputs read their
defaults, and a connection alone makes no edge (R585). The two cycles of the change are one step here. DEDUCED (log entry 109). -/
def putPinFunction (i : Nat) (q : Pin) (s : State) : State :=
  let was := fieldInput 6 s
  let clash := pinConflict i s
  let s1 := setPin i { q with pad := padLevel i s } s
  let now := fieldInput 6 s1
  let s2 := if now && !was then { s1 with pins := { s1.pins with handlerPrev := true } } else s1
  let s3 := sampleInputs s2
  if pinConflict i s3 && !clash then setFault fcPinConflict s3 else s3

/-- A write of a crossbar entry. A locked entry takes SWOUT alone, and sets PIN_LOCKED where another field would change (R595).
DEDUCED (log entry 110). -/
def writePin (i : Nat) (v : DWord) (s : State) : State :=
  let p := pinAt i s
  let r := pinSelects i (pinOf v p) s
  let q := r.1
  let s0 := if r.2 then setFault fcReservedWrite s else s
  if p.locked then
    let kept := { p with swout := q.swout }
    let s1 := setPin i kept s0
    if q = kept then s1 else setFault fcPinLocked s1
  else if s.inForce.twinEnable && hasTwin s && !tokenPinOk (setPin i q s) then setFault fcReservedWrite s0
  else putPinFunction i q s0

/-- PIN_FUNCTION_CHANGE: a crossbar write that changes OSEL or ISEL of a pin (R592, R593). -/
def execPinFunctionChange (m : Master) (i : Nat) (v : DWord) (s : State) : Host.Outcome State Fault Refusal :=
  .next (if i < 40 then writePin i v (dropKeys m s) else setFault fcReservedWrite (dropKeys m s))

/-! ### Locks (R594) -/

/-- One write of the lock sequence. DEDUCED (log entry 112). -/
def pinLockKey (m : Master) (data : Word) (s0 : State) : State :=
  let ph := (view m s0).pinKeyPhase
  let s := dropKeys m s0
  let phase (n : Nat) : State := setView m { view m s with pinKeyPhase := n } s
  if ph = 2 then
    let i := data.toNat % 64
    if 39 < i then setFault fcReservedWrite s
    else if 64 ≤ data.toNat then s
    else setPin i { pinAt i s with locked := true } s
  else if ph = 1 && data = 0x3C5A#16 then phase 2
  else if data = 0xA5C3#16 then phase 1
  else s

/-- PIN_LOCK_KEY. -/
def execPinLockKey (m : Master) (data : Word) (s : State) : Host.Outcome State Fault Refusal := .next (pinLockKey m data s)

end Sys2Proof.Machine
end

