-- ==== Sys2Proof/Machine/Windows.lean ====
section
/-! DEFINITION. What every register and every table-window entry reads (R5, R6, R8, R20, R56, R615 to R646), and the master's latch
(R634). -/

namespace Sys2Proof.Machine

/-! ### Security and debug level (R443, R558) -/

/-- SECURITY_STATE.CAP (R445). -/
def otpCap (o : Otp) : Nat := if o.capNone then 0 else if o.capObserve then 1 else 2

/-- The lower of LEVEL and CAP. -/
def effectiveLevel (s : State) : Nat := min s.regs.debugLevel.toNat (otpCap s.otp)

/-- SECURITY_STATE (R443). -/
def securityState (s : State) : Word :=
  BitVec.ofNat 16 (s.otpRequest.isSome.toNat * 2 ^ 15 + otpCap s.otp * 2 ^ 13 + s.otp.authOnly.toNat * 2 ^ 12
    + s.otp.readbackDis.toNat * 2 ^ 11 + s.otp.retired.toNat * 2 ^ 4 + s.otp.programmed.toNat)

/-! ### Register reads -/

/-- SCLK in force after throttling in units of 25 MHz (R394, R536). -/
def sclkAct (s : State) : Nat :=
  if !s.regs.clkStatus.getLsbD 15 then 0
  else
    let eighths := lget 8 [8, 7, 6, 4] s.survey.level
    sclkMHzTimesDiv s.power.clkInForce * eighths / (8 * 25 * sdivOf s.power.clkInForce)

/-- The data register `k` of a master, from its latch: entry bits from the most significant down (R633). -/
def latchWord (k : Nat) (v : MasterView) : Word := v.latch.extractLsb' (48 - 16 * k) 16

/-- The staged set that a master's reads show (R621). -/
def viewSet (v : MasterView) (s : State) : StagedSet := if v.viewStaged then s.shadow else s.inForce

/-- TWIN_CONTROL's readable bits. -/
def twinControl (v : MasterView) (s : State) : Word := setBit (setBit 0 0 (viewSet v s).twinEnable) 1 s.regs.twinPrefer

/-- A register of the file as a master reads it, by word address (R615). WO fields read 0 (R18); registers of an absent unit read 0
(R5). -/
def regValue (v : MasterView) (addr : Nat) (s : State) : Word :=
  let r := s.regs
  let q := viewSet v s
  match addr with
  | 0x00 => 0x1640#16
  | 0x01 => BitVec.ofNat 16 (0x100 + Config.stepping.toNat)
  | 0x02 => capsUnits s
  | 0x03 => capsSize s
  | 0x04 => setBit r.pwrState 4 (decide (s.power.field ≠ .off) && !s.barrier.fieldSilent && (dueTransition s).isSome)
  | 0x05 => r.pwrRequest
  | 0x06 => r.wakeEnable
  | 0x07 => r.wakeCause
  | 0x09 => r.stageStatus
  | 0x0A => r.eventStatus
  | 0x0B => r.eventMask
  | 0x0C => r.faultA
  | 0x0D => r.faultB
  | 0x0E => r.faultC
  | 0x0F => r.faultFirst
  | 0x10 => r.loadControl
  | 0x11 => r.loadStatus
  | 0x12 => r.loadDeadline
  | 0x13 => r.loadElapsed
  | 0x14 => q.startup.setWidth 16
  | 0x15 => securityState s
  | 0x17 => BitVec.ofNat 16 (effectiveLevel s * 4 + r.debugLevel.toNat)
  | 0x18 => v.select.setWidth 16
  | 0x19 => v.index
  | 0x1A => latchWord 0 v
  | 0x1B => latchWord 1 v
  | 0x1C => latchWord 2 v
  | 0x1D => latchWord 3 v
  | 0x1E => setBit (setBit (setBit (setBit 0 0 v.autoInc) 1 v.peek) 2 v.viewStaged) 15 v.absent
  | 0x1F => r.arrayControl
  | 0x20 => r.arrayStatus
  | 0x21 => r.schedInfo
  | 0x22 => q.mode.setWidth 16
  | 0x23 => r.batchControl
  | 0x24 => q.linkRates.setWidth 16
  | 0x25 => r.linkStatus
  | 0x26 => if hasTwin s then twinControl v s else 0
  | 0x27 => if hasTwin s then r.twinStatus else 0
  | 0x28 => r.failControl
  | 0x29 => r.failStatus
  | 0x2A => r.scrubControl
  | 0x2B => r.scrubStatus
  | 0x2C => r.eccCountCe
  | 0x2D => r.eccCountUe
  | 0x2E => r.surveyControl
  | 0x2F => r.surveyStatus
  | 0x30 => r.wdogControl
  | 0x32 => q.clk
  | 0x33 => setFld r.clkStatus 5 0 (sclkAct s)
  | 0x35 => r.busCollision
  | 0x37 => setBit r.mailboxStatus 8 (coreRuns s.cores.curator)
  | 0x38 => r.scratch
  | _ => 0

/-! ### Table windows (R633) -/

/-- Entries and data registers of a window. -/
def windowEntries (w : Nat) : Nat := lget 0 [0, 2049, 16, 40, 16, 32768, 64, 536, 65536, 4] w
def windowRegs (w : Nat) : Nat := lget 0 [0, 4, 4, 2, 1, 1, 4, 4, 4, 2] w

/-- A window that the field side holds (R56). -/
def windowCrosses (w : Nat) : Bool := w = 2 || w = 5 || w = 7 || w = 8

/-- The entry belongs to an absent unit: Galleries that the variant lacks (R8), and the mesh and twin records (R6).
DEDUCED (log entry 15). -/
def entryAbsent (w i : Nat) (s : State) : Bool :=
  (w = 6 && decide (galleryCount s ≤ i)) || (w = 7 && decide (512 ≤ i) && decide (i < 528) && !hasMesh s)
    || (w = 7 && decide (528 ≤ i) && !hasTwin s)

/-- A node of R491 exists on the variant; its router carries the same number. -/
def nodeExists (n : Nat) (s : State) : Bool :=
  decide (n < galleryCount s) || (decide (0x40 ≤ n) && decide (n ≤ 0x54) && (decide (n ≠ 0x4C) || hasMesh s)
    && (decide (n ≠ 0x4D) || hasTwin s))

/-- A Catalogue entry as it reads: in force with the delays measured for a trained lane (R271). DEDUCED (log entry 16). -/
def catalogueRead (v : MasterView) (i : Nat) (s : State) : QWord :=
  let e := tget 0 (viewSet v s).catalogue i
  if v.viewStaged || !catValid e || (lane (catLink e) (catLane e) s).echo64 = 0 then e
  else
    let d := delay64Of e s
    setFld (setFld e 26 19 (d / 64)) 18 13 (d % 64)

/-- A Gallery descriptor (R639). DEDUCED (log entry 17). -/
def galleryRead (v : MasterView) (g : Nat) (s : State) : QWord :=
  let d := gallery g s
  BitVec.ofNat 64 (d.length * 2 ^ 54 + ((viewSet v s).galleryEn.getLsbD g).toNat * 2 ^ 53 + (!d.powered).toNat * 2 ^ 52
    + d.asleepValid.toNat * 2 ^ 51 + d.asleepSource % 64 * 2 ^ 45 + d.illegalValid.toNat * 2 ^ 44
    + d.illegalBp % 256 * 2 ^ 36 + d.illegalStep % 512 * 2 ^ 27)

/-- STATE of a lane (R640). -/
def laneCode : LaneState → Nat
  | .disabled => 0 | .training => 1 | .up => 2 | .failed => 3 | .lost => 4 | .absent => 5

/-- STATE of a mesh link: up with 16 lanes locked, else training while its group is awake. -/
def meshState (locked : NatSet) (s : State) : Nat :=
  if locked.length = 16 then 2 else if armed s && schedMesh s then 1 else 0

/-- A field lane's record (R640). -/
def laneRead (v : MasterView) (l : FLink) (i e : Nat) (s : State) : QWord :=
  let x := lane l i s
  let d := x.descriptor.getD 0
  match e with
  | 0 => d.extractLsb' 64 64
  | 1 => d.extractLsb' 0 64
  | 2 =>
    let en := match l with
      | .f0 => (viewSet v s).laneEnF0.getLsbD i
      | .f1 => (viewSet v s).laneEnF1.getLsbD i
    BitVec.ofNat 64 (en.toNat * 2 ^ 63 + laneCode x.state * 2 ^ 60 + x.rpad % 256 * 2 ^ 52 + x.echo64 / 64 % 2 ^ 14 * 2 ^ 38
      + x.echo64 % 64 * 2 ^ 32)
  | 3 => BitVec.ofNat 64 (x.delay64 / 64 % 256 * 2 ^ 56 + x.delay64 % 64 * 2 ^ 50)
  | _ => 0

/-- A mesh link's record. -/
def meshLinkRead (l : MLink) (e : Nat) (s : State) : QWord :=
  let t := tokenOf l s
  match e with
  | 0 => BitVec.ofNat 64 (s.params.meshPos % 256 * 2 ^ 56 + s.params.meshSize % 256 * 2 ^ 48)
  | 1 => match t with
    | none => 0
    | some x => BitVec.ofNat 64 (((x.position.toNat * 2 ^ 16 + x.length.toNat) * 2 ^ 16 + x.size.toNat) * 2 ^ 16)
  | 2 => BitVec.ofNat 64 (meshState (match l with | .m0 => s.array.meshLock0 | .m1 => s.array.meshLock1) s * 2 ^ 61)
  | 3 => match t with
    | none => 0
    | some x => BitVec.ofNat 64 ((x.batch.toNat * 2 ^ 12 + x.pass.toNat) * 2 ^ 28)
  | _ => 0

/-- The twin link's record. -/
def twinRead (e : Nat) (s : State) : QWord :=
  let t := s.twin
  match e with
  | 0 => (t.caps0.getD 0).extractLsb' 128 64
  | 1 => (t.caps0.getD 0).extractLsb' 64 64
  | 2 => (t.caps0.getD 0).extractLsb' 0 64
  | 3 => BitVec.ofNat 64 (t.epoch.toNat * 2 ^ 32 + t.oneWay.toNat * 2 ^ 16 + t.skew.toNat)
  | 4 => (t.caps1.getD 0).extractLsb' 128 64
  | _ => 0

/-- A Partner Descriptors entry. -/
def partnerRead (v : MasterView) (i : Nat) (s : State) : QWord :=
  let r := i / 8
  let e := i % 8
  if r < 32 then laneRead v .f0 r e s
  else if r < 64 then laneRead v .f1 (r - 32) e s
  else if r = 64 then meshLinkRead .m0 e s
  else if r = 65 then meshLinkRead .m1 e s
  else twinRead e s

/-- The times at which the state stores may be read: frozen, or RUN = 0 with no batch in progress (R177). -/
def stateTime (s : State) : Bool := s.regs.arrayStatus.getLsbD 15 || (!s.regs.batchControl.getLsbD 0 && noBatch s)

/-- A Gallery's stores answer: it is powered (R115, R506). -/
def galleryAwake (g : Nat) (s : State) : Bool := decide (g < galleryCount s) && (gallery g s).powered

/-- The array state window may be read (R177), for the Gallery that ARRAY_CONTROL names. -/
def stateReadable (s : State) : Bool :=
  !s.otp.readbackDis && stateTime s && galleryAwake (fld s.regs.arrayControl 5 0) s

/-- The row that an array state index names (R641): words whose valid bit is clear read as the batch would read them. -/
def stateRow (i : Nat) (s : State) : Nat × Bool :=
  ((bpNum (fld s.regs.arrayControl 5 0) (i / 128 % 256)) * 128 + i % 128, decide (0x8000 ≤ i))

def stateRead (i : Nat) (s : State) : QWord :=
  let r := stateRow i s
  if stateReadable s && (bankValid r.2 s).contains r.1 && !(bankPoison r.2 s).contains r.1 then (rowDecode r.2 r.1 s).2 else 0

/-- What the read of a state row does besides (R177, R457 to R459). -/
def stateReadDone (i : Nat) (s : State) : State :=
  let r := stateRow i s
  if !stateReadable s then setFault fcFieldUnavailable s
  else if !(bankValid r.2 s).contains r.1 || (bankPoison r.2 s).contains r.1 then s
  else
    match (rowDecode r.2 r.1 s).1 with
    | .clean => s
    | .uncorrectable => rowUncorrectable r.2 r.1 s
    | c => putRow r.2 r.1 (rowDecode r.2 r.1 s).2 (countError (rowStore r.2) (classCode c) (rowLocation r.1) 0 s)

/-- A key slot's status (R448, R642). -/
def keySlotRead (i : Nat) (s : State) : QWord :=
  let p := s.otp.programmed.getLsbD i
  let c := if p then (keyCheck (tget 0 s.otp.keys i)).toNat else 0
  BitVec.ofNat 64 ((p.toNat * 2 ^ 31 + (s.otp.retired.getLsbD i).toNat * 2 ^ 30 + c) * 2 ^ 32)

/-- A window entry, left-aligned in 64 bits. -/
def windowEntry (v : MasterView) (w i : Nat) (s : State) : QWord :=
  if windowEntries w ≤ i || entryAbsent w i s then 0
  else
    match w with
    | 1 => if i = 2048 then (viewSet v s).sites.setWidth 64 else catalogueRead v i s
    | 2 => lget 0 s.protection.log i
    | 3 => (pinEntry i s).setWidth 64 <<< 32
    | 4 => (policyWord i s).setWidth 64 <<< 48
    | 5 => if nodeExists (i / 128 % 128) s then (tget 0 s.store.routes i).setWidth 64 <<< 48 else 0
    | 6 => galleryRead v i s
    | 7 => partnerRead v i s
    | 8 => stateRead i s
    | 9 => keySlotRead i s
    | _ => 0

/-- What fetching an entry does besides. -/
def windowReadDone (w i : Nat) (s : State) : State := if w = 8 then stateReadDone i s else s

/-! ### The latch (R613, R634, R637) -/

/-- A master's reads have no side effect: PEEK, or the debug port (R20). -/
def peeks (m : Master) (s : State) : Bool := (view m s).peek || m = .debug

/-- TABLE_INDEX moves on by one (R637). -/
def bumpIndex (m : Master) (s : State) : State :=
  let v := view m s
  setView m { v with index := v.index + 1, latchValid := false, absent := entryAbsent v.select.toNat (v.index + 1).toNat s } s

/-- The read of data register `k` completes: the master takes its word, and the last used register moves the index on under
AUTOINC, but not in the Correction Log and not for a peek (R20, R637). -/
def finishRead (m : Master) (k : Nat) (s : State) : State :=
  let v := view m s
  let n := windowRegs v.select.toNat
  let s1 := setView m { v with readData := if k < n then latchWord k v else 0 } s
  if v.autoInc && !peeks m s && k + 1 = n && v.select ≠ 2#4 then bumpIndex m s1 else s1

/-- The latch takes an entry. -/
def takeEntry (m : Master) (e : QWord) (s : State) : State := setView m { view m s with latch := e, latchValid := true } s

/-- Ask the field side for an entry (R56): a REG_READ after every earlier write of the master. -/
def crossRead (m : Master) (k : Nat) (s : State) : State :=
  let v := view m s
  let r : CrossRead := ⟨m, s.nextTag, BitVec.ofNat 6 (0x1A + k), v.select.toNat, v.index.toNat, none⟩
  sendMsg .hostToField 0x02 4 (((0x1A + k) * 256 + masterNum m) * 65536 + s.nextTag.toNat)
    { s with crossReads := s.crossReads ++ [r], nextTag := s.nextTag + 1 }

/-- A master's read of TABLE_DATA_A to _D, `k` = 0 to 3. DEDUCED (log entry 14). -/
def readTable (m : Master) (k : Nat) (s : State) : State :=
  let v := view m s
  let w := v.select.toNat
  let i := v.index.toNat
  if windowEntries w ≤ i || entryAbsent w i s || windowRegs w ≤ k then
    setView m { v with readData := 0 } s
  else if k = 0 || !v.latchValid then
    if windowCrosses w then crossRead m k s
    else finishRead m k (windowReadDone w i (takeEntry m (windowEntry v w i s) s))
  else finishRead m k s

/-- TABLE_ENTRY_FETCH. -/
def execTableEntryFetch (m : Master) (k : Nat) (s : State) : Host.Outcome State Fault Refusal :=
  .next (if s.crossReads.any (fun r => r.master = m) then s else readTable m k s)

/-- Every master's latch of an entry is stale after a write to it (R634). -/
def staleLatches (w i : Nat) (s : State) : State :=
  { s with masters := s.masters.map (fun v =>
      if v.select.toNat = w && v.index.toNat = i then { v with latchValid := false } else v) }

/-- CORRECTION_LOG_POP: a read of TABLE_DATA_D at index 0 of the Correction Log, not a peek (R20, R465). -/
def popLog (m : Master) (s : State) : State :=
  let v := view m s
  if v.select = 2#4 && v.index = 0 && !peeks m s then
    (List.range 16).foldl (fun s i => staleLatches 2 i s)
      { s with protection := { s.protection with log := s.protection.log.drop 1 } }
  else s
def execCorrectionLogPop (m : Master) (s : State) : Host.Outcome State Fault Refusal :=
  .next (if fieldAwake s then popLog m s else s)

end Sys2Proof.Machine
end

