-- ==== Sys2Proof/Machine/Cores.lean ====
section
/-! DEFINITION. Halting, resuming and stepping the cores, cross-triggers, and what a fall of the effective debug level does
(R556 to R567). -/

namespace Sys2Proof.Machine

/-! ### Halt and release (R563 to R567, R572) -/

/-- The period code that WDOG_CONTROL holds for a core (R573). -/
def wdogCode (c : Core) (s : State) : Nat := fld s.regs.wdogControl (15 - 4 * coreNum c) (12 - 4 * coreNum c)

/-- A core's watchdog takes its full period again (R572, R573). -/
def reloadWatchdog (c : Core) (s : State) : State :=
  let x := coreState c s
  setCore c { x with wdogPeriod := wdogCode c s, wdogReloads := x.wdogReloads + 1 } s

/-- The core runs on: what its registers hold from now on is free (the spec gives the cores no instruction set). -/
def freeRegs (c : Core) (s : State) : State :=
  let n := coreNum c
  let s1 := setCore c { coreState c s with regGen := s.cores.freeCount } s
  { s1 with cores := { s1.cores with
      freeCount := s1.cores.freeCount + 1
      coreRegs := s1.cores.coreRegs.filter (fun e => e.1 / 256 ≠ n) } }

/-- The master under which a core writes registers (R38). -/
def coreMaster : Core → Master | .curator => .curator | .docentA => .fieldUnit | .docentB => .fieldUnit | .warden => .fieldUnit

/-- A key sequence that the halted core has begun is abandoned (R567). -/
def abortSequences (m : Master) (s : State) : State :=
  let v := view m s
  if v.lockPrev || v.pinKeyPhase ≠ 0 || v.stagedWritten then
    setFault fcSeqAbort (setView m { v with
      lockPrev := false
      pinKeyPhase := 0
      commitBlocked := v.commitBlocked || v.stagedWritten
      stagedWritten := false } s)
  else s

/-- A core halts with a cause (R563, R565); one that is halted already keeps its cause. -/
def haltCore (cause : Nat) (c : Core) (s : State) : State :=
  if (coreState c s).halted then s
  else abortSequences (coreMaster c)
    (setCore c { coreState c s with halted := true, cause := BitVec.ofNat 8 cause, stepLeft := 0 } s)

/-- A field core may leave its reset vector: an image is loaded and no load is in progress (R437, R438, R442); the Curator always
may. -/
def coreStarts (c : Core) (s : State) : Bool := decide (c = .curator) || (loaded s && !s.loader.active)

/-- A halted core runs again, with a full watchdog period. -/
def resumeCore (c : Core) (s : State) : State :=
  let x := coreState c s
  if x.halted then
    reloadWatchdog c (freeRegs c (setCore c { x with
      halted := false, cause := 0, stepLeft := 0, atReset := x.atReset && !coreStarts c s } s))
  else s

/-- The cores that a mask names: bit c for core c. -/
def coresOf (mask : BitVec 4) : List Core := allCores.filter (fun c => mask.getLsbD (coreNum c))

/-! ### Cross-triggers (R565) -/

/-- A TRIG_OUT pulse (R582). DEDUCED (log entry 113). -/
def pulseTrig (k : Nat) (s : State) : State :=
  { s with pins := { s.pins with trigPulses := lset s.pins.trigPulses k (lget 0 s.pins.trigPulses k + 1) } }

/-- A channel asserts its sinks. -/
def assertChannel (k : Nat) (s : State) : State :=
  let sinks := (lget {} s.cores.channels k).sinks
  let s1 := (coresOf (sinks.extractLsb' 0 4)).foldl (fun s c => haltCore (4 + 32 * k) c s) s
  (List.range 4).foldl (fun s t => if sinks.getLsbD (4 + t) then pulseTrig t s else s) s1

/-- A source is asserted: so is every channel that enables it. -/
def fireSource (b : Nat) (s : State) : State :=
  (List.range 8).foldl (fun s k => if (lget {} s.cores.channels k).sources.getLsbD b then assertChannel k s else s) s

/-- A halt by breakpoint, step end or HALT is a source. -/
def haltBySource (cause : Nat) (c : Core) (s : State) : State :=
  if (coreState c s).halted then s else fireSource (coreNum c) (haltCore cause c s)

/-! ### The debug level (R558, R562) -/

/-- The effective level has fallen below FULL: halted cores resume and halt sinks are disabled; below OBSERVE trace stops. -/
def applyLevel (s : State) : State :=
  let s1 :=
    if effectiveLevel s < 2 then
      let s0 := allCores.foldl (fun s c => resumeCore c s) s
      { s0 with cores := { s0.cores with channels := s0.cores.channels.map (fun x => { x with sinks := x.sinks &&& 0xFFF0#16 }) } }
    else s
  if effectiveLevel s < 1 then
    allCores.foldl (fun s c => setCore c { coreState c s with traceMask := 0 } s) s1
  else s1

/-- LEVEL takes a value. -/
def putLevel (v : Nat) (s : State) : State :=
  applyLevel { s with regs := { s.regs with debugLevel := BitVec.ofNat 2 v } }

/-- A write of LEVEL: 0b11 is ignored with RESERVED_WRITE, a raise is ignored (R558). -/
def writeLevel (v : BitVec 2) (s : State) : State :=
  if v = 3#2 then setFault fcReservedWrite s
  else if v.toNat < s.regs.debugLevel.toNat then putLevel v.toNat s
  else s

/-- DEBUG_LEVEL. -/
def execDebugLevel (m : Master) (v : BitVec 2) (s : State) : Host.Outcome State Fault Refusal :=
  .next (writeLevel v (dropKeys m s))

end Sys2Proof.Machine
end

