-- ==== Sys2Proof/Machine/Barrier.lean ====
section
/-! DEFINITION. The Llyniz barrier and the crossing messages that are not part of another family: cells, acknowledgement,
retransmission, lanes and sparing, heartbeats, silence, register messages, events and time marks (R33 to R60). -/

namespace Sys2Proof.Machine

/-! ### Directions -/

/-- The opposite direction. -/
def opposite : Dir → Dir | .hostToField => .fieldToHost | .fieldToHost => .hostToField

def barrierDir (d : Dir) (s : State) : BarrierDir := match d with | .hostToField => s.barrier.toField | .fieldToHost => s.barrier.toHost
def setBarrierDir (d : Dir) (x : BarrierDir) (s : State) : State :=
  match d with
  | .hostToField => { s with barrier := { s.barrier with toField := x } }
  | .fieldToHost => { s with barrier := { s.barrier with toHost := x } }

/-- The direction in which a side transmits. -/
def sendsOn : Side → Dir | .host => .hostToField | .field => .fieldToHost

/-- The side that receives a direction. -/
def receiver : Dir → Side | .hostToField => .field | .fieldToHost => .host

/-- The message types that cross in a direction (R38). -/
def typeDefined (d : Dir) (t : Nat) : Bool :=
  match d with
  | .hostToField => t = 1 || t = 2 || t = 4 || t = 8 || t = 0xA || t = 0xB || t = 0xC
  | .fieldToHost => t = 1 || t = 3 || t = 5 || t = 6 || t = 7 || t = 9 || t = 0xC

/-! ### The transmitter (R35, R40, R42, R45) -/

/-- New messages from the sources are accepted while fewer than 128 cells are outstanding. -/
def acceptWaiting : List Msg → BarrierDir → BarrierDir
  | [], d => { d with waiting := [] }
  | m :: rest, d => if d.unacked.length < 128 then acceptWaiting rest (dirSend m d) else { d with waiting := m :: rest }

/-- An ACK value: cells before it leave the replay store. -/
def dirAck (ack : Word) (d : BarrierDir) : BarrierDir :=
  match d.unacked with
  | [] => d
  | c :: _ =>
    let n := (ack - c.seq).toNat
    if n ≤ d.unacked.length then acceptWaiting d.waiting { d with unacked := d.unacked.drop n } else d

/-- Send every outstanding cell again (go-back-N), dealt to the active lanes in turn; each is counted on its lane (R39, R45). -/
def resendAll (d : BarrierDir) : BarrierDir :=
  let n := max d.active.length 1
  let count := (List.range d.unacked.length).foldl (fun t j =>
    let l := lget 0 d.active ((d.nextLane + j) % n)
    tset 0 t l (satInc (tget 0 t l))) d.retxCount
  if d.active.isEmpty then d else { d with retxCount := count, nextLane := (d.nextLane + d.unacked.length) % n }

/-- NAK: a cell with NAK = 1 reaches the transmitter of a direction (R45). DEDUCED (log entry 57). -/
def execNak (d : Dir) (ack : Word) (s : State) : Host.Outcome State Fault Refusal :=
  .next (setBarrierDir d (resendAll (dirAck ack (barrierDir d s))) s)

/-- RETRANSMIT_TIMEOUT: 4 µs without ACK progress while cells are outstanding (R45). -/
def execRetransmitTimeout (d : Dir) (s : State) : Host.Outcome State Fault Refusal :=
  .next (setBarrierDir d (resendAll (barrierDir d s)) s)

/-! ### Silence and refresh (R53, R59) -/

/-- The field units receive the current value of every register they use (R53, R589). -/
def refreshField (s : State) : State :=
  { s with
    fieldCopy := (List.range 64).map (fun a => regValue {} a s)
    pins := { s.pins with pins := s.pins.pins.map (fun p => { p with mirror := p.pad }) } }

/-- A side has received a valid cell: silence ends, and field units are refreshed (R59). -/
def heard (d : Dir) (s : State) : State :=
  match receiver d with
  | .host =>
    if s.barrier.fieldSilent then
      let s1 := { s with barrier := { s.barrier with fieldSilent := false } }
      if fieldAwake s1 then refreshField s1 else s1
    else s
  | .field => if s.barrier.hostSilent then refreshField { s with barrier := { s.barrier with hostSilent := false } } else s

/-- The field side is treated as unpowered by the host die (R59): PWR_STATE reads Off, and a load in progress fails (R430). -/
def fieldSilence (s : State) : State :=
  failLoad ldFieldLost (reportPower 0 { s with barrier := { s.barrier with fieldSilent := true } })

/-- COUNTERPART_SILENT: no valid cell for 10 µs (R59). -/
def silence (side : Side) (s : State) : State :=
  match side with
  | .host => if s.barrier.fieldSilent then s else fieldSilence s
  | .field => { s with barrier := { s.barrier with hostSilent := true } }
def execCounterpartSilent (side : Side) (s : State) : Host.Outcome State Fault Refusal := .next (silence side s)

/-! ### Lanes (R34, R36, R47 to R49) -/

/-- A fault found by the side that transmits a direction: the field side reports it with an event (R48). -/
def laneFault (d : Dir) (code : Nat) (s : State) : State :=
  match d with | .hostToField => setFault code s | .fieldToHost => faultEventFree code s

/-- The outcome for the number of lanes still active (R36, R49). -/
def laneOutcome (d : Dir) (s : State) : State :=
  let n := (barrierDir d s).active.length
  if 16 ≤ n then s
  else if 8 ≤ n then setFault fcBarrierDegraded s
  else silence .field (silence .host (setFault fcBarrierDown s))

/-- The receiver declares a lane failed (R44, R47): its cells and every later one are discarded until the missing SEQ arrives, and
the next cell back carries SPARE_REQ and NAK. -/
def declareFailed (d : Dir) (l : Nat) (s : State) : State :=
  let x := barrierDir d s
  if x.active.contains l && !x.failed.contains l then
    setBarrierDir d { x with
      failed := nins x.failed l
      spareReqDue := x.spareReqDue ++ [l]
      nakDue := true
      nakWait := true
      held := [] } s
  else s

/-- BARRIER_LANE_FAIL. -/
def execBarrierLaneFail (d : Dir) (l : Nat) (s : State) : Host.Outcome State Fault Refusal := .next (declareFailed d l s)

/-- SPARE_REQ: the transmitter puts the lowest spare into the failed lane's position, or deals to the remaining lanes (R48, R49). -/
def execSpareReq (d : Dir) (l : Nat) (s : State) : Host.Outcome State Fault Refusal :=
  .next (
    let x := barrierDir d s
    if !x.active.contains l then s
    else
      match x.spares with
      | p :: rest =>
        laneFault d fcBarrierSpared (setBarrierDir d { x with
          active := x.active.map (fun a => if a = l then p else a), spares := rest } s)
      | [] =>
        let active := x.active.filter (fun a => a ≠ l)
        laneOutcome d (setBarrierDir d { x with active := active, nextLane := x.nextLane % max active.length 1 } s))

/-- Cells not yet delivered take new numbers from 0 after training (R40). DEDUCED (log entry 59). -/
def renumber : Nat → List SentCell → List SentCell
  | _, [] => []
  | n, c :: rest => ⟨BitVec.ofNat 16 n, c.msg⟩ :: renumber (n + 1) rest

/-- A direction after training (R34, R36): the counters stay; cells that the receiver has delivered are not sent again. -/
def trained (good : List Nat) (x : BarrierDir) : BarrierDir :=
  let cells := renumber 0 ((dirAck x.expected x).unacked)
  { x with
    active := if good.length < 8 then [] else good.take 16
    spares := if good.length < 8 then [] else good.drop 16
    nextLane := 0
    seqNext := BitVec.ofNat 16 cells.length
    unacked := cells
    expected := 0
    held := []
    nakWait := false
    nakDue := false
    spareReqDue := []
    failed := []
    ackDue := false
    laneSeen := []
    laneBad := [] }

/-- BARRIER_TRAINED: training of a direction ends; fewer than 8 good lanes leave the barrier down (R36). -/
def execBarrierTrained (d : Dir) (locked : BitVec 18) (s : State) : Host.Outcome State Fault Refusal :=
  .next (if s.power.hostRails && s.power.fieldRails then
      let good := (List.range 18).filter (fun i => locked.getLsbD i)
      let s1 := setBarrierDir d (trained good (barrierDir d s)) s
      if good.length < 16 then laneOutcome d s1 else s1
    else s)

/-! ### Received cells (R37, R39, R41, R44) -/

/-- DEDUCED (log entry 60). -/
def cellNoSeq (c : Cell) : Bool := c.getLsbD 503
def cellSeq (c : Cell) : Word := c.extractLsb' 480 16
def cellAck (c : Cell) : Word := c.extractLsb' 464 16
def cellMsg (c : Cell) : Msg := ⟨c.extractLsb' 504 8, c.extractLsb' 456 8, c.extractLsb' 32 416⟩
def cellCrcOk (c : Cell) : Bool := decide (crc32c (bytesOf 60 (c.toNat / 2 ^ 32)) = c.toNat % 2 ^ 32)

/-- A cell is delivered to its unit, or discarded and counted where its TYPE does not belong to the direction (R39). -/
def deliverCell (d : Dir) (m : Msg) (s : State) : State :=
  let x := barrierDir d s
  if typeDefined d m.typ.toNat then setBarrierDir d { x with inbox := x.inbox ++ [m] } s
  else setFault fcCellUndefined (setBarrierDir d { x with undefinedCount := satInc x.undefinedCount } s)

/-- Held cells that follow in order are delivered; `n` bounds the run. -/
def deliverHeld (d : Dir) : Nat → State → State
  | 0, s => s
  | n + 1, s =>
    let x := barrierDir d s
    match x.held.find? (fun c => c.seq = x.expected) with
    | none => s
    | some c =>
      deliverHeld d n (deliverCell d c.msg (setBarrierDir d { x with
        held := x.held.filter (fun h => h.seq ≠ c.seq), expected := x.expected + 1 } s))

/-- A sequenced cell with a good CRC on a good lane (R41, R44). -/
def takeCell (d : Dir) (c : Cell) (s : State) : State :=
  let x := { barrierDir d s with ackDue := true }
  let ahead := (cellSeq c - x.expected).toNat
  if ahead = 0 then
    deliverHeld d 65 (deliverCell d (cellMsg c) (setBarrierDir d { x with expected := x.expected + 1, nakWait := false } s))
  else if x.nakWait then setBarrierDir d x s
  else if ahead ≤ 64 && !x.held.any (fun h => h.seq = cellSeq c) then
    setBarrierDir d { x with held := x.held ++ [⟨cellSeq c, cellMsg c⟩] } s
  else setBarrierDir d x s

/-- A cell with a bad CRC (R39, R44, R47). -/
def badCell (d : Dir) (l : Nat) (s : State) : State :=
  let x := barrierDir d s
  let seen := tget 0 x.laneSeen l
  let bad := recent 1024 seen (tget [] x.laneBad l ++ [seen])
  let s1 := setBarrierDir d { x with
    held := []
    nakWait := true
    nakDue := true
    crcCount := tset 0 x.crcCount l (satInc (tget 0 x.crcCount l))
    laneBad := tset [] x.laneBad l bad } s
  if 4 ≤ bad.length then declareFailed d l s1 else s1

/-- The lane carries one more cell. DEDUCED (log entry 58). -/
def countLane (l : Nat) (x : BarrierDir) : BarrierDir := { x with laneSeen := tset 0 x.laneSeen l (tget 0 x.laneSeen l + 1) }

/-- BARRIER_CELL_RECEIVE. -/
def receiveCell (d : Dir) (l : Nat) (c : Cell) (s0 : State) : State :=
  let s := setBarrierDir d (countLane l (barrierDir d s0)) s0
  if !(barrierDir d s).active.contains l then s0
  else if !cellCrcOk c then badCell d l s
  else if (barrierDir d s).failed.contains l then
    setBarrierDir d { barrierDir d s with held := [], nakWait := true, nakDue := true } s
  else
    let s1 := heard d s
    let r := opposite d
    let s2 := setBarrierDir r (dirAck (cellAck c) (barrierDir r s1)) s1
    if cellNoSeq c then (if (cellMsg c).typ = 0xC#8 then deliverCell d (cellMsg c) s2 else s2) else takeCell d c s2
/-- DESIGN CHOICE (log entry 56). -/
def execBarrierCellReceive (d : Dir) (l : Nat) (c : Cell) (s : State) : Host.Outcome State Fault Refusal :=
  .next (receiveCell d l c s)

/-! ### Heartbeats (R43, R59, R60) -/

/-- Take the delivered cell whose step runs out of its inbox. -/
def popDir (d : Dir) (typ : Nat) (s : State) : State := setBarrierDir d (popInbox typ (barrierDir d s)) s

/-- The power state code of a state (R516). -/
def powerCode : PowerState → Nat
  | .off => 0 | .dormant => 1 | .standby => 2 | .armed => 3 | .running => 4

/-- HEARTBEAT: the host die takes the field side's reported state; a first cell after a reset leaves no configuration on the side
that was reset, or that now serves a reset host die (R59, R60). -/
def execHeartbeat (d : Dir) (power reset : Byte) (_ticks : DWord) (ack : Word) (s : State) : Host.Outcome State Fault Refusal :=
  .next (
    let r := opposite d
    let s1 := popDir d 0xC (heard d s)
    let s2 := setBarrierDir r (dirAck ack (barrierDir r s1)) s1
    match d with
    | .fieldToHost =>
      let s3 := reportPower (power.toNat % 8) s2
      if reset = 1#8 then refreshField (putIoDisabled true (unloadStatus s3)) else s3
    | .hostToField => if reset = 1#8 then discardConfig s2 else s2)

/-- A side can transmit: it is powered and the direction is trained. -/
def sidePowered (side : Side) (s : State) : Bool :=
  match side with
  | .host => s.power.hostRails && decide (s.power.host ≠ .off)
  | .field => s.power.fieldRails && decide (s.power.field ≠ .off) && s.power.tref

/-- HEARTBEAT_DUE: the side sends a cell with its acknowledgement, and with NAK and SPARE_REQ where they are due (R43, R44, R47,
R59). DESIGN CHOICE (log entry 61). -/
def execHeartbeatDue (side : Side) (s : State) : Host.Outcome State Fault Refusal :=
  .next (
    let r := opposite (sendsOn side)
    let x := barrierDir r s
    if sidePowered side s && !(barrierDir (sendsOn side) s).active.isEmpty then
      let first := match side with | .host => s.barrier.hostFirstCell | .field => s.barrier.fieldFirstCell
      let code := match side with | .host => powerCode s.power.host | .field => powerCode s.power.field
      let beat : Beat := ⟨side, code, first, x.expected, x.nakDue, x.spareReqDue.head?⟩
      let s1 := setBarrierDir r { x with ackDue := false, nakDue := false, spareReqDue := x.spareReqDue.drop 1 } s
      { s1 with barrier := { s1.barrier with
          beats := s1.barrier.beats ++ [beat]
          hostFirstCell := s1.barrier.hostFirstCell && side = .field
          fieldFirstCell := s1.barrier.fieldFirstCell && side = .host } }
    else s)

/-! ### Register messages (R51, R55 to R57) -/

/-- The RO and W1C bits that a field unit reports of a status register. -/
def statusMasks (addr : Nat) : Nat × Nat :=
  match addr with
  | 0x20 => (0xC000, 0x2000)
  | 0x21 => (0xE3FF, 0)
  | 0x25 => (0x00FF, 0)
  | 0x27 => (0xFC00, 0x01FE)
  | 0x29 => (0x0060, 0x001F)
  | 0x2B => (0xFC00, 0x007F)
  | 0x2C => (0xFFFF, 0)
  | 0x2D => (0xFFFF, 0)
  | 0x2F => (0xFFD8, 0x0007)
  | 0x33 => (0xE800, 0x0100)
  | _ => (0, 0)

/-- A mirror after a report: RO bits take the report's values, W1C bits are set and never cleared by it. -/
def mirrored (addr : Nat) (data old : Word) : Word :=
  let m := statusMasks addr
  let ro : Word := BitVec.ofNat 16 m.1
  let w1 : Word := BitVec.ofNat 16 m.2
  (old &&& ~~~ro) ||| (data &&& ro) ||| (data &&& w1)

/-- The event that a W1C bit newly set by a report raises (R626). -/
def mirrorEvent (addr : Nat) (old new : Word) (s : State) : State :=
  let w1 : Word := BitVec.ofNat 16 (statusMasks addr).2
  if (new &&& ~~~old) &&& w1 = 0 then s
  else
    match addr with
    | 0x27 => setEvent evTwin s
    | 0x29 => setEvent evLedger s
    | 0x2B => setEvent evScrub s
    | 0x2F => setEvent evSurvey s
    | 0x33 => setEvent evClock s
    | _ => s

/-- A field unit's status report updates its mirror (R55). -/
def reportStatus (addr : Nat) (data : Word) (s : State) : State :=
  let r := s.regs
  let put (old : Word) (regs : Word → RegFile) : State :=
    mirrorEvent addr old (mirrored addr data old) { s with regs := regs (mirrored addr data old) }
  match addr with
  | 0x04 => reportPower (fld data 2 0) { s with regs := { r with pwrState := setFld r.pwrState 4 3 (fld data 4 3) } }
  | 0x0C => (List.range 15).foldl (fun s b => if data.getLsbD b then setFault b s else s) s
  | 0x0D => (List.range 11).foldl (fun s b => if data.getLsbD b then setFault (16 + b) s else s) s
  | 0x0E => (List.range 7).foldl (fun s b => if data.getLsbD b then setFault (32 + b) s else s) s
  | 0x20 => put r.arrayStatus (fun w => { r with arrayStatus := w })
  | 0x21 => put r.schedInfo (fun w => { r with schedInfo := w })
  | 0x25 => put r.linkStatus (fun w => { r with linkStatus := w })
  | 0x27 => if hasTwin s then put r.twinStatus (fun w => { r with twinStatus := w }) else s
  | 0x29 => put r.failStatus (fun w => { r with failStatus := w })
  | 0x2B => put r.scrubStatus (fun w => { r with scrubStatus := w })
  | 0x2C => put r.eccCountCe (fun w => { r with eccCountCe := w })
  | 0x2D => put r.eccCountUe (fun w => { r with eccCountUe := w })
  | 0x2F => put r.surveyStatus (fun w => { r with surveyStatus := w })
  | 0x33 => put r.clkStatus (fun w => { r with clkStatus := w })
  | _ => s

/-- REG_WRITE: a host write reaches its field unit (R51), or a status report its mirror (R55). -/
def execRegWrite (d : Dir) (addr : BitVec 6) (_master : Byte) (data : Word) (s : State) : Host.Outcome State Fault Refusal :=
  .next (
    let s1 := popDir d 0x01 s
    match d with
    | .hostToField => { s1 with fieldCopy := lset s1.fieldCopy addr.toNat data }
    | .fieldToHost => reportStatus addr.toNat data s1)

/-- The word of a data register in an entry. -/
def entryWord (addr : BitVec 6) (e : QWord) : Word := e.extractLsb' (48 - 16 * (addr.toNat - 0x1A)) 16

/-- REG_READ: the field unit reads the named entry, or the register it holds, and replies; an asleep unit answers STATUS 1
(R56, R57). -/
def execRegRead (addr : BitVec 6) (_master : Byte) (tag : Word) (s : State) : Host.Outcome State Fault Refusal :=
  .next (
    let s1 := popDir .hostToField 0x02 s
    let answer (data : Word) (status : Nat) (s : State) : State :=
      sendMsg .fieldToHost 0x03 5 ((tag.toNat * 65536 + data.toNat) * 256 + status) s
    if !fieldAwake s then answer 0 1 s1
    else
      match s1.crossReads.find? (fun r => r.tag = tag) with
      | none => answer (lget 0 s1.fieldCopy addr.toNat) 0 s1
      | some r =>
        let e := windowEntry (view r.master s1) r.window r.index s1
        let s2 := windowReadDone r.window r.index { s1 with crossReads := s1.crossReads.map (fun x =>
          if x.tag = tag then { x with entry := some e } else x) }
        answer (entryWord addr e) 0 s2)

/-- A crossing read ends without an answer: 0 and FIELD_UNAVAILABLE (R57). -/
def failRead (m : Master) (s : State) : State :=
  setFault fcFieldUnavailable (setView m { view m s with readData := 0 }
    { s with crossReads := s.crossReads.filter (fun r => r.master ≠ m) })

/-- REG_REPLY: the master's read completes. -/
def execRegReply (tag data : Word) (status : Byte) (s : State) : Host.Outcome State Fault Refusal :=
  .next (
    let s1 := popDir .fieldToHost 0x03 s
    match s1.crossReads.find? (fun r => r.tag = tag) with
    | none => s1
    | some r =>
      if status ≠ 0 then failRead r.master s1
      else
        let s2 := { s1 with crossReads := s1.crossReads.filter (fun x => x.tag ≠ tag) }
        let s3 := match r.entry with
          | some e => finishRead r.master (r.addr.toNat - 0x1A) (takeEntry r.master e s2)
          | none => s2
        setView r.master { view r.master s3 with readData := data } s3)

/-- REG_READ_TIMEOUT: no REG_REPLY within 50 µs (R57). -/
def execRegReadTimeout (m : Master) (s : State) : Host.Outcome State Fault Refusal :=
  .next (if s.crossReads.any (fun r => r.master = m) then failRead m s else s)

/-! ### Events and time marks (R38, R58) -/

/-- An event bit that exists on the variant (R7, R626). -/
def eventExists (b : Nat) (s : State) : Bool :=
  decide (1 ≤ b) && decide (b ≤ 15) && (decide (b ≠ evTwin) || hasTwin s) && (decide (b ≠ evRa) || hasRepair s)

/-- EVENT: the bit is set and the event-log entry appended (R58, R546, R627). -/
def execEvent (code : Word) (unit : Byte) (detail : DWord) (s : State) : Host.Outcome State Fault Refusal :=
  .next (
    let s1 := popDir .fieldToHost 0x07 s
    let b := code.toNat / 256
    if eventExists b s then logEvent code unit detail (setEvent b s1) else s1)

/-- TIME_MARK: host time is set, and SOURCE 0 time marks are placed in both Ledgers (R38, R287, R397). -/
def execTimeMark (ns : QWord) (s : State) : Host.Outcome State Fault Refusal :=
  .next (
    let s1 := popDir .hostToField 0x08 s
    if fieldAwake s then
      timeMarks 0 0 { s1 with power := { s1.power with timeMarked := true, hostTimeBase := ns.toNat, hostTimeAt := s1.power.fclk } }
    else s1)

end Sys2Proof.Machine
end

