-- ==== Sys2Proof/Machine/Verify.lean ====
section
/-! DEFINITION. The content checks of a load: unload maps (R162), the fabric personality (R188, R226, R232), device parameters
(R647) and the Repair Analyser's geometry (R330, R674), and what the loader derives from the placed content (R90, R123). -/

namespace Sys2Proof.Machine

/-! ### Unload maps (R162) -/

/-- The valid entries of a row of the map at `p`. -/
def mapRowEntries (p r : Nat) (st : Store) : List DWord :=
  let n := mapStreams p st
  ((List.range n).map (fun k => BitVec.ofNat 32 (rawNat (p + 8 + 4 * (r * n + k)) 4 st))).filter (fun e => e.getLsbD 31)

/-- A row names only present Galleries, and at most 4 distinct words of each. -/
def mapRowOk (es : List DWord) (s : State) : Bool :=
  es.all (fun e => decide (fld e 22 17 < galleryCount s))
    && (List.range 64).all (fun g =>
      decide (((es.filter (fun e => fld e 22 17 = g)).map (fun e => fld e 16 0)).eraseDups.length ≤ 4))

/-- The map at `p` passes R162. -/
def mapOk (p : Nat) (s : State) : Bool :=
  decide (mapStreams p s.store ≤ 32)
    && (List.range (mapRows p s.store)).all (fun r => mapRowOk (mapRowEntries p r s.store) s)

/-! ### The fabric personality (R188, R226, R232) -/

/-- Track `t` exists for block `b` (R221). -/
def trackExists (b t : Nat) : Bool :=
  if t < 16 then decide (16 ≤ b)
  else if t < 32 then decide (b % 16 ≠ 15)
  else if t < 48 then decide (b + 16 < 128)
  else if t < 64 then decide (b % 16 ≠ 0)
  else if t < 80 then decide (64 ≤ b)
  else if t < 96 then decide (b % 16 + 4 < 16)
  else if t < 112 then decide (b + 64 < 128)
  else if t < 128 then decide (4 ≤ b % 16)
  else decide (t < 192)

/-- An INSEL or Vault input select is defined for the block (R181, R209). -/
def inselOk (b v : Nat) : Bool :=
  decide (v ≤ 0x81) || ((v = 0x82 || v = 0x83) && decide (b % 16 = 0))
    || (decide (0x90 ≤ v) && decide (v ≤ 0xB3) && (blockVault b).isSome)
    || (decide (0x100 ≤ v) && trackExists b (v - 0x100))

/-- An OSEL or ASRC is defined and names a track that exists (R222, R226). -/
def oselOk (b v : Nat) : Bool :=
  decide (v < 0x20) || v = 0xFF || (decide (0x20 ≤ v) && decide (v ≤ 0xDF) && trackExists b (v - 0x20))

/-- Every bit after the first `n` of a frame is 0. -/
def restZero (n : Nat) (fr : CfgFrame) : Bool := decide (fr.toNat % 2 ^ (1024 - n) = 0)

/-- Reserved frames and reserved parts of frames are 0 (R226, R239). -/
def reservedOk (b : Nat) (s : State) : Bool :=
  let fr (f : Nat) : CfgFrame := cfgFrame b f s
  (!memMode b s || (restZero 512 (fr 0) && (List.range 9).all (fun k => decide (fr (k + 1) = 0))))
    && restZero 579 (fr 20) && restZero 832 (fr 21) && restZero 384 (fr 22)
    && (decide (b = 0) || decide (cfgField (fr 22) 336 24 = 0))
    && (decide (b % 16 = 0) || decide (cfgField (fr 22) 360 24 = 0))
    && restZero 576 (fr 24)
    && restZero (if (blockVault b).isSome then 397 else 0) (fr 25)
    && restZero (if b = 0 then 126 else 0) (fr 26)
    && (List.range 21).all (fun k => decide (fr (27 + k) = 0))

/-- The inputs in use: literals of the product terms that take part in logic, and the roles of memory mode (R188, R195). -/
def inputUsed (b k : Nat) (s : State) : Bool :=
  (memMode b s && decide (k < 27))
    || (List.range 160).any (fun j => !(memMode b s && decide (j < 80))
      && decide (cfgField (cfgFrame b (j / 8) s) (128 * (j % 8) + 2 * k) 2 ≠ 0))

/-- A select names the local feedback of a macrocell in bypass. -/
def namesBypass (b sel : Nat) (s : State) : Bool := decide (sel < 32) && decide ((mcConfig (cfgFrame b 21 s) sel).regMode = 0)

/-- A macrocell's own fields (R184 to R189). -/
def macrocellOk (mem : Bool) (m : Nat) (c : McConfig) : Bool :=
  let alts := (List.range 5).filter (altUse c)
  decide (c.xorSel ≠ 3) && decide (c.clkSel ≤ 4) && decide (c.borrowBase + c.borrowN ≤ 32)
    && (!c.lend || (alts.isEmpty && decide (c.borrowN = 0)))
    && alts.all (fun j => !c.sumEn.testBit j)
    && (decide (c.regMode ≠ 3) || decide (c.clkSel = 4))
    && (!(mem && decide (m < 16)) || alts.isEmpty)

/-- The groups a macrocell borrows. -/
def borrows (c : McConfig) : List Nat := (List.range c.borrowN).map (· + c.borrowBase)

/-- The borrow windows of a block: never the macrocell's own group, only lent groups, each borrowed once, and none of groups 0 to
15 in memory mode. -/
def windowsOk (mem : Bool) (cs : List (Nat × McConfig)) : Bool :=
  let all := cs.flatMap (fun c => borrows c.2)
  decide (all.eraseDups.length = all.length)
    && cs.all (fun c => (borrows c.2).all (fun g =>
      decide (g ≠ c.1) && (!(mem && decide (g < 16))) && cs.any (fun d => d.1 = g && d.2.lend)))

/-- The port selects (R200): 33, constant 1, for egress only. -/
def portsFieldOk (b : Nat) (s : State) : Bool :=
  (List.range 64).all (fun k => decide (cfgField (cfgFrame b 22 s) (6 * k) 6 ≤ (if k < 16 then 33 else 32)))

/-- A Square's wires and Avenue drivers (R226). -/
def squareOk (b : Nat) (s : State) : Bool :=
  (List.range 128).all (fun o => oselOk b (oselOf b o s))
    && (List.range 64).all (fun k =>
      let v := asrcOf b k s
      if aenOf b k s then oselOk b v && decide (v ≠ 0x20 + 128 + k) else decide (v < 0xE0) || v = 0xFF)

/-- An attached Vault's fields (R209, R210). A Vault that is off ignores its inputs, so none of them is in use.
DEDUCED (log entry 77). -/
def vaultOk (b : Nat) (s : State) : Bool :=
  match blockVault b with
  | none => true
  | some v =>
    let sels := (List.range 41).map (fun k => cfgField (vaultFrame v s) (9 * k) 9)
    sels.all (inselOk b) && decide (vaultRst v s ≠ 3) && (decide (vaultMode v s = 0) || sels.all (fun x => !namesBypass b x s))

/-- The clock trees (R232), held in block 0. -/
def treesOk (s : State) : Bool :=
  [1, 2, 3].all (fun k =>
    let csrc := ctField k 0 2 s
    decide (csrc ≠ 3) && (decide (csrc ≠ 1) || decide (ctField k 10 8 s < ctField k 2 8 s + 1)))

/-- A block passes R188, R226 and R232, but for Avenues with two drivers. -/
def blockOk (b : Nat) (s : State) : Bool :=
  let mem := memMode b s
  let cs := (List.range 32).map (fun m => (m, mcConfig (cfgFrame b 21 s) m))
  reservedOk b s
    && (List.range 64).all (fun k => inselOk b (inselOf b k s) && !(inputUsed b k s && namesBypass b (inselOf b k s) s))
    && cs.all (fun c => macrocellOk mem c.1 c.2) && windowsOk mem cs
    && portsFieldOk b s && squareOk b s && vaultOk b s && (decide (b ≠ 0) || treesOk s)

def fabricOk (s : State) : Bool := (List.range 128).all (fun b => blockOk b s)

/-- No Avenue has AEN = 1 in two Squares (R226). -/
def avenuesOk (s : State) : Bool := (List.range 768).all (fun a => decide ((avenueDrivers a s).length ≤ 1))

/-! ### Device parameters and geometry (R330, R647, R674) -/

/-- Bytes `i` to `i + n - 1` of a list as a number. -/
def byteField (bs : List Byte) (i n : Nat) : Nat := ofBytes ((bs.drop i).take n)

/-- The parameters that the 64 bytes hold; the mesh position and size come from unit 0x03. -/
def paramsOf (bs : List Byte) : Params where
  ringBase0 := byteField bs 0 4
  ringBase1 := byteField bs 8 4
  ringLog0 := byteField bs 4 1
  ringLog1 := byteField bs 12 1
  maLag := byteField bs 16 1 / 16
  mrec := (byteField bs 16 1).testBit 0
  siteMapBase := byteField bs 20 4

/-- A Ledger ring is of a size R298 allows, aligned to it, and below the configuration shadow. -/
def ringOk (base log : Nat) : Bool :=
  decide (16 ≤ log) && decide (log ≤ 22) && decide (base % 2 ^ log = 0) && decide (base + 2 ^ log ≤ 0xE00000)

/-- The parameter bytes pass R647. -/
def paramsOk (bs : List Byte) : Bool :=
  let p := paramsOf bs
  ringOk p.ringBase0 p.ringLog0 && ringOk p.ringBase1 p.ringLog1
    && decide (p.siteMapBase % 8 = 0) && decide (p.siteMapBase + 128 * 128 ≤ 0xE00000)
    && decide (byteField bs 16 1 / 2 % 8 = 0) && decide (byteField bs 17 1 % 32 = 0)
    && decide (byteField bs 5 3 = 0) && decide (byteField bs 13 3 = 0) && decide (byteField bs 18 2 = 0)
    && decide (byteField bs 24 40 = 0)

/-- The geometry that 16 bytes hold (R674). -/
def geometryOf (bs : List Byte) : Geometry where
  siteFirst := byteField bs 0 2
  siteCount := byteField bs 2 2
  rowLsb := byteField bs 4 1
  rowWidth := byteField bs 5 1
  colLsb := byteField bs 6 1
  colWidth := byteField bs 7 1
  regLsb := byteField bs 8 1
  regWidth := byteField bs 9 1
  sr := byteField bs 10 1
  sc := byteField bs 11 1

def geometryReserved (bs : List Byte) : Nat := byteField bs 12 4

/-- The limits of R330. -/
def geometryOk (g : Geometry) : Bool :=
  decide (g.siteFirst ≤ 1023) && decide (g.siteCount ≤ 1024) && decide (g.siteFirst + g.siteCount ≤ 1024)
    && decide (g.rowLsb ≤ 39) && decide (1 ≤ g.rowWidth) && decide (g.rowWidth ≤ 20) && decide (g.rowLsb + g.rowWidth ≤ 40)
    && decide (g.colLsb ≤ 39) && decide (g.colWidth ≤ 12) && decide (g.colLsb + g.colWidth ≤ 40)
    && decide (g.regLsb ≤ 39) && decide (g.regWidth ≤ 4) && decide (g.regLsb + g.regWidth ≤ 40)
    && decide (g.sr ≤ 8) && decide (g.sc ≤ 8)
    && decide (g.siteCount * 2 ^ g.regWidth ≤ 4096)
    && decide (g.siteCount * 2 ^ g.regWidth * 2 * g.sr * g.sc ≤ 131072)

/-! ### What the loader derives from the schedule (R63, R90, R123, R645) -/

/-- The operand fields an instruction reads (R76). -/
def readOperands (x : BpInstr) : List (BitVec 11) :=
  match x.op with
  | .send | .meshSend | .stim => [x.a]
  | _ => if evaluating x.op then [x.a, x.b, x.c, x.d] else []

/-- OVERLAP_OK (R90): no counted instruction commits from index 256 on or reads a previous-bank word from 256 on. -/
def overlapOk (l : List Sched) : Bool :=
  l.all (fun e => !(committing e.x.op && decide (256 ≤ e.i))
    && (readOperands e.x).all (fun o => decide (operandSpace o ≠ 1) || decide (operandIndex o < 256)))

/-- An operand names a MESH_RX slot (R69). -/
def isMeshRx (o : BitVec 11) : Bool := decide (0x650 ≤ o.toNat) && decide (o.toNat ≤ 0x65B)

/-- MESH (R123): mesh links are present, and a counted instruction sends to the mesh or reads a receive slot. -/
def meshUsed (l : List Sched) (s : State) : Bool :=
  hasMesh s && l.any (fun e => decide (e.x.op = .meshSend) || (readOperands e.x).any isMeshRx)

/-- SCHED_INFO as a load sets it (R645). -/
def schedInfoOf (threeVal : Bool) (s : State) : Word :=
  let l := schedule s
  BitVec.ofNat 16 (threeVal.toNat * 2 ^ 15 + (overlapOk l).toNat * 2 ^ 14 + (meshUsed l s).toNat * 2 ^ 13 + imageLength s)

end Sys2Proof.Machine
end

