-- ==== Sys2Proof/Machine/Loading.lean ====
section
/-! DEFINITION. Loading an image: the frame aperture, frame acceptance, the manifest, crossing and placement, repeats, the checks,
start-up, the security bits and key slots (R403 to R451). -/

namespace Sys2Proof.Machine

/-! ### Frames (R406 to R409) -/

/-- A frame's header and its fields. -/
def frameHeader (bs : List Byte) : BitVec 256 := BitVec.ofNat 256 (ofBytes (bs.take 32))
def hMagicOk (h : BitVec 256) : Bool := fld h 255 240 = 0x5A52 && fld h 239 232 = 1
def hKind (h : BitVec 256) : Nat := fld h 231 228
def hPlain (h : BitVec 256) : Bool := h.getLsbD 227
def hFrame (h : BitVec 256) : Nat := fld h 223 192
def hSection (h : BitVec 256) : Nat := fld h 191 176
def hGroups (h : BitVec 256) : Word := h.extractLsb' 160 16
def hDevice (h : BitVec 256) : Byte := h.extractLsb' 152 8
def hEpoch (h : BitVec 256) : Nat := fld h 151 136
def hPlen (h : BitVec 256) : Nat := fld h 135 120
def hNonce (h : BitVec 256) : QWord := h.extractLsb' 48 64
def hIndex (h : BitVec 256) : Nat := fld h 47 24

/-- Payload bytes of a frame. -/
def payloadMax : Nat := 4048

/-- Addressed to this device (R416). -/
def addressedTo (groups : Word) (device : Byte) (s : State) : Bool :=
  groups.getLsbD s.loader.group.toNat && (device = 0xFF#8 || device = s.loader.devIndex)

/-- A frame addressed to this device: manifest and ROLL frames always are. -/
def frameAddressed (h : BitVec 256) (s : State) : Bool :=
  hKind h = 1 || hKind h = 2 || addressedTo (hGroups h) (hDevice h) s

/-- LOAD_STATUS.STATE (R433). -/
def loadState (s : State) : Nat := fld s.regs.loadStatus 15 13
def stReceiving : Nat := 1
def stVerifying : Nat := 2
def stStarting : Nat := 3
def stLoaded : Nat := 4

/-! ### Counts, repeats and the repeat ring (R424 to R429) -/

def countDiscarded (s : State) : State := { s with loader := { s.loader with discarded := satInc s.loader.discarded } }
def countFailed (s : State) : State := { s with loader := { s.loader with failed := satInc s.loader.failed } }
def countDropped (s : State) : State := { s with loader := { s.loader with dropped := satInc s.loader.dropped } }

/-- The frame of a number that the device holds. -/
def heldFrame (n : Nat) (s : State) : Option HeldFrame := s.loader.frames.find? (fun f => f.number = n)
def holdsFrame (n : Nat) (s : State) : Bool := (heldFrame n s).isSome

/-- The 8-byte entry of a request (R428). -/
def repeatEntry (r : RepeatReq) (s : State) : Nat :=
  r.frame * 2 ^ 32 + r.reason.toNat * 2 ^ 24 + s.loader.group.toNat * 2 ^ 12 + s.loader.devIndex.toNat

/-- Write waiting requests while the ring has room (R300, R428); `n` bounds how many. -/
def writeRepeats : Nat → State → State
  | 0, s => s
  | n + 1, s =>
    let c := s.stream.rep
    match s.loader.repeats.find? (fun r => !r.written) with
    | none => s
    | some r =>
      if hostRoom c c.next then
        let s1 := hostWrite (c.base.toNat + 8 * (c.next % 2 ^ c.size.toNat)) 8 (repeatEntry r s) s
        writeRepeats n { s1 with
          stream := { s1.stream with rep := { c with next := c.next + 1, lastWb := c.next + 1 } }
          loader := { s1.loader with repeats := markFirst s1.loader.repeats } }
      else s
where
  /-- The oldest waiting request has been written. -/
  markFirst : List RepeatReq → List RepeatReq
    | [] => []
    | r :: rest => if r.written then r :: markFirst rest else { r with written := true } :: rest

/-- Write what may be written, then the producer index to RWB, and signal the image vector (R428, R610). -/
def drainRepeats (s : State) : State :=
  let s1 := writeRepeats s.loader.repeats.length s
  if s1.stream.rep.next = s.stream.rep.next then s
  else msix 2 (hostWrite s1.stream.rep.wb.toNat 4 s1.stream.rep.next s1)

/-- Request a repeat of a frame (R426 to R428). -/
def requestRepeat (n reason : Nat) (s : State) : State :=
  drainRepeats { s with loader := { s.loader with
    repeats := s.loader.repeats ++ [⟨n, BitVec.ofNat 8 reason, false⟩]
    repeated := satInc s.loader.repeated } }

/-- REPEAT_RETRY: a request unanswered for 2 ms is repeated, until the load ends (R427). -/
def execRepeatRetry (n : Nat) (s : State) : Host.Outcome State Fault Refusal :=
  .next (if s.loader.active && s.loader.repeats.any (fun r => r.frame = n) && !holdsFrame n s then requestRepeat n 6 s else s)

/-- RCONS (R428). -/
def writeRcons (v : DWord) (s : State) : State :=
  drainRepeats { s with stream := { s.stream with rep := { s.stream.rep with cons := v } } }
def execRcons (v : DWord) (s : State) : Host.Outcome State Fault Refusal := .next (writeRcons v (dropKeys .pcie s))

/-- RSIZE (R16, R428): numbering starts again from 0. -/
def writeRsize (v : BitVec 5) (s : State) : State :=
  let ok := decide (v = 0) || (decide (4 ≤ v.toNat) && decide (v.toNat ≤ 12))
  let s1 := if ok then s else setFault fcReservedWrite s
  drainRepeats { s1 with stream := { s1.stream with rep := { s1.stream.rep with
    size := if ok then v else 0, next := 0, lastWb := 0 } } }

/-! ### The manifest (R410 to R414) -/

/-- Bytes of a unit's space, and its instances; none for a reserved UNIT (R412). -/
def unitSpace (u : Nat) : Option (Nat × Nat) :=
  match u with
  | 1 => some (0x4000000, 1)
  | 2 => some (0x80000, 1)
  | 3 => some (4100, 1)
  | 4 => some (0xC0000, 1)
  | 5 => some (0xC0000, 1)
  | 6 => some (0x20000, 1)
  | 7 => some (0xE00000, 1)
  | 8 => some (0xE00000, 1)
  | 9 => some (0x40000, 4)
  | 0xA => some (64, 1)
  | 0xB => some (16, 1)
  | _ => none

/-- A section entry from its 16 bytes. -/
def sectionOf (bs : List Byte) : SectionEntry :=
  let e : Record := BitVec.ofNat 128 (ofBytes bs)
  { number := fld e 127 112
    unit := e.extractLsb' 104 8
    index := fld e 103 96
    groups := e.extractLsb' 80 16
    device := e.extractLsb' 72 8
    galleries := fld e 71 64
    dest := fld e 63 32
    length := fld e 31 0 }

/-- The section is addressed to this device. -/
def sectionAddressed (e : SectionEntry) (s : State) : Bool := addressedTo e.groups e.device s

/-- UNIT, INDEX and range of an entry (R413). -/
def sectionRangeOk (e : SectionEntry) : Bool :=
  match unitSpace e.unit.toNat with
  | none => false
  | some (n, k) => decide (e.index < k) && decide (e.dest + e.length ≤ n)

/-- Two sections occupy one space: units 0x07 and 0x08 share Common Store (R412). -/
def sameSpace (a b : SectionEntry) : Bool :=
  (a.unit = b.unit && a.index = b.index)
    || ((a.unit = 7#8 || a.unit = 8#8) && (b.unit = 7#8 || b.unit = 8#8))

/-- No two sections of a list overlap (R413). -/
def noOverlap : List SectionEntry → Bool
  | [] => true
  | e :: rest => rest.all (fun f => !(sameSpace e f && decide (e.dest < f.dest + f.length) && decide (f.dest < e.dest + e.length)))
      && noOverlap rest

/-- The sections of a unit cover its whole space: none overlaps, so their lengths add up to it (R414). -/
def covers (u : Nat) (es : List SectionEntry) : Bool :=
  decide (((es.filter (fun e => e.unit.toNat = u)).map (fun e => e.length)).sum = ((unitSpace u).getD (0, 0)).1)

/-- R414. -/
def coverageOk (es : List SectionEntry) : Bool :=
  covers 4 es && covers 5 es
    && (List.range 4).all (fun k => es.any (fun e => e.unit = 9#8 && e.index = k))
    && ((es.filter (fun e => e.unit = 0xA#8)).map (fun e => (e.dest, e.length)) = [(0, 64)])

/-- A section that this variant skips (R10, R413). -/
def sectionSkipped (e : SectionEntry) (s : State) : Bool :=
  (e.unit = 3#8 && !hasMesh s) || (e.unit = 0xB#8 && !hasRepair s)

/-- A section of the manifest is addressed to this device and placed. -/
def sectionPlaced (e : SectionEntry) (s : State) : Bool := sectionAddressed e s && !sectionSkipped e s

/-- The sections that this load places. -/
def placedSections (s : State) : List SectionEntry := s.loader.sections.filter (fun e => sectionPlaced e s)

/-- The section that a data frame belongs to: one addressed to this device first. -/
def sectionOfFrame (h : BitVec 256) (s : State) : Option SectionEntry :=
  match s.loader.sections.find? (fun e => e.number = hSection h && sectionAddressed e s) with
  | some e => some e
  | none => s.loader.sections.find? (fun e => e.number = hSection h)

/-- A data frame lies in its section's range (R411). DEDUCED (log entry 65). -/
def frameInRange (h : BitVec 256) (e : SectionEntry) : Bool :=
  decide (hIndex h * payloadMax < e.length) && decide (hPlen h = min payloadMax (e.length - payloadMax * hIndex h))

/-! ### Crossing (R418, R425) -/

/-- The placement prefix. -/
def placementPrefix (h : BitVec 256) (e : SectionEntry) : Record :=
  BitVec.ofNat 128 (e.unit.toNat * 2 ^ 120 + e.index * 2 ^ 112 + (e.dest + payloadMax * hIndex h) * 2 ^ 64
    + hPlen h * 2 ^ 48 + e.number * 2 ^ 32)

/-- The IMAGE_FRAME parts of a frame: 46 bytes to a part (R38). -/
def sendParts (n part : Nat) (bs : List Byte) : Nat → State → State
  | 0, s => s
  | k + 1, s =>
    let now := bs.take 46
    let len := now.length
    sendParts n (part + 1) (bs.drop 46) k
      (sendMsg .hostToField 0x04 (6 + len) ((((n % 2 ^ 32) * 256 + part % 256) * 256 + len) * 2 ^ (8 * len) + ofBytes now) s)

/-- A received data frame of a placed section goes on its way: Curator firmware stays on the host die, the rest crosses. -/
def sendFrame (f : HeldFrame) (e : SectionEntry) (s : State) : State :=
  let n := f.number
  if e.unit = 9#8 && e.index = 0 then
    { s with loader := { s.loader with
        shadowUpdate := s.loader.shadowUpdate ++ [(e.dest + payloadMax * hIndex f.header, f.payload)]
        buffered := ndel s.loader.buffered n
        placed := nins s.loader.placed n } }
  else
    let bs := bytesOf 16 (placementPrefix f.header e).toNat ++ f.payload
    sendParts n 0 bs ((bs.length + 45) / 46) { s with loader := { s.loader with begun := nins s.loader.begun n } }

/-- Bytes written over a list from an offset, in a space of `n` bytes. -/
def overlay (n off : Nat) (bs old : List Byte) : List Byte :=
  (List.range n).map (fun i => if off ≤ i && i < off + bs.length then lget 0 bs (i - off) else lget 0 old i)

/-- The content checks of units 0x0A and 0x0B once their frames are received (R436): the failure code, if any. -/
def contentFault (e : SectionEntry) (s : State) : Option Nat :=
  if e.unit = 0xA#8 && !paramsOk s.loader.paramBytes then some ldFormat
  else if e.unit = 0xB#8 && decide (geometryReserved s.loader.geometryBytes ≠ 0) then some ldFormat
  else if e.unit = 0xB#8 && !geometryOk (geometryOf s.loader.geometryBytes) then some ldCapacity
  else none

/-- Take the content of a parameter or geometry frame. -/
def noteContent (f : HeldFrame) (e : SectionEntry) (s : State) : State :=
  let off := e.dest + payloadMax * hIndex f.header
  if e.unit = 0xA#8 then
    { s with loader := { s.loader with paramBytes := overlay 64 off f.payload s.loader.paramBytes } }
  else if e.unit = 0xB#8 then
    { s with loader := { s.loader with geometryBytes := overlay 16 off f.payload s.loader.geometryBytes } }
  else s

/-- A held data frame once the manifest is decided: its range, and its way if its section is placed (R411, R413, R417). -/
def dispatchFrame (f : HeldFrame) (s : State) : State :=
  if loadState s ≠ stReceiving then s
  else
    match sectionOfFrame f.header s with
    | none => failLoad ldFormat s
    | some e =>
      if !frameInRange f.header e then failLoad ldFormat s
      else if !(frameAddressed f.header s && sectionPlaced e s) then
        { s with loader := { s.loader with buffered := ndel s.loader.buffered f.number } }
      else
        let s1 := noteContent f e s
        match contentFault e s1 with
        | some code => failLoad code s1
        | none => sendFrame f e s1

/-- Data frames held before the manifest was decided, in frame order. -/
def dispatchHeld (s : State) : State :=
  ((s.loader.frames.filter (fun f => hKind f.header = 0)).mergeSort (fun a b => a.number ≤ b.number)).foldl
    (fun s f => dispatchFrame f s) s

/-- Decide every section entry of a complete manifest (R413, R414): FORMAT, then CAPACITY. -/
def decideManifest (m : List Byte) (s : State) : State :=
  let head : BitVec 256 := BitVec.ofNat 256 (ofBytes (m.take 32))
  let n := fld head 191 176
  let all := (List.range n).map (fun i => sectionOf ((m.drop (32 + 16 * i)).take 16))
  let es := all.filter (fun e => sectionAddressed e s)
  if fld head 255 240 ≠ 0x1640 || decide (m.length < 32 + 16 * n) || !es.all sectionRangeOk || !noOverlap es
      || !coverageOk es then failLoad ldFormat s
  else if es.any (fun e => decide (galleryCount s < e.galleries)) then failLoad ldCapacity s
  else
    let skipped := (es.filter (fun e => sectionSkipped e s)).map (fun e => e.number)
    dispatchHeld { s with
      regs := if skipped.isEmpty then s.regs else { s.regs with loadStatus := setBit s.regs.loadStatus 12 true }
      loader := { s.loader with
        manifestDone := true
        frameCount := fld head 223 192
        imageId := head.extractLsb' 112 64
        sections := all
        skipped := skipped } }

/-- A manifest frame has been held (R410): its head fixes MFRAMES; once all are held the manifest is decided.
DEDUCED (log entry 67). -/
def noteManifest (s : State) : State :=
  match heldFrame 0 s with
  | none => s
  | some f0 =>
    let head : BitVec 256 := BitVec.ofNat 256 (ofBytes ((f0.payload ++ List.replicate 32 0).take 32))
    let n := fld head 239 224
    if hKind f0.header ≠ 1 then s
    else if n = 0 || decide (64 < n) then failLoad ldFormat s
    else if s.loader.frames.any (fun f => decide ((hKind f.header = 1) ≠ (f.number < n))) then failLoad ldFormat s
    else
      let s1 := { s with loader := { s.loader with manifestFrames := n } }
      if s1.loader.manifestDone || (List.range n).any (fun k => !holdsFrame k s1) then s1
      else decideManifest ((List.range n).flatMap (fun k => match heldFrame k s1 with | some f => f.payload | none => [])) s1

/-- The addressed trailers held. -/
def trailers (s : State) : List HeldFrame :=
  s.loader.frames.filter (fun f => hKind f.header = 3 && frameAddressed f.header s)

/-- Once the manifest and the addressed trailer are held, every missing frame is requested (R427). -/
def askMissing (s : State) : State :=
  if s.loader.active && s.loader.manifestDone && !s.loader.asked && !(trailers s).isEmpty then
    ((List.range s.loader.frameCount).filter (fun k => !holdsFrame k s)).foldl (fun s k => requestRepeat k 4 s)
      { s with loader := { s.loader with asked := true } }
  else s

/-! ### Acceptance (R417, R422, R426) -/

/-- The slot named at BEGIN holds a key that the key store may read (R422, R446). DEDUCED (log entry 63). -/
def slotUsable (s : State) : Bool :=
  s.otp.programmed.getLsbD s.loader.slot.toNat && !s.otp.retired.getLsbD s.loader.slot.toNat

/-- The key of an epoch of this load (R419). -/
def loadKey (h : BitVec 256) (s : State) : BitVec 256 := epochKey (hNonce h) (tget 0 s.otp.keys s.loader.slot.toNat) (hEpoch h)

/-- The plaintext payload area of a frame whose tag, or plain CRC, checks (R407, R408). -/
def openFrame (bs : List Byte) (h : BitVec 256) (s : State) : Option (List Byte) :=
  if hPlain h then
    if crc32c (bs.take 4080) = ofBytes ((bs.drop 4080).take 4) && ofBytes (bs.drop 4084) = 0 then some ((bs.drop 32).take payloadMax)
    else none
  else
    (gcmOpen (loadKey h s) ((hNonce h).toNat * 2 ^ 32 + hFrame h) ((bs.take 32).map BitVec.toNat)
      (((bs.drop 32).take payloadMax).map BitVec.toNat) (ofBytes (bs.drop 4080))).map (fun p => p.map (BitVec.ofNat 8))

/-- The frame's own format (R406, R410, R433): a defined FKIND, PLEN within the payload, nothing beyond it, and manifest frames
exactly below MFRAMES. DEDUCED (log entry 64). -/
def frameFormatOk (h : BitVec 256) (area : List Byte) (s : State) : Bool :=
  decide (hKind h ≤ 3) && decide (hPlen h ≤ payloadMax) && (area.drop (hPlen h)).all (fun b => b = 0)
    && (decide (s.loader.manifestFrames = 0) || decide ((hKind h = 1) = (hFrame h < s.loader.manifestFrames)))

/-- A data frame that may have to cross waits in the buffer of 64 (R425). -/
def needsBuffer (h : BitVec 256) (s : State) : Bool :=
  hKind h = 0 && frameAddressed h s
    && (!s.loader.manifestDone || (sectionOfFrame h s).any (fun e => sectionPlaced e s))

/-- A well-formed new frame is held, or dropped for want of buffer. -/
def holdFrame (h : BitVec 256) (area : List Byte) (s : State) : State :=
  let n := hFrame h
  let f : HeldFrame := ⟨n, h, area.take (hPlen h)⟩
  if needsBuffer h s && decide (64 ≤ s.loader.buffered.length) then requestRepeat n 5 (countDropped s)
  else
    let s1 := { s with loader := { s.loader with
      frames := s.loader.frames ++ [f]
      buffered := if needsBuffer h s then nins s.loader.buffered n else s.loader.buffered } }
    let s2 := if hKind h = 1 then noteManifest s1
      else if hKind h = 0 && s1.loader.manifestDone then dispatchFrame f s1
      else s1
    askMissing s2

/-- A valid frame: the first one fixes IMAGE_NONCE and PLAIN (R422, R426, R433). DEDUCED (log entry 62). -/
def acceptFrame (h : BitVec 256) (area : List Byte) (s : State) : State :=
  let s1 := match s.loader.nonce with
    | some _ => s
    | none => { s with
        loader := { s.loader with nonce := some (hNonce h), plainSeen := some (hPlain h) }
        regs := { s.regs with loadStatus := setBit s.regs.loadStatus 9 (hPlain h) } }
  if s1.loader.plainSeen ≠ some (hPlain h) || !frameFormatOk h area s1 then failLoad ldFormat s1
  else holdFrame h area s1

/-- A frame taken from its slot while the load receives. -/
def checkFrameBytes (bs : List Byte) (s : State) : State :=
  let h := frameHeader bs
  if !hMagicOk h then countDiscarded s
  else if (if hPlain h then s.otp.authOnly else !slotUsable s) then failLoad ldKey s
  else if s.loader.nonce.any (fun x => x ≠ hNonce h) || holdsFrame (hFrame h) s then countDiscarded s
  else
    let s1 := if hPlain h then s else
      { s with loader := { s.loader with keyEpochs := (s.loader.keyEpochs.filter (fun k => k.1 ≠ hEpoch h)) ++ [(hEpoch h, loadKey h s)] } }
    match openFrame bs h s with
    | none => requestRepeat (hFrame h) 3 (countFailed s1)
    | some area => acceptFrame h area s1

/-! ### The aperture (R424, R450, R451) -/

/-- FRAME_APERTURE_WRITE: bytes of a slot; a full slot that has not been taken discards them. -/
def putAperture (slot off : Nat) (bs : List Byte) (s : State) : State :=
  let t := tget [] s.loader.aperture slot
  if 4096 ≤ t.length then countDiscarded s
  else
    let put := (bs.take (4096 - off)).foldl (fun (x : Table Byte × Nat) b => (tput x.1 x.2 b, x.2 + 1)) (t, off)
    { s with loader := { s.loader with aperture := tput s.loader.aperture slot put.1 } }

/-- A write that runs past its slot continues in the next one. -/
def execFrameApertureWrite (slot off : Nat) (bs : List Byte) (s : State) : Host.Outcome State Fault Refusal :=
  .next (if decide (slot < 64) && decide (off < 4096) && !bs.isEmpty then
      let first := bs.take (4096 - off)
      let s1 := putAperture slot off first s
      let rest := bs.drop (4096 - off)
      (List.range ((rest.length + 4095) / 4096)).foldl (fun s k =>
        if slot + 1 + k < 64 then putAperture (slot + 1 + k) 0 ((rest.drop (4096 * k)).take 4096) s else s) s1
    else s)

/-- IMAGE_FRAME_TAKE: a slot whose 4,096 bytes are all written. -/
def takeSlot (slot : Nat) (s : State) : State :=
  let t := tget [] s.loader.aperture slot
  if t.length < 4096 then s
  else
    let s1 := { s with loader := { s.loader with aperture := tdel s.loader.aperture slot } }
    if !s.loader.active then setFault fcCfgWrite (countDiscarded s1)
    else if loadState s ≠ stReceiving then countDiscarded s1
    else checkFrameBytes (t.map (fun e => e.2)) s1
def execImageFrameTake (slot : Nat) (s : State) : Host.Outcome State Fault Refusal := .next (takeSlot slot s)

/-! ### Placement on the field side (R412, R418) -/

/-- A byte of an item: byte `k` of the item's `n`, most significant first. -/
def putByteIn {w : Nat} (n k : Nat) (b : Byte) (old : BitVec w) : BitVec w := setFld old (8 * (n - 1 - k) + 7) (8 * (n - 1 - k)) b.toNat

/-- Instruction stores. -/
def placeInstr (o : Nat) (b : Byte) (a : ArrayState) : ArrayState :=
  let item := o / 8
  let key := (256 * (item / 131072) + item % 256) * 512 + item / 256 % 512
  { a with
    instr := tset endWord a.instr key (putByteIn 8 (o % 8) b (tget endWord a.instr key))
    instrDev := tdel a.instrDev key
    instrPoison := ndel a.instrPoison key }

/-- Route tables: entry p of row i of Gallery g. -/
def placeRoute (o : Nat) (b : Byte) (a : ArrayState) : ArrayState :=
  let key := o / 2
  { a with
    routes := tset 0 a.routes key (putByteIn 2 (o % 2) b (tget 0 a.routes key))
    routeDev := tdel a.routeDev (key / 4)
    routePoison := ndel a.routePoison (key / 4) }

/-- Mesh tables: 24 bits of each 32-bit word are entries. -/
def placeMeshRow (t : Table (BitVec 24)) (i k : Nat) (b : Byte) : Table (BitVec 24) :=
  if k = 0 then t else tset 0 t i (putByteIn 3 (k - 1) b (tget 0 t i))
def placeMesh (o : Nat) (b : Byte) (s : State) : State :=
  let i := o % 2048 / 4
  let a := s.array
  let fresh (a : ArrayState) : ArrayState := { a with meshDev := tdel a.meshDev i, meshPoison := ndel a.meshPoison i }
  if o < 2048 then { s with array := fresh { a with meshSendTab := placeMeshRow a.meshSendTab i (o % 4) b } }
  else if o < 4096 then { s with array := fresh { a with meshRecvTab := placeMeshRow a.meshRecvTab i (o % 4) b } }
  else if o < 4098 then
    { s with params := { s.params with meshPos := (putByteIn 2 (o % 2) b (BitVec.ofNat 16 s.params.meshPos)).toNat } }
  else { s with params := { s.params with meshSize := (putByteIn 2 (o % 2) b (BitVec.ofNat 16 s.params.meshSize)).toNat } }

/-- Vault words. -/
def placeVault (o : Nat) (b : Byte) (f : Fabric) : Fabric :=
  { f with
    vaultWords := tset 0 f.vaultWords (o / 2) (putByteIn 2 (o % 2) b (tget 0 f.vaultWords (o / 2)))
    vaultDev := tdel (tdel f.vaultDev (2 * (o / 2))) (2 * (o / 2) + 1) }

/-- A byte of a core's local memory. -/
def placeFirmware (core o : Nat) (b : Byte) (s : State) : State :=
  { s with
    cores := { s.cores with localMem := tset 0 s.cores.localMem (core * 0x40000 + o) b }
    protection := { s.protection with localDev := tdel s.protection.localDev (core * 0x40000 + o) } }

/-- Bytes placed one after the other. -/
def placeAll (f : Nat → Byte → State → State) (o : Nat) : List Byte → State → State
  | [], s => s
  | b :: rest, s => placeAll f (o + 1) rest (f o b s)

/-- The live frames that a range of the shadow's bytes touches take the shadow's content. -/
def refreshFrames (o n : Nat) (s : State) : State :=
  { s with fabric := { s.fabric with
      frames := (List.range ((o + n + 127) / 128 - o / 128)).foldl (fun t k =>
        let f := o / 128 + k
        if f < 6144 then tset 0 t f (BitVec.ofNat 1024 (csNat (0xE00000 + 128 * f) 128 s.store)) else t) s.fabric.frames } }

/-- Place the bytes of a frame in its unit from an offset (R412, R418). -/
def placeBytes (u idx o : Nat) (bs : List Byte) (s : State) : State :=
  match u with
  | 1 => placeAll (fun o b s => { s with array := placeInstr o b s.array }) o bs s
  | 2 => placeAll (fun o b s => { s with array := placeRoute o b s.array }) o bs s
  | 3 => placeAll placeMesh o bs s
  | 4 => refreshFrames o bs.length (csWrite (0xE00000 + o) bs s)
  | 5 => csWrite (0xEC0000 + o) bs s
  | 6 => placeAll (fun o b s => { s with fabric := placeVault o b s.fabric }) o bs s
  | 7 => csWrite o bs s
  | 8 => csWrite o bs s
  | 9 => placeAll (placeFirmware idx) o bs s
  | _ => s

/-- The delivered parts of a frame leave the inbox. -/
def popParts (n : Nat) (s : State) : State :=
  let mine (m : Msg) : Bool := m.typ = 4#8 && decide ((m.payload.extractLsb' 384 32).toNat = n % 2 ^ 32)
  { s with barrier := { s.barrier with toField := { s.barrier.toField with
      inbox := s.barrier.toField.inbox.filter (fun m => !mine m) } } }

/-- IMAGE_FRAME: the parts of a frame have all reached the field side, which writes it (R418). -/
def placeFrame (n : Nat) (pre : Record) (payload : List Byte) (s : State) : State :=
  let s1 := popParts n s
  if s.loader.active && s.loader.begun.contains n then
    let u := fld pre 127 120
    let idx := fld pre 119 112
    let bs := payload.take (fld pre 63 48)
    let fits := match unitSpace u with
      | none => false
      | some (size, k) => decide (idx < k) && decide (fld pre 95 64 + bs.length ≤ size)
    let s2 := if fits then placeBytes u idx (fld pre 95 64) bs s1 else s1
    { s2 with loader := { s2.loader with
        begun := ndel s2.loader.begun n
        buffered := ndel s2.loader.buffered n
        placed := nins s2.loader.placed n } }
  else s1
def execImageFrame (n : Nat) (pre : Record) (payload : List Byte) (s : State) : Host.Outcome State Fault Refusal :=
  .next (if fieldAwake s then placeFrame n pre payload s else s)

/-- REPEAT_REQUEST: the frame ceases to be held, and its repeat is requested of the host (R38, R426, R430). -/
def takeRepeatRequest (n reason : Nat) (s : State) : State :=
  let s1 := popHostInbox 0x05 s
  if s.loader.active && (loadState s = stReceiving || loadState s = stVerifying) then
    let l := s1.loader
    requestRepeat n reason (setLoadState stReceiving { s1 with loader := { l with
      frames := l.frames.filter (fun f => f.number ≠ n)
      buffered := ndel l.buffered n
      begun := ndel l.begun n
      placed := ndel l.placed n } })
  else s1
def execRepeatRequest (n : Nat) (reason : Byte) (s : State) : Host.Outcome State Fault Refusal :=
  .next (takeRepeatRequest n reason.toNat s)

/-- FIELD_RESET_DURING_LOAD: after its reset the field side asks for every frame it had begun and not yet placed (R430). -/
def execFieldResetDuringLoad (s : State) : Host.Outcome State Fault Refusal :=
  .next (if s.loader.active && (loadState s = stReceiving || loadState s = stVerifying) then
      let s1 := { s with loader := { s.loader with
        begun := [], buffered := s.loader.buffered.filter (fun n => !s.loader.begun.contains n) } }
      s.loader.begun.foldl (fun s n => sendMsg .fieldToHost 0x05 5 ((n % 2 ^ 32) * 256 + 2) s) s1
    else s)

/-! ### Beginning and ending a load (R403 to R405, R431 to R438) -/

/-- A call that the Curator answers without a field unit (R438). -/
def hostCall (call : Word) : Bool :=
  call = 0xF#16 || curatorServes call.toNat

/-- Calls that need a field unit end with BUSY while a load is in progress (R438). -/
def busyCalls (s : State) : State :=
  (s.cores.calls.filter (fun c => !hostCall c.call)).foldl (fun s c => reply c resBusy [] s) s

/-- A load takes place in Standby: a Dormant field side is woken to it (R405, R527), an Armed one leaves Armed, to which start-up
brings it back (R442). DEDUCED. -/
def wakeForLoad (s : State) : State :=
  if s.power.field = .dormant then setWakeCause 2 { s with power := { s.power with target := some .standby } }
  else if armed s then reportPower 2 { s with power := { s.power with field := .standby } }
  else s

/-- The new load's state (R405, R433, R473, R485, R486). DEDUCED (log entry 66). -/
def freshLoad (slot : BitVec 2) (group : BitVec 4) (dev : Byte) (s : State) : State :=
  { s with
    loader := { active := true, slot := slot, group := group, devIndex := dev, aperture := s.loader.aperture }
    regs := { s.regs with
      loadControl := BitVec.ofNat 16 (slot.toNat * 4096 + group.toNat * 256 + dev.toNat)
      loadStatus := BitVec.ofNat 16 (stReceiving * 8192 + slot.toNat * 1024)
      loadElapsed := 0
      scrubControl := setBit s.regs.scrubControl 15 false }
    repair := {}
    fabric := { s.fabric with capture := none, stopCapture := none }
    conservator := { s.conservator with running := false }
    protection := { s.protection with unlocked := false } }

/-- A load begins (R403 to R405, R438). DEDUCED (log entries 71, 72). -/
def startLoad (slot : BitVec 2) (group : BitVec 4) (dev : Byte) (s : State) : State :=
  let s1 := leaveLockstep 6 (lapseLease (failLoad ldAbort s))
  let s2 := freshLoad slot group dev (disableFieldIo (dropBatches s1))
  busyCalls (wakeForLoad (putScrubBit 10 false (putScrubBit 12 false s2)))

/-- LOAD_BEGIN: it waits for a Common Store test in progress (R515). A DEV_INDEX of 0xFF is reserved and takes its reset value
(R16, R404). -/
def beginLoad (slot : BitVec 2) (group : BitVec 4) (dev0 : Byte) (s : State) : State :=
  let dev : Byte := if dev0 = 0xFF#8 then 0 else dev0
  let s1 := if dev0 = 0xFF#8 then setFault fcReservedWrite s else s
  if s.store.test = .idle then startLoad slot group dev s1
  else { s1 with loader := { s1.loader with waiting := some (slot, group, dev) } }

/-- A BEGIN that waited for a test begins once none is in progress (R515). DESIGN CHOICE (log entry 138). -/
def beginWaiting (s : State) : State :=
  match s.loader.waiting with
  | some (slot, group, dev) => if s.store.test = .idle then startLoad slot group dev s else s
  | none => s
def execLoadBegin (m : Master) (slot : BitVec 2) (group : BitVec 4) (dev : BitVec 8) (s : State) :
    Host.Outcome State Fault Refusal := .next (beginLoad slot group dev (dropKeys m s))

/-- LOAD_ABORT: no effect outside a load (R404). -/
def execLoadAbort (m : Master) (s : State) : Host.Outcome State Fault Refusal := .next (failLoad ldAbort (dropKeys m s))

/-- LOAD_DEADLINE: LOAD_ELAPSED reaches a deadline other than 0 before start-up (R431, R432). DESIGN CHOICE (log entries 4, 104). -/
def execLoadDeadline (s : State) : Host.Outcome State Fault Refusal :=
  .next (if s.loader.active && (loadState s = stReceiving || loadState s = stVerifying) && s.regs.loadDeadline ≠ 0 then
      failLoad ldDeadline { s with regs := { s.regs with loadElapsed := s.regs.loadDeadline } }
    else s)

/-! ### Verification (R420, R434 to R436) -/

/-- The epochs of the frames below FRAMES (R420): each ends at a ROLL frame or at its 1,024th frame. -/
def epochsOk (s : State) : Nat → Nat → Nat → Nat → Bool
  | 0, _, _, _ => true
  | n + 1, k, epoch, count =>
    match heldFrame k s with
    | none => false
    | some f =>
      let ends := decide (hKind f.header = 2) || decide (count + 1 = 1024)
      decide (hEpoch f.header = epoch) && (decide (hKind f.header ≠ 2) || decide (hPlen f.header = 0))
        && epochsOk s n (k + 1) (if ends then epoch + 1 else epoch) (if ends then 0 else count + 1)

/-- The manifest and data frames addressed to the device, in frame order (R435). -/
def countedFrames (s : State) : List HeldFrame :=
  (s.loader.frames.filter (fun f => (hKind f.header = 0 || hKind f.header = 1) && frameAddressed f.header s)).mergeSort
    (fun a b => a.number ≤ b.number)

/-- Exactly one trailer is addressed, above every other frame, and its NADDR is right (R435). DEDUCED (log entry 69). -/
def trailerOk (s : State) : Bool :=
  match trailers s with
  | [t] => decide (8 ≤ t.payload.length) && decide (byteField t.payload 4 4 = (countedFrames s).length)
      && s.loader.frames.all (fun f => hKind f.header = 3 || decide (f.number < t.number))
  | _ => false

/-- The trailer's CRC-32C matches. -/
def trailerCrcOk (s : State) : Bool :=
  match trailers s with
  | [t] => decide (byteField t.payload 0 4 = crc32c ((countedFrames s).flatMap (fun f => f.payload)))
  | _ => false

/-- VERIFY: every frame below FRAMES is held. -/
def verifyFrames (s : State) : State :=
  let s1 := setLoadState stVerifying s
  if !epochsOk s s.loader.frameCount 0 0 0 || !trailerOk s then failLoad ldFormat s1
  else if !trailerCrcOk s then failLoad ldTrailerCrc s1
  else s1
def execVerify (s : State) : Host.Outcome State Fault Refusal :=
  .next (if s.loader.active && loadState s = stReceiving && s.loader.manifestDone
        && (List.range s.loader.frameCount).all (fun k => holdsFrame k s) then verifyFrames s
    else s)

/-- Every addressed frame of a placed section has been placed. -/
def allPlaced (s : State) : Bool :=
  s.loader.frames.all (fun f =>
    !(hKind f.header = 0 && frameAddressed f.header s && (sectionOfFrame f.header s).any (fun e => sectionPlaced e s))
      || s.loader.placed.contains f.number)

/-- A byte offset of a unit lies in a placed section. DEDUCED (log entry 68). -/
def itemCovered (u o n : Nat) (s : State) : Bool :=
  (placedSections s).any (fun e => e.unit.toNat = u && decide (e.dest < o + n) && decide (o < e.dest + e.length))

/-- What no placed section covers takes its default (R415), and every codeword has fresh check bits. -/
def fillDefaults (s : State) : State :=
  let a := s.array
  { s with
    array := { a with
      instr := a.instr.filter (fun e => itemCovered 1 (((512 * (e.1 / 512 / 256) + e.1 % 512) * 256 + e.1 / 512 % 256) * 8) 8 s)
      routes := a.routes.filter (fun e => itemCovered 2 (2 * e.1) 2 s)
      meshSendTab := a.meshSendTab.filter (fun e => itemCovered 3 (4 * e.1) 4 s)
      meshRecvTab := a.meshRecvTab.filter (fun e => itemCovered 3 (2048 + 4 * e.1) 4 s)
      instrDev := []
      routeDev := []
      meshDev := []
      instrPoison := []
      routePoison := []
      meshPoison := [] }
    params := { s.params with
      meshPos := if itemCovered 3 4096 2 s then s.params.meshPos else 0
      meshSize := if itemCovered 3 4098 2 s then s.params.meshSize else 0 }
    fabric := { s.fabric with
      vaultWords := s.fabric.vaultWords.filter (fun e => itemCovered 6 (2 * e.1) 2 s)
      vaultDev := [] } }

/-- The bytes of a section from its held frames, in SINDEX order. -/
def sectionBytes (e : SectionEntry) (s : State) : List Byte :=
  (List.range ((e.length + payloadMax - 1) / payloadMax)).flatMap (fun k =>
    match s.loader.frames.find? (fun f => hKind f.header = 0 && frameAddressed f.header s && hSection f.header = e.number
        && hIndex f.header = k) with
    | some f => f.payload
    | none => [])

/-- A firmware section's signature holds (R434). -/
def signatureOk (e : SectionEntry) (s : State) : Bool :=
  let bs := sectionBytes e s
  decide (96 ≤ e.length) && ecdsaOk Config.signingKeyX Config.signingKeyY ((bs.take (e.length - 96)).map BitVec.toNat)
    (byteField bs (e.length - 96) 48) (byteField bs (e.length - 48) 48)

/-- The start addresses of the unload maps placed (R162). -/
def mapStarts (s : State) : List Nat := ((placedSections s).filter (fun e => e.unit = 8#8)).map (fun e => e.dest)

/-- Both banks are valid-cleared and the PLLs enabled (R439). -/
def beginStartUp (s : State) : State :=
  { putClkBit 15 false (putClkBit 14 false (setLoadState stStarting s)) with
    loader := { s.loader with verified := true, pllWait := true, umapStarts := (mapStarts s).foldl nins [] }
    array := { s.array with curValid := [], prevValid := [], curPoison := [], prevPoison := [], curDev := [], prevDev := [] }
    power := { s.power with
      clkInForce := s.inForce.clk, clkPrev := s.inForce.clk, clkDue := false, relockS := false, relockF := false } }

/-- VERIFICATION_DONE: the checks of the placed content, in the order of R436. -/
def verifyContent (s0 : State) : State :=
  let s := fillDefaults s0
  if !((placedSections s).filter (fun e => e.unit = 9#8)).all (fun e => signatureOk e s) then failLoad ldSignature s
  else if !scheduleOk (imageLength s) s then failLoad ldSchedule s
  else if !(mapStarts s).all (fun p => mapOk p s) then failLoad ldUnloadMap s
  else if !avenuesOk s then failLoad ldContention s
  else if !fabricOk s then failLoad ldFabric s
  else beginStartUp s
def execVerificationDone (s : State) : Host.Outcome State Fault Refusal :=
  .next (if s.loader.active && loadState s = stVerifying && allPlaced s then verifyContent s else s)

/-! ### Start-up (R439 to R442) -/

/-- The stages in release order: 0 outputs, 1 write enables, 2 resets (R440). -/
def stageOrder (order : Nat) : List Nat :=
  match order with
  | 0 => [0, 1, 2]
  | 1 => [0, 2, 1]
  | 2 => [1, 0, 2]
  | 3 => [1, 2, 0]
  | 4 => [2, 0, 1]
  | 5 => [2, 1, 0]
  | _ => [0, 1, 2]

/-- Routing and Avenue registers hold 0 when FCLK starts (R234). -/
def zeroRouting (f : Fabric) : Fabric :=
  { f with wires := List.replicate 128 0, avenueDrv := List.replicate 128 0, avenueRx := 0 }

/-- PLL_LOCK: both PLLs indicate lock; the first stage is 64 FCLK cycles away (R439). -/
def execPllLock (s : State) : Host.Outcome State Fault Refusal :=
  .next (if s.loader.active && s.loader.pllWait then
      { putClkBit 15 true (putClkBit 14 true s) with
        loader := { s.loader with
          pllWait := false
          stagesLeft := stageOrder (fld s.inForce.startup 10 8)
          releaseAt := s.power.fclk + 64 }
        fabric := zeroRouting s.fabric }
    else s)

/-- PLL_LOCK_TIMEOUT: a PLL has not locked 200 µs after enabling (R439). -/
def execPllLockTimeout (s : State) : Host.Outcome State Fault Refusal :=
  .next (if s.loader.active && s.loader.pllWait then failLoad ldPllLock s else s)

/-- What one stage releases (R217, R441). -/
def releaseStage (k : Nat) (s : State) : State :=
  match k with
  | 0 => { s with released := { s.released with outputs := true } }
  | 1 => { s with released := { s.released with writeEnables := true } }
  | _ => { s with
      released := { s.released with resets := true }
      fabric := { s.fabric with
        stored := (List.range 128).map (fun b => initWord b s)
        edge := List.replicate 128 0
        vaults := List.replicate 32 {}
        vaultIn := List.replicate 32 {}
        tR := s.power.fclk + 1 } }

/-- The frame CRC table (R455). -/
def writeFrameCrcs (s : State) : State :=
  csWrite 0xF80000 ((List.range 6144).flatMap (fun f => bytesOf 4 (frameCrcOf (tget 0 s.fabric.frames f)))) s

/-- The repair CRCs of the present Galleries and of the mesh tables (R455). -/
def writeRepairCrcs (s : State) : State :=
  let n := galleryCount s
  let s1 := csWrite 0xF90000 ((List.range (256 * n)).flatMap (fun b => bytesOf 4 (repairCrc (instrWords b s)))) s
  let s2 := csWrite 0xFA0000 ((List.range n).flatMap (fun g => bytesOf 4 (repairCrc (routeWords g s)))) s1
  csWrite 0xFA0100 (bytesOf 4 (repairCrc (meshWords s))) s2

/-- The schedule length of a Gallery (R104). -/
def galleryLength (g : Nat) (s : State) : Nat := (List.range 256).foldl (fun m bp => max m (bpLength (bpNum g bp) s)) 0

/-- Every Gallery's descriptor as a load leaves it, and the Galleries to be powered (R114, R115, R391). -/
def setGalleries (s : State) : State :=
  let present := List.range (galleryCount s)
  let fresh (g : Nat) : GalleryInfo := { tget {} s.array.galleries g with length := galleryLength g s, powered := false }
  let info := present.foldl (fun (t : Table GalleryInfo) g => tset {} t g (fresh g)) []
  let s1 := { s with array := { s.array with galleries := info } }
  { s1 with array := { s1.array with toPower := present.filter (fun g => galleryInUse g s1), powerGroup := 0 } }

/-- The frames that the Conservator skips: frame 0 of every memory-mode block (R477). -/
def skipMap (s : State) : NatSet := ((List.range 128).filter (fun b => memMode b s)).map (fun b => 48 * b)

/-- The Conservator starts at frame 0 with Warden's reference copy (R483, R485). The expected signature is that of the frame CRC
table. DEDUCED (log entry 74). -/
def startConservator (s : State) : State :=
  let ref : ConsSettings := { skip := skipMap s }
  let sig := signature (((List.range 6144).filter (fun f => !ref.skip.contains f)).map (fun f =>
    (f, BitVec.ofNat 32 (frameCrcOf (tget 0 s.fabric.frames f)))))
  putScrubBit 12 true (setSweep 0 { s with conservator := {
    copies := [ref, ref, ref], reference := ref, running := true, loadEnd := s.power.fclk, signatureAtLoad := sig } })

/-- What a link keeps of its past falls with a load (R264, R386); a named one trains on the transition to Armed. -/
def freshLink (l : FLink) (s : State) : State :=
  let k := flink l s
  setFlink l { k with
    everTrained := false
    retrainDue := linkNamed l s
    remeasureDue := false
    measured := false
    remeasureHeld := none
    failedCount := 0
    fallback := false
    fullDue := true
    lanes := k.lanes.map (fun x => { x with failedByDecision := false, stopRetry := false, handed := false, echo64 := 0 }) } s

/-- The sequence counters restart (R292). -/
def freshLedger (q : Ledger) : Ledger :=
  { q with seq := [], linkSeq := 0, seqAtCommit := [], linkSeqAtCommit := 0 }

/-- Routes for the present nodes in bank 0, epoch 0 current (R503). -/
def loadRoutes (s : State) : State :=
  let nodes := (List.range 128).filter (fun n => nodeExists n s)
  let bank0 := nodes.flatMap (fun r => nodes.map (fun d =>
    (r * 128 + d, BitVec.ofNat 16 (0x8000 + (if r = d then 4 else Config.freeRoute r d % 4)))))
  { s with store := { s.store with
      routes := bank0 ++ s.store.routes.filter (fun e => 16384 ≤ e.1)
      epoch := false
      routers := s.store.routers.map (fun e => (e.1, { e.2 with epoch := false })) } }

/-- The image's parameters and schedule take effect (R250, R322, R323, R330, R645, R647). -/
def applyParams (s : State) : State :=
  let bs := s.loader.paramBytes
  let b17 := byteField bs 17 1
  let w := s.regs.linkStatus
  let geometry := (placedSections s).any (fun e => e.unit = 0xB#8)
  { s with
    params := { paramsOf bs with meshPos := s.params.meshPos, meshSize := s.params.meshSize }
    regs := { s.regs with
      schedInfo := schedInfoOf (b17.testBit 5) s
      linkStatus := setBit (setBit w 3 (b17.testBit 7)) 7 (b17.testBit 6) }
    repair := { geometry := if geometry then some (geometryOf s.loader.geometryBytes) else none }
    imageId := s.loader.imageId }

/-- Every core starts: the Docents and Warden, and the Curator on its new firmware (R442). -/
def startCores (s : State) : State :=
  let s1 := s.loader.shadowUpdate.foldl (fun s x => placeAll (placeFirmware 0) x.1 x.2 s) s
  let go : CoreState → CoreState := fun c => { c with halted := false, cause := 0, atReset := false, restarting := false }
  { s1 with
    cores := { s1.cores with
      curator := go s1.cores.curator
      docentA := go s1.cores.docentA
      docentB := go s1.cores.docentB
      warden := go s1.cores.warden } }

/-- Batches and the batch ring start afresh (R142, R608). -/
def freshBatches (s : State) : State :=
  { s with
    batches := []
    history := []
    anyBatch := true
    fetchStopped := false
    stream := { s.stream with brFetch := 0, brRel := 0, brProd := 0 }
    egress := {}
    unload := {}
    array := { s.array with
      phase := .idle
      running := none
      stim := []
      bus := []
      flight := []
      rx := []
      meshHeld := []
      meshOut := []
      halves := []
      snapshotBatch := none
      awaiting := []
      repairHold := false
      patrolPos := 0
      patrolLast := []
      commits := [] }
    ledger0 := freshLedger s.ledger0
    ledger1 := freshLedger s.ledger1
    survey := { s.survey with stealSwitch := false, withheld := [], pending := [], measuring := false }
    twin := { s.twin with faultSinceCommit := false } }

/-- Start-up completes (R442). -/
def completeLoad (s0 : State) : State :=
  let now := s0.power.fclk + 1
  let s1 : State := { s0 with power := { s0.power with
    fclk := now, hostTimeAt := if s0.power.timeMarked then s0.power.hostTimeAt else now } }
  let s2 := startConservator (writeRepairCrcs (writeFrameCrcs (setGalleries (applyParams s1))))
  let s3 := freshLink .f1 (freshLink .f0 (loadRoutes (freshBatches s2)))
  let s4 := refreshStealing (putScrubBit 11 false (startCores s3))
  let s5 : State := { setLoadState stLoaded s4 with
    loader := { s4.loader with active := false, keyEpochs := [], stagesLeft := [], frames := [], shadowUpdate := [] } }
  let s6 := if s5.twin.role = Role.detached then setRole .solo s5 else s5
  setEvent evLoad (putIoDisabled false s6)

/-- STAGE_RELEASE: the next stage at its FCLK cycle; start-up completes in the cycle after the last (R439, R442).
DEDUCED (log entry 73). -/
def execStageRelease (s : State) : Host.Outcome State Fault Refusal :=
  .next (match s.loader.stagesLeft with
    | [] => s
    | k :: rest =>
      let now := max s.power.fclk s.loader.releaseAt
      let s1 := releaseStage k { s with power := { s.power with fclk := now } }
      let s2 := { s1 with loader := { s1.loader with stagesLeft := rest, releaseAt := now + fld s.inForce.startup 7 0 } }
      if rest.isEmpty then completeLoad s2 else s2)

/-! ### Security bits and key slots (R443 to R449) -/

/-- The slots that hold a key and are not retired. DEDUCED (log entry 76). -/
def liveSlots (o : Otp) : BitVec 4 := o.programmed &&& ~~~o.retired

/-- The value after 0xB10C (R444, R447): refused as a whole where it would retire the last live slot. -/
def requestSecurity (data : Word) (s : State) : State :=
  let retire : BitVec 4 := data.extractLsb' 4 4
  let old : Byte := s.otpRequest.getD 0
  let live := liveSlots s.otp &&& ~~~(old.extractLsb' 4 4)
  if live ≠ 0 && live &&& ~~~retire = 0 then setFault fcReservedWrite s
  else
    { s with otpRequest := some (old ||| data.extractLsb' 0 8) }

/-- SECURITY_LOCK (R444). A write that completes no sequence, 0xB10C apart, leaves none open. -/
def securityLock (m : Master) (data : Word) (s : State) : State :=
  let open' := (view m s).lockPrev
  let s1 := dropKeys m s
  if open' && data.extractLsb' 8 8 = 0#8 then requestSecurity data s1
  else setView m { view m s1 with lockPrev := decide (data = 0xB10C#16) } s1
def execSecurityLock (m : Master) (data : Word) (s : State) : Host.Outcome State Fault Refusal := .next (securityLock m data s)

/-- OTP_PROGRAMMED: the requested bits take effect (R445, R446); a load whose slot is retired, or a plain load once AUTH_ONLY is
set, ends with KEY (R449, R451). -/
def execOtpProgrammed (s : State) : Host.Outcome State Fault Refusal :=
  .next (match s.otpRequest with
    | none => s
    | some r =>
      let o := s.otp
      let s0 := { s with
        otpRequest := none
        otp := { o with
          readbackDis := o.readbackDis || r.getLsbD 0
          capObserve := o.capObserve || r.getLsbD 1
          capNone := o.capNone || r.getLsbD 2
          authOnly := o.authOnly || r.getLsbD 3
          retired := o.retired ||| r.extractLsb' 4 4 } }
      let s1 := if otpCap s0.otp < otpCap o then applyLevel s0 else s0
      let slot := s.loader.slot.toNat
      let retiredNow := !o.retired.getLsbD slot && s1.otp.retired.getLsbD slot
      let plainNow := !o.authOnly && s1.otp.authOnly && decide (s.loader.plainSeen = some true)
      if retiredNow || plainNow then failLoad ldKey s1 else s1)

/-- LOAD_REPORT: service call load_report (R433, R676). -/
def execLoadReport (slot : Nat) (s : State) : Host.Outcome State Fault Refusal :=
  .next (match callOf slot 0x0001 s with
    | none => s
    | some c =>
      let l := s.loader
      let k := l.skipped.mergeSort (fun a b => a ≤ b)
      reply c resOk ([k.length, l.discarded.toNat, l.dropped.toNat, l.failed.toNat, l.repeated.toNat, lget 0 k 0, lget 0 k 1].map
        (BitVec.ofNat 64)) s)

/-- KEY_PROVISION: service call key_provision (R448). DEDUCED (log entry 70). -/
def execKeyProvision (slot : Nat) (s : State) : Host.Outcome State Fault Refusal :=
  .next (match callOf slot 0x0002 s with
    | none => s
    | some c =>
      let k := (argOf c 0).toNat
      if 4 ≤ k then reply c resRange [] s
      else if s.otp.programmed.getLsbD k then reply c resRefused [] s
      else
        match keyUnwrap Config.provisioningKey ((List.range 5).map (fun i => argOf c (i + 1))) with
        | none => reply c resRefused [] s
        | some key =>
          reply c resOk [] { s with otp := { s.otp with
            programmed := setBit s.otp.programmed k true, keys := tput s.otp.keys k key } })

end Sys2Proof.Machine
end

