-- ==== Sys2Proof/Machine/Network.lean ====
section
/-! DEFINITION. The on-chip network as its nodes see it, and Common Store: requests and completions, ASLEEP replies, route banks,
exclusive pairs, power domains, and the background test of the banks (R491 to R515, R568, R569). -/

namespace Sys2Proof.Machine

/-! ### Packets (R492, R493) -/

def pDest (h : QWord) : Nat := fld h 63 57
def pSrc (h : QWord) : Nat := fld h 56 50
def pEpoch (h : QWord) : Bool := h.getLsbD 48
def pUrg (h : QWord) : Nat := fld h 47 45
def pWake (h : QWord) : Bool := h.getLsbD 44
def pOp (h : QWord) : Nat := fld h 43 40
def pFlits (h : QWord) : Nat := fld h 39 37
def pTag (h : QWord) : Nat := fld h 36 32
def pAddr (h : QWord) : Nat := fld h 23 0
def pStatus (h : QWord) : Nat := fld h 23 20

def stOk : Nat := 0
def stBusError : Nat := 1
def stAsleep : Nat := 2
def stCondFail : Nat := 4
def stUnmapped : Nat := 5

def opRead : Nat := 0
def opWrite : Nat := 1
def opExcl : Nat := 2
def opCond : Nat := 3
def opCompletion : Nat := 8

/-- A reserved OP (R493). -/
def opReserved (o : Nat) : Bool := !(o ≤ 3 || o = opCompletion)

/-- A request that is malformed (R493). -/
def malformedPacket (h : QWord) : Bool :=
  opReserved (pOp h) || decide (pFlits h = 0) || decide (4 < pFlits h) || decide (pAddr h % 8 ≠ 0)

/-! ### Domains (R504) -/

/-- The domain's condition to sleep. Bank groups sleep by their own step in Standby. -/
def domainSleeps (d : Domain) (s : State) : Bool :=
  let dormant := s.power.field = .dormant || s.power.field = .off
  match d with
  | .gallery g => !galleryInUse g s
  | .fabric => !armed s
  | .linkGroup l => !(armed s && linkNamed l s)
  | .meshGroup => !armed s || !schedMesh s
  | .twinGroup => dormant || !s.inForce.twinEnable
  | .bankGroup k => dormant || s.store.sleepingGroups.contains k
  | .docents => dormant
  | .edge => dormant

/-- The domain of a node (R491, R504). -/
def nodeDomain (n : Nat) : Domain :=
  if n < 0x40 then .gallery n
  else if n ≤ 0x48 then .bankGroup (n - 0x40)
  else match n with
    | 0x49 => .fabric
    | 0x4A => .linkGroup .f0
    | 0x4B => .linkGroup .f1
    | 0x4C => .meshGroup
    | 0x4D => .twinGroup
    | 0x4E => .docents
    | 0x4F => .docents
    | 0x50 => .docents
    | _ => .edge

/-- A node is asleep: its domain sleeps, or its Gallery is not powered. -/
def nodeAsleep (n : Nat) (s : State) : Bool :=
  domainSleeps (nodeDomain n) s || (decide (n < 0x40) && !(gallery n s).powered)

/-- A wake-class access wakes a bank group in Standby (R504, R506). DEDUCED (log entry 83). -/
def wakeOnAccess (n : Nat) (s : State) : State :=
  match nodeDomain n with
  | .bankGroup k =>
    if s.power.field = .standby then
      { s with store := { s.store with sleepingGroups := ndel s.store.sleepingGroups k } }
    else s
  | _ => s

/-! ### Routes (R498 to R503) -/

/-- The bank that an EPOCH names, one entry of it, and whether it has ever been written since the field side's reset. -/
def routeBank (e : Bool) : Nat := if e then 16384 else 0
def nocRoute (e : Bool) (r d : Nat) (s : State) : Word := tget 0 s.store.routes (routeBank e + r * 128 + d)
def bankWritten (e : Bool) (s : State) : Bool := s.store.routes.any (fun x => decide (x.1 / 16384 = e.toNat))

/-- The entry of a request's source router: invalid or with a reserved port. DEDUCED (log entry 79). -/
def routeMissing (h : QWord) (s : State) : Bool :=
  let e := nocRoute (pEpoch h) (pSrc h) (pDest h) s
  bankWritten (pEpoch h) s && (!e.getLsbD 15 || decide (5 < fld e 2 0))
def routeProxy (h : QWord) (s : State) : Bool :=
  let e := nocRoute (pEpoch h) (pSrc h) (pDest h) s
  e.getLsbD 15 && decide (fld e 2 0 = 5)

/-- A router, and a change of one. -/
def router (r : Nat) (s : State) : Router := tget {} s.store.routers r
def modRouter (r : Nat) (f : Router → Router) (s : State) : State :=
  { s with store := { s.store with routers := tset {} s.store.routers r (f (router r s)) } }

/-! ### Serving a request -/

/-- Send the COMPLETION of a request (R492, R493, R495). -/
def complete (h : QWord) (status : Nat) (data : List QWord) (s : State) : State :=
  let n := pDest h
  let head : QWord := BitVec.ofNat 64 (pSrc h * 2 ^ 57 + n * 2 ^ 50 + 2 ^ 49 + (router n s).epoch.toNat * 2 ^ 48 + pUrg h * 2 ^ 45
    + (decide (n ≠ 0x54)).toNat * 2 ^ 44 + opCompletion * 2 ^ 40 + data.length * 2 ^ 37 + pTag h * 2 ^ 32 + status * 2 ^ 20)
  { s with store := { s.store with replies := s.store.replies ++ [(head, data)] } }

/-- An ASLEEP reply, counted at the router that gives it; a wake-class packet asks for the wake (R506). -/
def replyAsleep (h : QWord) (s : State) : State :=
  let r := if routeProxy h s then pSrc h else pDest h
  let s1 := modRouter r (fun x => { x with asleepReplies := satInc x.asleepReplies }) s
  complete h stAsleep [] (if pWake h then wakeOnAccess (pDest h) s1 else s1)

/-- A Common Store address that a bank group's node holds: the group of the granule's physical bank (R504, R508). -/
def bankHolds (n a flits : Nat) (s : State) : Bool :=
  decide (a + 8 * flits ≤ csSize) && decide (physicalBank a s.store / 4 + 0x40 = n)

/-- A host read of the shadow range while READBACK_DIS is set returns 0 (R446, R606). -/
def readWithheld (src a : Nat) (s : State) : Bool := (src = 0x53 || src = 0x54) && inShadow a && s.otp.readbackDis

/-- The granules of a read, as delivered. -/
def granuleData (src a flits : Nat) (s : State) : List QWord :=
  (List.range flits).map (fun k =>
    if readWithheld src (a + 8 * k) s then 0 else BitVec.ofNat 64 (csNat (a + 8 * k) 8 s.store))

/-- A read at a bank group: an uncorrectable byte answers BUS_ERROR (R458); a debug read is a peek (R555). -/
def serveRead (h : QWord) (s : State) : State :=
  let a := pAddr h
  let n := 8 * pFlits h
  let s1 := if pSrc h = 0x54 then s else csReadEffects a n s
  if csUe a n s.store then complete h stBusError [] s1 else complete h stOk (granuleData (pSrc h) a (pFlits h) s) s1

/-- One granule of a write: the bytes enabled, byte 0 by the most significant enable. A granule that was invalid reads 0 elsewhere
(R509). DEDUCED (log entry 81). -/
def writeFlit (a be : Nat) (d : QWord) (s : State) : State :=
  (List.range 8).foldl (fun s k =>
    if be.testBit (7 - k) then csWrite (a + k) [BitVec.ofNat 8 (d.toNat >>> (8 * (7 - k)))] s else s) s

/-- The flits of a write in order: BE governs the first, the others are written whole (R492). -/
def writeFlits (a be : Nat) : List QWord → State → State
  | [], s => s
  | d :: rest, s => writeFlits (a + 8) 0xFF rest (writeFlit a be d s)

/-- A write that R450 refuses (R511): only the Conservator, and Warden's check_write on the frame CRC table, write the shadow
range. The load's own placement does not pass this way in the model. DEDUCED (log entry 86). -/
def writeRefused (h : QWord) (s : State) : Bool :=
  touchesShadow (pAddr h) (8 * pFlits h) && decide (pSrc h ≠ 0x51)
    && !(pSrc h = 0x50 && checkTest s && decide (0xF80000 ≤ pAddr h) && decide (pAddr h + 8 * pFlits h ≤ 0xF86000))

/-- A write at a bank group. DEDUCED (log entry 82). -/
def serveWrite (h : QWord) (flits : List QWord) (s : State) : State :=
  if writeRefused h s then complete h Config.refusedStatus [] (setFault fcCfgWrite s)
  else complete h stOk [] (writeFlits (pAddr h) (fld h 31 24) (flits.take (pFlits h)) s)

/-- An exclusive read: its source's one reservation is on this granule (R568). -/
def serveExcl (h : QWord) (s : State) : State :=
  let s1 := serveRead h s
  { s1 with store := { s1.store with
      reservations := (s1.store.reservations.filter (fun r => r.1 ≠ pSrc h)) ++ [(pSrc h, pAddr h / 8)] } }

/-- A conditional write (R568). -/
def serveCond (h : QWord) (flits : List QWord) (s : State) : State :=
  let g := pAddr h / 8
  if s.store.reservations.contains (pSrc h, g) then
    let s1 := serveWrite h flits s
    { s1 with store := { s1.store with reservations := s1.store.reservations.filter (fun r => r.2 ≠ g) } }
  else complete h stCondFail [] s

/-- A request at a node other than a bank group: the spec gives no address space for it. -/
def serveOther (h : QWord) (s : State) : State :=
  let data := if pOp h = opRead || pOp h = opExcl then
      (List.range (pFlits h)).map (fun k => Config.nodeWord (pDest h) (pAddr h) k) else []
  complete h (Config.nodeStatus (pDest h) (pAddr h)) data s

/-- A well-formed request that has reached its node awake. -/
def serveAt (h : QWord) (flits : List QWord) (s : State) : State :=
  if 0x40 ≤ pDest h && pDest h ≤ 0x48 then
    if !bankHolds (pDest h) (pAddr h) (pFlits h) s then complete h stUnmapped [] s
    else if pOp h = opRead then serveRead h s
    else if pOp h = opWrite then serveWrite h flits s
    else if pOp h = opExcl then serveExcl h s
    else serveCond h flits s
  else serveOther h s

/-- A request in the mesh: unmapped, asleep, malformed, or served (R493, R498, R506). -/
def serve (h : QWord) (flits : List QWord) (s : State) : State :=
  if routeMissing h s || !nodeExists (pDest h) s then complete h stUnmapped [] s
  else if nodeAsleep (pDest h) s || routeProxy h s then replyAsleep h s
  else
    let s1 := modRouter (pDest h) (fun r => { r with maxUrgency := max r.maxUrgency (pUrg h) }) s
    if malformedPacket h then complete h stBusError [] s1 else serveAt h flits s1

/-- The outstanding request of a source and tag. -/
def isRequest (src tag : Nat) (r : NocRequest) : Bool := pSrc r.header = src && pTag r.header = tag

/-- A request behind one that was answered ASLEEP waits (R507). -/
def heldBehind (h : QWord) (s : State) : Bool :=
  s.store.outstanding.any (fun r => pSrc r.header = pSrc h && pTag r.header ≠ pTag h && pDest r.header = pDest h
    && decide (r.asleepCount ≠ 0))

/-- A node issues a request while fewer than 32 of its own are outstanding (R494). -/
def injects (h : QWord) (s : State) : Bool :=
  s.store.outstanding.any (isRequest (pSrc h) (pTag h))
    || decide ((s.store.outstanding.filter (fun r => pSrc r.header = pSrc h)).length < 32)

/-- A request is issued and, unless it waits behind another, served. -/
def request (op : Nat) (h : QWord) (flits : List QWord) (s : State) : State :=
  if (pOp h = op || opReserved (pOp h)) && !h.getLsbD 49 && fieldAwake s && injects h s then
    let known := s.store.outstanding.any (isRequest (pSrc h) (pTag h))
    let s1 := if known then s else
      { s with store := { s.store with outstanding := s.store.outstanding ++ [⟨h, flits, pUrg h, 0⟩] } }
    if heldBehind h s then s1 else serve h flits s1
  else s

/-- READ. -/
def execRead (h : QWord) (s : State) : Host.Outcome State Fault Refusal := .next (request opRead h [] s)
/-- WRITE. -/
def execWrite (h : QWord) (flits : List QWord) (s : State) : Host.Outcome State Fault Refusal := .next (request opWrite h flits s)
/-- EXCL_READ. -/
def execExclRead (h : QWord) (s : State) : Host.Outcome State Fault Refusal := .next (request opExcl h [] s)
/-- COND_WRITE. -/
def execCondWrite (h : QWord) (flits : List QWord) (s : State) : Host.Outcome State Fault Refusal :=
  .next (request opCond h flits s)

/-- A Completer Abort answers a read through the Common Store aperture that ends in BUS_ERROR (R458, R606): a READ of the barrier port at
urgency 2. DEDUCED (log entry 140). -/
def abortRead (h : QWord) (r : NocRequest) (s : State) : State :=
  if pDest h = 0x53 && pOp r.header = opRead && pUrg r.header = 2 && pStatus h = stBusError then
    emit (.completerAbort (0x1000000 + pAddr r.header)) s
  else s

/-- COMPLETION: the request ends, unless it was answered ASLEEP fewer than 64 times (R493, R507). -/
def takeCompletion (h : QWord) (s : State) : State :=
  let st := s.store
  let replies := st.replies.eraseP (fun r => pDest r.1 = pDest h && pTag r.1 = pTag h)
  let asleep := decide (pStatus h = stAsleep)
  let mine (r : NocRequest) : Bool := isRequest (pDest h) (pTag h) r
  let out := if asleep then
      (st.outstanding.map (fun r => if mine r then { r with asleepCount := r.asleepCount + 1 } else r)).filter
        (fun r => !(mine r && decide (64 ≤ r.asleepCount)))
    else st.outstanding.filter (fun r => !mine r)
  let s1 : State := { s with store := { st with replies := replies, outstanding := out } }
  match st.outstanding.find? mine with
  | some r => abortRead h r s1
  | none => s1

def execCompletion (h : QWord) (_flits : List QWord) (s : State) : Host.Outcome State Fault Refusal :=
  .next (if pOp h = opCompletion && h.getLsbD 49 then takeCompletion h s else s)

/-- ASLEEP_RESEND: 256 SYSCLK cycles after an ASLEEP reply the request is sent again (R507). -/
def execAsleepResend (src tag : Nat) (s : State) : Host.Outcome State Fault Refusal :=
  .next (match s.store.outstanding.find? (isRequest src tag) with
    | none => s
    | some r => if r.asleepCount = 0 || !fieldAwake s then s else serve (setFld r.header 47 45 r.urgency) r.flits s)

/-- URGENCY_RISE: 256 cycles at a router input raise a packet's urgency by one, up to 7 (R495). -/
def execUrgencyRise (src tag : Nat) (s : State) : Host.Outcome State Fault Refusal :=
  .next ({ s with store := { s.store with
    outstanding := s.store.outstanding.map (fun r =>
      if isRequest src tag r then { r with urgency := min 7 (r.urgency + 1) } else r) } })

/-- ROUTE_SWITCH: Warden writes the bank not in use and every router changes its injection epoch (R501, R502). -/
def switchRoutes (entries : List (Nat × Word)) (s : State) : State :=
  let e := !s.store.epoch
  let bank := entries.foldl (fun (t : Table Word) x =>
    if x.1 < 16384 then tset 0 t (routeBank e + x.1) x.2 else t) s.store.routes
  let nodes := (List.range 128).filter (fun n => nodeExists n s)
  { s with store := { s.store with
      routes := bank
      epoch := e
      routers := nodes.foldl (fun t r => tset {} t r { tget {} t r with epoch := e }) s.store.routers } }
def execRouteSwitch (entries : List (Nat × Word)) (s : State) : Host.Outcome State Fault Refusal :=
  .next (if fieldAwake s && coreRuns s.cores.warden
      && s.store.outstanding.all (fun r => decide (pEpoch r.header = s.store.epoch)) then switchRoutes entries s
    else s)

/-! ### Exclusive pairs (R569) -/

/-- The node of a core: the Curator reaches the field side through the barrier port. -/
def coreNode : Core → Nat | .curator => 0x53 | .docentA => 0x4E | .docentB => 0x4F | .warden => 0x50

/-- RESERVATION_BREAK: the holder has been halted for 1,024 SYSCLK cycles. -/
def execReservationBreak (c : Core) (s : State) : Host.Outcome State Fault Refusal :=
  .next (if (coreState c s).halted && s.store.reservations.any (fun r => r.1 = coreNode c) then
      setFault fcLockBroken { s with store := { s.store with
        reservations := s.store.reservations.filter (fun r => r.1 ≠ coreNode c) } }
    else s)

/-! ### The background test of the banks (R512 to R515) -/

/-- BANK_TEST_START: not in Dormant, during a load, in checker test mode, without a Loan bank, or while a test or a wait for one is
in progress. -/
def execBankTestStart (s : State) : Host.Outcome State Fault Refusal :=
  .next (match s.store.loan, s.store.test with
    | some loan, .idle =>
      if fieldAwake s && !s.loader.active && s.loader.waiting.isNone && !checkTest s && coreRuns s.cores.warden then
        let b := s.store.nextTest
        { s with store := { s.store with
            test := .copying b (lget 0 s.store.bankMap b) loan, nextTest := (b + 1) % 32 } }
      else s
    | _, _ => s)

/-- What the copy meets in a logical bank: correctable errors are corrected and logged, uncorrectable ones set STORE_UE (R513).
DEDUCED (log entry 84). -/
def copyBank (b : Nat) (s : State) : State :=
  ((s.store.csDev.map (fun e => e.1)).filter (fun a => a / 8 % 32 = b)).foldl (fun s a => csReadEffect a s) s

/-- BANK_MAP_SWITCH: the copy is complete and the map names the Loan bank. -/
def execBankMapSwitch (s : State) : Host.Outcome State Fault Refusal :=
  .next (match s.store.test with
    | .copying b physical loan =>
      let s1 := copyBank b s
      { s1 with store := { s1.store with
          bankMap := lset s1.store.bankMap b loan, loan := none, test := .march b physical } }
    | _ => s)

/-- MARCH_DONE: the former bank becomes the Loan bank, or is retired (R512, R514). A BEGIN that waited begins (R515). -/
def execMarchDone (passed : Bool) (s : State) : Host.Outcome State Fault Refusal :=
  .next (match s.store.test with
    | .march _ former =>
      beginWaiting (if passed then { s with store := { s.store with loan := some former, test := .idle } }
        else faultEvent fcBankRetired former { s with store := { s.store with retired := some former, test := .idle } })
    | _ => s)

/-! ### Power domains (R504, R505) -/

/-- BANK_GROUP_SLEEP: 100 µs in Standby without an access. -/
def execBankGroupSleep (k : Nat) (s : State) : Host.Outcome State Fault Refusal :=
  .next (if s.power.field = .standby && decide (k < 9) then
      { s with store := { s.store with sleepingGroups := nins s.store.sleepingGroups k } }
    else s)

/-- A request that the domain has accepted and not completed. -/
def domainBusy (d : Domain) (s : State) : Bool :=
  s.store.outstanding.any (fun r => nodeDomain (pDest r.header) = d && decide (r.asleepCount = 0))

/-- DOMAIN_POWER_DOWN: a domain that is to sleep and has drained is gated. -/
def execDomainPowerDown (d : Domain) (s : State) : Host.Outcome State Fault Refusal :=
  .next (if domainSleeps d s && !domainBusy d s then
      let s1 := match d with
        | .gallery g => if g < galleryCount s then
            { s with array := { s.array with
              galleries := tset {} s.array.galleries g { gallery g s with powered := false }
              toPower := s.array.toPower.filter (fun x => x ≠ g) } } else s
        | _ => s
      if s1.power.domains.contains d then s1 else { s1 with power := { s1.power with domains := s1.power.domains ++ [d] } }
    else s)

/-- NOC_STATUS: service call noc_status (R503, R676). Which routers hold packets at that moment is free. -/
def execNocStatus (slot : Nat) (s : State) : Host.Outcome State Fault Refusal :=
  .next (match callOf slot 0x0015 s with
    | none => s
    | some c =>
      let nodes := (List.range 128).filter (fun n => nodeExists n s)
      let body := nodes.flatMap (fun n =>
        let r := router n s
        let held (e : Nat) : Nat := (Config.packetsHeld n e s.cores.freeCount).toNat
        [r.epoch.toNat, held 0, held 1, r.asleepReplies.toNat, r.maxUrgency])
      let s1 := replyBulk c (argOf c 0).toNat (packed body) (drawFree s)
      if (argOf c 0).toNat % 8 ≠ 0 then s1
      else { s1 with store := { s1.store with
        routers := nodes.foldl (fun t n => tset {} t n { tget {} t n with maxUrgency := 0 }) s1.store.routers } })

end Sys2Proof.Machine
end

