-- ==== Sys2Proof/Machine/Power.lean ====
section
/-! DEFINITION. Power states, wakes, rails, references and clock changes (R516 to R536, R596, R597, R653 to R655). -/

namespace Sys2Proof.Machine

/-! ### Requests and wakes (R519 to R523, R525 to R528) -/

/-- What the host die reads of the field side's state (R524): 0 while it is silent. -/
def reportField (code : Nat) (s : State) : State := if s.barrier.fieldSilent then s else reportPower code s

/-- A transition to a higher state is due. -/
def rising (s : State) : Bool :=
  match s.power.field, dueTransition s with
  | .dormant, some .standby => true
  | .standby, some .armed => true
  | _, _ => false

/-- PWR_REQUEST.FIELD takes a value; another value than 1 to 3 is reserved and leaves the reset value (R16, R525).
DEDUCED (log entry 27). -/
def putRequest (v : Nat) (s : State) : State :=
  let ok := decide (1 ≤ v) && decide (v ≤ 3)
  let s1 := { s with regs := { s.regs with pwrRequest := setFld s.regs.pwrRequest 2 0 (if ok then v else 3) } }
  if ok then s1 else setFault fcReservedWrite s1

/-- A master's write of FIELD: one that raises it and so raises the field side's state is a cause of the wake (R527). -/
def requestField (v : Nat) (s : State) : State :=
  let s1 := putRequest v s
  if fld s.regs.pwrRequest 2 0 < fld s1.regs.pwrRequest 2 0 && rising s1 then setWakeCause 3 s1 else s1

/-- PWR_REQUEST_FIELD. -/
def execPwrRequestField (m : Master) (v : BitVec 3) (s : State) : Host.Outcome State Fault Refusal :=
  .next (requestField v.toNat (wrote m 0x05 (setFld s.regs.pwrRequest 2 0 v.toNat) s))

/-- Each pin of a list keeps the level it drives; a TRIG_OUT pin is held low (R596). -/
def holdPins (is : List Nat) (s : State) : State :=
  is.foldl (fun t i =>
    let p := pinAt i s
    let trig := decide (2 ≤ p.osel.toNat) && decide (p.osel.toNat ≤ 5)
    setPin i { p with held := if trig then some false else pinDrive i s } t) s

/-- The functions of pins resume (R597). -/
def freePins (is : List Nat) (s : State) : State := is.foldl (fun t i => setPin i { pinAt i t with held := none } t) s

/-- HOST_SLEEP: the host die enters Dormant, only while its PCI Express link is down or in L2 (R521). -/
def hostSleep (pcieDown : Bool) (s : State) : State :=
  if pcieDown && s.power.host = .standby then
    let s1 := holdPins (List.range 8) s
    { s1 with power := { s1.power with host := .dormant, hostWake := false } }
  else s
def execHostSleep (m : Master) (pcieDown : Bool) (s : State) : Host.Outcome State Fault Refusal :=
  .next (hostSleep pcieDown (wrote m 0x05 (s.regs.pwrRequest ||| 0x100) s))

/-- The host die is called back to Standby. DEDUCED (log entries 25, 30). -/
def wakeHost (s : State) : State :=
  if s.power.host = .dormant then { s with power := { s.power with hostWake := true } } else s

/-- WAKE_PIN: the sampled wake pins (R522). The requested state rises by a write of master 4 (R525). A cause bit is set where the
wake raises a state (R527). -/
def wakePins (p : WakeSample) (s : State) : State :=
  let we := s.regs.wakeEnable
  let f := p.fieldPin && we.getLsbD 15 && (s.power.field = .dormant || s.power.field = .standby)
  let h := p.hostPin && we.getLsbD 8 && (s.power.host = .dormant || s.power.host = .standby)
  if !(f || h) then s
  else
    let t := fld we 1 0
    let up := decide (fld s.regs.pwrRequest 2 0 < t)
    let raises := up || s.power.host = .dormant
    let s1 := if up then putRequest t (wrote .fieldUnit 0x05 (setFld s.regs.pwrRequest 2 0 t) s) else s
    let s2 := if f && raises then setWakeCause 7 s1 else s1
    wakeHost (if h && raises then setWakeCause 6 s2 else s2)
def execWakePin (p : WakeSample) (s : State) : Host.Outcome State Fault Refusal := .next (wakePins p s)

/-- PERST_DEASSERT (R521, R527). -/
def execPerstDeassert (s : State) : Host.Outcome State Fault Refusal :=
  .next (if s.power.host = .dormant then wakeHost (setWakeCause 4 s) else s)

/-- CONTROL_BUS_WAKE: the access is held with CB_RDY inactive until Standby (R521). -/
def execControlBusWake (s : State) : Host.Outcome State Fault Refusal :=
  .next (if s.power.host = .dormant && s.regs.wakeEnable.getLsbD 3 then
      let s1 := wakeHost (setWakeCause 5 s)
      { s1 with power := { s1.power with cbHeld := true } }
    else s)

/-! ### Clocks (R530 to R533) -/

/-- A PLL whose values differ relocks: SMUL and SDIV belong to SCLK, FCLK_HALF to FCLK. -/
def stepClockDiffers (a b : Word) : Bool := decide (fld a 13 6 ≠ fld b 13 6)
def fabricClockDiffers (a b : Word) : Bool := a.getLsbD 15 != b.getLsbD 15

/-- Host time goes on from the moment FCLK changes. -/
def rebaseTime (s : State) : State :=
  { s with power := { s.power with hostTimeBase := hostTime s, hostTimeAt := s.power.fclk } }

/-- The clocks take new values, and the PLLs that they concern relock (R532). -/
def startRelock (new : Word) (s0 : State) : State :=
  let s := rebaseTime s0
  let old := s.power.clkInForce
  let a := stepClockDiffers old new
  let b := fabricClockDiffers old new
  let s1 := { s with power := { s.power with
    clkInForce := new
    clkPrev := old
    relockS := s.power.relockS || a
    relockF := s.power.relockF || b
    clkDue := false } }
  let s2 := if a then putClkBit 15 false s1 else s1
  if b then putClkBit 14 false s2 else s2

/-- CLOCK_CHANGE: a committed change takes effect at the batch boundary, while the array is stopped (R532). DEDUCED (log entry 29). -/
def execClockChange (s : State) : Host.Outcome State Fault Refusal :=
  .next (if s.power.clkDue && s.power.field = .armed && atBoundary s && s.array.running.isNone && !s.loader.active then
      startRelock s.inForce.clk s
    else s)

/-- PLL_RELOCKED: the PLLs lock; after FCLK the fabric resumes from zeroed routing and both links retrain (R234, R264, R532). -/
def execPllRelocked (s : State) : Host.Outcome State Fault Refusal :=
  .next (if s.power.relockS || s.power.relockF then
      let s1 := { s with power := { s.power with relockS := false, relockF := false } }
      let s2 := if s.power.relockS then putClkBit 15 true s1 else s1
      if s.power.relockF then
        let s3 := putClkBit 14 true s2
        retrainLink .f1 true (retrainLink .f0 true { s3 with fabric := zeroRouting s3.fabric })
      else s2
    else s)

/-- RELOCK_FAIL: the PLLs relock at their previous values, which the host die writes back into CLK_CONTROL and its shadow (R533). -/
def execRelockFail (s : State) : Host.Outcome State Fault Refusal :=
  .next (if (s.power.relockS || s.power.relockF) && !s.loader.active then
      let old := s.power.clkPrev
      let s1 := rebaseTime s
      let s2 := { s1 with
        power := { s1.power with clkInForce := old }
        inForce := { s1.inForce with clk := old }
        shadow := { s1.shadow with clk := old } }
      setClkStatus 9 s2
    else s)

/-! ### Entering a state (R504, R516, R518 to R520) -/

/-- Both links in electrical idle, their group asleep (R264, R504). -/
def sleepLinks (s : State) : State :=
  { s with
    link0 := downLink s.link0
    link1 := downLink s.link1
    regs := { s.regs with linkStatus := setFld (setFld s.regs.linkStatus 5 4 0) 1 0 0 }
    array := { s.array with meshLock0 := [], meshLock1 := [] } }

/-- From Armed: fabric and links sleep. -/
def leaveArmed (s : State) : State := reportField 2 (sleepLinks { s with power := { s.power with field := .standby } })

/-- From Off: the field side leaves its reset with field I/O disabled (R59, R518). The PLLs of SCLK and FCLK are enabled by a load
(R439). DEDUCED. -/
def leaveOff (s : State) : State :=
  let s1 := { s with power := { s.power with field := .standby } }
  reportField 2 (putClkBit 13 true (putClkBit 11 true (putIoDisabled true (unloadStatus (refreshField s1)))))

/-- From Dormant: the field units take every register's current value (R53), the pins their functions (R597), and the PLLs lock
(R516). -/
def leaveDormant (s : State) : State :=
  let locks := loaded s
  let s1 := refreshField { s with power := { s.power with field := .standby, target := none } }
  let s2 := sampleInputs (freePins ((List.range 32).map (· + 8)) s1)
  reportField 2 (putClkBit 15 locks (putClkBit 14 locks (putClkBit 13 true s2)))

/-- To Dormant: the lease lapses, Warden and the Docents sleep, PLLs stop (R352, R516, R520). DEDUCED (log entries 24, 28). -/
def enterDormant (s : State) : State :=
  let s1 := leaveLockstep 0 (lapseLease s)
  let s2 := downMeshTwin (holdPins ((List.range 32).map (· + 8)) s1)
  let asleep := (List.range 64).foldl (fun t g => tset {} t g { tget {} t g with powered := false }) s2.array.galleries
  reportField 1 (putClkBit 15 false (putClkBit 14 false (putClkBit 13 false { s2 with
    power := { s2.power with field := .dormant }
    array := { s2.array with galleries := asleep, toPower := [], powerGroup := 0 } })))

/-- To Armed: every bank group wakes, a waiting clock change takes effect, routing starts from zero, Galleries in use are powered and
the named links train (R234, R264, R266, R391, R504, R532). DEDUCED (log entry 23). -/
def enterArmed (s : State) : State :=
  let s1 := { s with
    power := { s.power with field := .armed, target := none }
    store := { s.store with sleepingGroups := [] }
    fabric := zeroRouting s.fabric
    array := { s.array with
      toPower := (List.range (galleryCount s)).filter (fun g => galleryInUse g s && !(gallery g s).powered) } }
  let s2 := if s.power.clkDue then startRelock s.inForce.clk s1 else s1
  let s3 := retrainLink .f1 false (retrainLink .f0 false s2)
  reportField 3 { s3 with power := { s3.power with domains := s3.power.domains.filter (fun d => domainSleeps d s3) } }

/-- The field side completes the transition that is due. -/
def fieldArrives (s : State) : State :=
  match s.power.field, dueTransition s with
  | .off, some .standby => leaveOff s
  | .dormant, some .standby => leaveDormant s
  | .armed, some .standby => leaveArmed s
  | _, some .dormant => enterDormant s
  | _, some .armed => enterArmed s
  | _, _ => s

/-- The host die completes its return to Standby (R521), and its clocks read as present and locked (R536). -/
def hostArrives (s : State) : State :=
  if !s.power.hostRails || s.power.host = .off then s
  else
    let s1 := putClkBit 12 true (putClkBit 10 true s)
    if s.power.hostWake && s.power.host = .dormant then
      freePins (List.range 8) { s1 with power := { s1.power with host := .standby, hostWake := false, cbHeld := false } }
    else s1

/-! ### Rails and references (R534, R535, R653 to R655, R670) -/

/-- RAILS_GOOD: a side leaves reset (R654). -/
def railsGood (side : Side) (s : State) : State :=
  match side with
  | .field => if s.power.fieldRails then s else { s with power := { s.power with fieldRails := true } }
  | .host => if s.power.hostRails then s else
      hostReset true { s with power := { s.power with hostRails := true } }
def execRailsGood (side : Side) (s : State) : Host.Outcome State Fault Refusal := .next (railsGood side s)

/-- RAIL_FAIL: the side resets (R655). -/
def railFail (side : Side) (s : State) : State :=
  match side with
  | .field =>
    if s.power.fieldRails then beginWaiting (fieldReset { s with power := { s.power with fieldRails := false } }) else s
  | .host =>
    if s.power.hostRails then
      let s1 := hostReset false { s with power := { s.power with hostRails := false } }
      { s1 with power := { s1.power with host := .off } }
    else s
def execRailFail (side : Side) (s : State) : Host.Outcome State Fault Refusal := .next (railFail side s)

/-- A Ledger that keeps only the records of batches committed on its link (R534); the uncommitted ones are discarded. -/
def keepCommitted (l : FLink) (s : State) : State :=
  let done (n : Option DWord) : Bool := match n with
    | none => false
    | some b => match findBatch b s with
      | some x => committedOn l x
      | none => s.history.any (fun c => c.batch = b)
  let q := ledger l s
  setLedger l { q with
    offered := q.offered.filter (fun r => done r.batch)
    waiting := q.waiting.filter (fun r => done r.batch)
    queue := q.queue.filter (fun r => done r.batch)
    ring := q.ring.filter (fun r => done r.qrec.batch)
    flying := q.flying.map (fun f => { f with keep := f.keep && done f.qrec.batch })
    crossed := q.crossed.filter (fun f => done f.qrec.batch)
    gapsEntered := 0 } s

/-- TREF_LOSS: TREF-derived clocks stop and every store is retained (R534); the side counts as Off until TREF returns. Partners see
electrical idle, and Warden's lease lapses. The host die learns of it by the barrier's silence alone (R59). DEDUCED (log entry 21). -/
def trefLoss (s : State) : State :=
  if s.power.fieldRails && s.power.tref && s.power.field ≠ .off then
    let io := ioDisabled s
    let s1 := putIoDisabled io (disableFieldIo s)
    { s1 with power := { s1.power with tref := false, field := .off } }
  else if s.power.tref then { s with power := { s.power with tref := false } }
  else s
def execTrefLoss (s : State) : Host.Outcome State Fault Refusal := .next (trefLoss s)

/-- TREF_RETURN: TREF has been present for 1 ms: the field side relocks and reports Standby; records of committed batches stay to be
delivered, the others are discarded, and field I/O stays disabled (R534, R527). -/
def trefReturn (s : State) : State :=
  if s.power.tref then s
  else if !s.power.fieldRails then { s with power := { s.power with tref := true } }
  else
    let s1 := keepCommitted .f1 (keepCommitted .f0 s)
    let s2 := { s1 with
      power := { s1.power with tref := true, field := .standby, target := none }
      batches := s1.batches.filter committedBoth
      fetchStopped := false
      unload := {} }
    let s3 := putIoDisabled true (unloadStatus (refreshField s2))
    reportField 2 (setWakeCause 1 (setClkStatus 8 (putClkBit 13 true (putClkBit 11 true
      (putClkBit 14 false (putClkBit 15 false s3))))))
def execTrefReturn (s : State) : Host.Outcome State Fault Refusal := .next (trefReturn s)

/-- HREF_LOSS: the host die is reset (R535). DEDUCED (log entry 26). -/
def execHrefLoss (s : State) : Host.Outcome State Fault Refusal :=
  .next (if s.power.hostRails && s.power.host ≠ .off then hostReset false s else s)

end Sys2Proof.Machine
end

