-- ==== Sys2Proof/Machine/Services.lean ====
section
/-! DEFINITION. The Mailbox and its service calls (R539 to R548), the calls of the other chapters that return results (R175 to R178,
R240 to R245, R330 to R340, R381), the debug challenge, and the watchdogs (R560, R561, R571 to R576). -/

namespace Sys2Proof.Machine

/-! ### The service queue (R541 to R544) -/

/-- The bytes of the Mailbox from an offset. -/
def mailboxBytes (a n : Nat) (s : State) : List Byte := (List.range n).map (fun i => tget 0 s.cores.mailbox (a + i))

/-- The call that a request slot holds (R540, R676): as many fields as its LENGTH has whole 8-byte groups, at most 7. -/
def requestOf (slot : Nat) (s : State) : QueuedCall :=
  let b := mailboxBytes (64 * slot) 64 s
  { slot := slot
    call := BitVec.ofNat 16 (byteField b 0 2)
    tag := BitVec.ofNat 16 (byteField b 2 2)
    args := (List.range (min 7 (byteField b 4 1 / 8))).map (fun i => BitVec.ofNat 64 (byteField b (8 + 8 * i) 8))
    forwarded := false }

/-- A code that software may call (R544). -/
def callListed (code : Nat) : Bool := decide (1 ≤ code) && decide (code ≤ 0x19)

/-- What the Curator answers at once: a code that is not listed (R544), and a call that needs a field unit during a load (R438).
DEDUCED (log entry 32). -/
def answerAtOnce (s : State) : State :=
  if coreRuns s.cores.curator then
    s.cores.calls.foldl (fun s c =>
      if decide (c.slot < 64) && !callListed c.call.toNat then reply c resUnknownCall [] s
      else if decide (c.slot < 64) && s.loader.active && !hostCall c.call then reply c resBusy [] s
      else s) s
  else s

/-- A call enters the queue, or finds it full (R542). -/
def queueCall (c : QueuedCall) (s : State) : State :=
  if 64 ≤ s.cores.calls.length then setMailboxStatus 1 (writeReply c.slot c.tag resBusy [] s)
  else answerAtOnce (putLoad { s with cores := { s.cores with calls := s.cores.calls ++ [c] } })

/-- A doorbell of software (R542). -/
def ringSlot (slot : Nat) (s : State) : State :=
  if s.cores.calls.any (fun c => c.slot = slot) then setMailboxStatus 0 s else queueCall (requestOf slot s) s

/-- The Curator's doorbell forwards a queued call to the field unit that serves it (R542); a line repair crosses in a message of
its own (R38). -/
def forwardCall (slot : Nat) (s : State) : State :=
  match s.cores.calls.find? (fun c => c.slot = slot) with
  | none => s
  | some c =>
    let s1 := { s with cores := { s.cores with calls := s.cores.calls.map (fun x =>
      if x.slot = slot then { x with forwarded := true } else x) } }
    if c.call = 0xF#16 then
      sendMsg .hostToField 0x0B 14 (((((argOf c 0).toNat % 256 * 256 + (argOf c 1).toNat % 256) * 65536
        + (argOf c 2).toNat % 65536) * 2 ^ 64 + (argOf c 3).toNat) * 65536 + c.tag.toNat) s1
    else s1

/-- A write of MAILBOX_DOORBELL: bits [15:6] are reserved. -/
def writeDoorbell (m : Master) (slot : Nat) (s : State) : State :=
  match m with
  | .curator => fieldCommand m 0x36 (BitVec.ofNat 16 slot) (forwardCall slot) s
  | _ => ringSlot slot (dropKeys m s)

/-- MAILBOX_DOORBELL. -/
def execMailboxDoorbell (m : Master) (slot : Nat) (s : State) : Host.Outcome State Fault Refusal :=
  .next (if slot < 64 then writeDoorbell m slot s else s)

/-- SERVICE_CALL: a field core's own call enters the queue; one with the TAG of a forwarded call belongs to that call, whose own
command completes it (R542). DESIGN CHOICE (log entries 33, 34). -/
def execServiceCall (core : Core) (tag call : Word) (args : List QWord) (s : State) : Host.Outcome State Fault Refusal :=
  .next (
    let s1 := popHostInbox 0x09 s
    if core = .curator || s1.cores.calls.any (fun c => decide (c.slot < 64) && c.forwarded && decide (c.tag = tag)) then s1
    else queueCall { slot := 64 + coreNum core, tag := tag, call := call, args := args, forwarded := false } s1)

/-- SERVICE_REPLY: a field core's call has its reply. BUSY leaves Warden's copy of the host readings stale (R379). -/
def execServiceReply (core : Core) (tag result : Word) (_data : List QWord) (s : State) : Host.Outcome State Fault Refusal :=
  .next (
    let s1 := popFieldInbox 0x0A s
    let s2 := putLoad { s1 with cores := { s1.cores with
      calls := s1.cores.calls.filter (fun c => !(decide (c.slot = 64 + coreNum core) && decide (c.tag = tag))) } }
    if core = .warden && decide (result.toNat = resBusy) then { s2 with survey := { s2.survey with stale := true } } else s2)

/-- SERVICE_CALL_TIMEOUT: a field unit has not answered for 100 ms (R543). -/
def execServiceCallTimeout (slot : Nat) (s : State) : Host.Outcome State Fault Refusal :=
  .next (match s.cores.calls.find? (fun c => c.slot = slot) with
    | none => s
    | some c => if curatorServes c.call.toNat || 64 ≤ slot then s else reply c resTimeout [] s)

/-! ### Counters and measurements (R39, R285, R381) -/

/-- The counts of one barrier direction: CRC failures, then retransmissions, for each of its 18 lanes. -/
def dirCounts (d : BarrierDir) : List Nat :=
  (List.range 18).flatMap (fun l => [(tget 0 d.crcCount l).toNat, (tget 0 d.retxCount l).toNat])

/-- BARRIER_COUNTERS (R39, R676): the discards of both directions as one count, then the lanes. -/
def execBarrierCounters (slot : Nat) (s : State) : Host.Outcome State Fault Refusal :=
  .next (match callOf slot 0x0003 s with
    | none => s
    | some c =>
      let u := satAdd s.barrier.toField.undefinedCount s.barrier.toHost.undefinedCount.toNat
      replyBulk c (argOf c 0).toNat (packed (u.toNat :: (dirCounts s.barrier.toField ++ dirCounts s.barrier.toHost))) s)

/-- LINK_COUNTERS (R285, R676). -/
def execLinkCounters (slot : Nat) (s : State) : Host.Outcome State Fault Refusal :=
  .next (match callOf slot 0x0004 s with
    | none => s
    | some c =>
      let counts (x : Lane) : List Nat := [x.wordErrors.toNat, x.crcErrors.toNat, x.quarterErrors.toNat, x.lostCount.toNat]
      replyBulk c (argOf c 0).toNat (packed ((s.link0.lanes ++ s.link1.lanes).flatMap counts)) s)

/-- The block of survey_read (R381): nine rails, sixteen sensors, a stale flag for each of the five host-die readings, and the
Porter tick count, a free value. DESIGN CHOICE (log entry 38). -/
def surveyBlock (s : State) : List Byte :=
  packed s.survey.rails
    ++ s.survey.sensors.flatMap (fun t => bytesOf 8 (BitVec.ofInt 64 t).toNat)
    ++ packed (List.replicate 5 s.survey.stale.toNat ++ [(Config.freeTicks s.cores.freeCount).toNat])

/-- SURVEY_READ. -/
def execSurveyRead (slot : Nat) (s : State) : Host.Outcome State Fault Refusal :=
  .next (match callOf slot 0x000E s with
    | none => s
    | some c => replyBulk c (argOf c 0).toNat (surveyBlock s) (drawFree s))

/-! ### Snapshot copies (R175 to R178, R675) -/

/-- The words that a snapshot copies, in order: bank (true previous), BP and word. -/
def snapshotWords (banks first count : Nat) : List (Bool × Nat × Nat) :=
  let bank (prev : Bool) : List (Bool × Nat × Nat) :=
    (List.range 256).flatMap (fun bp => (List.range count).map (fun k => (prev, bp, first + k)))
  (if banks % 2 = 1 then bank false else []) ++ (if 2 ≤ banks then bank true else [])

/-- A snapshot's read of one word: a correctable row is counted and written back (R457). -/
def snapshotEffect (prev : Bool) (bpn w : Nat) (s : State) : State :=
  let row := rowKey bpn w
  if !(bankValid prev s).contains row || (bankPoison prev s).contains row then s
  else
    match (rowDecode prev row s).1 with
    | .clean => s
    | .uncorrectable => rowUncorrectable prev row s
    | c => putRow prev row (rowDecode prev row s).2 (countError (rowStore prev) (classCode c) (rowLocation row) 0 s)

/-- The word finds an uncorrectable error (R458). -/
def snapshotBad (prev : Bool) (bpn w : Nat) (s : State) : Bool :=
  let row := rowKey bpn w
  (bankValid prev s).contains row && !(bankPoison prev s).contains row
    && decide ((rowDecode prev row s).1 = .uncorrectable)

/-- Copy words up to the first with an uncorrectable error: the bytes, that word, and the state. -/
def snapshotGo (g : Nat) : List (Bool × Nat × Nat) → List Byte → State → List Byte × Option (Bool × Nat × Nat) × State
  | [], bs, s => (bs, none, s)
  | (p, bp, w) :: rest, bs, s =>
    let s1 := snapshotEffect p (bpNum g bp) w s
    if snapshotBad p (bpNum g bp) w s then (bs, some (p, bp, w), s1)
    else snapshotGo g rest (bs ++ bytesOf 2 (stateValue p (bpNum g bp) w s).toNat) s1

/-- The checks of R675 in their order, and the copy. DESIGN CHOICE (log entry 37). -/
def snapshotCopy (c : QueuedCall) (s : State) : State :=
  let g := (argOf c 0).toNat
  let banks := (argOf c 1).toNat
  let first := (argOf c 2).toNat
  let count := (argOf c 3).toNat
  let addr := (argOf c 4).toNat
  if !stateTime s then reply c resBusy [] s
  else if s.otp.readbackDis then reply c resDenied [] s
  else if galleryCount s ≤ g || banks = 0 || 3 < banks || 511 < first || count = 0 || 512 < first + count || addr % 8 ≠ 0 then
    reply c resRange [] s
  else if !galleryAwake g s then reply c resAsleep [] s
  else
    match snapshotGo g (snapshotWords banks first count) [] s with
    | (bs, none, s1) => replyBulk c addr bs s1
    | (bs, some (p, bp, w), s1) =>
      reply c resBusError [BitVec.ofNat 64 (1 + p.toNat), BitVec.ofNat 64 bp, BitVec.ofNat 64 w] (hostWriteBytes addr bs s1)

/-- SNAPSHOT_COPY. -/
def execSnapshotCopy (slot : Nat) (s : State) : Host.Outcome State Fault Refusal :=
  .next (match callOf slot 0x0005 s with
    | none => s
    | some c => snapshotCopy c s)

/-! ### Fabric capture and readback (R240 to R245) -/

/-- The batch and the offset of a capture: all ones outside a batch (R241). -/
def capturePlace (s : State) : DWord × DWord :=
  match inProgress s with
  | some b => if b.egressBegun then (b.d.batch, BitVec.ofNat 32 (s.power.fclk - b.firstEgress)) else (BitVec.allOnes 32, BitVec.allOnes 32)
  | none => (BitVec.allOnes 32, BitVec.allOnes 32)

/-- Record the fabric as it stood in the cycle last evaluated. DEDUCED (log entry 35). -/
def takeCapture (s : State) : State :=
  let p := capturePlace s
  { s with fabric := { s.fabric with
      capture := some ⟨s.fabric.storedNow, s.fabric.edgeNow, s.fabric.vaultsNow, p.1, p.2⟩, stopCapture := none } }

/-- The reply data of a capture. -/
def captureReply (s : State) : List QWord :=
  let p := capturePlace s
  [p.1.setWidth 64, p.2.setWidth 64]

/-- The fabric answers a request: it is awake (R504, R507). -/
def fabricAwake (s : State) : Bool := armed s

/-- fabric_capture (R241, R245): a new one cancels a pending STOP capture. DEDUCED (log entry 36). -/
def fabricCapture (c : QueuedCall) (s : State) : State :=
  if s.otp.readbackDis then reply c resDenied [] s
  else if !fabricAwake s then reply c resAsleep [] s
  else
    match (argOf c 0).toNat with
    | 0 => reply c resOk (captureReply s) (takeCapture s)
    | 1 => { s with fabric := { s.fabric with stopCapture := some (c.slot, c.tag) } }
    | _ => reply c resRange [] s

/-- FABRIC_CAPTURE. -/
def execFabricCapture (slot : Nat) (s : State) : Host.Outcome State Fault Refusal :=
  .next (match callOf slot 0x0006 s with
    | none => s
    | some c => fabricCapture c s)

/-- CAPTURE_ON_STOP: the first cycle in which a Docent stop line is asserted (R241). -/
def execCaptureOnStop (s : State) : Host.Outcome State Fault Refusal :=
  .next (match s.fabric.stopCapture with
    | none => s
    | some (slot, tag) =>
      if s.fabric.stopA || s.fabric.stopB then
        let s1 := takeCapture s
        match s.cores.calls.find? (fun c => decide (c.slot = slot) && decide (c.tag = tag)) with
        | some c => reply c resOk (captureReply s) s1
        | none => s1
      else s)

/-- Capture frame b (R242). -/
def captureFrame (b : Nat) (k : Capture) (s : State) : List Byte :=
  let tail := match blockVault b with
    | none => 0
    | some v =>
      let x := lget {} k.vaults v
      ((((vaultCount v x s * 2 ^ 11 + x.rptr) * 2 ^ 11 + x.wptr) * 2 ^ 8 + ofBits (vaultFlags v x s)) * 2 ^ 16
        + (vaultData v x s).toNat)
  bytesOf 128 (((lget 0 k.stored b).toNat * 2 ^ 32 + (lget 0 k.edges b).toNat) * 2 ^ 960 + tail * 2 ^ 902)

/-- A frame address that can be read (R240). -/
def frameReadable (a : Nat) : Bool :=
  decide (a ≤ 0x17FF) || (decide (0x2000 ≤ a) && decide (a ≤ 0x207F)) || (decide (0x4000 ≤ a) && decide (a ≤ 0x43FF))

/-- A stored Vault word's decoded bytes, high byte first. -/
def vaultStored (v w : Nat) (s : State) : (EccClass × Byte) × (EccClass × Byte) :=
  let key := 2048 * v + w
  vaultDecode (tget 0 s.fabric.vaultWords key) (tget 0 s.fabric.vaultDev (2 * key)) (tget 0 s.fabric.vaultDev (2 * key + 1))

/-- A Vault word holds an uncorrectable byte. -/
def vaultBad (v w : Nat) (s : State) : Bool :=
  let d := vaultStored v w s
  decide (d.1.1 = .uncorrectable) || decide (d.2.1 = .uncorrectable)

/-- What the readback of a Vault word does besides delivering it (R457, R458). -/
def vaultReadEffect (v w : Nat) (s : State) : State :=
  let d := vaultStored v w s
  vaultByteEffect v w 1 d.2.1 d.2.2 (vaultByteEffect v w 0 d.1.1 d.1.2 s)

/-- The words of Vault content frame `a`. -/
def vaultFrameWords (a : Nat) : List (Nat × Nat) :=
  (List.range 64).map (fun i => ((a - 0x4000) / 32, 64 * ((a - 0x4000) % 32) + i))

/-- Copy frames up to the first with an uncorrectable Vault word (R243, R244): the bytes, that frame, and the state. -/
def readbackGo : List Nat → List Byte → State → List Byte × Option Nat × State
  | [], bs, s => (bs, none, s)
  | a :: rest, bs, s =>
    if a ≤ 0x17FF then readbackGo rest (bs ++ bytesOf 128 (tget 0 s.fabric.frames a).toNat) s
    else if a ≤ 0x207F then
      match s.fabric.capture with
      | some k => readbackGo rest (bs ++ captureFrame (a - 0x2000) k s) s
      | none => (bs, some a, s)
    else
      let ws := vaultFrameWords a
      let s1 := ws.foldl (fun s x => vaultReadEffect x.1 x.2 s) s
      if ws.any (fun x => vaultBad x.1 x.2 s) then (bs, some a, faultEventFree fcVaultUe s1)
      else readbackGo rest (bs ++ ws.flatMap (fun x =>
        let d := vaultStored x.1 x.2 s
        [d.1.2, d.2.2])) s1

/-- fabric_readback(first, count, host address). -/
def fabricReadback (c : QueuedCall) (s : State) : State :=
  let first := (argOf c 0).toNat
  let count := (argOf c 1).toNat
  let addr := (argOf c 2).toNat
  let as := (List.range (min count 0x4400)).map (fun k => first + k)
  if s.otp.readbackDis then reply c resDenied [] s
  else if !fabricAwake s then reply c resAsleep [] s
  else if addr % 8 ≠ 0 || 0x4400 < first + count || !as.all frameReadable then reply c resRange [] s
  else if s.fabric.capture.isNone && as.any (fun a => decide (0x2000 ≤ a) && decide (a ≤ 0x207F)) then reply c resNoCapture [] s
  else
    match readbackGo as [] s with
    | (bs, none, s1) => replyBulk c addr bs s1
    | (bs, some a, s1) => reply c resBusError [BitVec.ofNat 64 a] (hostWriteBytes addr bs s1)

/-- FABRIC_READBACK. -/
def execFabricReadback (slot : Nat) (s : State) : Host.Outcome State Fault Refusal :=
  .next (match callOf slot 0x0007 s with
    | none => s
    | some c => fabricReadback c s)

/-! ### The Repair Analyser's calls (R323, R329 to R340, R674) -/

/-- MEM_INFO (R323). -/
def execMemInfo (slot : Nat) (s : State) : Host.Outcome State Fault Refusal :=
  .next (match callOf slot 0x0008 s with
    | none => s
    | some c => reply c resOk [BitVec.ofNat 64 s.params.maLag, BitVec.ofNat 64 s.params.mrec.toNat] s)

/-- The trackers configured (R330). -/
def trackersConfigured (s : State) : Nat := match s.repair.geometry with | some g => trackerCount g | none => 0

/-- RA_CONFIGURE: the geometry takes effect at the next batch boundary (R330, R338). DEDUCED (log entry 105). -/
def execRaConfigure (slot : Nat) (s : State) : Host.Outcome State Fault Refusal :=
  .next (match callOf slot 0x0009 s with
    | none => s
    | some c =>
      let bs := bytesOf 8 (argOf c 0).toNat ++ bytesOf 8 (argOf c 1).toNat
      let g := geometryOf bs
      if !hasRepair s then reply c resNotPresent [] s
      else if geometryReserved bs ≠ 0 || !geometryOk g then reply c resRange [] s
      else settle (reply c resOk [] { s with repair := { s.repair with pendingConfig := some g } }))

/-- RA_CLEAR (R338). -/
def execRaClear (slot : Nat) (s : State) : Host.Outcome State Fault Refusal :=
  .next (match callOf slot 0x000A s with
    | none => s
    | some c =>
      let first := (argOf c 0).toNat
      let count := (argOf c 1).toNat
      if !hasRepair s then reply c resNotPresent [] s
      else if trackersConfigured s < first + count then reply c resRange [] s
      else settle (reply c resOk [] { s with repair := { s.repair with
        pendingClear := s.repair.pendingClear ++ [(first, count)] } }))

/-- Bytes padded with zero to a multiple of 16. -/
def pad16 (bs : List Byte) : List Byte := bs ++ List.replicate ((16 - bs.length % 16) % 16) 0

/-- A tracker's results (R337). -/
def trackerBytes (g : Geometry) (i : Nat) (t : Tracker) : List Byte :=
  let head := ((((((((g.siteFirst + i / 2 ^ g.regWidth) * 2 ^ 4 + i % 2 ^ g.regWidth) * 2 ^ 2 + trackerState t) * 2
    + t.incomplete.toNat) * 2 + t.suspect.toNat) * 2 ^ 4 + t.mustRows.length) * 2 ^ 4 + t.mustCols.length) * 2 ^ 8
    + t.sparse.length) * 2 ^ 94 + t.fails.toNat * 2 ^ 32 + t.batch.toNat
  let lines := t.mustRows.flatMap (fun r => bytesOf 4 r) ++ t.mustCols.flatMap (fun k => bytesOf 4 k)
  let cells := t.sparse.flatMap (fun x => bytesOf 8 (x.1 * 2 ^ 32 + x.2))
  bytesOf 16 head ++ pad16 lines ++ pad16 cells

/-- RA_READ: committed states (R337). -/
def execRaRead (slot : Nat) (s : State) : Host.Outcome State Fault Refusal :=
  .next (match callOf slot 0x000B s with
    | none => s
    | some c =>
      let first := (argOf c 0).toNat
      let count := (argOf c 1).toNat
      if !hasRepair s then reply c resNotPresent [] s
      else if trackersConfigured s < first + count then reply c resRange [] s
      else
        let g := s.repair.geometry.getD {}
        replyBulk c (argOf c 2).toNat ((List.range count).flatMap (fun k =>
          trackerBytes g (first + k) (tget {} s.repair.committed (first + k)))) s)

/-- RA_STATUS (R339, R676). -/
def execRaStatus (slot : Nat) (s : State) : Host.Outcome State Fault Refusal :=
  .next (match callOf slot 0x000C s with
    | none => s
    | some c =>
      if !hasRepair s then reply c resNotPresent [] s
      else
        let bad := s.repair.committed.countP (fun t => t.2.unrepairable)
        reply c resOk [BitVec.ofNat 64 (trackersConfigured s), BitVec.ofNat 64 bad, s.repair.dropped.setWidth 64] s)

/-! ### The event log (R546, R676) -/

/-- EVENT_READ. -/
def execEventRead (slot : Nat) (s : State) : Host.Outcome State Fault Refusal :=
  .next (match callOf slot 0x0016 s with
    | none => s
    | some c =>
      let first := (argOf c 0).toNat
      let count := (argOf c 1).toNat
      if 7 < count || s.cores.eventLog.length < first + count then reply c resRange [] s
      else reply c resOk ((s.cores.eventLog.drop first).take count) s)

/-! ### Challenge and response (R560, R561) -/

/-- A new challenge: the nonce of the challenge before it ends. -/
def drawNonce (level : BitVec 2) (s : State) : QWord × State :=
  let n := Config.freeNonce s.cores.freeCount
  (n, drawFree { s with cores := { s.cores with nonce := some (n, level) } })

/-- The first 8 bytes of HMAC-SHA-384 under the debug key over the nonce, the level and the unique identifier. -/
def tokenFor (nonce : QWord) (level : BitVec 2) : Nat :=
  let m := bytesOf 8 nonce.toNat ++ bytesOf 1 level.toNat ++ bytesOf 8 Config.uniqueId.toNat
  ((hmac384 (Config.debugKey.map BitVec.toNat) (m.map BitVec.toNat)).take 8).foldl (fun a b => a * 256 + b) 0

/-- A wrong response: an event, and after four in a row the lockout. -/
def wrongResponse (s : State) : State :=
  let n := s.cores.wrongResponses + 1
  let s1 := setEvent evDebug (logEvent (BitVec.ofNat 16 (evDebug * 256)) (Config.eventUnit (48 + evDebug))
    (Config.eventDetail (48 + evDebug)) s)
  { s1 with cores := { s1.cores with
      nonce := none, wrongResponses := if 4 ≤ n then 0 else n, lockedOut := s1.cores.lockedOut || decide (4 ≤ n) } }

/-- A response is checked against the nonce that stands; a right one grants its level. DEDUCED (log entry 40). -/
def checkResponse (token : QWord) (s : State) : Bool × State :=
  match s.cores.nonce with
  | none => (false, wrongResponse s)
  | some (n, level) =>
    if token.toNat = tokenFor n level then
      (true, putLevel level.toNat { s with cores := { s.cores with nonce := none, wrongResponses := 0 } })
    else (false, wrongResponse s)

/-- DEBUG_CHALLENGE: service call debug_challenge(level). -/
def execDebugChallenge (slot : Nat) (s : State) : Host.Outcome State Fault Refusal :=
  .next (match callOf slot 0x0017 s with
    | none => s
    | some c =>
      if s.cores.lockedOut then reply c resDenied [] s
      else if 2 < (argOf c 0).toNat then reply c resRange [] s
      else
        let r := drawNonce (BitVec.ofNat 2 (argOf c 0).toNat) s
        reply c resOk [r.1] r.2)

/-- DEBUG_RESPONSE: service call debug_response(token). -/
def execDebugResponse (slot : Nat) (s : State) : Host.Outcome State Fault Refusal :=
  .next (match callOf slot 0x0018 s with
    | none => s
    | some c =>
      let r := checkResponse (argOf c 0) s
      if r.1 then reply c resOk [r.2.regs.debugLevel.setWidth 64] r.2 else reply c resDenied [] r.2)

/-- NONCE_EXPIRY: 10 s after its issue. -/
def execNonceExpiry (s : State) : Host.Outcome State Fault Refusal :=
  .next { s with cores := { s.cores with nonce := none } }

/-- CHALLENGE_LOCKOUT_END: 60 s after the fourth wrong response. -/
def execChallengeLockoutEnd (s : State) : Host.Outcome State Fault Refusal :=
  .next { s with cores := { s.cores with lockedOut := false } }

/-! ### Trace (R570, R571) -/

/-- A trace ring: a power of two from 4 KiB to 1 MiB below the shadow range. -/
def traceRingOk (base size : Nat) : Bool :=
  [0x1000, 0x2000, 0x4000, 0x8000, 0x10000, 0x20000, 0x40000, 0x80000, 0x100000].contains size && decide (base % 8 = 0)
    && decide (base + size ≤ 0xE00000)

/-- trace_config: four port masks, the destination (0 the debug wire, 1 a ring), and the ring's base and size.
DESIGN CHOICE (log entry 39). -/
def traceConfig (c : QueuedCall) (s : State) : State :=
  let masks := (List.range 4).map (fun k => (argOf c k).toNat)
  let dest := (argOf c 4).toNat
  if effectiveLevel s < 1 then reply c resDenied [] s
  else if masks.any (fun m => decide (2 ^ 31 ≤ m)) || 1 < dest
      || (dest = 1 && !traceRingOk (argOf c 5).toNat (argOf c 6).toNat) then reply c resRange [] s
  else
    let s1 := allCores.foldl (fun s k => setCore k { coreState k s with
      traceMask := BitVec.ofNat 31 (lget 0 masks (coreNum k)) } s) s
    reply c resOk [] { s1 with cores := { s1.cores with
      traceToRing := decide (dest = 1), traceBase := (argOf c 5).toNat, traceSize := (argOf c 6).toNat, traceNext := 0 } }

/-- TRACE_CONFIG. -/
def execTraceConfig (slot : Nat) (s : State) : Host.Outcome State Fault Refusal :=
  .next (match callOf slot 0x0019 s with
    | none => s
    | some c => traceConfig c s)

/-! ### Watchdogs and restarts (R572 to R576) -/

/-- WATCHDOG_RELOAD: the core's firmware reloads its watchdog; a new code applies from here (R573). -/
def execWatchdogReload (c : Core) (s : State) : Host.Outcome State Fault Refusal :=
  .next (if coreRuns (coreState c s) then reloadWatchdog c s else s)

/-- The event of an expiry: a field core's crosses as an EVENT cell, the Curator's is the host die's own (R572). -/
def watchdogEvent (c : Core) (s : State) : State :=
  match c with
  | .curator => logEvent (BitVec.ofNat 16 (evFault * 256 + fcWdog)) (Config.eventUnit fcWdog) 0 (setFault fcWdog s)
  | _ => faultEvent fcWdog (coreNum c) s

/-- WATCHDOG_EXPIRY: the core alone is reset, and the Curator's expiry asserts the alert (R572, R575, R576). -/
def execWatchdogExpiry (c : Core) (s : State) : Host.Outcome State Fault Refusal :=
  .next (let x := coreState c s
    if coreRuns x && decide (x.wdogPeriod ≠ 0) then
      let s1 := watchdogEvent c (resetCore c s)
      if c = .curator then { s1 with cores := { s1.cores with alert := true } } else s1
    else s)

/-- CORE_RESTARTED: the firmware runs again from its retained local memory (R575). -/
def execCoreRestarted (c : Core) (s : State) : Host.Outcome State Fault Refusal :=
  .next (let x := coreState c s
    if x.restarting then
      answerAtOnce (reloadWatchdog c (freeRegs c (setCore c { x with restarting := false, atReset := !coreStarts c s } s)))
    else s)

/-- A keyed write of WDOG_KICK (R574). DEDUCED (log entry 43). -/
def kick (key : Byte) (alertClr : Bool) (restart : BitVec 4) (s : State) : State :=
  if key ≠ 0x4B#8 then setFault fcReservedWrite s
  else
    let s1 := if alertClr then { s with cores := { s.cores with alert := false } } else s
    if effectiveLevel s = 2 then (coresOf restart).foldl (fun s c => resetCore c s) s1 else s1

/-- ALERT_CLR. -/
def execAlertClr (m : Master) (key : Byte) (s : State) : Host.Outcome State Fault Refusal :=
  .next (kick key true 0 (dropKeys m s))

/-- CORE_RESTART. -/
def execCoreRestart (m : Master) (key : Byte) (cores : BitVec 4) (s : State) : Host.Outcome State Fault Refusal :=
  .next (kick key false cores (dropKeys m s))

end Sys2Proof.Machine
end

