-- ==== Sys2Proof/Machine/Registers.lean ====
section
/-! DEFINITION. Writes: the register file, stage and commit, the table windows, the stream control registers, and the command fields
they hold (R5, R16 to R20, R50 to R54, R139, R147, R603 to R646). -/

namespace Sys2Proof.Machine

/-! ### Stage and commit (R620 to R625) -/

/-- A master has written a staged field (R567). -/
def staged (m : Master) (s : State) : State :=
  setView m { view m s with stagedWritten := true, commitBlocked := false } s

/-- Twice the numbers of the divisor: SDIV's divisor, 0 for the reserved code (R530). -/
def sdivDivisor (clk : Word) : Nat := match fld clk 7 6 with | 0 => 1 | 1 => 2 | 2 => 4 | _ => 0

/-- SCLK lies in its range, in units of 100 MHz over the divisor (R531). -/
def clockOk (clk : Word) : Bool :=
  let d := sdivDivisor clk
  decide (d ≠ 0) && decide (6 * d ≤ fld clk 13 8) && decide (fld clk 13 8 ≤ 12 * d)

/-- The mesh payload carries a block per step at the rate the staged FCLK leaves it: 17 Gb/s at 0.5 GHz allows 0.75 GHz (R121, R122). -/
def meshRateOk (clk : Word) (s : State) : Bool :=
  !(hasMesh s && schedMesh s && clk.getLsbD 15) || decide (200 * fld clk 13 8 ≤ 1500 * sdivDivisor clk)

/-- The staged RATE of a link. -/
def stagedRate (l : FLink) (q : StagedSet) : Nat := match l with | .f0 => fld q.linkRates 1 0 | .f1 => fld q.linkRates 3 2

/-- Some two entries of a list agree under a key. -/
def hasPair (f : QWord → Nat) : List QWord → Bool
  | [] => false
  | e :: rest => rest.any (fun x => f x = f e) || hasPair f rest

/-- LINK, SLANE and SLOT as one number. -/
def slotKey (e : QWord) : Nat := fld e 49 39

/-- The staged entries break a limit of their lane's descriptor: CHANNELS, or DLY_MAX and PHASE (R270). -/
def laneDescriptor (e : QWord) (s : State) : Option Record := (lane (catLink e) (catLane e) s).descriptor
def slotBeyond (e : QWord) (s : State) : Bool :=
  match laneDescriptor e s with | some d => decide (dChannels d ≤ catSlot e) | none => false
def delayBeyond (e : QWord) (s : State) : Bool :=
  match laneDescriptor e s with
  | some d => decide (dDlyMax d < catDelayCyc e) || (!dPhase d && decide (catDelayPh e ≠ 0))
  | none => false

/-- Sites with ingress channels on both links (R25), and sites with more than 64 of them (R325). -/
def siteSplit (es : List QWord) : Bool :=
  es.any (fun e => roleIngress (catRole e) && es.any (fun x =>
    roleIngress (catRole x) && decide (catSite x = catSite e) && decide (catLink x ≠ catLink e)))
def siteCrowded (es : List QWord) : Bool :=
  es.any (fun e => decide (64 < es.countP (fun x => roleIngress (catRole x) && decide (catSite x = catSite e))))

/-- Whether reason `k` of R625 applies to a staged set. -/
def refusedFor (k : Nat) (q : StagedSet) (s : State) : Bool :=
  let es := (validEntries q.catalogue).map (fun e => e.2)
  let half := q.clk.getLsbD 15
  match k with
  | 0x01 => siteSplit es
  | 0x02 => q.mode.getLsbD 2 && !s.regs.schedInfo.getLsbD 14
  | 0x03 => !meshRateOk q.clk s
  | 0x04 => half && (stagedRate .f0 q = 1 || stagedRate .f1 q = 1)
  | 0x05 => !half && ((stagedRate .f0 q = 2 && !halfOk .f0 s) || (stagedRate .f1 q = 2 && !halfOk .f1 s))
  | 0x06 => es.any (fun e => catRole e = 7 || 2048 ≤ catPort e || q.sites.toNat ≤ catSite e)
  | 0x07 => hasPair slotKey es || hasPair catPort es
  | 0x08 => (validEntries q.catalogue).any (fun e => decide (e.1 = 2047) && roleIngress (catRole e.2))
  | 0x09 => es.any (fun e => catStimSrc e && !roleEgress (catRole e))
  | 0x0A => es.any (fun e => slotBeyond e s)
  | 0x0B => es.any (fun e => delayBeyond e s)
  | 0x0C => (s.params.mrec || s.repair.geometry.isSome) && siteCrowded es
  | 0x0D => !clockOk q.clk
  | 0x0E => hasTwin s && q.twinEnable && !tokenPinOk s
  | 0x0F => 6 ≤ fld q.startup 10 8
  | 0x10 => 1024 < q.sites.toNat
  | _ => false

/-- The lowest reason that refuses a set, 0 if none does (R625). -/
def refusal (q : StagedSet) (s : State) : Nat :=
  ((List.range 17).find? (fun k => refusedFor k q s)).getD 0

/-- A link's set-up under a newly committed set (R264, R384): named for the first time or with another rate or lane mask it trains in
full; no longer named it sleeps. -/
def applyLink (l : FLink) (old : StagedSet) (s : State) : State :=
  let was := (validEntries old.catalogue).any (fun e => catLink e.2 = l)
  let rate := decide (stagedRate l old ≠ stagedRate l s.inForce)
  let mask := match l with
    | .f0 => decide (old.laneEnF0 ≠ s.inForce.laneEnF0)
    | .f1 => decide (old.laneEnF1 ≠ s.inForce.laneEnF1)
  let s1 := if rate then setFlink l { flink l s with fallback := false } s else s
  if !linkNamed l s1 then (if was then putLinkState l 0 (setFlink l { downLink (flink l s1) with retrainDue := false } s1) else s1)
  else if !was || rate || mask then retrainLink l true s1
  else s1

/-- TWIN_CONTROL.ENABLE takes effect (R354, R375). -/
def applyTwin (was : Bool) (s : State) : State :=
  if !hasTwin s || was = s.inForce.twinEnable then s
  else if was then setRole .solo (lapseLease (leaveLockstep 0 s))
  else negotiate s

/-- Batches that have not begun take the committed mode (R139). -/
def applyMode (s : State) : State :=
  { s with batches := s.batches.map (fun b =>
      if b.burstBegun || b.egressBegun then b
      else { b with mode := s.inForce.mode.extractLsb' 0 2, overlap := s.inForce.mode.getLsbD 2 }) }

/-- Galleries newly in use are to be powered (R119, R391). -/
def applyGalleries (s : State) : State :=
  { s with array := { s.array with toPower := (List.range (galleryCount s)).filter (fun g =>
      (galleryInUse g s && !(gallery g s).powered && armed s) || (s.array.toPower.contains g && galleryInUse g s)) } }

/-- A set takes effect whole (R623). -/
def applySet (q : StagedSet) (s : State) : State :=
  let old := s.inForce
  let s1 := { s with inForce := q, pendingSet := none }
  let s2 := setStageStatus (setBit (setBit s1.regs.stageStatus 15 false) 13 true) s1
  let s3 := { s2 with power := { s2.power with
    clkDue := stepClockDiffers s2.power.clkInForce q.clk || fabricClockDiffers s2.power.clkInForce q.clk } }
  let moved := decide (old.catalogue ≠ q.catalogue)
  let s4 := { s3 with alignDue := s3.alignDue || moved, delaysDue := s3.delaysDue || moved }
  refreshEndOfTest (applyTwin old.twinEnable (applyLink .f1 old (applyLink .f0 old (applyGalleries (applyMode s4)))))

/-- A commit (R622 to R625, R567). -/
def commitSet (m : Master) (data : Word) (s : State) : State :=
  if data ≠ 0xC0DE#16 then setFault fcReservedWrite s
  else if (view m s).commitBlocked then s
  else
    let s1 := setView m { view m s with stagedWritten := false } s
    let r := refusal s.shadow s
    if r ≠ 0 then setStageStatus (setBit (setFld s1.regs.stageStatus 7 0 r) 14 true) s1
    else
      let s2 := { s1 with
        pendingSet := some s.shadow
        regs := { s1.regs with stageStatus := setBit (setFld s1.regs.stageStatus 7 0 0) 15 true } }
      if noBatch s2 then applySet s.shadow s2 else s2

/-- A PCI Express write lost to a control-bus write (R612). DEDUCED (log entry 13). -/
def collide (addr : Nat) (table : Bool) (s : State) : State :=
  let old := s.regs.busCollision
  let new : Word := if old.getLsbD 15 then old else BitVec.ofNat 16 (0x8000 + table.toNat * 0x4000 + addr % 64)
  setEvent evCollision { s with regs := { s.regs with busCollision := new } }

/-- A write with its collision: the control bus's takes effect, a lost PCI Express write is discarded. -/
def collided (m : Master) (lost : Bool) (addr : Nat) (table : Bool) (f : State → State) (s : State) : State :=
  if !lost then f s
  else match m with
    | .cb => collide addr table (f s)
    | .pcie => collide addr table s
    | _ => f s

/-- STAGE_COMMIT. -/
def execStageCommit (m : Master) (data : Word) (lost : Bool) (s : State) : Host.Outcome State Fault Refusal :=
  .next (collided m lost 0x08 false (fun s => commitSet m data (dropKeys m s)) s)

/-- STAGED_SET_APPLY: the pending set at the batch boundary, before what else takes effect there (R286). -/
def execStagedSetApply (s : State) : Host.Outcome State Fault Refusal :=
  .next (match s.pendingSet with
    | none => s
    | some q => if atBoundary s && s.array.running.isNone then settle (applySet q s) else s)

/-! ### Table windows (R613, R633 to R641) -/

/-- A whole entry is written from the latch (R635); read-only windows and bits ignore it. DEDUCED (log entry 12). -/
def writeEntry (m : Master) (w i : Nat) (e : QWord) (s : State) : State :=
  match w with
  | 1 =>
    staged m (if i = 2048 then { s with shadow := { s.shadow with sites := e.extractLsb' 0 11 } }
      else { s with shadow := { s.shadow with catalogue := tset 0 s.shadow.catalogue i (setFld e 3 0 0) } })
  | 3 => writePin i (e.extractLsb' 32 32) s
  | 4 =>
    let v := e.extractLsb' 48 16
    if 12 ≤ i then s
    else
      let s1 := { s with survey := { s.survey with
        policy := tset (BitVec.ofNat 16 (policyReset i)) s.survey.policy i v } }
      settle (if policyOk i v.toNat then s1 else setFault fcReservedWrite s1)
  | 6 => staged m { s with shadow := { s.shadow with galleryEn := setBit s.shadow.galleryEn i (e.getLsbD 53) } }
  | 7 =>
    let r := i / 8
    if i % 8 ≠ 2 then s
    else if r < 32 then staged m { s with shadow := { s.shadow with laneEnF0 := setBit s.shadow.laneEnF0 r (e.getLsbD 63) } }
    else if r < 64 then staged m { s with shadow := { s.shadow with laneEnF1 := setBit s.shadow.laneEnF1 (r - 32) (e.getLsbD 63) } }
    else s
  | _ => s

/-- A write of TABLE_DATA_A to _D, `k` = 0 to 3 (R635 to R637). -/
def writeTable (m : Master) (k : Nat) (data : Word) (s : State) : State :=
  let v := view m s
  let w := v.select.toNat
  let i := v.index.toNat
  if windowEntries w ≤ i then setFault fcReservedWrite s
  else if entryAbsent w i s || windowRegs w ≤ k then s
  else
    let e := setFld v.latch (63 - 16 * k) (48 - 16 * k) data.toNat
    let s1 := setView m { v with latch := e, latchValid := true } s
    if k + 1 = windowRegs w then
      let s2 := staleLatches w i (writeEntry m w i e s1)
      if v.autoInc && decide (w ≠ 2) then bumpIndex m s2 else s2
    else s1

/-- TABLE_ENTRY_WRITE. -/
def execTableEntryWrite (m : Master) (k : Nat) (data : Word) (lost : Bool) (s : State) : Host.Outcome State Fault Refusal :=
  .next (if k < 4 then collided m lost (0x1A + k) true (fun s => writeTable m k data (wrote m (0x1A + k) data s)) s else s)

/-- TABLE_SELECT and TABLE_INDEX: the latch is invalid from here (R634); a reserved WINDOW takes its reset value (R16). -/
def writeSelect (m : Master) (data : Word) (s : State) : State :=
  let w := fld data 3 0
  let ok := decide (w ≤ 9)
  let s1 := if ok then s else setFault fcReservedWrite s
  let sel := if ok then w else 0
  setView m { view m s1 with
    select := BitVec.ofNat 4 sel, latchValid := false, absent := entryAbsent sel (view m s).index.toNat s } s1
def writeIndex (m : Master) (data : Word) (s : State) : State :=
  let v := view m s
  setView m { v with index := data, latchValid := false, absent := entryAbsent v.select.toNat data.toNat s } s
def writeTableControl (m : Master) (data : Word) (s : State) : State :=
  setView m { view m s with autoInc := data.getLsbD 0, peek := data.getLsbD 1, viewStaged := data.getLsbD 2 } s

/-! ### Command fields (R18, R54) -/

/-- The WO bits of a field unit's register. -/
def woMask (addr : Nat) : Word :=
  match addr with
  | 0x23 => 0x000C#16
  | 0x24 => 0x00C0#16
  | 0x26 => 0x0004#16
  | 0x28 => 0x0010#16
  | 0x2A => 0x00E0#16
  | 0x2E => 0x0002#16
  | _ => 0

/-- RESYNC (R142, R143). -/
def resync (s : State) : State := { s with fetchStopped := false, anyBatch := true }

/-- RELEASE (R178). DESIGN CHOICE (log entry 132). -/
def releaseFreeze (s : State) : State := if s.regs.arrayStatus.getLsbD 15 then putArrayBit 15 false s else s

/-- RESUME of FAIL_CONTROL: both resume lines for one cycle (R205). -/
def resumeEgress (s : State) : State := endStop (noteResume true true s)

/-- What the WO bits of a written value do at their unit. -/
def woEffect (addr : Nat) (data : Word) (s : State) : State :=
  let on (b : Nat) (f : State → State) (s : State) : State := if data.getLsbD b then f s else s
  match addr with
  | 0x23 => on 2 releaseFreeze (on 3 resync s)
  | 0x24 => on 7 (requestRetrain .f1) (on 6 (requestRetrain .f0) s)
  | 0x26 => on 2 requestDetach s
  | 0x28 => on 4 resumeEgress s
  | 0x2A => on 5 requestRestart (on 6 clearLog (on 7 clearCounts s))
  | 0x2E => on 1 requestRemeasure s
  | 0x36 => forwardCall (fld data 5 0) s
  | _ => s

/-- Held commands of a Dormant side run once it has its registers (R54). -/
def runHeld (s : State) : State :=
  let held := s.heldCommands
  held.foldl (fun s c => woEffect c.2.1.toNat c.2.2 s) { s with heldCommands := [] }

/-- The WO bits of a write that has taken effect in the register file. -/
def writeCommands (m : Master) (addr : Nat) (data : Word) (s : State) : State :=
  if data &&& woMask addr = 0 then s
  else if fieldAwake s then woEffect addr data s
  else if s.power.field = .dormant && !s.barrier.fieldSilent then holdCommand m (BitVec.ofNat 6 addr) data s
  else s

/-- RESYNC, RELEASE and FAIL_RESUME. -/
def execResync (m : Master) (s : State) : Host.Outcome State Fault Refusal :=
  .next (fieldCommand m 0x23 (s.regs.batchControl ||| 8) resync s)
def execRelease (m : Master) (s : State) : Host.Outcome State Fault Refusal :=
  .next (fieldCommand m 0x23 (s.regs.batchControl ||| 4) releaseFreeze s)
def execFailResume (m : Master) (s : State) : Host.Outcome State Fault Refusal :=
  .next (fieldCommand m 0x28 (s.regs.failControl ||| 0x10) resumeEgress s)

/-! ### Register fields (R615) -/

/-- Clear W1C bits. -/
def cleared (old data mask : Word) : Word := old &&& ~~~(data &&& mask)

/-- RUN (R147). -/
def putRun (v : Bool) (s : State) : State :=
  refreshEndOfTest { s with regs := { s.regs with batchControl := setBit s.regs.batchControl 0 v } }

/-- RUN. -/
def execRun (m : Master) (v : Bool) (s : State) : Host.Outcome State Fault Refusal :=
  .next (putRun v (wrote m 0x23 (setBit s.regs.batchControl 0 v) s))

/-- WAKE_ENABLE: a reserved TARGET takes its reset value (R16, R526). DEDUCED (log entry 11). -/
def writeWakeEnable (data : Word) (s : State) : State :=
  let ok := decide (2 ≤ fld data 1 0)
  let v := if ok then data &&& 0xFFFB#16 else (data &&& 0xFFF8#16) ||| 3#16
  let s1 := { s with regs := { s.regs with wakeEnable := v } }
  if ok then s1 else setFault fcReservedWrite s1

/-- The bits of EVENT_MASK that the variant has (R7, R628). -/
def eventMaskBits (s : State) : Word :=
  setBit (setBit 0xFFFE#16 evTwin (hasTwin s)) evRa (hasRepair s)

/-- FAULT_STATUS_A: clearing GALLERY_ASLEEP or ARRAY_ILLEGAL clears the descriptors' flags (R84, R114). -/
def clearFaultA (data : Word) (s : State) : State :=
  let each (f : GalleryInfo → GalleryInfo) (s : State) : State :=
    { s with array := { s.array with galleries := (List.range 64).foldl (fun t g => tset {} t g (f (tget {} t g))) s.array.galleries } }
  let s1 := { s with regs := { s.regs with faultA := cleared s.regs.faultA data 0x7FFF#16 } }
  let s2 := if data.getLsbD 5 then each (fun i => { i with asleepValid := false }) s1 else s1
  if data.getLsbD 4 then each (fun i => { i with illegalValid := false }) s2 else s2

/-- LOAD_CONTROL (R404): the named values, then BEGIN or ABORT. DEDUCED (log entry 75). -/
def writeLoadControl (data : Word) (s : State) : State :=
  let bad := decide (fld data 7 0 = 0xFF)
  let kept : Word := if bad then data &&& 0x3F00#16 else data &&& 0x3FFF#16
  let s0 := { s with regs := { s.regs with loadControl := kept } }
  let s1 := if bad then setFault fcReservedWrite s0 else s0
  if data.getLsbD 15 then beginLoad (kept.extractLsb' 12 2) (kept.extractLsb' 8 4) (kept.extractLsb' 0 8) s1
  else if data.getLsbD 14 then failLoad ldAbort s1
  else s1

/-- A RATE code, the reserved one as its reset value. -/
def rateCode (v : Nat) : Nat := if v = 3 then 0 else v

/-- LINK_CONTROL's staged rates (R16, R284). -/
def writeRates (m : Master) (data : Word) (s : State) : State :=
  let a := fld data 1 0
  let b := fld data 3 2
  let s1 := staged m { s with shadow := { s.shadow with linkRates := BitVec.ofNat 4 (rateCode b * 4 + rateCode a) } }
  if a = 3 || b = 3 then setFault fcReservedWrite s1 else s1

/-- TWIN_CONTROL (R376). -/
def writeTwinControl (m : Master) (data : Word) (s : State) : State :=
  if hasTwin s then
    staged m { s with
      shadow := { s.shadow with twinEnable := data.getLsbD 0 }
      regs := { s.regs with twinPrefer := data.getLsbD 1 } }
  else s

/-- FAIL_CONTROL (R16, R318). -/
def writeFailControl (data : Word) (s : State) : State :=
  let bad := decide (fld data 3 2 = 3)
  let v := data &&& 0x000F#16
  let s1 := { s with regs := { s.regs with failControl := if bad then setFld v 3 2 1 else v } }
  if bad then setFault fcReservedWrite s1 else s1

/-- SCRUB_CONTROL's RW fields (R16, R488). -/
def writeScrubControl (data : Word) (s : State) : State :=
  let bad := decide (fld data 4 3 = 3)
  let v := setFld (setFld s.regs.scrubControl 4 3 (if bad then 1 else fld data 4 3)) 2 2 (fld data 2 2)
  let s1 := setCheckTest (data.getLsbD 15) { s with regs := { s.regs with scrubControl := v } }
  refreshStealing (if bad then setFault fcReservedWrite s1 else s1)

/-- HOLD returns to 0: every withheld condition is evaluated afresh (R399). -/
def releaseHold (s : State) : State :=
  let again (l : FLink) (s : State) : State :=
    match (flink l s).remeasureHeld with
    | some code => remeasureDue l code (setFlink l { flink l s with remeasureHeld := none } s)
    | none => s
  settle (again .f1 (again .f0 { s with survey := { s.survey with withheld := [] } }))

/-- SURVEY_CONTROL's RW fields (R384, R399 to R401). -/
def writeSurveyControl (data : Word) (s : State) : State :=
  let was := s.regs.surveyControl.getLsbD 0
  let now := data.getLsbD 0
  let s1 := { s with regs := { s.regs with
    surveyControl := data &&& 0x000D#16, surveyStatus := setBit s.regs.surveyStatus 5 now } }
  let s2 := if overridden 7 s1 then
      settleThrottle { s1 with survey := { s1.survey with levelDue := some (fld data 3 2, false) } }
    else s1
  if was && !now then releaseHold s2 else s2

/-- WDOG_CONTROL: code 0 only at effective level FULL (R16, R573). -/
def writeWdogControl (data : Word) (s : State) : State :=
  let full := decide (effectiveLevel s = 2)
  let code (k : Nat) : Nat := fld data (4 * k + 3) (4 * k)
  let bad := !full && (List.range 4).any (fun k => code k = 0)
  let put (k : Nat) : Nat := if code k = 0 && !full then 0xC else code k
  let s1 := { s with regs := { s.regs with
    wdogControl := BitVec.ofNat 16 (put 3 * 4096 + put 2 * 256 + put 1 * 16 + put 0) } }
  if bad then setFault fcReservedWrite s1 else s1

/-- CLK_CONTROL's staged fields (R530). -/
def writeClock (m : Master) (data : Word) (s : State) : State :=
  staged m { s with shadow := { s.shadow with clk := data &&& 0xBFC0#16 } }

/-- A write that is not a key write reaches its register (R615). -/
def writeReg (m : Master) (addr : Nat) (data : Word) (s : State) : State :=
  let r := s.regs
  match addr with
  | 0x05 => hostSleep false (requestField (fld data 2 0) s)
  | 0x06 => writeWakeEnable data s
  | 0x07 => { s with regs := { r with wakeCause := cleared r.wakeCause data 0x00FF#16 } }
  | 0x08 => commitSet m data s
  | 0x09 => { s with regs := { r with stageStatus := cleared r.stageStatus data 0x6000#16 } }
  | 0x0A => { s with regs := { r with eventStatus := cleared r.eventStatus data 0xFFFE#16 } }
  | 0x0B => { s with regs := { r with eventMask := data &&& eventMaskBits s } }
  | 0x0C => clearFaultA data s
  | 0x0D => { s with regs := { r with faultB := cleared r.faultB data 0x07FF#16 } }
  | 0x0E => { s with regs := { r with faultC := cleared r.faultC data 0x007F#16 } }
  | 0x0F => if data.getLsbD 15 then { s with regs := { r with faultFirst := 0 } } else s
  | 0x10 => writeLoadControl data s
  | 0x12 => { s with regs := { r with loadDeadline := data } }
  | 0x14 => staged m { s with shadow := { s.shadow with startup := data.extractLsb' 0 11 } }
  | 0x17 => writeLevel (data.extractLsb' 0 2) s
  | 0x18 => writeSelect m data s
  | 0x19 => writeIndex m data s
  | 0x1A => writeTable m 0 data s
  | 0x1B => writeTable m 1 data s
  | 0x1C => writeTable m 2 data s
  | 0x1D => writeTable m 3 data s
  | 0x1E => writeTableControl m data s
  | 0x1F => { s with regs := { r with arrayControl := data &&& 0x003F#16 } }
  | 0x20 => { s with regs := { r with arrayStatus := cleared r.arrayStatus data 0x2000#16 } }
  | 0x22 => staged m { s with shadow := { s.shadow with mode := data.extractLsb' 0 3 } }
  | 0x23 => putRun (data.getLsbD 0) { s with regs := { r with batchControl := data &&& 0x0003#16 } }
  | 0x24 => writeRates m data s
  | 0x26 => writeTwinControl m data s
  | 0x27 => { s with regs := { r with twinStatus := cleared r.twinStatus data 0x01FE#16 } }
  | 0x28 => writeFailControl data s
  | 0x29 => { s with regs := { r with failStatus := cleared r.failStatus data 0x001F#16 } }
  | 0x2A => writeScrubControl data s
  | 0x2B => { s with regs := { r with scrubStatus := cleared r.scrubStatus data 0x007F#16 } }
  | 0x2E => writeSurveyControl data s
  | 0x2F => { s with regs := { r with surveyStatus := cleared r.surveyStatus data 0x0007#16 } }
  | 0x30 => writeWdogControl data s
  | 0x31 => kick (data.extractLsb' 8 8) (data.getLsbD 4) (data.extractLsb' 0 4) s
  | 0x32 => writeClock m data s
  | 0x33 => { s with regs := { r with clkStatus := cleared r.clkStatus data 0x0300#16 } }
  | 0x35 => { s with regs := { r with busCollision := cleared r.busCollision data 0x8000#16 } }
  | 0x37 => { s with regs := { r with mailboxStatus := cleared r.mailboxStatus data 0x0007#16 } }
  | 0x38 => { s with regs := { r with scratch := data } }
  | _ => if 0x39 ≤ addr then setFault fcReservedWrite s else s

/-- Registers that a field unit uses or holds: a write to one crosses (R51). DEDUCED. DEDUCED (log entry 6). -/
def fieldRegister (addr : Nat) : Bool :=
  [0x05, 0x06, 0x1A, 0x1B, 0x1C, 0x1D, 0x1F, 0x20, 0x22, 0x23, 0x24, 0x26, 0x27, 0x28, 0x29, 0x2A, 0x2B, 0x2E, 0x2F, 0x30,
    0x31, 0x32, 0x33].contains addr

/-- A 16-bit write of a register by a master. -/
def fileWrite (m : Master) (addr : Nat) (data : Word) (s : State) : State :=
  if addr = 0x16 then securityLock m data s
  else if addr = 0x34 then pinLockKey m data s
  else if addr = 0x36 then writeDoorbell m (fld data 5 0) s
  else
    let s1 := if fieldRegister addr then wrote m addr data s else dropKeys m s
    writeCommands m addr data (writeReg m addr data s1)

/-! ### Stream control registers (R299, R428, R607 to R609) -/

/-- The batch ring is placed only while RUN = 0 and no batch is in progress (R608). -/
def ringMay (s : State) : Bool := !s.regs.batchControl.getLsbD 0 && noBatch s

/-- BRBASE or BRSIZE, whole. A base that is no multiple of 32, or a reserved size, takes the reset value (R16). -/
def setupRing (size : Bool) (v : Nat) (s : State) : State :=
  if !ringMay s then setFault fcReservedWrite s
  else
    let ok := if size then decide (v = 0) || (decide (4 ≤ v) && decide (v ≤ 12)) else decide (v % 32 = 0)
    let q := if ok then v else 0
    let st := { s.stream with brFetch := 0, brRel := 0, brProd := 0 }
    let s1 := { s with stream := if size then { st with brSize := BitVec.ofNat 4 q } else { st with brBase := BitVec.ofNat 24 q } }
    if ok then s1 else setFault fcReservedWrite s1

/-- BATCH_RING_SETUP. -/
def execBatchRingSetup (size : Bool) (v : BitVec 24) (s : State) : Host.Outcome State Fault Refusal :=
  .next (setupRing size (if size then v.toNat % 16 else v.toNat) (dropKeys .pcie s))

/-- BRPROD. -/
def writeProd (v : DWord) (s : State) : State := { s with stream := { s.stream with brProd := v } }

/-- BATCH_DOORBELL. -/
def execBatchDoorbell (v : DWord) (s : State) : Host.Outcome State Fault Refusal := .next (writeProd v (dropKeys .pcie s))

/-- The stimulus writeback and vector 5 (R609). -/
def stimWriteback (s : State) : State :=
  msix 5 (hostWrite s.stream.sWb.toNat 8 (s.stream.sError.toNat * 2 ^ 32 + s.stream.sCount.toNat) s)

/-- A start that is refused: unaligned, or a destination in the shadow range or beyond Common Store. -/
def stimRefused (s : State) : Bool :=
  let a := s.stream.sDest.toNat
  let n := s.stream.sLen.toNat
  decide (s.stream.sSrc.toNat % 8 ≠ 0) || rangeBad a n || decide (n % 8 ≠ 0)

/-- A completed copy. -/
def stimDone (s : State) : State :=
  stimWriteback { s with stream := { s.stream with sBusy := false, sCount := s.stream.sCount + 1 } }

/-- SGO (R609): SLEN = 0 completes at once (R648). -/
def startStim (data : BitVec 2) (s : State) : State :=
  if !data.getLsbD 0 || s.stream.sBusy then s
  else if stimRefused s then stimWriteback { s with stream := { s.stream with sError := true } }
  else if s.stream.sLen = 0 then stimDone { s with stream := { s.stream with sError := false } }
  else { s with stream := { s.stream with sBusy := true, sError := false } }

/-- SGO. -/
def execSgo (data : BitVec 2) (s : State) : Host.Outcome State Fault Refusal := .next (startStim data (dropKeys .pcie s))

/-- STIM_DMA_DONE: the bytes read from host memory stand at SDEST (R609). -/
def execStimDmaDone (bytes : List Byte) (s : State) : Host.Outcome State Fault Refusal :=
  .next (if s.stream.sBusy && fieldAwake s && decide (bytes.length = s.stream.sLen.toNat) then
      stimDone (csWrite s.stream.sDest.toNat bytes s)
    else s)

/-- A base that is no multiple of its unit takes the reset value (R16). DEDUCED (log entry 10). -/
def putBase (unit : Nat) (v : QWord) (f : QWord → State → State) (s : State) : State :=
  if v.toNat % unit = 0 then f v s else setFault fcReservedWrite (f 0 s)

/-- A Ledger channel's register. -/
def writeChannel (l : FLink) (k : Nat) (v : QWord) (s : State) : State :=
  match k with
  | 0 => putBase 4096 v (fun v s => setChannel l { channel l s with base := v } s) s
  | 1 => writeLsize l (v.extractLsb' 0 5) s
  | 2 => putBase 8 v (fun v s => setChannel l { channel l s with wb := v } s) s
  | _ => writeLcons l (v.extractLsb' 0 32) s

/-- The repeat ring's register (R428). -/
def writeRepeatRing (k : Nat) (v : QWord) (s : State) : State :=
  match k with
  | 0 => { s with stream := { s.stream with rep := { s.stream.rep with base := v } } }
  | 1 => writeRsize (v.extractLsb' 0 5) s
  | 2 => { s with stream := { s.stream with rep := { s.stream.rep with wb := v } } }
  | _ => writeRcons (v.extractLsb' 0 32) s

/-- What a stream register holds, for a write of half of it. -/
def streamValue (off : Nat) (s : State) : QWord :=
  let c (r : RingChannel) (k : Nat) : QWord :=
    match k with | 0 => r.base | 1 => r.size.setWidth 64 | 2 => r.wb | _ => r.cons.setWidth 64
  match off with
  | 0x000 => s.stream.brBase.setWidth 64
  | 0x008 => s.stream.brSize.setWidth 64
  | 0x010 => s.stream.brProd.setWidth 64
  | 0x100 => s.stream.sSrc
  | 0x108 => s.stream.sDest.setWidth 64
  | 0x110 => s.stream.sLen.setWidth 64
  | 0x120 => s.stream.sWb
  | _ =>
    if off / 0x40 = 1 then c s.stream.f0 (off % 0x40 / 8)
    else if off / 0x40 = 2 then c s.stream.f1 (off % 0x40 / 8)
    else if off / 0x40 = 3 then c s.stream.rep (off % 0x40 / 8)
    else 0

/-- A whole stream control register. DEDUCED (log entry 9). -/
def writeStream (off : Nat) (v : QWord) (s : State) : State :=
  match off with
  | 0x000 => setupRing false (fld v 23 0) s
  | 0x008 => setupRing true (fld v 3 0) s
  | 0x010 => writeProd (v.extractLsb' 0 32) s
  | 0x100 => { s with stream := { s.stream with sSrc := v } }
  | 0x108 => { s with stream := { s.stream with sDest := v.extractLsb' 0 24 } }
  | 0x110 => { s with stream := { s.stream with sLen := v.extractLsb' 0 24 } }
  | 0x118 => startStim (v.extractLsb' 0 2) s
  | 0x120 => { s with stream := { s.stream with sWb := v } }
  | _ =>
    if off % 8 ≠ 0 || decide (0x20 ≤ off % 0x40) then s
    else if off / 0x40 = 1 then writeChannel .f0 (off % 0x40 / 8) v s
    else if off / 0x40 = 2 then writeChannel .f1 (off % 0x40 / 8) v s
    else if off / 0x40 = 3 then writeRepeatRing (off % 0x40 / 8) v s
    else s

/-- A write of one stream register: at its own offset it is whole, at the offset of its second DWORD it replaces bits [31:0] (R14,
R607). -/
def streamWrite (off : Nat) (v : QWord) (s : State) : State :=
  if off % 8 = 4 then writeStream (off - 4) (setFld (streamValue (off - 4) s) 31 0 (fld v 31 0)) s else writeStream off v s

/-! ### REGISTER_WRITE (R539, R603 to R605, R611, R612) -/

/-- The stream window's areas that a write names: the Mailbox and the MSI-X table hold what is written. -/
def putMsix (off : Nat) (bs : List Byte) (s : State) : State :=
  { s with cores := { s.cores with msixTable := putMailbox off (bs.take (0x100 - off)) s.cores.msixTable } }
def putMailboxBytes (off : Nat) (bs : List Byte) (s : State) : State :=
  { s with cores := { s.cores with mailbox := putMailbox off (bs.take (0x4000 - off)) s.cores.mailbox } }

/-- A register write: a PCI Express write of a register without both of its bytes is discarded (R604). -/
def registerWrite (m : Master) (t : WriteTarget) (lost : Bool) (s : State) : State :=
  match t with
  | .file addr data be =>
    if m = .pcie && be ≠ 3#2 then setFault fcReservedWrite s
    else collided m lost addr.toNat (decide (0x1A ≤ addr.toNat) && decide (addr.toNat ≤ 0x1D)) (fileWrite m addr.toNat data) s
  | .stream off v => if m = .pcie then streamWrite off v (dropKeys m s) else s
  | .mailbox off bs => if m = .pcie || m = .curator then putMailboxBytes off bs (dropKeys m s) else s
  | .msix off bs => if m = .pcie then putMsix off bs (dropKeys m s) else s

/-- REGISTER_WRITE. -/
def execRegisterWrite (m : Master) (t : WriteTarget) (lost : Bool) (s : State) : Host.Outcome State Fault Refusal :=
  .next (registerWrite m t lost s)

/-! ### Transitions (R518, R521) -/

/-- POWER_TRANSITION_DONE: the transition that is due completes and is reported; commands held for a waking side run after its
refresh (R54). -/
def execPowerTransitionDone (s : State) : Host.Outcome State Fault Refusal :=
  .next (
    let s1 := fieldArrives s
    let s2 := if s.power.field = .dormant && s1.power.field = .standby then runHeld s1 else s1
    hostArrives s2)

end Sys2Proof.Machine
end

