-- ==== Sys2Proof/Machine/Debug.lean ====
section
/-! DEFINITION. The debug wire: its frames, commands and replies, breakpoints, cross-trigger sources and trace packets
(R549 to R571). -/

namespace Sys2Proof.Machine

/-! ### Replies (R550, R554) -/

def dbgOk : Byte := 0x00
def dbgDenied : Byte := 0x01
def dbgRange : Byte := 0x02
def dbgNotHalted : Byte := 0x03
def dbgBusError : Byte := 0x04
def dbgAsleep : Byte := 0x05
def dbgBusy : Byte := 0x06

/-- The device replies: STATUS, then the reply data. The request is answered. -/
def answer (status : Byte) (data : List Byte) (s : State) : State :=
  { s with cores := { s.cores with
      debugReply := status :: data, debugReplies := s.cores.debugReplies + 1, lastRequest := [] } }

/-- A command below its minimum effective level is answered DENIED (R552). -/
def permitted (level : Nat) (f : State → State) (s : State) : State :=
  if effectiveLevel s < level then answer dbgDenied [] s else f s

/-! ### Spaces (R553, R555) -/

/-- The outcome of a read: a refusal by status, or the words. -/
abbrev Peek := Except Byte (List DWord)

/-- The field side's memories answer the debug bus: a Dormant side is asleep and is not woken (R506, R554), an unpowered or silent
one gives no data. DEDUCED (log entry 45). -/
def fieldReach (s : State) : Option Byte :=
  if fieldAwake s then none
  else if s.power.field = .dormant && !s.barrier.fieldSilent then some dbgAsleep
  else some dbgBusError

/-- The core whose local memory or registers an address names. -/
def coreAt (n : Nat) : Core := match n with | 0 => .curator | 1 => .docentA | 2 => .docentB | _ => .warden

/-- Some memory of a core cannot answer now; the Curator's is on the host die. -/
def coreReach (c : Core) (s : State) : Option Byte := if c = .curator then none else fieldReach s

/-- The entry that a peek of TABLE_DATA needs is latched afresh: at _A, or where no entry is latched (R613, R634). -/
def peekLatch (k : Nat) (s : State) : Except Byte State :=
  let v := view .debug s
  let w := v.select.toNat
  let i := v.index.toNat
  if windowEntries w ≤ i || entryAbsent w i s || windowRegs w ≤ k || (k ≠ 0 && v.latchValid) then .ok s
  else
    match (if windowCrosses w then fieldReach s else none) with
    | some e => .error e
    | none =>
      let r := stateRow i s
      if w = 8 && stateReadable s && (bankValid r.2 s).contains r.1 && !(bankPoison r.2 s).contains r.1
          && decide ((rowDecode r.2 r.1 s).1 = .uncorrectable) then .error dbgBusError
      else .ok (takeEntry .debug (windowEntry v w i s) s)

/-- A peek of one register (R20, R555). -/
def peekReg (addr : Nat) (s : State) : Except Byte (DWord × State) :=
  if 0x1A ≤ addr && addr ≤ 0x1D then
    let v := view .debug s
    let k := addr - 0x1A
    let there := !(decide (windowEntries v.select.toNat ≤ v.index.toNat) || entryAbsent v.select.toNat v.index.toNat s
      || decide (windowRegs v.select.toNat ≤ k))
    match peekLatch k s with
    | .error e => .error e
    | .ok s1 => .ok (if there then (latchWord k (view .debug s1)).setWidth 32 else 0, s1)
  else .ok ((regValue (view .debug s) addr s).setWidth 32, s)

/-- Peeks of `n` registers from an address. -/
def peekRegs : Nat → Nat → List DWord → State → Except Byte (List DWord × State)
  | _, 0, ws, s => .ok (ws, s)
  | addr, n + 1, ws, s =>
    match peekReg addr s with
    | .error e => .error e
    | .ok r => peekRegs (addr + 1) n (ws ++ [r.1]) r.2

/-- A byte of a core's local memory as delivered, and whether it is uncorrectable (R454). -/
def localByte (a : Nat) (s : State) : EccClass × Byte := secdedDecode (tget 0 s.cores.localMem a) (tget 0 s.protection.localDev a)

def localBytes (a n : Nat) (s : State) : List (EccClass × Byte) := (List.range n).map (fun k => localByte (a + k) s)

def peekLocal (a n : Nat) (s : State) : Peek :=
  match coreReach (coreAt (a / 0x40000)) s with
  | some e => .error e
  | none =>
    let bs := localBytes a (4 * n) s
    if bs.any (fun b => decide (b.1 = .uncorrectable)) then .error dbgBusError
    else .ok ((List.range n).map (fun k => BitVec.ofNat 32 (ofBytes (((bs.drop (4 * k)).take 4).map (·.2)))))

/-- The bank groups of a range sleep (R504, R508). -/
def storeAsleep (a n : Nat) (s : State) : Bool :=
  (List.range n).any (fun k => nodeAsleep (0x40 + physicalBank (a + 4 * k) s.store / 4) s)

def peekStore (a n : Nat) (s : State) : Peek :=
  match fieldReach s with
  | some e => .error e
  | none =>
    if storeAsleep a n s then .error dbgAsleep
    else if csUe a (4 * n) s.store then .error dbgBusError
    else .ok ((List.range n).map (fun k =>
      if readWithheld 0x54 (a + 4 * k) s then 0 else BitVec.ofNat 32 (csNat (a + 4 * k) 4 s.store)))

/-- A core register as last written through the debug port, else a free value. -/
def coreReg (c : Core) (r : Nat) (s : State) : DWord :=
  let k := 256 * coreNum c + r
  if s.cores.coreRegs.any (fun e => e.1 = k) then tget 0 s.cores.coreRegs k else Config.freeCoreReg (coreState c s).regGen k

def peekCore (a n : Nat) (s : State) : Peek :=
  let c := coreAt (a / 0x40000)
  if !(coreState c s).halted then .error dbgNotHalted
  else .ok ((List.range n).map (fun k => coreReg c (a % 0x40000 + k) s))

/-- A range of words lies inside its space (R553). -/
def spaceOk (space : Byte) (a n : Nat) : Bool :=
  decide (1 ≤ n) && decide (n ≤ 16) &&
  match space.toNat with
  | 0 => decide (a + n ≤ 64)
  | 1 => decide (a % 4 = 0) && decide (a % 0x40000 + 4 * n ≤ 0x40000) && decide (a < 0x100000)
  | 2 => decide (a % 4 = 0) && decide (a + 4 * n ≤ csSize)
  | 3 => decide (a % 0x40000 + n ≤ 256) && decide (a < 0x100000)
  | _ => false

/-- READ: words of a space, most significant byte first. -/
def debugRead (space : Byte) (addr : DWord) (count : Nat) (s : State) : State :=
  let a := addr.toNat
  let done (p : Peek) (s : State) : State :=
    match p with
    | .error e => answer e [] s
    | .ok ws => answer dbgOk (ws.flatMap (fun w => bytesOf 4 w.toNat)) s
  if !spaceOk space a count then answer dbgRange [] s
  else
    match space.toNat with
    | 0 =>
      match peekRegs a count [] s with
      | .error e => answer e [] s
      | .ok r => done (.ok r.1) r.2
    | 1 => done (peekLocal a count s) s
    | 2 => done (peekStore a count s) s
    | _ => done (peekCore a count s) s

/-- DEBUG_READ. -/
def execDebugRead (space : Byte) (addr : DWord) (count : Nat) (s : State) : Host.Outcome State Fault Refusal :=
  .next (permitted 1 (debugRead space addr count) s)

/-- Words with the addresses they go to. -/
def wordsAt (a step : Nat) : List DWord → List (Nat × DWord)
  | [] => []
  | w :: rest => (a, w) :: wordsAt (a + step) step rest

/-- A write of a word of local memory makes its check bits afresh (R454). -/
def pokeLocal (a : Nat) (w : DWord) (s : State) : State :=
  (wordsAt a 1 ((bytesOf 4 w.toNat).map (fun b => b.setWidth 32))).foldl (fun s e =>
    { s with
      cores := { s.cores with localMem := tset 0 s.cores.localMem e.1 (e.2.setWidth 8) }
      protection := { s.protection with localDev := tdel s.protection.localDev e.1 } }) s

/-- A write of a word of Common Store: into the configuration shadow it is refused (R450). -/
def pokeStore (a : Nat) (w : DWord) (s : State) : State :=
  if inShadow a then setFault fcCfgWrite s else csWrite a (bytesOf 4 w.toNat) s

def pokeCore (k : Nat) (w : DWord) (s : State) : State :=
  { s with cores := { s.cores with coreRegs := tput s.cores.coreRegs k w } }

/-- WRITE: words of a space, as master 3 (R554). -/
def debugWrite (space : Byte) (addr : DWord) (words : List DWord) (s : State) : State :=
  let a := addr.toNat
  let c := coreAt (a / 0x40000)
  if !spaceOk space a words.length then answer dbgRange [] s
  else
    match space.toNat with
    | 0 => answer dbgOk [] ((wordsAt a 1 words).foldl (fun s e => fileWrite .debug e.1 (e.2.setWidth 16) s) s)
    | 1 =>
      match coreReach c s with
      | some e => answer e [] s
      | none => answer dbgOk [] ((wordsAt a 4 words).foldl (fun s e => pokeLocal e.1 e.2 s) s)
    | 2 =>
      match fieldReach s with
      | some e => answer e [] s
      | none =>
        if storeAsleep a words.length s then answer dbgAsleep [] s
        else
          let s1 := (wordsAt a 4 words).foldl (fun s e => pokeStore e.1 e.2 s) s
          answer (if touchesShadow a (4 * words.length) then BitVec.ofNat 8 Config.refusedStatus else dbgOk) [] s1
    | _ =>
      if !(coreState c s).halted then answer dbgNotHalted [] s
      else answer dbgOk [] ((wordsAt (256 * coreNum c + a % 0x40000) 1 words).foldl (fun s e => pokeCore e.1 e.2 s) s)

/-- DEBUG_WRITE. -/
def execDebugWrite (space : Byte) (addr : DWord) (words : List DWord) (s : State) : Host.Outcome State Fault Refusal :=
  .next (permitted 2 (debugWrite space addr words) s)

/-! ### Connect, halt, resume, step, status (R552, R556, R563 to R566) -/

/-- CONNECT: identity, effective level and cap. Within the hold after a reset, and at FULL, HALT_ON_RESET is noted (R556). -/
def connect (flags : Byte) (s : State) : State :=
  let v := view .debug s
  let note := flags.getLsbD 0 && s.cores.resetHold && decide (effectiveLevel s = 2)
  let s1 : State := { s with cores := { s.cores with haltOnReset := s.cores.haltOnReset || note } }
  answer dbgOk (bytesOf 2 (regValue v 0 s).toNat ++ bytesOf 2 (regValue v 1 s).toNat
    ++ [BitVec.ofNat 8 (effectiveLevel s), BitVec.ofNat 8 (otpCap s.otp)]) s1

def execConnect (flags : Byte) (s : State) : Host.Outcome State Fault Refusal := .next (connect flags s)

def haltCores (mask : BitVec 4) (s : State) : State :=
  answer dbgOk [] ((coresOf mask).foldl (fun s c => haltBySource 1 c s) s)

/-- HALT. -/
def execHalt (cores : BitVec 4) (s : State) : Host.Outcome State Fault Refusal := .next (permitted 2 (haltCores cores) s)

def resumeCores (mask : BitVec 4) (s : State) : State :=
  answer dbgOk [] ((coresOf mask).foldl (fun s c => resumeCore c s) s)

/-- RESUME. -/
def execResume (cores : BitVec 4) (s : State) : Host.Outcome State Fault Refusal := .next (permitted 2 (resumeCores cores) s)

/-- STEP: a halted core runs until its STEP_END. -/
def stepCore (c : Core) (n : Nat) (s : State) : State :=
  if n = 0 || decide (65535 < n) then answer dbgRange [] s
  else if !(coreState c s).halted then answer dbgNotHalted [] s
  else
    let s1 := resumeCore c s
    answer dbgOk [] (setCore c { coreState c s1 with stepLeft := n } s1)

def execStep (c : Core) (n : Nat) (s : State) : Host.Outcome State Fault Refusal := .next (permitted 2 (stepCore c n) s)

/-- STEP_END: the instructions asked for are done and the core halts (R566). -/
def execStepEnd (c : Core) (s : State) : Host.Outcome State Fault Refusal :=
  .next (if coreRuns (coreState c s) && decide ((coreState c s).stepLeft ≠ 0) then haltBySource 2 c s else s)

/-- BREAKPOINT: a core reaches one (R563, R565); halting needs the effective level FULL (R559). DEDUCED (log entry 42). -/
def execBreakpoint (c : Core) (s : State) : Host.Outcome State Fault Refusal :=
  .next (if coreRuns (coreState c s) && decide (effectiveLevel s = 2) then haltBySource 3 c s else s)

/-- What CORE_STATUS says of a core: its state and its halt cause. -/
def coreReport (x : CoreState) : List Byte :=
  [Config.coreStateCode (if x.halted then 1 else if coreRuns x then 0 else 2), if x.halted then x.cause else 0]

/-- CORE_STATUS. -/
def execCoreStatus (s : State) : Host.Outcome State Fault Refusal :=
  .next (permitted 1 (fun s => answer dbgOk (allCores.flatMap (fun c => coreReport (coreState c s))) s) s)

/-! ### Challenge and response over the wire (R560, R561) -/

/-- DEDUCED (log entry 44). -/
def challenge (level : BitVec 2) (s : State) : State :=
  if s.cores.lockedOut then answer dbgDenied [] s
  else if level = 3#2 then answer dbgRange [] s
  else if !coreRuns s.cores.curator then answer dbgBusy [] s
  else
    let r := drawNonce level s
    answer dbgOk (bytesOf 8 r.1.toNat) r.2

/-- CHALLENGE: the Curator draws the nonce. -/
def execChallenge (level : BitVec 2) (s : State) : Host.Outcome State Fault Refusal := .next (challenge level s)

/-- RESPONSE. -/
def execResponse (token : QWord) (s : State) : Host.Outcome State Fault Refusal :=
  .next (let r := checkResponse token s
    if r.1 then answer dbgOk [r.2.regs.debugLevel.setWidth 8] r.2 else answer dbgDenied [] r.2)

/-! ### Cross-triggers (R565) -/

/-- TRIGGER: a channel's sources, sinks and MATCH; halt sinks need FULL. Reserved mask bits hold 0. DEDUCED (log entry 47). -/
def trigger (channel : Nat) (sources : DWord) (sinks : Word) (matchIndex : DWord) (s : State) : State :=
  if sinks &&& 0xF#16 ≠ 0 && decide (effectiveLevel s < 2) then answer dbgDenied [] s
  else if 8 ≤ channel then answer dbgRange [] s
  else
    let x : Channel := ⟨sources &&& 0x03FFFFFF#32, sinks &&& 0x00FF#16, matchIndex⟩
    answer dbgOk [] { s with cores := { s.cores with channels := lset s.cores.channels channel x } }

def execTrigger (channel : Nat) (sources : DWord) (sinks : Word) (matchIndex : DWord) (s : State) :
    Host.Outcome State Fault Refusal :=
  .next (permitted 1 (trigger channel sources sinks matchIndex) s)

/-- A source is asserted now: a core halted by HALT, step end or breakpoint; the pattern unit in progress on egress; a fabric user
output; a TRIG_IN signal. DEDUCED (log entry 53). -/
def sourceOn (x : Channel) (b : Nat) (s : State) : Bool :=
  if b < 4 then
    let c := coreState (coreAt b) s
    c.halted && decide (1 ≤ c.cause.toNat) && decide (c.cause.toNat ≤ 3)
  else if b < 6 then
    match s.egress.batch.bind (fun n => findBatch n s) with
    | none => false
    | some q => decide (patternOf q s = x.matchIndex)
  else if b < 22 then s.fabric.userOut.getLsbD (b - 6)
  else if b < 26 then fieldInput (b - 20) s
  else false

/-- CROSS_TRIGGER: a source asserts a channel that enables it. -/
def execCrossTrigger (channel source : Nat) (s : State) : Host.Outcome State Fault Refusal :=
  .next (
    let x := lget {} s.cores.channels channel
    if channel < 8 && x.sources.getLsbD source && sourceOn x source s then assertChannel channel s else s)

/-! ### Trace (R570, R571) -/

/-- A trace packet. -/
def packet (core port count value : Nat) : QWord :=
  BitVec.ofNat 64 (((core * 32 + port) * 2 ^ 25 + count % 2 ^ 25) * 2 ^ 32 + value % 2 ^ 32)

/-- A packet goes to the debug wire's buffer or into the ring. -/
def putPacket (p : QWord) (s : State) : State :=
  let q := s.cores
  if q.traceToRing then
    csWrite (q.traceBase + 8 * (q.traceNext % (q.traceSize / 8))) (bytesOf 8 p.toNat)
      { s with cores := { q with traceNext := q.traceNext + 1 } }
  else { s with cores := { q with trace := q.trace ++ [p] } }

/-- A packet finds its destination with space: first the overflow packet that is due. DEDUCED (log entry 49). -/
def emitPacket (core port value : Nat) (s : State) : State :=
  let count := (Config.freeTicks s.cores.freeCount).toNat
  let s1 := drawFree s
  let s2 :=
    if s1.cores.traceDropped = 0 then s1
    else putPacket (packet core 31 count s1.cores.traceDropped.toNat)
      { s1 with cores := { s1.cores with traceDropped := 0 } }
  putPacket (packet core port count value) s2

/-- TRACE_PACKET: a running core's firmware writes an enabled port. -/
def execTracePacket (c : Core) (port : Nat) (value : DWord) (s : State) : Host.Outcome State Fault Refusal :=
  .next (
    let x := coreState c s
    if coreRuns x && decide (1 ≤ effectiveLevel s) && decide (port < 31) && x.traceMask.getLsbD port then
      if Config.traceFull s.cores.freeCount then
        let s1 := drawFree s
        { s1 with cores := { s1.cores with traceDropped := satInc s1.cores.traceDropped } }
      else emitPacket (coreNum c) port value.toNat s
    else s)

/-- TRACE: up to `max` packets leave over the wire. -/
def drainTrace (max : Nat) (s : State) : State :=
  if max = 0 || decide (16 < max) then answer dbgRange [] s
  else answer dbgOk ((s.cores.trace.take max).flatMap (fun p => bytesOf 8 p.toNat))
    { s with cores := { s.cores with trace := s.cores.trace.drop max } }

def execTrace (max : Nat) (s : State) : Host.Outcome State Fault Refusal := .next (permitted 1 (drainTrace max) s)

/-! ### The wire itself (R549 to R551, R556) -/

/-- DEBUG_FRAME: a request is taken if its CRC-8 matches; one that fails it gets no reply (R551). DEDUCED (log entries 48, 54). -/
def execDebugFrame (body : List Byte) (crc : Byte) (s : State) : Host.Outcome State Fault Refusal :=
  .next (if crc8 (bitsMsb (8 * body.length) (ofBytes body)) = crc.toNat then
    { s with cores := { s.cores with lastRequest := body } } else s)

/-- DEBUG_BREAK: the protocol returns to idle. -/
def execDebugBreak (s : State) : Host.Outcome State Fault Refusal := .next { s with cores := { s.cores with lastRequest := [] } }

/-- DEBUG_RESET: the host die is reset and the protocol is idle. -/
def execDebugReset (s : State) : Host.Outcome State Fault Refusal :=
  .next (let s1 := hostReset false s
    { s1 with cores := { s1.cores with lastRequest := [] } })

/-- Every core stays halted at its reset vector (R556). -/
def haltAtReset (s : State) : State :=
  allCores.foldl (fun s c => setCore c { coreState c s with halted := true, cause := 5, stepLeft := 0 } s) s

/-- RESET_HOLD_END: the Curator starts, the field cores where an image is loaded; or every core is halted. DEDUCED (log entry 55). -/
def execResetHoldEnd (s : State) : Host.Outcome State Fault Refusal :=
  .next (
    if !s.cores.resetHold then s
    else
      let s1 : State := { s with cores := { s.cores with resetHold := false, haltOnReset := false } }
      if s.cores.haltOnReset then haltAtReset s1
      else answerAtOnce (allCores.foldl (fun s c =>
        if coreStarts c s then reloadWatchdog c (freeRegs c (setCore c { coreState c s with atReset := false } s)) else s) s1))

end Sys2Proof.Machine
end

