-- ==== Sys2Proof/Machine/Dispatch.lean ====
section
/-! DEFINITION. The effect of each command: one arm per row of the operation table. -/

namespace Sys2Proof.Machine

def exec (i : Instr) (s : State) : Host.Outcome State Fault Refusal :=
  match i with
  | .registerWrite m target pcieLost => Sys2Proof.Machine.execRegisterWrite m target pcieLost s
  | .regReadTimeout m => Sys2Proof.Machine.execRegReadTimeout m s
  | .stageCommit m data pcieLost => Sys2Proof.Machine.execStageCommit m data pcieLost s
  | .stagedSetApply => Sys2Proof.Machine.execStagedSetApply s
  | .tableEntryFetch m reg => Sys2Proof.Machine.execTableEntryFetch m reg s
  | .tableEntryWrite m reg data pcieLost => Sys2Proof.Machine.execTableEntryWrite m reg data pcieLost s
  | .correctionLogPop m => Sys2Proof.Machine.execCorrectionLogPop m s
  | .loadBegin m slot group devIndex => Sys2Proof.Machine.execLoadBegin m slot group devIndex s
  | .loadAbort m => Sys2Proof.Machine.execLoadAbort m s
  | .resync m => Sys2Proof.Machine.execResync m s
  | .release m => Sys2Proof.Machine.execRelease m s
  | .run m value => Sys2Proof.Machine.execRun m value s
  | .retrain m link => Sys2Proof.Machine.execRetrain m link s
  | .failResume m => Sys2Proof.Machine.execFailResume m s
  | .detach m => Sys2Proof.Machine.execDetach m s
  | .remeasure m => Sys2Proof.Machine.execRemeasure m s
  | .countClear m => Sys2Proof.Machine.execCountClear m s
  | .logClear m => Sys2Proof.Machine.execLogClear m s
  | .conservatorRestart m => Sys2Proof.Machine.execConservatorRestart m s
  | .checkTest m value => Sys2Proof.Machine.execCheckTest m value s
  | .hostSleep m pcieDown => Sys2Proof.Machine.execHostSleep m pcieDown s
  | .pwrRequestField m value => Sys2Proof.Machine.execPwrRequestField m value s
  | .securityLock m data => Sys2Proof.Machine.execSecurityLock m data s
  | .otpProgrammed => Sys2Proof.Machine.execOtpProgrammed s
  | .pinLockKey m data => Sys2Proof.Machine.execPinLockKey m data s
  | .debugLevel m level => Sys2Proof.Machine.execDebugLevel m level s
  | .alertClr m key => Sys2Proof.Machine.execAlertClr m key s
  | .coreRestart m key cores => Sys2Proof.Machine.execCoreRestart m key cores s
  | .mailboxDoorbell m slot => Sys2Proof.Machine.execMailboxDoorbell m slot s
  | .pinFunctionChange m index value => Sys2Proof.Machine.execPinFunctionChange m index value s
  | .batchDoorbell value => Sys2Proof.Machine.execBatchDoorbell value s
  | .batchRingSetup size value => Sys2Proof.Machine.execBatchRingSetup size value s
  | .lcons link value => Sys2Proof.Machine.execLcons link value s
  | .lsize link value => Sys2Proof.Machine.execLsize link value s
  | .rcons value => Sys2Proof.Machine.execRcons value s
  | .sgo data => Sys2Proof.Machine.execSgo data s
  | .stimDmaDone bytes => Sys2Proof.Machine.execStimDmaDone bytes s
  | .imageFrameTake slot => Sys2Proof.Machine.execImageFrameTake slot s
  | .repeatRetry frame => Sys2Proof.Machine.execRepeatRetry frame s
  | .loadDeadline => Sys2Proof.Machine.execLoadDeadline s
  | .verify => Sys2Proof.Machine.execVerify s
  | .verificationDone => Sys2Proof.Machine.execVerificationDone s
  | .pllLock => Sys2Proof.Machine.execPllLock s
  | .pllLockTimeout => Sys2Proof.Machine.execPllLockTimeout s
  | .stageRelease => Sys2Proof.Machine.execStageRelease s
  | .regWrite dir addr master data => Sys2Proof.Machine.execRegWrite dir addr master data s
  | .regRead addr master tag => Sys2Proof.Machine.execRegRead addr master tag s
  | .regReply tag data status => Sys2Proof.Machine.execRegReply tag data status s
  | .imageFrame frame prefixBits payload => Sys2Proof.Machine.execImageFrame frame prefixBits payload s
  | .repeatRequest frame reason => Sys2Proof.Machine.execRepeatRequest frame reason s
  | .ledgerBatch link records => Sys2Proof.Machine.execLedgerBatch link records s
  | .ledgerWriteback link => Sys2Proof.Machine.execLedgerWriteback link s
  | .event code unit detail => Sys2Proof.Machine.execEvent code unit detail s
  | .timeMark ns => Sys2Proof.Machine.execTimeMark ns s
  | .serviceCall core tag call args => Sys2Proof.Machine.execServiceCall core tag call args s
  | .serviceReply core tag result data => Sys2Proof.Machine.execServiceReply core tag result data s
  | .heartbeat dir power reset ticks ack => Sys2Proof.Machine.execHeartbeat dir power reset ticks ack s
  | .heartbeatDue side => Sys2Proof.Machine.execHeartbeatDue side s
  | .barrierCellReceive dir lane cell => Sys2Proof.Machine.execBarrierCellReceive dir lane cell s
  | .nak dir ack => Sys2Proof.Machine.execNak dir ack s
  | .retransmitTimeout dir => Sys2Proof.Machine.execRetransmitTimeout dir s
  | .barrierLaneFail dir lane => Sys2Proof.Machine.execBarrierLaneFail dir lane s
  | .spareReq dir lane => Sys2Proof.Machine.execSpareReq dir lane s
  | .barrierTrained dir locked => Sys2Proof.Machine.execBarrierTrained dir locked s
  | .counterpartSilent side => Sys2Proof.Machine.execCounterpartSilent side s
  | .descriptorFetch => Sys2Proof.Machine.execDescriptorFetch s
  | .batchIssue d => Sys2Proof.Machine.execBatchIssue d s
  | .stimRefill => Sys2Proof.Machine.execStimRefill s
  | .burstBegin => Sys2Proof.Machine.execBurstBegin s
  | .validClear => Sys2Proof.Machine.execValidClear s
  | .passBegin => Sys2Proof.Machine.execPassBegin s
  | .nop g bp idx => Sys2Proof.Machine.execNop g bp idx s
  | .eval g bp idx => Sys2Proof.Machine.execEval g bp idx s
  | .evalExport g bp idx => Sys2Proof.Machine.execEvalExport g bp idx s
  | .evalCommit g bp idx => Sys2Proof.Machine.execEvalCommit g bp idx s
  | .evalCommitExport g bp idx => Sys2Proof.Machine.execEvalCommitExport g bp idx s
  | .send g bp idx => Sys2Proof.Machine.execSend g bp idx s
  | .meshSend g bp idx => Sys2Proof.Machine.execMeshSend g bp idx s
  | .stim g bp idx => Sys2Proof.Machine.execStim g bp idx s
  | .eval3 g bp idx => Sys2Proof.Machine.execEval3 g bp idx s
  | .eval3Commit g bp idx => Sys2Proof.Machine.execEval3Commit g bp idx s
  | .endOp g bp idx => Sys2Proof.Machine.execEndOp g bp idx s
  | .illegalInstruction g bp idx => Sys2Proof.Machine.execIllegalInstruction g bp idx s
  | .poisonedFetch g bp idx => Sys2Proof.Machine.execPoisonedFetch g bp idx s
  | .boulevardDelivery step => Sys2Proof.Machine.execBoulevardDelivery step s
  | .passTail => Sys2Proof.Machine.execPassTail s
  | .passTokenReceive link block => Sys2Proof.Machine.execPassTokenReceive link block s
  | .tokenResend => Sys2Proof.Machine.execTokenResend s
  | .meshBlockReceive link block wordsOk => Sys2Proof.Machine.execMeshBlockReceive link block wordsOk s
  | .meshHold step => Sys2Proof.Machine.execMeshHold step s
  | .meshTimeout => Sys2Proof.Machine.execMeshTimeout s
  | .egressBegin => Sys2Proof.Machine.execEgressBegin s
  | .flushLoad => Sys2Proof.Machine.execFlushLoad s
  | .rowRead => Sys2Proof.Machine.execRowRead s
  | .delivery => Sys2Proof.Machine.execDelivery s
  | .bankRelease => Sys2Proof.Machine.execBankRelease s
  | .docentStop d => Sys2Proof.Machine.execDocentStop d s
  | .docentResume => Sys2Proof.Machine.execDocentResume s
  | .siteStrobe site => Sys2Proof.Machine.execSiteStrobe site s
  | .bitFailProcess => Sys2Proof.Machine.execBitFailProcess s
  | .blockMemoryWrite block => Sys2Proof.Machine.execBlockMemoryWrite block s
  | .vaultWrite v => Sys2Proof.Machine.execVaultWrite v s
  | .vaultRead v => Sys2Proof.Machine.execVaultRead v s
  | .vaultPush v => Sys2Proof.Machine.execVaultPush v s
  | .vaultPop v => Sys2Proof.Machine.execVaultPop v s
  | .vaultClr v => Sys2Proof.Machine.execVaultClr v s
  | .avenueContention avenue => Sys2Proof.Machine.execAvenueContention avenue s
  | .contentionEnd avenue => Sys2Proof.Machine.execContentionEnd avenue s
  | .ingressWord link lane word => Sys2Proof.Machine.execIngressWord link lane word s
  | .frameCrc link lane quarter echo64 => Sys2Proof.Machine.execFrameCrc link lane quarter echo64 s
  | .status link lane quarter => Sys2Proof.Machine.execStatus link lane quarter s
  | .desc link lane quarter => Sys2Proof.Machine.execDesc link lane quarter s
  | .train link lane quarter => Sys2Proof.Machine.execTrain link lane quarter s
  | .sideChannelLockLoss link lane => Sys2Proof.Machine.execSideChannelLockLoss link lane s
  | .arrivalDrift link lane drift64 => Sys2Proof.Machine.execArrivalDrift link lane drift64 s
  | .linkTrain link => Sys2Proof.Machine.execLinkTrain link s
  | .linkUp link => Sys2Proof.Machine.execLinkUp link s
  | .trainingStepTimeout link lane => Sys2Proof.Machine.execTrainingStepTimeout link lane s
  | .partnerLost link lane => Sys2Proof.Machine.execPartnerLost link lane s
  | .partnerRetry link lane echo64 => Sys2Proof.Machine.execPartnerRetry link lane echo64 s
  | .remeasurementDone link echoes => Sys2Proof.Machine.execRemeasurementDone link echoes s
  | .alignmentApply => Sys2Proof.Machine.execAlignmentApply s
  | .recordEnter link => Sys2Proof.Machine.execRecordEnter link s
  | .gapRecord link site => Sys2Proof.Machine.execGapRecord link site s
  | .recordPassOn link => Sys2Proof.Machine.execRecordPassOn link s
  | .batchCommit link => Sys2Proof.Machine.execBatchCommit link s
  | .twinHeartbeatReceive crcOk role token epoch last ack join => Sys2Proof.Machine.execTwinHeartbeatReceive crcOk role token epoch last ack join s
  | .twinHeartbeatDue => Sys2Proof.Machine.execTwinHeartbeatDue s
  | .twinBlockResend => Sys2Proof.Machine.execTwinBlockResend s
  | .tLost => Sys2Proof.Machine.execTLost s
  | .leaseRenew => Sys2Proof.Machine.execLeaseRenew s
  | .leaseLapse => Sys2Proof.Machine.execLeaseLapse s
  | .tokenTake => Sys2Proof.Machine.execTokenTake s
  | .tokenWaitTimeout => Sys2Proof.Machine.execTokenWaitTimeout s
  | .capabilityReceive block => Sys2Proof.Machine.execCapabilityReceive block s
  | .batchAnnounce crcOk tseq batch frame word freeze => Sys2Proof.Machine.execBatchAnnounce crcOk tseq batch frame word freeze s
  | .digestReceive crcOk tseq batch digest fault => Sys2Proof.Machine.execDigestReceive crcOk tseq batch digest fault s
  | .handover block => Sys2Proof.Machine.execHandover block s
  | .twinJoin slot => Sys2Proof.Machine.execTwinJoin slot s
  | .stateBlockReceive crcOk tseq item => Sys2Proof.Machine.execStateBlockReceive crcOk tseq item s
  | .joinAck block => Sys2Proof.Machine.execJoinAck block s
  | .joinTimeout => Sys2Proof.Machine.execJoinTimeout s
  | .sweepSignatureReceive crcOk tseq sweep => Sys2Proof.Machine.execSweepSignatureReceive crcOk tseq sweep s
  | .surveySample point => Sys2Proof.Machine.execSurveySample point s
  | .hostReadingCopy busy => Sys2Proof.Machine.execHostReadingCopy busy s
  | .upsetWindow => Sys2Proof.Machine.execUpsetWindow s
  | .throttleRaise => Sys2Proof.Machine.execThrottleRaise s
  | .throttleLower => Sys2Proof.Machine.execThrottleLower s
  | .galleryPowerUp => Sys2Proof.Machine.execGalleryPowerUp s
  | .patrolCycle => Sys2Proof.Machine.execPatrolCycle s
  | .lineRepair slot => Sys2Proof.Machine.execLineRepair slot s
  | .frameCheck => Sys2Proof.Machine.execFrameCheck s
  | .sweepEnd => Sys2Proof.Machine.execSweepEnd s
  | .read header => Sys2Proof.Machine.execRead header s
  | .write header flits => Sys2Proof.Machine.execWrite header flits s
  | .exclRead header => Sys2Proof.Machine.execExclRead header s
  | .condWrite header flits => Sys2Proof.Machine.execCondWrite header flits s
  | .completion header flits => Sys2Proof.Machine.execCompletion header flits s
  | .asleepResend src tag => Sys2Proof.Machine.execAsleepResend src tag s
  | .urgencyRise src tag => Sys2Proof.Machine.execUrgencyRise src tag s
  | .routeSwitch entries => Sys2Proof.Machine.execRouteSwitch entries s
  | .reservationBreak core => Sys2Proof.Machine.execReservationBreak core s
  | .bankTestStart => Sys2Proof.Machine.execBankTestStart s
  | .bankMapSwitch => Sys2Proof.Machine.execBankMapSwitch s
  | .marchDone passed => Sys2Proof.Machine.execMarchDone passed s
  | .bankGroupSleep k => Sys2Proof.Machine.execBankGroupSleep k s
  | .domainPowerDown d => Sys2Proof.Machine.execDomainPowerDown d s
  | .wakePin sample => Sys2Proof.Machine.execWakePin sample s
  | .perstDeassert => Sys2Proof.Machine.execPerstDeassert s
  | .controlBusWake => Sys2Proof.Machine.execControlBusWake s
  | .powerTransitionDone => Sys2Proof.Machine.execPowerTransitionDone s
  | .railsGood side => Sys2Proof.Machine.execRailsGood side s
  | .railFail side => Sys2Proof.Machine.execRailFail side s
  | .trefLoss => Sys2Proof.Machine.execTrefLoss s
  | .trefReturn => Sys2Proof.Machine.execTrefReturn s
  | .hrefLoss => Sys2Proof.Machine.execHrefLoss s
  | .clockChange => Sys2Proof.Machine.execClockChange s
  | .relockFail => Sys2Proof.Machine.execRelockFail s
  | .fieldResetDuringLoad => Sys2Proof.Machine.execFieldResetDuringLoad s
  | .watchdogExpiry core => Sys2Proof.Machine.execWatchdogExpiry core s
  | .coreRestarted core => Sys2Proof.Machine.execCoreRestarted core s
  | .serviceCallTimeout slot => Sys2Proof.Machine.execServiceCallTimeout slot s
  | .loadReport slot => Sys2Proof.Machine.execLoadReport slot s
  | .keyProvision slot => Sys2Proof.Machine.execKeyProvision slot s
  | .barrierCounters slot => Sys2Proof.Machine.execBarrierCounters slot s
  | .linkCounters slot => Sys2Proof.Machine.execLinkCounters slot s
  | .snapshotCopy slot => Sys2Proof.Machine.execSnapshotCopy slot s
  | .fabricCapture slot => Sys2Proof.Machine.execFabricCapture slot s
  | .captureOnStop => Sys2Proof.Machine.execCaptureOnStop s
  | .fabricReadback slot => Sys2Proof.Machine.execFabricReadback slot s
  | .memInfo slot => Sys2Proof.Machine.execMemInfo slot s
  | .raConfigure slot => Sys2Proof.Machine.execRaConfigure slot s
  | .raClear slot => Sys2Proof.Machine.execRaClear slot s
  | .raRead slot => Sys2Proof.Machine.execRaRead slot s
  | .raStatus slot => Sys2Proof.Machine.execRaStatus slot s
  | .surveyRead slot => Sys2Proof.Machine.execSurveyRead slot s
  | .scrubUnlock slot => Sys2Proof.Machine.execScrubUnlock slot s
  | .checkWrite slot => Sys2Proof.Machine.execCheckWrite slot s
  | .checkRead slot => Sys2Proof.Machine.execCheckRead slot s
  | .checkInject slot => Sys2Proof.Machine.execCheckInject slot s
  | .scrubCounters slot => Sys2Proof.Machine.execScrubCounters slot s
  | .nocStatus slot => Sys2Proof.Machine.execNocStatus slot s
  | .eventRead slot => Sys2Proof.Machine.execEventRead slot s
  | .debugChallenge slot => Sys2Proof.Machine.execDebugChallenge slot s
  | .debugResponse slot => Sys2Proof.Machine.execDebugResponse slot s
  | .traceConfig slot => Sys2Proof.Machine.execTraceConfig slot s
  | .connect flags => Sys2Proof.Machine.execConnect flags s
  | .debugRead space addr count => Sys2Proof.Machine.execDebugRead space addr count s
  | .debugWrite space addr words => Sys2Proof.Machine.execDebugWrite space addr words s
  | .halt cores => Sys2Proof.Machine.execHalt cores s
  | .resume cores => Sys2Proof.Machine.execResume cores s
  | .step core n => Sys2Proof.Machine.execStep core n s
  | .stepEnd core => Sys2Proof.Machine.execStepEnd core s
  | .coreStatus => Sys2Proof.Machine.execCoreStatus s
  | .challenge level => Sys2Proof.Machine.execChallenge level s
  | .response token => Sys2Proof.Machine.execResponse token s
  | .nonceExpiry => Sys2Proof.Machine.execNonceExpiry s
  | .challengeLockoutEnd => Sys2Proof.Machine.execChallengeLockoutEnd s
  | .trigger channel sources sinks matchIndex => Sys2Proof.Machine.execTrigger channel sources sinks matchIndex s
  | .trace max => Sys2Proof.Machine.execTrace max s
  | .crossTrigger channel source => Sys2Proof.Machine.execCrossTrigger channel source s
  | .tracePacket core port value => Sys2Proof.Machine.execTracePacket core port value s
  | .debugBreak => Sys2Proof.Machine.execDebugBreak s
  | .debugReset => Sys2Proof.Machine.execDebugReset s
  | .debugFrame body crc => Sys2Proof.Machine.execDebugFrame body crc s
  | .resetHoldEnd => Sys2Proof.Machine.execResetHoldEnd s
  | .handlerStart => Sys2Proof.Machine.execHandlerStart s
  | .fabricCycle => Sys2Proof.Machine.execFabricCycle s
  | .egressWord => Sys2Proof.Machine.execEgressWord s
  | .quarterLost link lane quarter crcOk => Sys2Proof.Machine.execQuarterLost link lane quarter crcOk s
  | .frameApertureWrite slot offset bytes => Sys2Proof.Machine.execFrameApertureWrite slot offset bytes s
  | .padLevelChange index level => Sys2Proof.Machine.execPadLevelChange index level s
  | .breakpoint core => Sys2Proof.Machine.execBreakpoint core s
  | .watchdogReload core => Sys2Proof.Machine.execWatchdogReload core s
  | .pllRelocked => Sys2Proof.Machine.execPllRelocked s
  | .wordLock lane => Sys2Proof.Machine.execWordLock lane s

end Sys2Proof.Machine
end

