-- ==== Sys2Proof/Safety.lean ====
section
/-! DEFINITION. What the statements speak of: what a command keeps, and what holds of every state that a run can reach. -/

namespace Sys2Proof.Machine

/-- Every fuse programmed in `a` is programmed in `b`, and a programmed key slot holds the same key (R443 to R448). -/
def otpKept (a b : Otp) : Prop :=
  (a.readbackDis = true → b.readbackDis = true) ∧ (a.capObserve = true → b.capObserve = true)
  ∧ (a.capNone = true → b.capNone = true) ∧ (a.authOnly = true → b.authOnly = true)
  ∧ (∀ i, a.retired.getLsbD i = true → b.retired.getLsbD i = true)
  ∧ (∀ i, a.programmed.getLsbD i = true → b.programmed.getLsbD i = true ∧ tget 0 b.keys i = tget 0 a.keys i)

/-- Common Store stands in its canonical form: addresses strictly rising, no byte listed that reads 0. -/
def storeWf (s : State) : Prop := Memory.wf s.store.cs = true

/-- Every byte of Common Store reads as before. -/
def sameStore (s t : State) : Prop := ∀ a, csByte a t.store = csByte a s.store

/-- The five masters, each with its own table registers (R38, R613). -/
def fiveMasters (s : State) : Prop := s.masters.length = 5

/-- The 40 pins (R578). -/
def fortyPins (s : State) : Prop := s.pins.pins.length = 40

/-- A fault's bit is set in the fault registers (R629 to R632). -/
def faultSet (code : Nat) (s : State) : Prop := faultBit code s.regs = true

/-- An event's bit is set in EVENT_STATUS (R626). -/
def eventSet (b : Nat) (s : State) : Prop := s.regs.eventStatus.getLsbD b = true

/-- What a reply slot of the Mailbox holds in its first five bytes (R540): TAG, RESULT and LENGTH. -/
def replyHead (slot : Nat) (s : State) : List Byte := (List.range 5).map (fun k => tget 0 s.cores.mailbox (0x1000 + 64 * slot + k))

/-- Running the command at the front of the queue never stops the machine. -/
def runs (c : Instr) (s : State) : Prop := ∃ t, exec c s = .next t

/-- Every site verdict of the batch in progress has become indeterminate with a cause (R290). -/
def indetBy (cause : Nat) (s t : State) : Prop :=
  ∀ b, inProgress s = some b → findBatch b.d.batch s = some b → b.verdictsFormed = false → ∀ x, x < siteCount s →
    ∃ b' ∈ t.batches, b'.d.batch = b.d.batch ∧ b'.causes.contains (x, cause) = true

/-- The field side has one more EVENT cell on its way than in `s` that carries this code and detail (R627). -/
def eventSent (ev fault detail : Nat) (s t : State) : Prop :=
  let cells (s : State) : List Msg := s.barrier.toHost.unacked.map (fun c => c.msg) ++ s.barrier.toHost.waiting
  ∃ m, (cells s).count m < (cells t).count m ∧ m.typ = 7#8 ∧ (m.payload.extractLsb' 400 16).toNat = ev * 256 + fault
    ∧ (m.payload.extractLsb' 360 32).toNat = detail

/-- The BP's row that holds current word `w` can be written: not poisoned, and its stored bits decode. -/
def rowWrites (bpn w : Nat) (s : State) : Prop :=
  s.array.curPoison.contains (rowKey bpn w) = false ∧ (rowDecode false (rowKey bpn w) s).1 ≠ .uncorrectable

/-- The state in which BP `bp` of Gallery `g` reads its operands at step `i`, and the instruction it executes there. -/
def bpStart (g bp i : Nat) (s : State) : State := fetchEffect (bpNum g bp) i (atStep i s)
def bpInstr (g bp i : Nat) (s : State) : BpInstr := fetched (bpNum g bp) i (bpStart g bp i s)

/-- The value of an operand of that instruction. -/
def bpOperand (g bp i : Nat) (o : BitVec 11) (s : State) : Word := operandValue i g bp o (bpStart g bp i s)

/-- The state after the reads of all four operands. -/
def bpRead (g bp i : Nat) (s : State) : State := operandEffects i g bp (bpInstr g bp i s) (bpStart g bp i s)

/-- A new request of an operation that its source may issue, whose route leads to an existing node that is awake, and that is well
formed (R492 to R494, R498, R506, R507). -/
def reachesNode (op : Nat) (h : QWord) (s : State) : Prop :=
  pOp h = op ∧ h.getLsbD 49 = false ∧ fieldAwake s = true ∧ s.store.outstanding.any (isRequest (pSrc h) (pTag h)) = false
  ∧ injects h s = true ∧ heldBehind h s = false ∧ routeMissing h s = false ∧ nodeExists (pDest h) s = true
  ∧ nodeAsleep (pDest h) s = false ∧ routeProxy h s = false ∧ malformedPacket h = false

/-- Such a request for granules that the bank group's node holds (R504, R508). -/
def reachesBank (op : Nat) (h : QWord) (s : State) : Prop :=
  reachesNode op h s ∧ 0x40 ≤ pDest h ∧ pDest h ≤ 0x48 ∧ bankHolds (pDest h) (pAddr h) (pFlits h) s = true

/-- The network has one more COMPLETION on its way, for this request, with a status and data (R492, R493). -/
def answered (h : QWord) (status : Nat) (data : List QWord) (s t : State) : Prop :=
  ∃ head, t.store.replies = s.store.replies ++ [(head, data)] ∧ pDest head = pSrc h ∧ pSrc head = pDest h ∧ pTag head = pTag h
    ∧ pOp head = opCompletion ∧ pStatus head = status ∧ pFlits head = data.length

/-- What stands in a granule that is not valid: no byte and no deviation, as its next write leaves the other bytes 0 (R509). -/
def granuleClean (a : Nat) (st : Store) : Prop :=
  granuleValid a st = true ∨ ∀ k, k < 8 → rawGet (8 * (a / 8) + k) st.cs = 0 ∧ tget 0 st.csDev (8 * (a / 8) + k) = 0

/-! ### Which commands reach which state -/

/-- The commands that can write Common Store (a load, the stimulus DMA, the network, the rings in it, the error corrections of its reads, a lost rail). -/
def writesStore : Instr → Bool
  | .registerWrite .. | .lcons .. | .lsize .. | .stimDmaDone .. | .stageRelease .. | .imageFrame .. | .descriptorFetch .. |
    .stimRefill .. | .burstBegin .. | .rowRead .. | .recordPassOn .. | .frameCheck .. | .sweepEnd .. | .read .. | .write .. |
    .exclRead .. | .condWrite .. | .asleepResend .. | .bankMapSwitch .. | .railFail .. | .checkWrite .. | .debugWrite .. |
    .tracePacket .. | .egressWord .. => true
  | _ => false

/-- The commands that can change the pins, their mirror or their pulses. -/
def movesPins : Instr → Bool
  | .registerWrite .. | .stageCommit .. | .stagedSetApply .. | .tableEntryWrite .. | .run .. | .hostSleep .. |
    .pinLockKey .. | .pinFunctionChange .. | .ledgerWriteback .. | .heartbeat .. | .barrierCellReceive .. | .batchCommit .. |
    .powerTransitionDone .. | .railsGood .. | .railFail .. | .trefReturn .. | .hrefLoss .. | .debugWrite .. | .halt .. |
    .stepEnd .. | .crossTrigger .. | .debugReset .. | .handlerStart .. | .padLevelChange .. | .breakpoint .. => true
  | _ => false

/-- The commands that can change the stream control registers and the host rings. -/
def movesStream : Instr → Bool
  | .registerWrite .. | .loadBegin .. | .batchDoorbell .. | .batchRingSetup .. | .lcons .. | .lsize .. | .rcons .. |
    .sgo .. | .stimDmaDone .. | .imageFrameTake .. | .repeatRetry .. | .stageRelease .. | .repeatRequest .. |
    .ledgerBatch .. | .ledgerWriteback .. | .heartbeat .. | .descriptorFetch .. | .batchCommit .. | .tokenTake .. |
    .digestReceive .. | .marchDone .. | .railsGood .. | .railFail .. | .hrefLoss .. | .debugWrite .. | .debugReset .. => true
  | _ => false

/-- The commands that can change the power state of a side, its wake arming or its clocks. -/
def movesPower : Instr → Bool
  | .registerWrite .. | .stageCommit .. | .stagedSetApply .. | .loadBegin .. | .resync .. | .release .. | .retrain .. |
    .failResume .. | .detach .. | .remeasure .. | .countClear .. | .logClear .. | .conservatorRestart .. | .hostSleep .. |
    .mailboxDoorbell .. | .verificationDone .. | .stageRelease .. | .timeMark .. | .burstBegin .. | .validClear .. |
    .passTail .. | .meshTimeout .. | .batchCommit .. | .tokenTake .. | .digestReceive .. | .marchDone .. |
    .domainPowerDown .. | .wakePin .. | .perstDeassert .. | .controlBusWake .. | .powerTransitionDone .. | .railsGood .. |
    .railFail .. | .trefLoss .. | .trefReturn .. | .hrefLoss .. | .clockChange .. | .relockFail .. | .debugWrite .. |
    .debugReset .. | .fabricCycle .. | .pllRelocked .. => true
  | _ => false

/-- The commands that can change the state of a load. -/
def movesLoader : Instr → Bool
  | .registerWrite .. | .loadBegin .. | .loadAbort .. | .otpProgrammed .. | .rcons .. | .imageFrameTake .. |
    .repeatRetry .. | .loadDeadline .. | .verify .. | .verificationDone .. | .pllLock .. | .pllLockTimeout .. |
    .stageRelease .. | .imageFrame .. | .repeatRequest .. | .spareReq .. | .barrierTrained .. | .counterpartSilent .. |
    .marchDone .. | .railsGood .. | .railFail .. | .hrefLoss .. | .fieldResetDuringLoad .. | .debugWrite .. |
    .debugReset .. | .frameApertureWrite .. => true
  | _ => false

/-- The commands that can change the Repair Analyser. -/
def movesRepair : Instr → Bool
  | .registerWrite .. | .stagedSetApply .. | .tableEntryWrite .. | .loadBegin .. | .loadAbort .. | .otpProgrammed .. |
    .imageFrameTake .. | .loadDeadline .. | .verify .. | .verificationDone .. | .pllLockTimeout .. | .stageRelease .. |
    .ledgerWriteback .. | .spareReq .. | .barrierTrained .. | .counterpartSilent .. | .egressBegin .. | .siteStrobe .. |
    .bitFailProcess .. | .ingressWord .. | .frameCrc .. | .linkTrain .. | .partnerRetry .. | .alignmentApply .. |
    .batchCommit .. | .tokenTake .. | .digestReceive .. | .stateBlockReceive .. | .upsetWindow .. | .frameCheck .. |
    .sweepEnd .. | .marchDone .. | .railFail .. | .raConfigure .. | .raClear .. | .debugWrite .. | .quarterLost .. => true
  | _ => false

/-- The commands that can change the Conservator. -/
def movesConservator : Instr → Bool
  | .registerWrite .. | .stagedSetApply .. | .tableEntryWrite .. | .loadBegin .. | .conservatorRestart .. |
    .stageRelease .. | .egressBegin .. | .ingressWord .. | .frameCrc .. | .linkTrain .. | .partnerRetry .. |
    .alignmentApply .. | .upsetWindow .. | .frameCheck .. | .sweepEnd .. | .marchDone .. | .powerTransitionDone .. |
    .railFail .. | .raConfigure .. | .raClear .. | .debugWrite .. | .quarterLost .. => true
  | _ => false

/-- The commands that can change the staged set. -/
def stages : Instr → Bool
  | .registerWrite .. | .tableEntryWrite .. | .railsGood .. | .railFail .. | .hrefLoss .. | .relockFail .. | .debugWrite .. |
    .debugReset .. => true
  | _ => false

/-- The commands that can change the set in force. -/
def applies : Instr → Bool
  | .registerWrite .. | .stageCommit .. | .stagedSetApply .. | .railsGood .. | .railFail .. | .hrefLoss .. | .relockFail .. |
    .debugWrite .. | .debugReset .. => true
  | _ => false

/-- The commands that can change the reads that wait for the field side. -/
def crosses : Instr → Bool
  | .regReadTimeout .. | .tableEntryFetch .. | .regRead .. | .regReply .. | .railsGood .. | .railFail .. | .hrefLoss .. |
    .debugReset .. => true
  | _ => false

end Sys2Proof.Machine
end

