-- ==== Sys2Proof/Certificates/Slice0/Obligations.lean ====
section
/-! DEFINITION. The statements about the EXL-1640. A claim (`Claims.X`) is one part of the obligation that follows it. -/

open Sys2Proof Sys2Proof.Machine

/-! ### The queue, reset, and what no command undoes -/

/-- A step runs the command at the front of the queue on the state with the queue's rest; on an empty queue the block idles
(the model's choice, log entry 3). -/
def Obligations.StepRunsFrontCommand : Prop :=
  (∀ (c : Instr) (rest : List Instr) (s : State), step { s with pending := c :: rest } = exec c { s with pending := rest })
  ∧ (∀ s : State, s.pending = [] → step s = .next s)

/-- The reset values that R615 gives, by word address; 0 for the addresses not named here. -/
def resetValue (a : Nat) : Word :=
  match a with
  | 0x00 => 0x1640#16
  | 0x04 => 0x0008#16
  | 0x05 => 0x0003#16
  | 0x06 => 0x000B#16
  | 0x07 => 0x0001#16
  | 0x12 => 0x01F4#16
  | 0x27 => 0x0800#16
  | 0x28 => 0x0004#16
  | 0x2A => 0x000C#16
  | 0x30 => 0xCCCC#16
  | 0x32 => 0x1840#16
  | _ => 0

/-- The same on a part that may lack the twin link, whose registers then read 0 (R5). -/
def resetOf (a : Nat) (s : State) : Word := if a = 0x27 ∧ hasTwin s = false then 0 else resetValue a

/-- The registers whose reset value R615 states as a number: all but the stepping, the variant's and the OTP's. -/
def numbered (a : Nat) : Prop := a < 64 ∧ a ≠ 0x01 ∧ a ≠ 0x02 ∧ a ≠ 0x03 ∧ a ≠ 0x15

/-- What a read of each register finds right after reset (R615), with no command waiting. -/
def Sys2Proof.Claims.ResetRegisters : Prop :=
  (∀ a, numbered a → regValue {} a State.reset = resetValue a) ∧ State.reset.pending = []

/-- At each reset of the host die every register but DEBUG_LEVEL takes its reset value (R616); PWR_STATE besides shows the field
side's transition in progress, MAILBOX_STATUS a Curator that does not run, and a part without a twin link 0 in TWIN_STATUS. -/
def Sys2Proof.Claims.HostResetRestoresRegisters : Prop :=
  ∀ s : State, ∃ t, exec .debugReset s = .next t
    ∧ (∀ a, numbered a → a ≠ 0x04 → a ≠ 0x17 → regValue {} a t = resetOf a s)

/-- What the registers read after power-up and after a reset of the host die (the claims above). -/
def Obligations.ResetValues : Prop :=
  Claims.ResetRegisters
  ∧ Claims.HostResetRestoresRegisters

/-- DEBUG_LEVEL keeps its value across a reset by DBG_NRST, and takes its reset value when the host die powers up. -/
def Obligations.DebugLevelOutlivesReset : Prop :=
  (∀ s : State, ∃ t, exec .debugReset s = .next t ∧ t.regs.debugLevel = s.regs.debugLevel)
  ∧ (∀ s : State, s.power.hostRails = false → ∃ t, exec (.railsGood .host) s = .next t ∧ t.regs.debugLevel = 0)

/-- A fuse once programmed stays programmed, and its key slot keeps its key, whatever command runs: no reset, power loss or load
clears one. -/
def Obligations.FusesOneWay : Prop :=
  ∀ (c : Instr) (s t : State), exec c s = .next t → otpKept s.otp t.otp

/-- Only two commands change the fuses at all: the programming of requested security bits, and key provisioning. -/
def Sys2Proof.Claims.OnlyProgrammingChangesFuses : Prop :=
  ∀ (c : Instr) (s t : State), exec c s = .next t → c ≠ .otpProgrammed → (∀ slot, c ≠ .keyProvision slot) → t.otp = s.otp

/-- The granted debug level rises only by a right response to a challenge: no other command raises it. -/
def Sys2Proof.Claims.LevelRaisedOnlyByResponse : Prop :=
  ∀ (c : Instr) (s t : State), exec c s = .next t → (∀ token, c ≠ .response token) → (∀ slot, c ≠ .debugResponse slot) →
    t.regs.debugLevel.toNat ≤ s.regs.debugLevel.toNat

/-- The only commands that change the fuses, and the only ones that raise the debug level (the claims above). -/
def Obligations.WhatRaisesPrivilege : Prop :=
  Claims.OnlyProgrammingChangesFuses
  ∧ Claims.LevelRaisedOnlyByResponse

/-- Common Store keeps its canonical form under every step. -/
def Obligations.StoreFormKept : Prop :=
  ∀ s t : State, storeWf s → step s = .next t → storeWf t

/-- Common Store has its canonical form at reset. -/
def Sys2Proof.Claims.StoreFormAtReset : Prop := storeWf State.reset

/-- No command touches the queue or the part's variant, and none stops the machine: of every command and every state it answers
a next state with the same queue and variant. -/
def Obligations.EveryCommandAnswers : Prop :=
  ∀ (c : Instr) (s : State), ∃ t, exec c s = .next t ∧ t.pending = s.pending ∧ t.variant = s.variant

/-- The five masters' table registers, the 40 pins, and the eight cross-trigger channels stand in number at reset. -/
def Sys2Proof.Claims.TablesAtReset : Prop :=
  fiveMasters State.reset ∧ fortyPins State.reset ∧ State.reset.cores.channels.length = 8

/-- The forms that steps keep hold at reset (the claims above). -/
def Obligations.FormsAtReset : Prop :=
  Claims.StoreFormAtReset
  ∧ Claims.TablesAtReset

/-- The five masters' table registers, the 40 pins, and the eight cross-trigger channels stay in number under every step. -/
def Obligations.TablesKeepTheirSize : Prop :=
  ∀ s t : State, fiveMasters s → fortyPins s → s.cores.channels.length = 8 → step s = .next t →
    fiveMasters t ∧ fortyPins t ∧ t.cores.channels.length = 8

/-- Each kind of state is reached by its own commands alone: every other command leaves it as it is. So Common Store, the pins, the stream's
registers, the power state, the load, the Repair Analyser, the Conservator, the staged set, the set in force, and the reads that wait for
the field side change only by the commands that the lists of Safety.lean name. -/
def Obligations.OnlyItsCommandsReachIt : Prop :=
  ∀ (c : Instr) (s t : State), exec c s = .next t →
    (writesStore c = false → t.store.cs = s.store.cs ∧ sameStore s t)
    ∧ (movesPins c = false → t.pins = s.pins)
    ∧ (movesStream c = false → t.stream = s.stream)
    ∧ (movesPower c = false → t.power = s.power)
    ∧ (movesLoader c = false → t.loader = s.loader)
    ∧ (movesRepair c = false → t.repair = s.repair)
    ∧ (movesConservator c = false → t.conservator = s.conservator)
    ∧ (stages c = false → t.shadow = s.shadow)
    ∧ (applies c = false → t.inForce = s.inForce)
    ∧ (crosses c = false → t.crossReads = s.crossReads)

/-! ### Register writes and reads -/

/-- A register write takes effect at once in the register file and, for a register no field unit uses, changes nothing else but the
master's own key sequences (R18, R615): an RW register takes the value, in the event mask only the bits the part has; in a W1C
register each bit written 1 clears and the others stay. -/
def Sys2Proof.Claims.RegisterWriteTakesEffect : Prop :=
  ∀ (m : Master) (data : Word) (s : State),
    exec (.registerWrite m (.file 0x38 data 3) false) s = .next { dropKeys m s with regs := { s.regs with scratch := data } }
    ∧ exec (.registerWrite m (.file 0x12 data 3) false) s = .next { dropKeys m s with regs := { s.regs with loadDeadline := data } }
    ∧ exec (.registerWrite m (.file 0x0B data 3) false) s
        = .next { dropKeys m s with regs := { s.regs with eventMask := data &&& eventMaskBits s } }
    ∧ exec (.registerWrite m (.file 0x0A data 3) false) s
        = .next { dropKeys m s with regs := { s.regs with eventStatus := s.regs.eventStatus &&& ~~~(data &&& 0xFFFE#16) } }
    ∧ exec (.registerWrite m (.file 0x0D data 3) false) s
        = .next { dropKeys m s with regs := { s.regs with faultB := s.regs.faultB &&& ~~~(data &&& 0x07FF#16) } }
    ∧ exec (.registerWrite m (.file 0x0E data 3) false) s
        = .next { dropKeys m s with regs := { s.regs with faultC := s.regs.faultC &&& ~~~(data &&& 0x007F#16) } }

/-- The other areas that a register write reaches: a stream control register and the MSI-X table only over PCI Express, a Mailbox
byte also from the Curator (R539, R603, R605). -/
def Sys2Proof.Claims.AreaWriteTakesEffect : Prop :=
  ∀ (v : QWord) (b : Byte) (off : Nat) (s : State), off < 0x100 →
    exec (.registerWrite .pcie (.stream 0x100 v) false) s
      = .next { dropKeys .pcie s with stream := { s.stream with sSrc := v } }
    ∧ exec (.registerWrite .pcie (.msix off [b]) false) s
        = .next { dropKeys .pcie s with cores := { s.cores with msixTable := tset 0 s.cores.msixTable off b } }
    ∧ (∀ m : Master, m = .pcie ∨ m = .curator →
        exec (.registerWrite m (.mailbox off [b]) false) s
          = .next { dropKeys m s with cores := { s.cores with mailbox := tset 0 s.cores.mailbox off b } })

/-- A PCI Express write without both low bytes, or lost to the control bus, changes no register it names (R604, R612): the first sets
RESERVED_WRITE; the second sets PCIE_LOST, names the address unless a collision is already recorded, and raises COLLISION. The
control bus's own write of a collision takes effect. -/
def Sys2Proof.Claims.LostWritesAreDiscarded : Prop :=
  ∀ (addr : BitVec 6) (data : Word) (be : BitVec 2) (s : State),
    (be ≠ 3#2 → exec (.registerWrite .pcie (.file addr data be) false) s = .next (setFault fcReservedWrite s))
    ∧ (∃ t, exec (.registerWrite .pcie (.file addr data 3) true) s = .next t
        ∧ t.regs.busCollision.getLsbD 15 = true ∧ eventSet evCollision t
        ∧ (s.regs.busCollision.getLsbD 15 = false → fld t.regs.busCollision 13 0 = addr.toNat)
        ∧ (s.regs.busCollision.getLsbD 15 = true → t.regs.busCollision = s.regs.busCollision)
        ∧ t = { s with
            regs := { s.regs with busCollision := t.regs.busCollision, eventStatus := t.regs.eventStatus }
            hostOut := t.hostOut })
    ∧ (∃ t, exec (.registerWrite .cb (.file 0x38 data 3) true) s = .next t ∧ t.regs.scratch = data ∧ eventSet evCollision t)

/-- What a register write changes, and when it is discarded (the claims above). -/
def Obligations.RegisterWrites : Prop :=
  Claims.RegisterWriteTakesEffect
  ∧ Claims.AreaWriteTakesEffect
  ∧ Claims.LostWritesAreDiscarded

/-- Fetching an entry of a window that the host die holds: the reading master's latch takes the whole entry and the read returns
its word; nothing but that master's own table registers changes (R613, R633, R634). -/
def Sys2Proof.Claims.LocalEntryFetch : Prop :=
  ∀ (m : Master) (k : Nat) (s : State),
    let v := view m s
    fiveMasters s → s.crossReads.any (fun r => r.master = m) = false →
    windowCrosses v.select.toNat = false → v.index.toNat < windowEntries v.select.toNat →
    entryAbsent v.select.toNat v.index.toNat s = false → k < windowRegs v.select.toNat → (k = 0 ∨ v.latchValid = false) →
    ∃ t, exec (.tableEntryFetch m k) s = .next t
      ∧ (view m t).latch = windowEntry v v.select.toNat v.index.toNat s
      ∧ (view m t).readData = latchWord k { v with latch := windowEntry v v.select.toNat v.index.toNat s }
      ∧ t = setView m (view m t) s

/-- Fetching an entry of a window that the field side holds sends one REG_READ and leaves the read waiting for its reply (R56). -/
def Sys2Proof.Claims.CrossingEntryFetch : Prop :=
  ∀ (m : Master) (k : Nat) (s : State),
    let v := view m s
    s.crossReads.any (fun r => r.master = m) = false →
    windowCrosses v.select.toNat = true → v.index.toNat < windowEntries v.select.toNat →
    entryAbsent v.select.toNat v.index.toNat s = false → k < windowRegs v.select.toNat → (k = 0 ∨ v.latchValid = false) →
    exec (.tableEntryFetch m k) s
      = .next (sendMsg .hostToField 0x02 4 (((0x1A + k) * 256 + masterNum m) * 65536 + s.nextTag.toNat)
          { s with
            crossReads := s.crossReads ++
              [⟨m, s.nextTag, BitVec.ofNat 6 (0x1A + k), v.select.toNat, v.index.toNat, none⟩]
            nextTag := s.nextTag + 1 })

/-- Fetching a window entry, held on the host die or on the field side (the claims above). -/
def Obligations.TableEntryFetches : Prop :=
  Claims.LocalEntryFetch
  ∧ Claims.CrossingEntryFetch

/-- At an index beyond the window's entries a read returns 0x0000, and a write is ignored and sets RESERVED_WRITE. -/
def Obligations.BeyondTheWindow : Prop :=
  ∀ (m : Master) (k : Nat) (data : Word) (s : State),
    windowEntries (view m s).select.toNat ≤ (view m s).index.toNat →
    (fiveMasters s → s.crossReads.any (fun r => r.master = m) = false →
      ∃ t, exec (.tableEntryFetch m k) s = .next t ∧ (view m t).readData = 0 ∧ t = setView m (view m t) s)
    ∧ (k < 4 → exec (.tableEntryWrite m k data false) s = .next (setFault fcReservedWrite (wrote m (0x1A + k) data s)))

/-- Writing the last data register writes the whole latch: a Catalogue entry goes to the staged set with its bits [3:0] kept 0, and
nothing in force changes; an earlier data register changes only the latch (R268, R621, R635). -/
def Sys2Proof.Claims.CatalogueEntryWrite : Prop :=
  ∀ (m : Master) (data : Word) (s : State),
    let v := view m s
    v.select = 1#4 → v.index.toNat < 2048 →
    (∃ t, exec (.tableEntryWrite m 3 data false) s = .next t
      ∧ t.shadow.catalogue = tset 0 s.shadow.catalogue v.index.toNat (setFld (setFld v.latch 15 0 data.toNat) 3 0 0)
      ∧ t.shadow = { s.shadow with catalogue := t.shadow.catalogue }
      ∧ t.inForce = s.inForce ∧ t.regs = s.regs)
    ∧ (∀ k, k < 3 → exec (.tableEntryWrite m k data false) s
        = .next (let s0 := wrote m (0x1A + k) data s
            let e := setFld v.latch (63 - 16 * k) (48 - 16 * k) data.toNat
            setView m { view m s0 with latch := e, latchValid := true } s0))

/-- A read of TABLE_DATA_D at index 0 of the Correction Log removes the oldest entry; a peek removes none (R20, R465). -/
def Sys2Proof.Claims.CorrectionLogPops : Prop :=
  ∀ (m : Master) (s : State), fieldAwake s = true → (view m s).select = 2#4 → (view m s).index = 0 →
    (peeks m s = false → ∃ t, exec (.correctionLogPop m) s = .next t ∧ t.protection.log = s.protection.log.drop 1
      ∧ t = { s with masters := t.masters, protection := { s.protection with log := s.protection.log.drop 1 } })
    ∧ (peeks m s = true → exec (.correctionLogPop m) s = .next s)

/-- If no REG_REPLY arrives in time, or the reply carries STATUS = 1, the read returns 0x0000 and sets FIELD_UNAVAILABLE. -/
def Sys2Proof.Claims.UnansweredReadReturnsZero : Prop :=
  ∀ (m : Master) (s : State), fiveMasters s → s.crossReads.any (fun r => r.master = m) = true →
    (∃ t, exec (.regReadTimeout m) s = .next t ∧ (view m t).readData = 0 ∧ faultSet fcFieldUnavailable t)
    ∧ (∀ (r : CrossRead) (tag data : Word), s.crossReads.find? (fun r => r.tag = tag) = some r → r.master = m →
        ∃ t, exec (.regReply tag data 1) s = .next t ∧ (view m t).readData = 0 ∧ faultSet fcFieldUnavailable t)

/-- A read of a staged field returns the value in force, unless the reading master has VIEW_STAGED set, in which case it returns the
shadow (R621); of a Catalogue entry in force the delay fields may be the ones measured for its lane (R271). -/
def Sys2Proof.Claims.ReadsShowStagedOnRequest : Prop :=
  ∀ (v : MasterView) (s : State),
    let q := if v.viewStaged then s.shadow else s.inForce
    regValue v 0x14 s = q.startup.setWidth 16 ∧ regValue v 0x22 s = q.mode.setWidth 16 ∧ regValue v 0x24 s = q.linkRates.setWidth 16
    ∧ regValue v 0x32 s = q.clk ∧ (hasTwin s = true → (regValue v 0x26 s).getLsbD 0 = q.twinEnable)
    ∧ (∀ g, g < galleryCount s → (windowEntry v 6 g s).getLsbD 53 = q.galleryEn.getLsbD g)
    ∧ windowEntry v 1 2048 s = q.sites.setWidth 64
    ∧ (∀ i, i < 2048 → (v.viewStaged = true → windowEntry v 1 i s = tget 0 q.catalogue i)
        ∧ ∀ b, b < 13 ∨ 26 < b → (windowEntry v 1 i s).getLsbD b = (tget 0 q.catalogue i).getLsbD b)
    ∧ (∀ i, i < 32 → (windowEntry v 7 (8 * i + 2) s).getLsbD 63 = q.laneEnF0.getLsbD i
        ∧ (windowEntry v 7 (256 + 8 * i + 2) s).getLsbD 63 = q.laneEnF1.getLsbD i)

/-- Catalogue writes, Correction Log reads, staged views and unanswered reads (the claims above). -/
def Obligations.WindowContents : Prop :=
  Claims.CatalogueEntryWrite
  ∧ Claims.CorrectionLogPops
  ∧ Claims.ReadsShowStagedOnRequest
  ∧ Claims.UnansweredReadReturnsZero

/-! ### Stage and commit -/

/-- A commit (R622, R623): any value but 0xC0DE has no effect and sets RESERVED_WRITE; a refused set changes nothing staged or in
force and reports its lowest reason with REFUSED; an accepted set becomes pending while batches are in progress, and takes effect
at once when none is. -/
def Sys2Proof.Claims.CommitChecksTheWholeSet : Prop :=
  ∀ (m : Master) (data : Word) (s : State),
    (data ≠ 0xC0DE#16 → exec (.stageCommit m data false) s = .next (setFault fcReservedWrite (dropKeys m s)))
    ∧ ((view m s).commitBlocked = false →
      (refusal s.shadow s ≠ 0 → ∃ t, exec (.stageCommit m 0xC0DE#16 false) s = .next t
        ∧ t.inForce = s.inForce ∧ t.shadow = s.shadow ∧ t.pendingSet = s.pendingSet ∧ t.regs.stageStatus.getLsbD 14 = true
        ∧ fld t.regs.stageStatus 7 0 = refusal s.shadow s ∧ eventSet evStage t)
      ∧ (refusal s.shadow s = 0 → noBatch s = false → ∃ t, exec (.stageCommit m 0xC0DE#16 false) s = .next t
        ∧ t.inForce = s.inForce ∧ t.shadow = s.shadow ∧ t.pendingSet = some s.shadow ∧ t.regs.stageStatus.getLsbD 15 = true
        ∧ fld t.regs.stageStatus 7 0 = 0)
      ∧ (refusal s.shadow s = 0 → noBatch s = true → ∃ t, exec (.stageCommit m 0xC0DE#16 false) s = .next t
        ∧ t.inForce = s.shadow ∧ t.shadow = s.shadow ∧ t.pendingSet = none))

/-- A pending set takes effect whole at the batch boundary (R623). -/
def Sys2Proof.Claims.PendingSetApplies : Prop :=
  ∀ (q : StagedSet) (s : State), s.pendingSet = some q → atBoundary s = true → s.array.running = none →
    ∃ t, exec .stagedSetApply s = .next t ∧ t.inForce = q ∧ t.pendingSet = none ∧ t.shadow = s.shadow

/-- A commit checks the staged set, and an accepted set takes effect whole (the claims above). -/
def Obligations.StagedSets : Prop :=
  Claims.CommitChecksTheWholeSet
  ∧ Claims.PendingSetApplies

/-! ### Command fields -/

/-- A command field of an awake field unit acts at once, after the write itself has crossed (R18, R51): RESYNC (R143), RELEASE
(R178), RESUME of FAIL_CONTROL (R205), RETRAIN of a named link (R264), REMEASURE (R388), DETACH (R374), RESTART of the Conservator
(R485), COUNT_CLEAR (R467) and LOG_CLEAR (R488). -/
def Sys2Proof.Claims.CommandFieldsAct : Prop :=
  ∀ (m : Master) (s : State), fieldAwake s = true →
    exec (.resync m) s = .next { wrote m 0x23 (s.regs.batchControl ||| 8) s with fetchStopped := false, anyBatch := true }
    ∧ (s.regs.arrayStatus.getLsbD 15 = true →
        exec (.release m) s = .next (putArrayBit 15 false (wrote m 0x23 (s.regs.batchControl ||| 4) s)))
    ∧ (s.regs.arrayStatus.getLsbD 15 = false → exec (.release m) s = .next (wrote m 0x23 (s.regs.batchControl ||| 4) s))
    ∧ (s.egress.stopped = true → ∃ t, exec (.failResume m) s = .next t ∧ t.egress.stopped = false
        ∧ t.egress.stopA = false ∧ t.egress.stopB = false ∧ t.array = s.array ∧ t.fabric = s.fabric)
    ∧ (∀ l, linkNamed l s = true → ∃ t, exec (.retrain m l) s = .next t ∧ (flink l t).retrainDue = true
        ∧ (flink l t).fallback = false ∧ flink (otherLink l) t = flink (otherLink l) s)
    ∧ (surveyHold s = false → ∃ t, exec (.remeasure m) s = .next t
        ∧ ∀ l, 2 ≤ linkState l s → (flink l t).remeasureDue = true)
    ∧ (hasTwin s = true → exec (.detach m) s
        = .next (detachStep { wrote m 0x26 (setBit (setBit (setBit 0 0 s.shadow.twinEnable) 1 s.regs.twinPrefer) 2 true) s with
            twin := { s.twin with detachDue := true } }))
    ∧ (loaded s = true → s.loader.active = false → ∃ t, exec (.conservatorRestart m) s = .next t
        ∧ t.conservator.running = true ∧ t.conservator.next = 0
        ∧ t.conservator.copies = [s.conservator.reference, s.conservator.reference, s.conservator.reference])
    ∧ exec (.countClear m) s = .next { wrote m 0x2A (s.regs.scrubControl ||| 0x80) s with
        regs := { s.regs with eccCountCe := 0, eccCountUe := 0 } }
    ∧ exec (.logClear m) s = .next { wrote m 0x2A (s.regs.scrubControl ||| 0x40) s with
        protection := { s.protection with log := [] } }

/-- A command for a field side in Dormant requests its wake to Standby and is held until then (R54): nothing else of the field side
changes. -/
def Sys2Proof.Claims.CommandFieldsWakeADormantSide : Prop :=
  ∀ (m : Master) (c : Instr) (s : State), s.power.field = .dormant → s.barrier.fieldSilent = false →
    c ∈ [.resync m, .release m, .failResume m, .retrain m .f0, .retrain m .f1, .remeasure m, .detach m, .conservatorRestart m,
      .countClear m, .logClear m] →
    ∃ t h, exec c s = .next t ∧ t.heldCommands = s.heldCommands ++ [h] ∧ h.1 = m ∧ t.power.target = some .standby
      ∧ t.regs.wakeCause.getLsbD 3 = true
      ∧ t = { s with
          regs := { s.regs with wakeCause := t.regs.wakeCause, eventStatus := t.regs.eventStatus }
          hostOut := t.hostOut
          masters := t.masters
          heldCommands := t.heldCommands
          power := { s.power with target := some .standby } }

/-- Command fields act on an awake field side and wake a Dormant one (the claims above). -/
def Obligations.CommandFields : Prop :=
  Claims.CommandFieldsAct
  ∧ Claims.CommandFieldsWakeADormantSide

/-- Control fields of the host register file (R147, R486, R521, R558): RUN takes its value; CHECK_TEST sets only under the unlock;
LEVEL falls to a lower value and never rises; HOST_SLEEP sends the host die to Dormant only with its PCI Express link down. -/
def Sys2Proof.Claims.ControlFieldsAct : Prop :=
  ∀ (m : Master) (v : Bool) (s : State),
    (∃ t, exec (.run m v) s = .next t ∧ t.regs = { s.regs with batchControl := setBit s.regs.batchControl 0 v }
      ∧ t.batches = s.batches ∧ t.array = s.array)
    ∧ (s.protection.unlocked = true → ∃ t, exec (.checkTest m true) s = .next t ∧ checkTest t = true
        ∧ t.protection = s.protection)
    ∧ (s.protection.unlocked = false → ∃ t, exec (.checkTest m true) s = .next t ∧ checkTest t = checkTest s)
    ∧ (∃ t, exec (.checkTest m false) s = .next t ∧ checkTest t = false ∧ t.protection.unlocked = false)
    ∧ (∀ level : BitVec 2, level ≠ 3#2 → level.toNat < s.regs.debugLevel.toNat →
        ∃ t, exec (.debugLevel m level) s = .next t ∧ t.regs.debugLevel = level)
    ∧ (∀ level : BitVec 2, level ≠ 3#2 → s.regs.debugLevel.toNat ≤ level.toNat →
        exec (.debugLevel m level) s = .next (dropKeys m s))
    ∧ exec (.debugLevel m 3#2) s = .next (setFault fcReservedWrite (dropKeys m s))
    ∧ (s.power.host = .standby → ∃ t, exec (.hostSleep m true) s = .next t ∧ t.power.host = .dormant ∧ t.regs = s.regs)
    ∧ (∃ t, exec (.hostSleep m false) s = .next t ∧ t.power = s.power ∧ t.regs = s.regs)

/-- PWR_REQUEST.FIELD takes a defined value as written, a reserved one as its reset value with RESERVED_WRITE (R16, R525); the field
side itself moves only at POWER_TRANSITION_DONE. -/
def Sys2Proof.Claims.PowerRequestTakesItsValue : Prop :=
  ∀ (m : Master) (v : BitVec 3) (s : State),
    (1 ≤ v.toNat → v.toNat ≤ 3 → ∃ t, exec (.pwrRequestField m v) s = .next t ∧ fld t.regs.pwrRequest 2 0 = v.toNat
      ∧ t.power = s.power)
    ∧ (v = 0 ∨ 3 < v.toNat → ∃ t, exec (.pwrRequestField m v) s = .next t ∧ fld t.regs.pwrRequest 2 0 = 3
      ∧ faultSet fcReservedWrite t ∧ t.power = s.power)

/-- Keyed writes of WDOG_KICK (R574): ALERT_CLR releases the alert, RESTART resets each named core at level FULL and only there; a
write without the key has no effect and sets RESERVED_WRITE. -/
def Sys2Proof.Claims.KeyedKickActs : Prop :=
  ∀ (m : Master) (key : Byte) (cores : BitVec 4) (s : State),
    exec (.alertClr m 0x4B#8) s = .next { dropKeys m s with cores := { s.cores with alert := false } }
    ∧ (effectiveLevel s = 2 → ∃ t, exec (.coreRestart m 0x4B#8 cores) s = .next t
        ∧ ∀ c : Core, cores.getLsbD (coreNum c) = true → (coreState c t).restarting = true ∧ (coreState c t).halted = false)
    ∧ (effectiveLevel s < 2 → exec (.coreRestart m 0x4B#8 cores) s = .next (dropKeys m s))
    ∧ (key ≠ 0x4B#8 → exec (.alertClr m key) s = .next (setFault fcReservedWrite (dropKeys m s))
        ∧ exec (.coreRestart m key cores) s = .next (setFault fcReservedWrite (dropKeys m s)))

/-- The alert that an expiry of the Curator's watchdog raises drives CB_INT_N low until a write of ALERT_CLR, whatever the event
mask holds. -/
def Sys2Proof.Claims.CuratorExpiryAlerts : Prop :=
  (∀ s : State, coreRuns s.cores.curator = true → s.cores.curator.wdogPeriod ≠ 0 →
    ∃ t, exec (.watchdogExpiry .curator) s = .next t ∧ t.cores.alert = true ∧ cbIntLow t = true)
  ∧ (∀ (m : Master) (s : State), ∃ t, exec (.alertClr m 0x4B#8) s = .next t ∧ t.cores.alert = false)

/-- Control fields of the host register file and keyed watchdog writes (the claims above). -/
def Obligations.ControlFields : Prop :=
  Claims.ControlFieldsAct
  ∧ Claims.PowerRequestTakesItsValue
  ∧ Claims.KeyedKickActs
  ∧ Claims.CuratorExpiryAlerts

/-- A doorbell (R542): a slot whose call has no reply yet sets SLOT_BUSY and changes nothing else; a full queue answers BUSY at once and
sets BUSY_SENT; a call that the Curator is to serve is queued. -/
def Obligations.DoorbellQueuesOrRefuses : Prop :=
  ∀ (m : Master) (slot : Nat) (s : State), m ≠ .curator → slot < 64 →
    (s.cores.calls.any (fun c => c.slot = slot) = true →
      exec (.mailboxDoorbell m slot) s = .next (setMailboxStatus 0 (dropKeys m s)))
    ∧ (s.cores.calls.any (fun c => c.slot = slot) = false → 64 ≤ s.cores.calls.length →
        ∃ t, exec (.mailboxDoorbell m slot) s = .next t ∧ t.regs.mailboxStatus.getLsbD 1 = true ∧ t.cores.calls = s.cores.calls)
    ∧ (s.cores.calls.any (fun c => c.slot = slot) = false → s.cores.calls.length < 64 →
        (∀ c ∈ s.cores.calls ++ [requestOf slot s], 64 ≤ c.slot ∨
          (callListed c.call.toNat = true ∧ (s.loader.active = false ∨ hostCall c.call = true))) →
        ∃ t, exec (.mailboxDoorbell m slot) s = .next t ∧ t.cores.calls = s.cores.calls ++ [requestOf slot s]
          ∧ fld t.regs.mailboxStatus 15 9 = s.cores.calls.length + 1)

/-! ### Security bits and pins -/

/-- The SECURITY_LOCK sequence (R444, R447): 0xB10C opens it for its master; the next value of that master requests its bits, unless
it would retire the last live slot, which is refused as a whole; a value that follows no 0xB10C requests nothing. -/
def Sys2Proof.Claims.SecurityLockSequence : Prop :=
  ∀ (m : Master) (data : Word) (s : State),
    let live := s.otp.programmed &&& ~~~s.otp.retired &&& ~~~((s.otpRequest.getD 0).extractLsb' 4 4)
    (fiveMasters s → ∃ t, exec (.securityLock m 0xB10C#16) s = .next t ∧ (view m t).lockPrev = true ∧ t = setView m (view m t) s)
    ∧ ((view m s).lockPrev = true → data.extractLsb' 8 8 = 0#8 → (live = 0 ∨ live &&& ~~~data.extractLsb' 4 4 ≠ 0) →
        exec (.securityLock m data) s
          = .next { dropKeys m s with otpRequest := some (s.otpRequest.getD 0 ||| data.extractLsb' 0 8) })
    ∧ ((view m s).lockPrev = true → data.extractLsb' 8 8 = 0#8 → live ≠ 0 → live &&& ~~~data.extractLsb' 4 4 = 0 →
        exec (.securityLock m data) s = .next (setFault fcReservedWrite (dropKeys m s)))
    ∧ ((view m s).lockPrev = false → ∃ t, exec (.securityLock m data) s = .next t ∧ t.otpRequest = s.otpRequest
        ∧ t = setView m (view m t) s)

/-- The requested bits take effect together, and PROGRAMMING reads 0 again (R445): no other fuse changes. -/
def Sys2Proof.Claims.RequestedBitsAreProgrammed : Prop :=
  ∀ (r : OtpRequest) (s : State), s.otpRequest = some r →
    ∃ t, exec .otpProgrammed s = .next t ∧ t.otpRequest = none
      ∧ t.otp = { s.otp with
          readbackDis := s.otp.readbackDis || r.getLsbD 0
          capObserve := s.otp.capObserve || r.getLsbD 1
          capNone := s.otp.capNone || r.getLsbD 2
          authOnly := s.otp.authOnly || r.getLsbD 3
          retired := s.otp.retired ||| r.extractLsb' 4 4 }

/-- The SECURITY_LOCK sequence and the programming it requests (the claims above). -/
def Obligations.SecurityBits : Prop :=
  Claims.SecurityLockSequence
  ∧ Claims.RequestedBitsAreProgrammed

/-- A pin's entry is locked by three consecutive writes from one master (R594): each write of the sequence moves it on by one, the
third locks the named pin and changes no other; an index above 39 sets RESERVED_WRITE and locks none. -/
def Sys2Proof.Claims.PinLockSequence : Prop :=
  ∀ (m : Master) (data : Word) (s : State), fiveMasters s →
    ((view m s).pinKeyPhase = 0 → ∃ t, exec (.pinLockKey m 0xA5C3#16) s = .next t ∧ (view m t).pinKeyPhase = 1 ∧ t.pins = s.pins)
    ∧ ((view m s).pinKeyPhase = 1 → ∃ t, exec (.pinLockKey m 0x3C5A#16) s = .next t ∧ (view m t).pinKeyPhase = 2 ∧ t.pins = s.pins)
    ∧ ((view m s).pinKeyPhase = 2 → data.toNat < 40 →
        ∃ t, exec (.pinLockKey m data) s = .next t ∧ (view m t).pinKeyPhase = 0
          ∧ t.pins = { s.pins with pins := lset s.pins.pins data.toNat { pinAt data.toNat s with locked := true } })
    ∧ ((view m s).pinKeyPhase = 2 → 39 < data.toNat % 64 →
        ∃ t, exec (.pinLockKey m data) s = .next t ∧ (view m t).pinKeyPhase = 0 ∧ t.pins = s.pins ∧ faultSet fcReservedWrite t)

/-- A crossbar write gives an unlocked pin its new function while the keeper holds the pad's level; of a locked pin it changes SWOUT
alone and sets PIN_LOCKED where another field differs (R592, R595). No other pin changes. -/
def Sys2Proof.Claims.PinFunctionChanges : Prop :=
  ∀ (m : Master) (i : Nat) (v : DWord) (s : State), i < 40 →
    let p := pinAt i s
    let q := pinOf v p
    pinCodeOk i q.osel.toNat s = true → pinCodeOk i q.isel.toNat s = true →
    (p.locked = false → (s.inForce.twinEnable = false ∨ hasTwin s = false) →
      ∃ t, exec (.pinFunctionChange m i v) s = .next t
        ∧ t.pins.pins = lset s.pins.pins i { q with pad := padLevel i s } ∧ t.cores = s.cores ∧ t.store = s.store)
    ∧ (p.locked = true → ∃ t, exec (.pinFunctionChange m i v) s = .next t
        ∧ t.pins.pins = lset s.pins.pins i { p with swout := v.getLsbD 13 }
        ∧ (q ≠ { p with swout := v.getLsbD 13 } → faultSet fcPinLocked t))

/-- A new level at a pad is that pin's level alone; the host die learns it of its own pins and from an awake field side (R589). A
rising edge of HANDLER_START raises its event (R583). -/
def Sys2Proof.Claims.PadsAndEdges : Prop :=
  (∀ (i : Nat) (level : Bool) (s : State), i < 40 →
    ∃ t, exec (.padLevelChange i level) s = .next t
      ∧ t.pins.pins = lset s.pins.pins i { pinAt i s with
          pad := level, mirror := if i < 8 || fieldAwake s then level else (pinAt i s).mirror })
  ∧ (∀ s : State, fieldAwake s = true → fieldInput 6 s = true → s.pins.handlerPrev = false →
    ∃ t, exec .handlerStart s = .next t ∧ eventSet evHandler t ∧ t.pins = { s.pins with handlerPrev := true }
      ∧ t.batches = s.batches ∧ t.fabric = s.fabric)

/-- Pin locks, pin functions, pad levels and the handler edge (the claims above). -/
def Obligations.PinsChange : Prop :=
  Claims.PinLockSequence
  ∧ Claims.PinFunctionChanges
  ∧ Claims.PadsAndEdges

/-! ### The stream -/

/-- The batch ring (R608): BRPROD takes its value; while RUN = 0 and no batch is in progress a base that is a multiple of 32 and a
size of 4 to 12 take their value and set the three indices to 0; at any other time the write is ignored with RESERVED_WRITE. -/
def Sys2Proof.Claims.BatchRingRegisters : Prop :=
  ∀ (v : DWord) (b : BitVec 24) (s : State),
    exec (.batchDoorbell v) s = .next { dropKeys .pcie s with stream := { s.stream with brProd := v } }
    ∧ (ringMay s = true → b.toNat % 32 = 0 →
        exec (.batchRingSetup false b) s = .next { dropKeys .pcie s with
          stream := { s.stream with brBase := b, brFetch := 0, brRel := 0, brProd := 0 } })
    ∧ (ringMay s = true → 4 ≤ b.toNat → b.toNat ≤ 12 →
        ∃ t, exec (.batchRingSetup true b) s = .next t ∧ t.stream.brSize.toNat = b.toNat
          ∧ t = { dropKeys .pcie s with stream := { s.stream with brSize := t.stream.brSize, brFetch := 0, brRel := 0, brProd := 0 } })
    ∧ (ringMay s = false → ∀ size, exec (.batchRingSetup size b) s = .next (setFault fcReservedWrite (dropKeys .pcie s)))

/-- The consumer indices and sizes of the host rings (R300, R303, R428): each takes its value; a size restarts the numbering from 0. -/
def Sys2Proof.Claims.RingConsumersTakeTheirValue : Prop :=
  ∀ (l : FLink) (v : DWord) (size : BitVec 5) (s : State),
    (∃ t, exec (.lcons l v) s = .next t ∧ (channel l t).cons = v ∧ channel (otherLink l) t = channel (otherLink l) s)
    ∧ (size = 0 ∨ (8 ≤ size.toNat ∧ size.toNat ≤ 24) → (ledger l s).crossed = [] →
        ∃ t, exec (.lsize l size) s = .next t
          ∧ channel l t = { channel l s with size := size, next := 0, lastWb := 0 }
          ∧ channel (otherLink l) t = channel (otherLink l) s)
    ∧ (∃ t, exec (.rcons v) s = .next t ∧ t.stream.rep.cons = v ∧ t.stream.f0 = s.stream.f0 ∧ t.stream.f1 = s.stream.f1
        ∧ t.loader.frames = s.loader.frames)

/-- Software must not write LCONS beyond the index of the last writeback, and the device treats a value beyond it as equal to it. -/
def Obligations.ConsumerBeyondWriteback : Prop :=
  ∀ (c : RingChannel) (i : Nat), (c.cons - BitVec.ofNat 32 c.lastWb).toNat < 2 ^ 31 →
    hostRoom c i = hostRoom { c with cons := BitVec.ofNat 32 c.lastWb } i

/-- The stimulus DMA (R609): a start while idle makes it busy; one that is refused copies nothing, reports ERROR with the count as
it stands and signals vector 5; one while busy is ignored. Its end stores the bytes from SDEST up, counts the transfer, reports and
signals; no other byte of Common Store changes. -/
def Sys2Proof.Claims.StimulusDma : Prop :=
  ∀ (s : State) (bytes : List Byte),
    (s.stream.sBusy = false → stimRefused s = false → s.stream.sLen ≠ 0 →
      exec (.sgo 1) s = .next { dropKeys .pcie s with stream := { s.stream with sBusy := true, sError := false } })
    ∧ (s.stream.sBusy = false → stimRefused s = true →
        exec (.sgo 1) s = .next { dropKeys .pcie s with
          stream := { s.stream with sError := true }
          hostOut := s.hostOut ++ [.memWrite s.stream.sWb.toNat (bytesOf 8 (2 ^ 32 + s.stream.sCount.toNat)), .msix 5] })
    ∧ (s.stream.sBusy = true → exec (.sgo 1) s = .next (dropKeys .pcie s))
    ∧ (s.stream.sBusy = true → fieldAwake s = true → bytes.length = s.stream.sLen.toNat → s.stream.sError = false →
        ∃ t, exec (.stimDmaDone bytes) s = .next t
          ∧ t = { s with
              store := csPutAll s.stream.sDest.toNat bytes s.store
              stream := { s.stream with sBusy := false, sCount := s.stream.sCount + 1 }
              hostOut := s.hostOut ++
                [.memWrite s.stream.sWb.toNat (bytesOf 8 (s.stream.sCount + 1).toNat), .msix 5] }
          ∧ (∀ a, a < s.stream.sDest.toNat ∨ s.stream.sDest.toNat + bytes.length ≤ a →
              granuleValid a s.store = true ∨ (∀ k, k < bytes.length → a / 8 ≠ (s.stream.sDest.toNat + k) / 8) →
              csByte a t.store = csByte a s.store)
          ∧ (∀ k, k < bytes.length → csByte (s.stream.sDest.toNat + k) t.store = lget 0 bytes k))

/-- The batch ring, the host rings and the stimulus DMA (the claims above). -/
def Obligations.StreamRegisters : Prop :=
  Claims.BatchRingRegisters
  ∧ Claims.RingConsumersTakeTheirValue
  ∧ Claims.StimulusDma

/-! ### Loading -/

/-- BEGIN (R403 to R405): a load takes up SLOT, GROUP and DEV_INDEX, receives frames, and leaves no batch and no released start-up
stage, with field I/O disabled; a Dormant field side is woken and an Armed one goes to Standby. BEGIN waits for a bank test. -/
def Sys2Proof.Claims.LoadBegins : Prop :=
  ∀ (m : Master) (slot : BitVec 2) (group : BitVec 4) (dev : Byte) (s : State), dev ≠ 0xFF#8 →
    (s.store.test = .idle → ∃ t, exec (.loadBegin m slot group dev) s = .next t
      ∧ t.loader = { active := true, slot := slot, group := group, devIndex := dev, aperture := s.loader.aperture }
      ∧ loadState t = stReceiving ∧ t.batches = [] ∧ t.released = {} ∧ ioDisabled t = true
      ∧ t.otp = s.otp ∧ t.inForce = s.inForce ∧ t.store.cs = s.store.cs
      ∧ (s.power.field = .dormant → t.power.target = some .standby) ∧ (armed s = true → t.power.field = .standby))
    ∧ (s.store.test ≠ .idle → exec (.loadBegin m slot group dev) s
        = .next { dropKeys m s with loader := { s.loader with waiting := some (slot, group, dev) } })

/-- A load that fails reports its code, erases its keys, drives CFG_FAULT and disables field I/O (R437): ABORT by command, DEADLINE at
its time, PLL_LOCK when a PLL has not locked. ABORT outside a load has no effect. -/
def Sys2Proof.Claims.LoadFails : Prop :=
  ∀ (m : Master) (s : State),
    let failed (code : Nat) (t : State) : Prop := loadState t = 5 ∧ fld t.regs.loadStatus 7 0 = code ∧ t.loader.active = false
      ∧ t.loader.keyEpochs = [] ∧ t.loader.cfgFault = true ∧ ioDisabled t = true ∧ t.released = {} ∧ eventSet evLoad t
    (s.loader.active = true → ∃ t, exec (.loadAbort m) s = .next t ∧ failed 12 t)
    ∧ (s.loader.active = false → exec (.loadAbort m) s = .next (dropKeys m s))
    ∧ (s.loader.active = true → loadState s = stReceiving ∨ loadState s = stVerifying → s.regs.loadDeadline ≠ 0 →
        ∃ t, exec .loadDeadline s = .next t ∧ failed 1 t)
    ∧ (s.loader.active = true → s.loader.pllWait = true → ∃ t, exec .pllLockTimeout s = .next t ∧ failed 8 t)

/-- Frames reach the device through the aperture (R424, R450): each byte written is kept in its slot; a slot whose 4,096 bytes are
all written is emptied and its frame checked. Outside a load the frame is discarded with CFG_WRITE; a frame without the magic number,
of another image, or already held is discarded. -/
def Sys2Proof.Claims.FramesTaken : Prop :=
  ∀ (slot off : Nat) (b : Byte) (s : State),
    let t0 := tget [] s.loader.aperture slot
    let s1 : State := { s with loader := { s.loader with aperture := tdel s.loader.aperture slot } }
    let bs := t0.map (fun e => e.2)
    let h := frameHeader bs
    (slot < 64 → off < 4096 → t0.length < 4096 → exec (.frameApertureWrite slot off [b]) s
      = .next { s with loader := { s.loader with aperture := tput s.loader.aperture slot (tput t0 off b) } })
    ∧ (4096 ≤ t0.length → s.loader.active = false →
        exec (.imageFrameTake slot) s = .next (setFault fcCfgWrite (countDiscarded s1)))
    ∧ (4096 ≤ t0.length → s.loader.active = true → loadState s = stReceiving → hMagicOk h = false →
        exec (.imageFrameTake slot) s = .next (countDiscarded s1))
    ∧ (4096 ≤ t0.length → s.loader.active = true → loadState s = stReceiving → hMagicOk h = true → hPlain h = true →
        s.otp.authOnly = false → s.loader.nonce = some (hNonce h) → holdsFrame (hFrame h) s = false →
        (openFrame bs h s1 = none → exec (.imageFrameTake slot) s = .next (requestRepeat (hFrame h) 3 (countFailed s1)))
        ∧ ∀ area, openFrame bs h s1 = some area → exec (.imageFrameTake slot) s = .next (acceptFrame h area s1))

/-- A frame whose parts have all crossed is placed in its unit and leaves the buffer (R418); a frame that the field side reports
broken is no longer held and its repeat is asked for (R426); after a reset of its side each frame begun is reported (R430); a request
that stays unanswered is repeated (R427). -/
def Sys2Proof.Claims.FramesCross : Prop :=
  ∀ (n : Nat) (pre : Record) (payload : List Byte) (reason : Byte) (s : State),
    (fieldAwake s = true → s.loader.active = true → s.loader.begun.contains n = true → fld pre 127 120 = 7 → fld pre 119 112 = 0 →
        fld pre 95 64 + (payload.take (fld pre 63 48)).length ≤ 0xE00000 →
        ∃ t, exec (.imageFrame n pre payload) s = .next t
          ∧ t.store = csPutAll (fld pre 95 64) (payload.take (fld pre 63 48)) s.store
          ∧ t.loader = { s.loader with
              begun := ndel s.loader.begun n, buffered := ndel s.loader.buffered n, placed := nins s.loader.placed n }
          ∧ t.array = s.array ∧ t.fabric = s.fabric ∧ t.regs = s.regs)
    ∧ (s.loader.active = true → loadState s = stReceiving →
        ∃ t, exec (.repeatRequest n reason) s = .next t ∧ holdsFrame n t = false
          ∧ (∃ r ∈ t.loader.repeats, r.frame = n ∧ r.reason = reason)
          ∧ t.loader.repeated = satInc s.loader.repeated)
    ∧ (s.loader.active = true → loadState s = stReceiving → s.loader.begun = [n] →
        exec .fieldResetDuringLoad s = .next (sendMsg .fieldToHost 0x05 5 ((n % 2 ^ 32) * 256 + 2)
          { s with loader := { s.loader with begun := [], buffered := s.loader.buffered.filter (fun k => !([n].contains k)) } }))
    ∧ (s.loader.active = true → s.loader.repeats.any (fun r => r.frame = n) = true → holdsFrame n s = false →
        ∃ t, exec (.repeatRetry n) s = .next t ∧ (∃ r ∈ t.loader.repeats, r.frame = n ∧ r.reason = 6#8)
          ∧ t.loader.repeated = satInc s.loader.repeated ∧ t.loader.frames = s.loader.frames)

/-- A load begins, takes its frames, hands them over, or fails (the claims above). -/
def Obligations.LoadsBeginAndCross : Prop :=
  Claims.LoadBegins
  ∧ Claims.LoadFails
  ∧ Claims.FramesTaken
  ∧ Claims.FramesCross

/-- Verification and start-up (R435, R436, R439 to R442): with every frame held and its checks good the load verifies; with all content
good it starts the PLLs; at lock it counts 64 FCLK cycles to the first of the three stages in the committed order; each stage is
released in turn; after the last the image is loaded, every core runs and field I/O is enabled. -/
def Obligations.StartUpRuns : Prop :=
  ∀ s : State, s.loader.active = true →
    (loadState s = stReceiving → s.loader.manifestDone = true → (∀ k, k < s.loader.frameCount → holdsFrame k s = true) →
        epochsOk s s.loader.frameCount 0 0 0 = true → trailerOk s = true → trailerCrcOk s = true →
        exec .verify s = .next (setLoadState stVerifying s))
    ∧ (loadState s = stVerifying → allPlaced s = true →
        (let q := fillDefaults s;
          ((placedSections q).filter (fun e => e.unit = 9#8)).all (fun e => signatureOk e q) = true ∧
          scheduleOk (imageLength q) q = true ∧ (mapStarts q).all (fun p => mapOk p q) = true ∧ avenuesOk q = true
          ∧ fabricOk q = true) →
        ∃ t, exec .verificationDone s = .next t ∧ loadState t = stStarting ∧ t.loader.pllWait = true ∧ t.array.curValid = []
          ∧ t.array.prevValid = [])
    ∧ (s.loader.pllWait = true → ∃ t, exec .pllLock s = .next t ∧ t.loader.pllWait = false
        ∧ t.loader.stagesLeft = stageOrder (fld s.inForce.startup 10 8) ∧ t.loader.releaseAt = s.power.fclk + 64
        ∧ t.regs.clkStatus.getLsbD 15 = true ∧ t.regs.clkStatus.getLsbD 14 = true)
    ∧ (∀ k j rest, s.loader.stagesLeft = k :: j :: rest →
        ∃ t, exec .stageRelease s = .next t ∧ t.loader.stagesLeft = j :: rest
          ∧ (k = 0 → t.released = { s.released with outputs := true })
          ∧ (k = 1 → t.released = { s.released with writeEnables := true })
          ∧ (k = 2 → t.released = { s.released with resets := true })
          ∧ t.loader.releaseAt = max s.power.fclk s.loader.releaseAt + fld s.inForce.startup 7 0)
    ∧ (∀ k, s.loader.stagesLeft = [k] →
        ∃ t, exec .stageRelease s = .next t ∧ loadState t = stLoaded ∧ t.loader.active = false ∧ ioDisabled t = false
          ∧ coreRuns t.cores.curator = true ∧ coreRuns t.cores.docentA = true ∧ coreRuns t.cores.docentB = true
          ∧ coreRuns t.cores.warden = true ∧ t.imageId = s.loader.imageId ∧ eventSet evLoad t)

/-! ### The barrier -/

/-- Messages about registers cross (R51, R55, R56): a host write reaches the field unit's copy alone; a status report sets the mirror's
RO bits and never clears a W1C bit; a read of a field register is answered with STATUS 0 and its value; a reply completes the
master's read with its data. -/
def Sys2Proof.Claims.RegisterMessages : Prop :=
  ∀ (addr : BitVec 6) (who : Byte) (tag data : Word) (s : State),
    exec (.regWrite .hostToField addr who data) s
      = .next { popDir .hostToField 0x01 s with fieldCopy := lset s.fieldCopy addr.toNat data }
    ∧ (∃ t, exec (.regWrite .fieldToHost 0x20 who data) s = .next t
        ∧ t.regs.arrayStatus = (s.regs.arrayStatus &&& ~~~0xC000#16) ||| (data &&& 0xC000#16) ||| (data &&& 0x2000#16)
        ∧ t.regs = { s.regs with arrayStatus := t.regs.arrayStatus })
    ∧ (fieldAwake s = true → s.crossReads.find? (fun r => r.tag = tag) = none →
        exec (.regRead addr who tag) s = .next (sendMsg .fieldToHost 0x03 5
          ((tag.toNat * 65536 + (lget 0 s.fieldCopy addr.toNat).toNat) * 256) (popDir .hostToField 0x02 s)))
    ∧ (fiveMasters s → ∀ r, s.crossReads.find? (fun r => r.tag = tag) = some r → r.entry = none →
        ∃ t, exec (.regReply tag data 0) s = .next t ∧ (view r.master t).readData = data
          ∧ t.crossReads = s.crossReads.filter (fun x => x.tag ≠ tag) ∧ t.regs = s.regs)

/-- An EVENT cell sets its event bit, where the variant has it, and appends one entry to the event log while the Curator takes entries
(R58, R546, R627); a time mark sets host time and gives each Ledger one time-mark record (R38, R397). -/
def Sys2Proof.Claims.EventsAndTimeMarks : Prop :=
  ∀ (code : Word) (unit : Byte) (detail : DWord) (ns : QWord) (s : State),
    (eventExists (code.toNat / 256) s = true → ∃ t, exec (.event code unit detail) s = .next t ∧ eventSet (code.toNat / 256) t
      ∧ t.otp = s.otp ∧ t.array = s.array
      ∧ (s.cores.calls.length < 64 → coreRuns s.cores.curator = true → s.cores.eventLog.length < 128 →
          fld (lget 0 t.cores.eventLog s.cores.eventLog.length) 63 48 = code.toNat
          ∧ t.cores.eventLog.take s.cores.eventLog.length = s.cores.eventLog))
    ∧ (eventExists (code.toNat / 256) s = false → exec (.event code unit detail) s = .next (popDir .fieldToHost 0x07 s))
    ∧ (fieldAwake s = true → ∃ t, exec (.timeMark ns) s = .next t ∧ t.power.hostTimeBase = ns.toNat ∧ t.power.timeMarked = true
        ∧ (∃ r, t.ledger0.waiting = s.ledger0.waiting ++ [r] ∧ recKind r.bits = 7)
        ∧ (∃ r, t.ledger1.waiting = s.ledger1.waiting ++ [r] ∧ recKind r.bits = 7))

/-- Service messages (R38, R542): a field core's call enters the Curator's queue while it has room; the reply that reaches a field core
takes its call out of the queue and nothing else but the queue length and a BUSY survey copy changes. -/
def Sys2Proof.Claims.ServiceMessages : Prop :=
  ∀ (core : Core) (tag call result : Word) (args data : List QWord) (s : State),
    (core ≠ .curator → s.cores.calls.length < 64 →
        (∀ c ∈ s.cores.calls, 64 ≤ c.slot ∨
          (callListed c.call.toNat = true ∧ (s.loader.active = false ∨ hostCall c.call = true))) →
        s.cores.calls.any (fun c => decide (c.slot < 64) && c.forwarded && decide (c.tag = tag)) = false →
        ∃ t, exec (.serviceCall core tag call args) s = .next t
          ∧ t.cores.calls = s.cores.calls ++ [⟨64 + coreNum core, tag, call, args, false⟩])
    ∧ (∃ t, exec (.serviceReply core tag result data) s = .next t
        ∧ t.cores.calls = s.cores.calls.filter (fun c => !(decide (c.slot = 64 + coreNum core) && decide (c.tag = tag)))
        ∧ (core ≠ .warden → t.survey = s.survey) ∧ t.array = s.array ∧ t.otp = s.otp)

/-- What each kind of barrier message does at its receiver (the claims above). -/
def Obligations.BarrierMessages : Prop :=
  Claims.RegisterMessages
  ∧ Claims.EventsAndTimeMarks
  ∧ Claims.ServiceMessages

/-- Cells on a barrier lane (R37, R41, R44): the next cell in sequence with a good CRC is delivered and the sequence moves on; a good
cell ahead of it by at most 64 is held; a cell with a bad CRC is counted on its lane, delivers nothing, and makes the receiver ask
for the missing one. -/
def Sys2Proof.Claims.CellsArriveInOrder : Prop :=
  ∀ (l : Nat) (c : Cell) (s : State),
    let x := s.barrier.toField
    x.active.contains l = true → x.failed.contains l = false → s.barrier.hostSilent = false → s.barrier.toHost.unacked = [] →
    (cellCrcOk c = true → cellNoSeq c = false → cellSeq c = x.expected → typeDefined .hostToField (cellMsg c).typ.toNat = true →
        x.held = [] → ∃ t, exec (.barrierCellReceive .hostToField l c) s = .next t
          ∧ t.barrier.toField.inbox = x.inbox ++ [cellMsg c] ∧ t.barrier.toField.expected = x.expected + 1
          ∧ t.regs = s.regs ∧ t.barrier.toHost = s.barrier.toHost)
    ∧ (cellCrcOk c = true → cellNoSeq c = false → x.nakWait = false → 1 ≤ (cellSeq c - x.expected).toNat →
        (cellSeq c - x.expected).toNat ≤ 64 → x.held.any (fun h => h.seq = cellSeq c) = false →
        ∃ t, exec (.barrierCellReceive .hostToField l c) s = .next t
          ∧ t.barrier.toField.held = x.held ++ [⟨cellSeq c, cellMsg c⟩] ∧ t.barrier.toField.inbox = x.inbox
          ∧ t.barrier.toField.expected = x.expected)
    ∧ (cellCrcOk c = false → ∃ t, exec (.barrierCellReceive .hostToField l c) s = .next t
          ∧ t.barrier.toField.inbox = x.inbox ∧ t.barrier.toField.expected = x.expected ∧ t.barrier.toField.held = []
          ∧ t.barrier.toField.nakDue = true ∧ t.barrier.toField.nakWait = true
          ∧ tget 0 t.barrier.toField.crcCount l = satInc (tget 0 x.crcCount l))

/-- Retransmission (R42, R45): an acknowledgement lets the cells before it leave the replay store; after a NAK, and after 4 µs
without progress, every cell still in it is sent again, none is lost and the order stays. -/
def Sys2Proof.Claims.ResendKeepsEveryCell : Prop :=
  ∀ (d : Dir) (ack : Word) (s : State),
    (∃ t, exec (.retransmitTimeout d) s = .next t ∧ (barrierDir d t).unacked = (barrierDir d s).unacked
      ∧ (barrierDir d t).seqNext = (barrierDir d s).seqNext ∧ barrierDir (opposite d) t = barrierDir (opposite d) s
      ∧ t = setBarrierDir d (barrierDir d t) s)
    ∧ (∀ c rest, (barrierDir d s).unacked = c :: rest → (barrierDir d s).waiting = [] →
        (ack - c.seq).toNat ≤ rest.length + 1 →
        ∃ t, exec (.nak d ack) s = .next t ∧ (barrierDir d t).unacked = (c :: rest).drop (ack - c.seq).toNat
          ∧ t = setBarrierDir d (barrierDir d t) s)

/-- Lanes (R34, R36, R44, R47 to R49): the receiver that declares a lane failed asks for a spare and the missing cell; the transmitter
puts the lowest spare in the failed lane's place; training with all 18 lanes good leaves 16 active and 2 spares, and the sequence at
its start. -/
def Sys2Proof.Claims.LanesAreSpared : Prop :=
  ∀ (d : Dir) (l p : Nat) (rest : List Nat) (s : State),
    ((barrierDir d s).active.contains l = true → (barrierDir d s).failed.contains l = false →
        exec (.barrierLaneFail d l) s = .next (setBarrierDir d { barrierDir d s with
          failed := nins (barrierDir d s).failed l
          spareReqDue := (barrierDir d s).spareReqDue ++ [l]
          nakDue := true
          nakWait := true
          held := [] } s))
    ∧ ((barrierDir d s).active.contains l = true → (barrierDir d s).spares = p :: rest →
        ∃ t, exec (.spareReq d l) s = .next t
          ∧ (barrierDir d t).active = (barrierDir d s).active.map (fun a => if a = l then p else a)
          ∧ (barrierDir d t).spares = rest ∧ (barrierDir d t).unacked.take (barrierDir d s).unacked.length = (barrierDir d s).unacked
          ∧ faultSet fcBarrierSpared t)
    ∧ (s.power.hostRails = true → s.power.fieldRails = true →
        ∃ t, exec (.barrierTrained d 0x3FFFF) s = .next t ∧ (barrierDir d t).active = List.range 16
          ∧ (barrierDir d t).spares = [16, 17] ∧ (barrierDir d t).expected = 0 ∧ (barrierDir d t).failed = []
          ∧ t.regs = s.regs)

/-- Heartbeats (R43, R59, R60): a side that can transmit sends one with its power state, its acknowledgement and what it asks for; the
host die takes the field side's state from one; one with RESET = 1 from the host die makes the field side drop its configuration and
every batch; a counterpart not heard for 10 µs counts as unpowered. -/
def Sys2Proof.Claims.Heartbeats : Prop :=
  ∀ (power : Byte) (ticks : DWord) (ack : Word) (s : State),
    (s.power.hostRails = true → s.power.host ≠ .off → s.barrier.toField.active ≠ [] →
        ∃ t, exec (.heartbeatDue .host) s = .next t
          ∧ t.barrier.beats = s.barrier.beats ++ [⟨.host, powerCode s.power.host, s.barrier.hostFirstCell, s.barrier.toHost.expected,
              s.barrier.toHost.nakDue, s.barrier.toHost.spareReqDue.head?⟩]
          ∧ t.barrier.hostFirstCell = false ∧ t.barrier.toHost.nakDue = false ∧ t.barrier.toHost.ackDue = false
          ∧ t = { s with barrier := t.barrier })
    ∧ (power.toNat < 8 → ∃ t, exec (.heartbeat .fieldToHost power 0 ticks ack) s = .next t ∧ fld t.regs.pwrState 2 0 = power.toNat
        ∧ t.barrier.fieldSilent = false)
    ∧ (∃ t, exec (.heartbeat .hostToField power 1 ticks ack) s = .next t ∧ t.batches = [] ∧ t.released = {} ∧ ioDisabled t = true
        ∧ loaded t = false ∧ t.otp = s.otp)
    ∧ (s.barrier.fieldSilent = false → ∃ t, exec (.counterpartSilent .host) s = .next t ∧ t.barrier.fieldSilent = true
        ∧ fld t.regs.pwrState 2 0 = 0 ∧ t.loader.active = false)
    ∧ exec (.counterpartSilent .field) s = .next { s with barrier := { s.barrier with hostSilent := true } }

/-- Cells, retransmission, lane sparing and heartbeats of the barrier (the claims above). -/
def Obligations.BarrierLanes : Prop :=
  Claims.CellsArriveInOrder
  ∧ Claims.ResendKeepsEveryCell
  ∧ Claims.LanesAreSpared
  ∧ Claims.Heartbeats

/-! ### The Boolean processors -/

/-- For EVAL, EVAL_EXPORT, EVAL_COMMIT and EVAL_COMMIT_EXPORT, the result in each lane is bit TT[k], where k = 8A + 4B + 2C + D and A,
B, C and D are the values of the four operands in that lane. The result goes to current word i, and to the bus and the previous
bank where the opcode says so; nothing else happens but what the reads of the operands do. -/
def Obligations.EvalPerLane : Prop :=
  ∀ (g bp i : Nat) (s : State),
    let x := bpInstr g bp i s
    let bit (o : BitVec 11) (n : Nat) : Nat := ((bpOperand g bp i o s).getLsbD n).toNat
    ∃ v : Word, (∀ n, n < 16 → v.getLsbD n = x.tt.getLsbD (8 * bit x.a n + 4 * bit x.b n + 2 * bit x.c n + bit x.d n))
      ∧ (executes .eval g bp i s = true →
          exec (.eval g bp i) s = .next (stateWrite false (bpNum g bp) i v (bpRead g bp i s)))
      ∧ (executes .evalExport g bp i s = true →
          exec (.evalExport g bp i) s = .next (exportWord g bp i v (stateWrite false (bpNum g bp) i v (bpRead g bp i s))))
      ∧ (executes .evalCommit g bp i s = true →
          exec (.evalCommit g bp i) s = .next (commitWord g bp i v (stateWrite false (bpNum g bp) i v (bpRead g bp i s))))
      ∧ (executes .evalCommitExport g bp i s = true →
          exec (.evalCommitExport g bp i) s
            = .next (exportWord g bp i v (commitWord g bp i v (stateWrite false (bpNum g bp) i v (bpRead g bp i s)))))

/-- For each pair, EVAL3 and EVAL3_COMMIT form every assignment of 0 and 1 to the operands that are X in that pair, keep the known
operands, and evaluate TT under R67 for each assignment; the result is the common value, with unknown bit 0, if all assignments give
the same value, and X, with value bit 0, otherwise. -/
def Obligations.Eval3PerPair : Prop :=
  ∀ (g bp i : Nat) (s : State),
    let x := bpInstr g bp i s
    let may (o : BitVec 11) (m : Nat) (v : Bool) : Prop :=
      (bpOperand g bp i o s).getLsbD (2 * m + 1) = true ∨ (bpOperand g bp i o s).getLsbD (2 * m) = v
    let gives (m : Nat) (r : Bool) : Prop := ∃ a b c d : Bool, may x.a m a ∧ may x.b m b ∧ may x.c m c ∧ may x.d m d
      ∧ x.tt.getLsbD (8 * a.toNat + 4 * b.toNat + 2 * c.toNat + d.toNat) = r
    ∃ v : Word,
      (∀ m, m < 8 →
        (∀ r, (∀ r', gives m r' → r' = r) → v.getLsbD (2 * m + 1) = false ∧ v.getLsbD (2 * m) = r)
        ∧ (gives m false → gives m true → v.getLsbD (2 * m + 1) = true ∧ v.getLsbD (2 * m) = false))
      ∧ (executes .eval3 g bp i s = true →
          exec (.eval3 g bp i) s = .next (stateWrite false (bpNum g bp) i v (bpRead g bp i s)))
      ∧ (executes .eval3Commit g bp i s = true →
          exec (.eval3Commit g bp i) s = .next (commitWord g bp i v (stateWrite false (bpNum g bp) i v (bpRead g bp i s))))

/-- NOP and END write 0x0000 to current word i and do nothing else; SEND and MESH_SEND write operand A there and put it on the
Boulevard, due 6 steps later where the route entry is valid, or in the mesh send slot; STIM writes the head word of its port there
and removes it (R75, R110, R127). -/
def Sys2Proof.Claims.TheOtherOpcodes : Prop :=
  ∀ (g bp i : Nat) (s : State),
    let x := bpInstr g bp i s
    let s1 := bpStart g bp i s
    let a := bpOperand g bp i x.a s
    (executes .nop g bp i s = true → exec (.nop g bp i) s = .next (stateWrite false (bpNum g bp) i 0 s1))
    ∧ (executes .endOp g bp i s = true → exec (.endOp g bp i) s = .next (stateWrite false (bpNum g bp) i 0 s1))
    ∧ (executes .send g bp i s = true →
        let t := stateWrite false (bpNum g bp) i a (operandEffect i g bp x.a s1)
        let e := routeEntry g i (x.tt.toNat % 8) t
        ∃ u, exec (.send g bp i) s = .next u ∧ u.array.cur = t.array.cur ∧ u.array.prev = t.array.prev
          ∧ (routeValid e = true → u.array.flight = t.array.flight ++ [⟨i + 6, routeGallery e, routePort e, a, none⟩])
          ∧ (routeValid e = false → u.array.flight = t.array.flight))
    ∧ (executes .meshSend g bp i s = true →
        let t := stateWrite false (bpNum g bp) i a (operandEffect i g bp x.a s1)
        ∃ u, exec (.meshSend g bp i) s = .next u ∧ u.array.cur = t.array.cur ∧ u.array.flight = t.array.flight
          ∧ u.array.meshOut = t.array.meshOut ++ [⟨i, x.tt.toNat % 16, a, false⟩])
    ∧ (executes .stim g bp i s = true → ∀ w rest, stimPort g (x.a.toNat - 0x620) s1 = w :: rest →
        exec (.stim g bp i) s = .next (stateWrite false (bpNum g bp) i w { s1 with array := { s1.array with
          stim := tset [] s1.array.stim (32 * g + (x.a.toNat - 0x620)) rest } }))

/-- A write to a word of a row whose valid bit is clear writes that word, writes 0x0000 to the row's other three words, stores check
bits computed over the whole row, and sets the valid bit. -/
def Sys2Proof.Claims.FirstWriteOfARow : Prop :=
  ∀ (prev : Bool) (bpn w : Nat) (v : Word) (s : State),
    let row := rowKey bpn w
    let t := stateWrite prev bpn w v s
    (bankPoison prev s).contains row = false → (bankValid prev s).contains row = false →
      stateValue prev bpn w t = v ∧ (∀ k, k < 4 → k ≠ w % 4 → stateValue prev bpn (4 * (w / 4) + k) t = 0)
      ∧ (rowDecode prev row t).1 = .clean ∧ (bankValid prev t).contains row = true
      ∧ (∀ r, r ≠ row → ∀ k, k < 4 → tget 0 (bankWords prev t) (4 * r + k) = tget 0 (bankWords prev s) (4 * r + k))

/-- NOP, END, SEND, MESH_SEND and STIM, and the first write of a state row (the claims above). -/
def Obligations.TheOtherOpcodes : Prop :=
  Claims.TheOtherOpcodes
  ∧ Claims.FirstWriteOfARow

/-- An illegal instruction writes 0x0000 to current word i, and it exports nothing, commits nothing, sends nothing and removes no
stimulus word. -/
def Sys2Proof.Claims.IllegalWritesOnlyZero : Prop :=
  ∀ (g bp i : Nat) (s : State), bpRuns g bp i s = true → fetchGood (bpNum g bp) i s = true →
    bpLegal (fetched (bpNum g bp) i s) = false → rowWrites (bpNum g bp) i s →
    ∃ t, exec (.illegalInstruction g bp i) s = .next t ∧ stateValue false (bpNum g bp) i t = 0
      ∧ t.array.bus = (bpStart g bp i s).array.bus ∧ t.array.prev = s.array.prev ∧ t.array.commits = s.array.commits
      ∧ t.array.flight = s.array.flight ∧ t.array.meshOut = s.array.meshOut ∧ t.array.stim = s.array.stim

/-- When an illegal instruction executes, the device sets ARRAY_ILLEGAL, makes every site verdict of the batch in progress
indeterminate, and raises an event whose DETAIL carries the Gallery in bits [31:24], the BP in bits [23:16] and the step in bits
[15:0]. -/
def Sys2Proof.Claims.IllegalIsReported : Prop :=
  ∀ (g bp i : Nat) (s : State), bpRuns g bp i s = true → fetchGood (bpNum g bp) i s = true →
    bpLegal (fetched (bpNum g bp) i s) = false → rowWrites (bpNum g bp) i s →
    ∃ t, exec (.illegalInstruction g bp i) s = .next t ∧ faultSet fcArrayIllegal t ∧ indetBy 2 s t
      ∧ eventSent evFault fcArrayIllegal (g * 2 ^ 24 + bp * 2 ^ 16 + i) s t

/-- An illegal instruction writes only 0x0000 and is reported (the claims above). -/
def Obligations.IllegalInstructions : Prop :=
  Claims.IllegalWritesOnlyZero
  ∧ Claims.IllegalIsReported

/-- A fetch of a poisoned instruction executes as NOP, writing 0x0000 to current word i. It makes every site verdict of the batch in
progress indeterminate, with CAUSE 0x0006. -/
def Obligations.PoisonedFetchIsNop : Prop :=
  ∀ (g bp i : Nat) (s : State), bpRuns g bp i s = true → i ≤ bpLength (bpNum g bp) s → instrPoisoned (bpNum g bp) i s = true →
    rowWrites (bpNum g bp) i s →
    ∃ t, exec (.poisonedFetch g bp i) s = .next t ∧ stateValue false (bpNum g bp) i t = 0 ∧ indetBy 6 s t
      ∧ t.array.bus = (atStep i s).array.bus ∧ t.array.prev = s.array.prev ∧ t.array.commits = s.array.commits
      ∧ t.array.flight = s.array.flight ∧ t.array.meshOut = s.array.meshOut ∧ t.array.stim = s.array.stim

/-- A read of an empty stimulus port, by STIM or as an operand, returns 0x0000, sets STIM_UNDERFLOW, and makes every site verdict of
the batch in progress indeterminate. -/
def Obligations.EmptyPortUnderflows : Prop :=
  ∀ (g bp i p : Nat) (s : State), p < 32 →
    (stimPort g p s = [] → let o : BitVec 11 := BitVec.ofNat 11 (0x620 + p)
      operandValue i g bp o s = 0 ∧ faultSet fcStimUnderflow (operandEffect i g bp o s)
        ∧ indetBy 1 s (operandEffect i g bp o s))
    ∧ (executes .stim g bp i s = true → (bpInstr g bp i s).a = BitVec.ofNat 11 (0x620 + p) → stimPort g p s = [] →
      ∃ t, exec (.stim g bp i) s = .next t ∧ faultSet fcStimUnderflow t ∧ indetBy 1 s t
        ∧ (rowWrites (bpNum g bp) i s → stateValue false (bpNum g bp) i t = 0))

/-- Decoding of BP instructions and their encoder agree: no bit of an encoding is dropped, in either direction (R66, R75). -/
def Obligations.BpRoundTrip : Prop :=
  (∀ x : BpInstr, decodeBp (encodeBp x) = x) ∧ (∀ w : BitVec 64, encodeBp (decodeBp w) = w)

/-- A few words written out bit by bit from R66, R68 and R75 decode to the instruction they stand for: EVAL with TT 0x0FF0 of current
word 1, previous word 2, bus slot 3 and special word 0; SEND of current word 40 to port 3; STIM of port 1; END; and a reserved
opcode. -/
def Obligations.BpWordsDecode : Prop :=
  decodeBp (0b0001#4 ++ 0b0000111111110000#16 ++ 0b00000000001#11 ++ 0b01000000010#11 ++ 0b10000000011#11 ++ 0b11000000000#11)
      = ⟨.eval, 0x0FF0#16, 1#11, 514#11, 1027#11, 1536#11⟩
    ∧ decodeBp (0b0101#4 ++ 0b0000000000000011#16 ++ 0b00000101000#11 ++ 0#11 ++ 0#11 ++ 0#11) = ⟨.send, 3#16, 40#11, 0, 0, 0⟩
    ∧ decodeBp (0b0111#4 ++ 0#16 ++ 0b11000100001#11 ++ 0#11 ++ 0#11 ++ 0#11) = ⟨.stim, 0, 0x621#11, 0, 0, 0⟩
    ∧ decodeBp 0xF000000000000000#64 = ⟨.endOp, 0, 0, 0, 0, 0⟩
    ∧ decodeBp 0xC000000000000000#64 = ⟨.reserved 2, 0, 0, 0, 0, 0⟩

/-! ### Batches, bursts and passes -/

/-- A well-formed descriptor whose BATCH follows on, or is the first to be taken as it stands, becomes the next batch, and the fetch
index moves on (R141, R142, R608). -/
def Sys2Proof.Claims.DescriptorBecomesABatch : Prop :=
  ∀ s : State, mayFetch s = true →
    let a := ringEntryAddr s.stream.brFetch s
    let d := descriptorOf (BitVec.ofNat 256 (rawNat a 32 s.store))
    csUe a 32 s.store = false → (s.anyBatch = true ∨ d.batch = s.lastBatch + 1) →
    (d.patterns = 0 ∨ malformedFields d (s.inForce.mode.toNat % 4) (csReadEffects a 32 s) = false) →
    ∃ t b, exec .descriptorFetch s = .next t ∧ t.batches = s.batches ++ [b] ∧ b.d = d ∧ b.malformed = false
      ∧ b.burstBegun = false ∧ t.stream = { s.stream with brFetch := s.stream.brFetch + 1 } ∧ t.lastBatch = d.batch
      ∧ t.anyBatch = false

/-- A descriptor whose BATCH breaks R142 is not issued. The Docents stop fetching, set BAD_DESCRIPTOR and raise an event. No record and
no commit is produced for that descriptor. -/
def Sys2Proof.Claims.BadNumberStopsTheFetch : Prop :=
  ∀ s : State, mayFetch s = true →
    let a := ringEntryAddr s.stream.brFetch s
    let d := descriptorOf (BitVec.ofNat 256 (rawNat a 32 s.store))
    csUe a 4 s.store = false → s.anyBatch = false → d.batch ≠ s.lastBatch + 1 →
    ∃ t detail, exec .descriptorFetch s = .next t ∧ t.fetchStopped = true ∧ faultSet fcBadDescriptor t
      ∧ eventSent evFault fcBadDescriptor detail s t ∧ t.batches = s.batches ∧ t.ledger0 = s.ledger0 ∧ t.ledger1 = s.ledger1
      ∧ t.stream = s.stream

/-- Each running Docent issues the next batch of the common sequence while nothing stands in the way (R21, R22). -/
def Sys2Proof.Claims.DocentsIssue : Prop :=
  ∀ (b : Batch) (s : State), issueBlocked s = false → announcedOk b s = true →
    (nextToIssue .a s = some b → coreRuns s.cores.docentA = true →
      ∃ t, exec (.batchIssue .a) s = .next t ∧ ∃ b' ∈ t.batches, b'.d = b.d ∧ b'.issuedA = true)
    ∧ (nextToIssue .b s = some b → coreRuns s.cores.docentB = true →
      ∃ t, exec (.batchIssue .b) s = .next t ∧ ∃ b' ∈ t.batches, b'.d = b.d ∧ b'.issuedB = true)

/-- Docent A's SYSCLK cycle begins with the next port in turn that wants a word: that port's words end with the stream's next word,
and no other port changes (R150, R677). -/
def Sys2Proof.Claims.StimulusRefills : Prop :=
  ∀ (b : Batch) (p : Nat × Nat) (s : State), coreRuns s.cores.docentA = true → fillBatch s = some b → nextPort b s = some p →
    exec .stimRefill s = .next (fillWords 31 (fillOne b p s))
    ∧ tget [] (fillOne b p s).array.stim p.2 = tget [] s.array.stim p.2 ++ [BitVec.ofNat 16 (rawNat (stimWordAddr b.d.stimPtr
        (stimCountStreams b.d.stimPtr s.store) (tget 0 b.stimSent p.1) p.1) 2 s.store)]
    ∧ (∀ k, k ≠ p.2 → tget [] (fillOne b p s).array.stim k = tget [] s.array.stim k)

/-- The array phase of a batch (R23, R94, R105): the burst begins with the array Running at pass 0; the clear step clears the current
bank, and the previous bank or half as the descriptor asks; a pass begins at step 0 with nothing in flight; its tail moves to the next
pass, or ends the burst and returns the array to Armed. -/
def Sys2Proof.Claims.BurstsAndPasses : Prop :=
  ∀ (b : Batch) (s : State),
    (nextBurst s = some b → burstReady b s = true → b.d.xmaskEn = false →
      ∃ t, exec .burstBegin s = .next t ∧ t.array = { s.array with
          running := some b.d.batch, phase := .idle, pass := 0, passes := passCount b s, step := 0, xmask := 0 }
        ∧ t.power.field = .running ∧ fld t.regs.pwrState 2 0 = 4 ∧ t.regs.arrayStatus.getLsbD 14 = true)
    ∧ (s.array.running.bind (fun n => findBatch n s) = some b → s.array.phase = .idle → s.array.passes ≠ 0 →
      ∃ t, exec .validClear s = .next t ∧ t.array.curValid = [] ∧ t.array.curPoison = [] ∧ t.array.phase = .cleared
        ∧ (b.d.clearPrev = false → t.array.prevValid = s.array.prevValid)
        ∧ (b.d.clearPrev = true → t.array.prevValid = s.array.prevValid.filter (fun r => !rowInHalf (halfOf b) r))
        ∧ t.array.cur = s.array.cur ∧ t.array.prev = s.array.prev)
    ∧ (passReady s = true → ∃ t, exec .passBegin s = .next t ∧ t.array = { s.array with
          phase := .inPass, step := 0, bus := [], rx := [], flight := [], meshOut := [], meshWaiting := false }
        ∧ t.batches = s.batches ∧ t.store = s.store)
    ∧ (s.array.phase = .inPass → s.array.running.isSome = true → s.array.pass + 1 < s.array.passes →
      ∃ t, exec .passTail s = .next t ∧ t.array.pass = s.array.pass + 1 ∧ t.array.phase = .tail ∧ t.array.cur = s.array.cur
        ∧ t.array.prev = s.array.prev ∧ t.power = s.power)
    ∧ (s.array.phase = .inPass → s.array.running.bind (fun n => findBatch n s) = some b → s.array.passes ≤ s.array.pass + 1 →
      ∃ t, exec .passTail s = .next t ∧ t.array.running = none ∧ t.array.phase = .idle ∧ t.array.stim = []
        ∧ (s.power.field = .running → t.power.field = .armed) ∧ t.array.prev = s.array.prev)

/-- A descriptor becomes a batch, is issued, and runs its burst (the claims above). -/
def Obligations.BatchesIssue : Prop :=
  Claims.DescriptorBecomesABatch
  ∧ Claims.BadNumberStopsTheFetch
  ∧ Claims.DocentsIssue
  ∧ Claims.StimulusRefills
  ∧ Claims.BurstsAndPasses

/-- Boulevard words due at a step reach their ports (R110); while a pass waits for its neighbours its token goes out again on both mesh
links (R133); the array holds before a step whose block is missing (R134); a wait that lasts too long ends the array phase, makes the
batch indeterminate, sets MESH_TIMEOUT and raises an event (R136). -/
def Sys2Proof.Claims.ExchangeSteps : Prop :=
  ∀ (j : Nat) (b : Batch) (s : State),
    (s.array.phase = .inPass → j < schedLength s →
      ∃ t, exec (.boulevardDelivery j) s = .next t
        ∧ (∀ w ∈ s.array.flight, w.step = j → w.gallery < galleryCount s → galleryInUse w.gallery s = true → w ∈ t.array.rx)
        ∧ t.array.flight = s.array.flight.filter (fun w => decide (j < w.step))
        ∧ t = { s with array := { s.array with rx := t.array.rx, flight := t.array.flight } })
    ∧ (awaitsToken s = true → schedMesh s = true →
      exec .tokenResend s = .next { s with array := { s.array with
        sentToken := some (meshBatch s, BitVec.ofNat 12 s.array.pass)
        meshBlocksSent := s.array.meshBlocksSent ++ [(.m0, tokenBlock s.array.pass s), (.m1, tokenBlock s.array.pass s)] } })
    ∧ (s.array.phase = .inPass → s.array.step = j → j < schedLength s → meshReady j s = false →
      exec (.meshHold j) s = .next (putArrayBit 13 true { s with array := { s.array with meshWaiting := true } }))
    ∧ (awaitsToken s = true → hasMesh s = true → s.array.running.bind (fun n => findBatch n s) = some b →
      ∃ t detail, exec .meshTimeout s = .next t ∧ faultSet fcMeshTimeout t ∧ eventSent evFault fcMeshTimeout detail s t
        ∧ indetBy 4 s t ∧ t.array.running = none ∧ t.array.phase = .idle)

/-- Blocks on a mesh link (R125, R131, R137): a block that fails its CRC is discarded and counted with MESH_ERROR; a token is kept as the
neighbour's last one; a step block is held for its due step with its words. -/
def Sys2Proof.Claims.MeshBlocks : Prop :=
  ∀ (l : MLink) (blk : Block) (s : State), hasMesh s = true →
    (blockCrcOk blk = false → exec (.passTokenReceive l blk) s = exec (.meshBlockReceive l blk true) s
      ∧ ∃ t, exec (.meshBlockReceive l blk true) s = .next t ∧ faultSet fcMeshError t
        ∧ t.array = { s.array with meshBlockErrors := satInc s.array.meshBlockErrors })
    ∧ (blockCrcOk blk = true → blockKind blk = 2 → ∃ t k, exec (.passTokenReceive l blk) s = .next t ∧ tokenOf l t = some k
        ∧ k.batch = blockBatch blk ∧ k.pass = blockPass blk ∧ k.position = lget 0 (blockWords blk) 0)
    ∧ (blockCrcOk blk = true → blockKind blk = 1 → blockStep blk = 0 →
        s.array.meshHeld.any (fun h => h.link = l && h.batch = blockBatch blk && h.pass = blockPass blk && h.step = 0) = false →
        ∃ t, exec (.meshBlockReceive l blk true) s = .next t
          ∧ t.array.meshHeld = s.array.meshHeld
            ++ [⟨l, blockBatch blk, blockPass blk, 0, blockWords blk, blockPoison blk, false⟩])

/-- Boulevard and mesh words, tokens, blocks and waits (the claims above). -/
def Obligations.BoulevardAndMesh : Prop :=
  Claims.ExchangeSteps
  ∧ Claims.MeshBlocks

/-! ### Egress and the unload -/

/-- A batch goes on egress at its first pattern, in the phase of its mode, at the boundary work's end (R157, R169); a pattern that waits to
unload is flushed in a load phase of its own, and its rows become due (R158, R164). -/
def Sys2Proof.Claims.EgressBegins : Prop :=
  ∀ (b : Batch) (s : State),
    (nextEgress (settle s) = some b → egressReady b (settle s) = true →
      ∃ t, exec .egressBegin s = .next t ∧ t.egress.batch = some b.d.batch ∧ t.egress.pattern = 0 ∧ t.egress.cycle = 0
        ∧ t.egress.phase = (if b.mode = 1#2 then EgressPhase.load else EgressPhase.emul)
        ∧ ∃ b' ∈ t.batches, b'.d = b.d ∧ b'.egressBegun = true ∧ b'.firstEgress = (settle s).power.fclk)
    ∧ (waitingBatch s = some b → s.egress.phase = .hold → b.burstDone = true → flushDue b s = true → egressPaused s = false →
        s.egress.rerunFrom = none →
      exec .flushLoad s = .next { s with
        egress := { s.egress with phase := .flush, cycle := 0, batch := some b.d.batch, waitingUnload := none }
        unload := { s.unload with due := s.unload.due ++ captureRows b (b.d.patterns - 1) b.d.shiftDiv s } })

/-- One egress cycle (R154, R173, R249, R252, R255): a link that is up at its full rate takes one word for each lane that carries words, with
that lane's channel bits; a link that is not up takes none; with a pause in force the phase stands still and every row not yet taken
moves one cycle later. -/
def Sys2Proof.Claims.EgressCycle : Prop :=
  ∀ s : State, linkIsUp .f1 s = false → egressBatch s = none → s.twin.role ≠ .mirror → s.twin.switchoverFrames = 0 →
    (linkIsUp .f0 s = true → halfRate .f0 s = false → egressPaused s = false → ∃ t, exec .egressWord s = .next t
      ∧ t.link0.word = (if s.link0.word = 255 then 0 else s.link0.word + 1)
      ∧ ∀ i, i < 32 → laneCarries (lane .f0 i s) = true → ∃ side,
          (0, i, slotWord (laneBits .f0 i (decide ((lane .f0 i s).state = .lost)) s) side) ∈ t.egress.taken)
    ∧ (linkIsUp .f0 s = false → egressPaused s = true → ∃ t, exec .egressWord s = .next t ∧ t.egress = { s.egress with taken := [], shift := s.egress.shift + 1 }
      ∧ t.unload.due = s.unload.due.map (fun r => if s.power.fclk + s.coffset ≤ r.presentAt then
          { r with presentAt := r.presentAt + 1 } else r))
    ∧ (linkIsUp .f0 s = false → egressPaused s = false → exec .egressWord s = .next { s with egress := { s.egress with taken := [] } })

/-- A valid channel word travels with both parities (R252): the slot word that carries it has each parity bit equal to the XOR of its
channel bits and the side bit, so any single changed channel bit breaks one of them. -/
def Sys2Proof.Claims.SlotWordParity : Prop :=
  ∀ (ch : DWord) (side : Bool),
    (slotWord ch side).extractLsb' 0 32 = ch
    ∧ (slotWord ch side).getLsbD 33 = (oddParity ch != side) ∧ (slotWord ch side).getLsbD 32 = (evenParity ch != side)
    ∧ ∀ i, i < 32 → oddParity (ch ^^^ BitVec.twoPow 32 i) ≠ oddParity ch ∨ evenParity (ch ^^^ BitVec.twoPow 32 i) ≠ evenParity ch

/-- Rows and deliveries (R160, R163, R170, R172): a due row of a capture-mode batch is read with the value of its expected streams; a
delivery counts one more, and one whose pass has not ended in time makes the batch indeterminate and sets CYCLE_LATE; the end of a
batch's last compare cycle releases its bank or half. -/
def Sys2Proof.Claims.RowsAndDeliveries : Prop :=
  ∀ (r : RowDue) (rest : List RowDue) (b : Batch) (s : State),
    (s.unload.due = r :: rest → findBatch r.batch s = some b → b.mode = 1#2 → r.presentAt ≤ s.power.fclk + 3 →
      (∀ k, k < b.nstream → recordReadEffects b.d.batch (mapEntryAddr b r.row k) 4 s = s
        ∧ csUe (mapEntryAddr b r.row k) 4 s.store = false) →
      ∃ t, exec .rowRead s = .next t
        ∧ t.unload = { s.unload with due := rest, read := s.unload.read ++ [(r, rowEs b r s)] } ∧ t.egress = s.egress)
    ∧ (s.batches.find? (fun b => deliveryDue b s) = some b → findBatch b.d.batch s = some b →
      (deliveryLate b s = false → exec .delivery s
        = .next (modBatch b.d.batch (fun b => { b with delivered := b.delivered + 1 }) s))
      ∧ (deliveryLate b s = true → ∃ t detail, exec .delivery s = .next t ∧ faultSet fcCycleLate t
        ∧ eventSent evFault fcCycleLate detail s t
        ∧ (b.verdictsFormed = false → ∀ x, x < siteCount s → ∃ b' ∈ t.batches, b'.d.batch = b.d.batch
            ∧ b'.causes.contains (x, 8) = true)))
    ∧ (s.batches.find? (fun b => !b.comparesDone && comparesOver b s) = some b →
      exec .bankRelease s = .next { modBatch b.d.batch (fun b => { b with comparesDone := true, compareEnd := s.power.fclk }) s with
        array := { s.array with halves := s.array.halves.filter (fun h => decide (h.1 ≠ b.d.batch)) } })

/-- A Docent's stop line stops egress, and egress goes on once every stopped Docent has been resumed (R173); nothing else changes. -/
def Sys2Proof.Claims.StopAndResume : Prop :=
  ∀ s : State,
    (s.fabric.stopA = true → exec (.docentStop .a) s
      = .next { s with egress := { s.egress with stopped := true, stopA := true, resumedA := false } })
    ∧ (s.fabric.stopB = true → exec (.docentStop .b) s
      = .next { s with egress := { s.egress with stopped := true, stopB := true, resumedB := false } })
    ∧ (s.egress.stopped = true → s.egress.stopA = true → s.egress.stopB = false → s.fabric.resumeA = true →
      exec .docentResume s = .next { s with egress := { s.egress with
        stopped := false, stopA := false, stopB := false, resumedA := false, resumedB := false } })
    ∧ (s.egress.stopped = true → s.egress.stopA = true → s.egress.resumedA = false → s.fabric.resumeA = false →
      ∃ t, exec .docentResume s = .next t ∧ t.egress.stopped = true)

/-- Egress cycles, slot words, rows and deliveries (the claims above). -/
def Obligations.EgressRuns : Prop :=
  Claims.EgressBegins
  ∧ Claims.EgressCycle
  ∧ Claims.SlotWordParity
  ∧ Claims.RowsAndDeliveries
  ∧ Claims.StopAndResume

/-! ### The fabric and its Vaults -/

/-- An FCLK cycle (R185, R190, R191, R217, R225, R235): the cycle number moves on; the stored bit and the output of every macrocell are
the ones that its register mode, reset and preset give; an Avenue with one enabled driver carries that driver's registered value, and
one with none, or with more than one, carries 0. Before the resets stage the stored bits are held. -/
def Sys2Proof.Claims.FabricCycles : Prop :=
  ∀ s : State, fclkRuns s = true →
    let s1 := presentRows (nextCycle s)
    ∃ t, exec .fabricCycle s = .next t ∧ t.power.fclk = s.power.fclk + 1
      ∧ (∀ a, a < 768 →
        (avenueDrivers a s = [] → t.fabric.avenueRx.getLsbD a = false)
        ∧ (2 ≤ (avenueDrivers a s).length → t.fabric.avenueRx.getLsbD a = false)
        ∧ (∀ x, avenueDrivers a s = [x] → t.fabric.avenueRx.getLsbD a = (lget 0 s.fabric.avenueDrv x.1).getLsbD x.2))
      ∧ (∀ b m, b < 128 → m < 32 →
        let c := mcConfig (cfgFrame b 21 s) m
        let inp := lget 0 t.fabric.inputs b
        let term (j : Nat) : Bool := decide (j < 160) && blockTerm b j (literals inp) s
        let h (j : Nat) : Bool := term (5 * m + j)
        let sum := if memMode b s && decide (m < 16) then (memWord b (memReadAddr inp) s).getLsbD m else sumTerm c m term
        let d := sum != xorInput c (h 0)
        let st := (lget 0 s.fabric.stored b).getLsbD m
        let out := (lget 0 t.fabric.mcOut b).getLsbD m
        let next := (lget 0 t.fabric.stored b).getLsbD m
        let r := netSel c.rstSel (grnAsserted 0 s1) (grnAsserted 1 s1) (h 2)
        let p := netSel c.setSel (grnAsserted 0 s1) (grnAsserted 1 s1) (h 3)
        let clk := if c.clkSel < 4 then t.fabric.ctEdges.getLsbD c.clkSel
          else decide (c.clkSel = 4) && h 1 && !(lget 0 s.fabric.edge b).getLsbD m
        let update := clk && (!c.ceSel || h 4)
        (s.released.resets = false → next = c.init)
        ∧ (s.released.resets = true →
          (r = true → out = false ∧ next = false)
          ∧ (r = false → p = true → out = true ∧ next = true)
          ∧ (r = false → p = false →
            (c.regMode = 0 → out = d ∧ next = st)
            ∧ (c.regMode = 1 → out = st ∧ next = if update then d else st)
            ∧ (c.regMode = 2 → out = st ∧ next = if update then st != d else st)
            ∧ (c.regMode = 3 → out = (if h 1 then d else st) ∧ next = if h 1 then d else st))))
      ∧ t.batches = s.batches ∧ t.regs = s.regs ∧ t.store = s.store ∧ t.array = s.array

/-- A block memory write (R196): the word at the sampled address takes the sampled data; no other word of the block, and nothing else,
changes. Without a write sampled nothing changes. -/
def Sys2Proof.Claims.BlockMemoryWrites : Prop :=
  ∀ (b : Nat) (s : State),
    (∀ a v, memWrite b s = some (a, v) →
      ∃ t, exec (.blockMemoryWrite b) s = .next t ∧ (memWord b a t).toNat = v
        ∧ (∀ k, k < 32 → k ≠ a → memWord b k t = memWord b k s)
        ∧ t = { s with fabric := { s.fabric with frames := tset 0 s.fabric.frames (48 * b) (cfgFrame b 0 t) } })
    ∧ (memWrite b s = none → exec (.blockMemoryWrite b) s = .next s)

/-- Contention on an Avenue (R236 to R238): its first cycle sets CONTENTION, raises an event that names the Avenue, and has every driver
frame of that row or column checked; its end gives every associated site of each batch that it touched a suspect window. -/
def Sys2Proof.Claims.AvenuesContend : Prop :=
  ∀ (a : Nat) (s : State), a < 768 →
    (2 ≤ (avenueDrivers a s).length → s.fabric.contended.contains a = false →
      ∃ t, exec (.avenueContention a) s = .next t ∧ t.fabric.contended.contains a = true ∧ faultSet fcContention t
        ∧ eventSent evFault fcContention a s t ∧ (∀ f ∈ driverFrames a, t.fabric.driverCheck.contains f = true)
        ∧ tget 0 t.fabric.contendSince a = s.power.fclk ∧ t.twin.faultSinceCommit = true)
    ∧ (s.fabric.contended.contains a = true → (avenueDrivers a s).length ≤ 1 →
      let since := tget 0 s.fabric.contendSince a
      ∃ t, exec (.contentionEnd a) s = .next t ∧ t.fabric.contended = ndel s.fabric.contended a
        ∧ (s.batches.filter (touchedBy since) = [] →
          t = { s with fabric := { s.fabric with
            contended := ndel s.fabric.contended a, contendSince := tdel s.fabric.contendSince a } })
        ∧ (∀ b x, s.batches = [b] → touchedBy since b = true → b.firstEgress ≤ since → x ∈ avenueSites a s →
          ∃ b' ∈ t.batches, b'.d = b.d ∧ ∃ w ∈ b'.windows, w.site = x ∧ w.source = 3))

/-- A Vault in RAM mode (R213, R216): a write stores the sampled word at its address and changes no other word; a read of a word whose
check bits agree presents it and changes no word; a correctable error presents the corrected word with CE; an uncorrectable one the
word as stored with UE, and sets VAULT_UE. -/
def Sys2Proof.Claims.VaultRam : Prop :=
  ∀ (v : Nat) (s : State),
    let p := sampleOf v s
    let x := vaultState v s
    let r := vaultDecode p.word p.devHigh p.devLow
    vaultMode v s = 1 → vaultTakes v s = true →
    (p.we = true → p.wrote = false →
      ∃ t, exec (.vaultWrite v) s = .next t ∧ t = setSample v { p with wrote := true } (putVaultWord v p.waddr p.wdata s)
        ∧ tget 0 t.fabric.vaultWords (2048 * v + p.waddr) = p.wdata
        ∧ ∀ k, k ≠ 2048 * v + p.waddr → tget 0 t.fabric.vaultWords k = tget 0 s.fabric.vaultWords k)
    ∧ (p.re = true → p.fetched = false →
      (p.devHigh = 0 → p.devLow = 0 → exec (.vaultRead v) s
        = .next (setSample v { p with fetched := true } (setVault v { x with rdata := p.word, ce := false, ue := false } s)))
      ∧ (v < s.fabric.vaults.length → ∃ t, exec (.vaultRead v) s = .next t
        ∧ (r.1.1 ≠ .uncorrectable → r.2.1 ≠ .uncorrectable → (vaultState v t).rdata = r.1.2 ++ r.2.2
          ∧ (vaultState v t).ue = false ∧ (vaultState v t).ce = (decide (r.1.1 ≠ .clean) || decide (r.2.1 ≠ .clean)))
        ∧ (r.1.1 = .uncorrectable ∨ r.2.1 = .uncorrectable → (vaultState v t).rdata = p.word ∧ (vaultState v t).ue = true
          ∧ (vaultState v t).ce = false ∧ faultSet fcVaultUe t)))

/-- Vault queues (R214, R215): a push with room stores at the write pointer and counts one more, a full queue sets OVF; a pop with a
word presents it and counts one less, an empty queue sets UDF and presents 0; CLR clears the count, the pointers and the flags; the
selected reset refuses both without a flag. -/
def Sys2Proof.Claims.VaultQueues : Prop :=
  ∀ (v : Nat) (s : State),
    let p := sampleOf v s
    let x := vaultState v s
    (queueTakes v s = true → p.we = true → p.wrote = false →
      (p.count < 2048 ∨ (p.re = true ∧ 0 < p.count) → vaultMode v s = 2 ∨ p.re = false ∨ p.count = 0 → exec (.vaultPush v) s
        = .next (setSample v { p with wrote := true } (setVault v { x with
            count := x.count + 1, wptr := (p.wptr + 1) % 2048 } (putVaultWord v p.wptr p.wdata s))))
      ∧ (p.count = 2048 → p.re = false → exec (.vaultPush v) s
        = .next (setSample v { p with wrote := true } (setVault v { x with ovf := true } s)))
      ∧ (vaultMode v s = 3 → p.re = true → 0 < p.count → exec (.vaultPush v) s
        = .next (setSample v { p with wrote := true } (setVault v { x with count := x.count + 1 } (putVaultWord v p.place p.wdata s)))))
    ∧ (queueTakes v s = true → p.re = true → p.fetched = false →
      (p.count = 0 → exec (.vaultPop v) s
        = .next (setSample v { p with fetched := true } (setVault v { x with udf := true, rdata := 0 } s)))
      ∧ (0 < p.count → p.devHigh = 0 → p.devLow = 0 → v < s.fabric.vaults.length →
        ∃ t, exec (.vaultPop v) s = .next t ∧ (vaultState v t).rdata = p.word ∧ (vaultState v t).count = x.count - 1
          ∧ (vaultMode v s = 2 → (vaultState v t).rptr = (x.rptr + 1) % 2048 ∧ (vaultState v t).wptr = x.wptr)
          ∧ (vaultMode v s = 3 → p.we = false → (vaultState v t).wptr = (x.wptr + 2047) % 2048)
          ∧ t.fabric.vaultWords = s.fabric.vaultWords ∧ t.regs = s.regs))
    ∧ (queueMode (vaultMode v s) = true → p.edge = true → p.clr = true → exec (.vaultClr v) s
        = .next (setVault v { x with count := 0, wptr := 0, rptr := 0, ovf := false, udf := false } s))
    ∧ (queueMode (vaultMode v s) = true → p.held = true →
        exec (.vaultPush v) s = .next s ∧ exec (.vaultPop v) s = .next s)

/-- A fabric cycle, Avenue contention and the Vaults (the claims above). -/
def Obligations.FabricAndVaults : Prop :=
  Claims.FabricCycles
  ∧ Claims.BlockMemoryWrites
  ∧ Claims.AvenuesContend
  ∧ Claims.VaultRam
  ∧ Claims.VaultQueues

/-! ### Field links -/

/-- An ingress word (R253, R256, R278): on an up lane a valid word brings each channel bit to its port with the qualifier at 1 and nothing
else changes but the lane; a word-check error holds every slot, sets LINK_WORD and counts; a lane whose partner is lost holds. -/
def Sys2Proof.Claims.IngressWords : Prop :=
  ∀ (l : FLink) (i : Nat) (w : BitVec 34) (s : State),
    let named (e : Nat × QWord) : Prop := e ∈ validEntries s.inForce.catalogue ∧ catLink e.2 = l ∧ catLane e.2 = i
      ∧ roleIngress (catRole e.2) = true
    ((lane l i s).state = .up → (∃ b, sideBit w = some b) →
      ∃ t, exec (.ingressWord l i w) s = .next t
        ∧ (∀ e, named e → (∀ e', named e' → catPort e'.2 = catPort e.2 → e' = e) →
          tget false t.fabric.ingress (catPort e.2) = w.getLsbD (catSlot e.2) ∧ tget false t.fabric.qualifier (catPort e.2) = true)
        ∧ t = setFlink l (flink l t)
            { s with fabric := { s.fabric with ingress := t.fabric.ingress, qualifier := t.fabric.qualifier } })
    ∧ ((lane l i s).state = .up → sideBit w = none → (lane l i s).handed = true ∨ atBoundary s = false →
        i < (flink l s).lanes.length →
      ∃ t, exec (.ingressWord l i w) s = .next t ∧ faultSet fcLinkWord t ∧ t.fabric.ingress = s.fabric.ingress
        ∧ (∀ e, named e → tget false t.fabric.qualifier (catPort e.2) = false)
        ∧ (lane l i t).wordErrors = satInc (lane l i s).wordErrors)
    ∧ ((lane l i s).state = .lost ∨ (lane l i s).state = .failed → exec (.ingressWord l i w) s = .next (holdLane l i s))

/-- The frame checks (R260, R261, R278): a frame CRC that agrees changes no register; one that does not, or a lost quarter 0, sets
LINK_CRC and counts; a lost quarter is counted on its lane; after four bad quarters the side-channel lock is lost. -/
def Sys2Proof.Claims.FrameChecks : Prop :=
  ∀ (l : FLink) (i : Nat) (q : QWord) (echo64 quarter : Nat) (ok : Bool) (c : Word) (s : State),
    i < (flink l s).lanes.length →
    ((lane l i s).state = .up → qIs 1 q = true → (lane l i s).prevCrc = some c →
      (fld (qData q) 31 16 = c.toNat → ∃ t, exec (.frameCrc l i q echo64) s = .next t
        ∧ (lane l i t).crcErrors = (lane l i s).crcErrors ∧ (lane l i t).framesSeen = (lane l i s).framesSeen + 1
        ∧ t = setFlink l (flink l t) s)
      ∧ (fld (qData q) 31 16 ≠ c.toNat → (lane l i s).handed = true ∨ atBoundary s = false →
        ∃ t, exec (.frameCrc l i q echo64) s = .next t ∧ faultSet fcLinkCrc t
          ∧ (lane l i t).crcErrors = satInc (lane l i s).crcErrors))
    ∧ (laneListens (lane l i s) = true →
      (quarter ≠ 0 → ∃ t, exec (.quarterLost l i quarter ok) s = .next t
        ∧ (lane l i t).quarterErrors = satInc (lane l i s).quarterErrors ∧ t = setFlink l (flink l t) s)
      ∧ ((lane l i s).state = .up → (lane l i s).prevCrc = some c → (lane l i s).handed = true ∨ atBoundary s = false →
        ∃ t, exec (.quarterLost l i 0 ok) s = .next t ∧ faultSet fcLinkCrc t
          ∧ (lane l i t).quarterErrors = satInc (lane l i s).quarterErrors))
    ∧ (4 ≤ (lane l i s).badQuarters → (lane l i s).sideLock = true →
      exec (.sideChannelLockLoss l i) s = .next (setLane l i { lane l i s with sideLock := false } s))

/-- STATUS of a partner (R263, R265, R278): one without errors leaves the batches alone; egress errors that it reports give each ingress
site of the lane a suspect window in a batch over that frame; in step 6 the count sent ends the step. -/
def Sys2Proof.Claims.StatusArrives : Prop :=
  ∀ (l : FLink) (i : Nat) (q : QWord) (s : State), i < 32 → i < (flink l s).lanes.length → qIs 2 q = true →
    ((lane l i s).state = .up → (lane l i s).applyFrame = none →
      (fld (qData q) 31 24 = 0 → (qData q).getLsbD 23 = false → ∃ t, exec (.status l i q) s = .next t
        ∧ (lane l i t).alarm = (qData q).getLsbD 22 ∧ t = setFlink l (flink l t) s)
      ∧ (fld (qData q) 31 24 ≠ 0 ∨ (qData q).getLsbD 23 = true → ∀ b x, s.batches = [b] → b.egressBegun = true →
        b.verdictsFormed = false → b.comparesDone = false → x ∈ ingressSites l i s →
        b.firstEgress < egressFrameStart l ((qFrame q + 63) % 64) s + frameLen l s →
        ∃ t, exec (.status l i q) s = .next t ∧ t.twin.faultSinceCommit = true
          ∧ ∃ b' ∈ t.batches, b'.d = b.d ∧ ∃ w ∈ b'.windows, w.site = x ∧ w.source = 1))
    ∧ ((lane l i s).state = .training → (lane l i s).step = 7 → fld (qData q) 21 14 = (lane l i s).configSent →
      ∃ t, exec (.status l i q) s = .next t ∧ (lane l i t).step = 8 ∧ t = setFlink l (flink l t) s)

/-- Ingress words, frame checks and partner STATUS (the claims above). -/
def Obligations.LinksReceive : Prop :=
  Claims.IngressWords
  ∧ Claims.FrameChecks
  ∧ Claims.StatusArrives

/-- Training (R262, R264 to R266): it begins on every enabled lane; word lock ends step 1, side-channel lock step 2, four descriptor
parts seen twice step 3, where no channel or a changed descriptor fails the lane; no load at step 1 leaves a lane absent, a later
limit fails it; with every lane at its end the link is up. -/
def Sys2Proof.Claims.LinksTrain : Prop :=
  ∀ (l : FLink) (i : Nat) (q : QWord) (s : State), i < 32 → i < (flink l s).lanes.length →
    let x := lane l i s
    let alone := ∀ j, j ≠ i → (lane l j s).state ≠ .training
    (atBoundary (settle s) = true → linkNamed l (settle s) = true → (flink l (settle s)).retrainDue = true →
      linkState l (settle s) ≠ 1 → loaded (settle s) = true → armed (settle s) = true → ioDisabled (settle s) = false →
      ∃ t, exec (.linkTrain l) s = .next t ∧ linkState l t = 1
        ∧ ∀ j, j < 32 → laneEnabled l j (settle s) = true → (lane l j (settle s)).failedByDecision = false →
          (lane l j t).state = .training ∧ ((lane l j t).step = 1 ∨ (lane l j t).step = 2)
          ∧ ((flink l (settle s)).fullDue = true → (lane l j t).step = 1))
    ∧ (x.state = .training → x.step = 1 → x.sideLock = false →
      exec (.wordLock (.fieldLane l i)) s = .next (setLane l i { x with wordLock := true, step := 2 } s))
    ∧ (x.state = .training → x.step = 2 → x.wordLock = true → 3 ≤ x.goodQuarters → qIs 3 q = true →
      advances x (qFrame q) (qQuarter q) = true → (flink l s).fullDue = true →
      ∃ t, exec (.train l i q) s = .next t ∧ (lane l i t).step = 3 ∧ (lane l i t).partnerStep = fld (qData q) 31 28
        ∧ t = setFlink l (flink l t) s)
    ∧ (x.state = .training → x.step = 3 → x.descDone = false → qIs 4 q = true →
      let y := descPart (qPart q) (qData q) (goodQuarter (qFrame q) (qQuarter q) x)
      (y.descTwice.length ≠ 4 → exec (.desc l i q) s = .next (setLane l i y s))
      ∧ (y.descTwice.length = 4 → alone →
        (dChannels (descOf y) = 0 → ∃ t, exec (.desc l i q) s = .next t ∧ (lane l i t).state = .failed ∧ faultSet fcPartnerLost t)
        ∧ (dChannels (descOf y) ≠ 0 → (∃ old, x.descriptor = some old ∧ old ≠ descOf y) →
          ∃ t, exec (.desc l i q) s = .next t ∧ (lane l i t).state = .failed ∧ faultSet fcLinkTrain t)))
    ∧ (x.state = .training → alone →
      (x.step = 1 → laneSites l i s = [] →
        exec (.trainingStepTimeout l i) s = .next (setLane l i { x with state := .absent } s))
      ∧ (1 < x.step → x.step < 8 → ∃ t, exec (.trainingStepTimeout l i) s = .next t ∧ (lane l i t).state = .failed
        ∧ faultSet fcPartnerLost t))
    ∧ (linkState l s = 1 → (trainingLanes l s).all (fun x => decide (x.2.step = 8)) = true →
      ∃ t, exec (.linkUp l) s = .next t ∧ 2 ≤ linkState l t ∧ (flink l t).retrainDue = false ∧ (flink l t).frame = 0
        ∧ (flink l t).word = 0 ∧ (flink l t).egStart = s.power.fclk ∧ (flink l t).everTrained = true
        ∧ (x.state = .training → (lane l i t).state = .up) ∧ t.batches = s.batches)

/-- Word lock on a mesh lane and on a lane of link T is the lane's alone; T is up with its eighth lane (R125, R351, R377). -/
def Sys2Proof.Claims.OtherLanesLock : Prop :=
  ∀ (m : MLink) (i : Nat) (s : State),
    (hasMesh s = true → armed s = true → i < 12 → ∃ t, exec (.wordLock (.meshLane m i)) s = .next t
      ∧ (m = .m0 → t = { s with array := { s.array with meshLock0 := nins s.array.meshLock0 i } })
      ∧ (m = .m1 → t = { s with array := { s.array with meshLock1 := nins s.array.meshLock1 i } }))
    ∧ (hasTwin s = true → armed s = true → i < 8 → s.twin.tUp = false →
      ((nins s.twin.lanesLocked i).length ≠ 8 → exec (.wordLock (.twinLane i)) s
        = .next { s with twin := { s.twin with lanesLocked := nins s.twin.lanesLocked i } })
      ∧ ((nins s.twin.lanesLocked i).length = 8 → s.twin.role ≠ .solo → ∃ t, exec (.wordLock (.twinLane i)) s = .next t
        ∧ t.twin = { s.twin with lanesLocked := nins s.twin.lanesLocked i, tUp := true } ∧ t.regs.twinStatus.getLsbD 10 = true))

/-- Partners (R281, R282): a lost partner's lane holds, every batch issued or in progress takes an indeterminate verdict for its sites,
PARTNER_LOST sets and an event goes out; a retry that fails changes nothing, one that would move C ends the attempts, and one that
succeeds has the lane rejoin at the next boundary. -/
def Sys2Proof.Claims.PartnersComeAndGo : Prop :=
  ∀ (l : FLink) (i : Nat) (s : State), i < (flink l s).lanes.length →
    let x := lane l i s
    (x.state = .up → ∃ t detail, exec (.partnerLost l i) s = .next t ∧ (lane l i t).state = .lost
      ∧ (lane l i t).lostCount = satInc x.lostCount ∧ faultSet fcPartnerLost t
      ∧ eventSent evFault fcPartnerLost detail s t
      ∧ (∀ b x, findBatch b.d.batch s = some b → issued b = true → b.verdictsFormed = false → x ∈ laneSites l i s →
        ∃ b' ∈ t.batches, b'.d.batch = b.d.batch ∧ b'.causes.contains (x, 9) = true)
      ∧ ∀ e ∈ validEntries s.inForce.catalogue, catLink e.2 = l → catLane e.2 = i → roleIngress (catRole e.2) = true →
        tget false t.fabric.qualifier (catPort e.2) = false)
    ∧ (x.state = .lost → x.stopRetry = false → x.rejoinDue = false → 2 ≤ linkState l s →
      exec (.partnerRetry l i none) s = .next s
      ∧ ∀ n, (x.alarm = true → exec (.partnerRetry l i (some n)) s = .next s)
        ∧ (x.alarm = false → offsetWith l i n s ≠ s.coffset →
          exec (.partnerRetry l i (some n)) s = .next (setLane l i { x with stopRetry := true } s))
        ∧ (x.alarm = false → offsetWith l i n s = s.coffset → atBoundary s = false →
          exec (.partnerRetry l i (some n)) s = .next
            { setLane l i { x with echo64 := n, rejoinDue := true, wordLock := true, sideLock := true } s with alignDue := true }))

/-- Training, word lock, and partners lost and regained (the claims above). -/
def Obligations.LinksTrain : Prop :=
  Claims.LinksTrain
  ∧ Claims.OtherLanesLock
  ∧ Claims.PartnersComeAndGo

/-- Aligning every channel (R274, R275): the alignment applied at a batch boundary gives C = max RT + 1 and brings every lane to the same
delivery cycle and the same drive edge: RPAD and RT have one sum over the lanes of both links, and so have the delay and s. -/
def Sys2Proof.Claims.AlignmentIsCommon : Prop :=
  ∀ s : State,
    let s0 := settle s
    let all := alignLanes .f0 s0 ++ alignLanes .f1 s0
    s0.alignDue = true → atBoundary s0 = true → linkState .f0 s0 ≠ 1 → linkState .f1 s0 ≠ 1 → all ≠ [] →
    (∀ x ∈ all, beyondLimits all x = false) → maxRt all + 1 ≤ 255 →
    ∃ t, exec .alignmentApply s = .next t ∧ t.alignDue = false ∧ t.coffset = maxRt all + 1
      ∧ fld t.regs.linkStatus 15 8 = maxRt all + 1
      ∧ ∀ x ∈ all, (lane x.link x.i t).rpad + x.rt = maxRt all
        ∧ ((lane x.link x.i t).delay64 : Int) + x.s64 = 64 * wireMax all

/-- Drift and re-measurement (R276, R389): drift below 16/64 changes nothing, from 16/64 it sets LINK_DRIFT, and from 24/64 the lane is
suspect and its link due to retrain; a re-measurement that ends gives the up lanes their new echo times, to be applied at the next
boundary. -/
def Sys2Proof.Claims.DriftIsMeasured : Prop :=
  ∀ (l : FLink) (i : Nat) (d : Int) (es : List (Nat × Nat)) (s : State), i < (flink l s).lanes.length →
    ((lane l i s).state = .up →
      (d.natAbs < 16 → exec (.arrivalDrift l i d) s = .next s)
      ∧ (16 ≤ d.natAbs → ∃ t, exec (.arrivalDrift l i d) s = .next t ∧ faultSet fcLinkDrift t
        ∧ (24 ≤ d.natAbs → (lane l i t).suspectFrom.isSome = true ∧ (linkNamed l s = true → (flink l t).retrainDue = true))))
    ∧ ((flink l s).remeasureDue = true → 2 ≤ linkState l s →
      ∃ t, exec (.remeasurementDone l es) s = .next t ∧ (flink l t).remeasureDue = false ∧ t.alignDue = true
        ∧ (∀ e, es.find? (fun e => e.1 = i) = some e → i < 32 → (lane l i s).state = .up → (lane l i t).echo64 = e.2)
        ∧ t.regs.surveyStatus.getLsbD 3 = (flink (otherLink l) s).remeasureDue ∧ t.coffset = s.coffset)

/-- Alignment brings every lane to one cycle and edge; drift and re-measurement (the claims above). -/
def Obligations.LinksAlign : Prop :=
  Claims.AlignmentIsCommon
  ∧ Claims.DriftIsMeasured

/-! ### Fail records -/

/-- A link's queue (R294 to R297): offered records enter in ascending CHANNEL and SITE order; one that finds the queue full is lost and
counted for its site, and its gap takes the place; the gap record enters when space allows, with the count, and sets OVERFLOW. -/
def Sys2Proof.Claims.QueueTakesRecords : Prop :=
  ∀ (l : FLink) (s : State),
    let q := ledger l s
    (q.waiting = [] → q.gapsEntered = 0 → q.offered.length ≤ 4 → q.queue.length + q.offered.length ≤ 56 →
      ∃ rs, rs.Perm q.offered ∧ rs.Pairwise (fun a b => entryKey a ≤ entryKey b)
        ∧ exec (.recordEnter l) s = .next (setLedger l { q with offered := [], queue := q.queue ++ rs } s))
    ∧ (∀ r n b, q.waiting = [] → q.offered = [r] → 64 ≤ q.queue.length → r.batch = some n → findBatch n s = some b → b.lost = [] →
      ∃ t, exec (.recordEnter l) s = .next t ∧ (ledger l t).queue = q.queue ∧ (ledger l t).offered = []
        ∧ (ledger l t).waiting = [gapMarker n (recSite r.bits)]
        ∧ ∃ b' ∈ t.batches, b'.d = b.d ∧ b'.lost = [⟨recSite r.bits, 1, recPattern r.bits, recCycle r.bits⟩])
    ∧ (∀ site n x, gapReady l site s = some (n, x) →
      ∃ t, exec (.gapRecord l site) s = .next t ∧ (ledger l t).queue = q.queue ++ [gapRecord n x]
        ∧ t.regs.failStatus.getLsbD (linkNum l) = true
        ∧ (s.regs.failStatus.getLsbD (linkNum l) = false → eventSet evLedger t)
        ∧ (∀ b ∈ t.batches, b.d.batch = n → b.lost.any (fun y => y.site = x.site) = false))

/-- Passing on (R292, R294, R298): the next record takes its site's or its link's sequence number, which moves on by one, and joins the
records on their way after all the earlier ones; with no next record, or no room, none does. -/
def Sys2Proof.Claims.RecordsPassOn : Prop :=
  ∀ (l : FLink) (s : State),
    let q := ledger l s
    let way (s : State) : List QRec := (ledger l s).flying.map (fun f => f.qrec) ++ (ledger l s).ring.map (fun x => x.qrec)
    (∀ r, nextToPass l s = some r → q.ring.length < ringRecords l s → ∃ t, exec (.recordPassOn l) s = .next t
      ∧ way t = way s ++ [r] ∧ (ledger l t).queue = q.queue.erase r
      ∧ (isLinkRec r.bits = true → (ledger l t).linkSeq = q.linkSeq + 1 ∧ (ledger l t).seq = q.seq)
      ∧ (isLinkRec r.bits = false → (ledger l t).linkSeq = q.linkSeq
        ∧ tget 0 (ledger l t).seq (recSite r.bits) = tget 0 q.seq (recSite r.bits) + 1
        ∧ ∀ x, x ≠ recSite r.bits → tget 0 (ledger l t).seq x = tget 0 q.seq x))
    ∧ (nextToPass l s = none ∨ ringRecords l s ≤ q.ring.length → ∃ t, exec (.recordPassOn l) s = .next t ∧ way t = way s
      ∧ (ledger l t).queue = q.queue ∧ (ledger l t).seq = q.seq ∧ (ledger l t).linkSeq = q.linkSeq)

/-- The host die's DMA (R300, R301, R313): a record that has crossed is written to its slot of the host ring where there is room and is
held where there is none; a commit's writeback names the next index and the batch, and its bits of FAIL_STATUS set with it. -/
def Sys2Proof.Claims.RecordsReachTheHost : Prop :=
  ∀ (l : FLink) (bits : Record) (s : State),
    let q := ledger l s
    let c := channel l s
    (∀ f, q.flying = [f] → f.keep = true → q.crossed = [] → recKind bits ≠ 3 → recKind bits ≠ 7 → recKind bits ≠ 8 →
      (hostRoom c c.next = true → ∃ t, exec (.ledgerBatch l [bits]) s = .next t
        ∧ t.hostOut = s.hostOut ++ [.memWrite (c.base.toNat + 16 * (c.next % 2 ^ c.size.toNat)) (bytesOf 16 bits.toNat)]
        ∧ channel l t = { c with next := c.next + 1 } ∧ (ledger l t).crossed = [] ∧ (ledger l t).flying = [])
      ∧ (hostRoom c c.next = false → ∃ t, exec (.ledgerBatch l [bits]) s = .next t ∧ t.hostOut = s.hostOut ∧ channel l t = c
        ∧ (ledger l t).crossed = [{ f with bits := bits }] ∧ (ledger l t).flying = []))
    ∧ (∀ d rest, q.commitDue = d :: rest → ∃ t more, exec (.ledgerWriteback l) s = .next t
      ∧ t.hostOut = s.hostOut ++ .memWrite c.wb.toNat (bytesOf 8 (d.index % 2 ^ 32 * 2 ^ 32 + d.batch.toNat)) :: more
      ∧ (channel l t).lastWb = d.index ∧ (channel l t).lastWbBatch = d.batch ∧ (ledger l t).commitDue = rest
      ∧ (d.indet = true → t.regs.failStatus.getLsbD 2 = true) ∧ (d.retest = true → t.regs.failStatus.getLsbD 3 = true)
      ∧ (d.rerun = true → t.regs.failStatus.getLsbD 4 = true)
      ∧ t.regs.failStatus.getLsbD 0 = s.regs.failStatus.getLsbD 0)

/-- Verdicts and commit (R304, R305): an indeterminate cause, a window no fail precedes, a fail, and none of them give the verdicts 2, 3, 1
and 0; a link that commits places one verdict record for each of its sites in ascending order and then the commit record. -/
def Sys2Proof.Claims.LinksCommit : Prop :=
  (∀ (b : Batch) (site : Nat),
    ((∃ k, (site, k) ∈ b.causes) → verdictOf b site = 2)
    ∧ ((∀ c ∈ b.causes, c.1 ≠ site) →
      ((∃ w ∈ b.windows, w.site = site) →
        ((∀ f ∈ b.fails, f.1 = site → ∃ w ∈ b.windows, w.site = site ∧ w.first ≤ f.2.2) → verdictOf b site = 3)
        ∧ (∀ f, b.fails.find? (fun f => f.1 = site) = some f → (∀ w ∈ b.windows, w.site = site → f.2.2 < w.first) →
          verdictOf b site = 1))
      ∧ ((∀ w ∈ b.windows, w.site ≠ site) → ((∃ f ∈ b.fails, f.1 = site) → verdictOf b site = 1)
        ∧ ((∀ f ∈ b.fails, f.1 ≠ site) → verdictOf b site = 0))))
  ∧ (∀ (l : FLink) (b : Batch) (s : State), s.egress.rerunFrom = none → oldestOpen l s = some b → linkReady l b s = true →
      s.twin.role = .solo → s.twin.detachDue = false → jointly b s = false → rerunDecided b s = false →
      let s0 := ongoingWindows b s
      let b0 := (findBatch b.d.batch s0).getD b
      ∃ t, exec (.batchCommit l) s = .next t
        ∧ (ledger l t).waiting = (ledger l s0).waiting ++ (sitesOf l s0).map (verdictRecord b0) ++ [commitRecord b0 (sitesOf l s0)]
        ∧ (sitesOf l s0).Pairwise (fun x y => x < y)
        ∧ (∀ b' ∈ t.batches, b'.d.batch = b.d.batch → committedOn l b' = true ∧ b'.verdictsFormed = true))

/-- Records enter a queue in order, pass on, reach the host, and links commit (the claims above). -/
def Obligations.RecordsFlow : Prop :=
  Claims.QueueTakesRecords
  ∧ Claims.RecordsPassOn
  ∧ Claims.RecordsReachTheHost
  ∧ Claims.LinksCommit

/-! ### Twins -/

/-- Heartbeats and resends (R349, R350): a member with a valid lease sends its role, token, epoch, last batch and acknowledgement; one
without sends none; an unacknowledged block goes out again; a received heartbeat is taken up, and what it acknowledges leaves. -/
def Sys2Proof.Claims.TwinHeartbeats : Prop :=
  ∀ (role : BitVec 3) (token : Bool) (epoch : DWord) (last : Option DWord) (ack : Word) (join : DWord) (s : State),
    (hasTwin s = true → s.twin.leaseValid = true → exec .twinHeartbeatDue s
      = .next { s with twin := { s.twin with sent := s.twin.sent ++ [⟨0, .heartbeat (roleCode s.twin.role) s.twin.token s.twin.epoch
          (lastCommitted s) s.twin.recvTseq (s.twin.joinBatch.getD 0)⟩] } })
    ∧ (s.twin.leaseValid = false → exec .twinHeartbeatDue s = .next s)
    ∧ (∀ x rest, s.twin.unacked = x :: rest →
        exec .twinBlockResend s = .next { s with twin := { s.twin with sent := s.twin.sent ++ [x] } })
    ∧ (hasTwin s = true → s.twin.role ≠ .negotiating → s.twin.role ≠ .primary →
        exec (.twinHeartbeatReceive true role token epoch last ack join) s
          = .next { s with twin := { s.twin with
              peerRole := role, peerToken := token, peerEpoch := epoch, peerLast := last, peerJoin := join
              unacked := s.twin.unacked.filter (fun x => !decide ((ack - x.tseq).toNat < 2 ^ 15)) } })
    ∧ exec (.twinHeartbeatReceive false role token epoch last ack join) s = .next s

/-- The token (R351 to R353, R369): a lease renews only at an enabled member; its lapse releases the line and ends lockstep; a Mirror with
a valid lease takes the token once the line has read high, with a new epoch, and becomes Primary; no member takes it with the line low;
after the loss of T a Mirror that still reads it low leaves lockstep. -/
def Sys2Proof.Claims.TokenMoves : Prop :=
  ∀ s : State, hasTwin s = true →
    (coreRuns s.cores.warden = true → fieldAwake s = true → s.inForce.twinEnable = true → s.twin.role ≠ .detached →
      exec .leaseRenew s = .next { s with twin := { s.twin with leaseValid := true } })
    ∧ (s.twin.leaseValid = true → ∃ t, exec .leaseLapse s = .next t ∧ t.twin.token = false ∧ t.twin.leaseValid = false
        ∧ (inLockstep s = true → t.twin.role = .outOfLockstep ∧ t.regs.twinStatus.getLsbD 5 = true))
    ∧ (s.twin.leaseValid = true → s.twin.line = true → s.twin.token = false → s.twin.role = .mirror →
        (∀ b ∈ s.batches, issued b = true → committedBoth b = true) →
        ∃ t, exec .tokenTake s = .next t ∧ t.twin.token = true ∧ t.twin.line = false ∧ t.twin.role = .primary
          ∧ t.twin.epoch = (if s.twin.epoch.toNat < s.twin.peerEpoch.toNat then s.twin.peerEpoch else s.twin.epoch) + 1
          ∧ t.twin.switchoverFrames = 16 ∧ t.regs.twinStatus.getLsbD 4 = true)
    ∧ (s.twin.line = false → exec .tokenTake s = .next s)
    ∧ (s.twin.tUp = true → ∃ t, exec .tLost s = .next t ∧ t.twin.tUp = false ∧ t.twin.unacked = []
        ∧ t.regs.twinStatus.getLsbD 6 = true ∧ t.twin.token = s.twin.token
        ∧ (s.twin.role = .joining → t.twin.role = .outOfLockstep ∧ t.regs.twinStatus.getLsbD 8 = true))
    ∧ (s.twin.role = .mirror → s.twin.tUp = false → s.twin.line = false → ∃ t, exec .tokenWaitTimeout s = .next t
        ∧ t.twin.role = .outOfLockstep ∧ t.twin.token = false)

/-- Twin heartbeats, leases and the token (the claims above). -/
def Obligations.TwinToken : Prop :=
  Claims.TwinHeartbeats
  ∧ Claims.TokenMoves

/-- Capabilities and handover (R354 to R356, R368): a block in order is noted; the second one decides, and capabilities that differ set
MISMATCH and keep a member without the token out of lockstep; blocks out of order or damaged change nothing. -/
def Sys2Proof.Claims.CapabilitiesDecide : Prop :=
  ∀ (b : Block) (s : State), hasTwin s = true →
    let s1 := noteTseq s
    let s2 : State := { s1 with twin := { s1.twin with caps1 := some (twinBody b) } }
    (twinKind b = 2 → inOrder (twinCrcOk b) (twinTseq b) s = true →
      (twinAddr b = 0 → exec (.capabilityReceive b) s
        = .next { s1 with twin := { s1.twin with caps0 := some (twinBody b) } })
      ∧ (twinAddr b ≠ 0 → (capsMatch s2 = false ∨ dualPorted s2 = false) → ∃ t, exec (.capabilityReceive b) s = .next t
        ∧ t.regs.twinStatus.getLsbD 7 = true ∧ (s.twin.token = true → t.twin.role = s.twin.role)
        ∧ (s.twin.token = false → t.twin.role = .outOfLockstep))
      ∧ (twinAddr b ≠ 0 → capsMatch s2 = true → dualPorted s2 = true → s.twin.token = true ∨ s.twin.line = true →
        exec (.capabilityReceive b) s = .next { s2 with twin := { s2.twin with capsAgree := true } }))
    ∧ (twinKind b = 4 → inOrder (twinCrcOk b) (twinTseq b) s = true →
      (twinAddr b = 1 → exec (.handover b) s = .next { s1 with twin := { s1.twin with handoverSeen := true } })
      ∧ (twinAddr b = 2 → s.twin.joinBatch.isSome = true → s.twin.role = .primary →
        exec (.joinAck b) s = .next { s1 with twin := { s1.twin with joinBatch := none, peerRole := 3#3 } }))
    ∧ (twinCrcOk b = false → exec (.capabilityReceive b) s = .next s ∧ exec (.handover b) s = .next s
      ∧ exec (.joinAck b) s = .next s)

/-- Digests and announcements (R359, R361, R365): equal digests let the batch commit; when they differ, exactly one member's fault decides
against that member, with a Mirror's batch discarded and lockstep left, or for its twin; an announced batch is kept with its start. -/
def Sys2Proof.Claims.DigestsDecide : Prop :=
  ∀ (tseq : Word) (n : DWord) (d : QWord) (fault freeze : Bool) (frame : BitVec 6) (word : Byte) (b : Batch) (s : State),
    inOrder true tseq s = true →
    (findBatch n s = some b → b.d.batch = n → b.agreed = false →
      (b.digestMine = none → ∃ t, exec (.digestReceive true tseq n d fault) s = .next t
        ∧ ∃ b' ∈ t.batches, b'.d = b.d ∧ b'.digestPeer = some d ∧ b'.peerFault = fault ∧ b'.agreed = false)
      ∧ (b.digestMine = some d → ∃ t, exec (.digestReceive true tseq n d fault) s = .next t
        ∧ ∃ b' ∈ t.batches, b'.d = b.d ∧ b'.agreed = true)
      ∧ (∀ mine, b.digestMine = some mine → mine ≠ d → s.twin.faultSinceCommit = true → fault = false → inLockstep s = true →
        ∃ t, exec (.digestReceive true tseq n d fault) s = .next t ∧ t.twin.role = .outOfLockstep
          ∧ (∀ b' ∈ t.batches, b'.d.batch ≠ n) ∧ t.regs.twinStatus.getLsbD 1 = true ∧ t.regs.twinStatus.getLsbD 5 = true)
      ∧ (∀ mine, b.digestMine = some mine → mine ≠ d → s.twin.faultSinceCommit = false → fault = true →
        ∃ t, exec (.digestReceive true tseq n d fault) s = .next t ∧ t.twin.role = s.twin.role
          ∧ ∃ b' ∈ t.batches, b'.d = b.d ∧ b'.agreed = true ∧ 1 ∈ b'.twinDue))
    ∧ (∃ t x, exec (.batchAnnounce true tseq n frame word freeze) s = .next t
        ∧ t = { noteTseq s with twin := { (noteTseq s).twin with announced := s.twin.announced ++ [x] } } ∧ x.batch = n)
    ∧ exec (.digestReceive false tseq n d fault) s = .next s ∧ exec (.batchAnnounce false tseq n frame word freeze) s = .next s

/-- Joining (R372, R373): twin_join begins a join only with T up, agreed capabilities and the token held by the peer, and answers REFUSED
otherwise; a joining member takes each item of state into its place, and nothing else; the last item makes it Mirror and acknowledges;
a join that does not complete in time ends with JOIN_FAIL and out of lockstep. -/
def Sys2Proof.Claims.JoinsProceed : Prop :=
  ∀ (slot : Nat) (tseq : Word) (item : StateItem) (s : State), hasTwin s = true →
    (∀ c, callOf slot 0x000D s = some c →
      (s.twin.role = .outOfLockstep → s.twin.tUp = true → s.twin.capsAgree = true → s.twin.line = false → s.twin.token = false →
        ∃ t, exec (.twinJoin slot) s = .next t ∧ t.twin.role = .joining
          ∧ t.twin.joinBatch = some (BitVec.ofNat 32 (argOf c 0).toNat))
      ∧ (s.twin.role ≠ .outOfLockstep ∨ s.twin.tUp = false ∨ s.twin.capsAgree = false ∨ s.twin.line = true ∨ s.twin.token = true →
        exec (.twinJoin slot) s = .next (reply c resRefused [] s)))
    ∧ (inOrder true tseq s = true → s.twin.role = .joining →
      ((∀ n w, item ≠ .finish n w) → exec (.stateBlockReceive true tseq item) s = .next (applyItem item (noteTseq s)))
      ∧ (∀ n w, item = .finish n w → ∃ t, exec (.stateBlockReceive true tseq item) s = .next t ∧ t.twin.role = .mirror
        ∧ t.lastBatch = n - 1 ∧ t.twin.joinBatch = none ∧ t.array = s.array ∧ t.fabric = s.fabric))
    ∧ (inOrder true tseq s = true → s.twin.role ≠ .joining →
        exec (.stateBlockReceive true tseq item) s = .next (noteTseq s))
    ∧ (s.twin.role = .joining → ∃ t, exec .joinTimeout s = .next t ∧ t.twin.role = .outOfLockstep ∧ t.twin.joinBatch = none
        ∧ t.regs.twinStatus.getLsbD 8 = true)

/-- Capability blocks, digests, and joining (the claims above). -/
def Obligations.TwinJoins : Prop :=
  Claims.CapabilitiesDecide
  ∧ Claims.DigestsDecide
  ∧ Claims.JoinsProceed

/-! ### Strobes and the Repair Analyser -/

/-- A site strobe (R202, R203, R204, R305, R326): one record for each passed report in ascending channel order, or one for the site with
CHANNEL 0x7FF, is offered to the site's link; the batch counts the fails; a Fail of a STOP channel asserts its Docent's stop line.
Outside a batch, and without the strobe, nothing happens. A compare-fail record carries its site, channel and observed and expected bits. -/
def Sys2Proof.Claims.StrobesRecordFails : Prop :=
  (∀ (site : Nat) (s : State),
    let l := siteLink site s
    let ps := passedReports site s
    (compareCtx s = none ∨ s.fabric.strobes.contains site = false → exec (.siteStrobe site) s = .next s)
    ∧ (∀ x, compareCtx s = some x → s.fabric.strobes.contains site = true → s.fabric.strobed.contains site = false →
      ∃ t, exec (.siteStrobe site) s = .next t
        ∧ (ledger l t).offered = (ledger l s).offered
          ++ (if x.batch.mode = 3#2 ∧ s.params.mrec = true then memRecords x site ps s else compareRecords x site ps s)
        ∧ ledger (otherLink l) t = ledger (otherLink l) s
        ∧ t.batches = (modBatch x.batch.d.batch (countFails site
            (failsOf (decide (x.batch.mode = 3#2) && s.params.mrec) ps) (offsetOf x.batch s)) s).batches
        ∧ t.fabric.stopA = (s.fabric.stopA || ps.any (fun p => p.fail && catStop p.entry && decide (catLink p.entry = .f0)))
        ∧ t.fabric.stopB = (s.fabric.stopB || ps.any (fun p => p.fail && catStop p.entry && decide (catLink p.entry = .f1)))
        ∧ (x.batch.mode ≠ 3#2 → t.repair = s.repair) ∧ t.regs = s.regs))
  ∧ (∀ (x : CompareCtx) (site ch : Nat) (o e m : Bool) (s : State), site < 1024 → ch < 2048 →
      let r := (compareRecord x site ch o e m s).bits
      recKind r = 0 ∧ recSite r = site ∧ recChannel r = ch ∧ r.getLsbD 96 = e ∧ r.getLsbD 97 = o ∧ r.getLsbD 98 = false
      ∧ r.getLsbD 99 = m ∧ recPattern r = x.batch.d.firstPattern + BitVec.ofNat 32 x.pattern)

/-- A bit fail from the queue (R333): one more fail of its tracker, which else changes only while it is repairable and the fail is not
covered; more fails in a row than spare columns make it a must-repair row, and more must-repair lines than spares make the tracker
unrepairable. No other tracker and no committed one changes. -/
def Sys2Proof.Claims.BitFailsAreAnalysed : Prop :=
  (∀ (f : Nat × Nat × Nat) (rest : List (Nat × Nat × Nat)) (g : Geometry) (s : State), s.repair.queue = f :: rest →
    s.repair.geometry = some g → ∃ t, exec .bitFailProcess s = .next t
      ∧ tget {} t.repair.working f.1 = mustRepair g.sr g.sc f.2.1 f.2.2 (workingOf f.1 s)
      ∧ (∀ k, k ≠ f.1 → tget {} t.repair.working k = tget {} s.repair.working k)
      ∧ t = { s with repair := { s.repair with queue := rest, working := t.repair.working } })
  ∧ (∀ (sr sc row col : Nat) (t : Tracker),
    let u := mustRepair sr sc row col t
    u.fails = satInc t.fails
    ∧ (t.unrepairable = true ∨ row ∈ t.mustRows ∨ col ∈ t.mustCols ∨ (row, col) ∈ t.sparse → u = { t with fails := satInc t.fails })
    ∧ (t.unrepairable = false → row ∉ t.mustRows → col ∉ t.mustCols → (row, col) ∉ t.sparse →
      (sc ≤ (t.sparse.filter (fun e => e.1 = row)).length → row ∈ u.mustRows ∧ ∀ e ∈ u.sparse, e.1 ≠ row)
      ∧ ((t.sparse.filter (fun e => e.1 = row)).length < sc → sr ≤ (t.sparse.filter (fun e => e.2 = col)).length →
        col ∈ u.mustCols ∧ ∀ e ∈ u.sparse, e.2 ≠ col)
      ∧ ((t.sparse.filter (fun e => e.1 = row)).length < sc → (t.sparse.filter (fun e => e.2 = col)).length < sr →
        (t.sparse.length = 2 * sr * sc → u.unrepairable = true)
        ∧ (t.sparse.length ≠ 2 * sr * sc → (row, col) ∈ u.sparse))
      ∧ (sr < u.mustRows.length ∨ sc < u.mustCols.length → u.unrepairable = true)))

/-- Site strobes record fails, and bit fails reach their tracker (the claims above). -/
def Obligations.FailsAreJudged : Prop :=
  Claims.StrobesRecordFails
  ∧ Claims.BitFailsAreAnalysed

/-! ### The survey unit -/

/-- Readings (R379, R383, R394): each arrives in its own place; a sag of VDD_F and a hot sensor set their status bits; the host-die copy
is taken, or marked stale when the call is busy. -/
def Sys2Proof.Claims.ReadingsArrive : Prop :=
  ∀ (i mv : Nat) (q : Int) (s : State), surveyRuns s = true →
    (i < 5 → ∃ t, exec (.surveySample (.rail i mv)) s = .next t ∧ t.survey.rails = lset s.survey.rails i mv
      ∧ t.survey.sensors = s.survey.sensors
      ∧ t.survey.sag = decide (lget 0 (lset s.survey.rails i mv) 0 + policy 9 s ≤ 750)
      ∧ (t.survey.sag = true → t.regs.surveyStatus.getLsbD 1 = true)
      ∧ (t.survey.sag = false → t.survey.hot = false → t.regs = s.regs))
    ∧ (5 ≤ i → exec (.surveySample (.rail i mv)) s
        = .next { s with survey := { s.survey with hostRails := lset s.survey.hostRails (i - 5) mv } })
    ∧ exec (.surveySample (.sensor 15 q)) s = .next { s with survey := { s.survey with hostSensor := q } }
    ∧ (i < 12 → i < s.survey.sensors.length → ∃ t, exec (.surveySample (.sensor i q)) s = .next t
        ∧ t.survey.sensors = lset s.survey.sensors i q
        ∧ ((4 * policy 10 s : Int) ≤ q → t.survey.hot = true ∧ t.regs.surveyStatus.getLsbD 2 = true))
    ∧ exec (.hostReadingCopy false) s = .next { s with survey := { s.survey with
        rails := s.survey.rails.take 5 ++ s.survey.hostRails
        sensors := lset s.survey.sensors 15 s.survey.hostSensor
        stale := false } }
    ∧ exec (.hostReadingCopy true) s = .next { s with survey := { s.survey with stale := true } }

/-- Survey decisions (R391 to R395): a 1 s window with UPSET_HIGH upsets has the sweep made one level faster, the tenth without one a level
slower, and both counts start anew; throttling moves one level at a time, at the next pass boundary; Galleries are powered in
ascending order, a group at a time. -/
def Sys2Proof.Claims.SurveyDecides : Prop :=
  ∀ s : State,
    let v := sweepTarget s
    (surveyRuns s = true → atBoundary s = false → ∃ t, exec .upsetWindow s = .next t ∧ t.survey.upsets = 0 ∧ t.survey.arrayCe = 0
      ∧ (overridden 5 s = false → policy 6 s ≤ s.survey.upsets → v < policy 5 s → ⟨9#8, BitVec.ofNat 8 (v + 1)⟩ ∈ t.survey.pending)
      ∧ (overridden 5 s = false → s.survey.upsets = 0 → 9 ≤ s.survey.quietWindows → 0 < v → 0 < policy 6 s →
          ⟨9#8, BitVec.ofNat 8 (v - 1)⟩ ∈ t.survey.pending)
      ∧ (overridden 5 s = true → t.survey.pending = s.survey.pending))
    ∧ (overridden 7 s = false → surveyHold s = false → s.array.phase = .inPass →
      ((s.survey.sag = true ∨ s.survey.hot = true) → levelTarget s < policy 11 s → exec .throttleRaise s
        = .next { s with survey := { s.survey with levelDue := some (levelTarget s + 1, s.survey.hotFirst) } })
      ∧ (s.survey.sag = false → s.survey.hot = false → 0 < levelTarget s → exec .throttleLower s
        = .next { s with survey := { s.survey with levelDue := some (levelTarget s - 1, s.survey.hotFirst) } }))
    ∧ (overridden 7 s = false → surveyHold s = false → s.array.phase ≠ .inPass →
      ((s.survey.sag = true ∨ s.survey.hot = true) → levelTarget s < policy 11 s → levelTarget s < 3 → ∃ t,
        exec .throttleRaise s = .next t ∧ t.survey.level = levelTarget s + 1 ∧ t.survey.levelDue = none
        ∧ fld t.regs.surveyStatus 7 6 = levelTarget s + 1))
    ∧ (∀ n, s.array.powerGroup = n + 1 → s.array.toPower ≠ [] → ∃ t, exec .galleryPowerUp s = .next t
        ∧ t.array.toPower = s.array.toPower.drop (n + 1)
        ∧ (∀ g ∈ s.array.toPower.take (n + 1), (tget {} t.array.galleries g).powered = true)
        ∧ (∀ g, g ∉ s.array.toPower.take (n + 1) → tget {} t.array.galleries g = tget {} s.array.galleries g)
        ∧ t.regs = s.regs)
    ∧ (s.array.powerGroup = 0 → s.array.toPower ≠ [] → surveyHold s = false → overridden 4 s = false →
        ∃ t, exec .galleryPowerUp s = .next t
          ∧ t.array.toPower = s.array.toPower.drop (max (policy 4 s) ((s.array.toPower.length + 7) / 8)))

/-- Survey readings and the decisions taken from them (the claims above). -/
def Obligations.Surveys : Prop :=
  Claims.ReadingsArrive
  ∧ Claims.SurveyDecides

/-! ### Error protection -/

/-- Decoding (R453, R454, R456): of a SEC-DED byte one changed data bit is corrected, one changed check bit leaves the data, and any two
changed bits are reported as uncorrectable; of a BCH codeword one or two changed bits are corrected. -/
def Obligations.CodesCorrect : Prop :=
  (∀ (d : Byte) (i j : Nat),
    (i < 8 → secdedDecode (d ^^^ BitVec.twoPow 8 i) (secdedCode d ^^^ secdedCode (d ^^^ BitVec.twoPow 8 i)) = (.dataBit, d))
    ∧ (j < 5 → secdedDecode d (BitVec.twoPow 5 j) = (.checkBit, d))
    ∧ (i < j → j < 8 → (secdedDecode (d ^^^ BitVec.twoPow 8 i ^^^ BitVec.twoPow 8 j)
        (secdedCode d ^^^ secdedCode (d ^^^ BitVec.twoPow 8 i ^^^ BitVec.twoPow 8 j))).1 = .uncorrectable)
    ∧ (i < 8 → j < 5 → (secdedDecode (d ^^^ BitVec.twoPow 8 i)
        (secdedCode d ^^^ secdedCode (d ^^^ BitVec.twoPow 8 i) ^^^ BitVec.twoPow 5 j)).1 = .uncorrectable)
    ∧ (i < j → j < 5 → (secdedDecode d (BitVec.twoPow 5 i ^^^ BitVec.twoPow 5 j)).1 = .uncorrectable))
  ∧ (∀ (d : QWord) (i j : Nat),
    (i < 64 → bchDecode (d ^^^ BitVec.twoPow 64 i) (bchCode d ^^^ bchCode (d ^^^ BitVec.twoPow 64 i)) = (.dataBit, d))
    ∧ (j < 15 → bchDecode d (BitVec.twoPow 15 j) = (.checkBit, d))
    ∧ (i < j → j < 64 → bchDecode (d ^^^ BitVec.twoPow 64 i ^^^ BitVec.twoPow 64 j)
        (bchCode d ^^^ bchCode (d ^^^ BitVec.twoPow 64 i ^^^ BitVec.twoPow 64 j)) = (.twoBits, d)))

/-- The array patrol (R468, R469, R471, R473): while it runs, its position moves on by one cycle; it rewrites corrected a codeword of that
cycle with a correctable error, counting it; it poisons one with an uncorrectable error and has it await repair; a codeword without an
error stays. Outside its times nothing changes. -/
def Sys2Proof.Claims.PatrolSweeps : Prop :=
  ∀ s : State,
    let on := (s.array.running.isNone = true ∧ s.regs.scrubControl.getLsbD 2 = true)
      ∨ (s.array.running.isSome = true ∧ s.regs.scrubStatus.getLsbD 13 = true)
    let k := s.array.patrolPos
    (armed s = true → loaded s = true → s.loader.active = false → on →
      ∃ t, exec .patrolCycle s = .next t ∧ t.array.patrolPos = (k + 1) % 1024
        ∧ (s.array.instrDev = [] → s.array.curDev = [] → s.array.prevDev = [] → s.array.routeDev = [] → s.array.meshDev = [] →
          t.array = { s.array with patrolPos := (k + 1) % 1024, patrolLast := t.array.patrolLast } ∧ t.regs = s.regs)
        ∧ (∀ key dev, k < 512 → s.array.instrDev = [(key, dev)] → key % 512 = k → galleryPowered (key / 131072) s = true →
          s.array.routeDev = [] → s.array.meshDev = [] → dev ≠ 0 →
          let r := bchDecode (tget endWord s.array.instr key) dev
          (r.1 ≠ .uncorrectable → tget endWord t.array.instr key = r.2 ∧ t.array.instrDev = []
            ∧ t.regs.eccCountCe = satInc s.regs.eccCountCe ∧ t.array.instrPoison = s.array.instrPoison)
          ∧ (r.1 = .uncorrectable → t.array.instrPoison.contains key = true ∧ t.regs.eccCountUe = satInc s.regs.eccCountUe
            ∧ (t.regs.scrubStatus.getLsbD 11 = true ∨ s.array.awaiting.contains (key / 131072, key / 512 % 256, k) = true))))
    ∧ (armed s = false ∨ loaded s = false ∨ s.loader.active = true ∨ ¬ on → exec .patrolCycle s = .next s)

/-- Line repair (R475): a word that fails a check changes nothing but the reply; one that passes is written with fresh check bits, its
poison cleared and its wait ended. -/
def Sys2Proof.Claims.LinesAreRepaired : Prop :=
  ∀ (slot : Nat) (c : QueuedCall) (s : State), callOf slot 0x000F s = some c →
    let s1 := popFieldInbox 0x0B s
    let g := (argOf c 0).toNat
    let row := (argOf c 2).toNat
    let bp := if g = 0xFF || 0x200 ≤ row then 0 else (argOf c 1).toNat
    let fixed := putRepaired g bp row (argOf c 3) s1
    let w := repairWords g bp row fixed
    (s.loader.active = true → exec (.lineRepair slot) s = .next (reply c resRefused [] s1))
    ∧ (s.loader.active = false → s.array.awaiting.contains (g, bp, row) = false → exec (.lineRepair slot) s = .next (reply c resNotWaiting [] s1))
    ∧ (s.loader.active = false → s.array.awaiting.contains (g, bp, row) = true →
      (s.otp.authOnly = true → exec (.lineRepair slot) s = .next (reply c resRefused [] s1))
      ∧ (s.otp.authOnly = false →
        (scheduleOk (schedLength s1) fixed = false → exec (.lineRepair slot) s = .next (reply c resRefused [] s1))
        ∧ (scheduleOk (schedLength s1) fixed = true →
          (repairCrc w.1 ≠ csNat (repairCrcAddr g bp row) 4 s.store → exec (.lineRepair slot) s = .next (reply c resMismatch [] s1))
          ∧ (repairCrc w.1 = csNat (repairCrcAddr g bp row) 4 s.store → ∃ t, exec (.lineRepair slot) s = .next t
            ∧ t.array.awaiting = s.array.awaiting.filter (fun a => a ≠ (g, bp, row))
            ∧ (g ≠ 0xFF → row < 0x200 → tget endWord t.array.instr (bpNum g bp * 512 + row) = argOf c 3
              ∧ tget 0 t.array.instrDev (bpNum g bp * 512 + row) = 0)
            ∧ t.array.cur = s.array.cur ∧ t.fabric = s.fabric))))

/-- A frame check (R477, R478, R482): settings of which two copies agree are used and written to the third; a frame whose CRC agrees stays;
one equal to its shadow gets its CRC entry anew; one with an essential bit in error is rewritten at once with CFG_UPSET, one without is
kept for the end of the sweep; three copies that all differ stop the Conservator. -/
def Sys2Proof.Claims.FramesAreChecked : Prop :=
  ∀ (q : ConsSettings) (f : Nat) (s : State), conservatorRuns s = true →
    let live := tget 0 s.fabric.frames f
    let shadow : CfgFrame := BitVec.ofNat 1024 (csNat (q.shadowBase + 128 * f) 128 s.store)
    (votedSettings s.conservator = none → inLockstep s = false → atBoundary s = false → ∃ t, exec .frameCheck s = .next t
      ∧ t.conservator.running = false ∧ faultSet fcConservator t ∧ t.regs.scrubStatus.getLsbD 12 = false ∧ t.fabric = s.fabric)
    ∧ (votedSettings s.conservator = some (q, false) → s.conservator.next = f → f < q.frameCount → q.skip.contains f = false →
      s.fabric.driverCheck = [] → s.store.csDev = [] → f < 6144 →
      ∃ t, exec .frameCheck s = .next t ∧ t.conservator.next = f + 1 ∧ t.conservator.copies = [q, q, q]
        ∧ (frameCrcOf live = csNat (q.crcBase + 4 * f) 4 s.store → t.fabric = s.fabric ∧ t.regs = s.regs ∧ t.store = s.store)
        ∧ (frameCrcOf live ≠ csNat (q.crcBase + 4 * f) 4 s.store → csUe (q.shadowBase + 128 * f) 128 s.store = false →
          (live = shadow → t.fabric = s.fabric ∧ t.conservator.falseMismatch = satInc s.conservator.falseMismatch)
          ∧ (live ≠ shadow → (live ^^^ shadow) &&& BitVec.ofNat 1024 (inventoryBits q.inventoryBase f s.store) ≠ 0 →
            tget 0 t.fabric.frames f = shadow ∧ faultSet fcCfgUpset t ∧ eventSent evFault fcCfgUpset f s t
            ∧ t.conservator.essential = satInc s.conservator.essential)
          ∧ (live ≠ shadow → (live ^^^ shadow) &&& BitVec.ofNat 1024 (inventoryBits q.inventoryBase f s.store) = 0 →
            t.fabric = s.fabric ∧ t.conservator.lateRepairs.contains f = true)))

/-- The end of a sweep (R483 to R485): a signature that agrees clears the mismatch count and the next sweep begins at frame 0; one that does
not sets SIG_FAIL, and restarts the Conservator the first time and stops it the second. A twin's signature that differs sets TWIN_SIG. -/
def Sys2Proof.Claims.SweepsAreSigned : Prop :=
  ∀ (q : ConsSettings) (o : Bool) (tseq : Word) (sig : DWord) (s : State),
    let own := signature s.conservator.computed
    (conservatorRuns s = true → votedSettings s.conservator = some (q, o) → q.frameCount ≤ s.conservator.next →
      s.conservator.lateRepairs = [] → inLockstep s = false →
      (own = s.conservator.signatureAtLoad → exec .sweepEnd s = .next { s with conservator := { s.conservator with
        next := 0, computed := [], lastSignature := some own, mismatches := 0 } })
      ∧ (own ≠ s.conservator.signatureAtLoad → s.conservator.mismatches = 0 → ∃ t, exec .sweepEnd s = .next t
        ∧ t.regs.scrubStatus.getLsbD 4 = true ∧ t.conservator.running = true ∧ t.conservator.next = 0 ∧ t.conservator.mismatches = 1)
      ∧ (own ≠ s.conservator.signatureAtLoad → 1 ≤ s.conservator.mismatches → atBoundary s = false → ∃ t, exec .sweepEnd s = .next t
        ∧ t.regs.scrubStatus.getLsbD 4 = true ∧ t.conservator.running = false ∧ faultSet fcConservator t))
    ∧ (inOrder true tseq s = true →
      (s.conservator.lastSignature = some sig → exec (.sweepSignatureReceive true tseq sig) s
        = .next (noteTseq { s with twin := { s.twin with peerSig := some sig } }))
      ∧ (∀ x, s.conservator.lastSignature = some x → x ≠ sig → ∃ t, exec (.sweepSignatureReceive true tseq sig) s = .next t
        ∧ t.regs.scrubStatus.getLsbD 5 = true ∧ t.conservator = s.conservator))

/-- Frame checks and the signature at the end of a sweep (the claims above). -/
def Obligations.FramesAreSwept : Prop :=
  Claims.FramesAreChecked
  ∧ Claims.SweepsAreSigned

/-- Checker test mode (R486, R487): the unlock is granted only while RUN = 0 and no batch is in progress; outside the mode each check call
is refused and changes nothing; in it, what is written with its check bits reads back raw, and a decoder is tried without a write. -/
def Sys2Proof.Claims.CheckerTestMode : Prop :=
  ∀ (slot : Nat) (c : QueuedCall) (s : State),
    (callOf slot 0x0010 s = some c →
      (s.regs.batchControl.getLsbD 0 = false → noBatch s = true →
        exec (.scrubUnlock slot) s = .next (reply c resOk [] (putUnlock true s)))
      ∧ (s.regs.batchControl.getLsbD 0 = true ∨ noBatch s = false → exec (.scrubUnlock slot) s = .next (reply c resRefused [] s)))
    ∧ (callOf slot 0x0011 s = some c →
      (checkTest s = false → exec (.checkWrite slot) s = .next (reply c resRefused [] s))
      ∧ (checkTest s = true → argOf c 0 = 6 → ∃ t, exec (.checkWrite slot) s = .next t
        ∧ tget 0 t.fabric.vaultWords (vaultOfLocation (argOf c 1).toNat) = (argOf c 2).setWidth 16
        ∧ t.store = s.store ∧ t.array = s.array))
    ∧ (callOf slot 0x0012 s = some c →
      (checkTest s = false → exec (.checkRead slot) s = .next (reply c resRefused [] s))
      ∧ (checkTest s = true → argOf c 0 = 6 →
        exec (.checkRead slot) s = .next (reply c resOk (checkRead 6 (argOf c 1).toNat s) s)))
    ∧ (callOf slot 0x0013 s = some c →
      (checkTest s = false → exec (.checkInject slot) s = .next (reply c resRefused [] s))
      ∧ (checkTest s = true → argOf c 0 = 0 ∨ argOf c 0 = 3 ∨ argOf c 0 = 4 →
        let r := bchDecode (argOf c 1) ((argOf c 2).setWidth 15 ^^^ bchCode (argOf c 1))
        exec (.checkInject slot) s = .next (reply c resOk [reportClass r.1, r.2] s)))
    ∧ (∀ (loc : Nat) (d k : QWord), let t := checkWrite 6 loc d k s
        checkRead 6 loc t = [(d.setWidth 16).setWidth 64, (k.setWidth 10).setWidth 64, (checkRead 6 loc t).getD 2 0])

/-- The per-store counts go to host memory as the call asks, in ten pairs and the three frame counts (R467, R676); an address that is no
multiple of 8 is answered RANGE. -/
def Sys2Proof.Claims.ScrubCountersAreRead : Prop :=
  ∀ (slot : Nat) (c : QueuedCall) (s : State), callOf slot 0x0014 s = some c →
    ((argOf c 0).toNat % 8 = 0 → ∃ t bs, exec (.scrubCounters slot) s = .next t ∧ bs.length = 184
      ∧ t = reply c resOk [184] (hostWriteBytes (argOf c 0).toNat bs s)
      ∧ bs.drop 160 = bytesOf 8 s.conservator.essential.toNat ++ bytesOf 8 s.conservator.nonEssential.toNat
        ++ bytesOf 8 s.conservator.falseMismatch.toNat)
    ∧ ((argOf c 0).toNat % 8 ≠ 0 → exec (.scrubCounters slot) s = .next (reply c resRange [] s))

/-- Patrol, line repair, checker test mode and the scrub counters (the claims above). -/
def Obligations.StoresArePatrolled : Prop :=
  Claims.PatrolSweeps
  ∧ Claims.LinesAreRepaired
  ∧ Claims.CheckerTestMode
  ∧ Claims.ScrubCountersAreRead

/-! ### The network and Common Store -/

/-- Requests at a bank group (R492, R493, R509, R511): a read answers its granules and changes no byte; a write of one flit stores the
enabled bytes, in a granule not valid before with 0 in the others, changes no other granule, and ends every reservation on the granule;
a write into the configuration shadow is refused with CFG_WRITE and stores nothing. -/
def Sys2Proof.Claims.RequestsAreServed : Prop :=
  ∀ (h d : QWord) (s : State),
    (reachesBank opRead h s → csUe (pAddr h) (8 * pFlits h) s.store = false →
      ∃ t, exec (.read h) s = .next t ∧ answered h stOk (granuleData (pSrc h) (pAddr h) (pFlits h) s) s t ∧ sameStore s t)
    ∧ (reachesBank opRead h s → csUe (pAddr h) (8 * pFlits h) s.store = true →
      ∃ t, exec (.read h) s = .next t ∧ answered h stBusError [] s t ∧ sameStore s t)
    ∧ (reachesBank opWrite h s → pFlits h = 1 → granuleClean (pAddr h) s.store →
      (writeRefused h s = true → ∃ t, exec (.write h [d]) s = .next t ∧ t.store.cs = s.store.cs ∧ faultSet fcCfgWrite t)
      ∧ (writeRefused h s = false → ∃ t, exec (.write h [d]) s = .next t ∧ answered h stOk [] s t
        ∧ (∀ k, k < 8 → csByte (pAddr h + k) t.store
          = if (fld h 31 24).testBit (7 - k) then d.extractLsb' (8 * (7 - k)) 8 else csByte (pAddr h + k) s.store)
        ∧ (∀ a, a / 8 ≠ pAddr h / 8 → csByte a t.store = csByte a s.store)
        ∧ (fld h 31 24 ≠ 0 → granuleValid (pAddr h) t.store = true ∧ ∀ r ∈ t.store.reservations, r.2 ≠ pAddr h / 8)))

/-- Exclusive pairs: an EXCL_READ sets a reservation of its source node on the granule read, and each source node holds at most one
reservation. A COND_WRITE is performed, with status OK, only if its source still holds a reservation on that granule, and it ends every
reservation on that granule. Otherwise it is not performed, and its status is COND_FAIL. A holder halted too long loses its reservation
with LOCK_BROKEN (R569). -/
def Sys2Proof.Claims.ExclusivePairs : Prop :=
  ∀ (h d : QWord) (s : State),
    (reachesBank opExcl h s → csUe (pAddr h) (8 * pFlits h) s.store = false →
      ∃ t, exec (.exclRead h) s = .next t ∧ answered h stOk (granuleData (pSrc h) (pAddr h) (pFlits h) s) s t
        ∧ t.store.reservations.filter (fun r => r.1 = pSrc h) = [(pSrc h, pAddr h / 8)]
        ∧ (s.store.csDev = [] →
          t.store.reservations.filter (fun r => r.1 ≠ pSrc h) = s.store.reservations.filter (fun r => r.1 ≠ pSrc h)))
    ∧ (reachesBank opCond h s → pFlits h = 1 → s.store.reservations.contains (pSrc h, pAddr h / 8) = true →
      writeRefused h s = false → ∃ t, exec (.condWrite h [d]) s = .next t ∧ answered h stOk [] s t
        ∧ (∀ k, k < 8 → (fld h 31 24).testBit (7 - k) = true →
          csByte (pAddr h + k) t.store = d.extractLsb' (8 * (7 - k)) 8)
        ∧ (∀ a, a / 8 ≠ pAddr h / 8 → csByte a t.store = csByte a s.store)
        ∧ ∀ r ∈ t.store.reservations, r.2 ≠ pAddr h / 8)
    ∧ (reachesBank opCond h s → s.store.reservations.contains (pSrc h, pAddr h / 8) = false →
      ∃ t, exec (.condWrite h [d]) s = .next t ∧ answered h stCondFail [] s t ∧ t.store.cs = s.store.cs
        ∧ t.store.reservations = s.store.reservations)
    ∧ (∀ c : Core, (coreState c s).halted = true → s.store.reservations.any (fun r => r.1 = coreNode c) = true →
      exec (.reservationBreak c) s = .next (setFault fcLockBroken { s with store := { s.store with
        reservations := s.store.reservations.filter (fun r => r.1 ≠ coreNode c) } }))

/-- Requests at a bank group, and exclusive pairs (the claims above). -/
def Obligations.NetworkRequests : Prop :=
  Claims.RequestsAreServed
  ∧ Claims.ExclusivePairs

/-- Requests that do not reach a node (R493, R498, R506, R507): no route or no node answers UNMAPPED, a sleeping node ASLEEP, a malformed
request BUS_ERROR, each without effect on any store; a request answered ASLEEP is sent again until its completion ends it, at the 64th
ASLEEP or with any other status; waiting raises its urgency by one up to 7. -/
def Sys2Proof.Claims.RequestsAreTurnedAway : Prop :=
  ∀ (h : QWord) (flits : List QWord) (src tag : Nat) (r : NocRequest) (s : State),
    (pOp h = opRead → h.getLsbD 49 = false → fieldAwake s = true → injects h s = true → heldBehind h s = false →
      (routeMissing h s = true ∨ nodeExists (pDest h) s = false → ∃ t, exec (.read h) s = .next t
        ∧ answered h stUnmapped [] s t ∧ t.store.cs = s.store.cs)
      ∧ (routeMissing h s = false → nodeExists (pDest h) s = true → nodeAsleep (pDest h) s = true → ∃ t,
        exec (.read h) s = .next t ∧ answered h stAsleep [] s t ∧ t.store.cs = s.store.cs)
      ∧ (routeMissing h s = false → nodeExists (pDest h) s = true → nodeAsleep (pDest h) s = false → routeProxy h s = false →
        malformedPacket h = true → ∃ t, exec (.read h) s = .next t ∧ answered h stBusError [] s t ∧ t.store.cs = s.store.cs))
    ∧ (pOp h = opCompletion → h.getLsbD 49 = true → s.store.outstanding = [r] → isRequest (pDest h) (pTag h) r = true →
      ∃ t, exec (.completion h flits) s = .next t
        ∧ (pStatus h ≠ stAsleep → t.store.outstanding = [])
        ∧ (pStatus h = stAsleep → r.asleepCount < 63 → t.store.outstanding = [{ r with asleepCount := r.asleepCount + 1 }])
        ∧ (pStatus h = stAsleep → 63 ≤ r.asleepCount → t.store.outstanding = []) ∧ t.store.cs = s.store.cs)
    ∧ (s.store.outstanding.find? (isRequest src tag) = some r → r.asleepCount ≠ 0 → fieldAwake s = true →
      exec (.asleepResend src tag) s = .next (serve (setFld r.header 47 45 r.urgency) r.flits s))
    ∧ (s.store.outstanding = [r] → isRequest src tag r = true → exec (.urgencyRise src tag) s
      = .next { s with store := { s.store with outstanding := [{ r with urgency := min 7 (r.urgency + 1) }] } })

/-- Route switches (R501, R502): with every request in flight on the bank in use, the other bank takes the entries and every router its
epoch; the bank in use keeps its entries. noc_status reads the routers' states to host memory and clears their urgency marks (R503). -/
def Sys2Proof.Claims.RoutesSwitch : Prop :=
  ∀ (entries : List (Nat × Word)) (slot : Nat) (c : QueuedCall) (s : State),
    (fieldAwake s = true → coreRuns s.cores.warden = true →
      s.store.outstanding.all (fun r => decide (pEpoch r.header = s.store.epoch)) = true →
      ∃ t, exec (.routeSwitch entries) s = .next t ∧ t.store.epoch = !s.store.epoch
        ∧ (∀ n, n < 128 → nodeExists n s = true → (router n t).epoch = !s.store.epoch)
        ∧ (∀ i, i < 16384 → tget 0 t.store.routes (routeBank s.store.epoch + i) = tget 0 s.store.routes (routeBank s.store.epoch + i))
        ∧ (∀ e, entries = [e] → e.1 < 16384 → tget 0 t.store.routes (routeBank (!s.store.epoch) + e.1) = e.2)
        ∧ t.store.cs = s.store.cs ∧ t.regs = s.regs)
    ∧ (callOf slot 0x0015 s = some c → (argOf c 0).toNat % 8 = 0 → ∃ t bs, exec (.nocStatus slot) s = .next t
        ∧ t.hostOut = (reply c resOk [BitVec.ofNat 64 bs.length] (hostWriteBytes (argOf c 0).toNat bs s)).hostOut
        ∧ bs.length = 40 * ((List.range 128).filter (fun n => nodeExists n s)).length
        ∧ (∀ n, n < 128 → nodeExists n s = true → (router n t).maxUrgency = 0 ∧ (router n t).epoch = (router n s).epoch))

/-- The background test of the banks (R512 to R515): it copies the next bank, has the map name the Loan bank, and makes a bank that passes
the new Loan bank; one that fails is retired with BANK_RETIRED and an event, and no Loan bank remains. No byte reads differently. -/
def Sys2Proof.Claims.BanksAreTested : Prop :=
  ∀ (loan b old : Nat) (s : State),
    (s.store.loan = some loan → s.store.test = .idle → fieldAwake s = true → s.loader.active = false → s.loader.waiting = none →
      checkTest s = false → coreRuns s.cores.warden = true → exec .bankTestStart s = .next { s with store := { s.store with
        test := .copying s.store.nextTest (lget 0 s.store.bankMap s.store.nextTest) loan
        nextTest := (s.store.nextTest + 1) % 32 } })
    ∧ (s.store.loan = none ∨ checkTest s = true ∨ s.loader.active = true → exec .bankTestStart s = .next s)
    ∧ (s.store.test = .copying b old loan → ∃ t, exec .bankMapSwitch s = .next t ∧ t.store.test = .march b old
        ∧ t.store.bankMap = lset s.store.bankMap b loan ∧ t.store.loan = none ∧ sameStore s t)
    ∧ (s.store.test = .march b old → s.loader.waiting = none →
        exec (.marchDone true) s = .next { s with store := { s.store with loan := some old, test := .idle } }
        ∧ ∃ t, exec (.marchDone false) s = .next t ∧ t.store.retired = some old ∧ t.store.loan = s.store.loan
          ∧ faultSet fcBankRetired t ∧ (old < 2 ^ 32 → eventSent evFault fcBankRetired old s t) ∧ sameStore s t)

/-- Domains (R504, R505): a bank group sleeps in Standby alone; a domain that is to sleep and has no request accepted is gated, and a
Gallery so gated is no longer powered; one with such a request is not gated. -/
def Sys2Proof.Claims.DomainsSleep : Prop :=
  ∀ (k : Nat) (d : Domain) (s : State),
    (s.power.field = .standby → k < 9 → exec (.bankGroupSleep k) s
      = .next { s with store := { s.store with sleepingGroups := nins s.store.sleepingGroups k } })
    ∧ (s.power.field ≠ .standby → exec (.bankGroupSleep k) s = .next s)
    ∧ (domainSleeps d s = true → domainBusy d s = false → ∃ t, exec (.domainPowerDown d) s = .next t ∧ d ∈ t.power.domains
      ∧ (∀ g, d = .gallery g → g < galleryCount s → (gallery g t).powered = false ∧ g ∉ t.array.toPower)
      ∧ ((∀ g, d ≠ .gallery g) → t.array = s.array) ∧ t.store = s.store ∧ t.regs = s.regs)
    ∧ (domainSleeps d s = false ∨ domainBusy d s = true → exec (.domainPowerDown d) s = .next s)

/-- Requests turned away, route switches, bank tests and sleeping domains (the claims above). -/
def Obligations.NetworkUpkeep : Prop :=
  Claims.RequestsAreTurnedAway
  ∧ Claims.RoutesSwitch
  ∧ Claims.BanksAreTested
  ∧ Claims.DomainsSleep

/-! ### Power, clocks and watchdogs -/

/-- A transition that is due completes and is reported (R516, R518 to R520): Off to Standby with field I/O disabled; Dormant to Standby;
Standby to Armed only loaded and outside a load, with routing at 0 and the named links due to train; Armed to Standby at a boundary
with every batch committed, the links down; Standby to Dormant only with no record held. -/
def Sys2Proof.Claims.PowerTransitions : Prop :=
  ∀ s : State, s.barrier.fieldSilent = false → s.heldCommands = [] →
    (s.power.field = .off → s.power.fieldRails = true → s.power.tref = true →
      ∃ t, exec .powerTransitionDone s = .next t ∧ t.power.field = .standby ∧ fld t.regs.pwrState 2 0 = 2 ∧ ioDisabled t = true
        ∧ loaded t = false)
    ∧ (s.power.field = .dormant → s.power.target = some .standby →
      ∃ t, exec .powerTransitionDone s = .next t ∧ t.power.field = .standby ∧ t.power.target = none
        ∧ fld t.regs.pwrState 2 0 = 2 ∧ t.store = s.store ∧ t.array = s.array)
    ∧ (s.power.field = .standby → s.loader.active = false → requested s = .armed → loaded s = true →
      ∃ t, exec .powerTransitionDone s = .next t ∧ t.power.field = .armed ∧ fld t.regs.pwrState 2 0 = 3
        ∧ t.fabric = zeroRouting s.fabric ∧ t.store.sleepingGroups = [] ∧ t.store.cs = s.store.cs
        ∧ ∀ l, linkNamed l s = true → (flink l t).retrainDue = true)
    ∧ (s.power.field = .standby → requested s = .armed → loaded s = false →
      ∃ t, exec .powerTransitionDone s = .next t ∧ t.power.field = .standby)
    ∧ (s.power.field = .armed → requested s ≠ .armed → s.loader.active = false → atBoundary s = true →
      s.batches.all committedBoth = true → ∃ t, exec .powerTransitionDone s = .next t ∧ t.power.field = .standby
        ∧ fld t.regs.pwrState 2 0 = 2 ∧ linkState .f0 t = 0 ∧ linkState .f1 t = 0 ∧ t.store = s.store)
    ∧ (s.power.field = .standby → s.loader.active = false → requested s = .dormant →
      (ledgerHolds s.ledger0 = true ∨ ledgerHolds s.ledger1 = true ∨ s.store.test ≠ .idle →
        ∃ t, exec .powerTransitionDone s = .next t ∧ t.power.field = .standby)
      ∧ (ledgerHolds s.ledger0 = false → ledgerHolds s.ledger1 = false → s.store.test = .idle → s.store.outstanding = [] →
        ∃ t, exec .powerTransitionDone s = .next t ∧ t.power.field = .dormant ∧ fld t.regs.pwrState 2 0 = 1
          ∧ t.twin.leaseValid = false ∧ t.store = s.store))

/-- Wakes (R521, R522, R527): a selected field pin at its level raises the requested state to TARGET with FIELD_PIN, a selected host pin
calls the host die back with HOST_PIN; one not selected does nothing; PERST# and, where enabled, a control-bus access call the host die
back from Dormant with their cause. -/
def Sys2Proof.Claims.WakesRaise : Prop :=
  ∀ (p : WakeSample) (s : State),
    (s.regs.wakeEnable.getLsbD 15 = false → s.regs.wakeEnable.getLsbD 8 = false → exec (.wakePin p) s = .next s)
    ∧ (p.fieldPin = true → s.regs.wakeEnable.getLsbD 15 = true → s.power.field = .dormant → 2 ≤ fld s.regs.wakeEnable 1 0 →
      fld s.regs.pwrRequest 2 0 < fld s.regs.wakeEnable 1 0 → ∃ t, exec (.wakePin p) s = .next t
        ∧ fld t.regs.pwrRequest 2 0 = fld s.regs.wakeEnable 1 0 ∧ t.regs.wakeCause.getLsbD 7 = true ∧ t.power.field = .dormant)
    ∧ (p.hostPin = true → s.regs.wakeEnable.getLsbD 8 = true → s.power.host = .dormant → ∃ t, exec (.wakePin p) s = .next t
        ∧ t.power.hostWake = true ∧ t.regs.wakeCause.getLsbD 6 = true)
    ∧ (s.power.host = .dormant → ∃ t, exec .perstDeassert s = .next t ∧ t.regs.wakeCause.getLsbD 4 = true
        ∧ t.power = { s.power with hostWake := true })
    ∧ (s.power.host = .dormant → s.regs.wakeEnable.getLsbD 3 = true → ∃ t, exec .controlBusWake s = .next t
        ∧ t.regs.wakeCause.getLsbD 5 = true ∧ t.power = { s.power with hostWake := true, cbHeld := true })
    ∧ (s.power.host ≠ .dormant → exec .perstDeassert s = .next s ∧ exec .controlBusWake s = .next s)

/-- Rails and references (R534, R535, R655, R670): a field side whose rails fail is Off with nothing in its stores; a host die whose rails
fail or that loses HREF has every register at reset; without TREF the field side counts as Off and keeps its stores, and after its
return it is in Standby with TREF_LOSS, field I/O disabled and only committed batches. -/
def Sys2Proof.Claims.RailsAndReferences : Prop :=
  ∀ s : State,
    (s.power.fieldRails = false → exec (.railsGood .field) s = .next { s with power := { s.power with fieldRails := true } })
    ∧ (s.power.fieldRails = true → s.loader.waiting = none → ∃ t, exec (.railFail .field) s = .next t ∧ t.power.field = .off
      ∧ t.power.fieldRails = false ∧ t.store = {} ∧ t.array = {} ∧ t.fabric = {} ∧ t.batches = [] ∧ t.otp = s.otp)
    ∧ (s.power.hostRails = true → ∃ t, exec (.railFail .host) s = .next t ∧ t.power.host = .off ∧ t.power.hostRails = false
      ∧ (∀ a, numbered a → a ≠ 0x04 → a ≠ 0x17 → regValue {} a t = resetOf a s) ∧ t.otp = s.otp ∧ t.store = s.store)
    ∧ (s.power.hostRails = true → s.power.host ≠ .off → ∃ t, exec .hrefLoss s = .next t ∧ t.power.host = .standby
      ∧ (∀ a, numbered a → a ≠ 0x04 → a ≠ 0x17 → regValue {} a t = resetOf a s) ∧ t.otp = s.otp ∧ t.store = s.store)
    ∧ (s.power.fieldRails = true → s.power.tref = true → s.power.field ≠ .off → ∃ t, exec .trefLoss s = .next t
      ∧ t.power.tref = false ∧ t.power.field = .off ∧ t.store = s.store ∧ t.twin.leaseValid = false
      ∧ ledger .f0 t = ledger .f0 s ∧ ledger .f1 t = ledger .f1 s ∧ ioDisabled t = ioDisabled s)
    ∧ (s.power.fieldRails = true → s.power.tref = false → ∃ t, exec .trefReturn s = .next t ∧ t.power.tref = true
      ∧ t.power.field = .standby ∧ ioDisabled t = true ∧ t.regs.clkStatus.getLsbD 8 = true ∧ t.regs.wakeCause.getLsbD 1 = true
      ∧ t.batches = s.batches.filter committedBoth ∧ t.store = s.store ∧ loaded t = false)

/-- Clock changes (R532, R533): a committed change takes effect at a boundary with the array stopped, and the PLLs whose values differ
relock; when they have, their lock bits read 1, and after FCLK routing is 0 and both links retrain; a PLL that fails takes its previous
values back, in force and in the shadow, with LOCK_FAIL. -/
def Sys2Proof.Claims.ClocksChange : Prop :=
  ∀ s : State,
    (s.power.clkDue = true → s.power.field = .armed → atBoundary s = true → s.array.running = none → s.loader.active = false →
      ∃ t, exec .clockChange s = .next t ∧ t.power.clkInForce = s.inForce.clk ∧ t.power.clkPrev = s.power.clkInForce
        ∧ t.power.clkDue = false ∧ t.inForce = s.inForce
        ∧ (stepClockDiffers s.power.clkInForce s.inForce.clk = true → t.power.relockS = true ∧ t.regs.clkStatus.getLsbD 15 = false)
        ∧ (fabricClockDiffers s.power.clkInForce s.inForce.clk = true → t.power.relockF = true
          ∧ t.regs.clkStatus.getLsbD 14 = false))
    ∧ (s.power.clkDue = false ∨ s.array.running.isSome = true ∨ atBoundary s = false → exec .clockChange s = .next s)
    ∧ (s.power.relockS = true → s.power.relockF = false → ∃ t, exec .pllRelocked s = .next t ∧ t.regs.clkStatus.getLsbD 15 = true
        ∧ t.power = { s.power with relockS := false } ∧ t.fabric = s.fabric)
    ∧ (s.power.relockF = true → ∃ t, exec .pllRelocked s = .next t ∧ t.regs.clkStatus.getLsbD 14 = true
        ∧ t.fabric = zeroRouting s.fabric ∧ ∀ l, linkNamed l s = true → (flink l t).retrainDue = true ∧ (flink l t).fullDue = true)
    ∧ (s.power.relockS = true ∨ s.power.relockF = true → s.loader.active = false → ∃ t, exec .relockFail s = .next t
        ∧ t.inForce = { s.inForce with clk := s.power.clkPrev } ∧ t.shadow = { s.shadow with clk := s.power.clkPrev }
        ∧ t.power.clkInForce = s.power.clkPrev ∧ t.regs.clkStatus.getLsbD 9 = true)

/-- Power transitions, wakes, rails, references and clock changes (the claims above). -/
def Obligations.PowerAndClocks : Prop :=
  Claims.PowerTransitions
  ∧ Claims.WakesRaise
  ∧ Claims.RailsAndReferences
  ∧ Claims.ClocksChange

/-- Watchdogs (R572, R573, R575): an expiry resets its core alone, sets WDOG and raises an event that names it; a reload takes the code
in WDOG_CONTROL; a core's restart runs its firmware again; a halted core's watchdog does nothing. -/
def Obligations.WatchdogsResetCores : Prop :=
  ∀ (c : Core) (s : State),
    (coreRuns (coreState c s) = true → (coreState c s).wdogPeriod ≠ 0 → ∃ t, exec (.watchdogExpiry c) s = .next t
      ∧ (coreState c t).restarting = true ∧ faultSet fcWdog t
      ∧ (∀ k, k ≠ c → c ≠ .curator → coreState k t = coreState k s)
      ∧ (c ≠ .curator → eventSent evFault fcWdog (coreNum c) s t)
      ∧ (c = .warden → t.twin.leaseValid = false))
    ∧ (coreRuns (coreState c s) = false → exec (.watchdogExpiry c) s = .next s ∧ exec (.watchdogReload c) s = .next s)
    ∧ (coreRuns (coreState c s) = true → exec (.watchdogReload c) s = .next (setCore c { coreState c s with
        wdogPeriod := wdogCode c s, wdogReloads := (coreState c s).wdogReloads + 1 } s))
    ∧ ((coreState c s).restarting = true → ∃ t, exec (.coreRestarted c) s = .next t ∧ (coreState c t).restarting = false)

/-! ### Service calls -/

/-- A reply (R540, R541, R545): of a call from a request slot, the reply slot holds its TAG, the RESULT, the LENGTH and the data fields, the
Mailbox vector is signalled after it, and the call leaves the queue; no byte of another reply slot changes. A field unit that does not
answer in time has its call answered TIMEOUT (R543). -/
def Sys2Proof.Claims.RepliesAreWritten : Prop :=
  (∀ (c : QueuedCall) (result : Nat) (data : List QWord) (s : State), c.slot < 64 → data.length ≤ 7 →
    let t := reply c result data s
    replyHead c.slot t = bytesOf 2 c.tag.toNat ++ bytesOf 2 result ++ [BitVec.ofNat 8 (8 * data.length)]
    ∧ (∀ i k, i < data.length → k < 8 →
      tget 0 t.cores.mailbox (0x1000 + 64 * c.slot + 8 + 8 * i + k) = (lget 0 data i).extractLsb' (56 - 8 * k) 8)
    ∧ (∀ a, a < 0x1000 + 64 * c.slot ∨ 0x1000 + 64 * c.slot + 64 ≤ a → tget 0 t.cores.mailbox a = tget 0 s.cores.mailbox a)
    ∧ t.hostOut = s.hostOut ++ [.msix 1]
    ∧ t.cores.calls = s.cores.calls.filter (fun x => decide (x.slot ≠ c.slot) || decide (x.tag ≠ c.tag)))
  ∧ (∀ (slot : Nat) (c : QueuedCall) (s : State), slot < 64 → s.cores.calls.find? (fun c => c.slot = slot) = some c →
      (curatorServes c.call.toNat = false → exec (.serviceCallTimeout slot) s = .next (reply c resTimeout [] s))
      ∧ (curatorServes c.call.toNat = true → exec (.serviceCallTimeout slot) s = .next s))

/-- Reports and counters (R39, R285, R339, R381, R433, R546, R676): each call's reply holds its numbers, or its block goes to the host
address that it names, which is answered RANGE where it is no multiple of 8; the event log is read in the order appended. -/
def Sys2Proof.Claims.ReportsAreGiven : Prop :=
  ∀ (slot : Nat) (c : QueuedCall) (s : State),
    let addr (k : Nat) := (argOf c k).toNat
    (callOf slot 0x0001 s = some c → s.loader.skipped = [] → exec (.loadReport slot) s = .next (reply c resOk
        [0, s.loader.discarded.setWidth 64, s.loader.dropped.setWidth 64, s.loader.failed.setWidth 64, s.loader.repeated.setWidth 64,
          0, 0] s))
    ∧ (callOf slot 0x0003 s = some c →
      (addr 0 % 8 = 0 → ∃ bs, bs.length = 8 * 73 ∧ exec (.barrierCounters slot) s
        = .next (reply c resOk [584] (hostWriteBytes (addr 0) bs s)))
      ∧ (addr 0 % 8 ≠ 0 → exec (.barrierCounters slot) s = .next (reply c resRange [] s)))
    ∧ (callOf slot 0x0004 s = some c → addr 0 % 8 = 0 → s.link0.lanes.length = 32 → s.link1.lanes.length = 32 →
      ∃ bs, bs.length = 8 * 256 ∧ exec (.linkCounters slot) s = .next (reply c resOk [2048] (hostWriteBytes (addr 0) bs s))
        ∧ bs.take 32 = bytesOf 8 (lane .f0 0 s).wordErrors.toNat ++ bytesOf 8 (lane .f0 0 s).crcErrors.toNat
          ++ bytesOf 8 (lane .f0 0 s).quarterErrors.toNat ++ bytesOf 8 (lane .f0 0 s).lostCount.toNat)
    ∧ (callOf slot 0x000E s = some c → addr 0 % 8 = 0 → slot < 64 → ∃ t bs, exec (.surveyRead slot) s = .next t
      ∧ t.hostOut = s.hostOut ++ [.memWrite (addr 0) bs, .msix 1])
    ∧ (callOf slot 0x0008 s = some c → exec (.memInfo slot) s
      = .next (reply c resOk [BitVec.ofNat 64 s.params.maLag, BitVec.ofNat 64 s.params.mrec.toNat] s))
    ∧ (callOf slot 0x0016 s = some c →
      (addr 1 ≤ 7 → addr 0 + addr 1 ≤ s.cores.eventLog.length →
        exec (.eventRead slot) s = .next (reply c resOk ((s.cores.eventLog.drop (addr 0)).take (addr 1)) s))
      ∧ (7 < addr 1 ∨ s.cores.eventLog.length < addr 0 + addr 1 → exec (.eventRead slot) s = .next (reply c resRange [] s)))

/-- A key is provisioned once (R448): an unprogrammed slot takes the unwrapped key; a programmed one, and a blob that does not unwrap, are
refused and change no fuse; a slot number above 3 is answered RANGE. -/
def Sys2Proof.Claims.KeysAreProvisionedOnce : Prop :=
  ∀ (slot : Nat) (c : QueuedCall) (s : State), callOf slot 0x0002 s = some c →
    let k := (argOf c 0).toNat
    let blob := (List.range 5).map (fun i => argOf c (i + 1))
    (4 ≤ k → exec (.keyProvision slot) s = .next (reply c resRange [] s))
    ∧ (k < 4 → s.otp.programmed.getLsbD k = true ∨ keyUnwrap Config.provisioningKey blob = none →
        exec (.keyProvision slot) s = .next (reply c resRefused [] s))
    ∧ (k < 4 → s.otp.programmed.getLsbD k = false → ∀ key, keyUnwrap Config.provisioningKey blob = some key →
        ∃ t, exec (.keyProvision slot) s = .next t
          ∧ t.otp = { s.otp with programmed := s.otp.programmed ||| BitVec.twoPow 4 k, keys := tput s.otp.keys k key })

/-- Replies, reports and key provisioning (the claims above). -/
def Obligations.ServiceReplies : Prop :=
  Claims.RepliesAreWritten
  ∧ Claims.ReportsAreGiven
  ∧ Claims.KeysAreProvisionedOnce

/-- Snapshots, captures and readback (R175 to R178, R240 to R245, R446, R675): refused with DENIED while READBACK_DIS is programmed, with
BUSY, ASLEEP and NO_CAPTURE where the stores cannot be read; else the words go to host memory. A capture records the fabric of the last
cycle, at once or at a Docent's stop, and none of them changes a fuse, a fabric frame or a stored bit. -/
def Obligations.StateIsReadBack : Prop :=
  ∀ (slot : Nat) (c : QueuedCall) (s : State),
    let n (k : Nat) := (argOf c k).toNat
    let snap : Capture := ⟨s.fabric.storedNow, s.fabric.edgeNow, s.fabric.vaultsNow, (capturePlace s).1, (capturePlace s).2⟩
    (callOf slot 0x0005 s = some c →
      (stateTime s = false → exec (.snapshotCopy slot) s = .next (reply c resBusy [] s))
      ∧ (stateTime s = true → s.otp.readbackDis = true → exec (.snapshotCopy slot) s = .next (reply c resDenied [] s))
      ∧ (stateTime s = true → s.otp.readbackDis = false → galleryAwake (n 0) s = true → 1 ≤ n 1 → n 1 ≤ 3 → 1 ≤ n 3 →
        n 2 + n 3 ≤ 512 → n 4 % 8 = 0 → s.array.curDev = [] → s.array.prevDev = [] →
        ∃ bs, bs.length = (if n 1 = 3 then 2 else 1) * 512 * n 3
          ∧ exec (.snapshotCopy slot) s = .next (reply c resOk [BitVec.ofNat 64 bs.length] (hostWriteBytes (n 4) bs s))))
    ∧ (callOf slot 0x0006 s = some c →
      (s.otp.readbackDis = true → exec (.fabricCapture slot) s = .next (reply c resDenied [] s))
      ∧ (s.otp.readbackDis = false → armed s = false → exec (.fabricCapture slot) s = .next (reply c resAsleep [] s))
      ∧ (s.otp.readbackDis = false → armed s = true →
        (n 0 = 0 → exec (.fabricCapture slot) s = .next (reply c resOk (captureReply s)
          { s with fabric := { s.fabric with capture := some snap, stopCapture := none } }))
        ∧ (n 0 = 1 → exec (.fabricCapture slot) s
          = .next { s with fabric := { s.fabric with stopCapture := some (c.slot, c.tag) } })))
    ∧ (∀ tag, s.fabric.stopCapture = some (slot, tag) →
      (s.fabric.stopA = false → s.fabric.stopB = false → exec .captureOnStop s = .next s)
      ∧ (s.fabric.stopA = true ∨ s.fabric.stopB = true → ∃ t, exec .captureOnStop s = .next t ∧ t.fabric.capture = some snap
        ∧ t.fabric.stopCapture = none ∧ t.fabric.stored = s.fabric.stored))
    ∧ (callOf slot 0x0007 s = some c →
      (s.otp.readbackDis = true → exec (.fabricReadback slot) s = .next (reply c resDenied [] s))
      ∧ (s.otp.readbackDis = false → armed s = true → n 2 % 8 = 0 → n 0 + n 1 ≤ 0x1800 →
        exec (.fabricReadback slot) s = .next (reply c resOk [BitVec.ofNat 64 (128 * n 1)] (hostWriteBytes (n 2)
          ((List.range (n 1)).flatMap (fun k => bytesOf 128 (tget 0 s.fabric.frames (n 0 + k)).toNat)) s)))
      ∧ (s.otp.readbackDis = false → armed s = true → n 2 % 8 = 0 → n 0 = 0x2000 → n 1 = 1 → s.fabric.capture = none →
        exec (.fabricReadback slot) s = .next (reply c resNoCapture [] s)))

/-- The Repair Analyser's calls (R330, R338, R339): NOT_PRESENT on a part without it; a geometry that breaks its limits and trackers beyond
those configured are answered RANGE; a good geometry, and a clear, wait for the batch boundary; the status gives the trackers
configured, those unrepairable, and the fails dropped. -/
def Obligations.RepairCalls : Prop :=
  ∀ (slot : Nat) (c : QueuedCall) (s : State),
    let n (k : Nat) := (argOf c k).toNat
    let g := geometryOf (bytesOf 8 (n 0) ++ bytesOf 8 (n 1))
    (hasRepair s = false →
      (callOf slot 0x0009 s = some c → exec (.raConfigure slot) s = .next (reply c resNotPresent [] s))
      ∧ (callOf slot 0x000A s = some c → exec (.raClear slot) s = .next (reply c resNotPresent [] s))
      ∧ (callOf slot 0x000B s = some c → exec (.raRead slot) s = .next (reply c resNotPresent [] s))
      ∧ (callOf slot 0x000C s = some c → exec (.raStatus slot) s = .next (reply c resNotPresent [] s)))
    ∧ (hasRepair s = true →
      (callOf slot 0x0009 s = some c →
        (geometryOk g = false → exec (.raConfigure slot) s = .next (reply c resRange [] s))
        ∧ (geometryReserved (bytesOf 8 (n 0) ++ bytesOf 8 (n 1)) = 0 → geometryOk g = true → atBoundary s = false →
          exec (.raConfigure slot) s
            = .next (reply c resOk [] { s with repair := { s.repair with pendingConfig := some g } })))
      ∧ (callOf slot 0x000A s = some c →
        (trackersConfigured s < n 0 + n 1 → exec (.raClear slot) s = .next (reply c resRange [] s))
        ∧ (n 0 + n 1 ≤ trackersConfigured s → atBoundary s = false → exec (.raClear slot) s
          = .next (reply c resOk [] { s with repair := { s.repair with
              pendingClear := s.repair.pendingClear ++ [(n 0, n 1)] } })))
      ∧ (callOf slot 0x000B s = some c → trackersConfigured s < n 0 + n 1 → exec (.raRead slot) s = .next (reply c resRange [] s))
      ∧ (callOf slot 0x000B s = some c → n 0 + n 1 ≤ trackersConfigured s → n 2 % 8 = 0 → n 1 = 1 →
        exec (.raRead slot) s = .next (let bs := trackerBytes (s.repair.geometry.getD {}) (n 0) (tget {} s.repair.committed (n 0))
          reply c resOk [BitVec.ofNat 64 bs.length] (hostWriteBytes (n 2) bs s)))
      ∧ (callOf slot 0x000C s = some c → exec (.raStatus slot) s = .next (reply c resOk [BitVec.ofNat 64 (trackersConfigured s),
          BitVec.ofNat 64 (s.repair.committed.countP (fun t => t.2.unrepairable)), s.repair.dropped.setWidth 64] s)))

/-! ### Debug -/

/-- Challenges (R552, R560, R561): each draws a nonce for the level asked for, by the wire or by the service call, and changes no register;
it is DENIED during the lockout, RANGE for a level that is reserved, and over the wire BUSY while the Curator does not run. A nonce
ends with its 10 s, the lockout with its 60 s. -/
def Sys2Proof.Claims.ChallengesDrawNonces : Prop :=
  ∀ (level : BitVec 2) (slot : Nat) (c : QueuedCall) (s : State),
    (s.cores.lockedOut = true → exec (.challenge level) s = .next (answer dbgDenied [] s))
    ∧ (s.cores.lockedOut = false → level = 3#2 → exec (.challenge level) s = .next (answer dbgRange [] s))
    ∧ (s.cores.lockedOut = false → level ≠ 3#2 → coreRuns s.cores.curator = false →
        exec (.challenge level) s = .next (answer dbgBusy [] s))
    ∧ (s.cores.lockedOut = false → level ≠ 3#2 → coreRuns s.cores.curator = true →
        ∃ n t, exec (.challenge level) s = .next t ∧ t.cores.nonce = some (n, level)
          ∧ t.cores.debugReply = dbgOk :: bytesOf 8 n.toNat ∧ t.regs = s.regs)
    ∧ (callOf slot 0x0017 s = some c →
        (s.cores.lockedOut = true → exec (.debugChallenge slot) s = .next (reply c resDenied [] s))
        ∧ (s.cores.lockedOut = false → 2 < (argOf c 0).toNat → exec (.debugChallenge slot) s = .next (reply c resRange [] s))
        ∧ (s.cores.lockedOut = false → (argOf c 0).toNat = level.toNat → level ≠ 3#2 →
            ∃ n s1, s1.cores.nonce = some (n, level) ∧ s1.regs = s.regs ∧ s1.otp = s.otp
              ∧ exec (.debugChallenge slot) s = .next (reply c resOk [n] s1)))
    ∧ exec .nonceExpiry s = .next { s with cores := { s.cores with nonce := none } }
    ∧ exec .challengeLockoutEnd s = .next { s with cores := { s.cores with lockedOut := false } }

/-- Responses (R560, R561): the right token makes LEVEL the requested level and ends the nonce; a wrong one is DENIED, raises the event,
ends the nonce, leaves LEVEL, and as the fourth in a row begins the lockout. -/
def Sys2Proof.Claims.ResponsesGrantOrCount : Prop :=
  ∀ (token n : QWord) (level : BitVec 2) (slot : Nat) (c : QueuedCall) (s : State), s.cores.nonce = some (n, level) →
    (token.toNat = tokenFor n level → ∃ t, exec (.response token) s = .next t ∧ t.regs.debugLevel = level ∧ t.cores.nonce = none
        ∧ t.cores.debugReply = [dbgOk, level.setWidth 8])
    ∧ (token.toNat ≠ tokenFor n level → ∃ t, exec (.response token) s = .next t ∧ t.regs.debugLevel = s.regs.debugLevel
        ∧ t.cores.nonce = none ∧ t.cores.debugReply = [dbgDenied] ∧ eventSet evDebug t
        ∧ t.cores.lockedOut = (s.cores.lockedOut || decide (3 ≤ s.cores.wrongResponses)))
    ∧ (callOf slot 0x0018 s = some c → argOf c 0 = token →
        (token.toNat = tokenFor n level → ∃ s1, s1.regs.debugLevel = level ∧ s1.cores.nonce = none
          ∧ exec (.debugResponse slot) s = .next (reply c resOk [level.setWidth 64] s1))
        ∧ (token.toNat ≠ tokenFor n level → ∃ s1, s1.regs.debugLevel = s.regs.debugLevel ∧ s1.cores.nonce = none
          ∧ exec (.debugResponse slot) s = .next (reply c resDenied [] s1)))

/-- Challenges draw nonces, and responses grant a level or count against a lockout (the claims above). -/
def Obligations.DebugLevelsAreGranted : Prop :=
  Claims.ChallengesDrawNonces
  ∧ Claims.ResponsesGrantOrCount

/-- A command below its minimum effective level is answered DENIED, and changes nothing (R552). -/
def Sys2Proof.Claims.CommandsBelowTheirLevel : Prop :=
  ∀ (space : Byte) (addr : DWord) (count : Nat) (words : List DWord) (cores : BitVec 4) (core : Core) (channel : Nat)
    (sources : DWord) (sinks : Word) (s : State),
    (effectiveLevel s < 1 → ∀ c ∈ [.debugRead space addr count, .coreStatus, .trigger channel sources sinks addr, .trace count],
      exec c s = .next (answer dbgDenied [] s))
    ∧ (effectiveLevel s < 2 → ∀ c ∈ [.debugWrite space addr words, .halt cores, .resume cores, .step core count],
      exec c s = .next (answer dbgDenied [] s))
    ∧ (effectiveLevel s < 2 → sinks &&& 0xF#16 ≠ 0 →
      exec (.trigger channel sources sinks addr) s = .next (answer dbgDenied [] s))

/-- The debug port's reads and writes (R38, R552 to R555): a range outside its space is answered RANGE; a register reads as it stands
and changes nothing but the reply; a register write is master 3's; the registers of a core that runs are answered NOT_HALTED, those
of a halted core read back as written; a word of Common Store takes the bytes written, most significant first. -/
def Sys2Proof.Claims.DebugPortAccess : Prop :=
  ∀ (space : Byte) (addr : DWord) (count : Nat) (words : List DWord) (w : DWord) (s : State),
    (1 ≤ effectiveLevel s →
      (spaceOk space addr.toNat count = false → exec (.debugRead space addr count) s = .next (answer dbgRange [] s))
      ∧ (addr.toNat < 64 → addr.toNat < 0x1A ∨ 0x1D < addr.toNat → exec (.debugRead 0 addr 1) s
          = .next (answer dbgOk (bytesOf 4 (regValue (view .debug s) addr.toNat s).toNat) s))
      ∧ (spaceOk 3 addr.toNat count = true → (coreState (coreAt (addr.toNat / 0x40000)) s).halted = false →
          exec (.debugRead 3 addr count) s = .next (answer dbgNotHalted [] s))
      ∧ (spaceOk 2 addr.toNat count = true → s.power.field = .dormant → s.barrier.fieldSilent = false →
          exec (.debugRead 2 addr count) s = .next (answer dbgAsleep [] s)))
    ∧ (effectiveLevel s = 2 →
      (spaceOk space addr.toNat words.length = false → exec (.debugWrite space addr words) s = .next (answer dbgRange [] s))
      ∧ (addr.toNat < 64 → exec (.debugWrite 0 addr [w]) s
          = .next (answer dbgOk [] (fileWrite .debug addr.toNat (w.setWidth 16) s)))
      ∧ (spaceOk 3 addr.toNat 1 = true → (coreState (coreAt (addr.toNat / 0x40000)) s).halted = true →
          ∃ t, exec (.debugWrite 3 addr [w]) s = .next t
            ∧ exec (.debugRead 3 addr 1) t = .next (answer dbgOk (bytesOf 4 w.toNat) t))
      ∧ (spaceOk 2 addr.toNat 1 = true → fieldAwake s = true → storeAsleep addr.toNat 1 s = false → inShadow addr.toNat = false →
          touchesShadow addr.toNat 4 = false →
          exec (.debugWrite 2 addr [w]) s = .next (answer dbgOk [] (csWrite addr.toNat (bytesOf 4 w.toNat) s))))

/-- Debug commands below their level, and the port's reads and writes (the claims above). -/
def Obligations.DebugPort : Prop :=
  Claims.CommandsBelowTheirLevel
  ∧ Claims.DebugPortAccess

/-- Halting, resuming and stepping (R552, R556, R559, R563, R565, R566): a halt leaves every named core halted, a resume none of them; a
step of a halted core runs it for N instructions and its end halts it again; a breakpoint halts only at FULL; a channel whose source is
asserted halts the cores that its sinks name; CORE_STATUS gives two bytes a core. -/
def Sys2Proof.Claims.CoresHaltAndRun : Prop :=
  ∀ (cores : BitVec 4) (c : Core) (n : Nat) (s : State),
    (effectiveLevel s = 2 →
      (∃ t, exec (.halt cores) s = .next t ∧ t.cores.debugReply = [dbgOk]
        ∧ ∀ x : Core, cores.getLsbD (coreNum x) = true → (coreState x t).halted = true)
      ∧ (∃ t, exec (.resume cores) s = .next t ∧ t.cores.debugReply = [dbgOk]
        ∧ ∀ x : Core, cores.getLsbD (coreNum x) = true → (coreState x t).halted = false)
      ∧ (n = 0 ∨ 65535 < n → exec (.step c n) s = .next (answer dbgRange [] s))
      ∧ (1 ≤ n → n ≤ 65535 → (coreState c s).halted = false → exec (.step c n) s = .next (answer dbgNotHalted [] s))
      ∧ (1 ≤ n → n ≤ 65535 → (coreState c s).halted = true → ∃ t, exec (.step c n) s = .next t
        ∧ (coreState c t).stepLeft = n ∧ (coreState c t).halted = false
        ∧ ∀ x : Core, x ≠ c → coreState x t = coreState x s)
      ∧ (coreRuns (coreState c s) = true → ∃ t, exec (.breakpoint c) s = .next t ∧ (coreState c t).halted = true
        ∧ (coreState c t).cause = 3))
    ∧ (effectiveLevel s ≠ 2 → exec (.breakpoint c) s = .next s)
    ∧ (coreRuns (coreState c s) = true → (coreState c s).stepLeft ≠ 0 → ∃ t, exec (.stepEnd c) s = .next t
        ∧ (coreState c t).halted = true ∧ (coreState c t).cause = 2)
    ∧ (1 ≤ effectiveLevel s → ∃ t, exec .coreStatus s = .next t ∧ t.cores.debugReply.length = 9
        ∧ (c = .curator → (coreState c s).halted = true → lget 0 t.cores.debugReply 2 = (coreState c s).cause))

/-- Cross-triggers (R552, R565): a channel takes its sources, sinks and MATCH, reserved bits reading 0; a source that is asserted and
enabled halts every core that the channel's sinks name, and a source that is not enabled does nothing. -/
def Sys2Proof.Claims.CrossTriggers : Prop :=
  ∀ (channel source : Nat) (sources matchIndex : DWord) (sinks : Word) (s : State),
    (effectiveLevel s = 2 → channel < 8 → s.cores.channels.length = 8 →
      ∃ t, exec (.trigger channel sources sinks matchIndex) s = .next t ∧ t.cores.debugReply = [dbgOk]
        ∧ lget {} t.cores.channels channel = ⟨sources &&& 0x03FFFFFF#32, sinks &&& 0xFF#16, matchIndex⟩
        ∧ ∀ k, k ≠ channel → lget {} t.cores.channels k = lget {} s.cores.channels k)
    ∧ (channel < 8 → (lget {} s.cores.channels channel).sources.getLsbD source = true →
      sourceOn (lget {} s.cores.channels channel) source s = true →
      ∃ t, exec (.crossTrigger channel source) s = .next t
        ∧ (∀ c : Core, (lget {} s.cores.channels channel).sinks.getLsbD (coreNum c) = true → (coreState c t).halted = true)
        ∧ (∀ c : Core, (coreState c s).halted = true → coreState c t = coreState c s))
    ∧ ((lget {} s.cores.channels channel).sources.getLsbD source = false → exec (.crossTrigger channel source) s = .next s)

/-- Halting, resuming, stepping, and cross-triggers (the claims above). -/
def Obligations.CoresHaltAndRun : Prop :=
  Claims.CoresHaltAndRun
  ∧ Claims.CrossTriggers

/-- Trace (R559, R570, R571): trace_config sets the masks and the destination; a running core's write of an enabled port adds one packet
with its core, port and value, while a halted core and a port that is not enabled emit nothing; TRACE takes the oldest packets. -/
def Sys2Proof.Claims.TraceFlows : Prop :=
  ∀ (slot : Nat) (q : QueuedCall) (c : Core) (port max : Nat) (value : DWord) (s : State),
    (callOf slot 0x0019 s = some q →
      (effectiveLevel s = 0 → exec (.traceConfig slot) s = .next (reply q resDenied [] s))
      ∧ (1 ≤ effectiveLevel s → argOf q 4 = 0 → (∀ k, k < 4 → (argOf q k).toNat < 2 ^ 31) →
        ∃ t, exec (.traceConfig slot) s = .next t ∧ t.cores.traceToRing = false
          ∧ ∀ x : Core, (coreState x t).traceMask = (argOf q (coreNum x)).setWidth 31))
    ∧ (coreRuns (coreState c s) = true → 1 ≤ effectiveLevel s → port < 31 → (coreState c s).traceMask.getLsbD port = true →
        s.cores.traceToRing = false → s.cores.traceDropped = 0 → Config.traceFull s.cores.freeCount = false →
        ∃ t p, exec (.tracePacket c port value) s = .next t ∧ t.cores.trace = s.cores.trace ++ [p]
          ∧ p.extractLsb' 0 32 = value ∧ (p.extractLsb' 57 5).toNat = port ∧ (p.extractLsb' 62 2).toNat = coreNum c)
    ∧ ((coreState c s).halted = true ∨ (coreState c s).traceMask.getLsbD port = false ∨ effectiveLevel s = 0 →
        exec (.tracePacket c port value) s = .next s)
    ∧ (1 ≤ effectiveLevel s → 1 ≤ max → max ≤ 16 → ∃ t, exec (.trace max) s = .next t
        ∧ t.cores.trace = s.cores.trace.drop max
        ∧ t.cores.debugReply = dbgOk :: (s.cores.trace.take max).flatMap (fun p => bytesOf 8 p.toNat))

/-- The wire (R549 to R552, R556): a frame whose CRC-8 fails is no request; a break ends the request; CONNECT needs no level and gives the
identity, the effective level and the cap; at the end of the hold after a reset the Curator runs, or every core stays halted where
HALT_ON_RESET was taken at FULL. -/
def Sys2Proof.Claims.WireAndReset : Prop :=
  ∀ (body : List Byte) (crc flags : Byte) (s : State),
    (crc8 (bitsMsb (8 * body.length) (ofBytes body)) ≠ crc.toNat → exec (.debugFrame body crc) s = .next s)
    ∧ (crc8 (bitsMsb (8 * body.length) (ofBytes body)) = crc.toNat → ∃ t, exec (.debugFrame body crc) s = .next t
        ∧ t.cores.lastRequest = body)
    ∧ exec .debugBreak s = .next { s with cores := { s.cores with lastRequest := [] } }
    ∧ (∃ t, exec (.connect flags) s = .next t
        ∧ t.cores.debugReply = dbgOk :: (bytesOf 2 (regValue (view .debug s) 0 s).toNat ++ bytesOf 2 (regValue (view .debug s) 1 s).toNat
          ++ [BitVec.ofNat 8 (effectiveLevel s), BitVec.ofNat 8 (otpCap s.otp)])
        ∧ (effectiveLevel s ≠ 2 → t.cores.haltOnReset = s.cores.haltOnReset)
        ∧ (effectiveLevel s = 2 → s.cores.resetHold = true → flags.getLsbD 0 = true → t.cores.haltOnReset = true))
    ∧ (s.cores.resetHold = true →
        (s.cores.haltOnReset = true → ∃ t, exec .resetHoldEnd s = .next t ∧ t.cores.resetHold = false
          ∧ ∀ c : Core, (coreState c t).halted = true ∧ (coreState c t).cause = 5)
        ∧ (s.cores.haltOnReset = false → ∃ t, exec .resetHoldEnd s = .next t ∧ t.cores.resetHold = false
          ∧ t.cores.curator.atReset = false))

/-- Trace packets, the debug wire, and the hold after a reset (the claims above). -/
def Obligations.TraceAndWire : Prop :=
  Claims.TraceFlows
  ∧ Claims.WireAndReset
end

