-- ==== Sys2Proof/Laws/Basics.lean ====
section
/-! SUPPORT. What the smallest operations do: bit fields, sparse stores, sets, list places, counts. -/

namespace Sys2Proof.Machine

/-! ### Sparse stores -/

theorem tget_tdel {α : Type} (d : α) (t : Table α) (k j : Nat) : tget d (tdel t k) j = if j = k then d else tget d t j := by
  induction t with
  | nil => simp [tdel, tget]
  | cons e rest ih =>
    obtain ⟨i, v⟩ := e
    by_cases h : i = k
    · by_cases h2 : j = k
      · subst h2; simpa [tdel, h] using ih
      · simp [tdel, tget, h, ih, h2, Ne.symm h2]
    · by_cases h2 : i = j
      · have h3 : j ≠ k := fun e => h (h2.trans e)
        simp [tdel, tget, h, h2, h3]
      · simp [tdel, tget, h, ih, h2]

theorem tget_tput {α : Type} (d : α) (t : Table α) (k j : Nat) (v : α) : tget d (tput t k v) j = if j = k then v else tget d t j := by
  induction t with
  | nil => simp [tput, tget, eq_comm]
  | cons e rest ih =>
    obtain ⟨i, w⟩ := e
    by_cases h0 : k < i
    · by_cases h2 : j = k
      · simp [tput, tget, h0, h2]
      · simp [tput, tget, h0, h2, Ne.symm h2]
    · by_cases h : i = k
      · by_cases h2 : j = k
        · simp [tput, tget, h, h2]
        · simp [tput, tget, h, h2, Ne.symm h2]
      · by_cases h2 : i = j
        · have h3 : j ≠ k := fun e => h (h2.trans e)
          subst h2
          simp [tput, tget, h0, h]
        · simp [tput, tget, h0, h, ih, h2]

/-- What a sparse store holds after a write: the value at its key, and elsewhere what it held. -/
theorem tget_tset {α : Type} [DecidableEq α] (d : α) (t : Table α) (k j : Nat) (v : α) :
    tget d (tset d t k v) j = if j = k then v else tget d t j := by
  unfold tset
  split
  · rename_i h; rw [tget_tdel, h]
  · rw [tget_tput]

@[simp] theorem tget_tset_self {α : Type} [DecidableEq α] (d : α) (t : Table α) (k : Nat) (v : α) : tget d (tset d t k v) k = v := by
  simp [tget_tset]

theorem tget_tset_ne {α : Type} [DecidableEq α] (d : α) (t : Table α) (k j : Nat) (v : α) (h : j ≠ k) :
    tget d (tset d t k v) j = tget d t j := by simp [tget_tset, h]

/-! ### Sets -/

theorem mem_nins (s : NatSet) (k j : Nat) : j ∈ nins s k ↔ j = k ∨ j ∈ s := by
  induction s with
  | nil => simp [nins]
  | cons a rest ih =>
    unfold nins
    split
    · simp
    · split
      · rename_i h; simp [h]
      · simp [ih]; tauto

@[simp] theorem contains_nins (s : NatSet) (k : Nat) : (nins s k).contains k = true := by simp [mem_nins]

theorem mem_ndel_of_ne (s : NatSet) (k j : Nat) (h : j ≠ k) : j ∈ ndel s k ↔ j ∈ s := by
  induction s with
  | nil => simp [ndel]
  | cons a rest ih =>
    unfold ndel
    split
    · rename_i e; simp [e, h]
    · simp [ih]

/-! ### Places of a list -/

@[simp] theorem length_lset {α : Type} (l : List α) (i : Nat) (v : α) : (lset l i v).length = l.length := by simp [lset]

@[simp] theorem lget_lset_self {α : Type} (d : α) (l : List α) (i : Nat) (v : α) (h : i < l.length) : lget d (lset l i v) i = v := by
  simp [lget, lset, h]

@[simp] theorem lget_lset_ne {α : Type} (d : α) (l : List α) (i j : Nat) (v : α) (h : i ≠ j) : lget d (lset l i v) j = lget d l j := by
  simp [lget, lset, List.getElem?_set, h]

@[simp] theorem lset_lset {α : Type} (l : List α) (i : Nat) (v w : α) : lset (lset l i v) i w = lset l i w := by simp [lset]

/-! ### Bit fields -/

theorem fld_lt {n : Nat} (x : BitVec n) (hi lo : Nat) : fld x hi lo < 2 ^ (hi + 1 - lo) := Nat.mod_lt _ (by positivity)

theorem testBit_fld {n : Nat} (x : BitVec n) (hi lo i : Nat) :
    (fld x hi lo).testBit i = (decide (i < hi + 1 - lo) && x.getLsbD (lo + i)) := by
  simp [fld, BitVec.getLsbD, Nat.testBit_mod_two_pow, Nat.testBit_shiftRight]

theorem setFld_nat (x m lo w v : Nat) (hv : v < 2 ^ w) (hm : m = x / 2 ^ lo % 2 ^ w) :
    x - m * 2 ^ lo + v * 2 ^ lo = 2 ^ lo * (2 ^ w * (x / 2 ^ (lo + w)) + v) + x % 2 ^ lo := by
  have h1 : x = 2 ^ lo * (x / 2 ^ lo) + x % 2 ^ lo := (Nat.div_add_mod x _).symm
  have h2 : x / 2 ^ lo = 2 ^ w * (x / 2 ^ lo / 2 ^ w) + x / 2 ^ lo % 2 ^ w := (Nat.div_add_mod _ _).symm
  rw [Nat.div_div_eq_div_mul, ← pow_add] at h2
  rw [hm]
  generalize x / 2 ^ (lo + w) = q at *
  generalize x / 2 ^ lo % 2 ^ w = r at *
  generalize x % 2 ^ lo = l at *
  have h3 : x = 2 ^ lo * (2 ^ w * q) + r * 2 ^ lo + l := by rw [h1, h2]; ring
  rw [h3, Nat.mul_add]
  have : 2 ^ lo * (2 ^ w * q) + r * 2 ^ lo + l - r * 2 ^ lo = 2 ^ lo * (2 ^ w * q) + l := by omega
  rw [this]; ring

theorem getLsbD_setFld {n : Nat} (x : BitVec n) (hi lo v j : Nat) (h : lo ≤ hi) :
    (setFld x hi lo v).getLsbD j = if lo ≤ j ∧ j ≤ hi then decide (j < n) && v.testBit (j - lo) else x.getLsbD j := by
  unfold setFld
  rw [setFld_nat x.toNat (fld x hi lo) lo (hi + 1 - lo) (v % 2 ^ (hi + 1 - lo)) (Nat.mod_lt _ (by positivity))
    (by simp [fld, Nat.shiftRight_eq_div_pow])]
  rw [BitVec.getLsbD_ofNat]
  rw [Nat.testBit_two_pow_mul_add _ (Nat.mod_lt _ (by positivity))]
  rw [Nat.testBit_two_pow_mul_add _ (Nat.mod_lt _ (by positivity))]
  have hx : ∀ i, n ≤ i → x.toNat.testBit i = false := fun i hi => by
    exact Nat.testBit_lt_two_pow (lt_of_lt_of_le x.isLt (Nat.pow_le_pow_right (by norm_num) hi))
  by_cases h1 : j < lo
  · have : ¬ (lo ≤ j ∧ j ≤ hi) := by omega
    rw [if_pos h1, if_neg this, Nat.testBit_mod_two_pow]
    by_cases hj : j < n
    · simp [h1, hj, BitVec.getLsbD]
    · simp [hj, BitVec.getLsbD, hx j (by omega)]
  · rw [if_neg h1]
    by_cases h2 : j ≤ hi
    · rw [if_pos (show j - lo < hi + 1 - lo by omega), if_pos (show lo ≤ j ∧ j ≤ hi by omega), Nat.testBit_mod_two_pow]
      simp [show j - lo < hi + 1 - lo by omega]
    · rw [if_neg (by omega), if_neg (by omega), Nat.testBit_div_two_pow]
      rw [show j - lo - (hi + 1 - lo) + (lo + (hi + 1 - lo)) = j by omega]
      by_cases hj : j < n
      · simp [hj, BitVec.getLsbD]
      · simp [hj, BitVec.getLsbD, hx j (by omega)]

/-- A field reads back as written. -/
theorem fld_setFld {n : Nat} (x : BitVec n) (hi lo v : Nat) (h : lo ≤ hi) (hn : hi < n) :
    fld (setFld x hi lo v) hi lo = v % 2 ^ (hi + 1 - lo) := by
  apply Nat.eq_of_testBit_eq
  intro i
  rw [testBit_fld, getLsbD_setFld _ _ _ _ _ h, Nat.testBit_mod_two_pow]
  by_cases hi' : i < hi + 1 - lo
  · simp [hi', show lo ≤ lo + i ∧ lo + i ≤ hi by omega, show lo + i < n by omega]
  · simp [hi']

/-- A field keeps its value when another one is written. -/
theorem fld_setFld_ne {n : Nat} (x : BitVec n) (hi lo hi' lo' v : Nat) (h : lo ≤ hi) (hd : hi' < lo ∨ hi < lo') :
    fld (setFld x hi lo v) hi' lo' = fld x hi' lo' := by
  apply Nat.eq_of_testBit_eq
  intro i
  rw [testBit_fld, testBit_fld, getLsbD_setFld _ _ _ _ _ h]
  by_cases hi2 : i < hi' + 1 - lo'
  · rw [if_neg (by omega)]
  · simp [hi2]

theorem getLsbD_setBit {n : Nat} (x : BitVec n) (i j : Nat) (b : Bool) :
    (setBit x i b).getLsbD j = if j = i then decide (j < n) && b else x.getLsbD j := by
  unfold setBit
  rw [getLsbD_setFld _ _ _ _ _ (le_refl i)]
  by_cases h : j = i
  · subst h; cases b <;> simp
  · rw [if_neg (by omega), if_neg h]

theorem fld_bit {n : Nat} (x : BitVec n) (i : Nat) : fld x i i = (x.getLsbD i).toNat := by
  simp [fld, BitVec.getLsbD, Nat.testBit, Nat.shiftRight_eq_div_pow, Nat.one_and_eq_mod_two]
  have := Nat.mod_two_eq_zero_or_one (x.toNat / 2 ^ i)
  rcases this with h | h <;> simp [h]

theorem fld_setBit_ne {n : Nat} (x : BitVec n) (i hi lo : Nat) (b : Bool) (hd : hi < i ∨ i < lo) :
    fld (setBit x i b) hi lo = fld x hi lo := by
  unfold setBit
  exact fld_setFld_ne x i i hi lo b.toNat (le_refl i) hd

/-- The bit of a power of two, set in a word. -/
theorem getLsbD_or_twoPow {n : Nat} (x : BitVec n) (i j : Nat) :
    (x ||| BitVec.twoPow n i).getLsbD j = (x.getLsbD j || (decide (j < n) && decide (j = i))) := by
  by_cases h : j = i
  · subst h; simp [BitVec.getLsbD_twoPow]
  · simp [BitVec.getLsbD_twoPow, h, Ne.symm h]

end Sys2Proof.Machine
end

