-- ==== Sys2Proof/Laws/Frames.lean ====
section
/-! SUPPORT. What each operation leaves alone: one lemma per operation, over the kinds of state whose changes are few. -/

namespace Sys2Proof.Machine

@[simp] theorem ite_pending (c : Prop) [Decidable c] (a b : State) :
    (if c then a else b).pending = if c then a.pending else b.pending := by split <;> rfl

@[simp] theorem foldl_pending {α : Type} (f : State → α → State) (h : ∀ s a, (f s a).pending = s.pending) (l : List α) (s : State) :
    (l.foldl f s).pending = s.pending := by
  induction l generalizing s with
  | nil => rfl
  | cons a l ih => simp [List.foldl_cons, ih, h]

@[simp] theorem ite_variant (c : Prop) [Decidable c] (a b : State) :
    (if c then a else b).variant = if c then a.variant else b.variant := by split <;> rfl

@[simp] theorem foldl_variant {α : Type} (f : State → α → State) (h : ∀ s a, (f s a).variant = s.variant) (l : List α) (s : State) :
    (l.foldl f s).variant = s.variant := by
  induction l generalizing s with
  | nil => rfl
  | cons a l ih => simp [List.foldl_cons, ih, h]

@[simp] theorem ite_otp (c : Prop) [Decidable c] (a b : State) :
    (if c then a else b).otp = if c then a.otp else b.otp := by split <;> rfl

@[simp] theorem foldl_otp {α : Type} (f : State → α → State) (h : ∀ s a, (f s a).otp = s.otp) (l : List α) (s : State) :
    (l.foldl f s).otp = s.otp := by
  induction l generalizing s with
  | nil => rfl
  | cons a l ih => simp [List.foldl_cons, ih, h]

@[simp] theorem ite_mlen (c : Prop) [Decidable c] (a b : State) :
    (if c then a else b).masters.length = if c then a.masters.length else b.masters.length := by split <;> rfl

@[simp] theorem foldl_mlen {α : Type} (f : State → α → State) (h : ∀ s a, (f s a).masters.length = s.masters.length) (l : List α) (s : State) :
    (l.foldl f s).masters.length = s.masters.length := by
  induction l generalizing s with
  | nil => rfl
  | cons a l ih => simp [List.foldl_cons, ih, h]

@[simp] theorem ite_clen (c : Prop) [Decidable c] (a b : State) :
    (if c then a else b).cores.channels.length = if c then a.cores.channels.length else b.cores.channels.length := by split <;> rfl

@[simp] theorem foldl_clen {α : Type} (f : State → α → State) (h : ∀ s a, (f s a).cores.channels.length = s.cores.channels.length) (l : List α) (s : State) :
    (l.foldl f s).cores.channels.length = s.cores.channels.length := by
  induction l generalizing s with
  | nil => rfl
  | cons a l ih => simp [List.foldl_cons, ih, h]

@[simp] theorem ite_level (c : Prop) [Decidable c] (a b : State) :
    (if c then a else b).regs.debugLevel = if c then a.regs.debugLevel else b.regs.debugLevel := by split <;> rfl

@[simp] theorem foldl_level {α : Type} (f : State → α → State) (h : ∀ s a, (f s a).regs.debugLevel = s.regs.debugLevel) (l : List α) (s : State) :
    (l.foldl f s).regs.debugLevel = s.regs.debugLevel := by
  induction l generalizing s with
  | nil => rfl
  | cons a l ih => simp [List.foldl_cons, ih, h]

@[simp] theorem ite_cs (c : Prop) [Decidable c] (a b : State) :
    (if c then a else b).store.cs = if c then a.store.cs else b.store.cs := by split <;> rfl

@[simp] theorem foldl_cs {α : Type} (f : State → α → State) (h : ∀ s a, (f s a).store.cs = s.store.cs) (l : List α) (s : State) :
    (l.foldl f s).store.cs = s.store.cs := by
  induction l generalizing s with
  | nil => rfl
  | cons a l ih => simp [List.foldl_cons, ih, h]

@[simp] theorem ite_csDev (c : Prop) [Decidable c] (a b : State) :
    (if c then a else b).store.csDev = if c then a.store.csDev else b.store.csDev := by split <;> rfl

@[simp] theorem foldl_csDev {α : Type} (f : State → α → State) (h : ∀ s a, (f s a).store.csDev = s.store.csDev) (l : List α) (s : State) :
    (l.foldl f s).store.csDev = s.store.csDev := by
  induction l generalizing s with
  | nil => rfl
  | cons a l ih => simp [List.foldl_cons, ih, h]

@[simp] theorem ite_granules (c : Prop) [Decidable c] (a b : State) :
    (if c then a else b).store.granules = if c then a.store.granules else b.store.granules := by split <;> rfl

@[simp] theorem foldl_granules {α : Type} (f : State → α → State) (h : ∀ s a, (f s a).store.granules = s.store.granules) (l : List α) (s : State) :
    (l.foldl f s).store.granules = s.store.granules := by
  induction l generalizing s with
  | nil => rfl
  | cons a l ih => simp [List.foldl_cons, ih, h]

@[simp] theorem ite_pins (c : Prop) [Decidable c] (a b : State) :
    (if c then a else b).pins = if c then a.pins else b.pins := by split <;> rfl

@[simp] theorem foldl_pins {α : Type} (f : State → α → State) (h : ∀ s a, (f s a).pins = s.pins) (l : List α) (s : State) :
    (l.foldl f s).pins = s.pins := by
  induction l generalizing s with
  | nil => rfl
  | cons a l ih => simp [List.foldl_cons, ih, h]

@[simp] theorem ite_stream (c : Prop) [Decidable c] (a b : State) :
    (if c then a else b).stream = if c then a.stream else b.stream := by split <;> rfl

@[simp] theorem foldl_stream {α : Type} (f : State → α → State) (h : ∀ s a, (f s a).stream = s.stream) (l : List α) (s : State) :
    (l.foldl f s).stream = s.stream := by
  induction l generalizing s with
  | nil => rfl
  | cons a l ih => simp [List.foldl_cons, ih, h]

@[simp] theorem ite_power (c : Prop) [Decidable c] (a b : State) :
    (if c then a else b).power = if c then a.power else b.power := by split <;> rfl

@[simp] theorem foldl_power {α : Type} (f : State → α → State) (h : ∀ s a, (f s a).power = s.power) (l : List α) (s : State) :
    (l.foldl f s).power = s.power := by
  induction l generalizing s with
  | nil => rfl
  | cons a l ih => simp [List.foldl_cons, ih, h]

@[simp] theorem ite_loader (c : Prop) [Decidable c] (a b : State) :
    (if c then a else b).loader = if c then a.loader else b.loader := by split <;> rfl

@[simp] theorem foldl_loader {α : Type} (f : State → α → State) (h : ∀ s a, (f s a).loader = s.loader) (l : List α) (s : State) :
    (l.foldl f s).loader = s.loader := by
  induction l generalizing s with
  | nil => rfl
  | cons a l ih => simp [List.foldl_cons, ih, h]

@[simp] theorem ite_conservator (c : Prop) [Decidable c] (a b : State) :
    (if c then a else b).conservator = if c then a.conservator else b.conservator := by split <;> rfl

@[simp] theorem foldl_conservator {α : Type} (f : State → α → State) (h : ∀ s a, (f s a).conservator = s.conservator) (l : List α) (s : State) :
    (l.foldl f s).conservator = s.conservator := by
  induction l generalizing s with
  | nil => rfl
  | cons a l ih => simp [List.foldl_cons, ih, h]

@[simp] theorem ite_egress (c : Prop) [Decidable c] (a b : State) :
    (if c then a else b).egress = if c then a.egress else b.egress := by split <;> rfl

@[simp] theorem foldl_egress {α : Type} (f : State → α → State) (h : ∀ s a, (f s a).egress = s.egress) (l : List α) (s : State) :
    (l.foldl f s).egress = s.egress := by
  induction l generalizing s with
  | nil => rfl
  | cons a l ih => simp [List.foldl_cons, ih, h]

@[simp] theorem ite_repair (c : Prop) [Decidable c] (a b : State) :
    (if c then a else b).repair = if c then a.repair else b.repair := by split <;> rfl

@[simp] theorem foldl_repair {α : Type} (f : State → α → State) (h : ∀ s a, (f s a).repair = s.repair) (l : List α) (s : State) :
    (l.foldl f s).repair = s.repair := by
  induction l generalizing s with
  | nil => rfl
  | cons a l ih => simp [List.foldl_cons, ih, h]

@[simp] theorem ite_shadow (c : Prop) [Decidable c] (a b : State) :
    (if c then a else b).shadow = if c then a.shadow else b.shadow := by split <;> rfl

@[simp] theorem foldl_shadow {α : Type} (f : State → α → State) (h : ∀ s a, (f s a).shadow = s.shadow) (l : List α) (s : State) :
    (l.foldl f s).shadow = s.shadow := by
  induction l generalizing s with
  | nil => rfl
  | cons a l ih => simp [List.foldl_cons, ih, h]

@[simp] theorem ite_inForce (c : Prop) [Decidable c] (a b : State) :
    (if c then a else b).inForce = if c then a.inForce else b.inForce := by split <;> rfl

@[simp] theorem foldl_inForce {α : Type} (f : State → α → State) (h : ∀ s a, (f s a).inForce = s.inForce) (l : List α) (s : State) :
    (l.foldl f s).inForce = s.inForce := by
  induction l generalizing s with
  | nil => rfl
  | cons a l ih => simp [List.foldl_cons, ih, h]

@[simp] theorem ite_otpRequest (c : Prop) [Decidable c] (a b : State) :
    (if c then a else b).otpRequest = if c then a.otpRequest else b.otpRequest := by split <;> rfl

@[simp] theorem foldl_otpRequest {α : Type} (f : State → α → State) (h : ∀ s a, (f s a).otpRequest = s.otpRequest) (l : List α) (s : State) :
    (l.foldl f s).otpRequest = s.otpRequest := by
  induction l generalizing s with
  | nil => rfl
  | cons a l ih => simp [List.foldl_cons, ih, h]

@[simp] theorem ite_heldCommands (c : Prop) [Decidable c] (a b : State) :
    (if c then a else b).heldCommands = if c then a.heldCommands else b.heldCommands := by split <;> rfl

@[simp] theorem foldl_heldCommands {α : Type} (f : State → α → State) (h : ∀ s a, (f s a).heldCommands = s.heldCommands) (l : List α) (s : State) :
    (l.foldl f s).heldCommands = s.heldCommands := by
  induction l generalizing s with
  | nil => rfl
  | cons a l ih => simp [List.foldl_cons, ih, h]

@[simp] theorem ite_crossReads (c : Prop) [Decidable c] (a b : State) :
    (if c then a else b).crossReads = if c then a.crossReads else b.crossReads := by split <;> rfl

@[simp] theorem foldl_crossReads {α : Type} (f : State → α → State) (h : ∀ s a, (f s a).crossReads = s.crossReads) (l : List α) (s : State) :
    (l.foldl f s).crossReads = s.crossReads := by
  induction l generalizing s with
  | nil => rfl
  | cons a l ih => simp [List.foldl_cons, ih, h]

@[simp] theorem ite_plen (c : Prop) [Decidable c] (a b : State) :
    (if c then a else b).pins.pins.length = if c then a.pins.pins.length else b.pins.pins.length := by split <;> rfl

@[simp] theorem foldl_plen {α : Type} (f : State → α → State) (h : ∀ s a, (f s a).pins.pins.length = s.pins.pins.length) (l : List α) (s : State) :
    (l.foldl f s).pins.pins.length = s.pins.pins.length := by
  induction l generalizing s with
  | nil => rfl
  | cons a l ih => simp [List.foldl_cons, ih, h]

@[simp] theorem ite_pinsLen (c : Prop) [Decidable c] (a b : Pins) :
    (if c then a else b).pins.length = if c then a.pins.length else b.pins.length := by split <;> rfl

@[simp] theorem withFaultBit_level (c : Nat) (r : RegFile) : (withFaultBit c r).debugLevel = r.debugLevel := by
  unfold withFaultBit; (repeat' split) <;> rfl

@[simp] theorem withFaultFirst_level (c : Nat) (r : RegFile) : (withFaultFirst c r).debugLevel = r.debugLevel := by
  unfold withFaultFirst; split <;> rfl

@[simp] theorem emit_frame (o : HostOut) (s : State) :
    (emit o s).pending = s.pending ∧ (emit o s).variant = s.variant ∧ (emit o s).otp = s.otp ∧
    (emit o s).masters.length = s.masters.length ∧ (emit o s).cores.channels.length = s.cores.channels.length ∧
    (emit o s).regs.debugLevel = s.regs.debugLevel ∧ (emit o s).store.cs = s.store.cs ∧
    (emit o s).store.csDev = s.store.csDev ∧ (emit o s).store.granules = s.store.granules ∧ (emit o s).pins = s.pins ∧
    (emit o s).stream = s.stream ∧ (emit o s).power = s.power ∧ (emit o s).loader = s.loader ∧
    (emit o s).conservator = s.conservator ∧ (emit o s).egress = s.egress ∧ (emit o s).repair = s.repair ∧
    (emit o s).shadow = s.shadow ∧ (emit o s).inForce = s.inForce ∧ (emit o s).otpRequest = s.otpRequest ∧
    (emit o s).heldCommands = s.heldCommands ∧ (emit o s).crossReads = s.crossReads := by
  unfold emit
  first | (simp; done) | ((try dsimp only); (repeat' split) <;> first | (simp; done) | simp_all | (repeat' split) <;> simp)

@[simp] theorem msix_frame (v : Nat) (s : State) :
    (msix v s).pending = s.pending ∧ (msix v s).variant = s.variant ∧ (msix v s).otp = s.otp ∧
    (msix v s).masters.length = s.masters.length ∧ (msix v s).cores.channels.length = s.cores.channels.length ∧
    (msix v s).regs.debugLevel = s.regs.debugLevel ∧ (msix v s).store.cs = s.store.cs ∧
    (msix v s).store.csDev = s.store.csDev ∧ (msix v s).store.granules = s.store.granules ∧ (msix v s).pins = s.pins ∧
    (msix v s).stream = s.stream ∧ (msix v s).power = s.power ∧ (msix v s).loader = s.loader ∧
    (msix v s).conservator = s.conservator ∧ (msix v s).egress = s.egress ∧ (msix v s).repair = s.repair ∧
    (msix v s).shadow = s.shadow ∧ (msix v s).inForce = s.inForce ∧ (msix v s).otpRequest = s.otpRequest ∧
    (msix v s).heldCommands = s.heldCommands ∧ (msix v s).crossReads = s.crossReads := by
  unfold msix
  first | (simp; done) | ((try dsimp only); (repeat' split) <;> first | (simp; done) | simp_all | (repeat' split) <;> simp)

@[simp] theorem setEvent_frame (b : Nat) (s : State) :
    (setEvent b s).pending = s.pending ∧ (setEvent b s).variant = s.variant ∧ (setEvent b s).otp = s.otp ∧
    (setEvent b s).masters.length = s.masters.length ∧ (setEvent b s).cores.channels.length = s.cores.channels.length ∧
    (setEvent b s).regs.debugLevel = s.regs.debugLevel ∧ (setEvent b s).store.cs = s.store.cs ∧
    (setEvent b s).store.csDev = s.store.csDev ∧ (setEvent b s).store.granules = s.store.granules ∧
    (setEvent b s).pins = s.pins ∧ (setEvent b s).stream = s.stream ∧ (setEvent b s).power = s.power ∧
    (setEvent b s).loader = s.loader ∧ (setEvent b s).conservator = s.conservator ∧ (setEvent b s).egress = s.egress ∧
    (setEvent b s).repair = s.repair ∧ (setEvent b s).shadow = s.shadow ∧ (setEvent b s).inForce = s.inForce ∧
    (setEvent b s).otpRequest = s.otpRequest ∧ (setEvent b s).heldCommands = s.heldCommands ∧
    (setEvent b s).crossReads = s.crossReads := by
  unfold setEvent
  first | (simp; done) | ((try dsimp only); (repeat' split) <;> first | (simp; done) | simp_all | (repeat' split) <;> simp)

@[simp] theorem setFault_frame (code : Nat) (s : State) :
    (setFault code s).pending = s.pending ∧ (setFault code s).variant = s.variant ∧ (setFault code s).otp = s.otp ∧
    (setFault code s).masters.length = s.masters.length ∧
    (setFault code s).cores.channels.length = s.cores.channels.length ∧
    (setFault code s).regs.debugLevel = s.regs.debugLevel ∧ (setFault code s).store.cs = s.store.cs ∧
    (setFault code s).store.csDev = s.store.csDev ∧ (setFault code s).store.granules = s.store.granules ∧
    (setFault code s).pins = s.pins ∧ (setFault code s).stream = s.stream ∧ (setFault code s).power = s.power ∧
    (setFault code s).loader = s.loader ∧ (setFault code s).conservator = s.conservator ∧
    (setFault code s).egress = s.egress ∧ (setFault code s).repair = s.repair ∧ (setFault code s).shadow = s.shadow ∧
    (setFault code s).inForce = s.inForce ∧ (setFault code s).otpRequest = s.otpRequest ∧
    (setFault code s).heldCommands = s.heldCommands ∧ (setFault code s).crossReads = s.crossReads := by
  unfold setFault
  first | (simp; done) | ((try dsimp only); (repeat' split) <;> first | (simp; done) | simp_all | (repeat' split) <;> simp)

@[simp] theorem setStageStatus_frame (w : Word) (s : State) :
    (setStageStatus w s).pending = s.pending ∧ (setStageStatus w s).variant = s.variant ∧ (setStageStatus w s).otp = s.otp ∧
    (setStageStatus w s).masters.length = s.masters.length ∧
    (setStageStatus w s).cores.channels.length = s.cores.channels.length ∧
    (setStageStatus w s).regs.debugLevel = s.regs.debugLevel ∧ (setStageStatus w s).store.cs = s.store.cs ∧
    (setStageStatus w s).store.csDev = s.store.csDev ∧ (setStageStatus w s).store.granules = s.store.granules ∧
    (setStageStatus w s).pins = s.pins ∧ (setStageStatus w s).stream = s.stream ∧ (setStageStatus w s).power = s.power ∧
    (setStageStatus w s).loader = s.loader ∧ (setStageStatus w s).conservator = s.conservator ∧
    (setStageStatus w s).egress = s.egress ∧ (setStageStatus w s).repair = s.repair ∧
    (setStageStatus w s).shadow = s.shadow ∧ (setStageStatus w s).inForce = s.inForce ∧
    (setStageStatus w s).otpRequest = s.otpRequest ∧ (setStageStatus w s).heldCommands = s.heldCommands ∧
    (setStageStatus w s).crossReads = s.crossReads := by
  unfold setStageStatus
  first | (simp; done) | ((try dsimp only); (repeat' split) <;> first | (simp; done) | simp_all | (repeat' split) <;> simp)

@[simp] theorem setTwinStatus_frame (b : Nat) (s : State) :
    (setTwinStatus b s).pending = s.pending ∧ (setTwinStatus b s).variant = s.variant ∧ (setTwinStatus b s).otp = s.otp ∧
    (setTwinStatus b s).masters.length = s.masters.length ∧
    (setTwinStatus b s).cores.channels.length = s.cores.channels.length ∧
    (setTwinStatus b s).regs.debugLevel = s.regs.debugLevel ∧ (setTwinStatus b s).store.cs = s.store.cs ∧
    (setTwinStatus b s).store.csDev = s.store.csDev ∧ (setTwinStatus b s).store.granules = s.store.granules ∧
    (setTwinStatus b s).pins = s.pins ∧ (setTwinStatus b s).stream = s.stream ∧ (setTwinStatus b s).power = s.power ∧
    (setTwinStatus b s).loader = s.loader ∧ (setTwinStatus b s).conservator = s.conservator ∧
    (setTwinStatus b s).egress = s.egress ∧ (setTwinStatus b s).repair = s.repair ∧ (setTwinStatus b s).shadow = s.shadow ∧
    (setTwinStatus b s).inForce = s.inForce ∧ (setTwinStatus b s).otpRequest = s.otpRequest ∧
    (setTwinStatus b s).heldCommands = s.heldCommands ∧ (setTwinStatus b s).crossReads = s.crossReads := by
  unfold setTwinStatus
  first | (simp; done) | ((try dsimp only); (repeat' split) <;> first | (simp; done) | simp_all | (repeat' split) <;> simp)

@[simp] theorem setFailStatus_frame (w : Word) (s : State) :
    (setFailStatus w s).pending = s.pending ∧ (setFailStatus w s).variant = s.variant ∧ (setFailStatus w s).otp = s.otp ∧
    (setFailStatus w s).masters.length = s.masters.length ∧
    (setFailStatus w s).cores.channels.length = s.cores.channels.length ∧
    (setFailStatus w s).regs.debugLevel = s.regs.debugLevel ∧ (setFailStatus w s).store.cs = s.store.cs ∧
    (setFailStatus w s).store.csDev = s.store.csDev ∧ (setFailStatus w s).store.granules = s.store.granules ∧
    (setFailStatus w s).pins = s.pins ∧ (setFailStatus w s).stream = s.stream ∧ (setFailStatus w s).power = s.power ∧
    (setFailStatus w s).loader = s.loader ∧ (setFailStatus w s).conservator = s.conservator ∧
    (setFailStatus w s).egress = s.egress ∧ (setFailStatus w s).repair = s.repair ∧ (setFailStatus w s).shadow = s.shadow ∧
    (setFailStatus w s).inForce = s.inForce ∧ (setFailStatus w s).otpRequest = s.otpRequest ∧
    (setFailStatus w s).heldCommands = s.heldCommands ∧ (setFailStatus w s).crossReads = s.crossReads := by
  unfold setFailStatus
  first | (simp; done) | ((try dsimp only); (repeat' split) <;> first | (simp; done) | simp_all | (repeat' split) <;> simp)

@[simp] theorem setScrubStatus_frame (b : Nat) (s : State) :
    (setScrubStatus b s).pending = s.pending ∧ (setScrubStatus b s).variant = s.variant ∧ (setScrubStatus b s).otp = s.otp ∧
    (setScrubStatus b s).masters.length = s.masters.length ∧
    (setScrubStatus b s).cores.channels.length = s.cores.channels.length ∧
    (setScrubStatus b s).regs.debugLevel = s.regs.debugLevel ∧ (setScrubStatus b s).store.cs = s.store.cs ∧
    (setScrubStatus b s).store.csDev = s.store.csDev ∧ (setScrubStatus b s).store.granules = s.store.granules ∧
    (setScrubStatus b s).pins = s.pins ∧ (setScrubStatus b s).stream = s.stream ∧ (setScrubStatus b s).power = s.power ∧
    (setScrubStatus b s).loader = s.loader ∧ (setScrubStatus b s).conservator = s.conservator ∧
    (setScrubStatus b s).egress = s.egress ∧ (setScrubStatus b s).repair = s.repair ∧
    (setScrubStatus b s).shadow = s.shadow ∧ (setScrubStatus b s).inForce = s.inForce ∧
    (setScrubStatus b s).otpRequest = s.otpRequest ∧ (setScrubStatus b s).heldCommands = s.heldCommands ∧
    (setScrubStatus b s).crossReads = s.crossReads := by
  unfold setScrubStatus
  first | (simp; done) | ((try dsimp only); (repeat' split) <;> first | (simp; done) | simp_all | (repeat' split) <;> simp)

@[simp] theorem setSurveyStatus_frame (b : Nat) (s : State) :
    (setSurveyStatus b s).pending = s.pending ∧ (setSurveyStatus b s).variant = s.variant ∧
    (setSurveyStatus b s).otp = s.otp ∧ (setSurveyStatus b s).masters.length = s.masters.length ∧
    (setSurveyStatus b s).cores.channels.length = s.cores.channels.length ∧
    (setSurveyStatus b s).regs.debugLevel = s.regs.debugLevel ∧ (setSurveyStatus b s).store.cs = s.store.cs ∧
    (setSurveyStatus b s).store.csDev = s.store.csDev ∧ (setSurveyStatus b s).store.granules = s.store.granules ∧
    (setSurveyStatus b s).pins = s.pins ∧ (setSurveyStatus b s).stream = s.stream ∧ (setSurveyStatus b s).power = s.power ∧
    (setSurveyStatus b s).loader = s.loader ∧ (setSurveyStatus b s).conservator = s.conservator ∧
    (setSurveyStatus b s).egress = s.egress ∧ (setSurveyStatus b s).repair = s.repair ∧
    (setSurveyStatus b s).shadow = s.shadow ∧ (setSurveyStatus b s).inForce = s.inForce ∧
    (setSurveyStatus b s).otpRequest = s.otpRequest ∧ (setSurveyStatus b s).heldCommands = s.heldCommands ∧
    (setSurveyStatus b s).crossReads = s.crossReads := by
  unfold setSurveyStatus
  first | (simp; done) | ((try dsimp only); (repeat' split) <;> first | (simp; done) | simp_all | (repeat' split) <;> simp)

@[simp] theorem setClkStatus_frame (b : Nat) (s : State) :
    (setClkStatus b s).pending = s.pending ∧ (setClkStatus b s).variant = s.variant ∧ (setClkStatus b s).otp = s.otp ∧
    (setClkStatus b s).masters.length = s.masters.length ∧
    (setClkStatus b s).cores.channels.length = s.cores.channels.length ∧
    (setClkStatus b s).regs.debugLevel = s.regs.debugLevel ∧ (setClkStatus b s).store.cs = s.store.cs ∧
    (setClkStatus b s).store.csDev = s.store.csDev ∧ (setClkStatus b s).store.granules = s.store.granules ∧
    (setClkStatus b s).pins = s.pins ∧ (setClkStatus b s).stream = s.stream ∧ (setClkStatus b s).power = s.power ∧
    (setClkStatus b s).loader = s.loader ∧ (setClkStatus b s).conservator = s.conservator ∧
    (setClkStatus b s).egress = s.egress ∧ (setClkStatus b s).repair = s.repair ∧ (setClkStatus b s).shadow = s.shadow ∧
    (setClkStatus b s).inForce = s.inForce ∧ (setClkStatus b s).otpRequest = s.otpRequest ∧
    (setClkStatus b s).heldCommands = s.heldCommands ∧ (setClkStatus b s).crossReads = s.crossReads := by
  unfold setClkStatus
  first | (simp; done) | ((try dsimp only); (repeat' split) <;> first | (simp; done) | simp_all | (repeat' split) <;> simp)

@[simp] theorem setWakeCause_frame (b : Nat) (s : State) :
    (setWakeCause b s).pending = s.pending ∧ (setWakeCause b s).variant = s.variant ∧ (setWakeCause b s).otp = s.otp ∧
    (setWakeCause b s).masters.length = s.masters.length ∧
    (setWakeCause b s).cores.channels.length = s.cores.channels.length ∧
    (setWakeCause b s).regs.debugLevel = s.regs.debugLevel ∧ (setWakeCause b s).store.cs = s.store.cs ∧
    (setWakeCause b s).store.csDev = s.store.csDev ∧ (setWakeCause b s).store.granules = s.store.granules ∧
    (setWakeCause b s).pins = s.pins ∧ (setWakeCause b s).stream = s.stream ∧ (setWakeCause b s).power = s.power ∧
    (setWakeCause b s).loader = s.loader ∧ (setWakeCause b s).conservator = s.conservator ∧
    (setWakeCause b s).egress = s.egress ∧ (setWakeCause b s).repair = s.repair ∧ (setWakeCause b s).shadow = s.shadow ∧
    (setWakeCause b s).inForce = s.inForce ∧ (setWakeCause b s).otpRequest = s.otpRequest ∧
    (setWakeCause b s).heldCommands = s.heldCommands ∧ (setWakeCause b s).crossReads = s.crossReads := by
  unfold setWakeCause
  first | (simp; done) | ((try dsimp only); (repeat' split) <;> first | (simp; done) | simp_all | (repeat' split) <;> simp)

@[simp] theorem setMailboxStatus_frame (b : Nat) (s : State) :
    (setMailboxStatus b s).pending = s.pending ∧ (setMailboxStatus b s).variant = s.variant ∧
    (setMailboxStatus b s).otp = s.otp ∧ (setMailboxStatus b s).masters.length = s.masters.length ∧
    (setMailboxStatus b s).cores.channels.length = s.cores.channels.length ∧
    (setMailboxStatus b s).regs.debugLevel = s.regs.debugLevel ∧ (setMailboxStatus b s).store.cs = s.store.cs ∧
    (setMailboxStatus b s).store.csDev = s.store.csDev ∧ (setMailboxStatus b s).store.granules = s.store.granules ∧
    (setMailboxStatus b s).pins = s.pins ∧ (setMailboxStatus b s).stream = s.stream ∧
    (setMailboxStatus b s).power = s.power ∧ (setMailboxStatus b s).loader = s.loader ∧
    (setMailboxStatus b s).conservator = s.conservator ∧ (setMailboxStatus b s).egress = s.egress ∧
    (setMailboxStatus b s).repair = s.repair ∧ (setMailboxStatus b s).shadow = s.shadow ∧
    (setMailboxStatus b s).inForce = s.inForce ∧ (setMailboxStatus b s).otpRequest = s.otpRequest ∧
    (setMailboxStatus b s).heldCommands = s.heldCommands ∧ (setMailboxStatus b s).crossReads = s.crossReads := by
  unfold setMailboxStatus
  first | (simp; done) | ((try dsimp only); (repeat' split) <;> first | (simp; done) | simp_all | (repeat' split) <;> simp)

@[simp] theorem putScrubBit_frame (b : Nat) (v : Bool) (s : State) :
    (putScrubBit b v s).pending = s.pending ∧ (putScrubBit b v s).variant = s.variant ∧ (putScrubBit b v s).otp = s.otp ∧
    (putScrubBit b v s).masters.length = s.masters.length ∧
    (putScrubBit b v s).cores.channels.length = s.cores.channels.length ∧
    (putScrubBit b v s).regs.debugLevel = s.regs.debugLevel ∧ (putScrubBit b v s).store.cs = s.store.cs ∧
    (putScrubBit b v s).store.csDev = s.store.csDev ∧ (putScrubBit b v s).store.granules = s.store.granules ∧
    (putScrubBit b v s).pins = s.pins ∧ (putScrubBit b v s).stream = s.stream ∧ (putScrubBit b v s).power = s.power ∧
    (putScrubBit b v s).loader = s.loader ∧ (putScrubBit b v s).conservator = s.conservator ∧
    (putScrubBit b v s).egress = s.egress ∧ (putScrubBit b v s).repair = s.repair ∧ (putScrubBit b v s).shadow = s.shadow ∧
    (putScrubBit b v s).inForce = s.inForce ∧ (putScrubBit b v s).otpRequest = s.otpRequest ∧
    (putScrubBit b v s).heldCommands = s.heldCommands ∧ (putScrubBit b v s).crossReads = s.crossReads := by
  unfold putScrubBit
  first | (simp; done) | ((try dsimp only); (repeat' split) <;> first | (simp; done) | simp_all | (repeat' split) <;> simp)

@[simp] theorem putClkBit_frame (b : Nat) (v : Bool) (s : State) :
    (putClkBit b v s).pending = s.pending ∧ (putClkBit b v s).variant = s.variant ∧ (putClkBit b v s).otp = s.otp ∧
    (putClkBit b v s).masters.length = s.masters.length ∧
    (putClkBit b v s).cores.channels.length = s.cores.channels.length ∧
    (putClkBit b v s).regs.debugLevel = s.regs.debugLevel ∧ (putClkBit b v s).store.cs = s.store.cs ∧
    (putClkBit b v s).store.csDev = s.store.csDev ∧ (putClkBit b v s).store.granules = s.store.granules ∧
    (putClkBit b v s).pins = s.pins ∧ (putClkBit b v s).stream = s.stream ∧ (putClkBit b v s).power = s.power ∧
    (putClkBit b v s).loader = s.loader ∧ (putClkBit b v s).conservator = s.conservator ∧
    (putClkBit b v s).egress = s.egress ∧ (putClkBit b v s).repair = s.repair ∧ (putClkBit b v s).shadow = s.shadow ∧
    (putClkBit b v s).inForce = s.inForce ∧ (putClkBit b v s).otpRequest = s.otpRequest ∧
    (putClkBit b v s).heldCommands = s.heldCommands ∧ (putClkBit b v s).crossReads = s.crossReads := by
  unfold putClkBit
  first | (simp; done) | ((try dsimp only); (repeat' split) <;> first | (simp; done) | simp_all | (repeat' split) <;> simp)

@[simp] theorem putArrayBit_frame (b : Nat) (v : Bool) (s : State) :
    (putArrayBit b v s).pending = s.pending ∧ (putArrayBit b v s).variant = s.variant ∧ (putArrayBit b v s).otp = s.otp ∧
    (putArrayBit b v s).masters.length = s.masters.length ∧
    (putArrayBit b v s).cores.channels.length = s.cores.channels.length ∧
    (putArrayBit b v s).regs.debugLevel = s.regs.debugLevel ∧ (putArrayBit b v s).store.cs = s.store.cs ∧
    (putArrayBit b v s).store.csDev = s.store.csDev ∧ (putArrayBit b v s).store.granules = s.store.granules ∧
    (putArrayBit b v s).pins = s.pins ∧ (putArrayBit b v s).stream = s.stream ∧ (putArrayBit b v s).power = s.power ∧
    (putArrayBit b v s).loader = s.loader ∧ (putArrayBit b v s).conservator = s.conservator ∧
    (putArrayBit b v s).egress = s.egress ∧ (putArrayBit b v s).repair = s.repair ∧ (putArrayBit b v s).shadow = s.shadow ∧
    (putArrayBit b v s).inForce = s.inForce ∧ (putArrayBit b v s).otpRequest = s.otpRequest ∧
    (putArrayBit b v s).heldCommands = s.heldCommands ∧ (putArrayBit b v s).crossReads = s.crossReads := by
  unfold putArrayBit
  first | (simp; done) | ((try dsimp only); (repeat' split) <;> first | (simp; done) | simp_all | (repeat' split) <;> simp)

@[simp] theorem putTwinBit_frame (b : Nat) (v : Bool) (s : State) :
    (putTwinBit b v s).pending = s.pending ∧ (putTwinBit b v s).variant = s.variant ∧ (putTwinBit b v s).otp = s.otp ∧
    (putTwinBit b v s).masters.length = s.masters.length ∧
    (putTwinBit b v s).cores.channels.length = s.cores.channels.length ∧
    (putTwinBit b v s).regs.debugLevel = s.regs.debugLevel ∧ (putTwinBit b v s).store.cs = s.store.cs ∧
    (putTwinBit b v s).store.csDev = s.store.csDev ∧ (putTwinBit b v s).store.granules = s.store.granules ∧
    (putTwinBit b v s).pins = s.pins ∧ (putTwinBit b v s).stream = s.stream ∧ (putTwinBit b v s).power = s.power ∧
    (putTwinBit b v s).loader = s.loader ∧ (putTwinBit b v s).conservator = s.conservator ∧
    (putTwinBit b v s).egress = s.egress ∧ (putTwinBit b v s).repair = s.repair ∧ (putTwinBit b v s).shadow = s.shadow ∧
    (putTwinBit b v s).inForce = s.inForce ∧ (putTwinBit b v s).otpRequest = s.otpRequest ∧
    (putTwinBit b v s).heldCommands = s.heldCommands ∧ (putTwinBit b v s).crossReads = s.crossReads := by
  unfold putTwinBit
  first | (simp; done) | ((try dsimp only); (repeat' split) <;> first | (simp; done) | simp_all | (repeat' split) <;> simp)

@[simp] theorem reportPower_frame (code : Nat) (s : State) :
    (reportPower code s).pending = s.pending ∧ (reportPower code s).variant = s.variant ∧ (reportPower code s).otp = s.otp ∧
    (reportPower code s).masters.length = s.masters.length ∧
    (reportPower code s).cores.channels.length = s.cores.channels.length ∧
    (reportPower code s).regs.debugLevel = s.regs.debugLevel ∧ (reportPower code s).store.cs = s.store.cs ∧
    (reportPower code s).store.csDev = s.store.csDev ∧ (reportPower code s).store.granules = s.store.granules ∧
    (reportPower code s).pins = s.pins ∧ (reportPower code s).stream = s.stream ∧ (reportPower code s).power = s.power ∧
    (reportPower code s).loader = s.loader ∧ (reportPower code s).conservator = s.conservator ∧
    (reportPower code s).egress = s.egress ∧ (reportPower code s).repair = s.repair ∧
    (reportPower code s).shadow = s.shadow ∧ (reportPower code s).inForce = s.inForce ∧
    (reportPower code s).otpRequest = s.otpRequest ∧ (reportPower code s).heldCommands = s.heldCommands ∧
    (reportPower code s).crossReads = s.crossReads := by
  unfold reportPower
  first | (simp; done) | ((try dsimp only); (repeat' split) <;> first | (simp; done) | simp_all | (repeat' split) <;> simp)

@[simp] theorem putIoDisabled_frame (v : Bool) (s : State) :
    (putIoDisabled v s).pending = s.pending ∧ (putIoDisabled v s).variant = s.variant ∧ (putIoDisabled v s).otp = s.otp ∧
    (putIoDisabled v s).masters.length = s.masters.length ∧
    (putIoDisabled v s).cores.channels.length = s.cores.channels.length ∧
    (putIoDisabled v s).regs.debugLevel = s.regs.debugLevel ∧ (putIoDisabled v s).store.cs = s.store.cs ∧
    (putIoDisabled v s).store.csDev = s.store.csDev ∧ (putIoDisabled v s).store.granules = s.store.granules ∧
    (putIoDisabled v s).pins = s.pins ∧ (putIoDisabled v s).stream = s.stream ∧ (putIoDisabled v s).power = s.power ∧
    (putIoDisabled v s).loader = s.loader ∧ (putIoDisabled v s).conservator = s.conservator ∧
    (putIoDisabled v s).egress = s.egress ∧ (putIoDisabled v s).repair = s.repair ∧ (putIoDisabled v s).shadow = s.shadow ∧
    (putIoDisabled v s).inForce = s.inForce ∧ (putIoDisabled v s).otpRequest = s.otpRequest ∧
    (putIoDisabled v s).heldCommands = s.heldCommands ∧ (putIoDisabled v s).crossReads = s.crossReads := by
  unfold putIoDisabled
  first | (simp; done) | ((try dsimp only); (repeat' split) <;> first | (simp; done) | simp_all | (repeat' split) <;> simp)

@[simp] theorem setView_frame (m : Master) (v : MasterView) (s : State) :
    (setView m v s).pending = s.pending ∧ (setView m v s).variant = s.variant ∧ (setView m v s).otp = s.otp ∧
    (setView m v s).masters.length = s.masters.length ∧ (setView m v s).cores.channels.length = s.cores.channels.length ∧
    (setView m v s).regs.debugLevel = s.regs.debugLevel ∧ (setView m v s).store.cs = s.store.cs ∧
    (setView m v s).store.csDev = s.store.csDev ∧ (setView m v s).store.granules = s.store.granules ∧
    (setView m v s).pins = s.pins ∧ (setView m v s).stream = s.stream ∧ (setView m v s).power = s.power ∧
    (setView m v s).loader = s.loader ∧ (setView m v s).conservator = s.conservator ∧ (setView m v s).egress = s.egress ∧
    (setView m v s).repair = s.repair ∧ (setView m v s).shadow = s.shadow ∧ (setView m v s).inForce = s.inForce ∧
    (setView m v s).otpRequest = s.otpRequest ∧ (setView m v s).heldCommands = s.heldCommands ∧
    (setView m v s).crossReads = s.crossReads := by
  unfold setView
  simp [lset]

@[simp] theorem dropKeys_frame (m : Master) (s : State) :
    (dropKeys m s).pending = s.pending ∧ (dropKeys m s).variant = s.variant ∧ (dropKeys m s).otp = s.otp ∧
    (dropKeys m s).masters.length = s.masters.length ∧ (dropKeys m s).cores.channels.length = s.cores.channels.length ∧
    (dropKeys m s).regs.debugLevel = s.regs.debugLevel ∧ (dropKeys m s).store.cs = s.store.cs ∧
    (dropKeys m s).store.csDev = s.store.csDev ∧ (dropKeys m s).store.granules = s.store.granules ∧
    (dropKeys m s).pins = s.pins ∧ (dropKeys m s).stream = s.stream ∧ (dropKeys m s).power = s.power ∧
    (dropKeys m s).loader = s.loader ∧ (dropKeys m s).conservator = s.conservator ∧ (dropKeys m s).egress = s.egress ∧
    (dropKeys m s).repair = s.repair ∧ (dropKeys m s).shadow = s.shadow ∧ (dropKeys m s).inForce = s.inForce ∧
    (dropKeys m s).otpRequest = s.otpRequest ∧ (dropKeys m s).heldCommands = s.heldCommands ∧
    (dropKeys m s).crossReads = s.crossReads := by
  unfold dropKeys
  first | (simp; done) | ((try dsimp only); (repeat' split) <;> first | (simp; done) | simp_all | (repeat' split) <;> simp)

@[simp] theorem sendMsg_frame (dir : Dir) (typ n v : Nat) (s : State) :
    (sendMsg dir typ n v s).pending = s.pending ∧ (sendMsg dir typ n v s).variant = s.variant ∧
    (sendMsg dir typ n v s).otp = s.otp ∧ (sendMsg dir typ n v s).masters.length = s.masters.length ∧
    (sendMsg dir typ n v s).cores.channels.length = s.cores.channels.length ∧
    (sendMsg dir typ n v s).regs.debugLevel = s.regs.debugLevel ∧ (sendMsg dir typ n v s).store.cs = s.store.cs ∧
    (sendMsg dir typ n v s).store.csDev = s.store.csDev ∧ (sendMsg dir typ n v s).store.granules = s.store.granules ∧
    (sendMsg dir typ n v s).pins = s.pins ∧ (sendMsg dir typ n v s).stream = s.stream ∧
    (sendMsg dir typ n v s).power = s.power ∧ (sendMsg dir typ n v s).loader = s.loader ∧
    (sendMsg dir typ n v s).conservator = s.conservator ∧ (sendMsg dir typ n v s).egress = s.egress ∧
    (sendMsg dir typ n v s).repair = s.repair ∧ (sendMsg dir typ n v s).shadow = s.shadow ∧
    (sendMsg dir typ n v s).inForce = s.inForce ∧ (sendMsg dir typ n v s).otpRequest = s.otpRequest ∧
    (sendMsg dir typ n v s).heldCommands = s.heldCommands ∧ (sendMsg dir typ n v s).crossReads = s.crossReads := by
  unfold sendMsg
  first | (simp; done) | ((try dsimp only); (repeat' split) <;> first | (simp; done) | simp_all | (repeat' split) <;> simp)

@[simp] theorem popHostInbox_frame (typ : Nat) (s : State) :
    (popHostInbox typ s).pending = s.pending ∧ (popHostInbox typ s).variant = s.variant ∧ (popHostInbox typ s).otp = s.otp ∧
    (popHostInbox typ s).masters.length = s.masters.length ∧
    (popHostInbox typ s).cores.channels.length = s.cores.channels.length ∧
    (popHostInbox typ s).regs.debugLevel = s.regs.debugLevel ∧ (popHostInbox typ s).store.cs = s.store.cs ∧
    (popHostInbox typ s).store.csDev = s.store.csDev ∧ (popHostInbox typ s).store.granules = s.store.granules ∧
    (popHostInbox typ s).pins = s.pins ∧ (popHostInbox typ s).stream = s.stream ∧ (popHostInbox typ s).power = s.power ∧
    (popHostInbox typ s).loader = s.loader ∧ (popHostInbox typ s).conservator = s.conservator ∧
    (popHostInbox typ s).egress = s.egress ∧ (popHostInbox typ s).repair = s.repair ∧
    (popHostInbox typ s).shadow = s.shadow ∧ (popHostInbox typ s).inForce = s.inForce ∧
    (popHostInbox typ s).otpRequest = s.otpRequest ∧ (popHostInbox typ s).heldCommands = s.heldCommands ∧
    (popHostInbox typ s).crossReads = s.crossReads := by
  unfold popHostInbox
  first | (simp; done) | ((try dsimp only); (repeat' split) <;> first | (simp; done) | simp_all | (repeat' split) <;> simp)

@[simp] theorem popFieldInbox_frame (typ : Nat) (s : State) :
    (popFieldInbox typ s).pending = s.pending ∧ (popFieldInbox typ s).variant = s.variant ∧
    (popFieldInbox typ s).otp = s.otp ∧ (popFieldInbox typ s).masters.length = s.masters.length ∧
    (popFieldInbox typ s).cores.channels.length = s.cores.channels.length ∧
    (popFieldInbox typ s).regs.debugLevel = s.regs.debugLevel ∧ (popFieldInbox typ s).store.cs = s.store.cs ∧
    (popFieldInbox typ s).store.csDev = s.store.csDev ∧ (popFieldInbox typ s).store.granules = s.store.granules ∧
    (popFieldInbox typ s).pins = s.pins ∧ (popFieldInbox typ s).stream = s.stream ∧ (popFieldInbox typ s).power = s.power ∧
    (popFieldInbox typ s).loader = s.loader ∧ (popFieldInbox typ s).conservator = s.conservator ∧
    (popFieldInbox typ s).egress = s.egress ∧ (popFieldInbox typ s).repair = s.repair ∧
    (popFieldInbox typ s).shadow = s.shadow ∧ (popFieldInbox typ s).inForce = s.inForce ∧
    (popFieldInbox typ s).otpRequest = s.otpRequest ∧ (popFieldInbox typ s).heldCommands = s.heldCommands ∧
    (popFieldInbox typ s).crossReads = s.crossReads := by
  unfold popFieldInbox
  first | (simp; done) | ((try dsimp only); (repeat' split) <;> first | (simp; done) | simp_all | (repeat' split) <;> simp)

@[simp] theorem raiseField_frame (ev fault unit detail : Nat) (s : State) :
    (raiseField ev fault unit detail s).pending = s.pending ∧ (raiseField ev fault unit detail s).variant = s.variant ∧
    (raiseField ev fault unit detail s).otp = s.otp ∧
    (raiseField ev fault unit detail s).masters.length = s.masters.length ∧
    (raiseField ev fault unit detail s).cores.channels.length = s.cores.channels.length ∧
    (raiseField ev fault unit detail s).regs.debugLevel = s.regs.debugLevel ∧
    (raiseField ev fault unit detail s).store.cs = s.store.cs ∧
    (raiseField ev fault unit detail s).store.csDev = s.store.csDev ∧
    (raiseField ev fault unit detail s).store.granules = s.store.granules ∧
    (raiseField ev fault unit detail s).pins = s.pins ∧ (raiseField ev fault unit detail s).stream = s.stream ∧
    (raiseField ev fault unit detail s).power = s.power ∧ (raiseField ev fault unit detail s).loader = s.loader ∧
    (raiseField ev fault unit detail s).conservator = s.conservator ∧
    (raiseField ev fault unit detail s).egress = s.egress ∧ (raiseField ev fault unit detail s).repair = s.repair ∧
    (raiseField ev fault unit detail s).shadow = s.shadow ∧ (raiseField ev fault unit detail s).inForce = s.inForce ∧
    (raiseField ev fault unit detail s).otpRequest = s.otpRequest ∧
    (raiseField ev fault unit detail s).heldCommands = s.heldCommands ∧
    (raiseField ev fault unit detail s).crossReads = s.crossReads := by
  unfold raiseField
  first | (simp; done) | ((try dsimp only); (repeat' split) <;> first | (simp; done) | simp_all | (repeat' split) <;> simp)

@[simp] theorem faultEvent_frame (code detail : Nat) (s : State) :
    (faultEvent code detail s).pending = s.pending ∧ (faultEvent code detail s).variant = s.variant ∧
    (faultEvent code detail s).otp = s.otp ∧ (faultEvent code detail s).masters.length = s.masters.length ∧
    (faultEvent code detail s).cores.channels.length = s.cores.channels.length ∧
    (faultEvent code detail s).regs.debugLevel = s.regs.debugLevel ∧ (faultEvent code detail s).store.cs = s.store.cs ∧
    (faultEvent code detail s).store.csDev = s.store.csDev ∧ (faultEvent code detail s).store.granules = s.store.granules ∧
    (faultEvent code detail s).pins = s.pins ∧ (faultEvent code detail s).stream = s.stream ∧
    (faultEvent code detail s).power = s.power ∧ (faultEvent code detail s).loader = s.loader ∧
    (faultEvent code detail s).conservator = s.conservator ∧ (faultEvent code detail s).egress = s.egress ∧
    (faultEvent code detail s).repair = s.repair ∧ (faultEvent code detail s).shadow = s.shadow ∧
    (faultEvent code detail s).inForce = s.inForce ∧ (faultEvent code detail s).otpRequest = s.otpRequest ∧
    (faultEvent code detail s).heldCommands = s.heldCommands ∧ (faultEvent code detail s).crossReads = s.crossReads := by
  unfold faultEvent
  first | (simp; done) | ((try dsimp only); (repeat' split) <;> first | (simp; done) | simp_all | (repeat' split) <;> simp)

@[simp] theorem faultEventFree_frame (code : Nat) (s : State) :
    (faultEventFree code s).pending = s.pending ∧ (faultEventFree code s).variant = s.variant ∧
    (faultEventFree code s).otp = s.otp ∧ (faultEventFree code s).masters.length = s.masters.length ∧
    (faultEventFree code s).cores.channels.length = s.cores.channels.length ∧
    (faultEventFree code s).regs.debugLevel = s.regs.debugLevel ∧ (faultEventFree code s).store.cs = s.store.cs ∧
    (faultEventFree code s).store.csDev = s.store.csDev ∧ (faultEventFree code s).store.granules = s.store.granules ∧
    (faultEventFree code s).pins = s.pins ∧ (faultEventFree code s).stream = s.stream ∧
    (faultEventFree code s).power = s.power ∧ (faultEventFree code s).loader = s.loader ∧
    (faultEventFree code s).conservator = s.conservator ∧ (faultEventFree code s).egress = s.egress ∧
    (faultEventFree code s).repair = s.repair ∧ (faultEventFree code s).shadow = s.shadow ∧
    (faultEventFree code s).inForce = s.inForce ∧ (faultEventFree code s).otpRequest = s.otpRequest ∧
    (faultEventFree code s).heldCommands = s.heldCommands ∧ (faultEventFree code s).crossReads = s.crossReads := by
  unfold faultEventFree
  first | (simp; done) | ((try dsimp only); (repeat' split) <;> first | (simp; done) | simp_all | (repeat' split) <;> simp)

@[simp] theorem fieldEvent_frame (ev detail : Nat) (s : State) :
    (fieldEvent ev detail s).pending = s.pending ∧ (fieldEvent ev detail s).variant = s.variant ∧
    (fieldEvent ev detail s).otp = s.otp ∧ (fieldEvent ev detail s).masters.length = s.masters.length ∧
    (fieldEvent ev detail s).cores.channels.length = s.cores.channels.length ∧
    (fieldEvent ev detail s).regs.debugLevel = s.regs.debugLevel ∧ (fieldEvent ev detail s).store.cs = s.store.cs ∧
    (fieldEvent ev detail s).store.csDev = s.store.csDev ∧ (fieldEvent ev detail s).store.granules = s.store.granules ∧
    (fieldEvent ev detail s).pins = s.pins ∧ (fieldEvent ev detail s).stream = s.stream ∧
    (fieldEvent ev detail s).power = s.power ∧ (fieldEvent ev detail s).loader = s.loader ∧
    (fieldEvent ev detail s).conservator = s.conservator ∧ (fieldEvent ev detail s).egress = s.egress ∧
    (fieldEvent ev detail s).repair = s.repair ∧ (fieldEvent ev detail s).shadow = s.shadow ∧
    (fieldEvent ev detail s).inForce = s.inForce ∧ (fieldEvent ev detail s).otpRequest = s.otpRequest ∧
    (fieldEvent ev detail s).heldCommands = s.heldCommands ∧ (fieldEvent ev detail s).crossReads = s.crossReads := by
  unfold fieldEvent
  first | (simp; done) | ((try dsimp only); (repeat' split) <;> first | (simp; done) | simp_all | (repeat' split) <;> simp)

@[simp] theorem fieldEventFree_frame (ev : Nat) (s : State) :
    (fieldEventFree ev s).pending = s.pending ∧ (fieldEventFree ev s).variant = s.variant ∧
    (fieldEventFree ev s).otp = s.otp ∧ (fieldEventFree ev s).masters.length = s.masters.length ∧
    (fieldEventFree ev s).cores.channels.length = s.cores.channels.length ∧
    (fieldEventFree ev s).regs.debugLevel = s.regs.debugLevel ∧ (fieldEventFree ev s).store.cs = s.store.cs ∧
    (fieldEventFree ev s).store.csDev = s.store.csDev ∧ (fieldEventFree ev s).store.granules = s.store.granules ∧
    (fieldEventFree ev s).pins = s.pins ∧ (fieldEventFree ev s).stream = s.stream ∧ (fieldEventFree ev s).power = s.power ∧
    (fieldEventFree ev s).loader = s.loader ∧ (fieldEventFree ev s).conservator = s.conservator ∧
    (fieldEventFree ev s).egress = s.egress ∧ (fieldEventFree ev s).repair = s.repair ∧
    (fieldEventFree ev s).shadow = s.shadow ∧ (fieldEventFree ev s).inForce = s.inForce ∧
    (fieldEventFree ev s).otpRequest = s.otpRequest ∧ (fieldEventFree ev s).heldCommands = s.heldCommands ∧
    (fieldEventFree ev s).crossReads = s.crossReads := by
  unfold fieldEventFree
  first | (simp; done) | ((try dsimp only); (repeat' split) <;> first | (simp; done) | simp_all | (repeat' split) <;> simp)

@[simp] theorem drawFree_frame  (s : State) :
    (drawFree s).pending = s.pending ∧ (drawFree s).variant = s.variant ∧ (drawFree s).otp = s.otp ∧
    (drawFree s).masters.length = s.masters.length ∧ (drawFree s).cores.channels.length = s.cores.channels.length ∧
    (drawFree s).regs.debugLevel = s.regs.debugLevel ∧ (drawFree s).store.cs = s.store.cs ∧
    (drawFree s).store.csDev = s.store.csDev ∧ (drawFree s).store.granules = s.store.granules ∧ (drawFree s).pins = s.pins ∧
    (drawFree s).stream = s.stream ∧ (drawFree s).power = s.power ∧ (drawFree s).loader = s.loader ∧
    (drawFree s).conservator = s.conservator ∧ (drawFree s).egress = s.egress ∧ (drawFree s).repair = s.repair ∧
    (drawFree s).shadow = s.shadow ∧ (drawFree s).inForce = s.inForce ∧ (drawFree s).otpRequest = s.otpRequest ∧
    (drawFree s).heldCommands = s.heldCommands ∧ (drawFree s).crossReads = s.crossReads := by
  unfold drawFree
  first | (simp; done) | ((try dsimp only); (repeat' split) <;> first | (simp; done) | simp_all | (repeat' split) <;> simp)

@[simp] theorem logEvent_frame (code : Word) (unit : Byte) (detail : DWord) (s : State) :
    (logEvent code unit detail s).pending = s.pending ∧ (logEvent code unit detail s).variant = s.variant ∧
    (logEvent code unit detail s).otp = s.otp ∧ (logEvent code unit detail s).masters.length = s.masters.length ∧
    (logEvent code unit detail s).cores.channels.length = s.cores.channels.length ∧
    (logEvent code unit detail s).regs.debugLevel = s.regs.debugLevel ∧
    (logEvent code unit detail s).store.cs = s.store.cs ∧ (logEvent code unit detail s).store.csDev = s.store.csDev ∧
    (logEvent code unit detail s).store.granules = s.store.granules ∧ (logEvent code unit detail s).pins = s.pins ∧
    (logEvent code unit detail s).stream = s.stream ∧ (logEvent code unit detail s).power = s.power ∧
    (logEvent code unit detail s).loader = s.loader ∧ (logEvent code unit detail s).conservator = s.conservator ∧
    (logEvent code unit detail s).egress = s.egress ∧ (logEvent code unit detail s).repair = s.repair ∧
    (logEvent code unit detail s).shadow = s.shadow ∧ (logEvent code unit detail s).inForce = s.inForce ∧
    (logEvent code unit detail s).otpRequest = s.otpRequest ∧ (logEvent code unit detail s).heldCommands = s.heldCommands ∧
    (logEvent code unit detail s).crossReads = s.crossReads := by
  unfold logEvent
  first | (simp; done) | ((try dsimp only); (repeat' split) <;> first | (simp; done) | simp_all | (repeat' split) <;> simp)

@[simp] theorem forwardWrite_frame (m : Master) (addr : Nat) (data : Word) (s : State) :
    (forwardWrite m addr data s).pending = s.pending ∧ (forwardWrite m addr data s).variant = s.variant ∧
    (forwardWrite m addr data s).otp = s.otp ∧ (forwardWrite m addr data s).masters.length = s.masters.length ∧
    (forwardWrite m addr data s).cores.channels.length = s.cores.channels.length ∧
    (forwardWrite m addr data s).regs.debugLevel = s.regs.debugLevel ∧ (forwardWrite m addr data s).store.cs = s.store.cs ∧
    (forwardWrite m addr data s).store.csDev = s.store.csDev ∧
    (forwardWrite m addr data s).store.granules = s.store.granules ∧ (forwardWrite m addr data s).pins = s.pins ∧
    (forwardWrite m addr data s).stream = s.stream ∧ (forwardWrite m addr data s).power = s.power ∧
    (forwardWrite m addr data s).loader = s.loader ∧ (forwardWrite m addr data s).conservator = s.conservator ∧
    (forwardWrite m addr data s).egress = s.egress ∧ (forwardWrite m addr data s).repair = s.repair ∧
    (forwardWrite m addr data s).shadow = s.shadow ∧ (forwardWrite m addr data s).inForce = s.inForce ∧
    (forwardWrite m addr data s).otpRequest = s.otpRequest ∧ (forwardWrite m addr data s).heldCommands = s.heldCommands ∧
    (forwardWrite m addr data s).crossReads = s.crossReads := by
  unfold forwardWrite
  first | (simp; done) | ((try dsimp only); (repeat' split) <;> first | (simp; done) | simp_all | (repeat' split) <;> simp)

@[simp] theorem holdCommand_frame (m : Master) (addr : BitVec 6) (data : Word) (s : State) :
    (holdCommand m addr data s).pending = s.pending ∧ (holdCommand m addr data s).variant = s.variant ∧
    (holdCommand m addr data s).otp = s.otp ∧ (holdCommand m addr data s).masters.length = s.masters.length ∧
    (holdCommand m addr data s).cores.channels.length = s.cores.channels.length ∧
    (holdCommand m addr data s).regs.debugLevel = s.regs.debugLevel ∧ (holdCommand m addr data s).store.cs = s.store.cs ∧
    (holdCommand m addr data s).store.csDev = s.store.csDev ∧
    (holdCommand m addr data s).store.granules = s.store.granules ∧ (holdCommand m addr data s).pins = s.pins ∧
    (holdCommand m addr data s).stream = s.stream ∧ (holdCommand m addr data s).loader = s.loader ∧
    (holdCommand m addr data s).conservator = s.conservator ∧ (holdCommand m addr data s).egress = s.egress ∧
    (holdCommand m addr data s).repair = s.repair ∧ (holdCommand m addr data s).shadow = s.shadow ∧
    (holdCommand m addr data s).inForce = s.inForce ∧ (holdCommand m addr data s).otpRequest = s.otpRequest ∧
    (holdCommand m addr data s).crossReads = s.crossReads := by
  unfold holdCommand
  first | (simp; done) | ((try dsimp only); (repeat' split) <;> first | (simp; done) | simp_all | (repeat' split) <;> simp)

@[simp] theorem wrote_frame (m : Master) (addr : Nat) (data : Word) (s : State) :
    (wrote m addr data s).pending = s.pending ∧ (wrote m addr data s).variant = s.variant ∧
    (wrote m addr data s).otp = s.otp ∧ (wrote m addr data s).masters.length = s.masters.length ∧
    (wrote m addr data s).cores.channels.length = s.cores.channels.length ∧
    (wrote m addr data s).regs.debugLevel = s.regs.debugLevel ∧ (wrote m addr data s).store.cs = s.store.cs ∧
    (wrote m addr data s).store.csDev = s.store.csDev ∧ (wrote m addr data s).store.granules = s.store.granules ∧
    (wrote m addr data s).pins = s.pins ∧ (wrote m addr data s).stream = s.stream ∧ (wrote m addr data s).power = s.power ∧
    (wrote m addr data s).loader = s.loader ∧ (wrote m addr data s).conservator = s.conservator ∧
    (wrote m addr data s).egress = s.egress ∧ (wrote m addr data s).repair = s.repair ∧
    (wrote m addr data s).shadow = s.shadow ∧ (wrote m addr data s).inForce = s.inForce ∧
    (wrote m addr data s).otpRequest = s.otpRequest ∧ (wrote m addr data s).heldCommands = s.heldCommands ∧
    (wrote m addr data s).crossReads = s.crossReads := by
  unfold wrote
  first | (simp; done) | ((try dsimp only); (repeat' split) <;> first | (simp; done) | simp_all | (repeat' split) <;> simp)

@[simp] theorem fieldCommand_pending (m : Master) (addr : Nat) (data : Word) (f : State → State) (s : State) (hf : ∀ s, (f s).pending = s.pending) :
    (fieldCommand m addr data f s).pending = s.pending := by
  unfold fieldCommand
  first | (simp; done) | ((try dsimp only); (repeat' split) <;> first | (simp [*]; done) | simp_all | (repeat' split) <;> simp [*])

@[simp] theorem fieldCommand_variant (m : Master) (addr : Nat) (data : Word) (f : State → State) (s : State) (hf : ∀ s, (f s).variant = s.variant) :
    (fieldCommand m addr data f s).variant = s.variant := by
  unfold fieldCommand
  first | (simp; done) | ((try dsimp only); (repeat' split) <;> first | (simp [*]; done) | simp_all | (repeat' split) <;> simp [*])

@[simp] theorem fieldCommand_otp (m : Master) (addr : Nat) (data : Word) (f : State → State) (s : State) (hf : ∀ s, (f s).otp = s.otp) :
    (fieldCommand m addr data f s).otp = s.otp := by
  unfold fieldCommand
  first | (simp; done) | ((try dsimp only); (repeat' split) <;> first | (simp [*]; done) | simp_all | (repeat' split) <;> simp [*])

@[simp] theorem fieldCommand_mlen (m : Master) (addr : Nat) (data : Word) (f : State → State) (s : State) (hf : ∀ s, (f s).masters.length = s.masters.length) :
    (fieldCommand m addr data f s).masters.length = s.masters.length := by
  unfold fieldCommand
  first | (simp; done) | ((try dsimp only); (repeat' split) <;> first | (simp [*]; done) | simp_all | (repeat' split) <;> simp [*])

@[simp] theorem fieldCommand_clen (m : Master) (addr : Nat) (data : Word) (f : State → State) (s : State) (hf : ∀ s, (f s).cores.channels.length = s.cores.channels.length) :
    (fieldCommand m addr data f s).cores.channels.length = s.cores.channels.length := by
  unfold fieldCommand
  first | (simp; done) | ((try dsimp only); (repeat' split) <;> first | (simp [*]; done) | simp_all | (repeat' split) <;> simp [*])

@[simp] theorem fieldCommand_level (m : Master) (addr : Nat) (data : Word) (f : State → State) (s : State) (hf : ∀ s, (f s).regs.debugLevel = s.regs.debugLevel) :
    (fieldCommand m addr data f s).regs.debugLevel = s.regs.debugLevel := by
  unfold fieldCommand
  first | (simp; done) | ((try dsimp only); (repeat' split) <;> first | (simp [*]; done) | simp_all | (repeat' split) <;> simp [*])

@[simp] theorem fieldCommand_cs (m : Master) (addr : Nat) (data : Word) (f : State → State) (s : State) (hf : ∀ s, (f s).store.cs = s.store.cs) :
    (fieldCommand m addr data f s).store.cs = s.store.cs := by
  unfold fieldCommand
  first | (simp; done) | ((try dsimp only); (repeat' split) <;> first | (simp [*]; done) | simp_all | (repeat' split) <;> simp [*])

@[simp] theorem fieldCommand_csDev (m : Master) (addr : Nat) (data : Word) (f : State → State) (s : State) (hf : ∀ s, (f s).store.csDev = s.store.csDev) :
    (fieldCommand m addr data f s).store.csDev = s.store.csDev := by
  unfold fieldCommand
  first | (simp; done) | ((try dsimp only); (repeat' split) <;> first | (simp [*]; done) | simp_all | (repeat' split) <;> simp [*])

@[simp] theorem fieldCommand_granules (m : Master) (addr : Nat) (data : Word) (f : State → State) (s : State) (hf : ∀ s, (f s).store.granules = s.store.granules) :
    (fieldCommand m addr data f s).store.granules = s.store.granules := by
  unfold fieldCommand
  first | (simp; done) | ((try dsimp only); (repeat' split) <;> first | (simp [*]; done) | simp_all | (repeat' split) <;> simp [*])

@[simp] theorem fieldCommand_pins (m : Master) (addr : Nat) (data : Word) (f : State → State) (s : State) (hf : ∀ s, (f s).pins = s.pins) :
    (fieldCommand m addr data f s).pins = s.pins := by
  unfold fieldCommand
  first | (simp; done) | ((try dsimp only); (repeat' split) <;> first | (simp [*]; done) | simp_all | (repeat' split) <;> simp [*])

@[simp] theorem fieldCommand_stream (m : Master) (addr : Nat) (data : Word) (f : State → State) (s : State) (hf : ∀ s, (f s).stream = s.stream) :
    (fieldCommand m addr data f s).stream = s.stream := by
  unfold fieldCommand
  first | (simp; done) | ((try dsimp only); (repeat' split) <;> first | (simp [*]; done) | simp_all | (repeat' split) <;> simp [*])

@[simp] theorem fieldCommand_loader (m : Master) (addr : Nat) (data : Word) (f : State → State) (s : State) (hf : ∀ s, (f s).loader = s.loader) :
    (fieldCommand m addr data f s).loader = s.loader := by
  unfold fieldCommand
  first | (simp; done) | ((try dsimp only); (repeat' split) <;> first | (simp [*]; done) | simp_all | (repeat' split) <;> simp [*])

@[simp] theorem fieldCommand_conservator (m : Master) (addr : Nat) (data : Word) (f : State → State) (s : State) (hf : ∀ s, (f s).conservator = s.conservator) :
    (fieldCommand m addr data f s).conservator = s.conservator := by
  unfold fieldCommand
  first | (simp; done) | ((try dsimp only); (repeat' split) <;> first | (simp [*]; done) | simp_all | (repeat' split) <;> simp [*])

@[simp] theorem fieldCommand_egress (m : Master) (addr : Nat) (data : Word) (f : State → State) (s : State) (hf : ∀ s, (f s).egress = s.egress) :
    (fieldCommand m addr data f s).egress = s.egress := by
  unfold fieldCommand
  first | (simp; done) | ((try dsimp only); (repeat' split) <;> first | (simp [*]; done) | simp_all | (repeat' split) <;> simp [*])

@[simp] theorem fieldCommand_repair (m : Master) (addr : Nat) (data : Word) (f : State → State) (s : State) (hf : ∀ s, (f s).repair = s.repair) :
    (fieldCommand m addr data f s).repair = s.repair := by
  unfold fieldCommand
  first | (simp; done) | ((try dsimp only); (repeat' split) <;> first | (simp [*]; done) | simp_all | (repeat' split) <;> simp [*])

@[simp] theorem fieldCommand_shadow (m : Master) (addr : Nat) (data : Word) (f : State → State) (s : State) (hf : ∀ s, (f s).shadow = s.shadow) :
    (fieldCommand m addr data f s).shadow = s.shadow := by
  unfold fieldCommand
  first | (simp; done) | ((try dsimp only); (repeat' split) <;> first | (simp [*]; done) | simp_all | (repeat' split) <;> simp [*])

@[simp] theorem fieldCommand_inForce (m : Master) (addr : Nat) (data : Word) (f : State → State) (s : State) (hf : ∀ s, (f s).inForce = s.inForce) :
    (fieldCommand m addr data f s).inForce = s.inForce := by
  unfold fieldCommand
  first | (simp; done) | ((try dsimp only); (repeat' split) <;> first | (simp [*]; done) | simp_all | (repeat' split) <;> simp [*])

@[simp] theorem fieldCommand_otpRequest (m : Master) (addr : Nat) (data : Word) (f : State → State) (s : State) (hf : ∀ s, (f s).otpRequest = s.otpRequest) :
    (fieldCommand m addr data f s).otpRequest = s.otpRequest := by
  unfold fieldCommand
  first | (simp; done) | ((try dsimp only); (repeat' split) <;> first | (simp [*]; done) | simp_all | (repeat' split) <;> simp [*])

@[simp] theorem fieldCommand_crossReads (m : Master) (addr : Nat) (data : Word) (f : State → State) (s : State) (hf : ∀ s, (f s).crossReads = s.crossReads) :
    (fieldCommand m addr data f s).crossReads = s.crossReads := by
  unfold fieldCommand
  first | (simp; done) | ((try dsimp only); (repeat' split) <;> first | (simp [*]; done) | simp_all | (repeat' split) <;> simp [*])

@[simp] theorem fieldCommand_plen (m : Master) (addr : Nat) (data : Word) (f : State → State) (s : State) (hf : ∀ s, (f s).pins.pins.length = s.pins.pins.length) :
    (fieldCommand m addr data f s).pins.pins.length = s.pins.pins.length := by
  unfold fieldCommand
  first | (simp; done) | ((try dsimp only); (repeat' split) <;> first | (simp [*]; done) | simp_all | (repeat' split) <;> simp [*])

@[simp] theorem hostWrite_frame (addr n v : Nat) (s : State) :
    (hostWrite addr n v s).pending = s.pending ∧ (hostWrite addr n v s).variant = s.variant ∧
    (hostWrite addr n v s).otp = s.otp ∧ (hostWrite addr n v s).masters.length = s.masters.length ∧
    (hostWrite addr n v s).cores.channels.length = s.cores.channels.length ∧
    (hostWrite addr n v s).regs.debugLevel = s.regs.debugLevel ∧ (hostWrite addr n v s).store.cs = s.store.cs ∧
    (hostWrite addr n v s).store.csDev = s.store.csDev ∧ (hostWrite addr n v s).store.granules = s.store.granules ∧
    (hostWrite addr n v s).pins = s.pins ∧ (hostWrite addr n v s).stream = s.stream ∧
    (hostWrite addr n v s).power = s.power ∧ (hostWrite addr n v s).loader = s.loader ∧
    (hostWrite addr n v s).conservator = s.conservator ∧ (hostWrite addr n v s).egress = s.egress ∧
    (hostWrite addr n v s).repair = s.repair ∧ (hostWrite addr n v s).shadow = s.shadow ∧
    (hostWrite addr n v s).inForce = s.inForce ∧ (hostWrite addr n v s).otpRequest = s.otpRequest ∧
    (hostWrite addr n v s).heldCommands = s.heldCommands ∧ (hostWrite addr n v s).crossReads = s.crossReads := by
  unfold hostWrite
  first | (simp; done) | ((try dsimp only); (repeat' split) <;> first | (simp; done) | simp_all | (repeat' split) <;> simp)

@[simp] theorem hostWriteBytes_frame (addr : Nat) (bs : List Byte) (s : State) :
    (hostWriteBytes addr bs s).pending = s.pending ∧ (hostWriteBytes addr bs s).variant = s.variant ∧
    (hostWriteBytes addr bs s).otp = s.otp ∧ (hostWriteBytes addr bs s).masters.length = s.masters.length ∧
    (hostWriteBytes addr bs s).cores.channels.length = s.cores.channels.length ∧
    (hostWriteBytes addr bs s).regs.debugLevel = s.regs.debugLevel ∧ (hostWriteBytes addr bs s).store.cs = s.store.cs ∧
    (hostWriteBytes addr bs s).store.csDev = s.store.csDev ∧ (hostWriteBytes addr bs s).store.granules = s.store.granules ∧
    (hostWriteBytes addr bs s).pins = s.pins ∧ (hostWriteBytes addr bs s).stream = s.stream ∧
    (hostWriteBytes addr bs s).power = s.power ∧ (hostWriteBytes addr bs s).loader = s.loader ∧
    (hostWriteBytes addr bs s).conservator = s.conservator ∧ (hostWriteBytes addr bs s).egress = s.egress ∧
    (hostWriteBytes addr bs s).repair = s.repair ∧ (hostWriteBytes addr bs s).shadow = s.shadow ∧
    (hostWriteBytes addr bs s).inForce = s.inForce ∧ (hostWriteBytes addr bs s).otpRequest = s.otpRequest ∧
    (hostWriteBytes addr bs s).heldCommands = s.heldCommands ∧ (hostWriteBytes addr bs s).crossReads = s.crossReads := by
  unfold hostWriteBytes
  first | (simp; done) | ((try dsimp only); (repeat' split) <;> first | (simp; done) | simp_all | (repeat' split) <;> simp)

@[simp] theorem csWrite_frame (a : Nat) (bs : List Byte) (s : State) :
    (csWrite a bs s).pending = s.pending ∧ (csWrite a bs s).variant = s.variant ∧ (csWrite a bs s).otp = s.otp ∧
    (csWrite a bs s).masters.length = s.masters.length ∧ (csWrite a bs s).cores.channels.length = s.cores.channels.length ∧
    (csWrite a bs s).regs.debugLevel = s.regs.debugLevel ∧ (csWrite a bs s).pins = s.pins ∧
    (csWrite a bs s).stream = s.stream ∧ (csWrite a bs s).power = s.power ∧ (csWrite a bs s).loader = s.loader ∧
    (csWrite a bs s).conservator = s.conservator ∧ (csWrite a bs s).egress = s.egress ∧ (csWrite a bs s).repair = s.repair ∧
    (csWrite a bs s).shadow = s.shadow ∧ (csWrite a bs s).inForce = s.inForce ∧ (csWrite a bs s).otpRequest = s.otpRequest ∧
    (csWrite a bs s).heldCommands = s.heldCommands ∧ (csWrite a bs s).crossReads = s.crossReads := by
  unfold csWrite
  first | (simp; done) | ((try dsimp only); (repeat' split) <;> first | (simp; done) | simp_all | (repeat' split) <;> simp)

@[simp] theorem markFault_frame  (s : State) :
    (markFault s).pending = s.pending ∧ (markFault s).variant = s.variant ∧ (markFault s).otp = s.otp ∧
    (markFault s).masters.length = s.masters.length ∧ (markFault s).cores.channels.length = s.cores.channels.length ∧
    (markFault s).regs.debugLevel = s.regs.debugLevel ∧ (markFault s).store.cs = s.store.cs ∧
    (markFault s).store.csDev = s.store.csDev ∧ (markFault s).store.granules = s.store.granules ∧
    (markFault s).pins = s.pins ∧ (markFault s).stream = s.stream ∧ (markFault s).power = s.power ∧
    (markFault s).loader = s.loader ∧ (markFault s).conservator = s.conservator ∧ (markFault s).egress = s.egress ∧
    (markFault s).repair = s.repair ∧ (markFault s).shadow = s.shadow ∧ (markFault s).inForce = s.inForce ∧
    (markFault s).otpRequest = s.otpRequest ∧ (markFault s).heldCommands = s.heldCommands ∧
    (markFault s).crossReads = s.crossReads := by
  unfold markFault
  first | (simp; done) | ((try dsimp only); (repeat' split) <;> first | (simp; done) | simp_all | (repeat' split) <;> simp)

@[simp] theorem countError_frame (store cls loc bytes : Nat) (s : State) :
    (countError store cls loc bytes s).pending = s.pending ∧ (countError store cls loc bytes s).variant = s.variant ∧
    (countError store cls loc bytes s).otp = s.otp ∧ (countError store cls loc bytes s).masters.length = s.masters.length ∧
    (countError store cls loc bytes s).cores.channels.length = s.cores.channels.length ∧
    (countError store cls loc bytes s).regs.debugLevel = s.regs.debugLevel ∧
    (countError store cls loc bytes s).store.cs = s.store.cs ∧
    (countError store cls loc bytes s).store.csDev = s.store.csDev ∧
    (countError store cls loc bytes s).store.granules = s.store.granules ∧
    (countError store cls loc bytes s).pins = s.pins ∧ (countError store cls loc bytes s).stream = s.stream ∧
    (countError store cls loc bytes s).power = s.power ∧ (countError store cls loc bytes s).loader = s.loader ∧
    (countError store cls loc bytes s).conservator = s.conservator ∧ (countError store cls loc bytes s).egress = s.egress ∧
    (countError store cls loc bytes s).repair = s.repair ∧ (countError store cls loc bytes s).shadow = s.shadow ∧
    (countError store cls loc bytes s).inForce = s.inForce ∧ (countError store cls loc bytes s).otpRequest = s.otpRequest ∧
    (countError store cls loc bytes s).heldCommands = s.heldCommands ∧
    (countError store cls loc bytes s).crossReads = s.crossReads := by
  unfold countError
  first | (simp; done) | ((try dsimp only); (repeat' split) <;> first | (simp; done) | simp_all | (repeat' split) <;> simp)

@[simp] theorem csReadCount_frame (a : Nat) (s : State) :
    (csReadCount a s).pending = s.pending ∧ (csReadCount a s).variant = s.variant ∧ (csReadCount a s).otp = s.otp ∧
    (csReadCount a s).masters.length = s.masters.length ∧
    (csReadCount a s).cores.channels.length = s.cores.channels.length ∧
    (csReadCount a s).regs.debugLevel = s.regs.debugLevel ∧ (csReadCount a s).pins = s.pins ∧
    (csReadCount a s).stream = s.stream ∧ (csReadCount a s).power = s.power ∧ (csReadCount a s).loader = s.loader ∧
    (csReadCount a s).conservator = s.conservator ∧ (csReadCount a s).egress = s.egress ∧
    (csReadCount a s).repair = s.repair ∧ (csReadCount a s).shadow = s.shadow ∧ (csReadCount a s).inForce = s.inForce ∧
    (csReadCount a s).otpRequest = s.otpRequest ∧ (csReadCount a s).heldCommands = s.heldCommands ∧
    (csReadCount a s).crossReads = s.crossReads := by
  unfold csReadCount
  first | (simp; done) | ((try dsimp only); (repeat' split) <;> first | (simp; done) | simp_all | (repeat' split) <;> simp)

@[simp] theorem csReadCounts_frame (a n : Nat) (s : State) :
    (csReadCounts a n s).pending = s.pending ∧ (csReadCounts a n s).variant = s.variant ∧ (csReadCounts a n s).otp = s.otp ∧
    (csReadCounts a n s).masters.length = s.masters.length ∧
    (csReadCounts a n s).cores.channels.length = s.cores.channels.length ∧
    (csReadCounts a n s).regs.debugLevel = s.regs.debugLevel ∧ (csReadCounts a n s).pins = s.pins ∧
    (csReadCounts a n s).stream = s.stream ∧ (csReadCounts a n s).power = s.power ∧ (csReadCounts a n s).loader = s.loader ∧
    (csReadCounts a n s).conservator = s.conservator ∧ (csReadCounts a n s).egress = s.egress ∧
    (csReadCounts a n s).repair = s.repair ∧ (csReadCounts a n s).shadow = s.shadow ∧
    (csReadCounts a n s).inForce = s.inForce ∧ (csReadCounts a n s).otpRequest = s.otpRequest ∧
    (csReadCounts a n s).heldCommands = s.heldCommands ∧ (csReadCounts a n s).crossReads = s.crossReads := by
  induction n generalizing a s with
  | zero => simp [csReadCounts]
  | succ _ ih => (simp [csReadCounts, ih]; done)

@[simp] theorem csReadEffect_frame (a : Nat) (s : State) :
    (csReadEffect a s).pending = s.pending ∧ (csReadEffect a s).variant = s.variant ∧ (csReadEffect a s).otp = s.otp ∧
    (csReadEffect a s).masters.length = s.masters.length ∧
    (csReadEffect a s).cores.channels.length = s.cores.channels.length ∧
    (csReadEffect a s).regs.debugLevel = s.regs.debugLevel ∧ (csReadEffect a s).pins = s.pins ∧
    (csReadEffect a s).stream = s.stream ∧ (csReadEffect a s).power = s.power ∧ (csReadEffect a s).loader = s.loader ∧
    (csReadEffect a s).conservator = s.conservator ∧ (csReadEffect a s).egress = s.egress ∧
    (csReadEffect a s).repair = s.repair ∧ (csReadEffect a s).shadow = s.shadow ∧ (csReadEffect a s).inForce = s.inForce ∧
    (csReadEffect a s).otpRequest = s.otpRequest ∧ (csReadEffect a s).heldCommands = s.heldCommands ∧
    (csReadEffect a s).crossReads = s.crossReads := by
  unfold csReadEffect
  first | (simp; done) | ((try dsimp only); (repeat' split) <;> first | (simp; done) | simp_all | (repeat' split) <;> simp)

@[simp] theorem csReadEffects_frame (a n : Nat) (s : State) :
    (csReadEffects a n s).pending = s.pending ∧ (csReadEffects a n s).variant = s.variant ∧
    (csReadEffects a n s).otp = s.otp ∧ (csReadEffects a n s).masters.length = s.masters.length ∧
    (csReadEffects a n s).cores.channels.length = s.cores.channels.length ∧
    (csReadEffects a n s).regs.debugLevel = s.regs.debugLevel ∧ (csReadEffects a n s).pins = s.pins ∧
    (csReadEffects a n s).stream = s.stream ∧ (csReadEffects a n s).power = s.power ∧
    (csReadEffects a n s).loader = s.loader ∧ (csReadEffects a n s).conservator = s.conservator ∧
    (csReadEffects a n s).egress = s.egress ∧ (csReadEffects a n s).repair = s.repair ∧
    (csReadEffects a n s).shadow = s.shadow ∧ (csReadEffects a n s).inForce = s.inForce ∧
    (csReadEffects a n s).otpRequest = s.otpRequest ∧ (csReadEffects a n s).heldCommands = s.heldCommands ∧
    (csReadEffects a n s).crossReads = s.crossReads := by
  induction n generalizing a s with
  | zero => simp [csReadEffects]
  | succ _ ih => (simp [csReadEffects, ih]; done)

@[simp] theorem setFlink_frame (l : FLink) (v : FieldLink) (s : State) :
    (setFlink l v s).pending = s.pending ∧ (setFlink l v s).variant = s.variant ∧ (setFlink l v s).otp = s.otp ∧
    (setFlink l v s).masters.length = s.masters.length ∧ (setFlink l v s).cores.channels.length = s.cores.channels.length ∧
    (setFlink l v s).regs.debugLevel = s.regs.debugLevel ∧ (setFlink l v s).store.cs = s.store.cs ∧
    (setFlink l v s).store.csDev = s.store.csDev ∧ (setFlink l v s).store.granules = s.store.granules ∧
    (setFlink l v s).pins = s.pins ∧ (setFlink l v s).stream = s.stream ∧ (setFlink l v s).power = s.power ∧
    (setFlink l v s).loader = s.loader ∧ (setFlink l v s).conservator = s.conservator ∧ (setFlink l v s).egress = s.egress ∧
    (setFlink l v s).repair = s.repair ∧ (setFlink l v s).shadow = s.shadow ∧ (setFlink l v s).inForce = s.inForce ∧
    (setFlink l v s).otpRequest = s.otpRequest ∧ (setFlink l v s).heldCommands = s.heldCommands ∧
    (setFlink l v s).crossReads = s.crossReads := by
  unfold setFlink
  first | (simp; done) | ((try dsimp only); (repeat' split) <;> first | (simp; done) | simp_all | (repeat' split) <;> simp)

@[simp] theorem setLane_frame (l : FLink) (i : Nat) (v : Lane) (s : State) :
    (setLane l i v s).pending = s.pending ∧ (setLane l i v s).variant = s.variant ∧ (setLane l i v s).otp = s.otp ∧
    (setLane l i v s).masters.length = s.masters.length ∧
    (setLane l i v s).cores.channels.length = s.cores.channels.length ∧
    (setLane l i v s).regs.debugLevel = s.regs.debugLevel ∧ (setLane l i v s).store.cs = s.store.cs ∧
    (setLane l i v s).store.csDev = s.store.csDev ∧ (setLane l i v s).store.granules = s.store.granules ∧
    (setLane l i v s).pins = s.pins ∧ (setLane l i v s).stream = s.stream ∧ (setLane l i v s).power = s.power ∧
    (setLane l i v s).loader = s.loader ∧ (setLane l i v s).conservator = s.conservator ∧
    (setLane l i v s).egress = s.egress ∧ (setLane l i v s).repair = s.repair ∧ (setLane l i v s).shadow = s.shadow ∧
    (setLane l i v s).inForce = s.inForce ∧ (setLane l i v s).otpRequest = s.otpRequest ∧
    (setLane l i v s).heldCommands = s.heldCommands ∧ (setLane l i v s).crossReads = s.crossReads := by
  unfold setLane
  first | (simp; done) | ((try dsimp only); (repeat' split) <;> first | (simp; done) | simp_all | (repeat' split) <;> simp)

@[simp] theorem setLedger_frame (l : FLink) (v : Ledger) (s : State) :
    (setLedger l v s).pending = s.pending ∧ (setLedger l v s).variant = s.variant ∧ (setLedger l v s).otp = s.otp ∧
    (setLedger l v s).masters.length = s.masters.length ∧
    (setLedger l v s).cores.channels.length = s.cores.channels.length ∧
    (setLedger l v s).regs.debugLevel = s.regs.debugLevel ∧ (setLedger l v s).store.cs = s.store.cs ∧
    (setLedger l v s).store.csDev = s.store.csDev ∧ (setLedger l v s).store.granules = s.store.granules ∧
    (setLedger l v s).pins = s.pins ∧ (setLedger l v s).stream = s.stream ∧ (setLedger l v s).power = s.power ∧
    (setLedger l v s).loader = s.loader ∧ (setLedger l v s).conservator = s.conservator ∧
    (setLedger l v s).egress = s.egress ∧ (setLedger l v s).repair = s.repair ∧ (setLedger l v s).shadow = s.shadow ∧
    (setLedger l v s).inForce = s.inForce ∧ (setLedger l v s).otpRequest = s.otpRequest ∧
    (setLedger l v s).heldCommands = s.heldCommands ∧ (setLedger l v s).crossReads = s.crossReads := by
  unfold setLedger
  first | (simp; done) | ((try dsimp only); (repeat' split) <;> first | (simp; done) | simp_all | (repeat' split) <;> simp)

@[simp] theorem setCore_frame (c : Core) (v : CoreState) (s : State) :
    (setCore c v s).pending = s.pending ∧ (setCore c v s).variant = s.variant ∧ (setCore c v s).otp = s.otp ∧
    (setCore c v s).masters.length = s.masters.length ∧ (setCore c v s).cores.channels.length = s.cores.channels.length ∧
    (setCore c v s).regs.debugLevel = s.regs.debugLevel ∧ (setCore c v s).store.cs = s.store.cs ∧
    (setCore c v s).store.csDev = s.store.csDev ∧ (setCore c v s).store.granules = s.store.granules ∧
    (setCore c v s).pins = s.pins ∧ (setCore c v s).stream = s.stream ∧ (setCore c v s).power = s.power ∧
    (setCore c v s).loader = s.loader ∧ (setCore c v s).conservator = s.conservator ∧ (setCore c v s).egress = s.egress ∧
    (setCore c v s).repair = s.repair ∧ (setCore c v s).shadow = s.shadow ∧ (setCore c v s).inForce = s.inForce ∧
    (setCore c v s).otpRequest = s.otpRequest ∧ (setCore c v s).heldCommands = s.heldCommands ∧
    (setCore c v s).crossReads = s.crossReads := by
  unfold setCore
  first | (simp; done) | ((try dsimp only); (repeat' split) <;> first | (simp; done) | simp_all | (repeat' split) <;> simp)

@[simp] theorem modBatch_frame (n : DWord) (f : Batch → Batch) (s : State) :
    (modBatch n f s).pending = s.pending ∧ (modBatch n f s).variant = s.variant ∧ (modBatch n f s).otp = s.otp ∧
    (modBatch n f s).masters.length = s.masters.length ∧ (modBatch n f s).cores.channels.length = s.cores.channels.length ∧
    (modBatch n f s).regs.debugLevel = s.regs.debugLevel ∧ (modBatch n f s).store.cs = s.store.cs ∧
    (modBatch n f s).store.csDev = s.store.csDev ∧ (modBatch n f s).store.granules = s.store.granules ∧
    (modBatch n f s).pins = s.pins ∧ (modBatch n f s).stream = s.stream ∧ (modBatch n f s).power = s.power ∧
    (modBatch n f s).loader = s.loader ∧ (modBatch n f s).conservator = s.conservator ∧ (modBatch n f s).egress = s.egress ∧
    (modBatch n f s).repair = s.repair ∧ (modBatch n f s).shadow = s.shadow ∧ (modBatch n f s).inForce = s.inForce ∧
    (modBatch n f s).otpRequest = s.otpRequest ∧ (modBatch n f s).heldCommands = s.heldCommands ∧
    (modBatch n f s).crossReads = s.crossReads := by
  unfold modBatch
  first | (simp; done) | ((try dsimp only); (repeat' split) <;> first | (simp; done) | simp_all | (repeat' split) <;> simp)

@[simp] theorem wait_frame (l : FLink) (rs : List QRec) (s : State) :
    (wait l rs s).pending = s.pending ∧ (wait l rs s).variant = s.variant ∧ (wait l rs s).otp = s.otp ∧
    (wait l rs s).masters.length = s.masters.length ∧ (wait l rs s).cores.channels.length = s.cores.channels.length ∧
    (wait l rs s).regs.debugLevel = s.regs.debugLevel ∧ (wait l rs s).store.cs = s.store.cs ∧
    (wait l rs s).store.csDev = s.store.csDev ∧ (wait l rs s).store.granules = s.store.granules ∧
    (wait l rs s).pins = s.pins ∧ (wait l rs s).stream = s.stream ∧ (wait l rs s).power = s.power ∧
    (wait l rs s).loader = s.loader ∧ (wait l rs s).conservator = s.conservator ∧ (wait l rs s).egress = s.egress ∧
    (wait l rs s).repair = s.repair ∧ (wait l rs s).shadow = s.shadow ∧ (wait l rs s).inForce = s.inForce ∧
    (wait l rs s).otpRequest = s.otpRequest ∧ (wait l rs s).heldCommands = s.heldCommands ∧
    (wait l rs s).crossReads = s.crossReads := by
  unfold wait
  first | (simp; done) | ((try dsimp only); (repeat' split) <;> first | (simp; done) | simp_all | (repeat' split) <;> simp)

@[simp] theorem waitAhead_frame (l : FLink) (r : QRec) (s : State) :
    (waitAhead l r s).pending = s.pending ∧ (waitAhead l r s).variant = s.variant ∧ (waitAhead l r s).otp = s.otp ∧
    (waitAhead l r s).masters.length = s.masters.length ∧
    (waitAhead l r s).cores.channels.length = s.cores.channels.length ∧
    (waitAhead l r s).regs.debugLevel = s.regs.debugLevel ∧ (waitAhead l r s).store.cs = s.store.cs ∧
    (waitAhead l r s).store.csDev = s.store.csDev ∧ (waitAhead l r s).store.granules = s.store.granules ∧
    (waitAhead l r s).pins = s.pins ∧ (waitAhead l r s).stream = s.stream ∧ (waitAhead l r s).power = s.power ∧
    (waitAhead l r s).loader = s.loader ∧ (waitAhead l r s).conservator = s.conservator ∧
    (waitAhead l r s).egress = s.egress ∧ (waitAhead l r s).repair = s.repair ∧ (waitAhead l r s).shadow = s.shadow ∧
    (waitAhead l r s).inForce = s.inForce ∧ (waitAhead l r s).otpRequest = s.otpRequest ∧
    (waitAhead l r s).heldCommands = s.heldCommands ∧ (waitAhead l r s).crossReads = s.crossReads := by
  unfold waitAhead
  first | (simp; done) | ((try dsimp only); (repeat' split) <;> first | (simp; done) | simp_all | (repeat' split) <;> simp)

@[simp] theorem addCause_frame (n : DWord) (cause site : Nat) (s : State) :
    (addCause n cause site s).pending = s.pending ∧ (addCause n cause site s).variant = s.variant ∧
    (addCause n cause site s).otp = s.otp ∧ (addCause n cause site s).masters.length = s.masters.length ∧
    (addCause n cause site s).cores.channels.length = s.cores.channels.length ∧
    (addCause n cause site s).regs.debugLevel = s.regs.debugLevel ∧ (addCause n cause site s).store.cs = s.store.cs ∧
    (addCause n cause site s).store.csDev = s.store.csDev ∧ (addCause n cause site s).store.granules = s.store.granules ∧
    (addCause n cause site s).pins = s.pins ∧ (addCause n cause site s).stream = s.stream ∧
    (addCause n cause site s).power = s.power ∧ (addCause n cause site s).loader = s.loader ∧
    (addCause n cause site s).conservator = s.conservator ∧ (addCause n cause site s).egress = s.egress ∧
    (addCause n cause site s).repair = s.repair ∧ (addCause n cause site s).shadow = s.shadow ∧
    (addCause n cause site s).inForce = s.inForce ∧ (addCause n cause site s).otpRequest = s.otpRequest ∧
    (addCause n cause site s).heldCommands = s.heldCommands ∧ (addCause n cause site s).crossReads = s.crossReads := by
  unfold addCause
  first | (simp; done) | ((try dsimp only); (repeat' split) <;> first | (simp; done) | simp_all | (repeat' split) <;> simp)

@[simp] theorem addCauses_frame (n : DWord) (cause : Nat) (sites : List Nat) (s : State) :
    (addCauses n cause sites s).pending = s.pending ∧ (addCauses n cause sites s).variant = s.variant ∧
    (addCauses n cause sites s).otp = s.otp ∧ (addCauses n cause sites s).masters.length = s.masters.length ∧
    (addCauses n cause sites s).cores.channels.length = s.cores.channels.length ∧
    (addCauses n cause sites s).regs.debugLevel = s.regs.debugLevel ∧ (addCauses n cause sites s).store.cs = s.store.cs ∧
    (addCauses n cause sites s).store.csDev = s.store.csDev ∧
    (addCauses n cause sites s).store.granules = s.store.granules ∧ (addCauses n cause sites s).pins = s.pins ∧
    (addCauses n cause sites s).stream = s.stream ∧ (addCauses n cause sites s).power = s.power ∧
    (addCauses n cause sites s).loader = s.loader ∧ (addCauses n cause sites s).conservator = s.conservator ∧
    (addCauses n cause sites s).egress = s.egress ∧ (addCauses n cause sites s).repair = s.repair ∧
    (addCauses n cause sites s).shadow = s.shadow ∧ (addCauses n cause sites s).inForce = s.inForce ∧
    (addCauses n cause sites s).otpRequest = s.otpRequest ∧ (addCauses n cause sites s).heldCommands = s.heldCommands ∧
    (addCauses n cause sites s).crossReads = s.crossReads := by
  unfold addCauses
  first | (simp; done) | ((try dsimp only); (repeat' split) <;> first | (simp; done) | simp_all | (repeat' split) <;> simp)

@[simp] theorem indetAll_frame (n : DWord) (cause : Nat) (s : State) :
    (indetAll n cause s).pending = s.pending ∧ (indetAll n cause s).variant = s.variant ∧ (indetAll n cause s).otp = s.otp ∧
    (indetAll n cause s).masters.length = s.masters.length ∧
    (indetAll n cause s).cores.channels.length = s.cores.channels.length ∧
    (indetAll n cause s).regs.debugLevel = s.regs.debugLevel ∧ (indetAll n cause s).store.cs = s.store.cs ∧
    (indetAll n cause s).store.csDev = s.store.csDev ∧ (indetAll n cause s).store.granules = s.store.granules ∧
    (indetAll n cause s).pins = s.pins ∧ (indetAll n cause s).stream = s.stream ∧ (indetAll n cause s).power = s.power ∧
    (indetAll n cause s).loader = s.loader ∧ (indetAll n cause s).conservator = s.conservator ∧
    (indetAll n cause s).egress = s.egress ∧ (indetAll n cause s).repair = s.repair ∧
    (indetAll n cause s).shadow = s.shadow ∧ (indetAll n cause s).inForce = s.inForce ∧
    (indetAll n cause s).otpRequest = s.otpRequest ∧ (indetAll n cause s).heldCommands = s.heldCommands ∧
    (indetAll n cause s).crossReads = s.crossReads := by
  unfold indetAll
  first | (simp; done) | ((try dsimp only); (repeat' split) <;> first | (simp; done) | simp_all | (repeat' split) <;> simp)

@[simp] theorem indetNow_frame (cause : Nat) (s : State) :
    (indetNow cause s).pending = s.pending ∧ (indetNow cause s).variant = s.variant ∧ (indetNow cause s).otp = s.otp ∧
    (indetNow cause s).masters.length = s.masters.length ∧
    (indetNow cause s).cores.channels.length = s.cores.channels.length ∧
    (indetNow cause s).regs.debugLevel = s.regs.debugLevel ∧ (indetNow cause s).store.cs = s.store.cs ∧
    (indetNow cause s).store.csDev = s.store.csDev ∧ (indetNow cause s).store.granules = s.store.granules ∧
    (indetNow cause s).pins = s.pins ∧ (indetNow cause s).stream = s.stream ∧ (indetNow cause s).power = s.power ∧
    (indetNow cause s).loader = s.loader ∧ (indetNow cause s).conservator = s.conservator ∧
    (indetNow cause s).egress = s.egress ∧ (indetNow cause s).repair = s.repair ∧ (indetNow cause s).shadow = s.shadow ∧
    (indetNow cause s).inForce = s.inForce ∧ (indetNow cause s).otpRequest = s.otpRequest ∧
    (indetNow cause s).heldCommands = s.heldCommands ∧ (indetNow cause s).crossReads = s.crossReads := by
  unfold indetNow
  first | (simp; done) | ((try dsimp only); (repeat' split) <;> first | (simp; done) | simp_all | (repeat' split) <;> simp)

@[simp] theorem addWindow_frame (n : DWord) (w0 : Window) (s : State) :
    (addWindow n w0 s).pending = s.pending ∧ (addWindow n w0 s).variant = s.variant ∧ (addWindow n w0 s).otp = s.otp ∧
    (addWindow n w0 s).masters.length = s.masters.length ∧
    (addWindow n w0 s).cores.channels.length = s.cores.channels.length ∧
    (addWindow n w0 s).regs.debugLevel = s.regs.debugLevel ∧ (addWindow n w0 s).store.cs = s.store.cs ∧
    (addWindow n w0 s).store.csDev = s.store.csDev ∧ (addWindow n w0 s).store.granules = s.store.granules ∧
    (addWindow n w0 s).pins = s.pins ∧ (addWindow n w0 s).stream = s.stream ∧ (addWindow n w0 s).power = s.power ∧
    (addWindow n w0 s).loader = s.loader ∧ (addWindow n w0 s).conservator = s.conservator ∧
    (addWindow n w0 s).egress = s.egress ∧ (addWindow n w0 s).repair = s.repair ∧ (addWindow n w0 s).shadow = s.shadow ∧
    (addWindow n w0 s).inForce = s.inForce ∧ (addWindow n w0 s).otpRequest = s.otpRequest ∧
    (addWindow n w0 s).heldCommands = s.heldCommands ∧ (addWindow n w0 s).crossReads = s.crossReads := by
  unfold addWindow
  first | (simp; done) | ((try dsimp only); (repeat' split) <;> first | (simp; done) | simp_all | (repeat' split) <;> simp)

@[simp] theorem windowOver_frame (sites : List Nat) (source detail a e : Nat) (s : State) :
    (windowOver sites source detail a e s).pending = s.pending ∧
    (windowOver sites source detail a e s).variant = s.variant ∧ (windowOver sites source detail a e s).otp = s.otp ∧
    (windowOver sites source detail a e s).masters.length = s.masters.length ∧
    (windowOver sites source detail a e s).cores.channels.length = s.cores.channels.length ∧
    (windowOver sites source detail a e s).regs.debugLevel = s.regs.debugLevel ∧
    (windowOver sites source detail a e s).store.cs = s.store.cs ∧
    (windowOver sites source detail a e s).store.csDev = s.store.csDev ∧
    (windowOver sites source detail a e s).store.granules = s.store.granules ∧
    (windowOver sites source detail a e s).pins = s.pins ∧ (windowOver sites source detail a e s).stream = s.stream ∧
    (windowOver sites source detail a e s).power = s.power ∧ (windowOver sites source detail a e s).loader = s.loader ∧
    (windowOver sites source detail a e s).conservator = s.conservator ∧
    (windowOver sites source detail a e s).egress = s.egress ∧ (windowOver sites source detail a e s).repair = s.repair ∧
    (windowOver sites source detail a e s).shadow = s.shadow ∧ (windowOver sites source detail a e s).inForce = s.inForce ∧
    (windowOver sites source detail a e s).otpRequest = s.otpRequest ∧
    (windowOver sites source detail a e s).heldCommands = s.heldCommands ∧
    (windowOver sites source detail a e s).crossReads = s.crossReads := by
  unfold windowOver
  first | (simp; done) | ((try dsimp only); (repeat' split) <;> first | (simp; done) | simp_all | (repeat' split) <;> simp)

@[simp] theorem timeMarks_frame (source code : Nat) (s : State) :
    (timeMarks source code s).pending = s.pending ∧ (timeMarks source code s).variant = s.variant ∧
    (timeMarks source code s).otp = s.otp ∧ (timeMarks source code s).masters.length = s.masters.length ∧
    (timeMarks source code s).cores.channels.length = s.cores.channels.length ∧
    (timeMarks source code s).regs.debugLevel = s.regs.debugLevel ∧ (timeMarks source code s).store.cs = s.store.cs ∧
    (timeMarks source code s).store.csDev = s.store.csDev ∧ (timeMarks source code s).store.granules = s.store.granules ∧
    (timeMarks source code s).pins = s.pins ∧ (timeMarks source code s).stream = s.stream ∧
    (timeMarks source code s).power = s.power ∧ (timeMarks source code s).loader = s.loader ∧
    (timeMarks source code s).conservator = s.conservator ∧ (timeMarks source code s).egress = s.egress ∧
    (timeMarks source code s).repair = s.repair ∧ (timeMarks source code s).shadow = s.shadow ∧
    (timeMarks source code s).inForce = s.inForce ∧ (timeMarks source code s).otpRequest = s.otpRequest ∧
    (timeMarks source code s).heldCommands = s.heldCommands ∧ (timeMarks source code s).crossReads = s.crossReads := by
  unfold timeMarks
  first | (simp; done) | ((try dsimp only); (repeat' split) <;> first | (simp; done) | simp_all | (repeat' split) <;> simp)

@[simp] theorem putLastCode_frame (code : Nat) (s : State) :
    (putLastCode code s).pending = s.pending ∧ (putLastCode code s).variant = s.variant ∧ (putLastCode code s).otp = s.otp ∧
    (putLastCode code s).masters.length = s.masters.length ∧
    (putLastCode code s).cores.channels.length = s.cores.channels.length ∧
    (putLastCode code s).regs.debugLevel = s.regs.debugLevel ∧ (putLastCode code s).store.cs = s.store.cs ∧
    (putLastCode code s).store.csDev = s.store.csDev ∧ (putLastCode code s).store.granules = s.store.granules ∧
    (putLastCode code s).pins = s.pins ∧ (putLastCode code s).stream = s.stream ∧ (putLastCode code s).power = s.power ∧
    (putLastCode code s).loader = s.loader ∧ (putLastCode code s).conservator = s.conservator ∧
    (putLastCode code s).egress = s.egress ∧ (putLastCode code s).repair = s.repair ∧
    (putLastCode code s).shadow = s.shadow ∧ (putLastCode code s).inForce = s.inForce ∧
    (putLastCode code s).otpRequest = s.otpRequest ∧ (putLastCode code s).heldCommands = s.heldCommands ∧
    (putLastCode code s).crossReads = s.crossReads := by
  unfold putLastCode
  first | (simp; done) | ((try dsimp only); (repeat' split) <;> first | (simp; done) | simp_all | (repeat' split) <;> simp)

@[simp] theorem decide1_frame (code arg : Nat) (s : State) :
    (decide1 code arg s).pending = s.pending ∧ (decide1 code arg s).variant = s.variant ∧ (decide1 code arg s).otp = s.otp ∧
    (decide1 code arg s).masters.length = s.masters.length ∧
    (decide1 code arg s).cores.channels.length = s.cores.channels.length ∧
    (decide1 code arg s).regs.debugLevel = s.regs.debugLevel ∧ (decide1 code arg s).store.cs = s.store.cs ∧
    (decide1 code arg s).store.csDev = s.store.csDev ∧ (decide1 code arg s).store.granules = s.store.granules ∧
    (decide1 code arg s).pins = s.pins ∧ (decide1 code arg s).stream = s.stream ∧ (decide1 code arg s).power = s.power ∧
    (decide1 code arg s).loader = s.loader ∧ (decide1 code arg s).conservator = s.conservator ∧
    (decide1 code arg s).egress = s.egress ∧ (decide1 code arg s).repair = s.repair ∧
    (decide1 code arg s).shadow = s.shadow ∧ (decide1 code arg s).inForce = s.inForce ∧
    (decide1 code arg s).otpRequest = s.otpRequest ∧ (decide1 code arg s).heldCommands = s.heldCommands ∧
    (decide1 code arg s).crossReads = s.crossReads := by
  unfold decide1
  first | (simp; done) | ((try dsimp only); (repeat' split) <;> first | (simp; done) | simp_all | (repeat' split) <;> simp)

@[simp] theorem decideAtBoundary_frame (code arg : Nat) (s : State) :
    (decideAtBoundary code arg s).pending = s.pending ∧ (decideAtBoundary code arg s).variant = s.variant ∧
    (decideAtBoundary code arg s).otp = s.otp ∧ (decideAtBoundary code arg s).masters.length = s.masters.length ∧
    (decideAtBoundary code arg s).cores.channels.length = s.cores.channels.length ∧
    (decideAtBoundary code arg s).regs.debugLevel = s.regs.debugLevel ∧
    (decideAtBoundary code arg s).store.cs = s.store.cs ∧ (decideAtBoundary code arg s).store.csDev = s.store.csDev ∧
    (decideAtBoundary code arg s).store.granules = s.store.granules ∧ (decideAtBoundary code arg s).pins = s.pins ∧
    (decideAtBoundary code arg s).stream = s.stream ∧ (decideAtBoundary code arg s).power = s.power ∧
    (decideAtBoundary code arg s).loader = s.loader ∧ (decideAtBoundary code arg s).conservator = s.conservator ∧
    (decideAtBoundary code arg s).egress = s.egress ∧ (decideAtBoundary code arg s).repair = s.repair ∧
    (decideAtBoundary code arg s).shadow = s.shadow ∧ (decideAtBoundary code arg s).inForce = s.inForce ∧
    (decideAtBoundary code arg s).otpRequest = s.otpRequest ∧ (decideAtBoundary code arg s).heldCommands = s.heldCommands ∧
    (decideAtBoundary code arg s).crossReads = s.crossReads := by
  unfold decideAtBoundary
  first | (simp; done) | ((try dsimp only); (repeat' split) <;> first | (simp; done) | simp_all | (repeat' split) <;> simp)

@[simp] theorem roleMark_frame (code : Nat) (s : State) :
    (roleMark code s).pending = s.pending ∧ (roleMark code s).variant = s.variant ∧ (roleMark code s).otp = s.otp ∧
    (roleMark code s).masters.length = s.masters.length ∧
    (roleMark code s).cores.channels.length = s.cores.channels.length ∧
    (roleMark code s).regs.debugLevel = s.regs.debugLevel ∧ (roleMark code s).store.cs = s.store.cs ∧
    (roleMark code s).store.csDev = s.store.csDev ∧ (roleMark code s).store.granules = s.store.granules ∧
    (roleMark code s).pins = s.pins ∧ (roleMark code s).stream = s.stream ∧ (roleMark code s).power = s.power ∧
    (roleMark code s).loader = s.loader ∧ (roleMark code s).conservator = s.conservator ∧
    (roleMark code s).egress = s.egress ∧ (roleMark code s).repair = s.repair ∧ (roleMark code s).shadow = s.shadow ∧
    (roleMark code s).inForce = s.inForce ∧ (roleMark code s).otpRequest = s.otpRequest ∧
    (roleMark code s).heldCommands = s.heldCommands ∧ (roleMark code s).crossReads = s.crossReads := by
  unfold roleMark
  first | (simp; done) | ((try dsimp only); (repeat' split) <;> first | (simp; done) | simp_all | (repeat' split) <;> simp)

@[simp] theorem revise_frame (n : DWord) (reason : Nat) (sites : List Nat) (verdict : Nat → Nat) (s : State) :
    (revise n reason sites verdict s).pending = s.pending ∧ (revise n reason sites verdict s).variant = s.variant ∧
    (revise n reason sites verdict s).otp = s.otp ∧ (revise n reason sites verdict s).masters.length = s.masters.length ∧
    (revise n reason sites verdict s).cores.channels.length = s.cores.channels.length ∧
    (revise n reason sites verdict s).regs.debugLevel = s.regs.debugLevel ∧
    (revise n reason sites verdict s).store.cs = s.store.cs ∧
    (revise n reason sites verdict s).store.csDev = s.store.csDev ∧
    (revise n reason sites verdict s).store.granules = s.store.granules ∧ (revise n reason sites verdict s).pins = s.pins ∧
    (revise n reason sites verdict s).stream = s.stream ∧ (revise n reason sites verdict s).power = s.power ∧
    (revise n reason sites verdict s).loader = s.loader ∧ (revise n reason sites verdict s).conservator = s.conservator ∧
    (revise n reason sites verdict s).egress = s.egress ∧ (revise n reason sites verdict s).repair = s.repair ∧
    (revise n reason sites verdict s).shadow = s.shadow ∧ (revise n reason sites verdict s).inForce = s.inForce ∧
    (revise n reason sites verdict s).otpRequest = s.otpRequest ∧
    (revise n reason sites verdict s).heldCommands = s.heldCommands ∧
    (revise n reason sites verdict s).crossReads = s.crossReads := by
  unfold revise
  first | (simp; done) | ((try dsimp only); (repeat' split) <;> first | (simp; done) | simp_all | (repeat' split) <;> simp)

@[simp] theorem lapseLease_frame  (s : State) :
    (lapseLease s).pending = s.pending ∧ (lapseLease s).variant = s.variant ∧ (lapseLease s).otp = s.otp ∧
    (lapseLease s).masters.length = s.masters.length ∧ (lapseLease s).cores.channels.length = s.cores.channels.length ∧
    (lapseLease s).regs.debugLevel = s.regs.debugLevel ∧ (lapseLease s).store.cs = s.store.cs ∧
    (lapseLease s).store.csDev = s.store.csDev ∧ (lapseLease s).store.granules = s.store.granules ∧
    (lapseLease s).pins = s.pins ∧ (lapseLease s).stream = s.stream ∧ (lapseLease s).power = s.power ∧
    (lapseLease s).loader = s.loader ∧ (lapseLease s).conservator = s.conservator ∧ (lapseLease s).egress = s.egress ∧
    (lapseLease s).repair = s.repair ∧ (lapseLease s).shadow = s.shadow ∧ (lapseLease s).inForce = s.inForce ∧
    (lapseLease s).otpRequest = s.otpRequest ∧ (lapseLease s).heldCommands = s.heldCommands ∧
    (lapseLease s).crossReads = s.crossReads := by
  unfold lapseLease
  first | (simp; done) | ((try dsimp only); (repeat' split) <;> first | (simp; done) | simp_all | (repeat' split) <;> simp)

@[simp] theorem setRole_frame (r : Role) (s : State) :
    (setRole r s).pending = s.pending ∧ (setRole r s).variant = s.variant ∧ (setRole r s).otp = s.otp ∧
    (setRole r s).masters.length = s.masters.length ∧ (setRole r s).cores.channels.length = s.cores.channels.length ∧
    (setRole r s).regs.debugLevel = s.regs.debugLevel ∧ (setRole r s).store.cs = s.store.cs ∧
    (setRole r s).store.csDev = s.store.csDev ∧ (setRole r s).store.granules = s.store.granules ∧
    (setRole r s).pins = s.pins ∧ (setRole r s).stream = s.stream ∧ (setRole r s).power = s.power ∧
    (setRole r s).loader = s.loader ∧ (setRole r s).conservator = s.conservator ∧ (setRole r s).egress = s.egress ∧
    (setRole r s).repair = s.repair ∧ (setRole r s).shadow = s.shadow ∧ (setRole r s).inForce = s.inForce ∧
    (setRole r s).otpRequest = s.otpRequest ∧ (setRole r s).heldCommands = s.heldCommands ∧
    (setRole r s).crossReads = s.crossReads := by
  unfold setRole
  first | (simp; done) | ((try dsimp only); (repeat' split) <;> first | (simp; done) | simp_all | (repeat' split) <;> simp)

@[simp] theorem sendTwin_frame (m : TwinMsg) (s : State) :
    (sendTwin m s).pending = s.pending ∧ (sendTwin m s).variant = s.variant ∧ (sendTwin m s).otp = s.otp ∧
    (sendTwin m s).masters.length = s.masters.length ∧ (sendTwin m s).cores.channels.length = s.cores.channels.length ∧
    (sendTwin m s).regs.debugLevel = s.regs.debugLevel ∧ (sendTwin m s).store.cs = s.store.cs ∧
    (sendTwin m s).store.csDev = s.store.csDev ∧ (sendTwin m s).store.granules = s.store.granules ∧
    (sendTwin m s).pins = s.pins ∧ (sendTwin m s).stream = s.stream ∧ (sendTwin m s).power = s.power ∧
    (sendTwin m s).loader = s.loader ∧ (sendTwin m s).conservator = s.conservator ∧ (sendTwin m s).egress = s.egress ∧
    (sendTwin m s).repair = s.repair ∧ (sendTwin m s).shadow = s.shadow ∧ (sendTwin m s).inForce = s.inForce ∧
    (sendTwin m s).otpRequest = s.otpRequest ∧ (sendTwin m s).heldCommands = s.heldCommands ∧
    (sendTwin m s).crossReads = s.crossReads := by
  unfold sendTwin
  first | (simp; done) | ((try dsimp only); (repeat' split) <;> first | (simp; done) | simp_all | (repeat' split) <;> simp)

@[simp] theorem handOver_frame  (s : State) :
    (handOver s).pending = s.pending ∧ (handOver s).variant = s.variant ∧ (handOver s).otp = s.otp ∧
    (handOver s).masters.length = s.masters.length ∧ (handOver s).cores.channels.length = s.cores.channels.length ∧
    (handOver s).regs.debugLevel = s.regs.debugLevel ∧ (handOver s).store.cs = s.store.cs ∧
    (handOver s).store.csDev = s.store.csDev ∧ (handOver s).store.granules = s.store.granules ∧ (handOver s).pins = s.pins ∧
    (handOver s).stream = s.stream ∧ (handOver s).power = s.power ∧ (handOver s).loader = s.loader ∧
    (handOver s).conservator = s.conservator ∧ (handOver s).egress = s.egress ∧ (handOver s).repair = s.repair ∧
    (handOver s).shadow = s.shadow ∧ (handOver s).inForce = s.inForce ∧ (handOver s).otpRequest = s.otpRequest ∧
    (handOver s).heldCommands = s.heldCommands ∧ (handOver s).crossReads = s.crossReads := by
  unfold handOver
  first | (simp; done) | ((try dsimp only); (repeat' split) <;> first | (simp; done) | simp_all | (repeat' split) <;> simp)

@[simp] theorem leaveLockstep_frame (code : Nat) (s : State) :
    (leaveLockstep code s).pending = s.pending ∧ (leaveLockstep code s).variant = s.variant ∧
    (leaveLockstep code s).otp = s.otp ∧ (leaveLockstep code s).masters.length = s.masters.length ∧
    (leaveLockstep code s).cores.channels.length = s.cores.channels.length ∧
    (leaveLockstep code s).regs.debugLevel = s.regs.debugLevel ∧ (leaveLockstep code s).store.cs = s.store.cs ∧
    (leaveLockstep code s).store.csDev = s.store.csDev ∧ (leaveLockstep code s).store.granules = s.store.granules ∧
    (leaveLockstep code s).pins = s.pins ∧ (leaveLockstep code s).stream = s.stream ∧
    (leaveLockstep code s).power = s.power ∧ (leaveLockstep code s).loader = s.loader ∧
    (leaveLockstep code s).conservator = s.conservator ∧ (leaveLockstep code s).egress = s.egress ∧
    (leaveLockstep code s).repair = s.repair ∧ (leaveLockstep code s).shadow = s.shadow ∧
    (leaveLockstep code s).inForce = s.inForce ∧ (leaveLockstep code s).otpRequest = s.otpRequest ∧
    (leaveLockstep code s).heldCommands = s.heldCommands ∧ (leaveLockstep code s).crossReads = s.crossReads := by
  unfold leaveLockstep
  first | (simp; done) | ((try dsimp only); (repeat' split) <;> first | (simp; done) | simp_all | (repeat' split) <;> simp)

@[simp] theorem downMeshTwin_frame  (s : State) :
    (downMeshTwin s).pending = s.pending ∧ (downMeshTwin s).variant = s.variant ∧ (downMeshTwin s).otp = s.otp ∧
    (downMeshTwin s).masters.length = s.masters.length ∧ (downMeshTwin s).cores.channels.length = s.cores.channels.length ∧
    (downMeshTwin s).regs.debugLevel = s.regs.debugLevel ∧ (downMeshTwin s).store.cs = s.store.cs ∧
    (downMeshTwin s).store.csDev = s.store.csDev ∧ (downMeshTwin s).store.granules = s.store.granules ∧
    (downMeshTwin s).pins = s.pins ∧ (downMeshTwin s).stream = s.stream ∧ (downMeshTwin s).power = s.power ∧
    (downMeshTwin s).loader = s.loader ∧ (downMeshTwin s).conservator = s.conservator ∧ (downMeshTwin s).egress = s.egress ∧
    (downMeshTwin s).repair = s.repair ∧ (downMeshTwin s).shadow = s.shadow ∧ (downMeshTwin s).inForce = s.inForce ∧
    (downMeshTwin s).otpRequest = s.otpRequest ∧ (downMeshTwin s).heldCommands = s.heldCommands ∧
    (downMeshTwin s).crossReads = s.crossReads := by
  unfold downMeshTwin
  first | (simp; done) | ((try dsimp only); (repeat' split) <;> first | (simp; done) | simp_all | (repeat' split) <;> simp)

@[simp] theorem disableFieldIo_frame  (s : State) :
    (disableFieldIo s).pending = s.pending ∧ (disableFieldIo s).variant = s.variant ∧ (disableFieldIo s).otp = s.otp ∧
    (disableFieldIo s).masters.length = s.masters.length ∧
    (disableFieldIo s).cores.channels.length = s.cores.channels.length ∧
    (disableFieldIo s).regs.debugLevel = s.regs.debugLevel ∧ (disableFieldIo s).store.cs = s.store.cs ∧
    (disableFieldIo s).store.csDev = s.store.csDev ∧ (disableFieldIo s).store.granules = s.store.granules ∧
    (disableFieldIo s).pins = s.pins ∧ (disableFieldIo s).stream = s.stream ∧ (disableFieldIo s).power = s.power ∧
    (disableFieldIo s).loader = s.loader ∧ (disableFieldIo s).conservator = s.conservator ∧
    (disableFieldIo s).repair = s.repair ∧ (disableFieldIo s).shadow = s.shadow ∧ (disableFieldIo s).inForce = s.inForce ∧
    (disableFieldIo s).otpRequest = s.otpRequest ∧ (disableFieldIo s).heldCommands = s.heldCommands ∧
    (disableFieldIo s).crossReads = s.crossReads := by
  unfold disableFieldIo
  first | (simp; done) | ((try dsimp only); (repeat' split) <;> first | (simp; done) | simp_all | (repeat' split) <;> simp)

@[simp] theorem unloadStatus_frame  (s : State) :
    (unloadStatus s).pending = s.pending ∧ (unloadStatus s).variant = s.variant ∧ (unloadStatus s).otp = s.otp ∧
    (unloadStatus s).masters.length = s.masters.length ∧ (unloadStatus s).cores.channels.length = s.cores.channels.length ∧
    (unloadStatus s).regs.debugLevel = s.regs.debugLevel ∧ (unloadStatus s).store.cs = s.store.cs ∧
    (unloadStatus s).store.csDev = s.store.csDev ∧ (unloadStatus s).store.granules = s.store.granules ∧
    (unloadStatus s).pins = s.pins ∧ (unloadStatus s).stream = s.stream ∧ (unloadStatus s).power = s.power ∧
    (unloadStatus s).loader = s.loader ∧ (unloadStatus s).conservator = s.conservator ∧ (unloadStatus s).egress = s.egress ∧
    (unloadStatus s).repair = s.repair ∧ (unloadStatus s).shadow = s.shadow ∧ (unloadStatus s).inForce = s.inForce ∧
    (unloadStatus s).otpRequest = s.otpRequest ∧ (unloadStatus s).heldCommands = s.heldCommands ∧
    (unloadStatus s).crossReads = s.crossReads := by
  unfold unloadStatus
  first | (simp; done) | ((try dsimp only); (repeat' split) <;> first | (simp; done) | simp_all | (repeat' split) <;> simp)

@[simp] theorem dropBatches_frame  (s : State) :
    (dropBatches s).pending = s.pending ∧ (dropBatches s).variant = s.variant ∧ (dropBatches s).otp = s.otp ∧
    (dropBatches s).masters.length = s.masters.length ∧ (dropBatches s).cores.channels.length = s.cores.channels.length ∧
    (dropBatches s).regs.debugLevel = s.regs.debugLevel ∧ (dropBatches s).store.cs = s.store.cs ∧
    (dropBatches s).store.csDev = s.store.csDev ∧ (dropBatches s).store.granules = s.store.granules ∧
    (dropBatches s).pins = s.pins ∧ (dropBatches s).power = s.power ∧ (dropBatches s).loader = s.loader ∧
    (dropBatches s).conservator = s.conservator ∧ (dropBatches s).egress = s.egress ∧ (dropBatches s).repair = s.repair ∧
    (dropBatches s).shadow = s.shadow ∧ (dropBatches s).inForce = s.inForce ∧ (dropBatches s).otpRequest = s.otpRequest ∧
    (dropBatches s).heldCommands = s.heldCommands ∧ (dropBatches s).crossReads = s.crossReads := by
  unfold dropBatches
  first | (simp; done) | ((try dsimp only); (repeat' split) <;> first | (simp; done) | simp_all | (repeat' split) <;> simp)

@[simp] theorem discardConfig_frame  (s : State) :
    (discardConfig s).pending = s.pending ∧ (discardConfig s).variant = s.variant ∧ (discardConfig s).otp = s.otp ∧
    (discardConfig s).masters.length = s.masters.length ∧
    (discardConfig s).cores.channels.length = s.cores.channels.length ∧
    (discardConfig s).regs.debugLevel = s.regs.debugLevel ∧ (discardConfig s).store.cs = s.store.cs ∧
    (discardConfig s).store.csDev = s.store.csDev ∧ (discardConfig s).store.granules = s.store.granules ∧
    (discardConfig s).pins = s.pins ∧ (discardConfig s).power = s.power ∧ (discardConfig s).loader = s.loader ∧
    (discardConfig s).conservator = s.conservator ∧ (discardConfig s).repair = s.repair ∧
    (discardConfig s).shadow = s.shadow ∧ (discardConfig s).inForce = s.inForce ∧
    (discardConfig s).otpRequest = s.otpRequest ∧ (discardConfig s).heldCommands = s.heldCommands ∧
    (discardConfig s).crossReads = s.crossReads := by
  unfold discardConfig
  first | (simp; done) | ((try dsimp only); (repeat' split) <;> first | (simp; done) | simp_all | (repeat' split) <;> simp)

@[simp] theorem fieldReset_frame  (s : State) :
    (fieldReset s).pending = s.pending ∧ (fieldReset s).variant = s.variant ∧ (fieldReset s).otp = s.otp ∧
    (fieldReset s).masters.length = s.masters.length ∧ (fieldReset s).cores.channels.length = s.cores.channels.length ∧
    (fieldReset s).regs.debugLevel = s.regs.debugLevel ∧ (fieldReset s).pins = s.pins ∧ (fieldReset s).loader = s.loader ∧
    (fieldReset s).shadow = s.shadow ∧ (fieldReset s).inForce = s.inForce ∧ (fieldReset s).otpRequest = s.otpRequest ∧
    (fieldReset s).heldCommands = s.heldCommands ∧ (fieldReset s).crossReads = s.crossReads := by
  unfold fieldReset
  first | (simp; done) | ((try dsimp only); (repeat' split) <;> first | (simp; done) | simp_all | (repeat' split) <;> simp)

@[simp] theorem hostReset_frame (powerUp : Bool) (s : State) :
    (hostReset powerUp s).pending = s.pending ∧ (hostReset powerUp s).variant = s.variant ∧
    (hostReset powerUp s).otp = s.otp ∧ (hostReset powerUp s).cores.channels.length = s.cores.channels.length ∧
    (hostReset powerUp s).store.cs = s.store.cs ∧ (hostReset powerUp s).store.csDev = s.store.csDev ∧
    (hostReset powerUp s).store.granules = s.store.granules ∧ (hostReset powerUp s).conservator = s.conservator ∧
    (hostReset powerUp s).egress = s.egress ∧ (hostReset powerUp s).repair = s.repair ∧
    (hostReset powerUp s).pins.pins.length = s.pins.pins.length := by
  unfold hostReset resetPins
  simp

@[simp] theorem putLoad_frame  (s : State) :
    (putLoad s).pending = s.pending ∧ (putLoad s).variant = s.variant ∧ (putLoad s).otp = s.otp ∧
    (putLoad s).masters.length = s.masters.length ∧ (putLoad s).cores.channels.length = s.cores.channels.length ∧
    (putLoad s).regs.debugLevel = s.regs.debugLevel ∧ (putLoad s).store.cs = s.store.cs ∧
    (putLoad s).store.csDev = s.store.csDev ∧ (putLoad s).store.granules = s.store.granules ∧ (putLoad s).pins = s.pins ∧
    (putLoad s).stream = s.stream ∧ (putLoad s).power = s.power ∧ (putLoad s).loader = s.loader ∧
    (putLoad s).conservator = s.conservator ∧ (putLoad s).egress = s.egress ∧ (putLoad s).repair = s.repair ∧
    (putLoad s).shadow = s.shadow ∧ (putLoad s).inForce = s.inForce ∧ (putLoad s).otpRequest = s.otpRequest ∧
    (putLoad s).heldCommands = s.heldCommands ∧ (putLoad s).crossReads = s.crossReads := by
  unfold putLoad
  first | (simp; done) | ((try dsimp only); (repeat' split) <;> first | (simp; done) | simp_all | (repeat' split) <;> simp)

@[simp] theorem sendReply_frame (core : Nat) (tag : Word) (result : Nat) (data : List QWord) (s : State) :
    (sendReply core tag result data s).pending = s.pending ∧ (sendReply core tag result data s).variant = s.variant ∧
    (sendReply core tag result data s).otp = s.otp ∧ (sendReply core tag result data s).masters.length = s.masters.length ∧
    (sendReply core tag result data s).cores.channels.length = s.cores.channels.length ∧
    (sendReply core tag result data s).regs.debugLevel = s.regs.debugLevel ∧
    (sendReply core tag result data s).store.cs = s.store.cs ∧
    (sendReply core tag result data s).store.csDev = s.store.csDev ∧
    (sendReply core tag result data s).store.granules = s.store.granules ∧
    (sendReply core tag result data s).pins = s.pins ∧ (sendReply core tag result data s).stream = s.stream ∧
    (sendReply core tag result data s).power = s.power ∧ (sendReply core tag result data s).loader = s.loader ∧
    (sendReply core tag result data s).conservator = s.conservator ∧ (sendReply core tag result data s).egress = s.egress ∧
    (sendReply core tag result data s).repair = s.repair ∧ (sendReply core tag result data s).shadow = s.shadow ∧
    (sendReply core tag result data s).inForce = s.inForce ∧ (sendReply core tag result data s).otpRequest = s.otpRequest ∧
    (sendReply core tag result data s).heldCommands = s.heldCommands ∧
    (sendReply core tag result data s).crossReads = s.crossReads := by
  unfold sendReply
  first | (simp; done) | ((try dsimp only); (repeat' split) <;> first | (simp; done) | simp_all | (repeat' split) <;> simp)

@[simp] theorem writeReply_frame (slot : Nat) (tag : Word) (result : Nat) (data : List QWord) (s : State) :
    (writeReply slot tag result data s).pending = s.pending ∧ (writeReply slot tag result data s).variant = s.variant ∧
    (writeReply slot tag result data s).otp = s.otp ∧
    (writeReply slot tag result data s).masters.length = s.masters.length ∧
    (writeReply slot tag result data s).cores.channels.length = s.cores.channels.length ∧
    (writeReply slot tag result data s).regs.debugLevel = s.regs.debugLevel ∧
    (writeReply slot tag result data s).store.cs = s.store.cs ∧
    (writeReply slot tag result data s).store.csDev = s.store.csDev ∧
    (writeReply slot tag result data s).store.granules = s.store.granules ∧
    (writeReply slot tag result data s).pins = s.pins ∧ (writeReply slot tag result data s).stream = s.stream ∧
    (writeReply slot tag result data s).power = s.power ∧ (writeReply slot tag result data s).loader = s.loader ∧
    (writeReply slot tag result data s).conservator = s.conservator ∧
    (writeReply slot tag result data s).egress = s.egress ∧ (writeReply slot tag result data s).repair = s.repair ∧
    (writeReply slot tag result data s).shadow = s.shadow ∧ (writeReply slot tag result data s).inForce = s.inForce ∧
    (writeReply slot tag result data s).otpRequest = s.otpRequest ∧
    (writeReply slot tag result data s).heldCommands = s.heldCommands ∧
    (writeReply slot tag result data s).crossReads = s.crossReads := by
  unfold writeReply
  first | (simp; done) | ((try dsimp only); (repeat' split) <;> first | (simp; done) | simp_all | (repeat' split) <;> simp)

@[simp] theorem reply_frame (c : QueuedCall) (result : Nat) (data : List QWord) (s : State) :
    (reply c result data s).pending = s.pending ∧ (reply c result data s).variant = s.variant ∧
    (reply c result data s).otp = s.otp ∧ (reply c result data s).masters.length = s.masters.length ∧
    (reply c result data s).cores.channels.length = s.cores.channels.length ∧
    (reply c result data s).regs.debugLevel = s.regs.debugLevel ∧ (reply c result data s).store.cs = s.store.cs ∧
    (reply c result data s).store.csDev = s.store.csDev ∧ (reply c result data s).store.granules = s.store.granules ∧
    (reply c result data s).pins = s.pins ∧ (reply c result data s).stream = s.stream ∧
    (reply c result data s).power = s.power ∧ (reply c result data s).loader = s.loader ∧
    (reply c result data s).conservator = s.conservator ∧ (reply c result data s).egress = s.egress ∧
    (reply c result data s).repair = s.repair ∧ (reply c result data s).shadow = s.shadow ∧
    (reply c result data s).inForce = s.inForce ∧ (reply c result data s).otpRequest = s.otpRequest ∧
    (reply c result data s).heldCommands = s.heldCommands ∧ (reply c result data s).crossReads = s.crossReads := by
  unfold reply
  first | (simp; done) | ((try dsimp only); (repeat' split) <;> first | (simp; done) | simp_all | (repeat' split) <;> simp)

@[simp] theorem resetCore_frame (c : Core) (s : State) :
    (resetCore c s).pending = s.pending ∧ (resetCore c s).variant = s.variant ∧ (resetCore c s).otp = s.otp ∧
    (resetCore c s).masters.length = s.masters.length ∧ (resetCore c s).cores.channels.length = s.cores.channels.length ∧
    (resetCore c s).regs.debugLevel = s.regs.debugLevel ∧ (resetCore c s).store.cs = s.store.cs ∧
    (resetCore c s).store.csDev = s.store.csDev ∧ (resetCore c s).store.granules = s.store.granules ∧
    (resetCore c s).pins = s.pins ∧ (resetCore c s).stream = s.stream ∧ (resetCore c s).power = s.power ∧
    (resetCore c s).loader = s.loader ∧ (resetCore c s).conservator = s.conservator ∧ (resetCore c s).egress = s.egress ∧
    (resetCore c s).repair = s.repair ∧ (resetCore c s).shadow = s.shadow ∧ (resetCore c s).inForce = s.inForce ∧
    (resetCore c s).otpRequest = s.otpRequest ∧ (resetCore c s).heldCommands = s.heldCommands ∧
    (resetCore c s).crossReads = s.crossReads := by
  unfold resetCore
  first | (simp; done) | ((try dsimp only); (repeat' split) <;> first | (simp; done) | simp_all | (repeat' split) <;> simp)

@[simp] theorem setLoadState_frame (v : Nat) (s : State) :
    (setLoadState v s).pending = s.pending ∧ (setLoadState v s).variant = s.variant ∧ (setLoadState v s).otp = s.otp ∧
    (setLoadState v s).masters.length = s.masters.length ∧
    (setLoadState v s).cores.channels.length = s.cores.channels.length ∧
    (setLoadState v s).regs.debugLevel = s.regs.debugLevel ∧ (setLoadState v s).store.cs = s.store.cs ∧
    (setLoadState v s).store.csDev = s.store.csDev ∧ (setLoadState v s).store.granules = s.store.granules ∧
    (setLoadState v s).pins = s.pins ∧ (setLoadState v s).stream = s.stream ∧ (setLoadState v s).power = s.power ∧
    (setLoadState v s).loader = s.loader ∧ (setLoadState v s).conservator = s.conservator ∧
    (setLoadState v s).egress = s.egress ∧ (setLoadState v s).repair = s.repair ∧ (setLoadState v s).shadow = s.shadow ∧
    (setLoadState v s).inForce = s.inForce ∧ (setLoadState v s).otpRequest = s.otpRequest ∧
    (setLoadState v s).heldCommands = s.heldCommands ∧ (setLoadState v s).crossReads = s.crossReads := by
  unfold setLoadState
  first | (simp; done) | ((try dsimp only); (repeat' split) <;> first | (simp; done) | simp_all | (repeat' split) <;> simp)

@[simp] theorem failLoad_frame (code : Nat) (s : State) :
    (failLoad code s).pending = s.pending ∧ (failLoad code s).variant = s.variant ∧ (failLoad code s).otp = s.otp ∧
    (failLoad code s).masters.length = s.masters.length ∧
    (failLoad code s).cores.channels.length = s.cores.channels.length ∧
    (failLoad code s).regs.debugLevel = s.regs.debugLevel ∧ (failLoad code s).store.cs = s.store.cs ∧
    (failLoad code s).store.csDev = s.store.csDev ∧ (failLoad code s).store.granules = s.store.granules ∧
    (failLoad code s).pins = s.pins ∧ (failLoad code s).stream = s.stream ∧ (failLoad code s).power = s.power ∧
    (failLoad code s).conservator = s.conservator ∧ (failLoad code s).shadow = s.shadow ∧
    (failLoad code s).inForce = s.inForce ∧ (failLoad code s).otpRequest = s.otpRequest ∧
    (failLoad code s).heldCommands = s.heldCommands ∧ (failLoad code s).crossReads = s.crossReads := by
  unfold failLoad
  first | (simp; done) | ((try dsimp only); (repeat' split) <;> first | (simp; done) | simp_all | (repeat' split) <;> simp)

@[simp] theorem refreshEndOfTest_frame  (s : State) :
    (refreshEndOfTest s).pending = s.pending ∧ (refreshEndOfTest s).variant = s.variant ∧ (refreshEndOfTest s).otp = s.otp ∧
    (refreshEndOfTest s).masters.length = s.masters.length ∧
    (refreshEndOfTest s).cores.channels.length = s.cores.channels.length ∧
    (refreshEndOfTest s).regs.debugLevel = s.regs.debugLevel ∧ (refreshEndOfTest s).store.cs = s.store.cs ∧
    (refreshEndOfTest s).store.csDev = s.store.csDev ∧ (refreshEndOfTest s).store.granules = s.store.granules ∧
    (refreshEndOfTest s).stream = s.stream ∧ (refreshEndOfTest s).power = s.power ∧ (refreshEndOfTest s).loader = s.loader ∧
    (refreshEndOfTest s).conservator = s.conservator ∧ (refreshEndOfTest s).egress = s.egress ∧
    (refreshEndOfTest s).repair = s.repair ∧ (refreshEndOfTest s).shadow = s.shadow ∧
    (refreshEndOfTest s).inForce = s.inForce ∧ (refreshEndOfTest s).otpRequest = s.otpRequest ∧
    (refreshEndOfTest s).heldCommands = s.heldCommands ∧ (refreshEndOfTest s).crossReads = s.crossReads ∧
    (refreshEndOfTest s).pins.pins.length = s.pins.pins.length := by
  unfold refreshEndOfTest
  first | (simp; done) | ((try dsimp only); (repeat' split) <;> first | (simp; done) | simp_all | (repeat' split) <;> simp)

@[simp] theorem awaitRepair_frame (g bp row : Nat) (s : State) :
    (awaitRepair g bp row s).pending = s.pending ∧ (awaitRepair g bp row s).variant = s.variant ∧
    (awaitRepair g bp row s).otp = s.otp ∧ (awaitRepair g bp row s).masters.length = s.masters.length ∧
    (awaitRepair g bp row s).cores.channels.length = s.cores.channels.length ∧
    (awaitRepair g bp row s).regs.debugLevel = s.regs.debugLevel ∧ (awaitRepair g bp row s).store.cs = s.store.cs ∧
    (awaitRepair g bp row s).store.csDev = s.store.csDev ∧ (awaitRepair g bp row s).store.granules = s.store.granules ∧
    (awaitRepair g bp row s).pins = s.pins ∧ (awaitRepair g bp row s).stream = s.stream ∧
    (awaitRepair g bp row s).power = s.power ∧ (awaitRepair g bp row s).loader = s.loader ∧
    (awaitRepair g bp row s).conservator = s.conservator ∧ (awaitRepair g bp row s).egress = s.egress ∧
    (awaitRepair g bp row s).repair = s.repair ∧ (awaitRepair g bp row s).shadow = s.shadow ∧
    (awaitRepair g bp row s).inForce = s.inForce ∧ (awaitRepair g bp row s).otpRequest = s.otpRequest ∧
    (awaitRepair g bp row s).heldCommands = s.heldCommands ∧ (awaitRepair g bp row s).crossReads = s.crossReads := by
  unfold awaitRepair
  first | (simp; done) | ((try dsimp only); (repeat' split) <;> first | (simp; done) | simp_all | (repeat' split) <;> simp)

@[simp] theorem enterRepairWait_frame  (s : State) :
    (enterRepairWait s).pending = s.pending ∧ (enterRepairWait s).variant = s.variant ∧ (enterRepairWait s).otp = s.otp ∧
    (enterRepairWait s).masters.length = s.masters.length ∧
    (enterRepairWait s).cores.channels.length = s.cores.channels.length ∧
    (enterRepairWait s).regs.debugLevel = s.regs.debugLevel ∧ (enterRepairWait s).store.cs = s.store.cs ∧
    (enterRepairWait s).store.csDev = s.store.csDev ∧ (enterRepairWait s).store.granules = s.store.granules ∧
    (enterRepairWait s).pins = s.pins ∧ (enterRepairWait s).stream = s.stream ∧ (enterRepairWait s).power = s.power ∧
    (enterRepairWait s).loader = s.loader ∧ (enterRepairWait s).conservator = s.conservator ∧
    (enterRepairWait s).egress = s.egress ∧ (enterRepairWait s).repair = s.repair ∧ (enterRepairWait s).shadow = s.shadow ∧
    (enterRepairWait s).inForce = s.inForce ∧ (enterRepairWait s).otpRequest = s.otpRequest ∧
    (enterRepairWait s).heldCommands = s.heldCommands ∧ (enterRepairWait s).crossReads = s.crossReads := by
  unfold enterRepairWait
  first | (simp; done) | ((try dsimp only); (repeat' split) <;> first | (simp; done) | simp_all | (repeat' split) <;> simp)

@[simp] theorem putRow_frame (prev : Bool) (row : Nat) (d : QWord) (s : State) :
    (putRow prev row d s).pending = s.pending ∧ (putRow prev row d s).variant = s.variant ∧
    (putRow prev row d s).otp = s.otp ∧ (putRow prev row d s).masters.length = s.masters.length ∧
    (putRow prev row d s).cores.channels.length = s.cores.channels.length ∧
    (putRow prev row d s).regs.debugLevel = s.regs.debugLevel ∧ (putRow prev row d s).store.cs = s.store.cs ∧
    (putRow prev row d s).store.csDev = s.store.csDev ∧ (putRow prev row d s).store.granules = s.store.granules ∧
    (putRow prev row d s).pins = s.pins ∧ (putRow prev row d s).stream = s.stream ∧ (putRow prev row d s).power = s.power ∧
    (putRow prev row d s).loader = s.loader ∧ (putRow prev row d s).conservator = s.conservator ∧
    (putRow prev row d s).egress = s.egress ∧ (putRow prev row d s).repair = s.repair ∧
    (putRow prev row d s).shadow = s.shadow ∧ (putRow prev row d s).inForce = s.inForce ∧
    (putRow prev row d s).otpRequest = s.otpRequest ∧ (putRow prev row d s).heldCommands = s.heldCommands ∧
    (putRow prev row d s).crossReads = s.crossReads := by
  unfold putRow
  first | (simp; done) | ((try dsimp only); (repeat' split) <;> first | (simp; done) | simp_all | (repeat' split) <;> simp)

@[simp] theorem poisonRow_frame (prev : Bool) (row : Nat) (s : State) :
    (poisonRow prev row s).pending = s.pending ∧ (poisonRow prev row s).variant = s.variant ∧
    (poisonRow prev row s).otp = s.otp ∧ (poisonRow prev row s).masters.length = s.masters.length ∧
    (poisonRow prev row s).cores.channels.length = s.cores.channels.length ∧
    (poisonRow prev row s).regs.debugLevel = s.regs.debugLevel ∧ (poisonRow prev row s).store.cs = s.store.cs ∧
    (poisonRow prev row s).store.csDev = s.store.csDev ∧ (poisonRow prev row s).store.granules = s.store.granules ∧
    (poisonRow prev row s).pins = s.pins ∧ (poisonRow prev row s).stream = s.stream ∧
    (poisonRow prev row s).power = s.power ∧ (poisonRow prev row s).loader = s.loader ∧
    (poisonRow prev row s).conservator = s.conservator ∧ (poisonRow prev row s).egress = s.egress ∧
    (poisonRow prev row s).repair = s.repair ∧ (poisonRow prev row s).shadow = s.shadow ∧
    (poisonRow prev row s).inForce = s.inForce ∧ (poisonRow prev row s).otpRequest = s.otpRequest ∧
    (poisonRow prev row s).heldCommands = s.heldCommands ∧ (poisonRow prev row s).crossReads = s.crossReads := by
  unfold poisonRow
  first | (simp; done) | ((try dsimp only); (repeat' split) <;> first | (simp; done) | simp_all | (repeat' split) <;> simp)

@[simp] theorem rowUncorrectable_frame (prev : Bool) (row : Nat) (s : State) :
    (rowUncorrectable prev row s).pending = s.pending ∧ (rowUncorrectable prev row s).variant = s.variant ∧
    (rowUncorrectable prev row s).otp = s.otp ∧ (rowUncorrectable prev row s).masters.length = s.masters.length ∧
    (rowUncorrectable prev row s).cores.channels.length = s.cores.channels.length ∧
    (rowUncorrectable prev row s).regs.debugLevel = s.regs.debugLevel ∧
    (rowUncorrectable prev row s).store.cs = s.store.cs ∧ (rowUncorrectable prev row s).store.csDev = s.store.csDev ∧
    (rowUncorrectable prev row s).store.granules = s.store.granules ∧ (rowUncorrectable prev row s).pins = s.pins ∧
    (rowUncorrectable prev row s).stream = s.stream ∧ (rowUncorrectable prev row s).power = s.power ∧
    (rowUncorrectable prev row s).loader = s.loader ∧ (rowUncorrectable prev row s).conservator = s.conservator ∧
    (rowUncorrectable prev row s).egress = s.egress ∧ (rowUncorrectable prev row s).repair = s.repair ∧
    (rowUncorrectable prev row s).shadow = s.shadow ∧ (rowUncorrectable prev row s).inForce = s.inForce ∧
    (rowUncorrectable prev row s).otpRequest = s.otpRequest ∧ (rowUncorrectable prev row s).heldCommands = s.heldCommands ∧
    (rowUncorrectable prev row s).crossReads = s.crossReads := by
  unfold rowUncorrectable
  first | (simp; done) | ((try dsimp only); (repeat' split) <;> first | (simp; done) | simp_all | (repeat' split) <;> simp)

@[simp] theorem stateReadEffect_frame (prev : Bool) (bpn w : Nat) (s : State) :
    (stateReadEffect prev bpn w s).pending = s.pending ∧ (stateReadEffect prev bpn w s).variant = s.variant ∧
    (stateReadEffect prev bpn w s).otp = s.otp ∧ (stateReadEffect prev bpn w s).masters.length = s.masters.length ∧
    (stateReadEffect prev bpn w s).cores.channels.length = s.cores.channels.length ∧
    (stateReadEffect prev bpn w s).regs.debugLevel = s.regs.debugLevel ∧
    (stateReadEffect prev bpn w s).store.cs = s.store.cs ∧ (stateReadEffect prev bpn w s).store.csDev = s.store.csDev ∧
    (stateReadEffect prev bpn w s).store.granules = s.store.granules ∧ (stateReadEffect prev bpn w s).pins = s.pins ∧
    (stateReadEffect prev bpn w s).stream = s.stream ∧ (stateReadEffect prev bpn w s).power = s.power ∧
    (stateReadEffect prev bpn w s).loader = s.loader ∧ (stateReadEffect prev bpn w s).conservator = s.conservator ∧
    (stateReadEffect prev bpn w s).egress = s.egress ∧ (stateReadEffect prev bpn w s).repair = s.repair ∧
    (stateReadEffect prev bpn w s).shadow = s.shadow ∧ (stateReadEffect prev bpn w s).inForce = s.inForce ∧
    (stateReadEffect prev bpn w s).otpRequest = s.otpRequest ∧
    (stateReadEffect prev bpn w s).heldCommands = s.heldCommands ∧
    (stateReadEffect prev bpn w s).crossReads = s.crossReads := by
  unfold stateReadEffect
  first | (simp; done) | ((try dsimp only); (repeat' split) <;> first | (simp; done) | simp_all | (repeat' split) <;> simp)

@[simp] theorem stateWrite_frame (prev : Bool) (bpn w : Nat) (v : Word) (s : State) :
    (stateWrite prev bpn w v s).pending = s.pending ∧ (stateWrite prev bpn w v s).variant = s.variant ∧
    (stateWrite prev bpn w v s).otp = s.otp ∧ (stateWrite prev bpn w v s).masters.length = s.masters.length ∧
    (stateWrite prev bpn w v s).cores.channels.length = s.cores.channels.length ∧
    (stateWrite prev bpn w v s).regs.debugLevel = s.regs.debugLevel ∧ (stateWrite prev bpn w v s).store.cs = s.store.cs ∧
    (stateWrite prev bpn w v s).store.csDev = s.store.csDev ∧
    (stateWrite prev bpn w v s).store.granules = s.store.granules ∧ (stateWrite prev bpn w v s).pins = s.pins ∧
    (stateWrite prev bpn w v s).stream = s.stream ∧ (stateWrite prev bpn w v s).power = s.power ∧
    (stateWrite prev bpn w v s).loader = s.loader ∧ (stateWrite prev bpn w v s).conservator = s.conservator ∧
    (stateWrite prev bpn w v s).egress = s.egress ∧ (stateWrite prev bpn w v s).repair = s.repair ∧
    (stateWrite prev bpn w v s).shadow = s.shadow ∧ (stateWrite prev bpn w v s).inForce = s.inForce ∧
    (stateWrite prev bpn w v s).otpRequest = s.otpRequest ∧ (stateWrite prev bpn w v s).heldCommands = s.heldCommands ∧
    (stateWrite prev bpn w v s).crossReads = s.crossReads := by
  unfold stateWrite
  first | (simp; done) | ((try dsimp only); (repeat' split) <;> first | (simp; done) | simp_all | (repeat' split) <;> simp)

@[simp] theorem routeReadEffect_frame (g i p : Nat) (s : State) :
    (routeReadEffect g i p s).pending = s.pending ∧ (routeReadEffect g i p s).variant = s.variant ∧
    (routeReadEffect g i p s).otp = s.otp ∧ (routeReadEffect g i p s).masters.length = s.masters.length ∧
    (routeReadEffect g i p s).cores.channels.length = s.cores.channels.length ∧
    (routeReadEffect g i p s).regs.debugLevel = s.regs.debugLevel ∧ (routeReadEffect g i p s).store.cs = s.store.cs ∧
    (routeReadEffect g i p s).store.csDev = s.store.csDev ∧ (routeReadEffect g i p s).store.granules = s.store.granules ∧
    (routeReadEffect g i p s).pins = s.pins ∧ (routeReadEffect g i p s).stream = s.stream ∧
    (routeReadEffect g i p s).power = s.power ∧ (routeReadEffect g i p s).loader = s.loader ∧
    (routeReadEffect g i p s).conservator = s.conservator ∧ (routeReadEffect g i p s).egress = s.egress ∧
    (routeReadEffect g i p s).repair = s.repair ∧ (routeReadEffect g i p s).shadow = s.shadow ∧
    (routeReadEffect g i p s).inForce = s.inForce ∧ (routeReadEffect g i p s).otpRequest = s.otpRequest ∧
    (routeReadEffect g i p s).heldCommands = s.heldCommands ∧ (routeReadEffect g i p s).crossReads = s.crossReads := by
  unfold routeReadEffect
  first | (simp; done) | ((try dsimp only); (repeat' split) <;> first | (simp; done) | simp_all | (repeat' split) <;> simp)

@[simp] theorem meshReadEffect_frame (i : Nat) (s : State) :
    (meshReadEffect i s).pending = s.pending ∧ (meshReadEffect i s).variant = s.variant ∧ (meshReadEffect i s).otp = s.otp ∧
    (meshReadEffect i s).masters.length = s.masters.length ∧
    (meshReadEffect i s).cores.channels.length = s.cores.channels.length ∧
    (meshReadEffect i s).regs.debugLevel = s.regs.debugLevel ∧ (meshReadEffect i s).store.cs = s.store.cs ∧
    (meshReadEffect i s).store.csDev = s.store.csDev ∧ (meshReadEffect i s).store.granules = s.store.granules ∧
    (meshReadEffect i s).pins = s.pins ∧ (meshReadEffect i s).stream = s.stream ∧ (meshReadEffect i s).power = s.power ∧
    (meshReadEffect i s).loader = s.loader ∧ (meshReadEffect i s).conservator = s.conservator ∧
    (meshReadEffect i s).egress = s.egress ∧ (meshReadEffect i s).repair = s.repair ∧
    (meshReadEffect i s).shadow = s.shadow ∧ (meshReadEffect i s).inForce = s.inForce ∧
    (meshReadEffect i s).otpRequest = s.otpRequest ∧ (meshReadEffect i s).heldCommands = s.heldCommands ∧
    (meshReadEffect i s).crossReads = s.crossReads := by
  unfold meshReadEffect
  first | (simp; done) | ((try dsimp only); (repeat' split) <;> first | (simp; done) | simp_all | (repeat' split) <;> simp)

@[simp] theorem stimUnderflow_frame  (s : State) :
    (stimUnderflow s).pending = s.pending ∧ (stimUnderflow s).variant = s.variant ∧ (stimUnderflow s).otp = s.otp ∧
    (stimUnderflow s).masters.length = s.masters.length ∧
    (stimUnderflow s).cores.channels.length = s.cores.channels.length ∧
    (stimUnderflow s).regs.debugLevel = s.regs.debugLevel ∧ (stimUnderflow s).store.cs = s.store.cs ∧
    (stimUnderflow s).store.csDev = s.store.csDev ∧ (stimUnderflow s).store.granules = s.store.granules ∧
    (stimUnderflow s).pins = s.pins ∧ (stimUnderflow s).stream = s.stream ∧ (stimUnderflow s).power = s.power ∧
    (stimUnderflow s).loader = s.loader ∧ (stimUnderflow s).conservator = s.conservator ∧
    (stimUnderflow s).egress = s.egress ∧ (stimUnderflow s).repair = s.repair ∧ (stimUnderflow s).shadow = s.shadow ∧
    (stimUnderflow s).inForce = s.inForce ∧ (stimUnderflow s).otpRequest = s.otpRequest ∧
    (stimUnderflow s).heldCommands = s.heldCommands ∧ (stimUnderflow s).crossReads = s.crossReads := by
  unfold stimUnderflow
  first | (simp; done) | ((try dsimp only); (repeat' split) <;> first | (simp; done) | simp_all | (repeat' split) <;> simp)

@[simp] theorem asleepRead_frame (g src : Nat) (s : State) :
    (asleepRead g src s).pending = s.pending ∧ (asleepRead g src s).variant = s.variant ∧ (asleepRead g src s).otp = s.otp ∧
    (asleepRead g src s).masters.length = s.masters.length ∧
    (asleepRead g src s).cores.channels.length = s.cores.channels.length ∧
    (asleepRead g src s).regs.debugLevel = s.regs.debugLevel ∧ (asleepRead g src s).store.cs = s.store.cs ∧
    (asleepRead g src s).store.csDev = s.store.csDev ∧ (asleepRead g src s).store.granules = s.store.granules ∧
    (asleepRead g src s).pins = s.pins ∧ (asleepRead g src s).stream = s.stream ∧ (asleepRead g src s).power = s.power ∧
    (asleepRead g src s).loader = s.loader ∧ (asleepRead g src s).conservator = s.conservator ∧
    (asleepRead g src s).egress = s.egress ∧ (asleepRead g src s).repair = s.repair ∧
    (asleepRead g src s).shadow = s.shadow ∧ (asleepRead g src s).inForce = s.inForce ∧
    (asleepRead g src s).otpRequest = s.otpRequest ∧ (asleepRead g src s).heldCommands = s.heldCommands ∧
    (asleepRead g src s).crossReads = s.crossReads := by
  unfold asleepRead
  first | (simp; done) | ((try dsimp only); (repeat' split) <;> first | (simp; done) | simp_all | (repeat' split) <;> simp)

@[simp] theorem specialEffect_frame (j g i : Nat) (s : State) :
    (specialEffect j g i s).pending = s.pending ∧ (specialEffect j g i s).variant = s.variant ∧
    (specialEffect j g i s).otp = s.otp ∧ (specialEffect j g i s).masters.length = s.masters.length ∧
    (specialEffect j g i s).cores.channels.length = s.cores.channels.length ∧
    (specialEffect j g i s).regs.debugLevel = s.regs.debugLevel ∧ (specialEffect j g i s).store.cs = s.store.cs ∧
    (specialEffect j g i s).store.csDev = s.store.csDev ∧ (specialEffect j g i s).store.granules = s.store.granules ∧
    (specialEffect j g i s).pins = s.pins ∧ (specialEffect j g i s).stream = s.stream ∧
    (specialEffect j g i s).power = s.power ∧ (specialEffect j g i s).loader = s.loader ∧
    (specialEffect j g i s).conservator = s.conservator ∧ (specialEffect j g i s).egress = s.egress ∧
    (specialEffect j g i s).repair = s.repair ∧ (specialEffect j g i s).shadow = s.shadow ∧
    (specialEffect j g i s).inForce = s.inForce ∧ (specialEffect j g i s).otpRequest = s.otpRequest ∧
    (specialEffect j g i s).heldCommands = s.heldCommands ∧ (specialEffect j g i s).crossReads = s.crossReads := by
  unfold specialEffect
  first | (simp; done) | ((try dsimp only); (repeat' split) <;> first | (simp; done) | simp_all | (repeat' split) <;> simp)

@[simp] theorem operandEffect_frame (j g bp : Nat) (o : BitVec 11) (s : State) :
    (operandEffect j g bp o s).pending = s.pending ∧ (operandEffect j g bp o s).variant = s.variant ∧
    (operandEffect j g bp o s).otp = s.otp ∧ (operandEffect j g bp o s).masters.length = s.masters.length ∧
    (operandEffect j g bp o s).cores.channels.length = s.cores.channels.length ∧
    (operandEffect j g bp o s).regs.debugLevel = s.regs.debugLevel ∧ (operandEffect j g bp o s).store.cs = s.store.cs ∧
    (operandEffect j g bp o s).store.csDev = s.store.csDev ∧ (operandEffect j g bp o s).store.granules = s.store.granules ∧
    (operandEffect j g bp o s).pins = s.pins ∧ (operandEffect j g bp o s).stream = s.stream ∧
    (operandEffect j g bp o s).power = s.power ∧ (operandEffect j g bp o s).loader = s.loader ∧
    (operandEffect j g bp o s).conservator = s.conservator ∧ (operandEffect j g bp o s).egress = s.egress ∧
    (operandEffect j g bp o s).repair = s.repair ∧ (operandEffect j g bp o s).shadow = s.shadow ∧
    (operandEffect j g bp o s).inForce = s.inForce ∧ (operandEffect j g bp o s).otpRequest = s.otpRequest ∧
    (operandEffect j g bp o s).heldCommands = s.heldCommands ∧ (operandEffect j g bp o s).crossReads = s.crossReads := by
  unfold operandEffect
  first | (simp; done) | ((try dsimp only); (repeat' split) <;> first | (simp; done) | simp_all | (repeat' split) <;> simp)

@[simp] theorem operandEffects_frame (j g bp : Nat) (x : BpInstr) (s : State) :
    (operandEffects j g bp x s).pending = s.pending ∧ (operandEffects j g bp x s).variant = s.variant ∧
    (operandEffects j g bp x s).otp = s.otp ∧ (operandEffects j g bp x s).masters.length = s.masters.length ∧
    (operandEffects j g bp x s).cores.channels.length = s.cores.channels.length ∧
    (operandEffects j g bp x s).regs.debugLevel = s.regs.debugLevel ∧ (operandEffects j g bp x s).store.cs = s.store.cs ∧
    (operandEffects j g bp x s).store.csDev = s.store.csDev ∧
    (operandEffects j g bp x s).store.granules = s.store.granules ∧ (operandEffects j g bp x s).pins = s.pins ∧
    (operandEffects j g bp x s).stream = s.stream ∧ (operandEffects j g bp x s).power = s.power ∧
    (operandEffects j g bp x s).loader = s.loader ∧ (operandEffects j g bp x s).conservator = s.conservator ∧
    (operandEffects j g bp x s).egress = s.egress ∧ (operandEffects j g bp x s).repair = s.repair ∧
    (operandEffects j g bp x s).shadow = s.shadow ∧ (operandEffects j g bp x s).inForce = s.inForce ∧
    (operandEffects j g bp x s).otpRequest = s.otpRequest ∧ (operandEffects j g bp x s).heldCommands = s.heldCommands ∧
    (operandEffects j g bp x s).crossReads = s.crossReads := by
  unfold operandEffects
  first | (simp; done) | ((try dsimp only); (repeat' split) <;> first | (simp; done) | simp_all | (repeat' split) <;> simp)

@[simp] theorem sendStepBlocks_frame (st n : Nat) (s : State) :
    (sendStepBlocks st n s).pending = s.pending ∧ (sendStepBlocks st n s).variant = s.variant ∧
    (sendStepBlocks st n s).otp = s.otp ∧ (sendStepBlocks st n s).masters.length = s.masters.length ∧
    (sendStepBlocks st n s).cores.channels.length = s.cores.channels.length ∧
    (sendStepBlocks st n s).regs.debugLevel = s.regs.debugLevel ∧ (sendStepBlocks st n s).store.cs = s.store.cs ∧
    (sendStepBlocks st n s).store.csDev = s.store.csDev ∧ (sendStepBlocks st n s).store.granules = s.store.granules ∧
    (sendStepBlocks st n s).pins = s.pins ∧ (sendStepBlocks st n s).stream = s.stream ∧
    (sendStepBlocks st n s).power = s.power ∧ (sendStepBlocks st n s).loader = s.loader ∧
    (sendStepBlocks st n s).conservator = s.conservator ∧ (sendStepBlocks st n s).egress = s.egress ∧
    (sendStepBlocks st n s).repair = s.repair ∧ (sendStepBlocks st n s).shadow = s.shadow ∧
    (sendStepBlocks st n s).inForce = s.inForce ∧ (sendStepBlocks st n s).otpRequest = s.otpRequest ∧
    (sendStepBlocks st n s).heldCommands = s.heldCommands ∧ (sendStepBlocks st n s).crossReads = s.crossReads := by
  unfold sendStepBlocks
  first | (simp; done) | ((try dsimp only); (repeat' split) <;> first | (simp; done) | simp_all | (repeat' split) <;> simp)

@[simp] theorem atStep_frame (i : Nat) (s : State) :
    (atStep i s).pending = s.pending ∧ (atStep i s).variant = s.variant ∧ (atStep i s).otp = s.otp ∧
    (atStep i s).masters.length = s.masters.length ∧ (atStep i s).cores.channels.length = s.cores.channels.length ∧
    (atStep i s).regs.debugLevel = s.regs.debugLevel ∧ (atStep i s).store.cs = s.store.cs ∧
    (atStep i s).store.csDev = s.store.csDev ∧ (atStep i s).store.granules = s.store.granules ∧ (atStep i s).pins = s.pins ∧
    (atStep i s).stream = s.stream ∧ (atStep i s).power = s.power ∧ (atStep i s).loader = s.loader ∧
    (atStep i s).conservator = s.conservator ∧ (atStep i s).egress = s.egress ∧ (atStep i s).repair = s.repair ∧
    (atStep i s).shadow = s.shadow ∧ (atStep i s).inForce = s.inForce ∧ (atStep i s).otpRequest = s.otpRequest ∧
    (atStep i s).heldCommands = s.heldCommands ∧ (atStep i s).crossReads = s.crossReads := by
  unfold atStep
  first | (simp; done) | ((try dsimp only); (repeat' split) <;> first | (simp; done) | simp_all | (repeat' split) <;> simp)

@[simp] theorem fetchEffect_frame (bpn i : Nat) (s : State) :
    (fetchEffect bpn i s).pending = s.pending ∧ (fetchEffect bpn i s).variant = s.variant ∧
    (fetchEffect bpn i s).otp = s.otp ∧ (fetchEffect bpn i s).masters.length = s.masters.length ∧
    (fetchEffect bpn i s).cores.channels.length = s.cores.channels.length ∧
    (fetchEffect bpn i s).regs.debugLevel = s.regs.debugLevel ∧ (fetchEffect bpn i s).store.cs = s.store.cs ∧
    (fetchEffect bpn i s).store.csDev = s.store.csDev ∧ (fetchEffect bpn i s).store.granules = s.store.granules ∧
    (fetchEffect bpn i s).pins = s.pins ∧ (fetchEffect bpn i s).stream = s.stream ∧ (fetchEffect bpn i s).power = s.power ∧
    (fetchEffect bpn i s).loader = s.loader ∧ (fetchEffect bpn i s).conservator = s.conservator ∧
    (fetchEffect bpn i s).egress = s.egress ∧ (fetchEffect bpn i s).repair = s.repair ∧
    (fetchEffect bpn i s).shadow = s.shadow ∧ (fetchEffect bpn i s).inForce = s.inForce ∧
    (fetchEffect bpn i s).otpRequest = s.otpRequest ∧ (fetchEffect bpn i s).heldCommands = s.heldCommands ∧
    (fetchEffect bpn i s).crossReads = s.crossReads := by
  unfold fetchEffect
  first | (simp; done) | ((try dsimp only); (repeat' split) <;> first | (simp; done) | simp_all | (repeat' split) <;> simp)

@[simp] theorem exportWord_frame (g bp i : Nat) (v : Word) (s : State) :
    (exportWord g bp i v s).pending = s.pending ∧ (exportWord g bp i v s).variant = s.variant ∧
    (exportWord g bp i v s).otp = s.otp ∧ (exportWord g bp i v s).masters.length = s.masters.length ∧
    (exportWord g bp i v s).cores.channels.length = s.cores.channels.length ∧
    (exportWord g bp i v s).regs.debugLevel = s.regs.debugLevel ∧ (exportWord g bp i v s).store.cs = s.store.cs ∧
    (exportWord g bp i v s).store.csDev = s.store.csDev ∧ (exportWord g bp i v s).store.granules = s.store.granules ∧
    (exportWord g bp i v s).pins = s.pins ∧ (exportWord g bp i v s).stream = s.stream ∧
    (exportWord g bp i v s).power = s.power ∧ (exportWord g bp i v s).loader = s.loader ∧
    (exportWord g bp i v s).conservator = s.conservator ∧ (exportWord g bp i v s).egress = s.egress ∧
    (exportWord g bp i v s).repair = s.repair ∧ (exportWord g bp i v s).shadow = s.shadow ∧
    (exportWord g bp i v s).inForce = s.inForce ∧ (exportWord g bp i v s).otpRequest = s.otpRequest ∧
    (exportWord g bp i v s).heldCommands = s.heldCommands ∧ (exportWord g bp i v s).crossReads = s.crossReads := by
  unfold exportWord
  first | (simp; done) | ((try dsimp only); (repeat' split) <;> first | (simp; done) | simp_all | (repeat' split) <;> simp)

@[simp] theorem commitWord_frame (g bp i : Nat) (v : Word) (s : State) :
    (commitWord g bp i v s).pending = s.pending ∧ (commitWord g bp i v s).variant = s.variant ∧
    (commitWord g bp i v s).otp = s.otp ∧ (commitWord g bp i v s).masters.length = s.masters.length ∧
    (commitWord g bp i v s).cores.channels.length = s.cores.channels.length ∧
    (commitWord g bp i v s).regs.debugLevel = s.regs.debugLevel ∧ (commitWord g bp i v s).store.cs = s.store.cs ∧
    (commitWord g bp i v s).store.csDev = s.store.csDev ∧ (commitWord g bp i v s).store.granules = s.store.granules ∧
    (commitWord g bp i v s).pins = s.pins ∧ (commitWord g bp i v s).stream = s.stream ∧
    (commitWord g bp i v s).power = s.power ∧ (commitWord g bp i v s).loader = s.loader ∧
    (commitWord g bp i v s).conservator = s.conservator ∧ (commitWord g bp i v s).egress = s.egress ∧
    (commitWord g bp i v s).repair = s.repair ∧ (commitWord g bp i v s).shadow = s.shadow ∧
    (commitWord g bp i v s).inForce = s.inForce ∧ (commitWord g bp i v s).otpRequest = s.otpRequest ∧
    (commitWord g bp i v s).heldCommands = s.heldCommands ∧ (commitWord g bp i v s).crossReads = s.crossReads := by
  unfold commitWord
  first | (simp; done) | ((try dsimp only); (repeat' split) <;> first | (simp; done) | simp_all | (repeat' split) <;> simp)

@[simp] theorem runStep_pending (g bp i : Nat) (reads : BpInstr → State → State) (result : BpInstr → State → Word) (also : BpInstr → Word → State → State) (s : State) (hreads : ∀ x0 s, (reads x0 s).pending = s.pending) (halso : ∀ x0 x1 s, (also x0 x1 s).pending = s.pending) :
    (runStep g bp i reads result also s).pending = s.pending := by
  unfold runStep
  first | (simp; done) | ((try dsimp only); (repeat' split) <;> first | (simp [*]; done) | simp_all | (repeat' split) <;> simp [*])

@[simp] theorem runStep_variant (g bp i : Nat) (reads : BpInstr → State → State) (result : BpInstr → State → Word) (also : BpInstr → Word → State → State) (s : State) (hreads : ∀ x0 s, (reads x0 s).variant = s.variant) (halso : ∀ x0 x1 s, (also x0 x1 s).variant = s.variant) :
    (runStep g bp i reads result also s).variant = s.variant := by
  unfold runStep
  first | (simp; done) | ((try dsimp only); (repeat' split) <;> first | (simp [*]; done) | simp_all | (repeat' split) <;> simp [*])

@[simp] theorem runStep_otp (g bp i : Nat) (reads : BpInstr → State → State) (result : BpInstr → State → Word) (also : BpInstr → Word → State → State) (s : State) (hreads : ∀ x0 s, (reads x0 s).otp = s.otp) (halso : ∀ x0 x1 s, (also x0 x1 s).otp = s.otp) :
    (runStep g bp i reads result also s).otp = s.otp := by
  unfold runStep
  first | (simp; done) | ((try dsimp only); (repeat' split) <;> first | (simp [*]; done) | simp_all | (repeat' split) <;> simp [*])

@[simp] theorem runStep_mlen (g bp i : Nat) (reads : BpInstr → State → State) (result : BpInstr → State → Word) (also : BpInstr → Word → State → State) (s : State) (hreads : ∀ x0 s, (reads x0 s).masters.length = s.masters.length) (halso : ∀ x0 x1 s, (also x0 x1 s).masters.length = s.masters.length) :
    (runStep g bp i reads result also s).masters.length = s.masters.length := by
  unfold runStep
  first | (simp; done) | ((try dsimp only); (repeat' split) <;> first | (simp [*]; done) | simp_all | (repeat' split) <;> simp [*])

@[simp] theorem runStep_clen (g bp i : Nat) (reads : BpInstr → State → State) (result : BpInstr → State → Word) (also : BpInstr → Word → State → State) (s : State) (hreads : ∀ x0 s, (reads x0 s).cores.channels.length = s.cores.channels.length) (halso : ∀ x0 x1 s, (also x0 x1 s).cores.channels.length = s.cores.channels.length) :
    (runStep g bp i reads result also s).cores.channels.length = s.cores.channels.length := by
  unfold runStep
  first | (simp; done) | ((try dsimp only); (repeat' split) <;> first | (simp [*]; done) | simp_all | (repeat' split) <;> simp [*])

@[simp] theorem runStep_level (g bp i : Nat) (reads : BpInstr → State → State) (result : BpInstr → State → Word) (also : BpInstr → Word → State → State) (s : State) (hreads : ∀ x0 s, (reads x0 s).regs.debugLevel = s.regs.debugLevel) (halso : ∀ x0 x1 s, (also x0 x1 s).regs.debugLevel = s.regs.debugLevel) :
    (runStep g bp i reads result also s).regs.debugLevel = s.regs.debugLevel := by
  unfold runStep
  first | (simp; done) | ((try dsimp only); (repeat' split) <;> first | (simp [*]; done) | simp_all | (repeat' split) <;> simp [*])

@[simp] theorem runStep_cs (g bp i : Nat) (reads : BpInstr → State → State) (result : BpInstr → State → Word) (also : BpInstr → Word → State → State) (s : State) (hreads : ∀ x0 s, (reads x0 s).store.cs = s.store.cs) (halso : ∀ x0 x1 s, (also x0 x1 s).store.cs = s.store.cs) :
    (runStep g bp i reads result also s).store.cs = s.store.cs := by
  unfold runStep
  first | (simp; done) | ((try dsimp only); (repeat' split) <;> first | (simp [*]; done) | simp_all | (repeat' split) <;> simp [*])

@[simp] theorem runStep_csDev (g bp i : Nat) (reads : BpInstr → State → State) (result : BpInstr → State → Word) (also : BpInstr → Word → State → State) (s : State) (hreads : ∀ x0 s, (reads x0 s).store.csDev = s.store.csDev) (halso : ∀ x0 x1 s, (also x0 x1 s).store.csDev = s.store.csDev) :
    (runStep g bp i reads result also s).store.csDev = s.store.csDev := by
  unfold runStep
  first | (simp; done) | ((try dsimp only); (repeat' split) <;> first | (simp [*]; done) | simp_all | (repeat' split) <;> simp [*])

@[simp] theorem runStep_granules (g bp i : Nat) (reads : BpInstr → State → State) (result : BpInstr → State → Word) (also : BpInstr → Word → State → State) (s : State) (hreads : ∀ x0 s, (reads x0 s).store.granules = s.store.granules) (halso : ∀ x0 x1 s, (also x0 x1 s).store.granules = s.store.granules) :
    (runStep g bp i reads result also s).store.granules = s.store.granules := by
  unfold runStep
  first | (simp; done) | ((try dsimp only); (repeat' split) <;> first | (simp [*]; done) | simp_all | (repeat' split) <;> simp [*])

@[simp] theorem runStep_pins (g bp i : Nat) (reads : BpInstr → State → State) (result : BpInstr → State → Word) (also : BpInstr → Word → State → State) (s : State) (hreads : ∀ x0 s, (reads x0 s).pins = s.pins) (halso : ∀ x0 x1 s, (also x0 x1 s).pins = s.pins) :
    (runStep g bp i reads result also s).pins = s.pins := by
  unfold runStep
  first | (simp; done) | ((try dsimp only); (repeat' split) <;> first | (simp [*]; done) | simp_all | (repeat' split) <;> simp [*])

@[simp] theorem runStep_stream (g bp i : Nat) (reads : BpInstr → State → State) (result : BpInstr → State → Word) (also : BpInstr → Word → State → State) (s : State) (hreads : ∀ x0 s, (reads x0 s).stream = s.stream) (halso : ∀ x0 x1 s, (also x0 x1 s).stream = s.stream) :
    (runStep g bp i reads result also s).stream = s.stream := by
  unfold runStep
  first | (simp; done) | ((try dsimp only); (repeat' split) <;> first | (simp [*]; done) | simp_all | (repeat' split) <;> simp [*])

@[simp] theorem runStep_power (g bp i : Nat) (reads : BpInstr → State → State) (result : BpInstr → State → Word) (also : BpInstr → Word → State → State) (s : State) (hreads : ∀ x0 s, (reads x0 s).power = s.power) (halso : ∀ x0 x1 s, (also x0 x1 s).power = s.power) :
    (runStep g bp i reads result also s).power = s.power := by
  unfold runStep
  first | (simp; done) | ((try dsimp only); (repeat' split) <;> first | (simp [*]; done) | simp_all | (repeat' split) <;> simp [*])

@[simp] theorem runStep_loader (g bp i : Nat) (reads : BpInstr → State → State) (result : BpInstr → State → Word) (also : BpInstr → Word → State → State) (s : State) (hreads : ∀ x0 s, (reads x0 s).loader = s.loader) (halso : ∀ x0 x1 s, (also x0 x1 s).loader = s.loader) :
    (runStep g bp i reads result also s).loader = s.loader := by
  unfold runStep
  first | (simp; done) | ((try dsimp only); (repeat' split) <;> first | (simp [*]; done) | simp_all | (repeat' split) <;> simp [*])

@[simp] theorem runStep_conservator (g bp i : Nat) (reads : BpInstr → State → State) (result : BpInstr → State → Word) (also : BpInstr → Word → State → State) (s : State) (hreads : ∀ x0 s, (reads x0 s).conservator = s.conservator) (halso : ∀ x0 x1 s, (also x0 x1 s).conservator = s.conservator) :
    (runStep g bp i reads result also s).conservator = s.conservator := by
  unfold runStep
  first | (simp; done) | ((try dsimp only); (repeat' split) <;> first | (simp [*]; done) | simp_all | (repeat' split) <;> simp [*])

@[simp] theorem runStep_egress (g bp i : Nat) (reads : BpInstr → State → State) (result : BpInstr → State → Word) (also : BpInstr → Word → State → State) (s : State) (hreads : ∀ x0 s, (reads x0 s).egress = s.egress) (halso : ∀ x0 x1 s, (also x0 x1 s).egress = s.egress) :
    (runStep g bp i reads result also s).egress = s.egress := by
  unfold runStep
  first | (simp; done) | ((try dsimp only); (repeat' split) <;> first | (simp [*]; done) | simp_all | (repeat' split) <;> simp [*])

@[simp] theorem runStep_repair (g bp i : Nat) (reads : BpInstr → State → State) (result : BpInstr → State → Word) (also : BpInstr → Word → State → State) (s : State) (hreads : ∀ x0 s, (reads x0 s).repair = s.repair) (halso : ∀ x0 x1 s, (also x0 x1 s).repair = s.repair) :
    (runStep g bp i reads result also s).repair = s.repair := by
  unfold runStep
  first | (simp; done) | ((try dsimp only); (repeat' split) <;> first | (simp [*]; done) | simp_all | (repeat' split) <;> simp [*])

@[simp] theorem runStep_shadow (g bp i : Nat) (reads : BpInstr → State → State) (result : BpInstr → State → Word) (also : BpInstr → Word → State → State) (s : State) (hreads : ∀ x0 s, (reads x0 s).shadow = s.shadow) (halso : ∀ x0 x1 s, (also x0 x1 s).shadow = s.shadow) :
    (runStep g bp i reads result also s).shadow = s.shadow := by
  unfold runStep
  first | (simp; done) | ((try dsimp only); (repeat' split) <;> first | (simp [*]; done) | simp_all | (repeat' split) <;> simp [*])

@[simp] theorem runStep_inForce (g bp i : Nat) (reads : BpInstr → State → State) (result : BpInstr → State → Word) (also : BpInstr → Word → State → State) (s : State) (hreads : ∀ x0 s, (reads x0 s).inForce = s.inForce) (halso : ∀ x0 x1 s, (also x0 x1 s).inForce = s.inForce) :
    (runStep g bp i reads result also s).inForce = s.inForce := by
  unfold runStep
  first | (simp; done) | ((try dsimp only); (repeat' split) <;> first | (simp [*]; done) | simp_all | (repeat' split) <;> simp [*])

@[simp] theorem runStep_otpRequest (g bp i : Nat) (reads : BpInstr → State → State) (result : BpInstr → State → Word) (also : BpInstr → Word → State → State) (s : State) (hreads : ∀ x0 s, (reads x0 s).otpRequest = s.otpRequest) (halso : ∀ x0 x1 s, (also x0 x1 s).otpRequest = s.otpRequest) :
    (runStep g bp i reads result also s).otpRequest = s.otpRequest := by
  unfold runStep
  first | (simp; done) | ((try dsimp only); (repeat' split) <;> first | (simp [*]; done) | simp_all | (repeat' split) <;> simp [*])

@[simp] theorem runStep_heldCommands (g bp i : Nat) (reads : BpInstr → State → State) (result : BpInstr → State → Word) (also : BpInstr → Word → State → State) (s : State) (hreads : ∀ x0 s, (reads x0 s).heldCommands = s.heldCommands) (halso : ∀ x0 x1 s, (also x0 x1 s).heldCommands = s.heldCommands) :
    (runStep g bp i reads result also s).heldCommands = s.heldCommands := by
  unfold runStep
  first | (simp; done) | ((try dsimp only); (repeat' split) <;> first | (simp [*]; done) | simp_all | (repeat' split) <;> simp [*])

@[simp] theorem runStep_crossReads (g bp i : Nat) (reads : BpInstr → State → State) (result : BpInstr → State → Word) (also : BpInstr → Word → State → State) (s : State) (hreads : ∀ x0 s, (reads x0 s).crossReads = s.crossReads) (halso : ∀ x0 x1 s, (also x0 x1 s).crossReads = s.crossReads) :
    (runStep g bp i reads result also s).crossReads = s.crossReads := by
  unfold runStep
  first | (simp; done) | ((try dsimp only); (repeat' split) <;> first | (simp [*]; done) | simp_all | (repeat' split) <;> simp [*])

@[simp] theorem runStep_plen (g bp i : Nat) (reads : BpInstr → State → State) (result : BpInstr → State → Word) (also : BpInstr → Word → State → State) (s : State) (hreads : ∀ x0 s, (reads x0 s).pins.pins.length = s.pins.pins.length) (halso : ∀ x0 x1 s, (also x0 x1 s).pins.pins.length = s.pins.pins.length) :
    (runStep g bp i reads result also s).pins.pins.length = s.pins.pins.length := by
  unfold runStep
  first | (simp; done) | ((try dsimp only); (repeat' split) <;> first | (simp [*]; done) | simp_all | (repeat' split) <;> simp [*])

@[simp] theorem sendBoulevard_frame (g i : Nat) (x : BpInstr) (v : Word) (s : State) :
    (sendBoulevard g i x v s).pending = s.pending ∧ (sendBoulevard g i x v s).variant = s.variant ∧
    (sendBoulevard g i x v s).otp = s.otp ∧ (sendBoulevard g i x v s).masters.length = s.masters.length ∧
    (sendBoulevard g i x v s).cores.channels.length = s.cores.channels.length ∧
    (sendBoulevard g i x v s).regs.debugLevel = s.regs.debugLevel ∧ (sendBoulevard g i x v s).store.cs = s.store.cs ∧
    (sendBoulevard g i x v s).store.csDev = s.store.csDev ∧ (sendBoulevard g i x v s).store.granules = s.store.granules ∧
    (sendBoulevard g i x v s).pins = s.pins ∧ (sendBoulevard g i x v s).stream = s.stream ∧
    (sendBoulevard g i x v s).power = s.power ∧ (sendBoulevard g i x v s).loader = s.loader ∧
    (sendBoulevard g i x v s).conservator = s.conservator ∧ (sendBoulevard g i x v s).egress = s.egress ∧
    (sendBoulevard g i x v s).repair = s.repair ∧ (sendBoulevard g i x v s).shadow = s.shadow ∧
    (sendBoulevard g i x v s).inForce = s.inForce ∧ (sendBoulevard g i x v s).otpRequest = s.otpRequest ∧
    (sendBoulevard g i x v s).heldCommands = s.heldCommands ∧ (sendBoulevard g i x v s).crossReads = s.crossReads := by
  unfold sendBoulevard
  first | (simp; done) | ((try dsimp only); (repeat' split) <;> first | (simp; done) | simp_all | (repeat' split) <;> simp)

@[simp] theorem sendMesh_frame (i : Nat) (x : BpInstr) (v : Word) (s : State) :
    (sendMesh i x v s).pending = s.pending ∧ (sendMesh i x v s).variant = s.variant ∧ (sendMesh i x v s).otp = s.otp ∧
    (sendMesh i x v s).masters.length = s.masters.length ∧
    (sendMesh i x v s).cores.channels.length = s.cores.channels.length ∧
    (sendMesh i x v s).regs.debugLevel = s.regs.debugLevel ∧ (sendMesh i x v s).store.cs = s.store.cs ∧
    (sendMesh i x v s).store.csDev = s.store.csDev ∧ (sendMesh i x v s).store.granules = s.store.granules ∧
    (sendMesh i x v s).pins = s.pins ∧ (sendMesh i x v s).stream = s.stream ∧ (sendMesh i x v s).power = s.power ∧
    (sendMesh i x v s).loader = s.loader ∧ (sendMesh i x v s).conservator = s.conservator ∧
    (sendMesh i x v s).egress = s.egress ∧ (sendMesh i x v s).repair = s.repair ∧ (sendMesh i x v s).shadow = s.shadow ∧
    (sendMesh i x v s).inForce = s.inForce ∧ (sendMesh i x v s).otpRequest = s.otpRequest ∧
    (sendMesh i x v s).heldCommands = s.heldCommands ∧ (sendMesh i x v s).crossReads = s.crossReads := by
  unfold sendMesh
  first | (simp; done) | ((try dsimp only); (repeat' split) <;> first | (simp; done) | simp_all | (repeat' split) <;> simp)

@[simp] theorem takeStim_frame (g : Nat) (x : BpInstr) (s : State) :
    (takeStim g x s).pending = s.pending ∧ (takeStim g x s).variant = s.variant ∧ (takeStim g x s).otp = s.otp ∧
    (takeStim g x s).masters.length = s.masters.length ∧ (takeStim g x s).cores.channels.length = s.cores.channels.length ∧
    (takeStim g x s).regs.debugLevel = s.regs.debugLevel ∧ (takeStim g x s).store.cs = s.store.cs ∧
    (takeStim g x s).store.csDev = s.store.csDev ∧ (takeStim g x s).store.granules = s.store.granules ∧
    (takeStim g x s).pins = s.pins ∧ (takeStim g x s).stream = s.stream ∧ (takeStim g x s).power = s.power ∧
    (takeStim g x s).loader = s.loader ∧ (takeStim g x s).conservator = s.conservator ∧ (takeStim g x s).egress = s.egress ∧
    (takeStim g x s).repair = s.repair ∧ (takeStim g x s).shadow = s.shadow ∧ (takeStim g x s).inForce = s.inForce ∧
    (takeStim g x s).otpRequest = s.otpRequest ∧ (takeStim g x s).heldCommands = s.heldCommands ∧
    (takeStim g x s).crossReads = s.crossReads := by
  unfold takeStim
  first | (simp; done) | ((try dsimp only); (repeat' split) <;> first | (simp; done) | simp_all | (repeat' split) <;> simp)

@[simp] theorem recordIllegal_frame (g bp i : Nat) (s : State) :
    (recordIllegal g bp i s).pending = s.pending ∧ (recordIllegal g bp i s).variant = s.variant ∧
    (recordIllegal g bp i s).otp = s.otp ∧ (recordIllegal g bp i s).masters.length = s.masters.length ∧
    (recordIllegal g bp i s).cores.channels.length = s.cores.channels.length ∧
    (recordIllegal g bp i s).regs.debugLevel = s.regs.debugLevel ∧ (recordIllegal g bp i s).store.cs = s.store.cs ∧
    (recordIllegal g bp i s).store.csDev = s.store.csDev ∧ (recordIllegal g bp i s).store.granules = s.store.granules ∧
    (recordIllegal g bp i s).pins = s.pins ∧ (recordIllegal g bp i s).stream = s.stream ∧
    (recordIllegal g bp i s).power = s.power ∧ (recordIllegal g bp i s).loader = s.loader ∧
    (recordIllegal g bp i s).conservator = s.conservator ∧ (recordIllegal g bp i s).egress = s.egress ∧
    (recordIllegal g bp i s).repair = s.repair ∧ (recordIllegal g bp i s).shadow = s.shadow ∧
    (recordIllegal g bp i s).inForce = s.inForce ∧ (recordIllegal g bp i s).otpRequest = s.otpRequest ∧
    (recordIllegal g bp i s).heldCommands = s.heldCommands ∧ (recordIllegal g bp i s).crossReads = s.crossReads := by
  unfold recordIllegal
  first | (simp; done) | ((try dsimp only); (repeat' split) <;> first | (simp; done) | simp_all | (repeat' split) <;> simp)

@[simp] theorem illegalEffect_frame (g bp i : Nat) (s : State) :
    (illegalEffect g bp i s).pending = s.pending ∧ (illegalEffect g bp i s).variant = s.variant ∧
    (illegalEffect g bp i s).otp = s.otp ∧ (illegalEffect g bp i s).masters.length = s.masters.length ∧
    (illegalEffect g bp i s).cores.channels.length = s.cores.channels.length ∧
    (illegalEffect g bp i s).regs.debugLevel = s.regs.debugLevel ∧ (illegalEffect g bp i s).store.cs = s.store.cs ∧
    (illegalEffect g bp i s).store.csDev = s.store.csDev ∧ (illegalEffect g bp i s).store.granules = s.store.granules ∧
    (illegalEffect g bp i s).pins = s.pins ∧ (illegalEffect g bp i s).stream = s.stream ∧
    (illegalEffect g bp i s).power = s.power ∧ (illegalEffect g bp i s).loader = s.loader ∧
    (illegalEffect g bp i s).conservator = s.conservator ∧ (illegalEffect g bp i s).egress = s.egress ∧
    (illegalEffect g bp i s).repair = s.repair ∧ (illegalEffect g bp i s).shadow = s.shadow ∧
    (illegalEffect g bp i s).inForce = s.inForce ∧ (illegalEffect g bp i s).otpRequest = s.otpRequest ∧
    (illegalEffect g bp i s).heldCommands = s.heldCommands ∧ (illegalEffect g bp i s).crossReads = s.crossReads := by
  unfold illegalEffect
  first | (simp; done) | ((try dsimp only); (repeat' split) <;> first | (simp; done) | simp_all | (repeat' split) <;> simp)

@[simp] theorem poisonInstr_frame (g bp i : Nat) (s : State) :
    (poisonInstr g bp i s).pending = s.pending ∧ (poisonInstr g bp i s).variant = s.variant ∧
    (poisonInstr g bp i s).otp = s.otp ∧ (poisonInstr g bp i s).masters.length = s.masters.length ∧
    (poisonInstr g bp i s).cores.channels.length = s.cores.channels.length ∧
    (poisonInstr g bp i s).regs.debugLevel = s.regs.debugLevel ∧ (poisonInstr g bp i s).store.cs = s.store.cs ∧
    (poisonInstr g bp i s).store.csDev = s.store.csDev ∧ (poisonInstr g bp i s).store.granules = s.store.granules ∧
    (poisonInstr g bp i s).pins = s.pins ∧ (poisonInstr g bp i s).stream = s.stream ∧
    (poisonInstr g bp i s).power = s.power ∧ (poisonInstr g bp i s).loader = s.loader ∧
    (poisonInstr g bp i s).conservator = s.conservator ∧ (poisonInstr g bp i s).egress = s.egress ∧
    (poisonInstr g bp i s).repair = s.repair ∧ (poisonInstr g bp i s).shadow = s.shadow ∧
    (poisonInstr g bp i s).inForce = s.inForce ∧ (poisonInstr g bp i s).otpRequest = s.otpRequest ∧
    (poisonInstr g bp i s).heldCommands = s.heldCommands ∧ (poisonInstr g bp i s).crossReads = s.crossReads := by
  unfold poisonInstr
  first | (simp; done) | ((try dsimp only); (repeat' split) <;> first | (simp; done) | simp_all | (repeat' split) <;> simp)

@[simp] theorem sendToken_frame (pass : Nat) (s : State) :
    (sendToken pass s).pending = s.pending ∧ (sendToken pass s).variant = s.variant ∧ (sendToken pass s).otp = s.otp ∧
    (sendToken pass s).masters.length = s.masters.length ∧
    (sendToken pass s).cores.channels.length = s.cores.channels.length ∧
    (sendToken pass s).regs.debugLevel = s.regs.debugLevel ∧ (sendToken pass s).store.cs = s.store.cs ∧
    (sendToken pass s).store.csDev = s.store.csDev ∧ (sendToken pass s).store.granules = s.store.granules ∧
    (sendToken pass s).pins = s.pins ∧ (sendToken pass s).stream = s.stream ∧ (sendToken pass s).power = s.power ∧
    (sendToken pass s).loader = s.loader ∧ (sendToken pass s).conservator = s.conservator ∧
    (sendToken pass s).egress = s.egress ∧ (sendToken pass s).repair = s.repair ∧ (sendToken pass s).shadow = s.shadow ∧
    (sendToken pass s).inForce = s.inForce ∧ (sendToken pass s).otpRequest = s.otpRequest ∧
    (sendToken pass s).heldCommands = s.heldCommands ∧ (sendToken pass s).crossReads = s.crossReads := by
  unfold sendToken
  first | (simp; done) | ((try dsimp only); (repeat' split) <;> first | (simp; done) | simp_all | (repeat' split) <;> simp)

@[simp] theorem indetLow_frame (b : BitVec 24) (cause : Nat) (s : State) :
    (indetLow b cause s).pending = s.pending ∧ (indetLow b cause s).variant = s.variant ∧ (indetLow b cause s).otp = s.otp ∧
    (indetLow b cause s).masters.length = s.masters.length ∧
    (indetLow b cause s).cores.channels.length = s.cores.channels.length ∧
    (indetLow b cause s).regs.debugLevel = s.regs.debugLevel ∧ (indetLow b cause s).store.cs = s.store.cs ∧
    (indetLow b cause s).store.csDev = s.store.csDev ∧ (indetLow b cause s).store.granules = s.store.granules ∧
    (indetLow b cause s).pins = s.pins ∧ (indetLow b cause s).stream = s.stream ∧ (indetLow b cause s).power = s.power ∧
    (indetLow b cause s).loader = s.loader ∧ (indetLow b cause s).conservator = s.conservator ∧
    (indetLow b cause s).egress = s.egress ∧ (indetLow b cause s).repair = s.repair ∧
    (indetLow b cause s).shadow = s.shadow ∧ (indetLow b cause s).inForce = s.inForce ∧
    (indetLow b cause s).otpRequest = s.otpRequest ∧ (indetLow b cause s).heldCommands = s.heldCommands ∧
    (indetLow b cause s).crossReads = s.crossReads := by
  unfold indetLow
  first | (simp; done) | ((try dsimp only); (repeat' split) <;> first | (simp; done) | simp_all | (repeat' split) <;> simp)

@[simp] theorem markLost_frame (l : MLink) (b : BitVec 24) (p : BitVec 12) (n : Nat) (s : State) :
    (markLost l b p n s).pending = s.pending ∧ (markLost l b p n s).variant = s.variant ∧ (markLost l b p n s).otp = s.otp ∧
    (markLost l b p n s).masters.length = s.masters.length ∧
    (markLost l b p n s).cores.channels.length = s.cores.channels.length ∧
    (markLost l b p n s).regs.debugLevel = s.regs.debugLevel ∧ (markLost l b p n s).store.cs = s.store.cs ∧
    (markLost l b p n s).store.csDev = s.store.csDev ∧ (markLost l b p n s).store.granules = s.store.granules ∧
    (markLost l b p n s).pins = s.pins ∧ (markLost l b p n s).stream = s.stream ∧ (markLost l b p n s).power = s.power ∧
    (markLost l b p n s).loader = s.loader ∧ (markLost l b p n s).conservator = s.conservator ∧
    (markLost l b p n s).egress = s.egress ∧ (markLost l b p n s).repair = s.repair ∧
    (markLost l b p n s).shadow = s.shadow ∧ (markLost l b p n s).inForce = s.inForce ∧
    (markLost l b p n s).otpRequest = s.otpRequest ∧ (markLost l b p n s).heldCommands = s.heldCommands ∧
    (markLost l b p n s).crossReads = s.crossReads := by
  unfold markLost
  first | (simp; done) | ((try dsimp only); (repeat' split) <;> first | (simp; done) | simp_all | (repeat' split) <;> simp)

@[simp] theorem discardBlock_frame  (s : State) :
    (discardBlock s).pending = s.pending ∧ (discardBlock s).variant = s.variant ∧ (discardBlock s).otp = s.otp ∧
    (discardBlock s).masters.length = s.masters.length ∧ (discardBlock s).cores.channels.length = s.cores.channels.length ∧
    (discardBlock s).regs.debugLevel = s.regs.debugLevel ∧ (discardBlock s).store.cs = s.store.cs ∧
    (discardBlock s).store.csDev = s.store.csDev ∧ (discardBlock s).store.granules = s.store.granules ∧
    (discardBlock s).pins = s.pins ∧ (discardBlock s).stream = s.stream ∧ (discardBlock s).power = s.power ∧
    (discardBlock s).loader = s.loader ∧ (discardBlock s).conservator = s.conservator ∧ (discardBlock s).egress = s.egress ∧
    (discardBlock s).repair = s.repair ∧ (discardBlock s).shadow = s.shadow ∧ (discardBlock s).inForce = s.inForce ∧
    (discardBlock s).otpRequest = s.otpRequest ∧ (discardBlock s).heldCommands = s.heldCommands ∧
    (discardBlock s).crossReads = s.crossReads := by
  unfold discardBlock
  first | (simp; done) | ((try dsimp only); (repeat' split) <;> first | (simp; done) | simp_all | (repeat' split) <;> simp)

@[simp] theorem takeToken_frame (l : MLink) (b : Block) (s : State) :
    (takeToken l b s).pending = s.pending ∧ (takeToken l b s).variant = s.variant ∧ (takeToken l b s).otp = s.otp ∧
    (takeToken l b s).masters.length = s.masters.length ∧
    (takeToken l b s).cores.channels.length = s.cores.channels.length ∧
    (takeToken l b s).regs.debugLevel = s.regs.debugLevel ∧ (takeToken l b s).store.cs = s.store.cs ∧
    (takeToken l b s).store.csDev = s.store.csDev ∧ (takeToken l b s).store.granules = s.store.granules ∧
    (takeToken l b s).pins = s.pins ∧ (takeToken l b s).stream = s.stream ∧ (takeToken l b s).power = s.power ∧
    (takeToken l b s).loader = s.loader ∧ (takeToken l b s).conservator = s.conservator ∧
    (takeToken l b s).egress = s.egress ∧ (takeToken l b s).repair = s.repair ∧ (takeToken l b s).shadow = s.shadow ∧
    (takeToken l b s).inForce = s.inForce ∧ (takeToken l b s).otpRequest = s.otpRequest ∧
    (takeToken l b s).heldCommands = s.heldCommands ∧ (takeToken l b s).crossReads = s.crossReads := by
  unfold takeToken
  first | (simp; done) | ((try dsimp only); (repeat' split) <;> first | (simp; done) | simp_all | (repeat' split) <;> simp)

@[simp] theorem holdBlock_frame (l : MLink) (b : Block) (s : State) :
    (holdBlock l b s).pending = s.pending ∧ (holdBlock l b s).variant = s.variant ∧ (holdBlock l b s).otp = s.otp ∧
    (holdBlock l b s).masters.length = s.masters.length ∧
    (holdBlock l b s).cores.channels.length = s.cores.channels.length ∧
    (holdBlock l b s).regs.debugLevel = s.regs.debugLevel ∧ (holdBlock l b s).store.cs = s.store.cs ∧
    (holdBlock l b s).store.csDev = s.store.csDev ∧ (holdBlock l b s).store.granules = s.store.granules ∧
    (holdBlock l b s).pins = s.pins ∧ (holdBlock l b s).stream = s.stream ∧ (holdBlock l b s).power = s.power ∧
    (holdBlock l b s).loader = s.loader ∧ (holdBlock l b s).conservator = s.conservator ∧
    (holdBlock l b s).egress = s.egress ∧ (holdBlock l b s).repair = s.repair ∧ (holdBlock l b s).shadow = s.shadow ∧
    (holdBlock l b s).inForce = s.inForce ∧ (holdBlock l b s).otpRequest = s.otpRequest ∧
    (holdBlock l b s).heldCommands = s.heldCommands ∧ (holdBlock l b s).crossReads = s.crossReads := by
  unfold holdBlock
  first | (simp; done) | ((try dsimp only); (repeat' split) <;> first | (simp; done) | simp_all | (repeat' split) <;> simp)

@[simp] theorem endBurst_frame  (s : State) :
    (endBurst s).pending = s.pending ∧ (endBurst s).variant = s.variant ∧ (endBurst s).otp = s.otp ∧
    (endBurst s).masters.length = s.masters.length ∧ (endBurst s).cores.channels.length = s.cores.channels.length ∧
    (endBurst s).regs.debugLevel = s.regs.debugLevel ∧ (endBurst s).store.cs = s.store.cs ∧
    (endBurst s).store.csDev = s.store.csDev ∧ (endBurst s).store.granules = s.store.granules ∧ (endBurst s).pins = s.pins ∧
    (endBurst s).stream = s.stream ∧ (endBurst s).loader = s.loader ∧ (endBurst s).conservator = s.conservator ∧
    (endBurst s).egress = s.egress ∧ (endBurst s).repair = s.repair ∧ (endBurst s).shadow = s.shadow ∧
    (endBurst s).inForce = s.inForce ∧ (endBurst s).otpRequest = s.otpRequest ∧ (endBurst s).heldCommands = s.heldCommands ∧
    (endBurst s).crossReads = s.crossReads := by
  unfold endBurst
  first | (simp; done) | ((try dsimp only); (repeat' split) <;> first | (simp; done) | simp_all | (repeat' split) <;> simp)

@[simp] theorem passTail_frame  (s : State) :
    (passTail s).pending = s.pending ∧ (passTail s).variant = s.variant ∧ (passTail s).otp = s.otp ∧
    (passTail s).masters.length = s.masters.length ∧ (passTail s).cores.channels.length = s.cores.channels.length ∧
    (passTail s).regs.debugLevel = s.regs.debugLevel ∧ (passTail s).store.cs = s.store.cs ∧
    (passTail s).store.csDev = s.store.csDev ∧ (passTail s).store.granules = s.store.granules ∧ (passTail s).pins = s.pins ∧
    (passTail s).stream = s.stream ∧ (passTail s).loader = s.loader ∧ (passTail s).conservator = s.conservator ∧
    (passTail s).egress = s.egress ∧ (passTail s).repair = s.repair ∧ (passTail s).shadow = s.shadow ∧
    (passTail s).inForce = s.inForce ∧ (passTail s).otpRequest = s.otpRequest ∧ (passTail s).heldCommands = s.heldCommands ∧
    (passTail s).crossReads = s.crossReads := by
  unfold passTail
  first | (simp; done) | ((try dsimp only); (repeat' split) <;> first | (simp; done) | simp_all | (repeat' split) <;> simp)

@[simp] theorem putPending_frame  (s : State) :
    (putPending s).pending = s.pending ∧ (putPending s).variant = s.variant ∧ (putPending s).otp = s.otp ∧
    (putPending s).masters.length = s.masters.length ∧ (putPending s).cores.channels.length = s.cores.channels.length ∧
    (putPending s).regs.debugLevel = s.regs.debugLevel ∧ (putPending s).store.cs = s.store.cs ∧
    (putPending s).store.csDev = s.store.csDev ∧ (putPending s).store.granules = s.store.granules ∧
    (putPending s).pins = s.pins ∧ (putPending s).stream = s.stream ∧ (putPending s).power = s.power ∧
    (putPending s).loader = s.loader ∧ (putPending s).conservator = s.conservator ∧ (putPending s).egress = s.egress ∧
    (putPending s).repair = s.repair ∧ (putPending s).shadow = s.shadow ∧ (putPending s).inForce = s.inForce ∧
    (putPending s).otpRequest = s.otpRequest ∧ (putPending s).heldCommands = s.heldCommands ∧
    (putPending s).crossReads = s.crossReads := by
  unfold putPending
  first | (simp; done) | ((try dsimp only); (repeat' split) <;> first | (simp; done) | simp_all | (repeat' split) <;> simp)

@[simp] theorem withhold_frame (c : Nat) (s : State) :
    (withhold c s).pending = s.pending ∧ (withhold c s).variant = s.variant ∧ (withhold c s).otp = s.otp ∧
    (withhold c s).masters.length = s.masters.length ∧ (withhold c s).cores.channels.length = s.cores.channels.length ∧
    (withhold c s).regs.debugLevel = s.regs.debugLevel ∧ (withhold c s).store.cs = s.store.cs ∧
    (withhold c s).store.csDev = s.store.csDev ∧ (withhold c s).store.granules = s.store.granules ∧
    (withhold c s).pins = s.pins ∧ (withhold c s).stream = s.stream ∧ (withhold c s).power = s.power ∧
    (withhold c s).loader = s.loader ∧ (withhold c s).conservator = s.conservator ∧ (withhold c s).egress = s.egress ∧
    (withhold c s).repair = s.repair ∧ (withhold c s).shadow = s.shadow ∧ (withhold c s).inForce = s.inForce ∧
    (withhold c s).otpRequest = s.otpRequest ∧ (withhold c s).heldCommands = s.heldCommands ∧
    (withhold c s).crossReads = s.crossReads := by
  unfold withhold
  first | (simp; done) | ((try dsimp only); (repeat' split) <;> first | (simp; done) | simp_all | (repeat' split) <;> simp)

@[simp] theorem putLinkState_frame (l : FLink) (v : Nat) (s : State) :
    (putLinkState l v s).pending = s.pending ∧ (putLinkState l v s).variant = s.variant ∧ (putLinkState l v s).otp = s.otp ∧
    (putLinkState l v s).masters.length = s.masters.length ∧
    (putLinkState l v s).cores.channels.length = s.cores.channels.length ∧
    (putLinkState l v s).regs.debugLevel = s.regs.debugLevel ∧ (putLinkState l v s).store.cs = s.store.cs ∧
    (putLinkState l v s).store.csDev = s.store.csDev ∧ (putLinkState l v s).store.granules = s.store.granules ∧
    (putLinkState l v s).pins = s.pins ∧ (putLinkState l v s).stream = s.stream ∧ (putLinkState l v s).power = s.power ∧
    (putLinkState l v s).loader = s.loader ∧ (putLinkState l v s).conservator = s.conservator ∧
    (putLinkState l v s).egress = s.egress ∧ (putLinkState l v s).repair = s.repair ∧
    (putLinkState l v s).shadow = s.shadow ∧ (putLinkState l v s).inForce = s.inForce ∧
    (putLinkState l v s).otpRequest = s.otpRequest ∧ (putLinkState l v s).heldCommands = s.heldCommands ∧
    (putLinkState l v s).crossReads = s.crossReads := by
  unfold putLinkState
  first | (simp; done) | ((try dsimp only); (repeat' split) <;> first | (simp; done) | simp_all | (repeat' split) <;> simp)

@[simp] theorem refreshLinkState_frame (l : FLink) (s : State) :
    (refreshLinkState l s).pending = s.pending ∧ (refreshLinkState l s).variant = s.variant ∧
    (refreshLinkState l s).otp = s.otp ∧ (refreshLinkState l s).masters.length = s.masters.length ∧
    (refreshLinkState l s).cores.channels.length = s.cores.channels.length ∧
    (refreshLinkState l s).regs.debugLevel = s.regs.debugLevel ∧ (refreshLinkState l s).store.cs = s.store.cs ∧
    (refreshLinkState l s).store.csDev = s.store.csDev ∧ (refreshLinkState l s).store.granules = s.store.granules ∧
    (refreshLinkState l s).pins = s.pins ∧ (refreshLinkState l s).stream = s.stream ∧
    (refreshLinkState l s).power = s.power ∧ (refreshLinkState l s).loader = s.loader ∧
    (refreshLinkState l s).conservator = s.conservator ∧ (refreshLinkState l s).egress = s.egress ∧
    (refreshLinkState l s).repair = s.repair ∧ (refreshLinkState l s).shadow = s.shadow ∧
    (refreshLinkState l s).inForce = s.inForce ∧ (refreshLinkState l s).otpRequest = s.otpRequest ∧
    (refreshLinkState l s).heldCommands = s.heldCommands ∧ (refreshLinkState l s).crossReads = s.crossReads := by
  unfold refreshLinkState
  first | (simp; done) | ((try dsimp only); (repeat' split) <;> first | (simp; done) | simp_all | (repeat' split) <;> simp)

@[simp] theorem setRate_frame (l : FLink) (rate34 : Bool) (s : State) :
    (setRate l rate34 s).pending = s.pending ∧ (setRate l rate34 s).variant = s.variant ∧ (setRate l rate34 s).otp = s.otp ∧
    (setRate l rate34 s).masters.length = s.masters.length ∧
    (setRate l rate34 s).cores.channels.length = s.cores.channels.length ∧
    (setRate l rate34 s).regs.debugLevel = s.regs.debugLevel ∧ (setRate l rate34 s).store.cs = s.store.cs ∧
    (setRate l rate34 s).store.csDev = s.store.csDev ∧ (setRate l rate34 s).store.granules = s.store.granules ∧
    (setRate l rate34 s).pins = s.pins ∧ (setRate l rate34 s).stream = s.stream ∧ (setRate l rate34 s).power = s.power ∧
    (setRate l rate34 s).loader = s.loader ∧ (setRate l rate34 s).conservator = s.conservator ∧
    (setRate l rate34 s).egress = s.egress ∧ (setRate l rate34 s).repair = s.repair ∧
    (setRate l rate34 s).shadow = s.shadow ∧ (setRate l rate34 s).inForce = s.inForce ∧
    (setRate l rate34 s).otpRequest = s.otpRequest ∧ (setRate l rate34 s).heldCommands = s.heldCommands ∧
    (setRate l rate34 s).crossReads = s.crossReads := by
  unfold setRate
  first | (simp; done) | ((try dsimp only); (repeat' split) <;> first | (simp; done) | simp_all | (repeat' split) <;> simp)

@[simp] theorem retrainLink_frame (l : FLink) (full : Bool) (s : State) :
    (retrainLink l full s).pending = s.pending ∧ (retrainLink l full s).variant = s.variant ∧
    (retrainLink l full s).otp = s.otp ∧ (retrainLink l full s).masters.length = s.masters.length ∧
    (retrainLink l full s).cores.channels.length = s.cores.channels.length ∧
    (retrainLink l full s).regs.debugLevel = s.regs.debugLevel ∧ (retrainLink l full s).store.cs = s.store.cs ∧
    (retrainLink l full s).store.csDev = s.store.csDev ∧ (retrainLink l full s).store.granules = s.store.granules ∧
    (retrainLink l full s).pins = s.pins ∧ (retrainLink l full s).stream = s.stream ∧
    (retrainLink l full s).power = s.power ∧ (retrainLink l full s).loader = s.loader ∧
    (retrainLink l full s).conservator = s.conservator ∧ (retrainLink l full s).egress = s.egress ∧
    (retrainLink l full s).repair = s.repair ∧ (retrainLink l full s).shadow = s.shadow ∧
    (retrainLink l full s).inForce = s.inForce ∧ (retrainLink l full s).otpRequest = s.otpRequest ∧
    (retrainLink l full s).heldCommands = s.heldCommands ∧ (retrainLink l full s).crossReads = s.crossReads := by
  unfold retrainLink
  first | (simp; done) | ((try dsimp only); (repeat' split) <;> first | (simp; done) | simp_all | (repeat' split) <;> simp)

@[simp] theorem lostCauses_frame (l : FLink) (i : Nat) (s : State) :
    (lostCauses l i s).pending = s.pending ∧ (lostCauses l i s).variant = s.variant ∧ (lostCauses l i s).otp = s.otp ∧
    (lostCauses l i s).masters.length = s.masters.length ∧
    (lostCauses l i s).cores.channels.length = s.cores.channels.length ∧
    (lostCauses l i s).regs.debugLevel = s.regs.debugLevel ∧ (lostCauses l i s).store.cs = s.store.cs ∧
    (lostCauses l i s).store.csDev = s.store.csDev ∧ (lostCauses l i s).store.granules = s.store.granules ∧
    (lostCauses l i s).pins = s.pins ∧ (lostCauses l i s).stream = s.stream ∧ (lostCauses l i s).power = s.power ∧
    (lostCauses l i s).loader = s.loader ∧ (lostCauses l i s).conservator = s.conservator ∧
    (lostCauses l i s).egress = s.egress ∧ (lostCauses l i s).repair = s.repair ∧ (lostCauses l i s).shadow = s.shadow ∧
    (lostCauses l i s).inForce = s.inForce ∧ (lostCauses l i s).otpRequest = s.otpRequest ∧
    (lostCauses l i s).heldCommands = s.heldCommands ∧ (lostCauses l i s).crossReads = s.crossReads := by
  unfold lostCauses
  first | (simp; done) | ((try dsimp only); (repeat' split) <;> first | (simp; done) | simp_all | (repeat' split) <;> simp)

@[simp] theorem losePartner_frame (l : FLink) (i : Nat) (st : LaneState) (s : State) :
    (losePartner l i st s).pending = s.pending ∧ (losePartner l i st s).variant = s.variant ∧
    (losePartner l i st s).otp = s.otp ∧ (losePartner l i st s).masters.length = s.masters.length ∧
    (losePartner l i st s).cores.channels.length = s.cores.channels.length ∧
    (losePartner l i st s).regs.debugLevel = s.regs.debugLevel ∧ (losePartner l i st s).store.cs = s.store.cs ∧
    (losePartner l i st s).store.csDev = s.store.csDev ∧ (losePartner l i st s).store.granules = s.store.granules ∧
    (losePartner l i st s).pins = s.pins ∧ (losePartner l i st s).stream = s.stream ∧
    (losePartner l i st s).power = s.power ∧ (losePartner l i st s).loader = s.loader ∧
    (losePartner l i st s).conservator = s.conservator ∧ (losePartner l i st s).egress = s.egress ∧
    (losePartner l i st s).repair = s.repair ∧ (losePartner l i st s).shadow = s.shadow ∧
    (losePartner l i st s).inForce = s.inForce ∧ (losePartner l i st s).otpRequest = s.otpRequest ∧
    (losePartner l i st s).heldCommands = s.heldCommands ∧ (losePartner l i st s).crossReads = s.crossReads := by
  unfold losePartner
  first | (simp; done) | ((try dsimp only); (repeat' split) <;> first | (simp; done) | simp_all | (repeat' split) <;> simp)

@[simp] theorem holdLane_frame (l : FLink) (i : Nat) (s : State) :
    (holdLane l i s).pending = s.pending ∧ (holdLane l i s).variant = s.variant ∧ (holdLane l i s).otp = s.otp ∧
    (holdLane l i s).masters.length = s.masters.length ∧ (holdLane l i s).cores.channels.length = s.cores.channels.length ∧
    (holdLane l i s).regs.debugLevel = s.regs.debugLevel ∧ (holdLane l i s).store.cs = s.store.cs ∧
    (holdLane l i s).store.csDev = s.store.csDev ∧ (holdLane l i s).store.granules = s.store.granules ∧
    (holdLane l i s).pins = s.pins ∧ (holdLane l i s).stream = s.stream ∧ (holdLane l i s).power = s.power ∧
    (holdLane l i s).loader = s.loader ∧ (holdLane l i s).conservator = s.conservator ∧ (holdLane l i s).egress = s.egress ∧
    (holdLane l i s).repair = s.repair ∧ (holdLane l i s).shadow = s.shadow ∧ (holdLane l i s).inForce = s.inForce ∧
    (holdLane l i s).otpRequest = s.otpRequest ∧ (holdLane l i s).heldCommands = s.heldCommands ∧
    (holdLane l i s).crossReads = s.crossReads := by
  unfold holdLane
  first | (simp; done) | ((try dsimp only); (repeat' split) <;> first | (simp; done) | simp_all | (repeat' split) <;> simp)

@[simp] theorem driftWindows_frame (l : FLink) (i : Nat) (s : State) :
    (driftWindows l i s).pending = s.pending ∧ (driftWindows l i s).variant = s.variant ∧ (driftWindows l i s).otp = s.otp ∧
    (driftWindows l i s).masters.length = s.masters.length ∧
    (driftWindows l i s).cores.channels.length = s.cores.channels.length ∧
    (driftWindows l i s).regs.debugLevel = s.regs.debugLevel ∧ (driftWindows l i s).store.cs = s.store.cs ∧
    (driftWindows l i s).store.csDev = s.store.csDev ∧ (driftWindows l i s).store.granules = s.store.granules ∧
    (driftWindows l i s).pins = s.pins ∧ (driftWindows l i s).stream = s.stream ∧ (driftWindows l i s).power = s.power ∧
    (driftWindows l i s).loader = s.loader ∧ (driftWindows l i s).conservator = s.conservator ∧
    (driftWindows l i s).egress = s.egress ∧ (driftWindows l i s).repair = s.repair ∧
    (driftWindows l i s).shadow = s.shadow ∧ (driftWindows l i s).inForce = s.inForce ∧
    (driftWindows l i s).otpRequest = s.otpRequest ∧ (driftWindows l i s).heldCommands = s.heldCommands ∧
    (driftWindows l i s).crossReads = s.crossReads := by
  unfold driftWindows
  first | (simp; done) | ((try dsimp only); (repeat' split) <;> first | (simp; done) | simp_all | (repeat' split) <;> simp)

@[simp] theorem linkDrift_frame (l : FLink) (s : State) :
    (linkDrift l s).pending = s.pending ∧ (linkDrift l s).variant = s.variant ∧ (linkDrift l s).otp = s.otp ∧
    (linkDrift l s).masters.length = s.masters.length ∧ (linkDrift l s).cores.channels.length = s.cores.channels.length ∧
    (linkDrift l s).regs.debugLevel = s.regs.debugLevel ∧ (linkDrift l s).store.cs = s.store.cs ∧
    (linkDrift l s).store.csDev = s.store.csDev ∧ (linkDrift l s).store.granules = s.store.granules ∧
    (linkDrift l s).pins = s.pins ∧ (linkDrift l s).stream = s.stream ∧ (linkDrift l s).power = s.power ∧
    (linkDrift l s).loader = s.loader ∧ (linkDrift l s).conservator = s.conservator ∧ (linkDrift l s).egress = s.egress ∧
    (linkDrift l s).repair = s.repair ∧ (linkDrift l s).shadow = s.shadow ∧ (linkDrift l s).inForce = s.inForce ∧
    (linkDrift l s).otpRequest = s.otpRequest ∧ (linkDrift l s).heldCommands = s.heldCommands ∧
    (linkDrift l s).crossReads = s.crossReads := by
  unfold linkDrift
  first | (simp; done) | ((try dsimp only); (repeat' split) <;> first | (simp; done) | simp_all | (repeat' split) <;> simp)

@[simp] theorem lostAtIssue_frame (n : DWord) (s : State) :
    (lostAtIssue n s).pending = s.pending ∧ (lostAtIssue n s).variant = s.variant ∧ (lostAtIssue n s).otp = s.otp ∧
    (lostAtIssue n s).masters.length = s.masters.length ∧
    (lostAtIssue n s).cores.channels.length = s.cores.channels.length ∧
    (lostAtIssue n s).regs.debugLevel = s.regs.debugLevel ∧ (lostAtIssue n s).store.cs = s.store.cs ∧
    (lostAtIssue n s).store.csDev = s.store.csDev ∧ (lostAtIssue n s).store.granules = s.store.granules ∧
    (lostAtIssue n s).pins = s.pins ∧ (lostAtIssue n s).stream = s.stream ∧ (lostAtIssue n s).power = s.power ∧
    (lostAtIssue n s).loader = s.loader ∧ (lostAtIssue n s).conservator = s.conservator ∧
    (lostAtIssue n s).egress = s.egress ∧ (lostAtIssue n s).repair = s.repair ∧ (lostAtIssue n s).shadow = s.shadow ∧
    (lostAtIssue n s).inForce = s.inForce ∧ (lostAtIssue n s).otpRequest = s.otpRequest ∧
    (lostAtIssue n s).heldCommands = s.heldCommands ∧ (lostAtIssue n s).crossReads = s.crossReads := by
  unfold lostAtIssue
  first | (simp; done) | ((try dsimp only); (repeat' split) <;> first | (simp; done) | simp_all | (repeat' split) <;> simp)

@[simp] theorem decidePersistent_frame (arg : Nat) (s : State) :
    (decidePersistent arg s).1.pending = s.pending ∧ (decidePersistent arg s).1.variant = s.variant ∧
    (decidePersistent arg s).1.otp = s.otp ∧ (decidePersistent arg s).1.masters.length = s.masters.length ∧
    (decidePersistent arg s).1.cores.channels.length = s.cores.channels.length ∧
    (decidePersistent arg s).1.regs.debugLevel = s.regs.debugLevel ∧ (decidePersistent arg s).1.store.cs = s.store.cs ∧
    (decidePersistent arg s).1.store.csDev = s.store.csDev ∧ (decidePersistent arg s).1.store.granules = s.store.granules ∧
    (decidePersistent arg s).1.pins = s.pins ∧ (decidePersistent arg s).1.stream = s.stream ∧
    (decidePersistent arg s).1.power = s.power ∧ (decidePersistent arg s).1.loader = s.loader ∧
    (decidePersistent arg s).1.conservator = s.conservator ∧ (decidePersistent arg s).1.egress = s.egress ∧
    (decidePersistent arg s).1.repair = s.repair ∧ (decidePersistent arg s).1.shadow = s.shadow ∧
    (decidePersistent arg s).1.inForce = s.inForce ∧ (decidePersistent arg s).1.otpRequest = s.otpRequest ∧
    (decidePersistent arg s).1.heldCommands = s.heldCommands ∧ (decidePersistent arg s).1.crossReads = s.crossReads := by
  unfold decidePersistent
  first | (simp; done) | ((try dsimp only); (repeat' split) <;> first | (simp; done) | simp_all | (repeat' split) <;> simp)

@[simp] theorem setSweep_frame (v : Nat) (s : State) :
    (setSweep v s).pending = s.pending ∧ (setSweep v s).variant = s.variant ∧ (setSweep v s).otp = s.otp ∧
    (setSweep v s).masters.length = s.masters.length ∧ (setSweep v s).cores.channels.length = s.cores.channels.length ∧
    (setSweep v s).regs.debugLevel = s.regs.debugLevel ∧ (setSweep v s).store.cs = s.store.cs ∧
    (setSweep v s).store.csDev = s.store.csDev ∧ (setSweep v s).store.granules = s.store.granules ∧
    (setSweep v s).pins = s.pins ∧ (setSweep v s).stream = s.stream ∧ (setSweep v s).power = s.power ∧
    (setSweep v s).loader = s.loader ∧ (setSweep v s).egress = s.egress ∧ (setSweep v s).repair = s.repair ∧
    (setSweep v s).shadow = s.shadow ∧ (setSweep v s).inForce = s.inForce ∧ (setSweep v s).otpRequest = s.otpRequest ∧
    (setSweep v s).heldCommands = s.heldCommands ∧ (setSweep v s).crossReads = s.crossReads := by
  unfold setSweep
  first | (simp; done) | ((try dsimp only); (repeat' split) <;> first | (simp; done) | simp_all | (repeat' split) <;> simp)

@[simp] theorem refreshStealing_frame  (s : State) :
    (refreshStealing s).pending = s.pending ∧ (refreshStealing s).variant = s.variant ∧ (refreshStealing s).otp = s.otp ∧
    (refreshStealing s).masters.length = s.masters.length ∧
    (refreshStealing s).cores.channels.length = s.cores.channels.length ∧
    (refreshStealing s).regs.debugLevel = s.regs.debugLevel ∧ (refreshStealing s).store.cs = s.store.cs ∧
    (refreshStealing s).store.csDev = s.store.csDev ∧ (refreshStealing s).store.granules = s.store.granules ∧
    (refreshStealing s).pins = s.pins ∧ (refreshStealing s).stream = s.stream ∧ (refreshStealing s).power = s.power ∧
    (refreshStealing s).loader = s.loader ∧ (refreshStealing s).conservator = s.conservator ∧
    (refreshStealing s).egress = s.egress ∧ (refreshStealing s).repair = s.repair ∧ (refreshStealing s).shadow = s.shadow ∧
    (refreshStealing s).inForce = s.inForce ∧ (refreshStealing s).otpRequest = s.otpRequest ∧
    (refreshStealing s).heldCommands = s.heldCommands ∧ (refreshStealing s).crossReads = s.crossReads := by
  unfold refreshStealing
  first | (simp; done) | ((try dsimp only); (repeat' split) <;> first | (simp; done) | simp_all | (repeat' split) <;> simp)

@[simp] theorem decideScrub_frame (d : Decision) (s : State) :
    (decideScrub d s).1.pending = s.pending ∧ (decideScrub d s).1.variant = s.variant ∧ (decideScrub d s).1.otp = s.otp ∧
    (decideScrub d s).1.masters.length = s.masters.length ∧
    (decideScrub d s).1.cores.channels.length = s.cores.channels.length ∧
    (decideScrub d s).1.regs.debugLevel = s.regs.debugLevel ∧ (decideScrub d s).1.store.cs = s.store.cs ∧
    (decideScrub d s).1.store.csDev = s.store.csDev ∧ (decideScrub d s).1.store.granules = s.store.granules ∧
    (decideScrub d s).1.pins = s.pins ∧ (decideScrub d s).1.stream = s.stream ∧ (decideScrub d s).1.power = s.power ∧
    (decideScrub d s).1.loader = s.loader ∧ (decideScrub d s).1.egress = s.egress ∧ (decideScrub d s).1.repair = s.repair ∧
    (decideScrub d s).1.shadow = s.shadow ∧ (decideScrub d s).1.inForce = s.inForce ∧
    (decideScrub d s).1.otpRequest = s.otpRequest ∧ (decideScrub d s).1.heldCommands = s.heldCommands ∧
    (decideScrub d s).1.crossReads = s.crossReads := by
  unfold decideScrub
  first | (simp; done) | ((try dsimp only); (repeat' split) <;> first | (simp; done) | simp_all | (repeat' split) <;> simp)

@[simp] theorem decideOne_frame (d : Decision) (s : State) :
    (decideOne d s).1.pending = s.pending ∧ (decideOne d s).1.variant = s.variant ∧ (decideOne d s).1.otp = s.otp ∧
    (decideOne d s).1.masters.length = s.masters.length ∧
    (decideOne d s).1.cores.channels.length = s.cores.channels.length ∧
    (decideOne d s).1.regs.debugLevel = s.regs.debugLevel ∧ (decideOne d s).1.store.cs = s.store.cs ∧
    (decideOne d s).1.store.csDev = s.store.csDev ∧ (decideOne d s).1.store.granules = s.store.granules ∧
    (decideOne d s).1.pins = s.pins ∧ (decideOne d s).1.stream = s.stream ∧ (decideOne d s).1.power = s.power ∧
    (decideOne d s).1.loader = s.loader ∧ (decideOne d s).1.egress = s.egress ∧ (decideOne d s).1.repair = s.repair ∧
    (decideOne d s).1.shadow = s.shadow ∧ (decideOne d s).1.inForce = s.inForce ∧
    (decideOne d s).1.otpRequest = s.otpRequest ∧ (decideOne d s).1.heldCommands = s.heldCommands ∧
    (decideOne d s).1.crossReads = s.crossReads := by
  unfold decideOne
  first | (simp; done) | ((try dsimp only); (repeat' split) <;> first | (simp; done) | simp_all | (repeat' split) <;> simp)

@[simp] theorem decideAll_frame (ds : List Decision) (s : State) :
    (decideAll ds s).pending = s.pending ∧ (decideAll ds s).variant = s.variant ∧ (decideAll ds s).otp = s.otp ∧
    (decideAll ds s).masters.length = s.masters.length ∧ (decideAll ds s).cores.channels.length = s.cores.channels.length ∧
    (decideAll ds s).regs.debugLevel = s.regs.debugLevel ∧ (decideAll ds s).store.cs = s.store.cs ∧
    (decideAll ds s).store.csDev = s.store.csDev ∧ (decideAll ds s).store.granules = s.store.granules ∧
    (decideAll ds s).pins = s.pins ∧ (decideAll ds s).stream = s.stream ∧ (decideAll ds s).power = s.power ∧
    (decideAll ds s).loader = s.loader ∧ (decideAll ds s).egress = s.egress ∧ (decideAll ds s).repair = s.repair ∧
    (decideAll ds s).shadow = s.shadow ∧ (decideAll ds s).inForce = s.inForce ∧ (decideAll ds s).otpRequest = s.otpRequest ∧
    (decideAll ds s).heldCommands = s.heldCommands ∧ (decideAll ds s).crossReads = s.crossReads := by
  induction ds generalizing s with
  | nil => simp [decideAll]
  | cons _ _ ih => (unfold decideAll; first | (simp [ih]; done) | ((try dsimp only); (repeat' split) <;> first | rfl | (simp [ih]; done)))

@[simp] theorem pendingDecisions_frame  (s : State) :
    (pendingDecisions s).pending = s.pending ∧ (pendingDecisions s).variant = s.variant ∧ (pendingDecisions s).otp = s.otp ∧
    (pendingDecisions s).masters.length = s.masters.length ∧
    (pendingDecisions s).cores.channels.length = s.cores.channels.length ∧
    (pendingDecisions s).regs.debugLevel = s.regs.debugLevel ∧ (pendingDecisions s).store.cs = s.store.cs ∧
    (pendingDecisions s).store.csDev = s.store.csDev ∧ (pendingDecisions s).store.granules = s.store.granules ∧
    (pendingDecisions s).pins = s.pins ∧ (pendingDecisions s).stream = s.stream ∧ (pendingDecisions s).power = s.power ∧
    (pendingDecisions s).loader = s.loader ∧ (pendingDecisions s).egress = s.egress ∧
    (pendingDecisions s).repair = s.repair ∧ (pendingDecisions s).shadow = s.shadow ∧
    (pendingDecisions s).inForce = s.inForce ∧ (pendingDecisions s).otpRequest = s.otpRequest ∧
    (pendingDecisions s).heldCommands = s.heldCommands ∧ (pendingDecisions s).crossReads = s.crossReads := by
  unfold pendingDecisions
  first | (simp; done) | ((try dsimp only); (repeat' split) <;> first | (simp; done) | simp_all | (repeat' split) <;> simp)

@[simp] theorem takeClass_frame (c : Nat) (s : State) :
    (takeClass c s).pending = s.pending ∧ (takeClass c s).variant = s.variant ∧ (takeClass c s).otp = s.otp ∧
    (takeClass c s).masters.length = s.masters.length ∧ (takeClass c s).cores.channels.length = s.cores.channels.length ∧
    (takeClass c s).regs.debugLevel = s.regs.debugLevel ∧ (takeClass c s).store.cs = s.store.cs ∧
    (takeClass c s).store.csDev = s.store.csDev ∧ (takeClass c s).store.granules = s.store.granules ∧
    (takeClass c s).pins = s.pins ∧ (takeClass c s).stream = s.stream ∧ (takeClass c s).power = s.power ∧
    (takeClass c s).loader = s.loader ∧ (takeClass c s).egress = s.egress ∧ (takeClass c s).repair = s.repair ∧
    (takeClass c s).shadow = s.shadow ∧ (takeClass c s).inForce = s.inForce ∧ (takeClass c s).otpRequest = s.otpRequest ∧
    (takeClass c s).heldCommands = s.heldCommands ∧ (takeClass c s).crossReads = s.crossReads := by
  unfold takeClass
  first | (simp; done) | ((try dsimp only); (repeat' split) <;> first | (simp; done) | simp_all | (repeat' split) <;> simp)

@[simp] theorem giveClass_frame (c : Nat) (s : State) :
    (giveClass c s).pending = s.pending ∧ (giveClass c s).variant = s.variant ∧ (giveClass c s).otp = s.otp ∧
    (giveClass c s).masters.length = s.masters.length ∧ (giveClass c s).cores.channels.length = s.cores.channels.length ∧
    (giveClass c s).regs.debugLevel = s.regs.debugLevel ∧ (giveClass c s).store.cs = s.store.cs ∧
    (giveClass c s).store.csDev = s.store.csDev ∧ (giveClass c s).store.granules = s.store.granules ∧
    (giveClass c s).pins = s.pins ∧ (giveClass c s).stream = s.stream ∧ (giveClass c s).power = s.power ∧
    (giveClass c s).loader = s.loader ∧ (giveClass c s).conservator = s.conservator ∧ (giveClass c s).egress = s.egress ∧
    (giveClass c s).repair = s.repair ∧ (giveClass c s).shadow = s.shadow ∧ (giveClass c s).inForce = s.inForce ∧
    (giveClass c s).otpRequest = s.otpRequest ∧ (giveClass c s).heldCommands = s.heldCommands ∧
    (giveClass c s).crossReads = s.crossReads := by
  unfold giveClass
  first | (simp; done) | ((try dsimp only); (repeat' split) <;> first | (simp; done) | simp_all | (repeat' split) <;> simp)

@[simp] theorem moveClass_frame (taken : Bool) (c : Nat) (s : State) :
    (moveClass taken c s).pending = s.pending ∧ (moveClass taken c s).variant = s.variant ∧
    (moveClass taken c s).otp = s.otp ∧ (moveClass taken c s).masters.length = s.masters.length ∧
    (moveClass taken c s).cores.channels.length = s.cores.channels.length ∧
    (moveClass taken c s).regs.debugLevel = s.regs.debugLevel ∧ (moveClass taken c s).store.cs = s.store.cs ∧
    (moveClass taken c s).store.csDev = s.store.csDev ∧ (moveClass taken c s).store.granules = s.store.granules ∧
    (moveClass taken c s).pins = s.pins ∧ (moveClass taken c s).stream = s.stream ∧ (moveClass taken c s).power = s.power ∧
    (moveClass taken c s).loader = s.loader ∧ (moveClass taken c s).egress = s.egress ∧
    (moveClass taken c s).repair = s.repair ∧ (moveClass taken c s).shadow = s.shadow ∧
    (moveClass taken c s).inForce = s.inForce ∧ (moveClass taken c s).otpRequest = s.otpRequest ∧
    (moveClass taken c s).heldCommands = s.heldCommands ∧ (moveClass taken c s).crossReads = s.crossReads := by
  unfold moveClass
  first | (simp; done) | ((try dsimp only); (repeat' split) <;> first | (simp; done) | simp_all | (repeat' split) <;> simp)

@[simp] theorem moveClasses_frame  (s : State) :
    (moveClasses s).pending = s.pending ∧ (moveClasses s).variant = s.variant ∧ (moveClasses s).otp = s.otp ∧
    (moveClasses s).masters.length = s.masters.length ∧ (moveClasses s).cores.channels.length = s.cores.channels.length ∧
    (moveClasses s).regs.debugLevel = s.regs.debugLevel ∧ (moveClasses s).store.cs = s.store.cs ∧
    (moveClasses s).store.csDev = s.store.csDev ∧ (moveClasses s).store.granules = s.store.granules ∧
    (moveClasses s).pins = s.pins ∧ (moveClasses s).stream = s.stream ∧ (moveClasses s).power = s.power ∧
    (moveClasses s).loader = s.loader ∧ (moveClasses s).egress = s.egress ∧ (moveClasses s).repair = s.repair ∧
    (moveClasses s).shadow = s.shadow ∧ (moveClasses s).inForce = s.inForce ∧ (moveClasses s).otpRequest = s.otpRequest ∧
    (moveClasses s).heldCommands = s.heldCommands ∧ (moveClasses s).crossReads = s.crossReads := by
  unfold moveClasses
  first | (simp; done) | ((try dsimp only); (repeat' split) <;> first | (simp; done) | simp_all | (repeat' split) <;> simp)

@[simp] theorem rejoinLanes_frame  (s : State) :
    (rejoinLanes s).pending = s.pending ∧ (rejoinLanes s).variant = s.variant ∧ (rejoinLanes s).otp = s.otp ∧
    (rejoinLanes s).masters.length = s.masters.length ∧ (rejoinLanes s).cores.channels.length = s.cores.channels.length ∧
    (rejoinLanes s).regs.debugLevel = s.regs.debugLevel ∧ (rejoinLanes s).store.cs = s.store.cs ∧
    (rejoinLanes s).store.csDev = s.store.csDev ∧ (rejoinLanes s).store.granules = s.store.granules ∧
    (rejoinLanes s).pins = s.pins ∧ (rejoinLanes s).stream = s.stream ∧ (rejoinLanes s).power = s.power ∧
    (rejoinLanes s).loader = s.loader ∧ (rejoinLanes s).conservator = s.conservator ∧ (rejoinLanes s).egress = s.egress ∧
    (rejoinLanes s).repair = s.repair ∧ (rejoinLanes s).shadow = s.shadow ∧ (rejoinLanes s).inForce = s.inForce ∧
    (rejoinLanes s).otpRequest = s.otpRequest ∧ (rejoinLanes s).heldCommands = s.heldCommands ∧
    (rejoinLanes s).crossReads = s.crossReads := by
  unfold rejoinLanes
  first | (simp; done) | ((try dsimp only); (repeat' split) <;> first | (simp; done) | simp_all | (repeat' split) <;> simp)

@[simp] theorem repairBoundary_frame  (s : State) :
    (repairBoundary s).pending = s.pending ∧ (repairBoundary s).variant = s.variant ∧ (repairBoundary s).otp = s.otp ∧
    (repairBoundary s).masters.length = s.masters.length ∧
    (repairBoundary s).cores.channels.length = s.cores.channels.length ∧
    (repairBoundary s).regs.debugLevel = s.regs.debugLevel ∧ (repairBoundary s).store.cs = s.store.cs ∧
    (repairBoundary s).store.csDev = s.store.csDev ∧ (repairBoundary s).store.granules = s.store.granules ∧
    (repairBoundary s).pins = s.pins ∧ (repairBoundary s).stream = s.stream ∧ (repairBoundary s).power = s.power ∧
    (repairBoundary s).loader = s.loader ∧ (repairBoundary s).conservator = s.conservator ∧
    (repairBoundary s).egress = s.egress ∧ (repairBoundary s).shadow = s.shadow ∧ (repairBoundary s).inForce = s.inForce ∧
    (repairBoundary s).otpRequest = s.otpRequest ∧ (repairBoundary s).heldCommands = s.heldCommands ∧
    (repairBoundary s).crossReads = s.crossReads := by
  unfold repairBoundary
  first | (simp; done) | ((try dsimp only); (repeat' split) <;> first | (simp; done) | simp_all | (repeat' split) <;> simp)

@[simp] theorem conservatorHold_frame  (s : State) :
    (conservatorHold s).pending = s.pending ∧ (conservatorHold s).variant = s.variant ∧ (conservatorHold s).otp = s.otp ∧
    (conservatorHold s).masters.length = s.masters.length ∧
    (conservatorHold s).cores.channels.length = s.cores.channels.length ∧
    (conservatorHold s).regs.debugLevel = s.regs.debugLevel ∧ (conservatorHold s).store.cs = s.store.cs ∧
    (conservatorHold s).store.csDev = s.store.csDev ∧ (conservatorHold s).store.granules = s.store.granules ∧
    (conservatorHold s).pins = s.pins ∧ (conservatorHold s).stream = s.stream ∧ (conservatorHold s).power = s.power ∧
    (conservatorHold s).loader = s.loader ∧ (conservatorHold s).egress = s.egress ∧ (conservatorHold s).repair = s.repair ∧
    (conservatorHold s).shadow = s.shadow ∧ (conservatorHold s).inForce = s.inForce ∧
    (conservatorHold s).otpRequest = s.otpRequest ∧ (conservatorHold s).heldCommands = s.heldCommands ∧
    (conservatorHold s).crossReads = s.crossReads := by
  unfold conservatorHold
  first | (simp; done) | ((try dsimp only); (repeat' split) <;> first | (simp; done) | simp_all | (repeat' split) <;> simp)

@[simp] theorem boundaryWork_frame  (s : State) :
    (boundaryWork s).pending = s.pending ∧ (boundaryWork s).variant = s.variant ∧ (boundaryWork s).otp = s.otp ∧
    (boundaryWork s).masters.length = s.masters.length ∧ (boundaryWork s).cores.channels.length = s.cores.channels.length ∧
    (boundaryWork s).regs.debugLevel = s.regs.debugLevel ∧ (boundaryWork s).store.cs = s.store.cs ∧
    (boundaryWork s).store.csDev = s.store.csDev ∧ (boundaryWork s).store.granules = s.store.granules ∧
    (boundaryWork s).pins = s.pins ∧ (boundaryWork s).stream = s.stream ∧ (boundaryWork s).power = s.power ∧
    (boundaryWork s).loader = s.loader ∧ (boundaryWork s).egress = s.egress ∧ (boundaryWork s).shadow = s.shadow ∧
    (boundaryWork s).inForce = s.inForce ∧ (boundaryWork s).otpRequest = s.otpRequest ∧
    (boundaryWork s).heldCommands = s.heldCommands ∧ (boundaryWork s).crossReads = s.crossReads := by
  unfold boundaryWork
  first | (simp; done) | ((try dsimp only); (repeat' split) <;> first | (simp; done) | simp_all | (repeat' split) <;> simp)

@[simp] theorem applyThrottle_frame  (s : State) :
    (applyThrottle s).pending = s.pending ∧ (applyThrottle s).variant = s.variant ∧ (applyThrottle s).otp = s.otp ∧
    (applyThrottle s).masters.length = s.masters.length ∧
    (applyThrottle s).cores.channels.length = s.cores.channels.length ∧
    (applyThrottle s).regs.debugLevel = s.regs.debugLevel ∧ (applyThrottle s).store.cs = s.store.cs ∧
    (applyThrottle s).store.csDev = s.store.csDev ∧ (applyThrottle s).store.granules = s.store.granules ∧
    (applyThrottle s).pins = s.pins ∧ (applyThrottle s).stream = s.stream ∧ (applyThrottle s).power = s.power ∧
    (applyThrottle s).loader = s.loader ∧ (applyThrottle s).conservator = s.conservator ∧
    (applyThrottle s).egress = s.egress ∧ (applyThrottle s).repair = s.repair ∧ (applyThrottle s).shadow = s.shadow ∧
    (applyThrottle s).inForce = s.inForce ∧ (applyThrottle s).otpRequest = s.otpRequest ∧
    (applyThrottle s).heldCommands = s.heldCommands ∧ (applyThrottle s).crossReads = s.crossReads := by
  unfold applyThrottle
  first | (simp; done) | ((try dsimp only); (repeat' split) <;> first | (simp; done) | simp_all | (repeat' split) <;> simp)

@[simp] theorem settleThrottle_frame  (s : State) :
    (settleThrottle s).pending = s.pending ∧ (settleThrottle s).variant = s.variant ∧ (settleThrottle s).otp = s.otp ∧
    (settleThrottle s).masters.length = s.masters.length ∧
    (settleThrottle s).cores.channels.length = s.cores.channels.length ∧
    (settleThrottle s).regs.debugLevel = s.regs.debugLevel ∧ (settleThrottle s).store.cs = s.store.cs ∧
    (settleThrottle s).store.csDev = s.store.csDev ∧ (settleThrottle s).store.granules = s.store.granules ∧
    (settleThrottle s).pins = s.pins ∧ (settleThrottle s).stream = s.stream ∧ (settleThrottle s).power = s.power ∧
    (settleThrottle s).loader = s.loader ∧ (settleThrottle s).conservator = s.conservator ∧
    (settleThrottle s).egress = s.egress ∧ (settleThrottle s).repair = s.repair ∧ (settleThrottle s).shadow = s.shadow ∧
    (settleThrottle s).inForce = s.inForce ∧ (settleThrottle s).otpRequest = s.otpRequest ∧
    (settleThrottle s).heldCommands = s.heldCommands ∧ (settleThrottle s).crossReads = s.crossReads := by
  unfold settleThrottle
  first | (simp; done) | ((try dsimp only); (repeat' split) <;> first | (simp; done) | simp_all | (repeat' split) <;> simp)

@[simp] theorem settle_frame  (s : State) :
    (settle s).pending = s.pending ∧ (settle s).variant = s.variant ∧ (settle s).otp = s.otp ∧
    (settle s).masters.length = s.masters.length ∧ (settle s).cores.channels.length = s.cores.channels.length ∧
    (settle s).regs.debugLevel = s.regs.debugLevel ∧ (settle s).store.cs = s.store.cs ∧
    (settle s).store.csDev = s.store.csDev ∧ (settle s).store.granules = s.store.granules ∧ (settle s).pins = s.pins ∧
    (settle s).stream = s.stream ∧ (settle s).power = s.power ∧ (settle s).loader = s.loader ∧
    (settle s).egress = s.egress ∧ (settle s).shadow = s.shadow ∧ (settle s).inForce = s.inForce ∧
    (settle s).otpRequest = s.otpRequest ∧ (settle s).heldCommands = s.heldCommands ∧ (settle s).crossReads = s.crossReads := by
  unfold settle
  first | (simp; done) | ((try dsimp only); (repeat' split) <;> first | (simp; done) | simp_all | (repeat' split) <;> simp)

@[simp] theorem recordReadEffects_frame (n : DWord) (a len : Nat) (s : State) :
    (recordReadEffects n a len s).pending = s.pending ∧ (recordReadEffects n a len s).variant = s.variant ∧
    (recordReadEffects n a len s).otp = s.otp ∧ (recordReadEffects n a len s).masters.length = s.masters.length ∧
    (recordReadEffects n a len s).cores.channels.length = s.cores.channels.length ∧
    (recordReadEffects n a len s).regs.debugLevel = s.regs.debugLevel ∧ (recordReadEffects n a len s).pins = s.pins ∧
    (recordReadEffects n a len s).stream = s.stream ∧ (recordReadEffects n a len s).power = s.power ∧
    (recordReadEffects n a len s).loader = s.loader ∧ (recordReadEffects n a len s).conservator = s.conservator ∧
    (recordReadEffects n a len s).egress = s.egress ∧ (recordReadEffects n a len s).repair = s.repair ∧
    (recordReadEffects n a len s).shadow = s.shadow ∧ (recordReadEffects n a len s).inForce = s.inForce ∧
    (recordReadEffects n a len s).otpRequest = s.otpRequest ∧ (recordReadEffects n a len s).heldCommands = s.heldCommands ∧
    (recordReadEffects n a len s).crossReads = s.crossReads := by
  unfold recordReadEffects
  first | (simp; done) | ((try dsimp only); (repeat' split) <;> first | (simp; done) | simp_all | (repeat' split) <;> simp)

@[simp] theorem badDescriptor_frame  (s : State) :
    (badDescriptor s).pending = s.pending ∧ (badDescriptor s).variant = s.variant ∧ (badDescriptor s).otp = s.otp ∧
    (badDescriptor s).masters.length = s.masters.length ∧
    (badDescriptor s).cores.channels.length = s.cores.channels.length ∧
    (badDescriptor s).regs.debugLevel = s.regs.debugLevel ∧ (badDescriptor s).store.cs = s.store.cs ∧
    (badDescriptor s).store.csDev = s.store.csDev ∧ (badDescriptor s).store.granules = s.store.granules ∧
    (badDescriptor s).pins = s.pins ∧ (badDescriptor s).stream = s.stream ∧ (badDescriptor s).power = s.power ∧
    (badDescriptor s).loader = s.loader ∧ (badDescriptor s).conservator = s.conservator ∧
    (badDescriptor s).egress = s.egress ∧ (badDescriptor s).repair = s.repair ∧ (badDescriptor s).shadow = s.shadow ∧
    (badDescriptor s).inForce = s.inForce ∧ (badDescriptor s).otpRequest = s.otpRequest ∧
    (badDescriptor s).heldCommands = s.heldCommands ∧ (badDescriptor s).crossReads = s.crossReads := by
  unfold badDescriptor
  first | (simp; done) | ((try dsimp only); (repeat' split) <;> first | (simp; done) | simp_all | (repeat' split) <;> simp)

@[simp] theorem takeBatch_frame (d : Descriptor) (bad : Bool) (s : State) :
    (takeBatch d bad s).pending = s.pending ∧ (takeBatch d bad s).variant = s.variant ∧ (takeBatch d bad s).otp = s.otp ∧
    (takeBatch d bad s).masters.length = s.masters.length ∧
    (takeBatch d bad s).cores.channels.length = s.cores.channels.length ∧
    (takeBatch d bad s).regs.debugLevel = s.regs.debugLevel ∧ (takeBatch d bad s).store.cs = s.store.cs ∧
    (takeBatch d bad s).store.csDev = s.store.csDev ∧ (takeBatch d bad s).store.granules = s.store.granules ∧
    (takeBatch d bad s).pins = s.pins ∧ (takeBatch d bad s).power = s.power ∧ (takeBatch d bad s).loader = s.loader ∧
    (takeBatch d bad s).conservator = s.conservator ∧ (takeBatch d bad s).egress = s.egress ∧
    (takeBatch d bad s).repair = s.repair ∧ (takeBatch d bad s).shadow = s.shadow ∧
    (takeBatch d bad s).inForce = s.inForce ∧ (takeBatch d bad s).otpRequest = s.otpRequest ∧
    (takeBatch d bad s).heldCommands = s.heldCommands ∧ (takeBatch d bad s).crossReads = s.crossReads := by
  unfold takeBatch
  first | (simp; done) | ((try dsimp only); (repeat' split) <;> first | (simp; done) | simp_all | (repeat' split) <;> simp)

@[simp] theorem fetchDescriptor_frame  (s : State) :
    (fetchDescriptor s).pending = s.pending ∧ (fetchDescriptor s).variant = s.variant ∧ (fetchDescriptor s).otp = s.otp ∧
    (fetchDescriptor s).masters.length = s.masters.length ∧
    (fetchDescriptor s).cores.channels.length = s.cores.channels.length ∧
    (fetchDescriptor s).regs.debugLevel = s.regs.debugLevel ∧ (fetchDescriptor s).pins = s.pins ∧
    (fetchDescriptor s).power = s.power ∧ (fetchDescriptor s).loader = s.loader ∧
    (fetchDescriptor s).conservator = s.conservator ∧ (fetchDescriptor s).egress = s.egress ∧
    (fetchDescriptor s).repair = s.repair ∧ (fetchDescriptor s).shadow = s.shadow ∧
    (fetchDescriptor s).inForce = s.inForce ∧ (fetchDescriptor s).otpRequest = s.otpRequest ∧
    (fetchDescriptor s).heldCommands = s.heldCommands ∧ (fetchDescriptor s).crossReads = s.crossReads := by
  unfold fetchDescriptor
  first | (simp; done) | ((try dsimp only); (repeat' split) <;> first | (simp; done) | simp_all | (repeat' split) <;> simp)

@[simp] theorem issueBatch_frame (d : Docent) (n : DWord) (s : State) :
    (issueBatch d n s).pending = s.pending ∧ (issueBatch d n s).variant = s.variant ∧ (issueBatch d n s).otp = s.otp ∧
    (issueBatch d n s).masters.length = s.masters.length ∧
    (issueBatch d n s).cores.channels.length = s.cores.channels.length ∧
    (issueBatch d n s).regs.debugLevel = s.regs.debugLevel ∧ (issueBatch d n s).store.cs = s.store.cs ∧
    (issueBatch d n s).store.csDev = s.store.csDev ∧ (issueBatch d n s).store.granules = s.store.granules ∧
    (issueBatch d n s).pins = s.pins ∧ (issueBatch d n s).stream = s.stream ∧ (issueBatch d n s).power = s.power ∧
    (issueBatch d n s).loader = s.loader ∧ (issueBatch d n s).conservator = s.conservator ∧
    (issueBatch d n s).egress = s.egress ∧ (issueBatch d n s).repair = s.repair ∧ (issueBatch d n s).shadow = s.shadow ∧
    (issueBatch d n s).inForce = s.inForce ∧ (issueBatch d n s).otpRequest = s.otpRequest ∧
    (issueBatch d n s).heldCommands = s.heldCommands ∧ (issueBatch d n s).crossReads = s.crossReads := by
  unfold issueBatch
  first | (simp; done) | ((try dsimp only); (repeat' split) <;> first | (simp; done) | simp_all | (repeat' split) <;> simp)

@[simp] theorem announce_frame (n : DWord) (s : State) :
    (announce n s).pending = s.pending ∧ (announce n s).variant = s.variant ∧ (announce n s).otp = s.otp ∧
    (announce n s).masters.length = s.masters.length ∧ (announce n s).cores.channels.length = s.cores.channels.length ∧
    (announce n s).regs.debugLevel = s.regs.debugLevel ∧ (announce n s).store.cs = s.store.cs ∧
    (announce n s).store.csDev = s.store.csDev ∧ (announce n s).store.granules = s.store.granules ∧
    (announce n s).pins = s.pins ∧ (announce n s).stream = s.stream ∧ (announce n s).power = s.power ∧
    (announce n s).loader = s.loader ∧ (announce n s).conservator = s.conservator ∧ (announce n s).egress = s.egress ∧
    (announce n s).repair = s.repair ∧ (announce n s).shadow = s.shadow ∧ (announce n s).inForce = s.inForce ∧
    (announce n s).otpRequest = s.otpRequest ∧ (announce n s).heldCommands = s.heldCommands ∧
    (announce n s).crossReads = s.crossReads := by
  unfold announce
  first | (simp; done) | ((try dsimp only); (repeat' split) <;> first | (simp; done) | simp_all | (repeat' split) <;> simp)

@[simp] theorem afterIssue_frame (n : DWord) (s : State) :
    (afterIssue n s).pending = s.pending ∧ (afterIssue n s).variant = s.variant ∧ (afterIssue n s).otp = s.otp ∧
    (afterIssue n s).masters.length = s.masters.length ∧ (afterIssue n s).cores.channels.length = s.cores.channels.length ∧
    (afterIssue n s).regs.debugLevel = s.regs.debugLevel ∧ (afterIssue n s).store.cs = s.store.cs ∧
    (afterIssue n s).store.csDev = s.store.csDev ∧ (afterIssue n s).store.granules = s.store.granules ∧
    (afterIssue n s).pins = s.pins ∧ (afterIssue n s).stream = s.stream ∧ (afterIssue n s).power = s.power ∧
    (afterIssue n s).loader = s.loader ∧ (afterIssue n s).conservator = s.conservator ∧ (afterIssue n s).egress = s.egress ∧
    (afterIssue n s).repair = s.repair ∧ (afterIssue n s).shadow = s.shadow ∧ (afterIssue n s).inForce = s.inForce ∧
    (afterIssue n s).otpRequest = s.otpRequest ∧ (afterIssue n s).heldCommands = s.heldCommands ∧
    (afterIssue n s).crossReads = s.crossReads := by
  unfold afterIssue
  first | (simp; done) | ((try dsimp only); (repeat' split) <;> first | (simp; done) | simp_all | (repeat' split) <;> simp)

@[simp] theorem fillOne_frame (b : Batch) (p : Nat × Nat) (s : State) :
    (fillOne b p s).pending = s.pending ∧ (fillOne b p s).variant = s.variant ∧ (fillOne b p s).otp = s.otp ∧
    (fillOne b p s).masters.length = s.masters.length ∧ (fillOne b p s).cores.channels.length = s.cores.channels.length ∧
    (fillOne b p s).regs.debugLevel = s.regs.debugLevel ∧ (fillOne b p s).pins = s.pins ∧
    (fillOne b p s).stream = s.stream ∧ (fillOne b p s).power = s.power ∧ (fillOne b p s).loader = s.loader ∧
    (fillOne b p s).conservator = s.conservator ∧ (fillOne b p s).egress = s.egress ∧ (fillOne b p s).repair = s.repair ∧
    (fillOne b p s).shadow = s.shadow ∧ (fillOne b p s).inForce = s.inForce ∧ (fillOne b p s).otpRequest = s.otpRequest ∧
    (fillOne b p s).heldCommands = s.heldCommands ∧ (fillOne b p s).crossReads = s.crossReads := by
  unfold fillOne
  first | (simp; done) | ((try dsimp only); (repeat' split) <;> first | (simp; done) | simp_all | (repeat' split) <;> simp)

@[simp] theorem fillWords_frame (n : Nat) (s : State) :
    (fillWords n s).pending = s.pending ∧ (fillWords n s).variant = s.variant ∧ (fillWords n s).otp = s.otp ∧
    (fillWords n s).masters.length = s.masters.length ∧ (fillWords n s).cores.channels.length = s.cores.channels.length ∧
    (fillWords n s).regs.debugLevel = s.regs.debugLevel ∧ (fillWords n s).pins = s.pins ∧
    (fillWords n s).stream = s.stream ∧ (fillWords n s).power = s.power ∧ (fillWords n s).loader = s.loader ∧
    (fillWords n s).conservator = s.conservator ∧ (fillWords n s).egress = s.egress ∧ (fillWords n s).repair = s.repair ∧
    (fillWords n s).shadow = s.shadow ∧ (fillWords n s).inForce = s.inForce ∧ (fillWords n s).otpRequest = s.otpRequest ∧
    (fillWords n s).heldCommands = s.heldCommands ∧ (fillWords n s).crossReads = s.crossReads := by
  induction n generalizing s with
  | zero => simp [fillWords]
  | succ _ ih => (unfold fillWords; first | (simp [ih]; done) | ((try dsimp only); (repeat' split) <;> first | rfl | (simp [ih]; done)))

@[simp] theorem beginBurst_frame (b : Batch) (s : State) :
    (beginBurst b s).pending = s.pending ∧ (beginBurst b s).variant = s.variant ∧ (beginBurst b s).otp = s.otp ∧
    (beginBurst b s).masters.length = s.masters.length ∧ (beginBurst b s).cores.channels.length = s.cores.channels.length ∧
    (beginBurst b s).regs.debugLevel = s.regs.debugLevel ∧ (beginBurst b s).pins = s.pins ∧
    (beginBurst b s).stream = s.stream ∧ (beginBurst b s).loader = s.loader ∧ (beginBurst b s).conservator = s.conservator ∧
    (beginBurst b s).egress = s.egress ∧ (beginBurst b s).repair = s.repair ∧ (beginBurst b s).shadow = s.shadow ∧
    (beginBurst b s).inForce = s.inForce ∧ (beginBurst b s).otpRequest = s.otpRequest ∧
    (beginBurst b s).heldCommands = s.heldCommands ∧ (beginBurst b s).crossReads = s.crossReads := by
  unfold beginBurst
  first | (simp; done) | ((try dsimp only); (repeat' split) <;> first | (simp; done) | simp_all | (repeat' split) <;> simp)

@[simp] theorem validClear_frame (b : Batch) (s : State) :
    (validClear b s).pending = s.pending ∧ (validClear b s).variant = s.variant ∧ (validClear b s).otp = s.otp ∧
    (validClear b s).masters.length = s.masters.length ∧ (validClear b s).cores.channels.length = s.cores.channels.length ∧
    (validClear b s).regs.debugLevel = s.regs.debugLevel ∧ (validClear b s).store.cs = s.store.cs ∧
    (validClear b s).store.csDev = s.store.csDev ∧ (validClear b s).store.granules = s.store.granules ∧
    (validClear b s).pins = s.pins ∧ (validClear b s).stream = s.stream ∧ (validClear b s).loader = s.loader ∧
    (validClear b s).conservator = s.conservator ∧ (validClear b s).egress = s.egress ∧ (validClear b s).repair = s.repair ∧
    (validClear b s).shadow = s.shadow ∧ (validClear b s).inForce = s.inForce ∧ (validClear b s).otpRequest = s.otpRequest ∧
    (validClear b s).heldCommands = s.heldCommands ∧ (validClear b s).crossReads = s.crossReads := by
  unfold validClear
  first | (simp; done) | ((try dsimp only); (repeat' split) <;> first | (simp; done) | simp_all | (repeat' split) <;> simp)

@[simp] theorem addRows_frame (rs : List RowDue) (s : State) :
    (addRows rs s).pending = s.pending ∧ (addRows rs s).variant = s.variant ∧ (addRows rs s).otp = s.otp ∧
    (addRows rs s).masters.length = s.masters.length ∧ (addRows rs s).cores.channels.length = s.cores.channels.length ∧
    (addRows rs s).regs.debugLevel = s.regs.debugLevel ∧ (addRows rs s).store.cs = s.store.cs ∧
    (addRows rs s).store.csDev = s.store.csDev ∧ (addRows rs s).store.granules = s.store.granules ∧
    (addRows rs s).pins = s.pins ∧ (addRows rs s).stream = s.stream ∧ (addRows rs s).power = s.power ∧
    (addRows rs s).loader = s.loader ∧ (addRows rs s).conservator = s.conservator ∧ (addRows rs s).egress = s.egress ∧
    (addRows rs s).repair = s.repair ∧ (addRows rs s).shadow = s.shadow ∧ (addRows rs s).inForce = s.inForce ∧
    (addRows rs s).otpRequest = s.otpRequest ∧ (addRows rs s).heldCommands = s.heldCommands ∧
    (addRows rs s).crossReads = s.crossReads := by
  unfold addRows
  first | (simp; done) | ((try dsimp only); (repeat' split) <;> first | (simp; done) | simp_all | (repeat' split) <;> simp)

@[simp] theorem egressEnter_frame  (s : State) :
    (egressEnter s).pending = s.pending ∧ (egressEnter s).variant = s.variant ∧ (egressEnter s).otp = s.otp ∧
    (egressEnter s).masters.length = s.masters.length ∧ (egressEnter s).cores.channels.length = s.cores.channels.length ∧
    (egressEnter s).regs.debugLevel = s.regs.debugLevel ∧ (egressEnter s).store.cs = s.store.cs ∧
    (egressEnter s).store.csDev = s.store.csDev ∧ (egressEnter s).store.granules = s.store.granules ∧
    (egressEnter s).pins = s.pins ∧ (egressEnter s).stream = s.stream ∧ (egressEnter s).power = s.power ∧
    (egressEnter s).loader = s.loader ∧ (egressEnter s).conservator = s.conservator ∧ (egressEnter s).repair = s.repair ∧
    (egressEnter s).shadow = s.shadow ∧ (egressEnter s).inForce = s.inForce ∧ (egressEnter s).otpRequest = s.otpRequest ∧
    (egressEnter s).heldCommands = s.heldCommands ∧ (egressEnter s).crossReads = s.crossReads := by
  unfold egressEnter
  first | (simp; done) | ((try dsimp only); (repeat' split) <;> first | (simp; done) | simp_all | (repeat' split) <;> simp)

@[simp] theorem egressFinish_frame (b : Batch) (s : State) :
    (egressFinish b s).pending = s.pending ∧ (egressFinish b s).variant = s.variant ∧ (egressFinish b s).otp = s.otp ∧
    (egressFinish b s).masters.length = s.masters.length ∧
    (egressFinish b s).cores.channels.length = s.cores.channels.length ∧
    (egressFinish b s).regs.debugLevel = s.regs.debugLevel ∧ (egressFinish b s).store.cs = s.store.cs ∧
    (egressFinish b s).store.csDev = s.store.csDev ∧ (egressFinish b s).store.granules = s.store.granules ∧
    (egressFinish b s).pins = s.pins ∧ (egressFinish b s).stream = s.stream ∧ (egressFinish b s).power = s.power ∧
    (egressFinish b s).loader = s.loader ∧ (egressFinish b s).conservator = s.conservator ∧
    (egressFinish b s).repair = s.repair ∧ (egressFinish b s).shadow = s.shadow ∧ (egressFinish b s).inForce = s.inForce ∧
    (egressFinish b s).otpRequest = s.otpRequest ∧ (egressFinish b s).heldCommands = s.heldCommands ∧
    (egressFinish b s).crossReads = s.crossReads := by
  unfold egressFinish
  first | (simp; done) | ((try dsimp only); (repeat' split) <;> first | (simp; done) | simp_all | (repeat' split) <;> simp)

@[simp] theorem afterGap_frame (b : Batch) (s : State) :
    (afterGap b s).pending = s.pending ∧ (afterGap b s).variant = s.variant ∧ (afterGap b s).otp = s.otp ∧
    (afterGap b s).masters.length = s.masters.length ∧ (afterGap b s).cores.channels.length = s.cores.channels.length ∧
    (afterGap b s).regs.debugLevel = s.regs.debugLevel ∧ (afterGap b s).store.cs = s.store.cs ∧
    (afterGap b s).store.csDev = s.store.csDev ∧ (afterGap b s).store.granules = s.store.granules ∧
    (afterGap b s).pins = s.pins ∧ (afterGap b s).stream = s.stream ∧ (afterGap b s).power = s.power ∧
    (afterGap b s).loader = s.loader ∧ (afterGap b s).conservator = s.conservator ∧ (afterGap b s).repair = s.repair ∧
    (afterGap b s).shadow = s.shadow ∧ (afterGap b s).inForce = s.inForce ∧ (afterGap b s).otpRequest = s.otpRequest ∧
    (afterGap b s).heldCommands = s.heldCommands ∧ (afterGap b s).crossReads = s.crossReads := by
  unfold afterGap
  first | (simp; done) | ((try dsimp only); (repeat' split) <;> first | (simp; done) | simp_all | (repeat' split) <;> simp)

@[simp] theorem egressAdvance_frame  (s : State) :
    (egressAdvance s).pending = s.pending ∧ (egressAdvance s).variant = s.variant ∧ (egressAdvance s).otp = s.otp ∧
    (egressAdvance s).masters.length = s.masters.length ∧
    (egressAdvance s).cores.channels.length = s.cores.channels.length ∧
    (egressAdvance s).regs.debugLevel = s.regs.debugLevel ∧ (egressAdvance s).store.cs = s.store.cs ∧
    (egressAdvance s).store.csDev = s.store.csDev ∧ (egressAdvance s).store.granules = s.store.granules ∧
    (egressAdvance s).pins = s.pins ∧ (egressAdvance s).stream = s.stream ∧ (egressAdvance s).power = s.power ∧
    (egressAdvance s).loader = s.loader ∧ (egressAdvance s).conservator = s.conservator ∧
    (egressAdvance s).repair = s.repair ∧ (egressAdvance s).shadow = s.shadow ∧ (egressAdvance s).inForce = s.inForce ∧
    (egressAdvance s).otpRequest = s.otpRequest ∧ (egressAdvance s).heldCommands = s.heldCommands ∧
    (egressAdvance s).crossReads = s.crossReads := by
  unfold egressAdvance
  first | (simp; done) | ((try dsimp only); (repeat' split) <;> first | (simp; done) | simp_all | (repeat' split) <;> simp)

@[simp] theorem shiftRows_frame  (s : State) :
    (shiftRows s).pending = s.pending ∧ (shiftRows s).variant = s.variant ∧ (shiftRows s).otp = s.otp ∧
    (shiftRows s).masters.length = s.masters.length ∧ (shiftRows s).cores.channels.length = s.cores.channels.length ∧
    (shiftRows s).regs.debugLevel = s.regs.debugLevel ∧ (shiftRows s).store.cs = s.store.cs ∧
    (shiftRows s).store.csDev = s.store.csDev ∧ (shiftRows s).store.granules = s.store.granules ∧
    (shiftRows s).pins = s.pins ∧ (shiftRows s).stream = s.stream ∧ (shiftRows s).power = s.power ∧
    (shiftRows s).loader = s.loader ∧ (shiftRows s).conservator = s.conservator ∧ (shiftRows s).repair = s.repair ∧
    (shiftRows s).shadow = s.shadow ∧ (shiftRows s).inForce = s.inForce ∧ (shiftRows s).otpRequest = s.otpRequest ∧
    (shiftRows s).heldCommands = s.heldCommands ∧ (shiftRows s).crossReads = s.crossReads := by
  unfold shiftRows
  first | (simp; done) | ((try dsimp only); (repeat' split) <;> first | (simp; done) | simp_all | (repeat' split) <;> simp)

@[simp] theorem beginEgress_frame (b : Batch) (s : State) :
    (beginEgress b s).pending = s.pending ∧ (beginEgress b s).variant = s.variant ∧ (beginEgress b s).otp = s.otp ∧
    (beginEgress b s).masters.length = s.masters.length ∧
    (beginEgress b s).cores.channels.length = s.cores.channels.length ∧
    (beginEgress b s).regs.debugLevel = s.regs.debugLevel ∧ (beginEgress b s).store.cs = s.store.cs ∧
    (beginEgress b s).store.csDev = s.store.csDev ∧ (beginEgress b s).store.granules = s.store.granules ∧
    (beginEgress b s).pins = s.pins ∧ (beginEgress b s).stream = s.stream ∧ (beginEgress b s).power = s.power ∧
    (beginEgress b s).loader = s.loader ∧ (beginEgress b s).conservator = s.conservator ∧
    (beginEgress b s).repair = s.repair ∧ (beginEgress b s).shadow = s.shadow ∧ (beginEgress b s).inForce = s.inForce ∧
    (beginEgress b s).otpRequest = s.otpRequest ∧ (beginEgress b s).heldCommands = s.heldCommands ∧
    (beginEgress b s).crossReads = s.crossReads := by
  unfold beginEgress
  first | (simp; done) | ((try dsimp only); (repeat' split) <;> first | (simp; done) | simp_all | (repeat' split) <;> simp)

@[simp] theorem takeLink_frame (l : FLink) (s : State) :
    (takeLink l s).pending = s.pending ∧ (takeLink l s).variant = s.variant ∧ (takeLink l s).otp = s.otp ∧
    (takeLink l s).masters.length = s.masters.length ∧ (takeLink l s).cores.channels.length = s.cores.channels.length ∧
    (takeLink l s).regs.debugLevel = s.regs.debugLevel ∧ (takeLink l s).store.cs = s.store.cs ∧
    (takeLink l s).store.csDev = s.store.csDev ∧ (takeLink l s).store.granules = s.store.granules ∧
    (takeLink l s).pins = s.pins ∧ (takeLink l s).stream = s.stream ∧ (takeLink l s).power = s.power ∧
    (takeLink l s).loader = s.loader ∧ (takeLink l s).conservator = s.conservator ∧ (takeLink l s).repair = s.repair ∧
    (takeLink l s).shadow = s.shadow ∧ (takeLink l s).inForce = s.inForce ∧ (takeLink l s).otpRequest = s.otpRequest ∧
    (takeLink l s).heldCommands = s.heldCommands ∧ (takeLink l s).crossReads = s.crossReads := by
  unfold takeLink
  first | (simp; done) | ((try dsimp only); (repeat' split) <;> first | (simp; done) | simp_all | (repeat' split) <;> simp)

@[simp] theorem stimReads_pending (s : State) : (stimReads s).pending = s.pending := by
  unfold stimReads
  split
  · rfl
  · split
    · rfl
    · refine foldl_pending _ (fun s a => ?_) _ _
      split <;> simp

@[simp] theorem stimReads_variant (s : State) : (stimReads s).variant = s.variant := by
  unfold stimReads
  split
  · rfl
  · split
    · rfl
    · refine foldl_variant _ (fun s a => ?_) _ _
      split <;> simp

@[simp] theorem stimReads_otp (s : State) : (stimReads s).otp = s.otp := by
  unfold stimReads
  split
  · rfl
  · split
    · rfl
    · refine foldl_otp _ (fun s a => ?_) _ _
      split <;> simp

@[simp] theorem stimReads_mlen (s : State) : (stimReads s).masters.length = s.masters.length := by
  unfold stimReads
  split
  · rfl
  · split
    · rfl
    · refine foldl_mlen _ (fun s a => ?_) _ _
      split <;> simp

@[simp] theorem stimReads_clen (s : State) : (stimReads s).cores.channels.length = s.cores.channels.length := by
  unfold stimReads
  split
  · rfl
  · split
    · rfl
    · refine foldl_clen _ (fun s a => ?_) _ _
      split <;> simp

@[simp] theorem stimReads_level (s : State) : (stimReads s).regs.debugLevel = s.regs.debugLevel := by
  unfold stimReads
  split
  · rfl
  · split
    · rfl
    · refine foldl_level _ (fun s a => ?_) _ _
      split <;> simp

@[simp] theorem stimReads_pins (s : State) : (stimReads s).pins = s.pins := by
  unfold stimReads
  split
  · rfl
  · split
    · rfl
    · refine foldl_pins _ (fun s a => ?_) _ _
      split <;> simp

@[simp] theorem stimReads_stream (s : State) : (stimReads s).stream = s.stream := by
  unfold stimReads
  split
  · rfl
  · split
    · rfl
    · refine foldl_stream _ (fun s a => ?_) _ _
      split <;> simp

@[simp] theorem stimReads_power (s : State) : (stimReads s).power = s.power := by
  unfold stimReads
  split
  · rfl
  · split
    · rfl
    · refine foldl_power _ (fun s a => ?_) _ _
      split <;> simp

@[simp] theorem stimReads_loader (s : State) : (stimReads s).loader = s.loader := by
  unfold stimReads
  split
  · rfl
  · split
    · rfl
    · refine foldl_loader _ (fun s a => ?_) _ _
      split <;> simp

@[simp] theorem stimReads_conservator (s : State) : (stimReads s).conservator = s.conservator := by
  unfold stimReads
  split
  · rfl
  · split
    · rfl
    · refine foldl_conservator _ (fun s a => ?_) _ _
      split <;> simp

@[simp] theorem stimReads_egress (s : State) : (stimReads s).egress = s.egress := by
  unfold stimReads
  split
  · rfl
  · split
    · rfl
    · refine foldl_egress _ (fun s a => ?_) _ _
      split <;> simp

@[simp] theorem stimReads_repair (s : State) : (stimReads s).repair = s.repair := by
  unfold stimReads
  split
  · rfl
  · split
    · rfl
    · refine foldl_repair _ (fun s a => ?_) _ _
      split <;> simp

@[simp] theorem stimReads_shadow (s : State) : (stimReads s).shadow = s.shadow := by
  unfold stimReads
  split
  · rfl
  · split
    · rfl
    · refine foldl_shadow _ (fun s a => ?_) _ _
      split <;> simp

@[simp] theorem stimReads_inForce (s : State) : (stimReads s).inForce = s.inForce := by
  unfold stimReads
  split
  · rfl
  · split
    · rfl
    · refine foldl_inForce _ (fun s a => ?_) _ _
      split <;> simp

@[simp] theorem stimReads_otpRequest (s : State) : (stimReads s).otpRequest = s.otpRequest := by
  unfold stimReads
  split
  · rfl
  · split
    · rfl
    · refine foldl_otpRequest _ (fun s a => ?_) _ _
      split <;> simp

@[simp] theorem stimReads_heldCommands (s : State) : (stimReads s).heldCommands = s.heldCommands := by
  unfold stimReads
  split
  · rfl
  · split
    · rfl
    · refine foldl_heldCommands _ (fun s a => ?_) _ _
      split <;> simp

@[simp] theorem stimReads_crossReads (s : State) : (stimReads s).crossReads = s.crossReads := by
  unfold stimReads
  split
  · rfl
  · split
    · rfl
    · refine foldl_crossReads _ (fun s a => ?_) _ _
      split <;> simp

@[simp] theorem countSwitchover_frame  (s : State) :
    (countSwitchover before s).pending = s.pending ∧ (countSwitchover before s).variant = s.variant ∧
    (countSwitchover before s).otp = s.otp ∧ (countSwitchover before s).masters.length = s.masters.length ∧
    (countSwitchover before s).cores.channels.length = s.cores.channels.length ∧
    (countSwitchover before s).regs.debugLevel = s.regs.debugLevel ∧ (countSwitchover before s).store.cs = s.store.cs ∧
    (countSwitchover before s).store.csDev = s.store.csDev ∧ (countSwitchover before s).store.granules = s.store.granules ∧
    (countSwitchover before s).pins = s.pins ∧ (countSwitchover before s).stream = s.stream ∧
    (countSwitchover before s).power = s.power ∧ (countSwitchover before s).loader = s.loader ∧
    (countSwitchover before s).conservator = s.conservator ∧ (countSwitchover before s).egress = s.egress ∧
    (countSwitchover before s).repair = s.repair ∧ (countSwitchover before s).shadow = s.shadow ∧
    (countSwitchover before s).inForce = s.inForce ∧ (countSwitchover before s).otpRequest = s.otpRequest ∧
    (countSwitchover before s).heldCommands = s.heldCommands ∧ (countSwitchover before s).crossReads = s.crossReads := by
  unfold countSwitchover
  first | (simp; done) | ((try dsimp only); (repeat' split) <;> first | (simp; done) | simp_all | (repeat' split) <;> simp)

@[simp] theorem mirrorLate_frame  (s : State) :
    (mirrorLate s).pending = s.pending ∧ (mirrorLate s).variant = s.variant ∧ (mirrorLate s).otp = s.otp ∧
    (mirrorLate s).masters.length = s.masters.length ∧ (mirrorLate s).cores.channels.length = s.cores.channels.length ∧
    (mirrorLate s).regs.debugLevel = s.regs.debugLevel ∧ (mirrorLate s).store.cs = s.store.cs ∧
    (mirrorLate s).store.csDev = s.store.csDev ∧ (mirrorLate s).store.granules = s.store.granules ∧
    (mirrorLate s).pins = s.pins ∧ (mirrorLate s).stream = s.stream ∧ (mirrorLate s).power = s.power ∧
    (mirrorLate s).loader = s.loader ∧ (mirrorLate s).conservator = s.conservator ∧ (mirrorLate s).egress = s.egress ∧
    (mirrorLate s).repair = s.repair ∧ (mirrorLate s).shadow = s.shadow ∧ (mirrorLate s).inForce = s.inForce ∧
    (mirrorLate s).otpRequest = s.otpRequest ∧ (mirrorLate s).heldCommands = s.heldCommands ∧
    (mirrorLate s).crossReads = s.crossReads := by
  unfold mirrorLate
  first | (simp; done) | ((try dsimp only); (repeat' split) <;> first | (simp; done) | simp_all | (repeat' split) <;> simp)

@[simp] theorem rowReadEffects_pending (b : Batch) (r : RowDue) (s : State) : (rowReadEffects b r s).pending = s.pending := by
  unfold rowReadEffects
  (try dsimp only)
  rw [foldl_pending]
  · refine foldl_pending _ (fun s a => ?_) _ _
    simp
  · intro s a
    (repeat' split) <;> simp

@[simp] theorem rowReadEffects_variant (b : Batch) (r : RowDue) (s : State) : (rowReadEffects b r s).variant = s.variant := by
  unfold rowReadEffects
  (try dsimp only)
  rw [foldl_variant]
  · refine foldl_variant _ (fun s a => ?_) _ _
    simp
  · intro s a
    (repeat' split) <;> simp

@[simp] theorem rowReadEffects_otp (b : Batch) (r : RowDue) (s : State) : (rowReadEffects b r s).otp = s.otp := by
  unfold rowReadEffects
  (try dsimp only)
  rw [foldl_otp]
  · refine foldl_otp _ (fun s a => ?_) _ _
    simp
  · intro s a
    (repeat' split) <;> simp

@[simp] theorem rowReadEffects_mlen (b : Batch) (r : RowDue) (s : State) : (rowReadEffects b r s).masters.length = s.masters.length := by
  unfold rowReadEffects
  (try dsimp only)
  rw [foldl_mlen]
  · refine foldl_mlen _ (fun s a => ?_) _ _
    simp
  · intro s a
    (repeat' split) <;> simp

@[simp] theorem rowReadEffects_clen (b : Batch) (r : RowDue) (s : State) : (rowReadEffects b r s).cores.channels.length = s.cores.channels.length := by
  unfold rowReadEffects
  (try dsimp only)
  rw [foldl_clen]
  · refine foldl_clen _ (fun s a => ?_) _ _
    simp
  · intro s a
    (repeat' split) <;> simp

@[simp] theorem rowReadEffects_level (b : Batch) (r : RowDue) (s : State) : (rowReadEffects b r s).regs.debugLevel = s.regs.debugLevel := by
  unfold rowReadEffects
  (try dsimp only)
  rw [foldl_level]
  · refine foldl_level _ (fun s a => ?_) _ _
    simp
  · intro s a
    (repeat' split) <;> simp

@[simp] theorem rowReadEffects_pins (b : Batch) (r : RowDue) (s : State) : (rowReadEffects b r s).pins = s.pins := by
  unfold rowReadEffects
  (try dsimp only)
  rw [foldl_pins]
  · refine foldl_pins _ (fun s a => ?_) _ _
    simp
  · intro s a
    (repeat' split) <;> simp

@[simp] theorem rowReadEffects_stream (b : Batch) (r : RowDue) (s : State) : (rowReadEffects b r s).stream = s.stream := by
  unfold rowReadEffects
  (try dsimp only)
  rw [foldl_stream]
  · refine foldl_stream _ (fun s a => ?_) _ _
    simp
  · intro s a
    (repeat' split) <;> simp

@[simp] theorem rowReadEffects_power (b : Batch) (r : RowDue) (s : State) : (rowReadEffects b r s).power = s.power := by
  unfold rowReadEffects
  (try dsimp only)
  rw [foldl_power]
  · refine foldl_power _ (fun s a => ?_) _ _
    simp
  · intro s a
    (repeat' split) <;> simp

@[simp] theorem rowReadEffects_loader (b : Batch) (r : RowDue) (s : State) : (rowReadEffects b r s).loader = s.loader := by
  unfold rowReadEffects
  (try dsimp only)
  rw [foldl_loader]
  · refine foldl_loader _ (fun s a => ?_) _ _
    simp
  · intro s a
    (repeat' split) <;> simp

@[simp] theorem rowReadEffects_conservator (b : Batch) (r : RowDue) (s : State) : (rowReadEffects b r s).conservator = s.conservator := by
  unfold rowReadEffects
  (try dsimp only)
  rw [foldl_conservator]
  · refine foldl_conservator _ (fun s a => ?_) _ _
    simp
  · intro s a
    (repeat' split) <;> simp

@[simp] theorem rowReadEffects_egress (b : Batch) (r : RowDue) (s : State) : (rowReadEffects b r s).egress = s.egress := by
  unfold rowReadEffects
  (try dsimp only)
  rw [foldl_egress]
  · refine foldl_egress _ (fun s a => ?_) _ _
    simp
  · intro s a
    (repeat' split) <;> simp

@[simp] theorem rowReadEffects_repair (b : Batch) (r : RowDue) (s : State) : (rowReadEffects b r s).repair = s.repair := by
  unfold rowReadEffects
  (try dsimp only)
  rw [foldl_repair]
  · refine foldl_repair _ (fun s a => ?_) _ _
    simp
  · intro s a
    (repeat' split) <;> simp

@[simp] theorem rowReadEffects_shadow (b : Batch) (r : RowDue) (s : State) : (rowReadEffects b r s).shadow = s.shadow := by
  unfold rowReadEffects
  (try dsimp only)
  rw [foldl_shadow]
  · refine foldl_shadow _ (fun s a => ?_) _ _
    simp
  · intro s a
    (repeat' split) <;> simp

@[simp] theorem rowReadEffects_inForce (b : Batch) (r : RowDue) (s : State) : (rowReadEffects b r s).inForce = s.inForce := by
  unfold rowReadEffects
  (try dsimp only)
  rw [foldl_inForce]
  · refine foldl_inForce _ (fun s a => ?_) _ _
    simp
  · intro s a
    (repeat' split) <;> simp

@[simp] theorem rowReadEffects_otpRequest (b : Batch) (r : RowDue) (s : State) : (rowReadEffects b r s).otpRequest = s.otpRequest := by
  unfold rowReadEffects
  (try dsimp only)
  rw [foldl_otpRequest]
  · refine foldl_otpRequest _ (fun s a => ?_) _ _
    simp
  · intro s a
    (repeat' split) <;> simp

@[simp] theorem rowReadEffects_heldCommands (b : Batch) (r : RowDue) (s : State) : (rowReadEffects b r s).heldCommands = s.heldCommands := by
  unfold rowReadEffects
  (try dsimp only)
  rw [foldl_heldCommands]
  · refine foldl_heldCommands _ (fun s a => ?_) _ _
    simp
  · intro s a
    (repeat' split) <;> simp

@[simp] theorem rowReadEffects_crossReads (b : Batch) (r : RowDue) (s : State) : (rowReadEffects b r s).crossReads = s.crossReads := by
  unfold rowReadEffects
  (try dsimp only)
  rw [foldl_crossReads]
  · refine foldl_crossReads _ (fun s a => ?_) _ _
    simp
  · intro s a
    (repeat' split) <;> simp

@[simp] theorem readRow_frame (r : RowDue) (rest : List RowDue) (b : Batch) (s : State) :
    (readRow r rest b s).pending = s.pending ∧ (readRow r rest b s).variant = s.variant ∧ (readRow r rest b s).otp = s.otp ∧
    (readRow r rest b s).masters.length = s.masters.length ∧
    (readRow r rest b s).cores.channels.length = s.cores.channels.length ∧
    (readRow r rest b s).regs.debugLevel = s.regs.debugLevel ∧ (readRow r rest b s).pins = s.pins ∧
    (readRow r rest b s).stream = s.stream ∧ (readRow r rest b s).power = s.power ∧ (readRow r rest b s).loader = s.loader ∧
    (readRow r rest b s).conservator = s.conservator ∧ (readRow r rest b s).egress = s.egress ∧
    (readRow r rest b s).repair = s.repair ∧ (readRow r rest b s).shadow = s.shadow ∧
    (readRow r rest b s).inForce = s.inForce ∧ (readRow r rest b s).otpRequest = s.otpRequest ∧
    (readRow r rest b s).heldCommands = s.heldCommands ∧ (readRow r rest b s).crossReads = s.crossReads := by
  unfold readRow
  first | (simp; done) | ((try dsimp only); (repeat' split) <;> first | (simp; done) | simp_all | (repeat' split) <;> simp)

@[simp] theorem lateDelivery_frame (b : Batch) (q : Nat) (s : State) :
    (lateDelivery b q s).pending = s.pending ∧ (lateDelivery b q s).variant = s.variant ∧ (lateDelivery b q s).otp = s.otp ∧
    (lateDelivery b q s).masters.length = s.masters.length ∧
    (lateDelivery b q s).cores.channels.length = s.cores.channels.length ∧
    (lateDelivery b q s).regs.debugLevel = s.regs.debugLevel ∧ (lateDelivery b q s).store.cs = s.store.cs ∧
    (lateDelivery b q s).store.csDev = s.store.csDev ∧ (lateDelivery b q s).store.granules = s.store.granules ∧
    (lateDelivery b q s).pins = s.pins ∧ (lateDelivery b q s).stream = s.stream ∧ (lateDelivery b q s).power = s.power ∧
    (lateDelivery b q s).loader = s.loader ∧ (lateDelivery b q s).conservator = s.conservator ∧
    (lateDelivery b q s).egress = s.egress ∧ (lateDelivery b q s).repair = s.repair ∧
    (lateDelivery b q s).shadow = s.shadow ∧ (lateDelivery b q s).inForce = s.inForce ∧
    (lateDelivery b q s).otpRequest = s.otpRequest ∧ (lateDelivery b q s).heldCommands = s.heldCommands ∧
    (lateDelivery b q s).crossReads = s.crossReads := by
  unfold lateDelivery
  first | (simp; done) | ((try dsimp only); (repeat' split) <;> first | (simp; done) | simp_all | (repeat' split) <;> simp)

@[simp] theorem deliver_frame (b : Batch) (s : State) :
    (deliver b s).pending = s.pending ∧ (deliver b s).variant = s.variant ∧ (deliver b s).otp = s.otp ∧
    (deliver b s).masters.length = s.masters.length ∧ (deliver b s).cores.channels.length = s.cores.channels.length ∧
    (deliver b s).regs.debugLevel = s.regs.debugLevel ∧ (deliver b s).store.cs = s.store.cs ∧
    (deliver b s).store.csDev = s.store.csDev ∧ (deliver b s).store.granules = s.store.granules ∧
    (deliver b s).pins = s.pins ∧ (deliver b s).stream = s.stream ∧ (deliver b s).power = s.power ∧
    (deliver b s).loader = s.loader ∧ (deliver b s).conservator = s.conservator ∧ (deliver b s).egress = s.egress ∧
    (deliver b s).repair = s.repair ∧ (deliver b s).shadow = s.shadow ∧ (deliver b s).inForce = s.inForce ∧
    (deliver b s).otpRequest = s.otpRequest ∧ (deliver b s).heldCommands = s.heldCommands ∧
    (deliver b s).crossReads = s.crossReads := by
  unfold deliver
  first | (simp; done) | ((try dsimp only); (repeat' split) <;> first | (simp; done) | simp_all | (repeat' split) <;> simp)

@[simp] theorem presentRows_frame  (s : State) :
    (presentRows s).pending = s.pending ∧ (presentRows s).variant = s.variant ∧ (presentRows s).otp = s.otp ∧
    (presentRows s).masters.length = s.masters.length ∧ (presentRows s).cores.channels.length = s.cores.channels.length ∧
    (presentRows s).regs.debugLevel = s.regs.debugLevel ∧ (presentRows s).store.cs = s.store.cs ∧
    (presentRows s).store.csDev = s.store.csDev ∧ (presentRows s).store.granules = s.store.granules ∧
    (presentRows s).pins = s.pins ∧ (presentRows s).stream = s.stream ∧ (presentRows s).power = s.power ∧
    (presentRows s).loader = s.loader ∧ (presentRows s).conservator = s.conservator ∧ (presentRows s).egress = s.egress ∧
    (presentRows s).repair = s.repair ∧ (presentRows s).shadow = s.shadow ∧ (presentRows s).inForce = s.inForce ∧
    (presentRows s).otpRequest = s.otpRequest ∧ (presentRows s).heldCommands = s.heldCommands ∧
    (presentRows s).crossReads = s.crossReads := by
  unfold presentRows
  first | (simp; done) | ((try dsimp only); (repeat' split) <;> first | (simp; done) | simp_all | (repeat' split) <;> simp)

@[simp] theorem docentStop_frame (d : Docent) (s : State) :
    (docentStop d s).pending = s.pending ∧ (docentStop d s).variant = s.variant ∧ (docentStop d s).otp = s.otp ∧
    (docentStop d s).masters.length = s.masters.length ∧ (docentStop d s).cores.channels.length = s.cores.channels.length ∧
    (docentStop d s).regs.debugLevel = s.regs.debugLevel ∧ (docentStop d s).store.cs = s.store.cs ∧
    (docentStop d s).store.csDev = s.store.csDev ∧ (docentStop d s).store.granules = s.store.granules ∧
    (docentStop d s).pins = s.pins ∧ (docentStop d s).stream = s.stream ∧ (docentStop d s).power = s.power ∧
    (docentStop d s).loader = s.loader ∧ (docentStop d s).conservator = s.conservator ∧ (docentStop d s).repair = s.repair ∧
    (docentStop d s).shadow = s.shadow ∧ (docentStop d s).inForce = s.inForce ∧ (docentStop d s).otpRequest = s.otpRequest ∧
    (docentStop d s).heldCommands = s.heldCommands ∧ (docentStop d s).crossReads = s.crossReads := by
  unfold docentStop
  first | (simp; done) | ((try dsimp only); (repeat' split) <;> first | (simp; done) | simp_all | (repeat' split) <;> simp)

@[simp] theorem noteResume_frame (a b : Bool) (s : State) :
    (noteResume a b s).pending = s.pending ∧ (noteResume a b s).variant = s.variant ∧ (noteResume a b s).otp = s.otp ∧
    (noteResume a b s).masters.length = s.masters.length ∧
    (noteResume a b s).cores.channels.length = s.cores.channels.length ∧
    (noteResume a b s).regs.debugLevel = s.regs.debugLevel ∧ (noteResume a b s).store.cs = s.store.cs ∧
    (noteResume a b s).store.csDev = s.store.csDev ∧ (noteResume a b s).store.granules = s.store.granules ∧
    (noteResume a b s).pins = s.pins ∧ (noteResume a b s).stream = s.stream ∧ (noteResume a b s).power = s.power ∧
    (noteResume a b s).loader = s.loader ∧ (noteResume a b s).conservator = s.conservator ∧
    (noteResume a b s).repair = s.repair ∧ (noteResume a b s).shadow = s.shadow ∧ (noteResume a b s).inForce = s.inForce ∧
    (noteResume a b s).otpRequest = s.otpRequest ∧ (noteResume a b s).heldCommands = s.heldCommands ∧
    (noteResume a b s).crossReads = s.crossReads := by
  unfold noteResume
  first | (simp; done) | ((try dsimp only); (repeat' split) <;> first | (simp; done) | simp_all | (repeat' split) <;> simp)

@[simp] theorem endStop_frame  (s : State) :
    (endStop s).pending = s.pending ∧ (endStop s).variant = s.variant ∧ (endStop s).otp = s.otp ∧
    (endStop s).masters.length = s.masters.length ∧ (endStop s).cores.channels.length = s.cores.channels.length ∧
    (endStop s).regs.debugLevel = s.regs.debugLevel ∧ (endStop s).store.cs = s.store.cs ∧
    (endStop s).store.csDev = s.store.csDev ∧ (endStop s).store.granules = s.store.granules ∧ (endStop s).pins = s.pins ∧
    (endStop s).stream = s.stream ∧ (endStop s).power = s.power ∧ (endStop s).loader = s.loader ∧
    (endStop s).conservator = s.conservator ∧ (endStop s).repair = s.repair ∧ (endStop s).shadow = s.shadow ∧
    (endStop s).inForce = s.inForce ∧ (endStop s).otpRequest = s.otpRequest ∧ (endStop s).heldCommands = s.heldCommands ∧
    (endStop s).crossReads = s.crossReads := by
  unfold endStop
  first | (simp; done) | ((try dsimp only); (repeat' split) <;> first | (simp; done) | simp_all | (repeat' split) <;> simp)

@[simp] theorem nextCycle_frame  (s : State) :
    (nextCycle s).pending = s.pending ∧ (nextCycle s).variant = s.variant ∧ (nextCycle s).otp = s.otp ∧
    (nextCycle s).masters.length = s.masters.length ∧ (nextCycle s).cores.channels.length = s.cores.channels.length ∧
    (nextCycle s).regs.debugLevel = s.regs.debugLevel ∧ (nextCycle s).store.cs = s.store.cs ∧
    (nextCycle s).store.csDev = s.store.csDev ∧ (nextCycle s).store.granules = s.store.granules ∧
    (nextCycle s).pins = s.pins ∧ (nextCycle s).stream = s.stream ∧ (nextCycle s).loader = s.loader ∧
    (nextCycle s).conservator = s.conservator ∧ (nextCycle s).egress = s.egress ∧ (nextCycle s).repair = s.repair ∧
    (nextCycle s).shadow = s.shadow ∧ (nextCycle s).inForce = s.inForce ∧ (nextCycle s).otpRequest = s.otpRequest ∧
    (nextCycle s).heldCommands = s.heldCommands ∧ (nextCycle s).crossReads = s.crossReads := by
  unfold nextCycle
  first | (simp; done) | ((try dsimp only); (repeat' split) <;> first | (simp; done) | simp_all | (repeat' split) <;> simp)

@[simp] theorem prepareCycle_frame (grnA grnB : Bool) (s : State) :
    (prepareCycle grnA grnB s).pending = s.pending ∧ (prepareCycle grnA grnB s).variant = s.variant ∧
    (prepareCycle grnA grnB s).otp = s.otp ∧ (prepareCycle grnA grnB s).masters.length = s.masters.length ∧
    (prepareCycle grnA grnB s).cores.channels.length = s.cores.channels.length ∧
    (prepareCycle grnA grnB s).regs.debugLevel = s.regs.debugLevel ∧ (prepareCycle grnA grnB s).store.cs = s.store.cs ∧
    (prepareCycle grnA grnB s).store.csDev = s.store.csDev ∧ (prepareCycle grnA grnB s).store.granules = s.store.granules ∧
    (prepareCycle grnA grnB s).pins = s.pins ∧ (prepareCycle grnA grnB s).stream = s.stream ∧
    (prepareCycle grnA grnB s).power = s.power ∧ (prepareCycle grnA grnB s).loader = s.loader ∧
    (prepareCycle grnA grnB s).conservator = s.conservator ∧ (prepareCycle grnA grnB s).egress = s.egress ∧
    (prepareCycle grnA grnB s).repair = s.repair ∧ (prepareCycle grnA grnB s).shadow = s.shadow ∧
    (prepareCycle grnA grnB s).inForce = s.inForce ∧ (prepareCycle grnA grnB s).otpRequest = s.otpRequest ∧
    (prepareCycle grnA grnB s).heldCommands = s.heldCommands ∧ (prepareCycle grnA grnB s).crossReads = s.crossReads := by
  unfold prepareCycle
  first | (simp; done) | ((try dsimp only); (repeat' split) <;> first | (simp; done) | simp_all | (repeat' split) <;> simp)

@[simp] theorem registerCycle_frame (inps : List QWord) (evs : List BlockEval) (smp : List VaultSample) (s : State) :
    (registerCycle inps evs smp s).pending = s.pending ∧ (registerCycle inps evs smp s).variant = s.variant ∧
    (registerCycle inps evs smp s).otp = s.otp ∧ (registerCycle inps evs smp s).masters.length = s.masters.length ∧
    (registerCycle inps evs smp s).cores.channels.length = s.cores.channels.length ∧
    (registerCycle inps evs smp s).regs.debugLevel = s.regs.debugLevel ∧
    (registerCycle inps evs smp s).store.cs = s.store.cs ∧ (registerCycle inps evs smp s).store.csDev = s.store.csDev ∧
    (registerCycle inps evs smp s).store.granules = s.store.granules ∧ (registerCycle inps evs smp s).pins = s.pins ∧
    (registerCycle inps evs smp s).stream = s.stream ∧ (registerCycle inps evs smp s).power = s.power ∧
    (registerCycle inps evs smp s).loader = s.loader ∧ (registerCycle inps evs smp s).conservator = s.conservator ∧
    (registerCycle inps evs smp s).repair = s.repair ∧ (registerCycle inps evs smp s).shadow = s.shadow ∧
    (registerCycle inps evs smp s).inForce = s.inForce ∧ (registerCycle inps evs smp s).otpRequest = s.otpRequest ∧
    (registerCycle inps evs smp s).heldCommands = s.heldCommands ∧
    (registerCycle inps evs smp s).crossReads = s.crossReads := by
  unfold registerCycle
  first | (simp; done) | ((try dsimp only); (repeat' split) <;> first | (simp; done) | simp_all | (repeat' split) <;> simp)

@[simp] theorem evalCycle_frame  (s : State) :
    (evalCycle s).pending = s.pending ∧ (evalCycle s).variant = s.variant ∧ (evalCycle s).otp = s.otp ∧
    (evalCycle s).masters.length = s.masters.length ∧ (evalCycle s).cores.channels.length = s.cores.channels.length ∧
    (evalCycle s).regs.debugLevel = s.regs.debugLevel ∧ (evalCycle s).store.cs = s.store.cs ∧
    (evalCycle s).store.csDev = s.store.csDev ∧ (evalCycle s).store.granules = s.store.granules ∧
    (evalCycle s).pins = s.pins ∧ (evalCycle s).stream = s.stream ∧ (evalCycle s).power = s.power ∧
    (evalCycle s).loader = s.loader ∧ (evalCycle s).conservator = s.conservator ∧ (evalCycle s).repair = s.repair ∧
    (evalCycle s).shadow = s.shadow ∧ (evalCycle s).inForce = s.inForce ∧ (evalCycle s).otpRequest = s.otpRequest ∧
    (evalCycle s).heldCommands = s.heldCommands ∧ (evalCycle s).crossReads = s.crossReads := by
  unfold evalCycle
  first | (simp; done) | ((try dsimp only); (repeat' split) <;> first | (simp; done) | simp_all | (repeat' split) <;> simp)

@[simp] theorem putMemWord_frame (b a v : Nat) (s : State) :
    (putMemWord b a v s).pending = s.pending ∧ (putMemWord b a v s).variant = s.variant ∧ (putMemWord b a v s).otp = s.otp ∧
    (putMemWord b a v s).masters.length = s.masters.length ∧
    (putMemWord b a v s).cores.channels.length = s.cores.channels.length ∧
    (putMemWord b a v s).regs.debugLevel = s.regs.debugLevel ∧ (putMemWord b a v s).store.cs = s.store.cs ∧
    (putMemWord b a v s).store.csDev = s.store.csDev ∧ (putMemWord b a v s).store.granules = s.store.granules ∧
    (putMemWord b a v s).pins = s.pins ∧ (putMemWord b a v s).stream = s.stream ∧ (putMemWord b a v s).power = s.power ∧
    (putMemWord b a v s).loader = s.loader ∧ (putMemWord b a v s).conservator = s.conservator ∧
    (putMemWord b a v s).egress = s.egress ∧ (putMemWord b a v s).repair = s.repair ∧
    (putMemWord b a v s).shadow = s.shadow ∧ (putMemWord b a v s).inForce = s.inForce ∧
    (putMemWord b a v s).otpRequest = s.otpRequest ∧ (putMemWord b a v s).heldCommands = s.heldCommands ∧
    (putMemWord b a v s).crossReads = s.crossReads := by
  unfold putMemWord
  first | (simp; done) | ((try dsimp only); (repeat' split) <;> first | (simp; done) | simp_all | (repeat' split) <;> simp)

@[simp] theorem beginContention_frame (a : Nat) (s : State) :
    (beginContention a s).pending = s.pending ∧ (beginContention a s).variant = s.variant ∧
    (beginContention a s).otp = s.otp ∧ (beginContention a s).masters.length = s.masters.length ∧
    (beginContention a s).cores.channels.length = s.cores.channels.length ∧
    (beginContention a s).regs.debugLevel = s.regs.debugLevel ∧ (beginContention a s).store.cs = s.store.cs ∧
    (beginContention a s).store.csDev = s.store.csDev ∧ (beginContention a s).store.granules = s.store.granules ∧
    (beginContention a s).pins = s.pins ∧ (beginContention a s).stream = s.stream ∧ (beginContention a s).power = s.power ∧
    (beginContention a s).loader = s.loader ∧ (beginContention a s).conservator = s.conservator ∧
    (beginContention a s).egress = s.egress ∧ (beginContention a s).repair = s.repair ∧
    (beginContention a s).shadow = s.shadow ∧ (beginContention a s).inForce = s.inForce ∧
    (beginContention a s).otpRequest = s.otpRequest ∧ (beginContention a s).heldCommands = s.heldCommands ∧
    (beginContention a s).crossReads = s.crossReads := by
  unfold beginContention
  first | (simp; done) | ((try dsimp only); (repeat' split) <;> first | (simp; done) | simp_all | (repeat' split) <;> simp)

@[simp] theorem contentionWindows_frame (a since : Nat) (b : Batch) (s : State) :
    (contentionWindows a since b s).pending = s.pending ∧ (contentionWindows a since b s).variant = s.variant ∧
    (contentionWindows a since b s).otp = s.otp ∧ (contentionWindows a since b s).masters.length = s.masters.length ∧
    (contentionWindows a since b s).cores.channels.length = s.cores.channels.length ∧
    (contentionWindows a since b s).regs.debugLevel = s.regs.debugLevel ∧
    (contentionWindows a since b s).store.cs = s.store.cs ∧ (contentionWindows a since b s).store.csDev = s.store.csDev ∧
    (contentionWindows a since b s).store.granules = s.store.granules ∧ (contentionWindows a since b s).pins = s.pins ∧
    (contentionWindows a since b s).stream = s.stream ∧ (contentionWindows a since b s).power = s.power ∧
    (contentionWindows a since b s).loader = s.loader ∧ (contentionWindows a since b s).conservator = s.conservator ∧
    (contentionWindows a since b s).egress = s.egress ∧ (contentionWindows a since b s).repair = s.repair ∧
    (contentionWindows a since b s).shadow = s.shadow ∧ (contentionWindows a since b s).inForce = s.inForce ∧
    (contentionWindows a since b s).otpRequest = s.otpRequest ∧
    (contentionWindows a since b s).heldCommands = s.heldCommands ∧
    (contentionWindows a since b s).crossReads = s.crossReads := by
  unfold contentionWindows
  first | (simp; done) | ((try dsimp only); (repeat' split) <;> first | (simp; done) | simp_all | (repeat' split) <;> simp)

@[simp] theorem endContention_frame (a : Nat) (s : State) :
    (endContention a s).pending = s.pending ∧ (endContention a s).variant = s.variant ∧ (endContention a s).otp = s.otp ∧
    (endContention a s).masters.length = s.masters.length ∧
    (endContention a s).cores.channels.length = s.cores.channels.length ∧
    (endContention a s).regs.debugLevel = s.regs.debugLevel ∧ (endContention a s).store.cs = s.store.cs ∧
    (endContention a s).store.csDev = s.store.csDev ∧ (endContention a s).store.granules = s.store.granules ∧
    (endContention a s).pins = s.pins ∧ (endContention a s).stream = s.stream ∧ (endContention a s).power = s.power ∧
    (endContention a s).loader = s.loader ∧ (endContention a s).conservator = s.conservator ∧
    (endContention a s).egress = s.egress ∧ (endContention a s).repair = s.repair ∧ (endContention a s).shadow = s.shadow ∧
    (endContention a s).inForce = s.inForce ∧ (endContention a s).otpRequest = s.otpRequest ∧
    (endContention a s).heldCommands = s.heldCommands ∧ (endContention a s).crossReads = s.crossReads := by
  unfold endContention
  first | (simp; done) | ((try dsimp only); (repeat' split) <;> first | (simp; done) | simp_all | (repeat' split) <;> simp)

@[simp] theorem setVault_frame (v : Nat) (x : VaultState) (s : State) :
    (setVault v x s).pending = s.pending ∧ (setVault v x s).variant = s.variant ∧ (setVault v x s).otp = s.otp ∧
    (setVault v x s).masters.length = s.masters.length ∧ (setVault v x s).cores.channels.length = s.cores.channels.length ∧
    (setVault v x s).regs.debugLevel = s.regs.debugLevel ∧ (setVault v x s).store.cs = s.store.cs ∧
    (setVault v x s).store.csDev = s.store.csDev ∧ (setVault v x s).store.granules = s.store.granules ∧
    (setVault v x s).pins = s.pins ∧ (setVault v x s).stream = s.stream ∧ (setVault v x s).power = s.power ∧
    (setVault v x s).loader = s.loader ∧ (setVault v x s).conservator = s.conservator ∧ (setVault v x s).egress = s.egress ∧
    (setVault v x s).repair = s.repair ∧ (setVault v x s).shadow = s.shadow ∧ (setVault v x s).inForce = s.inForce ∧
    (setVault v x s).otpRequest = s.otpRequest ∧ (setVault v x s).heldCommands = s.heldCommands ∧
    (setVault v x s).crossReads = s.crossReads := by
  unfold setVault
  first | (simp; done) | ((try dsimp only); (repeat' split) <;> first | (simp; done) | simp_all | (repeat' split) <;> simp)

@[simp] theorem setSample_frame (v : Nat) (p : VaultSample) (s : State) :
    (setSample v p s).pending = s.pending ∧ (setSample v p s).variant = s.variant ∧ (setSample v p s).otp = s.otp ∧
    (setSample v p s).masters.length = s.masters.length ∧
    (setSample v p s).cores.channels.length = s.cores.channels.length ∧
    (setSample v p s).regs.debugLevel = s.regs.debugLevel ∧ (setSample v p s).store.cs = s.store.cs ∧
    (setSample v p s).store.csDev = s.store.csDev ∧ (setSample v p s).store.granules = s.store.granules ∧
    (setSample v p s).pins = s.pins ∧ (setSample v p s).stream = s.stream ∧ (setSample v p s).power = s.power ∧
    (setSample v p s).loader = s.loader ∧ (setSample v p s).conservator = s.conservator ∧
    (setSample v p s).egress = s.egress ∧ (setSample v p s).repair = s.repair ∧ (setSample v p s).shadow = s.shadow ∧
    (setSample v p s).inForce = s.inForce ∧ (setSample v p s).otpRequest = s.otpRequest ∧
    (setSample v p s).heldCommands = s.heldCommands ∧ (setSample v p s).crossReads = s.crossReads := by
  unfold setSample
  first | (simp; done) | ((try dsimp only); (repeat' split) <;> first | (simp; done) | simp_all | (repeat' split) <;> simp)

@[simp] theorem putVaultWord_frame (v a : Nat) (w : Word) (s : State) :
    (putVaultWord v a w s).pending = s.pending ∧ (putVaultWord v a w s).variant = s.variant ∧
    (putVaultWord v a w s).otp = s.otp ∧ (putVaultWord v a w s).masters.length = s.masters.length ∧
    (putVaultWord v a w s).cores.channels.length = s.cores.channels.length ∧
    (putVaultWord v a w s).regs.debugLevel = s.regs.debugLevel ∧ (putVaultWord v a w s).store.cs = s.store.cs ∧
    (putVaultWord v a w s).store.csDev = s.store.csDev ∧ (putVaultWord v a w s).store.granules = s.store.granules ∧
    (putVaultWord v a w s).pins = s.pins ∧ (putVaultWord v a w s).stream = s.stream ∧
    (putVaultWord v a w s).power = s.power ∧ (putVaultWord v a w s).loader = s.loader ∧
    (putVaultWord v a w s).conservator = s.conservator ∧ (putVaultWord v a w s).egress = s.egress ∧
    (putVaultWord v a w s).repair = s.repair ∧ (putVaultWord v a w s).shadow = s.shadow ∧
    (putVaultWord v a w s).inForce = s.inForce ∧ (putVaultWord v a w s).otpRequest = s.otpRequest ∧
    (putVaultWord v a w s).heldCommands = s.heldCommands ∧ (putVaultWord v a w s).crossReads = s.crossReads := by
  unfold putVaultWord
  first | (simp; done) | ((try dsimp only); (repeat' split) <;> first | (simp; done) | simp_all | (repeat' split) <;> simp)

@[simp] theorem vaultByteEffect_frame (v a k : Nat) (c : EccClass) (fixed : Byte) (s : State) :
    (vaultByteEffect v a k c fixed s).pending = s.pending ∧ (vaultByteEffect v a k c fixed s).variant = s.variant ∧
    (vaultByteEffect v a k c fixed s).otp = s.otp ∧ (vaultByteEffect v a k c fixed s).masters.length = s.masters.length ∧
    (vaultByteEffect v a k c fixed s).cores.channels.length = s.cores.channels.length ∧
    (vaultByteEffect v a k c fixed s).regs.debugLevel = s.regs.debugLevel ∧
    (vaultByteEffect v a k c fixed s).store.cs = s.store.cs ∧
    (vaultByteEffect v a k c fixed s).store.csDev = s.store.csDev ∧
    (vaultByteEffect v a k c fixed s).store.granules = s.store.granules ∧ (vaultByteEffect v a k c fixed s).pins = s.pins ∧
    (vaultByteEffect v a k c fixed s).stream = s.stream ∧ (vaultByteEffect v a k c fixed s).power = s.power ∧
    (vaultByteEffect v a k c fixed s).loader = s.loader ∧ (vaultByteEffect v a k c fixed s).conservator = s.conservator ∧
    (vaultByteEffect v a k c fixed s).egress = s.egress ∧ (vaultByteEffect v a k c fixed s).repair = s.repair ∧
    (vaultByteEffect v a k c fixed s).shadow = s.shadow ∧ (vaultByteEffect v a k c fixed s).inForce = s.inForce ∧
    (vaultByteEffect v a k c fixed s).otpRequest = s.otpRequest ∧
    (vaultByteEffect v a k c fixed s).heldCommands = s.heldCommands ∧
    (vaultByteEffect v a k c fixed s).crossReads = s.crossReads := by
  unfold vaultByteEffect
  first | (simp; done) | ((try dsimp only); (repeat' split) <;> first | (simp; done) | simp_all | (repeat' split) <;> simp)

@[simp] theorem vaultIndet_frame (v : Nat) (s : State) :
    (vaultIndet v s).pending = s.pending ∧ (vaultIndet v s).variant = s.variant ∧ (vaultIndet v s).otp = s.otp ∧
    (vaultIndet v s).masters.length = s.masters.length ∧ (vaultIndet v s).cores.channels.length = s.cores.channels.length ∧
    (vaultIndet v s).regs.debugLevel = s.regs.debugLevel ∧ (vaultIndet v s).store.cs = s.store.cs ∧
    (vaultIndet v s).store.csDev = s.store.csDev ∧ (vaultIndet v s).store.granules = s.store.granules ∧
    (vaultIndet v s).pins = s.pins ∧ (vaultIndet v s).stream = s.stream ∧ (vaultIndet v s).power = s.power ∧
    (vaultIndet v s).loader = s.loader ∧ (vaultIndet v s).conservator = s.conservator ∧ (vaultIndet v s).egress = s.egress ∧
    (vaultIndet v s).repair = s.repair ∧ (vaultIndet v s).shadow = s.shadow ∧ (vaultIndet v s).inForce = s.inForce ∧
    (vaultIndet v s).otpRequest = s.otpRequest ∧ (vaultIndet v s).heldCommands = s.heldCommands ∧
    (vaultIndet v s).crossReads = s.crossReads := by
  unfold vaultIndet
  first | (simp; done) | ((try dsimp only); (repeat' split) <;> first | (simp; done) | simp_all | (repeat' split) <;> simp)

@[simp] theorem fetchVault_frame (v : Nat) (s : State) :
    (fetchVault v s).pending = s.pending ∧ (fetchVault v s).variant = s.variant ∧ (fetchVault v s).otp = s.otp ∧
    (fetchVault v s).masters.length = s.masters.length ∧ (fetchVault v s).cores.channels.length = s.cores.channels.length ∧
    (fetchVault v s).regs.debugLevel = s.regs.debugLevel ∧ (fetchVault v s).store.cs = s.store.cs ∧
    (fetchVault v s).store.csDev = s.store.csDev ∧ (fetchVault v s).store.granules = s.store.granules ∧
    (fetchVault v s).pins = s.pins ∧ (fetchVault v s).stream = s.stream ∧ (fetchVault v s).power = s.power ∧
    (fetchVault v s).loader = s.loader ∧ (fetchVault v s).conservator = s.conservator ∧ (fetchVault v s).egress = s.egress ∧
    (fetchVault v s).repair = s.repair ∧ (fetchVault v s).shadow = s.shadow ∧ (fetchVault v s).inForce = s.inForce ∧
    (fetchVault v s).otpRequest = s.otpRequest ∧ (fetchVault v s).heldCommands = s.heldCommands ∧
    (fetchVault v s).crossReads = s.crossReads := by
  unfold fetchVault
  first | (simp; done) | ((try dsimp only); (repeat' split) <;> first | (simp; done) | simp_all | (repeat' split) <;> simp)

@[simp] theorem pushVault_frame (v : Nat) (s : State) :
    (pushVault v s).pending = s.pending ∧ (pushVault v s).variant = s.variant ∧ (pushVault v s).otp = s.otp ∧
    (pushVault v s).masters.length = s.masters.length ∧ (pushVault v s).cores.channels.length = s.cores.channels.length ∧
    (pushVault v s).regs.debugLevel = s.regs.debugLevel ∧ (pushVault v s).store.cs = s.store.cs ∧
    (pushVault v s).store.csDev = s.store.csDev ∧ (pushVault v s).store.granules = s.store.granules ∧
    (pushVault v s).pins = s.pins ∧ (pushVault v s).stream = s.stream ∧ (pushVault v s).power = s.power ∧
    (pushVault v s).loader = s.loader ∧ (pushVault v s).conservator = s.conservator ∧ (pushVault v s).egress = s.egress ∧
    (pushVault v s).repair = s.repair ∧ (pushVault v s).shadow = s.shadow ∧ (pushVault v s).inForce = s.inForce ∧
    (pushVault v s).otpRequest = s.otpRequest ∧ (pushVault v s).heldCommands = s.heldCommands ∧
    (pushVault v s).crossReads = s.crossReads := by
  unfold pushVault
  first | (simp; done) | ((try dsimp only); (repeat' split) <;> first | (simp; done) | simp_all | (repeat' split) <;> simp)

@[simp] theorem popVault_frame (v : Nat) (s : State) :
    (popVault v s).pending = s.pending ∧ (popVault v s).variant = s.variant ∧ (popVault v s).otp = s.otp ∧
    (popVault v s).masters.length = s.masters.length ∧ (popVault v s).cores.channels.length = s.cores.channels.length ∧
    (popVault v s).regs.debugLevel = s.regs.debugLevel ∧ (popVault v s).store.cs = s.store.cs ∧
    (popVault v s).store.csDev = s.store.csDev ∧ (popVault v s).store.granules = s.store.granules ∧
    (popVault v s).pins = s.pins ∧ (popVault v s).stream = s.stream ∧ (popVault v s).power = s.power ∧
    (popVault v s).loader = s.loader ∧ (popVault v s).conservator = s.conservator ∧ (popVault v s).egress = s.egress ∧
    (popVault v s).repair = s.repair ∧ (popVault v s).shadow = s.shadow ∧ (popVault v s).inForce = s.inForce ∧
    (popVault v s).otpRequest = s.otpRequest ∧ (popVault v s).heldCommands = s.heldCommands ∧
    (popVault v s).crossReads = s.crossReads := by
  unfold popVault
  first | (simp; done) | ((try dsimp only); (repeat' split) <;> first | (simp; done) | simp_all | (repeat' split) <;> simp)

@[simp] theorem offer_frame (l : FLink) (rs : List QRec) (s : State) :
    (offer l rs s).pending = s.pending ∧ (offer l rs s).variant = s.variant ∧ (offer l rs s).otp = s.otp ∧
    (offer l rs s).masters.length = s.masters.length ∧ (offer l rs s).cores.channels.length = s.cores.channels.length ∧
    (offer l rs s).regs.debugLevel = s.regs.debugLevel ∧ (offer l rs s).store.cs = s.store.cs ∧
    (offer l rs s).store.csDev = s.store.csDev ∧ (offer l rs s).store.granules = s.store.granules ∧
    (offer l rs s).pins = s.pins ∧ (offer l rs s).stream = s.stream ∧ (offer l rs s).power = s.power ∧
    (offer l rs s).loader = s.loader ∧ (offer l rs s).conservator = s.conservator ∧ (offer l rs s).egress = s.egress ∧
    (offer l rs s).repair = s.repair ∧ (offer l rs s).shadow = s.shadow ∧ (offer l rs s).inForce = s.inForce ∧
    (offer l rs s).otpRequest = s.otpRequest ∧ (offer l rs s).heldCommands = s.heldCommands ∧
    (offer l rs s).crossReads = s.crossReads := by
  unfold offer
  first | (simp; done) | ((try dsimp only); (repeat' split) <;> first | (simp; done) | simp_all | (repeat' split) <;> simp)

@[simp] theorem analyse_frame (site : Nat) (ps : List Passed) (s : State) :
    (analyse site ps s).pending = s.pending ∧ (analyse site ps s).variant = s.variant ∧ (analyse site ps s).otp = s.otp ∧
    (analyse site ps s).masters.length = s.masters.length ∧
    (analyse site ps s).cores.channels.length = s.cores.channels.length ∧
    (analyse site ps s).regs.debugLevel = s.regs.debugLevel ∧ (analyse site ps s).store.cs = s.store.cs ∧
    (analyse site ps s).store.csDev = s.store.csDev ∧ (analyse site ps s).store.granules = s.store.granules ∧
    (analyse site ps s).pins = s.pins ∧ (analyse site ps s).stream = s.stream ∧ (analyse site ps s).power = s.power ∧
    (analyse site ps s).loader = s.loader ∧ (analyse site ps s).conservator = s.conservator ∧
    (analyse site ps s).egress = s.egress ∧ (analyse site ps s).shadow = s.shadow ∧
    (analyse site ps s).inForce = s.inForce ∧ (analyse site ps s).otpRequest = s.otpRequest ∧
    (analyse site ps s).heldCommands = s.heldCommands ∧ (analyse site ps s).crossReads = s.crossReads := by
  unfold analyse
  first | (simp; done) | ((try dsimp only); (repeat' split) <;> first | (simp; done) | simp_all | (repeat' split) <;> simp)

@[simp] theorem processBitFail_frame (f : Nat × Nat × Nat) (rest : List (Nat × Nat × Nat)) (g : Geometry) (s : State) :
    (processBitFail f rest g s).pending = s.pending ∧ (processBitFail f rest g s).variant = s.variant ∧
    (processBitFail f rest g s).otp = s.otp ∧ (processBitFail f rest g s).masters.length = s.masters.length ∧
    (processBitFail f rest g s).cores.channels.length = s.cores.channels.length ∧
    (processBitFail f rest g s).regs.debugLevel = s.regs.debugLevel ∧ (processBitFail f rest g s).store.cs = s.store.cs ∧
    (processBitFail f rest g s).store.csDev = s.store.csDev ∧
    (processBitFail f rest g s).store.granules = s.store.granules ∧ (processBitFail f rest g s).pins = s.pins ∧
    (processBitFail f rest g s).stream = s.stream ∧ (processBitFail f rest g s).power = s.power ∧
    (processBitFail f rest g s).loader = s.loader ∧ (processBitFail f rest g s).conservator = s.conservator ∧
    (processBitFail f rest g s).egress = s.egress ∧ (processBitFail f rest g s).shadow = s.shadow ∧
    (processBitFail f rest g s).inForce = s.inForce ∧ (processBitFail f rest g s).otpRequest = s.otpRequest ∧
    (processBitFail f rest g s).heldCommands = s.heldCommands ∧ (processBitFail f rest g s).crossReads = s.crossReads := by
  unfold processBitFail
  first | (simp; done) | ((try dsimp only); (repeat' split) <;> first | (simp; done) | simp_all | (repeat' split) <;> simp)

@[simp] theorem assertStops_frame (ps : List Passed) (s : State) :
    (assertStops ps s).pending = s.pending ∧ (assertStops ps s).variant = s.variant ∧ (assertStops ps s).otp = s.otp ∧
    (assertStops ps s).masters.length = s.masters.length ∧
    (assertStops ps s).cores.channels.length = s.cores.channels.length ∧
    (assertStops ps s).regs.debugLevel = s.regs.debugLevel ∧ (assertStops ps s).store.cs = s.store.cs ∧
    (assertStops ps s).store.csDev = s.store.csDev ∧ (assertStops ps s).store.granules = s.store.granules ∧
    (assertStops ps s).pins = s.pins ∧ (assertStops ps s).stream = s.stream ∧ (assertStops ps s).power = s.power ∧
    (assertStops ps s).loader = s.loader ∧ (assertStops ps s).conservator = s.conservator ∧
    (assertStops ps s).egress = s.egress ∧ (assertStops ps s).repair = s.repair ∧ (assertStops ps s).shadow = s.shadow ∧
    (assertStops ps s).inForce = s.inForce ∧ (assertStops ps s).otpRequest = s.otpRequest ∧
    (assertStops ps s).heldCommands = s.heldCommands ∧ (assertStops ps s).crossReads = s.crossReads := by
  unfold assertStops
  first | (simp; done) | ((try dsimp only); (repeat' split) <;> first | (simp; done) | simp_all | (repeat' split) <;> simp)

@[simp] theorem strobe_frame (x : CompareCtx) (site : Nat) (s : State) :
    (strobe x site s).pending = s.pending ∧ (strobe x site s).variant = s.variant ∧ (strobe x site s).otp = s.otp ∧
    (strobe x site s).masters.length = s.masters.length ∧
    (strobe x site s).cores.channels.length = s.cores.channels.length ∧
    (strobe x site s).regs.debugLevel = s.regs.debugLevel ∧ (strobe x site s).store.cs = s.store.cs ∧
    (strobe x site s).store.csDev = s.store.csDev ∧ (strobe x site s).store.granules = s.store.granules ∧
    (strobe x site s).pins = s.pins ∧ (strobe x site s).stream = s.stream ∧ (strobe x site s).power = s.power ∧
    (strobe x site s).loader = s.loader ∧ (strobe x site s).conservator = s.conservator ∧
    (strobe x site s).egress = s.egress ∧ (strobe x site s).shadow = s.shadow ∧ (strobe x site s).inForce = s.inForce ∧
    (strobe x site s).otpRequest = s.otpRequest ∧ (strobe x site s).heldCommands = s.heldCommands ∧
    (strobe x site s).crossReads = s.crossReads := by
  unfold strobe
  first | (simp; done) | ((try dsimp only); (repeat' split) <;> first | (simp; done) | simp_all | (repeat' split) <;> simp)

@[simp] theorem enqueue_frame (l : FLink) (r : QRec) (s : State) :
    (enqueue l r s).pending = s.pending ∧ (enqueue l r s).variant = s.variant ∧ (enqueue l r s).otp = s.otp ∧
    (enqueue l r s).masters.length = s.masters.length ∧ (enqueue l r s).cores.channels.length = s.cores.channels.length ∧
    (enqueue l r s).regs.debugLevel = s.regs.debugLevel ∧ (enqueue l r s).store.cs = s.store.cs ∧
    (enqueue l r s).store.csDev = s.store.csDev ∧ (enqueue l r s).store.granules = s.store.granules ∧
    (enqueue l r s).pins = s.pins ∧ (enqueue l r s).stream = s.stream ∧ (enqueue l r s).power = s.power ∧
    (enqueue l r s).loader = s.loader ∧ (enqueue l r s).conservator = s.conservator ∧ (enqueue l r s).egress = s.egress ∧
    (enqueue l r s).repair = s.repair ∧ (enqueue l r s).shadow = s.shadow ∧ (enqueue l r s).inForce = s.inForce ∧
    (enqueue l r s).otpRequest = s.otpRequest ∧ (enqueue l r s).heldCommands = s.heldCommands ∧
    (enqueue l r s).crossReads = s.crossReads := by
  unfold enqueue
  first | (simp; done) | ((try dsimp only); (repeat' split) <;> first | (simp; done) | simp_all | (repeat' split) <;> simp)

@[simp] theorem loseRec_frame (l : FLink) (r : QRec) (s : State) :
    (loseRec l r s).pending = s.pending ∧ (loseRec l r s).variant = s.variant ∧ (loseRec l r s).otp = s.otp ∧
    (loseRec l r s).masters.length = s.masters.length ∧ (loseRec l r s).cores.channels.length = s.cores.channels.length ∧
    (loseRec l r s).regs.debugLevel = s.regs.debugLevel ∧ (loseRec l r s).store.cs = s.store.cs ∧
    (loseRec l r s).store.csDev = s.store.csDev ∧ (loseRec l r s).store.granules = s.store.granules ∧
    (loseRec l r s).pins = s.pins ∧ (loseRec l r s).stream = s.stream ∧ (loseRec l r s).power = s.power ∧
    (loseRec l r s).loader = s.loader ∧ (loseRec l r s).conservator = s.conservator ∧ (loseRec l r s).egress = s.egress ∧
    (loseRec l r s).repair = s.repair ∧ (loseRec l r s).shadow = s.shadow ∧ (loseRec l r s).inForce = s.inForce ∧
    (loseRec l r s).otpRequest = s.otpRequest ∧ (loseRec l r s).heldCommands = s.heldCommands ∧
    (loseRec l r s).crossReads = s.crossReads := by
  unfold loseRec
  first | (simp; done) | ((try dsimp only); (repeat' split) <;> first | (simp; done) | simp_all | (repeat' split) <;> simp)

@[simp] theorem enterWaiting_frame (l : FLink) (rs kept : List QRec) (n : Nat) (s : State) :
    (enterWaiting l rs kept n s).1.pending = s.pending ∧ (enterWaiting l rs kept n s).1.variant = s.variant ∧
    (enterWaiting l rs kept n s).1.otp = s.otp ∧ (enterWaiting l rs kept n s).1.masters.length = s.masters.length ∧
    (enterWaiting l rs kept n s).1.cores.channels.length = s.cores.channels.length ∧
    (enterWaiting l rs kept n s).1.regs.debugLevel = s.regs.debugLevel ∧
    (enterWaiting l rs kept n s).1.store.cs = s.store.cs ∧ (enterWaiting l rs kept n s).1.store.csDev = s.store.csDev ∧
    (enterWaiting l rs kept n s).1.store.granules = s.store.granules ∧ (enterWaiting l rs kept n s).1.pins = s.pins ∧
    (enterWaiting l rs kept n s).1.stream = s.stream ∧ (enterWaiting l rs kept n s).1.power = s.power ∧
    (enterWaiting l rs kept n s).1.loader = s.loader ∧ (enterWaiting l rs kept n s).1.conservator = s.conservator ∧
    (enterWaiting l rs kept n s).1.egress = s.egress ∧ (enterWaiting l rs kept n s).1.repair = s.repair ∧
    (enterWaiting l rs kept n s).1.shadow = s.shadow ∧ (enterWaiting l rs kept n s).1.inForce = s.inForce ∧
    (enterWaiting l rs kept n s).1.otpRequest = s.otpRequest ∧
    (enterWaiting l rs kept n s).1.heldCommands = s.heldCommands ∧
    (enterWaiting l rs kept n s).1.crossReads = s.crossReads := by
  induction rs generalizing kept n s with
  | nil => simp [enterWaiting]
  | cons _ _ ih => (unfold enterWaiting; first | (simp [ih]; done) | ((try dsimp only); (repeat' split) <;> first | rfl | (simp [ih]; done)))

@[simp] theorem enterOffered_frame (l : FLink) (rs : List QRec) (n : Nat) (s : State) :
    (enterOffered l rs n s).pending = s.pending ∧ (enterOffered l rs n s).variant = s.variant ∧
    (enterOffered l rs n s).otp = s.otp ∧ (enterOffered l rs n s).masters.length = s.masters.length ∧
    (enterOffered l rs n s).cores.channels.length = s.cores.channels.length ∧
    (enterOffered l rs n s).regs.debugLevel = s.regs.debugLevel ∧ (enterOffered l rs n s).store.cs = s.store.cs ∧
    (enterOffered l rs n s).store.csDev = s.store.csDev ∧ (enterOffered l rs n s).store.granules = s.store.granules ∧
    (enterOffered l rs n s).pins = s.pins ∧ (enterOffered l rs n s).stream = s.stream ∧
    (enterOffered l rs n s).power = s.power ∧ (enterOffered l rs n s).loader = s.loader ∧
    (enterOffered l rs n s).conservator = s.conservator ∧ (enterOffered l rs n s).egress = s.egress ∧
    (enterOffered l rs n s).repair = s.repair ∧ (enterOffered l rs n s).shadow = s.shadow ∧
    (enterOffered l rs n s).inForce = s.inForce ∧ (enterOffered l rs n s).otpRequest = s.otpRequest ∧
    (enterOffered l rs n s).heldCommands = s.heldCommands ∧ (enterOffered l rs n s).crossReads = s.crossReads := by
  induction rs generalizing n s with
  | nil => simp [enterOffered]
  | cons _ _ ih => (unfold enterOffered; first | (simp [ih]; done) | ((try dsimp only); (repeat' split) <;> first | rfl | (simp [ih]; done)))

@[simp] theorem enterRecords_frame (l : FLink) (s : State) :
    (enterRecords l s).pending = s.pending ∧ (enterRecords l s).variant = s.variant ∧ (enterRecords l s).otp = s.otp ∧
    (enterRecords l s).masters.length = s.masters.length ∧
    (enterRecords l s).cores.channels.length = s.cores.channels.length ∧
    (enterRecords l s).regs.debugLevel = s.regs.debugLevel ∧ (enterRecords l s).store.cs = s.store.cs ∧
    (enterRecords l s).store.csDev = s.store.csDev ∧ (enterRecords l s).store.granules = s.store.granules ∧
    (enterRecords l s).pins = s.pins ∧ (enterRecords l s).stream = s.stream ∧ (enterRecords l s).power = s.power ∧
    (enterRecords l s).loader = s.loader ∧ (enterRecords l s).conservator = s.conservator ∧
    (enterRecords l s).egress = s.egress ∧ (enterRecords l s).repair = s.repair ∧ (enterRecords l s).shadow = s.shadow ∧
    (enterRecords l s).inForce = s.inForce ∧ (enterRecords l s).otpRequest = s.otpRequest ∧
    (enterRecords l s).heldCommands = s.heldCommands ∧ (enterRecords l s).crossReads = s.crossReads := by
  unfold enterRecords
  first | (simp; done) | ((try dsimp only); (repeat' split) <;> first | (simp; done) | simp_all | (repeat' split) <;> simp)

@[simp] theorem putHeld_frame  (s : State) :
    (putHeld s).pending = s.pending ∧ (putHeld s).variant = s.variant ∧ (putHeld s).otp = s.otp ∧
    (putHeld s).masters.length = s.masters.length ∧ (putHeld s).cores.channels.length = s.cores.channels.length ∧
    (putHeld s).regs.debugLevel = s.regs.debugLevel ∧ (putHeld s).store.cs = s.store.cs ∧
    (putHeld s).store.csDev = s.store.csDev ∧ (putHeld s).store.granules = s.store.granules ∧ (putHeld s).pins = s.pins ∧
    (putHeld s).stream = s.stream ∧ (putHeld s).power = s.power ∧ (putHeld s).loader = s.loader ∧
    (putHeld s).conservator = s.conservator ∧ (putHeld s).egress = s.egress ∧ (putHeld s).repair = s.repair ∧
    (putHeld s).shadow = s.shadow ∧ (putHeld s).inForce = s.inForce ∧ (putHeld s).otpRequest = s.otpRequest ∧
    (putHeld s).heldCommands = s.heldCommands ∧ (putHeld s).crossReads = s.crossReads := by
  unfold putHeld
  first | (simp; done) | ((try dsimp only); (repeat' split) <;> first | (simp; done) | simp_all | (repeat' split) <;> simp)

@[simp] theorem placeGap_frame (l : FLink) (n : DWord) (x : Lost) (s : State) :
    (placeGap l n x s).pending = s.pending ∧ (placeGap l n x s).variant = s.variant ∧ (placeGap l n x s).otp = s.otp ∧
    (placeGap l n x s).masters.length = s.masters.length ∧
    (placeGap l n x s).cores.channels.length = s.cores.channels.length ∧
    (placeGap l n x s).regs.debugLevel = s.regs.debugLevel ∧ (placeGap l n x s).store.cs = s.store.cs ∧
    (placeGap l n x s).store.csDev = s.store.csDev ∧ (placeGap l n x s).store.granules = s.store.granules ∧
    (placeGap l n x s).pins = s.pins ∧ (placeGap l n x s).stream = s.stream ∧ (placeGap l n x s).power = s.power ∧
    (placeGap l n x s).loader = s.loader ∧ (placeGap l n x s).conservator = s.conservator ∧
    (placeGap l n x s).egress = s.egress ∧ (placeGap l n x s).repair = s.repair ∧ (placeGap l n x s).shadow = s.shadow ∧
    (placeGap l n x s).inForce = s.inForce ∧ (placeGap l n x s).otpRequest = s.otpRequest ∧
    (placeGap l n x s).heldCommands = s.heldCommands ∧ (placeGap l n x s).crossReads = s.crossReads := by
  unfold placeGap
  first | (simp; done) | ((try dsimp only); (repeat' split) <;> first | (simp; done) | simp_all | (repeat' split) <;> simp)

@[simp] theorem notePassed_frame (l : FLink) (r : QRec) (s : State) :
    (notePassed l r s).pending = s.pending ∧ (notePassed l r s).variant = s.variant ∧ (notePassed l r s).otp = s.otp ∧
    (notePassed l r s).masters.length = s.masters.length ∧
    (notePassed l r s).cores.channels.length = s.cores.channels.length ∧
    (notePassed l r s).regs.debugLevel = s.regs.debugLevel ∧ (notePassed l r s).store.cs = s.store.cs ∧
    (notePassed l r s).store.csDev = s.store.csDev ∧ (notePassed l r s).store.granules = s.store.granules ∧
    (notePassed l r s).pins = s.pins ∧ (notePassed l r s).stream = s.stream ∧ (notePassed l r s).power = s.power ∧
    (notePassed l r s).loader = s.loader ∧ (notePassed l r s).conservator = s.conservator ∧
    (notePassed l r s).egress = s.egress ∧ (notePassed l r s).repair = s.repair ∧ (notePassed l r s).shadow = s.shadow ∧
    (notePassed l r s).inForce = s.inForce ∧ (notePassed l r s).otpRequest = s.otpRequest ∧
    (notePassed l r s).heldCommands = s.heldCommands ∧ (notePassed l r s).crossReads = s.crossReads := by
  unfold notePassed
  first | (simp; done) | ((try dsimp only); (repeat' split) <;> first | (simp; done) | simp_all | (repeat' split) <;> simp)

@[simp] theorem passOn_frame (l : FLink) (r : QRec) (s : State) :
    (passOn l r s).pending = s.pending ∧ (passOn l r s).variant = s.variant ∧ (passOn l r s).otp = s.otp ∧
    (passOn l r s).masters.length = s.masters.length ∧ (passOn l r s).cores.channels.length = s.cores.channels.length ∧
    (passOn l r s).regs.debugLevel = s.regs.debugLevel ∧ (passOn l r s).pins = s.pins ∧ (passOn l r s).stream = s.stream ∧
    (passOn l r s).power = s.power ∧ (passOn l r s).loader = s.loader ∧ (passOn l r s).conservator = s.conservator ∧
    (passOn l r s).egress = s.egress ∧ (passOn l r s).repair = s.repair ∧ (passOn l r s).shadow = s.shadow ∧
    (passOn l r s).inForce = s.inForce ∧ (passOn l r s).otpRequest = s.otpRequest ∧
    (passOn l r s).heldCommands = s.heldCommands ∧ (passOn l r s).crossReads = s.crossReads := by
  unfold passOn
  first | (simp; done) | ((try dsimp only); (repeat' split) <;> first | (simp; done) | simp_all | (repeat' split) <;> simp)

@[simp] theorem setChannel_frame (l : FLink) (c : RingChannel) (s : State) :
    (setChannel l c s).pending = s.pending ∧ (setChannel l c s).variant = s.variant ∧ (setChannel l c s).otp = s.otp ∧
    (setChannel l c s).masters.length = s.masters.length ∧
    (setChannel l c s).cores.channels.length = s.cores.channels.length ∧
    (setChannel l c s).regs.debugLevel = s.regs.debugLevel ∧ (setChannel l c s).store.cs = s.store.cs ∧
    (setChannel l c s).store.csDev = s.store.csDev ∧ (setChannel l c s).store.granules = s.store.granules ∧
    (setChannel l c s).pins = s.pins ∧ (setChannel l c s).power = s.power ∧ (setChannel l c s).loader = s.loader ∧
    (setChannel l c s).conservator = s.conservator ∧ (setChannel l c s).egress = s.egress ∧
    (setChannel l c s).repair = s.repair ∧ (setChannel l c s).shadow = s.shadow ∧ (setChannel l c s).inForce = s.inForce ∧
    (setChannel l c s).otpRequest = s.otpRequest ∧ (setChannel l c s).heldCommands = s.heldCommands ∧
    (setChannel l c s).crossReads = s.crossReads := by
  unfold setChannel
  first | (simp; done) | ((try dsimp only); (repeat' split) <;> first | (simp; done) | simp_all | (repeat' split) <;> simp)

@[simp] theorem readRingSlot_frame (l : FLink) (slot index : Nat) (s : State) :
    (readRingSlot l slot index s).2.pending = s.pending ∧ (readRingSlot l slot index s).2.variant = s.variant ∧
    (readRingSlot l slot index s).2.otp = s.otp ∧ (readRingSlot l slot index s).2.masters.length = s.masters.length ∧
    (readRingSlot l slot index s).2.cores.channels.length = s.cores.channels.length ∧
    (readRingSlot l slot index s).2.regs.debugLevel = s.regs.debugLevel ∧ (readRingSlot l slot index s).2.pins = s.pins ∧
    (readRingSlot l slot index s).2.stream = s.stream ∧ (readRingSlot l slot index s).2.power = s.power ∧
    (readRingSlot l slot index s).2.loader = s.loader ∧ (readRingSlot l slot index s).2.conservator = s.conservator ∧
    (readRingSlot l slot index s).2.egress = s.egress ∧ (readRingSlot l slot index s).2.repair = s.repair ∧
    (readRingSlot l slot index s).2.shadow = s.shadow ∧ (readRingSlot l slot index s).2.inForce = s.inForce ∧
    (readRingSlot l slot index s).2.otpRequest = s.otpRequest ∧
    (readRingSlot l slot index s).2.heldCommands = s.heldCommands ∧
    (readRingSlot l slot index s).2.crossReads = s.crossReads := by
  unfold readRingSlot
  first | (simp; done) | ((try dsimp only); (repeat' split) <;> first | (simp; done) | simp_all | (repeat' split) <;> simp)

@[simp] theorem readRing_frame (l : FLink) (rs : List RingRec) (n : Nat) (s : State) :
    (readRing l rs n s).2.pending = s.pending ∧ (readRing l rs n s).2.variant = s.variant ∧
    (readRing l rs n s).2.otp = s.otp ∧ (readRing l rs n s).2.masters.length = s.masters.length ∧
    (readRing l rs n s).2.cores.channels.length = s.cores.channels.length ∧
    (readRing l rs n s).2.regs.debugLevel = s.regs.debugLevel ∧ (readRing l rs n s).2.pins = s.pins ∧
    (readRing l rs n s).2.stream = s.stream ∧ (readRing l rs n s).2.power = s.power ∧
    (readRing l rs n s).2.loader = s.loader ∧ (readRing l rs n s).2.conservator = s.conservator ∧
    (readRing l rs n s).2.egress = s.egress ∧ (readRing l rs n s).2.repair = s.repair ∧
    (readRing l rs n s).2.shadow = s.shadow ∧ (readRing l rs n s).2.inForce = s.inForce ∧
    (readRing l rs n s).2.otpRequest = s.otpRequest ∧ (readRing l rs n s).2.heldCommands = s.heldCommands ∧
    (readRing l rs n s).2.crossReads = s.crossReads := by
  induction rs generalizing n s with
  | nil => simp [readRing]
  | cons _ _ ih => (unfold readRing; first | (simp [ih]; done) | ((try dsimp only); (repeat' split) <;> first | rfl | (simp [ih]; done)))

@[simp] theorem sendLedger_frame (l : FLink) (s : State) :
    (sendLedger l s).pending = s.pending ∧ (sendLedger l s).variant = s.variant ∧ (sendLedger l s).otp = s.otp ∧
    (sendLedger l s).masters.length = s.masters.length ∧ (sendLedger l s).cores.channels.length = s.cores.channels.length ∧
    (sendLedger l s).regs.debugLevel = s.regs.debugLevel ∧ (sendLedger l s).pins = s.pins ∧
    (sendLedger l s).stream = s.stream ∧ (sendLedger l s).power = s.power ∧ (sendLedger l s).loader = s.loader ∧
    (sendLedger l s).conservator = s.conservator ∧ (sendLedger l s).egress = s.egress ∧ (sendLedger l s).repair = s.repair ∧
    (sendLedger l s).shadow = s.shadow ∧ (sendLedger l s).inForce = s.inForce ∧ (sendLedger l s).otpRequest = s.otpRequest ∧
    (sendLedger l s).heldCommands = s.heldCommands ∧ (sendLedger l s).crossReads = s.crossReads := by
  unfold sendLedger
  first | (simp; done) | ((try dsimp only); (repeat' split) <;> first | (simp; done) | simp_all | (repeat' split) <;> simp)

@[simp] theorem passNext_frame (l : FLink) (s : State) :
    (passNext l s).pending = s.pending ∧ (passNext l s).variant = s.variant ∧ (passNext l s).otp = s.otp ∧
    (passNext l s).masters.length = s.masters.length ∧ (passNext l s).cores.channels.length = s.cores.channels.length ∧
    (passNext l s).regs.debugLevel = s.regs.debugLevel ∧ (passNext l s).pins = s.pins ∧ (passNext l s).stream = s.stream ∧
    (passNext l s).power = s.power ∧ (passNext l s).loader = s.loader ∧ (passNext l s).conservator = s.conservator ∧
    (passNext l s).egress = s.egress ∧ (passNext l s).repair = s.repair ∧ (passNext l s).shadow = s.shadow ∧
    (passNext l s).inForce = s.inForce ∧ (passNext l s).otpRequest = s.otpRequest ∧
    (passNext l s).heldCommands = s.heldCommands ∧ (passNext l s).crossReads = s.crossReads := by
  unfold passNext
  first | (simp; done) | ((try dsimp only); (repeat' split) <;> first | (simp; done) | simp_all | (repeat' split) <;> simp)

@[simp] theorem writeHostRecord_frame (l : FLink) (f : FlightRec) (s : State) :
    (writeHostRecord l f s).pending = s.pending ∧ (writeHostRecord l f s).variant = s.variant ∧
    (writeHostRecord l f s).otp = s.otp ∧ (writeHostRecord l f s).masters.length = s.masters.length ∧
    (writeHostRecord l f s).cores.channels.length = s.cores.channels.length ∧
    (writeHostRecord l f s).regs.debugLevel = s.regs.debugLevel ∧ (writeHostRecord l f s).store.cs = s.store.cs ∧
    (writeHostRecord l f s).store.csDev = s.store.csDev ∧ (writeHostRecord l f s).store.granules = s.store.granules ∧
    (writeHostRecord l f s).pins = s.pins ∧ (writeHostRecord l f s).power = s.power ∧
    (writeHostRecord l f s).loader = s.loader ∧ (writeHostRecord l f s).conservator = s.conservator ∧
    (writeHostRecord l f s).egress = s.egress ∧ (writeHostRecord l f s).repair = s.repair ∧
    (writeHostRecord l f s).shadow = s.shadow ∧ (writeHostRecord l f s).inForce = s.inForce ∧
    (writeHostRecord l f s).otpRequest = s.otpRequest ∧ (writeHostRecord l f s).heldCommands = s.heldCommands ∧
    (writeHostRecord l f s).crossReads = s.crossReads := by
  unfold writeHostRecord
  first | (simp; done) | ((try dsimp only); (repeat' split) <;> first | (simp; done) | simp_all | (repeat' split) <;> simp)

@[simp] theorem drainCrossed_frame (l : FLink) (rs : List FlightRec) (s : State) :
    (drainCrossed l rs s).pending = s.pending ∧ (drainCrossed l rs s).variant = s.variant ∧
    (drainCrossed l rs s).otp = s.otp ∧ (drainCrossed l rs s).masters.length = s.masters.length ∧
    (drainCrossed l rs s).cores.channels.length = s.cores.channels.length ∧
    (drainCrossed l rs s).regs.debugLevel = s.regs.debugLevel ∧ (drainCrossed l rs s).store.cs = s.store.cs ∧
    (drainCrossed l rs s).store.csDev = s.store.csDev ∧ (drainCrossed l rs s).store.granules = s.store.granules ∧
    (drainCrossed l rs s).pins = s.pins ∧ (drainCrossed l rs s).power = s.power ∧ (drainCrossed l rs s).loader = s.loader ∧
    (drainCrossed l rs s).conservator = s.conservator ∧ (drainCrossed l rs s).egress = s.egress ∧
    (drainCrossed l rs s).repair = s.repair ∧ (drainCrossed l rs s).shadow = s.shadow ∧
    (drainCrossed l rs s).inForce = s.inForce ∧ (drainCrossed l rs s).otpRequest = s.otpRequest ∧
    (drainCrossed l rs s).heldCommands = s.heldCommands ∧ (drainCrossed l rs s).crossReads = s.crossReads := by
  induction rs generalizing s with
  | nil => simp [drainCrossed]
  | cons _ _ ih => (unfold drainCrossed; first | (simp [ih]; done) | ((try dsimp only); (repeat' split) <;> first | rfl | (simp [ih]; done)))

@[simp] theorem takeLedgerCell_frame (l : FLink) (records : List Record) (s : State) :
    (takeLedgerCell l records s).pending = s.pending ∧ (takeLedgerCell l records s).variant = s.variant ∧
    (takeLedgerCell l records s).otp = s.otp ∧ (takeLedgerCell l records s).masters.length = s.masters.length ∧
    (takeLedgerCell l records s).cores.channels.length = s.cores.channels.length ∧
    (takeLedgerCell l records s).regs.debugLevel = s.regs.debugLevel ∧ (takeLedgerCell l records s).store.cs = s.store.cs ∧
    (takeLedgerCell l records s).store.csDev = s.store.csDev ∧
    (takeLedgerCell l records s).store.granules = s.store.granules ∧ (takeLedgerCell l records s).pins = s.pins ∧
    (takeLedgerCell l records s).power = s.power ∧ (takeLedgerCell l records s).loader = s.loader ∧
    (takeLedgerCell l records s).conservator = s.conservator ∧ (takeLedgerCell l records s).egress = s.egress ∧
    (takeLedgerCell l records s).repair = s.repair ∧ (takeLedgerCell l records s).shadow = s.shadow ∧
    (takeLedgerCell l records s).inForce = s.inForce ∧ (takeLedgerCell l records s).otpRequest = s.otpRequest ∧
    (takeLedgerCell l records s).heldCommands = s.heldCommands ∧ (takeLedgerCell l records s).crossReads = s.crossReads := by
  unfold takeLedgerCell
  first | (simp; done) | ((try dsimp only); (repeat' split) <;> first | (simp; done) | simp_all | (repeat' split) <;> simp)

@[simp] theorem writeLcons_frame (l : FLink) (v : DWord) (s : State) :
    (writeLcons l v s).pending = s.pending ∧ (writeLcons l v s).variant = s.variant ∧ (writeLcons l v s).otp = s.otp ∧
    (writeLcons l v s).masters.length = s.masters.length ∧
    (writeLcons l v s).cores.channels.length = s.cores.channels.length ∧
    (writeLcons l v s).regs.debugLevel = s.regs.debugLevel ∧ (writeLcons l v s).pins = s.pins ∧
    (writeLcons l v s).power = s.power ∧ (writeLcons l v s).loader = s.loader ∧
    (writeLcons l v s).conservator = s.conservator ∧ (writeLcons l v s).egress = s.egress ∧
    (writeLcons l v s).repair = s.repair ∧ (writeLcons l v s).shadow = s.shadow ∧ (writeLcons l v s).inForce = s.inForce ∧
    (writeLcons l v s).otpRequest = s.otpRequest ∧ (writeLcons l v s).heldCommands = s.heldCommands ∧
    (writeLcons l v s).crossReads = s.crossReads := by
  unfold writeLcons
  first | (simp; done) | ((try dsimp only); (repeat' split) <;> first | (simp; done) | simp_all | (repeat' split) <;> simp)

@[simp] theorem writeLsize_frame (l : FLink) (v : BitVec 5) (s : State) :
    (writeLsize l v s).pending = s.pending ∧ (writeLsize l v s).variant = s.variant ∧ (writeLsize l v s).otp = s.otp ∧
    (writeLsize l v s).masters.length = s.masters.length ∧
    (writeLsize l v s).cores.channels.length = s.cores.channels.length ∧
    (writeLsize l v s).regs.debugLevel = s.regs.debugLevel ∧ (writeLsize l v s).pins = s.pins ∧
    (writeLsize l v s).power = s.power ∧ (writeLsize l v s).loader = s.loader ∧
    (writeLsize l v s).conservator = s.conservator ∧ (writeLsize l v s).egress = s.egress ∧
    (writeLsize l v s).repair = s.repair ∧ (writeLsize l v s).shadow = s.shadow ∧ (writeLsize l v s).inForce = s.inForce ∧
    (writeLsize l v s).otpRequest = s.otpRequest ∧ (writeLsize l v s).heldCommands = s.heldCommands ∧
    (writeLsize l v s).crossReads = s.crossReads := by
  unfold writeLsize
  first | (simp; done) | ((try dsimp only); (repeat' split) <;> first | (simp; done) | simp_all | (repeat' split) <;> simp)

@[simp] theorem snapshotDone_frame (b : Batch) (s : State) :
    (snapshotDone b s).pending = s.pending ∧ (snapshotDone b s).variant = s.variant ∧ (snapshotDone b s).otp = s.otp ∧
    (snapshotDone b s).masters.length = s.masters.length ∧
    (snapshotDone b s).cores.channels.length = s.cores.channels.length ∧
    (snapshotDone b s).regs.debugLevel = s.regs.debugLevel ∧ (snapshotDone b s).store.cs = s.store.cs ∧
    (snapshotDone b s).store.csDev = s.store.csDev ∧ (snapshotDone b s).store.granules = s.store.granules ∧
    (snapshotDone b s).pins = s.pins ∧ (snapshotDone b s).stream = s.stream ∧ (snapshotDone b s).power = s.power ∧
    (snapshotDone b s).loader = s.loader ∧ (snapshotDone b s).conservator = s.conservator ∧
    (snapshotDone b s).egress = s.egress ∧ (snapshotDone b s).repair = s.repair ∧ (snapshotDone b s).shadow = s.shadow ∧
    (snapshotDone b s).inForce = s.inForce ∧ (snapshotDone b s).otpRequest = s.otpRequest ∧
    (snapshotDone b s).heldCommands = s.heldCommands ∧ (snapshotDone b s).crossReads = s.crossReads := by
  unfold snapshotDone
  first | (simp; done) | ((try dsimp only); (repeat' split) <;> first | (simp; done) | simp_all | (repeat' split) <;> simp)

@[simp] theorem batchVisible_frame (b : Batch) (s : State) :
    (batchVisible b s).pending = s.pending ∧ (batchVisible b s).variant = s.variant ∧ (batchVisible b s).otp = s.otp ∧
    (batchVisible b s).masters.length = s.masters.length ∧
    (batchVisible b s).cores.channels.length = s.cores.channels.length ∧
    (batchVisible b s).regs.debugLevel = s.regs.debugLevel ∧ (batchVisible b s).store.cs = s.store.cs ∧
    (batchVisible b s).store.csDev = s.store.csDev ∧ (batchVisible b s).store.granules = s.store.granules ∧
    (batchVisible b s).pins = s.pins ∧ (batchVisible b s).stream = s.stream ∧ (batchVisible b s).power = s.power ∧
    (batchVisible b s).loader = s.loader ∧ (batchVisible b s).conservator = s.conservator ∧
    (batchVisible b s).egress = s.egress ∧ (batchVisible b s).repair = s.repair ∧ (batchVisible b s).shadow = s.shadow ∧
    (batchVisible b s).inForce = s.inForce ∧ (batchVisible b s).otpRequest = s.otpRequest ∧
    (batchVisible b s).heldCommands = s.heldCommands ∧ (batchVisible b s).crossReads = s.crossReads := by
  unfold batchVisible
  first | (simp; done) | ((try dsimp only); (repeat' split) <;> first | (simp; done) | simp_all | (repeat' split) <;> simp)

@[simp] theorem raiseRepair_frame (l : FLink) (s : State) :
    (raiseRepair l s).pending = s.pending ∧ (raiseRepair l s).variant = s.variant ∧ (raiseRepair l s).otp = s.otp ∧
    (raiseRepair l s).masters.length = s.masters.length ∧
    (raiseRepair l s).cores.channels.length = s.cores.channels.length ∧
    (raiseRepair l s).regs.debugLevel = s.regs.debugLevel ∧ (raiseRepair l s).store.cs = s.store.cs ∧
    (raiseRepair l s).store.csDev = s.store.csDev ∧ (raiseRepair l s).store.granules = s.store.granules ∧
    (raiseRepair l s).pins = s.pins ∧ (raiseRepair l s).stream = s.stream ∧ (raiseRepair l s).power = s.power ∧
    (raiseRepair l s).loader = s.loader ∧ (raiseRepair l s).conservator = s.conservator ∧
    (raiseRepair l s).egress = s.egress ∧ (raiseRepair l s).shadow = s.shadow ∧ (raiseRepair l s).inForce = s.inForce ∧
    (raiseRepair l s).otpRequest = s.otpRequest ∧ (raiseRepair l s).heldCommands = s.heldCommands ∧
    (raiseRepair l s).crossReads = s.crossReads := by
  unfold raiseRepair
  first | (simp; done) | ((try dsimp only); (repeat' split) <;> first | (simp; done) | simp_all | (repeat' split) <;> simp)

@[simp] theorem writeback_frame (l : FLink) (d : CommitDue) (rest : List CommitDue) (s : State) :
    (writeback l d rest s).pending = s.pending ∧ (writeback l d rest s).variant = s.variant ∧
    (writeback l d rest s).otp = s.otp ∧ (writeback l d rest s).masters.length = s.masters.length ∧
    (writeback l d rest s).cores.channels.length = s.cores.channels.length ∧
    (writeback l d rest s).regs.debugLevel = s.regs.debugLevel ∧ (writeback l d rest s).store.cs = s.store.cs ∧
    (writeback l d rest s).store.csDev = s.store.csDev ∧ (writeback l d rest s).store.granules = s.store.granules ∧
    (writeback l d rest s).pins = s.pins ∧ (writeback l d rest s).power = s.power ∧
    (writeback l d rest s).loader = s.loader ∧ (writeback l d rest s).conservator = s.conservator ∧
    (writeback l d rest s).egress = s.egress ∧ (writeback l d rest s).shadow = s.shadow ∧
    (writeback l d rest s).inForce = s.inForce ∧ (writeback l d rest s).otpRequest = s.otpRequest ∧
    (writeback l d rest s).heldCommands = s.heldCommands ∧ (writeback l d rest s).crossReads = s.crossReads := by
  unfold writeback
  first | (simp; done) | ((try dsimp only); (repeat' split) <;> first | (simp; done) | simp_all | (repeat' split) <;> simp)

@[simp] theorem ongoingWindows_frame (b : Batch) (s0 : State) :
    (ongoingWindows b s0).pending = s0.pending ∧ (ongoingWindows b s0).variant = s0.variant ∧
    (ongoingWindows b s0).otp = s0.otp ∧ (ongoingWindows b s0).masters.length = s0.masters.length ∧
    (ongoingWindows b s0).cores.channels.length = s0.cores.channels.length ∧
    (ongoingWindows b s0).regs.debugLevel = s0.regs.debugLevel ∧ (ongoingWindows b s0).store.cs = s0.store.cs ∧
    (ongoingWindows b s0).store.csDev = s0.store.csDev ∧ (ongoingWindows b s0).store.granules = s0.store.granules ∧
    (ongoingWindows b s0).pins = s0.pins ∧ (ongoingWindows b s0).stream = s0.stream ∧
    (ongoingWindows b s0).power = s0.power ∧ (ongoingWindows b s0).loader = s0.loader ∧
    (ongoingWindows b s0).conservator = s0.conservator ∧ (ongoingWindows b s0).egress = s0.egress ∧
    (ongoingWindows b s0).repair = s0.repair ∧ (ongoingWindows b s0).shadow = s0.shadow ∧
    (ongoingWindows b s0).inForce = s0.inForce ∧ (ongoingWindows b s0).otpRequest = s0.otpRequest ∧
    (ongoingWindows b s0).heldCommands = s0.heldCommands ∧ (ongoingWindows b s0).crossReads = s0.crossReads := by
  unfold ongoingWindows
  first | (simp; done) | ((try dsimp only); (repeat' split) <;> first | (simp; done) | simp_all | (repeat' split) <;> simp)

@[simp] theorem absorb_frame (l : FLink) (b : Batch) (sites : List Nat) (s : State) :
    (absorb l b sites s).pending = s.pending ∧ (absorb l b sites s).variant = s.variant ∧ (absorb l b sites s).otp = s.otp ∧
    (absorb l b sites s).masters.length = s.masters.length ∧
    (absorb l b sites s).cores.channels.length = s.cores.channels.length ∧
    (absorb l b sites s).regs.debugLevel = s.regs.debugLevel ∧ (absorb l b sites s).store.cs = s.store.cs ∧
    (absorb l b sites s).store.csDev = s.store.csDev ∧ (absorb l b sites s).store.granules = s.store.granules ∧
    (absorb l b sites s).pins = s.pins ∧ (absorb l b sites s).stream = s.stream ∧ (absorb l b sites s).power = s.power ∧
    (absorb l b sites s).loader = s.loader ∧ (absorb l b sites s).conservator = s.conservator ∧
    (absorb l b sites s).egress = s.egress ∧ (absorb l b sites s).shadow = s.shadow ∧
    (absorb l b sites s).inForce = s.inForce ∧ (absorb l b sites s).otpRequest = s.otpRequest ∧
    (absorb l b sites s).heldCommands = s.heldCommands ∧ (absorb l b sites s).crossReads = s.crossReads := by
  unfold absorb
  first | (simp; done) | ((try dsimp only); (repeat' split) <;> first | (simp; done) | simp_all | (repeat' split) <;> simp)

@[simp] theorem commitDone_frame (b : Batch) (s : State) :
    (commitDone b s).pending = s.pending ∧ (commitDone b s).variant = s.variant ∧ (commitDone b s).otp = s.otp ∧
    (commitDone b s).masters.length = s.masters.length ∧ (commitDone b s).cores.channels.length = s.cores.channels.length ∧
    (commitDone b s).regs.debugLevel = s.regs.debugLevel ∧ (commitDone b s).store.cs = s.store.cs ∧
    (commitDone b s).store.csDev = s.store.csDev ∧ (commitDone b s).store.granules = s.store.granules ∧
    (commitDone b s).pins = s.pins ∧ (commitDone b s).power = s.power ∧ (commitDone b s).loader = s.loader ∧
    (commitDone b s).conservator = s.conservator ∧ (commitDone b s).egress = s.egress ∧ (commitDone b s).repair = s.repair ∧
    (commitDone b s).shadow = s.shadow ∧ (commitDone b s).inForce = s.inForce ∧ (commitDone b s).otpRequest = s.otpRequest ∧
    (commitDone b s).heldCommands = s.heldCommands ∧ (commitDone b s).crossReads = s.crossReads := by
  unfold commitDone
  first | (simp; done) | ((try dsimp only); (repeat' split) <;> first | (simp; done) | simp_all | (repeat' split) <;> simp)

@[simp] theorem commitLink_frame (l : FLink) (b0 : Batch) (s : State) :
    (commitLink l b0 s).pending = s.pending ∧ (commitLink l b0 s).variant = s.variant ∧ (commitLink l b0 s).otp = s.otp ∧
    (commitLink l b0 s).masters.length = s.masters.length ∧
    (commitLink l b0 s).cores.channels.length = s.cores.channels.length ∧
    (commitLink l b0 s).regs.debugLevel = s.regs.debugLevel ∧ (commitLink l b0 s).store.cs = s.store.cs ∧
    (commitLink l b0 s).store.csDev = s.store.csDev ∧ (commitLink l b0 s).store.granules = s.store.granules ∧
    (commitLink l b0 s).pins = s.pins ∧ (commitLink l b0 s).power = s.power ∧ (commitLink l b0 s).loader = s.loader ∧
    (commitLink l b0 s).conservator = s.conservator ∧ (commitLink l b0 s).egress = s.egress ∧
    (commitLink l b0 s).shadow = s.shadow ∧ (commitLink l b0 s).inForce = s.inForce ∧
    (commitLink l b0 s).otpRequest = s.otpRequest ∧ (commitLink l b0 s).heldCommands = s.heldCommands ∧
    (commitLink l b0 s).crossReads = s.crossReads := by
  unfold commitLink
  first | (simp; done) | ((try dsimp only); (repeat' split) <;> first | (simp; done) | simp_all | (repeat' split) <;> simp)

@[simp] theorem discardLink_frame (ns : List DWord) (l : FLink) (s : State) :
    (discardLink ns l s).pending = s.pending ∧ (discardLink ns l s).variant = s.variant ∧ (discardLink ns l s).otp = s.otp ∧
    (discardLink ns l s).masters.length = s.masters.length ∧
    (discardLink ns l s).cores.channels.length = s.cores.channels.length ∧
    (discardLink ns l s).regs.debugLevel = s.regs.debugLevel ∧ (discardLink ns l s).store.cs = s.store.cs ∧
    (discardLink ns l s).store.csDev = s.store.csDev ∧ (discardLink ns l s).store.granules = s.store.granules ∧
    (discardLink ns l s).pins = s.pins ∧ (discardLink ns l s).power = s.power ∧ (discardLink ns l s).loader = s.loader ∧
    (discardLink ns l s).conservator = s.conservator ∧ (discardLink ns l s).egress = s.egress ∧
    (discardLink ns l s).repair = s.repair ∧ (discardLink ns l s).shadow = s.shadow ∧
    (discardLink ns l s).inForce = s.inForce ∧ (discardLink ns l s).otpRequest = s.otpRequest ∧
    (discardLink ns l s).heldCommands = s.heldCommands ∧ (discardLink ns l s).crossReads = s.crossReads := by
  unfold discardLink
  first | (simp; done) | ((try dsimp only); (repeat' split) <;> first | (simp; done) | simp_all | (repeat' split) <;> simp)

@[simp] theorem revertRepair_frame  (s : State) :
    (revertRepair s).pending = s.pending ∧ (revertRepair s).variant = s.variant ∧ (revertRepair s).otp = s.otp ∧
    (revertRepair s).masters.length = s.masters.length ∧ (revertRepair s).cores.channels.length = s.cores.channels.length ∧
    (revertRepair s).regs.debugLevel = s.regs.debugLevel ∧ (revertRepair s).store.cs = s.store.cs ∧
    (revertRepair s).store.csDev = s.store.csDev ∧ (revertRepair s).store.granules = s.store.granules ∧
    (revertRepair s).pins = s.pins ∧ (revertRepair s).stream = s.stream ∧ (revertRepair s).power = s.power ∧
    (revertRepair s).loader = s.loader ∧ (revertRepair s).conservator = s.conservator ∧ (revertRepair s).egress = s.egress ∧
    (revertRepair s).shadow = s.shadow ∧ (revertRepair s).inForce = s.inForce ∧ (revertRepair s).otpRequest = s.otpRequest ∧
    (revertRepair s).heldCommands = s.heldCommands ∧ (revertRepair s).crossReads = s.crossReads := by
  unfold revertRepair
  first | (simp; done) | ((try dsimp only); (repeat' split) <;> first | (simp; done) | simp_all | (repeat' split) <;> simp)

@[simp] theorem performRerun_frame (n : DWord) (s : State) :
    (performRerun n s).pending = s.pending ∧ (performRerun n s).variant = s.variant ∧ (performRerun n s).otp = s.otp ∧
    (performRerun n s).masters.length = s.masters.length ∧
    (performRerun n s).cores.channels.length = s.cores.channels.length ∧
    (performRerun n s).regs.debugLevel = s.regs.debugLevel ∧ (performRerun n s).store.cs = s.store.cs ∧
    (performRerun n s).store.csDev = s.store.csDev ∧ (performRerun n s).store.granules = s.store.granules ∧
    (performRerun n s).pins = s.pins ∧ (performRerun n s).loader = s.loader ∧
    (performRerun n s).conservator = s.conservator ∧ (performRerun n s).shadow = s.shadow ∧
    (performRerun n s).inForce = s.inForce ∧ (performRerun n s).otpRequest = s.otpRequest ∧
    (performRerun n s).heldCommands = s.heldCommands ∧ (performRerun n s).crossReads = s.crossReads := by
  unfold performRerun
  first | (simp; done) | ((try dsimp only); (repeat' split) <;> first | (simp; done) | simp_all | (repeat' split) <;> simp)

@[simp] theorem beginRerun_frame (n : DWord) (s : State) :
    (beginRerun n s).pending = s.pending ∧ (beginRerun n s).variant = s.variant ∧ (beginRerun n s).otp = s.otp ∧
    (beginRerun n s).masters.length = s.masters.length ∧ (beginRerun n s).cores.channels.length = s.cores.channels.length ∧
    (beginRerun n s).regs.debugLevel = s.regs.debugLevel ∧ (beginRerun n s).store.cs = s.store.cs ∧
    (beginRerun n s).store.csDev = s.store.csDev ∧ (beginRerun n s).store.granules = s.store.granules ∧
    (beginRerun n s).pins = s.pins ∧ (beginRerun n s).loader = s.loader ∧ (beginRerun n s).conservator = s.conservator ∧
    (beginRerun n s).shadow = s.shadow ∧ (beginRerun n s).inForce = s.inForce ∧ (beginRerun n s).otpRequest = s.otpRequest ∧
    (beginRerun n s).heldCommands = s.heldCommands ∧ (beginRerun n s).crossReads = s.crossReads := by
  unfold beginRerun
  first | (simp; done) | ((try dsimp only); (repeat' split) <;> first | (simp; done) | simp_all | (repeat' split) <;> simp)

@[simp] theorem sendHeartbeat_frame  (s : State) :
    (sendHeartbeat s).pending = s.pending ∧ (sendHeartbeat s).variant = s.variant ∧ (sendHeartbeat s).otp = s.otp ∧
    (sendHeartbeat s).masters.length = s.masters.length ∧
    (sendHeartbeat s).cores.channels.length = s.cores.channels.length ∧
    (sendHeartbeat s).regs.debugLevel = s.regs.debugLevel ∧ (sendHeartbeat s).store.cs = s.store.cs ∧
    (sendHeartbeat s).store.csDev = s.store.csDev ∧ (sendHeartbeat s).store.granules = s.store.granules ∧
    (sendHeartbeat s).pins = s.pins ∧ (sendHeartbeat s).stream = s.stream ∧ (sendHeartbeat s).power = s.power ∧
    (sendHeartbeat s).loader = s.loader ∧ (sendHeartbeat s).conservator = s.conservator ∧
    (sendHeartbeat s).egress = s.egress ∧ (sendHeartbeat s).repair = s.repair ∧ (sendHeartbeat s).shadow = s.shadow ∧
    (sendHeartbeat s).inForce = s.inForce ∧ (sendHeartbeat s).otpRequest = s.otpRequest ∧
    (sendHeartbeat s).heldCommands = s.heldCommands ∧ (sendHeartbeat s).crossReads = s.crossReads := by
  unfold sendHeartbeat
  first | (simp; done) | ((try dsimp only); (repeat' split) <;> first | (simp; done) | simp_all | (repeat' split) <;> simp)

@[simp] theorem noteTseq_frame  (s : State) :
    (noteTseq s).pending = s.pending ∧ (noteTseq s).variant = s.variant ∧ (noteTseq s).otp = s.otp ∧
    (noteTseq s).masters.length = s.masters.length ∧ (noteTseq s).cores.channels.length = s.cores.channels.length ∧
    (noteTseq s).regs.debugLevel = s.regs.debugLevel ∧ (noteTseq s).store.cs = s.store.cs ∧
    (noteTseq s).store.csDev = s.store.csDev ∧ (noteTseq s).store.granules = s.store.granules ∧ (noteTseq s).pins = s.pins ∧
    (noteTseq s).stream = s.stream ∧ (noteTseq s).power = s.power ∧ (noteTseq s).loader = s.loader ∧
    (noteTseq s).conservator = s.conservator ∧ (noteTseq s).egress = s.egress ∧ (noteTseq s).repair = s.repair ∧
    (noteTseq s).shadow = s.shadow ∧ (noteTseq s).inForce = s.inForce ∧ (noteTseq s).otpRequest = s.otpRequest ∧
    (noteTseq s).heldCommands = s.heldCommands ∧ (noteTseq s).crossReads = s.crossReads := by
  unfold noteTseq
  first | (simp; done) | ((try dsimp only); (repeat' split) <;> first | (simp; done) | simp_all | (repeat' split) <;> simp)

@[simp] theorem countReserved_frame (b : Block) (s : State) :
    (countReserved b s).pending = s.pending ∧ (countReserved b s).variant = s.variant ∧ (countReserved b s).otp = s.otp ∧
    (countReserved b s).masters.length = s.masters.length ∧
    (countReserved b s).cores.channels.length = s.cores.channels.length ∧
    (countReserved b s).regs.debugLevel = s.regs.debugLevel ∧ (countReserved b s).store.cs = s.store.cs ∧
    (countReserved b s).store.csDev = s.store.csDev ∧ (countReserved b s).store.granules = s.store.granules ∧
    (countReserved b s).pins = s.pins ∧ (countReserved b s).stream = s.stream ∧ (countReserved b s).power = s.power ∧
    (countReserved b s).loader = s.loader ∧ (countReserved b s).conservator = s.conservator ∧
    (countReserved b s).egress = s.egress ∧ (countReserved b s).repair = s.repair ∧ (countReserved b s).shadow = s.shadow ∧
    (countReserved b s).inForce = s.inForce ∧ (countReserved b s).otpRequest = s.otpRequest ∧
    (countReserved b s).heldCommands = s.heldCommands ∧ (countReserved b s).crossReads = s.crossReads := by
  unfold countReserved
  first | (simp; done) | ((try dsimp only); (repeat' split) <;> first | (simp; done) | simp_all | (repeat' split) <;> simp)

@[simp] theorem takeToken'_frame  (s : State) :
    (takeToken' s).pending = s.pending ∧ (takeToken' s).variant = s.variant ∧ (takeToken' s).otp = s.otp ∧
    (takeToken' s).masters.length = s.masters.length ∧ (takeToken' s).cores.channels.length = s.cores.channels.length ∧
    (takeToken' s).regs.debugLevel = s.regs.debugLevel ∧ (takeToken' s).store.cs = s.store.cs ∧
    (takeToken' s).store.csDev = s.store.csDev ∧ (takeToken' s).store.granules = s.store.granules ∧
    (takeToken' s).pins = s.pins ∧ (takeToken' s).stream = s.stream ∧ (takeToken' s).power = s.power ∧
    (takeToken' s).loader = s.loader ∧ (takeToken' s).conservator = s.conservator ∧ (takeToken' s).egress = s.egress ∧
    (takeToken' s).repair = s.repair ∧ (takeToken' s).shadow = s.shadow ∧ (takeToken' s).inForce = s.inForce ∧
    (takeToken' s).otpRequest = s.otpRequest ∧ (takeToken' s).heldCommands = s.heldCommands ∧
    (takeToken' s).crossReads = s.crossReads := by
  unfold takeToken'
  first | (simp; done) | ((try dsimp only); (repeat' split) <;> first | (simp; done) | simp_all | (repeat' split) <;> simp)

@[simp] theorem switchBatches_frame  (s : State) :
    (switchBatches s).pending = s.pending ∧ (switchBatches s).variant = s.variant ∧ (switchBatches s).otp = s.otp ∧
    (switchBatches s).masters.length = s.masters.length ∧
    (switchBatches s).cores.channels.length = s.cores.channels.length ∧
    (switchBatches s).regs.debugLevel = s.regs.debugLevel ∧ (switchBatches s).store.cs = s.store.cs ∧
    (switchBatches s).store.csDev = s.store.csDev ∧ (switchBatches s).store.granules = s.store.granules ∧
    (switchBatches s).pins = s.pins ∧ (switchBatches s).loader = s.loader ∧ (switchBatches s).conservator = s.conservator ∧
    (switchBatches s).shadow = s.shadow ∧ (switchBatches s).inForce = s.inForce ∧
    (switchBatches s).otpRequest = s.otpRequest ∧ (switchBatches s).heldCommands = s.heldCommands ∧
    (switchBatches s).crossReads = s.crossReads := by
  unfold switchBatches
  first | (simp; done) | ((try dsimp only); (repeat' split) <;> first | (simp; done) | simp_all | (repeat' split) <;> simp)

@[simp] theorem switchOver_frame  (s : State) :
    (switchOver s).pending = s.pending ∧ (switchOver s).variant = s.variant ∧ (switchOver s).otp = s.otp ∧
    (switchOver s).masters.length = s.masters.length ∧ (switchOver s).cores.channels.length = s.cores.channels.length ∧
    (switchOver s).regs.debugLevel = s.regs.debugLevel ∧ (switchOver s).store.cs = s.store.cs ∧
    (switchOver s).store.csDev = s.store.csDev ∧ (switchOver s).store.granules = s.store.granules ∧
    (switchOver s).pins = s.pins ∧ (switchOver s).loader = s.loader ∧ (switchOver s).conservator = s.conservator ∧
    (switchOver s).shadow = s.shadow ∧ (switchOver s).inForce = s.inForce ∧ (switchOver s).otpRequest = s.otpRequest ∧
    (switchOver s).heldCommands = s.heldCommands ∧ (switchOver s).crossReads = s.crossReads := by
  unfold switchOver
  first | (simp; done) | ((try dsimp only); (repeat' split) <;> first | (simp; done) | simp_all | (repeat' split) <;> simp)

@[simp] theorem failJoin_frame  (s : State) :
    (failJoin s).pending = s.pending ∧ (failJoin s).variant = s.variant ∧ (failJoin s).otp = s.otp ∧
    (failJoin s).masters.length = s.masters.length ∧ (failJoin s).cores.channels.length = s.cores.channels.length ∧
    (failJoin s).regs.debugLevel = s.regs.debugLevel ∧ (failJoin s).store.cs = s.store.cs ∧
    (failJoin s).store.csDev = s.store.csDev ∧ (failJoin s).store.granules = s.store.granules ∧ (failJoin s).pins = s.pins ∧
    (failJoin s).stream = s.stream ∧ (failJoin s).power = s.power ∧ (failJoin s).loader = s.loader ∧
    (failJoin s).conservator = s.conservator ∧ (failJoin s).egress = s.egress ∧ (failJoin s).repair = s.repair ∧
    (failJoin s).shadow = s.shadow ∧ (failJoin s).inForce = s.inForce ∧ (failJoin s).otpRequest = s.otpRequest ∧
    (failJoin s).heldCommands = s.heldCommands ∧ (failJoin s).crossReads = s.crossReads := by
  unfold failJoin
  first | (simp; done) | ((try dsimp only); (repeat' split) <;> first | (simp; done) | simp_all | (repeat' split) <;> simp)

@[simp] theorem loseT_frame  (s : State) :
    (loseT s).pending = s.pending ∧ (loseT s).variant = s.variant ∧ (loseT s).otp = s.otp ∧
    (loseT s).masters.length = s.masters.length ∧ (loseT s).cores.channels.length = s.cores.channels.length ∧
    (loseT s).regs.debugLevel = s.regs.debugLevel ∧ (loseT s).store.cs = s.store.cs ∧
    (loseT s).store.csDev = s.store.csDev ∧ (loseT s).store.granules = s.store.granules ∧ (loseT s).pins = s.pins ∧
    (loseT s).stream = s.stream ∧ (loseT s).power = s.power ∧ (loseT s).loader = s.loader ∧
    (loseT s).conservator = s.conservator ∧ (loseT s).egress = s.egress ∧ (loseT s).repair = s.repair ∧
    (loseT s).shadow = s.shadow ∧ (loseT s).inForce = s.inForce ∧ (loseT s).otpRequest = s.otpRequest ∧
    (loseT s).heldCommands = s.heldCommands ∧ (loseT s).crossReads = s.crossReads := by
  unfold loseT
  first | (simp; done) | ((try dsimp only); (repeat' split) <;> first | (simp; done) | simp_all | (repeat' split) <;> simp)

@[simp] theorem negotiate_frame  (s : State) :
    (negotiate s).pending = s.pending ∧ (negotiate s).variant = s.variant ∧ (negotiate s).otp = s.otp ∧
    (negotiate s).masters.length = s.masters.length ∧ (negotiate s).cores.channels.length = s.cores.channels.length ∧
    (negotiate s).regs.debugLevel = s.regs.debugLevel ∧ (negotiate s).store.cs = s.store.cs ∧
    (negotiate s).store.csDev = s.store.csDev ∧ (negotiate s).store.granules = s.store.granules ∧
    (negotiate s).pins = s.pins ∧ (negotiate s).stream = s.stream ∧ (negotiate s).power = s.power ∧
    (negotiate s).loader = s.loader ∧ (negotiate s).conservator = s.conservator ∧ (negotiate s).egress = s.egress ∧
    (negotiate s).repair = s.repair ∧ (negotiate s).shadow = s.shadow ∧ (negotiate s).inForce = s.inForce ∧
    (negotiate s).otpRequest = s.otpRequest ∧ (negotiate s).heldCommands = s.heldCommands ∧
    (negotiate s).crossReads = s.crossReads := by
  unfold negotiate
  first | (simp; done) | ((try dsimp only); (repeat' split) <;> first | (simp; done) | simp_all | (repeat' split) <;> simp)

@[simp] theorem decideRoles_frame  (s : State) :
    (decideRoles s).pending = s.pending ∧ (decideRoles s).variant = s.variant ∧ (decideRoles s).otp = s.otp ∧
    (decideRoles s).masters.length = s.masters.length ∧ (decideRoles s).cores.channels.length = s.cores.channels.length ∧
    (decideRoles s).regs.debugLevel = s.regs.debugLevel ∧ (decideRoles s).store.cs = s.store.cs ∧
    (decideRoles s).store.csDev = s.store.csDev ∧ (decideRoles s).store.granules = s.store.granules ∧
    (decideRoles s).pins = s.pins ∧ (decideRoles s).stream = s.stream ∧ (decideRoles s).power = s.power ∧
    (decideRoles s).loader = s.loader ∧ (decideRoles s).conservator = s.conservator ∧ (decideRoles s).egress = s.egress ∧
    (decideRoles s).repair = s.repair ∧ (decideRoles s).shadow = s.shadow ∧ (decideRoles s).inForce = s.inForce ∧
    (decideRoles s).otpRequest = s.otpRequest ∧ (decideRoles s).heldCommands = s.heldCommands ∧
    (decideRoles s).crossReads = s.crossReads := by
  unfold decideRoles
  first | (simp; done) | ((try dsimp only); (repeat' split) <;> first | (simp; done) | simp_all | (repeat' split) <;> simp)

@[simp] theorem takeCapability_frame (b : Block) (s : State) :
    (takeCapability b s).pending = s.pending ∧ (takeCapability b s).variant = s.variant ∧ (takeCapability b s).otp = s.otp ∧
    (takeCapability b s).masters.length = s.masters.length ∧
    (takeCapability b s).cores.channels.length = s.cores.channels.length ∧
    (takeCapability b s).regs.debugLevel = s.regs.debugLevel ∧ (takeCapability b s).store.cs = s.store.cs ∧
    (takeCapability b s).store.csDev = s.store.csDev ∧ (takeCapability b s).store.granules = s.store.granules ∧
    (takeCapability b s).pins = s.pins ∧ (takeCapability b s).stream = s.stream ∧ (takeCapability b s).power = s.power ∧
    (takeCapability b s).loader = s.loader ∧ (takeCapability b s).conservator = s.conservator ∧
    (takeCapability b s).egress = s.egress ∧ (takeCapability b s).repair = s.repair ∧
    (takeCapability b s).shadow = s.shadow ∧ (takeCapability b s).inForce = s.inForce ∧
    (takeCapability b s).otpRequest = s.otpRequest ∧ (takeCapability b s).heldCommands = s.heldCommands ∧
    (takeCapability b s).crossReads = s.crossReads := by
  unfold takeCapability
  first | (simp; done) | ((try dsimp only); (repeat' split) <;> first | (simp; done) | simp_all | (repeat' split) <;> simp)

@[simp] theorem followPeer_frame  (s : State) :
    (followPeer s).pending = s.pending ∧ (followPeer s).variant = s.variant ∧ (followPeer s).otp = s.otp ∧
    (followPeer s).masters.length = s.masters.length ∧ (followPeer s).cores.channels.length = s.cores.channels.length ∧
    (followPeer s).regs.debugLevel = s.regs.debugLevel ∧ (followPeer s).store.cs = s.store.cs ∧
    (followPeer s).store.csDev = s.store.csDev ∧ (followPeer s).store.granules = s.store.granules ∧
    (followPeer s).pins = s.pins ∧ (followPeer s).stream = s.stream ∧ (followPeer s).power = s.power ∧
    (followPeer s).loader = s.loader ∧ (followPeer s).conservator = s.conservator ∧ (followPeer s).egress = s.egress ∧
    (followPeer s).repair = s.repair ∧ (followPeer s).shadow = s.shadow ∧ (followPeer s).inForce = s.inForce ∧
    (followPeer s).otpRequest = s.otpRequest ∧ (followPeer s).heldCommands = s.heldCommands ∧
    (followPeer s).crossReads = s.crossReads := by
  unfold followPeer
  first | (simp; done) | ((try dsimp only); (repeat' split) <;> first | (simp; done) | simp_all | (repeat' split) <;> simp)

@[simp] theorem serveJoin_frame  (s : State) :
    (serveJoin s).pending = s.pending ∧ (serveJoin s).variant = s.variant ∧ (serveJoin s).otp = s.otp ∧
    (serveJoin s).masters.length = s.masters.length ∧ (serveJoin s).cores.channels.length = s.cores.channels.length ∧
    (serveJoin s).regs.debugLevel = s.regs.debugLevel ∧ (serveJoin s).store.cs = s.store.cs ∧
    (serveJoin s).store.csDev = s.store.csDev ∧ (serveJoin s).store.granules = s.store.granules ∧
    (serveJoin s).pins = s.pins ∧ (serveJoin s).stream = s.stream ∧ (serveJoin s).power = s.power ∧
    (serveJoin s).loader = s.loader ∧ (serveJoin s).conservator = s.conservator ∧ (serveJoin s).egress = s.egress ∧
    (serveJoin s).repair = s.repair ∧ (serveJoin s).shadow = s.shadow ∧ (serveJoin s).inForce = s.inForce ∧
    (serveJoin s).otpRequest = s.otpRequest ∧ (serveJoin s).heldCommands = s.heldCommands ∧
    (serveJoin s).crossReads = s.crossReads := by
  unfold serveJoin
  first | (simp; done) | ((try dsimp only); (repeat' split) <;> first | (simp; done) | simp_all | (repeat' split) <;> simp)

@[simp] theorem detachStep_frame  (s : State) :
    (detachStep s).pending = s.pending ∧ (detachStep s).variant = s.variant ∧ (detachStep s).otp = s.otp ∧
    (detachStep s).masters.length = s.masters.length ∧ (detachStep s).cores.channels.length = s.cores.channels.length ∧
    (detachStep s).regs.debugLevel = s.regs.debugLevel ∧ (detachStep s).store.cs = s.store.cs ∧
    (detachStep s).store.csDev = s.store.csDev ∧ (detachStep s).store.granules = s.store.granules ∧
    (detachStep s).pins = s.pins ∧ (detachStep s).stream = s.stream ∧ (detachStep s).power = s.power ∧
    (detachStep s).loader = s.loader ∧ (detachStep s).conservator = s.conservator ∧ (detachStep s).repair = s.repair ∧
    (detachStep s).shadow = s.shadow ∧ (detachStep s).inForce = s.inForce ∧ (detachStep s).otpRequest = s.otpRequest ∧
    (detachStep s).heldCommands = s.heldCommands ∧ (detachStep s).crossReads = s.crossReads := by
  unfold detachStep
  first | (simp; done) | ((try dsimp only); (repeat' split) <;> first | (simp; done) | simp_all | (repeat' split) <;> simp)

@[simp] theorem requestDetach_frame  (s : State) :
    (requestDetach s).pending = s.pending ∧ (requestDetach s).variant = s.variant ∧ (requestDetach s).otp = s.otp ∧
    (requestDetach s).masters.length = s.masters.length ∧
    (requestDetach s).cores.channels.length = s.cores.channels.length ∧
    (requestDetach s).regs.debugLevel = s.regs.debugLevel ∧ (requestDetach s).store.cs = s.store.cs ∧
    (requestDetach s).store.csDev = s.store.csDev ∧ (requestDetach s).store.granules = s.store.granules ∧
    (requestDetach s).pins = s.pins ∧ (requestDetach s).stream = s.stream ∧ (requestDetach s).power = s.power ∧
    (requestDetach s).loader = s.loader ∧ (requestDetach s).conservator = s.conservator ∧
    (requestDetach s).repair = s.repair ∧ (requestDetach s).shadow = s.shadow ∧ (requestDetach s).inForce = s.inForce ∧
    (requestDetach s).otpRequest = s.otpRequest ∧ (requestDetach s).heldCommands = s.heldCommands ∧
    (requestDetach s).crossReads = s.crossReads := by
  unfold requestDetach
  first | (simp; done) | ((try dsimp only); (repeat' split) <;> first | (simp; done) | simp_all | (repeat' split) <;> simp)

@[simp] theorem takeHeartbeat_frame (role : BitVec 3) (token : Bool) (epoch : DWord) (last : Option DWord) (ack : Word) (join : DWord) (s : State) :
    (takeHeartbeat role token epoch last ack join s).pending = s.pending ∧
    (takeHeartbeat role token epoch last ack join s).variant = s.variant ∧
    (takeHeartbeat role token epoch last ack join s).otp = s.otp ∧
    (takeHeartbeat role token epoch last ack join s).masters.length = s.masters.length ∧
    (takeHeartbeat role token epoch last ack join s).cores.channels.length = s.cores.channels.length ∧
    (takeHeartbeat role token epoch last ack join s).regs.debugLevel = s.regs.debugLevel ∧
    (takeHeartbeat role token epoch last ack join s).store.cs = s.store.cs ∧
    (takeHeartbeat role token epoch last ack join s).store.csDev = s.store.csDev ∧
    (takeHeartbeat role token epoch last ack join s).store.granules = s.store.granules ∧
    (takeHeartbeat role token epoch last ack join s).pins = s.pins ∧
    (takeHeartbeat role token epoch last ack join s).stream = s.stream ∧
    (takeHeartbeat role token epoch last ack join s).power = s.power ∧
    (takeHeartbeat role token epoch last ack join s).loader = s.loader ∧
    (takeHeartbeat role token epoch last ack join s).conservator = s.conservator ∧
    (takeHeartbeat role token epoch last ack join s).egress = s.egress ∧
    (takeHeartbeat role token epoch last ack join s).repair = s.repair ∧
    (takeHeartbeat role token epoch last ack join s).shadow = s.shadow ∧
    (takeHeartbeat role token epoch last ack join s).inForce = s.inForce ∧
    (takeHeartbeat role token epoch last ack join s).otpRequest = s.otpRequest ∧
    (takeHeartbeat role token epoch last ack join s).heldCommands = s.heldCommands ∧
    (takeHeartbeat role token epoch last ack join s).crossReads = s.crossReads := by
  unfold takeHeartbeat
  first | (simp; done) | ((try dsimp only); (repeat' split) <;> first | (simp; done) | simp_all | (repeat' split) <;> simp)

@[simp] theorem agree_frame (n : DWord) (due : List Nat) (s : State) :
    (agree n due s).pending = s.pending ∧ (agree n due s).variant = s.variant ∧ (agree n due s).otp = s.otp ∧
    (agree n due s).masters.length = s.masters.length ∧ (agree n due s).cores.channels.length = s.cores.channels.length ∧
    (agree n due s).regs.debugLevel = s.regs.debugLevel ∧ (agree n due s).store.cs = s.store.cs ∧
    (agree n due s).store.csDev = s.store.csDev ∧ (agree n due s).store.granules = s.store.granules ∧
    (agree n due s).pins = s.pins ∧ (agree n due s).stream = s.stream ∧ (agree n due s).power = s.power ∧
    (agree n due s).loader = s.loader ∧ (agree n due s).conservator = s.conservator ∧ (agree n due s).egress = s.egress ∧
    (agree n due s).repair = s.repair ∧ (agree n due s).shadow = s.shadow ∧ (agree n due s).inForce = s.inForce ∧
    (agree n due s).otpRequest = s.otpRequest ∧ (agree n due s).heldCommands = s.heldCommands ∧
    (agree n due s).crossReads = s.crossReads := by
  unfold agree
  first | (simp; done) | ((try dsimp only); (repeat' split) <;> first | (simp; done) | simp_all | (repeat' split) <;> simp)

@[simp] theorem loseRun_frame (n : DWord) (s : State) :
    (loseRun n s).pending = s.pending ∧ (loseRun n s).variant = s.variant ∧ (loseRun n s).otp = s.otp ∧
    (loseRun n s).masters.length = s.masters.length ∧ (loseRun n s).cores.channels.length = s.cores.channels.length ∧
    (loseRun n s).regs.debugLevel = s.regs.debugLevel ∧ (loseRun n s).store.cs = s.store.cs ∧
    (loseRun n s).store.csDev = s.store.csDev ∧ (loseRun n s).store.granules = s.store.granules ∧
    (loseRun n s).pins = s.pins ∧ (loseRun n s).power = s.power ∧ (loseRun n s).loader = s.loader ∧
    (loseRun n s).conservator = s.conservator ∧ (loseRun n s).shadow = s.shadow ∧ (loseRun n s).inForce = s.inForce ∧
    (loseRun n s).otpRequest = s.otpRequest ∧ (loseRun n s).heldCommands = s.heldCommands ∧
    (loseRun n s).crossReads = s.crossReads := by
  unfold loseRun
  first | (simp; done) | ((try dsimp only); (repeat' split) <;> first | (simp; done) | simp_all | (repeat' split) <;> simp)

@[simp] theorem undecided_frame (n : DWord) (s : State) :
    (undecided n s).pending = s.pending ∧ (undecided n s).variant = s.variant ∧ (undecided n s).otp = s.otp ∧
    (undecided n s).masters.length = s.masters.length ∧ (undecided n s).cores.channels.length = s.cores.channels.length ∧
    (undecided n s).regs.debugLevel = s.regs.debugLevel ∧ (undecided n s).store.cs = s.store.cs ∧
    (undecided n s).store.csDev = s.store.csDev ∧ (undecided n s).store.granules = s.store.granules ∧
    (undecided n s).pins = s.pins ∧ (undecided n s).power = s.power ∧ (undecided n s).loader = s.loader ∧
    (undecided n s).conservator = s.conservator ∧ (undecided n s).egress = s.egress ∧ (undecided n s).shadow = s.shadow ∧
    (undecided n s).inForce = s.inForce ∧ (undecided n s).otpRequest = s.otpRequest ∧
    (undecided n s).heldCommands = s.heldCommands ∧ (undecided n s).crossReads = s.crossReads := by
  unfold undecided
  first | (simp; done) | ((try dsimp only); (repeat' split) <;> first | (simp; done) | simp_all | (repeat' split) <;> simp)

@[simp] theorem rerunBoth_frame (b : Batch) (mine peer : QWord) (s : State) :
    (rerunBoth b mine peer s).pending = s.pending ∧ (rerunBoth b mine peer s).variant = s.variant ∧
    (rerunBoth b mine peer s).otp = s.otp ∧ (rerunBoth b mine peer s).masters.length = s.masters.length ∧
    (rerunBoth b mine peer s).cores.channels.length = s.cores.channels.length ∧
    (rerunBoth b mine peer s).regs.debugLevel = s.regs.debugLevel ∧ (rerunBoth b mine peer s).store.cs = s.store.cs ∧
    (rerunBoth b mine peer s).store.csDev = s.store.csDev ∧ (rerunBoth b mine peer s).store.granules = s.store.granules ∧
    (rerunBoth b mine peer s).pins = s.pins ∧ (rerunBoth b mine peer s).loader = s.loader ∧
    (rerunBoth b mine peer s).conservator = s.conservator ∧ (rerunBoth b mine peer s).shadow = s.shadow ∧
    (rerunBoth b mine peer s).inForce = s.inForce ∧ (rerunBoth b mine peer s).otpRequest = s.otpRequest ∧
    (rerunBoth b mine peer s).heldCommands = s.heldCommands ∧ (rerunBoth b mine peer s).crossReads = s.crossReads := by
  unfold rerunBoth
  first | (simp; done) | ((try dsimp only); (repeat' split) <;> first | (simp; done) | simp_all | (repeat' split) <;> simp)

@[simp] theorem digestsAgree_frame (b : Batch) (mine : QWord) (s : State) :
    (digestsAgree b mine s).pending = s.pending ∧ (digestsAgree b mine s).variant = s.variant ∧
    (digestsAgree b mine s).otp = s.otp ∧ (digestsAgree b mine s).masters.length = s.masters.length ∧
    (digestsAgree b mine s).cores.channels.length = s.cores.channels.length ∧
    (digestsAgree b mine s).regs.debugLevel = s.regs.debugLevel ∧ (digestsAgree b mine s).store.cs = s.store.cs ∧
    (digestsAgree b mine s).store.csDev = s.store.csDev ∧ (digestsAgree b mine s).store.granules = s.store.granules ∧
    (digestsAgree b mine s).pins = s.pins ∧ (digestsAgree b mine s).stream = s.stream ∧
    (digestsAgree b mine s).power = s.power ∧ (digestsAgree b mine s).loader = s.loader ∧
    (digestsAgree b mine s).conservator = s.conservator ∧ (digestsAgree b mine s).egress = s.egress ∧
    (digestsAgree b mine s).repair = s.repair ∧ (digestsAgree b mine s).shadow = s.shadow ∧
    (digestsAgree b mine s).inForce = s.inForce ∧ (digestsAgree b mine s).otpRequest = s.otpRequest ∧
    (digestsAgree b mine s).heldCommands = s.heldCommands ∧ (digestsAgree b mine s).crossReads = s.crossReads := by
  unfold digestsAgree
  first | (simp; done) | ((try dsimp only); (repeat' split) <;> first | (simp; done) | simp_all | (repeat' split) <;> simp)

@[simp] theorem arbitrate_frame (b : Batch) (s : State) :
    (arbitrate b s).pending = s.pending ∧ (arbitrate b s).variant = s.variant ∧ (arbitrate b s).otp = s.otp ∧
    (arbitrate b s).masters.length = s.masters.length ∧ (arbitrate b s).cores.channels.length = s.cores.channels.length ∧
    (arbitrate b s).regs.debugLevel = s.regs.debugLevel ∧ (arbitrate b s).store.cs = s.store.cs ∧
    (arbitrate b s).store.csDev = s.store.csDev ∧ (arbitrate b s).store.granules = s.store.granules ∧
    (arbitrate b s).pins = s.pins ∧ (arbitrate b s).loader = s.loader ∧ (arbitrate b s).conservator = s.conservator ∧
    (arbitrate b s).shadow = s.shadow ∧ (arbitrate b s).inForce = s.inForce ∧ (arbitrate b s).otpRequest = s.otpRequest ∧
    (arbitrate b s).heldCommands = s.heldCommands ∧ (arbitrate b s).crossReads = s.crossReads := by
  unfold arbitrate
  first | (simp; done) | ((try dsimp only); (repeat' split) <;> first | (simp; done) | simp_all | (repeat' split) <;> simp)

@[simp] theorem takeDigest_frame (n : DWord) (d : QWord) (fault : Bool) (s : State) :
    (takeDigest n d fault s).pending = s.pending ∧ (takeDigest n d fault s).variant = s.variant ∧
    (takeDigest n d fault s).otp = s.otp ∧ (takeDigest n d fault s).masters.length = s.masters.length ∧
    (takeDigest n d fault s).cores.channels.length = s.cores.channels.length ∧
    (takeDigest n d fault s).regs.debugLevel = s.regs.debugLevel ∧ (takeDigest n d fault s).store.cs = s.store.cs ∧
    (takeDigest n d fault s).store.csDev = s.store.csDev ∧ (takeDigest n d fault s).store.granules = s.store.granules ∧
    (takeDigest n d fault s).pins = s.pins ∧ (takeDigest n d fault s).loader = s.loader ∧
    (takeDigest n d fault s).conservator = s.conservator ∧ (takeDigest n d fault s).shadow = s.shadow ∧
    (takeDigest n d fault s).inForce = s.inForce ∧ (takeDigest n d fault s).otpRequest = s.otpRequest ∧
    (takeDigest n d fault s).heldCommands = s.heldCommands ∧ (takeDigest n d fault s).crossReads = s.crossReads := by
  unfold takeDigest
  first | (simp; done) | ((try dsimp only); (repeat' split) <;> first | (simp; done) | simp_all | (repeat' split) <;> simp)

@[simp] theorem sendDigest_frame (b : Batch) (s : State) :
    (sendDigest b s).pending = s.pending ∧ (sendDigest b s).variant = s.variant ∧ (sendDigest b s).otp = s.otp ∧
    (sendDigest b s).masters.length = s.masters.length ∧ (sendDigest b s).cores.channels.length = s.cores.channels.length ∧
    (sendDigest b s).regs.debugLevel = s.regs.debugLevel ∧ (sendDigest b s).store.cs = s.store.cs ∧
    (sendDigest b s).store.csDev = s.store.csDev ∧ (sendDigest b s).store.granules = s.store.granules ∧
    (sendDigest b s).pins = s.pins ∧ (sendDigest b s).loader = s.loader ∧ (sendDigest b s).conservator = s.conservator ∧
    (sendDigest b s).shadow = s.shadow ∧ (sendDigest b s).inForce = s.inForce ∧ (sendDigest b s).otpRequest = s.otpRequest ∧
    (sendDigest b s).heldCommands = s.heldCommands ∧ (sendDigest b s).crossReads = s.crossReads := by
  unfold sendDigest
  first | (simp; done) | ((try dsimp only); (repeat' split) <;> first | (simp; done) | simp_all | (repeat' split) <;> simp)

@[simp] theorem retireCheck_frame  (s : State) :
    (retireCheck s).pending = s.pending ∧ (retireCheck s).variant = s.variant ∧ (retireCheck s).otp = s.otp ∧
    (retireCheck s).masters.length = s.masters.length ∧ (retireCheck s).cores.channels.length = s.cores.channels.length ∧
    (retireCheck s).regs.debugLevel = s.regs.debugLevel ∧ (retireCheck s).store.cs = s.store.cs ∧
    (retireCheck s).store.csDev = s.store.csDev ∧ (retireCheck s).store.granules = s.store.granules ∧
    (retireCheck s).pins = s.pins ∧ (retireCheck s).stream = s.stream ∧ (retireCheck s).power = s.power ∧
    (retireCheck s).loader = s.loader ∧ (retireCheck s).conservator = s.conservator ∧ (retireCheck s).egress = s.egress ∧
    (retireCheck s).repair = s.repair ∧ (retireCheck s).shadow = s.shadow ∧ (retireCheck s).inForce = s.inForce ∧
    (retireCheck s).otpRequest = s.otpRequest ∧ (retireCheck s).heldCommands = s.heldCommands ∧
    (retireCheck s).crossReads = s.crossReads := by
  unfold retireCheck
  first | (simp; done) | ((try dsimp only); (repeat' split) <;> first | (simp; done) | simp_all | (repeat' split) <;> simp)

@[simp] theorem afterCommit_frame  (s : State) :
    (afterCommit s).pending = s.pending ∧ (afterCommit s).variant = s.variant ∧ (afterCommit s).otp = s.otp ∧
    (afterCommit s).masters.length = s.masters.length ∧ (afterCommit s).cores.channels.length = s.cores.channels.length ∧
    (afterCommit s).regs.debugLevel = s.regs.debugLevel ∧ (afterCommit s).store.cs = s.store.cs ∧
    (afterCommit s).store.csDev = s.store.csDev ∧ (afterCommit s).store.granules = s.store.granules ∧
    (afterCommit s).stream = s.stream ∧ (afterCommit s).power = s.power ∧ (afterCommit s).loader = s.loader ∧
    (afterCommit s).conservator = s.conservator ∧ (afterCommit s).repair = s.repair ∧ (afterCommit s).shadow = s.shadow ∧
    (afterCommit s).inForce = s.inForce ∧ (afterCommit s).otpRequest = s.otpRequest ∧
    (afterCommit s).heldCommands = s.heldCommands ∧ (afterCommit s).crossReads = s.crossReads ∧
    (afterCommit s).pins.pins.length = s.pins.pins.length := by
  unfold afterCommit
  first | (simp; done) | ((try dsimp only); (repeat' split) <;> first | (simp; done) | simp_all | (repeat' split) <;> simp)

@[simp] theorem tryCommit_frame (l : FLink) (b : Batch) (s : State) :
    (tryCommit l b s).pending = s.pending ∧ (tryCommit l b s).variant = s.variant ∧ (tryCommit l b s).otp = s.otp ∧
    (tryCommit l b s).masters.length = s.masters.length ∧
    (tryCommit l b s).cores.channels.length = s.cores.channels.length ∧
    (tryCommit l b s).regs.debugLevel = s.regs.debugLevel ∧ (tryCommit l b s).store.cs = s.store.cs ∧
    (tryCommit l b s).store.csDev = s.store.csDev ∧ (tryCommit l b s).store.granules = s.store.granules ∧
    (tryCommit l b s).loader = s.loader ∧ (tryCommit l b s).conservator = s.conservator ∧
    (tryCommit l b s).shadow = s.shadow ∧ (tryCommit l b s).inForce = s.inForce ∧
    (tryCommit l b s).otpRequest = s.otpRequest ∧ (tryCommit l b s).heldCommands = s.heldCommands ∧
    (tryCommit l b s).crossReads = s.crossReads ∧ (tryCommit l b s).pins.pins.length = s.pins.pins.length := by
  unfold tryCommit
  first | (simp; done) | ((try dsimp only); (repeat' split) <;> first | (simp; done) | simp_all | (repeat' split) <;> simp)

@[simp] theorem startJoin_frame (c : QueuedCall) (s : State) :
    (startJoin c s).pending = s.pending ∧ (startJoin c s).variant = s.variant ∧ (startJoin c s).otp = s.otp ∧
    (startJoin c s).masters.length = s.masters.length ∧ (startJoin c s).cores.channels.length = s.cores.channels.length ∧
    (startJoin c s).regs.debugLevel = s.regs.debugLevel ∧ (startJoin c s).store.cs = s.store.cs ∧
    (startJoin c s).store.csDev = s.store.csDev ∧ (startJoin c s).store.granules = s.store.granules ∧
    (startJoin c s).pins = s.pins ∧ (startJoin c s).stream = s.stream ∧ (startJoin c s).power = s.power ∧
    (startJoin c s).loader = s.loader ∧ (startJoin c s).conservator = s.conservator ∧ (startJoin c s).egress = s.egress ∧
    (startJoin c s).repair = s.repair ∧ (startJoin c s).shadow = s.shadow ∧ (startJoin c s).inForce = s.inForce ∧
    (startJoin c s).otpRequest = s.otpRequest ∧ (startJoin c s).heldCommands = s.heldCommands ∧
    (startJoin c s).crossReads = s.crossReads := by
  unfold startJoin
  first | (simp; done) | ((try dsimp only); (repeat' split) <;> first | (simp; done) | simp_all | (repeat' split) <;> simp)

@[simp] theorem applyItem_frame (i : StateItem) (s : State) :
    (applyItem i s).pending = s.pending ∧ (applyItem i s).variant = s.variant ∧ (applyItem i s).otp = s.otp ∧
    (applyItem i s).masters.length = s.masters.length ∧ (applyItem i s).cores.channels.length = s.cores.channels.length ∧
    (applyItem i s).regs.debugLevel = s.regs.debugLevel ∧ (applyItem i s).store.cs = s.store.cs ∧
    (applyItem i s).store.csDev = s.store.csDev ∧ (applyItem i s).store.granules = s.store.granules ∧
    (applyItem i s).pins = s.pins ∧ (applyItem i s).stream = s.stream ∧ (applyItem i s).power = s.power ∧
    (applyItem i s).loader = s.loader ∧ (applyItem i s).conservator = s.conservator ∧ (applyItem i s).egress = s.egress ∧
    (applyItem i s).shadow = s.shadow ∧ (applyItem i s).inForce = s.inForce ∧ (applyItem i s).otpRequest = s.otpRequest ∧
    (applyItem i s).heldCommands = s.heldCommands ∧ (applyItem i s).crossReads = s.crossReads := by
  unfold applyItem
  first | (simp; done) | ((try dsimp only); (repeat' split) <;> first | (simp; done) | simp_all | (repeat' split) <;> simp)

@[simp] theorem finishJoin_frame (next : DWord) (s : State) :
    (finishJoin next s).pending = s.pending ∧ (finishJoin next s).variant = s.variant ∧ (finishJoin next s).otp = s.otp ∧
    (finishJoin next s).masters.length = s.masters.length ∧
    (finishJoin next s).cores.channels.length = s.cores.channels.length ∧
    (finishJoin next s).regs.debugLevel = s.regs.debugLevel ∧ (finishJoin next s).store.cs = s.store.cs ∧
    (finishJoin next s).store.csDev = s.store.csDev ∧ (finishJoin next s).store.granules = s.store.granules ∧
    (finishJoin next s).pins = s.pins ∧ (finishJoin next s).stream = s.stream ∧ (finishJoin next s).power = s.power ∧
    (finishJoin next s).loader = s.loader ∧ (finishJoin next s).conservator = s.conservator ∧
    (finishJoin next s).egress = s.egress ∧ (finishJoin next s).repair = s.repair ∧ (finishJoin next s).shadow = s.shadow ∧
    (finishJoin next s).inForce = s.inForce ∧ (finishJoin next s).otpRequest = s.otpRequest ∧
    (finishJoin next s).heldCommands = s.heldCommands ∧ (finishJoin next s).crossReads = s.crossReads := by
  unfold finishJoin
  first | (simp; done) | ((try dsimp only); (repeat' split) <;> first | (simp; done) | simp_all | (repeat' split) <;> simp)

@[simp] theorem checkPersistent_frame (l : FLink) (i : Nat) (s : State) :
    (checkPersistent l i s).pending = s.pending ∧ (checkPersistent l i s).variant = s.variant ∧
    (checkPersistent l i s).otp = s.otp ∧ (checkPersistent l i s).masters.length = s.masters.length ∧
    (checkPersistent l i s).cores.channels.length = s.cores.channels.length ∧
    (checkPersistent l i s).regs.debugLevel = s.regs.debugLevel ∧ (checkPersistent l i s).store.cs = s.store.cs ∧
    (checkPersistent l i s).store.csDev = s.store.csDev ∧ (checkPersistent l i s).store.granules = s.store.granules ∧
    (checkPersistent l i s).pins = s.pins ∧ (checkPersistent l i s).stream = s.stream ∧
    (checkPersistent l i s).power = s.power ∧ (checkPersistent l i s).loader = s.loader ∧
    (checkPersistent l i s).egress = s.egress ∧ (checkPersistent l i s).shadow = s.shadow ∧
    (checkPersistent l i s).inForce = s.inForce ∧ (checkPersistent l i s).otpRequest = s.otpRequest ∧
    (checkPersistent l i s).heldCommands = s.heldCommands ∧ (checkPersistent l i s).crossReads = s.crossReads := by
  unfold checkPersistent
  first | (simp; done) | ((try dsimp only); (repeat' split) <;> first | (simp; done) | simp_all | (repeat' split) <;> simp)

@[simp] theorem deliverWord_frame (l : FLink) (i : Nat) (ch : DWord) (s : State) :
    (deliverWord l i ch s).pending = s.pending ∧ (deliverWord l i ch s).variant = s.variant ∧
    (deliverWord l i ch s).otp = s.otp ∧ (deliverWord l i ch s).masters.length = s.masters.length ∧
    (deliverWord l i ch s).cores.channels.length = s.cores.channels.length ∧
    (deliverWord l i ch s).regs.debugLevel = s.regs.debugLevel ∧ (deliverWord l i ch s).store.cs = s.store.cs ∧
    (deliverWord l i ch s).store.csDev = s.store.csDev ∧ (deliverWord l i ch s).store.granules = s.store.granules ∧
    (deliverWord l i ch s).pins = s.pins ∧ (deliverWord l i ch s).stream = s.stream ∧
    (deliverWord l i ch s).power = s.power ∧ (deliverWord l i ch s).loader = s.loader ∧
    (deliverWord l i ch s).conservator = s.conservator ∧ (deliverWord l i ch s).egress = s.egress ∧
    (deliverWord l i ch s).repair = s.repair ∧ (deliverWord l i ch s).shadow = s.shadow ∧
    (deliverWord l i ch s).inForce = s.inForce ∧ (deliverWord l i ch s).otpRequest = s.otpRequest ∧
    (deliverWord l i ch s).heldCommands = s.heldCommands ∧ (deliverWord l i ch s).crossReads = s.crossReads := by
  unfold deliverWord
  first | (simp; done) | ((try dsimp only); (repeat' split) <;> first | (simp; done) | simp_all | (repeat' split) <;> simp)

@[simp] theorem wordError_frame (l : FLink) (i : Nat) (s : State) :
    (wordError l i s).pending = s.pending ∧ (wordError l i s).variant = s.variant ∧ (wordError l i s).otp = s.otp ∧
    (wordError l i s).masters.length = s.masters.length ∧
    (wordError l i s).cores.channels.length = s.cores.channels.length ∧
    (wordError l i s).regs.debugLevel = s.regs.debugLevel ∧ (wordError l i s).store.cs = s.store.cs ∧
    (wordError l i s).store.csDev = s.store.csDev ∧ (wordError l i s).store.granules = s.store.granules ∧
    (wordError l i s).pins = s.pins ∧ (wordError l i s).stream = s.stream ∧ (wordError l i s).power = s.power ∧
    (wordError l i s).loader = s.loader ∧ (wordError l i s).egress = s.egress ∧ (wordError l i s).shadow = s.shadow ∧
    (wordError l i s).inForce = s.inForce ∧ (wordError l i s).otpRequest = s.otpRequest ∧
    (wordError l i s).heldCommands = s.heldCommands ∧ (wordError l i s).crossReads = s.crossReads := by
  unfold wordError
  first | (simp; done) | ((try dsimp only); (repeat' split) <;> first | (simp; done) | simp_all | (repeat' split) <;> simp)

@[simp] theorem takeWord_frame (l : FLink) (i : Nat) (w : BitVec 34) (s : State) :
    (takeWord l i w s).pending = s.pending ∧ (takeWord l i w s).variant = s.variant ∧ (takeWord l i w s).otp = s.otp ∧
    (takeWord l i w s).masters.length = s.masters.length ∧
    (takeWord l i w s).cores.channels.length = s.cores.channels.length ∧
    (takeWord l i w s).regs.debugLevel = s.regs.debugLevel ∧ (takeWord l i w s).store.cs = s.store.cs ∧
    (takeWord l i w s).store.csDev = s.store.csDev ∧ (takeWord l i w s).store.granules = s.store.granules ∧
    (takeWord l i w s).pins = s.pins ∧ (takeWord l i w s).stream = s.stream ∧ (takeWord l i w s).power = s.power ∧
    (takeWord l i w s).loader = s.loader ∧ (takeWord l i w s).egress = s.egress ∧ (takeWord l i w s).shadow = s.shadow ∧
    (takeWord l i w s).inForce = s.inForce ∧ (takeWord l i w s).otpRequest = s.otpRequest ∧
    (takeWord l i w s).heldCommands = s.heldCommands ∧ (takeWord l i w s).crossReads = s.crossReads := by
  unfold takeWord
  first | (simp; done) | ((try dsimp only); (repeat' split) <;> first | (simp; done) | simp_all | (repeat' split) <;> simp)

@[simp] theorem stepLane_frame (l : FLink) (i : Nat) (f : Lane → Lane) (s : State) :
    (stepLane l i f s).pending = s.pending ∧ (stepLane l i f s).variant = s.variant ∧ (stepLane l i f s).otp = s.otp ∧
    (stepLane l i f s).masters.length = s.masters.length ∧
    (stepLane l i f s).cores.channels.length = s.cores.channels.length ∧
    (stepLane l i f s).regs.debugLevel = s.regs.debugLevel ∧ (stepLane l i f s).store.cs = s.store.cs ∧
    (stepLane l i f s).store.csDev = s.store.csDev ∧ (stepLane l i f s).store.granules = s.store.granules ∧
    (stepLane l i f s).pins = s.pins ∧ (stepLane l i f s).stream = s.stream ∧ (stepLane l i f s).power = s.power ∧
    (stepLane l i f s).loader = s.loader ∧ (stepLane l i f s).conservator = s.conservator ∧
    (stepLane l i f s).egress = s.egress ∧ (stepLane l i f s).repair = s.repair ∧ (stepLane l i f s).shadow = s.shadow ∧
    (stepLane l i f s).inForce = s.inForce ∧ (stepLane l i f s).otpRequest = s.otpRequest ∧
    (stepLane l i f s).heldCommands = s.heldCommands ∧ (stepLane l i f s).crossReads = s.crossReads := by
  unfold stepLane
  first | (simp; done) | ((try dsimp only); (repeat' split) <;> first | (simp; done) | simp_all | (repeat' split) <;> simp)

@[simp] theorem chooseRate_frame (l : FLink) (s : State) :
    (chooseRate l s).2.pending = s.pending ∧ (chooseRate l s).2.variant = s.variant ∧ (chooseRate l s).2.otp = s.otp ∧
    (chooseRate l s).2.masters.length = s.masters.length ∧
    (chooseRate l s).2.cores.channels.length = s.cores.channels.length ∧
    (chooseRate l s).2.regs.debugLevel = s.regs.debugLevel ∧ (chooseRate l s).2.store.cs = s.store.cs ∧
    (chooseRate l s).2.store.csDev = s.store.csDev ∧ (chooseRate l s).2.store.granules = s.store.granules ∧
    (chooseRate l s).2.pins = s.pins ∧ (chooseRate l s).2.stream = s.stream ∧ (chooseRate l s).2.power = s.power ∧
    (chooseRate l s).2.loader = s.loader ∧ (chooseRate l s).2.conservator = s.conservator ∧
    (chooseRate l s).2.egress = s.egress ∧ (chooseRate l s).2.repair = s.repair ∧ (chooseRate l s).2.shadow = s.shadow ∧
    (chooseRate l s).2.inForce = s.inForce ∧ (chooseRate l s).2.otpRequest = s.otpRequest ∧
    (chooseRate l s).2.heldCommands = s.heldCommands ∧ (chooseRate l s).2.crossReads = s.crossReads := by
  unfold chooseRate
  first | (simp; done) | ((try dsimp only); (repeat' split) <;> first | (simp; done) | simp_all | (repeat' split) <;> simp)

@[simp] theorem failTraining_frame (l : FLink) (i : Nat) (s : State) :
    (failTraining l i s).pending = s.pending ∧ (failTraining l i s).variant = s.variant ∧ (failTraining l i s).otp = s.otp ∧
    (failTraining l i s).masters.length = s.masters.length ∧
    (failTraining l i s).cores.channels.length = s.cores.channels.length ∧
    (failTraining l i s).regs.debugLevel = s.regs.debugLevel ∧ (failTraining l i s).store.cs = s.store.cs ∧
    (failTraining l i s).store.csDev = s.store.csDev ∧ (failTraining l i s).store.granules = s.store.granules ∧
    (failTraining l i s).pins = s.pins ∧ (failTraining l i s).stream = s.stream ∧ (failTraining l i s).power = s.power ∧
    (failTraining l i s).loader = s.loader ∧ (failTraining l i s).conservator = s.conservator ∧
    (failTraining l i s).egress = s.egress ∧ (failTraining l i s).repair = s.repair ∧
    (failTraining l i s).shadow = s.shadow ∧ (failTraining l i s).inForce = s.inForce ∧
    (failTraining l i s).otpRequest = s.otpRequest ∧ (failTraining l i s).heldCommands = s.heldCommands ∧
    (failTraining l i s).crossReads = s.crossReads := by
  unfold failTraining
  first | (simp; done) | ((try dsimp only); (repeat' split) <;> first | (simp; done) | simp_all | (repeat' split) <;> simp)

@[simp] theorem rateChoice_frame (l : FLink) (s : State) :
    (rateChoice l s).pending = s.pending ∧ (rateChoice l s).variant = s.variant ∧ (rateChoice l s).otp = s.otp ∧
    (rateChoice l s).masters.length = s.masters.length ∧ (rateChoice l s).cores.channels.length = s.cores.channels.length ∧
    (rateChoice l s).regs.debugLevel = s.regs.debugLevel ∧ (rateChoice l s).store.cs = s.store.cs ∧
    (rateChoice l s).store.csDev = s.store.csDev ∧ (rateChoice l s).store.granules = s.store.granules ∧
    (rateChoice l s).pins = s.pins ∧ (rateChoice l s).stream = s.stream ∧ (rateChoice l s).power = s.power ∧
    (rateChoice l s).loader = s.loader ∧ (rateChoice l s).conservator = s.conservator ∧ (rateChoice l s).egress = s.egress ∧
    (rateChoice l s).repair = s.repair ∧ (rateChoice l s).shadow = s.shadow ∧ (rateChoice l s).inForce = s.inForce ∧
    (rateChoice l s).otpRequest = s.otpRequest ∧ (rateChoice l s).heldCommands = s.heldCommands ∧
    (rateChoice l s).crossReads = s.crossReads := by
  unfold rateChoice
  first | (simp; done) | ((try dsimp only); (repeat' split) <;> first | (simp; done) | simp_all | (repeat' split) <;> simp)

@[simp] theorem alignOne_frame (delays : Bool) (ls : List AlignLane) (x : AlignLane) (r : State × Bool) :
    (alignOne delays ls x r).1.pending = r.1.pending ∧ (alignOne delays ls x r).1.variant = r.1.variant ∧
    (alignOne delays ls x r).1.otp = r.1.otp ∧ (alignOne delays ls x r).1.masters.length = r.1.masters.length ∧
    (alignOne delays ls x r).1.cores.channels.length = r.1.cores.channels.length ∧
    (alignOne delays ls x r).1.regs.debugLevel = r.1.regs.debugLevel ∧ (alignOne delays ls x r).1.store.cs = r.1.store.cs ∧
    (alignOne delays ls x r).1.store.csDev = r.1.store.csDev ∧
    (alignOne delays ls x r).1.store.granules = r.1.store.granules ∧ (alignOne delays ls x r).1.pins = r.1.pins ∧
    (alignOne delays ls x r).1.stream = r.1.stream ∧ (alignOne delays ls x r).1.power = r.1.power ∧
    (alignOne delays ls x r).1.loader = r.1.loader ∧ (alignOne delays ls x r).1.conservator = r.1.conservator ∧
    (alignOne delays ls x r).1.egress = r.1.egress ∧ (alignOne delays ls x r).1.repair = r.1.repair ∧
    (alignOne delays ls x r).1.shadow = r.1.shadow ∧ (alignOne delays ls x r).1.inForce = r.1.inForce ∧
    (alignOne delays ls x r).1.otpRequest = r.1.otpRequest ∧ (alignOne delays ls x r).1.heldCommands = r.1.heldCommands ∧
    (alignOne delays ls x r).1.crossReads = r.1.crossReads := by
  unfold alignOne
  (try dsimp only); (repeat' split) <;> simp

theorem alignFold_frame (delays : Bool) (ls xs : List AlignLane) (r : State × Bool) :
    (xs.foldl (fun r x => alignOne delays ls x r) r).1.pending = r.1.pending ∧
    (xs.foldl (fun r x => alignOne delays ls x r) r).1.variant = r.1.variant ∧
    (xs.foldl (fun r x => alignOne delays ls x r) r).1.otp = r.1.otp ∧
    (xs.foldl (fun r x => alignOne delays ls x r) r).1.masters.length = r.1.masters.length ∧
    (xs.foldl (fun r x => alignOne delays ls x r) r).1.cores.channels.length = r.1.cores.channels.length ∧
    (xs.foldl (fun r x => alignOne delays ls x r) r).1.regs.debugLevel = r.1.regs.debugLevel ∧
    (xs.foldl (fun r x => alignOne delays ls x r) r).1.store.cs = r.1.store.cs ∧
    (xs.foldl (fun r x => alignOne delays ls x r) r).1.store.csDev = r.1.store.csDev ∧
    (xs.foldl (fun r x => alignOne delays ls x r) r).1.store.granules = r.1.store.granules ∧
    (xs.foldl (fun r x => alignOne delays ls x r) r).1.pins = r.1.pins ∧
    (xs.foldl (fun r x => alignOne delays ls x r) r).1.stream = r.1.stream ∧
    (xs.foldl (fun r x => alignOne delays ls x r) r).1.power = r.1.power ∧
    (xs.foldl (fun r x => alignOne delays ls x r) r).1.loader = r.1.loader ∧
    (xs.foldl (fun r x => alignOne delays ls x r) r).1.conservator = r.1.conservator ∧
    (xs.foldl (fun r x => alignOne delays ls x r) r).1.egress = r.1.egress ∧
    (xs.foldl (fun r x => alignOne delays ls x r) r).1.repair = r.1.repair ∧
    (xs.foldl (fun r x => alignOne delays ls x r) r).1.shadow = r.1.shadow ∧
    (xs.foldl (fun r x => alignOne delays ls x r) r).1.inForce = r.1.inForce ∧
    (xs.foldl (fun r x => alignOne delays ls x r) r).1.otpRequest = r.1.otpRequest ∧
    (xs.foldl (fun r x => alignOne delays ls x r) r).1.heldCommands = r.1.heldCommands ∧
    (xs.foldl (fun r x => alignOne delays ls x r) r).1.crossReads = r.1.crossReads := by
  induction xs generalizing r with
  | nil => simp
  | cons x xs ih => simp [ih]

@[simp] theorem realign_frame (delays : Bool) (s : State) :
    (realign delays s).1.pending = s.pending ∧ (realign delays s).1.variant = s.variant ∧ (realign delays s).1.otp = s.otp ∧
    (realign delays s).1.masters.length = s.masters.length ∧
    (realign delays s).1.cores.channels.length = s.cores.channels.length ∧
    (realign delays s).1.regs.debugLevel = s.regs.debugLevel ∧ (realign delays s).1.store.cs = s.store.cs ∧
    (realign delays s).1.store.csDev = s.store.csDev ∧ (realign delays s).1.store.granules = s.store.granules ∧
    (realign delays s).1.pins = s.pins ∧ (realign delays s).1.stream = s.stream ∧ (realign delays s).1.power = s.power ∧
    (realign delays s).1.loader = s.loader ∧ (realign delays s).1.conservator = s.conservator ∧
    (realign delays s).1.egress = s.egress ∧ (realign delays s).1.repair = s.repair ∧
    (realign delays s).1.shadow = s.shadow ∧ (realign delays s).1.inForce = s.inForce ∧
    (realign delays s).1.otpRequest = s.otpRequest ∧ (realign delays s).1.heldCommands = s.heldCommands ∧
    (realign delays s).1.crossReads = s.crossReads := by
  unfold realign
  (try dsimp only); (repeat' split) <;> simp [alignFold_frame]

@[simp] theorem alignAndLog_frame (delays : Bool) (s : State) :
    (alignAndLog delays s).pending = s.pending ∧ (alignAndLog delays s).variant = s.variant ∧
    (alignAndLog delays s).otp = s.otp ∧ (alignAndLog delays s).masters.length = s.masters.length ∧
    (alignAndLog delays s).cores.channels.length = s.cores.channels.length ∧
    (alignAndLog delays s).regs.debugLevel = s.regs.debugLevel ∧ (alignAndLog delays s).store.cs = s.store.cs ∧
    (alignAndLog delays s).store.csDev = s.store.csDev ∧ (alignAndLog delays s).store.granules = s.store.granules ∧
    (alignAndLog delays s).pins = s.pins ∧ (alignAndLog delays s).stream = s.stream ∧
    (alignAndLog delays s).power = s.power ∧ (alignAndLog delays s).loader = s.loader ∧
    (alignAndLog delays s).conservator = s.conservator ∧ (alignAndLog delays s).egress = s.egress ∧
    (alignAndLog delays s).repair = s.repair ∧ (alignAndLog delays s).shadow = s.shadow ∧
    (alignAndLog delays s).inForce = s.inForce ∧ (alignAndLog delays s).otpRequest = s.otpRequest ∧
    (alignAndLog delays s).heldCommands = s.heldCommands ∧ (alignAndLog delays s).crossReads = s.crossReads := by
  unfold alignAndLog
  first | (simp; done) | ((try dsimp only); (repeat' split) <;> first | (simp; done) | simp_all | (repeat' split) <;> simp)

@[simp] theorem configStep_frame (l : FLink) (s : State) :
    (configStep l s).pending = s.pending ∧ (configStep l s).variant = s.variant ∧ (configStep l s).otp = s.otp ∧
    (configStep l s).masters.length = s.masters.length ∧ (configStep l s).cores.channels.length = s.cores.channels.length ∧
    (configStep l s).regs.debugLevel = s.regs.debugLevel ∧ (configStep l s).store.cs = s.store.cs ∧
    (configStep l s).store.csDev = s.store.csDev ∧ (configStep l s).store.granules = s.store.granules ∧
    (configStep l s).pins = s.pins ∧ (configStep l s).stream = s.stream ∧ (configStep l s).power = s.power ∧
    (configStep l s).loader = s.loader ∧ (configStep l s).conservator = s.conservator ∧ (configStep l s).egress = s.egress ∧
    (configStep l s).repair = s.repair ∧ (configStep l s).shadow = s.shadow ∧ (configStep l s).inForce = s.inForce ∧
    (configStep l s).otpRequest = s.otpRequest ∧ (configStep l s).heldCommands = s.heldCommands ∧
    (configStep l s).crossReads = s.crossReads := by
  unfold configStep
  first | (simp; done) | ((try dsimp only); (repeat' split) <;> first | (simp; done) | simp_all | (repeat' split) <;> simp)

@[simp] theorem trainAdvance_frame (l : FLink) (s : State) :
    (trainAdvance l s).pending = s.pending ∧ (trainAdvance l s).variant = s.variant ∧ (trainAdvance l s).otp = s.otp ∧
    (trainAdvance l s).masters.length = s.masters.length ∧
    (trainAdvance l s).cores.channels.length = s.cores.channels.length ∧
    (trainAdvance l s).regs.debugLevel = s.regs.debugLevel ∧ (trainAdvance l s).store.cs = s.store.cs ∧
    (trainAdvance l s).store.csDev = s.store.csDev ∧ (trainAdvance l s).store.granules = s.store.granules ∧
    (trainAdvance l s).pins = s.pins ∧ (trainAdvance l s).stream = s.stream ∧ (trainAdvance l s).power = s.power ∧
    (trainAdvance l s).loader = s.loader ∧ (trainAdvance l s).conservator = s.conservator ∧
    (trainAdvance l s).egress = s.egress ∧ (trainAdvance l s).repair = s.repair ∧ (trainAdvance l s).shadow = s.shadow ∧
    (trainAdvance l s).inForce = s.inForce ∧ (trainAdvance l s).otpRequest = s.otpRequest ∧
    (trainAdvance l s).heldCommands = s.heldCommands ∧ (trainAdvance l s).crossReads = s.crossReads := by
  unfold trainAdvance
  first | (simp; done) | ((try dsimp only); (repeat' split) <;> first | (simp; done) | simp_all | (repeat' split) <;> simp)

@[simp] theorem beginTraining_frame (l : FLink) (s0 : State) :
    (beginTraining l s0).pending = s0.pending ∧ (beginTraining l s0).variant = s0.variant ∧
    (beginTraining l s0).otp = s0.otp ∧ (beginTraining l s0).masters.length = s0.masters.length ∧
    (beginTraining l s0).cores.channels.length = s0.cores.channels.length ∧
    (beginTraining l s0).regs.debugLevel = s0.regs.debugLevel ∧ (beginTraining l s0).store.cs = s0.store.cs ∧
    (beginTraining l s0).store.csDev = s0.store.csDev ∧ (beginTraining l s0).store.granules = s0.store.granules ∧
    (beginTraining l s0).pins = s0.pins ∧ (beginTraining l s0).stream = s0.stream ∧ (beginTraining l s0).power = s0.power ∧
    (beginTraining l s0).loader = s0.loader ∧ (beginTraining l s0).conservator = s0.conservator ∧
    (beginTraining l s0).egress = s0.egress ∧ (beginTraining l s0).repair = s0.repair ∧
    (beginTraining l s0).shadow = s0.shadow ∧ (beginTraining l s0).inForce = s0.inForce ∧
    (beginTraining l s0).otpRequest = s0.otpRequest ∧ (beginTraining l s0).heldCommands = s0.heldCommands ∧
    (beginTraining l s0).crossReads = s0.crossReads := by
  unfold beginTraining
  first | (simp; done) | ((try dsimp only); (repeat' split) <;> first | (simp; done) | simp_all | (repeat' split) <;> simp)

@[simp] theorem linkUp_frame (l : FLink) (s : State) :
    (linkUp l s).pending = s.pending ∧ (linkUp l s).variant = s.variant ∧ (linkUp l s).otp = s.otp ∧
    (linkUp l s).masters.length = s.masters.length ∧ (linkUp l s).cores.channels.length = s.cores.channels.length ∧
    (linkUp l s).regs.debugLevel = s.regs.debugLevel ∧ (linkUp l s).store.cs = s.store.cs ∧
    (linkUp l s).store.csDev = s.store.csDev ∧ (linkUp l s).store.granules = s.store.granules ∧ (linkUp l s).pins = s.pins ∧
    (linkUp l s).stream = s.stream ∧ (linkUp l s).power = s.power ∧ (linkUp l s).loader = s.loader ∧
    (linkUp l s).conservator = s.conservator ∧ (linkUp l s).egress = s.egress ∧ (linkUp l s).repair = s.repair ∧
    (linkUp l s).shadow = s.shadow ∧ (linkUp l s).inForce = s.inForce ∧ (linkUp l s).otpRequest = s.otpRequest ∧
    (linkUp l s).heldCommands = s.heldCommands ∧ (linkUp l s).crossReads = s.crossReads := by
  unfold linkUp
  first | (simp; done) | ((try dsimp only); (repeat' split) <;> first | (simp; done) | simp_all | (repeat' split) <;> simp)

@[simp] theorem trainingTimeout_frame (l : FLink) (i : Nat) (s : State) :
    (trainingTimeout l i s).pending = s.pending ∧ (trainingTimeout l i s).variant = s.variant ∧
    (trainingTimeout l i s).otp = s.otp ∧ (trainingTimeout l i s).masters.length = s.masters.length ∧
    (trainingTimeout l i s).cores.channels.length = s.cores.channels.length ∧
    (trainingTimeout l i s).regs.debugLevel = s.regs.debugLevel ∧ (trainingTimeout l i s).store.cs = s.store.cs ∧
    (trainingTimeout l i s).store.csDev = s.store.csDev ∧ (trainingTimeout l i s).store.granules = s.store.granules ∧
    (trainingTimeout l i s).pins = s.pins ∧ (trainingTimeout l i s).stream = s.stream ∧
    (trainingTimeout l i s).power = s.power ∧ (trainingTimeout l i s).loader = s.loader ∧
    (trainingTimeout l i s).conservator = s.conservator ∧ (trainingTimeout l i s).egress = s.egress ∧
    (trainingTimeout l i s).repair = s.repair ∧ (trainingTimeout l i s).shadow = s.shadow ∧
    (trainingTimeout l i s).inForce = s.inForce ∧ (trainingTimeout l i s).otpRequest = s.otpRequest ∧
    (trainingTimeout l i s).heldCommands = s.heldCommands ∧ (trainingTimeout l i s).crossReads = s.crossReads := by
  unfold trainingTimeout
  first | (simp; done) | ((try dsimp only); (repeat' split) <;> first | (simp; done) | simp_all | (repeat' split) <;> simp)

@[simp] theorem twinWordLock_frame (i : Nat) (s : State) :
    (twinWordLock i s).pending = s.pending ∧ (twinWordLock i s).variant = s.variant ∧ (twinWordLock i s).otp = s.otp ∧
    (twinWordLock i s).masters.length = s.masters.length ∧
    (twinWordLock i s).cores.channels.length = s.cores.channels.length ∧
    (twinWordLock i s).regs.debugLevel = s.regs.debugLevel ∧ (twinWordLock i s).store.cs = s.store.cs ∧
    (twinWordLock i s).store.csDev = s.store.csDev ∧ (twinWordLock i s).store.granules = s.store.granules ∧
    (twinWordLock i s).pins = s.pins ∧ (twinWordLock i s).stream = s.stream ∧ (twinWordLock i s).power = s.power ∧
    (twinWordLock i s).loader = s.loader ∧ (twinWordLock i s).conservator = s.conservator ∧
    (twinWordLock i s).egress = s.egress ∧ (twinWordLock i s).repair = s.repair ∧ (twinWordLock i s).shadow = s.shadow ∧
    (twinWordLock i s).inForce = s.inForce ∧ (twinWordLock i s).otpRequest = s.otpRequest ∧
    (twinWordLock i s).heldCommands = s.heldCommands ∧ (twinWordLock i s).crossReads = s.crossReads := by
  unfold twinWordLock
  first | (simp; done) | ((try dsimp only); (repeat' split) <;> first | (simp; done) | simp_all | (repeat' split) <;> simp)

@[simp] theorem endDesc_frame (l : FLink) (i : Nat) (s : State) :
    (endDesc l i s).pending = s.pending ∧ (endDesc l i s).variant = s.variant ∧ (endDesc l i s).otp = s.otp ∧
    (endDesc l i s).masters.length = s.masters.length ∧ (endDesc l i s).cores.channels.length = s.cores.channels.length ∧
    (endDesc l i s).regs.debugLevel = s.regs.debugLevel ∧ (endDesc l i s).store.cs = s.store.cs ∧
    (endDesc l i s).store.csDev = s.store.csDev ∧ (endDesc l i s).store.granules = s.store.granules ∧
    (endDesc l i s).pins = s.pins ∧ (endDesc l i s).stream = s.stream ∧ (endDesc l i s).power = s.power ∧
    (endDesc l i s).loader = s.loader ∧ (endDesc l i s).conservator = s.conservator ∧ (endDesc l i s).egress = s.egress ∧
    (endDesc l i s).repair = s.repair ∧ (endDesc l i s).shadow = s.shadow ∧ (endDesc l i s).inForce = s.inForce ∧
    (endDesc l i s).otpRequest = s.otpRequest ∧ (endDesc l i s).heldCommands = s.heldCommands ∧
    (endDesc l i s).crossReads = s.crossReads := by
  unfold endDesc
  first | (simp; done) | ((try dsimp only); (repeat' split) <;> first | (simp; done) | simp_all | (repeat' split) <;> simp)

@[simp] theorem takeDesc_frame (l : FLink) (i : Nat) (q : QWord) (s : State) :
    (takeDesc l i q s).pending = s.pending ∧ (takeDesc l i q s).variant = s.variant ∧ (takeDesc l i q s).otp = s.otp ∧
    (takeDesc l i q s).masters.length = s.masters.length ∧
    (takeDesc l i q s).cores.channels.length = s.cores.channels.length ∧
    (takeDesc l i q s).regs.debugLevel = s.regs.debugLevel ∧ (takeDesc l i q s).store.cs = s.store.cs ∧
    (takeDesc l i q s).store.csDev = s.store.csDev ∧ (takeDesc l i q s).store.granules = s.store.granules ∧
    (takeDesc l i q s).pins = s.pins ∧ (takeDesc l i q s).stream = s.stream ∧ (takeDesc l i q s).power = s.power ∧
    (takeDesc l i q s).loader = s.loader ∧ (takeDesc l i q s).conservator = s.conservator ∧
    (takeDesc l i q s).egress = s.egress ∧ (takeDesc l i q s).repair = s.repair ∧ (takeDesc l i q s).shadow = s.shadow ∧
    (takeDesc l i q s).inForce = s.inForce ∧ (takeDesc l i q s).otpRequest = s.otpRequest ∧
    (takeDesc l i q s).heldCommands = s.heldCommands ∧ (takeDesc l i q s).crossReads = s.crossReads := by
  unfold takeDesc
  first | (simp; done) | ((try dsimp only); (repeat' split) <;> first | (simp; done) | simp_all | (repeat' split) <;> simp)

@[simp] theorem crcFail_frame (l : FLink) (i : Nat) (s : State) :
    (crcFail l i s).pending = s.pending ∧ (crcFail l i s).variant = s.variant ∧ (crcFail l i s).otp = s.otp ∧
    (crcFail l i s).masters.length = s.masters.length ∧ (crcFail l i s).cores.channels.length = s.cores.channels.length ∧
    (crcFail l i s).regs.debugLevel = s.regs.debugLevel ∧ (crcFail l i s).store.cs = s.store.cs ∧
    (crcFail l i s).store.csDev = s.store.csDev ∧ (crcFail l i s).store.granules = s.store.granules ∧
    (crcFail l i s).pins = s.pins ∧ (crcFail l i s).stream = s.stream ∧ (crcFail l i s).power = s.power ∧
    (crcFail l i s).loader = s.loader ∧ (crcFail l i s).egress = s.egress ∧ (crcFail l i s).shadow = s.shadow ∧
    (crcFail l i s).inForce = s.inForce ∧ (crcFail l i s).otpRequest = s.otpRequest ∧
    (crcFail l i s).heldCommands = s.heldCommands ∧ (crcFail l i s).crossReads = s.crossReads := by
  unfold crcFail
  first | (simp; done) | ((try dsimp only); (repeat' split) <;> first | (simp; done) | simp_all | (repeat' split) <;> simp)

@[simp] theorem checkFrame_frame (l : FLink) (i : Nat) (ok : Bool) (s : State) :
    (checkFrame l i ok s).pending = s.pending ∧ (checkFrame l i ok s).variant = s.variant ∧
    (checkFrame l i ok s).otp = s.otp ∧ (checkFrame l i ok s).masters.length = s.masters.length ∧
    (checkFrame l i ok s).cores.channels.length = s.cores.channels.length ∧
    (checkFrame l i ok s).regs.debugLevel = s.regs.debugLevel ∧ (checkFrame l i ok s).store.cs = s.store.cs ∧
    (checkFrame l i ok s).store.csDev = s.store.csDev ∧ (checkFrame l i ok s).store.granules = s.store.granules ∧
    (checkFrame l i ok s).pins = s.pins ∧ (checkFrame l i ok s).stream = s.stream ∧ (checkFrame l i ok s).power = s.power ∧
    (checkFrame l i ok s).loader = s.loader ∧ (checkFrame l i ok s).egress = s.egress ∧
    (checkFrame l i ok s).shadow = s.shadow ∧ (checkFrame l i ok s).inForce = s.inForce ∧
    (checkFrame l i ok s).otpRequest = s.otpRequest ∧ (checkFrame l i ok s).heldCommands = s.heldCommands ∧
    (checkFrame l i ok s).crossReads = s.crossReads := by
  unfold checkFrame
  first | (simp; done) | ((try dsimp only); (repeat' split) <;> first | (simp; done) | simp_all | (repeat' split) <;> simp)

@[simp] theorem frameStart5_frame (l : FLink) (i echo64 : Nat) (s : State) :
    (frameStart5 l i echo64 s).pending = s.pending ∧ (frameStart5 l i echo64 s).variant = s.variant ∧
    (frameStart5 l i echo64 s).otp = s.otp ∧ (frameStart5 l i echo64 s).masters.length = s.masters.length ∧
    (frameStart5 l i echo64 s).cores.channels.length = s.cores.channels.length ∧
    (frameStart5 l i echo64 s).regs.debugLevel = s.regs.debugLevel ∧ (frameStart5 l i echo64 s).store.cs = s.store.cs ∧
    (frameStart5 l i echo64 s).store.csDev = s.store.csDev ∧ (frameStart5 l i echo64 s).store.granules = s.store.granules ∧
    (frameStart5 l i echo64 s).pins = s.pins ∧ (frameStart5 l i echo64 s).stream = s.stream ∧
    (frameStart5 l i echo64 s).power = s.power ∧ (frameStart5 l i echo64 s).loader = s.loader ∧
    (frameStart5 l i echo64 s).conservator = s.conservator ∧ (frameStart5 l i echo64 s).egress = s.egress ∧
    (frameStart5 l i echo64 s).repair = s.repair ∧ (frameStart5 l i echo64 s).shadow = s.shadow ∧
    (frameStart5 l i echo64 s).inForce = s.inForce ∧ (frameStart5 l i echo64 s).otpRequest = s.otpRequest ∧
    (frameStart5 l i echo64 s).heldCommands = s.heldCommands ∧ (frameStart5 l i echo64 s).crossReads = s.crossReads := by
  unfold frameStart5
  first | (simp; done) | ((try dsimp only); (repeat' split) <;> first | (simp; done) | simp_all | (repeat' split) <;> simp)

@[simp] theorem takeFrameCrc_frame (l : FLink) (i : Nat) (q : QWord) (echo64 : Nat) (s : State) :
    (takeFrameCrc l i q echo64 s).pending = s.pending ∧ (takeFrameCrc l i q echo64 s).variant = s.variant ∧
    (takeFrameCrc l i q echo64 s).otp = s.otp ∧ (takeFrameCrc l i q echo64 s).masters.length = s.masters.length ∧
    (takeFrameCrc l i q echo64 s).cores.channels.length = s.cores.channels.length ∧
    (takeFrameCrc l i q echo64 s).regs.debugLevel = s.regs.debugLevel ∧
    (takeFrameCrc l i q echo64 s).store.cs = s.store.cs ∧ (takeFrameCrc l i q echo64 s).store.csDev = s.store.csDev ∧
    (takeFrameCrc l i q echo64 s).store.granules = s.store.granules ∧ (takeFrameCrc l i q echo64 s).pins = s.pins ∧
    (takeFrameCrc l i q echo64 s).stream = s.stream ∧ (takeFrameCrc l i q echo64 s).power = s.power ∧
    (takeFrameCrc l i q echo64 s).loader = s.loader ∧ (takeFrameCrc l i q echo64 s).egress = s.egress ∧
    (takeFrameCrc l i q echo64 s).shadow = s.shadow ∧ (takeFrameCrc l i q echo64 s).inForce = s.inForce ∧
    (takeFrameCrc l i q echo64 s).otpRequest = s.otpRequest ∧ (takeFrameCrc l i q echo64 s).heldCommands = s.heldCommands ∧
    (takeFrameCrc l i q echo64 s).crossReads = s.crossReads := by
  unfold takeFrameCrc
  first | (simp; done) | ((try dsimp only); (repeat' split) <;> first | (simp; done) | simp_all | (repeat' split) <;> simp)

@[simp] theorem statusUp_frame (l : FLink) (i : Nat) (q : QWord) (s : State) :
    (statusUp l i q s).pending = s.pending ∧ (statusUp l i q s).variant = s.variant ∧ (statusUp l i q s).otp = s.otp ∧
    (statusUp l i q s).masters.length = s.masters.length ∧
    (statusUp l i q s).cores.channels.length = s.cores.channels.length ∧
    (statusUp l i q s).regs.debugLevel = s.regs.debugLevel ∧ (statusUp l i q s).store.cs = s.store.cs ∧
    (statusUp l i q s).store.csDev = s.store.csDev ∧ (statusUp l i q s).store.granules = s.store.granules ∧
    (statusUp l i q s).pins = s.pins ∧ (statusUp l i q s).stream = s.stream ∧ (statusUp l i q s).power = s.power ∧
    (statusUp l i q s).loader = s.loader ∧ (statusUp l i q s).conservator = s.conservator ∧
    (statusUp l i q s).egress = s.egress ∧ (statusUp l i q s).repair = s.repair ∧ (statusUp l i q s).shadow = s.shadow ∧
    (statusUp l i q s).inForce = s.inForce ∧ (statusUp l i q s).otpRequest = s.otpRequest ∧
    (statusUp l i q s).heldCommands = s.heldCommands ∧ (statusUp l i q s).crossReads = s.crossReads := by
  unfold statusUp
  first | (simp; done) | ((try dsimp only); (repeat' split) <;> first | (simp; done) | simp_all | (repeat' split) <;> simp)

@[simp] theorem statusTraining_frame (l : FLink) (i : Nat) (q : QWord) (s : State) :
    (statusTraining l i q s).pending = s.pending ∧ (statusTraining l i q s).variant = s.variant ∧
    (statusTraining l i q s).otp = s.otp ∧ (statusTraining l i q s).masters.length = s.masters.length ∧
    (statusTraining l i q s).cores.channels.length = s.cores.channels.length ∧
    (statusTraining l i q s).regs.debugLevel = s.regs.debugLevel ∧ (statusTraining l i q s).store.cs = s.store.cs ∧
    (statusTraining l i q s).store.csDev = s.store.csDev ∧ (statusTraining l i q s).store.granules = s.store.granules ∧
    (statusTraining l i q s).pins = s.pins ∧ (statusTraining l i q s).stream = s.stream ∧
    (statusTraining l i q s).power = s.power ∧ (statusTraining l i q s).loader = s.loader ∧
    (statusTraining l i q s).conservator = s.conservator ∧ (statusTraining l i q s).egress = s.egress ∧
    (statusTraining l i q s).repair = s.repair ∧ (statusTraining l i q s).shadow = s.shadow ∧
    (statusTraining l i q s).inForce = s.inForce ∧ (statusTraining l i q s).otpRequest = s.otpRequest ∧
    (statusTraining l i q s).heldCommands = s.heldCommands ∧ (statusTraining l i q s).crossReads = s.crossReads := by
  unfold statusTraining
  first | (simp; done) | ((try dsimp only); (repeat' split) <;> first | (simp; done) | simp_all | (repeat' split) <;> simp)

@[simp] theorem takeStatus_frame (l : FLink) (i : Nat) (q : QWord) (s : State) :
    (takeStatus l i q s).pending = s.pending ∧ (takeStatus l i q s).variant = s.variant ∧ (takeStatus l i q s).otp = s.otp ∧
    (takeStatus l i q s).masters.length = s.masters.length ∧
    (takeStatus l i q s).cores.channels.length = s.cores.channels.length ∧
    (takeStatus l i q s).regs.debugLevel = s.regs.debugLevel ∧ (takeStatus l i q s).store.cs = s.store.cs ∧
    (takeStatus l i q s).store.csDev = s.store.csDev ∧ (takeStatus l i q s).store.granules = s.store.granules ∧
    (takeStatus l i q s).pins = s.pins ∧ (takeStatus l i q s).stream = s.stream ∧ (takeStatus l i q s).power = s.power ∧
    (takeStatus l i q s).loader = s.loader ∧ (takeStatus l i q s).conservator = s.conservator ∧
    (takeStatus l i q s).egress = s.egress ∧ (takeStatus l i q s).repair = s.repair ∧
    (takeStatus l i q s).shadow = s.shadow ∧ (takeStatus l i q s).inForce = s.inForce ∧
    (takeStatus l i q s).otpRequest = s.otpRequest ∧ (takeStatus l i q s).heldCommands = s.heldCommands ∧
    (takeStatus l i q s).crossReads = s.crossReads := by
  unfold takeStatus
  first | (simp; done) | ((try dsimp only); (repeat' split) <;> first | (simp; done) | simp_all | (repeat' split) <;> simp)

@[simp] theorem quarterLost_frame (l : FLink) (i quarter : Nat) (crcOk : Bool) (s : State) :
    (quarterLost l i quarter crcOk s).pending = s.pending ∧ (quarterLost l i quarter crcOk s).variant = s.variant ∧
    (quarterLost l i quarter crcOk s).otp = s.otp ∧ (quarterLost l i quarter crcOk s).masters.length = s.masters.length ∧
    (quarterLost l i quarter crcOk s).cores.channels.length = s.cores.channels.length ∧
    (quarterLost l i quarter crcOk s).regs.debugLevel = s.regs.debugLevel ∧
    (quarterLost l i quarter crcOk s).store.cs = s.store.cs ∧
    (quarterLost l i quarter crcOk s).store.csDev = s.store.csDev ∧
    (quarterLost l i quarter crcOk s).store.granules = s.store.granules ∧ (quarterLost l i quarter crcOk s).pins = s.pins ∧
    (quarterLost l i quarter crcOk s).stream = s.stream ∧ (quarterLost l i quarter crcOk s).power = s.power ∧
    (quarterLost l i quarter crcOk s).loader = s.loader ∧ (quarterLost l i quarter crcOk s).egress = s.egress ∧
    (quarterLost l i quarter crcOk s).shadow = s.shadow ∧ (quarterLost l i quarter crcOk s).inForce = s.inForce ∧
    (quarterLost l i quarter crcOk s).otpRequest = s.otpRequest ∧
    (quarterLost l i quarter crcOk s).heldCommands = s.heldCommands ∧
    (quarterLost l i quarter crcOk s).crossReads = s.crossReads := by
  unfold quarterLost
  first | (simp; done) | ((try dsimp only); (repeat' split) <;> first | (simp; done) | simp_all | (repeat' split) <;> simp)

@[simp] theorem retryLane_frame (l : FLink) (i : Nat) (e : Option Nat) (s : State) :
    (retryLane l i e s).pending = s.pending ∧ (retryLane l i e s).variant = s.variant ∧ (retryLane l i e s).otp = s.otp ∧
    (retryLane l i e s).masters.length = s.masters.length ∧
    (retryLane l i e s).cores.channels.length = s.cores.channels.length ∧
    (retryLane l i e s).regs.debugLevel = s.regs.debugLevel ∧ (retryLane l i e s).store.cs = s.store.cs ∧
    (retryLane l i e s).store.csDev = s.store.csDev ∧ (retryLane l i e s).store.granules = s.store.granules ∧
    (retryLane l i e s).pins = s.pins ∧ (retryLane l i e s).stream = s.stream ∧ (retryLane l i e s).power = s.power ∧
    (retryLane l i e s).loader = s.loader ∧ (retryLane l i e s).egress = s.egress ∧ (retryLane l i e s).shadow = s.shadow ∧
    (retryLane l i e s).inForce = s.inForce ∧ (retryLane l i e s).otpRequest = s.otpRequest ∧
    (retryLane l i e s).heldCommands = s.heldCommands ∧ (retryLane l i e s).crossReads = s.crossReads := by
  unfold retryLane
  first | (simp; done) | ((try dsimp only); (repeat' split) <;> first | (simp; done) | simp_all | (repeat' split) <;> simp)

@[simp] theorem remeasureDue_frame (l : FLink) (code : Nat) (s : State) :
    (remeasureDue l code s).pending = s.pending ∧ (remeasureDue l code s).variant = s.variant ∧
    (remeasureDue l code s).otp = s.otp ∧ (remeasureDue l code s).masters.length = s.masters.length ∧
    (remeasureDue l code s).cores.channels.length = s.cores.channels.length ∧
    (remeasureDue l code s).regs.debugLevel = s.regs.debugLevel ∧ (remeasureDue l code s).store.cs = s.store.cs ∧
    (remeasureDue l code s).store.csDev = s.store.csDev ∧ (remeasureDue l code s).store.granules = s.store.granules ∧
    (remeasureDue l code s).pins = s.pins ∧ (remeasureDue l code s).stream = s.stream ∧
    (remeasureDue l code s).power = s.power ∧ (remeasureDue l code s).loader = s.loader ∧
    (remeasureDue l code s).conservator = s.conservator ∧ (remeasureDue l code s).egress = s.egress ∧
    (remeasureDue l code s).repair = s.repair ∧ (remeasureDue l code s).shadow = s.shadow ∧
    (remeasureDue l code s).inForce = s.inForce ∧ (remeasureDue l code s).otpRequest = s.otpRequest ∧
    (remeasureDue l code s).heldCommands = s.heldCommands ∧ (remeasureDue l code s).crossReads = s.crossReads := by
  unfold remeasureDue
  first | (simp; done) | ((try dsimp only); (repeat' split) <;> first | (simp; done) | simp_all | (repeat' split) <;> simp)

@[simp] theorem drift_frame (l : FLink) (i : Nat) (d : Int) (s : State) :
    (drift l i d s).pending = s.pending ∧ (drift l i d s).variant = s.variant ∧ (drift l i d s).otp = s.otp ∧
    (drift l i d s).masters.length = s.masters.length ∧ (drift l i d s).cores.channels.length = s.cores.channels.length ∧
    (drift l i d s).regs.debugLevel = s.regs.debugLevel ∧ (drift l i d s).store.cs = s.store.cs ∧
    (drift l i d s).store.csDev = s.store.csDev ∧ (drift l i d s).store.granules = s.store.granules ∧
    (drift l i d s).pins = s.pins ∧ (drift l i d s).stream = s.stream ∧ (drift l i d s).power = s.power ∧
    (drift l i d s).loader = s.loader ∧ (drift l i d s).conservator = s.conservator ∧ (drift l i d s).egress = s.egress ∧
    (drift l i d s).repair = s.repair ∧ (drift l i d s).shadow = s.shadow ∧ (drift l i d s).inForce = s.inForce ∧
    (drift l i d s).otpRequest = s.otpRequest ∧ (drift l i d s).heldCommands = s.heldCommands ∧
    (drift l i d s).crossReads = s.crossReads := by
  unfold drift
  first | (simp; done) | ((try dsimp only); (repeat' split) <;> first | (simp; done) | simp_all | (repeat' split) <;> simp)

@[simp] theorem remeasured_frame (l : FLink) (es : List (Nat × Nat)) (s : State) :
    (remeasured l es s).pending = s.pending ∧ (remeasured l es s).variant = s.variant ∧ (remeasured l es s).otp = s.otp ∧
    (remeasured l es s).masters.length = s.masters.length ∧
    (remeasured l es s).cores.channels.length = s.cores.channels.length ∧
    (remeasured l es s).regs.debugLevel = s.regs.debugLevel ∧ (remeasured l es s).store.cs = s.store.cs ∧
    (remeasured l es s).store.csDev = s.store.csDev ∧ (remeasured l es s).store.granules = s.store.granules ∧
    (remeasured l es s).pins = s.pins ∧ (remeasured l es s).stream = s.stream ∧ (remeasured l es s).power = s.power ∧
    (remeasured l es s).loader = s.loader ∧ (remeasured l es s).conservator = s.conservator ∧
    (remeasured l es s).egress = s.egress ∧ (remeasured l es s).repair = s.repair ∧ (remeasured l es s).shadow = s.shadow ∧
    (remeasured l es s).inForce = s.inForce ∧ (remeasured l es s).otpRequest = s.otpRequest ∧
    (remeasured l es s).heldCommands = s.heldCommands ∧ (remeasured l es s).crossReads = s.crossReads := by
  unfold remeasured
  first | (simp; done) | ((try dsimp only); (repeat' split) <;> first | (simp; done) | simp_all | (repeat' split) <;> simp)

@[simp] theorem logMeasured_frame (l : FLink) (s : State) :
    (logMeasured l s).pending = s.pending ∧ (logMeasured l s).variant = s.variant ∧ (logMeasured l s).otp = s.otp ∧
    (logMeasured l s).masters.length = s.masters.length ∧
    (logMeasured l s).cores.channels.length = s.cores.channels.length ∧
    (logMeasured l s).regs.debugLevel = s.regs.debugLevel ∧ (logMeasured l s).store.cs = s.store.cs ∧
    (logMeasured l s).store.csDev = s.store.csDev ∧ (logMeasured l s).store.granules = s.store.granules ∧
    (logMeasured l s).pins = s.pins ∧ (logMeasured l s).stream = s.stream ∧ (logMeasured l s).power = s.power ∧
    (logMeasured l s).loader = s.loader ∧ (logMeasured l s).conservator = s.conservator ∧
    (logMeasured l s).egress = s.egress ∧ (logMeasured l s).repair = s.repair ∧ (logMeasured l s).shadow = s.shadow ∧
    (logMeasured l s).inForce = s.inForce ∧ (logMeasured l s).otpRequest = s.otpRequest ∧
    (logMeasured l s).heldCommands = s.heldCommands ∧ (logMeasured l s).crossReads = s.crossReads := by
  unfold logMeasured
  first | (simp; done) | ((try dsimp only); (repeat' split) <;> first | (simp; done) | simp_all | (repeat' split) <;> simp)

@[simp] theorem requestRetrain_frame (l : FLink) (s : State) :
    (requestRetrain l s).pending = s.pending ∧ (requestRetrain l s).variant = s.variant ∧ (requestRetrain l s).otp = s.otp ∧
    (requestRetrain l s).masters.length = s.masters.length ∧
    (requestRetrain l s).cores.channels.length = s.cores.channels.length ∧
    (requestRetrain l s).regs.debugLevel = s.regs.debugLevel ∧ (requestRetrain l s).store.cs = s.store.cs ∧
    (requestRetrain l s).store.csDev = s.store.csDev ∧ (requestRetrain l s).store.granules = s.store.granules ∧
    (requestRetrain l s).pins = s.pins ∧ (requestRetrain l s).stream = s.stream ∧ (requestRetrain l s).power = s.power ∧
    (requestRetrain l s).loader = s.loader ∧ (requestRetrain l s).conservator = s.conservator ∧
    (requestRetrain l s).egress = s.egress ∧ (requestRetrain l s).repair = s.repair ∧
    (requestRetrain l s).shadow = s.shadow ∧ (requestRetrain l s).inForce = s.inForce ∧
    (requestRetrain l s).otpRequest = s.otpRequest ∧ (requestRetrain l s).heldCommands = s.heldCommands ∧
    (requestRetrain l s).crossReads = s.crossReads := by
  unfold requestRetrain
  first | (simp; done) | ((try dsimp only); (repeat' split) <;> first | (simp; done) | simp_all | (repeat' split) <;> simp)

@[simp] theorem requestRemeasure_frame  (s : State) :
    (requestRemeasure s).pending = s.pending ∧ (requestRemeasure s).variant = s.variant ∧ (requestRemeasure s).otp = s.otp ∧
    (requestRemeasure s).masters.length = s.masters.length ∧
    (requestRemeasure s).cores.channels.length = s.cores.channels.length ∧
    (requestRemeasure s).regs.debugLevel = s.regs.debugLevel ∧ (requestRemeasure s).store.cs = s.store.cs ∧
    (requestRemeasure s).store.csDev = s.store.csDev ∧ (requestRemeasure s).store.granules = s.store.granules ∧
    (requestRemeasure s).pins = s.pins ∧ (requestRemeasure s).stream = s.stream ∧ (requestRemeasure s).power = s.power ∧
    (requestRemeasure s).loader = s.loader ∧ (requestRemeasure s).conservator = s.conservator ∧
    (requestRemeasure s).egress = s.egress ∧ (requestRemeasure s).repair = s.repair ∧
    (requestRemeasure s).shadow = s.shadow ∧ (requestRemeasure s).inForce = s.inForce ∧
    (requestRemeasure s).otpRequest = s.otpRequest ∧ (requestRemeasure s).heldCommands = s.heldCommands ∧
    (requestRemeasure s).crossReads = s.crossReads := by
  unfold requestRemeasure
  first | (simp; done) | ((try dsimp only); (repeat' split) <;> first | (simp; done) | simp_all | (repeat' split) <;> simp)

@[simp] theorem noteConditions_frame  (s : State) :
    (noteConditions s).pending = s.pending ∧ (noteConditions s).variant = s.variant ∧ (noteConditions s).otp = s.otp ∧
    (noteConditions s).masters.length = s.masters.length ∧
    (noteConditions s).cores.channels.length = s.cores.channels.length ∧
    (noteConditions s).regs.debugLevel = s.regs.debugLevel ∧ (noteConditions s).store.cs = s.store.cs ∧
    (noteConditions s).store.csDev = s.store.csDev ∧ (noteConditions s).store.granules = s.store.granules ∧
    (noteConditions s).pins = s.pins ∧ (noteConditions s).stream = s.stream ∧ (noteConditions s).power = s.power ∧
    (noteConditions s).loader = s.loader ∧ (noteConditions s).conservator = s.conservator ∧
    (noteConditions s).egress = s.egress ∧ (noteConditions s).repair = s.repair ∧ (noteConditions s).shadow = s.shadow ∧
    (noteConditions s).inForce = s.inForce ∧ (noteConditions s).otpRequest = s.otpRequest ∧
    (noteConditions s).heldCommands = s.heldCommands ∧ (noteConditions s).crossReads = s.crossReads := by
  unfold noteConditions
  first | (simp; done) | ((try dsimp only); (repeat' split) <;> first | (simp; done) | simp_all | (repeat' split) <;> simp)

@[simp] theorem checkDriftTemp_frame (l : FLink) (s : State) :
    (checkDriftTemp l s).pending = s.pending ∧ (checkDriftTemp l s).variant = s.variant ∧ (checkDriftTemp l s).otp = s.otp ∧
    (checkDriftTemp l s).masters.length = s.masters.length ∧
    (checkDriftTemp l s).cores.channels.length = s.cores.channels.length ∧
    (checkDriftTemp l s).regs.debugLevel = s.regs.debugLevel ∧ (checkDriftTemp l s).store.cs = s.store.cs ∧
    (checkDriftTemp l s).store.csDev = s.store.csDev ∧ (checkDriftTemp l s).store.granules = s.store.granules ∧
    (checkDriftTemp l s).pins = s.pins ∧ (checkDriftTemp l s).stream = s.stream ∧ (checkDriftTemp l s).power = s.power ∧
    (checkDriftTemp l s).loader = s.loader ∧ (checkDriftTemp l s).conservator = s.conservator ∧
    (checkDriftTemp l s).egress = s.egress ∧ (checkDriftTemp l s).repair = s.repair ∧
    (checkDriftTemp l s).shadow = s.shadow ∧ (checkDriftTemp l s).inForce = s.inForce ∧
    (checkDriftTemp l s).otpRequest = s.otpRequest ∧ (checkDriftTemp l s).heldCommands = s.heldCommands ∧
    (checkDriftTemp l s).crossReads = s.crossReads := by
  unfold checkDriftTemp
  first | (simp; done) | ((try dsimp only); (repeat' split) <;> first | (simp; done) | simp_all | (repeat' split) <;> simp)

@[simp] theorem sample_frame (p : SurveyPoint) (s : State) :
    (sample p s).pending = s.pending ∧ (sample p s).variant = s.variant ∧ (sample p s).otp = s.otp ∧
    (sample p s).masters.length = s.masters.length ∧ (sample p s).cores.channels.length = s.cores.channels.length ∧
    (sample p s).regs.debugLevel = s.regs.debugLevel ∧ (sample p s).store.cs = s.store.cs ∧
    (sample p s).store.csDev = s.store.csDev ∧ (sample p s).store.granules = s.store.granules ∧ (sample p s).pins = s.pins ∧
    (sample p s).stream = s.stream ∧ (sample p s).power = s.power ∧ (sample p s).loader = s.loader ∧
    (sample p s).conservator = s.conservator ∧ (sample p s).egress = s.egress ∧ (sample p s).repair = s.repair ∧
    (sample p s).shadow = s.shadow ∧ (sample p s).inForce = s.inForce ∧ (sample p s).otpRequest = s.otpRequest ∧
    (sample p s).heldCommands = s.heldCommands ∧ (sample p s).crossReads = s.crossReads := by
  unfold sample
  first | (simp; done) | ((try dsimp only); (repeat' split) <;> first | (simp; done) | simp_all | (repeat' split) <;> simp)

@[simp] theorem pend_frame (code arg : Nat) (s : State) :
    (pend code arg s).pending = s.pending ∧ (pend code arg s).variant = s.variant ∧ (pend code arg s).otp = s.otp ∧
    (pend code arg s).masters.length = s.masters.length ∧
    (pend code arg s).cores.channels.length = s.cores.channels.length ∧
    (pend code arg s).regs.debugLevel = s.regs.debugLevel ∧ (pend code arg s).store.cs = s.store.cs ∧
    (pend code arg s).store.csDev = s.store.csDev ∧ (pend code arg s).store.granules = s.store.granules ∧
    (pend code arg s).pins = s.pins ∧ (pend code arg s).stream = s.stream ∧ (pend code arg s).power = s.power ∧
    (pend code arg s).loader = s.loader ∧ (pend code arg s).conservator = s.conservator ∧
    (pend code arg s).egress = s.egress ∧ (pend code arg s).repair = s.repair ∧ (pend code arg s).shadow = s.shadow ∧
    (pend code arg s).inForce = s.inForce ∧ (pend code arg s).otpRequest = s.otpRequest ∧
    (pend code arg s).heldCommands = s.heldCommands ∧ (pend code arg s).crossReads = s.crossReads := by
  unfold pend
  first | (simp; done) | ((try dsimp only); (repeat' split) <;> first | (simp; done) | simp_all | (repeat' split) <;> simp)

@[simp] theorem windowSweep_frame  (s : State) :
    (windowSweep s).pending = s.pending ∧ (windowSweep s).variant = s.variant ∧ (windowSweep s).otp = s.otp ∧
    (windowSweep s).masters.length = s.masters.length ∧ (windowSweep s).cores.channels.length = s.cores.channels.length ∧
    (windowSweep s).regs.debugLevel = s.regs.debugLevel ∧ (windowSweep s).store.cs = s.store.cs ∧
    (windowSweep s).store.csDev = s.store.csDev ∧ (windowSweep s).store.granules = s.store.granules ∧
    (windowSweep s).pins = s.pins ∧ (windowSweep s).stream = s.stream ∧ (windowSweep s).power = s.power ∧
    (windowSweep s).loader = s.loader ∧ (windowSweep s).conservator = s.conservator ∧ (windowSweep s).egress = s.egress ∧
    (windowSweep s).repair = s.repair ∧ (windowSweep s).shadow = s.shadow ∧ (windowSweep s).inForce = s.inForce ∧
    (windowSweep s).otpRequest = s.otpRequest ∧ (windowSweep s).heldCommands = s.heldCommands ∧
    (windowSweep s).crossReads = s.crossReads := by
  unfold windowSweep
  first | (simp; done) | ((try dsimp only); (repeat' split) <;> first | (simp; done) | simp_all | (repeat' split) <;> simp)

@[simp] theorem windowSteal_frame  (s : State) :
    (windowSteal s).pending = s.pending ∧ (windowSteal s).variant = s.variant ∧ (windowSteal s).otp = s.otp ∧
    (windowSteal s).masters.length = s.masters.length ∧ (windowSteal s).cores.channels.length = s.cores.channels.length ∧
    (windowSteal s).regs.debugLevel = s.regs.debugLevel ∧ (windowSteal s).store.cs = s.store.cs ∧
    (windowSteal s).store.csDev = s.store.csDev ∧ (windowSteal s).store.granules = s.store.granules ∧
    (windowSteal s).pins = s.pins ∧ (windowSteal s).stream = s.stream ∧ (windowSteal s).power = s.power ∧
    (windowSteal s).loader = s.loader ∧ (windowSteal s).conservator = s.conservator ∧ (windowSteal s).egress = s.egress ∧
    (windowSteal s).repair = s.repair ∧ (windowSteal s).shadow = s.shadow ∧ (windowSteal s).inForce = s.inForce ∧
    (windowSteal s).otpRequest = s.otpRequest ∧ (windowSteal s).heldCommands = s.heldCommands ∧
    (windowSteal s).crossReads = s.crossReads := by
  unfold windowSteal
  first | (simp; done) | ((try dsimp only); (repeat' split) <;> first | (simp; done) | simp_all | (repeat' split) <;> simp)

@[simp] theorem throttleTo_frame (v : Nat) (s : State) :
    (throttleTo v s).pending = s.pending ∧ (throttleTo v s).variant = s.variant ∧ (throttleTo v s).otp = s.otp ∧
    (throttleTo v s).masters.length = s.masters.length ∧ (throttleTo v s).cores.channels.length = s.cores.channels.length ∧
    (throttleTo v s).regs.debugLevel = s.regs.debugLevel ∧ (throttleTo v s).store.cs = s.store.cs ∧
    (throttleTo v s).store.csDev = s.store.csDev ∧ (throttleTo v s).store.granules = s.store.granules ∧
    (throttleTo v s).pins = s.pins ∧ (throttleTo v s).stream = s.stream ∧ (throttleTo v s).power = s.power ∧
    (throttleTo v s).loader = s.loader ∧ (throttleTo v s).conservator = s.conservator ∧ (throttleTo v s).egress = s.egress ∧
    (throttleTo v s).repair = s.repair ∧ (throttleTo v s).shadow = s.shadow ∧ (throttleTo v s).inForce = s.inForce ∧
    (throttleTo v s).otpRequest = s.otpRequest ∧ (throttleTo v s).heldCommands = s.heldCommands ∧
    (throttleTo v s).crossReads = s.crossReads := by
  unfold throttleTo
  first | (simp; done) | ((try dsimp only); (repeat' split) <;> first | (simp; done) | simp_all | (repeat' split) <;> simp)

@[simp] theorem beginPowerUp_frame  (s : State) :
    (beginPowerUp s).pending = s.pending ∧ (beginPowerUp s).variant = s.variant ∧ (beginPowerUp s).otp = s.otp ∧
    (beginPowerUp s).masters.length = s.masters.length ∧ (beginPowerUp s).cores.channels.length = s.cores.channels.length ∧
    (beginPowerUp s).regs.debugLevel = s.regs.debugLevel ∧ (beginPowerUp s).store.cs = s.store.cs ∧
    (beginPowerUp s).store.csDev = s.store.csDev ∧ (beginPowerUp s).store.granules = s.store.granules ∧
    (beginPowerUp s).pins = s.pins ∧ (beginPowerUp s).stream = s.stream ∧ (beginPowerUp s).power = s.power ∧
    (beginPowerUp s).loader = s.loader ∧ (beginPowerUp s).conservator = s.conservator ∧ (beginPowerUp s).egress = s.egress ∧
    (beginPowerUp s).repair = s.repair ∧ (beginPowerUp s).shadow = s.shadow ∧ (beginPowerUp s).inForce = s.inForce ∧
    (beginPowerUp s).otpRequest = s.otpRequest ∧ (beginPowerUp s).heldCommands = s.heldCommands ∧
    (beginPowerUp s).crossReads = s.crossReads := by
  unfold beginPowerUp
  first | (simp; done) | ((try dsimp only); (repeat' split) <;> first | (simp; done) | simp_all | (repeat' split) <;> simp)

@[simp] theorem powerGroup_frame  (s : State) :
    (powerGroup s).pending = s.pending ∧ (powerGroup s).variant = s.variant ∧ (powerGroup s).otp = s.otp ∧
    (powerGroup s).masters.length = s.masters.length ∧ (powerGroup s).cores.channels.length = s.cores.channels.length ∧
    (powerGroup s).regs.debugLevel = s.regs.debugLevel ∧ (powerGroup s).store.cs = s.store.cs ∧
    (powerGroup s).store.csDev = s.store.csDev ∧ (powerGroup s).store.granules = s.store.granules ∧
    (powerGroup s).pins = s.pins ∧ (powerGroup s).stream = s.stream ∧ (powerGroup s).power = s.power ∧
    (powerGroup s).loader = s.loader ∧ (powerGroup s).conservator = s.conservator ∧ (powerGroup s).egress = s.egress ∧
    (powerGroup s).repair = s.repair ∧ (powerGroup s).shadow = s.shadow ∧ (powerGroup s).inForce = s.inForce ∧
    (powerGroup s).otpRequest = s.otpRequest ∧ (powerGroup s).heldCommands = s.heldCommands ∧
    (powerGroup s).crossReads = s.crossReads := by
  unfold powerGroup
  first | (simp; done) | ((try dsimp only); (repeat' split) <;> first | (simp; done) | simp_all | (repeat' split) <;> simp)

@[simp] theorem patrolInstr_frame (key : Nat) (s : State) :
    (patrolInstr key s).pending = s.pending ∧ (patrolInstr key s).variant = s.variant ∧ (patrolInstr key s).otp = s.otp ∧
    (patrolInstr key s).masters.length = s.masters.length ∧
    (patrolInstr key s).cores.channels.length = s.cores.channels.length ∧
    (patrolInstr key s).regs.debugLevel = s.regs.debugLevel ∧ (patrolInstr key s).store.cs = s.store.cs ∧
    (patrolInstr key s).store.csDev = s.store.csDev ∧ (patrolInstr key s).store.granules = s.store.granules ∧
    (patrolInstr key s).pins = s.pins ∧ (patrolInstr key s).stream = s.stream ∧ (patrolInstr key s).power = s.power ∧
    (patrolInstr key s).loader = s.loader ∧ (patrolInstr key s).conservator = s.conservator ∧
    (patrolInstr key s).egress = s.egress ∧ (patrolInstr key s).repair = s.repair ∧ (patrolInstr key s).shadow = s.shadow ∧
    (patrolInstr key s).inForce = s.inForce ∧ (patrolInstr key s).otpRequest = s.otpRequest ∧
    (patrolInstr key s).heldCommands = s.heldCommands ∧ (patrolInstr key s).crossReads = s.crossReads := by
  unfold patrolInstr
  first | (simp; done) | ((try dsimp only); (repeat' split) <;> first | (simp; done) | simp_all | (repeat' split) <;> simp)

@[simp] theorem revisePatrol_frame (seen : Nat) (s : State) :
    (revisePatrol seen s).pending = s.pending ∧ (revisePatrol seen s).variant = s.variant ∧
    (revisePatrol seen s).otp = s.otp ∧ (revisePatrol seen s).masters.length = s.masters.length ∧
    (revisePatrol seen s).cores.channels.length = s.cores.channels.length ∧
    (revisePatrol seen s).regs.debugLevel = s.regs.debugLevel ∧ (revisePatrol seen s).store.cs = s.store.cs ∧
    (revisePatrol seen s).store.csDev = s.store.csDev ∧ (revisePatrol seen s).store.granules = s.store.granules ∧
    (revisePatrol seen s).pins = s.pins ∧ (revisePatrol seen s).stream = s.stream ∧ (revisePatrol seen s).power = s.power ∧
    (revisePatrol seen s).loader = s.loader ∧ (revisePatrol seen s).conservator = s.conservator ∧
    (revisePatrol seen s).egress = s.egress ∧ (revisePatrol seen s).repair = s.repair ∧
    (revisePatrol seen s).shadow = s.shadow ∧ (revisePatrol seen s).inForce = s.inForce ∧
    (revisePatrol seen s).otpRequest = s.otpRequest ∧ (revisePatrol seen s).heldCommands = s.heldCommands ∧
    (revisePatrol seen s).crossReads = s.crossReads := by
  unfold revisePatrol
  first | (simp; done) | ((try dsimp only); (repeat' split) <;> first | (simp; done) | simp_all | (repeat' split) <;> simp)

@[simp] theorem patrolRow_frame (prev : Bool) (seen row : Nat) (s : State) :
    (patrolRow prev seen row s).pending = s.pending ∧ (patrolRow prev seen row s).variant = s.variant ∧
    (patrolRow prev seen row s).otp = s.otp ∧ (patrolRow prev seen row s).masters.length = s.masters.length ∧
    (patrolRow prev seen row s).cores.channels.length = s.cores.channels.length ∧
    (patrolRow prev seen row s).regs.debugLevel = s.regs.debugLevel ∧ (patrolRow prev seen row s).store.cs = s.store.cs ∧
    (patrolRow prev seen row s).store.csDev = s.store.csDev ∧
    (patrolRow prev seen row s).store.granules = s.store.granules ∧ (patrolRow prev seen row s).pins = s.pins ∧
    (patrolRow prev seen row s).stream = s.stream ∧ (patrolRow prev seen row s).power = s.power ∧
    (patrolRow prev seen row s).loader = s.loader ∧ (patrolRow prev seen row s).conservator = s.conservator ∧
    (patrolRow prev seen row s).egress = s.egress ∧ (patrolRow prev seen row s).repair = s.repair ∧
    (patrolRow prev seen row s).shadow = s.shadow ∧ (patrolRow prev seen row s).inForce = s.inForce ∧
    (patrolRow prev seen row s).otpRequest = s.otpRequest ∧ (patrolRow prev seen row s).heldCommands = s.heldCommands ∧
    (patrolRow prev seen row s).crossReads = s.crossReads := by
  unfold patrolRow
  first | (simp; done) | ((try dsimp only); (repeat' split) <;> first | (simp; done) | simp_all | (repeat' split) <;> simp)

@[simp] theorem patrolRoute_frame (half : Nat) (s : State) :
    (patrolRoute half s).pending = s.pending ∧ (patrolRoute half s).variant = s.variant ∧ (patrolRoute half s).otp = s.otp ∧
    (patrolRoute half s).masters.length = s.masters.length ∧
    (patrolRoute half s).cores.channels.length = s.cores.channels.length ∧
    (patrolRoute half s).regs.debugLevel = s.regs.debugLevel ∧ (patrolRoute half s).store.cs = s.store.cs ∧
    (patrolRoute half s).store.csDev = s.store.csDev ∧ (patrolRoute half s).store.granules = s.store.granules ∧
    (patrolRoute half s).pins = s.pins ∧ (patrolRoute half s).stream = s.stream ∧ (patrolRoute half s).power = s.power ∧
    (patrolRoute half s).loader = s.loader ∧ (patrolRoute half s).conservator = s.conservator ∧
    (patrolRoute half s).egress = s.egress ∧ (patrolRoute half s).repair = s.repair ∧
    (patrolRoute half s).shadow = s.shadow ∧ (patrolRoute half s).inForce = s.inForce ∧
    (patrolRoute half s).otpRequest = s.otpRequest ∧ (patrolRoute half s).heldCommands = s.heldCommands ∧
    (patrolRoute half s).crossReads = s.crossReads := by
  unfold patrolRoute
  first | (simp; done) | ((try dsimp only); (repeat' split) <;> first | (simp; done) | simp_all | (repeat' split) <;> simp)

@[simp] theorem putMesh_frame (i : Nat) (d : QWord) (s : State) :
    (putMesh i d s).pending = s.pending ∧ (putMesh i d s).variant = s.variant ∧ (putMesh i d s).otp = s.otp ∧
    (putMesh i d s).masters.length = s.masters.length ∧ (putMesh i d s).cores.channels.length = s.cores.channels.length ∧
    (putMesh i d s).regs.debugLevel = s.regs.debugLevel ∧ (putMesh i d s).store.cs = s.store.cs ∧
    (putMesh i d s).store.csDev = s.store.csDev ∧ (putMesh i d s).store.granules = s.store.granules ∧
    (putMesh i d s).pins = s.pins ∧ (putMesh i d s).stream = s.stream ∧ (putMesh i d s).power = s.power ∧
    (putMesh i d s).loader = s.loader ∧ (putMesh i d s).conservator = s.conservator ∧ (putMesh i d s).egress = s.egress ∧
    (putMesh i d s).repair = s.repair ∧ (putMesh i d s).shadow = s.shadow ∧ (putMesh i d s).inForce = s.inForce ∧
    (putMesh i d s).otpRequest = s.otpRequest ∧ (putMesh i d s).heldCommands = s.heldCommands ∧
    (putMesh i d s).crossReads = s.crossReads := by
  unfold putMesh
  first | (simp; done) | ((try dsimp only); (repeat' split) <;> first | (simp; done) | simp_all | (repeat' split) <;> simp)

@[simp] theorem patrolMesh_frame (i : Nat) (s : State) :
    (patrolMesh i s).pending = s.pending ∧ (patrolMesh i s).variant = s.variant ∧ (patrolMesh i s).otp = s.otp ∧
    (patrolMesh i s).masters.length = s.masters.length ∧ (patrolMesh i s).cores.channels.length = s.cores.channels.length ∧
    (patrolMesh i s).regs.debugLevel = s.regs.debugLevel ∧ (patrolMesh i s).store.cs = s.store.cs ∧
    (patrolMesh i s).store.csDev = s.store.csDev ∧ (patrolMesh i s).store.granules = s.store.granules ∧
    (patrolMesh i s).pins = s.pins ∧ (patrolMesh i s).stream = s.stream ∧ (patrolMesh i s).power = s.power ∧
    (patrolMesh i s).loader = s.loader ∧ (patrolMesh i s).conservator = s.conservator ∧ (patrolMesh i s).egress = s.egress ∧
    (patrolMesh i s).repair = s.repair ∧ (patrolMesh i s).shadow = s.shadow ∧ (patrolMesh i s).inForce = s.inForce ∧
    (patrolMesh i s).otpRequest = s.otpRequest ∧ (patrolMesh i s).heldCommands = s.heldCommands ∧
    (patrolMesh i s).crossReads = s.crossReads := by
  unfold patrolMesh
  first | (simp; done) | ((try dsimp only); (repeat' split) <;> first | (simp; done) | simp_all | (repeat' split) <;> simp)

@[simp] theorem patrolRows_frame (k : Nat) (s : State) :
    (patrolRows k s).pending = s.pending ∧ (patrolRows k s).variant = s.variant ∧ (patrolRows k s).otp = s.otp ∧
    (patrolRows k s).masters.length = s.masters.length ∧ (patrolRows k s).cores.channels.length = s.cores.channels.length ∧
    (patrolRows k s).regs.debugLevel = s.regs.debugLevel ∧ (patrolRows k s).store.cs = s.store.cs ∧
    (patrolRows k s).store.csDev = s.store.csDev ∧ (patrolRows k s).store.granules = s.store.granules ∧
    (patrolRows k s).pins = s.pins ∧ (patrolRows k s).stream = s.stream ∧ (patrolRows k s).power = s.power ∧
    (patrolRows k s).loader = s.loader ∧ (patrolRows k s).conservator = s.conservator ∧ (patrolRows k s).egress = s.egress ∧
    (patrolRows k s).repair = s.repair ∧ (patrolRows k s).shadow = s.shadow ∧ (patrolRows k s).inForce = s.inForce ∧
    (patrolRows k s).otpRequest = s.otpRequest ∧ (patrolRows k s).heldCommands = s.heldCommands ∧
    (patrolRows k s).crossReads = s.crossReads := by
  unfold patrolRows
  first | (simp; done) | ((try dsimp only); (repeat' split) <;> first | (simp; done) | simp_all | (repeat' split) <;> simp)

@[simp] theorem patrolAt_frame (k : Nat) (s : State) :
    (patrolAt k s).pending = s.pending ∧ (patrolAt k s).variant = s.variant ∧ (patrolAt k s).otp = s.otp ∧
    (patrolAt k s).masters.length = s.masters.length ∧ (patrolAt k s).cores.channels.length = s.cores.channels.length ∧
    (patrolAt k s).regs.debugLevel = s.regs.debugLevel ∧ (patrolAt k s).store.cs = s.store.cs ∧
    (patrolAt k s).store.csDev = s.store.csDev ∧ (patrolAt k s).store.granules = s.store.granules ∧
    (patrolAt k s).pins = s.pins ∧ (patrolAt k s).stream = s.stream ∧ (patrolAt k s).power = s.power ∧
    (patrolAt k s).loader = s.loader ∧ (patrolAt k s).conservator = s.conservator ∧ (patrolAt k s).egress = s.egress ∧
    (patrolAt k s).repair = s.repair ∧ (patrolAt k s).shadow = s.shadow ∧ (patrolAt k s).inForce = s.inForce ∧
    (patrolAt k s).otpRequest = s.otpRequest ∧ (patrolAt k s).heldCommands = s.heldCommands ∧
    (patrolAt k s).crossReads = s.crossReads := by
  unfold patrolAt
  first | (simp; done) | ((try dsimp only); (repeat' split) <;> first | (simp; done) | simp_all | (repeat' split) <;> simp)

@[simp] theorem putRepaired_frame (g bp row : Nat) (d : QWord) (s : State) :
    (putRepaired g bp row d s).pending = s.pending ∧ (putRepaired g bp row d s).variant = s.variant ∧
    (putRepaired g bp row d s).otp = s.otp ∧ (putRepaired g bp row d s).masters.length = s.masters.length ∧
    (putRepaired g bp row d s).cores.channels.length = s.cores.channels.length ∧
    (putRepaired g bp row d s).regs.debugLevel = s.regs.debugLevel ∧ (putRepaired g bp row d s).store.cs = s.store.cs ∧
    (putRepaired g bp row d s).store.csDev = s.store.csDev ∧ (putRepaired g bp row d s).store.granules = s.store.granules ∧
    (putRepaired g bp row d s).pins = s.pins ∧ (putRepaired g bp row d s).stream = s.stream ∧
    (putRepaired g bp row d s).power = s.power ∧ (putRepaired g bp row d s).loader = s.loader ∧
    (putRepaired g bp row d s).conservator = s.conservator ∧ (putRepaired g bp row d s).egress = s.egress ∧
    (putRepaired g bp row d s).repair = s.repair ∧ (putRepaired g bp row d s).shadow = s.shadow ∧
    (putRepaired g bp row d s).inForce = s.inForce ∧ (putRepaired g bp row d s).otpRequest = s.otpRequest ∧
    (putRepaired g bp row d s).heldCommands = s.heldCommands ∧ (putRepaired g bp row d s).crossReads = s.crossReads := by
  unfold putRepaired
  first | (simp; done) | ((try dsimp only); (repeat' split) <;> first | (simp; done) | simp_all | (repeat' split) <;> simp)

@[simp] theorem endRepair_frame (g bp row : Nat) (s : State) :
    (endRepair g bp row s).pending = s.pending ∧ (endRepair g bp row s).variant = s.variant ∧
    (endRepair g bp row s).otp = s.otp ∧ (endRepair g bp row s).masters.length = s.masters.length ∧
    (endRepair g bp row s).cores.channels.length = s.cores.channels.length ∧
    (endRepair g bp row s).regs.debugLevel = s.regs.debugLevel ∧ (endRepair g bp row s).store.cs = s.store.cs ∧
    (endRepair g bp row s).store.csDev = s.store.csDev ∧ (endRepair g bp row s).store.granules = s.store.granules ∧
    (endRepair g bp row s).pins = s.pins ∧ (endRepair g bp row s).stream = s.stream ∧
    (endRepair g bp row s).power = s.power ∧ (endRepair g bp row s).loader = s.loader ∧
    (endRepair g bp row s).conservator = s.conservator ∧ (endRepair g bp row s).egress = s.egress ∧
    (endRepair g bp row s).repair = s.repair ∧ (endRepair g bp row s).shadow = s.shadow ∧
    (endRepair g bp row s).inForce = s.inForce ∧ (endRepair g bp row s).otpRequest = s.otpRequest ∧
    (endRepair g bp row s).heldCommands = s.heldCommands ∧ (endRepair g bp row s).crossReads = s.crossReads := by
  unfold endRepair
  first | (simp; done) | ((try dsimp only); (repeat' split) <;> first | (simp; done) | simp_all | (repeat' split) <;> simp)

@[simp] theorem lineRepair_frame (c : QueuedCall) (s : State) :
    (lineRepair c s).pending = s.pending ∧ (lineRepair c s).variant = s.variant ∧ (lineRepair c s).otp = s.otp ∧
    (lineRepair c s).masters.length = s.masters.length ∧ (lineRepair c s).cores.channels.length = s.cores.channels.length ∧
    (lineRepair c s).regs.debugLevel = s.regs.debugLevel ∧ (lineRepair c s).store.cs = s.store.cs ∧
    (lineRepair c s).store.csDev = s.store.csDev ∧ (lineRepair c s).store.granules = s.store.granules ∧
    (lineRepair c s).pins = s.pins ∧ (lineRepair c s).stream = s.stream ∧ (lineRepair c s).power = s.power ∧
    (lineRepair c s).loader = s.loader ∧ (lineRepair c s).conservator = s.conservator ∧ (lineRepair c s).egress = s.egress ∧
    (lineRepair c s).repair = s.repair ∧ (lineRepair c s).shadow = s.shadow ∧ (lineRepair c s).inForce = s.inForce ∧
    (lineRepair c s).otpRequest = s.otpRequest ∧ (lineRepair c s).heldCommands = s.heldCommands ∧
    (lineRepair c s).crossReads = s.crossReads := by
  unfold lineRepair
  first | (simp; done) | ((try dsimp only); (repeat' split) <;> first | (simp; done) | simp_all | (repeat' split) <;> simp)

@[simp] theorem stopConservator_frame  (s : State) :
    (stopConservator s).pending = s.pending ∧ (stopConservator s).variant = s.variant ∧ (stopConservator s).otp = s.otp ∧
    (stopConservator s).masters.length = s.masters.length ∧
    (stopConservator s).cores.channels.length = s.cores.channels.length ∧
    (stopConservator s).regs.debugLevel = s.regs.debugLevel ∧ (stopConservator s).store.cs = s.store.cs ∧
    (stopConservator s).store.csDev = s.store.csDev ∧ (stopConservator s).store.granules = s.store.granules ∧
    (stopConservator s).pins = s.pins ∧ (stopConservator s).stream = s.stream ∧ (stopConservator s).power = s.power ∧
    (stopConservator s).loader = s.loader ∧ (stopConservator s).egress = s.egress ∧ (stopConservator s).shadow = s.shadow ∧
    (stopConservator s).inForce = s.inForce ∧ (stopConservator s).otpRequest = s.otpRequest ∧
    (stopConservator s).heldCommands = s.heldCommands ∧ (stopConservator s).crossReads = s.crossReads := by
  unfold stopConservator
  first | (simp; done) | ((try dsimp only); (repeat' split) <;> first | (simp; done) | simp_all | (repeat' split) <;> simp)

@[simp] theorem restartConservator_frame  (s : State) :
    (restartConservator s).pending = s.pending ∧ (restartConservator s).variant = s.variant ∧
    (restartConservator s).otp = s.otp ∧ (restartConservator s).masters.length = s.masters.length ∧
    (restartConservator s).cores.channels.length = s.cores.channels.length ∧
    (restartConservator s).regs.debugLevel = s.regs.debugLevel ∧ (restartConservator s).store.cs = s.store.cs ∧
    (restartConservator s).store.csDev = s.store.csDev ∧ (restartConservator s).store.granules = s.store.granules ∧
    (restartConservator s).pins = s.pins ∧ (restartConservator s).stream = s.stream ∧
    (restartConservator s).power = s.power ∧ (restartConservator s).loader = s.loader ∧
    (restartConservator s).egress = s.egress ∧ (restartConservator s).repair = s.repair ∧
    (restartConservator s).shadow = s.shadow ∧ (restartConservator s).inForce = s.inForce ∧
    (restartConservator s).otpRequest = s.otpRequest ∧ (restartConservator s).heldCommands = s.heldCommands ∧
    (restartConservator s).crossReads = s.crossReads := by
  unfold restartConservator
  first | (simp; done) | ((try dsimp only); (repeat' split) <;> first | (simp; done) | simp_all | (repeat' split) <;> simp)

@[simp] theorem shadowUe_frame  (s : State) :
    (shadowUe s).pending = s.pending ∧ (shadowUe s).variant = s.variant ∧ (shadowUe s).otp = s.otp ∧
    (shadowUe s).masters.length = s.masters.length ∧ (shadowUe s).cores.channels.length = s.cores.channels.length ∧
    (shadowUe s).regs.debugLevel = s.regs.debugLevel ∧ (shadowUe s).store.cs = s.store.cs ∧
    (shadowUe s).store.csDev = s.store.csDev ∧ (shadowUe s).store.granules = s.store.granules ∧ (shadowUe s).pins = s.pins ∧
    (shadowUe s).stream = s.stream ∧ (shadowUe s).power = s.power ∧ (shadowUe s).loader = s.loader ∧
    (shadowUe s).egress = s.egress ∧ (shadowUe s).shadow = s.shadow ∧ (shadowUe s).inForce = s.inForce ∧
    (shadowUe s).otpRequest = s.otpRequest ∧ (shadowUe s).heldCommands = s.heldCommands ∧
    (shadowUe s).crossReads = s.crossReads := by
  unfold shadowUe
  first | (simp; done) | ((try dsimp only); (repeat' split) <;> first | (simp; done) | simp_all | (repeat' split) <;> simp)

@[simp] theorem repairRecords_frame (f t0 : Nat) (s : State) :
    (repairRecords f t0 s).pending = s.pending ∧ (repairRecords f t0 s).variant = s.variant ∧
    (repairRecords f t0 s).otp = s.otp ∧ (repairRecords f t0 s).masters.length = s.masters.length ∧
    (repairRecords f t0 s).cores.channels.length = s.cores.channels.length ∧
    (repairRecords f t0 s).regs.debugLevel = s.regs.debugLevel ∧ (repairRecords f t0 s).store.cs = s.store.cs ∧
    (repairRecords f t0 s).store.csDev = s.store.csDev ∧ (repairRecords f t0 s).store.granules = s.store.granules ∧
    (repairRecords f t0 s).pins = s.pins ∧ (repairRecords f t0 s).stream = s.stream ∧
    (repairRecords f t0 s).power = s.power ∧ (repairRecords f t0 s).loader = s.loader ∧
    (repairRecords f t0 s).conservator = s.conservator ∧ (repairRecords f t0 s).egress = s.egress ∧
    (repairRecords f t0 s).repair = s.repair ∧ (repairRecords f t0 s).shadow = s.shadow ∧
    (repairRecords f t0 s).inForce = s.inForce ∧ (repairRecords f t0 s).otpRequest = s.otpRequest ∧
    (repairRecords f t0 s).heldCommands = s.heldCommands ∧ (repairRecords f t0 s).crossReads = s.crossReads := by
  unfold repairRecords
  first | (simp; done) | ((try dsimp only); (repeat' split) <;> first | (simp; done) | simp_all | (repeat' split) <;> simp)

@[simp] theorem rewriteFrame_frame (f : Nat) (content : CfgFrame) (essential : Bool) (s : State) :
    (rewriteFrame f content essential s).pending = s.pending ∧ (rewriteFrame f content essential s).variant = s.variant ∧
    (rewriteFrame f content essential s).otp = s.otp ∧
    (rewriteFrame f content essential s).masters.length = s.masters.length ∧
    (rewriteFrame f content essential s).cores.channels.length = s.cores.channels.length ∧
    (rewriteFrame f content essential s).regs.debugLevel = s.regs.debugLevel ∧
    (rewriteFrame f content essential s).store.cs = s.store.cs ∧
    (rewriteFrame f content essential s).store.csDev = s.store.csDev ∧
    (rewriteFrame f content essential s).store.granules = s.store.granules ∧
    (rewriteFrame f content essential s).pins = s.pins ∧ (rewriteFrame f content essential s).stream = s.stream ∧
    (rewriteFrame f content essential s).power = s.power ∧ (rewriteFrame f content essential s).loader = s.loader ∧
    (rewriteFrame f content essential s).egress = s.egress ∧ (rewriteFrame f content essential s).repair = s.repair ∧
    (rewriteFrame f content essential s).shadow = s.shadow ∧ (rewriteFrame f content essential s).inForce = s.inForce ∧
    (rewriteFrame f content essential s).otpRequest = s.otpRequest ∧
    (rewriteFrame f content essential s).heldCommands = s.heldCommands ∧
    (rewriteFrame f content essential s).crossReads = s.crossReads := by
  unfold rewriteFrame
  first | (simp; done) | ((try dsimp only); (repeat' split) <;> first | (simp; done) | simp_all | (repeat' split) <;> simp)

@[simp] theorem frameInError_frame (f t0 : Nat) (drivers : Bool) (q : ConsSettings) (live : CfgFrame) (s : State) :
    (frameInError f t0 drivers q live s).pending = s.pending ∧ (frameInError f t0 drivers q live s).variant = s.variant ∧
    (frameInError f t0 drivers q live s).otp = s.otp ∧
    (frameInError f t0 drivers q live s).masters.length = s.masters.length ∧
    (frameInError f t0 drivers q live s).cores.channels.length = s.cores.channels.length ∧
    (frameInError f t0 drivers q live s).regs.debugLevel = s.regs.debugLevel ∧
    (frameInError f t0 drivers q live s).pins = s.pins ∧ (frameInError f t0 drivers q live s).stream = s.stream ∧
    (frameInError f t0 drivers q live s).power = s.power ∧ (frameInError f t0 drivers q live s).loader = s.loader ∧
    (frameInError f t0 drivers q live s).egress = s.egress ∧ (frameInError f t0 drivers q live s).shadow = s.shadow ∧
    (frameInError f t0 drivers q live s).inForce = s.inForce ∧
    (frameInError f t0 drivers q live s).otpRequest = s.otpRequest ∧
    (frameInError f t0 drivers q live s).heldCommands = s.heldCommands ∧
    (frameInError f t0 drivers q live s).crossReads = s.crossReads := by
  unfold frameInError
  first | (simp; done) | ((try dsimp only); (repeat' split) <;> first | (simp; done) | simp_all | (repeat' split) <;> simp)

@[simp] theorem checkOne_frame (f : Nat) (drivers : Bool) (q : ConsSettings) (s : State) :
    (checkOne f drivers q s).pending = s.pending ∧ (checkOne f drivers q s).variant = s.variant ∧
    (checkOne f drivers q s).otp = s.otp ∧ (checkOne f drivers q s).masters.length = s.masters.length ∧
    (checkOne f drivers q s).cores.channels.length = s.cores.channels.length ∧
    (checkOne f drivers q s).regs.debugLevel = s.regs.debugLevel ∧ (checkOne f drivers q s).pins = s.pins ∧
    (checkOne f drivers q s).stream = s.stream ∧ (checkOne f drivers q s).power = s.power ∧
    (checkOne f drivers q s).loader = s.loader ∧ (checkOne f drivers q s).egress = s.egress ∧
    (checkOne f drivers q s).shadow = s.shadow ∧ (checkOne f drivers q s).inForce = s.inForce ∧
    (checkOne f drivers q s).otpRequest = s.otpRequest ∧ (checkOne f drivers q s).heldCommands = s.heldCommands ∧
    (checkOne f drivers q s).crossReads = s.crossReads := by
  unfold checkOne
  first | (simp; done) | ((try dsimp only); (repeat' split) <;> first | (simp; done) | simp_all | (repeat' split) <;> simp)

@[simp] theorem frameCheck_frame (q : ConsSettings) (s : State) :
    (frameCheck q s).pending = s.pending ∧ (frameCheck q s).variant = s.variant ∧ (frameCheck q s).otp = s.otp ∧
    (frameCheck q s).masters.length = s.masters.length ∧ (frameCheck q s).cores.channels.length = s.cores.channels.length ∧
    (frameCheck q s).regs.debugLevel = s.regs.debugLevel ∧ (frameCheck q s).pins = s.pins ∧
    (frameCheck q s).stream = s.stream ∧ (frameCheck q s).power = s.power ∧ (frameCheck q s).loader = s.loader ∧
    (frameCheck q s).egress = s.egress ∧ (frameCheck q s).shadow = s.shadow ∧ (frameCheck q s).inForce = s.inForce ∧
    (frameCheck q s).otpRequest = s.otpRequest ∧ (frameCheck q s).heldCommands = s.heldCommands ∧
    (frameCheck q s).crossReads = s.crossReads := by
  unfold frameCheck
  first | (simp; done) | ((try dsimp only); (repeat' split) <;> first | (simp; done) | simp_all | (repeat' split) <;> simp)

@[simp] theorem lateRepair_frame (q : ConsSettings) (f : Nat) (s : State) :
    (lateRepair q f s).pending = s.pending ∧ (lateRepair q f s).variant = s.variant ∧ (lateRepair q f s).otp = s.otp ∧
    (lateRepair q f s).masters.length = s.masters.length ∧
    (lateRepair q f s).cores.channels.length = s.cores.channels.length ∧
    (lateRepair q f s).regs.debugLevel = s.regs.debugLevel ∧ (lateRepair q f s).pins = s.pins ∧
    (lateRepair q f s).stream = s.stream ∧ (lateRepair q f s).power = s.power ∧ (lateRepair q f s).loader = s.loader ∧
    (lateRepair q f s).egress = s.egress ∧ (lateRepair q f s).shadow = s.shadow ∧ (lateRepair q f s).inForce = s.inForce ∧
    (lateRepair q f s).otpRequest = s.otpRequest ∧ (lateRepair q f s).heldCommands = s.heldCommands ∧
    (lateRepair q f s).crossReads = s.crossReads := by
  unfold lateRepair
  first | (simp; done) | ((try dsimp only); (repeat' split) <;> first | (simp; done) | simp_all | (repeat' split) <;> simp)

@[simp] theorem sweepEnd_frame (q : ConsSettings) (s : State) :
    (sweepEnd q s).pending = s.pending ∧ (sweepEnd q s).variant = s.variant ∧ (sweepEnd q s).otp = s.otp ∧
    (sweepEnd q s).masters.length = s.masters.length ∧ (sweepEnd q s).cores.channels.length = s.cores.channels.length ∧
    (sweepEnd q s).regs.debugLevel = s.regs.debugLevel ∧ (sweepEnd q s).pins = s.pins ∧ (sweepEnd q s).stream = s.stream ∧
    (sweepEnd q s).power = s.power ∧ (sweepEnd q s).loader = s.loader ∧ (sweepEnd q s).egress = s.egress ∧
    (sweepEnd q s).shadow = s.shadow ∧ (sweepEnd q s).inForce = s.inForce ∧ (sweepEnd q s).otpRequest = s.otpRequest ∧
    (sweepEnd q s).heldCommands = s.heldCommands ∧ (sweepEnd q s).crossReads = s.crossReads := by
  unfold sweepEnd
  first | (simp; done) | ((try dsimp only); (repeat' split) <;> first | (simp; done) | simp_all | (repeat' split) <;> simp)

@[simp] theorem compareSignature_frame (sweep : DWord) (s : State) :
    (compareSignature sweep s).pending = s.pending ∧ (compareSignature sweep s).variant = s.variant ∧
    (compareSignature sweep s).otp = s.otp ∧ (compareSignature sweep s).masters.length = s.masters.length ∧
    (compareSignature sweep s).cores.channels.length = s.cores.channels.length ∧
    (compareSignature sweep s).regs.debugLevel = s.regs.debugLevel ∧ (compareSignature sweep s).store.cs = s.store.cs ∧
    (compareSignature sweep s).store.csDev = s.store.csDev ∧ (compareSignature sweep s).store.granules = s.store.granules ∧
    (compareSignature sweep s).pins = s.pins ∧ (compareSignature sweep s).stream = s.stream ∧
    (compareSignature sweep s).power = s.power ∧ (compareSignature sweep s).loader = s.loader ∧
    (compareSignature sweep s).conservator = s.conservator ∧ (compareSignature sweep s).egress = s.egress ∧
    (compareSignature sweep s).repair = s.repair ∧ (compareSignature sweep s).shadow = s.shadow ∧
    (compareSignature sweep s).inForce = s.inForce ∧ (compareSignature sweep s).otpRequest = s.otpRequest ∧
    (compareSignature sweep s).heldCommands = s.heldCommands ∧ (compareSignature sweep s).crossReads = s.crossReads := by
  unfold compareSignature compareSignature.setTwinSig
  (try dsimp only); (repeat' split) <;> simp

@[simp] theorem requestRestart_frame  (s : State) :
    (requestRestart s).pending = s.pending ∧ (requestRestart s).variant = s.variant ∧ (requestRestart s).otp = s.otp ∧
    (requestRestart s).masters.length = s.masters.length ∧
    (requestRestart s).cores.channels.length = s.cores.channels.length ∧
    (requestRestart s).regs.debugLevel = s.regs.debugLevel ∧ (requestRestart s).store.cs = s.store.cs ∧
    (requestRestart s).store.csDev = s.store.csDev ∧ (requestRestart s).store.granules = s.store.granules ∧
    (requestRestart s).pins = s.pins ∧ (requestRestart s).stream = s.stream ∧ (requestRestart s).power = s.power ∧
    (requestRestart s).loader = s.loader ∧ (requestRestart s).egress = s.egress ∧ (requestRestart s).repair = s.repair ∧
    (requestRestart s).shadow = s.shadow ∧ (requestRestart s).inForce = s.inForce ∧
    (requestRestart s).otpRequest = s.otpRequest ∧ (requestRestart s).heldCommands = s.heldCommands ∧
    (requestRestart s).crossReads = s.crossReads := by
  unfold requestRestart
  first | (simp; done) | ((try dsimp only); (repeat' split) <;> first | (simp; done) | simp_all | (repeat' split) <;> simp)

@[simp] theorem clearCounts_frame  (s : State) :
    (clearCounts s).pending = s.pending ∧ (clearCounts s).variant = s.variant ∧ (clearCounts s).otp = s.otp ∧
    (clearCounts s).masters.length = s.masters.length ∧ (clearCounts s).cores.channels.length = s.cores.channels.length ∧
    (clearCounts s).regs.debugLevel = s.regs.debugLevel ∧ (clearCounts s).store.cs = s.store.cs ∧
    (clearCounts s).store.csDev = s.store.csDev ∧ (clearCounts s).store.granules = s.store.granules ∧
    (clearCounts s).pins = s.pins ∧ (clearCounts s).stream = s.stream ∧ (clearCounts s).power = s.power ∧
    (clearCounts s).loader = s.loader ∧ (clearCounts s).conservator = s.conservator ∧ (clearCounts s).egress = s.egress ∧
    (clearCounts s).repair = s.repair ∧ (clearCounts s).shadow = s.shadow ∧ (clearCounts s).inForce = s.inForce ∧
    (clearCounts s).otpRequest = s.otpRequest ∧ (clearCounts s).heldCommands = s.heldCommands ∧
    (clearCounts s).crossReads = s.crossReads := by
  unfold clearCounts
  first | (simp; done) | ((try dsimp only); (repeat' split) <;> first | (simp; done) | simp_all | (repeat' split) <;> simp)

@[simp] theorem clearLog_frame  (s : State) :
    (clearLog s).pending = s.pending ∧ (clearLog s).variant = s.variant ∧ (clearLog s).otp = s.otp ∧
    (clearLog s).masters.length = s.masters.length ∧ (clearLog s).cores.channels.length = s.cores.channels.length ∧
    (clearLog s).regs.debugLevel = s.regs.debugLevel ∧ (clearLog s).store.cs = s.store.cs ∧
    (clearLog s).store.csDev = s.store.csDev ∧ (clearLog s).store.granules = s.store.granules ∧ (clearLog s).pins = s.pins ∧
    (clearLog s).stream = s.stream ∧ (clearLog s).power = s.power ∧ (clearLog s).loader = s.loader ∧
    (clearLog s).conservator = s.conservator ∧ (clearLog s).egress = s.egress ∧ (clearLog s).repair = s.repair ∧
    (clearLog s).shadow = s.shadow ∧ (clearLog s).inForce = s.inForce ∧ (clearLog s).otpRequest = s.otpRequest ∧
    (clearLog s).heldCommands = s.heldCommands ∧ (clearLog s).crossReads = s.crossReads := by
  unfold clearLog
  first | (simp; done) | ((try dsimp only); (repeat' split) <;> first | (simp; done) | simp_all | (repeat' split) <;> simp)

@[simp] theorem putUnlock_frame (v : Bool) (s : State) :
    (putUnlock v s).pending = s.pending ∧ (putUnlock v s).variant = s.variant ∧ (putUnlock v s).otp = s.otp ∧
    (putUnlock v s).masters.length = s.masters.length ∧ (putUnlock v s).cores.channels.length = s.cores.channels.length ∧
    (putUnlock v s).regs.debugLevel = s.regs.debugLevel ∧ (putUnlock v s).store.cs = s.store.cs ∧
    (putUnlock v s).store.csDev = s.store.csDev ∧ (putUnlock v s).store.granules = s.store.granules ∧
    (putUnlock v s).pins = s.pins ∧ (putUnlock v s).stream = s.stream ∧ (putUnlock v s).power = s.power ∧
    (putUnlock v s).loader = s.loader ∧ (putUnlock v s).conservator = s.conservator ∧ (putUnlock v s).egress = s.egress ∧
    (putUnlock v s).repair = s.repair ∧ (putUnlock v s).shadow = s.shadow ∧ (putUnlock v s).inForce = s.inForce ∧
    (putUnlock v s).otpRequest = s.otpRequest ∧ (putUnlock v s).heldCommands = s.heldCommands ∧
    (putUnlock v s).crossReads = s.crossReads := by
  unfold putUnlock
  first | (simp; done) | ((try dsimp only); (repeat' split) <;> first | (simp; done) | simp_all | (repeat' split) <;> simp)

@[simp] theorem setCheckTest_frame (v : Bool) (s : State) :
    (setCheckTest v s).pending = s.pending ∧ (setCheckTest v s).variant = s.variant ∧ (setCheckTest v s).otp = s.otp ∧
    (setCheckTest v s).masters.length = s.masters.length ∧
    (setCheckTest v s).cores.channels.length = s.cores.channels.length ∧
    (setCheckTest v s).regs.debugLevel = s.regs.debugLevel ∧ (setCheckTest v s).store.cs = s.store.cs ∧
    (setCheckTest v s).store.csDev = s.store.csDev ∧ (setCheckTest v s).store.granules = s.store.granules ∧
    (setCheckTest v s).pins = s.pins ∧ (setCheckTest v s).stream = s.stream ∧ (setCheckTest v s).power = s.power ∧
    (setCheckTest v s).loader = s.loader ∧ (setCheckTest v s).conservator = s.conservator ∧
    (setCheckTest v s).egress = s.egress ∧ (setCheckTest v s).repair = s.repair ∧ (setCheckTest v s).shadow = s.shadow ∧
    (setCheckTest v s).inForce = s.inForce ∧ (setCheckTest v s).otpRequest = s.otpRequest ∧
    (setCheckTest v s).heldCommands = s.heldCommands ∧ (setCheckTest v s).crossReads = s.crossReads := by
  unfold setCheckTest
  first | (simp; done) | ((try dsimp only); (repeat' split) <;> first | (simp; done) | simp_all | (repeat' split) <;> simp)

@[simp] theorem writeGranule_pending (d c : QWord) (f : Nat → Byte → BitVec 5 → State → State) (s : State) (hf : ∀ x0 x1 x2 s, (f x0 x1 x2 s).pending = s.pending) :
    (writeGranule d c f s).pending = s.pending := by
  unfold writeGranule
  first | (simp; done) | ((try dsimp only); (repeat' split) <;> first | (simp [*]; done) | simp_all | (repeat' split) <;> simp [*])

@[simp] theorem writeGranule_variant (d c : QWord) (f : Nat → Byte → BitVec 5 → State → State) (s : State) (hf : ∀ x0 x1 x2 s, (f x0 x1 x2 s).variant = s.variant) :
    (writeGranule d c f s).variant = s.variant := by
  unfold writeGranule
  first | (simp; done) | ((try dsimp only); (repeat' split) <;> first | (simp [*]; done) | simp_all | (repeat' split) <;> simp [*])

@[simp] theorem writeGranule_otp (d c : QWord) (f : Nat → Byte → BitVec 5 → State → State) (s : State) (hf : ∀ x0 x1 x2 s, (f x0 x1 x2 s).otp = s.otp) :
    (writeGranule d c f s).otp = s.otp := by
  unfold writeGranule
  first | (simp; done) | ((try dsimp only); (repeat' split) <;> first | (simp [*]; done) | simp_all | (repeat' split) <;> simp [*])

@[simp] theorem writeGranule_mlen (d c : QWord) (f : Nat → Byte → BitVec 5 → State → State) (s : State) (hf : ∀ x0 x1 x2 s, (f x0 x1 x2 s).masters.length = s.masters.length) :
    (writeGranule d c f s).masters.length = s.masters.length := by
  unfold writeGranule
  first | (simp; done) | ((try dsimp only); (repeat' split) <;> first | (simp [*]; done) | simp_all | (repeat' split) <;> simp [*])

@[simp] theorem writeGranule_clen (d c : QWord) (f : Nat → Byte → BitVec 5 → State → State) (s : State) (hf : ∀ x0 x1 x2 s, (f x0 x1 x2 s).cores.channels.length = s.cores.channels.length) :
    (writeGranule d c f s).cores.channels.length = s.cores.channels.length := by
  unfold writeGranule
  first | (simp; done) | ((try dsimp only); (repeat' split) <;> first | (simp [*]; done) | simp_all | (repeat' split) <;> simp [*])

@[simp] theorem writeGranule_level (d c : QWord) (f : Nat → Byte → BitVec 5 → State → State) (s : State) (hf : ∀ x0 x1 x2 s, (f x0 x1 x2 s).regs.debugLevel = s.regs.debugLevel) :
    (writeGranule d c f s).regs.debugLevel = s.regs.debugLevel := by
  unfold writeGranule
  first | (simp; done) | ((try dsimp only); (repeat' split) <;> first | (simp [*]; done) | simp_all | (repeat' split) <;> simp [*])

@[simp] theorem writeGranule_cs (d c : QWord) (f : Nat → Byte → BitVec 5 → State → State) (s : State) (hf : ∀ x0 x1 x2 s, (f x0 x1 x2 s).store.cs = s.store.cs) :
    (writeGranule d c f s).store.cs = s.store.cs := by
  unfold writeGranule
  first | (simp; done) | ((try dsimp only); (repeat' split) <;> first | (simp [*]; done) | simp_all | (repeat' split) <;> simp [*])

@[simp] theorem writeGranule_csDev (d c : QWord) (f : Nat → Byte → BitVec 5 → State → State) (s : State) (hf : ∀ x0 x1 x2 s, (f x0 x1 x2 s).store.csDev = s.store.csDev) :
    (writeGranule d c f s).store.csDev = s.store.csDev := by
  unfold writeGranule
  first | (simp; done) | ((try dsimp only); (repeat' split) <;> first | (simp [*]; done) | simp_all | (repeat' split) <;> simp [*])

@[simp] theorem writeGranule_granules (d c : QWord) (f : Nat → Byte → BitVec 5 → State → State) (s : State) (hf : ∀ x0 x1 x2 s, (f x0 x1 x2 s).store.granules = s.store.granules) :
    (writeGranule d c f s).store.granules = s.store.granules := by
  unfold writeGranule
  first | (simp; done) | ((try dsimp only); (repeat' split) <;> first | (simp [*]; done) | simp_all | (repeat' split) <;> simp [*])

@[simp] theorem writeGranule_pins (d c : QWord) (f : Nat → Byte → BitVec 5 → State → State) (s : State) (hf : ∀ x0 x1 x2 s, (f x0 x1 x2 s).pins = s.pins) :
    (writeGranule d c f s).pins = s.pins := by
  unfold writeGranule
  first | (simp; done) | ((try dsimp only); (repeat' split) <;> first | (simp [*]; done) | simp_all | (repeat' split) <;> simp [*])

@[simp] theorem writeGranule_stream (d c : QWord) (f : Nat → Byte → BitVec 5 → State → State) (s : State) (hf : ∀ x0 x1 x2 s, (f x0 x1 x2 s).stream = s.stream) :
    (writeGranule d c f s).stream = s.stream := by
  unfold writeGranule
  first | (simp; done) | ((try dsimp only); (repeat' split) <;> first | (simp [*]; done) | simp_all | (repeat' split) <;> simp [*])

@[simp] theorem writeGranule_power (d c : QWord) (f : Nat → Byte → BitVec 5 → State → State) (s : State) (hf : ∀ x0 x1 x2 s, (f x0 x1 x2 s).power = s.power) :
    (writeGranule d c f s).power = s.power := by
  unfold writeGranule
  first | (simp; done) | ((try dsimp only); (repeat' split) <;> first | (simp [*]; done) | simp_all | (repeat' split) <;> simp [*])

@[simp] theorem writeGranule_loader (d c : QWord) (f : Nat → Byte → BitVec 5 → State → State) (s : State) (hf : ∀ x0 x1 x2 s, (f x0 x1 x2 s).loader = s.loader) :
    (writeGranule d c f s).loader = s.loader := by
  unfold writeGranule
  first | (simp; done) | ((try dsimp only); (repeat' split) <;> first | (simp [*]; done) | simp_all | (repeat' split) <;> simp [*])

@[simp] theorem writeGranule_conservator (d c : QWord) (f : Nat → Byte → BitVec 5 → State → State) (s : State) (hf : ∀ x0 x1 x2 s, (f x0 x1 x2 s).conservator = s.conservator) :
    (writeGranule d c f s).conservator = s.conservator := by
  unfold writeGranule
  first | (simp; done) | ((try dsimp only); (repeat' split) <;> first | (simp [*]; done) | simp_all | (repeat' split) <;> simp [*])

@[simp] theorem writeGranule_egress (d c : QWord) (f : Nat → Byte → BitVec 5 → State → State) (s : State) (hf : ∀ x0 x1 x2 s, (f x0 x1 x2 s).egress = s.egress) :
    (writeGranule d c f s).egress = s.egress := by
  unfold writeGranule
  first | (simp; done) | ((try dsimp only); (repeat' split) <;> first | (simp [*]; done) | simp_all | (repeat' split) <;> simp [*])

@[simp] theorem writeGranule_repair (d c : QWord) (f : Nat → Byte → BitVec 5 → State → State) (s : State) (hf : ∀ x0 x1 x2 s, (f x0 x1 x2 s).repair = s.repair) :
    (writeGranule d c f s).repair = s.repair := by
  unfold writeGranule
  first | (simp; done) | ((try dsimp only); (repeat' split) <;> first | (simp [*]; done) | simp_all | (repeat' split) <;> simp [*])

@[simp] theorem writeGranule_shadow (d c : QWord) (f : Nat → Byte → BitVec 5 → State → State) (s : State) (hf : ∀ x0 x1 x2 s, (f x0 x1 x2 s).shadow = s.shadow) :
    (writeGranule d c f s).shadow = s.shadow := by
  unfold writeGranule
  first | (simp; done) | ((try dsimp only); (repeat' split) <;> first | (simp [*]; done) | simp_all | (repeat' split) <;> simp [*])

@[simp] theorem writeGranule_inForce (d c : QWord) (f : Nat → Byte → BitVec 5 → State → State) (s : State) (hf : ∀ x0 x1 x2 s, (f x0 x1 x2 s).inForce = s.inForce) :
    (writeGranule d c f s).inForce = s.inForce := by
  unfold writeGranule
  first | (simp; done) | ((try dsimp only); (repeat' split) <;> first | (simp [*]; done) | simp_all | (repeat' split) <;> simp [*])

@[simp] theorem writeGranule_otpRequest (d c : QWord) (f : Nat → Byte → BitVec 5 → State → State) (s : State) (hf : ∀ x0 x1 x2 s, (f x0 x1 x2 s).otpRequest = s.otpRequest) :
    (writeGranule d c f s).otpRequest = s.otpRequest := by
  unfold writeGranule
  first | (simp; done) | ((try dsimp only); (repeat' split) <;> first | (simp [*]; done) | simp_all | (repeat' split) <;> simp [*])

@[simp] theorem writeGranule_heldCommands (d c : QWord) (f : Nat → Byte → BitVec 5 → State → State) (s : State) (hf : ∀ x0 x1 x2 s, (f x0 x1 x2 s).heldCommands = s.heldCommands) :
    (writeGranule d c f s).heldCommands = s.heldCommands := by
  unfold writeGranule
  first | (simp; done) | ((try dsimp only); (repeat' split) <;> first | (simp [*]; done) | simp_all | (repeat' split) <;> simp [*])

@[simp] theorem writeGranule_crossReads (d c : QWord) (f : Nat → Byte → BitVec 5 → State → State) (s : State) (hf : ∀ x0 x1 x2 s, (f x0 x1 x2 s).crossReads = s.crossReads) :
    (writeGranule d c f s).crossReads = s.crossReads := by
  unfold writeGranule
  first | (simp; done) | ((try dsimp only); (repeat' split) <;> first | (simp [*]; done) | simp_all | (repeat' split) <;> simp [*])

@[simp] theorem writeGranule_plen (d c : QWord) (f : Nat → Byte → BitVec 5 → State → State) (s : State) (hf : ∀ x0 x1 x2 s, (f x0 x1 x2 s).pins.pins.length = s.pins.pins.length) :
    (writeGranule d c f s).pins.pins.length = s.pins.pins.length := by
  unfold writeGranule
  first | (simp; done) | ((try dsimp only); (repeat' split) <;> first | (simp [*]; done) | simp_all | (repeat' split) <;> simp [*])

@[simp] theorem csPutDev_frame (a : Nat) (b : Byte) (dev : BitVec 5) (s : State) :
    (csPutDev a b dev s).pending = s.pending ∧ (csPutDev a b dev s).variant = s.variant ∧ (csPutDev a b dev s).otp = s.otp ∧
    (csPutDev a b dev s).masters.length = s.masters.length ∧
    (csPutDev a b dev s).cores.channels.length = s.cores.channels.length ∧
    (csPutDev a b dev s).regs.debugLevel = s.regs.debugLevel ∧ (csPutDev a b dev s).pins = s.pins ∧
    (csPutDev a b dev s).stream = s.stream ∧ (csPutDev a b dev s).power = s.power ∧ (csPutDev a b dev s).loader = s.loader ∧
    (csPutDev a b dev s).conservator = s.conservator ∧ (csPutDev a b dev s).egress = s.egress ∧
    (csPutDev a b dev s).repair = s.repair ∧ (csPutDev a b dev s).shadow = s.shadow ∧
    (csPutDev a b dev s).inForce = s.inForce ∧ (csPutDev a b dev s).otpRequest = s.otpRequest ∧
    (csPutDev a b dev s).heldCommands = s.heldCommands ∧ (csPutDev a b dev s).crossReads = s.crossReads := by
  unfold csPutDev
  first | (simp; done) | ((try dsimp only); (repeat' split) <;> first | (simp; done) | simp_all | (repeat' split) <;> simp)

@[simp] theorem checkWrite_frame (store loc : Nat) (d c : QWord) (s : State) :
    (checkWrite store loc d c s).pending = s.pending ∧ (checkWrite store loc d c s).variant = s.variant ∧
    (checkWrite store loc d c s).otp = s.otp ∧ (checkWrite store loc d c s).masters.length = s.masters.length ∧
    (checkWrite store loc d c s).cores.channels.length = s.cores.channels.length ∧
    (checkWrite store loc d c s).regs.debugLevel = s.regs.debugLevel ∧ (checkWrite store loc d c s).pins = s.pins ∧
    (checkWrite store loc d c s).stream = s.stream ∧ (checkWrite store loc d c s).power = s.power ∧
    (checkWrite store loc d c s).loader = s.loader ∧ (checkWrite store loc d c s).conservator = s.conservator ∧
    (checkWrite store loc d c s).egress = s.egress ∧ (checkWrite store loc d c s).repair = s.repair ∧
    (checkWrite store loc d c s).shadow = s.shadow ∧ (checkWrite store loc d c s).inForce = s.inForce ∧
    (checkWrite store loc d c s).otpRequest = s.otpRequest ∧ (checkWrite store loc d c s).heldCommands = s.heldCommands ∧
    (checkWrite store loc d c s).crossReads = s.crossReads := by
  unfold checkWrite
  first | (simp; done) | ((try dsimp only); (repeat' split) <;> first | (simp; done) | simp_all | (repeat' split) <;> simp)

@[simp] theorem replyBulk_frame (c : QueuedCall) (addr : Nat) (bs : List Byte) (s : State) :
    (replyBulk c addr bs s).pending = s.pending ∧ (replyBulk c addr bs s).variant = s.variant ∧
    (replyBulk c addr bs s).otp = s.otp ∧ (replyBulk c addr bs s).masters.length = s.masters.length ∧
    (replyBulk c addr bs s).cores.channels.length = s.cores.channels.length ∧
    (replyBulk c addr bs s).regs.debugLevel = s.regs.debugLevel ∧ (replyBulk c addr bs s).store.cs = s.store.cs ∧
    (replyBulk c addr bs s).store.csDev = s.store.csDev ∧ (replyBulk c addr bs s).store.granules = s.store.granules ∧
    (replyBulk c addr bs s).pins = s.pins ∧ (replyBulk c addr bs s).stream = s.stream ∧
    (replyBulk c addr bs s).power = s.power ∧ (replyBulk c addr bs s).loader = s.loader ∧
    (replyBulk c addr bs s).conservator = s.conservator ∧ (replyBulk c addr bs s).egress = s.egress ∧
    (replyBulk c addr bs s).repair = s.repair ∧ (replyBulk c addr bs s).shadow = s.shadow ∧
    (replyBulk c addr bs s).inForce = s.inForce ∧ (replyBulk c addr bs s).otpRequest = s.otpRequest ∧
    (replyBulk c addr bs s).heldCommands = s.heldCommands ∧ (replyBulk c addr bs s).crossReads = s.crossReads := by
  unfold replyBulk
  first | (simp; done) | ((try dsimp only); (repeat' split) <;> first | (simp; done) | simp_all | (repeat' split) <;> simp)

@[simp] theorem setPin_frame (i : Nat) (p : Pin) (s : State) :
    (setPin i p s).pending = s.pending ∧ (setPin i p s).variant = s.variant ∧ (setPin i p s).otp = s.otp ∧
    (setPin i p s).masters.length = s.masters.length ∧ (setPin i p s).cores.channels.length = s.cores.channels.length ∧
    (setPin i p s).regs.debugLevel = s.regs.debugLevel ∧ (setPin i p s).store.cs = s.store.cs ∧
    (setPin i p s).store.csDev = s.store.csDev ∧ (setPin i p s).store.granules = s.store.granules ∧
    (setPin i p s).stream = s.stream ∧ (setPin i p s).power = s.power ∧ (setPin i p s).loader = s.loader ∧
    (setPin i p s).conservator = s.conservator ∧ (setPin i p s).egress = s.egress ∧ (setPin i p s).repair = s.repair ∧
    (setPin i p s).shadow = s.shadow ∧ (setPin i p s).inForce = s.inForce ∧ (setPin i p s).otpRequest = s.otpRequest ∧
    (setPin i p s).heldCommands = s.heldCommands ∧ (setPin i p s).crossReads = s.crossReads ∧
    (setPin i p s).pins.pins.length = s.pins.pins.length := by
  unfold setPin
  simp [lset]

@[simp] theorem sampleInputs_frame  (s : State) :
    (sampleInputs s).pending = s.pending ∧ (sampleInputs s).variant = s.variant ∧ (sampleInputs s).otp = s.otp ∧
    (sampleInputs s).masters.length = s.masters.length ∧ (sampleInputs s).cores.channels.length = s.cores.channels.length ∧
    (sampleInputs s).regs.debugLevel = s.regs.debugLevel ∧ (sampleInputs s).store.cs = s.store.cs ∧
    (sampleInputs s).store.csDev = s.store.csDev ∧ (sampleInputs s).store.granules = s.store.granules ∧
    (sampleInputs s).stream = s.stream ∧ (sampleInputs s).power = s.power ∧ (sampleInputs s).loader = s.loader ∧
    (sampleInputs s).conservator = s.conservator ∧ (sampleInputs s).egress = s.egress ∧ (sampleInputs s).repair = s.repair ∧
    (sampleInputs s).shadow = s.shadow ∧ (sampleInputs s).inForce = s.inForce ∧ (sampleInputs s).otpRequest = s.otpRequest ∧
    (sampleInputs s).heldCommands = s.heldCommands ∧ (sampleInputs s).crossReads = s.crossReads ∧
    (sampleInputs s).pins.pins.length = s.pins.pins.length := by
  unfold sampleInputs
  first | (simp; done) | ((try dsimp only); (repeat' split) <;> first | (simp; done) | simp_all | (repeat' split) <;> simp)

@[simp] theorem putPinFunction_frame (i : Nat) (q : Pin) (s : State) :
    (putPinFunction i q s).pending = s.pending ∧ (putPinFunction i q s).variant = s.variant ∧
    (putPinFunction i q s).otp = s.otp ∧ (putPinFunction i q s).masters.length = s.masters.length ∧
    (putPinFunction i q s).cores.channels.length = s.cores.channels.length ∧
    (putPinFunction i q s).regs.debugLevel = s.regs.debugLevel ∧ (putPinFunction i q s).store.cs = s.store.cs ∧
    (putPinFunction i q s).store.csDev = s.store.csDev ∧ (putPinFunction i q s).store.granules = s.store.granules ∧
    (putPinFunction i q s).stream = s.stream ∧ (putPinFunction i q s).power = s.power ∧
    (putPinFunction i q s).loader = s.loader ∧ (putPinFunction i q s).conservator = s.conservator ∧
    (putPinFunction i q s).egress = s.egress ∧ (putPinFunction i q s).repair = s.repair ∧
    (putPinFunction i q s).shadow = s.shadow ∧ (putPinFunction i q s).inForce = s.inForce ∧
    (putPinFunction i q s).otpRequest = s.otpRequest ∧ (putPinFunction i q s).heldCommands = s.heldCommands ∧
    (putPinFunction i q s).crossReads = s.crossReads ∧ (putPinFunction i q s).pins.pins.length = s.pins.pins.length := by
  unfold putPinFunction
  first | (simp; done) | ((try dsimp only); (repeat' split) <;> first | (simp; done) | simp_all | (repeat' split) <;> simp)

@[simp] theorem writePin_frame (i : Nat) (v : DWord) (s : State) :
    (writePin i v s).pending = s.pending ∧ (writePin i v s).variant = s.variant ∧ (writePin i v s).otp = s.otp ∧
    (writePin i v s).masters.length = s.masters.length ∧ (writePin i v s).cores.channels.length = s.cores.channels.length ∧
    (writePin i v s).regs.debugLevel = s.regs.debugLevel ∧ (writePin i v s).store.cs = s.store.cs ∧
    (writePin i v s).store.csDev = s.store.csDev ∧ (writePin i v s).store.granules = s.store.granules ∧
    (writePin i v s).stream = s.stream ∧ (writePin i v s).power = s.power ∧ (writePin i v s).loader = s.loader ∧
    (writePin i v s).conservator = s.conservator ∧ (writePin i v s).egress = s.egress ∧ (writePin i v s).repair = s.repair ∧
    (writePin i v s).shadow = s.shadow ∧ (writePin i v s).inForce = s.inForce ∧ (writePin i v s).otpRequest = s.otpRequest ∧
    (writePin i v s).heldCommands = s.heldCommands ∧ (writePin i v s).crossReads = s.crossReads ∧
    (writePin i v s).pins.pins.length = s.pins.pins.length := by
  unfold writePin
  first | (simp; done) | ((try dsimp only); (repeat' split) <;> first | (simp; done) | simp_all | (repeat' split) <;> simp)

@[simp] theorem pinLockKey_frame (m : Master) (data : Word) (s0 : State) :
    (pinLockKey m data s0).pending = s0.pending ∧ (pinLockKey m data s0).variant = s0.variant ∧
    (pinLockKey m data s0).otp = s0.otp ∧ (pinLockKey m data s0).masters.length = s0.masters.length ∧
    (pinLockKey m data s0).cores.channels.length = s0.cores.channels.length ∧
    (pinLockKey m data s0).regs.debugLevel = s0.regs.debugLevel ∧ (pinLockKey m data s0).store.cs = s0.store.cs ∧
    (pinLockKey m data s0).store.csDev = s0.store.csDev ∧ (pinLockKey m data s0).store.granules = s0.store.granules ∧
    (pinLockKey m data s0).stream = s0.stream ∧ (pinLockKey m data s0).power = s0.power ∧
    (pinLockKey m data s0).loader = s0.loader ∧ (pinLockKey m data s0).conservator = s0.conservator ∧
    (pinLockKey m data s0).egress = s0.egress ∧ (pinLockKey m data s0).repair = s0.repair ∧
    (pinLockKey m data s0).shadow = s0.shadow ∧ (pinLockKey m data s0).inForce = s0.inForce ∧
    (pinLockKey m data s0).otpRequest = s0.otpRequest ∧ (pinLockKey m data s0).heldCommands = s0.heldCommands ∧
    (pinLockKey m data s0).crossReads = s0.crossReads ∧ (pinLockKey m data s0).pins.pins.length = s0.pins.pins.length := by
  unfold pinLockKey
  first | (simp; done) | ((try dsimp only); (repeat' split) <;> first | (simp; done) | simp_all | (repeat' split) <;> simp)

@[simp] theorem stateReadDone_frame (i : Nat) (s : State) :
    (stateReadDone i s).pending = s.pending ∧ (stateReadDone i s).variant = s.variant ∧ (stateReadDone i s).otp = s.otp ∧
    (stateReadDone i s).masters.length = s.masters.length ∧
    (stateReadDone i s).cores.channels.length = s.cores.channels.length ∧
    (stateReadDone i s).regs.debugLevel = s.regs.debugLevel ∧ (stateReadDone i s).store.cs = s.store.cs ∧
    (stateReadDone i s).store.csDev = s.store.csDev ∧ (stateReadDone i s).store.granules = s.store.granules ∧
    (stateReadDone i s).pins = s.pins ∧ (stateReadDone i s).stream = s.stream ∧ (stateReadDone i s).power = s.power ∧
    (stateReadDone i s).loader = s.loader ∧ (stateReadDone i s).conservator = s.conservator ∧
    (stateReadDone i s).egress = s.egress ∧ (stateReadDone i s).repair = s.repair ∧ (stateReadDone i s).shadow = s.shadow ∧
    (stateReadDone i s).inForce = s.inForce ∧ (stateReadDone i s).otpRequest = s.otpRequest ∧
    (stateReadDone i s).heldCommands = s.heldCommands ∧ (stateReadDone i s).crossReads = s.crossReads := by
  unfold stateReadDone
  first | (simp; done) | ((try dsimp only); (repeat' split) <;> first | (simp; done) | simp_all | (repeat' split) <;> simp)

@[simp] theorem windowReadDone_frame (w i : Nat) (s : State) :
    (windowReadDone w i s).pending = s.pending ∧ (windowReadDone w i s).variant = s.variant ∧
    (windowReadDone w i s).otp = s.otp ∧ (windowReadDone w i s).masters.length = s.masters.length ∧
    (windowReadDone w i s).cores.channels.length = s.cores.channels.length ∧
    (windowReadDone w i s).regs.debugLevel = s.regs.debugLevel ∧ (windowReadDone w i s).store.cs = s.store.cs ∧
    (windowReadDone w i s).store.csDev = s.store.csDev ∧ (windowReadDone w i s).store.granules = s.store.granules ∧
    (windowReadDone w i s).pins = s.pins ∧ (windowReadDone w i s).stream = s.stream ∧
    (windowReadDone w i s).power = s.power ∧ (windowReadDone w i s).loader = s.loader ∧
    (windowReadDone w i s).conservator = s.conservator ∧ (windowReadDone w i s).egress = s.egress ∧
    (windowReadDone w i s).repair = s.repair ∧ (windowReadDone w i s).shadow = s.shadow ∧
    (windowReadDone w i s).inForce = s.inForce ∧ (windowReadDone w i s).otpRequest = s.otpRequest ∧
    (windowReadDone w i s).heldCommands = s.heldCommands ∧ (windowReadDone w i s).crossReads = s.crossReads := by
  unfold windowReadDone
  first | (simp; done) | ((try dsimp only); (repeat' split) <;> first | (simp; done) | simp_all | (repeat' split) <;> simp)

@[simp] theorem bumpIndex_frame (m : Master) (s : State) :
    (bumpIndex m s).pending = s.pending ∧ (bumpIndex m s).variant = s.variant ∧ (bumpIndex m s).otp = s.otp ∧
    (bumpIndex m s).masters.length = s.masters.length ∧ (bumpIndex m s).cores.channels.length = s.cores.channels.length ∧
    (bumpIndex m s).regs.debugLevel = s.regs.debugLevel ∧ (bumpIndex m s).store.cs = s.store.cs ∧
    (bumpIndex m s).store.csDev = s.store.csDev ∧ (bumpIndex m s).store.granules = s.store.granules ∧
    (bumpIndex m s).pins = s.pins ∧ (bumpIndex m s).stream = s.stream ∧ (bumpIndex m s).power = s.power ∧
    (bumpIndex m s).loader = s.loader ∧ (bumpIndex m s).conservator = s.conservator ∧ (bumpIndex m s).egress = s.egress ∧
    (bumpIndex m s).repair = s.repair ∧ (bumpIndex m s).shadow = s.shadow ∧ (bumpIndex m s).inForce = s.inForce ∧
    (bumpIndex m s).otpRequest = s.otpRequest ∧ (bumpIndex m s).heldCommands = s.heldCommands ∧
    (bumpIndex m s).crossReads = s.crossReads := by
  unfold bumpIndex
  first | (simp; done) | ((try dsimp only); (repeat' split) <;> first | (simp; done) | simp_all | (repeat' split) <;> simp)

@[simp] theorem finishRead_frame (m : Master) (k : Nat) (s : State) :
    (finishRead m k s).pending = s.pending ∧ (finishRead m k s).variant = s.variant ∧ (finishRead m k s).otp = s.otp ∧
    (finishRead m k s).masters.length = s.masters.length ∧
    (finishRead m k s).cores.channels.length = s.cores.channels.length ∧
    (finishRead m k s).regs.debugLevel = s.regs.debugLevel ∧ (finishRead m k s).store.cs = s.store.cs ∧
    (finishRead m k s).store.csDev = s.store.csDev ∧ (finishRead m k s).store.granules = s.store.granules ∧
    (finishRead m k s).pins = s.pins ∧ (finishRead m k s).stream = s.stream ∧ (finishRead m k s).power = s.power ∧
    (finishRead m k s).loader = s.loader ∧ (finishRead m k s).conservator = s.conservator ∧
    (finishRead m k s).egress = s.egress ∧ (finishRead m k s).repair = s.repair ∧ (finishRead m k s).shadow = s.shadow ∧
    (finishRead m k s).inForce = s.inForce ∧ (finishRead m k s).otpRequest = s.otpRequest ∧
    (finishRead m k s).heldCommands = s.heldCommands ∧ (finishRead m k s).crossReads = s.crossReads := by
  unfold finishRead
  first | (simp; done) | ((try dsimp only); (repeat' split) <;> first | (simp; done) | simp_all | (repeat' split) <;> simp)

@[simp] theorem takeEntry_frame (m : Master) (e : QWord) (s : State) :
    (takeEntry m e s).pending = s.pending ∧ (takeEntry m e s).variant = s.variant ∧ (takeEntry m e s).otp = s.otp ∧
    (takeEntry m e s).masters.length = s.masters.length ∧
    (takeEntry m e s).cores.channels.length = s.cores.channels.length ∧
    (takeEntry m e s).regs.debugLevel = s.regs.debugLevel ∧ (takeEntry m e s).store.cs = s.store.cs ∧
    (takeEntry m e s).store.csDev = s.store.csDev ∧ (takeEntry m e s).store.granules = s.store.granules ∧
    (takeEntry m e s).pins = s.pins ∧ (takeEntry m e s).stream = s.stream ∧ (takeEntry m e s).power = s.power ∧
    (takeEntry m e s).loader = s.loader ∧ (takeEntry m e s).conservator = s.conservator ∧
    (takeEntry m e s).egress = s.egress ∧ (takeEntry m e s).repair = s.repair ∧ (takeEntry m e s).shadow = s.shadow ∧
    (takeEntry m e s).inForce = s.inForce ∧ (takeEntry m e s).otpRequest = s.otpRequest ∧
    (takeEntry m e s).heldCommands = s.heldCommands ∧ (takeEntry m e s).crossReads = s.crossReads := by
  unfold takeEntry
  first | (simp; done) | ((try dsimp only); (repeat' split) <;> first | (simp; done) | simp_all | (repeat' split) <;> simp)

@[simp] theorem crossRead_frame (m : Master) (k : Nat) (s : State) :
    (crossRead m k s).pending = s.pending ∧ (crossRead m k s).variant = s.variant ∧ (crossRead m k s).otp = s.otp ∧
    (crossRead m k s).masters.length = s.masters.length ∧
    (crossRead m k s).cores.channels.length = s.cores.channels.length ∧
    (crossRead m k s).regs.debugLevel = s.regs.debugLevel ∧ (crossRead m k s).store.cs = s.store.cs ∧
    (crossRead m k s).store.csDev = s.store.csDev ∧ (crossRead m k s).store.granules = s.store.granules ∧
    (crossRead m k s).pins = s.pins ∧ (crossRead m k s).stream = s.stream ∧ (crossRead m k s).power = s.power ∧
    (crossRead m k s).loader = s.loader ∧ (crossRead m k s).conservator = s.conservator ∧
    (crossRead m k s).egress = s.egress ∧ (crossRead m k s).repair = s.repair ∧ (crossRead m k s).shadow = s.shadow ∧
    (crossRead m k s).inForce = s.inForce ∧ (crossRead m k s).otpRequest = s.otpRequest ∧
    (crossRead m k s).heldCommands = s.heldCommands := by
  unfold crossRead
  first | (simp; done) | ((try dsimp only); (repeat' split) <;> first | (simp; done) | simp_all | (repeat' split) <;> simp)

@[simp] theorem readTable_frame (m : Master) (k : Nat) (s : State) :
    (readTable m k s).pending = s.pending ∧ (readTable m k s).variant = s.variant ∧ (readTable m k s).otp = s.otp ∧
    (readTable m k s).masters.length = s.masters.length ∧
    (readTable m k s).cores.channels.length = s.cores.channels.length ∧
    (readTable m k s).regs.debugLevel = s.regs.debugLevel ∧ (readTable m k s).store.cs = s.store.cs ∧
    (readTable m k s).store.csDev = s.store.csDev ∧ (readTable m k s).store.granules = s.store.granules ∧
    (readTable m k s).pins = s.pins ∧ (readTable m k s).stream = s.stream ∧ (readTable m k s).power = s.power ∧
    (readTable m k s).loader = s.loader ∧ (readTable m k s).conservator = s.conservator ∧
    (readTable m k s).egress = s.egress ∧ (readTable m k s).repair = s.repair ∧ (readTable m k s).shadow = s.shadow ∧
    (readTable m k s).inForce = s.inForce ∧ (readTable m k s).otpRequest = s.otpRequest ∧
    (readTable m k s).heldCommands = s.heldCommands := by
  unfold readTable
  first | (simp; done) | ((try dsimp only); (repeat' split) <;> first | (simp; done) | simp_all | (repeat' split) <;> simp)

@[simp] theorem staleLatches_frame (w i : Nat) (s : State) :
    (staleLatches w i s).pending = s.pending ∧ (staleLatches w i s).variant = s.variant ∧ (staleLatches w i s).otp = s.otp ∧
    (staleLatches w i s).masters.length = s.masters.length ∧
    (staleLatches w i s).cores.channels.length = s.cores.channels.length ∧
    (staleLatches w i s).regs.debugLevel = s.regs.debugLevel ∧ (staleLatches w i s).store.cs = s.store.cs ∧
    (staleLatches w i s).store.csDev = s.store.csDev ∧ (staleLatches w i s).store.granules = s.store.granules ∧
    (staleLatches w i s).pins = s.pins ∧ (staleLatches w i s).stream = s.stream ∧ (staleLatches w i s).power = s.power ∧
    (staleLatches w i s).loader = s.loader ∧ (staleLatches w i s).conservator = s.conservator ∧
    (staleLatches w i s).egress = s.egress ∧ (staleLatches w i s).repair = s.repair ∧
    (staleLatches w i s).shadow = s.shadow ∧ (staleLatches w i s).inForce = s.inForce ∧
    (staleLatches w i s).otpRequest = s.otpRequest ∧ (staleLatches w i s).heldCommands = s.heldCommands ∧
    (staleLatches w i s).crossReads = s.crossReads := by
  unfold staleLatches
  first | (simp; done) | ((try dsimp only); (repeat' split) <;> first | (simp; done) | simp_all | (repeat' split) <;> simp)

@[simp] theorem popLog_frame (m : Master) (s : State) :
    (popLog m s).pending = s.pending ∧ (popLog m s).variant = s.variant ∧ (popLog m s).otp = s.otp ∧
    (popLog m s).masters.length = s.masters.length ∧ (popLog m s).cores.channels.length = s.cores.channels.length ∧
    (popLog m s).regs.debugLevel = s.regs.debugLevel ∧ (popLog m s).store.cs = s.store.cs ∧
    (popLog m s).store.csDev = s.store.csDev ∧ (popLog m s).store.granules = s.store.granules ∧ (popLog m s).pins = s.pins ∧
    (popLog m s).stream = s.stream ∧ (popLog m s).power = s.power ∧ (popLog m s).loader = s.loader ∧
    (popLog m s).conservator = s.conservator ∧ (popLog m s).egress = s.egress ∧ (popLog m s).repair = s.repair ∧
    (popLog m s).shadow = s.shadow ∧ (popLog m s).inForce = s.inForce ∧ (popLog m s).otpRequest = s.otpRequest ∧
    (popLog m s).heldCommands = s.heldCommands ∧ (popLog m s).crossReads = s.crossReads := by
  unfold popLog
  first | (simp; done) | ((try dsimp only); (repeat' split) <;> first | (simp; done) | simp_all | (repeat' split) <;> simp)

@[simp] theorem reloadWatchdog_frame (c : Core) (s : State) :
    (reloadWatchdog c s).pending = s.pending ∧ (reloadWatchdog c s).variant = s.variant ∧ (reloadWatchdog c s).otp = s.otp ∧
    (reloadWatchdog c s).masters.length = s.masters.length ∧
    (reloadWatchdog c s).cores.channels.length = s.cores.channels.length ∧
    (reloadWatchdog c s).regs.debugLevel = s.regs.debugLevel ∧ (reloadWatchdog c s).store.cs = s.store.cs ∧
    (reloadWatchdog c s).store.csDev = s.store.csDev ∧ (reloadWatchdog c s).store.granules = s.store.granules ∧
    (reloadWatchdog c s).pins = s.pins ∧ (reloadWatchdog c s).stream = s.stream ∧ (reloadWatchdog c s).power = s.power ∧
    (reloadWatchdog c s).loader = s.loader ∧ (reloadWatchdog c s).conservator = s.conservator ∧
    (reloadWatchdog c s).egress = s.egress ∧ (reloadWatchdog c s).repair = s.repair ∧
    (reloadWatchdog c s).shadow = s.shadow ∧ (reloadWatchdog c s).inForce = s.inForce ∧
    (reloadWatchdog c s).otpRequest = s.otpRequest ∧ (reloadWatchdog c s).heldCommands = s.heldCommands ∧
    (reloadWatchdog c s).crossReads = s.crossReads := by
  unfold reloadWatchdog
  first | (simp; done) | ((try dsimp only); (repeat' split) <;> first | (simp; done) | simp_all | (repeat' split) <;> simp)

@[simp] theorem freeRegs_frame (c : Core) (s : State) :
    (freeRegs c s).pending = s.pending ∧ (freeRegs c s).variant = s.variant ∧ (freeRegs c s).otp = s.otp ∧
    (freeRegs c s).masters.length = s.masters.length ∧ (freeRegs c s).cores.channels.length = s.cores.channels.length ∧
    (freeRegs c s).regs.debugLevel = s.regs.debugLevel ∧ (freeRegs c s).store.cs = s.store.cs ∧
    (freeRegs c s).store.csDev = s.store.csDev ∧ (freeRegs c s).store.granules = s.store.granules ∧
    (freeRegs c s).pins = s.pins ∧ (freeRegs c s).stream = s.stream ∧ (freeRegs c s).power = s.power ∧
    (freeRegs c s).loader = s.loader ∧ (freeRegs c s).conservator = s.conservator ∧ (freeRegs c s).egress = s.egress ∧
    (freeRegs c s).repair = s.repair ∧ (freeRegs c s).shadow = s.shadow ∧ (freeRegs c s).inForce = s.inForce ∧
    (freeRegs c s).otpRequest = s.otpRequest ∧ (freeRegs c s).heldCommands = s.heldCommands ∧
    (freeRegs c s).crossReads = s.crossReads := by
  unfold freeRegs
  first | (simp; done) | ((try dsimp only); (repeat' split) <;> first | (simp; done) | simp_all | (repeat' split) <;> simp)

@[simp] theorem abortSequences_frame (m : Master) (s : State) :
    (abortSequences m s).pending = s.pending ∧ (abortSequences m s).variant = s.variant ∧ (abortSequences m s).otp = s.otp ∧
    (abortSequences m s).masters.length = s.masters.length ∧
    (abortSequences m s).cores.channels.length = s.cores.channels.length ∧
    (abortSequences m s).regs.debugLevel = s.regs.debugLevel ∧ (abortSequences m s).store.cs = s.store.cs ∧
    (abortSequences m s).store.csDev = s.store.csDev ∧ (abortSequences m s).store.granules = s.store.granules ∧
    (abortSequences m s).pins = s.pins ∧ (abortSequences m s).stream = s.stream ∧ (abortSequences m s).power = s.power ∧
    (abortSequences m s).loader = s.loader ∧ (abortSequences m s).conservator = s.conservator ∧
    (abortSequences m s).egress = s.egress ∧ (abortSequences m s).repair = s.repair ∧
    (abortSequences m s).shadow = s.shadow ∧ (abortSequences m s).inForce = s.inForce ∧
    (abortSequences m s).otpRequest = s.otpRequest ∧ (abortSequences m s).heldCommands = s.heldCommands ∧
    (abortSequences m s).crossReads = s.crossReads := by
  unfold abortSequences
  first | (simp; done) | ((try dsimp only); (repeat' split) <;> first | (simp; done) | simp_all | (repeat' split) <;> simp)

@[simp] theorem haltCore_frame (cause : Nat) (c : Core) (s : State) :
    (haltCore cause c s).pending = s.pending ∧ (haltCore cause c s).variant = s.variant ∧ (haltCore cause c s).otp = s.otp ∧
    (haltCore cause c s).masters.length = s.masters.length ∧
    (haltCore cause c s).cores.channels.length = s.cores.channels.length ∧
    (haltCore cause c s).regs.debugLevel = s.regs.debugLevel ∧ (haltCore cause c s).store.cs = s.store.cs ∧
    (haltCore cause c s).store.csDev = s.store.csDev ∧ (haltCore cause c s).store.granules = s.store.granules ∧
    (haltCore cause c s).pins = s.pins ∧ (haltCore cause c s).stream = s.stream ∧ (haltCore cause c s).power = s.power ∧
    (haltCore cause c s).loader = s.loader ∧ (haltCore cause c s).conservator = s.conservator ∧
    (haltCore cause c s).egress = s.egress ∧ (haltCore cause c s).repair = s.repair ∧
    (haltCore cause c s).shadow = s.shadow ∧ (haltCore cause c s).inForce = s.inForce ∧
    (haltCore cause c s).otpRequest = s.otpRequest ∧ (haltCore cause c s).heldCommands = s.heldCommands ∧
    (haltCore cause c s).crossReads = s.crossReads := by
  unfold haltCore
  first | (simp; done) | ((try dsimp only); (repeat' split) <;> first | (simp; done) | simp_all | (repeat' split) <;> simp)

@[simp] theorem resumeCore_frame (c : Core) (s : State) :
    (resumeCore c s).pending = s.pending ∧ (resumeCore c s).variant = s.variant ∧ (resumeCore c s).otp = s.otp ∧
    (resumeCore c s).masters.length = s.masters.length ∧ (resumeCore c s).cores.channels.length = s.cores.channels.length ∧
    (resumeCore c s).regs.debugLevel = s.regs.debugLevel ∧ (resumeCore c s).store.cs = s.store.cs ∧
    (resumeCore c s).store.csDev = s.store.csDev ∧ (resumeCore c s).store.granules = s.store.granules ∧
    (resumeCore c s).pins = s.pins ∧ (resumeCore c s).stream = s.stream ∧ (resumeCore c s).power = s.power ∧
    (resumeCore c s).loader = s.loader ∧ (resumeCore c s).conservator = s.conservator ∧ (resumeCore c s).egress = s.egress ∧
    (resumeCore c s).repair = s.repair ∧ (resumeCore c s).shadow = s.shadow ∧ (resumeCore c s).inForce = s.inForce ∧
    (resumeCore c s).otpRequest = s.otpRequest ∧ (resumeCore c s).heldCommands = s.heldCommands ∧
    (resumeCore c s).crossReads = s.crossReads := by
  unfold resumeCore
  first | (simp; done) | ((try dsimp only); (repeat' split) <;> first | (simp; done) | simp_all | (repeat' split) <;> simp)

@[simp] theorem pulseTrig_frame (k : Nat) (s : State) :
    (pulseTrig k s).pending = s.pending ∧ (pulseTrig k s).variant = s.variant ∧ (pulseTrig k s).otp = s.otp ∧
    (pulseTrig k s).masters.length = s.masters.length ∧ (pulseTrig k s).cores.channels.length = s.cores.channels.length ∧
    (pulseTrig k s).regs.debugLevel = s.regs.debugLevel ∧ (pulseTrig k s).store.cs = s.store.cs ∧
    (pulseTrig k s).store.csDev = s.store.csDev ∧ (pulseTrig k s).store.granules = s.store.granules ∧
    (pulseTrig k s).stream = s.stream ∧ (pulseTrig k s).power = s.power ∧ (pulseTrig k s).loader = s.loader ∧
    (pulseTrig k s).conservator = s.conservator ∧ (pulseTrig k s).egress = s.egress ∧ (pulseTrig k s).repair = s.repair ∧
    (pulseTrig k s).shadow = s.shadow ∧ (pulseTrig k s).inForce = s.inForce ∧ (pulseTrig k s).otpRequest = s.otpRequest ∧
    (pulseTrig k s).heldCommands = s.heldCommands ∧ (pulseTrig k s).crossReads = s.crossReads ∧
    (pulseTrig k s).pins.pins.length = s.pins.pins.length := by
  unfold pulseTrig
  first | (simp; done) | ((try dsimp only); (repeat' split) <;> first | (simp; done) | simp_all | (repeat' split) <;> simp)

@[simp] theorem assertChannel_frame (k : Nat) (s : State) :
    (assertChannel k s).pending = s.pending ∧ (assertChannel k s).variant = s.variant ∧ (assertChannel k s).otp = s.otp ∧
    (assertChannel k s).masters.length = s.masters.length ∧
    (assertChannel k s).cores.channels.length = s.cores.channels.length ∧
    (assertChannel k s).regs.debugLevel = s.regs.debugLevel ∧ (assertChannel k s).store.cs = s.store.cs ∧
    (assertChannel k s).store.csDev = s.store.csDev ∧ (assertChannel k s).store.granules = s.store.granules ∧
    (assertChannel k s).stream = s.stream ∧ (assertChannel k s).power = s.power ∧ (assertChannel k s).loader = s.loader ∧
    (assertChannel k s).conservator = s.conservator ∧ (assertChannel k s).egress = s.egress ∧
    (assertChannel k s).repair = s.repair ∧ (assertChannel k s).shadow = s.shadow ∧
    (assertChannel k s).inForce = s.inForce ∧ (assertChannel k s).otpRequest = s.otpRequest ∧
    (assertChannel k s).heldCommands = s.heldCommands ∧ (assertChannel k s).crossReads = s.crossReads ∧
    (assertChannel k s).pins.pins.length = s.pins.pins.length := by
  unfold assertChannel
  first | (simp; done) | ((try dsimp only); (repeat' split) <;> first | (simp; done) | simp_all | (repeat' split) <;> simp)

@[simp] theorem fireSource_frame (b : Nat) (s : State) :
    (fireSource b s).pending = s.pending ∧ (fireSource b s).variant = s.variant ∧ (fireSource b s).otp = s.otp ∧
    (fireSource b s).masters.length = s.masters.length ∧ (fireSource b s).cores.channels.length = s.cores.channels.length ∧
    (fireSource b s).regs.debugLevel = s.regs.debugLevel ∧ (fireSource b s).store.cs = s.store.cs ∧
    (fireSource b s).store.csDev = s.store.csDev ∧ (fireSource b s).store.granules = s.store.granules ∧
    (fireSource b s).stream = s.stream ∧ (fireSource b s).power = s.power ∧ (fireSource b s).loader = s.loader ∧
    (fireSource b s).conservator = s.conservator ∧ (fireSource b s).egress = s.egress ∧ (fireSource b s).repair = s.repair ∧
    (fireSource b s).shadow = s.shadow ∧ (fireSource b s).inForce = s.inForce ∧ (fireSource b s).otpRequest = s.otpRequest ∧
    (fireSource b s).heldCommands = s.heldCommands ∧ (fireSource b s).crossReads = s.crossReads ∧
    (fireSource b s).pins.pins.length = s.pins.pins.length := by
  unfold fireSource
  first | (simp; done) | ((try dsimp only); (repeat' split) <;> first | (simp; done) | simp_all | (repeat' split) <;> simp)

@[simp] theorem haltBySource_frame (cause : Nat) (c : Core) (s : State) :
    (haltBySource cause c s).pending = s.pending ∧ (haltBySource cause c s).variant = s.variant ∧
    (haltBySource cause c s).otp = s.otp ∧ (haltBySource cause c s).masters.length = s.masters.length ∧
    (haltBySource cause c s).cores.channels.length = s.cores.channels.length ∧
    (haltBySource cause c s).regs.debugLevel = s.regs.debugLevel ∧ (haltBySource cause c s).store.cs = s.store.cs ∧
    (haltBySource cause c s).store.csDev = s.store.csDev ∧ (haltBySource cause c s).store.granules = s.store.granules ∧
    (haltBySource cause c s).stream = s.stream ∧ (haltBySource cause c s).power = s.power ∧
    (haltBySource cause c s).loader = s.loader ∧ (haltBySource cause c s).conservator = s.conservator ∧
    (haltBySource cause c s).egress = s.egress ∧ (haltBySource cause c s).repair = s.repair ∧
    (haltBySource cause c s).shadow = s.shadow ∧ (haltBySource cause c s).inForce = s.inForce ∧
    (haltBySource cause c s).otpRequest = s.otpRequest ∧ (haltBySource cause c s).heldCommands = s.heldCommands ∧
    (haltBySource cause c s).crossReads = s.crossReads ∧ (haltBySource cause c s).pins.pins.length = s.pins.pins.length := by
  unfold haltBySource
  first | (simp; done) | ((try dsimp only); (repeat' split) <;> first | (simp; done) | simp_all | (repeat' split) <;> simp)

@[simp] theorem applyLevel_frame  (s : State) :
    (applyLevel s).pending = s.pending ∧ (applyLevel s).variant = s.variant ∧ (applyLevel s).otp = s.otp ∧
    (applyLevel s).masters.length = s.masters.length ∧ (applyLevel s).cores.channels.length = s.cores.channels.length ∧
    (applyLevel s).regs.debugLevel = s.regs.debugLevel ∧ (applyLevel s).store.cs = s.store.cs ∧
    (applyLevel s).store.csDev = s.store.csDev ∧ (applyLevel s).store.granules = s.store.granules ∧
    (applyLevel s).pins = s.pins ∧ (applyLevel s).stream = s.stream ∧ (applyLevel s).power = s.power ∧
    (applyLevel s).loader = s.loader ∧ (applyLevel s).conservator = s.conservator ∧ (applyLevel s).egress = s.egress ∧
    (applyLevel s).repair = s.repair ∧ (applyLevel s).shadow = s.shadow ∧ (applyLevel s).inForce = s.inForce ∧
    (applyLevel s).otpRequest = s.otpRequest ∧ (applyLevel s).heldCommands = s.heldCommands ∧
    (applyLevel s).crossReads = s.crossReads := by
  unfold applyLevel
  first | (simp; done) | ((try dsimp only); (repeat' split) <;> first | (simp; done) | simp_all | (repeat' split) <;> simp)

@[simp] theorem putLevel_frame (v : Nat) (s : State) :
    (putLevel v s).pending = s.pending ∧ (putLevel v s).variant = s.variant ∧ (putLevel v s).otp = s.otp ∧
    (putLevel v s).masters.length = s.masters.length ∧ (putLevel v s).cores.channels.length = s.cores.channels.length ∧
    (putLevel v s).store.cs = s.store.cs ∧ (putLevel v s).store.csDev = s.store.csDev ∧
    (putLevel v s).store.granules = s.store.granules ∧ (putLevel v s).pins = s.pins ∧ (putLevel v s).stream = s.stream ∧
    (putLevel v s).power = s.power ∧ (putLevel v s).loader = s.loader ∧ (putLevel v s).conservator = s.conservator ∧
    (putLevel v s).egress = s.egress ∧ (putLevel v s).repair = s.repair ∧ (putLevel v s).shadow = s.shadow ∧
    (putLevel v s).inForce = s.inForce ∧ (putLevel v s).otpRequest = s.otpRequest ∧
    (putLevel v s).heldCommands = s.heldCommands ∧ (putLevel v s).crossReads = s.crossReads := by
  unfold putLevel
  first | (simp; done) | ((try dsimp only); (repeat' split) <;> first | (simp; done) | simp_all | (repeat' split) <;> simp)

@[simp] theorem writeLevel_frame (v : BitVec 2) (s : State) :
    (writeLevel v s).pending = s.pending ∧ (writeLevel v s).variant = s.variant ∧ (writeLevel v s).otp = s.otp ∧
    (writeLevel v s).masters.length = s.masters.length ∧ (writeLevel v s).cores.channels.length = s.cores.channels.length ∧
    (writeLevel v s).store.cs = s.store.cs ∧ (writeLevel v s).store.csDev = s.store.csDev ∧
    (writeLevel v s).store.granules = s.store.granules ∧ (writeLevel v s).pins = s.pins ∧
    (writeLevel v s).stream = s.stream ∧ (writeLevel v s).power = s.power ∧ (writeLevel v s).loader = s.loader ∧
    (writeLevel v s).conservator = s.conservator ∧ (writeLevel v s).egress = s.egress ∧ (writeLevel v s).repair = s.repair ∧
    (writeLevel v s).shadow = s.shadow ∧ (writeLevel v s).inForce = s.inForce ∧ (writeLevel v s).otpRequest = s.otpRequest ∧
    (writeLevel v s).heldCommands = s.heldCommands ∧ (writeLevel v s).crossReads = s.crossReads := by
  unfold writeLevel
  first | (simp; done) | ((try dsimp only); (repeat' split) <;> first | (simp; done) | simp_all | (repeat' split) <;> simp)

@[simp] theorem setBarrierDir_frame (d : Dir) (x : BarrierDir) (s : State) :
    (setBarrierDir d x s).pending = s.pending ∧ (setBarrierDir d x s).variant = s.variant ∧
    (setBarrierDir d x s).otp = s.otp ∧ (setBarrierDir d x s).masters.length = s.masters.length ∧
    (setBarrierDir d x s).cores.channels.length = s.cores.channels.length ∧
    (setBarrierDir d x s).regs.debugLevel = s.regs.debugLevel ∧ (setBarrierDir d x s).store.cs = s.store.cs ∧
    (setBarrierDir d x s).store.csDev = s.store.csDev ∧ (setBarrierDir d x s).store.granules = s.store.granules ∧
    (setBarrierDir d x s).pins = s.pins ∧ (setBarrierDir d x s).stream = s.stream ∧ (setBarrierDir d x s).power = s.power ∧
    (setBarrierDir d x s).loader = s.loader ∧ (setBarrierDir d x s).conservator = s.conservator ∧
    (setBarrierDir d x s).egress = s.egress ∧ (setBarrierDir d x s).repair = s.repair ∧
    (setBarrierDir d x s).shadow = s.shadow ∧ (setBarrierDir d x s).inForce = s.inForce ∧
    (setBarrierDir d x s).otpRequest = s.otpRequest ∧ (setBarrierDir d x s).heldCommands = s.heldCommands ∧
    (setBarrierDir d x s).crossReads = s.crossReads := by
  unfold setBarrierDir
  first | (simp; done) | ((try dsimp only); (repeat' split) <;> first | (simp; done) | simp_all | (repeat' split) <;> simp)

@[simp] theorem refreshField_frame  (s : State) :
    (refreshField s).pending = s.pending ∧ (refreshField s).variant = s.variant ∧ (refreshField s).otp = s.otp ∧
    (refreshField s).masters.length = s.masters.length ∧ (refreshField s).cores.channels.length = s.cores.channels.length ∧
    (refreshField s).regs.debugLevel = s.regs.debugLevel ∧ (refreshField s).store.cs = s.store.cs ∧
    (refreshField s).store.csDev = s.store.csDev ∧ (refreshField s).store.granules = s.store.granules ∧
    (refreshField s).stream = s.stream ∧ (refreshField s).power = s.power ∧ (refreshField s).loader = s.loader ∧
    (refreshField s).conservator = s.conservator ∧ (refreshField s).egress = s.egress ∧ (refreshField s).repair = s.repair ∧
    (refreshField s).shadow = s.shadow ∧ (refreshField s).inForce = s.inForce ∧ (refreshField s).otpRequest = s.otpRequest ∧
    (refreshField s).heldCommands = s.heldCommands ∧ (refreshField s).crossReads = s.crossReads ∧
    (refreshField s).pins.pins.length = s.pins.pins.length := by
  unfold refreshField
  first | (simp; done) | ((try dsimp only); (repeat' split) <;> first | (simp; done) | simp_all | (repeat' split) <;> simp)

@[simp] theorem heard_frame (d : Dir) (s : State) :
    (heard d s).pending = s.pending ∧ (heard d s).variant = s.variant ∧ (heard d s).otp = s.otp ∧
    (heard d s).masters.length = s.masters.length ∧ (heard d s).cores.channels.length = s.cores.channels.length ∧
    (heard d s).regs.debugLevel = s.regs.debugLevel ∧ (heard d s).store.cs = s.store.cs ∧
    (heard d s).store.csDev = s.store.csDev ∧ (heard d s).store.granules = s.store.granules ∧
    (heard d s).stream = s.stream ∧ (heard d s).power = s.power ∧ (heard d s).loader = s.loader ∧
    (heard d s).conservator = s.conservator ∧ (heard d s).egress = s.egress ∧ (heard d s).repair = s.repair ∧
    (heard d s).shadow = s.shadow ∧ (heard d s).inForce = s.inForce ∧ (heard d s).otpRequest = s.otpRequest ∧
    (heard d s).heldCommands = s.heldCommands ∧ (heard d s).crossReads = s.crossReads ∧
    (heard d s).pins.pins.length = s.pins.pins.length := by
  unfold heard
  first | (simp; done) | ((try dsimp only); (repeat' split) <;> first | (simp; done) | simp_all | (repeat' split) <;> simp)

@[simp] theorem fieldSilence_frame  (s : State) :
    (fieldSilence s).pending = s.pending ∧ (fieldSilence s).variant = s.variant ∧ (fieldSilence s).otp = s.otp ∧
    (fieldSilence s).masters.length = s.masters.length ∧ (fieldSilence s).cores.channels.length = s.cores.channels.length ∧
    (fieldSilence s).regs.debugLevel = s.regs.debugLevel ∧ (fieldSilence s).store.cs = s.store.cs ∧
    (fieldSilence s).store.csDev = s.store.csDev ∧ (fieldSilence s).store.granules = s.store.granules ∧
    (fieldSilence s).pins = s.pins ∧ (fieldSilence s).stream = s.stream ∧ (fieldSilence s).power = s.power ∧
    (fieldSilence s).conservator = s.conservator ∧ (fieldSilence s).shadow = s.shadow ∧
    (fieldSilence s).inForce = s.inForce ∧ (fieldSilence s).otpRequest = s.otpRequest ∧
    (fieldSilence s).heldCommands = s.heldCommands ∧ (fieldSilence s).crossReads = s.crossReads := by
  unfold fieldSilence
  first | (simp; done) | ((try dsimp only); (repeat' split) <;> first | (simp; done) | simp_all | (repeat' split) <;> simp)

@[simp] theorem silence_frame (side : Side) (s : State) :
    (silence side s).pending = s.pending ∧ (silence side s).variant = s.variant ∧ (silence side s).otp = s.otp ∧
    (silence side s).masters.length = s.masters.length ∧ (silence side s).cores.channels.length = s.cores.channels.length ∧
    (silence side s).regs.debugLevel = s.regs.debugLevel ∧ (silence side s).store.cs = s.store.cs ∧
    (silence side s).store.csDev = s.store.csDev ∧ (silence side s).store.granules = s.store.granules ∧
    (silence side s).pins = s.pins ∧ (silence side s).stream = s.stream ∧ (silence side s).power = s.power ∧
    (silence side s).conservator = s.conservator ∧ (silence side s).shadow = s.shadow ∧
    (silence side s).inForce = s.inForce ∧ (silence side s).otpRequest = s.otpRequest ∧
    (silence side s).heldCommands = s.heldCommands ∧ (silence side s).crossReads = s.crossReads := by
  unfold silence
  first | (simp; done) | ((try dsimp only); (repeat' split) <;> first | (simp; done) | simp_all | (repeat' split) <;> simp)

@[simp] theorem laneFault_frame (d : Dir) (code : Nat) (s : State) :
    (laneFault d code s).pending = s.pending ∧ (laneFault d code s).variant = s.variant ∧ (laneFault d code s).otp = s.otp ∧
    (laneFault d code s).masters.length = s.masters.length ∧
    (laneFault d code s).cores.channels.length = s.cores.channels.length ∧
    (laneFault d code s).regs.debugLevel = s.regs.debugLevel ∧ (laneFault d code s).store.cs = s.store.cs ∧
    (laneFault d code s).store.csDev = s.store.csDev ∧ (laneFault d code s).store.granules = s.store.granules ∧
    (laneFault d code s).pins = s.pins ∧ (laneFault d code s).stream = s.stream ∧ (laneFault d code s).power = s.power ∧
    (laneFault d code s).loader = s.loader ∧ (laneFault d code s).conservator = s.conservator ∧
    (laneFault d code s).egress = s.egress ∧ (laneFault d code s).repair = s.repair ∧
    (laneFault d code s).shadow = s.shadow ∧ (laneFault d code s).inForce = s.inForce ∧
    (laneFault d code s).otpRequest = s.otpRequest ∧ (laneFault d code s).heldCommands = s.heldCommands ∧
    (laneFault d code s).crossReads = s.crossReads := by
  unfold laneFault
  first | (simp; done) | ((try dsimp only); (repeat' split) <;> first | (simp; done) | simp_all | (repeat' split) <;> simp)

@[simp] theorem laneOutcome_frame (d : Dir) (s : State) :
    (laneOutcome d s).pending = s.pending ∧ (laneOutcome d s).variant = s.variant ∧ (laneOutcome d s).otp = s.otp ∧
    (laneOutcome d s).masters.length = s.masters.length ∧
    (laneOutcome d s).cores.channels.length = s.cores.channels.length ∧
    (laneOutcome d s).regs.debugLevel = s.regs.debugLevel ∧ (laneOutcome d s).store.cs = s.store.cs ∧
    (laneOutcome d s).store.csDev = s.store.csDev ∧ (laneOutcome d s).store.granules = s.store.granules ∧
    (laneOutcome d s).pins = s.pins ∧ (laneOutcome d s).stream = s.stream ∧ (laneOutcome d s).power = s.power ∧
    (laneOutcome d s).conservator = s.conservator ∧ (laneOutcome d s).shadow = s.shadow ∧
    (laneOutcome d s).inForce = s.inForce ∧ (laneOutcome d s).otpRequest = s.otpRequest ∧
    (laneOutcome d s).heldCommands = s.heldCommands ∧ (laneOutcome d s).crossReads = s.crossReads := by
  unfold laneOutcome
  first | (simp; done) | ((try dsimp only); (repeat' split) <;> first | (simp; done) | simp_all | (repeat' split) <;> simp)

@[simp] theorem declareFailed_frame (d : Dir) (l : Nat) (s : State) :
    (declareFailed d l s).pending = s.pending ∧ (declareFailed d l s).variant = s.variant ∧
    (declareFailed d l s).otp = s.otp ∧ (declareFailed d l s).masters.length = s.masters.length ∧
    (declareFailed d l s).cores.channels.length = s.cores.channels.length ∧
    (declareFailed d l s).regs.debugLevel = s.regs.debugLevel ∧ (declareFailed d l s).store.cs = s.store.cs ∧
    (declareFailed d l s).store.csDev = s.store.csDev ∧ (declareFailed d l s).store.granules = s.store.granules ∧
    (declareFailed d l s).pins = s.pins ∧ (declareFailed d l s).stream = s.stream ∧ (declareFailed d l s).power = s.power ∧
    (declareFailed d l s).loader = s.loader ∧ (declareFailed d l s).conservator = s.conservator ∧
    (declareFailed d l s).egress = s.egress ∧ (declareFailed d l s).repair = s.repair ∧
    (declareFailed d l s).shadow = s.shadow ∧ (declareFailed d l s).inForce = s.inForce ∧
    (declareFailed d l s).otpRequest = s.otpRequest ∧ (declareFailed d l s).heldCommands = s.heldCommands ∧
    (declareFailed d l s).crossReads = s.crossReads := by
  unfold declareFailed
  first | (simp; done) | ((try dsimp only); (repeat' split) <;> first | (simp; done) | simp_all | (repeat' split) <;> simp)

@[simp] theorem deliverCell_frame (d : Dir) (m : Msg) (s : State) :
    (deliverCell d m s).pending = s.pending ∧ (deliverCell d m s).variant = s.variant ∧ (deliverCell d m s).otp = s.otp ∧
    (deliverCell d m s).masters.length = s.masters.length ∧
    (deliverCell d m s).cores.channels.length = s.cores.channels.length ∧
    (deliverCell d m s).regs.debugLevel = s.regs.debugLevel ∧ (deliverCell d m s).store.cs = s.store.cs ∧
    (deliverCell d m s).store.csDev = s.store.csDev ∧ (deliverCell d m s).store.granules = s.store.granules ∧
    (deliverCell d m s).pins = s.pins ∧ (deliverCell d m s).stream = s.stream ∧ (deliverCell d m s).power = s.power ∧
    (deliverCell d m s).loader = s.loader ∧ (deliverCell d m s).conservator = s.conservator ∧
    (deliverCell d m s).egress = s.egress ∧ (deliverCell d m s).repair = s.repair ∧ (deliverCell d m s).shadow = s.shadow ∧
    (deliverCell d m s).inForce = s.inForce ∧ (deliverCell d m s).otpRequest = s.otpRequest ∧
    (deliverCell d m s).heldCommands = s.heldCommands ∧ (deliverCell d m s).crossReads = s.crossReads := by
  unfold deliverCell
  first | (simp; done) | ((try dsimp only); (repeat' split) <;> first | (simp; done) | simp_all | (repeat' split) <;> simp)

@[simp] theorem deliverHeld_frame (d : Dir) (n : Nat) (s : State) :
    (deliverHeld d n s).pending = s.pending ∧ (deliverHeld d n s).variant = s.variant ∧ (deliverHeld d n s).otp = s.otp ∧
    (deliverHeld d n s).masters.length = s.masters.length ∧
    (deliverHeld d n s).cores.channels.length = s.cores.channels.length ∧
    (deliverHeld d n s).regs.debugLevel = s.regs.debugLevel ∧ (deliverHeld d n s).store.cs = s.store.cs ∧
    (deliverHeld d n s).store.csDev = s.store.csDev ∧ (deliverHeld d n s).store.granules = s.store.granules ∧
    (deliverHeld d n s).pins = s.pins ∧ (deliverHeld d n s).stream = s.stream ∧ (deliverHeld d n s).power = s.power ∧
    (deliverHeld d n s).loader = s.loader ∧ (deliverHeld d n s).conservator = s.conservator ∧
    (deliverHeld d n s).egress = s.egress ∧ (deliverHeld d n s).repair = s.repair ∧ (deliverHeld d n s).shadow = s.shadow ∧
    (deliverHeld d n s).inForce = s.inForce ∧ (deliverHeld d n s).otpRequest = s.otpRequest ∧
    (deliverHeld d n s).heldCommands = s.heldCommands ∧ (deliverHeld d n s).crossReads = s.crossReads := by
  induction n generalizing s with
  | zero => simp [deliverHeld]
  | succ _ ih => (unfold deliverHeld; first | (simp [ih]; done) | ((try dsimp only); (repeat' split) <;> first | rfl | (simp [ih]; done)))

@[simp] theorem takeCell_frame (d : Dir) (c : Cell) (s : State) :
    (takeCell d c s).pending = s.pending ∧ (takeCell d c s).variant = s.variant ∧ (takeCell d c s).otp = s.otp ∧
    (takeCell d c s).masters.length = s.masters.length ∧ (takeCell d c s).cores.channels.length = s.cores.channels.length ∧
    (takeCell d c s).regs.debugLevel = s.regs.debugLevel ∧ (takeCell d c s).store.cs = s.store.cs ∧
    (takeCell d c s).store.csDev = s.store.csDev ∧ (takeCell d c s).store.granules = s.store.granules ∧
    (takeCell d c s).pins = s.pins ∧ (takeCell d c s).stream = s.stream ∧ (takeCell d c s).power = s.power ∧
    (takeCell d c s).loader = s.loader ∧ (takeCell d c s).conservator = s.conservator ∧ (takeCell d c s).egress = s.egress ∧
    (takeCell d c s).repair = s.repair ∧ (takeCell d c s).shadow = s.shadow ∧ (takeCell d c s).inForce = s.inForce ∧
    (takeCell d c s).otpRequest = s.otpRequest ∧ (takeCell d c s).heldCommands = s.heldCommands ∧
    (takeCell d c s).crossReads = s.crossReads := by
  unfold takeCell
  first | (simp; done) | ((try dsimp only); (repeat' split) <;> first | (simp; done) | simp_all | (repeat' split) <;> simp)

@[simp] theorem badCell_frame (d : Dir) (l : Nat) (s : State) :
    (badCell d l s).pending = s.pending ∧ (badCell d l s).variant = s.variant ∧ (badCell d l s).otp = s.otp ∧
    (badCell d l s).masters.length = s.masters.length ∧ (badCell d l s).cores.channels.length = s.cores.channels.length ∧
    (badCell d l s).regs.debugLevel = s.regs.debugLevel ∧ (badCell d l s).store.cs = s.store.cs ∧
    (badCell d l s).store.csDev = s.store.csDev ∧ (badCell d l s).store.granules = s.store.granules ∧
    (badCell d l s).pins = s.pins ∧ (badCell d l s).stream = s.stream ∧ (badCell d l s).power = s.power ∧
    (badCell d l s).loader = s.loader ∧ (badCell d l s).conservator = s.conservator ∧ (badCell d l s).egress = s.egress ∧
    (badCell d l s).repair = s.repair ∧ (badCell d l s).shadow = s.shadow ∧ (badCell d l s).inForce = s.inForce ∧
    (badCell d l s).otpRequest = s.otpRequest ∧ (badCell d l s).heldCommands = s.heldCommands ∧
    (badCell d l s).crossReads = s.crossReads := by
  unfold badCell
  first | (simp; done) | ((try dsimp only); (repeat' split) <;> first | (simp; done) | simp_all | (repeat' split) <;> simp)

@[simp] theorem receiveCell_frame (d : Dir) (l : Nat) (c : Cell) (s0 : State) :
    (receiveCell d l c s0).pending = s0.pending ∧ (receiveCell d l c s0).variant = s0.variant ∧
    (receiveCell d l c s0).otp = s0.otp ∧ (receiveCell d l c s0).masters.length = s0.masters.length ∧
    (receiveCell d l c s0).cores.channels.length = s0.cores.channels.length ∧
    (receiveCell d l c s0).regs.debugLevel = s0.regs.debugLevel ∧ (receiveCell d l c s0).store.cs = s0.store.cs ∧
    (receiveCell d l c s0).store.csDev = s0.store.csDev ∧ (receiveCell d l c s0).store.granules = s0.store.granules ∧
    (receiveCell d l c s0).stream = s0.stream ∧ (receiveCell d l c s0).power = s0.power ∧
    (receiveCell d l c s0).loader = s0.loader ∧ (receiveCell d l c s0).conservator = s0.conservator ∧
    (receiveCell d l c s0).egress = s0.egress ∧ (receiveCell d l c s0).repair = s0.repair ∧
    (receiveCell d l c s0).shadow = s0.shadow ∧ (receiveCell d l c s0).inForce = s0.inForce ∧
    (receiveCell d l c s0).otpRequest = s0.otpRequest ∧ (receiveCell d l c s0).heldCommands = s0.heldCommands ∧
    (receiveCell d l c s0).crossReads = s0.crossReads ∧ (receiveCell d l c s0).pins.pins.length = s0.pins.pins.length := by
  unfold receiveCell
  first | (simp; done) | ((try dsimp only); (repeat' split) <;> first | (simp; done) | simp_all | (repeat' split) <;> simp)

@[simp] theorem popDir_frame (d : Dir) (typ : Nat) (s : State) :
    (popDir d typ s).pending = s.pending ∧ (popDir d typ s).variant = s.variant ∧ (popDir d typ s).otp = s.otp ∧
    (popDir d typ s).masters.length = s.masters.length ∧ (popDir d typ s).cores.channels.length = s.cores.channels.length ∧
    (popDir d typ s).regs.debugLevel = s.regs.debugLevel ∧ (popDir d typ s).store.cs = s.store.cs ∧
    (popDir d typ s).store.csDev = s.store.csDev ∧ (popDir d typ s).store.granules = s.store.granules ∧
    (popDir d typ s).pins = s.pins ∧ (popDir d typ s).stream = s.stream ∧ (popDir d typ s).power = s.power ∧
    (popDir d typ s).loader = s.loader ∧ (popDir d typ s).conservator = s.conservator ∧ (popDir d typ s).egress = s.egress ∧
    (popDir d typ s).repair = s.repair ∧ (popDir d typ s).shadow = s.shadow ∧ (popDir d typ s).inForce = s.inForce ∧
    (popDir d typ s).otpRequest = s.otpRequest ∧ (popDir d typ s).heldCommands = s.heldCommands ∧
    (popDir d typ s).crossReads = s.crossReads := by
  unfold popDir
  first | (simp; done) | ((try dsimp only); (repeat' split) <;> first | (simp; done) | simp_all | (repeat' split) <;> simp)

@[simp] theorem mirrorEvent_frame (addr : Nat) (old new : Word) (s : State) :
    (mirrorEvent addr old new s).pending = s.pending ∧ (mirrorEvent addr old new s).variant = s.variant ∧
    (mirrorEvent addr old new s).otp = s.otp ∧ (mirrorEvent addr old new s).masters.length = s.masters.length ∧
    (mirrorEvent addr old new s).cores.channels.length = s.cores.channels.length ∧
    (mirrorEvent addr old new s).regs.debugLevel = s.regs.debugLevel ∧ (mirrorEvent addr old new s).store.cs = s.store.cs ∧
    (mirrorEvent addr old new s).store.csDev = s.store.csDev ∧
    (mirrorEvent addr old new s).store.granules = s.store.granules ∧ (mirrorEvent addr old new s).pins = s.pins ∧
    (mirrorEvent addr old new s).stream = s.stream ∧ (mirrorEvent addr old new s).power = s.power ∧
    (mirrorEvent addr old new s).loader = s.loader ∧ (mirrorEvent addr old new s).conservator = s.conservator ∧
    (mirrorEvent addr old new s).egress = s.egress ∧ (mirrorEvent addr old new s).repair = s.repair ∧
    (mirrorEvent addr old new s).shadow = s.shadow ∧ (mirrorEvent addr old new s).inForce = s.inForce ∧
    (mirrorEvent addr old new s).otpRequest = s.otpRequest ∧ (mirrorEvent addr old new s).heldCommands = s.heldCommands ∧
    (mirrorEvent addr old new s).crossReads = s.crossReads := by
  unfold mirrorEvent
  first | (simp; done) | ((try dsimp only); (repeat' split) <;> first | (simp; done) | simp_all | (repeat' split) <;> simp)

@[simp] theorem reportStatus_frame (addr : Nat) (data : Word) (s : State) :
    (reportStatus addr data s).pending = s.pending ∧ (reportStatus addr data s).variant = s.variant ∧
    (reportStatus addr data s).otp = s.otp ∧ (reportStatus addr data s).masters.length = s.masters.length ∧
    (reportStatus addr data s).cores.channels.length = s.cores.channels.length ∧
    (reportStatus addr data s).regs.debugLevel = s.regs.debugLevel ∧ (reportStatus addr data s).store.cs = s.store.cs ∧
    (reportStatus addr data s).store.csDev = s.store.csDev ∧ (reportStatus addr data s).store.granules = s.store.granules ∧
    (reportStatus addr data s).pins = s.pins ∧ (reportStatus addr data s).stream = s.stream ∧
    (reportStatus addr data s).power = s.power ∧ (reportStatus addr data s).loader = s.loader ∧
    (reportStatus addr data s).conservator = s.conservator ∧ (reportStatus addr data s).egress = s.egress ∧
    (reportStatus addr data s).repair = s.repair ∧ (reportStatus addr data s).shadow = s.shadow ∧
    (reportStatus addr data s).inForce = s.inForce ∧ (reportStatus addr data s).otpRequest = s.otpRequest ∧
    (reportStatus addr data s).heldCommands = s.heldCommands ∧ (reportStatus addr data s).crossReads = s.crossReads := by
  unfold reportStatus
  first | (simp; done) | ((try dsimp only); (repeat' split) <;> first | (simp; done) | simp_all | (repeat' split) <;> simp)

@[simp] theorem failRead_frame (m : Master) (s : State) :
    (failRead m s).pending = s.pending ∧ (failRead m s).variant = s.variant ∧ (failRead m s).otp = s.otp ∧
    (failRead m s).masters.length = s.masters.length ∧ (failRead m s).cores.channels.length = s.cores.channels.length ∧
    (failRead m s).regs.debugLevel = s.regs.debugLevel ∧ (failRead m s).store.cs = s.store.cs ∧
    (failRead m s).store.csDev = s.store.csDev ∧ (failRead m s).store.granules = s.store.granules ∧
    (failRead m s).pins = s.pins ∧ (failRead m s).stream = s.stream ∧ (failRead m s).power = s.power ∧
    (failRead m s).loader = s.loader ∧ (failRead m s).conservator = s.conservator ∧ (failRead m s).egress = s.egress ∧
    (failRead m s).repair = s.repair ∧ (failRead m s).shadow = s.shadow ∧ (failRead m s).inForce = s.inForce ∧
    (failRead m s).otpRequest = s.otpRequest ∧ (failRead m s).heldCommands = s.heldCommands := by
  unfold failRead
  first | (simp; done) | ((try dsimp only); (repeat' split) <;> first | (simp; done) | simp_all | (repeat' split) <;> simp)

@[simp] theorem countDiscarded_frame  (s : State) :
    (countDiscarded s).pending = s.pending ∧ (countDiscarded s).variant = s.variant ∧ (countDiscarded s).otp = s.otp ∧
    (countDiscarded s).masters.length = s.masters.length ∧
    (countDiscarded s).cores.channels.length = s.cores.channels.length ∧
    (countDiscarded s).regs.debugLevel = s.regs.debugLevel ∧ (countDiscarded s).store.cs = s.store.cs ∧
    (countDiscarded s).store.csDev = s.store.csDev ∧ (countDiscarded s).store.granules = s.store.granules ∧
    (countDiscarded s).pins = s.pins ∧ (countDiscarded s).stream = s.stream ∧ (countDiscarded s).power = s.power ∧
    (countDiscarded s).conservator = s.conservator ∧ (countDiscarded s).egress = s.egress ∧
    (countDiscarded s).repair = s.repair ∧ (countDiscarded s).shadow = s.shadow ∧ (countDiscarded s).inForce = s.inForce ∧
    (countDiscarded s).otpRequest = s.otpRequest ∧ (countDiscarded s).heldCommands = s.heldCommands ∧
    (countDiscarded s).crossReads = s.crossReads := by
  unfold countDiscarded
  first | (simp; done) | ((try dsimp only); (repeat' split) <;> first | (simp; done) | simp_all | (repeat' split) <;> simp)

@[simp] theorem countFailed_frame  (s : State) :
    (countFailed s).pending = s.pending ∧ (countFailed s).variant = s.variant ∧ (countFailed s).otp = s.otp ∧
    (countFailed s).masters.length = s.masters.length ∧ (countFailed s).cores.channels.length = s.cores.channels.length ∧
    (countFailed s).regs.debugLevel = s.regs.debugLevel ∧ (countFailed s).store.cs = s.store.cs ∧
    (countFailed s).store.csDev = s.store.csDev ∧ (countFailed s).store.granules = s.store.granules ∧
    (countFailed s).pins = s.pins ∧ (countFailed s).stream = s.stream ∧ (countFailed s).power = s.power ∧
    (countFailed s).conservator = s.conservator ∧ (countFailed s).egress = s.egress ∧ (countFailed s).repair = s.repair ∧
    (countFailed s).shadow = s.shadow ∧ (countFailed s).inForce = s.inForce ∧ (countFailed s).otpRequest = s.otpRequest ∧
    (countFailed s).heldCommands = s.heldCommands ∧ (countFailed s).crossReads = s.crossReads := by
  unfold countFailed
  first | (simp; done) | ((try dsimp only); (repeat' split) <;> first | (simp; done) | simp_all | (repeat' split) <;> simp)

@[simp] theorem countDropped_frame  (s : State) :
    (countDropped s).pending = s.pending ∧ (countDropped s).variant = s.variant ∧ (countDropped s).otp = s.otp ∧
    (countDropped s).masters.length = s.masters.length ∧ (countDropped s).cores.channels.length = s.cores.channels.length ∧
    (countDropped s).regs.debugLevel = s.regs.debugLevel ∧ (countDropped s).store.cs = s.store.cs ∧
    (countDropped s).store.csDev = s.store.csDev ∧ (countDropped s).store.granules = s.store.granules ∧
    (countDropped s).pins = s.pins ∧ (countDropped s).stream = s.stream ∧ (countDropped s).power = s.power ∧
    (countDropped s).conservator = s.conservator ∧ (countDropped s).egress = s.egress ∧ (countDropped s).repair = s.repair ∧
    (countDropped s).shadow = s.shadow ∧ (countDropped s).inForce = s.inForce ∧ (countDropped s).otpRequest = s.otpRequest ∧
    (countDropped s).heldCommands = s.heldCommands ∧ (countDropped s).crossReads = s.crossReads := by
  unfold countDropped
  first | (simp; done) | ((try dsimp only); (repeat' split) <;> first | (simp; done) | simp_all | (repeat' split) <;> simp)

@[simp] theorem writeRepeats_frame (n : Nat) (s : State) :
    (writeRepeats n s).pending = s.pending ∧ (writeRepeats n s).variant = s.variant ∧ (writeRepeats n s).otp = s.otp ∧
    (writeRepeats n s).masters.length = s.masters.length ∧
    (writeRepeats n s).cores.channels.length = s.cores.channels.length ∧
    (writeRepeats n s).regs.debugLevel = s.regs.debugLevel ∧ (writeRepeats n s).store.cs = s.store.cs ∧
    (writeRepeats n s).store.csDev = s.store.csDev ∧ (writeRepeats n s).store.granules = s.store.granules ∧
    (writeRepeats n s).pins = s.pins ∧ (writeRepeats n s).power = s.power ∧ (writeRepeats n s).conservator = s.conservator ∧
    (writeRepeats n s).egress = s.egress ∧ (writeRepeats n s).repair = s.repair ∧ (writeRepeats n s).shadow = s.shadow ∧
    (writeRepeats n s).inForce = s.inForce ∧ (writeRepeats n s).otpRequest = s.otpRequest ∧
    (writeRepeats n s).heldCommands = s.heldCommands ∧ (writeRepeats n s).crossReads = s.crossReads := by
  induction n generalizing s with
  | zero => simp [writeRepeats]
  | succ _ ih => (unfold writeRepeats; first | (simp [ih]; done) | ((try dsimp only); (repeat' split) <;> first | rfl | (simp [ih]; done)))

@[simp] theorem drainRepeats_frame  (s : State) :
    (drainRepeats s).pending = s.pending ∧ (drainRepeats s).variant = s.variant ∧ (drainRepeats s).otp = s.otp ∧
    (drainRepeats s).masters.length = s.masters.length ∧ (drainRepeats s).cores.channels.length = s.cores.channels.length ∧
    (drainRepeats s).regs.debugLevel = s.regs.debugLevel ∧ (drainRepeats s).store.cs = s.store.cs ∧
    (drainRepeats s).store.csDev = s.store.csDev ∧ (drainRepeats s).store.granules = s.store.granules ∧
    (drainRepeats s).pins = s.pins ∧ (drainRepeats s).power = s.power ∧ (drainRepeats s).conservator = s.conservator ∧
    (drainRepeats s).egress = s.egress ∧ (drainRepeats s).repair = s.repair ∧ (drainRepeats s).shadow = s.shadow ∧
    (drainRepeats s).inForce = s.inForce ∧ (drainRepeats s).otpRequest = s.otpRequest ∧
    (drainRepeats s).heldCommands = s.heldCommands ∧ (drainRepeats s).crossReads = s.crossReads := by
  unfold drainRepeats
  first | (simp; done) | ((try dsimp only); (repeat' split) <;> first | (simp; done) | simp_all | (repeat' split) <;> simp)

@[simp] theorem requestRepeat_frame (n reason : Nat) (s : State) :
    (requestRepeat n reason s).pending = s.pending ∧ (requestRepeat n reason s).variant = s.variant ∧
    (requestRepeat n reason s).otp = s.otp ∧ (requestRepeat n reason s).masters.length = s.masters.length ∧
    (requestRepeat n reason s).cores.channels.length = s.cores.channels.length ∧
    (requestRepeat n reason s).regs.debugLevel = s.regs.debugLevel ∧ (requestRepeat n reason s).store.cs = s.store.cs ∧
    (requestRepeat n reason s).store.csDev = s.store.csDev ∧ (requestRepeat n reason s).store.granules = s.store.granules ∧
    (requestRepeat n reason s).pins = s.pins ∧ (requestRepeat n reason s).power = s.power ∧
    (requestRepeat n reason s).conservator = s.conservator ∧ (requestRepeat n reason s).egress = s.egress ∧
    (requestRepeat n reason s).repair = s.repair ∧ (requestRepeat n reason s).shadow = s.shadow ∧
    (requestRepeat n reason s).inForce = s.inForce ∧ (requestRepeat n reason s).otpRequest = s.otpRequest ∧
    (requestRepeat n reason s).heldCommands = s.heldCommands ∧ (requestRepeat n reason s).crossReads = s.crossReads := by
  unfold requestRepeat
  first | (simp; done) | ((try dsimp only); (repeat' split) <;> first | (simp; done) | simp_all | (repeat' split) <;> simp)

@[simp] theorem writeRcons_frame (v : DWord) (s : State) :
    (writeRcons v s).pending = s.pending ∧ (writeRcons v s).variant = s.variant ∧ (writeRcons v s).otp = s.otp ∧
    (writeRcons v s).masters.length = s.masters.length ∧ (writeRcons v s).cores.channels.length = s.cores.channels.length ∧
    (writeRcons v s).regs.debugLevel = s.regs.debugLevel ∧ (writeRcons v s).store.cs = s.store.cs ∧
    (writeRcons v s).store.csDev = s.store.csDev ∧ (writeRcons v s).store.granules = s.store.granules ∧
    (writeRcons v s).pins = s.pins ∧ (writeRcons v s).power = s.power ∧ (writeRcons v s).conservator = s.conservator ∧
    (writeRcons v s).egress = s.egress ∧ (writeRcons v s).repair = s.repair ∧ (writeRcons v s).shadow = s.shadow ∧
    (writeRcons v s).inForce = s.inForce ∧ (writeRcons v s).otpRequest = s.otpRequest ∧
    (writeRcons v s).heldCommands = s.heldCommands ∧ (writeRcons v s).crossReads = s.crossReads := by
  unfold writeRcons
  first | (simp; done) | ((try dsimp only); (repeat' split) <;> first | (simp; done) | simp_all | (repeat' split) <;> simp)

@[simp] theorem writeRsize_frame (v : BitVec 5) (s : State) :
    (writeRsize v s).pending = s.pending ∧ (writeRsize v s).variant = s.variant ∧ (writeRsize v s).otp = s.otp ∧
    (writeRsize v s).masters.length = s.masters.length ∧ (writeRsize v s).cores.channels.length = s.cores.channels.length ∧
    (writeRsize v s).regs.debugLevel = s.regs.debugLevel ∧ (writeRsize v s).store.cs = s.store.cs ∧
    (writeRsize v s).store.csDev = s.store.csDev ∧ (writeRsize v s).store.granules = s.store.granules ∧
    (writeRsize v s).pins = s.pins ∧ (writeRsize v s).power = s.power ∧ (writeRsize v s).conservator = s.conservator ∧
    (writeRsize v s).egress = s.egress ∧ (writeRsize v s).repair = s.repair ∧ (writeRsize v s).shadow = s.shadow ∧
    (writeRsize v s).inForce = s.inForce ∧ (writeRsize v s).otpRequest = s.otpRequest ∧
    (writeRsize v s).heldCommands = s.heldCommands ∧ (writeRsize v s).crossReads = s.crossReads := by
  unfold writeRsize
  first | (simp; done) | ((try dsimp only); (repeat' split) <;> first | (simp; done) | simp_all | (repeat' split) <;> simp)

@[simp] theorem sendParts_frame (f p : Nat) (bs : List Byte) (n : Nat) (s : State) :
    (sendParts f p bs n s).pending = s.pending ∧ (sendParts f p bs n s).variant = s.variant ∧
    (sendParts f p bs n s).otp = s.otp ∧ (sendParts f p bs n s).masters.length = s.masters.length ∧
    (sendParts f p bs n s).cores.channels.length = s.cores.channels.length ∧
    (sendParts f p bs n s).regs.debugLevel = s.regs.debugLevel ∧ (sendParts f p bs n s).store.cs = s.store.cs ∧
    (sendParts f p bs n s).store.csDev = s.store.csDev ∧ (sendParts f p bs n s).store.granules = s.store.granules ∧
    (sendParts f p bs n s).pins = s.pins ∧ (sendParts f p bs n s).stream = s.stream ∧
    (sendParts f p bs n s).power = s.power ∧ (sendParts f p bs n s).loader = s.loader ∧
    (sendParts f p bs n s).conservator = s.conservator ∧ (sendParts f p bs n s).egress = s.egress ∧
    (sendParts f p bs n s).repair = s.repair ∧ (sendParts f p bs n s).shadow = s.shadow ∧
    (sendParts f p bs n s).inForce = s.inForce ∧ (sendParts f p bs n s).otpRequest = s.otpRequest ∧
    (sendParts f p bs n s).heldCommands = s.heldCommands ∧ (sendParts f p bs n s).crossReads = s.crossReads := by
  induction n generalizing p bs s with
  | zero => simp [sendParts]
  | succ _ ih => (unfold sendParts; first | (simp [ih]; done) | ((try dsimp only); (repeat' split) <;> first | rfl | (simp [ih]; done)))

@[simp] theorem sendFrame_frame (f : HeldFrame) (e : SectionEntry) (s : State) :
    (sendFrame f e s).pending = s.pending ∧ (sendFrame f e s).variant = s.variant ∧ (sendFrame f e s).otp = s.otp ∧
    (sendFrame f e s).masters.length = s.masters.length ∧
    (sendFrame f e s).cores.channels.length = s.cores.channels.length ∧
    (sendFrame f e s).regs.debugLevel = s.regs.debugLevel ∧ (sendFrame f e s).store.cs = s.store.cs ∧
    (sendFrame f e s).store.csDev = s.store.csDev ∧ (sendFrame f e s).store.granules = s.store.granules ∧
    (sendFrame f e s).pins = s.pins ∧ (sendFrame f e s).stream = s.stream ∧ (sendFrame f e s).power = s.power ∧
    (sendFrame f e s).conservator = s.conservator ∧ (sendFrame f e s).egress = s.egress ∧
    (sendFrame f e s).repair = s.repair ∧ (sendFrame f e s).shadow = s.shadow ∧ (sendFrame f e s).inForce = s.inForce ∧
    (sendFrame f e s).otpRequest = s.otpRequest ∧ (sendFrame f e s).heldCommands = s.heldCommands ∧
    (sendFrame f e s).crossReads = s.crossReads := by
  unfold sendFrame
  first | (simp; done) | ((try dsimp only); (repeat' split) <;> first | (simp; done) | simp_all | (repeat' split) <;> simp)

@[simp] theorem noteContent_frame (f : HeldFrame) (e : SectionEntry) (s : State) :
    (noteContent f e s).pending = s.pending ∧ (noteContent f e s).variant = s.variant ∧ (noteContent f e s).otp = s.otp ∧
    (noteContent f e s).masters.length = s.masters.length ∧
    (noteContent f e s).cores.channels.length = s.cores.channels.length ∧
    (noteContent f e s).regs.debugLevel = s.regs.debugLevel ∧ (noteContent f e s).store.cs = s.store.cs ∧
    (noteContent f e s).store.csDev = s.store.csDev ∧ (noteContent f e s).store.granules = s.store.granules ∧
    (noteContent f e s).pins = s.pins ∧ (noteContent f e s).stream = s.stream ∧ (noteContent f e s).power = s.power ∧
    (noteContent f e s).conservator = s.conservator ∧ (noteContent f e s).egress = s.egress ∧
    (noteContent f e s).repair = s.repair ∧ (noteContent f e s).shadow = s.shadow ∧
    (noteContent f e s).inForce = s.inForce ∧ (noteContent f e s).otpRequest = s.otpRequest ∧
    (noteContent f e s).heldCommands = s.heldCommands ∧ (noteContent f e s).crossReads = s.crossReads := by
  unfold noteContent
  first | (simp; done) | ((try dsimp only); (repeat' split) <;> first | (simp; done) | simp_all | (repeat' split) <;> simp)

@[simp] theorem dispatchFrame_frame (f : HeldFrame) (s : State) :
    (dispatchFrame f s).pending = s.pending ∧ (dispatchFrame f s).variant = s.variant ∧ (dispatchFrame f s).otp = s.otp ∧
    (dispatchFrame f s).masters.length = s.masters.length ∧
    (dispatchFrame f s).cores.channels.length = s.cores.channels.length ∧
    (dispatchFrame f s).regs.debugLevel = s.regs.debugLevel ∧ (dispatchFrame f s).store.cs = s.store.cs ∧
    (dispatchFrame f s).store.csDev = s.store.csDev ∧ (dispatchFrame f s).store.granules = s.store.granules ∧
    (dispatchFrame f s).pins = s.pins ∧ (dispatchFrame f s).stream = s.stream ∧ (dispatchFrame f s).power = s.power ∧
    (dispatchFrame f s).conservator = s.conservator ∧ (dispatchFrame f s).shadow = s.shadow ∧
    (dispatchFrame f s).inForce = s.inForce ∧ (dispatchFrame f s).otpRequest = s.otpRequest ∧
    (dispatchFrame f s).heldCommands = s.heldCommands ∧ (dispatchFrame f s).crossReads = s.crossReads := by
  unfold dispatchFrame
  first | (simp; done) | ((try dsimp only); (repeat' split) <;> first | (simp; done) | simp_all | (repeat' split) <;> simp)

@[simp] theorem dispatchHeld_frame  (s : State) :
    (dispatchHeld s).pending = s.pending ∧ (dispatchHeld s).variant = s.variant ∧ (dispatchHeld s).otp = s.otp ∧
    (dispatchHeld s).masters.length = s.masters.length ∧ (dispatchHeld s).cores.channels.length = s.cores.channels.length ∧
    (dispatchHeld s).regs.debugLevel = s.regs.debugLevel ∧ (dispatchHeld s).store.cs = s.store.cs ∧
    (dispatchHeld s).store.csDev = s.store.csDev ∧ (dispatchHeld s).store.granules = s.store.granules ∧
    (dispatchHeld s).pins = s.pins ∧ (dispatchHeld s).stream = s.stream ∧ (dispatchHeld s).power = s.power ∧
    (dispatchHeld s).conservator = s.conservator ∧ (dispatchHeld s).shadow = s.shadow ∧
    (dispatchHeld s).inForce = s.inForce ∧ (dispatchHeld s).otpRequest = s.otpRequest ∧
    (dispatchHeld s).heldCommands = s.heldCommands ∧ (dispatchHeld s).crossReads = s.crossReads := by
  unfold dispatchHeld
  first | (simp; done) | ((try dsimp only); (repeat' split) <;> first | (simp; done) | simp_all | (repeat' split) <;> simp)

@[simp] theorem decideManifest_frame (m : List Byte) (s : State) :
    (decideManifest m s).pending = s.pending ∧ (decideManifest m s).variant = s.variant ∧ (decideManifest m s).otp = s.otp ∧
    (decideManifest m s).masters.length = s.masters.length ∧
    (decideManifest m s).cores.channels.length = s.cores.channels.length ∧
    (decideManifest m s).regs.debugLevel = s.regs.debugLevel ∧ (decideManifest m s).store.cs = s.store.cs ∧
    (decideManifest m s).store.csDev = s.store.csDev ∧ (decideManifest m s).store.granules = s.store.granules ∧
    (decideManifest m s).pins = s.pins ∧ (decideManifest m s).stream = s.stream ∧ (decideManifest m s).power = s.power ∧
    (decideManifest m s).conservator = s.conservator ∧ (decideManifest m s).shadow = s.shadow ∧
    (decideManifest m s).inForce = s.inForce ∧ (decideManifest m s).otpRequest = s.otpRequest ∧
    (decideManifest m s).heldCommands = s.heldCommands ∧ (decideManifest m s).crossReads = s.crossReads := by
  unfold decideManifest
  first | (simp; done) | ((try dsimp only); (repeat' split) <;> first | (simp; done) | simp_all | (repeat' split) <;> simp)

@[simp] theorem noteManifest_frame  (s : State) :
    (noteManifest s).pending = s.pending ∧ (noteManifest s).variant = s.variant ∧ (noteManifest s).otp = s.otp ∧
    (noteManifest s).masters.length = s.masters.length ∧ (noteManifest s).cores.channels.length = s.cores.channels.length ∧
    (noteManifest s).regs.debugLevel = s.regs.debugLevel ∧ (noteManifest s).store.cs = s.store.cs ∧
    (noteManifest s).store.csDev = s.store.csDev ∧ (noteManifest s).store.granules = s.store.granules ∧
    (noteManifest s).pins = s.pins ∧ (noteManifest s).stream = s.stream ∧ (noteManifest s).power = s.power ∧
    (noteManifest s).conservator = s.conservator ∧ (noteManifest s).shadow = s.shadow ∧
    (noteManifest s).inForce = s.inForce ∧ (noteManifest s).otpRequest = s.otpRequest ∧
    (noteManifest s).heldCommands = s.heldCommands ∧ (noteManifest s).crossReads = s.crossReads := by
  unfold noteManifest
  first | (simp; done) | ((try dsimp only); (repeat' split) <;> first | (simp; done) | simp_all | (repeat' split) <;> simp)

@[simp] theorem askMissing_frame  (s : State) :
    (askMissing s).pending = s.pending ∧ (askMissing s).variant = s.variant ∧ (askMissing s).otp = s.otp ∧
    (askMissing s).masters.length = s.masters.length ∧ (askMissing s).cores.channels.length = s.cores.channels.length ∧
    (askMissing s).regs.debugLevel = s.regs.debugLevel ∧ (askMissing s).store.cs = s.store.cs ∧
    (askMissing s).store.csDev = s.store.csDev ∧ (askMissing s).store.granules = s.store.granules ∧
    (askMissing s).pins = s.pins ∧ (askMissing s).power = s.power ∧ (askMissing s).conservator = s.conservator ∧
    (askMissing s).egress = s.egress ∧ (askMissing s).repair = s.repair ∧ (askMissing s).shadow = s.shadow ∧
    (askMissing s).inForce = s.inForce ∧ (askMissing s).otpRequest = s.otpRequest ∧
    (askMissing s).heldCommands = s.heldCommands ∧ (askMissing s).crossReads = s.crossReads := by
  unfold askMissing
  first | (simp; done) | ((try dsimp only); (repeat' split) <;> first | (simp; done) | simp_all | (repeat' split) <;> simp)

@[simp] theorem holdFrame_frame (h : BitVec 256) (area : List Byte) (s : State) :
    (holdFrame h area s).pending = s.pending ∧ (holdFrame h area s).variant = s.variant ∧ (holdFrame h area s).otp = s.otp ∧
    (holdFrame h area s).masters.length = s.masters.length ∧
    (holdFrame h area s).cores.channels.length = s.cores.channels.length ∧
    (holdFrame h area s).regs.debugLevel = s.regs.debugLevel ∧ (holdFrame h area s).store.cs = s.store.cs ∧
    (holdFrame h area s).store.csDev = s.store.csDev ∧ (holdFrame h area s).store.granules = s.store.granules ∧
    (holdFrame h area s).pins = s.pins ∧ (holdFrame h area s).power = s.power ∧
    (holdFrame h area s).conservator = s.conservator ∧ (holdFrame h area s).shadow = s.shadow ∧
    (holdFrame h area s).inForce = s.inForce ∧ (holdFrame h area s).otpRequest = s.otpRequest ∧
    (holdFrame h area s).heldCommands = s.heldCommands ∧ (holdFrame h area s).crossReads = s.crossReads := by
  unfold holdFrame
  first | (simp; done) | ((try dsimp only); (repeat' split) <;> first | (simp; done) | simp_all | (repeat' split) <;> simp)

@[simp] theorem acceptFrame_frame (h : BitVec 256) (area : List Byte) (s : State) :
    (acceptFrame h area s).pending = s.pending ∧ (acceptFrame h area s).variant = s.variant ∧
    (acceptFrame h area s).otp = s.otp ∧ (acceptFrame h area s).masters.length = s.masters.length ∧
    (acceptFrame h area s).cores.channels.length = s.cores.channels.length ∧
    (acceptFrame h area s).regs.debugLevel = s.regs.debugLevel ∧ (acceptFrame h area s).store.cs = s.store.cs ∧
    (acceptFrame h area s).store.csDev = s.store.csDev ∧ (acceptFrame h area s).store.granules = s.store.granules ∧
    (acceptFrame h area s).pins = s.pins ∧ (acceptFrame h area s).power = s.power ∧
    (acceptFrame h area s).conservator = s.conservator ∧ (acceptFrame h area s).shadow = s.shadow ∧
    (acceptFrame h area s).inForce = s.inForce ∧ (acceptFrame h area s).otpRequest = s.otpRequest ∧
    (acceptFrame h area s).heldCommands = s.heldCommands ∧ (acceptFrame h area s).crossReads = s.crossReads := by
  unfold acceptFrame
  first | (simp; done) | ((try dsimp only); (repeat' split) <;> first | (simp; done) | simp_all | (repeat' split) <;> simp)

@[simp] theorem checkFrameBytes_frame (bs : List Byte) (s : State) :
    (checkFrameBytes bs s).pending = s.pending ∧ (checkFrameBytes bs s).variant = s.variant ∧
    (checkFrameBytes bs s).otp = s.otp ∧ (checkFrameBytes bs s).masters.length = s.masters.length ∧
    (checkFrameBytes bs s).cores.channels.length = s.cores.channels.length ∧
    (checkFrameBytes bs s).regs.debugLevel = s.regs.debugLevel ∧ (checkFrameBytes bs s).store.cs = s.store.cs ∧
    (checkFrameBytes bs s).store.csDev = s.store.csDev ∧ (checkFrameBytes bs s).store.granules = s.store.granules ∧
    (checkFrameBytes bs s).pins = s.pins ∧ (checkFrameBytes bs s).power = s.power ∧
    (checkFrameBytes bs s).conservator = s.conservator ∧ (checkFrameBytes bs s).shadow = s.shadow ∧
    (checkFrameBytes bs s).inForce = s.inForce ∧ (checkFrameBytes bs s).otpRequest = s.otpRequest ∧
    (checkFrameBytes bs s).heldCommands = s.heldCommands ∧ (checkFrameBytes bs s).crossReads = s.crossReads := by
  unfold checkFrameBytes
  first | (simp; done) | ((try dsimp only); (repeat' split) <;> first | (simp; done) | simp_all | (repeat' split) <;> simp)

@[simp] theorem putAperture_frame (slot off : Nat) (bs : List Byte) (s : State) :
    (putAperture slot off bs s).pending = s.pending ∧ (putAperture slot off bs s).variant = s.variant ∧
    (putAperture slot off bs s).otp = s.otp ∧ (putAperture slot off bs s).masters.length = s.masters.length ∧
    (putAperture slot off bs s).cores.channels.length = s.cores.channels.length ∧
    (putAperture slot off bs s).regs.debugLevel = s.regs.debugLevel ∧ (putAperture slot off bs s).store.cs = s.store.cs ∧
    (putAperture slot off bs s).store.csDev = s.store.csDev ∧
    (putAperture slot off bs s).store.granules = s.store.granules ∧ (putAperture slot off bs s).pins = s.pins ∧
    (putAperture slot off bs s).stream = s.stream ∧ (putAperture slot off bs s).power = s.power ∧
    (putAperture slot off bs s).conservator = s.conservator ∧ (putAperture slot off bs s).egress = s.egress ∧
    (putAperture slot off bs s).repair = s.repair ∧ (putAperture slot off bs s).shadow = s.shadow ∧
    (putAperture slot off bs s).inForce = s.inForce ∧ (putAperture slot off bs s).otpRequest = s.otpRequest ∧
    (putAperture slot off bs s).heldCommands = s.heldCommands ∧ (putAperture slot off bs s).crossReads = s.crossReads := by
  unfold putAperture
  first | (simp; done) | ((try dsimp only); (repeat' split) <;> first | (simp; done) | simp_all | (repeat' split) <;> simp)

@[simp] theorem takeSlot_frame (slot : Nat) (s : State) :
    (takeSlot slot s).pending = s.pending ∧ (takeSlot slot s).variant = s.variant ∧ (takeSlot slot s).otp = s.otp ∧
    (takeSlot slot s).masters.length = s.masters.length ∧
    (takeSlot slot s).cores.channels.length = s.cores.channels.length ∧
    (takeSlot slot s).regs.debugLevel = s.regs.debugLevel ∧ (takeSlot slot s).store.cs = s.store.cs ∧
    (takeSlot slot s).store.csDev = s.store.csDev ∧ (takeSlot slot s).store.granules = s.store.granules ∧
    (takeSlot slot s).pins = s.pins ∧ (takeSlot slot s).power = s.power ∧ (takeSlot slot s).conservator = s.conservator ∧
    (takeSlot slot s).shadow = s.shadow ∧ (takeSlot slot s).inForce = s.inForce ∧
    (takeSlot slot s).otpRequest = s.otpRequest ∧ (takeSlot slot s).heldCommands = s.heldCommands ∧
    (takeSlot slot s).crossReads = s.crossReads := by
  unfold takeSlot
  first | (simp; done) | ((try dsimp only); (repeat' split) <;> first | (simp; done) | simp_all | (repeat' split) <;> simp)

@[simp] theorem placeMesh_frame (o : Nat) (b : Byte) (s : State) :
    (placeMesh o b s).pending = s.pending ∧ (placeMesh o b s).variant = s.variant ∧ (placeMesh o b s).otp = s.otp ∧
    (placeMesh o b s).masters.length = s.masters.length ∧
    (placeMesh o b s).cores.channels.length = s.cores.channels.length ∧
    (placeMesh o b s).regs.debugLevel = s.regs.debugLevel ∧ (placeMesh o b s).store.cs = s.store.cs ∧
    (placeMesh o b s).store.csDev = s.store.csDev ∧ (placeMesh o b s).store.granules = s.store.granules ∧
    (placeMesh o b s).pins = s.pins ∧ (placeMesh o b s).stream = s.stream ∧ (placeMesh o b s).power = s.power ∧
    (placeMesh o b s).loader = s.loader ∧ (placeMesh o b s).conservator = s.conservator ∧
    (placeMesh o b s).egress = s.egress ∧ (placeMesh o b s).repair = s.repair ∧ (placeMesh o b s).shadow = s.shadow ∧
    (placeMesh o b s).inForce = s.inForce ∧ (placeMesh o b s).otpRequest = s.otpRequest ∧
    (placeMesh o b s).heldCommands = s.heldCommands ∧ (placeMesh o b s).crossReads = s.crossReads := by
  unfold placeMesh
  first | (simp; done) | ((try dsimp only); (repeat' split) <;> first | (simp; done) | simp_all | (repeat' split) <;> simp)

@[simp] theorem placeFirmware_frame (core o : Nat) (b : Byte) (s : State) :
    (placeFirmware core o b s).pending = s.pending ∧ (placeFirmware core o b s).variant = s.variant ∧
    (placeFirmware core o b s).otp = s.otp ∧ (placeFirmware core o b s).masters.length = s.masters.length ∧
    (placeFirmware core o b s).cores.channels.length = s.cores.channels.length ∧
    (placeFirmware core o b s).regs.debugLevel = s.regs.debugLevel ∧ (placeFirmware core o b s).store.cs = s.store.cs ∧
    (placeFirmware core o b s).store.csDev = s.store.csDev ∧ (placeFirmware core o b s).store.granules = s.store.granules ∧
    (placeFirmware core o b s).pins = s.pins ∧ (placeFirmware core o b s).stream = s.stream ∧
    (placeFirmware core o b s).power = s.power ∧ (placeFirmware core o b s).loader = s.loader ∧
    (placeFirmware core o b s).conservator = s.conservator ∧ (placeFirmware core o b s).egress = s.egress ∧
    (placeFirmware core o b s).repair = s.repair ∧ (placeFirmware core o b s).shadow = s.shadow ∧
    (placeFirmware core o b s).inForce = s.inForce ∧ (placeFirmware core o b s).otpRequest = s.otpRequest ∧
    (placeFirmware core o b s).heldCommands = s.heldCommands ∧ (placeFirmware core o b s).crossReads = s.crossReads := by
  unfold placeFirmware
  first | (simp; done) | ((try dsimp only); (repeat' split) <;> first | (simp; done) | simp_all | (repeat' split) <;> simp)

@[simp] theorem placeAll_pending (f : Nat → Byte → State → State) (h : ∀ o b s, (f o b s).pending = s.pending) (o : Nat) (bs : List Byte)
    (s : State) : (placeAll f o bs s).pending = s.pending := by
  induction bs generalizing o s with
  | nil => rfl
  | cons b bs ih => simp [placeAll, ih, h]

@[simp] theorem placeAll_variant (f : Nat → Byte → State → State) (h : ∀ o b s, (f o b s).variant = s.variant) (o : Nat) (bs : List Byte)
    (s : State) : (placeAll f o bs s).variant = s.variant := by
  induction bs generalizing o s with
  | nil => rfl
  | cons b bs ih => simp [placeAll, ih, h]

@[simp] theorem placeAll_otp (f : Nat → Byte → State → State) (h : ∀ o b s, (f o b s).otp = s.otp) (o : Nat) (bs : List Byte)
    (s : State) : (placeAll f o bs s).otp = s.otp := by
  induction bs generalizing o s with
  | nil => rfl
  | cons b bs ih => simp [placeAll, ih, h]

@[simp] theorem placeAll_mlen (f : Nat → Byte → State → State) (h : ∀ o b s, (f o b s).masters.length = s.masters.length) (o : Nat) (bs : List Byte)
    (s : State) : (placeAll f o bs s).masters.length = s.masters.length := by
  induction bs generalizing o s with
  | nil => rfl
  | cons b bs ih => simp [placeAll, ih, h]

@[simp] theorem placeAll_clen (f : Nat → Byte → State → State) (h : ∀ o b s, (f o b s).cores.channels.length = s.cores.channels.length) (o : Nat) (bs : List Byte)
    (s : State) : (placeAll f o bs s).cores.channels.length = s.cores.channels.length := by
  induction bs generalizing o s with
  | nil => rfl
  | cons b bs ih => simp [placeAll, ih, h]

@[simp] theorem placeAll_level (f : Nat → Byte → State → State) (h : ∀ o b s, (f o b s).regs.debugLevel = s.regs.debugLevel) (o : Nat) (bs : List Byte)
    (s : State) : (placeAll f o bs s).regs.debugLevel = s.regs.debugLevel := by
  induction bs generalizing o s with
  | nil => rfl
  | cons b bs ih => simp [placeAll, ih, h]

@[simp] theorem placeAll_cs (f : Nat → Byte → State → State) (h : ∀ o b s, (f o b s).store.cs = s.store.cs) (o : Nat) (bs : List Byte)
    (s : State) : (placeAll f o bs s).store.cs = s.store.cs := by
  induction bs generalizing o s with
  | nil => rfl
  | cons b bs ih => simp [placeAll, ih, h]

@[simp] theorem placeAll_csDev (f : Nat → Byte → State → State) (h : ∀ o b s, (f o b s).store.csDev = s.store.csDev) (o : Nat) (bs : List Byte)
    (s : State) : (placeAll f o bs s).store.csDev = s.store.csDev := by
  induction bs generalizing o s with
  | nil => rfl
  | cons b bs ih => simp [placeAll, ih, h]

@[simp] theorem placeAll_granules (f : Nat → Byte → State → State) (h : ∀ o b s, (f o b s).store.granules = s.store.granules) (o : Nat) (bs : List Byte)
    (s : State) : (placeAll f o bs s).store.granules = s.store.granules := by
  induction bs generalizing o s with
  | nil => rfl
  | cons b bs ih => simp [placeAll, ih, h]

@[simp] theorem placeAll_pins (f : Nat → Byte → State → State) (h : ∀ o b s, (f o b s).pins = s.pins) (o : Nat) (bs : List Byte)
    (s : State) : (placeAll f o bs s).pins = s.pins := by
  induction bs generalizing o s with
  | nil => rfl
  | cons b bs ih => simp [placeAll, ih, h]

@[simp] theorem placeAll_stream (f : Nat → Byte → State → State) (h : ∀ o b s, (f o b s).stream = s.stream) (o : Nat) (bs : List Byte)
    (s : State) : (placeAll f o bs s).stream = s.stream := by
  induction bs generalizing o s with
  | nil => rfl
  | cons b bs ih => simp [placeAll, ih, h]

@[simp] theorem placeAll_power (f : Nat → Byte → State → State) (h : ∀ o b s, (f o b s).power = s.power) (o : Nat) (bs : List Byte)
    (s : State) : (placeAll f o bs s).power = s.power := by
  induction bs generalizing o s with
  | nil => rfl
  | cons b bs ih => simp [placeAll, ih, h]

@[simp] theorem placeAll_loader (f : Nat → Byte → State → State) (h : ∀ o b s, (f o b s).loader = s.loader) (o : Nat) (bs : List Byte)
    (s : State) : (placeAll f o bs s).loader = s.loader := by
  induction bs generalizing o s with
  | nil => rfl
  | cons b bs ih => simp [placeAll, ih, h]

@[simp] theorem placeAll_conservator (f : Nat → Byte → State → State) (h : ∀ o b s, (f o b s).conservator = s.conservator) (o : Nat) (bs : List Byte)
    (s : State) : (placeAll f o bs s).conservator = s.conservator := by
  induction bs generalizing o s with
  | nil => rfl
  | cons b bs ih => simp [placeAll, ih, h]

@[simp] theorem placeAll_egress (f : Nat → Byte → State → State) (h : ∀ o b s, (f o b s).egress = s.egress) (o : Nat) (bs : List Byte)
    (s : State) : (placeAll f o bs s).egress = s.egress := by
  induction bs generalizing o s with
  | nil => rfl
  | cons b bs ih => simp [placeAll, ih, h]

@[simp] theorem placeAll_repair (f : Nat → Byte → State → State) (h : ∀ o b s, (f o b s).repair = s.repair) (o : Nat) (bs : List Byte)
    (s : State) : (placeAll f o bs s).repair = s.repair := by
  induction bs generalizing o s with
  | nil => rfl
  | cons b bs ih => simp [placeAll, ih, h]

@[simp] theorem placeAll_shadow (f : Nat → Byte → State → State) (h : ∀ o b s, (f o b s).shadow = s.shadow) (o : Nat) (bs : List Byte)
    (s : State) : (placeAll f o bs s).shadow = s.shadow := by
  induction bs generalizing o s with
  | nil => rfl
  | cons b bs ih => simp [placeAll, ih, h]

@[simp] theorem placeAll_inForce (f : Nat → Byte → State → State) (h : ∀ o b s, (f o b s).inForce = s.inForce) (o : Nat) (bs : List Byte)
    (s : State) : (placeAll f o bs s).inForce = s.inForce := by
  induction bs generalizing o s with
  | nil => rfl
  | cons b bs ih => simp [placeAll, ih, h]

@[simp] theorem placeAll_otpRequest (f : Nat → Byte → State → State) (h : ∀ o b s, (f o b s).otpRequest = s.otpRequest) (o : Nat) (bs : List Byte)
    (s : State) : (placeAll f o bs s).otpRequest = s.otpRequest := by
  induction bs generalizing o s with
  | nil => rfl
  | cons b bs ih => simp [placeAll, ih, h]

@[simp] theorem placeAll_heldCommands (f : Nat → Byte → State → State) (h : ∀ o b s, (f o b s).heldCommands = s.heldCommands) (o : Nat) (bs : List Byte)
    (s : State) : (placeAll f o bs s).heldCommands = s.heldCommands := by
  induction bs generalizing o s with
  | nil => rfl
  | cons b bs ih => simp [placeAll, ih, h]

@[simp] theorem placeAll_crossReads (f : Nat → Byte → State → State) (h : ∀ o b s, (f o b s).crossReads = s.crossReads) (o : Nat) (bs : List Byte)
    (s : State) : (placeAll f o bs s).crossReads = s.crossReads := by
  induction bs generalizing o s with
  | nil => rfl
  | cons b bs ih => simp [placeAll, ih, h]

@[simp] theorem placeAll_plen (f : Nat → Byte → State → State) (h : ∀ o b s, (f o b s).pins.pins.length = s.pins.pins.length) (o : Nat) (bs : List Byte)
    (s : State) : (placeAll f o bs s).pins.pins.length = s.pins.pins.length := by
  induction bs generalizing o s with
  | nil => rfl
  | cons b bs ih => simp [placeAll, ih, h]

@[simp] theorem refreshFrames_frame (o n : Nat) (s : State) :
    (refreshFrames o n s).pending = s.pending ∧ (refreshFrames o n s).variant = s.variant ∧
    (refreshFrames o n s).otp = s.otp ∧ (refreshFrames o n s).masters.length = s.masters.length ∧
    (refreshFrames o n s).cores.channels.length = s.cores.channels.length ∧
    (refreshFrames o n s).regs.debugLevel = s.regs.debugLevel ∧ (refreshFrames o n s).store.cs = s.store.cs ∧
    (refreshFrames o n s).store.csDev = s.store.csDev ∧ (refreshFrames o n s).store.granules = s.store.granules ∧
    (refreshFrames o n s).pins = s.pins ∧ (refreshFrames o n s).stream = s.stream ∧ (refreshFrames o n s).power = s.power ∧
    (refreshFrames o n s).loader = s.loader ∧ (refreshFrames o n s).conservator = s.conservator ∧
    (refreshFrames o n s).egress = s.egress ∧ (refreshFrames o n s).repair = s.repair ∧
    (refreshFrames o n s).shadow = s.shadow ∧ (refreshFrames o n s).inForce = s.inForce ∧
    (refreshFrames o n s).otpRequest = s.otpRequest ∧ (refreshFrames o n s).heldCommands = s.heldCommands ∧
    (refreshFrames o n s).crossReads = s.crossReads := by
  unfold refreshFrames
  first | (simp; done) | ((try dsimp only); (repeat' split) <;> first | (simp; done) | simp_all | (repeat' split) <;> simp)

@[simp] theorem placeBytes_frame (u idx o : Nat) (bs : List Byte) (s : State) :
    (placeBytes u idx o bs s).pending = s.pending ∧ (placeBytes u idx o bs s).variant = s.variant ∧
    (placeBytes u idx o bs s).otp = s.otp ∧ (placeBytes u idx o bs s).masters.length = s.masters.length ∧
    (placeBytes u idx o bs s).cores.channels.length = s.cores.channels.length ∧
    (placeBytes u idx o bs s).regs.debugLevel = s.regs.debugLevel ∧ (placeBytes u idx o bs s).pins = s.pins ∧
    (placeBytes u idx o bs s).stream = s.stream ∧ (placeBytes u idx o bs s).power = s.power ∧
    (placeBytes u idx o bs s).loader = s.loader ∧ (placeBytes u idx o bs s).conservator = s.conservator ∧
    (placeBytes u idx o bs s).egress = s.egress ∧ (placeBytes u idx o bs s).repair = s.repair ∧
    (placeBytes u idx o bs s).shadow = s.shadow ∧ (placeBytes u idx o bs s).inForce = s.inForce ∧
    (placeBytes u idx o bs s).otpRequest = s.otpRequest ∧ (placeBytes u idx o bs s).heldCommands = s.heldCommands ∧
    (placeBytes u idx o bs s).crossReads = s.crossReads := by
  unfold placeBytes
  first | (simp; done) | ((try dsimp only); (repeat' split) <;> first | (simp; done) | simp_all | (repeat' split) <;> simp)

@[simp] theorem popParts_frame (n : Nat) (s : State) :
    (popParts n s).pending = s.pending ∧ (popParts n s).variant = s.variant ∧ (popParts n s).otp = s.otp ∧
    (popParts n s).masters.length = s.masters.length ∧ (popParts n s).cores.channels.length = s.cores.channels.length ∧
    (popParts n s).regs.debugLevel = s.regs.debugLevel ∧ (popParts n s).store.cs = s.store.cs ∧
    (popParts n s).store.csDev = s.store.csDev ∧ (popParts n s).store.granules = s.store.granules ∧
    (popParts n s).pins = s.pins ∧ (popParts n s).stream = s.stream ∧ (popParts n s).power = s.power ∧
    (popParts n s).loader = s.loader ∧ (popParts n s).conservator = s.conservator ∧ (popParts n s).egress = s.egress ∧
    (popParts n s).repair = s.repair ∧ (popParts n s).shadow = s.shadow ∧ (popParts n s).inForce = s.inForce ∧
    (popParts n s).otpRequest = s.otpRequest ∧ (popParts n s).heldCommands = s.heldCommands ∧
    (popParts n s).crossReads = s.crossReads := by
  unfold popParts
  first | (simp; done) | ((try dsimp only); (repeat' split) <;> first | (simp; done) | simp_all | (repeat' split) <;> simp)

@[simp] theorem placeFrame_frame (n : Nat) (pre : Record) (payload : List Byte) (s : State) :
    (placeFrame n pre payload s).pending = s.pending ∧ (placeFrame n pre payload s).variant = s.variant ∧
    (placeFrame n pre payload s).otp = s.otp ∧ (placeFrame n pre payload s).masters.length = s.masters.length ∧
    (placeFrame n pre payload s).cores.channels.length = s.cores.channels.length ∧
    (placeFrame n pre payload s).regs.debugLevel = s.regs.debugLevel ∧ (placeFrame n pre payload s).pins = s.pins ∧
    (placeFrame n pre payload s).stream = s.stream ∧ (placeFrame n pre payload s).power = s.power ∧
    (placeFrame n pre payload s).conservator = s.conservator ∧ (placeFrame n pre payload s).egress = s.egress ∧
    (placeFrame n pre payload s).repair = s.repair ∧ (placeFrame n pre payload s).shadow = s.shadow ∧
    (placeFrame n pre payload s).inForce = s.inForce ∧ (placeFrame n pre payload s).otpRequest = s.otpRequest ∧
    (placeFrame n pre payload s).heldCommands = s.heldCommands ∧ (placeFrame n pre payload s).crossReads = s.crossReads := by
  unfold placeFrame
  first | (simp; done) | ((try dsimp only); (repeat' split) <;> first | (simp; done) | simp_all | (repeat' split) <;> simp)

@[simp] theorem takeRepeatRequest_frame (n reason : Nat) (s : State) :
    (takeRepeatRequest n reason s).pending = s.pending ∧ (takeRepeatRequest n reason s).variant = s.variant ∧
    (takeRepeatRequest n reason s).otp = s.otp ∧ (takeRepeatRequest n reason s).masters.length = s.masters.length ∧
    (takeRepeatRequest n reason s).cores.channels.length = s.cores.channels.length ∧
    (takeRepeatRequest n reason s).regs.debugLevel = s.regs.debugLevel ∧
    (takeRepeatRequest n reason s).store.cs = s.store.cs ∧ (takeRepeatRequest n reason s).store.csDev = s.store.csDev ∧
    (takeRepeatRequest n reason s).store.granules = s.store.granules ∧ (takeRepeatRequest n reason s).pins = s.pins ∧
    (takeRepeatRequest n reason s).power = s.power ∧ (takeRepeatRequest n reason s).conservator = s.conservator ∧
    (takeRepeatRequest n reason s).egress = s.egress ∧ (takeRepeatRequest n reason s).repair = s.repair ∧
    (takeRepeatRequest n reason s).shadow = s.shadow ∧ (takeRepeatRequest n reason s).inForce = s.inForce ∧
    (takeRepeatRequest n reason s).otpRequest = s.otpRequest ∧
    (takeRepeatRequest n reason s).heldCommands = s.heldCommands ∧
    (takeRepeatRequest n reason s).crossReads = s.crossReads := by
  unfold takeRepeatRequest
  first | (simp; done) | ((try dsimp only); (repeat' split) <;> first | (simp; done) | simp_all | (repeat' split) <;> simp)

@[simp] theorem busyCalls_frame  (s : State) :
    (busyCalls s).pending = s.pending ∧ (busyCalls s).variant = s.variant ∧ (busyCalls s).otp = s.otp ∧
    (busyCalls s).masters.length = s.masters.length ∧ (busyCalls s).cores.channels.length = s.cores.channels.length ∧
    (busyCalls s).regs.debugLevel = s.regs.debugLevel ∧ (busyCalls s).store.cs = s.store.cs ∧
    (busyCalls s).store.csDev = s.store.csDev ∧ (busyCalls s).store.granules = s.store.granules ∧
    (busyCalls s).pins = s.pins ∧ (busyCalls s).stream = s.stream ∧ (busyCalls s).power = s.power ∧
    (busyCalls s).loader = s.loader ∧ (busyCalls s).conservator = s.conservator ∧ (busyCalls s).egress = s.egress ∧
    (busyCalls s).repair = s.repair ∧ (busyCalls s).shadow = s.shadow ∧ (busyCalls s).inForce = s.inForce ∧
    (busyCalls s).otpRequest = s.otpRequest ∧ (busyCalls s).heldCommands = s.heldCommands ∧
    (busyCalls s).crossReads = s.crossReads := by
  unfold busyCalls
  first | (simp; done) | ((try dsimp only); (repeat' split) <;> first | (simp; done) | simp_all | (repeat' split) <;> simp)

@[simp] theorem wakeForLoad_frame  (s : State) :
    (wakeForLoad s).pending = s.pending ∧ (wakeForLoad s).variant = s.variant ∧ (wakeForLoad s).otp = s.otp ∧
    (wakeForLoad s).masters.length = s.masters.length ∧ (wakeForLoad s).cores.channels.length = s.cores.channels.length ∧
    (wakeForLoad s).regs.debugLevel = s.regs.debugLevel ∧ (wakeForLoad s).store.cs = s.store.cs ∧
    (wakeForLoad s).store.csDev = s.store.csDev ∧ (wakeForLoad s).store.granules = s.store.granules ∧
    (wakeForLoad s).pins = s.pins ∧ (wakeForLoad s).stream = s.stream ∧ (wakeForLoad s).loader = s.loader ∧
    (wakeForLoad s).conservator = s.conservator ∧ (wakeForLoad s).egress = s.egress ∧ (wakeForLoad s).repair = s.repair ∧
    (wakeForLoad s).shadow = s.shadow ∧ (wakeForLoad s).inForce = s.inForce ∧ (wakeForLoad s).otpRequest = s.otpRequest ∧
    (wakeForLoad s).heldCommands = s.heldCommands ∧ (wakeForLoad s).crossReads = s.crossReads := by
  unfold wakeForLoad
  first | (simp; done) | ((try dsimp only); (repeat' split) <;> first | (simp; done) | simp_all | (repeat' split) <;> simp)

@[simp] theorem freshLoad_frame (slot : BitVec 2) (group : BitVec 4) (dev : Byte) (s : State) :
    (freshLoad slot group dev s).pending = s.pending ∧ (freshLoad slot group dev s).variant = s.variant ∧
    (freshLoad slot group dev s).otp = s.otp ∧ (freshLoad slot group dev s).masters.length = s.masters.length ∧
    (freshLoad slot group dev s).cores.channels.length = s.cores.channels.length ∧
    (freshLoad slot group dev s).regs.debugLevel = s.regs.debugLevel ∧ (freshLoad slot group dev s).store.cs = s.store.cs ∧
    (freshLoad slot group dev s).store.csDev = s.store.csDev ∧
    (freshLoad slot group dev s).store.granules = s.store.granules ∧ (freshLoad slot group dev s).pins = s.pins ∧
    (freshLoad slot group dev s).stream = s.stream ∧ (freshLoad slot group dev s).power = s.power ∧
    (freshLoad slot group dev s).egress = s.egress ∧ (freshLoad slot group dev s).shadow = s.shadow ∧
    (freshLoad slot group dev s).inForce = s.inForce ∧ (freshLoad slot group dev s).otpRequest = s.otpRequest ∧
    (freshLoad slot group dev s).heldCommands = s.heldCommands ∧ (freshLoad slot group dev s).crossReads = s.crossReads := by
  unfold freshLoad
  first | (simp; done) | ((try dsimp only); (repeat' split) <;> first | (simp; done) | simp_all | (repeat' split) <;> simp)

@[simp] theorem startLoad_frame (slot : BitVec 2) (group : BitVec 4) (dev : Byte) (s : State) :
    (startLoad slot group dev s).pending = s.pending ∧ (startLoad slot group dev s).variant = s.variant ∧
    (startLoad slot group dev s).otp = s.otp ∧ (startLoad slot group dev s).masters.length = s.masters.length ∧
    (startLoad slot group dev s).cores.channels.length = s.cores.channels.length ∧
    (startLoad slot group dev s).regs.debugLevel = s.regs.debugLevel ∧ (startLoad slot group dev s).store.cs = s.store.cs ∧
    (startLoad slot group dev s).store.csDev = s.store.csDev ∧
    (startLoad slot group dev s).store.granules = s.store.granules ∧ (startLoad slot group dev s).pins = s.pins ∧
    (startLoad slot group dev s).shadow = s.shadow ∧ (startLoad slot group dev s).inForce = s.inForce ∧
    (startLoad slot group dev s).otpRequest = s.otpRequest ∧ (startLoad slot group dev s).heldCommands = s.heldCommands ∧
    (startLoad slot group dev s).crossReads = s.crossReads := by
  unfold startLoad
  first | (simp; done) | ((try dsimp only); (repeat' split) <;> first | (simp; done) | simp_all | (repeat' split) <;> simp)

@[simp] theorem beginLoad_frame (slot : BitVec 2) (group : BitVec 4) (dev0 : Byte) (s : State) :
    (beginLoad slot group dev0 s).pending = s.pending ∧ (beginLoad slot group dev0 s).variant = s.variant ∧
    (beginLoad slot group dev0 s).otp = s.otp ∧ (beginLoad slot group dev0 s).masters.length = s.masters.length ∧
    (beginLoad slot group dev0 s).cores.channels.length = s.cores.channels.length ∧
    (beginLoad slot group dev0 s).regs.debugLevel = s.regs.debugLevel ∧
    (beginLoad slot group dev0 s).store.cs = s.store.cs ∧ (beginLoad slot group dev0 s).store.csDev = s.store.csDev ∧
    (beginLoad slot group dev0 s).store.granules = s.store.granules ∧ (beginLoad slot group dev0 s).pins = s.pins ∧
    (beginLoad slot group dev0 s).shadow = s.shadow ∧ (beginLoad slot group dev0 s).inForce = s.inForce ∧
    (beginLoad slot group dev0 s).otpRequest = s.otpRequest ∧ (beginLoad slot group dev0 s).heldCommands = s.heldCommands ∧
    (beginLoad slot group dev0 s).crossReads = s.crossReads := by
  unfold beginLoad
  first | (simp; done) | ((try dsimp only); (repeat' split) <;> first | (simp; done) | simp_all | (repeat' split) <;> simp)

@[simp] theorem beginWaiting_frame  (s : State) :
    (beginWaiting s).pending = s.pending ∧ (beginWaiting s).variant = s.variant ∧ (beginWaiting s).otp = s.otp ∧
    (beginWaiting s).masters.length = s.masters.length ∧ (beginWaiting s).cores.channels.length = s.cores.channels.length ∧
    (beginWaiting s).regs.debugLevel = s.regs.debugLevel ∧ (beginWaiting s).store.cs = s.store.cs ∧
    (beginWaiting s).store.csDev = s.store.csDev ∧ (beginWaiting s).store.granules = s.store.granules ∧
    (beginWaiting s).pins = s.pins ∧ (beginWaiting s).shadow = s.shadow ∧ (beginWaiting s).inForce = s.inForce ∧
    (beginWaiting s).otpRequest = s.otpRequest ∧ (beginWaiting s).heldCommands = s.heldCommands ∧
    (beginWaiting s).crossReads = s.crossReads := by
  unfold beginWaiting
  first | (simp; done) | ((try dsimp only); (repeat' split) <;> first | (simp; done) | simp_all | (repeat' split) <;> simp)

@[simp] theorem verifyFrames_frame  (s : State) :
    (verifyFrames s).pending = s.pending ∧ (verifyFrames s).variant = s.variant ∧ (verifyFrames s).otp = s.otp ∧
    (verifyFrames s).masters.length = s.masters.length ∧ (verifyFrames s).cores.channels.length = s.cores.channels.length ∧
    (verifyFrames s).regs.debugLevel = s.regs.debugLevel ∧ (verifyFrames s).store.cs = s.store.cs ∧
    (verifyFrames s).store.csDev = s.store.csDev ∧ (verifyFrames s).store.granules = s.store.granules ∧
    (verifyFrames s).pins = s.pins ∧ (verifyFrames s).stream = s.stream ∧ (verifyFrames s).power = s.power ∧
    (verifyFrames s).conservator = s.conservator ∧ (verifyFrames s).shadow = s.shadow ∧
    (verifyFrames s).inForce = s.inForce ∧ (verifyFrames s).otpRequest = s.otpRequest ∧
    (verifyFrames s).heldCommands = s.heldCommands ∧ (verifyFrames s).crossReads = s.crossReads := by
  unfold verifyFrames
  first | (simp; done) | ((try dsimp only); (repeat' split) <;> first | (simp; done) | simp_all | (repeat' split) <;> simp)

@[simp] theorem fillDefaults_frame  (s : State) :
    (fillDefaults s).pending = s.pending ∧ (fillDefaults s).variant = s.variant ∧ (fillDefaults s).otp = s.otp ∧
    (fillDefaults s).masters.length = s.masters.length ∧ (fillDefaults s).cores.channels.length = s.cores.channels.length ∧
    (fillDefaults s).regs.debugLevel = s.regs.debugLevel ∧ (fillDefaults s).store.cs = s.store.cs ∧
    (fillDefaults s).store.csDev = s.store.csDev ∧ (fillDefaults s).store.granules = s.store.granules ∧
    (fillDefaults s).pins = s.pins ∧ (fillDefaults s).stream = s.stream ∧ (fillDefaults s).power = s.power ∧
    (fillDefaults s).loader = s.loader ∧ (fillDefaults s).conservator = s.conservator ∧ (fillDefaults s).egress = s.egress ∧
    (fillDefaults s).repair = s.repair ∧ (fillDefaults s).shadow = s.shadow ∧ (fillDefaults s).inForce = s.inForce ∧
    (fillDefaults s).otpRequest = s.otpRequest ∧ (fillDefaults s).heldCommands = s.heldCommands ∧
    (fillDefaults s).crossReads = s.crossReads := by
  unfold fillDefaults
  first | (simp; done) | ((try dsimp only); (repeat' split) <;> first | (simp; done) | simp_all | (repeat' split) <;> simp)

@[simp] theorem beginStartUp_frame  (s : State) :
    (beginStartUp s).pending = s.pending ∧ (beginStartUp s).variant = s.variant ∧ (beginStartUp s).otp = s.otp ∧
    (beginStartUp s).masters.length = s.masters.length ∧ (beginStartUp s).cores.channels.length = s.cores.channels.length ∧
    (beginStartUp s).regs.debugLevel = s.regs.debugLevel ∧ (beginStartUp s).store.cs = s.store.cs ∧
    (beginStartUp s).store.csDev = s.store.csDev ∧ (beginStartUp s).store.granules = s.store.granules ∧
    (beginStartUp s).pins = s.pins ∧ (beginStartUp s).stream = s.stream ∧ (beginStartUp s).conservator = s.conservator ∧
    (beginStartUp s).egress = s.egress ∧ (beginStartUp s).repair = s.repair ∧ (beginStartUp s).shadow = s.shadow ∧
    (beginStartUp s).inForce = s.inForce ∧ (beginStartUp s).otpRequest = s.otpRequest ∧
    (beginStartUp s).heldCommands = s.heldCommands ∧ (beginStartUp s).crossReads = s.crossReads := by
  unfold beginStartUp
  first | (simp; done) | ((try dsimp only); (repeat' split) <;> first | (simp; done) | simp_all | (repeat' split) <;> simp)

@[simp] theorem verifyContent_frame  (s0 : State) :
    (verifyContent s0).pending = s0.pending ∧ (verifyContent s0).variant = s0.variant ∧ (verifyContent s0).otp = s0.otp ∧
    (verifyContent s0).masters.length = s0.masters.length ∧
    (verifyContent s0).cores.channels.length = s0.cores.channels.length ∧
    (verifyContent s0).regs.debugLevel = s0.regs.debugLevel ∧ (verifyContent s0).store.cs = s0.store.cs ∧
    (verifyContent s0).store.csDev = s0.store.csDev ∧ (verifyContent s0).store.granules = s0.store.granules ∧
    (verifyContent s0).pins = s0.pins ∧ (verifyContent s0).stream = s0.stream ∧
    (verifyContent s0).conservator = s0.conservator ∧ (verifyContent s0).shadow = s0.shadow ∧
    (verifyContent s0).inForce = s0.inForce ∧ (verifyContent s0).otpRequest = s0.otpRequest ∧
    (verifyContent s0).heldCommands = s0.heldCommands ∧ (verifyContent s0).crossReads = s0.crossReads := by
  unfold verifyContent
  first | (simp; done) | ((try dsimp only); (repeat' split) <;> first | (simp; done) | simp_all | (repeat' split) <;> simp)

@[simp] theorem releaseStage_frame (k : Nat) (s : State) :
    (releaseStage k s).pending = s.pending ∧ (releaseStage k s).variant = s.variant ∧ (releaseStage k s).otp = s.otp ∧
    (releaseStage k s).masters.length = s.masters.length ∧
    (releaseStage k s).cores.channels.length = s.cores.channels.length ∧
    (releaseStage k s).regs.debugLevel = s.regs.debugLevel ∧ (releaseStage k s).store.cs = s.store.cs ∧
    (releaseStage k s).store.csDev = s.store.csDev ∧ (releaseStage k s).store.granules = s.store.granules ∧
    (releaseStage k s).pins = s.pins ∧ (releaseStage k s).stream = s.stream ∧ (releaseStage k s).power = s.power ∧
    (releaseStage k s).loader = s.loader ∧ (releaseStage k s).conservator = s.conservator ∧
    (releaseStage k s).egress = s.egress ∧ (releaseStage k s).repair = s.repair ∧ (releaseStage k s).shadow = s.shadow ∧
    (releaseStage k s).inForce = s.inForce ∧ (releaseStage k s).otpRequest = s.otpRequest ∧
    (releaseStage k s).heldCommands = s.heldCommands ∧ (releaseStage k s).crossReads = s.crossReads := by
  unfold releaseStage
  first | (simp; done) | ((try dsimp only); (repeat' split) <;> first | (simp; done) | simp_all | (repeat' split) <;> simp)

@[simp] theorem writeFrameCrcs_frame  (s : State) :
    (writeFrameCrcs s).pending = s.pending ∧ (writeFrameCrcs s).variant = s.variant ∧ (writeFrameCrcs s).otp = s.otp ∧
    (writeFrameCrcs s).masters.length = s.masters.length ∧
    (writeFrameCrcs s).cores.channels.length = s.cores.channels.length ∧
    (writeFrameCrcs s).regs.debugLevel = s.regs.debugLevel ∧ (writeFrameCrcs s).pins = s.pins ∧
    (writeFrameCrcs s).stream = s.stream ∧ (writeFrameCrcs s).power = s.power ∧ (writeFrameCrcs s).loader = s.loader ∧
    (writeFrameCrcs s).conservator = s.conservator ∧ (writeFrameCrcs s).egress = s.egress ∧
    (writeFrameCrcs s).repair = s.repair ∧ (writeFrameCrcs s).shadow = s.shadow ∧ (writeFrameCrcs s).inForce = s.inForce ∧
    (writeFrameCrcs s).otpRequest = s.otpRequest ∧ (writeFrameCrcs s).heldCommands = s.heldCommands ∧
    (writeFrameCrcs s).crossReads = s.crossReads := by
  unfold writeFrameCrcs
  first | (simp; done) | ((try dsimp only); (repeat' split) <;> first | (simp; done) | simp_all | (repeat' split) <;> simp)

@[simp] theorem writeRepairCrcs_frame  (s : State) :
    (writeRepairCrcs s).pending = s.pending ∧ (writeRepairCrcs s).variant = s.variant ∧ (writeRepairCrcs s).otp = s.otp ∧
    (writeRepairCrcs s).masters.length = s.masters.length ∧
    (writeRepairCrcs s).cores.channels.length = s.cores.channels.length ∧
    (writeRepairCrcs s).regs.debugLevel = s.regs.debugLevel ∧ (writeRepairCrcs s).pins = s.pins ∧
    (writeRepairCrcs s).stream = s.stream ∧ (writeRepairCrcs s).power = s.power ∧ (writeRepairCrcs s).loader = s.loader ∧
    (writeRepairCrcs s).conservator = s.conservator ∧ (writeRepairCrcs s).egress = s.egress ∧
    (writeRepairCrcs s).repair = s.repair ∧ (writeRepairCrcs s).shadow = s.shadow ∧
    (writeRepairCrcs s).inForce = s.inForce ∧ (writeRepairCrcs s).otpRequest = s.otpRequest ∧
    (writeRepairCrcs s).heldCommands = s.heldCommands ∧ (writeRepairCrcs s).crossReads = s.crossReads := by
  unfold writeRepairCrcs
  first | (simp; done) | ((try dsimp only); (repeat' split) <;> first | (simp; done) | simp_all | (repeat' split) <;> simp)

@[simp] theorem setGalleries_frame  (s : State) :
    (setGalleries s).pending = s.pending ∧ (setGalleries s).variant = s.variant ∧ (setGalleries s).otp = s.otp ∧
    (setGalleries s).masters.length = s.masters.length ∧ (setGalleries s).cores.channels.length = s.cores.channels.length ∧
    (setGalleries s).regs.debugLevel = s.regs.debugLevel ∧ (setGalleries s).store.cs = s.store.cs ∧
    (setGalleries s).store.csDev = s.store.csDev ∧ (setGalleries s).store.granules = s.store.granules ∧
    (setGalleries s).pins = s.pins ∧ (setGalleries s).stream = s.stream ∧ (setGalleries s).power = s.power ∧
    (setGalleries s).loader = s.loader ∧ (setGalleries s).conservator = s.conservator ∧ (setGalleries s).egress = s.egress ∧
    (setGalleries s).repair = s.repair ∧ (setGalleries s).shadow = s.shadow ∧ (setGalleries s).inForce = s.inForce ∧
    (setGalleries s).otpRequest = s.otpRequest ∧ (setGalleries s).heldCommands = s.heldCommands ∧
    (setGalleries s).crossReads = s.crossReads := by
  unfold setGalleries
  first | (simp; done) | ((try dsimp only); (repeat' split) <;> first | (simp; done) | simp_all | (repeat' split) <;> simp)

@[simp] theorem startConservator_frame  (s : State) :
    (startConservator s).pending = s.pending ∧ (startConservator s).variant = s.variant ∧ (startConservator s).otp = s.otp ∧
    (startConservator s).masters.length = s.masters.length ∧
    (startConservator s).cores.channels.length = s.cores.channels.length ∧
    (startConservator s).regs.debugLevel = s.regs.debugLevel ∧ (startConservator s).store.cs = s.store.cs ∧
    (startConservator s).store.csDev = s.store.csDev ∧ (startConservator s).store.granules = s.store.granules ∧
    (startConservator s).pins = s.pins ∧ (startConservator s).stream = s.stream ∧ (startConservator s).power = s.power ∧
    (startConservator s).loader = s.loader ∧ (startConservator s).egress = s.egress ∧
    (startConservator s).repair = s.repair ∧ (startConservator s).shadow = s.shadow ∧
    (startConservator s).inForce = s.inForce ∧ (startConservator s).otpRequest = s.otpRequest ∧
    (startConservator s).heldCommands = s.heldCommands ∧ (startConservator s).crossReads = s.crossReads := by
  unfold startConservator
  first | (simp; done) | ((try dsimp only); (repeat' split) <;> first | (simp; done) | simp_all | (repeat' split) <;> simp)

@[simp] theorem freshLink_frame (l : FLink) (s : State) :
    (freshLink l s).pending = s.pending ∧ (freshLink l s).variant = s.variant ∧ (freshLink l s).otp = s.otp ∧
    (freshLink l s).masters.length = s.masters.length ∧ (freshLink l s).cores.channels.length = s.cores.channels.length ∧
    (freshLink l s).regs.debugLevel = s.regs.debugLevel ∧ (freshLink l s).store.cs = s.store.cs ∧
    (freshLink l s).store.csDev = s.store.csDev ∧ (freshLink l s).store.granules = s.store.granules ∧
    (freshLink l s).pins = s.pins ∧ (freshLink l s).stream = s.stream ∧ (freshLink l s).power = s.power ∧
    (freshLink l s).loader = s.loader ∧ (freshLink l s).conservator = s.conservator ∧ (freshLink l s).egress = s.egress ∧
    (freshLink l s).repair = s.repair ∧ (freshLink l s).shadow = s.shadow ∧ (freshLink l s).inForce = s.inForce ∧
    (freshLink l s).otpRequest = s.otpRequest ∧ (freshLink l s).heldCommands = s.heldCommands ∧
    (freshLink l s).crossReads = s.crossReads := by
  unfold freshLink
  first | (simp; done) | ((try dsimp only); (repeat' split) <;> first | (simp; done) | simp_all | (repeat' split) <;> simp)

@[simp] theorem loadRoutes_frame  (s : State) :
    (loadRoutes s).pending = s.pending ∧ (loadRoutes s).variant = s.variant ∧ (loadRoutes s).otp = s.otp ∧
    (loadRoutes s).masters.length = s.masters.length ∧ (loadRoutes s).cores.channels.length = s.cores.channels.length ∧
    (loadRoutes s).regs.debugLevel = s.regs.debugLevel ∧ (loadRoutes s).store.cs = s.store.cs ∧
    (loadRoutes s).store.csDev = s.store.csDev ∧ (loadRoutes s).store.granules = s.store.granules ∧
    (loadRoutes s).pins = s.pins ∧ (loadRoutes s).stream = s.stream ∧ (loadRoutes s).power = s.power ∧
    (loadRoutes s).loader = s.loader ∧ (loadRoutes s).conservator = s.conservator ∧ (loadRoutes s).egress = s.egress ∧
    (loadRoutes s).repair = s.repair ∧ (loadRoutes s).shadow = s.shadow ∧ (loadRoutes s).inForce = s.inForce ∧
    (loadRoutes s).otpRequest = s.otpRequest ∧ (loadRoutes s).heldCommands = s.heldCommands ∧
    (loadRoutes s).crossReads = s.crossReads := by
  unfold loadRoutes
  first | (simp; done) | ((try dsimp only); (repeat' split) <;> first | (simp; done) | simp_all | (repeat' split) <;> simp)

@[simp] theorem applyParams_frame  (s : State) :
    (applyParams s).pending = s.pending ∧ (applyParams s).variant = s.variant ∧ (applyParams s).otp = s.otp ∧
    (applyParams s).masters.length = s.masters.length ∧ (applyParams s).cores.channels.length = s.cores.channels.length ∧
    (applyParams s).regs.debugLevel = s.regs.debugLevel ∧ (applyParams s).store.cs = s.store.cs ∧
    (applyParams s).store.csDev = s.store.csDev ∧ (applyParams s).store.granules = s.store.granules ∧
    (applyParams s).pins = s.pins ∧ (applyParams s).stream = s.stream ∧ (applyParams s).power = s.power ∧
    (applyParams s).loader = s.loader ∧ (applyParams s).conservator = s.conservator ∧ (applyParams s).egress = s.egress ∧
    (applyParams s).shadow = s.shadow ∧ (applyParams s).inForce = s.inForce ∧ (applyParams s).otpRequest = s.otpRequest ∧
    (applyParams s).heldCommands = s.heldCommands ∧ (applyParams s).crossReads = s.crossReads := by
  unfold applyParams
  first | (simp; done) | ((try dsimp only); (repeat' split) <;> first | (simp; done) | simp_all | (repeat' split) <;> simp)

@[simp] theorem startCores_frame  (s : State) :
    (startCores s).pending = s.pending ∧ (startCores s).variant = s.variant ∧ (startCores s).otp = s.otp ∧
    (startCores s).masters.length = s.masters.length ∧ (startCores s).cores.channels.length = s.cores.channels.length ∧
    (startCores s).regs.debugLevel = s.regs.debugLevel ∧ (startCores s).store.cs = s.store.cs ∧
    (startCores s).store.csDev = s.store.csDev ∧ (startCores s).store.granules = s.store.granules ∧
    (startCores s).pins = s.pins ∧ (startCores s).stream = s.stream ∧ (startCores s).power = s.power ∧
    (startCores s).loader = s.loader ∧ (startCores s).conservator = s.conservator ∧ (startCores s).egress = s.egress ∧
    (startCores s).repair = s.repair ∧ (startCores s).shadow = s.shadow ∧ (startCores s).inForce = s.inForce ∧
    (startCores s).otpRequest = s.otpRequest ∧ (startCores s).heldCommands = s.heldCommands ∧
    (startCores s).crossReads = s.crossReads := by
  unfold startCores
  first | (simp; done) | ((try dsimp only); (repeat' split) <;> first | (simp; done) | simp_all | (repeat' split) <;> simp)

@[simp] theorem freshBatches_frame  (s : State) :
    (freshBatches s).pending = s.pending ∧ (freshBatches s).variant = s.variant ∧ (freshBatches s).otp = s.otp ∧
    (freshBatches s).masters.length = s.masters.length ∧ (freshBatches s).cores.channels.length = s.cores.channels.length ∧
    (freshBatches s).regs.debugLevel = s.regs.debugLevel ∧ (freshBatches s).store.cs = s.store.cs ∧
    (freshBatches s).store.csDev = s.store.csDev ∧ (freshBatches s).store.granules = s.store.granules ∧
    (freshBatches s).pins = s.pins ∧ (freshBatches s).power = s.power ∧ (freshBatches s).loader = s.loader ∧
    (freshBatches s).conservator = s.conservator ∧ (freshBatches s).repair = s.repair ∧ (freshBatches s).shadow = s.shadow ∧
    (freshBatches s).inForce = s.inForce ∧ (freshBatches s).otpRequest = s.otpRequest ∧
    (freshBatches s).heldCommands = s.heldCommands ∧ (freshBatches s).crossReads = s.crossReads := by
  unfold freshBatches
  first | (simp; done) | ((try dsimp only); (repeat' split) <;> first | (simp; done) | simp_all | (repeat' split) <;> simp)

@[simp] theorem completeLoad_frame  (s0 : State) :
    (completeLoad s0).pending = s0.pending ∧ (completeLoad s0).variant = s0.variant ∧ (completeLoad s0).otp = s0.otp ∧
    (completeLoad s0).masters.length = s0.masters.length ∧
    (completeLoad s0).cores.channels.length = s0.cores.channels.length ∧
    (completeLoad s0).regs.debugLevel = s0.regs.debugLevel ∧ (completeLoad s0).pins = s0.pins ∧
    (completeLoad s0).shadow = s0.shadow ∧ (completeLoad s0).inForce = s0.inForce ∧
    (completeLoad s0).otpRequest = s0.otpRequest ∧ (completeLoad s0).heldCommands = s0.heldCommands ∧
    (completeLoad s0).crossReads = s0.crossReads := by
  unfold completeLoad
  first | (simp; done) | ((try dsimp only); (repeat' split) <;> first | (simp; done) | simp_all | (repeat' split) <;> simp)

@[simp] theorem requestSecurity_frame (data : Word) (s : State) :
    (requestSecurity data s).pending = s.pending ∧ (requestSecurity data s).variant = s.variant ∧
    (requestSecurity data s).otp = s.otp ∧ (requestSecurity data s).masters.length = s.masters.length ∧
    (requestSecurity data s).cores.channels.length = s.cores.channels.length ∧
    (requestSecurity data s).regs.debugLevel = s.regs.debugLevel ∧ (requestSecurity data s).store.cs = s.store.cs ∧
    (requestSecurity data s).store.csDev = s.store.csDev ∧ (requestSecurity data s).store.granules = s.store.granules ∧
    (requestSecurity data s).pins = s.pins ∧ (requestSecurity data s).stream = s.stream ∧
    (requestSecurity data s).power = s.power ∧ (requestSecurity data s).loader = s.loader ∧
    (requestSecurity data s).conservator = s.conservator ∧ (requestSecurity data s).egress = s.egress ∧
    (requestSecurity data s).repair = s.repair ∧ (requestSecurity data s).shadow = s.shadow ∧
    (requestSecurity data s).inForce = s.inForce ∧ (requestSecurity data s).heldCommands = s.heldCommands ∧
    (requestSecurity data s).crossReads = s.crossReads := by
  unfold requestSecurity
  first | (simp; done) | ((try dsimp only); (repeat' split) <;> first | (simp; done) | simp_all | (repeat' split) <;> simp)

@[simp] theorem securityLock_frame (m : Master) (data : Word) (s : State) :
    (securityLock m data s).pending = s.pending ∧ (securityLock m data s).variant = s.variant ∧
    (securityLock m data s).otp = s.otp ∧ (securityLock m data s).masters.length = s.masters.length ∧
    (securityLock m data s).cores.channels.length = s.cores.channels.length ∧
    (securityLock m data s).regs.debugLevel = s.regs.debugLevel ∧ (securityLock m data s).store.cs = s.store.cs ∧
    (securityLock m data s).store.csDev = s.store.csDev ∧ (securityLock m data s).store.granules = s.store.granules ∧
    (securityLock m data s).pins = s.pins ∧ (securityLock m data s).stream = s.stream ∧
    (securityLock m data s).power = s.power ∧ (securityLock m data s).loader = s.loader ∧
    (securityLock m data s).conservator = s.conservator ∧ (securityLock m data s).egress = s.egress ∧
    (securityLock m data s).repair = s.repair ∧ (securityLock m data s).shadow = s.shadow ∧
    (securityLock m data s).inForce = s.inForce ∧ (securityLock m data s).heldCommands = s.heldCommands ∧
    (securityLock m data s).crossReads = s.crossReads := by
  unfold securityLock
  first | (simp; done) | ((try dsimp only); (repeat' split) <;> first | (simp; done) | simp_all | (repeat' split) <;> simp)

@[simp] theorem wakeOnAccess_frame (n : Nat) (s : State) :
    (wakeOnAccess n s).pending = s.pending ∧ (wakeOnAccess n s).variant = s.variant ∧ (wakeOnAccess n s).otp = s.otp ∧
    (wakeOnAccess n s).masters.length = s.masters.length ∧
    (wakeOnAccess n s).cores.channels.length = s.cores.channels.length ∧
    (wakeOnAccess n s).regs.debugLevel = s.regs.debugLevel ∧ (wakeOnAccess n s).store.cs = s.store.cs ∧
    (wakeOnAccess n s).store.csDev = s.store.csDev ∧ (wakeOnAccess n s).store.granules = s.store.granules ∧
    (wakeOnAccess n s).pins = s.pins ∧ (wakeOnAccess n s).stream = s.stream ∧ (wakeOnAccess n s).power = s.power ∧
    (wakeOnAccess n s).loader = s.loader ∧ (wakeOnAccess n s).conservator = s.conservator ∧
    (wakeOnAccess n s).egress = s.egress ∧ (wakeOnAccess n s).repair = s.repair ∧ (wakeOnAccess n s).shadow = s.shadow ∧
    (wakeOnAccess n s).inForce = s.inForce ∧ (wakeOnAccess n s).otpRequest = s.otpRequest ∧
    (wakeOnAccess n s).heldCommands = s.heldCommands ∧ (wakeOnAccess n s).crossReads = s.crossReads := by
  unfold wakeOnAccess
  first | (simp; done) | ((try dsimp only); (repeat' split) <;> first | (simp; done) | simp_all | (repeat' split) <;> simp)

@[simp] theorem modRouter_frame (r : Nat) (f : Router → Router) (s : State) :
    (modRouter r f s).pending = s.pending ∧ (modRouter r f s).variant = s.variant ∧ (modRouter r f s).otp = s.otp ∧
    (modRouter r f s).masters.length = s.masters.length ∧
    (modRouter r f s).cores.channels.length = s.cores.channels.length ∧
    (modRouter r f s).regs.debugLevel = s.regs.debugLevel ∧ (modRouter r f s).store.cs = s.store.cs ∧
    (modRouter r f s).store.csDev = s.store.csDev ∧ (modRouter r f s).store.granules = s.store.granules ∧
    (modRouter r f s).pins = s.pins ∧ (modRouter r f s).stream = s.stream ∧ (modRouter r f s).power = s.power ∧
    (modRouter r f s).loader = s.loader ∧ (modRouter r f s).conservator = s.conservator ∧
    (modRouter r f s).egress = s.egress ∧ (modRouter r f s).repair = s.repair ∧ (modRouter r f s).shadow = s.shadow ∧
    (modRouter r f s).inForce = s.inForce ∧ (modRouter r f s).otpRequest = s.otpRequest ∧
    (modRouter r f s).heldCommands = s.heldCommands ∧ (modRouter r f s).crossReads = s.crossReads := by
  unfold modRouter
  first | (simp; done) | ((try dsimp only); (repeat' split) <;> first | (simp; done) | simp_all | (repeat' split) <;> simp)

@[simp] theorem complete_frame (h : QWord) (status : Nat) (data : List QWord) (s : State) :
    (complete h status data s).pending = s.pending ∧ (complete h status data s).variant = s.variant ∧
    (complete h status data s).otp = s.otp ∧ (complete h status data s).masters.length = s.masters.length ∧
    (complete h status data s).cores.channels.length = s.cores.channels.length ∧
    (complete h status data s).regs.debugLevel = s.regs.debugLevel ∧ (complete h status data s).store.cs = s.store.cs ∧
    (complete h status data s).store.csDev = s.store.csDev ∧ (complete h status data s).store.granules = s.store.granules ∧
    (complete h status data s).pins = s.pins ∧ (complete h status data s).stream = s.stream ∧
    (complete h status data s).power = s.power ∧ (complete h status data s).loader = s.loader ∧
    (complete h status data s).conservator = s.conservator ∧ (complete h status data s).egress = s.egress ∧
    (complete h status data s).repair = s.repair ∧ (complete h status data s).shadow = s.shadow ∧
    (complete h status data s).inForce = s.inForce ∧ (complete h status data s).otpRequest = s.otpRequest ∧
    (complete h status data s).heldCommands = s.heldCommands ∧ (complete h status data s).crossReads = s.crossReads := by
  unfold complete
  first | (simp; done) | ((try dsimp only); (repeat' split) <;> first | (simp; done) | simp_all | (repeat' split) <;> simp)

@[simp] theorem replyAsleep_frame (h : QWord) (s : State) :
    (replyAsleep h s).pending = s.pending ∧ (replyAsleep h s).variant = s.variant ∧ (replyAsleep h s).otp = s.otp ∧
    (replyAsleep h s).masters.length = s.masters.length ∧
    (replyAsleep h s).cores.channels.length = s.cores.channels.length ∧
    (replyAsleep h s).regs.debugLevel = s.regs.debugLevel ∧ (replyAsleep h s).store.cs = s.store.cs ∧
    (replyAsleep h s).store.csDev = s.store.csDev ∧ (replyAsleep h s).store.granules = s.store.granules ∧
    (replyAsleep h s).pins = s.pins ∧ (replyAsleep h s).stream = s.stream ∧ (replyAsleep h s).power = s.power ∧
    (replyAsleep h s).loader = s.loader ∧ (replyAsleep h s).conservator = s.conservator ∧
    (replyAsleep h s).egress = s.egress ∧ (replyAsleep h s).repair = s.repair ∧ (replyAsleep h s).shadow = s.shadow ∧
    (replyAsleep h s).inForce = s.inForce ∧ (replyAsleep h s).otpRequest = s.otpRequest ∧
    (replyAsleep h s).heldCommands = s.heldCommands ∧ (replyAsleep h s).crossReads = s.crossReads := by
  unfold replyAsleep
  first | (simp; done) | ((try dsimp only); (repeat' split) <;> first | (simp; done) | simp_all | (repeat' split) <;> simp)

@[simp] theorem serveRead_frame (h : QWord) (s : State) :
    (serveRead h s).pending = s.pending ∧ (serveRead h s).variant = s.variant ∧ (serveRead h s).otp = s.otp ∧
    (serveRead h s).masters.length = s.masters.length ∧ (serveRead h s).cores.channels.length = s.cores.channels.length ∧
    (serveRead h s).regs.debugLevel = s.regs.debugLevel ∧ (serveRead h s).pins = s.pins ∧
    (serveRead h s).stream = s.stream ∧ (serveRead h s).power = s.power ∧ (serveRead h s).loader = s.loader ∧
    (serveRead h s).conservator = s.conservator ∧ (serveRead h s).egress = s.egress ∧ (serveRead h s).repair = s.repair ∧
    (serveRead h s).shadow = s.shadow ∧ (serveRead h s).inForce = s.inForce ∧ (serveRead h s).otpRequest = s.otpRequest ∧
    (serveRead h s).heldCommands = s.heldCommands ∧ (serveRead h s).crossReads = s.crossReads := by
  unfold serveRead
  first | (simp; done) | ((try dsimp only); (repeat' split) <;> first | (simp; done) | simp_all | (repeat' split) <;> simp)

@[simp] theorem writeFlit_frame (a be : Nat) (d : QWord) (s : State) :
    (writeFlit a be d s).pending = s.pending ∧ (writeFlit a be d s).variant = s.variant ∧ (writeFlit a be d s).otp = s.otp ∧
    (writeFlit a be d s).masters.length = s.masters.length ∧
    (writeFlit a be d s).cores.channels.length = s.cores.channels.length ∧
    (writeFlit a be d s).regs.debugLevel = s.regs.debugLevel ∧ (writeFlit a be d s).pins = s.pins ∧
    (writeFlit a be d s).stream = s.stream ∧ (writeFlit a be d s).power = s.power ∧ (writeFlit a be d s).loader = s.loader ∧
    (writeFlit a be d s).conservator = s.conservator ∧ (writeFlit a be d s).egress = s.egress ∧
    (writeFlit a be d s).repair = s.repair ∧ (writeFlit a be d s).shadow = s.shadow ∧
    (writeFlit a be d s).inForce = s.inForce ∧ (writeFlit a be d s).otpRequest = s.otpRequest ∧
    (writeFlit a be d s).heldCommands = s.heldCommands ∧ (writeFlit a be d s).crossReads = s.crossReads := by
  unfold writeFlit
  first | (simp; done) | ((try dsimp only); (repeat' split) <;> first | (simp; done) | simp_all | (repeat' split) <;> simp)

@[simp] theorem writeFlits_frame (a be : Nat) (ws : List QWord) (s : State) :
    (writeFlits a be ws s).pending = s.pending ∧ (writeFlits a be ws s).variant = s.variant ∧
    (writeFlits a be ws s).otp = s.otp ∧ (writeFlits a be ws s).masters.length = s.masters.length ∧
    (writeFlits a be ws s).cores.channels.length = s.cores.channels.length ∧
    (writeFlits a be ws s).regs.debugLevel = s.regs.debugLevel ∧ (writeFlits a be ws s).pins = s.pins ∧
    (writeFlits a be ws s).stream = s.stream ∧ (writeFlits a be ws s).power = s.power ∧
    (writeFlits a be ws s).loader = s.loader ∧ (writeFlits a be ws s).conservator = s.conservator ∧
    (writeFlits a be ws s).egress = s.egress ∧ (writeFlits a be ws s).repair = s.repair ∧
    (writeFlits a be ws s).shadow = s.shadow ∧ (writeFlits a be ws s).inForce = s.inForce ∧
    (writeFlits a be ws s).otpRequest = s.otpRequest ∧ (writeFlits a be ws s).heldCommands = s.heldCommands ∧
    (writeFlits a be ws s).crossReads = s.crossReads := by
  induction ws generalizing a be s with
  | nil => simp [writeFlits]
  | cons _ _ ih => (simp [writeFlits, ih]; done)

@[simp] theorem serveWrite_frame (h : QWord) (flits : List QWord) (s : State) :
    (serveWrite h flits s).pending = s.pending ∧ (serveWrite h flits s).variant = s.variant ∧
    (serveWrite h flits s).otp = s.otp ∧ (serveWrite h flits s).masters.length = s.masters.length ∧
    (serveWrite h flits s).cores.channels.length = s.cores.channels.length ∧
    (serveWrite h flits s).regs.debugLevel = s.regs.debugLevel ∧ (serveWrite h flits s).pins = s.pins ∧
    (serveWrite h flits s).stream = s.stream ∧ (serveWrite h flits s).power = s.power ∧
    (serveWrite h flits s).loader = s.loader ∧ (serveWrite h flits s).conservator = s.conservator ∧
    (serveWrite h flits s).egress = s.egress ∧ (serveWrite h flits s).repair = s.repair ∧
    (serveWrite h flits s).shadow = s.shadow ∧ (serveWrite h flits s).inForce = s.inForce ∧
    (serveWrite h flits s).otpRequest = s.otpRequest ∧ (serveWrite h flits s).heldCommands = s.heldCommands ∧
    (serveWrite h flits s).crossReads = s.crossReads := by
  unfold serveWrite
  first | (simp; done) | ((try dsimp only); (repeat' split) <;> first | (simp; done) | simp_all | (repeat' split) <;> simp)

@[simp] theorem serveExcl_frame (h : QWord) (s : State) :
    (serveExcl h s).pending = s.pending ∧ (serveExcl h s).variant = s.variant ∧ (serveExcl h s).otp = s.otp ∧
    (serveExcl h s).masters.length = s.masters.length ∧ (serveExcl h s).cores.channels.length = s.cores.channels.length ∧
    (serveExcl h s).regs.debugLevel = s.regs.debugLevel ∧ (serveExcl h s).pins = s.pins ∧
    (serveExcl h s).stream = s.stream ∧ (serveExcl h s).power = s.power ∧ (serveExcl h s).loader = s.loader ∧
    (serveExcl h s).conservator = s.conservator ∧ (serveExcl h s).egress = s.egress ∧ (serveExcl h s).repair = s.repair ∧
    (serveExcl h s).shadow = s.shadow ∧ (serveExcl h s).inForce = s.inForce ∧ (serveExcl h s).otpRequest = s.otpRequest ∧
    (serveExcl h s).heldCommands = s.heldCommands ∧ (serveExcl h s).crossReads = s.crossReads := by
  unfold serveExcl
  first | (simp; done) | ((try dsimp only); (repeat' split) <;> first | (simp; done) | simp_all | (repeat' split) <;> simp)

@[simp] theorem serveCond_frame (h : QWord) (flits : List QWord) (s : State) :
    (serveCond h flits s).pending = s.pending ∧ (serveCond h flits s).variant = s.variant ∧
    (serveCond h flits s).otp = s.otp ∧ (serveCond h flits s).masters.length = s.masters.length ∧
    (serveCond h flits s).cores.channels.length = s.cores.channels.length ∧
    (serveCond h flits s).regs.debugLevel = s.regs.debugLevel ∧ (serveCond h flits s).pins = s.pins ∧
    (serveCond h flits s).stream = s.stream ∧ (serveCond h flits s).power = s.power ∧
    (serveCond h flits s).loader = s.loader ∧ (serveCond h flits s).conservator = s.conservator ∧
    (serveCond h flits s).egress = s.egress ∧ (serveCond h flits s).repair = s.repair ∧
    (serveCond h flits s).shadow = s.shadow ∧ (serveCond h flits s).inForce = s.inForce ∧
    (serveCond h flits s).otpRequest = s.otpRequest ∧ (serveCond h flits s).heldCommands = s.heldCommands ∧
    (serveCond h flits s).crossReads = s.crossReads := by
  unfold serveCond
  first | (simp; done) | ((try dsimp only); (repeat' split) <;> first | (simp; done) | simp_all | (repeat' split) <;> simp)

@[simp] theorem serveOther_frame (h : QWord) (s : State) :
    (serveOther h s).pending = s.pending ∧ (serveOther h s).variant = s.variant ∧ (serveOther h s).otp = s.otp ∧
    (serveOther h s).masters.length = s.masters.length ∧ (serveOther h s).cores.channels.length = s.cores.channels.length ∧
    (serveOther h s).regs.debugLevel = s.regs.debugLevel ∧ (serveOther h s).store.cs = s.store.cs ∧
    (serveOther h s).store.csDev = s.store.csDev ∧ (serveOther h s).store.granules = s.store.granules ∧
    (serveOther h s).pins = s.pins ∧ (serveOther h s).stream = s.stream ∧ (serveOther h s).power = s.power ∧
    (serveOther h s).loader = s.loader ∧ (serveOther h s).conservator = s.conservator ∧ (serveOther h s).egress = s.egress ∧
    (serveOther h s).repair = s.repair ∧ (serveOther h s).shadow = s.shadow ∧ (serveOther h s).inForce = s.inForce ∧
    (serveOther h s).otpRequest = s.otpRequest ∧ (serveOther h s).heldCommands = s.heldCommands ∧
    (serveOther h s).crossReads = s.crossReads := by
  unfold serveOther
  first | (simp; done) | ((try dsimp only); (repeat' split) <;> first | (simp; done) | simp_all | (repeat' split) <;> simp)

@[simp] theorem serveAt_frame (h : QWord) (flits : List QWord) (s : State) :
    (serveAt h flits s).pending = s.pending ∧ (serveAt h flits s).variant = s.variant ∧ (serveAt h flits s).otp = s.otp ∧
    (serveAt h flits s).masters.length = s.masters.length ∧
    (serveAt h flits s).cores.channels.length = s.cores.channels.length ∧
    (serveAt h flits s).regs.debugLevel = s.regs.debugLevel ∧ (serveAt h flits s).pins = s.pins ∧
    (serveAt h flits s).stream = s.stream ∧ (serveAt h flits s).power = s.power ∧ (serveAt h flits s).loader = s.loader ∧
    (serveAt h flits s).conservator = s.conservator ∧ (serveAt h flits s).egress = s.egress ∧
    (serveAt h flits s).repair = s.repair ∧ (serveAt h flits s).shadow = s.shadow ∧
    (serveAt h flits s).inForce = s.inForce ∧ (serveAt h flits s).otpRequest = s.otpRequest ∧
    (serveAt h flits s).heldCommands = s.heldCommands ∧ (serveAt h flits s).crossReads = s.crossReads := by
  unfold serveAt
  first | (simp; done) | ((try dsimp only); (repeat' split) <;> first | (simp; done) | simp_all | (repeat' split) <;> simp)

@[simp] theorem serve_frame (h : QWord) (flits : List QWord) (s : State) :
    (serve h flits s).pending = s.pending ∧ (serve h flits s).variant = s.variant ∧ (serve h flits s).otp = s.otp ∧
    (serve h flits s).masters.length = s.masters.length ∧
    (serve h flits s).cores.channels.length = s.cores.channels.length ∧
    (serve h flits s).regs.debugLevel = s.regs.debugLevel ∧ (serve h flits s).pins = s.pins ∧
    (serve h flits s).stream = s.stream ∧ (serve h flits s).power = s.power ∧ (serve h flits s).loader = s.loader ∧
    (serve h flits s).conservator = s.conservator ∧ (serve h flits s).egress = s.egress ∧
    (serve h flits s).repair = s.repair ∧ (serve h flits s).shadow = s.shadow ∧ (serve h flits s).inForce = s.inForce ∧
    (serve h flits s).otpRequest = s.otpRequest ∧ (serve h flits s).heldCommands = s.heldCommands ∧
    (serve h flits s).crossReads = s.crossReads := by
  unfold serve
  first | (simp; done) | ((try dsimp only); (repeat' split) <;> first | (simp; done) | simp_all | (repeat' split) <;> simp)

@[simp] theorem request_frame (op : Nat) (h : QWord) (flits : List QWord) (s : State) :
    (request op h flits s).pending = s.pending ∧ (request op h flits s).variant = s.variant ∧
    (request op h flits s).otp = s.otp ∧ (request op h flits s).masters.length = s.masters.length ∧
    (request op h flits s).cores.channels.length = s.cores.channels.length ∧
    (request op h flits s).regs.debugLevel = s.regs.debugLevel ∧ (request op h flits s).pins = s.pins ∧
    (request op h flits s).stream = s.stream ∧ (request op h flits s).power = s.power ∧
    (request op h flits s).loader = s.loader ∧ (request op h flits s).conservator = s.conservator ∧
    (request op h flits s).egress = s.egress ∧ (request op h flits s).repair = s.repair ∧
    (request op h flits s).shadow = s.shadow ∧ (request op h flits s).inForce = s.inForce ∧
    (request op h flits s).otpRequest = s.otpRequest ∧ (request op h flits s).heldCommands = s.heldCommands ∧
    (request op h flits s).crossReads = s.crossReads := by
  unfold request
  first | (simp; done) | ((try dsimp only); (repeat' split) <;> first | (simp; done) | simp_all | (repeat' split) <;> simp)

@[simp] theorem abortRead_frame (h : QWord) (r : NocRequest) (s : State) :
    (abortRead h r s).pending = s.pending ∧ (abortRead h r s).variant = s.variant ∧ (abortRead h r s).otp = s.otp ∧
    (abortRead h r s).masters.length = s.masters.length ∧
    (abortRead h r s).cores.channels.length = s.cores.channels.length ∧
    (abortRead h r s).regs.debugLevel = s.regs.debugLevel ∧ (abortRead h r s).store.cs = s.store.cs ∧
    (abortRead h r s).store.csDev = s.store.csDev ∧ (abortRead h r s).store.granules = s.store.granules ∧
    (abortRead h r s).pins = s.pins ∧ (abortRead h r s).stream = s.stream ∧ (abortRead h r s).power = s.power ∧
    (abortRead h r s).loader = s.loader ∧ (abortRead h r s).conservator = s.conservator ∧
    (abortRead h r s).egress = s.egress ∧ (abortRead h r s).repair = s.repair ∧ (abortRead h r s).shadow = s.shadow ∧
    (abortRead h r s).inForce = s.inForce ∧ (abortRead h r s).otpRequest = s.otpRequest ∧
    (abortRead h r s).heldCommands = s.heldCommands ∧ (abortRead h r s).crossReads = s.crossReads := by
  unfold abortRead
  first | (simp; done) | ((try dsimp only); (repeat' split) <;> first | (simp; done) | simp_all | (repeat' split) <;> simp)

@[simp] theorem takeCompletion_frame (h : QWord) (s : State) :
    (takeCompletion h s).pending = s.pending ∧ (takeCompletion h s).variant = s.variant ∧ (takeCompletion h s).otp = s.otp ∧
    (takeCompletion h s).masters.length = s.masters.length ∧
    (takeCompletion h s).cores.channels.length = s.cores.channels.length ∧
    (takeCompletion h s).regs.debugLevel = s.regs.debugLevel ∧ (takeCompletion h s).store.cs = s.store.cs ∧
    (takeCompletion h s).store.csDev = s.store.csDev ∧ (takeCompletion h s).store.granules = s.store.granules ∧
    (takeCompletion h s).pins = s.pins ∧ (takeCompletion h s).stream = s.stream ∧ (takeCompletion h s).power = s.power ∧
    (takeCompletion h s).loader = s.loader ∧ (takeCompletion h s).conservator = s.conservator ∧
    (takeCompletion h s).egress = s.egress ∧ (takeCompletion h s).repair = s.repair ∧
    (takeCompletion h s).shadow = s.shadow ∧ (takeCompletion h s).inForce = s.inForce ∧
    (takeCompletion h s).otpRequest = s.otpRequest ∧ (takeCompletion h s).heldCommands = s.heldCommands ∧
    (takeCompletion h s).crossReads = s.crossReads := by
  unfold takeCompletion
  first | (simp; done) | ((try dsimp only); (repeat' split) <;> first | (simp; done) | simp_all | (repeat' split) <;> simp)

@[simp] theorem switchRoutes_frame (entries : List (Nat × Word)) (s : State) :
    (switchRoutes entries s).pending = s.pending ∧ (switchRoutes entries s).variant = s.variant ∧
    (switchRoutes entries s).otp = s.otp ∧ (switchRoutes entries s).masters.length = s.masters.length ∧
    (switchRoutes entries s).cores.channels.length = s.cores.channels.length ∧
    (switchRoutes entries s).regs.debugLevel = s.regs.debugLevel ∧ (switchRoutes entries s).store.cs = s.store.cs ∧
    (switchRoutes entries s).store.csDev = s.store.csDev ∧ (switchRoutes entries s).store.granules = s.store.granules ∧
    (switchRoutes entries s).pins = s.pins ∧ (switchRoutes entries s).stream = s.stream ∧
    (switchRoutes entries s).power = s.power ∧ (switchRoutes entries s).loader = s.loader ∧
    (switchRoutes entries s).conservator = s.conservator ∧ (switchRoutes entries s).egress = s.egress ∧
    (switchRoutes entries s).repair = s.repair ∧ (switchRoutes entries s).shadow = s.shadow ∧
    (switchRoutes entries s).inForce = s.inForce ∧ (switchRoutes entries s).otpRequest = s.otpRequest ∧
    (switchRoutes entries s).heldCommands = s.heldCommands ∧ (switchRoutes entries s).crossReads = s.crossReads := by
  unfold switchRoutes
  first | (simp; done) | ((try dsimp only); (repeat' split) <;> first | (simp; done) | simp_all | (repeat' split) <;> simp)

@[simp] theorem copyBank_frame (b : Nat) (s : State) :
    (copyBank b s).pending = s.pending ∧ (copyBank b s).variant = s.variant ∧ (copyBank b s).otp = s.otp ∧
    (copyBank b s).masters.length = s.masters.length ∧ (copyBank b s).cores.channels.length = s.cores.channels.length ∧
    (copyBank b s).regs.debugLevel = s.regs.debugLevel ∧ (copyBank b s).pins = s.pins ∧ (copyBank b s).stream = s.stream ∧
    (copyBank b s).power = s.power ∧ (copyBank b s).loader = s.loader ∧ (copyBank b s).conservator = s.conservator ∧
    (copyBank b s).egress = s.egress ∧ (copyBank b s).repair = s.repair ∧ (copyBank b s).shadow = s.shadow ∧
    (copyBank b s).inForce = s.inForce ∧ (copyBank b s).otpRequest = s.otpRequest ∧
    (copyBank b s).heldCommands = s.heldCommands ∧ (copyBank b s).crossReads = s.crossReads := by
  unfold copyBank
  first | (simp; done) | ((try dsimp only); (repeat' split) <;> first | (simp; done) | simp_all | (repeat' split) <;> simp)

@[simp] theorem reportField_frame (code : Nat) (s : State) :
    (reportField code s).pending = s.pending ∧ (reportField code s).variant = s.variant ∧ (reportField code s).otp = s.otp ∧
    (reportField code s).masters.length = s.masters.length ∧
    (reportField code s).cores.channels.length = s.cores.channels.length ∧
    (reportField code s).regs.debugLevel = s.regs.debugLevel ∧ (reportField code s).store.cs = s.store.cs ∧
    (reportField code s).store.csDev = s.store.csDev ∧ (reportField code s).store.granules = s.store.granules ∧
    (reportField code s).pins = s.pins ∧ (reportField code s).stream = s.stream ∧ (reportField code s).power = s.power ∧
    (reportField code s).loader = s.loader ∧ (reportField code s).conservator = s.conservator ∧
    (reportField code s).egress = s.egress ∧ (reportField code s).repair = s.repair ∧
    (reportField code s).shadow = s.shadow ∧ (reportField code s).inForce = s.inForce ∧
    (reportField code s).otpRequest = s.otpRequest ∧ (reportField code s).heldCommands = s.heldCommands ∧
    (reportField code s).crossReads = s.crossReads := by
  unfold reportField
  first | (simp; done) | ((try dsimp only); (repeat' split) <;> first | (simp; done) | simp_all | (repeat' split) <;> simp)

@[simp] theorem putRequest_frame (v : Nat) (s : State) :
    (putRequest v s).pending = s.pending ∧ (putRequest v s).variant = s.variant ∧ (putRequest v s).otp = s.otp ∧
    (putRequest v s).masters.length = s.masters.length ∧ (putRequest v s).cores.channels.length = s.cores.channels.length ∧
    (putRequest v s).regs.debugLevel = s.regs.debugLevel ∧ (putRequest v s).store.cs = s.store.cs ∧
    (putRequest v s).store.csDev = s.store.csDev ∧ (putRequest v s).store.granules = s.store.granules ∧
    (putRequest v s).pins = s.pins ∧ (putRequest v s).stream = s.stream ∧ (putRequest v s).power = s.power ∧
    (putRequest v s).loader = s.loader ∧ (putRequest v s).conservator = s.conservator ∧ (putRequest v s).egress = s.egress ∧
    (putRequest v s).repair = s.repair ∧ (putRequest v s).shadow = s.shadow ∧ (putRequest v s).inForce = s.inForce ∧
    (putRequest v s).otpRequest = s.otpRequest ∧ (putRequest v s).heldCommands = s.heldCommands ∧
    (putRequest v s).crossReads = s.crossReads := by
  unfold putRequest
  first | (simp; done) | ((try dsimp only); (repeat' split) <;> first | (simp; done) | simp_all | (repeat' split) <;> simp)

@[simp] theorem requestField_frame (v : Nat) (s : State) :
    (requestField v s).pending = s.pending ∧ (requestField v s).variant = s.variant ∧ (requestField v s).otp = s.otp ∧
    (requestField v s).masters.length = s.masters.length ∧
    (requestField v s).cores.channels.length = s.cores.channels.length ∧
    (requestField v s).regs.debugLevel = s.regs.debugLevel ∧ (requestField v s).store.cs = s.store.cs ∧
    (requestField v s).store.csDev = s.store.csDev ∧ (requestField v s).store.granules = s.store.granules ∧
    (requestField v s).pins = s.pins ∧ (requestField v s).stream = s.stream ∧ (requestField v s).power = s.power ∧
    (requestField v s).loader = s.loader ∧ (requestField v s).conservator = s.conservator ∧
    (requestField v s).egress = s.egress ∧ (requestField v s).repair = s.repair ∧ (requestField v s).shadow = s.shadow ∧
    (requestField v s).inForce = s.inForce ∧ (requestField v s).otpRequest = s.otpRequest ∧
    (requestField v s).heldCommands = s.heldCommands ∧ (requestField v s).crossReads = s.crossReads := by
  unfold requestField
  first | (simp; done) | ((try dsimp only); (repeat' split) <;> first | (simp; done) | simp_all | (repeat' split) <;> simp)

@[simp] theorem holdPins_frame (is : List Nat) (s : State) :
    (holdPins is s).pending = s.pending ∧ (holdPins is s).variant = s.variant ∧ (holdPins is s).otp = s.otp ∧
    (holdPins is s).masters.length = s.masters.length ∧ (holdPins is s).cores.channels.length = s.cores.channels.length ∧
    (holdPins is s).regs.debugLevel = s.regs.debugLevel ∧ (holdPins is s).store.cs = s.store.cs ∧
    (holdPins is s).store.csDev = s.store.csDev ∧ (holdPins is s).store.granules = s.store.granules ∧
    (holdPins is s).stream = s.stream ∧ (holdPins is s).power = s.power ∧ (holdPins is s).loader = s.loader ∧
    (holdPins is s).conservator = s.conservator ∧ (holdPins is s).egress = s.egress ∧ (holdPins is s).repair = s.repair ∧
    (holdPins is s).shadow = s.shadow ∧ (holdPins is s).inForce = s.inForce ∧ (holdPins is s).otpRequest = s.otpRequest ∧
    (holdPins is s).heldCommands = s.heldCommands ∧ (holdPins is s).crossReads = s.crossReads ∧
    (holdPins is s).pins.pins.length = s.pins.pins.length := by
  unfold holdPins
  first | (simp; done) | ((try dsimp only); (repeat' split) <;> first | (simp; done) | simp_all | (repeat' split) <;> simp)

@[simp] theorem freePins_frame (is : List Nat) (s : State) :
    (freePins is s).pending = s.pending ∧ (freePins is s).variant = s.variant ∧ (freePins is s).otp = s.otp ∧
    (freePins is s).masters.length = s.masters.length ∧ (freePins is s).cores.channels.length = s.cores.channels.length ∧
    (freePins is s).regs.debugLevel = s.regs.debugLevel ∧ (freePins is s).store.cs = s.store.cs ∧
    (freePins is s).store.csDev = s.store.csDev ∧ (freePins is s).store.granules = s.store.granules ∧
    (freePins is s).stream = s.stream ∧ (freePins is s).power = s.power ∧ (freePins is s).loader = s.loader ∧
    (freePins is s).conservator = s.conservator ∧ (freePins is s).egress = s.egress ∧ (freePins is s).repair = s.repair ∧
    (freePins is s).shadow = s.shadow ∧ (freePins is s).inForce = s.inForce ∧ (freePins is s).otpRequest = s.otpRequest ∧
    (freePins is s).heldCommands = s.heldCommands ∧ (freePins is s).crossReads = s.crossReads ∧
    (freePins is s).pins.pins.length = s.pins.pins.length := by
  unfold freePins
  first | (simp; done) | ((try dsimp only); (repeat' split) <;> first | (simp; done) | simp_all | (repeat' split) <;> simp)

@[simp] theorem hostSleep_frame (pcieDown : Bool) (s : State) :
    (hostSleep pcieDown s).pending = s.pending ∧ (hostSleep pcieDown s).variant = s.variant ∧
    (hostSleep pcieDown s).otp = s.otp ∧ (hostSleep pcieDown s).masters.length = s.masters.length ∧
    (hostSleep pcieDown s).cores.channels.length = s.cores.channels.length ∧
    (hostSleep pcieDown s).regs.debugLevel = s.regs.debugLevel ∧ (hostSleep pcieDown s).store.cs = s.store.cs ∧
    (hostSleep pcieDown s).store.csDev = s.store.csDev ∧ (hostSleep pcieDown s).store.granules = s.store.granules ∧
    (hostSleep pcieDown s).stream = s.stream ∧ (hostSleep pcieDown s).loader = s.loader ∧
    (hostSleep pcieDown s).conservator = s.conservator ∧ (hostSleep pcieDown s).egress = s.egress ∧
    (hostSleep pcieDown s).repair = s.repair ∧ (hostSleep pcieDown s).shadow = s.shadow ∧
    (hostSleep pcieDown s).inForce = s.inForce ∧ (hostSleep pcieDown s).otpRequest = s.otpRequest ∧
    (hostSleep pcieDown s).heldCommands = s.heldCommands ∧ (hostSleep pcieDown s).crossReads = s.crossReads ∧
    (hostSleep pcieDown s).pins.pins.length = s.pins.pins.length := by
  unfold hostSleep
  first | (simp; done) | ((try dsimp only); (repeat' split) <;> first | (simp; done) | simp_all | (repeat' split) <;> simp)

@[simp] theorem wakeHost_frame  (s : State) :
    (wakeHost s).pending = s.pending ∧ (wakeHost s).variant = s.variant ∧ (wakeHost s).otp = s.otp ∧
    (wakeHost s).masters.length = s.masters.length ∧ (wakeHost s).cores.channels.length = s.cores.channels.length ∧
    (wakeHost s).regs.debugLevel = s.regs.debugLevel ∧ (wakeHost s).store.cs = s.store.cs ∧
    (wakeHost s).store.csDev = s.store.csDev ∧ (wakeHost s).store.granules = s.store.granules ∧ (wakeHost s).pins = s.pins ∧
    (wakeHost s).stream = s.stream ∧ (wakeHost s).loader = s.loader ∧ (wakeHost s).conservator = s.conservator ∧
    (wakeHost s).egress = s.egress ∧ (wakeHost s).repair = s.repair ∧ (wakeHost s).shadow = s.shadow ∧
    (wakeHost s).inForce = s.inForce ∧ (wakeHost s).otpRequest = s.otpRequest ∧ (wakeHost s).heldCommands = s.heldCommands ∧
    (wakeHost s).crossReads = s.crossReads := by
  unfold wakeHost
  first | (simp; done) | ((try dsimp only); (repeat' split) <;> first | (simp; done) | simp_all | (repeat' split) <;> simp)

@[simp] theorem wakePins_frame (p : WakeSample) (s : State) :
    (wakePins p s).pending = s.pending ∧ (wakePins p s).variant = s.variant ∧ (wakePins p s).otp = s.otp ∧
    (wakePins p s).masters.length = s.masters.length ∧ (wakePins p s).cores.channels.length = s.cores.channels.length ∧
    (wakePins p s).regs.debugLevel = s.regs.debugLevel ∧ (wakePins p s).store.cs = s.store.cs ∧
    (wakePins p s).store.csDev = s.store.csDev ∧ (wakePins p s).store.granules = s.store.granules ∧
    (wakePins p s).pins = s.pins ∧ (wakePins p s).stream = s.stream ∧ (wakePins p s).loader = s.loader ∧
    (wakePins p s).conservator = s.conservator ∧ (wakePins p s).egress = s.egress ∧ (wakePins p s).repair = s.repair ∧
    (wakePins p s).shadow = s.shadow ∧ (wakePins p s).inForce = s.inForce ∧ (wakePins p s).otpRequest = s.otpRequest ∧
    (wakePins p s).heldCommands = s.heldCommands ∧ (wakePins p s).crossReads = s.crossReads := by
  unfold wakePins
  first | (simp; done) | ((try dsimp only); (repeat' split) <;> first | (simp; done) | simp_all | (repeat' split) <;> simp)

@[simp] theorem rebaseTime_frame  (s : State) :
    (rebaseTime s).pending = s.pending ∧ (rebaseTime s).variant = s.variant ∧ (rebaseTime s).otp = s.otp ∧
    (rebaseTime s).masters.length = s.masters.length ∧ (rebaseTime s).cores.channels.length = s.cores.channels.length ∧
    (rebaseTime s).regs.debugLevel = s.regs.debugLevel ∧ (rebaseTime s).store.cs = s.store.cs ∧
    (rebaseTime s).store.csDev = s.store.csDev ∧ (rebaseTime s).store.granules = s.store.granules ∧
    (rebaseTime s).pins = s.pins ∧ (rebaseTime s).stream = s.stream ∧ (rebaseTime s).loader = s.loader ∧
    (rebaseTime s).conservator = s.conservator ∧ (rebaseTime s).egress = s.egress ∧ (rebaseTime s).repair = s.repair ∧
    (rebaseTime s).shadow = s.shadow ∧ (rebaseTime s).inForce = s.inForce ∧ (rebaseTime s).otpRequest = s.otpRequest ∧
    (rebaseTime s).heldCommands = s.heldCommands ∧ (rebaseTime s).crossReads = s.crossReads := by
  unfold rebaseTime
  first | (simp; done) | ((try dsimp only); (repeat' split) <;> first | (simp; done) | simp_all | (repeat' split) <;> simp)

@[simp] theorem startRelock_frame (new : Word) (s0 : State) :
    (startRelock new s0).pending = s0.pending ∧ (startRelock new s0).variant = s0.variant ∧
    (startRelock new s0).otp = s0.otp ∧ (startRelock new s0).masters.length = s0.masters.length ∧
    (startRelock new s0).cores.channels.length = s0.cores.channels.length ∧
    (startRelock new s0).regs.debugLevel = s0.regs.debugLevel ∧ (startRelock new s0).store.cs = s0.store.cs ∧
    (startRelock new s0).store.csDev = s0.store.csDev ∧ (startRelock new s0).store.granules = s0.store.granules ∧
    (startRelock new s0).pins = s0.pins ∧ (startRelock new s0).stream = s0.stream ∧
    (startRelock new s0).loader = s0.loader ∧ (startRelock new s0).conservator = s0.conservator ∧
    (startRelock new s0).egress = s0.egress ∧ (startRelock new s0).repair = s0.repair ∧
    (startRelock new s0).shadow = s0.shadow ∧ (startRelock new s0).inForce = s0.inForce ∧
    (startRelock new s0).otpRequest = s0.otpRequest ∧ (startRelock new s0).heldCommands = s0.heldCommands ∧
    (startRelock new s0).crossReads = s0.crossReads := by
  unfold startRelock
  first | (simp; done) | ((try dsimp only); (repeat' split) <;> first | (simp; done) | simp_all | (repeat' split) <;> simp)

@[simp] theorem sleepLinks_frame  (s : State) :
    (sleepLinks s).pending = s.pending ∧ (sleepLinks s).variant = s.variant ∧ (sleepLinks s).otp = s.otp ∧
    (sleepLinks s).masters.length = s.masters.length ∧ (sleepLinks s).cores.channels.length = s.cores.channels.length ∧
    (sleepLinks s).regs.debugLevel = s.regs.debugLevel ∧ (sleepLinks s).store.cs = s.store.cs ∧
    (sleepLinks s).store.csDev = s.store.csDev ∧ (sleepLinks s).store.granules = s.store.granules ∧
    (sleepLinks s).pins = s.pins ∧ (sleepLinks s).stream = s.stream ∧ (sleepLinks s).power = s.power ∧
    (sleepLinks s).loader = s.loader ∧ (sleepLinks s).conservator = s.conservator ∧ (sleepLinks s).egress = s.egress ∧
    (sleepLinks s).repair = s.repair ∧ (sleepLinks s).shadow = s.shadow ∧ (sleepLinks s).inForce = s.inForce ∧
    (sleepLinks s).otpRequest = s.otpRequest ∧ (sleepLinks s).heldCommands = s.heldCommands ∧
    (sleepLinks s).crossReads = s.crossReads := by
  unfold sleepLinks
  first | (simp; done) | ((try dsimp only); (repeat' split) <;> first | (simp; done) | simp_all | (repeat' split) <;> simp)

@[simp] theorem leaveArmed_frame  (s : State) :
    (leaveArmed s).pending = s.pending ∧ (leaveArmed s).variant = s.variant ∧ (leaveArmed s).otp = s.otp ∧
    (leaveArmed s).masters.length = s.masters.length ∧ (leaveArmed s).cores.channels.length = s.cores.channels.length ∧
    (leaveArmed s).regs.debugLevel = s.regs.debugLevel ∧ (leaveArmed s).store.cs = s.store.cs ∧
    (leaveArmed s).store.csDev = s.store.csDev ∧ (leaveArmed s).store.granules = s.store.granules ∧
    (leaveArmed s).pins = s.pins ∧ (leaveArmed s).stream = s.stream ∧ (leaveArmed s).loader = s.loader ∧
    (leaveArmed s).conservator = s.conservator ∧ (leaveArmed s).egress = s.egress ∧ (leaveArmed s).repair = s.repair ∧
    (leaveArmed s).shadow = s.shadow ∧ (leaveArmed s).inForce = s.inForce ∧ (leaveArmed s).otpRequest = s.otpRequest ∧
    (leaveArmed s).heldCommands = s.heldCommands ∧ (leaveArmed s).crossReads = s.crossReads := by
  unfold leaveArmed
  first | (simp; done) | ((try dsimp only); (repeat' split) <;> first | (simp; done) | simp_all | (repeat' split) <;> simp)

@[simp] theorem leaveOff_frame  (s : State) :
    (leaveOff s).pending = s.pending ∧ (leaveOff s).variant = s.variant ∧ (leaveOff s).otp = s.otp ∧
    (leaveOff s).masters.length = s.masters.length ∧ (leaveOff s).cores.channels.length = s.cores.channels.length ∧
    (leaveOff s).regs.debugLevel = s.regs.debugLevel ∧ (leaveOff s).store.cs = s.store.cs ∧
    (leaveOff s).store.csDev = s.store.csDev ∧ (leaveOff s).store.granules = s.store.granules ∧
    (leaveOff s).stream = s.stream ∧ (leaveOff s).loader = s.loader ∧ (leaveOff s).conservator = s.conservator ∧
    (leaveOff s).egress = s.egress ∧ (leaveOff s).repair = s.repair ∧ (leaveOff s).shadow = s.shadow ∧
    (leaveOff s).inForce = s.inForce ∧ (leaveOff s).otpRequest = s.otpRequest ∧ (leaveOff s).heldCommands = s.heldCommands ∧
    (leaveOff s).crossReads = s.crossReads ∧ (leaveOff s).pins.pins.length = s.pins.pins.length := by
  unfold leaveOff
  first | (simp; done) | ((try dsimp only); (repeat' split) <;> first | (simp; done) | simp_all | (repeat' split) <;> simp)

@[simp] theorem leaveDormant_frame  (s : State) :
    (leaveDormant s).pending = s.pending ∧ (leaveDormant s).variant = s.variant ∧ (leaveDormant s).otp = s.otp ∧
    (leaveDormant s).masters.length = s.masters.length ∧ (leaveDormant s).cores.channels.length = s.cores.channels.length ∧
    (leaveDormant s).regs.debugLevel = s.regs.debugLevel ∧ (leaveDormant s).store.cs = s.store.cs ∧
    (leaveDormant s).store.csDev = s.store.csDev ∧ (leaveDormant s).store.granules = s.store.granules ∧
    (leaveDormant s).stream = s.stream ∧ (leaveDormant s).loader = s.loader ∧ (leaveDormant s).conservator = s.conservator ∧
    (leaveDormant s).egress = s.egress ∧ (leaveDormant s).repair = s.repair ∧ (leaveDormant s).shadow = s.shadow ∧
    (leaveDormant s).inForce = s.inForce ∧ (leaveDormant s).otpRequest = s.otpRequest ∧
    (leaveDormant s).heldCommands = s.heldCommands ∧ (leaveDormant s).crossReads = s.crossReads ∧
    (leaveDormant s).pins.pins.length = s.pins.pins.length := by
  unfold leaveDormant
  first | (simp; done) | ((try dsimp only); (repeat' split) <;> first | (simp; done) | simp_all | (repeat' split) <;> simp)

@[simp] theorem enterDormant_frame  (s : State) :
    (enterDormant s).pending = s.pending ∧ (enterDormant s).variant = s.variant ∧ (enterDormant s).otp = s.otp ∧
    (enterDormant s).masters.length = s.masters.length ∧ (enterDormant s).cores.channels.length = s.cores.channels.length ∧
    (enterDormant s).regs.debugLevel = s.regs.debugLevel ∧ (enterDormant s).store.cs = s.store.cs ∧
    (enterDormant s).store.csDev = s.store.csDev ∧ (enterDormant s).store.granules = s.store.granules ∧
    (enterDormant s).stream = s.stream ∧ (enterDormant s).loader = s.loader ∧ (enterDormant s).conservator = s.conservator ∧
    (enterDormant s).egress = s.egress ∧ (enterDormant s).repair = s.repair ∧ (enterDormant s).shadow = s.shadow ∧
    (enterDormant s).inForce = s.inForce ∧ (enterDormant s).otpRequest = s.otpRequest ∧
    (enterDormant s).heldCommands = s.heldCommands ∧ (enterDormant s).crossReads = s.crossReads ∧
    (enterDormant s).pins.pins.length = s.pins.pins.length := by
  unfold enterDormant
  first | (simp; done) | ((try dsimp only); (repeat' split) <;> first | (simp; done) | simp_all | (repeat' split) <;> simp)

@[simp] theorem enterArmed_frame  (s : State) :
    (enterArmed s).pending = s.pending ∧ (enterArmed s).variant = s.variant ∧ (enterArmed s).otp = s.otp ∧
    (enterArmed s).masters.length = s.masters.length ∧ (enterArmed s).cores.channels.length = s.cores.channels.length ∧
    (enterArmed s).regs.debugLevel = s.regs.debugLevel ∧ (enterArmed s).store.cs = s.store.cs ∧
    (enterArmed s).store.csDev = s.store.csDev ∧ (enterArmed s).store.granules = s.store.granules ∧
    (enterArmed s).pins = s.pins ∧ (enterArmed s).stream = s.stream ∧ (enterArmed s).loader = s.loader ∧
    (enterArmed s).conservator = s.conservator ∧ (enterArmed s).egress = s.egress ∧ (enterArmed s).repair = s.repair ∧
    (enterArmed s).shadow = s.shadow ∧ (enterArmed s).inForce = s.inForce ∧ (enterArmed s).otpRequest = s.otpRequest ∧
    (enterArmed s).heldCommands = s.heldCommands ∧ (enterArmed s).crossReads = s.crossReads := by
  unfold enterArmed
  first | (simp; done) | ((try dsimp only); (repeat' split) <;> first | (simp; done) | simp_all | (repeat' split) <;> simp)

@[simp] theorem fieldArrives_frame  (s : State) :
    (fieldArrives s).pending = s.pending ∧ (fieldArrives s).variant = s.variant ∧ (fieldArrives s).otp = s.otp ∧
    (fieldArrives s).masters.length = s.masters.length ∧ (fieldArrives s).cores.channels.length = s.cores.channels.length ∧
    (fieldArrives s).regs.debugLevel = s.regs.debugLevel ∧ (fieldArrives s).store.cs = s.store.cs ∧
    (fieldArrives s).store.csDev = s.store.csDev ∧ (fieldArrives s).store.granules = s.store.granules ∧
    (fieldArrives s).stream = s.stream ∧ (fieldArrives s).loader = s.loader ∧ (fieldArrives s).conservator = s.conservator ∧
    (fieldArrives s).egress = s.egress ∧ (fieldArrives s).repair = s.repair ∧ (fieldArrives s).shadow = s.shadow ∧
    (fieldArrives s).inForce = s.inForce ∧ (fieldArrives s).otpRequest = s.otpRequest ∧
    (fieldArrives s).heldCommands = s.heldCommands ∧ (fieldArrives s).crossReads = s.crossReads ∧
    (fieldArrives s).pins.pins.length = s.pins.pins.length := by
  unfold fieldArrives
  first | (simp; done) | ((try dsimp only); (repeat' split) <;> first | (simp; done) | simp_all | (repeat' split) <;> simp)

@[simp] theorem hostArrives_frame  (s : State) :
    (hostArrives s).pending = s.pending ∧ (hostArrives s).variant = s.variant ∧ (hostArrives s).otp = s.otp ∧
    (hostArrives s).masters.length = s.masters.length ∧ (hostArrives s).cores.channels.length = s.cores.channels.length ∧
    (hostArrives s).regs.debugLevel = s.regs.debugLevel ∧ (hostArrives s).store.cs = s.store.cs ∧
    (hostArrives s).store.csDev = s.store.csDev ∧ (hostArrives s).store.granules = s.store.granules ∧
    (hostArrives s).stream = s.stream ∧ (hostArrives s).loader = s.loader ∧ (hostArrives s).conservator = s.conservator ∧
    (hostArrives s).egress = s.egress ∧ (hostArrives s).repair = s.repair ∧ (hostArrives s).shadow = s.shadow ∧
    (hostArrives s).inForce = s.inForce ∧ (hostArrives s).otpRequest = s.otpRequest ∧
    (hostArrives s).heldCommands = s.heldCommands ∧ (hostArrives s).crossReads = s.crossReads ∧
    (hostArrives s).pins.pins.length = s.pins.pins.length := by
  unfold hostArrives
  first | (simp; done) | ((try dsimp only); (repeat' split) <;> first | (simp; done) | simp_all | (repeat' split) <;> simp)

@[simp] theorem railsGood_frame (side : Side) (s : State) :
    (railsGood side s).pending = s.pending ∧ (railsGood side s).variant = s.variant ∧ (railsGood side s).otp = s.otp ∧
    (railsGood side s).cores.channels.length = s.cores.channels.length ∧ (railsGood side s).store.cs = s.store.cs ∧
    (railsGood side s).store.csDev = s.store.csDev ∧ (railsGood side s).store.granules = s.store.granules ∧
    (railsGood side s).conservator = s.conservator ∧ (railsGood side s).egress = s.egress ∧
    (railsGood side s).repair = s.repair ∧ (railsGood side s).pins.pins.length = s.pins.pins.length := by
  unfold railsGood
  first | (simp; done) | ((try dsimp only); (repeat' split) <;> first | (simp; done) | simp_all | (repeat' split) <;> simp)

@[simp] theorem railFail_frame (side : Side) (s : State) :
    (railFail side s).pending = s.pending ∧ (railFail side s).variant = s.variant ∧ (railFail side s).otp = s.otp ∧
    (railFail side s).cores.channels.length = s.cores.channels.length ∧
    (railFail side s).pins.pins.length = s.pins.pins.length := by
  unfold railFail
  first | (simp; done) | ((try dsimp only); (repeat' split) <;> first | (simp; done) | simp_all | (repeat' split) <;> simp)

@[simp] theorem keepCommitted_frame (l : FLink) (s : State) :
    (keepCommitted l s).pending = s.pending ∧ (keepCommitted l s).variant = s.variant ∧ (keepCommitted l s).otp = s.otp ∧
    (keepCommitted l s).masters.length = s.masters.length ∧
    (keepCommitted l s).cores.channels.length = s.cores.channels.length ∧
    (keepCommitted l s).regs.debugLevel = s.regs.debugLevel ∧ (keepCommitted l s).store.cs = s.store.cs ∧
    (keepCommitted l s).store.csDev = s.store.csDev ∧ (keepCommitted l s).store.granules = s.store.granules ∧
    (keepCommitted l s).pins = s.pins ∧ (keepCommitted l s).stream = s.stream ∧ (keepCommitted l s).power = s.power ∧
    (keepCommitted l s).loader = s.loader ∧ (keepCommitted l s).conservator = s.conservator ∧
    (keepCommitted l s).egress = s.egress ∧ (keepCommitted l s).repair = s.repair ∧ (keepCommitted l s).shadow = s.shadow ∧
    (keepCommitted l s).inForce = s.inForce ∧ (keepCommitted l s).otpRequest = s.otpRequest ∧
    (keepCommitted l s).heldCommands = s.heldCommands ∧ (keepCommitted l s).crossReads = s.crossReads := by
  unfold keepCommitted
  first | (simp; done) | ((try dsimp only); (repeat' split) <;> first | (simp; done) | simp_all | (repeat' split) <;> simp)

@[simp] theorem trefLoss_frame  (s : State) :
    (trefLoss s).pending = s.pending ∧ (trefLoss s).variant = s.variant ∧ (trefLoss s).otp = s.otp ∧
    (trefLoss s).masters.length = s.masters.length ∧ (trefLoss s).cores.channels.length = s.cores.channels.length ∧
    (trefLoss s).regs.debugLevel = s.regs.debugLevel ∧ (trefLoss s).store.cs = s.store.cs ∧
    (trefLoss s).store.csDev = s.store.csDev ∧ (trefLoss s).store.granules = s.store.granules ∧ (trefLoss s).pins = s.pins ∧
    (trefLoss s).stream = s.stream ∧ (trefLoss s).loader = s.loader ∧ (trefLoss s).conservator = s.conservator ∧
    (trefLoss s).repair = s.repair ∧ (trefLoss s).shadow = s.shadow ∧ (trefLoss s).inForce = s.inForce ∧
    (trefLoss s).otpRequest = s.otpRequest ∧ (trefLoss s).heldCommands = s.heldCommands ∧
    (trefLoss s).crossReads = s.crossReads := by
  unfold trefLoss
  first | (simp; done) | ((try dsimp only); (repeat' split) <;> first | (simp; done) | simp_all | (repeat' split) <;> simp)

@[simp] theorem trefReturn_frame  (s : State) :
    (trefReturn s).pending = s.pending ∧ (trefReturn s).variant = s.variant ∧ (trefReturn s).otp = s.otp ∧
    (trefReturn s).masters.length = s.masters.length ∧ (trefReturn s).cores.channels.length = s.cores.channels.length ∧
    (trefReturn s).regs.debugLevel = s.regs.debugLevel ∧ (trefReturn s).store.cs = s.store.cs ∧
    (trefReturn s).store.csDev = s.store.csDev ∧ (trefReturn s).store.granules = s.store.granules ∧
    (trefReturn s).stream = s.stream ∧ (trefReturn s).loader = s.loader ∧ (trefReturn s).conservator = s.conservator ∧
    (trefReturn s).egress = s.egress ∧ (trefReturn s).repair = s.repair ∧ (trefReturn s).shadow = s.shadow ∧
    (trefReturn s).inForce = s.inForce ∧ (trefReturn s).otpRequest = s.otpRequest ∧
    (trefReturn s).heldCommands = s.heldCommands ∧ (trefReturn s).crossReads = s.crossReads ∧
    (trefReturn s).pins.pins.length = s.pins.pins.length := by
  unfold trefReturn
  first | (simp; done) | ((try dsimp only); (repeat' split) <;> first | (simp; done) | simp_all | (repeat' split) <;> simp)

@[simp] theorem answerAtOnce_frame  (s : State) :
    (answerAtOnce s).pending = s.pending ∧ (answerAtOnce s).variant = s.variant ∧ (answerAtOnce s).otp = s.otp ∧
    (answerAtOnce s).masters.length = s.masters.length ∧ (answerAtOnce s).cores.channels.length = s.cores.channels.length ∧
    (answerAtOnce s).regs.debugLevel = s.regs.debugLevel ∧ (answerAtOnce s).store.cs = s.store.cs ∧
    (answerAtOnce s).store.csDev = s.store.csDev ∧ (answerAtOnce s).store.granules = s.store.granules ∧
    (answerAtOnce s).pins = s.pins ∧ (answerAtOnce s).stream = s.stream ∧ (answerAtOnce s).power = s.power ∧
    (answerAtOnce s).loader = s.loader ∧ (answerAtOnce s).conservator = s.conservator ∧ (answerAtOnce s).egress = s.egress ∧
    (answerAtOnce s).repair = s.repair ∧ (answerAtOnce s).shadow = s.shadow ∧ (answerAtOnce s).inForce = s.inForce ∧
    (answerAtOnce s).otpRequest = s.otpRequest ∧ (answerAtOnce s).heldCommands = s.heldCommands ∧
    (answerAtOnce s).crossReads = s.crossReads := by
  unfold answerAtOnce
  first | (simp; done) | ((try dsimp only); (repeat' split) <;> first | (simp; done) | simp_all | (repeat' split) <;> simp)

@[simp] theorem queueCall_frame (c : QueuedCall) (s : State) :
    (queueCall c s).pending = s.pending ∧ (queueCall c s).variant = s.variant ∧ (queueCall c s).otp = s.otp ∧
    (queueCall c s).masters.length = s.masters.length ∧ (queueCall c s).cores.channels.length = s.cores.channels.length ∧
    (queueCall c s).regs.debugLevel = s.regs.debugLevel ∧ (queueCall c s).store.cs = s.store.cs ∧
    (queueCall c s).store.csDev = s.store.csDev ∧ (queueCall c s).store.granules = s.store.granules ∧
    (queueCall c s).pins = s.pins ∧ (queueCall c s).stream = s.stream ∧ (queueCall c s).power = s.power ∧
    (queueCall c s).loader = s.loader ∧ (queueCall c s).conservator = s.conservator ∧ (queueCall c s).egress = s.egress ∧
    (queueCall c s).repair = s.repair ∧ (queueCall c s).shadow = s.shadow ∧ (queueCall c s).inForce = s.inForce ∧
    (queueCall c s).otpRequest = s.otpRequest ∧ (queueCall c s).heldCommands = s.heldCommands ∧
    (queueCall c s).crossReads = s.crossReads := by
  unfold queueCall
  first | (simp; done) | ((try dsimp only); (repeat' split) <;> first | (simp; done) | simp_all | (repeat' split) <;> simp)

@[simp] theorem ringSlot_frame (slot : Nat) (s : State) :
    (ringSlot slot s).pending = s.pending ∧ (ringSlot slot s).variant = s.variant ∧ (ringSlot slot s).otp = s.otp ∧
    (ringSlot slot s).masters.length = s.masters.length ∧
    (ringSlot slot s).cores.channels.length = s.cores.channels.length ∧
    (ringSlot slot s).regs.debugLevel = s.regs.debugLevel ∧ (ringSlot slot s).store.cs = s.store.cs ∧
    (ringSlot slot s).store.csDev = s.store.csDev ∧ (ringSlot slot s).store.granules = s.store.granules ∧
    (ringSlot slot s).pins = s.pins ∧ (ringSlot slot s).stream = s.stream ∧ (ringSlot slot s).power = s.power ∧
    (ringSlot slot s).loader = s.loader ∧ (ringSlot slot s).conservator = s.conservator ∧
    (ringSlot slot s).egress = s.egress ∧ (ringSlot slot s).repair = s.repair ∧ (ringSlot slot s).shadow = s.shadow ∧
    (ringSlot slot s).inForce = s.inForce ∧ (ringSlot slot s).otpRequest = s.otpRequest ∧
    (ringSlot slot s).heldCommands = s.heldCommands ∧ (ringSlot slot s).crossReads = s.crossReads := by
  unfold ringSlot
  first | (simp; done) | ((try dsimp only); (repeat' split) <;> first | (simp; done) | simp_all | (repeat' split) <;> simp)

@[simp] theorem forwardCall_frame (slot : Nat) (s : State) :
    (forwardCall slot s).pending = s.pending ∧ (forwardCall slot s).variant = s.variant ∧ (forwardCall slot s).otp = s.otp ∧
    (forwardCall slot s).masters.length = s.masters.length ∧
    (forwardCall slot s).cores.channels.length = s.cores.channels.length ∧
    (forwardCall slot s).regs.debugLevel = s.regs.debugLevel ∧ (forwardCall slot s).store.cs = s.store.cs ∧
    (forwardCall slot s).store.csDev = s.store.csDev ∧ (forwardCall slot s).store.granules = s.store.granules ∧
    (forwardCall slot s).pins = s.pins ∧ (forwardCall slot s).stream = s.stream ∧ (forwardCall slot s).power = s.power ∧
    (forwardCall slot s).loader = s.loader ∧ (forwardCall slot s).conservator = s.conservator ∧
    (forwardCall slot s).egress = s.egress ∧ (forwardCall slot s).repair = s.repair ∧
    (forwardCall slot s).shadow = s.shadow ∧ (forwardCall slot s).inForce = s.inForce ∧
    (forwardCall slot s).otpRequest = s.otpRequest ∧ (forwardCall slot s).heldCommands = s.heldCommands ∧
    (forwardCall slot s).crossReads = s.crossReads := by
  unfold forwardCall
  first | (simp; done) | ((try dsimp only); (repeat' split) <;> first | (simp; done) | simp_all | (repeat' split) <;> simp)

@[simp] theorem writeDoorbell_frame (m : Master) (slot : Nat) (s : State) :
    (writeDoorbell m slot s).pending = s.pending ∧ (writeDoorbell m slot s).variant = s.variant ∧
    (writeDoorbell m slot s).otp = s.otp ∧ (writeDoorbell m slot s).masters.length = s.masters.length ∧
    (writeDoorbell m slot s).cores.channels.length = s.cores.channels.length ∧
    (writeDoorbell m slot s).regs.debugLevel = s.regs.debugLevel ∧ (writeDoorbell m slot s).store.cs = s.store.cs ∧
    (writeDoorbell m slot s).store.csDev = s.store.csDev ∧ (writeDoorbell m slot s).store.granules = s.store.granules ∧
    (writeDoorbell m slot s).pins = s.pins ∧ (writeDoorbell m slot s).stream = s.stream ∧
    (writeDoorbell m slot s).loader = s.loader ∧ (writeDoorbell m slot s).conservator = s.conservator ∧
    (writeDoorbell m slot s).egress = s.egress ∧ (writeDoorbell m slot s).repair = s.repair ∧
    (writeDoorbell m slot s).shadow = s.shadow ∧ (writeDoorbell m slot s).inForce = s.inForce ∧
    (writeDoorbell m slot s).otpRequest = s.otpRequest ∧ (writeDoorbell m slot s).crossReads = s.crossReads := by
  unfold writeDoorbell
  first | (simp; done) | ((try dsimp only); (repeat' split) <;> first | (simp; done) | simp_all | (repeat' split) <;> simp)

@[simp] theorem snapshotEffect_frame (prev : Bool) (bpn w : Nat) (s : State) :
    (snapshotEffect prev bpn w s).pending = s.pending ∧ (snapshotEffect prev bpn w s).variant = s.variant ∧
    (snapshotEffect prev bpn w s).otp = s.otp ∧ (snapshotEffect prev bpn w s).masters.length = s.masters.length ∧
    (snapshotEffect prev bpn w s).cores.channels.length = s.cores.channels.length ∧
    (snapshotEffect prev bpn w s).regs.debugLevel = s.regs.debugLevel ∧
    (snapshotEffect prev bpn w s).store.cs = s.store.cs ∧ (snapshotEffect prev bpn w s).store.csDev = s.store.csDev ∧
    (snapshotEffect prev bpn w s).store.granules = s.store.granules ∧ (snapshotEffect prev bpn w s).pins = s.pins ∧
    (snapshotEffect prev bpn w s).stream = s.stream ∧ (snapshotEffect prev bpn w s).power = s.power ∧
    (snapshotEffect prev bpn w s).loader = s.loader ∧ (snapshotEffect prev bpn w s).conservator = s.conservator ∧
    (snapshotEffect prev bpn w s).egress = s.egress ∧ (snapshotEffect prev bpn w s).repair = s.repair ∧
    (snapshotEffect prev bpn w s).shadow = s.shadow ∧ (snapshotEffect prev bpn w s).inForce = s.inForce ∧
    (snapshotEffect prev bpn w s).otpRequest = s.otpRequest ∧ (snapshotEffect prev bpn w s).heldCommands = s.heldCommands ∧
    (snapshotEffect prev bpn w s).crossReads = s.crossReads := by
  unfold snapshotEffect
  first | (simp; done) | ((try dsimp only); (repeat' split) <;> first | (simp; done) | simp_all | (repeat' split) <;> simp)

@[simp] theorem snapshotGo_frame (g : Nat) (ws : List (Bool × Nat × Nat)) (bs : List Byte) (s : State) :
    (snapshotGo g ws bs s).2.2.pending = s.pending ∧ (snapshotGo g ws bs s).2.2.variant = s.variant ∧
    (snapshotGo g ws bs s).2.2.otp = s.otp ∧ (snapshotGo g ws bs s).2.2.masters.length = s.masters.length ∧
    (snapshotGo g ws bs s).2.2.cores.channels.length = s.cores.channels.length ∧
    (snapshotGo g ws bs s).2.2.regs.debugLevel = s.regs.debugLevel ∧ (snapshotGo g ws bs s).2.2.store.cs = s.store.cs ∧
    (snapshotGo g ws bs s).2.2.store.csDev = s.store.csDev ∧ (snapshotGo g ws bs s).2.2.store.granules = s.store.granules ∧
    (snapshotGo g ws bs s).2.2.pins = s.pins ∧ (snapshotGo g ws bs s).2.2.stream = s.stream ∧
    (snapshotGo g ws bs s).2.2.power = s.power ∧ (snapshotGo g ws bs s).2.2.loader = s.loader ∧
    (snapshotGo g ws bs s).2.2.conservator = s.conservator ∧ (snapshotGo g ws bs s).2.2.egress = s.egress ∧
    (snapshotGo g ws bs s).2.2.repair = s.repair ∧ (snapshotGo g ws bs s).2.2.shadow = s.shadow ∧
    (snapshotGo g ws bs s).2.2.inForce = s.inForce ∧ (snapshotGo g ws bs s).2.2.otpRequest = s.otpRequest ∧
    (snapshotGo g ws bs s).2.2.heldCommands = s.heldCommands ∧ (snapshotGo g ws bs s).2.2.crossReads = s.crossReads := by
  induction ws generalizing bs s with
  | nil => simp [snapshotGo]
  | cons _ _ ih => (unfold snapshotGo; first | (simp [ih]; done) | ((try dsimp only); (repeat' split) <;> first | rfl | (simp [ih]; done)))

@[simp] theorem snapshotCopy_frame (c : QueuedCall) (s : State) :
    (snapshotCopy c s).pending = s.pending ∧ (snapshotCopy c s).variant = s.variant ∧ (snapshotCopy c s).otp = s.otp ∧
    (snapshotCopy c s).masters.length = s.masters.length ∧
    (snapshotCopy c s).cores.channels.length = s.cores.channels.length ∧
    (snapshotCopy c s).regs.debugLevel = s.regs.debugLevel ∧ (snapshotCopy c s).store.cs = s.store.cs ∧
    (snapshotCopy c s).store.csDev = s.store.csDev ∧ (snapshotCopy c s).store.granules = s.store.granules ∧
    (snapshotCopy c s).pins = s.pins ∧ (snapshotCopy c s).stream = s.stream ∧ (snapshotCopy c s).power = s.power ∧
    (snapshotCopy c s).loader = s.loader ∧ (snapshotCopy c s).conservator = s.conservator ∧
    (snapshotCopy c s).egress = s.egress ∧ (snapshotCopy c s).repair = s.repair ∧ (snapshotCopy c s).shadow = s.shadow ∧
    (snapshotCopy c s).inForce = s.inForce ∧ (snapshotCopy c s).otpRequest = s.otpRequest ∧
    (snapshotCopy c s).heldCommands = s.heldCommands ∧ (snapshotCopy c s).crossReads = s.crossReads := by
  unfold snapshotCopy
  (try dsimp only)
  (repeat' split) <;> first
    | (simp; done)
    | (next h => have h2 := congrArg (fun r => r.2.2) h; dsimp only at h2; subst h2; simp)

@[simp] theorem takeCapture_frame  (s : State) :
    (takeCapture s).pending = s.pending ∧ (takeCapture s).variant = s.variant ∧ (takeCapture s).otp = s.otp ∧
    (takeCapture s).masters.length = s.masters.length ∧ (takeCapture s).cores.channels.length = s.cores.channels.length ∧
    (takeCapture s).regs.debugLevel = s.regs.debugLevel ∧ (takeCapture s).store.cs = s.store.cs ∧
    (takeCapture s).store.csDev = s.store.csDev ∧ (takeCapture s).store.granules = s.store.granules ∧
    (takeCapture s).pins = s.pins ∧ (takeCapture s).stream = s.stream ∧ (takeCapture s).power = s.power ∧
    (takeCapture s).loader = s.loader ∧ (takeCapture s).conservator = s.conservator ∧ (takeCapture s).egress = s.egress ∧
    (takeCapture s).repair = s.repair ∧ (takeCapture s).shadow = s.shadow ∧ (takeCapture s).inForce = s.inForce ∧
    (takeCapture s).otpRequest = s.otpRequest ∧ (takeCapture s).heldCommands = s.heldCommands ∧
    (takeCapture s).crossReads = s.crossReads := by
  unfold takeCapture
  first | (simp; done) | ((try dsimp only); (repeat' split) <;> first | (simp; done) | simp_all | (repeat' split) <;> simp)

@[simp] theorem fabricCapture_frame (c : QueuedCall) (s : State) :
    (fabricCapture c s).pending = s.pending ∧ (fabricCapture c s).variant = s.variant ∧ (fabricCapture c s).otp = s.otp ∧
    (fabricCapture c s).masters.length = s.masters.length ∧
    (fabricCapture c s).cores.channels.length = s.cores.channels.length ∧
    (fabricCapture c s).regs.debugLevel = s.regs.debugLevel ∧ (fabricCapture c s).store.cs = s.store.cs ∧
    (fabricCapture c s).store.csDev = s.store.csDev ∧ (fabricCapture c s).store.granules = s.store.granules ∧
    (fabricCapture c s).pins = s.pins ∧ (fabricCapture c s).stream = s.stream ∧ (fabricCapture c s).power = s.power ∧
    (fabricCapture c s).loader = s.loader ∧ (fabricCapture c s).conservator = s.conservator ∧
    (fabricCapture c s).egress = s.egress ∧ (fabricCapture c s).repair = s.repair ∧ (fabricCapture c s).shadow = s.shadow ∧
    (fabricCapture c s).inForce = s.inForce ∧ (fabricCapture c s).otpRequest = s.otpRequest ∧
    (fabricCapture c s).heldCommands = s.heldCommands ∧ (fabricCapture c s).crossReads = s.crossReads := by
  unfold fabricCapture
  first | (simp; done) | ((try dsimp only); (repeat' split) <;> first | (simp; done) | simp_all | (repeat' split) <;> simp)

@[simp] theorem vaultReadEffect_frame (v w : Nat) (s : State) :
    (vaultReadEffect v w s).pending = s.pending ∧ (vaultReadEffect v w s).variant = s.variant ∧
    (vaultReadEffect v w s).otp = s.otp ∧ (vaultReadEffect v w s).masters.length = s.masters.length ∧
    (vaultReadEffect v w s).cores.channels.length = s.cores.channels.length ∧
    (vaultReadEffect v w s).regs.debugLevel = s.regs.debugLevel ∧ (vaultReadEffect v w s).store.cs = s.store.cs ∧
    (vaultReadEffect v w s).store.csDev = s.store.csDev ∧ (vaultReadEffect v w s).store.granules = s.store.granules ∧
    (vaultReadEffect v w s).pins = s.pins ∧ (vaultReadEffect v w s).stream = s.stream ∧
    (vaultReadEffect v w s).power = s.power ∧ (vaultReadEffect v w s).loader = s.loader ∧
    (vaultReadEffect v w s).conservator = s.conservator ∧ (vaultReadEffect v w s).egress = s.egress ∧
    (vaultReadEffect v w s).repair = s.repair ∧ (vaultReadEffect v w s).shadow = s.shadow ∧
    (vaultReadEffect v w s).inForce = s.inForce ∧ (vaultReadEffect v w s).otpRequest = s.otpRequest ∧
    (vaultReadEffect v w s).heldCommands = s.heldCommands ∧ (vaultReadEffect v w s).crossReads = s.crossReads := by
  unfold vaultReadEffect
  first | (simp; done) | ((try dsimp only); (repeat' split) <;> first | (simp; done) | simp_all | (repeat' split) <;> simp)

@[simp] theorem readbackGo_frame (ws : List Nat) (bs : List Byte) (s : State) :
    (readbackGo ws bs s).2.2.pending = s.pending ∧ (readbackGo ws bs s).2.2.variant = s.variant ∧
    (readbackGo ws bs s).2.2.otp = s.otp ∧ (readbackGo ws bs s).2.2.masters.length = s.masters.length ∧
    (readbackGo ws bs s).2.2.cores.channels.length = s.cores.channels.length ∧
    (readbackGo ws bs s).2.2.regs.debugLevel = s.regs.debugLevel ∧ (readbackGo ws bs s).2.2.store.cs = s.store.cs ∧
    (readbackGo ws bs s).2.2.store.csDev = s.store.csDev ∧ (readbackGo ws bs s).2.2.store.granules = s.store.granules ∧
    (readbackGo ws bs s).2.2.pins = s.pins ∧ (readbackGo ws bs s).2.2.stream = s.stream ∧
    (readbackGo ws bs s).2.2.power = s.power ∧ (readbackGo ws bs s).2.2.loader = s.loader ∧
    (readbackGo ws bs s).2.2.conservator = s.conservator ∧ (readbackGo ws bs s).2.2.egress = s.egress ∧
    (readbackGo ws bs s).2.2.repair = s.repair ∧ (readbackGo ws bs s).2.2.shadow = s.shadow ∧
    (readbackGo ws bs s).2.2.inForce = s.inForce ∧ (readbackGo ws bs s).2.2.otpRequest = s.otpRequest ∧
    (readbackGo ws bs s).2.2.heldCommands = s.heldCommands ∧ (readbackGo ws bs s).2.2.crossReads = s.crossReads := by
  induction ws generalizing bs s with
  | nil => simp [readbackGo]
  | cons _ _ ih => (unfold readbackGo; first | (simp [ih]; done) | ((try dsimp only); (repeat' split) <;> first | rfl | (simp [ih]; done)))

@[simp] theorem fabricReadback_frame (c : QueuedCall) (s : State) :
    (fabricReadback c s).pending = s.pending ∧ (fabricReadback c s).variant = s.variant ∧ (fabricReadback c s).otp = s.otp ∧
    (fabricReadback c s).masters.length = s.masters.length ∧
    (fabricReadback c s).cores.channels.length = s.cores.channels.length ∧
    (fabricReadback c s).regs.debugLevel = s.regs.debugLevel ∧ (fabricReadback c s).store.cs = s.store.cs ∧
    (fabricReadback c s).store.csDev = s.store.csDev ∧ (fabricReadback c s).store.granules = s.store.granules ∧
    (fabricReadback c s).pins = s.pins ∧ (fabricReadback c s).stream = s.stream ∧ (fabricReadback c s).power = s.power ∧
    (fabricReadback c s).loader = s.loader ∧ (fabricReadback c s).conservator = s.conservator ∧
    (fabricReadback c s).egress = s.egress ∧ (fabricReadback c s).repair = s.repair ∧
    (fabricReadback c s).shadow = s.shadow ∧ (fabricReadback c s).inForce = s.inForce ∧
    (fabricReadback c s).otpRequest = s.otpRequest ∧ (fabricReadback c s).heldCommands = s.heldCommands ∧
    (fabricReadback c s).crossReads = s.crossReads := by
  unfold fabricReadback
  (try dsimp only)
  (repeat' split) <;> first
    | (simp; done)
    | (next h => have h2 := congrArg (fun r => r.2.2) h; dsimp only at h2; subst h2; simp)

@[simp] theorem drawNonce_frame (level : BitVec 2) (s : State) :
    (drawNonce level s).2.pending = s.pending ∧ (drawNonce level s).2.variant = s.variant ∧
    (drawNonce level s).2.otp = s.otp ∧ (drawNonce level s).2.masters.length = s.masters.length ∧
    (drawNonce level s).2.cores.channels.length = s.cores.channels.length ∧
    (drawNonce level s).2.regs.debugLevel = s.regs.debugLevel ∧ (drawNonce level s).2.store.cs = s.store.cs ∧
    (drawNonce level s).2.store.csDev = s.store.csDev ∧ (drawNonce level s).2.store.granules = s.store.granules ∧
    (drawNonce level s).2.pins = s.pins ∧ (drawNonce level s).2.stream = s.stream ∧ (drawNonce level s).2.power = s.power ∧
    (drawNonce level s).2.loader = s.loader ∧ (drawNonce level s).2.conservator = s.conservator ∧
    (drawNonce level s).2.egress = s.egress ∧ (drawNonce level s).2.repair = s.repair ∧
    (drawNonce level s).2.shadow = s.shadow ∧ (drawNonce level s).2.inForce = s.inForce ∧
    (drawNonce level s).2.otpRequest = s.otpRequest ∧ (drawNonce level s).2.heldCommands = s.heldCommands ∧
    (drawNonce level s).2.crossReads = s.crossReads := by
  unfold drawNonce
  first | (simp; done) | ((try dsimp only); (repeat' split) <;> first | (simp; done) | simp_all | (repeat' split) <;> simp)

@[simp] theorem wrongResponse_frame  (s : State) :
    (wrongResponse s).pending = s.pending ∧ (wrongResponse s).variant = s.variant ∧ (wrongResponse s).otp = s.otp ∧
    (wrongResponse s).masters.length = s.masters.length ∧
    (wrongResponse s).cores.channels.length = s.cores.channels.length ∧
    (wrongResponse s).regs.debugLevel = s.regs.debugLevel ∧ (wrongResponse s).store.cs = s.store.cs ∧
    (wrongResponse s).store.csDev = s.store.csDev ∧ (wrongResponse s).store.granules = s.store.granules ∧
    (wrongResponse s).pins = s.pins ∧ (wrongResponse s).stream = s.stream ∧ (wrongResponse s).power = s.power ∧
    (wrongResponse s).loader = s.loader ∧ (wrongResponse s).conservator = s.conservator ∧
    (wrongResponse s).egress = s.egress ∧ (wrongResponse s).repair = s.repair ∧ (wrongResponse s).shadow = s.shadow ∧
    (wrongResponse s).inForce = s.inForce ∧ (wrongResponse s).otpRequest = s.otpRequest ∧
    (wrongResponse s).heldCommands = s.heldCommands ∧ (wrongResponse s).crossReads = s.crossReads := by
  unfold wrongResponse
  first | (simp; done) | ((try dsimp only); (repeat' split) <;> first | (simp; done) | simp_all | (repeat' split) <;> simp)

@[simp] theorem checkResponse_frame (token : QWord) (s : State) :
    (checkResponse token s).2.pending = s.pending ∧ (checkResponse token s).2.variant = s.variant ∧
    (checkResponse token s).2.otp = s.otp ∧ (checkResponse token s).2.masters.length = s.masters.length ∧
    (checkResponse token s).2.cores.channels.length = s.cores.channels.length ∧
    (checkResponse token s).2.store.cs = s.store.cs ∧ (checkResponse token s).2.store.csDev = s.store.csDev ∧
    (checkResponse token s).2.store.granules = s.store.granules ∧ (checkResponse token s).2.pins = s.pins ∧
    (checkResponse token s).2.stream = s.stream ∧ (checkResponse token s).2.power = s.power ∧
    (checkResponse token s).2.loader = s.loader ∧ (checkResponse token s).2.conservator = s.conservator ∧
    (checkResponse token s).2.egress = s.egress ∧ (checkResponse token s).2.repair = s.repair ∧
    (checkResponse token s).2.shadow = s.shadow ∧ (checkResponse token s).2.inForce = s.inForce ∧
    (checkResponse token s).2.otpRequest = s.otpRequest ∧ (checkResponse token s).2.heldCommands = s.heldCommands ∧
    (checkResponse token s).2.crossReads = s.crossReads := by
  unfold checkResponse
  first | (simp; done) | ((try dsimp only); (repeat' split) <;> first | (simp; done) | simp_all | (repeat' split) <;> simp)

@[simp] theorem traceConfig_frame (c : QueuedCall) (s : State) :
    (traceConfig c s).pending = s.pending ∧ (traceConfig c s).variant = s.variant ∧ (traceConfig c s).otp = s.otp ∧
    (traceConfig c s).masters.length = s.masters.length ∧
    (traceConfig c s).cores.channels.length = s.cores.channels.length ∧
    (traceConfig c s).regs.debugLevel = s.regs.debugLevel ∧ (traceConfig c s).store.cs = s.store.cs ∧
    (traceConfig c s).store.csDev = s.store.csDev ∧ (traceConfig c s).store.granules = s.store.granules ∧
    (traceConfig c s).pins = s.pins ∧ (traceConfig c s).stream = s.stream ∧ (traceConfig c s).power = s.power ∧
    (traceConfig c s).loader = s.loader ∧ (traceConfig c s).conservator = s.conservator ∧
    (traceConfig c s).egress = s.egress ∧ (traceConfig c s).repair = s.repair ∧ (traceConfig c s).shadow = s.shadow ∧
    (traceConfig c s).inForce = s.inForce ∧ (traceConfig c s).otpRequest = s.otpRequest ∧
    (traceConfig c s).heldCommands = s.heldCommands ∧ (traceConfig c s).crossReads = s.crossReads := by
  unfold traceConfig
  first | (simp; done) | ((try dsimp only); (repeat' split) <;> first | (simp; done) | simp_all | (repeat' split) <;> simp)

@[simp] theorem watchdogEvent_frame (c : Core) (s : State) :
    (watchdogEvent c s).pending = s.pending ∧ (watchdogEvent c s).variant = s.variant ∧ (watchdogEvent c s).otp = s.otp ∧
    (watchdogEvent c s).masters.length = s.masters.length ∧
    (watchdogEvent c s).cores.channels.length = s.cores.channels.length ∧
    (watchdogEvent c s).regs.debugLevel = s.regs.debugLevel ∧ (watchdogEvent c s).store.cs = s.store.cs ∧
    (watchdogEvent c s).store.csDev = s.store.csDev ∧ (watchdogEvent c s).store.granules = s.store.granules ∧
    (watchdogEvent c s).pins = s.pins ∧ (watchdogEvent c s).stream = s.stream ∧ (watchdogEvent c s).power = s.power ∧
    (watchdogEvent c s).loader = s.loader ∧ (watchdogEvent c s).conservator = s.conservator ∧
    (watchdogEvent c s).egress = s.egress ∧ (watchdogEvent c s).repair = s.repair ∧ (watchdogEvent c s).shadow = s.shadow ∧
    (watchdogEvent c s).inForce = s.inForce ∧ (watchdogEvent c s).otpRequest = s.otpRequest ∧
    (watchdogEvent c s).heldCommands = s.heldCommands ∧ (watchdogEvent c s).crossReads = s.crossReads := by
  unfold watchdogEvent
  first | (simp; done) | ((try dsimp only); (repeat' split) <;> first | (simp; done) | simp_all | (repeat' split) <;> simp)

@[simp] theorem kick_frame (key : Byte) (alertClr : Bool) (restart : BitVec 4) (s : State) :
    (kick key alertClr restart s).pending = s.pending ∧ (kick key alertClr restart s).variant = s.variant ∧
    (kick key alertClr restart s).otp = s.otp ∧ (kick key alertClr restart s).masters.length = s.masters.length ∧
    (kick key alertClr restart s).cores.channels.length = s.cores.channels.length ∧
    (kick key alertClr restart s).regs.debugLevel = s.regs.debugLevel ∧
    (kick key alertClr restart s).store.cs = s.store.cs ∧ (kick key alertClr restart s).store.csDev = s.store.csDev ∧
    (kick key alertClr restart s).store.granules = s.store.granules ∧ (kick key alertClr restart s).pins = s.pins ∧
    (kick key alertClr restart s).stream = s.stream ∧ (kick key alertClr restart s).power = s.power ∧
    (kick key alertClr restart s).loader = s.loader ∧ (kick key alertClr restart s).conservator = s.conservator ∧
    (kick key alertClr restart s).egress = s.egress ∧ (kick key alertClr restart s).repair = s.repair ∧
    (kick key alertClr restart s).shadow = s.shadow ∧ (kick key alertClr restart s).inForce = s.inForce ∧
    (kick key alertClr restart s).otpRequest = s.otpRequest ∧ (kick key alertClr restart s).heldCommands = s.heldCommands ∧
    (kick key alertClr restart s).crossReads = s.crossReads := by
  unfold kick
  first | (simp; done) | ((try dsimp only); (repeat' split) <;> first | (simp; done) | simp_all | (repeat' split) <;> simp)

@[simp] theorem staged_frame (m : Master) (s : State) :
    (staged m s).pending = s.pending ∧ (staged m s).variant = s.variant ∧ (staged m s).otp = s.otp ∧
    (staged m s).masters.length = s.masters.length ∧ (staged m s).cores.channels.length = s.cores.channels.length ∧
    (staged m s).regs.debugLevel = s.regs.debugLevel ∧ (staged m s).store.cs = s.store.cs ∧
    (staged m s).store.csDev = s.store.csDev ∧ (staged m s).store.granules = s.store.granules ∧ (staged m s).pins = s.pins ∧
    (staged m s).stream = s.stream ∧ (staged m s).power = s.power ∧ (staged m s).loader = s.loader ∧
    (staged m s).conservator = s.conservator ∧ (staged m s).egress = s.egress ∧ (staged m s).repair = s.repair ∧
    (staged m s).shadow = s.shadow ∧ (staged m s).inForce = s.inForce ∧ (staged m s).otpRequest = s.otpRequest ∧
    (staged m s).heldCommands = s.heldCommands ∧ (staged m s).crossReads = s.crossReads := by
  unfold staged
  first | (simp; done) | ((try dsimp only); (repeat' split) <;> first | (simp; done) | simp_all | (repeat' split) <;> simp)

@[simp] theorem applyLink_frame (l : FLink) (old : StagedSet) (s : State) :
    (applyLink l old s).pending = s.pending ∧ (applyLink l old s).variant = s.variant ∧ (applyLink l old s).otp = s.otp ∧
    (applyLink l old s).masters.length = s.masters.length ∧
    (applyLink l old s).cores.channels.length = s.cores.channels.length ∧
    (applyLink l old s).regs.debugLevel = s.regs.debugLevel ∧ (applyLink l old s).store.cs = s.store.cs ∧
    (applyLink l old s).store.csDev = s.store.csDev ∧ (applyLink l old s).store.granules = s.store.granules ∧
    (applyLink l old s).pins = s.pins ∧ (applyLink l old s).stream = s.stream ∧ (applyLink l old s).power = s.power ∧
    (applyLink l old s).loader = s.loader ∧ (applyLink l old s).conservator = s.conservator ∧
    (applyLink l old s).egress = s.egress ∧ (applyLink l old s).repair = s.repair ∧ (applyLink l old s).shadow = s.shadow ∧
    (applyLink l old s).inForce = s.inForce ∧ (applyLink l old s).otpRequest = s.otpRequest ∧
    (applyLink l old s).heldCommands = s.heldCommands ∧ (applyLink l old s).crossReads = s.crossReads := by
  unfold applyLink
  first | (simp; done) | ((try dsimp only); (repeat' split) <;> first | (simp; done) | simp_all | (repeat' split) <;> simp)

@[simp] theorem applyTwin_frame (was : Bool) (s : State) :
    (applyTwin was s).pending = s.pending ∧ (applyTwin was s).variant = s.variant ∧ (applyTwin was s).otp = s.otp ∧
    (applyTwin was s).masters.length = s.masters.length ∧
    (applyTwin was s).cores.channels.length = s.cores.channels.length ∧
    (applyTwin was s).regs.debugLevel = s.regs.debugLevel ∧ (applyTwin was s).store.cs = s.store.cs ∧
    (applyTwin was s).store.csDev = s.store.csDev ∧ (applyTwin was s).store.granules = s.store.granules ∧
    (applyTwin was s).pins = s.pins ∧ (applyTwin was s).stream = s.stream ∧ (applyTwin was s).power = s.power ∧
    (applyTwin was s).loader = s.loader ∧ (applyTwin was s).conservator = s.conservator ∧
    (applyTwin was s).egress = s.egress ∧ (applyTwin was s).repair = s.repair ∧ (applyTwin was s).shadow = s.shadow ∧
    (applyTwin was s).inForce = s.inForce ∧ (applyTwin was s).otpRequest = s.otpRequest ∧
    (applyTwin was s).heldCommands = s.heldCommands ∧ (applyTwin was s).crossReads = s.crossReads := by
  unfold applyTwin
  first | (simp; done) | ((try dsimp only); (repeat' split) <;> first | (simp; done) | simp_all | (repeat' split) <;> simp)

@[simp] theorem applyMode_frame  (s : State) :
    (applyMode s).pending = s.pending ∧ (applyMode s).variant = s.variant ∧ (applyMode s).otp = s.otp ∧
    (applyMode s).masters.length = s.masters.length ∧ (applyMode s).cores.channels.length = s.cores.channels.length ∧
    (applyMode s).regs.debugLevel = s.regs.debugLevel ∧ (applyMode s).store.cs = s.store.cs ∧
    (applyMode s).store.csDev = s.store.csDev ∧ (applyMode s).store.granules = s.store.granules ∧
    (applyMode s).pins = s.pins ∧ (applyMode s).stream = s.stream ∧ (applyMode s).power = s.power ∧
    (applyMode s).loader = s.loader ∧ (applyMode s).conservator = s.conservator ∧ (applyMode s).egress = s.egress ∧
    (applyMode s).repair = s.repair ∧ (applyMode s).shadow = s.shadow ∧ (applyMode s).inForce = s.inForce ∧
    (applyMode s).otpRequest = s.otpRequest ∧ (applyMode s).heldCommands = s.heldCommands ∧
    (applyMode s).crossReads = s.crossReads := by
  unfold applyMode
  first | (simp; done) | ((try dsimp only); (repeat' split) <;> first | (simp; done) | simp_all | (repeat' split) <;> simp)

@[simp] theorem applyGalleries_frame  (s : State) :
    (applyGalleries s).pending = s.pending ∧ (applyGalleries s).variant = s.variant ∧ (applyGalleries s).otp = s.otp ∧
    (applyGalleries s).masters.length = s.masters.length ∧
    (applyGalleries s).cores.channels.length = s.cores.channels.length ∧
    (applyGalleries s).regs.debugLevel = s.regs.debugLevel ∧ (applyGalleries s).store.cs = s.store.cs ∧
    (applyGalleries s).store.csDev = s.store.csDev ∧ (applyGalleries s).store.granules = s.store.granules ∧
    (applyGalleries s).pins = s.pins ∧ (applyGalleries s).stream = s.stream ∧ (applyGalleries s).power = s.power ∧
    (applyGalleries s).loader = s.loader ∧ (applyGalleries s).conservator = s.conservator ∧
    (applyGalleries s).egress = s.egress ∧ (applyGalleries s).repair = s.repair ∧ (applyGalleries s).shadow = s.shadow ∧
    (applyGalleries s).inForce = s.inForce ∧ (applyGalleries s).otpRequest = s.otpRequest ∧
    (applyGalleries s).heldCommands = s.heldCommands ∧ (applyGalleries s).crossReads = s.crossReads := by
  unfold applyGalleries
  first | (simp; done) | ((try dsimp only); (repeat' split) <;> first | (simp; done) | simp_all | (repeat' split) <;> simp)

@[simp] theorem applySet_frame (q : StagedSet) (s : State) :
    (applySet q s).pending = s.pending ∧ (applySet q s).variant = s.variant ∧ (applySet q s).otp = s.otp ∧
    (applySet q s).masters.length = s.masters.length ∧ (applySet q s).cores.channels.length = s.cores.channels.length ∧
    (applySet q s).regs.debugLevel = s.regs.debugLevel ∧ (applySet q s).store.cs = s.store.cs ∧
    (applySet q s).store.csDev = s.store.csDev ∧ (applySet q s).store.granules = s.store.granules ∧
    (applySet q s).stream = s.stream ∧ (applySet q s).loader = s.loader ∧ (applySet q s).conservator = s.conservator ∧
    (applySet q s).egress = s.egress ∧ (applySet q s).repair = s.repair ∧ (applySet q s).shadow = s.shadow ∧
    (applySet q s).otpRequest = s.otpRequest ∧ (applySet q s).heldCommands = s.heldCommands ∧
    (applySet q s).crossReads = s.crossReads ∧ (applySet q s).pins.pins.length = s.pins.pins.length := by
  unfold applySet
  first | (simp; done) | ((try dsimp only); (repeat' split) <;> first | (simp; done) | simp_all | (repeat' split) <;> simp)

@[simp] theorem commitSet_frame (m : Master) (data : Word) (s : State) :
    (commitSet m data s).pending = s.pending ∧ (commitSet m data s).variant = s.variant ∧ (commitSet m data s).otp = s.otp ∧
    (commitSet m data s).masters.length = s.masters.length ∧
    (commitSet m data s).cores.channels.length = s.cores.channels.length ∧
    (commitSet m data s).regs.debugLevel = s.regs.debugLevel ∧ (commitSet m data s).store.cs = s.store.cs ∧
    (commitSet m data s).store.csDev = s.store.csDev ∧ (commitSet m data s).store.granules = s.store.granules ∧
    (commitSet m data s).stream = s.stream ∧ (commitSet m data s).loader = s.loader ∧
    (commitSet m data s).conservator = s.conservator ∧ (commitSet m data s).egress = s.egress ∧
    (commitSet m data s).repair = s.repair ∧ (commitSet m data s).shadow = s.shadow ∧
    (commitSet m data s).otpRequest = s.otpRequest ∧ (commitSet m data s).heldCommands = s.heldCommands ∧
    (commitSet m data s).crossReads = s.crossReads ∧ (commitSet m data s).pins.pins.length = s.pins.pins.length := by
  unfold commitSet
  first | (simp; done) | ((try dsimp only); (repeat' split) <;> first | (simp; done) | simp_all | (repeat' split) <;> simp)

@[simp] theorem collide_frame (addr : Nat) (table : Bool) (s : State) :
    (collide addr table s).pending = s.pending ∧ (collide addr table s).variant = s.variant ∧
    (collide addr table s).otp = s.otp ∧ (collide addr table s).masters.length = s.masters.length ∧
    (collide addr table s).cores.channels.length = s.cores.channels.length ∧
    (collide addr table s).regs.debugLevel = s.regs.debugLevel ∧ (collide addr table s).store.cs = s.store.cs ∧
    (collide addr table s).store.csDev = s.store.csDev ∧ (collide addr table s).store.granules = s.store.granules ∧
    (collide addr table s).pins = s.pins ∧ (collide addr table s).stream = s.stream ∧
    (collide addr table s).power = s.power ∧ (collide addr table s).loader = s.loader ∧
    (collide addr table s).conservator = s.conservator ∧ (collide addr table s).egress = s.egress ∧
    (collide addr table s).repair = s.repair ∧ (collide addr table s).shadow = s.shadow ∧
    (collide addr table s).inForce = s.inForce ∧ (collide addr table s).otpRequest = s.otpRequest ∧
    (collide addr table s).heldCommands = s.heldCommands ∧ (collide addr table s).crossReads = s.crossReads := by
  unfold collide
  first | (simp; done) | ((try dsimp only); (repeat' split) <;> first | (simp; done) | simp_all | (repeat' split) <;> simp)

@[simp] theorem collided_pending (m : Master) (lost : Bool) (addr : Nat) (table : Bool) (f : State → State) (s : State) (hf : ∀ s, (f s).pending = s.pending) :
    (collided m lost addr table f s).pending = s.pending := by
  unfold collided
  first | (simp; done) | ((try dsimp only); (repeat' split) <;> first | (simp [*]; done) | simp_all | (repeat' split) <;> simp [*])

@[simp] theorem collided_variant (m : Master) (lost : Bool) (addr : Nat) (table : Bool) (f : State → State) (s : State) (hf : ∀ s, (f s).variant = s.variant) :
    (collided m lost addr table f s).variant = s.variant := by
  unfold collided
  first | (simp; done) | ((try dsimp only); (repeat' split) <;> first | (simp [*]; done) | simp_all | (repeat' split) <;> simp [*])

@[simp] theorem collided_otp (m : Master) (lost : Bool) (addr : Nat) (table : Bool) (f : State → State) (s : State) (hf : ∀ s, (f s).otp = s.otp) :
    (collided m lost addr table f s).otp = s.otp := by
  unfold collided
  first | (simp; done) | ((try dsimp only); (repeat' split) <;> first | (simp [*]; done) | simp_all | (repeat' split) <;> simp [*])

@[simp] theorem collided_mlen (m : Master) (lost : Bool) (addr : Nat) (table : Bool) (f : State → State) (s : State) (hf : ∀ s, (f s).masters.length = s.masters.length) :
    (collided m lost addr table f s).masters.length = s.masters.length := by
  unfold collided
  first | (simp; done) | ((try dsimp only); (repeat' split) <;> first | (simp [*]; done) | simp_all | (repeat' split) <;> simp [*])

@[simp] theorem collided_clen (m : Master) (lost : Bool) (addr : Nat) (table : Bool) (f : State → State) (s : State) (hf : ∀ s, (f s).cores.channels.length = s.cores.channels.length) :
    (collided m lost addr table f s).cores.channels.length = s.cores.channels.length := by
  unfold collided
  first | (simp; done) | ((try dsimp only); (repeat' split) <;> first | (simp [*]; done) | simp_all | (repeat' split) <;> simp [*])

@[simp] theorem collided_level (m : Master) (lost : Bool) (addr : Nat) (table : Bool) (f : State → State) (s : State) (hf : ∀ s, (f s).regs.debugLevel = s.regs.debugLevel) :
    (collided m lost addr table f s).regs.debugLevel = s.regs.debugLevel := by
  unfold collided
  first | (simp; done) | ((try dsimp only); (repeat' split) <;> first | (simp [*]; done) | simp_all | (repeat' split) <;> simp [*])

@[simp] theorem collided_cs (m : Master) (lost : Bool) (addr : Nat) (table : Bool) (f : State → State) (s : State) (hf : ∀ s, (f s).store.cs = s.store.cs) :
    (collided m lost addr table f s).store.cs = s.store.cs := by
  unfold collided
  first | (simp; done) | ((try dsimp only); (repeat' split) <;> first | (simp [*]; done) | simp_all | (repeat' split) <;> simp [*])

@[simp] theorem collided_csDev (m : Master) (lost : Bool) (addr : Nat) (table : Bool) (f : State → State) (s : State) (hf : ∀ s, (f s).store.csDev = s.store.csDev) :
    (collided m lost addr table f s).store.csDev = s.store.csDev := by
  unfold collided
  first | (simp; done) | ((try dsimp only); (repeat' split) <;> first | (simp [*]; done) | simp_all | (repeat' split) <;> simp [*])

@[simp] theorem collided_granules (m : Master) (lost : Bool) (addr : Nat) (table : Bool) (f : State → State) (s : State) (hf : ∀ s, (f s).store.granules = s.store.granules) :
    (collided m lost addr table f s).store.granules = s.store.granules := by
  unfold collided
  first | (simp; done) | ((try dsimp only); (repeat' split) <;> first | (simp [*]; done) | simp_all | (repeat' split) <;> simp [*])

@[simp] theorem collided_pins (m : Master) (lost : Bool) (addr : Nat) (table : Bool) (f : State → State) (s : State) (hf : ∀ s, (f s).pins = s.pins) :
    (collided m lost addr table f s).pins = s.pins := by
  unfold collided
  first | (simp; done) | ((try dsimp only); (repeat' split) <;> first | (simp [*]; done) | simp_all | (repeat' split) <;> simp [*])

@[simp] theorem collided_stream (m : Master) (lost : Bool) (addr : Nat) (table : Bool) (f : State → State) (s : State) (hf : ∀ s, (f s).stream = s.stream) :
    (collided m lost addr table f s).stream = s.stream := by
  unfold collided
  first | (simp; done) | ((try dsimp only); (repeat' split) <;> first | (simp [*]; done) | simp_all | (repeat' split) <;> simp [*])

@[simp] theorem collided_power (m : Master) (lost : Bool) (addr : Nat) (table : Bool) (f : State → State) (s : State) (hf : ∀ s, (f s).power = s.power) :
    (collided m lost addr table f s).power = s.power := by
  unfold collided
  first | (simp; done) | ((try dsimp only); (repeat' split) <;> first | (simp [*]; done) | simp_all | (repeat' split) <;> simp [*])

@[simp] theorem collided_loader (m : Master) (lost : Bool) (addr : Nat) (table : Bool) (f : State → State) (s : State) (hf : ∀ s, (f s).loader = s.loader) :
    (collided m lost addr table f s).loader = s.loader := by
  unfold collided
  first | (simp; done) | ((try dsimp only); (repeat' split) <;> first | (simp [*]; done) | simp_all | (repeat' split) <;> simp [*])

@[simp] theorem collided_conservator (m : Master) (lost : Bool) (addr : Nat) (table : Bool) (f : State → State) (s : State) (hf : ∀ s, (f s).conservator = s.conservator) :
    (collided m lost addr table f s).conservator = s.conservator := by
  unfold collided
  first | (simp; done) | ((try dsimp only); (repeat' split) <;> first | (simp [*]; done) | simp_all | (repeat' split) <;> simp [*])

@[simp] theorem collided_egress (m : Master) (lost : Bool) (addr : Nat) (table : Bool) (f : State → State) (s : State) (hf : ∀ s, (f s).egress = s.egress) :
    (collided m lost addr table f s).egress = s.egress := by
  unfold collided
  first | (simp; done) | ((try dsimp only); (repeat' split) <;> first | (simp [*]; done) | simp_all | (repeat' split) <;> simp [*])

@[simp] theorem collided_repair (m : Master) (lost : Bool) (addr : Nat) (table : Bool) (f : State → State) (s : State) (hf : ∀ s, (f s).repair = s.repair) :
    (collided m lost addr table f s).repair = s.repair := by
  unfold collided
  first | (simp; done) | ((try dsimp only); (repeat' split) <;> first | (simp [*]; done) | simp_all | (repeat' split) <;> simp [*])

@[simp] theorem collided_shadow (m : Master) (lost : Bool) (addr : Nat) (table : Bool) (f : State → State) (s : State) (hf : ∀ s, (f s).shadow = s.shadow) :
    (collided m lost addr table f s).shadow = s.shadow := by
  unfold collided
  first | (simp; done) | ((try dsimp only); (repeat' split) <;> first | (simp [*]; done) | simp_all | (repeat' split) <;> simp [*])

@[simp] theorem collided_inForce (m : Master) (lost : Bool) (addr : Nat) (table : Bool) (f : State → State) (s : State) (hf : ∀ s, (f s).inForce = s.inForce) :
    (collided m lost addr table f s).inForce = s.inForce := by
  unfold collided
  first | (simp; done) | ((try dsimp only); (repeat' split) <;> first | (simp [*]; done) | simp_all | (repeat' split) <;> simp [*])

@[simp] theorem collided_otpRequest (m : Master) (lost : Bool) (addr : Nat) (table : Bool) (f : State → State) (s : State) (hf : ∀ s, (f s).otpRequest = s.otpRequest) :
    (collided m lost addr table f s).otpRequest = s.otpRequest := by
  unfold collided
  first | (simp; done) | ((try dsimp only); (repeat' split) <;> first | (simp [*]; done) | simp_all | (repeat' split) <;> simp [*])

@[simp] theorem collided_heldCommands (m : Master) (lost : Bool) (addr : Nat) (table : Bool) (f : State → State) (s : State) (hf : ∀ s, (f s).heldCommands = s.heldCommands) :
    (collided m lost addr table f s).heldCommands = s.heldCommands := by
  unfold collided
  first | (simp; done) | ((try dsimp only); (repeat' split) <;> first | (simp [*]; done) | simp_all | (repeat' split) <;> simp [*])

@[simp] theorem collided_crossReads (m : Master) (lost : Bool) (addr : Nat) (table : Bool) (f : State → State) (s : State) (hf : ∀ s, (f s).crossReads = s.crossReads) :
    (collided m lost addr table f s).crossReads = s.crossReads := by
  unfold collided
  first | (simp; done) | ((try dsimp only); (repeat' split) <;> first | (simp [*]; done) | simp_all | (repeat' split) <;> simp [*])

@[simp] theorem collided_plen (m : Master) (lost : Bool) (addr : Nat) (table : Bool) (f : State → State) (s : State) (hf : ∀ s, (f s).pins.pins.length = s.pins.pins.length) :
    (collided m lost addr table f s).pins.pins.length = s.pins.pins.length := by
  unfold collided
  first | (simp; done) | ((try dsimp only); (repeat' split) <;> first | (simp [*]; done) | simp_all | (repeat' split) <;> simp [*])

@[simp] theorem writeEntry_frame (m : Master) (w i : Nat) (e : QWord) (s : State) :
    (writeEntry m w i e s).pending = s.pending ∧ (writeEntry m w i e s).variant = s.variant ∧
    (writeEntry m w i e s).otp = s.otp ∧ (writeEntry m w i e s).masters.length = s.masters.length ∧
    (writeEntry m w i e s).cores.channels.length = s.cores.channels.length ∧
    (writeEntry m w i e s).regs.debugLevel = s.regs.debugLevel ∧ (writeEntry m w i e s).store.cs = s.store.cs ∧
    (writeEntry m w i e s).store.csDev = s.store.csDev ∧ (writeEntry m w i e s).store.granules = s.store.granules ∧
    (writeEntry m w i e s).stream = s.stream ∧ (writeEntry m w i e s).power = s.power ∧
    (writeEntry m w i e s).loader = s.loader ∧ (writeEntry m w i e s).egress = s.egress ∧
    (writeEntry m w i e s).inForce = s.inForce ∧ (writeEntry m w i e s).otpRequest = s.otpRequest ∧
    (writeEntry m w i e s).heldCommands = s.heldCommands ∧ (writeEntry m w i e s).crossReads = s.crossReads ∧
    (writeEntry m w i e s).pins.pins.length = s.pins.pins.length := by
  unfold writeEntry
  first | (simp; done) | ((try dsimp only); (repeat' split) <;> first | (simp; done) | simp_all | (repeat' split) <;> simp)

@[simp] theorem writeTable_frame (m : Master) (k : Nat) (data : Word) (s : State) :
    (writeTable m k data s).pending = s.pending ∧ (writeTable m k data s).variant = s.variant ∧
    (writeTable m k data s).otp = s.otp ∧ (writeTable m k data s).masters.length = s.masters.length ∧
    (writeTable m k data s).cores.channels.length = s.cores.channels.length ∧
    (writeTable m k data s).regs.debugLevel = s.regs.debugLevel ∧ (writeTable m k data s).store.cs = s.store.cs ∧
    (writeTable m k data s).store.csDev = s.store.csDev ∧ (writeTable m k data s).store.granules = s.store.granules ∧
    (writeTable m k data s).stream = s.stream ∧ (writeTable m k data s).power = s.power ∧
    (writeTable m k data s).loader = s.loader ∧ (writeTable m k data s).egress = s.egress ∧
    (writeTable m k data s).inForce = s.inForce ∧ (writeTable m k data s).otpRequest = s.otpRequest ∧
    (writeTable m k data s).heldCommands = s.heldCommands ∧ (writeTable m k data s).crossReads = s.crossReads ∧
    (writeTable m k data s).pins.pins.length = s.pins.pins.length := by
  unfold writeTable
  first | (simp; done) | ((try dsimp only); (repeat' split) <;> first | (simp; done) | simp_all | (repeat' split) <;> simp)

@[simp] theorem writeSelect_frame (m : Master) (data : Word) (s : State) :
    (writeSelect m data s).pending = s.pending ∧ (writeSelect m data s).variant = s.variant ∧
    (writeSelect m data s).otp = s.otp ∧ (writeSelect m data s).masters.length = s.masters.length ∧
    (writeSelect m data s).cores.channels.length = s.cores.channels.length ∧
    (writeSelect m data s).regs.debugLevel = s.regs.debugLevel ∧ (writeSelect m data s).store.cs = s.store.cs ∧
    (writeSelect m data s).store.csDev = s.store.csDev ∧ (writeSelect m data s).store.granules = s.store.granules ∧
    (writeSelect m data s).pins = s.pins ∧ (writeSelect m data s).stream = s.stream ∧
    (writeSelect m data s).power = s.power ∧ (writeSelect m data s).loader = s.loader ∧
    (writeSelect m data s).conservator = s.conservator ∧ (writeSelect m data s).egress = s.egress ∧
    (writeSelect m data s).repair = s.repair ∧ (writeSelect m data s).shadow = s.shadow ∧
    (writeSelect m data s).inForce = s.inForce ∧ (writeSelect m data s).otpRequest = s.otpRequest ∧
    (writeSelect m data s).heldCommands = s.heldCommands ∧ (writeSelect m data s).crossReads = s.crossReads := by
  unfold writeSelect
  first | (simp; done) | ((try dsimp only); (repeat' split) <;> first | (simp; done) | simp_all | (repeat' split) <;> simp)

@[simp] theorem writeIndex_frame (m : Master) (data : Word) (s : State) :
    (writeIndex m data s).pending = s.pending ∧ (writeIndex m data s).variant = s.variant ∧
    (writeIndex m data s).otp = s.otp ∧ (writeIndex m data s).masters.length = s.masters.length ∧
    (writeIndex m data s).cores.channels.length = s.cores.channels.length ∧
    (writeIndex m data s).regs.debugLevel = s.regs.debugLevel ∧ (writeIndex m data s).store.cs = s.store.cs ∧
    (writeIndex m data s).store.csDev = s.store.csDev ∧ (writeIndex m data s).store.granules = s.store.granules ∧
    (writeIndex m data s).pins = s.pins ∧ (writeIndex m data s).stream = s.stream ∧ (writeIndex m data s).power = s.power ∧
    (writeIndex m data s).loader = s.loader ∧ (writeIndex m data s).conservator = s.conservator ∧
    (writeIndex m data s).egress = s.egress ∧ (writeIndex m data s).repair = s.repair ∧
    (writeIndex m data s).shadow = s.shadow ∧ (writeIndex m data s).inForce = s.inForce ∧
    (writeIndex m data s).otpRequest = s.otpRequest ∧ (writeIndex m data s).heldCommands = s.heldCommands ∧
    (writeIndex m data s).crossReads = s.crossReads := by
  unfold writeIndex
  first | (simp; done) | ((try dsimp only); (repeat' split) <;> first | (simp; done) | simp_all | (repeat' split) <;> simp)

@[simp] theorem writeTableControl_frame (m : Master) (data : Word) (s : State) :
    (writeTableControl m data s).pending = s.pending ∧ (writeTableControl m data s).variant = s.variant ∧
    (writeTableControl m data s).otp = s.otp ∧ (writeTableControl m data s).masters.length = s.masters.length ∧
    (writeTableControl m data s).cores.channels.length = s.cores.channels.length ∧
    (writeTableControl m data s).regs.debugLevel = s.regs.debugLevel ∧ (writeTableControl m data s).store.cs = s.store.cs ∧
    (writeTableControl m data s).store.csDev = s.store.csDev ∧
    (writeTableControl m data s).store.granules = s.store.granules ∧ (writeTableControl m data s).pins = s.pins ∧
    (writeTableControl m data s).stream = s.stream ∧ (writeTableControl m data s).power = s.power ∧
    (writeTableControl m data s).loader = s.loader ∧ (writeTableControl m data s).conservator = s.conservator ∧
    (writeTableControl m data s).egress = s.egress ∧ (writeTableControl m data s).repair = s.repair ∧
    (writeTableControl m data s).shadow = s.shadow ∧ (writeTableControl m data s).inForce = s.inForce ∧
    (writeTableControl m data s).otpRequest = s.otpRequest ∧ (writeTableControl m data s).heldCommands = s.heldCommands ∧
    (writeTableControl m data s).crossReads = s.crossReads := by
  unfold writeTableControl
  first | (simp; done) | ((try dsimp only); (repeat' split) <;> first | (simp; done) | simp_all | (repeat' split) <;> simp)

@[simp] theorem resync_frame  (s : State) :
    (resync s).pending = s.pending ∧ (resync s).variant = s.variant ∧ (resync s).otp = s.otp ∧
    (resync s).masters.length = s.masters.length ∧ (resync s).cores.channels.length = s.cores.channels.length ∧
    (resync s).regs.debugLevel = s.regs.debugLevel ∧ (resync s).store.cs = s.store.cs ∧
    (resync s).store.csDev = s.store.csDev ∧ (resync s).store.granules = s.store.granules ∧ (resync s).pins = s.pins ∧
    (resync s).stream = s.stream ∧ (resync s).power = s.power ∧ (resync s).loader = s.loader ∧
    (resync s).conservator = s.conservator ∧ (resync s).egress = s.egress ∧ (resync s).repair = s.repair ∧
    (resync s).shadow = s.shadow ∧ (resync s).inForce = s.inForce ∧ (resync s).otpRequest = s.otpRequest ∧
    (resync s).heldCommands = s.heldCommands ∧ (resync s).crossReads = s.crossReads := by
  unfold resync
  first | (simp; done) | ((try dsimp only); (repeat' split) <;> first | (simp; done) | simp_all | (repeat' split) <;> simp)

@[simp] theorem releaseFreeze_frame  (s : State) :
    (releaseFreeze s).pending = s.pending ∧ (releaseFreeze s).variant = s.variant ∧ (releaseFreeze s).otp = s.otp ∧
    (releaseFreeze s).masters.length = s.masters.length ∧
    (releaseFreeze s).cores.channels.length = s.cores.channels.length ∧
    (releaseFreeze s).regs.debugLevel = s.regs.debugLevel ∧ (releaseFreeze s).store.cs = s.store.cs ∧
    (releaseFreeze s).store.csDev = s.store.csDev ∧ (releaseFreeze s).store.granules = s.store.granules ∧
    (releaseFreeze s).pins = s.pins ∧ (releaseFreeze s).stream = s.stream ∧ (releaseFreeze s).power = s.power ∧
    (releaseFreeze s).loader = s.loader ∧ (releaseFreeze s).conservator = s.conservator ∧
    (releaseFreeze s).egress = s.egress ∧ (releaseFreeze s).repair = s.repair ∧ (releaseFreeze s).shadow = s.shadow ∧
    (releaseFreeze s).inForce = s.inForce ∧ (releaseFreeze s).otpRequest = s.otpRequest ∧
    (releaseFreeze s).heldCommands = s.heldCommands ∧ (releaseFreeze s).crossReads = s.crossReads := by
  unfold releaseFreeze
  first | (simp; done) | ((try dsimp only); (repeat' split) <;> first | (simp; done) | simp_all | (repeat' split) <;> simp)

@[simp] theorem resumeEgress_frame  (s : State) :
    (resumeEgress s).pending = s.pending ∧ (resumeEgress s).variant = s.variant ∧ (resumeEgress s).otp = s.otp ∧
    (resumeEgress s).masters.length = s.masters.length ∧ (resumeEgress s).cores.channels.length = s.cores.channels.length ∧
    (resumeEgress s).regs.debugLevel = s.regs.debugLevel ∧ (resumeEgress s).store.cs = s.store.cs ∧
    (resumeEgress s).store.csDev = s.store.csDev ∧ (resumeEgress s).store.granules = s.store.granules ∧
    (resumeEgress s).pins = s.pins ∧ (resumeEgress s).stream = s.stream ∧ (resumeEgress s).power = s.power ∧
    (resumeEgress s).loader = s.loader ∧ (resumeEgress s).conservator = s.conservator ∧ (resumeEgress s).repair = s.repair ∧
    (resumeEgress s).shadow = s.shadow ∧ (resumeEgress s).inForce = s.inForce ∧ (resumeEgress s).otpRequest = s.otpRequest ∧
    (resumeEgress s).heldCommands = s.heldCommands ∧ (resumeEgress s).crossReads = s.crossReads := by
  unfold resumeEgress
  first | (simp; done) | ((try dsimp only); (repeat' split) <;> first | (simp; done) | simp_all | (repeat' split) <;> simp)

@[simp] theorem woEffect_frame (addr : Nat) (data : Word) (s : State) :
    (woEffect addr data s).pending = s.pending ∧ (woEffect addr data s).variant = s.variant ∧
    (woEffect addr data s).otp = s.otp ∧ (woEffect addr data s).masters.length = s.masters.length ∧
    (woEffect addr data s).cores.channels.length = s.cores.channels.length ∧
    (woEffect addr data s).regs.debugLevel = s.regs.debugLevel ∧ (woEffect addr data s).store.cs = s.store.cs ∧
    (woEffect addr data s).store.csDev = s.store.csDev ∧ (woEffect addr data s).store.granules = s.store.granules ∧
    (woEffect addr data s).pins = s.pins ∧ (woEffect addr data s).stream = s.stream ∧
    (woEffect addr data s).power = s.power ∧ (woEffect addr data s).loader = s.loader ∧
    (woEffect addr data s).repair = s.repair ∧ (woEffect addr data s).shadow = s.shadow ∧
    (woEffect addr data s).inForce = s.inForce ∧ (woEffect addr data s).otpRequest = s.otpRequest ∧
    (woEffect addr data s).heldCommands = s.heldCommands ∧ (woEffect addr data s).crossReads = s.crossReads := by
  unfold woEffect
  first | (simp; done) | ((try dsimp only); (repeat' split) <;> first | (simp; done) | simp_all | (repeat' split) <;> simp)

@[simp] theorem runHeld_frame  (s : State) :
    (runHeld s).pending = s.pending ∧ (runHeld s).variant = s.variant ∧ (runHeld s).otp = s.otp ∧
    (runHeld s).masters.length = s.masters.length ∧ (runHeld s).cores.channels.length = s.cores.channels.length ∧
    (runHeld s).regs.debugLevel = s.regs.debugLevel ∧ (runHeld s).store.cs = s.store.cs ∧
    (runHeld s).store.csDev = s.store.csDev ∧ (runHeld s).store.granules = s.store.granules ∧ (runHeld s).pins = s.pins ∧
    (runHeld s).stream = s.stream ∧ (runHeld s).power = s.power ∧ (runHeld s).loader = s.loader ∧
    (runHeld s).repair = s.repair ∧ (runHeld s).shadow = s.shadow ∧ (runHeld s).inForce = s.inForce ∧
    (runHeld s).otpRequest = s.otpRequest ∧ (runHeld s).crossReads = s.crossReads := by
  unfold runHeld
  first | (simp; done) | ((try dsimp only); (repeat' split) <;> first | (simp; done) | simp_all | (repeat' split) <;> simp)

@[simp] theorem writeCommands_frame (m : Master) (addr : Nat) (data : Word) (s : State) :
    (writeCommands m addr data s).pending = s.pending ∧ (writeCommands m addr data s).variant = s.variant ∧
    (writeCommands m addr data s).otp = s.otp ∧ (writeCommands m addr data s).masters.length = s.masters.length ∧
    (writeCommands m addr data s).cores.channels.length = s.cores.channels.length ∧
    (writeCommands m addr data s).regs.debugLevel = s.regs.debugLevel ∧
    (writeCommands m addr data s).store.cs = s.store.cs ∧ (writeCommands m addr data s).store.csDev = s.store.csDev ∧
    (writeCommands m addr data s).store.granules = s.store.granules ∧ (writeCommands m addr data s).pins = s.pins ∧
    (writeCommands m addr data s).stream = s.stream ∧ (writeCommands m addr data s).loader = s.loader ∧
    (writeCommands m addr data s).repair = s.repair ∧ (writeCommands m addr data s).shadow = s.shadow ∧
    (writeCommands m addr data s).inForce = s.inForce ∧ (writeCommands m addr data s).otpRequest = s.otpRequest ∧
    (writeCommands m addr data s).crossReads = s.crossReads := by
  unfold writeCommands
  first | (simp; done) | ((try dsimp only); (repeat' split) <;> first | (simp; done) | simp_all | (repeat' split) <;> simp)

@[simp] theorem putRun_frame (v : Bool) (s : State) :
    (putRun v s).pending = s.pending ∧ (putRun v s).variant = s.variant ∧ (putRun v s).otp = s.otp ∧
    (putRun v s).masters.length = s.masters.length ∧ (putRun v s).cores.channels.length = s.cores.channels.length ∧
    (putRun v s).regs.debugLevel = s.regs.debugLevel ∧ (putRun v s).store.cs = s.store.cs ∧
    (putRun v s).store.csDev = s.store.csDev ∧ (putRun v s).store.granules = s.store.granules ∧
    (putRun v s).stream = s.stream ∧ (putRun v s).power = s.power ∧ (putRun v s).loader = s.loader ∧
    (putRun v s).conservator = s.conservator ∧ (putRun v s).egress = s.egress ∧ (putRun v s).repair = s.repair ∧
    (putRun v s).shadow = s.shadow ∧ (putRun v s).inForce = s.inForce ∧ (putRun v s).otpRequest = s.otpRequest ∧
    (putRun v s).heldCommands = s.heldCommands ∧ (putRun v s).crossReads = s.crossReads ∧
    (putRun v s).pins.pins.length = s.pins.pins.length := by
  unfold putRun
  first | (simp; done) | ((try dsimp only); (repeat' split) <;> first | (simp; done) | simp_all | (repeat' split) <;> simp)

@[simp] theorem writeWakeEnable_frame (data : Word) (s : State) :
    (writeWakeEnable data s).pending = s.pending ∧ (writeWakeEnable data s).variant = s.variant ∧
    (writeWakeEnable data s).otp = s.otp ∧ (writeWakeEnable data s).masters.length = s.masters.length ∧
    (writeWakeEnable data s).cores.channels.length = s.cores.channels.length ∧
    (writeWakeEnable data s).regs.debugLevel = s.regs.debugLevel ∧ (writeWakeEnable data s).store.cs = s.store.cs ∧
    (writeWakeEnable data s).store.csDev = s.store.csDev ∧ (writeWakeEnable data s).store.granules = s.store.granules ∧
    (writeWakeEnable data s).pins = s.pins ∧ (writeWakeEnable data s).stream = s.stream ∧
    (writeWakeEnable data s).power = s.power ∧ (writeWakeEnable data s).loader = s.loader ∧
    (writeWakeEnable data s).conservator = s.conservator ∧ (writeWakeEnable data s).egress = s.egress ∧
    (writeWakeEnable data s).repair = s.repair ∧ (writeWakeEnable data s).shadow = s.shadow ∧
    (writeWakeEnable data s).inForce = s.inForce ∧ (writeWakeEnable data s).otpRequest = s.otpRequest ∧
    (writeWakeEnable data s).heldCommands = s.heldCommands ∧ (writeWakeEnable data s).crossReads = s.crossReads := by
  unfold writeWakeEnable
  first | (simp; done) | ((try dsimp only); (repeat' split) <;> first | (simp; done) | simp_all | (repeat' split) <;> simp)

@[simp] theorem clearFaultA_frame (data : Word) (s : State) :
    (clearFaultA data s).pending = s.pending ∧ (clearFaultA data s).variant = s.variant ∧ (clearFaultA data s).otp = s.otp ∧
    (clearFaultA data s).masters.length = s.masters.length ∧
    (clearFaultA data s).cores.channels.length = s.cores.channels.length ∧
    (clearFaultA data s).regs.debugLevel = s.regs.debugLevel ∧ (clearFaultA data s).store.cs = s.store.cs ∧
    (clearFaultA data s).store.csDev = s.store.csDev ∧ (clearFaultA data s).store.granules = s.store.granules ∧
    (clearFaultA data s).pins = s.pins ∧ (clearFaultA data s).stream = s.stream ∧ (clearFaultA data s).power = s.power ∧
    (clearFaultA data s).loader = s.loader ∧ (clearFaultA data s).conservator = s.conservator ∧
    (clearFaultA data s).egress = s.egress ∧ (clearFaultA data s).repair = s.repair ∧
    (clearFaultA data s).shadow = s.shadow ∧ (clearFaultA data s).inForce = s.inForce ∧
    (clearFaultA data s).otpRequest = s.otpRequest ∧ (clearFaultA data s).heldCommands = s.heldCommands ∧
    (clearFaultA data s).crossReads = s.crossReads := by
  unfold clearFaultA
  first | (simp; done) | ((try dsimp only); (repeat' split) <;> first | (simp; done) | simp_all | (repeat' split) <;> simp)

@[simp] theorem writeLoadControl_frame (data : Word) (s : State) :
    (writeLoadControl data s).pending = s.pending ∧ (writeLoadControl data s).variant = s.variant ∧
    (writeLoadControl data s).otp = s.otp ∧ (writeLoadControl data s).masters.length = s.masters.length ∧
    (writeLoadControl data s).cores.channels.length = s.cores.channels.length ∧
    (writeLoadControl data s).regs.debugLevel = s.regs.debugLevel ∧ (writeLoadControl data s).store.cs = s.store.cs ∧
    (writeLoadControl data s).store.csDev = s.store.csDev ∧ (writeLoadControl data s).store.granules = s.store.granules ∧
    (writeLoadControl data s).pins = s.pins ∧ (writeLoadControl data s).shadow = s.shadow ∧
    (writeLoadControl data s).inForce = s.inForce ∧ (writeLoadControl data s).otpRequest = s.otpRequest ∧
    (writeLoadControl data s).heldCommands = s.heldCommands ∧ (writeLoadControl data s).crossReads = s.crossReads := by
  unfold writeLoadControl
  first | (simp; done) | ((try dsimp only); (repeat' split) <;> first | (simp; done) | simp_all | (repeat' split) <;> simp)

@[simp] theorem writeRates_frame (m : Master) (data : Word) (s : State) :
    (writeRates m data s).pending = s.pending ∧ (writeRates m data s).variant = s.variant ∧
    (writeRates m data s).otp = s.otp ∧ (writeRates m data s).masters.length = s.masters.length ∧
    (writeRates m data s).cores.channels.length = s.cores.channels.length ∧
    (writeRates m data s).regs.debugLevel = s.regs.debugLevel ∧ (writeRates m data s).store.cs = s.store.cs ∧
    (writeRates m data s).store.csDev = s.store.csDev ∧ (writeRates m data s).store.granules = s.store.granules ∧
    (writeRates m data s).pins = s.pins ∧ (writeRates m data s).stream = s.stream ∧ (writeRates m data s).power = s.power ∧
    (writeRates m data s).loader = s.loader ∧ (writeRates m data s).conservator = s.conservator ∧
    (writeRates m data s).egress = s.egress ∧ (writeRates m data s).repair = s.repair ∧
    (writeRates m data s).inForce = s.inForce ∧ (writeRates m data s).otpRequest = s.otpRequest ∧
    (writeRates m data s).heldCommands = s.heldCommands ∧ (writeRates m data s).crossReads = s.crossReads := by
  unfold writeRates
  first | (simp; done) | ((try dsimp only); (repeat' split) <;> first | (simp; done) | simp_all | (repeat' split) <;> simp)

@[simp] theorem writeTwinControl_frame (m : Master) (data : Word) (s : State) :
    (writeTwinControl m data s).pending = s.pending ∧ (writeTwinControl m data s).variant = s.variant ∧
    (writeTwinControl m data s).otp = s.otp ∧ (writeTwinControl m data s).masters.length = s.masters.length ∧
    (writeTwinControl m data s).cores.channels.length = s.cores.channels.length ∧
    (writeTwinControl m data s).regs.debugLevel = s.regs.debugLevel ∧ (writeTwinControl m data s).store.cs = s.store.cs ∧
    (writeTwinControl m data s).store.csDev = s.store.csDev ∧
    (writeTwinControl m data s).store.granules = s.store.granules ∧ (writeTwinControl m data s).pins = s.pins ∧
    (writeTwinControl m data s).stream = s.stream ∧ (writeTwinControl m data s).power = s.power ∧
    (writeTwinControl m data s).loader = s.loader ∧ (writeTwinControl m data s).conservator = s.conservator ∧
    (writeTwinControl m data s).egress = s.egress ∧ (writeTwinControl m data s).repair = s.repair ∧
    (writeTwinControl m data s).inForce = s.inForce ∧ (writeTwinControl m data s).otpRequest = s.otpRequest ∧
    (writeTwinControl m data s).heldCommands = s.heldCommands ∧ (writeTwinControl m data s).crossReads = s.crossReads := by
  unfold writeTwinControl
  first | (simp; done) | ((try dsimp only); (repeat' split) <;> first | (simp; done) | simp_all | (repeat' split) <;> simp)

@[simp] theorem writeFailControl_frame (data : Word) (s : State) :
    (writeFailControl data s).pending = s.pending ∧ (writeFailControl data s).variant = s.variant ∧
    (writeFailControl data s).otp = s.otp ∧ (writeFailControl data s).masters.length = s.masters.length ∧
    (writeFailControl data s).cores.channels.length = s.cores.channels.length ∧
    (writeFailControl data s).regs.debugLevel = s.regs.debugLevel ∧ (writeFailControl data s).store.cs = s.store.cs ∧
    (writeFailControl data s).store.csDev = s.store.csDev ∧ (writeFailControl data s).store.granules = s.store.granules ∧
    (writeFailControl data s).pins = s.pins ∧ (writeFailControl data s).stream = s.stream ∧
    (writeFailControl data s).power = s.power ∧ (writeFailControl data s).loader = s.loader ∧
    (writeFailControl data s).conservator = s.conservator ∧ (writeFailControl data s).egress = s.egress ∧
    (writeFailControl data s).repair = s.repair ∧ (writeFailControl data s).shadow = s.shadow ∧
    (writeFailControl data s).inForce = s.inForce ∧ (writeFailControl data s).otpRequest = s.otpRequest ∧
    (writeFailControl data s).heldCommands = s.heldCommands ∧ (writeFailControl data s).crossReads = s.crossReads := by
  unfold writeFailControl
  first | (simp; done) | ((try dsimp only); (repeat' split) <;> first | (simp; done) | simp_all | (repeat' split) <;> simp)

@[simp] theorem writeScrubControl_frame (data : Word) (s : State) :
    (writeScrubControl data s).pending = s.pending ∧ (writeScrubControl data s).variant = s.variant ∧
    (writeScrubControl data s).otp = s.otp ∧ (writeScrubControl data s).masters.length = s.masters.length ∧
    (writeScrubControl data s).cores.channels.length = s.cores.channels.length ∧
    (writeScrubControl data s).regs.debugLevel = s.regs.debugLevel ∧ (writeScrubControl data s).store.cs = s.store.cs ∧
    (writeScrubControl data s).store.csDev = s.store.csDev ∧ (writeScrubControl data s).store.granules = s.store.granules ∧
    (writeScrubControl data s).pins = s.pins ∧ (writeScrubControl data s).stream = s.stream ∧
    (writeScrubControl data s).power = s.power ∧ (writeScrubControl data s).loader = s.loader ∧
    (writeScrubControl data s).conservator = s.conservator ∧ (writeScrubControl data s).egress = s.egress ∧
    (writeScrubControl data s).repair = s.repair ∧ (writeScrubControl data s).shadow = s.shadow ∧
    (writeScrubControl data s).inForce = s.inForce ∧ (writeScrubControl data s).otpRequest = s.otpRequest ∧
    (writeScrubControl data s).heldCommands = s.heldCommands ∧ (writeScrubControl data s).crossReads = s.crossReads := by
  unfold writeScrubControl
  first | (simp; done) | ((try dsimp only); (repeat' split) <;> first | (simp; done) | simp_all | (repeat' split) <;> simp)

@[simp] theorem releaseHold_frame  (s : State) :
    (releaseHold s).pending = s.pending ∧ (releaseHold s).variant = s.variant ∧ (releaseHold s).otp = s.otp ∧
    (releaseHold s).masters.length = s.masters.length ∧ (releaseHold s).cores.channels.length = s.cores.channels.length ∧
    (releaseHold s).regs.debugLevel = s.regs.debugLevel ∧ (releaseHold s).store.cs = s.store.cs ∧
    (releaseHold s).store.csDev = s.store.csDev ∧ (releaseHold s).store.granules = s.store.granules ∧
    (releaseHold s).pins = s.pins ∧ (releaseHold s).stream = s.stream ∧ (releaseHold s).power = s.power ∧
    (releaseHold s).loader = s.loader ∧ (releaseHold s).egress = s.egress ∧ (releaseHold s).shadow = s.shadow ∧
    (releaseHold s).inForce = s.inForce ∧ (releaseHold s).otpRequest = s.otpRequest ∧
    (releaseHold s).heldCommands = s.heldCommands ∧ (releaseHold s).crossReads = s.crossReads := by
  unfold releaseHold
  first | (simp; done) | ((try dsimp only); (repeat' split) <;> first | (simp; done) | simp_all | (repeat' split) <;> simp)

@[simp] theorem writeSurveyControl_frame (data : Word) (s : State) :
    (writeSurveyControl data s).pending = s.pending ∧ (writeSurveyControl data s).variant = s.variant ∧
    (writeSurveyControl data s).otp = s.otp ∧ (writeSurveyControl data s).masters.length = s.masters.length ∧
    (writeSurveyControl data s).cores.channels.length = s.cores.channels.length ∧
    (writeSurveyControl data s).regs.debugLevel = s.regs.debugLevel ∧ (writeSurveyControl data s).store.cs = s.store.cs ∧
    (writeSurveyControl data s).store.csDev = s.store.csDev ∧
    (writeSurveyControl data s).store.granules = s.store.granules ∧ (writeSurveyControl data s).pins = s.pins ∧
    (writeSurveyControl data s).stream = s.stream ∧ (writeSurveyControl data s).power = s.power ∧
    (writeSurveyControl data s).loader = s.loader ∧ (writeSurveyControl data s).egress = s.egress ∧
    (writeSurveyControl data s).shadow = s.shadow ∧ (writeSurveyControl data s).inForce = s.inForce ∧
    (writeSurveyControl data s).otpRequest = s.otpRequest ∧ (writeSurveyControl data s).heldCommands = s.heldCommands ∧
    (writeSurveyControl data s).crossReads = s.crossReads := by
  unfold writeSurveyControl
  first | (simp; done) | ((try dsimp only); (repeat' split) <;> first | (simp; done) | simp_all | (repeat' split) <;> simp)

@[simp] theorem writeWdogControl_frame (data : Word) (s : State) :
    (writeWdogControl data s).pending = s.pending ∧ (writeWdogControl data s).variant = s.variant ∧
    (writeWdogControl data s).otp = s.otp ∧ (writeWdogControl data s).masters.length = s.masters.length ∧
    (writeWdogControl data s).cores.channels.length = s.cores.channels.length ∧
    (writeWdogControl data s).regs.debugLevel = s.regs.debugLevel ∧ (writeWdogControl data s).store.cs = s.store.cs ∧
    (writeWdogControl data s).store.csDev = s.store.csDev ∧ (writeWdogControl data s).store.granules = s.store.granules ∧
    (writeWdogControl data s).pins = s.pins ∧ (writeWdogControl data s).stream = s.stream ∧
    (writeWdogControl data s).power = s.power ∧ (writeWdogControl data s).loader = s.loader ∧
    (writeWdogControl data s).conservator = s.conservator ∧ (writeWdogControl data s).egress = s.egress ∧
    (writeWdogControl data s).repair = s.repair ∧ (writeWdogControl data s).shadow = s.shadow ∧
    (writeWdogControl data s).inForce = s.inForce ∧ (writeWdogControl data s).otpRequest = s.otpRequest ∧
    (writeWdogControl data s).heldCommands = s.heldCommands ∧ (writeWdogControl data s).crossReads = s.crossReads := by
  unfold writeWdogControl
  first | (simp; done) | ((try dsimp only); (repeat' split) <;> first | (simp; done) | simp_all | (repeat' split) <;> simp)

@[simp] theorem writeClock_frame (m : Master) (data : Word) (s : State) :
    (writeClock m data s).pending = s.pending ∧ (writeClock m data s).variant = s.variant ∧
    (writeClock m data s).otp = s.otp ∧ (writeClock m data s).masters.length = s.masters.length ∧
    (writeClock m data s).cores.channels.length = s.cores.channels.length ∧
    (writeClock m data s).regs.debugLevel = s.regs.debugLevel ∧ (writeClock m data s).store.cs = s.store.cs ∧
    (writeClock m data s).store.csDev = s.store.csDev ∧ (writeClock m data s).store.granules = s.store.granules ∧
    (writeClock m data s).pins = s.pins ∧ (writeClock m data s).stream = s.stream ∧ (writeClock m data s).power = s.power ∧
    (writeClock m data s).loader = s.loader ∧ (writeClock m data s).conservator = s.conservator ∧
    (writeClock m data s).egress = s.egress ∧ (writeClock m data s).repair = s.repair ∧
    (writeClock m data s).inForce = s.inForce ∧ (writeClock m data s).otpRequest = s.otpRequest ∧
    (writeClock m data s).heldCommands = s.heldCommands ∧ (writeClock m data s).crossReads = s.crossReads := by
  unfold writeClock
  first | (simp; done) | ((try dsimp only); (repeat' split) <;> first | (simp; done) | simp_all | (repeat' split) <;> simp)

@[simp] theorem writeReg_frame (m : Master) (addr : Nat) (data : Word) (s : State) :
    (writeReg m addr data s).pending = s.pending ∧ (writeReg m addr data s).variant = s.variant ∧
    (writeReg m addr data s).otp = s.otp ∧ (writeReg m addr data s).masters.length = s.masters.length ∧
    (writeReg m addr data s).cores.channels.length = s.cores.channels.length ∧
    (writeReg m addr data s).store.cs = s.store.cs ∧ (writeReg m addr data s).store.csDev = s.store.csDev ∧
    (writeReg m addr data s).store.granules = s.store.granules ∧ (writeReg m addr data s).otpRequest = s.otpRequest ∧
    (writeReg m addr data s).heldCommands = s.heldCommands ∧ (writeReg m addr data s).crossReads = s.crossReads ∧
    (writeReg m addr data s).pins.pins.length = s.pins.pins.length := by
  unfold writeReg
  first | (simp; done) | ((try dsimp only); (repeat' split) <;> first | (simp; done) | simp_all | (repeat' split) <;> simp)

@[simp] theorem fileWrite_frame (m : Master) (addr : Nat) (data : Word) (s : State) :
    (fileWrite m addr data s).pending = s.pending ∧ (fileWrite m addr data s).variant = s.variant ∧
    (fileWrite m addr data s).otp = s.otp ∧ (fileWrite m addr data s).masters.length = s.masters.length ∧
    (fileWrite m addr data s).cores.channels.length = s.cores.channels.length ∧
    (fileWrite m addr data s).store.cs = s.store.cs ∧ (fileWrite m addr data s).store.csDev = s.store.csDev ∧
    (fileWrite m addr data s).store.granules = s.store.granules ∧ (fileWrite m addr data s).crossReads = s.crossReads ∧
    (fileWrite m addr data s).pins.pins.length = s.pins.pins.length := by
  unfold fileWrite
  first | (simp; done) | ((try dsimp only); (repeat' split) <;> first | (simp; done) | simp_all | (repeat' split) <;> simp)

@[simp] theorem setupRing_frame (size : Bool) (v : Nat) (s : State) :
    (setupRing size v s).pending = s.pending ∧ (setupRing size v s).variant = s.variant ∧ (setupRing size v s).otp = s.otp ∧
    (setupRing size v s).masters.length = s.masters.length ∧
    (setupRing size v s).cores.channels.length = s.cores.channels.length ∧
    (setupRing size v s).regs.debugLevel = s.regs.debugLevel ∧ (setupRing size v s).store.cs = s.store.cs ∧
    (setupRing size v s).store.csDev = s.store.csDev ∧ (setupRing size v s).store.granules = s.store.granules ∧
    (setupRing size v s).pins = s.pins ∧ (setupRing size v s).power = s.power ∧ (setupRing size v s).loader = s.loader ∧
    (setupRing size v s).conservator = s.conservator ∧ (setupRing size v s).egress = s.egress ∧
    (setupRing size v s).repair = s.repair ∧ (setupRing size v s).shadow = s.shadow ∧
    (setupRing size v s).inForce = s.inForce ∧ (setupRing size v s).otpRequest = s.otpRequest ∧
    (setupRing size v s).heldCommands = s.heldCommands ∧ (setupRing size v s).crossReads = s.crossReads := by
  unfold setupRing
  first | (simp; done) | ((try dsimp only); (repeat' split) <;> first | (simp; done) | simp_all | (repeat' split) <;> simp)

@[simp] theorem writeProd_frame (v : DWord) (s : State) :
    (writeProd v s).pending = s.pending ∧ (writeProd v s).variant = s.variant ∧ (writeProd v s).otp = s.otp ∧
    (writeProd v s).masters.length = s.masters.length ∧ (writeProd v s).cores.channels.length = s.cores.channels.length ∧
    (writeProd v s).regs.debugLevel = s.regs.debugLevel ∧ (writeProd v s).store.cs = s.store.cs ∧
    (writeProd v s).store.csDev = s.store.csDev ∧ (writeProd v s).store.granules = s.store.granules ∧
    (writeProd v s).pins = s.pins ∧ (writeProd v s).power = s.power ∧ (writeProd v s).loader = s.loader ∧
    (writeProd v s).conservator = s.conservator ∧ (writeProd v s).egress = s.egress ∧ (writeProd v s).repair = s.repair ∧
    (writeProd v s).shadow = s.shadow ∧ (writeProd v s).inForce = s.inForce ∧ (writeProd v s).otpRequest = s.otpRequest ∧
    (writeProd v s).heldCommands = s.heldCommands ∧ (writeProd v s).crossReads = s.crossReads := by
  unfold writeProd
  first | (simp; done) | ((try dsimp only); (repeat' split) <;> first | (simp; done) | simp_all | (repeat' split) <;> simp)

@[simp] theorem stimWriteback_frame  (s : State) :
    (stimWriteback s).pending = s.pending ∧ (stimWriteback s).variant = s.variant ∧ (stimWriteback s).otp = s.otp ∧
    (stimWriteback s).masters.length = s.masters.length ∧
    (stimWriteback s).cores.channels.length = s.cores.channels.length ∧
    (stimWriteback s).regs.debugLevel = s.regs.debugLevel ∧ (stimWriteback s).store.cs = s.store.cs ∧
    (stimWriteback s).store.csDev = s.store.csDev ∧ (stimWriteback s).store.granules = s.store.granules ∧
    (stimWriteback s).pins = s.pins ∧ (stimWriteback s).stream = s.stream ∧ (stimWriteback s).power = s.power ∧
    (stimWriteback s).loader = s.loader ∧ (stimWriteback s).conservator = s.conservator ∧
    (stimWriteback s).egress = s.egress ∧ (stimWriteback s).repair = s.repair ∧ (stimWriteback s).shadow = s.shadow ∧
    (stimWriteback s).inForce = s.inForce ∧ (stimWriteback s).otpRequest = s.otpRequest ∧
    (stimWriteback s).heldCommands = s.heldCommands ∧ (stimWriteback s).crossReads = s.crossReads := by
  unfold stimWriteback
  first | (simp; done) | ((try dsimp only); (repeat' split) <;> first | (simp; done) | simp_all | (repeat' split) <;> simp)

@[simp] theorem stimDone_frame  (s : State) :
    (stimDone s).pending = s.pending ∧ (stimDone s).variant = s.variant ∧ (stimDone s).otp = s.otp ∧
    (stimDone s).masters.length = s.masters.length ∧ (stimDone s).cores.channels.length = s.cores.channels.length ∧
    (stimDone s).regs.debugLevel = s.regs.debugLevel ∧ (stimDone s).store.cs = s.store.cs ∧
    (stimDone s).store.csDev = s.store.csDev ∧ (stimDone s).store.granules = s.store.granules ∧ (stimDone s).pins = s.pins ∧
    (stimDone s).power = s.power ∧ (stimDone s).loader = s.loader ∧ (stimDone s).conservator = s.conservator ∧
    (stimDone s).egress = s.egress ∧ (stimDone s).repair = s.repair ∧ (stimDone s).shadow = s.shadow ∧
    (stimDone s).inForce = s.inForce ∧ (stimDone s).otpRequest = s.otpRequest ∧ (stimDone s).heldCommands = s.heldCommands ∧
    (stimDone s).crossReads = s.crossReads := by
  unfold stimDone
  first | (simp; done) | ((try dsimp only); (repeat' split) <;> first | (simp; done) | simp_all | (repeat' split) <;> simp)

@[simp] theorem startStim_frame (data : BitVec 2) (s : State) :
    (startStim data s).pending = s.pending ∧ (startStim data s).variant = s.variant ∧ (startStim data s).otp = s.otp ∧
    (startStim data s).masters.length = s.masters.length ∧
    (startStim data s).cores.channels.length = s.cores.channels.length ∧
    (startStim data s).regs.debugLevel = s.regs.debugLevel ∧ (startStim data s).store.cs = s.store.cs ∧
    (startStim data s).store.csDev = s.store.csDev ∧ (startStim data s).store.granules = s.store.granules ∧
    (startStim data s).pins = s.pins ∧ (startStim data s).power = s.power ∧ (startStim data s).loader = s.loader ∧
    (startStim data s).conservator = s.conservator ∧ (startStim data s).egress = s.egress ∧
    (startStim data s).repair = s.repair ∧ (startStim data s).shadow = s.shadow ∧ (startStim data s).inForce = s.inForce ∧
    (startStim data s).otpRequest = s.otpRequest ∧ (startStim data s).heldCommands = s.heldCommands ∧
    (startStim data s).crossReads = s.crossReads := by
  unfold startStim
  first | (simp; done) | ((try dsimp only); (repeat' split) <;> first | (simp; done) | simp_all | (repeat' split) <;> simp)

@[simp] theorem putBase_pending (unit : Nat) (v : QWord) (f : QWord → State → State) (s : State) (hf : ∀ x0 s, (f x0 s).pending = s.pending) :
    (putBase unit v f s).pending = s.pending := by
  unfold putBase
  first | (simp; done) | ((try dsimp only); (repeat' split) <;> first | (simp [*]; done) | simp_all | (repeat' split) <;> simp [*])

@[simp] theorem putBase_variant (unit : Nat) (v : QWord) (f : QWord → State → State) (s : State) (hf : ∀ x0 s, (f x0 s).variant = s.variant) :
    (putBase unit v f s).variant = s.variant := by
  unfold putBase
  first | (simp; done) | ((try dsimp only); (repeat' split) <;> first | (simp [*]; done) | simp_all | (repeat' split) <;> simp [*])

@[simp] theorem putBase_otp (unit : Nat) (v : QWord) (f : QWord → State → State) (s : State) (hf : ∀ x0 s, (f x0 s).otp = s.otp) :
    (putBase unit v f s).otp = s.otp := by
  unfold putBase
  first | (simp; done) | ((try dsimp only); (repeat' split) <;> first | (simp [*]; done) | simp_all | (repeat' split) <;> simp [*])

@[simp] theorem putBase_mlen (unit : Nat) (v : QWord) (f : QWord → State → State) (s : State) (hf : ∀ x0 s, (f x0 s).masters.length = s.masters.length) :
    (putBase unit v f s).masters.length = s.masters.length := by
  unfold putBase
  first | (simp; done) | ((try dsimp only); (repeat' split) <;> first | (simp [*]; done) | simp_all | (repeat' split) <;> simp [*])

@[simp] theorem putBase_clen (unit : Nat) (v : QWord) (f : QWord → State → State) (s : State) (hf : ∀ x0 s, (f x0 s).cores.channels.length = s.cores.channels.length) :
    (putBase unit v f s).cores.channels.length = s.cores.channels.length := by
  unfold putBase
  first | (simp; done) | ((try dsimp only); (repeat' split) <;> first | (simp [*]; done) | simp_all | (repeat' split) <;> simp [*])

@[simp] theorem putBase_level (unit : Nat) (v : QWord) (f : QWord → State → State) (s : State) (hf : ∀ x0 s, (f x0 s).regs.debugLevel = s.regs.debugLevel) :
    (putBase unit v f s).regs.debugLevel = s.regs.debugLevel := by
  unfold putBase
  first | (simp; done) | ((try dsimp only); (repeat' split) <;> first | (simp [*]; done) | simp_all | (repeat' split) <;> simp [*])

@[simp] theorem putBase_cs (unit : Nat) (v : QWord) (f : QWord → State → State) (s : State) (hf : ∀ x0 s, (f x0 s).store.cs = s.store.cs) :
    (putBase unit v f s).store.cs = s.store.cs := by
  unfold putBase
  first | (simp; done) | ((try dsimp only); (repeat' split) <;> first | (simp [*]; done) | simp_all | (repeat' split) <;> simp [*])

@[simp] theorem putBase_csDev (unit : Nat) (v : QWord) (f : QWord → State → State) (s : State) (hf : ∀ x0 s, (f x0 s).store.csDev = s.store.csDev) :
    (putBase unit v f s).store.csDev = s.store.csDev := by
  unfold putBase
  first | (simp; done) | ((try dsimp only); (repeat' split) <;> first | (simp [*]; done) | simp_all | (repeat' split) <;> simp [*])

@[simp] theorem putBase_granules (unit : Nat) (v : QWord) (f : QWord → State → State) (s : State) (hf : ∀ x0 s, (f x0 s).store.granules = s.store.granules) :
    (putBase unit v f s).store.granules = s.store.granules := by
  unfold putBase
  first | (simp; done) | ((try dsimp only); (repeat' split) <;> first | (simp [*]; done) | simp_all | (repeat' split) <;> simp [*])

@[simp] theorem putBase_pins (unit : Nat) (v : QWord) (f : QWord → State → State) (s : State) (hf : ∀ x0 s, (f x0 s).pins = s.pins) :
    (putBase unit v f s).pins = s.pins := by
  unfold putBase
  first | (simp; done) | ((try dsimp only); (repeat' split) <;> first | (simp [*]; done) | simp_all | (repeat' split) <;> simp [*])

@[simp] theorem putBase_stream (unit : Nat) (v : QWord) (f : QWord → State → State) (s : State) (hf : ∀ x0 s, (f x0 s).stream = s.stream) :
    (putBase unit v f s).stream = s.stream := by
  unfold putBase
  first | (simp; done) | ((try dsimp only); (repeat' split) <;> first | (simp [*]; done) | simp_all | (repeat' split) <;> simp [*])

@[simp] theorem putBase_power (unit : Nat) (v : QWord) (f : QWord → State → State) (s : State) (hf : ∀ x0 s, (f x0 s).power = s.power) :
    (putBase unit v f s).power = s.power := by
  unfold putBase
  first | (simp; done) | ((try dsimp only); (repeat' split) <;> first | (simp [*]; done) | simp_all | (repeat' split) <;> simp [*])

@[simp] theorem putBase_loader (unit : Nat) (v : QWord) (f : QWord → State → State) (s : State) (hf : ∀ x0 s, (f x0 s).loader = s.loader) :
    (putBase unit v f s).loader = s.loader := by
  unfold putBase
  first | (simp; done) | ((try dsimp only); (repeat' split) <;> first | (simp [*]; done) | simp_all | (repeat' split) <;> simp [*])

@[simp] theorem putBase_conservator (unit : Nat) (v : QWord) (f : QWord → State → State) (s : State) (hf : ∀ x0 s, (f x0 s).conservator = s.conservator) :
    (putBase unit v f s).conservator = s.conservator := by
  unfold putBase
  first | (simp; done) | ((try dsimp only); (repeat' split) <;> first | (simp [*]; done) | simp_all | (repeat' split) <;> simp [*])

@[simp] theorem putBase_egress (unit : Nat) (v : QWord) (f : QWord → State → State) (s : State) (hf : ∀ x0 s, (f x0 s).egress = s.egress) :
    (putBase unit v f s).egress = s.egress := by
  unfold putBase
  first | (simp; done) | ((try dsimp only); (repeat' split) <;> first | (simp [*]; done) | simp_all | (repeat' split) <;> simp [*])

@[simp] theorem putBase_repair (unit : Nat) (v : QWord) (f : QWord → State → State) (s : State) (hf : ∀ x0 s, (f x0 s).repair = s.repair) :
    (putBase unit v f s).repair = s.repair := by
  unfold putBase
  first | (simp; done) | ((try dsimp only); (repeat' split) <;> first | (simp [*]; done) | simp_all | (repeat' split) <;> simp [*])

@[simp] theorem putBase_shadow (unit : Nat) (v : QWord) (f : QWord → State → State) (s : State) (hf : ∀ x0 s, (f x0 s).shadow = s.shadow) :
    (putBase unit v f s).shadow = s.shadow := by
  unfold putBase
  first | (simp; done) | ((try dsimp only); (repeat' split) <;> first | (simp [*]; done) | simp_all | (repeat' split) <;> simp [*])

@[simp] theorem putBase_inForce (unit : Nat) (v : QWord) (f : QWord → State → State) (s : State) (hf : ∀ x0 s, (f x0 s).inForce = s.inForce) :
    (putBase unit v f s).inForce = s.inForce := by
  unfold putBase
  first | (simp; done) | ((try dsimp only); (repeat' split) <;> first | (simp [*]; done) | simp_all | (repeat' split) <;> simp [*])

@[simp] theorem putBase_otpRequest (unit : Nat) (v : QWord) (f : QWord → State → State) (s : State) (hf : ∀ x0 s, (f x0 s).otpRequest = s.otpRequest) :
    (putBase unit v f s).otpRequest = s.otpRequest := by
  unfold putBase
  first | (simp; done) | ((try dsimp only); (repeat' split) <;> first | (simp [*]; done) | simp_all | (repeat' split) <;> simp [*])

@[simp] theorem putBase_heldCommands (unit : Nat) (v : QWord) (f : QWord → State → State) (s : State) (hf : ∀ x0 s, (f x0 s).heldCommands = s.heldCommands) :
    (putBase unit v f s).heldCommands = s.heldCommands := by
  unfold putBase
  first | (simp; done) | ((try dsimp only); (repeat' split) <;> first | (simp [*]; done) | simp_all | (repeat' split) <;> simp [*])

@[simp] theorem putBase_crossReads (unit : Nat) (v : QWord) (f : QWord → State → State) (s : State) (hf : ∀ x0 s, (f x0 s).crossReads = s.crossReads) :
    (putBase unit v f s).crossReads = s.crossReads := by
  unfold putBase
  first | (simp; done) | ((try dsimp only); (repeat' split) <;> first | (simp [*]; done) | simp_all | (repeat' split) <;> simp [*])

@[simp] theorem putBase_plen (unit : Nat) (v : QWord) (f : QWord → State → State) (s : State) (hf : ∀ x0 s, (f x0 s).pins.pins.length = s.pins.pins.length) :
    (putBase unit v f s).pins.pins.length = s.pins.pins.length := by
  unfold putBase
  first | (simp; done) | ((try dsimp only); (repeat' split) <;> first | (simp [*]; done) | simp_all | (repeat' split) <;> simp [*])

@[simp] theorem writeChannel_frame (l : FLink) (k : Nat) (v : QWord) (s : State) :
    (writeChannel l k v s).pending = s.pending ∧ (writeChannel l k v s).variant = s.variant ∧
    (writeChannel l k v s).otp = s.otp ∧ (writeChannel l k v s).masters.length = s.masters.length ∧
    (writeChannel l k v s).cores.channels.length = s.cores.channels.length ∧
    (writeChannel l k v s).regs.debugLevel = s.regs.debugLevel ∧ (writeChannel l k v s).pins = s.pins ∧
    (writeChannel l k v s).power = s.power ∧ (writeChannel l k v s).loader = s.loader ∧
    (writeChannel l k v s).conservator = s.conservator ∧ (writeChannel l k v s).egress = s.egress ∧
    (writeChannel l k v s).repair = s.repair ∧ (writeChannel l k v s).shadow = s.shadow ∧
    (writeChannel l k v s).inForce = s.inForce ∧ (writeChannel l k v s).otpRequest = s.otpRequest ∧
    (writeChannel l k v s).heldCommands = s.heldCommands ∧ (writeChannel l k v s).crossReads = s.crossReads := by
  unfold writeChannel
  first | (simp; done) | ((try dsimp only); (repeat' split) <;> first | (simp; done) | simp_all | (repeat' split) <;> simp)

@[simp] theorem writeRepeatRing_frame (k : Nat) (v : QWord) (s : State) :
    (writeRepeatRing k v s).pending = s.pending ∧ (writeRepeatRing k v s).variant = s.variant ∧
    (writeRepeatRing k v s).otp = s.otp ∧ (writeRepeatRing k v s).masters.length = s.masters.length ∧
    (writeRepeatRing k v s).cores.channels.length = s.cores.channels.length ∧
    (writeRepeatRing k v s).regs.debugLevel = s.regs.debugLevel ∧ (writeRepeatRing k v s).store.cs = s.store.cs ∧
    (writeRepeatRing k v s).store.csDev = s.store.csDev ∧ (writeRepeatRing k v s).store.granules = s.store.granules ∧
    (writeRepeatRing k v s).pins = s.pins ∧ (writeRepeatRing k v s).power = s.power ∧
    (writeRepeatRing k v s).conservator = s.conservator ∧ (writeRepeatRing k v s).egress = s.egress ∧
    (writeRepeatRing k v s).repair = s.repair ∧ (writeRepeatRing k v s).shadow = s.shadow ∧
    (writeRepeatRing k v s).inForce = s.inForce ∧ (writeRepeatRing k v s).otpRequest = s.otpRequest ∧
    (writeRepeatRing k v s).heldCommands = s.heldCommands ∧ (writeRepeatRing k v s).crossReads = s.crossReads := by
  unfold writeRepeatRing
  first | (simp; done) | ((try dsimp only); (repeat' split) <;> first | (simp; done) | simp_all | (repeat' split) <;> simp)

@[simp] theorem writeStream_frame (off : Nat) (v : QWord) (s : State) :
    (writeStream off v s).pending = s.pending ∧ (writeStream off v s).variant = s.variant ∧
    (writeStream off v s).otp = s.otp ∧ (writeStream off v s).masters.length = s.masters.length ∧
    (writeStream off v s).cores.channels.length = s.cores.channels.length ∧
    (writeStream off v s).regs.debugLevel = s.regs.debugLevel ∧ (writeStream off v s).pins = s.pins ∧
    (writeStream off v s).power = s.power ∧ (writeStream off v s).conservator = s.conservator ∧
    (writeStream off v s).egress = s.egress ∧ (writeStream off v s).repair = s.repair ∧
    (writeStream off v s).shadow = s.shadow ∧ (writeStream off v s).inForce = s.inForce ∧
    (writeStream off v s).otpRequest = s.otpRequest ∧ (writeStream off v s).heldCommands = s.heldCommands ∧
    (writeStream off v s).crossReads = s.crossReads := by
  unfold writeStream
  first | (simp; done) | ((try dsimp only); (repeat' split) <;> first | (simp; done) | simp_all | (repeat' split) <;> simp)

@[simp] theorem streamWrite_frame (off : Nat) (v : QWord) (s : State) :
    (streamWrite off v s).pending = s.pending ∧ (streamWrite off v s).variant = s.variant ∧
    (streamWrite off v s).otp = s.otp ∧ (streamWrite off v s).masters.length = s.masters.length ∧
    (streamWrite off v s).cores.channels.length = s.cores.channels.length ∧
    (streamWrite off v s).regs.debugLevel = s.regs.debugLevel ∧ (streamWrite off v s).pins = s.pins ∧
    (streamWrite off v s).power = s.power ∧ (streamWrite off v s).conservator = s.conservator ∧
    (streamWrite off v s).egress = s.egress ∧ (streamWrite off v s).repair = s.repair ∧
    (streamWrite off v s).shadow = s.shadow ∧ (streamWrite off v s).inForce = s.inForce ∧
    (streamWrite off v s).otpRequest = s.otpRequest ∧ (streamWrite off v s).heldCommands = s.heldCommands ∧
    (streamWrite off v s).crossReads = s.crossReads := by
  unfold streamWrite
  first | (simp; done) | ((try dsimp only); (repeat' split) <;> first | (simp; done) | simp_all | (repeat' split) <;> simp)

@[simp] theorem putMsix_frame (off : Nat) (bs : List Byte) (s : State) :
    (putMsix off bs s).pending = s.pending ∧ (putMsix off bs s).variant = s.variant ∧ (putMsix off bs s).otp = s.otp ∧
    (putMsix off bs s).masters.length = s.masters.length ∧
    (putMsix off bs s).cores.channels.length = s.cores.channels.length ∧
    (putMsix off bs s).regs.debugLevel = s.regs.debugLevel ∧ (putMsix off bs s).store.cs = s.store.cs ∧
    (putMsix off bs s).store.csDev = s.store.csDev ∧ (putMsix off bs s).store.granules = s.store.granules ∧
    (putMsix off bs s).pins = s.pins ∧ (putMsix off bs s).stream = s.stream ∧ (putMsix off bs s).power = s.power ∧
    (putMsix off bs s).loader = s.loader ∧ (putMsix off bs s).conservator = s.conservator ∧
    (putMsix off bs s).egress = s.egress ∧ (putMsix off bs s).repair = s.repair ∧ (putMsix off bs s).shadow = s.shadow ∧
    (putMsix off bs s).inForce = s.inForce ∧ (putMsix off bs s).otpRequest = s.otpRequest ∧
    (putMsix off bs s).heldCommands = s.heldCommands ∧ (putMsix off bs s).crossReads = s.crossReads := by
  unfold putMsix
  first | (simp; done) | ((try dsimp only); (repeat' split) <;> first | (simp; done) | simp_all | (repeat' split) <;> simp)

@[simp] theorem putMailboxBytes_frame (off : Nat) (bs : List Byte) (s : State) :
    (putMailboxBytes off bs s).pending = s.pending ∧ (putMailboxBytes off bs s).variant = s.variant ∧
    (putMailboxBytes off bs s).otp = s.otp ∧ (putMailboxBytes off bs s).masters.length = s.masters.length ∧
    (putMailboxBytes off bs s).cores.channels.length = s.cores.channels.length ∧
    (putMailboxBytes off bs s).regs.debugLevel = s.regs.debugLevel ∧ (putMailboxBytes off bs s).store.cs = s.store.cs ∧
    (putMailboxBytes off bs s).store.csDev = s.store.csDev ∧ (putMailboxBytes off bs s).store.granules = s.store.granules ∧
    (putMailboxBytes off bs s).pins = s.pins ∧ (putMailboxBytes off bs s).stream = s.stream ∧
    (putMailboxBytes off bs s).power = s.power ∧ (putMailboxBytes off bs s).loader = s.loader ∧
    (putMailboxBytes off bs s).conservator = s.conservator ∧ (putMailboxBytes off bs s).egress = s.egress ∧
    (putMailboxBytes off bs s).repair = s.repair ∧ (putMailboxBytes off bs s).shadow = s.shadow ∧
    (putMailboxBytes off bs s).inForce = s.inForce ∧ (putMailboxBytes off bs s).otpRequest = s.otpRequest ∧
    (putMailboxBytes off bs s).heldCommands = s.heldCommands ∧ (putMailboxBytes off bs s).crossReads = s.crossReads := by
  unfold putMailboxBytes
  first | (simp; done) | ((try dsimp only); (repeat' split) <;> first | (simp; done) | simp_all | (repeat' split) <;> simp)

@[simp] theorem registerWrite_frame (m : Master) (t : WriteTarget) (lost : Bool) (s : State) :
    (registerWrite m t lost s).pending = s.pending ∧ (registerWrite m t lost s).variant = s.variant ∧
    (registerWrite m t lost s).otp = s.otp ∧ (registerWrite m t lost s).masters.length = s.masters.length ∧
    (registerWrite m t lost s).cores.channels.length = s.cores.channels.length ∧
    (registerWrite m t lost s).crossReads = s.crossReads ∧
    (registerWrite m t lost s).pins.pins.length = s.pins.pins.length := by
  unfold registerWrite
  first | (simp; done) | ((try dsimp only); (repeat' split) <;> first | (simp; done) | simp_all | (repeat' split) <;> simp)

@[simp] theorem answer_frame (status : Byte) (data : List Byte) (s : State) :
    (answer status data s).pending = s.pending ∧ (answer status data s).variant = s.variant ∧
    (answer status data s).otp = s.otp ∧ (answer status data s).masters.length = s.masters.length ∧
    (answer status data s).cores.channels.length = s.cores.channels.length ∧
    (answer status data s).regs.debugLevel = s.regs.debugLevel ∧ (answer status data s).store.cs = s.store.cs ∧
    (answer status data s).store.csDev = s.store.csDev ∧ (answer status data s).store.granules = s.store.granules ∧
    (answer status data s).pins = s.pins ∧ (answer status data s).stream = s.stream ∧
    (answer status data s).power = s.power ∧ (answer status data s).loader = s.loader ∧
    (answer status data s).conservator = s.conservator ∧ (answer status data s).egress = s.egress ∧
    (answer status data s).repair = s.repair ∧ (answer status data s).shadow = s.shadow ∧
    (answer status data s).inForce = s.inForce ∧ (answer status data s).otpRequest = s.otpRequest ∧
    (answer status data s).heldCommands = s.heldCommands ∧ (answer status data s).crossReads = s.crossReads := by
  unfold answer
  first | (simp; done) | ((try dsimp only); (repeat' split) <;> first | (simp; done) | simp_all | (repeat' split) <;> simp)

@[simp] theorem permitted_pending (level : Nat) (f : State → State) (s : State) (hf : ∀ s, (f s).pending = s.pending) :
    (permitted level f s).pending = s.pending := by
  unfold permitted
  first | (simp; done) | ((try dsimp only); (repeat' split) <;> first | (simp [*]; done) | simp_all | (repeat' split) <;> simp [*])

@[simp] theorem permitted_variant (level : Nat) (f : State → State) (s : State) (hf : ∀ s, (f s).variant = s.variant) :
    (permitted level f s).variant = s.variant := by
  unfold permitted
  first | (simp; done) | ((try dsimp only); (repeat' split) <;> first | (simp [*]; done) | simp_all | (repeat' split) <;> simp [*])

@[simp] theorem permitted_otp (level : Nat) (f : State → State) (s : State) (hf : ∀ s, (f s).otp = s.otp) :
    (permitted level f s).otp = s.otp := by
  unfold permitted
  first | (simp; done) | ((try dsimp only); (repeat' split) <;> first | (simp [*]; done) | simp_all | (repeat' split) <;> simp [*])

@[simp] theorem permitted_mlen (level : Nat) (f : State → State) (s : State) (hf : ∀ s, (f s).masters.length = s.masters.length) :
    (permitted level f s).masters.length = s.masters.length := by
  unfold permitted
  first | (simp; done) | ((try dsimp only); (repeat' split) <;> first | (simp [*]; done) | simp_all | (repeat' split) <;> simp [*])

@[simp] theorem permitted_clen (level : Nat) (f : State → State) (s : State) (hf : ∀ s, (f s).cores.channels.length = s.cores.channels.length) :
    (permitted level f s).cores.channels.length = s.cores.channels.length := by
  unfold permitted
  first | (simp; done) | ((try dsimp only); (repeat' split) <;> first | (simp [*]; done) | simp_all | (repeat' split) <;> simp [*])

@[simp] theorem permitted_level (level : Nat) (f : State → State) (s : State) (hf : ∀ s, (f s).regs.debugLevel = s.regs.debugLevel) :
    (permitted level f s).regs.debugLevel = s.regs.debugLevel := by
  unfold permitted
  first | (simp; done) | ((try dsimp only); (repeat' split) <;> first | (simp [*]; done) | simp_all | (repeat' split) <;> simp [*])

@[simp] theorem permitted_cs (level : Nat) (f : State → State) (s : State) (hf : ∀ s, (f s).store.cs = s.store.cs) :
    (permitted level f s).store.cs = s.store.cs := by
  unfold permitted
  first | (simp; done) | ((try dsimp only); (repeat' split) <;> first | (simp [*]; done) | simp_all | (repeat' split) <;> simp [*])

@[simp] theorem permitted_csDev (level : Nat) (f : State → State) (s : State) (hf : ∀ s, (f s).store.csDev = s.store.csDev) :
    (permitted level f s).store.csDev = s.store.csDev := by
  unfold permitted
  first | (simp; done) | ((try dsimp only); (repeat' split) <;> first | (simp [*]; done) | simp_all | (repeat' split) <;> simp [*])

@[simp] theorem permitted_granules (level : Nat) (f : State → State) (s : State) (hf : ∀ s, (f s).store.granules = s.store.granules) :
    (permitted level f s).store.granules = s.store.granules := by
  unfold permitted
  first | (simp; done) | ((try dsimp only); (repeat' split) <;> first | (simp [*]; done) | simp_all | (repeat' split) <;> simp [*])

@[simp] theorem permitted_pins (level : Nat) (f : State → State) (s : State) (hf : ∀ s, (f s).pins = s.pins) :
    (permitted level f s).pins = s.pins := by
  unfold permitted
  first | (simp; done) | ((try dsimp only); (repeat' split) <;> first | (simp [*]; done) | simp_all | (repeat' split) <;> simp [*])

@[simp] theorem permitted_stream (level : Nat) (f : State → State) (s : State) (hf : ∀ s, (f s).stream = s.stream) :
    (permitted level f s).stream = s.stream := by
  unfold permitted
  first | (simp; done) | ((try dsimp only); (repeat' split) <;> first | (simp [*]; done) | simp_all | (repeat' split) <;> simp [*])

@[simp] theorem permitted_power (level : Nat) (f : State → State) (s : State) (hf : ∀ s, (f s).power = s.power) :
    (permitted level f s).power = s.power := by
  unfold permitted
  first | (simp; done) | ((try dsimp only); (repeat' split) <;> first | (simp [*]; done) | simp_all | (repeat' split) <;> simp [*])

@[simp] theorem permitted_loader (level : Nat) (f : State → State) (s : State) (hf : ∀ s, (f s).loader = s.loader) :
    (permitted level f s).loader = s.loader := by
  unfold permitted
  first | (simp; done) | ((try dsimp only); (repeat' split) <;> first | (simp [*]; done) | simp_all | (repeat' split) <;> simp [*])

@[simp] theorem permitted_conservator (level : Nat) (f : State → State) (s : State) (hf : ∀ s, (f s).conservator = s.conservator) :
    (permitted level f s).conservator = s.conservator := by
  unfold permitted
  first | (simp; done) | ((try dsimp only); (repeat' split) <;> first | (simp [*]; done) | simp_all | (repeat' split) <;> simp [*])

@[simp] theorem permitted_egress (level : Nat) (f : State → State) (s : State) (hf : ∀ s, (f s).egress = s.egress) :
    (permitted level f s).egress = s.egress := by
  unfold permitted
  first | (simp; done) | ((try dsimp only); (repeat' split) <;> first | (simp [*]; done) | simp_all | (repeat' split) <;> simp [*])

@[simp] theorem permitted_repair (level : Nat) (f : State → State) (s : State) (hf : ∀ s, (f s).repair = s.repair) :
    (permitted level f s).repair = s.repair := by
  unfold permitted
  first | (simp; done) | ((try dsimp only); (repeat' split) <;> first | (simp [*]; done) | simp_all | (repeat' split) <;> simp [*])

@[simp] theorem permitted_shadow (level : Nat) (f : State → State) (s : State) (hf : ∀ s, (f s).shadow = s.shadow) :
    (permitted level f s).shadow = s.shadow := by
  unfold permitted
  first | (simp; done) | ((try dsimp only); (repeat' split) <;> first | (simp [*]; done) | simp_all | (repeat' split) <;> simp [*])

@[simp] theorem permitted_inForce (level : Nat) (f : State → State) (s : State) (hf : ∀ s, (f s).inForce = s.inForce) :
    (permitted level f s).inForce = s.inForce := by
  unfold permitted
  first | (simp; done) | ((try dsimp only); (repeat' split) <;> first | (simp [*]; done) | simp_all | (repeat' split) <;> simp [*])

@[simp] theorem permitted_otpRequest (level : Nat) (f : State → State) (s : State) (hf : ∀ s, (f s).otpRequest = s.otpRequest) :
    (permitted level f s).otpRequest = s.otpRequest := by
  unfold permitted
  first | (simp; done) | ((try dsimp only); (repeat' split) <;> first | (simp [*]; done) | simp_all | (repeat' split) <;> simp [*])

@[simp] theorem permitted_heldCommands (level : Nat) (f : State → State) (s : State) (hf : ∀ s, (f s).heldCommands = s.heldCommands) :
    (permitted level f s).heldCommands = s.heldCommands := by
  unfold permitted
  first | (simp; done) | ((try dsimp only); (repeat' split) <;> first | (simp [*]; done) | simp_all | (repeat' split) <;> simp [*])

@[simp] theorem permitted_crossReads (level : Nat) (f : State → State) (s : State) (hf : ∀ s, (f s).crossReads = s.crossReads) :
    (permitted level f s).crossReads = s.crossReads := by
  unfold permitted
  first | (simp; done) | ((try dsimp only); (repeat' split) <;> first | (simp [*]; done) | simp_all | (repeat' split) <;> simp [*])

@[simp] theorem permitted_plen (level : Nat) (f : State → State) (s : State) (hf : ∀ s, (f s).pins.pins.length = s.pins.pins.length) :
    (permitted level f s).pins.pins.length = s.pins.pins.length := by
  unfold permitted
  first | (simp; done) | ((try dsimp only); (repeat' split) <;> first | (simp [*]; done) | simp_all | (repeat' split) <;> simp [*])

theorem peekLatch_frame (k : Nat) (s t : State) (h : peekLatch k s = .ok t) :
    t.pending = s.pending ∧ t.variant = s.variant ∧ t.otp = s.otp ∧ t.masters.length = s.masters.length ∧
    t.cores.channels.length = s.cores.channels.length ∧ t.regs.debugLevel = s.regs.debugLevel ∧ t.store.cs = s.store.cs ∧
    t.store.csDev = s.store.csDev ∧ t.store.granules = s.store.granules ∧ t.pins = s.pins ∧ t.stream = s.stream ∧
    t.power = s.power ∧ t.loader = s.loader ∧ t.conservator = s.conservator ∧ t.egress = s.egress ∧ t.repair = s.repair ∧
    t.shadow = s.shadow ∧ t.inForce = s.inForce ∧ t.otpRequest = s.otpRequest ∧ t.heldCommands = s.heldCommands ∧
    t.crossReads = s.crossReads := by
  unfold peekLatch at h
  (try dsimp only at h)
  (repeat' split at h) <;> first | (cases h; done) | (cases h; simp)

theorem peekReg_frame (a : Nat) (s : State) (r : DWord × State) (h : peekReg a s = .ok r) :
    r.2.pending = s.pending ∧ r.2.variant = s.variant ∧ r.2.otp = s.otp ∧ r.2.masters.length = s.masters.length ∧
    r.2.cores.channels.length = s.cores.channels.length ∧ r.2.regs.debugLevel = s.regs.debugLevel ∧
    r.2.store.cs = s.store.cs ∧ r.2.store.csDev = s.store.csDev ∧ r.2.store.granules = s.store.granules ∧
    r.2.pins = s.pins ∧ r.2.stream = s.stream ∧ r.2.power = s.power ∧ r.2.loader = s.loader ∧
    r.2.conservator = s.conservator ∧ r.2.egress = s.egress ∧ r.2.repair = s.repair ∧ r.2.shadow = s.shadow ∧
    r.2.inForce = s.inForce ∧ r.2.otpRequest = s.otpRequest ∧ r.2.heldCommands = s.heldCommands ∧
    r.2.crossReads = s.crossReads := by
  unfold peekReg at h
  (try dsimp only at h)
  split at h
  · split at h
    · cases h
    · next hl => cases h; simpa using peekLatch_frame _ _ _ hl
  · cases h; simp

theorem peekRegs_frame (n a : Nat) (ws : List DWord) (s : State) (r : List DWord × State) (h : peekRegs a n ws s = .ok r) :
    r.2.pending = s.pending ∧ r.2.variant = s.variant ∧ r.2.otp = s.otp ∧ r.2.masters.length = s.masters.length ∧
    r.2.cores.channels.length = s.cores.channels.length ∧ r.2.regs.debugLevel = s.regs.debugLevel ∧
    r.2.store.cs = s.store.cs ∧ r.2.store.csDev = s.store.csDev ∧ r.2.store.granules = s.store.granules ∧
    r.2.pins = s.pins ∧ r.2.stream = s.stream ∧ r.2.power = s.power ∧ r.2.loader = s.loader ∧
    r.2.conservator = s.conservator ∧ r.2.egress = s.egress ∧ r.2.repair = s.repair ∧ r.2.shadow = s.shadow ∧
    r.2.inForce = s.inForce ∧ r.2.otpRequest = s.otpRequest ∧ r.2.heldCommands = s.heldCommands ∧
    r.2.crossReads = s.crossReads := by
  induction n generalizing a ws s with
  | zero => simp only [peekRegs] at h; cases h; simp
  | succ n ih =>
    simp only [peekRegs] at h
    split at h
    · cases h
    · next hr => simpa [peekReg_frame _ _ _ hr] using ih _ _ _ h

@[simp] theorem debugRead_frame (sp : Byte) (a : DWord) (n : Nat) (s : State) :
    (debugRead sp a n s).pending = s.pending ∧ (debugRead sp a n s).variant = s.variant ∧ (debugRead sp a n s).otp = s.otp ∧
    (debugRead sp a n s).masters.length = s.masters.length ∧
    (debugRead sp a n s).cores.channels.length = s.cores.channels.length ∧
    (debugRead sp a n s).regs.debugLevel = s.regs.debugLevel ∧ (debugRead sp a n s).store.cs = s.store.cs ∧
    (debugRead sp a n s).store.csDev = s.store.csDev ∧ (debugRead sp a n s).store.granules = s.store.granules ∧
    (debugRead sp a n s).pins = s.pins ∧ (debugRead sp a n s).stream = s.stream ∧ (debugRead sp a n s).power = s.power ∧
    (debugRead sp a n s).loader = s.loader ∧ (debugRead sp a n s).conservator = s.conservator ∧
    (debugRead sp a n s).egress = s.egress ∧ (debugRead sp a n s).repair = s.repair ∧
    (debugRead sp a n s).shadow = s.shadow ∧ (debugRead sp a n s).inForce = s.inForce ∧
    (debugRead sp a n s).otpRequest = s.otpRequest ∧ (debugRead sp a n s).heldCommands = s.heldCommands ∧
    (debugRead sp a n s).crossReads = s.crossReads := by
  unfold debugRead
  (try dsimp only)
  split
  · simp
  · split
    · split
      · simp
      · next hr => simp [peekRegs_frame _ _ _ _ _ hr]
    · split <;> simp
    · split <;> simp
    · split <;> simp

@[simp] theorem pokeLocal_frame (a : Nat) (w : DWord) (s : State) :
    (pokeLocal a w s).pending = s.pending ∧ (pokeLocal a w s).variant = s.variant ∧ (pokeLocal a w s).otp = s.otp ∧
    (pokeLocal a w s).masters.length = s.masters.length ∧
    (pokeLocal a w s).cores.channels.length = s.cores.channels.length ∧
    (pokeLocal a w s).regs.debugLevel = s.regs.debugLevel ∧ (pokeLocal a w s).store.cs = s.store.cs ∧
    (pokeLocal a w s).store.csDev = s.store.csDev ∧ (pokeLocal a w s).store.granules = s.store.granules ∧
    (pokeLocal a w s).pins = s.pins ∧ (pokeLocal a w s).stream = s.stream ∧ (pokeLocal a w s).power = s.power ∧
    (pokeLocal a w s).loader = s.loader ∧ (pokeLocal a w s).conservator = s.conservator ∧
    (pokeLocal a w s).egress = s.egress ∧ (pokeLocal a w s).repair = s.repair ∧ (pokeLocal a w s).shadow = s.shadow ∧
    (pokeLocal a w s).inForce = s.inForce ∧ (pokeLocal a w s).otpRequest = s.otpRequest ∧
    (pokeLocal a w s).heldCommands = s.heldCommands ∧ (pokeLocal a w s).crossReads = s.crossReads := by
  unfold pokeLocal
  first | (simp; done) | ((try dsimp only); (repeat' split) <;> first | (simp; done) | simp_all | (repeat' split) <;> simp)

@[simp] theorem pokeStore_frame (a : Nat) (w : DWord) (s : State) :
    (pokeStore a w s).pending = s.pending ∧ (pokeStore a w s).variant = s.variant ∧ (pokeStore a w s).otp = s.otp ∧
    (pokeStore a w s).masters.length = s.masters.length ∧
    (pokeStore a w s).cores.channels.length = s.cores.channels.length ∧
    (pokeStore a w s).regs.debugLevel = s.regs.debugLevel ∧ (pokeStore a w s).pins = s.pins ∧
    (pokeStore a w s).stream = s.stream ∧ (pokeStore a w s).power = s.power ∧ (pokeStore a w s).loader = s.loader ∧
    (pokeStore a w s).conservator = s.conservator ∧ (pokeStore a w s).egress = s.egress ∧
    (pokeStore a w s).repair = s.repair ∧ (pokeStore a w s).shadow = s.shadow ∧ (pokeStore a w s).inForce = s.inForce ∧
    (pokeStore a w s).otpRequest = s.otpRequest ∧ (pokeStore a w s).heldCommands = s.heldCommands ∧
    (pokeStore a w s).crossReads = s.crossReads := by
  unfold pokeStore
  first | (simp; done) | ((try dsimp only); (repeat' split) <;> first | (simp; done) | simp_all | (repeat' split) <;> simp)

@[simp] theorem pokeCore_frame (k : Nat) (w : DWord) (s : State) :
    (pokeCore k w s).pending = s.pending ∧ (pokeCore k w s).variant = s.variant ∧ (pokeCore k w s).otp = s.otp ∧
    (pokeCore k w s).masters.length = s.masters.length ∧ (pokeCore k w s).cores.channels.length = s.cores.channels.length ∧
    (pokeCore k w s).regs.debugLevel = s.regs.debugLevel ∧ (pokeCore k w s).store.cs = s.store.cs ∧
    (pokeCore k w s).store.csDev = s.store.csDev ∧ (pokeCore k w s).store.granules = s.store.granules ∧
    (pokeCore k w s).pins = s.pins ∧ (pokeCore k w s).stream = s.stream ∧ (pokeCore k w s).power = s.power ∧
    (pokeCore k w s).loader = s.loader ∧ (pokeCore k w s).conservator = s.conservator ∧ (pokeCore k w s).egress = s.egress ∧
    (pokeCore k w s).repair = s.repair ∧ (pokeCore k w s).shadow = s.shadow ∧ (pokeCore k w s).inForce = s.inForce ∧
    (pokeCore k w s).otpRequest = s.otpRequest ∧ (pokeCore k w s).heldCommands = s.heldCommands ∧
    (pokeCore k w s).crossReads = s.crossReads := by
  unfold pokeCore
  first | (simp; done) | ((try dsimp only); (repeat' split) <;> first | (simp; done) | simp_all | (repeat' split) <;> simp)

@[simp] theorem debugWrite_frame (space : Byte) (addr : DWord) (words : List DWord) (s : State) :
    (debugWrite space addr words s).pending = s.pending ∧ (debugWrite space addr words s).variant = s.variant ∧
    (debugWrite space addr words s).otp = s.otp ∧ (debugWrite space addr words s).masters.length = s.masters.length ∧
    (debugWrite space addr words s).cores.channels.length = s.cores.channels.length ∧
    (debugWrite space addr words s).crossReads = s.crossReads ∧
    (debugWrite space addr words s).pins.pins.length = s.pins.pins.length := by
  unfold debugWrite
  first | (simp; done) | ((try dsimp only); (repeat' split) <;> first | (simp; done) | simp_all | (repeat' split) <;> simp)

@[simp] theorem connect_frame (flags : Byte) (s : State) :
    (connect flags s).pending = s.pending ∧ (connect flags s).variant = s.variant ∧ (connect flags s).otp = s.otp ∧
    (connect flags s).masters.length = s.masters.length ∧
    (connect flags s).cores.channels.length = s.cores.channels.length ∧
    (connect flags s).regs.debugLevel = s.regs.debugLevel ∧ (connect flags s).store.cs = s.store.cs ∧
    (connect flags s).store.csDev = s.store.csDev ∧ (connect flags s).store.granules = s.store.granules ∧
    (connect flags s).pins = s.pins ∧ (connect flags s).stream = s.stream ∧ (connect flags s).power = s.power ∧
    (connect flags s).loader = s.loader ∧ (connect flags s).conservator = s.conservator ∧
    (connect flags s).egress = s.egress ∧ (connect flags s).repair = s.repair ∧ (connect flags s).shadow = s.shadow ∧
    (connect flags s).inForce = s.inForce ∧ (connect flags s).otpRequest = s.otpRequest ∧
    (connect flags s).heldCommands = s.heldCommands ∧ (connect flags s).crossReads = s.crossReads := by
  unfold connect
  first | (simp; done) | ((try dsimp only); (repeat' split) <;> first | (simp; done) | simp_all | (repeat' split) <;> simp)

@[simp] theorem haltCores_frame (mask : BitVec 4) (s : State) :
    (haltCores mask s).pending = s.pending ∧ (haltCores mask s).variant = s.variant ∧ (haltCores mask s).otp = s.otp ∧
    (haltCores mask s).masters.length = s.masters.length ∧
    (haltCores mask s).cores.channels.length = s.cores.channels.length ∧
    (haltCores mask s).regs.debugLevel = s.regs.debugLevel ∧ (haltCores mask s).store.cs = s.store.cs ∧
    (haltCores mask s).store.csDev = s.store.csDev ∧ (haltCores mask s).store.granules = s.store.granules ∧
    (haltCores mask s).stream = s.stream ∧ (haltCores mask s).power = s.power ∧ (haltCores mask s).loader = s.loader ∧
    (haltCores mask s).conservator = s.conservator ∧ (haltCores mask s).egress = s.egress ∧
    (haltCores mask s).repair = s.repair ∧ (haltCores mask s).shadow = s.shadow ∧ (haltCores mask s).inForce = s.inForce ∧
    (haltCores mask s).otpRequest = s.otpRequest ∧ (haltCores mask s).heldCommands = s.heldCommands ∧
    (haltCores mask s).crossReads = s.crossReads ∧ (haltCores mask s).pins.pins.length = s.pins.pins.length := by
  unfold haltCores
  first | (simp; done) | ((try dsimp only); (repeat' split) <;> first | (simp; done) | simp_all | (repeat' split) <;> simp)

@[simp] theorem resumeCores_frame (mask : BitVec 4) (s : State) :
    (resumeCores mask s).pending = s.pending ∧ (resumeCores mask s).variant = s.variant ∧ (resumeCores mask s).otp = s.otp ∧
    (resumeCores mask s).masters.length = s.masters.length ∧
    (resumeCores mask s).cores.channels.length = s.cores.channels.length ∧
    (resumeCores mask s).regs.debugLevel = s.regs.debugLevel ∧ (resumeCores mask s).store.cs = s.store.cs ∧
    (resumeCores mask s).store.csDev = s.store.csDev ∧ (resumeCores mask s).store.granules = s.store.granules ∧
    (resumeCores mask s).pins = s.pins ∧ (resumeCores mask s).stream = s.stream ∧ (resumeCores mask s).power = s.power ∧
    (resumeCores mask s).loader = s.loader ∧ (resumeCores mask s).conservator = s.conservator ∧
    (resumeCores mask s).egress = s.egress ∧ (resumeCores mask s).repair = s.repair ∧
    (resumeCores mask s).shadow = s.shadow ∧ (resumeCores mask s).inForce = s.inForce ∧
    (resumeCores mask s).otpRequest = s.otpRequest ∧ (resumeCores mask s).heldCommands = s.heldCommands ∧
    (resumeCores mask s).crossReads = s.crossReads := by
  unfold resumeCores
  first | (simp; done) | ((try dsimp only); (repeat' split) <;> first | (simp; done) | simp_all | (repeat' split) <;> simp)

@[simp] theorem stepCore_frame (c : Core) (n : Nat) (s : State) :
    (stepCore c n s).pending = s.pending ∧ (stepCore c n s).variant = s.variant ∧ (stepCore c n s).otp = s.otp ∧
    (stepCore c n s).masters.length = s.masters.length ∧ (stepCore c n s).cores.channels.length = s.cores.channels.length ∧
    (stepCore c n s).regs.debugLevel = s.regs.debugLevel ∧ (stepCore c n s).store.cs = s.store.cs ∧
    (stepCore c n s).store.csDev = s.store.csDev ∧ (stepCore c n s).store.granules = s.store.granules ∧
    (stepCore c n s).pins = s.pins ∧ (stepCore c n s).stream = s.stream ∧ (stepCore c n s).power = s.power ∧
    (stepCore c n s).loader = s.loader ∧ (stepCore c n s).conservator = s.conservator ∧ (stepCore c n s).egress = s.egress ∧
    (stepCore c n s).repair = s.repair ∧ (stepCore c n s).shadow = s.shadow ∧ (stepCore c n s).inForce = s.inForce ∧
    (stepCore c n s).otpRequest = s.otpRequest ∧ (stepCore c n s).heldCommands = s.heldCommands ∧
    (stepCore c n s).crossReads = s.crossReads := by
  unfold stepCore
  first | (simp; done) | ((try dsimp only); (repeat' split) <;> first | (simp; done) | simp_all | (repeat' split) <;> simp)

@[simp] theorem challenge_frame (level : BitVec 2) (s : State) :
    (challenge level s).pending = s.pending ∧ (challenge level s).variant = s.variant ∧ (challenge level s).otp = s.otp ∧
    (challenge level s).masters.length = s.masters.length ∧
    (challenge level s).cores.channels.length = s.cores.channels.length ∧
    (challenge level s).regs.debugLevel = s.regs.debugLevel ∧ (challenge level s).store.cs = s.store.cs ∧
    (challenge level s).store.csDev = s.store.csDev ∧ (challenge level s).store.granules = s.store.granules ∧
    (challenge level s).pins = s.pins ∧ (challenge level s).stream = s.stream ∧ (challenge level s).power = s.power ∧
    (challenge level s).loader = s.loader ∧ (challenge level s).conservator = s.conservator ∧
    (challenge level s).egress = s.egress ∧ (challenge level s).repair = s.repair ∧ (challenge level s).shadow = s.shadow ∧
    (challenge level s).inForce = s.inForce ∧ (challenge level s).otpRequest = s.otpRequest ∧
    (challenge level s).heldCommands = s.heldCommands ∧ (challenge level s).crossReads = s.crossReads := by
  unfold challenge
  first | (simp; done) | ((try dsimp only); (repeat' split) <;> first | (simp; done) | simp_all | (repeat' split) <;> simp)

@[simp] theorem trigger_frame (channel : Nat) (sources : DWord) (sinks : Word) (matchIndex : DWord) (s : State) :
    (trigger channel sources sinks matchIndex s).pending = s.pending ∧
    (trigger channel sources sinks matchIndex s).variant = s.variant ∧
    (trigger channel sources sinks matchIndex s).otp = s.otp ∧
    (trigger channel sources sinks matchIndex s).masters.length = s.masters.length ∧
    (trigger channel sources sinks matchIndex s).cores.channels.length = s.cores.channels.length ∧
    (trigger channel sources sinks matchIndex s).regs.debugLevel = s.regs.debugLevel ∧
    (trigger channel sources sinks matchIndex s).store.cs = s.store.cs ∧
    (trigger channel sources sinks matchIndex s).store.csDev = s.store.csDev ∧
    (trigger channel sources sinks matchIndex s).store.granules = s.store.granules ∧
    (trigger channel sources sinks matchIndex s).pins = s.pins ∧
    (trigger channel sources sinks matchIndex s).stream = s.stream ∧
    (trigger channel sources sinks matchIndex s).power = s.power ∧
    (trigger channel sources sinks matchIndex s).loader = s.loader ∧
    (trigger channel sources sinks matchIndex s).conservator = s.conservator ∧
    (trigger channel sources sinks matchIndex s).egress = s.egress ∧
    (trigger channel sources sinks matchIndex s).repair = s.repair ∧
    (trigger channel sources sinks matchIndex s).shadow = s.shadow ∧
    (trigger channel sources sinks matchIndex s).inForce = s.inForce ∧
    (trigger channel sources sinks matchIndex s).otpRequest = s.otpRequest ∧
    (trigger channel sources sinks matchIndex s).heldCommands = s.heldCommands ∧
    (trigger channel sources sinks matchIndex s).crossReads = s.crossReads := by
  unfold trigger
  (try dsimp only); (repeat' split) <;> simp [lset]

@[simp] theorem putPacket_frame (p : QWord) (s : State) :
    (putPacket p s).pending = s.pending ∧ (putPacket p s).variant = s.variant ∧ (putPacket p s).otp = s.otp ∧
    (putPacket p s).masters.length = s.masters.length ∧ (putPacket p s).cores.channels.length = s.cores.channels.length ∧
    (putPacket p s).regs.debugLevel = s.regs.debugLevel ∧ (putPacket p s).pins = s.pins ∧
    (putPacket p s).stream = s.stream ∧ (putPacket p s).power = s.power ∧ (putPacket p s).loader = s.loader ∧
    (putPacket p s).conservator = s.conservator ∧ (putPacket p s).egress = s.egress ∧ (putPacket p s).repair = s.repair ∧
    (putPacket p s).shadow = s.shadow ∧ (putPacket p s).inForce = s.inForce ∧ (putPacket p s).otpRequest = s.otpRequest ∧
    (putPacket p s).heldCommands = s.heldCommands ∧ (putPacket p s).crossReads = s.crossReads := by
  unfold putPacket
  first | (simp; done) | ((try dsimp only); (repeat' split) <;> first | (simp; done) | simp_all | (repeat' split) <;> simp)

@[simp] theorem emitPacket_frame (core port value : Nat) (s : State) :
    (emitPacket core port value s).pending = s.pending ∧ (emitPacket core port value s).variant = s.variant ∧
    (emitPacket core port value s).otp = s.otp ∧ (emitPacket core port value s).masters.length = s.masters.length ∧
    (emitPacket core port value s).cores.channels.length = s.cores.channels.length ∧
    (emitPacket core port value s).regs.debugLevel = s.regs.debugLevel ∧ (emitPacket core port value s).pins = s.pins ∧
    (emitPacket core port value s).stream = s.stream ∧ (emitPacket core port value s).power = s.power ∧
    (emitPacket core port value s).loader = s.loader ∧ (emitPacket core port value s).conservator = s.conservator ∧
    (emitPacket core port value s).egress = s.egress ∧ (emitPacket core port value s).repair = s.repair ∧
    (emitPacket core port value s).shadow = s.shadow ∧ (emitPacket core port value s).inForce = s.inForce ∧
    (emitPacket core port value s).otpRequest = s.otpRequest ∧
    (emitPacket core port value s).heldCommands = s.heldCommands ∧
    (emitPacket core port value s).crossReads = s.crossReads := by
  unfold emitPacket
  first | (simp; done) | ((try dsimp only); (repeat' split) <;> first | (simp; done) | simp_all | (repeat' split) <;> simp)

@[simp] theorem drainTrace_frame (max : Nat) (s : State) :
    (drainTrace max s).pending = s.pending ∧ (drainTrace max s).variant = s.variant ∧ (drainTrace max s).otp = s.otp ∧
    (drainTrace max s).masters.length = s.masters.length ∧
    (drainTrace max s).cores.channels.length = s.cores.channels.length ∧
    (drainTrace max s).regs.debugLevel = s.regs.debugLevel ∧ (drainTrace max s).store.cs = s.store.cs ∧
    (drainTrace max s).store.csDev = s.store.csDev ∧ (drainTrace max s).store.granules = s.store.granules ∧
    (drainTrace max s).pins = s.pins ∧ (drainTrace max s).stream = s.stream ∧ (drainTrace max s).power = s.power ∧
    (drainTrace max s).loader = s.loader ∧ (drainTrace max s).conservator = s.conservator ∧
    (drainTrace max s).egress = s.egress ∧ (drainTrace max s).repair = s.repair ∧ (drainTrace max s).shadow = s.shadow ∧
    (drainTrace max s).inForce = s.inForce ∧ (drainTrace max s).otpRequest = s.otpRequest ∧
    (drainTrace max s).heldCommands = s.heldCommands ∧ (drainTrace max s).crossReads = s.crossReads := by
  unfold drainTrace
  first | (simp; done) | ((try dsimp only); (repeat' split) <;> first | (simp; done) | simp_all | (repeat' split) <;> simp)

@[simp] theorem haltAtReset_frame  (s : State) :
    (haltAtReset s).pending = s.pending ∧ (haltAtReset s).variant = s.variant ∧ (haltAtReset s).otp = s.otp ∧
    (haltAtReset s).masters.length = s.masters.length ∧ (haltAtReset s).cores.channels.length = s.cores.channels.length ∧
    (haltAtReset s).regs.debugLevel = s.regs.debugLevel ∧ (haltAtReset s).store.cs = s.store.cs ∧
    (haltAtReset s).store.csDev = s.store.csDev ∧ (haltAtReset s).store.granules = s.store.granules ∧
    (haltAtReset s).pins = s.pins ∧ (haltAtReset s).stream = s.stream ∧ (haltAtReset s).power = s.power ∧
    (haltAtReset s).loader = s.loader ∧ (haltAtReset s).conservator = s.conservator ∧ (haltAtReset s).egress = s.egress ∧
    (haltAtReset s).repair = s.repair ∧ (haltAtReset s).shadow = s.shadow ∧ (haltAtReset s).inForce = s.inForce ∧
    (haltAtReset s).otpRequest = s.otpRequest ∧ (haltAtReset s).heldCommands = s.heldCommands ∧
    (haltAtReset s).crossReads = s.crossReads := by
  unfold haltAtReset
  first | (simp; done) | ((try dsimp only); (repeat' split) <;> first | (simp; done) | simp_all | (repeat' split) <;> simp)

end Sys2Proof.Machine
end

