-- ==== Sys2Proof/Laws/Commands.lean ====
section
/-! SUPPORT. What each command leaves alone. -/

namespace Sys2Proof.Machine

theorem execRegisterWrite_frame (m : Master) (t : WriteTarget) (lost : Bool) (s u : State) (h : execRegisterWrite m t lost s = .next u) :
    u.pending = s.pending ∧ u.variant = s.variant ∧ u.otp = s.otp ∧ u.masters.length = s.masters.length ∧
    u.cores.channels.length = s.cores.channels.length ∧ u.crossReads = s.crossReads ∧
    u.pins.pins.length = s.pins.pins.length := by
  simp only [execRegisterWrite, Host.Outcome.next.injEq] at h
  subst h
  first | (simp; done) | ((try dsimp only); (repeat' split) <;> simp)

theorem execRegReadTimeout_frame (m : Master) (s u : State) (h : execRegReadTimeout m s = .next u) :
    u.pending = s.pending ∧ u.variant = s.variant ∧ u.otp = s.otp ∧ u.masters.length = s.masters.length ∧
    u.cores.channels.length = s.cores.channels.length ∧ u.regs.debugLevel = s.regs.debugLevel ∧ u.store.cs = s.store.cs ∧
    u.store.csDev = s.store.csDev ∧ u.store.granules = s.store.granules ∧ u.pins = s.pins ∧ u.stream = s.stream ∧
    u.power = s.power ∧ u.loader = s.loader ∧ u.conservator = s.conservator ∧ u.egress = s.egress ∧ u.repair = s.repair ∧
    u.shadow = s.shadow ∧ u.inForce = s.inForce ∧ u.otpRequest = s.otpRequest ∧ u.heldCommands = s.heldCommands := by
  simp only [execRegReadTimeout, Host.Outcome.next.injEq] at h
  subst h
  first | (simp; done) | ((try dsimp only); (repeat' split) <;> simp)

theorem execStageCommit_frame (m : Master) (data : Word) (lost : Bool) (s u : State) (h : execStageCommit m data lost s = .next u) :
    u.pending = s.pending ∧ u.variant = s.variant ∧ u.otp = s.otp ∧ u.masters.length = s.masters.length ∧
    u.cores.channels.length = s.cores.channels.length ∧ u.regs.debugLevel = s.regs.debugLevel ∧ u.store.cs = s.store.cs ∧
    u.store.csDev = s.store.csDev ∧ u.store.granules = s.store.granules ∧ u.stream = s.stream ∧ u.loader = s.loader ∧
    u.conservator = s.conservator ∧ u.egress = s.egress ∧ u.repair = s.repair ∧ u.shadow = s.shadow ∧
    u.otpRequest = s.otpRequest ∧ u.heldCommands = s.heldCommands ∧ u.crossReads = s.crossReads ∧
    u.pins.pins.length = s.pins.pins.length := by
  simp only [execStageCommit, Host.Outcome.next.injEq] at h
  subst h
  first | (simp; done) | ((try dsimp only); (repeat' split) <;> simp)

theorem execStagedSetApply_frame  (s u : State) (h : execStagedSetApply s = .next u) :
    u.pending = s.pending ∧ u.variant = s.variant ∧ u.otp = s.otp ∧ u.masters.length = s.masters.length ∧
    u.cores.channels.length = s.cores.channels.length ∧ u.regs.debugLevel = s.regs.debugLevel ∧ u.store.cs = s.store.cs ∧
    u.store.csDev = s.store.csDev ∧ u.store.granules = s.store.granules ∧ u.stream = s.stream ∧ u.loader = s.loader ∧
    u.egress = s.egress ∧ u.shadow = s.shadow ∧ u.otpRequest = s.otpRequest ∧ u.heldCommands = s.heldCommands ∧
    u.crossReads = s.crossReads ∧ u.pins.pins.length = s.pins.pins.length := by
  simp only [execStagedSetApply, Host.Outcome.next.injEq] at h
  subst h
  first | (simp; done) | ((try dsimp only); (repeat' split) <;> simp)

theorem execTableEntryFetch_frame (m : Master) (k : Nat) (s u : State) (h : execTableEntryFetch m k s = .next u) :
    u.pending = s.pending ∧ u.variant = s.variant ∧ u.otp = s.otp ∧ u.masters.length = s.masters.length ∧
    u.cores.channels.length = s.cores.channels.length ∧ u.regs.debugLevel = s.regs.debugLevel ∧ u.store.cs = s.store.cs ∧
    u.store.csDev = s.store.csDev ∧ u.store.granules = s.store.granules ∧ u.pins = s.pins ∧ u.stream = s.stream ∧
    u.power = s.power ∧ u.loader = s.loader ∧ u.conservator = s.conservator ∧ u.egress = s.egress ∧ u.repair = s.repair ∧
    u.shadow = s.shadow ∧ u.inForce = s.inForce ∧ u.otpRequest = s.otpRequest ∧ u.heldCommands = s.heldCommands := by
  simp only [execTableEntryFetch, Host.Outcome.next.injEq] at h
  subst h
  first | (simp; done) | ((try dsimp only); (repeat' split) <;> simp)

theorem execTableEntryWrite_frame (m : Master) (k : Nat) (data : Word) (lost : Bool) (s u : State) (h : execTableEntryWrite m k data lost s = .next u) :
    u.pending = s.pending ∧ u.variant = s.variant ∧ u.otp = s.otp ∧ u.masters.length = s.masters.length ∧
    u.cores.channels.length = s.cores.channels.length ∧ u.regs.debugLevel = s.regs.debugLevel ∧ u.store.cs = s.store.cs ∧
    u.store.csDev = s.store.csDev ∧ u.store.granules = s.store.granules ∧ u.stream = s.stream ∧ u.power = s.power ∧
    u.loader = s.loader ∧ u.egress = s.egress ∧ u.inForce = s.inForce ∧ u.otpRequest = s.otpRequest ∧
    u.heldCommands = s.heldCommands ∧ u.crossReads = s.crossReads ∧ u.pins.pins.length = s.pins.pins.length := by
  simp only [execTableEntryWrite, Host.Outcome.next.injEq] at h
  subst h
  first | (simp; done) | ((try dsimp only); (repeat' split) <;> simp)

theorem execCorrectionLogPop_frame (m : Master) (s u : State) (h : execCorrectionLogPop m s = .next u) :
    u.pending = s.pending ∧ u.variant = s.variant ∧ u.otp = s.otp ∧ u.masters.length = s.masters.length ∧
    u.cores.channels.length = s.cores.channels.length ∧ u.regs.debugLevel = s.regs.debugLevel ∧ u.store.cs = s.store.cs ∧
    u.store.csDev = s.store.csDev ∧ u.store.granules = s.store.granules ∧ u.pins = s.pins ∧ u.stream = s.stream ∧
    u.power = s.power ∧ u.loader = s.loader ∧ u.conservator = s.conservator ∧ u.egress = s.egress ∧ u.repair = s.repair ∧
    u.shadow = s.shadow ∧ u.inForce = s.inForce ∧ u.otpRequest = s.otpRequest ∧ u.heldCommands = s.heldCommands ∧
    u.crossReads = s.crossReads := by
  simp only [execCorrectionLogPop, Host.Outcome.next.injEq] at h
  subst h
  first | (simp; done) | ((try dsimp only); (repeat' split) <;> simp)

theorem execLoadBegin_frame (m : Master) (slot : BitVec 2) (group : BitVec 4) (dev : BitVec 8) (s u : State) (h : execLoadBegin m slot group dev s = .next u) :
    u.pending = s.pending ∧ u.variant = s.variant ∧ u.otp = s.otp ∧ u.masters.length = s.masters.length ∧
    u.cores.channels.length = s.cores.channels.length ∧ u.regs.debugLevel = s.regs.debugLevel ∧ u.store.cs = s.store.cs ∧
    u.store.csDev = s.store.csDev ∧ u.store.granules = s.store.granules ∧ u.pins = s.pins ∧ u.shadow = s.shadow ∧
    u.inForce = s.inForce ∧ u.otpRequest = s.otpRequest ∧ u.heldCommands = s.heldCommands ∧ u.crossReads = s.crossReads := by
  simp only [execLoadBegin, Host.Outcome.next.injEq] at h
  subst h
  first | (simp; done) | ((try dsimp only); (repeat' split) <;> simp)

theorem execLoadAbort_frame (m : Master) (s u : State) (h : execLoadAbort m s = .next u) :
    u.pending = s.pending ∧ u.variant = s.variant ∧ u.otp = s.otp ∧ u.masters.length = s.masters.length ∧
    u.cores.channels.length = s.cores.channels.length ∧ u.regs.debugLevel = s.regs.debugLevel ∧ u.store.cs = s.store.cs ∧
    u.store.csDev = s.store.csDev ∧ u.store.granules = s.store.granules ∧ u.pins = s.pins ∧ u.stream = s.stream ∧
    u.power = s.power ∧ u.conservator = s.conservator ∧ u.shadow = s.shadow ∧ u.inForce = s.inForce ∧
    u.otpRequest = s.otpRequest ∧ u.heldCommands = s.heldCommands ∧ u.crossReads = s.crossReads := by
  simp only [execLoadAbort, Host.Outcome.next.injEq] at h
  subst h
  first | (simp; done) | ((try dsimp only); (repeat' split) <;> simp)

theorem execResync_frame (m : Master) (s u : State) (h : execResync m s = .next u) :
    u.pending = s.pending ∧ u.variant = s.variant ∧ u.otp = s.otp ∧ u.masters.length = s.masters.length ∧
    u.cores.channels.length = s.cores.channels.length ∧ u.regs.debugLevel = s.regs.debugLevel ∧ u.store.cs = s.store.cs ∧
    u.store.csDev = s.store.csDev ∧ u.store.granules = s.store.granules ∧ u.pins = s.pins ∧ u.stream = s.stream ∧
    u.loader = s.loader ∧ u.conservator = s.conservator ∧ u.egress = s.egress ∧ u.repair = s.repair ∧ u.shadow = s.shadow ∧
    u.inForce = s.inForce ∧ u.otpRequest = s.otpRequest ∧ u.crossReads = s.crossReads := by
  simp only [execResync, Host.Outcome.next.injEq] at h
  subst h
  first | (simp; done) | ((try dsimp only); (repeat' split) <;> simp)

theorem execRelease_frame (m : Master) (s u : State) (h : execRelease m s = .next u) :
    u.pending = s.pending ∧ u.variant = s.variant ∧ u.otp = s.otp ∧ u.masters.length = s.masters.length ∧
    u.cores.channels.length = s.cores.channels.length ∧ u.regs.debugLevel = s.regs.debugLevel ∧ u.store.cs = s.store.cs ∧
    u.store.csDev = s.store.csDev ∧ u.store.granules = s.store.granules ∧ u.pins = s.pins ∧ u.stream = s.stream ∧
    u.loader = s.loader ∧ u.conservator = s.conservator ∧ u.egress = s.egress ∧ u.repair = s.repair ∧ u.shadow = s.shadow ∧
    u.inForce = s.inForce ∧ u.otpRequest = s.otpRequest ∧ u.crossReads = s.crossReads := by
  simp only [execRelease, Host.Outcome.next.injEq] at h
  subst h
  first | (simp; done) | ((try dsimp only); (repeat' split) <;> simp)

theorem execRun_frame (m : Master) (v : Bool) (s u : State) (h : execRun m v s = .next u) :
    u.pending = s.pending ∧ u.variant = s.variant ∧ u.otp = s.otp ∧ u.masters.length = s.masters.length ∧
    u.cores.channels.length = s.cores.channels.length ∧ u.regs.debugLevel = s.regs.debugLevel ∧ u.store.cs = s.store.cs ∧
    u.store.csDev = s.store.csDev ∧ u.store.granules = s.store.granules ∧ u.stream = s.stream ∧ u.power = s.power ∧
    u.loader = s.loader ∧ u.conservator = s.conservator ∧ u.egress = s.egress ∧ u.repair = s.repair ∧ u.shadow = s.shadow ∧
    u.inForce = s.inForce ∧ u.otpRequest = s.otpRequest ∧ u.heldCommands = s.heldCommands ∧ u.crossReads = s.crossReads ∧
    u.pins.pins.length = s.pins.pins.length := by
  simp only [execRun, Host.Outcome.next.injEq] at h
  subst h
  first | (simp; done) | ((try dsimp only); (repeat' split) <;> simp)

theorem execRetrain_frame (m : Master) (l : FLink) (s u : State) (h : execRetrain m l s = .next u) :
    u.pending = s.pending ∧ u.variant = s.variant ∧ u.otp = s.otp ∧ u.masters.length = s.masters.length ∧
    u.cores.channels.length = s.cores.channels.length ∧ u.regs.debugLevel = s.regs.debugLevel ∧ u.store.cs = s.store.cs ∧
    u.store.csDev = s.store.csDev ∧ u.store.granules = s.store.granules ∧ u.pins = s.pins ∧ u.stream = s.stream ∧
    u.loader = s.loader ∧ u.conservator = s.conservator ∧ u.egress = s.egress ∧ u.repair = s.repair ∧ u.shadow = s.shadow ∧
    u.inForce = s.inForce ∧ u.otpRequest = s.otpRequest ∧ u.crossReads = s.crossReads := by
  simp only [execRetrain, Host.Outcome.next.injEq] at h
  subst h
  first | (simp; done) | ((try dsimp only); (repeat' split) <;> simp)

theorem execFailResume_frame (m : Master) (s u : State) (h : execFailResume m s = .next u) :
    u.pending = s.pending ∧ u.variant = s.variant ∧ u.otp = s.otp ∧ u.masters.length = s.masters.length ∧
    u.cores.channels.length = s.cores.channels.length ∧ u.regs.debugLevel = s.regs.debugLevel ∧ u.store.cs = s.store.cs ∧
    u.store.csDev = s.store.csDev ∧ u.store.granules = s.store.granules ∧ u.pins = s.pins ∧ u.stream = s.stream ∧
    u.loader = s.loader ∧ u.conservator = s.conservator ∧ u.repair = s.repair ∧ u.shadow = s.shadow ∧
    u.inForce = s.inForce ∧ u.otpRequest = s.otpRequest ∧ u.crossReads = s.crossReads := by
  simp only [execFailResume, Host.Outcome.next.injEq] at h
  subst h
  first | (simp; done) | ((try dsimp only); (repeat' split) <;> simp)

theorem execDetach_frame (m : Master) (s u : State) (h : execDetach m s = .next u) :
    u.pending = s.pending ∧ u.variant = s.variant ∧ u.otp = s.otp ∧ u.masters.length = s.masters.length ∧
    u.cores.channels.length = s.cores.channels.length ∧ u.regs.debugLevel = s.regs.debugLevel ∧ u.store.cs = s.store.cs ∧
    u.store.csDev = s.store.csDev ∧ u.store.granules = s.store.granules ∧ u.pins = s.pins ∧ u.stream = s.stream ∧
    u.loader = s.loader ∧ u.conservator = s.conservator ∧ u.repair = s.repair ∧ u.shadow = s.shadow ∧
    u.inForce = s.inForce ∧ u.otpRequest = s.otpRequest ∧ u.crossReads = s.crossReads := by
  simp only [execDetach, Host.Outcome.next.injEq] at h
  subst h
  first | (simp; done) | ((try dsimp only); (repeat' split) <;> simp)

theorem execRemeasure_frame (m : Master) (s u : State) (h : execRemeasure m s = .next u) :
    u.pending = s.pending ∧ u.variant = s.variant ∧ u.otp = s.otp ∧ u.masters.length = s.masters.length ∧
    u.cores.channels.length = s.cores.channels.length ∧ u.regs.debugLevel = s.regs.debugLevel ∧ u.store.cs = s.store.cs ∧
    u.store.csDev = s.store.csDev ∧ u.store.granules = s.store.granules ∧ u.pins = s.pins ∧ u.stream = s.stream ∧
    u.loader = s.loader ∧ u.conservator = s.conservator ∧ u.egress = s.egress ∧ u.repair = s.repair ∧ u.shadow = s.shadow ∧
    u.inForce = s.inForce ∧ u.otpRequest = s.otpRequest ∧ u.crossReads = s.crossReads := by
  simp only [execRemeasure, Host.Outcome.next.injEq] at h
  subst h
  first | (simp; done) | ((try dsimp only); (repeat' split) <;> simp)

theorem execCountClear_frame (m : Master) (s u : State) (h : execCountClear m s = .next u) :
    u.pending = s.pending ∧ u.variant = s.variant ∧ u.otp = s.otp ∧ u.masters.length = s.masters.length ∧
    u.cores.channels.length = s.cores.channels.length ∧ u.regs.debugLevel = s.regs.debugLevel ∧ u.store.cs = s.store.cs ∧
    u.store.csDev = s.store.csDev ∧ u.store.granules = s.store.granules ∧ u.pins = s.pins ∧ u.stream = s.stream ∧
    u.loader = s.loader ∧ u.conservator = s.conservator ∧ u.egress = s.egress ∧ u.repair = s.repair ∧ u.shadow = s.shadow ∧
    u.inForce = s.inForce ∧ u.otpRequest = s.otpRequest ∧ u.crossReads = s.crossReads := by
  simp only [execCountClear, Host.Outcome.next.injEq] at h
  subst h
  first | (simp; done) | ((try dsimp only); (repeat' split) <;> simp)

theorem execLogClear_frame (m : Master) (s u : State) (h : execLogClear m s = .next u) :
    u.pending = s.pending ∧ u.variant = s.variant ∧ u.otp = s.otp ∧ u.masters.length = s.masters.length ∧
    u.cores.channels.length = s.cores.channels.length ∧ u.regs.debugLevel = s.regs.debugLevel ∧ u.store.cs = s.store.cs ∧
    u.store.csDev = s.store.csDev ∧ u.store.granules = s.store.granules ∧ u.pins = s.pins ∧ u.stream = s.stream ∧
    u.loader = s.loader ∧ u.conservator = s.conservator ∧ u.egress = s.egress ∧ u.repair = s.repair ∧ u.shadow = s.shadow ∧
    u.inForce = s.inForce ∧ u.otpRequest = s.otpRequest ∧ u.crossReads = s.crossReads := by
  simp only [execLogClear, Host.Outcome.next.injEq] at h
  subst h
  first | (simp; done) | ((try dsimp only); (repeat' split) <;> simp)

theorem execConservatorRestart_frame (m : Master) (s u : State) (h : execConservatorRestart m s = .next u) :
    u.pending = s.pending ∧ u.variant = s.variant ∧ u.otp = s.otp ∧ u.masters.length = s.masters.length ∧
    u.cores.channels.length = s.cores.channels.length ∧ u.regs.debugLevel = s.regs.debugLevel ∧ u.store.cs = s.store.cs ∧
    u.store.csDev = s.store.csDev ∧ u.store.granules = s.store.granules ∧ u.pins = s.pins ∧ u.stream = s.stream ∧
    u.loader = s.loader ∧ u.egress = s.egress ∧ u.repair = s.repair ∧ u.shadow = s.shadow ∧ u.inForce = s.inForce ∧
    u.otpRequest = s.otpRequest ∧ u.crossReads = s.crossReads := by
  simp only [execConservatorRestart, Host.Outcome.next.injEq] at h
  subst h
  first | (simp; done) | ((try dsimp only); (repeat' split) <;> simp)

theorem execCheckTest_frame (m : Master) (v : Bool) (s u : State) (h : execCheckTest m v s = .next u) :
    u.pending = s.pending ∧ u.variant = s.variant ∧ u.otp = s.otp ∧ u.masters.length = s.masters.length ∧
    u.cores.channels.length = s.cores.channels.length ∧ u.regs.debugLevel = s.regs.debugLevel ∧ u.store.cs = s.store.cs ∧
    u.store.csDev = s.store.csDev ∧ u.store.granules = s.store.granules ∧ u.pins = s.pins ∧ u.stream = s.stream ∧
    u.power = s.power ∧ u.loader = s.loader ∧ u.conservator = s.conservator ∧ u.egress = s.egress ∧ u.repair = s.repair ∧
    u.shadow = s.shadow ∧ u.inForce = s.inForce ∧ u.otpRequest = s.otpRequest ∧ u.heldCommands = s.heldCommands ∧
    u.crossReads = s.crossReads := by
  simp only [execCheckTest, Host.Outcome.next.injEq] at h
  subst h
  first | (simp; done) | ((try dsimp only); (repeat' split) <;> simp)

theorem execHostSleep_frame (m : Master) (pcieDown : Bool) (s u : State) (h : execHostSleep m pcieDown s = .next u) :
    u.pending = s.pending ∧ u.variant = s.variant ∧ u.otp = s.otp ∧ u.masters.length = s.masters.length ∧
    u.cores.channels.length = s.cores.channels.length ∧ u.regs.debugLevel = s.regs.debugLevel ∧ u.store.cs = s.store.cs ∧
    u.store.csDev = s.store.csDev ∧ u.store.granules = s.store.granules ∧ u.stream = s.stream ∧ u.loader = s.loader ∧
    u.conservator = s.conservator ∧ u.egress = s.egress ∧ u.repair = s.repair ∧ u.shadow = s.shadow ∧
    u.inForce = s.inForce ∧ u.otpRequest = s.otpRequest ∧ u.heldCommands = s.heldCommands ∧ u.crossReads = s.crossReads ∧
    u.pins.pins.length = s.pins.pins.length := by
  simp only [execHostSleep, Host.Outcome.next.injEq] at h
  subst h
  first | (simp; done) | ((try dsimp only); (repeat' split) <;> simp)

theorem execPwrRequestField_frame (m : Master) (v : BitVec 3) (s u : State) (h : execPwrRequestField m v s = .next u) :
    u.pending = s.pending ∧ u.variant = s.variant ∧ u.otp = s.otp ∧ u.masters.length = s.masters.length ∧
    u.cores.channels.length = s.cores.channels.length ∧ u.regs.debugLevel = s.regs.debugLevel ∧ u.store.cs = s.store.cs ∧
    u.store.csDev = s.store.csDev ∧ u.store.granules = s.store.granules ∧ u.pins = s.pins ∧ u.stream = s.stream ∧
    u.power = s.power ∧ u.loader = s.loader ∧ u.conservator = s.conservator ∧ u.egress = s.egress ∧ u.repair = s.repair ∧
    u.shadow = s.shadow ∧ u.inForce = s.inForce ∧ u.otpRequest = s.otpRequest ∧ u.heldCommands = s.heldCommands ∧
    u.crossReads = s.crossReads := by
  simp only [execPwrRequestField, Host.Outcome.next.injEq] at h
  subst h
  first | (simp; done) | ((try dsimp only); (repeat' split) <;> simp)

theorem execSecurityLock_frame (m : Master) (data : Word) (s u : State) (h : execSecurityLock m data s = .next u) :
    u.pending = s.pending ∧ u.variant = s.variant ∧ u.otp = s.otp ∧ u.masters.length = s.masters.length ∧
    u.cores.channels.length = s.cores.channels.length ∧ u.regs.debugLevel = s.regs.debugLevel ∧ u.store.cs = s.store.cs ∧
    u.store.csDev = s.store.csDev ∧ u.store.granules = s.store.granules ∧ u.pins = s.pins ∧ u.stream = s.stream ∧
    u.power = s.power ∧ u.loader = s.loader ∧ u.conservator = s.conservator ∧ u.egress = s.egress ∧ u.repair = s.repair ∧
    u.shadow = s.shadow ∧ u.inForce = s.inForce ∧ u.heldCommands = s.heldCommands ∧ u.crossReads = s.crossReads := by
  simp only [execSecurityLock, Host.Outcome.next.injEq] at h
  subst h
  first | (simp; done) | ((try dsimp only); (repeat' split) <;> simp)

theorem execOtpProgrammed_frame  (s u : State) (h : execOtpProgrammed s = .next u) :
    u.pending = s.pending ∧ u.variant = s.variant ∧ u.masters.length = s.masters.length ∧
    u.cores.channels.length = s.cores.channels.length ∧ u.regs.debugLevel = s.regs.debugLevel ∧ u.store.cs = s.store.cs ∧
    u.store.csDev = s.store.csDev ∧ u.store.granules = s.store.granules ∧ u.pins = s.pins ∧ u.stream = s.stream ∧
    u.power = s.power ∧ u.conservator = s.conservator ∧ u.shadow = s.shadow ∧ u.inForce = s.inForce ∧
    u.heldCommands = s.heldCommands ∧ u.crossReads = s.crossReads := by
  simp only [execOtpProgrammed, Host.Outcome.next.injEq] at h
  subst h
  first | (simp; done) | ((try dsimp only); (repeat' split) <;> simp)

theorem execPinLockKey_frame (m : Master) (data : Word) (s u : State) (h : execPinLockKey m data s = .next u) :
    u.pending = s.pending ∧ u.variant = s.variant ∧ u.otp = s.otp ∧ u.masters.length = s.masters.length ∧
    u.cores.channels.length = s.cores.channels.length ∧ u.regs.debugLevel = s.regs.debugLevel ∧ u.store.cs = s.store.cs ∧
    u.store.csDev = s.store.csDev ∧ u.store.granules = s.store.granules ∧ u.stream = s.stream ∧ u.power = s.power ∧
    u.loader = s.loader ∧ u.conservator = s.conservator ∧ u.egress = s.egress ∧ u.repair = s.repair ∧ u.shadow = s.shadow ∧
    u.inForce = s.inForce ∧ u.otpRequest = s.otpRequest ∧ u.heldCommands = s.heldCommands ∧ u.crossReads = s.crossReads ∧
    u.pins.pins.length = s.pins.pins.length := by
  simp only [execPinLockKey, Host.Outcome.next.injEq] at h
  subst h
  first | (simp; done) | ((try dsimp only); (repeat' split) <;> simp)

theorem execDebugLevel_frame (m : Master) (v : BitVec 2) (s u : State) (h : execDebugLevel m v s = .next u) :
    u.pending = s.pending ∧ u.variant = s.variant ∧ u.otp = s.otp ∧ u.masters.length = s.masters.length ∧
    u.cores.channels.length = s.cores.channels.length ∧ u.store.cs = s.store.cs ∧ u.store.csDev = s.store.csDev ∧
    u.store.granules = s.store.granules ∧ u.pins = s.pins ∧ u.stream = s.stream ∧ u.power = s.power ∧ u.loader = s.loader ∧
    u.conservator = s.conservator ∧ u.egress = s.egress ∧ u.repair = s.repair ∧ u.shadow = s.shadow ∧
    u.inForce = s.inForce ∧ u.otpRequest = s.otpRequest ∧ u.heldCommands = s.heldCommands ∧ u.crossReads = s.crossReads := by
  simp only [execDebugLevel, Host.Outcome.next.injEq] at h
  subst h
  first | (simp; done) | ((try dsimp only); (repeat' split) <;> simp)

theorem execAlertClr_frame (m : Master) (key : Byte) (s u : State) (h : execAlertClr m key s = .next u) :
    u.pending = s.pending ∧ u.variant = s.variant ∧ u.otp = s.otp ∧ u.masters.length = s.masters.length ∧
    u.cores.channels.length = s.cores.channels.length ∧ u.regs.debugLevel = s.regs.debugLevel ∧ u.store.cs = s.store.cs ∧
    u.store.csDev = s.store.csDev ∧ u.store.granules = s.store.granules ∧ u.pins = s.pins ∧ u.stream = s.stream ∧
    u.power = s.power ∧ u.loader = s.loader ∧ u.conservator = s.conservator ∧ u.egress = s.egress ∧ u.repair = s.repair ∧
    u.shadow = s.shadow ∧ u.inForce = s.inForce ∧ u.otpRequest = s.otpRequest ∧ u.heldCommands = s.heldCommands ∧
    u.crossReads = s.crossReads := by
  simp only [execAlertClr, Host.Outcome.next.injEq] at h
  subst h
  first | (simp; done) | ((try dsimp only); (repeat' split) <;> simp)

theorem execCoreRestart_frame (m : Master) (key : Byte) (cores : BitVec 4) (s u : State) (h : execCoreRestart m key cores s = .next u) :
    u.pending = s.pending ∧ u.variant = s.variant ∧ u.otp = s.otp ∧ u.masters.length = s.masters.length ∧
    u.cores.channels.length = s.cores.channels.length ∧ u.regs.debugLevel = s.regs.debugLevel ∧ u.store.cs = s.store.cs ∧
    u.store.csDev = s.store.csDev ∧ u.store.granules = s.store.granules ∧ u.pins = s.pins ∧ u.stream = s.stream ∧
    u.power = s.power ∧ u.loader = s.loader ∧ u.conservator = s.conservator ∧ u.egress = s.egress ∧ u.repair = s.repair ∧
    u.shadow = s.shadow ∧ u.inForce = s.inForce ∧ u.otpRequest = s.otpRequest ∧ u.heldCommands = s.heldCommands ∧
    u.crossReads = s.crossReads := by
  simp only [execCoreRestart, Host.Outcome.next.injEq] at h
  subst h
  first | (simp; done) | ((try dsimp only); (repeat' split) <;> simp)

theorem execMailboxDoorbell_frame (m : Master) (slot : Nat) (s u : State) (h : execMailboxDoorbell m slot s = .next u) :
    u.pending = s.pending ∧ u.variant = s.variant ∧ u.otp = s.otp ∧ u.masters.length = s.masters.length ∧
    u.cores.channels.length = s.cores.channels.length ∧ u.regs.debugLevel = s.regs.debugLevel ∧ u.store.cs = s.store.cs ∧
    u.store.csDev = s.store.csDev ∧ u.store.granules = s.store.granules ∧ u.pins = s.pins ∧ u.stream = s.stream ∧
    u.loader = s.loader ∧ u.conservator = s.conservator ∧ u.egress = s.egress ∧ u.repair = s.repair ∧ u.shadow = s.shadow ∧
    u.inForce = s.inForce ∧ u.otpRequest = s.otpRequest ∧ u.crossReads = s.crossReads := by
  simp only [execMailboxDoorbell, Host.Outcome.next.injEq] at h
  subst h
  first | (simp; done) | ((try dsimp only); (repeat' split) <;> simp)

theorem execPinFunctionChange_frame (m : Master) (i : Nat) (v : DWord) (s u : State) (h : execPinFunctionChange m i v s = .next u) :
    u.pending = s.pending ∧ u.variant = s.variant ∧ u.otp = s.otp ∧ u.masters.length = s.masters.length ∧
    u.cores.channels.length = s.cores.channels.length ∧ u.regs.debugLevel = s.regs.debugLevel ∧ u.store.cs = s.store.cs ∧
    u.store.csDev = s.store.csDev ∧ u.store.granules = s.store.granules ∧ u.stream = s.stream ∧ u.power = s.power ∧
    u.loader = s.loader ∧ u.conservator = s.conservator ∧ u.egress = s.egress ∧ u.repair = s.repair ∧ u.shadow = s.shadow ∧
    u.inForce = s.inForce ∧ u.otpRequest = s.otpRequest ∧ u.heldCommands = s.heldCommands ∧ u.crossReads = s.crossReads ∧
    u.pins.pins.length = s.pins.pins.length := by
  simp only [execPinFunctionChange, Host.Outcome.next.injEq] at h
  subst h
  first | (simp; done) | ((try dsimp only); (repeat' split) <;> simp)

theorem execBatchDoorbell_frame (v : DWord) (s u : State) (h : execBatchDoorbell v s = .next u) :
    u.pending = s.pending ∧ u.variant = s.variant ∧ u.otp = s.otp ∧ u.masters.length = s.masters.length ∧
    u.cores.channels.length = s.cores.channels.length ∧ u.regs.debugLevel = s.regs.debugLevel ∧ u.store.cs = s.store.cs ∧
    u.store.csDev = s.store.csDev ∧ u.store.granules = s.store.granules ∧ u.pins = s.pins ∧ u.power = s.power ∧
    u.loader = s.loader ∧ u.conservator = s.conservator ∧ u.egress = s.egress ∧ u.repair = s.repair ∧ u.shadow = s.shadow ∧
    u.inForce = s.inForce ∧ u.otpRequest = s.otpRequest ∧ u.heldCommands = s.heldCommands ∧ u.crossReads = s.crossReads := by
  simp only [execBatchDoorbell, Host.Outcome.next.injEq] at h
  subst h
  first | (simp; done) | ((try dsimp only); (repeat' split) <;> simp)

theorem execBatchRingSetup_frame (size : Bool) (v : BitVec 24) (s u : State) (h : execBatchRingSetup size v s = .next u) :
    u.pending = s.pending ∧ u.variant = s.variant ∧ u.otp = s.otp ∧ u.masters.length = s.masters.length ∧
    u.cores.channels.length = s.cores.channels.length ∧ u.regs.debugLevel = s.regs.debugLevel ∧ u.store.cs = s.store.cs ∧
    u.store.csDev = s.store.csDev ∧ u.store.granules = s.store.granules ∧ u.pins = s.pins ∧ u.power = s.power ∧
    u.loader = s.loader ∧ u.conservator = s.conservator ∧ u.egress = s.egress ∧ u.repair = s.repair ∧ u.shadow = s.shadow ∧
    u.inForce = s.inForce ∧ u.otpRequest = s.otpRequest ∧ u.heldCommands = s.heldCommands ∧ u.crossReads = s.crossReads := by
  simp only [execBatchRingSetup, Host.Outcome.next.injEq] at h
  subst h
  first | (simp; done) | ((try dsimp only); (repeat' split) <;> simp)

theorem execLcons_frame (l : FLink) (v : DWord) (s u : State) (h : execLcons l v s = .next u) :
    u.pending = s.pending ∧ u.variant = s.variant ∧ u.otp = s.otp ∧ u.masters.length = s.masters.length ∧
    u.cores.channels.length = s.cores.channels.length ∧ u.regs.debugLevel = s.regs.debugLevel ∧ u.pins = s.pins ∧
    u.power = s.power ∧ u.loader = s.loader ∧ u.conservator = s.conservator ∧ u.egress = s.egress ∧ u.repair = s.repair ∧
    u.shadow = s.shadow ∧ u.inForce = s.inForce ∧ u.otpRequest = s.otpRequest ∧ u.heldCommands = s.heldCommands ∧
    u.crossReads = s.crossReads := by
  simp only [execLcons, Host.Outcome.next.injEq] at h
  subst h
  first | (simp; done) | ((try dsimp only); (repeat' split) <;> simp)

theorem execLsize_frame (l : FLink) (v : BitVec 5) (s u : State) (h : execLsize l v s = .next u) :
    u.pending = s.pending ∧ u.variant = s.variant ∧ u.otp = s.otp ∧ u.masters.length = s.masters.length ∧
    u.cores.channels.length = s.cores.channels.length ∧ u.regs.debugLevel = s.regs.debugLevel ∧ u.pins = s.pins ∧
    u.power = s.power ∧ u.loader = s.loader ∧ u.conservator = s.conservator ∧ u.egress = s.egress ∧ u.repair = s.repair ∧
    u.shadow = s.shadow ∧ u.inForce = s.inForce ∧ u.otpRequest = s.otpRequest ∧ u.heldCommands = s.heldCommands ∧
    u.crossReads = s.crossReads := by
  simp only [execLsize, Host.Outcome.next.injEq] at h
  subst h
  first | (simp; done) | ((try dsimp only); (repeat' split) <;> simp)

theorem execRcons_frame (v : DWord) (s u : State) (h : execRcons v s = .next u) :
    u.pending = s.pending ∧ u.variant = s.variant ∧ u.otp = s.otp ∧ u.masters.length = s.masters.length ∧
    u.cores.channels.length = s.cores.channels.length ∧ u.regs.debugLevel = s.regs.debugLevel ∧ u.store.cs = s.store.cs ∧
    u.store.csDev = s.store.csDev ∧ u.store.granules = s.store.granules ∧ u.pins = s.pins ∧ u.power = s.power ∧
    u.conservator = s.conservator ∧ u.egress = s.egress ∧ u.repair = s.repair ∧ u.shadow = s.shadow ∧
    u.inForce = s.inForce ∧ u.otpRequest = s.otpRequest ∧ u.heldCommands = s.heldCommands ∧ u.crossReads = s.crossReads := by
  simp only [execRcons, Host.Outcome.next.injEq] at h
  subst h
  first | (simp; done) | ((try dsimp only); (repeat' split) <;> simp)

theorem execSgo_frame (data : BitVec 2) (s u : State) (h : execSgo data s = .next u) :
    u.pending = s.pending ∧ u.variant = s.variant ∧ u.otp = s.otp ∧ u.masters.length = s.masters.length ∧
    u.cores.channels.length = s.cores.channels.length ∧ u.regs.debugLevel = s.regs.debugLevel ∧ u.store.cs = s.store.cs ∧
    u.store.csDev = s.store.csDev ∧ u.store.granules = s.store.granules ∧ u.pins = s.pins ∧ u.power = s.power ∧
    u.loader = s.loader ∧ u.conservator = s.conservator ∧ u.egress = s.egress ∧ u.repair = s.repair ∧ u.shadow = s.shadow ∧
    u.inForce = s.inForce ∧ u.otpRequest = s.otpRequest ∧ u.heldCommands = s.heldCommands ∧ u.crossReads = s.crossReads := by
  simp only [execSgo, Host.Outcome.next.injEq] at h
  subst h
  first | (simp; done) | ((try dsimp only); (repeat' split) <;> simp)

theorem execStimDmaDone_frame (bytes : List Byte) (s u : State) (h : execStimDmaDone bytes s = .next u) :
    u.pending = s.pending ∧ u.variant = s.variant ∧ u.otp = s.otp ∧ u.masters.length = s.masters.length ∧
    u.cores.channels.length = s.cores.channels.length ∧ u.regs.debugLevel = s.regs.debugLevel ∧ u.pins = s.pins ∧
    u.power = s.power ∧ u.loader = s.loader ∧ u.conservator = s.conservator ∧ u.egress = s.egress ∧ u.repair = s.repair ∧
    u.shadow = s.shadow ∧ u.inForce = s.inForce ∧ u.otpRequest = s.otpRequest ∧ u.heldCommands = s.heldCommands ∧
    u.crossReads = s.crossReads := by
  simp only [execStimDmaDone, Host.Outcome.next.injEq] at h
  subst h
  first | (simp; done) | ((try dsimp only); (repeat' split) <;> simp)

theorem execImageFrameTake_frame (slot : Nat) (s u : State) (h : execImageFrameTake slot s = .next u) :
    u.pending = s.pending ∧ u.variant = s.variant ∧ u.otp = s.otp ∧ u.masters.length = s.masters.length ∧
    u.cores.channels.length = s.cores.channels.length ∧ u.regs.debugLevel = s.regs.debugLevel ∧ u.store.cs = s.store.cs ∧
    u.store.csDev = s.store.csDev ∧ u.store.granules = s.store.granules ∧ u.pins = s.pins ∧ u.power = s.power ∧
    u.conservator = s.conservator ∧ u.shadow = s.shadow ∧ u.inForce = s.inForce ∧ u.otpRequest = s.otpRequest ∧
    u.heldCommands = s.heldCommands ∧ u.crossReads = s.crossReads := by
  simp only [execImageFrameTake, Host.Outcome.next.injEq] at h
  subst h
  first | (simp; done) | ((try dsimp only); (repeat' split) <;> simp)

theorem execRepeatRetry_frame (n : Nat) (s u : State) (h : execRepeatRetry n s = .next u) :
    u.pending = s.pending ∧ u.variant = s.variant ∧ u.otp = s.otp ∧ u.masters.length = s.masters.length ∧
    u.cores.channels.length = s.cores.channels.length ∧ u.regs.debugLevel = s.regs.debugLevel ∧ u.store.cs = s.store.cs ∧
    u.store.csDev = s.store.csDev ∧ u.store.granules = s.store.granules ∧ u.pins = s.pins ∧ u.power = s.power ∧
    u.conservator = s.conservator ∧ u.egress = s.egress ∧ u.repair = s.repair ∧ u.shadow = s.shadow ∧
    u.inForce = s.inForce ∧ u.otpRequest = s.otpRequest ∧ u.heldCommands = s.heldCommands ∧ u.crossReads = s.crossReads := by
  simp only [execRepeatRetry, Host.Outcome.next.injEq] at h
  subst h
  first | (simp; done) | ((try dsimp only); (repeat' split) <;> simp)

theorem execLoadDeadline_frame  (s u : State) (h : execLoadDeadline s = .next u) :
    u.pending = s.pending ∧ u.variant = s.variant ∧ u.otp = s.otp ∧ u.masters.length = s.masters.length ∧
    u.cores.channels.length = s.cores.channels.length ∧ u.regs.debugLevel = s.regs.debugLevel ∧ u.store.cs = s.store.cs ∧
    u.store.csDev = s.store.csDev ∧ u.store.granules = s.store.granules ∧ u.pins = s.pins ∧ u.stream = s.stream ∧
    u.power = s.power ∧ u.conservator = s.conservator ∧ u.shadow = s.shadow ∧ u.inForce = s.inForce ∧
    u.otpRequest = s.otpRequest ∧ u.heldCommands = s.heldCommands ∧ u.crossReads = s.crossReads := by
  simp only [execLoadDeadline, Host.Outcome.next.injEq] at h
  subst h
  first | (simp; done) | ((try dsimp only); (repeat' split) <;> simp)

theorem execVerify_frame  (s u : State) (h : execVerify s = .next u) :
    u.pending = s.pending ∧ u.variant = s.variant ∧ u.otp = s.otp ∧ u.masters.length = s.masters.length ∧
    u.cores.channels.length = s.cores.channels.length ∧ u.regs.debugLevel = s.regs.debugLevel ∧ u.store.cs = s.store.cs ∧
    u.store.csDev = s.store.csDev ∧ u.store.granules = s.store.granules ∧ u.pins = s.pins ∧ u.stream = s.stream ∧
    u.power = s.power ∧ u.conservator = s.conservator ∧ u.shadow = s.shadow ∧ u.inForce = s.inForce ∧
    u.otpRequest = s.otpRequest ∧ u.heldCommands = s.heldCommands ∧ u.crossReads = s.crossReads := by
  simp only [execVerify, Host.Outcome.next.injEq] at h
  subst h
  first | (simp; done) | ((try dsimp only); (repeat' split) <;> simp)

theorem execVerificationDone_frame  (s u : State) (h : execVerificationDone s = .next u) :
    u.pending = s.pending ∧ u.variant = s.variant ∧ u.otp = s.otp ∧ u.masters.length = s.masters.length ∧
    u.cores.channels.length = s.cores.channels.length ∧ u.regs.debugLevel = s.regs.debugLevel ∧ u.store.cs = s.store.cs ∧
    u.store.csDev = s.store.csDev ∧ u.store.granules = s.store.granules ∧ u.pins = s.pins ∧ u.stream = s.stream ∧
    u.conservator = s.conservator ∧ u.shadow = s.shadow ∧ u.inForce = s.inForce ∧ u.otpRequest = s.otpRequest ∧
    u.heldCommands = s.heldCommands ∧ u.crossReads = s.crossReads := by
  simp only [execVerificationDone, Host.Outcome.next.injEq] at h
  subst h
  first | (simp; done) | ((try dsimp only); (repeat' split) <;> simp)

theorem execPllLock_frame  (s u : State) (h : execPllLock s = .next u) :
    u.pending = s.pending ∧ u.variant = s.variant ∧ u.otp = s.otp ∧ u.masters.length = s.masters.length ∧
    u.cores.channels.length = s.cores.channels.length ∧ u.regs.debugLevel = s.regs.debugLevel ∧ u.store.cs = s.store.cs ∧
    u.store.csDev = s.store.csDev ∧ u.store.granules = s.store.granules ∧ u.pins = s.pins ∧ u.stream = s.stream ∧
    u.power = s.power ∧ u.conservator = s.conservator ∧ u.egress = s.egress ∧ u.repair = s.repair ∧ u.shadow = s.shadow ∧
    u.inForce = s.inForce ∧ u.otpRequest = s.otpRequest ∧ u.heldCommands = s.heldCommands ∧ u.crossReads = s.crossReads := by
  simp only [execPllLock, Host.Outcome.next.injEq] at h
  subst h
  first | (simp; done) | ((try dsimp only); (repeat' split) <;> simp)

theorem execPllLockTimeout_frame  (s u : State) (h : execPllLockTimeout s = .next u) :
    u.pending = s.pending ∧ u.variant = s.variant ∧ u.otp = s.otp ∧ u.masters.length = s.masters.length ∧
    u.cores.channels.length = s.cores.channels.length ∧ u.regs.debugLevel = s.regs.debugLevel ∧ u.store.cs = s.store.cs ∧
    u.store.csDev = s.store.csDev ∧ u.store.granules = s.store.granules ∧ u.pins = s.pins ∧ u.stream = s.stream ∧
    u.power = s.power ∧ u.conservator = s.conservator ∧ u.shadow = s.shadow ∧ u.inForce = s.inForce ∧
    u.otpRequest = s.otpRequest ∧ u.heldCommands = s.heldCommands ∧ u.crossReads = s.crossReads := by
  simp only [execPllLockTimeout, Host.Outcome.next.injEq] at h
  subst h
  first | (simp; done) | ((try dsimp only); (repeat' split) <;> simp)

theorem execStageRelease_frame  (s u : State) (h : execStageRelease s = .next u) :
    u.pending = s.pending ∧ u.variant = s.variant ∧ u.otp = s.otp ∧ u.masters.length = s.masters.length ∧
    u.cores.channels.length = s.cores.channels.length ∧ u.regs.debugLevel = s.regs.debugLevel ∧ u.pins = s.pins ∧
    u.shadow = s.shadow ∧ u.inForce = s.inForce ∧ u.otpRequest = s.otpRequest ∧ u.heldCommands = s.heldCommands ∧
    u.crossReads = s.crossReads := by
  simp only [execStageRelease, Host.Outcome.next.injEq] at h
  subst h
  first | (simp; done) | ((try dsimp only); (repeat' split) <;> simp)

theorem execRegWrite_frame (d : Dir) (addr : BitVec 6) (_master : Byte) (data : Word) (s u : State) (h : execRegWrite d addr _master data s = .next u) :
    u.pending = s.pending ∧ u.variant = s.variant ∧ u.otp = s.otp ∧ u.masters.length = s.masters.length ∧
    u.cores.channels.length = s.cores.channels.length ∧ u.regs.debugLevel = s.regs.debugLevel ∧ u.store.cs = s.store.cs ∧
    u.store.csDev = s.store.csDev ∧ u.store.granules = s.store.granules ∧ u.pins = s.pins ∧ u.stream = s.stream ∧
    u.power = s.power ∧ u.loader = s.loader ∧ u.conservator = s.conservator ∧ u.egress = s.egress ∧ u.repair = s.repair ∧
    u.shadow = s.shadow ∧ u.inForce = s.inForce ∧ u.otpRequest = s.otpRequest ∧ u.heldCommands = s.heldCommands ∧
    u.crossReads = s.crossReads := by
  simp only [execRegWrite, Host.Outcome.next.injEq] at h
  subst h
  first | (simp; done) | ((try dsimp only); (repeat' split) <;> simp)

theorem execRegRead_frame (addr : BitVec 6) (_master : Byte) (tag : Word) (s u : State) (h : execRegRead addr _master tag s = .next u) :
    u.pending = s.pending ∧ u.variant = s.variant ∧ u.otp = s.otp ∧ u.masters.length = s.masters.length ∧
    u.cores.channels.length = s.cores.channels.length ∧ u.regs.debugLevel = s.regs.debugLevel ∧ u.store.cs = s.store.cs ∧
    u.store.csDev = s.store.csDev ∧ u.store.granules = s.store.granules ∧ u.pins = s.pins ∧ u.stream = s.stream ∧
    u.power = s.power ∧ u.loader = s.loader ∧ u.conservator = s.conservator ∧ u.egress = s.egress ∧ u.repair = s.repair ∧
    u.shadow = s.shadow ∧ u.inForce = s.inForce ∧ u.otpRequest = s.otpRequest ∧ u.heldCommands = s.heldCommands := by
  simp only [execRegRead, Host.Outcome.next.injEq] at h
  subst h
  first | (simp; done) | ((try dsimp only); (repeat' split) <;> simp)

theorem execRegReply_frame (tag data : Word) (status : Byte) (s u : State) (h : execRegReply tag data status s = .next u) :
    u.pending = s.pending ∧ u.variant = s.variant ∧ u.otp = s.otp ∧ u.masters.length = s.masters.length ∧
    u.cores.channels.length = s.cores.channels.length ∧ u.regs.debugLevel = s.regs.debugLevel ∧ u.store.cs = s.store.cs ∧
    u.store.csDev = s.store.csDev ∧ u.store.granules = s.store.granules ∧ u.pins = s.pins ∧ u.stream = s.stream ∧
    u.power = s.power ∧ u.loader = s.loader ∧ u.conservator = s.conservator ∧ u.egress = s.egress ∧ u.repair = s.repair ∧
    u.shadow = s.shadow ∧ u.inForce = s.inForce ∧ u.otpRequest = s.otpRequest ∧ u.heldCommands = s.heldCommands := by
  simp only [execRegReply, Host.Outcome.next.injEq] at h
  subst h
  first | (simp; done) | ((try dsimp only); (repeat' split) <;> simp)

theorem execImageFrame_frame (n : Nat) (pre : Record) (payload : List Byte) (s u : State) (h : execImageFrame n pre payload s = .next u) :
    u.pending = s.pending ∧ u.variant = s.variant ∧ u.otp = s.otp ∧ u.masters.length = s.masters.length ∧
    u.cores.channels.length = s.cores.channels.length ∧ u.regs.debugLevel = s.regs.debugLevel ∧ u.pins = s.pins ∧
    u.stream = s.stream ∧ u.power = s.power ∧ u.conservator = s.conservator ∧ u.egress = s.egress ∧ u.repair = s.repair ∧
    u.shadow = s.shadow ∧ u.inForce = s.inForce ∧ u.otpRequest = s.otpRequest ∧ u.heldCommands = s.heldCommands ∧
    u.crossReads = s.crossReads := by
  simp only [execImageFrame, Host.Outcome.next.injEq] at h
  subst h
  first | (simp; done) | ((try dsimp only); (repeat' split) <;> simp)

theorem execRepeatRequest_frame (n : Nat) (reason : Byte) (s u : State) (h : execRepeatRequest n reason s = .next u) :
    u.pending = s.pending ∧ u.variant = s.variant ∧ u.otp = s.otp ∧ u.masters.length = s.masters.length ∧
    u.cores.channels.length = s.cores.channels.length ∧ u.regs.debugLevel = s.regs.debugLevel ∧ u.store.cs = s.store.cs ∧
    u.store.csDev = s.store.csDev ∧ u.store.granules = s.store.granules ∧ u.pins = s.pins ∧ u.power = s.power ∧
    u.conservator = s.conservator ∧ u.egress = s.egress ∧ u.repair = s.repair ∧ u.shadow = s.shadow ∧
    u.inForce = s.inForce ∧ u.otpRequest = s.otpRequest ∧ u.heldCommands = s.heldCommands ∧ u.crossReads = s.crossReads := by
  simp only [execRepeatRequest, Host.Outcome.next.injEq] at h
  subst h
  first | (simp; done) | ((try dsimp only); (repeat' split) <;> simp)

theorem execLedgerBatch_frame (l : FLink) (records : List Record) (s u : State) (h : execLedgerBatch l records s = .next u) :
    u.pending = s.pending ∧ u.variant = s.variant ∧ u.otp = s.otp ∧ u.masters.length = s.masters.length ∧
    u.cores.channels.length = s.cores.channels.length ∧ u.regs.debugLevel = s.regs.debugLevel ∧ u.store.cs = s.store.cs ∧
    u.store.csDev = s.store.csDev ∧ u.store.granules = s.store.granules ∧ u.pins = s.pins ∧ u.power = s.power ∧
    u.loader = s.loader ∧ u.conservator = s.conservator ∧ u.egress = s.egress ∧ u.repair = s.repair ∧ u.shadow = s.shadow ∧
    u.inForce = s.inForce ∧ u.otpRequest = s.otpRequest ∧ u.heldCommands = s.heldCommands ∧ u.crossReads = s.crossReads := by
  simp only [execLedgerBatch, Host.Outcome.next.injEq] at h
  subst h
  first | (simp; done) | ((try dsimp only); (repeat' split) <;> simp)

theorem execLedgerWriteback_frame (l : FLink) (s u : State) (h : execLedgerWriteback l s = .next u) :
    u.pending = s.pending ∧ u.variant = s.variant ∧ u.otp = s.otp ∧ u.masters.length = s.masters.length ∧
    u.cores.channels.length = s.cores.channels.length ∧ u.regs.debugLevel = s.regs.debugLevel ∧ u.store.cs = s.store.cs ∧
    u.store.csDev = s.store.csDev ∧ u.store.granules = s.store.granules ∧ u.power = s.power ∧ u.loader = s.loader ∧
    u.conservator = s.conservator ∧ u.egress = s.egress ∧ u.shadow = s.shadow ∧ u.inForce = s.inForce ∧
    u.otpRequest = s.otpRequest ∧ u.heldCommands = s.heldCommands ∧ u.crossReads = s.crossReads ∧
    u.pins.pins.length = s.pins.pins.length := by
  simp only [execLedgerWriteback, Host.Outcome.next.injEq] at h
  subst h
  first | (simp; done) | ((try dsimp only); (repeat' split) <;> simp)

theorem execEvent_frame (code : Word) (unit : Byte) (detail : DWord) (s u : State) (h : execEvent code unit detail s = .next u) :
    u.pending = s.pending ∧ u.variant = s.variant ∧ u.otp = s.otp ∧ u.masters.length = s.masters.length ∧
    u.cores.channels.length = s.cores.channels.length ∧ u.regs.debugLevel = s.regs.debugLevel ∧ u.store.cs = s.store.cs ∧
    u.store.csDev = s.store.csDev ∧ u.store.granules = s.store.granules ∧ u.pins = s.pins ∧ u.stream = s.stream ∧
    u.power = s.power ∧ u.loader = s.loader ∧ u.conservator = s.conservator ∧ u.egress = s.egress ∧ u.repair = s.repair ∧
    u.shadow = s.shadow ∧ u.inForce = s.inForce ∧ u.otpRequest = s.otpRequest ∧ u.heldCommands = s.heldCommands ∧
    u.crossReads = s.crossReads := by
  simp only [execEvent, Host.Outcome.next.injEq] at h
  subst h
  first | (simp; done) | ((try dsimp only); (repeat' split) <;> simp)

theorem execTimeMark_frame (ns : QWord) (s u : State) (h : execTimeMark ns s = .next u) :
    u.pending = s.pending ∧ u.variant = s.variant ∧ u.otp = s.otp ∧ u.masters.length = s.masters.length ∧
    u.cores.channels.length = s.cores.channels.length ∧ u.regs.debugLevel = s.regs.debugLevel ∧ u.store.cs = s.store.cs ∧
    u.store.csDev = s.store.csDev ∧ u.store.granules = s.store.granules ∧ u.pins = s.pins ∧ u.stream = s.stream ∧
    u.loader = s.loader ∧ u.conservator = s.conservator ∧ u.egress = s.egress ∧ u.repair = s.repair ∧ u.shadow = s.shadow ∧
    u.inForce = s.inForce ∧ u.otpRequest = s.otpRequest ∧ u.heldCommands = s.heldCommands ∧ u.crossReads = s.crossReads := by
  simp only [execTimeMark, Host.Outcome.next.injEq] at h
  subst h
  first | (simp; done) | ((try dsimp only); (repeat' split) <;> simp)

theorem execServiceCall_frame (core : Core) (tag call : Word) (args : List QWord) (s u : State) (h : execServiceCall core tag call args s = .next u) :
    u.pending = s.pending ∧ u.variant = s.variant ∧ u.otp = s.otp ∧ u.masters.length = s.masters.length ∧
    u.cores.channels.length = s.cores.channels.length ∧ u.regs.debugLevel = s.regs.debugLevel ∧ u.store.cs = s.store.cs ∧
    u.store.csDev = s.store.csDev ∧ u.store.granules = s.store.granules ∧ u.pins = s.pins ∧ u.stream = s.stream ∧
    u.power = s.power ∧ u.loader = s.loader ∧ u.conservator = s.conservator ∧ u.egress = s.egress ∧ u.repair = s.repair ∧
    u.shadow = s.shadow ∧ u.inForce = s.inForce ∧ u.otpRequest = s.otpRequest ∧ u.heldCommands = s.heldCommands ∧
    u.crossReads = s.crossReads := by
  simp only [execServiceCall, Host.Outcome.next.injEq] at h
  subst h
  first | (simp; done) | ((try dsimp only); (repeat' split) <;> simp)

theorem execServiceReply_frame (core : Core) (tag result : Word) (_data : List QWord) (s u : State) (h : execServiceReply core tag result _data s = .next u) :
    u.pending = s.pending ∧ u.variant = s.variant ∧ u.otp = s.otp ∧ u.masters.length = s.masters.length ∧
    u.cores.channels.length = s.cores.channels.length ∧ u.regs.debugLevel = s.regs.debugLevel ∧ u.store.cs = s.store.cs ∧
    u.store.csDev = s.store.csDev ∧ u.store.granules = s.store.granules ∧ u.pins = s.pins ∧ u.stream = s.stream ∧
    u.power = s.power ∧ u.loader = s.loader ∧ u.conservator = s.conservator ∧ u.egress = s.egress ∧ u.repair = s.repair ∧
    u.shadow = s.shadow ∧ u.inForce = s.inForce ∧ u.otpRequest = s.otpRequest ∧ u.heldCommands = s.heldCommands ∧
    u.crossReads = s.crossReads := by
  simp only [execServiceReply, Host.Outcome.next.injEq] at h
  subst h
  first | (simp; done) | ((try dsimp only); (repeat' split) <;> simp)

theorem execHeartbeat_frame (d : Dir) (power reset : Byte) (_ticks : DWord) (ack : Word) (s u : State) (h : execHeartbeat d power reset _ticks ack s = .next u) :
    u.pending = s.pending ∧ u.variant = s.variant ∧ u.otp = s.otp ∧ u.masters.length = s.masters.length ∧
    u.cores.channels.length = s.cores.channels.length ∧ u.regs.debugLevel = s.regs.debugLevel ∧ u.store.cs = s.store.cs ∧
    u.store.csDev = s.store.csDev ∧ u.store.granules = s.store.granules ∧ u.power = s.power ∧ u.loader = s.loader ∧
    u.conservator = s.conservator ∧ u.repair = s.repair ∧ u.shadow = s.shadow ∧ u.inForce = s.inForce ∧
    u.otpRequest = s.otpRequest ∧ u.heldCommands = s.heldCommands ∧ u.crossReads = s.crossReads ∧
    u.pins.pins.length = s.pins.pins.length := by
  simp only [execHeartbeat, Host.Outcome.next.injEq] at h
  subst h
  first | (simp; done) | ((try dsimp only); (repeat' split) <;> simp)

theorem execHeartbeatDue_frame (side : Side) (s u : State) (h : execHeartbeatDue side s = .next u) :
    u.pending = s.pending ∧ u.variant = s.variant ∧ u.otp = s.otp ∧ u.masters.length = s.masters.length ∧
    u.cores.channels.length = s.cores.channels.length ∧ u.regs.debugLevel = s.regs.debugLevel ∧ u.store.cs = s.store.cs ∧
    u.store.csDev = s.store.csDev ∧ u.store.granules = s.store.granules ∧ u.pins = s.pins ∧ u.stream = s.stream ∧
    u.power = s.power ∧ u.loader = s.loader ∧ u.conservator = s.conservator ∧ u.egress = s.egress ∧ u.repair = s.repair ∧
    u.shadow = s.shadow ∧ u.inForce = s.inForce ∧ u.otpRequest = s.otpRequest ∧ u.heldCommands = s.heldCommands ∧
    u.crossReads = s.crossReads := by
  simp only [execHeartbeatDue, Host.Outcome.next.injEq] at h
  subst h
  first | (simp; done) | ((try dsimp only); (repeat' split) <;> simp)

theorem execBarrierCellReceive_frame (d : Dir) (l : Nat) (c : Cell) (s u : State) (h : execBarrierCellReceive d l c s = .next u) :
    u.pending = s.pending ∧ u.variant = s.variant ∧ u.otp = s.otp ∧ u.masters.length = s.masters.length ∧
    u.cores.channels.length = s.cores.channels.length ∧ u.regs.debugLevel = s.regs.debugLevel ∧ u.store.cs = s.store.cs ∧
    u.store.csDev = s.store.csDev ∧ u.store.granules = s.store.granules ∧ u.stream = s.stream ∧ u.power = s.power ∧
    u.loader = s.loader ∧ u.conservator = s.conservator ∧ u.egress = s.egress ∧ u.repair = s.repair ∧ u.shadow = s.shadow ∧
    u.inForce = s.inForce ∧ u.otpRequest = s.otpRequest ∧ u.heldCommands = s.heldCommands ∧ u.crossReads = s.crossReads ∧
    u.pins.pins.length = s.pins.pins.length := by
  simp only [execBarrierCellReceive, Host.Outcome.next.injEq] at h
  subst h
  first | (simp; done) | ((try dsimp only); (repeat' split) <;> simp)

theorem execNak_frame (d : Dir) (ack : Word) (s u : State) (h : execNak d ack s = .next u) :
    u.pending = s.pending ∧ u.variant = s.variant ∧ u.otp = s.otp ∧ u.masters.length = s.masters.length ∧
    u.cores.channels.length = s.cores.channels.length ∧ u.regs.debugLevel = s.regs.debugLevel ∧ u.store.cs = s.store.cs ∧
    u.store.csDev = s.store.csDev ∧ u.store.granules = s.store.granules ∧ u.pins = s.pins ∧ u.stream = s.stream ∧
    u.power = s.power ∧ u.loader = s.loader ∧ u.conservator = s.conservator ∧ u.egress = s.egress ∧ u.repair = s.repair ∧
    u.shadow = s.shadow ∧ u.inForce = s.inForce ∧ u.otpRequest = s.otpRequest ∧ u.heldCommands = s.heldCommands ∧
    u.crossReads = s.crossReads := by
  simp only [execNak, Host.Outcome.next.injEq] at h
  subst h
  first | (simp; done) | ((try dsimp only); (repeat' split) <;> simp)

theorem execRetransmitTimeout_frame (d : Dir) (s u : State) (h : execRetransmitTimeout d s = .next u) :
    u.pending = s.pending ∧ u.variant = s.variant ∧ u.otp = s.otp ∧ u.masters.length = s.masters.length ∧
    u.cores.channels.length = s.cores.channels.length ∧ u.regs.debugLevel = s.regs.debugLevel ∧ u.store.cs = s.store.cs ∧
    u.store.csDev = s.store.csDev ∧ u.store.granules = s.store.granules ∧ u.pins = s.pins ∧ u.stream = s.stream ∧
    u.power = s.power ∧ u.loader = s.loader ∧ u.conservator = s.conservator ∧ u.egress = s.egress ∧ u.repair = s.repair ∧
    u.shadow = s.shadow ∧ u.inForce = s.inForce ∧ u.otpRequest = s.otpRequest ∧ u.heldCommands = s.heldCommands ∧
    u.crossReads = s.crossReads := by
  simp only [execRetransmitTimeout, Host.Outcome.next.injEq] at h
  subst h
  first | (simp; done) | ((try dsimp only); (repeat' split) <;> simp)

theorem execBarrierLaneFail_frame (d : Dir) (l : Nat) (s u : State) (h : execBarrierLaneFail d l s = .next u) :
    u.pending = s.pending ∧ u.variant = s.variant ∧ u.otp = s.otp ∧ u.masters.length = s.masters.length ∧
    u.cores.channels.length = s.cores.channels.length ∧ u.regs.debugLevel = s.regs.debugLevel ∧ u.store.cs = s.store.cs ∧
    u.store.csDev = s.store.csDev ∧ u.store.granules = s.store.granules ∧ u.pins = s.pins ∧ u.stream = s.stream ∧
    u.power = s.power ∧ u.loader = s.loader ∧ u.conservator = s.conservator ∧ u.egress = s.egress ∧ u.repair = s.repair ∧
    u.shadow = s.shadow ∧ u.inForce = s.inForce ∧ u.otpRequest = s.otpRequest ∧ u.heldCommands = s.heldCommands ∧
    u.crossReads = s.crossReads := by
  simp only [execBarrierLaneFail, Host.Outcome.next.injEq] at h
  subst h
  first | (simp; done) | ((try dsimp only); (repeat' split) <;> simp)

theorem execSpareReq_frame (d : Dir) (l : Nat) (s u : State) (h : execSpareReq d l s = .next u) :
    u.pending = s.pending ∧ u.variant = s.variant ∧ u.otp = s.otp ∧ u.masters.length = s.masters.length ∧
    u.cores.channels.length = s.cores.channels.length ∧ u.regs.debugLevel = s.regs.debugLevel ∧ u.store.cs = s.store.cs ∧
    u.store.csDev = s.store.csDev ∧ u.store.granules = s.store.granules ∧ u.pins = s.pins ∧ u.stream = s.stream ∧
    u.power = s.power ∧ u.conservator = s.conservator ∧ u.shadow = s.shadow ∧ u.inForce = s.inForce ∧
    u.otpRequest = s.otpRequest ∧ u.heldCommands = s.heldCommands ∧ u.crossReads = s.crossReads := by
  simp only [execSpareReq, Host.Outcome.next.injEq] at h
  subst h
  first | (simp; done) | ((try dsimp only); (repeat' split) <;> simp)

theorem execBarrierTrained_frame (d : Dir) (locked : BitVec 18) (s u : State) (h : execBarrierTrained d locked s = .next u) :
    u.pending = s.pending ∧ u.variant = s.variant ∧ u.otp = s.otp ∧ u.masters.length = s.masters.length ∧
    u.cores.channels.length = s.cores.channels.length ∧ u.regs.debugLevel = s.regs.debugLevel ∧ u.store.cs = s.store.cs ∧
    u.store.csDev = s.store.csDev ∧ u.store.granules = s.store.granules ∧ u.pins = s.pins ∧ u.stream = s.stream ∧
    u.power = s.power ∧ u.conservator = s.conservator ∧ u.shadow = s.shadow ∧ u.inForce = s.inForce ∧
    u.otpRequest = s.otpRequest ∧ u.heldCommands = s.heldCommands ∧ u.crossReads = s.crossReads := by
  simp only [execBarrierTrained, Host.Outcome.next.injEq] at h
  subst h
  first | (simp; done) | ((try dsimp only); (repeat' split) <;> simp)

theorem execCounterpartSilent_frame (side : Side) (s u : State) (h : execCounterpartSilent side s = .next u) :
    u.pending = s.pending ∧ u.variant = s.variant ∧ u.otp = s.otp ∧ u.masters.length = s.masters.length ∧
    u.cores.channels.length = s.cores.channels.length ∧ u.regs.debugLevel = s.regs.debugLevel ∧ u.store.cs = s.store.cs ∧
    u.store.csDev = s.store.csDev ∧ u.store.granules = s.store.granules ∧ u.pins = s.pins ∧ u.stream = s.stream ∧
    u.power = s.power ∧ u.conservator = s.conservator ∧ u.shadow = s.shadow ∧ u.inForce = s.inForce ∧
    u.otpRequest = s.otpRequest ∧ u.heldCommands = s.heldCommands ∧ u.crossReads = s.crossReads := by
  simp only [execCounterpartSilent, Host.Outcome.next.injEq] at h
  subst h
  first | (simp; done) | ((try dsimp only); (repeat' split) <;> simp)

theorem execDescriptorFetch_frame  (s u : State) (h : execDescriptorFetch s = .next u) :
    u.pending = s.pending ∧ u.variant = s.variant ∧ u.otp = s.otp ∧ u.masters.length = s.masters.length ∧
    u.cores.channels.length = s.cores.channels.length ∧ u.regs.debugLevel = s.regs.debugLevel ∧ u.pins = s.pins ∧
    u.power = s.power ∧ u.loader = s.loader ∧ u.conservator = s.conservator ∧ u.egress = s.egress ∧ u.repair = s.repair ∧
    u.shadow = s.shadow ∧ u.inForce = s.inForce ∧ u.otpRequest = s.otpRequest ∧ u.heldCommands = s.heldCommands ∧
    u.crossReads = s.crossReads := by
  simp only [execDescriptorFetch, Host.Outcome.next.injEq] at h
  subst h
  first | (simp; done) | ((try dsimp only); (repeat' split) <;> simp)

theorem execBatchIssue_frame (d : Docent) (s u : State) (h : execBatchIssue d s = .next u) :
    u.pending = s.pending ∧ u.variant = s.variant ∧ u.otp = s.otp ∧ u.masters.length = s.masters.length ∧
    u.cores.channels.length = s.cores.channels.length ∧ u.regs.debugLevel = s.regs.debugLevel ∧ u.store.cs = s.store.cs ∧
    u.store.csDev = s.store.csDev ∧ u.store.granules = s.store.granules ∧ u.pins = s.pins ∧ u.stream = s.stream ∧
    u.power = s.power ∧ u.loader = s.loader ∧ u.conservator = s.conservator ∧ u.egress = s.egress ∧ u.repair = s.repair ∧
    u.shadow = s.shadow ∧ u.inForce = s.inForce ∧ u.otpRequest = s.otpRequest ∧ u.heldCommands = s.heldCommands ∧
    u.crossReads = s.crossReads := by
  simp only [execBatchIssue, Host.Outcome.next.injEq] at h
  subst h
  first | (simp; done) | ((try dsimp only); (repeat' split) <;> simp)

theorem execStimRefill_frame  (s u : State) (h : execStimRefill s = .next u) :
    u.pending = s.pending ∧ u.variant = s.variant ∧ u.otp = s.otp ∧ u.masters.length = s.masters.length ∧
    u.cores.channels.length = s.cores.channels.length ∧ u.regs.debugLevel = s.regs.debugLevel ∧ u.pins = s.pins ∧
    u.stream = s.stream ∧ u.power = s.power ∧ u.loader = s.loader ∧ u.conservator = s.conservator ∧ u.egress = s.egress ∧
    u.repair = s.repair ∧ u.shadow = s.shadow ∧ u.inForce = s.inForce ∧ u.otpRequest = s.otpRequest ∧
    u.heldCommands = s.heldCommands ∧ u.crossReads = s.crossReads := by
  simp only [execStimRefill, Host.Outcome.next.injEq] at h
  subst h
  first | (simp; done) | ((try dsimp only); (repeat' split) <;> simp)

theorem execBurstBegin_frame  (s u : State) (h : execBurstBegin s = .next u) :
    u.pending = s.pending ∧ u.variant = s.variant ∧ u.otp = s.otp ∧ u.masters.length = s.masters.length ∧
    u.cores.channels.length = s.cores.channels.length ∧ u.regs.debugLevel = s.regs.debugLevel ∧ u.pins = s.pins ∧
    u.stream = s.stream ∧ u.loader = s.loader ∧ u.conservator = s.conservator ∧ u.egress = s.egress ∧ u.repair = s.repair ∧
    u.shadow = s.shadow ∧ u.inForce = s.inForce ∧ u.otpRequest = s.otpRequest ∧ u.heldCommands = s.heldCommands ∧
    u.crossReads = s.crossReads := by
  simp only [execBurstBegin, Host.Outcome.next.injEq] at h
  subst h
  first | (simp; done) | ((try dsimp only); (repeat' split) <;> simp)

theorem execValidClear_frame  (s u : State) (h : execValidClear s = .next u) :
    u.pending = s.pending ∧ u.variant = s.variant ∧ u.otp = s.otp ∧ u.masters.length = s.masters.length ∧
    u.cores.channels.length = s.cores.channels.length ∧ u.regs.debugLevel = s.regs.debugLevel ∧ u.store.cs = s.store.cs ∧
    u.store.csDev = s.store.csDev ∧ u.store.granules = s.store.granules ∧ u.pins = s.pins ∧ u.stream = s.stream ∧
    u.loader = s.loader ∧ u.conservator = s.conservator ∧ u.egress = s.egress ∧ u.repair = s.repair ∧ u.shadow = s.shadow ∧
    u.inForce = s.inForce ∧ u.otpRequest = s.otpRequest ∧ u.heldCommands = s.heldCommands ∧ u.crossReads = s.crossReads := by
  simp only [execValidClear, Host.Outcome.next.injEq] at h
  subst h
  first | (simp; done) | ((try dsimp only); (repeat' split) <;> simp)

theorem execPassBegin_frame  (s u : State) (h : execPassBegin s = .next u) :
    u.pending = s.pending ∧ u.variant = s.variant ∧ u.otp = s.otp ∧ u.masters.length = s.masters.length ∧
    u.cores.channels.length = s.cores.channels.length ∧ u.regs.debugLevel = s.regs.debugLevel ∧ u.store.cs = s.store.cs ∧
    u.store.csDev = s.store.csDev ∧ u.store.granules = s.store.granules ∧ u.pins = s.pins ∧ u.stream = s.stream ∧
    u.power = s.power ∧ u.loader = s.loader ∧ u.conservator = s.conservator ∧ u.egress = s.egress ∧ u.repair = s.repair ∧
    u.shadow = s.shadow ∧ u.inForce = s.inForce ∧ u.otpRequest = s.otpRequest ∧ u.heldCommands = s.heldCommands ∧
    u.crossReads = s.crossReads := by
  simp only [execPassBegin, Host.Outcome.next.injEq] at h
  subst h
  first | (simp; done) | ((try dsimp only); (repeat' split) <;> simp)

theorem execNop_frame (g bp i : Nat) (s u : State) (h : execNop g bp i s = .next u) :
    u.pending = s.pending ∧ u.variant = s.variant ∧ u.otp = s.otp ∧ u.masters.length = s.masters.length ∧
    u.cores.channels.length = s.cores.channels.length ∧ u.regs.debugLevel = s.regs.debugLevel ∧ u.store.cs = s.store.cs ∧
    u.store.csDev = s.store.csDev ∧ u.store.granules = s.store.granules ∧ u.pins = s.pins ∧ u.stream = s.stream ∧
    u.power = s.power ∧ u.loader = s.loader ∧ u.conservator = s.conservator ∧ u.egress = s.egress ∧ u.repair = s.repair ∧
    u.shadow = s.shadow ∧ u.inForce = s.inForce ∧ u.otpRequest = s.otpRequest ∧ u.heldCommands = s.heldCommands ∧
    u.crossReads = s.crossReads := by
  simp only [execNop, Host.Outcome.next.injEq] at h
  subst h
  first | (simp; done) | ((try dsimp only); (repeat' split) <;> simp)

theorem execEval_frame (g bp i : Nat) (s u : State) (h : execEval g bp i s = .next u) :
    u.pending = s.pending ∧ u.variant = s.variant ∧ u.otp = s.otp ∧ u.masters.length = s.masters.length ∧
    u.cores.channels.length = s.cores.channels.length ∧ u.regs.debugLevel = s.regs.debugLevel ∧ u.store.cs = s.store.cs ∧
    u.store.csDev = s.store.csDev ∧ u.store.granules = s.store.granules ∧ u.pins = s.pins ∧ u.stream = s.stream ∧
    u.power = s.power ∧ u.loader = s.loader ∧ u.conservator = s.conservator ∧ u.egress = s.egress ∧ u.repair = s.repair ∧
    u.shadow = s.shadow ∧ u.inForce = s.inForce ∧ u.otpRequest = s.otpRequest ∧ u.heldCommands = s.heldCommands ∧
    u.crossReads = s.crossReads := by
  simp only [execEval, Host.Outcome.next.injEq] at h
  subst h
  first | (simp; done) | ((try dsimp only); (repeat' split) <;> simp)

theorem execEvalExport_frame (g bp i : Nat) (s u : State) (h : execEvalExport g bp i s = .next u) :
    u.pending = s.pending ∧ u.variant = s.variant ∧ u.otp = s.otp ∧ u.masters.length = s.masters.length ∧
    u.cores.channels.length = s.cores.channels.length ∧ u.regs.debugLevel = s.regs.debugLevel ∧ u.store.cs = s.store.cs ∧
    u.store.csDev = s.store.csDev ∧ u.store.granules = s.store.granules ∧ u.pins = s.pins ∧ u.stream = s.stream ∧
    u.power = s.power ∧ u.loader = s.loader ∧ u.conservator = s.conservator ∧ u.egress = s.egress ∧ u.repair = s.repair ∧
    u.shadow = s.shadow ∧ u.inForce = s.inForce ∧ u.otpRequest = s.otpRequest ∧ u.heldCommands = s.heldCommands ∧
    u.crossReads = s.crossReads := by
  simp only [execEvalExport, Host.Outcome.next.injEq] at h
  subst h
  first | (simp; done) | ((try dsimp only); (repeat' split) <;> simp)

theorem execEvalCommit_frame (g bp i : Nat) (s u : State) (h : execEvalCommit g bp i s = .next u) :
    u.pending = s.pending ∧ u.variant = s.variant ∧ u.otp = s.otp ∧ u.masters.length = s.masters.length ∧
    u.cores.channels.length = s.cores.channels.length ∧ u.regs.debugLevel = s.regs.debugLevel ∧ u.store.cs = s.store.cs ∧
    u.store.csDev = s.store.csDev ∧ u.store.granules = s.store.granules ∧ u.pins = s.pins ∧ u.stream = s.stream ∧
    u.power = s.power ∧ u.loader = s.loader ∧ u.conservator = s.conservator ∧ u.egress = s.egress ∧ u.repair = s.repair ∧
    u.shadow = s.shadow ∧ u.inForce = s.inForce ∧ u.otpRequest = s.otpRequest ∧ u.heldCommands = s.heldCommands ∧
    u.crossReads = s.crossReads := by
  simp only [execEvalCommit, Host.Outcome.next.injEq] at h
  subst h
  first | (simp; done) | ((try dsimp only); (repeat' split) <;> simp)

theorem execEvalCommitExport_frame (g bp i : Nat) (s u : State) (h : execEvalCommitExport g bp i s = .next u) :
    u.pending = s.pending ∧ u.variant = s.variant ∧ u.otp = s.otp ∧ u.masters.length = s.masters.length ∧
    u.cores.channels.length = s.cores.channels.length ∧ u.regs.debugLevel = s.regs.debugLevel ∧ u.store.cs = s.store.cs ∧
    u.store.csDev = s.store.csDev ∧ u.store.granules = s.store.granules ∧ u.pins = s.pins ∧ u.stream = s.stream ∧
    u.power = s.power ∧ u.loader = s.loader ∧ u.conservator = s.conservator ∧ u.egress = s.egress ∧ u.repair = s.repair ∧
    u.shadow = s.shadow ∧ u.inForce = s.inForce ∧ u.otpRequest = s.otpRequest ∧ u.heldCommands = s.heldCommands ∧
    u.crossReads = s.crossReads := by
  simp only [execEvalCommitExport, Host.Outcome.next.injEq] at h
  subst h
  first | (simp; done) | ((try dsimp only); (repeat' split) <;> simp)

theorem execSend_frame (g bp i : Nat) (s u : State) (h : execSend g bp i s = .next u) :
    u.pending = s.pending ∧ u.variant = s.variant ∧ u.otp = s.otp ∧ u.masters.length = s.masters.length ∧
    u.cores.channels.length = s.cores.channels.length ∧ u.regs.debugLevel = s.regs.debugLevel ∧ u.store.cs = s.store.cs ∧
    u.store.csDev = s.store.csDev ∧ u.store.granules = s.store.granules ∧ u.pins = s.pins ∧ u.stream = s.stream ∧
    u.power = s.power ∧ u.loader = s.loader ∧ u.conservator = s.conservator ∧ u.egress = s.egress ∧ u.repair = s.repair ∧
    u.shadow = s.shadow ∧ u.inForce = s.inForce ∧ u.otpRequest = s.otpRequest ∧ u.heldCommands = s.heldCommands ∧
    u.crossReads = s.crossReads := by
  simp only [execSend, Host.Outcome.next.injEq] at h
  subst h
  first | (simp; done) | ((try dsimp only); (repeat' split) <;> simp)

theorem execMeshSend_frame (g bp i : Nat) (s u : State) (h : execMeshSend g bp i s = .next u) :
    u.pending = s.pending ∧ u.variant = s.variant ∧ u.otp = s.otp ∧ u.masters.length = s.masters.length ∧
    u.cores.channels.length = s.cores.channels.length ∧ u.regs.debugLevel = s.regs.debugLevel ∧ u.store.cs = s.store.cs ∧
    u.store.csDev = s.store.csDev ∧ u.store.granules = s.store.granules ∧ u.pins = s.pins ∧ u.stream = s.stream ∧
    u.power = s.power ∧ u.loader = s.loader ∧ u.conservator = s.conservator ∧ u.egress = s.egress ∧ u.repair = s.repair ∧
    u.shadow = s.shadow ∧ u.inForce = s.inForce ∧ u.otpRequest = s.otpRequest ∧ u.heldCommands = s.heldCommands ∧
    u.crossReads = s.crossReads := by
  simp only [execMeshSend, Host.Outcome.next.injEq] at h
  subst h
  first | (simp; done) | ((try dsimp only); (repeat' split) <;> simp)

theorem execStim_frame (g bp i : Nat) (s u : State) (h : execStim g bp i s = .next u) :
    u.pending = s.pending ∧ u.variant = s.variant ∧ u.otp = s.otp ∧ u.masters.length = s.masters.length ∧
    u.cores.channels.length = s.cores.channels.length ∧ u.regs.debugLevel = s.regs.debugLevel ∧ u.store.cs = s.store.cs ∧
    u.store.csDev = s.store.csDev ∧ u.store.granules = s.store.granules ∧ u.pins = s.pins ∧ u.stream = s.stream ∧
    u.power = s.power ∧ u.loader = s.loader ∧ u.conservator = s.conservator ∧ u.egress = s.egress ∧ u.repair = s.repair ∧
    u.shadow = s.shadow ∧ u.inForce = s.inForce ∧ u.otpRequest = s.otpRequest ∧ u.heldCommands = s.heldCommands ∧
    u.crossReads = s.crossReads := by
  simp only [execStim, Host.Outcome.next.injEq] at h
  subst h
  first | (simp; done) | ((try dsimp only); (repeat' split) <;> simp)

theorem execEval3_frame (g bp i : Nat) (s u : State) (h : execEval3 g bp i s = .next u) :
    u.pending = s.pending ∧ u.variant = s.variant ∧ u.otp = s.otp ∧ u.masters.length = s.masters.length ∧
    u.cores.channels.length = s.cores.channels.length ∧ u.regs.debugLevel = s.regs.debugLevel ∧ u.store.cs = s.store.cs ∧
    u.store.csDev = s.store.csDev ∧ u.store.granules = s.store.granules ∧ u.pins = s.pins ∧ u.stream = s.stream ∧
    u.power = s.power ∧ u.loader = s.loader ∧ u.conservator = s.conservator ∧ u.egress = s.egress ∧ u.repair = s.repair ∧
    u.shadow = s.shadow ∧ u.inForce = s.inForce ∧ u.otpRequest = s.otpRequest ∧ u.heldCommands = s.heldCommands ∧
    u.crossReads = s.crossReads := by
  simp only [execEval3, Host.Outcome.next.injEq] at h
  subst h
  first | (simp; done) | ((try dsimp only); (repeat' split) <;> simp)

theorem execEval3Commit_frame (g bp i : Nat) (s u : State) (h : execEval3Commit g bp i s = .next u) :
    u.pending = s.pending ∧ u.variant = s.variant ∧ u.otp = s.otp ∧ u.masters.length = s.masters.length ∧
    u.cores.channels.length = s.cores.channels.length ∧ u.regs.debugLevel = s.regs.debugLevel ∧ u.store.cs = s.store.cs ∧
    u.store.csDev = s.store.csDev ∧ u.store.granules = s.store.granules ∧ u.pins = s.pins ∧ u.stream = s.stream ∧
    u.power = s.power ∧ u.loader = s.loader ∧ u.conservator = s.conservator ∧ u.egress = s.egress ∧ u.repair = s.repair ∧
    u.shadow = s.shadow ∧ u.inForce = s.inForce ∧ u.otpRequest = s.otpRequest ∧ u.heldCommands = s.heldCommands ∧
    u.crossReads = s.crossReads := by
  simp only [execEval3Commit, Host.Outcome.next.injEq] at h
  subst h
  first | (simp; done) | ((try dsimp only); (repeat' split) <;> simp)

theorem execEndOp_frame (g bp i : Nat) (s u : State) (h : execEndOp g bp i s = .next u) :
    u.pending = s.pending ∧ u.variant = s.variant ∧ u.otp = s.otp ∧ u.masters.length = s.masters.length ∧
    u.cores.channels.length = s.cores.channels.length ∧ u.regs.debugLevel = s.regs.debugLevel ∧ u.store.cs = s.store.cs ∧
    u.store.csDev = s.store.csDev ∧ u.store.granules = s.store.granules ∧ u.pins = s.pins ∧ u.stream = s.stream ∧
    u.power = s.power ∧ u.loader = s.loader ∧ u.conservator = s.conservator ∧ u.egress = s.egress ∧ u.repair = s.repair ∧
    u.shadow = s.shadow ∧ u.inForce = s.inForce ∧ u.otpRequest = s.otpRequest ∧ u.heldCommands = s.heldCommands ∧
    u.crossReads = s.crossReads := by
  simp only [execEndOp, Host.Outcome.next.injEq] at h
  subst h
  first | (simp; done) | ((try dsimp only); (repeat' split) <;> simp)

theorem execIllegalInstruction_frame (g bp i : Nat) (s u : State) (h : execIllegalInstruction g bp i s = .next u) :
    u.pending = s.pending ∧ u.variant = s.variant ∧ u.otp = s.otp ∧ u.masters.length = s.masters.length ∧
    u.cores.channels.length = s.cores.channels.length ∧ u.regs.debugLevel = s.regs.debugLevel ∧ u.store.cs = s.store.cs ∧
    u.store.csDev = s.store.csDev ∧ u.store.granules = s.store.granules ∧ u.pins = s.pins ∧ u.stream = s.stream ∧
    u.power = s.power ∧ u.loader = s.loader ∧ u.conservator = s.conservator ∧ u.egress = s.egress ∧ u.repair = s.repair ∧
    u.shadow = s.shadow ∧ u.inForce = s.inForce ∧ u.otpRequest = s.otpRequest ∧ u.heldCommands = s.heldCommands ∧
    u.crossReads = s.crossReads := by
  simp only [execIllegalInstruction, Host.Outcome.next.injEq] at h
  subst h
  first | (simp; done) | ((try dsimp only); (repeat' split) <;> simp)

theorem execPoisonedFetch_frame (g bp i : Nat) (s u : State) (h : execPoisonedFetch g bp i s = .next u) :
    u.pending = s.pending ∧ u.variant = s.variant ∧ u.otp = s.otp ∧ u.masters.length = s.masters.length ∧
    u.cores.channels.length = s.cores.channels.length ∧ u.regs.debugLevel = s.regs.debugLevel ∧ u.store.cs = s.store.cs ∧
    u.store.csDev = s.store.csDev ∧ u.store.granules = s.store.granules ∧ u.pins = s.pins ∧ u.stream = s.stream ∧
    u.power = s.power ∧ u.loader = s.loader ∧ u.conservator = s.conservator ∧ u.egress = s.egress ∧ u.repair = s.repair ∧
    u.shadow = s.shadow ∧ u.inForce = s.inForce ∧ u.otpRequest = s.otpRequest ∧ u.heldCommands = s.heldCommands ∧
    u.crossReads = s.crossReads := by
  simp only [execPoisonedFetch, Host.Outcome.next.injEq] at h
  subst h
  first | (simp; done) | ((try dsimp only); (repeat' split) <;> simp)

theorem execBoulevardDelivery_frame (j : Nat) (s u : State) (h : execBoulevardDelivery j s = .next u) :
    u.pending = s.pending ∧ u.variant = s.variant ∧ u.otp = s.otp ∧ u.masters.length = s.masters.length ∧
    u.cores.channels.length = s.cores.channels.length ∧ u.regs.debugLevel = s.regs.debugLevel ∧ u.store.cs = s.store.cs ∧
    u.store.csDev = s.store.csDev ∧ u.store.granules = s.store.granules ∧ u.pins = s.pins ∧ u.stream = s.stream ∧
    u.power = s.power ∧ u.loader = s.loader ∧ u.conservator = s.conservator ∧ u.egress = s.egress ∧ u.repair = s.repair ∧
    u.shadow = s.shadow ∧ u.inForce = s.inForce ∧ u.otpRequest = s.otpRequest ∧ u.heldCommands = s.heldCommands ∧
    u.crossReads = s.crossReads := by
  simp only [execBoulevardDelivery, Host.Outcome.next.injEq] at h
  subst h
  first | (simp; done) | ((try dsimp only); (repeat' split) <;> simp)

theorem execPassTail_frame  (s u : State) (h : execPassTail s = .next u) :
    u.pending = s.pending ∧ u.variant = s.variant ∧ u.otp = s.otp ∧ u.masters.length = s.masters.length ∧
    u.cores.channels.length = s.cores.channels.length ∧ u.regs.debugLevel = s.regs.debugLevel ∧ u.store.cs = s.store.cs ∧
    u.store.csDev = s.store.csDev ∧ u.store.granules = s.store.granules ∧ u.pins = s.pins ∧ u.stream = s.stream ∧
    u.loader = s.loader ∧ u.conservator = s.conservator ∧ u.egress = s.egress ∧ u.repair = s.repair ∧ u.shadow = s.shadow ∧
    u.inForce = s.inForce ∧ u.otpRequest = s.otpRequest ∧ u.heldCommands = s.heldCommands ∧ u.crossReads = s.crossReads := by
  simp only [execPassTail, Host.Outcome.next.injEq] at h
  subst h
  first | (simp; done) | ((try dsimp only); (repeat' split) <;> simp)

theorem execPassTokenReceive_frame (l : MLink) (b : Block) (s u : State) (h : execPassTokenReceive l b s = .next u) :
    u.pending = s.pending ∧ u.variant = s.variant ∧ u.otp = s.otp ∧ u.masters.length = s.masters.length ∧
    u.cores.channels.length = s.cores.channels.length ∧ u.regs.debugLevel = s.regs.debugLevel ∧ u.store.cs = s.store.cs ∧
    u.store.csDev = s.store.csDev ∧ u.store.granules = s.store.granules ∧ u.pins = s.pins ∧ u.stream = s.stream ∧
    u.power = s.power ∧ u.loader = s.loader ∧ u.conservator = s.conservator ∧ u.egress = s.egress ∧ u.repair = s.repair ∧
    u.shadow = s.shadow ∧ u.inForce = s.inForce ∧ u.otpRequest = s.otpRequest ∧ u.heldCommands = s.heldCommands ∧
    u.crossReads = s.crossReads := by
  simp only [execPassTokenReceive, Host.Outcome.next.injEq] at h
  subst h
  first | (simp; done) | ((try dsimp only); (repeat' split) <;> simp)

theorem execTokenResend_frame  (s u : State) (h : execTokenResend s = .next u) :
    u.pending = s.pending ∧ u.variant = s.variant ∧ u.otp = s.otp ∧ u.masters.length = s.masters.length ∧
    u.cores.channels.length = s.cores.channels.length ∧ u.regs.debugLevel = s.regs.debugLevel ∧ u.store.cs = s.store.cs ∧
    u.store.csDev = s.store.csDev ∧ u.store.granules = s.store.granules ∧ u.pins = s.pins ∧ u.stream = s.stream ∧
    u.power = s.power ∧ u.loader = s.loader ∧ u.conservator = s.conservator ∧ u.egress = s.egress ∧ u.repair = s.repair ∧
    u.shadow = s.shadow ∧ u.inForce = s.inForce ∧ u.otpRequest = s.otpRequest ∧ u.heldCommands = s.heldCommands ∧
    u.crossReads = s.crossReads := by
  simp only [execTokenResend, Host.Outcome.next.injEq] at h
  subst h
  first | (simp; done) | ((try dsimp only); (repeat' split) <;> simp)

theorem execMeshBlockReceive_frame (l : MLink) (b : Block) (wordsOk : Bool) (s u : State) (h : execMeshBlockReceive l b wordsOk s = .next u) :
    u.pending = s.pending ∧ u.variant = s.variant ∧ u.otp = s.otp ∧ u.masters.length = s.masters.length ∧
    u.cores.channels.length = s.cores.channels.length ∧ u.regs.debugLevel = s.regs.debugLevel ∧ u.store.cs = s.store.cs ∧
    u.store.csDev = s.store.csDev ∧ u.store.granules = s.store.granules ∧ u.pins = s.pins ∧ u.stream = s.stream ∧
    u.power = s.power ∧ u.loader = s.loader ∧ u.conservator = s.conservator ∧ u.egress = s.egress ∧ u.repair = s.repair ∧
    u.shadow = s.shadow ∧ u.inForce = s.inForce ∧ u.otpRequest = s.otpRequest ∧ u.heldCommands = s.heldCommands ∧
    u.crossReads = s.crossReads := by
  simp only [execMeshBlockReceive, Host.Outcome.next.injEq] at h
  subst h
  first | (simp; done) | ((try dsimp only); (repeat' split) <;> simp)

theorem execMeshHold_frame (j : Nat) (s u : State) (h : execMeshHold j s = .next u) :
    u.pending = s.pending ∧ u.variant = s.variant ∧ u.otp = s.otp ∧ u.masters.length = s.masters.length ∧
    u.cores.channels.length = s.cores.channels.length ∧ u.regs.debugLevel = s.regs.debugLevel ∧ u.store.cs = s.store.cs ∧
    u.store.csDev = s.store.csDev ∧ u.store.granules = s.store.granules ∧ u.pins = s.pins ∧ u.stream = s.stream ∧
    u.power = s.power ∧ u.loader = s.loader ∧ u.conservator = s.conservator ∧ u.egress = s.egress ∧ u.repair = s.repair ∧
    u.shadow = s.shadow ∧ u.inForce = s.inForce ∧ u.otpRequest = s.otpRequest ∧ u.heldCommands = s.heldCommands ∧
    u.crossReads = s.crossReads := by
  simp only [execMeshHold, Host.Outcome.next.injEq] at h
  subst h
  first | (simp; done) | ((try dsimp only); (repeat' split) <;> simp)

theorem execMeshTimeout_frame  (s u : State) (h : execMeshTimeout s = .next u) :
    u.pending = s.pending ∧ u.variant = s.variant ∧ u.otp = s.otp ∧ u.masters.length = s.masters.length ∧
    u.cores.channels.length = s.cores.channels.length ∧ u.regs.debugLevel = s.regs.debugLevel ∧ u.store.cs = s.store.cs ∧
    u.store.csDev = s.store.csDev ∧ u.store.granules = s.store.granules ∧ u.pins = s.pins ∧ u.stream = s.stream ∧
    u.loader = s.loader ∧ u.conservator = s.conservator ∧ u.egress = s.egress ∧ u.repair = s.repair ∧ u.shadow = s.shadow ∧
    u.inForce = s.inForce ∧ u.otpRequest = s.otpRequest ∧ u.heldCommands = s.heldCommands ∧ u.crossReads = s.crossReads := by
  simp only [execMeshTimeout, Host.Outcome.next.injEq] at h
  subst h
  first | (simp; done) | ((try dsimp only); (repeat' split) <;> simp)

theorem execEgressBegin_frame  (s u : State) (h : execEgressBegin s = .next u) :
    u.pending = s.pending ∧ u.variant = s.variant ∧ u.otp = s.otp ∧ u.masters.length = s.masters.length ∧
    u.cores.channels.length = s.cores.channels.length ∧ u.regs.debugLevel = s.regs.debugLevel ∧ u.store.cs = s.store.cs ∧
    u.store.csDev = s.store.csDev ∧ u.store.granules = s.store.granules ∧ u.pins = s.pins ∧ u.stream = s.stream ∧
    u.power = s.power ∧ u.loader = s.loader ∧ u.shadow = s.shadow ∧ u.inForce = s.inForce ∧ u.otpRequest = s.otpRequest ∧
    u.heldCommands = s.heldCommands ∧ u.crossReads = s.crossReads := by
  simp only [execEgressBegin, Host.Outcome.next.injEq] at h
  subst h
  first | (simp; done) | ((try dsimp only); (repeat' split) <;> simp)

theorem execFlushLoad_frame  (s u : State) (h : execFlushLoad s = .next u) :
    u.pending = s.pending ∧ u.variant = s.variant ∧ u.otp = s.otp ∧ u.masters.length = s.masters.length ∧
    u.cores.channels.length = s.cores.channels.length ∧ u.regs.debugLevel = s.regs.debugLevel ∧ u.store.cs = s.store.cs ∧
    u.store.csDev = s.store.csDev ∧ u.store.granules = s.store.granules ∧ u.pins = s.pins ∧ u.stream = s.stream ∧
    u.power = s.power ∧ u.loader = s.loader ∧ u.conservator = s.conservator ∧ u.repair = s.repair ∧ u.shadow = s.shadow ∧
    u.inForce = s.inForce ∧ u.otpRequest = s.otpRequest ∧ u.heldCommands = s.heldCommands ∧ u.crossReads = s.crossReads := by
  simp only [execFlushLoad, Host.Outcome.next.injEq] at h
  subst h
  first | (simp; done) | ((try dsimp only); (repeat' split) <;> simp)

theorem execRowRead_frame  (s u : State) (h : execRowRead s = .next u) :
    u.pending = s.pending ∧ u.variant = s.variant ∧ u.otp = s.otp ∧ u.masters.length = s.masters.length ∧
    u.cores.channels.length = s.cores.channels.length ∧ u.regs.debugLevel = s.regs.debugLevel ∧ u.pins = s.pins ∧
    u.stream = s.stream ∧ u.power = s.power ∧ u.loader = s.loader ∧ u.conservator = s.conservator ∧ u.egress = s.egress ∧
    u.repair = s.repair ∧ u.shadow = s.shadow ∧ u.inForce = s.inForce ∧ u.otpRequest = s.otpRequest ∧
    u.heldCommands = s.heldCommands ∧ u.crossReads = s.crossReads := by
  simp only [execRowRead, Host.Outcome.next.injEq] at h
  subst h
  first | (simp; done) | ((try dsimp only); (repeat' split) <;> simp)

theorem execDelivery_frame  (s u : State) (h : execDelivery s = .next u) :
    u.pending = s.pending ∧ u.variant = s.variant ∧ u.otp = s.otp ∧ u.masters.length = s.masters.length ∧
    u.cores.channels.length = s.cores.channels.length ∧ u.regs.debugLevel = s.regs.debugLevel ∧ u.store.cs = s.store.cs ∧
    u.store.csDev = s.store.csDev ∧ u.store.granules = s.store.granules ∧ u.pins = s.pins ∧ u.stream = s.stream ∧
    u.power = s.power ∧ u.loader = s.loader ∧ u.conservator = s.conservator ∧ u.egress = s.egress ∧ u.repair = s.repair ∧
    u.shadow = s.shadow ∧ u.inForce = s.inForce ∧ u.otpRequest = s.otpRequest ∧ u.heldCommands = s.heldCommands ∧
    u.crossReads = s.crossReads := by
  simp only [execDelivery, Host.Outcome.next.injEq] at h
  subst h
  first | (simp; done) | ((try dsimp only); (repeat' split) <;> simp)

theorem execBankRelease_frame  (s u : State) (h : execBankRelease s = .next u) :
    u.pending = s.pending ∧ u.variant = s.variant ∧ u.otp = s.otp ∧ u.masters.length = s.masters.length ∧
    u.cores.channels.length = s.cores.channels.length ∧ u.regs.debugLevel = s.regs.debugLevel ∧ u.store.cs = s.store.cs ∧
    u.store.csDev = s.store.csDev ∧ u.store.granules = s.store.granules ∧ u.pins = s.pins ∧ u.stream = s.stream ∧
    u.power = s.power ∧ u.loader = s.loader ∧ u.conservator = s.conservator ∧ u.egress = s.egress ∧ u.repair = s.repair ∧
    u.shadow = s.shadow ∧ u.inForce = s.inForce ∧ u.otpRequest = s.otpRequest ∧ u.heldCommands = s.heldCommands ∧
    u.crossReads = s.crossReads := by
  simp only [execBankRelease, Host.Outcome.next.injEq] at h
  subst h
  first | (simp; done) | ((try dsimp only); (repeat' split) <;> simp)

theorem execDocentStop_frame (d : Docent) (s u : State) (h : execDocentStop d s = .next u) :
    u.pending = s.pending ∧ u.variant = s.variant ∧ u.otp = s.otp ∧ u.masters.length = s.masters.length ∧
    u.cores.channels.length = s.cores.channels.length ∧ u.regs.debugLevel = s.regs.debugLevel ∧ u.store.cs = s.store.cs ∧
    u.store.csDev = s.store.csDev ∧ u.store.granules = s.store.granules ∧ u.pins = s.pins ∧ u.stream = s.stream ∧
    u.power = s.power ∧ u.loader = s.loader ∧ u.conservator = s.conservator ∧ u.repair = s.repair ∧ u.shadow = s.shadow ∧
    u.inForce = s.inForce ∧ u.otpRequest = s.otpRequest ∧ u.heldCommands = s.heldCommands ∧ u.crossReads = s.crossReads := by
  simp only [execDocentStop, Host.Outcome.next.injEq] at h
  subst h
  first | (simp; done) | ((try dsimp only); (repeat' split) <;> simp)

theorem execDocentResume_frame  (s u : State) (h : execDocentResume s = .next u) :
    u.pending = s.pending ∧ u.variant = s.variant ∧ u.otp = s.otp ∧ u.masters.length = s.masters.length ∧
    u.cores.channels.length = s.cores.channels.length ∧ u.regs.debugLevel = s.regs.debugLevel ∧ u.store.cs = s.store.cs ∧
    u.store.csDev = s.store.csDev ∧ u.store.granules = s.store.granules ∧ u.pins = s.pins ∧ u.stream = s.stream ∧
    u.power = s.power ∧ u.loader = s.loader ∧ u.conservator = s.conservator ∧ u.repair = s.repair ∧ u.shadow = s.shadow ∧
    u.inForce = s.inForce ∧ u.otpRequest = s.otpRequest ∧ u.heldCommands = s.heldCommands ∧ u.crossReads = s.crossReads := by
  simp only [execDocentResume, Host.Outcome.next.injEq] at h
  subst h
  first | (simp; done) | ((try dsimp only); (repeat' split) <;> simp)

theorem execSiteStrobe_frame (site : Nat) (s u : State) (h : execSiteStrobe site s = .next u) :
    u.pending = s.pending ∧ u.variant = s.variant ∧ u.otp = s.otp ∧ u.masters.length = s.masters.length ∧
    u.cores.channels.length = s.cores.channels.length ∧ u.regs.debugLevel = s.regs.debugLevel ∧ u.store.cs = s.store.cs ∧
    u.store.csDev = s.store.csDev ∧ u.store.granules = s.store.granules ∧ u.pins = s.pins ∧ u.stream = s.stream ∧
    u.power = s.power ∧ u.loader = s.loader ∧ u.conservator = s.conservator ∧ u.egress = s.egress ∧ u.shadow = s.shadow ∧
    u.inForce = s.inForce ∧ u.otpRequest = s.otpRequest ∧ u.heldCommands = s.heldCommands ∧ u.crossReads = s.crossReads := by
  simp only [execSiteStrobe, Host.Outcome.next.injEq] at h
  subst h
  first | (simp; done) | ((try dsimp only); (repeat' split) <;> simp)

theorem execBitFailProcess_frame  (s u : State) (h : execBitFailProcess s = .next u) :
    u.pending = s.pending ∧ u.variant = s.variant ∧ u.otp = s.otp ∧ u.masters.length = s.masters.length ∧
    u.cores.channels.length = s.cores.channels.length ∧ u.regs.debugLevel = s.regs.debugLevel ∧ u.store.cs = s.store.cs ∧
    u.store.csDev = s.store.csDev ∧ u.store.granules = s.store.granules ∧ u.pins = s.pins ∧ u.stream = s.stream ∧
    u.power = s.power ∧ u.loader = s.loader ∧ u.conservator = s.conservator ∧ u.egress = s.egress ∧ u.shadow = s.shadow ∧
    u.inForce = s.inForce ∧ u.otpRequest = s.otpRequest ∧ u.heldCommands = s.heldCommands ∧ u.crossReads = s.crossReads := by
  simp only [execBitFailProcess, Host.Outcome.next.injEq] at h
  subst h
  first | (simp; done) | ((try dsimp only); (repeat' split) <;> simp)

theorem execBlockMemoryWrite_frame (b : Nat) (s u : State) (h : execBlockMemoryWrite b s = .next u) :
    u.pending = s.pending ∧ u.variant = s.variant ∧ u.otp = s.otp ∧ u.masters.length = s.masters.length ∧
    u.cores.channels.length = s.cores.channels.length ∧ u.regs.debugLevel = s.regs.debugLevel ∧ u.store.cs = s.store.cs ∧
    u.store.csDev = s.store.csDev ∧ u.store.granules = s.store.granules ∧ u.pins = s.pins ∧ u.stream = s.stream ∧
    u.power = s.power ∧ u.loader = s.loader ∧ u.conservator = s.conservator ∧ u.egress = s.egress ∧ u.repair = s.repair ∧
    u.shadow = s.shadow ∧ u.inForce = s.inForce ∧ u.otpRequest = s.otpRequest ∧ u.heldCommands = s.heldCommands ∧
    u.crossReads = s.crossReads := by
  simp only [execBlockMemoryWrite, Host.Outcome.next.injEq] at h
  subst h
  first | (simp; done) | ((try dsimp only); (repeat' split) <;> simp)

theorem execVaultWrite_frame (v : Nat) (s u : State) (h : execVaultWrite v s = .next u) :
    u.pending = s.pending ∧ u.variant = s.variant ∧ u.otp = s.otp ∧ u.masters.length = s.masters.length ∧
    u.cores.channels.length = s.cores.channels.length ∧ u.regs.debugLevel = s.regs.debugLevel ∧ u.store.cs = s.store.cs ∧
    u.store.csDev = s.store.csDev ∧ u.store.granules = s.store.granules ∧ u.pins = s.pins ∧ u.stream = s.stream ∧
    u.power = s.power ∧ u.loader = s.loader ∧ u.conservator = s.conservator ∧ u.egress = s.egress ∧ u.repair = s.repair ∧
    u.shadow = s.shadow ∧ u.inForce = s.inForce ∧ u.otpRequest = s.otpRequest ∧ u.heldCommands = s.heldCommands ∧
    u.crossReads = s.crossReads := by
  simp only [execVaultWrite, Host.Outcome.next.injEq] at h
  subst h
  first | (simp; done) | ((try dsimp only); (repeat' split) <;> simp)

theorem execVaultRead_frame (v : Nat) (s u : State) (h : execVaultRead v s = .next u) :
    u.pending = s.pending ∧ u.variant = s.variant ∧ u.otp = s.otp ∧ u.masters.length = s.masters.length ∧
    u.cores.channels.length = s.cores.channels.length ∧ u.regs.debugLevel = s.regs.debugLevel ∧ u.store.cs = s.store.cs ∧
    u.store.csDev = s.store.csDev ∧ u.store.granules = s.store.granules ∧ u.pins = s.pins ∧ u.stream = s.stream ∧
    u.power = s.power ∧ u.loader = s.loader ∧ u.conservator = s.conservator ∧ u.egress = s.egress ∧ u.repair = s.repair ∧
    u.shadow = s.shadow ∧ u.inForce = s.inForce ∧ u.otpRequest = s.otpRequest ∧ u.heldCommands = s.heldCommands ∧
    u.crossReads = s.crossReads := by
  simp only [execVaultRead, Host.Outcome.next.injEq] at h
  subst h
  first | (simp; done) | ((try dsimp only); (repeat' split) <;> simp)

theorem execVaultPush_frame (v : Nat) (s u : State) (h : execVaultPush v s = .next u) :
    u.pending = s.pending ∧ u.variant = s.variant ∧ u.otp = s.otp ∧ u.masters.length = s.masters.length ∧
    u.cores.channels.length = s.cores.channels.length ∧ u.regs.debugLevel = s.regs.debugLevel ∧ u.store.cs = s.store.cs ∧
    u.store.csDev = s.store.csDev ∧ u.store.granules = s.store.granules ∧ u.pins = s.pins ∧ u.stream = s.stream ∧
    u.power = s.power ∧ u.loader = s.loader ∧ u.conservator = s.conservator ∧ u.egress = s.egress ∧ u.repair = s.repair ∧
    u.shadow = s.shadow ∧ u.inForce = s.inForce ∧ u.otpRequest = s.otpRequest ∧ u.heldCommands = s.heldCommands ∧
    u.crossReads = s.crossReads := by
  simp only [execVaultPush, Host.Outcome.next.injEq] at h
  subst h
  first | (simp; done) | ((try dsimp only); (repeat' split) <;> simp)

theorem execVaultPop_frame (v : Nat) (s u : State) (h : execVaultPop v s = .next u) :
    u.pending = s.pending ∧ u.variant = s.variant ∧ u.otp = s.otp ∧ u.masters.length = s.masters.length ∧
    u.cores.channels.length = s.cores.channels.length ∧ u.regs.debugLevel = s.regs.debugLevel ∧ u.store.cs = s.store.cs ∧
    u.store.csDev = s.store.csDev ∧ u.store.granules = s.store.granules ∧ u.pins = s.pins ∧ u.stream = s.stream ∧
    u.power = s.power ∧ u.loader = s.loader ∧ u.conservator = s.conservator ∧ u.egress = s.egress ∧ u.repair = s.repair ∧
    u.shadow = s.shadow ∧ u.inForce = s.inForce ∧ u.otpRequest = s.otpRequest ∧ u.heldCommands = s.heldCommands ∧
    u.crossReads = s.crossReads := by
  simp only [execVaultPop, Host.Outcome.next.injEq] at h
  subst h
  first | (simp; done) | ((try dsimp only); (repeat' split) <;> simp)

theorem execVaultClr_frame (v : Nat) (s u : State) (h : execVaultClr v s = .next u) :
    u.pending = s.pending ∧ u.variant = s.variant ∧ u.otp = s.otp ∧ u.masters.length = s.masters.length ∧
    u.cores.channels.length = s.cores.channels.length ∧ u.regs.debugLevel = s.regs.debugLevel ∧ u.store.cs = s.store.cs ∧
    u.store.csDev = s.store.csDev ∧ u.store.granules = s.store.granules ∧ u.pins = s.pins ∧ u.stream = s.stream ∧
    u.power = s.power ∧ u.loader = s.loader ∧ u.conservator = s.conservator ∧ u.egress = s.egress ∧ u.repair = s.repair ∧
    u.shadow = s.shadow ∧ u.inForce = s.inForce ∧ u.otpRequest = s.otpRequest ∧ u.heldCommands = s.heldCommands ∧
    u.crossReads = s.crossReads := by
  simp only [execVaultClr, Host.Outcome.next.injEq] at h
  subst h
  first | (simp; done) | ((try dsimp only); (repeat' split) <;> simp)

theorem execAvenueContention_frame (a : Nat) (s u : State) (h : execAvenueContention a s = .next u) :
    u.pending = s.pending ∧ u.variant = s.variant ∧ u.otp = s.otp ∧ u.masters.length = s.masters.length ∧
    u.cores.channels.length = s.cores.channels.length ∧ u.regs.debugLevel = s.regs.debugLevel ∧ u.store.cs = s.store.cs ∧
    u.store.csDev = s.store.csDev ∧ u.store.granules = s.store.granules ∧ u.pins = s.pins ∧ u.stream = s.stream ∧
    u.power = s.power ∧ u.loader = s.loader ∧ u.conservator = s.conservator ∧ u.egress = s.egress ∧ u.repair = s.repair ∧
    u.shadow = s.shadow ∧ u.inForce = s.inForce ∧ u.otpRequest = s.otpRequest ∧ u.heldCommands = s.heldCommands ∧
    u.crossReads = s.crossReads := by
  simp only [execAvenueContention, Host.Outcome.next.injEq] at h
  subst h
  first | (simp; done) | ((try dsimp only); (repeat' split) <;> simp)

theorem execContentionEnd_frame (a : Nat) (s u : State) (h : execContentionEnd a s = .next u) :
    u.pending = s.pending ∧ u.variant = s.variant ∧ u.otp = s.otp ∧ u.masters.length = s.masters.length ∧
    u.cores.channels.length = s.cores.channels.length ∧ u.regs.debugLevel = s.regs.debugLevel ∧ u.store.cs = s.store.cs ∧
    u.store.csDev = s.store.csDev ∧ u.store.granules = s.store.granules ∧ u.pins = s.pins ∧ u.stream = s.stream ∧
    u.power = s.power ∧ u.loader = s.loader ∧ u.conservator = s.conservator ∧ u.egress = s.egress ∧ u.repair = s.repair ∧
    u.shadow = s.shadow ∧ u.inForce = s.inForce ∧ u.otpRequest = s.otpRequest ∧ u.heldCommands = s.heldCommands ∧
    u.crossReads = s.crossReads := by
  simp only [execContentionEnd, Host.Outcome.next.injEq] at h
  subst h
  first | (simp; done) | ((try dsimp only); (repeat' split) <;> simp)

theorem execIngressWord_frame (l : FLink) (i : Nat) (w : BitVec 34) (s u : State) (h : execIngressWord l i w s = .next u) :
    u.pending = s.pending ∧ u.variant = s.variant ∧ u.otp = s.otp ∧ u.masters.length = s.masters.length ∧
    u.cores.channels.length = s.cores.channels.length ∧ u.regs.debugLevel = s.regs.debugLevel ∧ u.store.cs = s.store.cs ∧
    u.store.csDev = s.store.csDev ∧ u.store.granules = s.store.granules ∧ u.pins = s.pins ∧ u.stream = s.stream ∧
    u.power = s.power ∧ u.loader = s.loader ∧ u.egress = s.egress ∧ u.shadow = s.shadow ∧ u.inForce = s.inForce ∧
    u.otpRequest = s.otpRequest ∧ u.heldCommands = s.heldCommands ∧ u.crossReads = s.crossReads := by
  simp only [execIngressWord, Host.Outcome.next.injEq] at h
  subst h
  first | (simp; done) | ((try dsimp only); (repeat' split) <;> simp)

theorem execFrameCrc_frame (l : FLink) (i : Nat) (q : QWord) (echo64 : Nat) (s u : State) (h : execFrameCrc l i q echo64 s = .next u) :
    u.pending = s.pending ∧ u.variant = s.variant ∧ u.otp = s.otp ∧ u.masters.length = s.masters.length ∧
    u.cores.channels.length = s.cores.channels.length ∧ u.regs.debugLevel = s.regs.debugLevel ∧ u.store.cs = s.store.cs ∧
    u.store.csDev = s.store.csDev ∧ u.store.granules = s.store.granules ∧ u.pins = s.pins ∧ u.stream = s.stream ∧
    u.power = s.power ∧ u.loader = s.loader ∧ u.egress = s.egress ∧ u.shadow = s.shadow ∧ u.inForce = s.inForce ∧
    u.otpRequest = s.otpRequest ∧ u.heldCommands = s.heldCommands ∧ u.crossReads = s.crossReads := by
  simp only [execFrameCrc, Host.Outcome.next.injEq] at h
  subst h
  first | (simp; done) | ((try dsimp only); (repeat' split) <;> simp)

theorem execStatus_frame (l : FLink) (i : Nat) (q : QWord) (s u : State) (h : execStatus l i q s = .next u) :
    u.pending = s.pending ∧ u.variant = s.variant ∧ u.otp = s.otp ∧ u.masters.length = s.masters.length ∧
    u.cores.channels.length = s.cores.channels.length ∧ u.regs.debugLevel = s.regs.debugLevel ∧ u.store.cs = s.store.cs ∧
    u.store.csDev = s.store.csDev ∧ u.store.granules = s.store.granules ∧ u.pins = s.pins ∧ u.stream = s.stream ∧
    u.power = s.power ∧ u.loader = s.loader ∧ u.conservator = s.conservator ∧ u.egress = s.egress ∧ u.repair = s.repair ∧
    u.shadow = s.shadow ∧ u.inForce = s.inForce ∧ u.otpRequest = s.otpRequest ∧ u.heldCommands = s.heldCommands ∧
    u.crossReads = s.crossReads := by
  simp only [execStatus, Host.Outcome.next.injEq] at h
  subst h
  first | (simp; done) | ((try dsimp only); (repeat' split) <;> simp)

theorem execDesc_frame (l : FLink) (i : Nat) (q : QWord) (s u : State) (h : execDesc l i q s = .next u) :
    u.pending = s.pending ∧ u.variant = s.variant ∧ u.otp = s.otp ∧ u.masters.length = s.masters.length ∧
    u.cores.channels.length = s.cores.channels.length ∧ u.regs.debugLevel = s.regs.debugLevel ∧ u.store.cs = s.store.cs ∧
    u.store.csDev = s.store.csDev ∧ u.store.granules = s.store.granules ∧ u.pins = s.pins ∧ u.stream = s.stream ∧
    u.power = s.power ∧ u.loader = s.loader ∧ u.conservator = s.conservator ∧ u.egress = s.egress ∧ u.repair = s.repair ∧
    u.shadow = s.shadow ∧ u.inForce = s.inForce ∧ u.otpRequest = s.otpRequest ∧ u.heldCommands = s.heldCommands ∧
    u.crossReads = s.crossReads := by
  simp only [execDesc, Host.Outcome.next.injEq] at h
  subst h
  first | (simp; done) | ((try dsimp only); (repeat' split) <;> simp)

theorem execTrain_frame (l : FLink) (i : Nat) (q : QWord) (s u : State) (h : execTrain l i q s = .next u) :
    u.pending = s.pending ∧ u.variant = s.variant ∧ u.otp = s.otp ∧ u.masters.length = s.masters.length ∧
    u.cores.channels.length = s.cores.channels.length ∧ u.regs.debugLevel = s.regs.debugLevel ∧ u.store.cs = s.store.cs ∧
    u.store.csDev = s.store.csDev ∧ u.store.granules = s.store.granules ∧ u.pins = s.pins ∧ u.stream = s.stream ∧
    u.power = s.power ∧ u.loader = s.loader ∧ u.conservator = s.conservator ∧ u.egress = s.egress ∧ u.repair = s.repair ∧
    u.shadow = s.shadow ∧ u.inForce = s.inForce ∧ u.otpRequest = s.otpRequest ∧ u.heldCommands = s.heldCommands ∧
    u.crossReads = s.crossReads := by
  simp only [execTrain, Host.Outcome.next.injEq] at h
  subst h
  first | (simp; done) | ((try dsimp only); (repeat' split) <;> simp)

theorem execSideChannelLockLoss_frame (l : FLink) (i : Nat) (s u : State) (h : execSideChannelLockLoss l i s = .next u) :
    u.pending = s.pending ∧ u.variant = s.variant ∧ u.otp = s.otp ∧ u.masters.length = s.masters.length ∧
    u.cores.channels.length = s.cores.channels.length ∧ u.regs.debugLevel = s.regs.debugLevel ∧ u.store.cs = s.store.cs ∧
    u.store.csDev = s.store.csDev ∧ u.store.granules = s.store.granules ∧ u.pins = s.pins ∧ u.stream = s.stream ∧
    u.power = s.power ∧ u.loader = s.loader ∧ u.conservator = s.conservator ∧ u.egress = s.egress ∧ u.repair = s.repair ∧
    u.shadow = s.shadow ∧ u.inForce = s.inForce ∧ u.otpRequest = s.otpRequest ∧ u.heldCommands = s.heldCommands ∧
    u.crossReads = s.crossReads := by
  simp only [execSideChannelLockLoss, Host.Outcome.next.injEq] at h
  subst h
  first | (simp; done) | ((try dsimp only); (repeat' split) <;> simp)

theorem execArrivalDrift_frame (l : FLink) (i : Nat) (d : Int) (s u : State) (h : execArrivalDrift l i d s = .next u) :
    u.pending = s.pending ∧ u.variant = s.variant ∧ u.otp = s.otp ∧ u.masters.length = s.masters.length ∧
    u.cores.channels.length = s.cores.channels.length ∧ u.regs.debugLevel = s.regs.debugLevel ∧ u.store.cs = s.store.cs ∧
    u.store.csDev = s.store.csDev ∧ u.store.granules = s.store.granules ∧ u.pins = s.pins ∧ u.stream = s.stream ∧
    u.power = s.power ∧ u.loader = s.loader ∧ u.conservator = s.conservator ∧ u.egress = s.egress ∧ u.repair = s.repair ∧
    u.shadow = s.shadow ∧ u.inForce = s.inForce ∧ u.otpRequest = s.otpRequest ∧ u.heldCommands = s.heldCommands ∧
    u.crossReads = s.crossReads := by
  simp only [execArrivalDrift, Host.Outcome.next.injEq] at h
  subst h
  first | (simp; done) | ((try dsimp only); (repeat' split) <;> simp)

theorem execLinkTrain_frame (l : FLink) (s u : State) (h : execLinkTrain l s = .next u) :
    u.pending = s.pending ∧ u.variant = s.variant ∧ u.otp = s.otp ∧ u.masters.length = s.masters.length ∧
    u.cores.channels.length = s.cores.channels.length ∧ u.regs.debugLevel = s.regs.debugLevel ∧ u.store.cs = s.store.cs ∧
    u.store.csDev = s.store.csDev ∧ u.store.granules = s.store.granules ∧ u.pins = s.pins ∧ u.stream = s.stream ∧
    u.power = s.power ∧ u.loader = s.loader ∧ u.egress = s.egress ∧ u.shadow = s.shadow ∧ u.inForce = s.inForce ∧
    u.otpRequest = s.otpRequest ∧ u.heldCommands = s.heldCommands ∧ u.crossReads = s.crossReads := by
  simp only [execLinkTrain, Host.Outcome.next.injEq] at h
  subst h
  first | (simp; done) | ((try dsimp only); (repeat' split) <;> simp)

theorem execLinkUp_frame (l : FLink) (s u : State) (h : execLinkUp l s = .next u) :
    u.pending = s.pending ∧ u.variant = s.variant ∧ u.otp = s.otp ∧ u.masters.length = s.masters.length ∧
    u.cores.channels.length = s.cores.channels.length ∧ u.regs.debugLevel = s.regs.debugLevel ∧ u.store.cs = s.store.cs ∧
    u.store.csDev = s.store.csDev ∧ u.store.granules = s.store.granules ∧ u.pins = s.pins ∧ u.stream = s.stream ∧
    u.power = s.power ∧ u.loader = s.loader ∧ u.conservator = s.conservator ∧ u.egress = s.egress ∧ u.repair = s.repair ∧
    u.shadow = s.shadow ∧ u.inForce = s.inForce ∧ u.otpRequest = s.otpRequest ∧ u.heldCommands = s.heldCommands ∧
    u.crossReads = s.crossReads := by
  simp only [execLinkUp, Host.Outcome.next.injEq] at h
  subst h
  first | (simp; done) | ((try dsimp only); (repeat' split) <;> simp)

theorem execTrainingStepTimeout_frame (l : FLink) (i : Nat) (s u : State) (h : execTrainingStepTimeout l i s = .next u) :
    u.pending = s.pending ∧ u.variant = s.variant ∧ u.otp = s.otp ∧ u.masters.length = s.masters.length ∧
    u.cores.channels.length = s.cores.channels.length ∧ u.regs.debugLevel = s.regs.debugLevel ∧ u.store.cs = s.store.cs ∧
    u.store.csDev = s.store.csDev ∧ u.store.granules = s.store.granules ∧ u.pins = s.pins ∧ u.stream = s.stream ∧
    u.power = s.power ∧ u.loader = s.loader ∧ u.conservator = s.conservator ∧ u.egress = s.egress ∧ u.repair = s.repair ∧
    u.shadow = s.shadow ∧ u.inForce = s.inForce ∧ u.otpRequest = s.otpRequest ∧ u.heldCommands = s.heldCommands ∧
    u.crossReads = s.crossReads := by
  simp only [execTrainingStepTimeout, Host.Outcome.next.injEq] at h
  subst h
  first | (simp; done) | ((try dsimp only); (repeat' split) <;> simp)

theorem execPartnerLost_frame (l : FLink) (i : Nat) (s u : State) (h : execPartnerLost l i s = .next u) :
    u.pending = s.pending ∧ u.variant = s.variant ∧ u.otp = s.otp ∧ u.masters.length = s.masters.length ∧
    u.cores.channels.length = s.cores.channels.length ∧ u.regs.debugLevel = s.regs.debugLevel ∧ u.store.cs = s.store.cs ∧
    u.store.csDev = s.store.csDev ∧ u.store.granules = s.store.granules ∧ u.pins = s.pins ∧ u.stream = s.stream ∧
    u.power = s.power ∧ u.loader = s.loader ∧ u.conservator = s.conservator ∧ u.egress = s.egress ∧ u.repair = s.repair ∧
    u.shadow = s.shadow ∧ u.inForce = s.inForce ∧ u.otpRequest = s.otpRequest ∧ u.heldCommands = s.heldCommands ∧
    u.crossReads = s.crossReads := by
  simp only [execPartnerLost, Host.Outcome.next.injEq] at h
  subst h
  first | (simp; done) | ((try dsimp only); (repeat' split) <;> simp)

theorem execPartnerRetry_frame (l : FLink) (i : Nat) (e : Option Nat) (s u : State) (h : execPartnerRetry l i e s = .next u) :
    u.pending = s.pending ∧ u.variant = s.variant ∧ u.otp = s.otp ∧ u.masters.length = s.masters.length ∧
    u.cores.channels.length = s.cores.channels.length ∧ u.regs.debugLevel = s.regs.debugLevel ∧ u.store.cs = s.store.cs ∧
    u.store.csDev = s.store.csDev ∧ u.store.granules = s.store.granules ∧ u.pins = s.pins ∧ u.stream = s.stream ∧
    u.power = s.power ∧ u.loader = s.loader ∧ u.egress = s.egress ∧ u.shadow = s.shadow ∧ u.inForce = s.inForce ∧
    u.otpRequest = s.otpRequest ∧ u.heldCommands = s.heldCommands ∧ u.crossReads = s.crossReads := by
  simp only [execPartnerRetry, Host.Outcome.next.injEq] at h
  subst h
  first | (simp; done) | ((try dsimp only); (repeat' split) <;> simp)

theorem execRemeasurementDone_frame (l : FLink) (es : List (Nat × Nat)) (s u : State) (h : execRemeasurementDone l es s = .next u) :
    u.pending = s.pending ∧ u.variant = s.variant ∧ u.otp = s.otp ∧ u.masters.length = s.masters.length ∧
    u.cores.channels.length = s.cores.channels.length ∧ u.regs.debugLevel = s.regs.debugLevel ∧ u.store.cs = s.store.cs ∧
    u.store.csDev = s.store.csDev ∧ u.store.granules = s.store.granules ∧ u.pins = s.pins ∧ u.stream = s.stream ∧
    u.power = s.power ∧ u.loader = s.loader ∧ u.conservator = s.conservator ∧ u.egress = s.egress ∧ u.repair = s.repair ∧
    u.shadow = s.shadow ∧ u.inForce = s.inForce ∧ u.otpRequest = s.otpRequest ∧ u.heldCommands = s.heldCommands ∧
    u.crossReads = s.crossReads := by
  simp only [execRemeasurementDone, Host.Outcome.next.injEq] at h
  subst h
  first | (simp; done) | ((try dsimp only); (repeat' split) <;> simp)

theorem execAlignmentApply_frame  (s u : State) (h : execAlignmentApply s = .next u) :
    u.pending = s.pending ∧ u.variant = s.variant ∧ u.otp = s.otp ∧ u.masters.length = s.masters.length ∧
    u.cores.channels.length = s.cores.channels.length ∧ u.regs.debugLevel = s.regs.debugLevel ∧ u.store.cs = s.store.cs ∧
    u.store.csDev = s.store.csDev ∧ u.store.granules = s.store.granules ∧ u.pins = s.pins ∧ u.stream = s.stream ∧
    u.power = s.power ∧ u.loader = s.loader ∧ u.egress = s.egress ∧ u.shadow = s.shadow ∧ u.inForce = s.inForce ∧
    u.otpRequest = s.otpRequest ∧ u.heldCommands = s.heldCommands ∧ u.crossReads = s.crossReads := by
  simp only [execAlignmentApply, Host.Outcome.next.injEq] at h
  subst h
  first | (simp; done) | ((try dsimp only); (repeat' split) <;> simp)

theorem execRecordEnter_frame (l : FLink) (s u : State) (h : execRecordEnter l s = .next u) :
    u.pending = s.pending ∧ u.variant = s.variant ∧ u.otp = s.otp ∧ u.masters.length = s.masters.length ∧
    u.cores.channels.length = s.cores.channels.length ∧ u.regs.debugLevel = s.regs.debugLevel ∧ u.store.cs = s.store.cs ∧
    u.store.csDev = s.store.csDev ∧ u.store.granules = s.store.granules ∧ u.pins = s.pins ∧ u.stream = s.stream ∧
    u.power = s.power ∧ u.loader = s.loader ∧ u.conservator = s.conservator ∧ u.egress = s.egress ∧ u.repair = s.repair ∧
    u.shadow = s.shadow ∧ u.inForce = s.inForce ∧ u.otpRequest = s.otpRequest ∧ u.heldCommands = s.heldCommands ∧
    u.crossReads = s.crossReads := by
  simp only [execRecordEnter, Host.Outcome.next.injEq] at h
  subst h
  first | (simp; done) | ((try dsimp only); (repeat' split) <;> simp)

theorem execGapRecord_frame (l : FLink) (site : Nat) (s u : State) (h : execGapRecord l site s = .next u) :
    u.pending = s.pending ∧ u.variant = s.variant ∧ u.otp = s.otp ∧ u.masters.length = s.masters.length ∧
    u.cores.channels.length = s.cores.channels.length ∧ u.regs.debugLevel = s.regs.debugLevel ∧ u.store.cs = s.store.cs ∧
    u.store.csDev = s.store.csDev ∧ u.store.granules = s.store.granules ∧ u.pins = s.pins ∧ u.stream = s.stream ∧
    u.power = s.power ∧ u.loader = s.loader ∧ u.conservator = s.conservator ∧ u.egress = s.egress ∧ u.repair = s.repair ∧
    u.shadow = s.shadow ∧ u.inForce = s.inForce ∧ u.otpRequest = s.otpRequest ∧ u.heldCommands = s.heldCommands ∧
    u.crossReads = s.crossReads := by
  simp only [execGapRecord, Host.Outcome.next.injEq] at h
  subst h
  first | (simp; done) | ((try dsimp only); (repeat' split) <;> simp)

theorem execRecordPassOn_frame (l : FLink) (s u : State) (h : execRecordPassOn l s = .next u) :
    u.pending = s.pending ∧ u.variant = s.variant ∧ u.otp = s.otp ∧ u.masters.length = s.masters.length ∧
    u.cores.channels.length = s.cores.channels.length ∧ u.regs.debugLevel = s.regs.debugLevel ∧ u.pins = s.pins ∧
    u.stream = s.stream ∧ u.power = s.power ∧ u.loader = s.loader ∧ u.conservator = s.conservator ∧ u.egress = s.egress ∧
    u.repair = s.repair ∧ u.shadow = s.shadow ∧ u.inForce = s.inForce ∧ u.otpRequest = s.otpRequest ∧
    u.heldCommands = s.heldCommands ∧ u.crossReads = s.crossReads := by
  simp only [execRecordPassOn, Host.Outcome.next.injEq] at h
  subst h
  first | (simp; done) | ((try dsimp only); (repeat' split) <;> simp)

theorem execBatchCommit_frame (l : FLink) (s u : State) (h : execBatchCommit l s = .next u) :
    u.pending = s.pending ∧ u.variant = s.variant ∧ u.otp = s.otp ∧ u.masters.length = s.masters.length ∧
    u.cores.channels.length = s.cores.channels.length ∧ u.regs.debugLevel = s.regs.debugLevel ∧ u.store.cs = s.store.cs ∧
    u.store.csDev = s.store.csDev ∧ u.store.granules = s.store.granules ∧ u.loader = s.loader ∧
    u.conservator = s.conservator ∧ u.shadow = s.shadow ∧ u.inForce = s.inForce ∧ u.otpRequest = s.otpRequest ∧
    u.heldCommands = s.heldCommands ∧ u.crossReads = s.crossReads ∧ u.pins.pins.length = s.pins.pins.length := by
  simp only [execBatchCommit, Host.Outcome.next.injEq] at h
  subst h
  first | (simp; done) | ((try dsimp only); (repeat' split) <;> simp)

theorem execTwinHeartbeatReceive_frame (crcOk : Bool) (role : BitVec 3) (token : Bool) (epoch : DWord) (last : Option DWord) (ack : Word) (join : DWord) (s u : State) (h : execTwinHeartbeatReceive crcOk role token epoch last ack join s = .next u) :
    u.pending = s.pending ∧ u.variant = s.variant ∧ u.otp = s.otp ∧ u.masters.length = s.masters.length ∧
    u.cores.channels.length = s.cores.channels.length ∧ u.regs.debugLevel = s.regs.debugLevel ∧ u.store.cs = s.store.cs ∧
    u.store.csDev = s.store.csDev ∧ u.store.granules = s.store.granules ∧ u.pins = s.pins ∧ u.stream = s.stream ∧
    u.power = s.power ∧ u.loader = s.loader ∧ u.conservator = s.conservator ∧ u.egress = s.egress ∧ u.repair = s.repair ∧
    u.shadow = s.shadow ∧ u.inForce = s.inForce ∧ u.otpRequest = s.otpRequest ∧ u.heldCommands = s.heldCommands ∧
    u.crossReads = s.crossReads := by
  simp only [execTwinHeartbeatReceive, Host.Outcome.next.injEq] at h
  subst h
  first | (simp; done) | ((try dsimp only); (repeat' split) <;> simp)

theorem execTwinHeartbeatDue_frame  (s u : State) (h : execTwinHeartbeatDue s = .next u) :
    u.pending = s.pending ∧ u.variant = s.variant ∧ u.otp = s.otp ∧ u.masters.length = s.masters.length ∧
    u.cores.channels.length = s.cores.channels.length ∧ u.regs.debugLevel = s.regs.debugLevel ∧ u.store.cs = s.store.cs ∧
    u.store.csDev = s.store.csDev ∧ u.store.granules = s.store.granules ∧ u.pins = s.pins ∧ u.stream = s.stream ∧
    u.power = s.power ∧ u.loader = s.loader ∧ u.conservator = s.conservator ∧ u.egress = s.egress ∧ u.repair = s.repair ∧
    u.shadow = s.shadow ∧ u.inForce = s.inForce ∧ u.otpRequest = s.otpRequest ∧ u.heldCommands = s.heldCommands ∧
    u.crossReads = s.crossReads := by
  simp only [execTwinHeartbeatDue, Host.Outcome.next.injEq] at h
  subst h
  first | (simp; done) | ((try dsimp only); (repeat' split) <;> simp)

theorem execTwinBlockResend_frame  (s u : State) (h : execTwinBlockResend s = .next u) :
    u.pending = s.pending ∧ u.variant = s.variant ∧ u.otp = s.otp ∧ u.masters.length = s.masters.length ∧
    u.cores.channels.length = s.cores.channels.length ∧ u.regs.debugLevel = s.regs.debugLevel ∧ u.store.cs = s.store.cs ∧
    u.store.csDev = s.store.csDev ∧ u.store.granules = s.store.granules ∧ u.pins = s.pins ∧ u.stream = s.stream ∧
    u.power = s.power ∧ u.loader = s.loader ∧ u.conservator = s.conservator ∧ u.egress = s.egress ∧ u.repair = s.repair ∧
    u.shadow = s.shadow ∧ u.inForce = s.inForce ∧ u.otpRequest = s.otpRequest ∧ u.heldCommands = s.heldCommands ∧
    u.crossReads = s.crossReads := by
  simp only [execTwinBlockResend, Host.Outcome.next.injEq] at h
  subst h
  first | (simp; done) | ((try dsimp only); (repeat' split) <;> simp)

theorem execTLost_frame  (s u : State) (h : execTLost s = .next u) :
    u.pending = s.pending ∧ u.variant = s.variant ∧ u.otp = s.otp ∧ u.masters.length = s.masters.length ∧
    u.cores.channels.length = s.cores.channels.length ∧ u.regs.debugLevel = s.regs.debugLevel ∧ u.store.cs = s.store.cs ∧
    u.store.csDev = s.store.csDev ∧ u.store.granules = s.store.granules ∧ u.pins = s.pins ∧ u.stream = s.stream ∧
    u.power = s.power ∧ u.loader = s.loader ∧ u.conservator = s.conservator ∧ u.egress = s.egress ∧ u.repair = s.repair ∧
    u.shadow = s.shadow ∧ u.inForce = s.inForce ∧ u.otpRequest = s.otpRequest ∧ u.heldCommands = s.heldCommands ∧
    u.crossReads = s.crossReads := by
  simp only [execTLost, Host.Outcome.next.injEq] at h
  subst h
  first | (simp; done) | ((try dsimp only); (repeat' split) <;> simp)

theorem execLeaseRenew_frame  (s u : State) (h : execLeaseRenew s = .next u) :
    u.pending = s.pending ∧ u.variant = s.variant ∧ u.otp = s.otp ∧ u.masters.length = s.masters.length ∧
    u.cores.channels.length = s.cores.channels.length ∧ u.regs.debugLevel = s.regs.debugLevel ∧ u.store.cs = s.store.cs ∧
    u.store.csDev = s.store.csDev ∧ u.store.granules = s.store.granules ∧ u.pins = s.pins ∧ u.stream = s.stream ∧
    u.power = s.power ∧ u.loader = s.loader ∧ u.conservator = s.conservator ∧ u.egress = s.egress ∧ u.repair = s.repair ∧
    u.shadow = s.shadow ∧ u.inForce = s.inForce ∧ u.otpRequest = s.otpRequest ∧ u.heldCommands = s.heldCommands ∧
    u.crossReads = s.crossReads := by
  simp only [execLeaseRenew, Host.Outcome.next.injEq] at h
  subst h
  first | (simp; done) | ((try dsimp only); (repeat' split) <;> simp)

theorem execLeaseLapse_frame  (s u : State) (h : execLeaseLapse s = .next u) :
    u.pending = s.pending ∧ u.variant = s.variant ∧ u.otp = s.otp ∧ u.masters.length = s.masters.length ∧
    u.cores.channels.length = s.cores.channels.length ∧ u.regs.debugLevel = s.regs.debugLevel ∧ u.store.cs = s.store.cs ∧
    u.store.csDev = s.store.csDev ∧ u.store.granules = s.store.granules ∧ u.pins = s.pins ∧ u.stream = s.stream ∧
    u.power = s.power ∧ u.loader = s.loader ∧ u.conservator = s.conservator ∧ u.egress = s.egress ∧ u.repair = s.repair ∧
    u.shadow = s.shadow ∧ u.inForce = s.inForce ∧ u.otpRequest = s.otpRequest ∧ u.heldCommands = s.heldCommands ∧
    u.crossReads = s.crossReads := by
  simp only [execLeaseLapse, Host.Outcome.next.injEq] at h
  subst h
  first | (simp; done) | ((try dsimp only); (repeat' split) <;> simp)

theorem execTokenTake_frame  (s u : State) (h : execTokenTake s = .next u) :
    u.pending = s.pending ∧ u.variant = s.variant ∧ u.otp = s.otp ∧ u.masters.length = s.masters.length ∧
    u.cores.channels.length = s.cores.channels.length ∧ u.regs.debugLevel = s.regs.debugLevel ∧ u.store.cs = s.store.cs ∧
    u.store.csDev = s.store.csDev ∧ u.store.granules = s.store.granules ∧ u.pins = s.pins ∧ u.loader = s.loader ∧
    u.conservator = s.conservator ∧ u.shadow = s.shadow ∧ u.inForce = s.inForce ∧ u.otpRequest = s.otpRequest ∧
    u.heldCommands = s.heldCommands ∧ u.crossReads = s.crossReads := by
  simp only [execTokenTake, Host.Outcome.next.injEq] at h
  subst h
  first | (simp; done) | ((try dsimp only); (repeat' split) <;> simp)

theorem execTokenWaitTimeout_frame  (s u : State) (h : execTokenWaitTimeout s = .next u) :
    u.pending = s.pending ∧ u.variant = s.variant ∧ u.otp = s.otp ∧ u.masters.length = s.masters.length ∧
    u.cores.channels.length = s.cores.channels.length ∧ u.regs.debugLevel = s.regs.debugLevel ∧ u.store.cs = s.store.cs ∧
    u.store.csDev = s.store.csDev ∧ u.store.granules = s.store.granules ∧ u.pins = s.pins ∧ u.stream = s.stream ∧
    u.power = s.power ∧ u.loader = s.loader ∧ u.conservator = s.conservator ∧ u.egress = s.egress ∧ u.repair = s.repair ∧
    u.shadow = s.shadow ∧ u.inForce = s.inForce ∧ u.otpRequest = s.otpRequest ∧ u.heldCommands = s.heldCommands ∧
    u.crossReads = s.crossReads := by
  simp only [execTokenWaitTimeout, Host.Outcome.next.injEq] at h
  subst h
  first | (simp; done) | ((try dsimp only); (repeat' split) <;> simp)

theorem execCapabilityReceive_frame (b : Block) (s u : State) (h : execCapabilityReceive b s = .next u) :
    u.pending = s.pending ∧ u.variant = s.variant ∧ u.otp = s.otp ∧ u.masters.length = s.masters.length ∧
    u.cores.channels.length = s.cores.channels.length ∧ u.regs.debugLevel = s.regs.debugLevel ∧ u.store.cs = s.store.cs ∧
    u.store.csDev = s.store.csDev ∧ u.store.granules = s.store.granules ∧ u.pins = s.pins ∧ u.stream = s.stream ∧
    u.power = s.power ∧ u.loader = s.loader ∧ u.conservator = s.conservator ∧ u.egress = s.egress ∧ u.repair = s.repair ∧
    u.shadow = s.shadow ∧ u.inForce = s.inForce ∧ u.otpRequest = s.otpRequest ∧ u.heldCommands = s.heldCommands ∧
    u.crossReads = s.crossReads := by
  simp only [execCapabilityReceive, Host.Outcome.next.injEq] at h
  subst h
  first | (simp; done) | ((try dsimp only); (repeat' split) <;> simp)

theorem execBatchAnnounce_frame (crcOk : Bool) (tseq : Word) (n : DWord) (frame : BitVec 6) (word : Byte) (freeze : Bool) (s u : State) (h : execBatchAnnounce crcOk tseq n frame word freeze s = .next u) :
    u.pending = s.pending ∧ u.variant = s.variant ∧ u.otp = s.otp ∧ u.masters.length = s.masters.length ∧
    u.cores.channels.length = s.cores.channels.length ∧ u.regs.debugLevel = s.regs.debugLevel ∧ u.store.cs = s.store.cs ∧
    u.store.csDev = s.store.csDev ∧ u.store.granules = s.store.granules ∧ u.pins = s.pins ∧ u.stream = s.stream ∧
    u.power = s.power ∧ u.loader = s.loader ∧ u.conservator = s.conservator ∧ u.egress = s.egress ∧ u.repair = s.repair ∧
    u.shadow = s.shadow ∧ u.inForce = s.inForce ∧ u.otpRequest = s.otpRequest ∧ u.heldCommands = s.heldCommands ∧
    u.crossReads = s.crossReads := by
  simp only [execBatchAnnounce, Host.Outcome.next.injEq] at h
  subst h
  first | (simp; done) | ((try dsimp only); (repeat' split) <;> simp)

theorem execDigestReceive_frame (crcOk : Bool) (tseq : Word) (n : DWord) (d : QWord) (fault : Bool) (s u : State) (h : execDigestReceive crcOk tseq n d fault s = .next u) :
    u.pending = s.pending ∧ u.variant = s.variant ∧ u.otp = s.otp ∧ u.masters.length = s.masters.length ∧
    u.cores.channels.length = s.cores.channels.length ∧ u.regs.debugLevel = s.regs.debugLevel ∧ u.store.cs = s.store.cs ∧
    u.store.csDev = s.store.csDev ∧ u.store.granules = s.store.granules ∧ u.pins = s.pins ∧ u.loader = s.loader ∧
    u.conservator = s.conservator ∧ u.shadow = s.shadow ∧ u.inForce = s.inForce ∧ u.otpRequest = s.otpRequest ∧
    u.heldCommands = s.heldCommands ∧ u.crossReads = s.crossReads := by
  simp only [execDigestReceive, Host.Outcome.next.injEq] at h
  subst h
  first | (simp; done) | ((try dsimp only); (repeat' split) <;> simp)

theorem execHandover_frame (b : Block) (s u : State) (h : execHandover b s = .next u) :
    u.pending = s.pending ∧ u.variant = s.variant ∧ u.otp = s.otp ∧ u.masters.length = s.masters.length ∧
    u.cores.channels.length = s.cores.channels.length ∧ u.regs.debugLevel = s.regs.debugLevel ∧ u.store.cs = s.store.cs ∧
    u.store.csDev = s.store.csDev ∧ u.store.granules = s.store.granules ∧ u.pins = s.pins ∧ u.stream = s.stream ∧
    u.power = s.power ∧ u.loader = s.loader ∧ u.conservator = s.conservator ∧ u.egress = s.egress ∧ u.repair = s.repair ∧
    u.shadow = s.shadow ∧ u.inForce = s.inForce ∧ u.otpRequest = s.otpRequest ∧ u.heldCommands = s.heldCommands ∧
    u.crossReads = s.crossReads := by
  simp only [execHandover, Host.Outcome.next.injEq] at h
  subst h
  first | (simp; done) | ((try dsimp only); (repeat' split) <;> simp)

theorem execTwinJoin_frame (slot : Nat) (s u : State) (h : execTwinJoin slot s = .next u) :
    u.pending = s.pending ∧ u.variant = s.variant ∧ u.otp = s.otp ∧ u.masters.length = s.masters.length ∧
    u.cores.channels.length = s.cores.channels.length ∧ u.regs.debugLevel = s.regs.debugLevel ∧ u.store.cs = s.store.cs ∧
    u.store.csDev = s.store.csDev ∧ u.store.granules = s.store.granules ∧ u.pins = s.pins ∧ u.stream = s.stream ∧
    u.power = s.power ∧ u.loader = s.loader ∧ u.conservator = s.conservator ∧ u.egress = s.egress ∧ u.repair = s.repair ∧
    u.shadow = s.shadow ∧ u.inForce = s.inForce ∧ u.otpRequest = s.otpRequest ∧ u.heldCommands = s.heldCommands ∧
    u.crossReads = s.crossReads := by
  simp only [execTwinJoin, Host.Outcome.next.injEq] at h
  subst h
  first | (simp; done) | ((try dsimp only); (repeat' split) <;> simp)

theorem execStateBlockReceive_frame (crcOk : Bool) (tseq : Word) (item : StateItem) (s u : State) (h : execStateBlockReceive crcOk tseq item s = .next u) :
    u.pending = s.pending ∧ u.variant = s.variant ∧ u.otp = s.otp ∧ u.masters.length = s.masters.length ∧
    u.cores.channels.length = s.cores.channels.length ∧ u.regs.debugLevel = s.regs.debugLevel ∧ u.store.cs = s.store.cs ∧
    u.store.csDev = s.store.csDev ∧ u.store.granules = s.store.granules ∧ u.pins = s.pins ∧ u.stream = s.stream ∧
    u.power = s.power ∧ u.loader = s.loader ∧ u.conservator = s.conservator ∧ u.egress = s.egress ∧ u.shadow = s.shadow ∧
    u.inForce = s.inForce ∧ u.otpRequest = s.otpRequest ∧ u.heldCommands = s.heldCommands ∧ u.crossReads = s.crossReads := by
  simp only [execStateBlockReceive, Host.Outcome.next.injEq] at h
  subst h
  first | (simp; done) | ((try dsimp only); (repeat' split) <;> simp)

theorem execJoinAck_frame (b : Block) (s u : State) (h : execJoinAck b s = .next u) :
    u.pending = s.pending ∧ u.variant = s.variant ∧ u.otp = s.otp ∧ u.masters.length = s.masters.length ∧
    u.cores.channels.length = s.cores.channels.length ∧ u.regs.debugLevel = s.regs.debugLevel ∧ u.store.cs = s.store.cs ∧
    u.store.csDev = s.store.csDev ∧ u.store.granules = s.store.granules ∧ u.pins = s.pins ∧ u.stream = s.stream ∧
    u.power = s.power ∧ u.loader = s.loader ∧ u.conservator = s.conservator ∧ u.egress = s.egress ∧ u.repair = s.repair ∧
    u.shadow = s.shadow ∧ u.inForce = s.inForce ∧ u.otpRequest = s.otpRequest ∧ u.heldCommands = s.heldCommands ∧
    u.crossReads = s.crossReads := by
  simp only [execJoinAck, Host.Outcome.next.injEq] at h
  subst h
  first | (simp; done) | ((try dsimp only); (repeat' split) <;> simp)

theorem execJoinTimeout_frame  (s u : State) (h : execJoinTimeout s = .next u) :
    u.pending = s.pending ∧ u.variant = s.variant ∧ u.otp = s.otp ∧ u.masters.length = s.masters.length ∧
    u.cores.channels.length = s.cores.channels.length ∧ u.regs.debugLevel = s.regs.debugLevel ∧ u.store.cs = s.store.cs ∧
    u.store.csDev = s.store.csDev ∧ u.store.granules = s.store.granules ∧ u.pins = s.pins ∧ u.stream = s.stream ∧
    u.power = s.power ∧ u.loader = s.loader ∧ u.conservator = s.conservator ∧ u.egress = s.egress ∧ u.repair = s.repair ∧
    u.shadow = s.shadow ∧ u.inForce = s.inForce ∧ u.otpRequest = s.otpRequest ∧ u.heldCommands = s.heldCommands ∧
    u.crossReads = s.crossReads := by
  simp only [execJoinTimeout, Host.Outcome.next.injEq] at h
  subst h
  first | (simp; done) | ((try dsimp only); (repeat' split) <;> simp)

theorem execSweepSignatureReceive_frame (crcOk : Bool) (tseq : Word) (sweep : DWord) (s u : State) (h : execSweepSignatureReceive crcOk tseq sweep s = .next u) :
    u.pending = s.pending ∧ u.variant = s.variant ∧ u.otp = s.otp ∧ u.masters.length = s.masters.length ∧
    u.cores.channels.length = s.cores.channels.length ∧ u.regs.debugLevel = s.regs.debugLevel ∧ u.store.cs = s.store.cs ∧
    u.store.csDev = s.store.csDev ∧ u.store.granules = s.store.granules ∧ u.pins = s.pins ∧ u.stream = s.stream ∧
    u.power = s.power ∧ u.loader = s.loader ∧ u.conservator = s.conservator ∧ u.egress = s.egress ∧ u.repair = s.repair ∧
    u.shadow = s.shadow ∧ u.inForce = s.inForce ∧ u.otpRequest = s.otpRequest ∧ u.heldCommands = s.heldCommands ∧
    u.crossReads = s.crossReads := by
  simp only [execSweepSignatureReceive, Host.Outcome.next.injEq] at h
  subst h
  first | (simp; done) | ((try dsimp only); (repeat' split) <;> simp)

theorem execSurveySample_frame (p : SurveyPoint) (s u : State) (h : execSurveySample p s = .next u) :
    u.pending = s.pending ∧ u.variant = s.variant ∧ u.otp = s.otp ∧ u.masters.length = s.masters.length ∧
    u.cores.channels.length = s.cores.channels.length ∧ u.regs.debugLevel = s.regs.debugLevel ∧ u.store.cs = s.store.cs ∧
    u.store.csDev = s.store.csDev ∧ u.store.granules = s.store.granules ∧ u.pins = s.pins ∧ u.stream = s.stream ∧
    u.power = s.power ∧ u.loader = s.loader ∧ u.conservator = s.conservator ∧ u.egress = s.egress ∧ u.repair = s.repair ∧
    u.shadow = s.shadow ∧ u.inForce = s.inForce ∧ u.otpRequest = s.otpRequest ∧ u.heldCommands = s.heldCommands ∧
    u.crossReads = s.crossReads := by
  simp only [execSurveySample, Host.Outcome.next.injEq] at h
  subst h
  first | (simp; done) | ((try dsimp only); (repeat' split) <;> simp)

theorem execHostReadingCopy_frame (busy : Bool) (s u : State) (h : execHostReadingCopy busy s = .next u) :
    u.pending = s.pending ∧ u.variant = s.variant ∧ u.otp = s.otp ∧ u.masters.length = s.masters.length ∧
    u.cores.channels.length = s.cores.channels.length ∧ u.regs.debugLevel = s.regs.debugLevel ∧ u.store.cs = s.store.cs ∧
    u.store.csDev = s.store.csDev ∧ u.store.granules = s.store.granules ∧ u.pins = s.pins ∧ u.stream = s.stream ∧
    u.power = s.power ∧ u.loader = s.loader ∧ u.conservator = s.conservator ∧ u.egress = s.egress ∧ u.repair = s.repair ∧
    u.shadow = s.shadow ∧ u.inForce = s.inForce ∧ u.otpRequest = s.otpRequest ∧ u.heldCommands = s.heldCommands ∧
    u.crossReads = s.crossReads := by
  simp only [execHostReadingCopy, Host.Outcome.next.injEq] at h
  subst h
  first | (simp; done) | ((try dsimp only); (repeat' split) <;> simp)

theorem execUpsetWindow_frame  (s u : State) (h : execUpsetWindow s = .next u) :
    u.pending = s.pending ∧ u.variant = s.variant ∧ u.otp = s.otp ∧ u.masters.length = s.masters.length ∧
    u.cores.channels.length = s.cores.channels.length ∧ u.regs.debugLevel = s.regs.debugLevel ∧ u.store.cs = s.store.cs ∧
    u.store.csDev = s.store.csDev ∧ u.store.granules = s.store.granules ∧ u.pins = s.pins ∧ u.stream = s.stream ∧
    u.power = s.power ∧ u.loader = s.loader ∧ u.egress = s.egress ∧ u.shadow = s.shadow ∧ u.inForce = s.inForce ∧
    u.otpRequest = s.otpRequest ∧ u.heldCommands = s.heldCommands ∧ u.crossReads = s.crossReads := by
  simp only [execUpsetWindow, Host.Outcome.next.injEq] at h
  subst h
  first | (simp; done) | ((try dsimp only); (repeat' split) <;> simp)

theorem execThrottleRaise_frame  (s u : State) (h : execThrottleRaise s = .next u) :
    u.pending = s.pending ∧ u.variant = s.variant ∧ u.otp = s.otp ∧ u.masters.length = s.masters.length ∧
    u.cores.channels.length = s.cores.channels.length ∧ u.regs.debugLevel = s.regs.debugLevel ∧ u.store.cs = s.store.cs ∧
    u.store.csDev = s.store.csDev ∧ u.store.granules = s.store.granules ∧ u.pins = s.pins ∧ u.stream = s.stream ∧
    u.power = s.power ∧ u.loader = s.loader ∧ u.conservator = s.conservator ∧ u.egress = s.egress ∧ u.repair = s.repair ∧
    u.shadow = s.shadow ∧ u.inForce = s.inForce ∧ u.otpRequest = s.otpRequest ∧ u.heldCommands = s.heldCommands ∧
    u.crossReads = s.crossReads := by
  simp only [execThrottleRaise, Host.Outcome.next.injEq] at h
  subst h
  first | (simp; done) | ((try dsimp only); (repeat' split) <;> simp)

theorem execThrottleLower_frame  (s u : State) (h : execThrottleLower s = .next u) :
    u.pending = s.pending ∧ u.variant = s.variant ∧ u.otp = s.otp ∧ u.masters.length = s.masters.length ∧
    u.cores.channels.length = s.cores.channels.length ∧ u.regs.debugLevel = s.regs.debugLevel ∧ u.store.cs = s.store.cs ∧
    u.store.csDev = s.store.csDev ∧ u.store.granules = s.store.granules ∧ u.pins = s.pins ∧ u.stream = s.stream ∧
    u.power = s.power ∧ u.loader = s.loader ∧ u.conservator = s.conservator ∧ u.egress = s.egress ∧ u.repair = s.repair ∧
    u.shadow = s.shadow ∧ u.inForce = s.inForce ∧ u.otpRequest = s.otpRequest ∧ u.heldCommands = s.heldCommands ∧
    u.crossReads = s.crossReads := by
  simp only [execThrottleLower, Host.Outcome.next.injEq] at h
  subst h
  first | (simp; done) | ((try dsimp only); (repeat' split) <;> simp)

theorem execGalleryPowerUp_frame  (s u : State) (h : execGalleryPowerUp s = .next u) :
    u.pending = s.pending ∧ u.variant = s.variant ∧ u.otp = s.otp ∧ u.masters.length = s.masters.length ∧
    u.cores.channels.length = s.cores.channels.length ∧ u.regs.debugLevel = s.regs.debugLevel ∧ u.store.cs = s.store.cs ∧
    u.store.csDev = s.store.csDev ∧ u.store.granules = s.store.granules ∧ u.pins = s.pins ∧ u.stream = s.stream ∧
    u.power = s.power ∧ u.loader = s.loader ∧ u.conservator = s.conservator ∧ u.egress = s.egress ∧ u.repair = s.repair ∧
    u.shadow = s.shadow ∧ u.inForce = s.inForce ∧ u.otpRequest = s.otpRequest ∧ u.heldCommands = s.heldCommands ∧
    u.crossReads = s.crossReads := by
  simp only [execGalleryPowerUp, Host.Outcome.next.injEq] at h
  subst h
  first | (simp; done) | ((try dsimp only); (repeat' split) <;> simp)

theorem execPatrolCycle_frame  (s u : State) (h : execPatrolCycle s = .next u) :
    u.pending = s.pending ∧ u.variant = s.variant ∧ u.otp = s.otp ∧ u.masters.length = s.masters.length ∧
    u.cores.channels.length = s.cores.channels.length ∧ u.regs.debugLevel = s.regs.debugLevel ∧ u.store.cs = s.store.cs ∧
    u.store.csDev = s.store.csDev ∧ u.store.granules = s.store.granules ∧ u.pins = s.pins ∧ u.stream = s.stream ∧
    u.power = s.power ∧ u.loader = s.loader ∧ u.conservator = s.conservator ∧ u.egress = s.egress ∧ u.repair = s.repair ∧
    u.shadow = s.shadow ∧ u.inForce = s.inForce ∧ u.otpRequest = s.otpRequest ∧ u.heldCommands = s.heldCommands ∧
    u.crossReads = s.crossReads := by
  simp only [execPatrolCycle, Host.Outcome.next.injEq] at h
  subst h
  first | (simp; done) | ((try dsimp only); (repeat' split) <;> simp)

theorem execLineRepair_frame (slot : Nat) (s u : State) (h : execLineRepair slot s = .next u) :
    u.pending = s.pending ∧ u.variant = s.variant ∧ u.otp = s.otp ∧ u.masters.length = s.masters.length ∧
    u.cores.channels.length = s.cores.channels.length ∧ u.regs.debugLevel = s.regs.debugLevel ∧ u.store.cs = s.store.cs ∧
    u.store.csDev = s.store.csDev ∧ u.store.granules = s.store.granules ∧ u.pins = s.pins ∧ u.stream = s.stream ∧
    u.power = s.power ∧ u.loader = s.loader ∧ u.conservator = s.conservator ∧ u.egress = s.egress ∧ u.repair = s.repair ∧
    u.shadow = s.shadow ∧ u.inForce = s.inForce ∧ u.otpRequest = s.otpRequest ∧ u.heldCommands = s.heldCommands ∧
    u.crossReads = s.crossReads := by
  simp only [execLineRepair, Host.Outcome.next.injEq] at h
  subst h
  first | (simp; done) | ((try dsimp only); (repeat' split) <;> simp)

theorem execFrameCheck_frame  (s u : State) (h : execFrameCheck s = .next u) :
    u.pending = s.pending ∧ u.variant = s.variant ∧ u.otp = s.otp ∧ u.masters.length = s.masters.length ∧
    u.cores.channels.length = s.cores.channels.length ∧ u.regs.debugLevel = s.regs.debugLevel ∧ u.pins = s.pins ∧
    u.stream = s.stream ∧ u.power = s.power ∧ u.loader = s.loader ∧ u.egress = s.egress ∧ u.shadow = s.shadow ∧
    u.inForce = s.inForce ∧ u.otpRequest = s.otpRequest ∧ u.heldCommands = s.heldCommands ∧ u.crossReads = s.crossReads := by
  simp only [execFrameCheck, Host.Outcome.next.injEq] at h
  subst h
  first | (simp; done) | ((try dsimp only); (repeat' split) <;> simp)

theorem execSweepEnd_frame  (s u : State) (h : execSweepEnd s = .next u) :
    u.pending = s.pending ∧ u.variant = s.variant ∧ u.otp = s.otp ∧ u.masters.length = s.masters.length ∧
    u.cores.channels.length = s.cores.channels.length ∧ u.regs.debugLevel = s.regs.debugLevel ∧ u.pins = s.pins ∧
    u.stream = s.stream ∧ u.power = s.power ∧ u.loader = s.loader ∧ u.egress = s.egress ∧ u.shadow = s.shadow ∧
    u.inForce = s.inForce ∧ u.otpRequest = s.otpRequest ∧ u.heldCommands = s.heldCommands ∧ u.crossReads = s.crossReads := by
  simp only [execSweepEnd, Host.Outcome.next.injEq] at h
  subst h
  first | (simp; done) | ((try dsimp only); (repeat' split) <;> simp)

theorem execRead_frame (h : QWord) (s u : State) (h : execRead h s = .next u) :
    u.pending = s.pending ∧ u.variant = s.variant ∧ u.otp = s.otp ∧ u.masters.length = s.masters.length ∧
    u.cores.channels.length = s.cores.channels.length ∧ u.regs.debugLevel = s.regs.debugLevel ∧ u.pins = s.pins ∧
    u.stream = s.stream ∧ u.power = s.power ∧ u.loader = s.loader ∧ u.conservator = s.conservator ∧ u.egress = s.egress ∧
    u.repair = s.repair ∧ u.shadow = s.shadow ∧ u.inForce = s.inForce ∧ u.otpRequest = s.otpRequest ∧
    u.heldCommands = s.heldCommands ∧ u.crossReads = s.crossReads := by
  simp only [execRead, Host.Outcome.next.injEq] at h
  subst h
  first | (simp; done) | ((try dsimp only); (repeat' split) <;> simp)

theorem execWrite_frame (h : QWord) (flits : List QWord) (s u : State) (h : execWrite h flits s = .next u) :
    u.pending = s.pending ∧ u.variant = s.variant ∧ u.otp = s.otp ∧ u.masters.length = s.masters.length ∧
    u.cores.channels.length = s.cores.channels.length ∧ u.regs.debugLevel = s.regs.debugLevel ∧ u.pins = s.pins ∧
    u.stream = s.stream ∧ u.power = s.power ∧ u.loader = s.loader ∧ u.conservator = s.conservator ∧ u.egress = s.egress ∧
    u.repair = s.repair ∧ u.shadow = s.shadow ∧ u.inForce = s.inForce ∧ u.otpRequest = s.otpRequest ∧
    u.heldCommands = s.heldCommands ∧ u.crossReads = s.crossReads := by
  simp only [execWrite, Host.Outcome.next.injEq] at h
  subst h
  first | (simp; done) | ((try dsimp only); (repeat' split) <;> simp)

theorem execExclRead_frame (h : QWord) (s u : State) (h : execExclRead h s = .next u) :
    u.pending = s.pending ∧ u.variant = s.variant ∧ u.otp = s.otp ∧ u.masters.length = s.masters.length ∧
    u.cores.channels.length = s.cores.channels.length ∧ u.regs.debugLevel = s.regs.debugLevel ∧ u.pins = s.pins ∧
    u.stream = s.stream ∧ u.power = s.power ∧ u.loader = s.loader ∧ u.conservator = s.conservator ∧ u.egress = s.egress ∧
    u.repair = s.repair ∧ u.shadow = s.shadow ∧ u.inForce = s.inForce ∧ u.otpRequest = s.otpRequest ∧
    u.heldCommands = s.heldCommands ∧ u.crossReads = s.crossReads := by
  simp only [execExclRead, Host.Outcome.next.injEq] at h
  subst h
  first | (simp; done) | ((try dsimp only); (repeat' split) <;> simp)

theorem execCondWrite_frame (h : QWord) (flits : List QWord) (s u : State) (h : execCondWrite h flits s = .next u) :
    u.pending = s.pending ∧ u.variant = s.variant ∧ u.otp = s.otp ∧ u.masters.length = s.masters.length ∧
    u.cores.channels.length = s.cores.channels.length ∧ u.regs.debugLevel = s.regs.debugLevel ∧ u.pins = s.pins ∧
    u.stream = s.stream ∧ u.power = s.power ∧ u.loader = s.loader ∧ u.conservator = s.conservator ∧ u.egress = s.egress ∧
    u.repair = s.repair ∧ u.shadow = s.shadow ∧ u.inForce = s.inForce ∧ u.otpRequest = s.otpRequest ∧
    u.heldCommands = s.heldCommands ∧ u.crossReads = s.crossReads := by
  simp only [execCondWrite, Host.Outcome.next.injEq] at h
  subst h
  first | (simp; done) | ((try dsimp only); (repeat' split) <;> simp)

theorem execCompletion_frame (h : QWord) (_flits : List QWord) (s u : State) (h : execCompletion h _flits s = .next u) :
    u.pending = s.pending ∧ u.variant = s.variant ∧ u.otp = s.otp ∧ u.masters.length = s.masters.length ∧
    u.cores.channels.length = s.cores.channels.length ∧ u.regs.debugLevel = s.regs.debugLevel ∧ u.store.cs = s.store.cs ∧
    u.store.csDev = s.store.csDev ∧ u.store.granules = s.store.granules ∧ u.pins = s.pins ∧ u.stream = s.stream ∧
    u.power = s.power ∧ u.loader = s.loader ∧ u.conservator = s.conservator ∧ u.egress = s.egress ∧ u.repair = s.repair ∧
    u.shadow = s.shadow ∧ u.inForce = s.inForce ∧ u.otpRequest = s.otpRequest ∧ u.heldCommands = s.heldCommands ∧
    u.crossReads = s.crossReads := by
  simp only [execCompletion, Host.Outcome.next.injEq] at h
  subst h
  first | (simp; done) | ((try dsimp only); (repeat' split) <;> simp)

theorem execAsleepResend_frame (src tag : Nat) (s u : State) (h : execAsleepResend src tag s = .next u) :
    u.pending = s.pending ∧ u.variant = s.variant ∧ u.otp = s.otp ∧ u.masters.length = s.masters.length ∧
    u.cores.channels.length = s.cores.channels.length ∧ u.regs.debugLevel = s.regs.debugLevel ∧ u.pins = s.pins ∧
    u.stream = s.stream ∧ u.power = s.power ∧ u.loader = s.loader ∧ u.conservator = s.conservator ∧ u.egress = s.egress ∧
    u.repair = s.repair ∧ u.shadow = s.shadow ∧ u.inForce = s.inForce ∧ u.otpRequest = s.otpRequest ∧
    u.heldCommands = s.heldCommands ∧ u.crossReads = s.crossReads := by
  simp only [execAsleepResend, Host.Outcome.next.injEq] at h
  subst h
  first | (simp; done) | ((try dsimp only); (repeat' split) <;> simp)

theorem execUrgencyRise_frame (src tag : Nat) (s u : State) (h : execUrgencyRise src tag s = .next u) :
    u.pending = s.pending ∧ u.variant = s.variant ∧ u.otp = s.otp ∧ u.masters.length = s.masters.length ∧
    u.cores.channels.length = s.cores.channels.length ∧ u.regs.debugLevel = s.regs.debugLevel ∧ u.store.cs = s.store.cs ∧
    u.store.csDev = s.store.csDev ∧ u.store.granules = s.store.granules ∧ u.pins = s.pins ∧ u.stream = s.stream ∧
    u.power = s.power ∧ u.loader = s.loader ∧ u.conservator = s.conservator ∧ u.egress = s.egress ∧ u.repair = s.repair ∧
    u.shadow = s.shadow ∧ u.inForce = s.inForce ∧ u.otpRequest = s.otpRequest ∧ u.heldCommands = s.heldCommands ∧
    u.crossReads = s.crossReads := by
  simp only [execUrgencyRise, Host.Outcome.next.injEq] at h
  subst h
  first | (simp; done) | ((try dsimp only); (repeat' split) <;> simp)

theorem execRouteSwitch_frame (entries : List (Nat × Word)) (s u : State) (h : execRouteSwitch entries s = .next u) :
    u.pending = s.pending ∧ u.variant = s.variant ∧ u.otp = s.otp ∧ u.masters.length = s.masters.length ∧
    u.cores.channels.length = s.cores.channels.length ∧ u.regs.debugLevel = s.regs.debugLevel ∧ u.store.cs = s.store.cs ∧
    u.store.csDev = s.store.csDev ∧ u.store.granules = s.store.granules ∧ u.pins = s.pins ∧ u.stream = s.stream ∧
    u.power = s.power ∧ u.loader = s.loader ∧ u.conservator = s.conservator ∧ u.egress = s.egress ∧ u.repair = s.repair ∧
    u.shadow = s.shadow ∧ u.inForce = s.inForce ∧ u.otpRequest = s.otpRequest ∧ u.heldCommands = s.heldCommands ∧
    u.crossReads = s.crossReads := by
  simp only [execRouteSwitch, Host.Outcome.next.injEq] at h
  subst h
  first | (simp; done) | ((try dsimp only); (repeat' split) <;> simp)

theorem execReservationBreak_frame (c : Core) (s u : State) (h : execReservationBreak c s = .next u) :
    u.pending = s.pending ∧ u.variant = s.variant ∧ u.otp = s.otp ∧ u.masters.length = s.masters.length ∧
    u.cores.channels.length = s.cores.channels.length ∧ u.regs.debugLevel = s.regs.debugLevel ∧ u.store.cs = s.store.cs ∧
    u.store.csDev = s.store.csDev ∧ u.store.granules = s.store.granules ∧ u.pins = s.pins ∧ u.stream = s.stream ∧
    u.power = s.power ∧ u.loader = s.loader ∧ u.conservator = s.conservator ∧ u.egress = s.egress ∧ u.repair = s.repair ∧
    u.shadow = s.shadow ∧ u.inForce = s.inForce ∧ u.otpRequest = s.otpRequest ∧ u.heldCommands = s.heldCommands ∧
    u.crossReads = s.crossReads := by
  simp only [execReservationBreak, Host.Outcome.next.injEq] at h
  subst h
  first | (simp; done) | ((try dsimp only); (repeat' split) <;> simp)

theorem execBankTestStart_frame  (s u : State) (h : execBankTestStart s = .next u) :
    u.pending = s.pending ∧ u.variant = s.variant ∧ u.otp = s.otp ∧ u.masters.length = s.masters.length ∧
    u.cores.channels.length = s.cores.channels.length ∧ u.regs.debugLevel = s.regs.debugLevel ∧ u.store.cs = s.store.cs ∧
    u.store.csDev = s.store.csDev ∧ u.store.granules = s.store.granules ∧ u.pins = s.pins ∧ u.stream = s.stream ∧
    u.power = s.power ∧ u.loader = s.loader ∧ u.conservator = s.conservator ∧ u.egress = s.egress ∧ u.repair = s.repair ∧
    u.shadow = s.shadow ∧ u.inForce = s.inForce ∧ u.otpRequest = s.otpRequest ∧ u.heldCommands = s.heldCommands ∧
    u.crossReads = s.crossReads := by
  simp only [execBankTestStart, Host.Outcome.next.injEq] at h
  subst h
  first | (simp; done) | ((try dsimp only); (repeat' split) <;> simp)

theorem execBankMapSwitch_frame  (s u : State) (h : execBankMapSwitch s = .next u) :
    u.pending = s.pending ∧ u.variant = s.variant ∧ u.otp = s.otp ∧ u.masters.length = s.masters.length ∧
    u.cores.channels.length = s.cores.channels.length ∧ u.regs.debugLevel = s.regs.debugLevel ∧ u.pins = s.pins ∧
    u.stream = s.stream ∧ u.power = s.power ∧ u.loader = s.loader ∧ u.conservator = s.conservator ∧ u.egress = s.egress ∧
    u.repair = s.repair ∧ u.shadow = s.shadow ∧ u.inForce = s.inForce ∧ u.otpRequest = s.otpRequest ∧
    u.heldCommands = s.heldCommands ∧ u.crossReads = s.crossReads := by
  simp only [execBankMapSwitch, Host.Outcome.next.injEq] at h
  subst h
  first | (simp; done) | ((try dsimp only); (repeat' split) <;> simp)

theorem execMarchDone_frame (passed : Bool) (s u : State) (h : execMarchDone passed s = .next u) :
    u.pending = s.pending ∧ u.variant = s.variant ∧ u.otp = s.otp ∧ u.masters.length = s.masters.length ∧
    u.cores.channels.length = s.cores.channels.length ∧ u.regs.debugLevel = s.regs.debugLevel ∧ u.store.cs = s.store.cs ∧
    u.store.csDev = s.store.csDev ∧ u.store.granules = s.store.granules ∧ u.pins = s.pins ∧ u.shadow = s.shadow ∧
    u.inForce = s.inForce ∧ u.otpRequest = s.otpRequest ∧ u.heldCommands = s.heldCommands ∧ u.crossReads = s.crossReads := by
  simp only [execMarchDone, Host.Outcome.next.injEq] at h
  subst h
  first | (simp; done) | ((try dsimp only); (repeat' split) <;> simp)

theorem execBankGroupSleep_frame (k : Nat) (s u : State) (h : execBankGroupSleep k s = .next u) :
    u.pending = s.pending ∧ u.variant = s.variant ∧ u.otp = s.otp ∧ u.masters.length = s.masters.length ∧
    u.cores.channels.length = s.cores.channels.length ∧ u.regs.debugLevel = s.regs.debugLevel ∧ u.store.cs = s.store.cs ∧
    u.store.csDev = s.store.csDev ∧ u.store.granules = s.store.granules ∧ u.pins = s.pins ∧ u.stream = s.stream ∧
    u.power = s.power ∧ u.loader = s.loader ∧ u.conservator = s.conservator ∧ u.egress = s.egress ∧ u.repair = s.repair ∧
    u.shadow = s.shadow ∧ u.inForce = s.inForce ∧ u.otpRequest = s.otpRequest ∧ u.heldCommands = s.heldCommands ∧
    u.crossReads = s.crossReads := by
  simp only [execBankGroupSleep, Host.Outcome.next.injEq] at h
  subst h
  first | (simp; done) | ((try dsimp only); (repeat' split) <;> simp)

theorem execDomainPowerDown_frame (d : Domain) (s u : State) (h : execDomainPowerDown d s = .next u) :
    u.pending = s.pending ∧ u.variant = s.variant ∧ u.otp = s.otp ∧ u.masters.length = s.masters.length ∧
    u.cores.channels.length = s.cores.channels.length ∧ u.regs.debugLevel = s.regs.debugLevel ∧ u.store.cs = s.store.cs ∧
    u.store.csDev = s.store.csDev ∧ u.store.granules = s.store.granules ∧ u.pins = s.pins ∧ u.stream = s.stream ∧
    u.loader = s.loader ∧ u.conservator = s.conservator ∧ u.egress = s.egress ∧ u.repair = s.repair ∧ u.shadow = s.shadow ∧
    u.inForce = s.inForce ∧ u.otpRequest = s.otpRequest ∧ u.heldCommands = s.heldCommands ∧ u.crossReads = s.crossReads := by
  simp only [execDomainPowerDown, Host.Outcome.next.injEq] at h
  subst h
  first | (simp; done) | ((try dsimp only); (repeat' split) <;> simp)

theorem execWakePin_frame (p : WakeSample) (s u : State) (h : execWakePin p s = .next u) :
    u.pending = s.pending ∧ u.variant = s.variant ∧ u.otp = s.otp ∧ u.masters.length = s.masters.length ∧
    u.cores.channels.length = s.cores.channels.length ∧ u.regs.debugLevel = s.regs.debugLevel ∧ u.store.cs = s.store.cs ∧
    u.store.csDev = s.store.csDev ∧ u.store.granules = s.store.granules ∧ u.pins = s.pins ∧ u.stream = s.stream ∧
    u.loader = s.loader ∧ u.conservator = s.conservator ∧ u.egress = s.egress ∧ u.repair = s.repair ∧ u.shadow = s.shadow ∧
    u.inForce = s.inForce ∧ u.otpRequest = s.otpRequest ∧ u.heldCommands = s.heldCommands ∧ u.crossReads = s.crossReads := by
  simp only [execWakePin, Host.Outcome.next.injEq] at h
  subst h
  first | (simp; done) | ((try dsimp only); (repeat' split) <;> simp)

theorem execPerstDeassert_frame  (s u : State) (h : execPerstDeassert s = .next u) :
    u.pending = s.pending ∧ u.variant = s.variant ∧ u.otp = s.otp ∧ u.masters.length = s.masters.length ∧
    u.cores.channels.length = s.cores.channels.length ∧ u.regs.debugLevel = s.regs.debugLevel ∧ u.store.cs = s.store.cs ∧
    u.store.csDev = s.store.csDev ∧ u.store.granules = s.store.granules ∧ u.pins = s.pins ∧ u.stream = s.stream ∧
    u.loader = s.loader ∧ u.conservator = s.conservator ∧ u.egress = s.egress ∧ u.repair = s.repair ∧ u.shadow = s.shadow ∧
    u.inForce = s.inForce ∧ u.otpRequest = s.otpRequest ∧ u.heldCommands = s.heldCommands ∧ u.crossReads = s.crossReads := by
  simp only [execPerstDeassert, Host.Outcome.next.injEq] at h
  subst h
  first | (simp; done) | ((try dsimp only); (repeat' split) <;> simp)

theorem execControlBusWake_frame  (s u : State) (h : execControlBusWake s = .next u) :
    u.pending = s.pending ∧ u.variant = s.variant ∧ u.otp = s.otp ∧ u.masters.length = s.masters.length ∧
    u.cores.channels.length = s.cores.channels.length ∧ u.regs.debugLevel = s.regs.debugLevel ∧ u.store.cs = s.store.cs ∧
    u.store.csDev = s.store.csDev ∧ u.store.granules = s.store.granules ∧ u.pins = s.pins ∧ u.stream = s.stream ∧
    u.loader = s.loader ∧ u.conservator = s.conservator ∧ u.egress = s.egress ∧ u.repair = s.repair ∧ u.shadow = s.shadow ∧
    u.inForce = s.inForce ∧ u.otpRequest = s.otpRequest ∧ u.heldCommands = s.heldCommands ∧ u.crossReads = s.crossReads := by
  simp only [execControlBusWake, Host.Outcome.next.injEq] at h
  subst h
  first | (simp; done) | ((try dsimp only); (repeat' split) <;> simp)

theorem execPowerTransitionDone_frame  (s u : State) (h : execPowerTransitionDone s = .next u) :
    u.pending = s.pending ∧ u.variant = s.variant ∧ u.otp = s.otp ∧ u.masters.length = s.masters.length ∧
    u.cores.channels.length = s.cores.channels.length ∧ u.regs.debugLevel = s.regs.debugLevel ∧ u.store.cs = s.store.cs ∧
    u.store.csDev = s.store.csDev ∧ u.store.granules = s.store.granules ∧ u.stream = s.stream ∧ u.loader = s.loader ∧
    u.repair = s.repair ∧ u.shadow = s.shadow ∧ u.inForce = s.inForce ∧ u.otpRequest = s.otpRequest ∧
    u.crossReads = s.crossReads ∧ u.pins.pins.length = s.pins.pins.length := by
  simp only [execPowerTransitionDone, Host.Outcome.next.injEq] at h
  subst h
  first | (simp; done) | ((try dsimp only); (repeat' split) <;> simp)

theorem execRailsGood_frame (side : Side) (s u : State) (h : execRailsGood side s = .next u) :
    u.pending = s.pending ∧ u.variant = s.variant ∧ u.otp = s.otp ∧ u.cores.channels.length = s.cores.channels.length ∧
    u.store.cs = s.store.cs ∧ u.store.csDev = s.store.csDev ∧ u.store.granules = s.store.granules ∧
    u.conservator = s.conservator ∧ u.egress = s.egress ∧ u.repair = s.repair ∧ u.pins.pins.length = s.pins.pins.length := by
  simp only [execRailsGood, Host.Outcome.next.injEq] at h
  subst h
  first | (simp; done) | ((try dsimp only); (repeat' split) <;> simp)

theorem execRailFail_frame (side : Side) (s u : State) (h : execRailFail side s = .next u) :
    u.pending = s.pending ∧ u.variant = s.variant ∧ u.otp = s.otp ∧ u.cores.channels.length = s.cores.channels.length ∧
    u.pins.pins.length = s.pins.pins.length := by
  simp only [execRailFail, Host.Outcome.next.injEq] at h
  subst h
  first | (simp; done) | ((try dsimp only); (repeat' split) <;> simp)

theorem execTrefLoss_frame  (s u : State) (h : execTrefLoss s = .next u) :
    u.pending = s.pending ∧ u.variant = s.variant ∧ u.otp = s.otp ∧ u.masters.length = s.masters.length ∧
    u.cores.channels.length = s.cores.channels.length ∧ u.regs.debugLevel = s.regs.debugLevel ∧ u.store.cs = s.store.cs ∧
    u.store.csDev = s.store.csDev ∧ u.store.granules = s.store.granules ∧ u.pins = s.pins ∧ u.stream = s.stream ∧
    u.loader = s.loader ∧ u.conservator = s.conservator ∧ u.repair = s.repair ∧ u.shadow = s.shadow ∧
    u.inForce = s.inForce ∧ u.otpRequest = s.otpRequest ∧ u.heldCommands = s.heldCommands ∧ u.crossReads = s.crossReads := by
  simp only [execTrefLoss, Host.Outcome.next.injEq] at h
  subst h
  first | (simp; done) | ((try dsimp only); (repeat' split) <;> simp)

theorem execTrefReturn_frame  (s u : State) (h : execTrefReturn s = .next u) :
    u.pending = s.pending ∧ u.variant = s.variant ∧ u.otp = s.otp ∧ u.masters.length = s.masters.length ∧
    u.cores.channels.length = s.cores.channels.length ∧ u.regs.debugLevel = s.regs.debugLevel ∧ u.store.cs = s.store.cs ∧
    u.store.csDev = s.store.csDev ∧ u.store.granules = s.store.granules ∧ u.stream = s.stream ∧ u.loader = s.loader ∧
    u.conservator = s.conservator ∧ u.egress = s.egress ∧ u.repair = s.repair ∧ u.shadow = s.shadow ∧
    u.inForce = s.inForce ∧ u.otpRequest = s.otpRequest ∧ u.heldCommands = s.heldCommands ∧ u.crossReads = s.crossReads ∧
    u.pins.pins.length = s.pins.pins.length := by
  simp only [execTrefReturn, Host.Outcome.next.injEq] at h
  subst h
  first | (simp; done) | ((try dsimp only); (repeat' split) <;> simp)

theorem execHrefLoss_frame  (s u : State) (h : execHrefLoss s = .next u) :
    u.pending = s.pending ∧ u.variant = s.variant ∧ u.otp = s.otp ∧ u.cores.channels.length = s.cores.channels.length ∧
    u.store.cs = s.store.cs ∧ u.store.csDev = s.store.csDev ∧ u.store.granules = s.store.granules ∧
    u.conservator = s.conservator ∧ u.egress = s.egress ∧ u.repair = s.repair ∧ u.pins.pins.length = s.pins.pins.length := by
  simp only [execHrefLoss, Host.Outcome.next.injEq] at h
  subst h
  first | (simp; done) | ((try dsimp only); (repeat' split) <;> simp)

theorem execClockChange_frame  (s u : State) (h : execClockChange s = .next u) :
    u.pending = s.pending ∧ u.variant = s.variant ∧ u.otp = s.otp ∧ u.masters.length = s.masters.length ∧
    u.cores.channels.length = s.cores.channels.length ∧ u.regs.debugLevel = s.regs.debugLevel ∧ u.store.cs = s.store.cs ∧
    u.store.csDev = s.store.csDev ∧ u.store.granules = s.store.granules ∧ u.pins = s.pins ∧ u.stream = s.stream ∧
    u.loader = s.loader ∧ u.conservator = s.conservator ∧ u.egress = s.egress ∧ u.repair = s.repair ∧ u.shadow = s.shadow ∧
    u.inForce = s.inForce ∧ u.otpRequest = s.otpRequest ∧ u.heldCommands = s.heldCommands ∧ u.crossReads = s.crossReads := by
  simp only [execClockChange, Host.Outcome.next.injEq] at h
  subst h
  first | (simp; done) | ((try dsimp only); (repeat' split) <;> simp)

theorem execRelockFail_frame  (s u : State) (h : execRelockFail s = .next u) :
    u.pending = s.pending ∧ u.variant = s.variant ∧ u.otp = s.otp ∧ u.masters.length = s.masters.length ∧
    u.cores.channels.length = s.cores.channels.length ∧ u.regs.debugLevel = s.regs.debugLevel ∧ u.store.cs = s.store.cs ∧
    u.store.csDev = s.store.csDev ∧ u.store.granules = s.store.granules ∧ u.pins = s.pins ∧ u.stream = s.stream ∧
    u.loader = s.loader ∧ u.conservator = s.conservator ∧ u.egress = s.egress ∧ u.repair = s.repair ∧
    u.otpRequest = s.otpRequest ∧ u.heldCommands = s.heldCommands ∧ u.crossReads = s.crossReads := by
  simp only [execRelockFail, Host.Outcome.next.injEq] at h
  subst h
  first | (simp; done) | ((try dsimp only); (repeat' split) <;> simp)

theorem execFieldResetDuringLoad_frame  (s u : State) (h : execFieldResetDuringLoad s = .next u) :
    u.pending = s.pending ∧ u.variant = s.variant ∧ u.otp = s.otp ∧ u.masters.length = s.masters.length ∧
    u.cores.channels.length = s.cores.channels.length ∧ u.regs.debugLevel = s.regs.debugLevel ∧ u.store.cs = s.store.cs ∧
    u.store.csDev = s.store.csDev ∧ u.store.granules = s.store.granules ∧ u.pins = s.pins ∧ u.stream = s.stream ∧
    u.power = s.power ∧ u.conservator = s.conservator ∧ u.egress = s.egress ∧ u.repair = s.repair ∧ u.shadow = s.shadow ∧
    u.inForce = s.inForce ∧ u.otpRequest = s.otpRequest ∧ u.heldCommands = s.heldCommands ∧ u.crossReads = s.crossReads := by
  simp only [execFieldResetDuringLoad, Host.Outcome.next.injEq] at h
  subst h
  first | (simp; done) | ((try dsimp only); (repeat' split) <;> simp)

theorem execWatchdogExpiry_frame (c : Core) (s u : State) (h : execWatchdogExpiry c s = .next u) :
    u.pending = s.pending ∧ u.variant = s.variant ∧ u.otp = s.otp ∧ u.masters.length = s.masters.length ∧
    u.cores.channels.length = s.cores.channels.length ∧ u.regs.debugLevel = s.regs.debugLevel ∧ u.store.cs = s.store.cs ∧
    u.store.csDev = s.store.csDev ∧ u.store.granules = s.store.granules ∧ u.pins = s.pins ∧ u.stream = s.stream ∧
    u.power = s.power ∧ u.loader = s.loader ∧ u.conservator = s.conservator ∧ u.egress = s.egress ∧ u.repair = s.repair ∧
    u.shadow = s.shadow ∧ u.inForce = s.inForce ∧ u.otpRequest = s.otpRequest ∧ u.heldCommands = s.heldCommands ∧
    u.crossReads = s.crossReads := by
  simp only [execWatchdogExpiry, Host.Outcome.next.injEq] at h
  subst h
  first | (simp; done) | ((try dsimp only); (repeat' split) <;> simp)

theorem execCoreRestarted_frame (c : Core) (s u : State) (h : execCoreRestarted c s = .next u) :
    u.pending = s.pending ∧ u.variant = s.variant ∧ u.otp = s.otp ∧ u.masters.length = s.masters.length ∧
    u.cores.channels.length = s.cores.channels.length ∧ u.regs.debugLevel = s.regs.debugLevel ∧ u.store.cs = s.store.cs ∧
    u.store.csDev = s.store.csDev ∧ u.store.granules = s.store.granules ∧ u.pins = s.pins ∧ u.stream = s.stream ∧
    u.power = s.power ∧ u.loader = s.loader ∧ u.conservator = s.conservator ∧ u.egress = s.egress ∧ u.repair = s.repair ∧
    u.shadow = s.shadow ∧ u.inForce = s.inForce ∧ u.otpRequest = s.otpRequest ∧ u.heldCommands = s.heldCommands ∧
    u.crossReads = s.crossReads := by
  simp only [execCoreRestarted, Host.Outcome.next.injEq] at h
  subst h
  first | (simp; done) | ((try dsimp only); (repeat' split) <;> simp)

theorem execServiceCallTimeout_frame (slot : Nat) (s u : State) (h : execServiceCallTimeout slot s = .next u) :
    u.pending = s.pending ∧ u.variant = s.variant ∧ u.otp = s.otp ∧ u.masters.length = s.masters.length ∧
    u.cores.channels.length = s.cores.channels.length ∧ u.regs.debugLevel = s.regs.debugLevel ∧ u.store.cs = s.store.cs ∧
    u.store.csDev = s.store.csDev ∧ u.store.granules = s.store.granules ∧ u.pins = s.pins ∧ u.stream = s.stream ∧
    u.power = s.power ∧ u.loader = s.loader ∧ u.conservator = s.conservator ∧ u.egress = s.egress ∧ u.repair = s.repair ∧
    u.shadow = s.shadow ∧ u.inForce = s.inForce ∧ u.otpRequest = s.otpRequest ∧ u.heldCommands = s.heldCommands ∧
    u.crossReads = s.crossReads := by
  simp only [execServiceCallTimeout, Host.Outcome.next.injEq] at h
  subst h
  first | (simp; done) | ((try dsimp only); (repeat' split) <;> simp)

theorem execLoadReport_frame (slot : Nat) (s u : State) (h : execLoadReport slot s = .next u) :
    u.pending = s.pending ∧ u.variant = s.variant ∧ u.otp = s.otp ∧ u.masters.length = s.masters.length ∧
    u.cores.channels.length = s.cores.channels.length ∧ u.regs.debugLevel = s.regs.debugLevel ∧ u.store.cs = s.store.cs ∧
    u.store.csDev = s.store.csDev ∧ u.store.granules = s.store.granules ∧ u.pins = s.pins ∧ u.stream = s.stream ∧
    u.power = s.power ∧ u.loader = s.loader ∧ u.conservator = s.conservator ∧ u.egress = s.egress ∧ u.repair = s.repair ∧
    u.shadow = s.shadow ∧ u.inForce = s.inForce ∧ u.otpRequest = s.otpRequest ∧ u.heldCommands = s.heldCommands ∧
    u.crossReads = s.crossReads := by
  simp only [execLoadReport, Host.Outcome.next.injEq] at h
  subst h
  first | (simp; done) | ((try dsimp only); (repeat' split) <;> simp)

theorem execKeyProvision_frame (slot : Nat) (s u : State) (h : execKeyProvision slot s = .next u) :
    u.pending = s.pending ∧ u.variant = s.variant ∧ u.masters.length = s.masters.length ∧
    u.cores.channels.length = s.cores.channels.length ∧ u.regs.debugLevel = s.regs.debugLevel ∧ u.store.cs = s.store.cs ∧
    u.store.csDev = s.store.csDev ∧ u.store.granules = s.store.granules ∧ u.pins = s.pins ∧ u.stream = s.stream ∧
    u.power = s.power ∧ u.loader = s.loader ∧ u.conservator = s.conservator ∧ u.egress = s.egress ∧ u.repair = s.repair ∧
    u.shadow = s.shadow ∧ u.inForce = s.inForce ∧ u.otpRequest = s.otpRequest ∧ u.heldCommands = s.heldCommands ∧
    u.crossReads = s.crossReads := by
  unfold execKeyProvision at h
  generalize keyUnwrap = f at h
  injection h with h
  subst h
  (repeat' split) <;> simp

theorem execBarrierCounters_frame (slot : Nat) (s u : State) (h : execBarrierCounters slot s = .next u) :
    u.pending = s.pending ∧ u.variant = s.variant ∧ u.otp = s.otp ∧ u.masters.length = s.masters.length ∧
    u.cores.channels.length = s.cores.channels.length ∧ u.regs.debugLevel = s.regs.debugLevel ∧ u.store.cs = s.store.cs ∧
    u.store.csDev = s.store.csDev ∧ u.store.granules = s.store.granules ∧ u.pins = s.pins ∧ u.stream = s.stream ∧
    u.power = s.power ∧ u.loader = s.loader ∧ u.conservator = s.conservator ∧ u.egress = s.egress ∧ u.repair = s.repair ∧
    u.shadow = s.shadow ∧ u.inForce = s.inForce ∧ u.otpRequest = s.otpRequest ∧ u.heldCommands = s.heldCommands ∧
    u.crossReads = s.crossReads := by
  simp only [execBarrierCounters, Host.Outcome.next.injEq] at h
  subst h
  first | (simp; done) | ((try dsimp only); (repeat' split) <;> simp)

theorem execLinkCounters_frame (slot : Nat) (s u : State) (h : execLinkCounters slot s = .next u) :
    u.pending = s.pending ∧ u.variant = s.variant ∧ u.otp = s.otp ∧ u.masters.length = s.masters.length ∧
    u.cores.channels.length = s.cores.channels.length ∧ u.regs.debugLevel = s.regs.debugLevel ∧ u.store.cs = s.store.cs ∧
    u.store.csDev = s.store.csDev ∧ u.store.granules = s.store.granules ∧ u.pins = s.pins ∧ u.stream = s.stream ∧
    u.power = s.power ∧ u.loader = s.loader ∧ u.conservator = s.conservator ∧ u.egress = s.egress ∧ u.repair = s.repair ∧
    u.shadow = s.shadow ∧ u.inForce = s.inForce ∧ u.otpRequest = s.otpRequest ∧ u.heldCommands = s.heldCommands ∧
    u.crossReads = s.crossReads := by
  simp only [execLinkCounters, Host.Outcome.next.injEq] at h
  subst h
  first | (simp; done) | ((try dsimp only); (repeat' split) <;> simp)

theorem execSnapshotCopy_frame (slot : Nat) (s u : State) (h : execSnapshotCopy slot s = .next u) :
    u.pending = s.pending ∧ u.variant = s.variant ∧ u.otp = s.otp ∧ u.masters.length = s.masters.length ∧
    u.cores.channels.length = s.cores.channels.length ∧ u.regs.debugLevel = s.regs.debugLevel ∧ u.store.cs = s.store.cs ∧
    u.store.csDev = s.store.csDev ∧ u.store.granules = s.store.granules ∧ u.pins = s.pins ∧ u.stream = s.stream ∧
    u.power = s.power ∧ u.loader = s.loader ∧ u.conservator = s.conservator ∧ u.egress = s.egress ∧ u.repair = s.repair ∧
    u.shadow = s.shadow ∧ u.inForce = s.inForce ∧ u.otpRequest = s.otpRequest ∧ u.heldCommands = s.heldCommands ∧
    u.crossReads = s.crossReads := by
  simp only [execSnapshotCopy, Host.Outcome.next.injEq] at h
  subst h
  first | (simp; done) | ((try dsimp only); (repeat' split) <;> simp)

theorem execFabricCapture_frame (slot : Nat) (s u : State) (h : execFabricCapture slot s = .next u) :
    u.pending = s.pending ∧ u.variant = s.variant ∧ u.otp = s.otp ∧ u.masters.length = s.masters.length ∧
    u.cores.channels.length = s.cores.channels.length ∧ u.regs.debugLevel = s.regs.debugLevel ∧ u.store.cs = s.store.cs ∧
    u.store.csDev = s.store.csDev ∧ u.store.granules = s.store.granules ∧ u.pins = s.pins ∧ u.stream = s.stream ∧
    u.power = s.power ∧ u.loader = s.loader ∧ u.conservator = s.conservator ∧ u.egress = s.egress ∧ u.repair = s.repair ∧
    u.shadow = s.shadow ∧ u.inForce = s.inForce ∧ u.otpRequest = s.otpRequest ∧ u.heldCommands = s.heldCommands ∧
    u.crossReads = s.crossReads := by
  simp only [execFabricCapture, Host.Outcome.next.injEq] at h
  subst h
  first | (simp; done) | ((try dsimp only); (repeat' split) <;> simp)

theorem execCaptureOnStop_frame  (s u : State) (h : execCaptureOnStop s = .next u) :
    u.pending = s.pending ∧ u.variant = s.variant ∧ u.otp = s.otp ∧ u.masters.length = s.masters.length ∧
    u.cores.channels.length = s.cores.channels.length ∧ u.regs.debugLevel = s.regs.debugLevel ∧ u.store.cs = s.store.cs ∧
    u.store.csDev = s.store.csDev ∧ u.store.granules = s.store.granules ∧ u.pins = s.pins ∧ u.stream = s.stream ∧
    u.power = s.power ∧ u.loader = s.loader ∧ u.conservator = s.conservator ∧ u.egress = s.egress ∧ u.repair = s.repair ∧
    u.shadow = s.shadow ∧ u.inForce = s.inForce ∧ u.otpRequest = s.otpRequest ∧ u.heldCommands = s.heldCommands ∧
    u.crossReads = s.crossReads := by
  simp only [execCaptureOnStop, Host.Outcome.next.injEq] at h
  subst h
  first | (simp; done) | ((try dsimp only); (repeat' split) <;> simp)

theorem execFabricReadback_frame (slot : Nat) (s u : State) (h : execFabricReadback slot s = .next u) :
    u.pending = s.pending ∧ u.variant = s.variant ∧ u.otp = s.otp ∧ u.masters.length = s.masters.length ∧
    u.cores.channels.length = s.cores.channels.length ∧ u.regs.debugLevel = s.regs.debugLevel ∧ u.store.cs = s.store.cs ∧
    u.store.csDev = s.store.csDev ∧ u.store.granules = s.store.granules ∧ u.pins = s.pins ∧ u.stream = s.stream ∧
    u.power = s.power ∧ u.loader = s.loader ∧ u.conservator = s.conservator ∧ u.egress = s.egress ∧ u.repair = s.repair ∧
    u.shadow = s.shadow ∧ u.inForce = s.inForce ∧ u.otpRequest = s.otpRequest ∧ u.heldCommands = s.heldCommands ∧
    u.crossReads = s.crossReads := by
  simp only [execFabricReadback, Host.Outcome.next.injEq] at h
  subst h
  first | (simp; done) | ((try dsimp only); (repeat' split) <;> simp)

theorem execMemInfo_frame (slot : Nat) (s u : State) (h : execMemInfo slot s = .next u) :
    u.pending = s.pending ∧ u.variant = s.variant ∧ u.otp = s.otp ∧ u.masters.length = s.masters.length ∧
    u.cores.channels.length = s.cores.channels.length ∧ u.regs.debugLevel = s.regs.debugLevel ∧ u.store.cs = s.store.cs ∧
    u.store.csDev = s.store.csDev ∧ u.store.granules = s.store.granules ∧ u.pins = s.pins ∧ u.stream = s.stream ∧
    u.power = s.power ∧ u.loader = s.loader ∧ u.conservator = s.conservator ∧ u.egress = s.egress ∧ u.repair = s.repair ∧
    u.shadow = s.shadow ∧ u.inForce = s.inForce ∧ u.otpRequest = s.otpRequest ∧ u.heldCommands = s.heldCommands ∧
    u.crossReads = s.crossReads := by
  simp only [execMemInfo, Host.Outcome.next.injEq] at h
  subst h
  first | (simp; done) | ((try dsimp only); (repeat' split) <;> simp)

theorem execRaConfigure_frame (slot : Nat) (s u : State) (h : execRaConfigure slot s = .next u) :
    u.pending = s.pending ∧ u.variant = s.variant ∧ u.otp = s.otp ∧ u.masters.length = s.masters.length ∧
    u.cores.channels.length = s.cores.channels.length ∧ u.regs.debugLevel = s.regs.debugLevel ∧ u.store.cs = s.store.cs ∧
    u.store.csDev = s.store.csDev ∧ u.store.granules = s.store.granules ∧ u.pins = s.pins ∧ u.stream = s.stream ∧
    u.power = s.power ∧ u.loader = s.loader ∧ u.egress = s.egress ∧ u.shadow = s.shadow ∧ u.inForce = s.inForce ∧
    u.otpRequest = s.otpRequest ∧ u.heldCommands = s.heldCommands ∧ u.crossReads = s.crossReads := by
  simp only [execRaConfigure, Host.Outcome.next.injEq] at h
  subst h
  first | (simp; done) | ((try dsimp only); (repeat' split) <;> simp)

theorem execRaClear_frame (slot : Nat) (s u : State) (h : execRaClear slot s = .next u) :
    u.pending = s.pending ∧ u.variant = s.variant ∧ u.otp = s.otp ∧ u.masters.length = s.masters.length ∧
    u.cores.channels.length = s.cores.channels.length ∧ u.regs.debugLevel = s.regs.debugLevel ∧ u.store.cs = s.store.cs ∧
    u.store.csDev = s.store.csDev ∧ u.store.granules = s.store.granules ∧ u.pins = s.pins ∧ u.stream = s.stream ∧
    u.power = s.power ∧ u.loader = s.loader ∧ u.egress = s.egress ∧ u.shadow = s.shadow ∧ u.inForce = s.inForce ∧
    u.otpRequest = s.otpRequest ∧ u.heldCommands = s.heldCommands ∧ u.crossReads = s.crossReads := by
  simp only [execRaClear, Host.Outcome.next.injEq] at h
  subst h
  first | (simp; done) | ((try dsimp only); (repeat' split) <;> simp)

theorem execRaRead_frame (slot : Nat) (s u : State) (h : execRaRead slot s = .next u) :
    u.pending = s.pending ∧ u.variant = s.variant ∧ u.otp = s.otp ∧ u.masters.length = s.masters.length ∧
    u.cores.channels.length = s.cores.channels.length ∧ u.regs.debugLevel = s.regs.debugLevel ∧ u.store.cs = s.store.cs ∧
    u.store.csDev = s.store.csDev ∧ u.store.granules = s.store.granules ∧ u.pins = s.pins ∧ u.stream = s.stream ∧
    u.power = s.power ∧ u.loader = s.loader ∧ u.conservator = s.conservator ∧ u.egress = s.egress ∧ u.repair = s.repair ∧
    u.shadow = s.shadow ∧ u.inForce = s.inForce ∧ u.otpRequest = s.otpRequest ∧ u.heldCommands = s.heldCommands ∧
    u.crossReads = s.crossReads := by
  simp only [execRaRead, Host.Outcome.next.injEq] at h
  subst h
  first | (simp; done) | ((try dsimp only); (repeat' split) <;> simp)

theorem execRaStatus_frame (slot : Nat) (s u : State) (h : execRaStatus slot s = .next u) :
    u.pending = s.pending ∧ u.variant = s.variant ∧ u.otp = s.otp ∧ u.masters.length = s.masters.length ∧
    u.cores.channels.length = s.cores.channels.length ∧ u.regs.debugLevel = s.regs.debugLevel ∧ u.store.cs = s.store.cs ∧
    u.store.csDev = s.store.csDev ∧ u.store.granules = s.store.granules ∧ u.pins = s.pins ∧ u.stream = s.stream ∧
    u.power = s.power ∧ u.loader = s.loader ∧ u.conservator = s.conservator ∧ u.egress = s.egress ∧ u.repair = s.repair ∧
    u.shadow = s.shadow ∧ u.inForce = s.inForce ∧ u.otpRequest = s.otpRequest ∧ u.heldCommands = s.heldCommands ∧
    u.crossReads = s.crossReads := by
  simp only [execRaStatus, Host.Outcome.next.injEq] at h
  subst h
  first | (simp; done) | ((try dsimp only); (repeat' split) <;> simp)

theorem execSurveyRead_frame (slot : Nat) (s u : State) (h : execSurveyRead slot s = .next u) :
    u.pending = s.pending ∧ u.variant = s.variant ∧ u.otp = s.otp ∧ u.masters.length = s.masters.length ∧
    u.cores.channels.length = s.cores.channels.length ∧ u.regs.debugLevel = s.regs.debugLevel ∧ u.store.cs = s.store.cs ∧
    u.store.csDev = s.store.csDev ∧ u.store.granules = s.store.granules ∧ u.pins = s.pins ∧ u.stream = s.stream ∧
    u.power = s.power ∧ u.loader = s.loader ∧ u.conservator = s.conservator ∧ u.egress = s.egress ∧ u.repair = s.repair ∧
    u.shadow = s.shadow ∧ u.inForce = s.inForce ∧ u.otpRequest = s.otpRequest ∧ u.heldCommands = s.heldCommands ∧
    u.crossReads = s.crossReads := by
  simp only [execSurveyRead, Host.Outcome.next.injEq] at h
  subst h
  first | (simp; done) | ((try dsimp only); (repeat' split) <;> simp)

theorem execScrubUnlock_frame (slot : Nat) (s u : State) (h : execScrubUnlock slot s = .next u) :
    u.pending = s.pending ∧ u.variant = s.variant ∧ u.otp = s.otp ∧ u.masters.length = s.masters.length ∧
    u.cores.channels.length = s.cores.channels.length ∧ u.regs.debugLevel = s.regs.debugLevel ∧ u.store.cs = s.store.cs ∧
    u.store.csDev = s.store.csDev ∧ u.store.granules = s.store.granules ∧ u.pins = s.pins ∧ u.stream = s.stream ∧
    u.power = s.power ∧ u.loader = s.loader ∧ u.conservator = s.conservator ∧ u.egress = s.egress ∧ u.repair = s.repair ∧
    u.shadow = s.shadow ∧ u.inForce = s.inForce ∧ u.otpRequest = s.otpRequest ∧ u.heldCommands = s.heldCommands ∧
    u.crossReads = s.crossReads := by
  simp only [execScrubUnlock, Host.Outcome.next.injEq] at h
  subst h
  first | (simp; done) | ((try dsimp only); (repeat' split) <;> simp)

theorem execCheckWrite_frame (slot : Nat) (s u : State) (h : execCheckWrite slot s = .next u) :
    u.pending = s.pending ∧ u.variant = s.variant ∧ u.otp = s.otp ∧ u.masters.length = s.masters.length ∧
    u.cores.channels.length = s.cores.channels.length ∧ u.regs.debugLevel = s.regs.debugLevel ∧ u.pins = s.pins ∧
    u.stream = s.stream ∧ u.power = s.power ∧ u.loader = s.loader ∧ u.conservator = s.conservator ∧ u.egress = s.egress ∧
    u.repair = s.repair ∧ u.shadow = s.shadow ∧ u.inForce = s.inForce ∧ u.otpRequest = s.otpRequest ∧
    u.heldCommands = s.heldCommands ∧ u.crossReads = s.crossReads := by
  simp only [execCheckWrite, Host.Outcome.next.injEq] at h
  subst h
  first | (simp; done) | ((try dsimp only); (repeat' split) <;> simp)

theorem execCheckRead_frame (slot : Nat) (s u : State) (h : execCheckRead slot s = .next u) :
    u.pending = s.pending ∧ u.variant = s.variant ∧ u.otp = s.otp ∧ u.masters.length = s.masters.length ∧
    u.cores.channels.length = s.cores.channels.length ∧ u.regs.debugLevel = s.regs.debugLevel ∧ u.store.cs = s.store.cs ∧
    u.store.csDev = s.store.csDev ∧ u.store.granules = s.store.granules ∧ u.pins = s.pins ∧ u.stream = s.stream ∧
    u.power = s.power ∧ u.loader = s.loader ∧ u.conservator = s.conservator ∧ u.egress = s.egress ∧ u.repair = s.repair ∧
    u.shadow = s.shadow ∧ u.inForce = s.inForce ∧ u.otpRequest = s.otpRequest ∧ u.heldCommands = s.heldCommands ∧
    u.crossReads = s.crossReads := by
  simp only [execCheckRead, Host.Outcome.next.injEq] at h
  subst h
  first | (simp; done) | ((try dsimp only); (repeat' split) <;> simp)

theorem execCheckInject_frame (slot : Nat) (s u : State) (h : execCheckInject slot s = .next u) :
    u.pending = s.pending ∧ u.variant = s.variant ∧ u.otp = s.otp ∧ u.masters.length = s.masters.length ∧
    u.cores.channels.length = s.cores.channels.length ∧ u.regs.debugLevel = s.regs.debugLevel ∧ u.store.cs = s.store.cs ∧
    u.store.csDev = s.store.csDev ∧ u.store.granules = s.store.granules ∧ u.pins = s.pins ∧ u.stream = s.stream ∧
    u.power = s.power ∧ u.loader = s.loader ∧ u.conservator = s.conservator ∧ u.egress = s.egress ∧ u.repair = s.repair ∧
    u.shadow = s.shadow ∧ u.inForce = s.inForce ∧ u.otpRequest = s.otpRequest ∧ u.heldCommands = s.heldCommands ∧
    u.crossReads = s.crossReads := by
  simp only [execCheckInject, Host.Outcome.next.injEq] at h
  subst h
  first | (simp; done) | ((try dsimp only); (repeat' split) <;> simp)

theorem execScrubCounters_frame (slot : Nat) (s u : State) (h : execScrubCounters slot s = .next u) :
    u.pending = s.pending ∧ u.variant = s.variant ∧ u.otp = s.otp ∧ u.masters.length = s.masters.length ∧
    u.cores.channels.length = s.cores.channels.length ∧ u.regs.debugLevel = s.regs.debugLevel ∧ u.store.cs = s.store.cs ∧
    u.store.csDev = s.store.csDev ∧ u.store.granules = s.store.granules ∧ u.pins = s.pins ∧ u.stream = s.stream ∧
    u.power = s.power ∧ u.loader = s.loader ∧ u.conservator = s.conservator ∧ u.egress = s.egress ∧ u.repair = s.repair ∧
    u.shadow = s.shadow ∧ u.inForce = s.inForce ∧ u.otpRequest = s.otpRequest ∧ u.heldCommands = s.heldCommands ∧
    u.crossReads = s.crossReads := by
  simp only [execScrubCounters, Host.Outcome.next.injEq] at h
  subst h
  first | (simp; done) | ((try dsimp only); (repeat' split) <;> simp)

theorem execNocStatus_frame (slot : Nat) (s u : State) (h : execNocStatus slot s = .next u) :
    u.pending = s.pending ∧ u.variant = s.variant ∧ u.otp = s.otp ∧ u.masters.length = s.masters.length ∧
    u.cores.channels.length = s.cores.channels.length ∧ u.regs.debugLevel = s.regs.debugLevel ∧ u.store.cs = s.store.cs ∧
    u.store.csDev = s.store.csDev ∧ u.store.granules = s.store.granules ∧ u.pins = s.pins ∧ u.stream = s.stream ∧
    u.power = s.power ∧ u.loader = s.loader ∧ u.conservator = s.conservator ∧ u.egress = s.egress ∧ u.repair = s.repair ∧
    u.shadow = s.shadow ∧ u.inForce = s.inForce ∧ u.otpRequest = s.otpRequest ∧ u.heldCommands = s.heldCommands ∧
    u.crossReads = s.crossReads := by
  simp only [execNocStatus, Host.Outcome.next.injEq] at h
  subst h
  first | (simp; done) | ((try dsimp only); (repeat' split) <;> simp)

theorem execEventRead_frame (slot : Nat) (s u : State) (h : execEventRead slot s = .next u) :
    u.pending = s.pending ∧ u.variant = s.variant ∧ u.otp = s.otp ∧ u.masters.length = s.masters.length ∧
    u.cores.channels.length = s.cores.channels.length ∧ u.regs.debugLevel = s.regs.debugLevel ∧ u.store.cs = s.store.cs ∧
    u.store.csDev = s.store.csDev ∧ u.store.granules = s.store.granules ∧ u.pins = s.pins ∧ u.stream = s.stream ∧
    u.power = s.power ∧ u.loader = s.loader ∧ u.conservator = s.conservator ∧ u.egress = s.egress ∧ u.repair = s.repair ∧
    u.shadow = s.shadow ∧ u.inForce = s.inForce ∧ u.otpRequest = s.otpRequest ∧ u.heldCommands = s.heldCommands ∧
    u.crossReads = s.crossReads := by
  simp only [execEventRead, Host.Outcome.next.injEq] at h
  subst h
  first | (simp; done) | ((try dsimp only); (repeat' split) <;> simp)

theorem execDebugChallenge_frame (slot : Nat) (s u : State) (h : execDebugChallenge slot s = .next u) :
    u.pending = s.pending ∧ u.variant = s.variant ∧ u.otp = s.otp ∧ u.masters.length = s.masters.length ∧
    u.cores.channels.length = s.cores.channels.length ∧ u.regs.debugLevel = s.regs.debugLevel ∧ u.store.cs = s.store.cs ∧
    u.store.csDev = s.store.csDev ∧ u.store.granules = s.store.granules ∧ u.pins = s.pins ∧ u.stream = s.stream ∧
    u.power = s.power ∧ u.loader = s.loader ∧ u.conservator = s.conservator ∧ u.egress = s.egress ∧ u.repair = s.repair ∧
    u.shadow = s.shadow ∧ u.inForce = s.inForce ∧ u.otpRequest = s.otpRequest ∧ u.heldCommands = s.heldCommands ∧
    u.crossReads = s.crossReads := by
  simp only [execDebugChallenge, Host.Outcome.next.injEq] at h
  subst h
  first | (simp; done) | ((try dsimp only); (repeat' split) <;> simp)

theorem execDebugResponse_frame (slot : Nat) (s u : State) (h : execDebugResponse slot s = .next u) :
    u.pending = s.pending ∧ u.variant = s.variant ∧ u.otp = s.otp ∧ u.masters.length = s.masters.length ∧
    u.cores.channels.length = s.cores.channels.length ∧ u.store.cs = s.store.cs ∧ u.store.csDev = s.store.csDev ∧
    u.store.granules = s.store.granules ∧ u.pins = s.pins ∧ u.stream = s.stream ∧ u.power = s.power ∧ u.loader = s.loader ∧
    u.conservator = s.conservator ∧ u.egress = s.egress ∧ u.repair = s.repair ∧ u.shadow = s.shadow ∧
    u.inForce = s.inForce ∧ u.otpRequest = s.otpRequest ∧ u.heldCommands = s.heldCommands ∧ u.crossReads = s.crossReads := by
  simp only [execDebugResponse, Host.Outcome.next.injEq] at h
  subst h
  first | (simp; done) | ((try dsimp only); (repeat' split) <;> simp)

theorem execTraceConfig_frame (slot : Nat) (s u : State) (h : execTraceConfig slot s = .next u) :
    u.pending = s.pending ∧ u.variant = s.variant ∧ u.otp = s.otp ∧ u.masters.length = s.masters.length ∧
    u.cores.channels.length = s.cores.channels.length ∧ u.regs.debugLevel = s.regs.debugLevel ∧ u.store.cs = s.store.cs ∧
    u.store.csDev = s.store.csDev ∧ u.store.granules = s.store.granules ∧ u.pins = s.pins ∧ u.stream = s.stream ∧
    u.power = s.power ∧ u.loader = s.loader ∧ u.conservator = s.conservator ∧ u.egress = s.egress ∧ u.repair = s.repair ∧
    u.shadow = s.shadow ∧ u.inForce = s.inForce ∧ u.otpRequest = s.otpRequest ∧ u.heldCommands = s.heldCommands ∧
    u.crossReads = s.crossReads := by
  simp only [execTraceConfig, Host.Outcome.next.injEq] at h
  subst h
  first | (simp; done) | ((try dsimp only); (repeat' split) <;> simp)

theorem execConnect_frame (flags : Byte) (s u : State) (h : execConnect flags s = .next u) :
    u.pending = s.pending ∧ u.variant = s.variant ∧ u.otp = s.otp ∧ u.masters.length = s.masters.length ∧
    u.cores.channels.length = s.cores.channels.length ∧ u.regs.debugLevel = s.regs.debugLevel ∧ u.store.cs = s.store.cs ∧
    u.store.csDev = s.store.csDev ∧ u.store.granules = s.store.granules ∧ u.pins = s.pins ∧ u.stream = s.stream ∧
    u.power = s.power ∧ u.loader = s.loader ∧ u.conservator = s.conservator ∧ u.egress = s.egress ∧ u.repair = s.repair ∧
    u.shadow = s.shadow ∧ u.inForce = s.inForce ∧ u.otpRequest = s.otpRequest ∧ u.heldCommands = s.heldCommands ∧
    u.crossReads = s.crossReads := by
  simp only [execConnect, Host.Outcome.next.injEq] at h
  subst h
  first | (simp; done) | ((try dsimp only); (repeat' split) <;> simp)

theorem execDebugRead_frame (space : Byte) (addr : DWord) (count : Nat) (s u : State) (h : execDebugRead space addr count s = .next u) :
    u.pending = s.pending ∧ u.variant = s.variant ∧ u.otp = s.otp ∧ u.masters.length = s.masters.length ∧
    u.cores.channels.length = s.cores.channels.length ∧ u.regs.debugLevel = s.regs.debugLevel ∧ u.store.cs = s.store.cs ∧
    u.store.csDev = s.store.csDev ∧ u.store.granules = s.store.granules ∧ u.pins = s.pins ∧ u.stream = s.stream ∧
    u.power = s.power ∧ u.loader = s.loader ∧ u.conservator = s.conservator ∧ u.egress = s.egress ∧ u.repair = s.repair ∧
    u.shadow = s.shadow ∧ u.inForce = s.inForce ∧ u.otpRequest = s.otpRequest ∧ u.heldCommands = s.heldCommands ∧
    u.crossReads = s.crossReads := by
  simp only [execDebugRead, Host.Outcome.next.injEq] at h
  subst h
  first | (simp; done) | ((try dsimp only); (repeat' split) <;> simp)

theorem execDebugWrite_frame (space : Byte) (addr : DWord) (words : List DWord) (s u : State) (h : execDebugWrite space addr words s = .next u) :
    u.pending = s.pending ∧ u.variant = s.variant ∧ u.otp = s.otp ∧ u.masters.length = s.masters.length ∧
    u.cores.channels.length = s.cores.channels.length ∧ u.crossReads = s.crossReads ∧
    u.pins.pins.length = s.pins.pins.length := by
  simp only [execDebugWrite, Host.Outcome.next.injEq] at h
  subst h
  first | (simp; done) | ((try dsimp only); (repeat' split) <;> simp)

theorem execHalt_frame (cores : BitVec 4) (s u : State) (h : execHalt cores s = .next u) :
    u.pending = s.pending ∧ u.variant = s.variant ∧ u.otp = s.otp ∧ u.masters.length = s.masters.length ∧
    u.cores.channels.length = s.cores.channels.length ∧ u.regs.debugLevel = s.regs.debugLevel ∧ u.store.cs = s.store.cs ∧
    u.store.csDev = s.store.csDev ∧ u.store.granules = s.store.granules ∧ u.stream = s.stream ∧ u.power = s.power ∧
    u.loader = s.loader ∧ u.conservator = s.conservator ∧ u.egress = s.egress ∧ u.repair = s.repair ∧ u.shadow = s.shadow ∧
    u.inForce = s.inForce ∧ u.otpRequest = s.otpRequest ∧ u.heldCommands = s.heldCommands ∧ u.crossReads = s.crossReads ∧
    u.pins.pins.length = s.pins.pins.length := by
  simp only [execHalt, Host.Outcome.next.injEq] at h
  subst h
  first | (simp; done) | ((try dsimp only); (repeat' split) <;> simp)

theorem execResume_frame (cores : BitVec 4) (s u : State) (h : execResume cores s = .next u) :
    u.pending = s.pending ∧ u.variant = s.variant ∧ u.otp = s.otp ∧ u.masters.length = s.masters.length ∧
    u.cores.channels.length = s.cores.channels.length ∧ u.regs.debugLevel = s.regs.debugLevel ∧ u.store.cs = s.store.cs ∧
    u.store.csDev = s.store.csDev ∧ u.store.granules = s.store.granules ∧ u.pins = s.pins ∧ u.stream = s.stream ∧
    u.power = s.power ∧ u.loader = s.loader ∧ u.conservator = s.conservator ∧ u.egress = s.egress ∧ u.repair = s.repair ∧
    u.shadow = s.shadow ∧ u.inForce = s.inForce ∧ u.otpRequest = s.otpRequest ∧ u.heldCommands = s.heldCommands ∧
    u.crossReads = s.crossReads := by
  simp only [execResume, Host.Outcome.next.injEq] at h
  subst h
  first | (simp; done) | ((try dsimp only); (repeat' split) <;> simp)

theorem execStep_frame (c : Core) (n : Nat) (s u : State) (h : execStep c n s = .next u) :
    u.pending = s.pending ∧ u.variant = s.variant ∧ u.otp = s.otp ∧ u.masters.length = s.masters.length ∧
    u.cores.channels.length = s.cores.channels.length ∧ u.regs.debugLevel = s.regs.debugLevel ∧ u.store.cs = s.store.cs ∧
    u.store.csDev = s.store.csDev ∧ u.store.granules = s.store.granules ∧ u.pins = s.pins ∧ u.stream = s.stream ∧
    u.power = s.power ∧ u.loader = s.loader ∧ u.conservator = s.conservator ∧ u.egress = s.egress ∧ u.repair = s.repair ∧
    u.shadow = s.shadow ∧ u.inForce = s.inForce ∧ u.otpRequest = s.otpRequest ∧ u.heldCommands = s.heldCommands ∧
    u.crossReads = s.crossReads := by
  simp only [execStep, Host.Outcome.next.injEq] at h
  subst h
  first | (simp; done) | ((try dsimp only); (repeat' split) <;> simp)

theorem execStepEnd_frame (c : Core) (s u : State) (h : execStepEnd c s = .next u) :
    u.pending = s.pending ∧ u.variant = s.variant ∧ u.otp = s.otp ∧ u.masters.length = s.masters.length ∧
    u.cores.channels.length = s.cores.channels.length ∧ u.regs.debugLevel = s.regs.debugLevel ∧ u.store.cs = s.store.cs ∧
    u.store.csDev = s.store.csDev ∧ u.store.granules = s.store.granules ∧ u.stream = s.stream ∧ u.power = s.power ∧
    u.loader = s.loader ∧ u.conservator = s.conservator ∧ u.egress = s.egress ∧ u.repair = s.repair ∧ u.shadow = s.shadow ∧
    u.inForce = s.inForce ∧ u.otpRequest = s.otpRequest ∧ u.heldCommands = s.heldCommands ∧ u.crossReads = s.crossReads ∧
    u.pins.pins.length = s.pins.pins.length := by
  simp only [execStepEnd, Host.Outcome.next.injEq] at h
  subst h
  first | (simp; done) | ((try dsimp only); (repeat' split) <;> simp)

theorem execCoreStatus_frame  (s u : State) (h : execCoreStatus s = .next u) :
    u.pending = s.pending ∧ u.variant = s.variant ∧ u.otp = s.otp ∧ u.masters.length = s.masters.length ∧
    u.cores.channels.length = s.cores.channels.length ∧ u.regs.debugLevel = s.regs.debugLevel ∧ u.store.cs = s.store.cs ∧
    u.store.csDev = s.store.csDev ∧ u.store.granules = s.store.granules ∧ u.pins = s.pins ∧ u.stream = s.stream ∧
    u.power = s.power ∧ u.loader = s.loader ∧ u.conservator = s.conservator ∧ u.egress = s.egress ∧ u.repair = s.repair ∧
    u.shadow = s.shadow ∧ u.inForce = s.inForce ∧ u.otpRequest = s.otpRequest ∧ u.heldCommands = s.heldCommands ∧
    u.crossReads = s.crossReads := by
  simp only [execCoreStatus, Host.Outcome.next.injEq] at h
  subst h
  first | (simp; done) | ((try dsimp only); (repeat' split) <;> simp)

theorem execChallenge_frame (level : BitVec 2) (s u : State) (h : execChallenge level s = .next u) :
    u.pending = s.pending ∧ u.variant = s.variant ∧ u.otp = s.otp ∧ u.masters.length = s.masters.length ∧
    u.cores.channels.length = s.cores.channels.length ∧ u.regs.debugLevel = s.regs.debugLevel ∧ u.store.cs = s.store.cs ∧
    u.store.csDev = s.store.csDev ∧ u.store.granules = s.store.granules ∧ u.pins = s.pins ∧ u.stream = s.stream ∧
    u.power = s.power ∧ u.loader = s.loader ∧ u.conservator = s.conservator ∧ u.egress = s.egress ∧ u.repair = s.repair ∧
    u.shadow = s.shadow ∧ u.inForce = s.inForce ∧ u.otpRequest = s.otpRequest ∧ u.heldCommands = s.heldCommands ∧
    u.crossReads = s.crossReads := by
  simp only [execChallenge, Host.Outcome.next.injEq] at h
  subst h
  first | (simp; done) | ((try dsimp only); (repeat' split) <;> simp)

theorem execResponse_frame (token : QWord) (s u : State) (h : execResponse token s = .next u) :
    u.pending = s.pending ∧ u.variant = s.variant ∧ u.otp = s.otp ∧ u.masters.length = s.masters.length ∧
    u.cores.channels.length = s.cores.channels.length ∧ u.store.cs = s.store.cs ∧ u.store.csDev = s.store.csDev ∧
    u.store.granules = s.store.granules ∧ u.pins = s.pins ∧ u.stream = s.stream ∧ u.power = s.power ∧ u.loader = s.loader ∧
    u.conservator = s.conservator ∧ u.egress = s.egress ∧ u.repair = s.repair ∧ u.shadow = s.shadow ∧
    u.inForce = s.inForce ∧ u.otpRequest = s.otpRequest ∧ u.heldCommands = s.heldCommands ∧ u.crossReads = s.crossReads := by
  simp only [execResponse, Host.Outcome.next.injEq] at h
  subst h
  first | (simp; done) | ((try dsimp only); (repeat' split) <;> simp)

theorem execNonceExpiry_frame  (s u : State) (h : execNonceExpiry s = .next u) :
    u.pending = s.pending ∧ u.variant = s.variant ∧ u.otp = s.otp ∧ u.masters.length = s.masters.length ∧
    u.cores.channels.length = s.cores.channels.length ∧ u.regs.debugLevel = s.regs.debugLevel ∧ u.store.cs = s.store.cs ∧
    u.store.csDev = s.store.csDev ∧ u.store.granules = s.store.granules ∧ u.pins = s.pins ∧ u.stream = s.stream ∧
    u.power = s.power ∧ u.loader = s.loader ∧ u.conservator = s.conservator ∧ u.egress = s.egress ∧ u.repair = s.repair ∧
    u.shadow = s.shadow ∧ u.inForce = s.inForce ∧ u.otpRequest = s.otpRequest ∧ u.heldCommands = s.heldCommands ∧
    u.crossReads = s.crossReads := by
  simp only [execNonceExpiry, Host.Outcome.next.injEq] at h
  subst h
  first | (simp; done) | ((try dsimp only); (repeat' split) <;> simp)

theorem execChallengeLockoutEnd_frame  (s u : State) (h : execChallengeLockoutEnd s = .next u) :
    u.pending = s.pending ∧ u.variant = s.variant ∧ u.otp = s.otp ∧ u.masters.length = s.masters.length ∧
    u.cores.channels.length = s.cores.channels.length ∧ u.regs.debugLevel = s.regs.debugLevel ∧ u.store.cs = s.store.cs ∧
    u.store.csDev = s.store.csDev ∧ u.store.granules = s.store.granules ∧ u.pins = s.pins ∧ u.stream = s.stream ∧
    u.power = s.power ∧ u.loader = s.loader ∧ u.conservator = s.conservator ∧ u.egress = s.egress ∧ u.repair = s.repair ∧
    u.shadow = s.shadow ∧ u.inForce = s.inForce ∧ u.otpRequest = s.otpRequest ∧ u.heldCommands = s.heldCommands ∧
    u.crossReads = s.crossReads := by
  simp only [execChallengeLockoutEnd, Host.Outcome.next.injEq] at h
  subst h
  first | (simp; done) | ((try dsimp only); (repeat' split) <;> simp)

theorem execTrigger_frame (channel : Nat) (sources : DWord) (sinks : Word) (matchIndex : DWord) (s u : State) (h : execTrigger channel sources sinks matchIndex s = .next u) :
    u.pending = s.pending ∧ u.variant = s.variant ∧ u.otp = s.otp ∧ u.masters.length = s.masters.length ∧
    u.cores.channels.length = s.cores.channels.length ∧ u.regs.debugLevel = s.regs.debugLevel ∧ u.store.cs = s.store.cs ∧
    u.store.csDev = s.store.csDev ∧ u.store.granules = s.store.granules ∧ u.pins = s.pins ∧ u.stream = s.stream ∧
    u.power = s.power ∧ u.loader = s.loader ∧ u.conservator = s.conservator ∧ u.egress = s.egress ∧ u.repair = s.repair ∧
    u.shadow = s.shadow ∧ u.inForce = s.inForce ∧ u.otpRequest = s.otpRequest ∧ u.heldCommands = s.heldCommands ∧
    u.crossReads = s.crossReads := by
  simp only [execTrigger, Host.Outcome.next.injEq] at h
  subst h
  first | (simp; done) | ((try dsimp only); (repeat' split) <;> simp)

theorem execTrace_frame (max : Nat) (s u : State) (h : execTrace max s = .next u) :
    u.pending = s.pending ∧ u.variant = s.variant ∧ u.otp = s.otp ∧ u.masters.length = s.masters.length ∧
    u.cores.channels.length = s.cores.channels.length ∧ u.regs.debugLevel = s.regs.debugLevel ∧ u.store.cs = s.store.cs ∧
    u.store.csDev = s.store.csDev ∧ u.store.granules = s.store.granules ∧ u.pins = s.pins ∧ u.stream = s.stream ∧
    u.power = s.power ∧ u.loader = s.loader ∧ u.conservator = s.conservator ∧ u.egress = s.egress ∧ u.repair = s.repair ∧
    u.shadow = s.shadow ∧ u.inForce = s.inForce ∧ u.otpRequest = s.otpRequest ∧ u.heldCommands = s.heldCommands ∧
    u.crossReads = s.crossReads := by
  simp only [execTrace, Host.Outcome.next.injEq] at h
  subst h
  first | (simp; done) | ((try dsimp only); (repeat' split) <;> simp)

theorem execCrossTrigger_frame (channel source : Nat) (s u : State) (h : execCrossTrigger channel source s = .next u) :
    u.pending = s.pending ∧ u.variant = s.variant ∧ u.otp = s.otp ∧ u.masters.length = s.masters.length ∧
    u.cores.channels.length = s.cores.channels.length ∧ u.regs.debugLevel = s.regs.debugLevel ∧ u.store.cs = s.store.cs ∧
    u.store.csDev = s.store.csDev ∧ u.store.granules = s.store.granules ∧ u.stream = s.stream ∧ u.power = s.power ∧
    u.loader = s.loader ∧ u.conservator = s.conservator ∧ u.egress = s.egress ∧ u.repair = s.repair ∧ u.shadow = s.shadow ∧
    u.inForce = s.inForce ∧ u.otpRequest = s.otpRequest ∧ u.heldCommands = s.heldCommands ∧ u.crossReads = s.crossReads ∧
    u.pins.pins.length = s.pins.pins.length := by
  simp only [execCrossTrigger, Host.Outcome.next.injEq] at h
  subst h
  first | (simp; done) | ((try dsimp only); (repeat' split) <;> simp)

theorem execTracePacket_frame (c : Core) (port : Nat) (value : DWord) (s u : State) (h : execTracePacket c port value s = .next u) :
    u.pending = s.pending ∧ u.variant = s.variant ∧ u.otp = s.otp ∧ u.masters.length = s.masters.length ∧
    u.cores.channels.length = s.cores.channels.length ∧ u.regs.debugLevel = s.regs.debugLevel ∧ u.pins = s.pins ∧
    u.stream = s.stream ∧ u.power = s.power ∧ u.loader = s.loader ∧ u.conservator = s.conservator ∧ u.egress = s.egress ∧
    u.repair = s.repair ∧ u.shadow = s.shadow ∧ u.inForce = s.inForce ∧ u.otpRequest = s.otpRequest ∧
    u.heldCommands = s.heldCommands ∧ u.crossReads = s.crossReads := by
  simp only [execTracePacket, Host.Outcome.next.injEq] at h
  subst h
  first | (simp; done) | ((try dsimp only); (repeat' split) <;> simp)

theorem execDebugBreak_frame  (s u : State) (h : execDebugBreak s = .next u) :
    u.pending = s.pending ∧ u.variant = s.variant ∧ u.otp = s.otp ∧ u.masters.length = s.masters.length ∧
    u.cores.channels.length = s.cores.channels.length ∧ u.regs.debugLevel = s.regs.debugLevel ∧ u.store.cs = s.store.cs ∧
    u.store.csDev = s.store.csDev ∧ u.store.granules = s.store.granules ∧ u.pins = s.pins ∧ u.stream = s.stream ∧
    u.power = s.power ∧ u.loader = s.loader ∧ u.conservator = s.conservator ∧ u.egress = s.egress ∧ u.repair = s.repair ∧
    u.shadow = s.shadow ∧ u.inForce = s.inForce ∧ u.otpRequest = s.otpRequest ∧ u.heldCommands = s.heldCommands ∧
    u.crossReads = s.crossReads := by
  simp only [execDebugBreak, Host.Outcome.next.injEq] at h
  subst h
  first | (simp; done) | ((try dsimp only); (repeat' split) <;> simp)

theorem execDebugReset_frame  (s u : State) (h : execDebugReset s = .next u) :
    u.pending = s.pending ∧ u.variant = s.variant ∧ u.otp = s.otp ∧ u.cores.channels.length = s.cores.channels.length ∧
    u.store.cs = s.store.cs ∧ u.store.csDev = s.store.csDev ∧ u.store.granules = s.store.granules ∧
    u.conservator = s.conservator ∧ u.egress = s.egress ∧ u.repair = s.repair ∧ u.pins.pins.length = s.pins.pins.length := by
  simp only [execDebugReset, Host.Outcome.next.injEq] at h
  subst h
  first | (simp; done) | ((try dsimp only); (repeat' split) <;> simp)

theorem execDebugFrame_frame (body : List Byte) (crc : Byte) (s u : State) (h : execDebugFrame body crc s = .next u) :
    u.pending = s.pending ∧ u.variant = s.variant ∧ u.otp = s.otp ∧ u.masters.length = s.masters.length ∧
    u.cores.channels.length = s.cores.channels.length ∧ u.regs.debugLevel = s.regs.debugLevel ∧ u.store.cs = s.store.cs ∧
    u.store.csDev = s.store.csDev ∧ u.store.granules = s.store.granules ∧ u.pins = s.pins ∧ u.stream = s.stream ∧
    u.power = s.power ∧ u.loader = s.loader ∧ u.conservator = s.conservator ∧ u.egress = s.egress ∧ u.repair = s.repair ∧
    u.shadow = s.shadow ∧ u.inForce = s.inForce ∧ u.otpRequest = s.otpRequest ∧ u.heldCommands = s.heldCommands ∧
    u.crossReads = s.crossReads := by
  simp only [execDebugFrame, Host.Outcome.next.injEq] at h
  subst h
  first | (simp; done) | ((try dsimp only); (repeat' split) <;> simp)

theorem execResetHoldEnd_frame  (s u : State) (h : execResetHoldEnd s = .next u) :
    u.pending = s.pending ∧ u.variant = s.variant ∧ u.otp = s.otp ∧ u.masters.length = s.masters.length ∧
    u.cores.channels.length = s.cores.channels.length ∧ u.regs.debugLevel = s.regs.debugLevel ∧ u.store.cs = s.store.cs ∧
    u.store.csDev = s.store.csDev ∧ u.store.granules = s.store.granules ∧ u.pins = s.pins ∧ u.stream = s.stream ∧
    u.power = s.power ∧ u.loader = s.loader ∧ u.conservator = s.conservator ∧ u.egress = s.egress ∧ u.repair = s.repair ∧
    u.shadow = s.shadow ∧ u.inForce = s.inForce ∧ u.otpRequest = s.otpRequest ∧ u.heldCommands = s.heldCommands ∧
    u.crossReads = s.crossReads := by
  simp only [execResetHoldEnd, Host.Outcome.next.injEq] at h
  subst h
  first | (simp; done) | ((try dsimp only); (repeat' split) <;> simp)

theorem execHandlerStart_frame  (s u : State) (h : execHandlerStart s = .next u) :
    u.pending = s.pending ∧ u.variant = s.variant ∧ u.otp = s.otp ∧ u.masters.length = s.masters.length ∧
    u.cores.channels.length = s.cores.channels.length ∧ u.regs.debugLevel = s.regs.debugLevel ∧ u.store.cs = s.store.cs ∧
    u.store.csDev = s.store.csDev ∧ u.store.granules = s.store.granules ∧ u.stream = s.stream ∧ u.power = s.power ∧
    u.loader = s.loader ∧ u.conservator = s.conservator ∧ u.egress = s.egress ∧ u.repair = s.repair ∧ u.shadow = s.shadow ∧
    u.inForce = s.inForce ∧ u.otpRequest = s.otpRequest ∧ u.heldCommands = s.heldCommands ∧ u.crossReads = s.crossReads ∧
    u.pins.pins.length = s.pins.pins.length := by
  simp only [execHandlerStart, Host.Outcome.next.injEq] at h
  subst h
  first | (simp; done) | ((try dsimp only); (repeat' split) <;> simp)

theorem execFabricCycle_frame  (s u : State) (h : execFabricCycle s = .next u) :
    u.pending = s.pending ∧ u.variant = s.variant ∧ u.otp = s.otp ∧ u.masters.length = s.masters.length ∧
    u.cores.channels.length = s.cores.channels.length ∧ u.regs.debugLevel = s.regs.debugLevel ∧ u.store.cs = s.store.cs ∧
    u.store.csDev = s.store.csDev ∧ u.store.granules = s.store.granules ∧ u.pins = s.pins ∧ u.stream = s.stream ∧
    u.loader = s.loader ∧ u.conservator = s.conservator ∧ u.repair = s.repair ∧ u.shadow = s.shadow ∧
    u.inForce = s.inForce ∧ u.otpRequest = s.otpRequest ∧ u.heldCommands = s.heldCommands ∧ u.crossReads = s.crossReads := by
  simp only [execFabricCycle, Host.Outcome.next.injEq] at h
  subst h
  first | (simp; done) | ((try dsimp only); (repeat' split) <;> simp)

theorem execEgressWord_frame  (s u : State) (h : execEgressWord s = .next u) :
    u.pending = s.pending ∧ u.variant = s.variant ∧ u.otp = s.otp ∧ u.masters.length = s.masters.length ∧
    u.cores.channels.length = s.cores.channels.length ∧ u.regs.debugLevel = s.regs.debugLevel ∧ u.pins = s.pins ∧
    u.stream = s.stream ∧ u.power = s.power ∧ u.loader = s.loader ∧ u.conservator = s.conservator ∧ u.repair = s.repair ∧
    u.shadow = s.shadow ∧ u.inForce = s.inForce ∧ u.otpRequest = s.otpRequest ∧ u.heldCommands = s.heldCommands ∧
    u.crossReads = s.crossReads := by
  simp only [execEgressWord, Host.Outcome.next.injEq] at h
  subst h
  first | (simp; done) | ((try dsimp only); (repeat' split) <;> simp)

theorem execQuarterLost_frame (l : FLink) (i quarter : Nat) (crcOk : Bool) (s u : State) (h : execQuarterLost l i quarter crcOk s = .next u) :
    u.pending = s.pending ∧ u.variant = s.variant ∧ u.otp = s.otp ∧ u.masters.length = s.masters.length ∧
    u.cores.channels.length = s.cores.channels.length ∧ u.regs.debugLevel = s.regs.debugLevel ∧ u.store.cs = s.store.cs ∧
    u.store.csDev = s.store.csDev ∧ u.store.granules = s.store.granules ∧ u.pins = s.pins ∧ u.stream = s.stream ∧
    u.power = s.power ∧ u.loader = s.loader ∧ u.egress = s.egress ∧ u.shadow = s.shadow ∧ u.inForce = s.inForce ∧
    u.otpRequest = s.otpRequest ∧ u.heldCommands = s.heldCommands ∧ u.crossReads = s.crossReads := by
  simp only [execQuarterLost, Host.Outcome.next.injEq] at h
  subst h
  first | (simp; done) | ((try dsimp only); (repeat' split) <;> simp)

theorem execFrameApertureWrite_frame (slot off : Nat) (bs : List Byte) (s u : State) (h : execFrameApertureWrite slot off bs s = .next u) :
    u.pending = s.pending ∧ u.variant = s.variant ∧ u.otp = s.otp ∧ u.masters.length = s.masters.length ∧
    u.cores.channels.length = s.cores.channels.length ∧ u.regs.debugLevel = s.regs.debugLevel ∧ u.store.cs = s.store.cs ∧
    u.store.csDev = s.store.csDev ∧ u.store.granules = s.store.granules ∧ u.pins = s.pins ∧ u.stream = s.stream ∧
    u.power = s.power ∧ u.conservator = s.conservator ∧ u.egress = s.egress ∧ u.repair = s.repair ∧ u.shadow = s.shadow ∧
    u.inForce = s.inForce ∧ u.otpRequest = s.otpRequest ∧ u.heldCommands = s.heldCommands ∧ u.crossReads = s.crossReads := by
  simp only [execFrameApertureWrite, Host.Outcome.next.injEq] at h
  subst h
  first | (simp; done) | ((try dsimp only); (repeat' split) <;> simp)

theorem execPadLevelChange_frame (i : Nat) (level : Bool) (s u : State) (h : execPadLevelChange i level s = .next u) :
    u.pending = s.pending ∧ u.variant = s.variant ∧ u.otp = s.otp ∧ u.masters.length = s.masters.length ∧
    u.cores.channels.length = s.cores.channels.length ∧ u.regs.debugLevel = s.regs.debugLevel ∧ u.store.cs = s.store.cs ∧
    u.store.csDev = s.store.csDev ∧ u.store.granules = s.store.granules ∧ u.stream = s.stream ∧ u.power = s.power ∧
    u.loader = s.loader ∧ u.conservator = s.conservator ∧ u.egress = s.egress ∧ u.repair = s.repair ∧ u.shadow = s.shadow ∧
    u.inForce = s.inForce ∧ u.otpRequest = s.otpRequest ∧ u.heldCommands = s.heldCommands ∧ u.crossReads = s.crossReads ∧
    u.pins.pins.length = s.pins.pins.length := by
  simp only [execPadLevelChange, Host.Outcome.next.injEq] at h
  subst h
  first | (simp; done) | ((try dsimp only); (repeat' split) <;> simp)

theorem execBreakpoint_frame (c : Core) (s u : State) (h : execBreakpoint c s = .next u) :
    u.pending = s.pending ∧ u.variant = s.variant ∧ u.otp = s.otp ∧ u.masters.length = s.masters.length ∧
    u.cores.channels.length = s.cores.channels.length ∧ u.regs.debugLevel = s.regs.debugLevel ∧ u.store.cs = s.store.cs ∧
    u.store.csDev = s.store.csDev ∧ u.store.granules = s.store.granules ∧ u.stream = s.stream ∧ u.power = s.power ∧
    u.loader = s.loader ∧ u.conservator = s.conservator ∧ u.egress = s.egress ∧ u.repair = s.repair ∧ u.shadow = s.shadow ∧
    u.inForce = s.inForce ∧ u.otpRequest = s.otpRequest ∧ u.heldCommands = s.heldCommands ∧ u.crossReads = s.crossReads ∧
    u.pins.pins.length = s.pins.pins.length := by
  simp only [execBreakpoint, Host.Outcome.next.injEq] at h
  subst h
  first | (simp; done) | ((try dsimp only); (repeat' split) <;> simp)

theorem execWatchdogReload_frame (c : Core) (s u : State) (h : execWatchdogReload c s = .next u) :
    u.pending = s.pending ∧ u.variant = s.variant ∧ u.otp = s.otp ∧ u.masters.length = s.masters.length ∧
    u.cores.channels.length = s.cores.channels.length ∧ u.regs.debugLevel = s.regs.debugLevel ∧ u.store.cs = s.store.cs ∧
    u.store.csDev = s.store.csDev ∧ u.store.granules = s.store.granules ∧ u.pins = s.pins ∧ u.stream = s.stream ∧
    u.power = s.power ∧ u.loader = s.loader ∧ u.conservator = s.conservator ∧ u.egress = s.egress ∧ u.repair = s.repair ∧
    u.shadow = s.shadow ∧ u.inForce = s.inForce ∧ u.otpRequest = s.otpRequest ∧ u.heldCommands = s.heldCommands ∧
    u.crossReads = s.crossReads := by
  simp only [execWatchdogReload, Host.Outcome.next.injEq] at h
  subst h
  first | (simp; done) | ((try dsimp only); (repeat' split) <;> simp)

theorem execPllRelocked_frame  (s u : State) (h : execPllRelocked s = .next u) :
    u.pending = s.pending ∧ u.variant = s.variant ∧ u.otp = s.otp ∧ u.masters.length = s.masters.length ∧
    u.cores.channels.length = s.cores.channels.length ∧ u.regs.debugLevel = s.regs.debugLevel ∧ u.store.cs = s.store.cs ∧
    u.store.csDev = s.store.csDev ∧ u.store.granules = s.store.granules ∧ u.pins = s.pins ∧ u.stream = s.stream ∧
    u.loader = s.loader ∧ u.conservator = s.conservator ∧ u.egress = s.egress ∧ u.repair = s.repair ∧ u.shadow = s.shadow ∧
    u.inForce = s.inForce ∧ u.otpRequest = s.otpRequest ∧ u.heldCommands = s.heldCommands ∧ u.crossReads = s.crossReads := by
  simp only [execPllRelocked, Host.Outcome.next.injEq] at h
  subst h
  first | (simp; done) | ((try dsimp only); (repeat' split) <;> simp)

theorem execWordLock_frame (a : AnyLane) (s u : State) (h : execWordLock a s = .next u) :
    u.pending = s.pending ∧ u.variant = s.variant ∧ u.otp = s.otp ∧ u.masters.length = s.masters.length ∧
    u.cores.channels.length = s.cores.channels.length ∧ u.regs.debugLevel = s.regs.debugLevel ∧ u.store.cs = s.store.cs ∧
    u.store.csDev = s.store.csDev ∧ u.store.granules = s.store.granules ∧ u.pins = s.pins ∧ u.stream = s.stream ∧
    u.power = s.power ∧ u.loader = s.loader ∧ u.conservator = s.conservator ∧ u.egress = s.egress ∧ u.repair = s.repair ∧
    u.shadow = s.shadow ∧ u.inForce = s.inForce ∧ u.otpRequest = s.otpRequest ∧ u.heldCommands = s.heldCommands ∧
    u.crossReads = s.crossReads := by
  simp only [execWordLock, Host.Outcome.next.injEq] at h
  subst h
  first | (simp; done) | ((try dsimp only); (repeat' split) <;> simp)

end Sys2Proof.Machine
end

