-- ==== Sys2Proof/Laws/Level.lean ====
section
/-! SUPPORT. What can only lower the granted debug level, and how many masters a reset leaves. -/

namespace Sys2Proof.Machine

/-- A write of LEVEL never raises it (R558). -/
theorem writeLevel_le (v : BitVec 2) (s : State) : (writeLevel v s).regs.debugLevel.toNat ≤ s.regs.debugLevel.toNat := by
  unfold writeLevel
  split
  · simp
  · split
    · next h => simpa [putLevel] using Nat.le_of_lt h
    · exact Nat.le_refl _

theorem hostReset_le (p : Bool) (s : State) : (hostReset p s).regs.debugLevel.toNat ≤ s.regs.debugLevel.toNat := by
  cases p <;> simp [hostReset]

theorem railsGood_le (side : Side) (s : State) : (railsGood side s).regs.debugLevel.toNat ≤ s.regs.debugLevel.toNat := by
  unfold railsGood
  (repeat' split) <;> first | exact Nat.le_refl _ | exact hostReset_le _ _

theorem railFail_le (side : Side) (s : State) : (railFail side s).regs.debugLevel.toNat ≤ s.regs.debugLevel.toNat := by
  unfold railFail
  (repeat' split) <;> first | (simp; done) | exact hostReset_le _ _

theorem writeReg_le (m : Master) (a : Nat) (data : Word) (s : State) :
    (writeReg m a data s).regs.debugLevel.toNat ≤ s.regs.debugLevel.toNat := by
  unfold writeReg
  (try dsimp only)
  split <;> first | exact writeLevel_le _ _ | (simp; done) | (split <;> simp)

theorem fileWrite_le (m : Master) (a : Nat) (data : Word) (s : State) :
    (fileWrite m a data s).regs.debugLevel.toNat ≤ s.regs.debugLevel.toNat := by
  unfold fileWrite
  (try dsimp only)
  split
  · simp
  · split
    · simp
    · split
      · simp
      · simp only [writeCommands_frame]
        refine Nat.le_trans (writeReg_le m a data _) ?_
        split <;> simp

theorem foldl_le {α : Type} (f : State → α → State) (h : ∀ s a, (f s a).regs.debugLevel.toNat ≤ s.regs.debugLevel.toNat)
    (l : List α) (s : State) : (l.foldl f s).regs.debugLevel.toNat ≤ s.regs.debugLevel.toNat := by
  induction l generalizing s with
  | nil => exact Nat.le_refl _
  | cons a l ih => exact Nat.le_trans (ih _) (h s a)

theorem collided_le (m : Master) (lost : Bool) (a : Nat) (t : Bool) (f : State → State)
    (h : ∀ s, (f s).regs.debugLevel.toNat ≤ s.regs.debugLevel.toNat) (s : State) :
    (collided m lost a t f s).regs.debugLevel.toNat ≤ s.regs.debugLevel.toNat := by
  unfold collided
  (repeat' split) <;> first | exact h s | (simp; exact h s) | simp

theorem registerWrite_le (m : Master) (t : WriteTarget) (lost : Bool) (s : State) :
    (registerWrite m t lost s).regs.debugLevel.toNat ≤ s.regs.debugLevel.toNat := by
  unfold registerWrite
  split
  · split
    · simp
    · exact collided_le _ _ _ _ _ (fun s => fileWrite_le _ _ _ s) _
  · split <;> simp
  · split <;> simp
  · split <;> simp

theorem debugWrite_le (sp : Byte) (a : DWord) (ws : List DWord) (s : State) :
    (debugWrite sp a ws s).regs.debugLevel.toNat ≤ s.regs.debugLevel.toNat := by
  unfold debugWrite
  (try dsimp only)
  split
  · simp
  · split
    · simpa using foldl_le _ (fun s e => fileWrite_le _ _ _ s) _ s
    · split <;> simp
    · split
      · simp
      · split <;> simp
    · split <;> simp

theorem hostReset_masters (p : Bool) (s : State) : (hostReset p s).masters.length = 5 := by simp [hostReset]

end Sys2Proof.Machine
end

