-- ==== Sys2Proof/Laws/State.lean ====
section
/-! SUPPORT. What the updates of the state leave alone, field by field, and what those of the registers write. -/

namespace Sys2Proof.Machine

@[simp] theorem emit_fields (o : HostOut) (s : State) :
    (emit o s).variant = s.variant ∧ (emit o s).regs = s.regs ∧ (emit o s).shadow = s.shadow ∧ (emit o s).inForce = s.inForce
    ∧ (emit o s).pendingSet = s.pendingSet ∧ (emit o s).masters = s.masters ∧ (emit o s).crossReads = s.crossReads
    ∧ (emit o s).nextTag = s.nextTag ∧ (emit o s).fieldCopy = s.fieldCopy ∧ (emit o s).heldCommands = s.heldCommands
    ∧ (emit o s).stream = s.stream ∧ (emit o s).barrier = s.barrier ∧ (emit o s).loader = s.loader ∧ (emit o s).released = s.released
    ∧ (emit o s).params = s.params ∧ (emit o s).imageId = s.imageId ∧ (emit o s).otp = s.otp ∧ (emit o s).otpRequest = s.otpRequest
    ∧ (emit o s).array = s.array ∧ (emit o s).batches = s.batches ∧ (emit o s).fetchStopped = s.fetchStopped
    ∧ (emit o s).history = s.history ∧ (emit o s).anyBatch = s.anyBatch ∧ (emit o s).lastBatch = s.lastBatch
    ∧ (emit o s).egress = s.egress ∧ (emit o s).unload = s.unload ∧ (emit o s).fabric = s.fabric ∧ (emit o s).link0 = s.link0
    ∧ (emit o s).link1 = s.link1 ∧ (emit o s).coffset = s.coffset ∧ (emit o s).alignDue = s.alignDue ∧ (emit o s).delaysDue = s.delaysDue
    ∧ (emit o s).ledger0 = s.ledger0 ∧ (emit o s).ledger1 = s.ledger1 ∧ (emit o s).repair = s.repair ∧ (emit o s).twin = s.twin
    ∧ (emit o s).survey = s.survey ∧ (emit o s).conservator = s.conservator ∧ (emit o s).protection = s.protection
    ∧ (emit o s).store = s.store ∧ (emit o s).power = s.power ∧ (emit o s).cores = s.cores ∧ (emit o s).pins = s.pins
    ∧ (emit o s).pending = s.pending := by
  and_intros <;> rfl

@[simp] theorem msix_fields (v : Nat) (s : State) :
    (msix v s).variant = s.variant ∧ (msix v s).regs = s.regs ∧ (msix v s).shadow = s.shadow ∧ (msix v s).inForce = s.inForce
    ∧ (msix v s).pendingSet = s.pendingSet ∧ (msix v s).masters = s.masters ∧ (msix v s).crossReads = s.crossReads
    ∧ (msix v s).nextTag = s.nextTag ∧ (msix v s).fieldCopy = s.fieldCopy ∧ (msix v s).heldCommands = s.heldCommands
    ∧ (msix v s).stream = s.stream ∧ (msix v s).barrier = s.barrier ∧ (msix v s).loader = s.loader ∧ (msix v s).released = s.released
    ∧ (msix v s).params = s.params ∧ (msix v s).imageId = s.imageId ∧ (msix v s).otp = s.otp ∧ (msix v s).otpRequest = s.otpRequest
    ∧ (msix v s).array = s.array ∧ (msix v s).batches = s.batches ∧ (msix v s).fetchStopped = s.fetchStopped
    ∧ (msix v s).history = s.history ∧ (msix v s).anyBatch = s.anyBatch ∧ (msix v s).lastBatch = s.lastBatch
    ∧ (msix v s).egress = s.egress ∧ (msix v s).unload = s.unload ∧ (msix v s).fabric = s.fabric ∧ (msix v s).link0 = s.link0
    ∧ (msix v s).link1 = s.link1 ∧ (msix v s).coffset = s.coffset ∧ (msix v s).alignDue = s.alignDue ∧ (msix v s).delaysDue = s.delaysDue
    ∧ (msix v s).ledger0 = s.ledger0 ∧ (msix v s).ledger1 = s.ledger1 ∧ (msix v s).repair = s.repair ∧ (msix v s).twin = s.twin
    ∧ (msix v s).survey = s.survey ∧ (msix v s).conservator = s.conservator ∧ (msix v s).protection = s.protection
    ∧ (msix v s).store = s.store ∧ (msix v s).power = s.power ∧ (msix v s).cores = s.cores ∧ (msix v s).pins = s.pins
    ∧ (msix v s).pending = s.pending := by
  and_intros <;> rfl

@[simp] theorem setView_fields (m : Master) (v : MasterView) (s : State) :
    (setView m v s).variant = s.variant ∧ (setView m v s).regs = s.regs ∧ (setView m v s).shadow = s.shadow
    ∧ (setView m v s).inForce = s.inForce ∧ (setView m v s).pendingSet = s.pendingSet ∧ (setView m v s).crossReads = s.crossReads
    ∧ (setView m v s).nextTag = s.nextTag ∧ (setView m v s).fieldCopy = s.fieldCopy ∧ (setView m v s).heldCommands = s.heldCommands
    ∧ (setView m v s).stream = s.stream ∧ (setView m v s).hostOut = s.hostOut ∧ (setView m v s).barrier = s.barrier
    ∧ (setView m v s).loader = s.loader ∧ (setView m v s).released = s.released ∧ (setView m v s).params = s.params
    ∧ (setView m v s).imageId = s.imageId ∧ (setView m v s).otp = s.otp ∧ (setView m v s).otpRequest = s.otpRequest
    ∧ (setView m v s).array = s.array ∧ (setView m v s).batches = s.batches ∧ (setView m v s).fetchStopped = s.fetchStopped
    ∧ (setView m v s).history = s.history ∧ (setView m v s).anyBatch = s.anyBatch ∧ (setView m v s).lastBatch = s.lastBatch
    ∧ (setView m v s).egress = s.egress ∧ (setView m v s).unload = s.unload ∧ (setView m v s).fabric = s.fabric
    ∧ (setView m v s).link0 = s.link0 ∧ (setView m v s).link1 = s.link1 ∧ (setView m v s).coffset = s.coffset
    ∧ (setView m v s).alignDue = s.alignDue ∧ (setView m v s).delaysDue = s.delaysDue ∧ (setView m v s).ledger0 = s.ledger0
    ∧ (setView m v s).ledger1 = s.ledger1 ∧ (setView m v s).repair = s.repair ∧ (setView m v s).twin = s.twin
    ∧ (setView m v s).survey = s.survey ∧ (setView m v s).conservator = s.conservator ∧ (setView m v s).protection = s.protection
    ∧ (setView m v s).store = s.store ∧ (setView m v s).power = s.power ∧ (setView m v s).cores = s.cores ∧ (setView m v s).pins = s.pins
    ∧ (setView m v s).pending = s.pending := by
  and_intros <;> rfl

@[simp] theorem dropKeys_fields (m : Master) (s : State) :
    (dropKeys m s).variant = s.variant ∧ (dropKeys m s).regs = s.regs ∧ (dropKeys m s).shadow = s.shadow
    ∧ (dropKeys m s).inForce = s.inForce ∧ (dropKeys m s).pendingSet = s.pendingSet ∧ (dropKeys m s).crossReads = s.crossReads
    ∧ (dropKeys m s).nextTag = s.nextTag ∧ (dropKeys m s).fieldCopy = s.fieldCopy ∧ (dropKeys m s).heldCommands = s.heldCommands
    ∧ (dropKeys m s).stream = s.stream ∧ (dropKeys m s).hostOut = s.hostOut ∧ (dropKeys m s).barrier = s.barrier
    ∧ (dropKeys m s).loader = s.loader ∧ (dropKeys m s).released = s.released ∧ (dropKeys m s).params = s.params
    ∧ (dropKeys m s).imageId = s.imageId ∧ (dropKeys m s).otp = s.otp ∧ (dropKeys m s).otpRequest = s.otpRequest
    ∧ (dropKeys m s).array = s.array ∧ (dropKeys m s).batches = s.batches ∧ (dropKeys m s).fetchStopped = s.fetchStopped
    ∧ (dropKeys m s).history = s.history ∧ (dropKeys m s).anyBatch = s.anyBatch ∧ (dropKeys m s).lastBatch = s.lastBatch
    ∧ (dropKeys m s).egress = s.egress ∧ (dropKeys m s).unload = s.unload ∧ (dropKeys m s).fabric = s.fabric
    ∧ (dropKeys m s).link0 = s.link0 ∧ (dropKeys m s).link1 = s.link1 ∧ (dropKeys m s).coffset = s.coffset
    ∧ (dropKeys m s).alignDue = s.alignDue ∧ (dropKeys m s).delaysDue = s.delaysDue ∧ (dropKeys m s).ledger0 = s.ledger0
    ∧ (dropKeys m s).ledger1 = s.ledger1 ∧ (dropKeys m s).repair = s.repair ∧ (dropKeys m s).twin = s.twin
    ∧ (dropKeys m s).survey = s.survey ∧ (dropKeys m s).conservator = s.conservator ∧ (dropKeys m s).protection = s.protection
    ∧ (dropKeys m s).store = s.store ∧ (dropKeys m s).power = s.power ∧ (dropKeys m s).cores = s.cores ∧ (dropKeys m s).pins = s.pins
    ∧ (dropKeys m s).pending = s.pending := by
  and_intros <;> rfl

@[simp] theorem sendMsg_fields (dir : Dir) (typ n v : Nat) (s : State) :
    (sendMsg dir typ n v s).variant = s.variant ∧ (sendMsg dir typ n v s).regs = s.regs ∧ (sendMsg dir typ n v s).shadow = s.shadow
    ∧ (sendMsg dir typ n v s).inForce = s.inForce ∧ (sendMsg dir typ n v s).pendingSet = s.pendingSet
    ∧ (sendMsg dir typ n v s).masters = s.masters ∧ (sendMsg dir typ n v s).crossReads = s.crossReads
    ∧ (sendMsg dir typ n v s).nextTag = s.nextTag ∧ (sendMsg dir typ n v s).fieldCopy = s.fieldCopy
    ∧ (sendMsg dir typ n v s).heldCommands = s.heldCommands ∧ (sendMsg dir typ n v s).stream = s.stream
    ∧ (sendMsg dir typ n v s).hostOut = s.hostOut ∧ (sendMsg dir typ n v s).loader = s.loader
    ∧ (sendMsg dir typ n v s).released = s.released ∧ (sendMsg dir typ n v s).params = s.params
    ∧ (sendMsg dir typ n v s).imageId = s.imageId ∧ (sendMsg dir typ n v s).otp = s.otp
    ∧ (sendMsg dir typ n v s).otpRequest = s.otpRequest ∧ (sendMsg dir typ n v s).array = s.array
    ∧ (sendMsg dir typ n v s).batches = s.batches ∧ (sendMsg dir typ n v s).fetchStopped = s.fetchStopped
    ∧ (sendMsg dir typ n v s).history = s.history ∧ (sendMsg dir typ n v s).anyBatch = s.anyBatch
    ∧ (sendMsg dir typ n v s).lastBatch = s.lastBatch ∧ (sendMsg dir typ n v s).egress = s.egress
    ∧ (sendMsg dir typ n v s).unload = s.unload ∧ (sendMsg dir typ n v s).fabric = s.fabric ∧ (sendMsg dir typ n v s).link0 = s.link0
    ∧ (sendMsg dir typ n v s).link1 = s.link1 ∧ (sendMsg dir typ n v s).coffset = s.coffset
    ∧ (sendMsg dir typ n v s).alignDue = s.alignDue ∧ (sendMsg dir typ n v s).delaysDue = s.delaysDue
    ∧ (sendMsg dir typ n v s).ledger0 = s.ledger0 ∧ (sendMsg dir typ n v s).ledger1 = s.ledger1
    ∧ (sendMsg dir typ n v s).repair = s.repair ∧ (sendMsg dir typ n v s).twin = s.twin ∧ (sendMsg dir typ n v s).survey = s.survey
    ∧ (sendMsg dir typ n v s).conservator = s.conservator ∧ (sendMsg dir typ n v s).protection = s.protection
    ∧ (sendMsg dir typ n v s).store = s.store ∧ (sendMsg dir typ n v s).power = s.power ∧ (sendMsg dir typ n v s).cores = s.cores
    ∧ (sendMsg dir typ n v s).pins = s.pins ∧ (sendMsg dir typ n v s).pending = s.pending := by
  cases dir <;> and_intros <;> rfl

@[simp] theorem popHostInbox_fields (typ : Nat) (s : State) :
    (popHostInbox typ s).variant = s.variant ∧ (popHostInbox typ s).regs = s.regs ∧ (popHostInbox typ s).shadow = s.shadow
    ∧ (popHostInbox typ s).inForce = s.inForce ∧ (popHostInbox typ s).pendingSet = s.pendingSet
    ∧ (popHostInbox typ s).masters = s.masters ∧ (popHostInbox typ s).crossReads = s.crossReads
    ∧ (popHostInbox typ s).nextTag = s.nextTag ∧ (popHostInbox typ s).fieldCopy = s.fieldCopy
    ∧ (popHostInbox typ s).heldCommands = s.heldCommands ∧ (popHostInbox typ s).stream = s.stream
    ∧ (popHostInbox typ s).hostOut = s.hostOut ∧ (popHostInbox typ s).loader = s.loader ∧ (popHostInbox typ s).released = s.released
    ∧ (popHostInbox typ s).params = s.params ∧ (popHostInbox typ s).imageId = s.imageId ∧ (popHostInbox typ s).otp = s.otp
    ∧ (popHostInbox typ s).otpRequest = s.otpRequest ∧ (popHostInbox typ s).array = s.array ∧ (popHostInbox typ s).batches = s.batches
    ∧ (popHostInbox typ s).fetchStopped = s.fetchStopped ∧ (popHostInbox typ s).history = s.history
    ∧ (popHostInbox typ s).anyBatch = s.anyBatch ∧ (popHostInbox typ s).lastBatch = s.lastBatch ∧ (popHostInbox typ s).egress = s.egress
    ∧ (popHostInbox typ s).unload = s.unload ∧ (popHostInbox typ s).fabric = s.fabric ∧ (popHostInbox typ s).link0 = s.link0
    ∧ (popHostInbox typ s).link1 = s.link1 ∧ (popHostInbox typ s).coffset = s.coffset ∧ (popHostInbox typ s).alignDue = s.alignDue
    ∧ (popHostInbox typ s).delaysDue = s.delaysDue ∧ (popHostInbox typ s).ledger0 = s.ledger0 ∧ (popHostInbox typ s).ledger1 = s.ledger1
    ∧ (popHostInbox typ s).repair = s.repair ∧ (popHostInbox typ s).twin = s.twin ∧ (popHostInbox typ s).survey = s.survey
    ∧ (popHostInbox typ s).conservator = s.conservator ∧ (popHostInbox typ s).protection = s.protection
    ∧ (popHostInbox typ s).store = s.store ∧ (popHostInbox typ s).power = s.power ∧ (popHostInbox typ s).cores = s.cores
    ∧ (popHostInbox typ s).pins = s.pins ∧ (popHostInbox typ s).pending = s.pending := by
  and_intros <;> rfl

@[simp] theorem popFieldInbox_fields (typ : Nat) (s : State) :
    (popFieldInbox typ s).variant = s.variant ∧ (popFieldInbox typ s).regs = s.regs ∧ (popFieldInbox typ s).shadow = s.shadow
    ∧ (popFieldInbox typ s).inForce = s.inForce ∧ (popFieldInbox typ s).pendingSet = s.pendingSet
    ∧ (popFieldInbox typ s).masters = s.masters ∧ (popFieldInbox typ s).crossReads = s.crossReads
    ∧ (popFieldInbox typ s).nextTag = s.nextTag ∧ (popFieldInbox typ s).fieldCopy = s.fieldCopy
    ∧ (popFieldInbox typ s).heldCommands = s.heldCommands ∧ (popFieldInbox typ s).stream = s.stream
    ∧ (popFieldInbox typ s).hostOut = s.hostOut ∧ (popFieldInbox typ s).loader = s.loader ∧ (popFieldInbox typ s).released = s.released
    ∧ (popFieldInbox typ s).params = s.params ∧ (popFieldInbox typ s).imageId = s.imageId ∧ (popFieldInbox typ s).otp = s.otp
    ∧ (popFieldInbox typ s).otpRequest = s.otpRequest ∧ (popFieldInbox typ s).array = s.array ∧ (popFieldInbox typ s).batches = s.batches
    ∧ (popFieldInbox typ s).fetchStopped = s.fetchStopped ∧ (popFieldInbox typ s).history = s.history
    ∧ (popFieldInbox typ s).anyBatch = s.anyBatch ∧ (popFieldInbox typ s).lastBatch = s.lastBatch
    ∧ (popFieldInbox typ s).egress = s.egress ∧ (popFieldInbox typ s).unload = s.unload ∧ (popFieldInbox typ s).fabric = s.fabric
    ∧ (popFieldInbox typ s).link0 = s.link0 ∧ (popFieldInbox typ s).link1 = s.link1 ∧ (popFieldInbox typ s).coffset = s.coffset
    ∧ (popFieldInbox typ s).alignDue = s.alignDue ∧ (popFieldInbox typ s).delaysDue = s.delaysDue
    ∧ (popFieldInbox typ s).ledger0 = s.ledger0 ∧ (popFieldInbox typ s).ledger1 = s.ledger1 ∧ (popFieldInbox typ s).repair = s.repair
    ∧ (popFieldInbox typ s).twin = s.twin ∧ (popFieldInbox typ s).survey = s.survey ∧ (popFieldInbox typ s).conservator = s.conservator
    ∧ (popFieldInbox typ s).protection = s.protection ∧ (popFieldInbox typ s).store = s.store ∧ (popFieldInbox typ s).power = s.power
    ∧ (popFieldInbox typ s).cores = s.cores ∧ (popFieldInbox typ s).pins = s.pins ∧ (popFieldInbox typ s).pending = s.pending := by
  and_intros <;> rfl

@[simp] theorem raiseField_fields (ev fault unit detail : Nat) (s : State) :
    (raiseField ev fault unit detail s).variant = s.variant ∧ (raiseField ev fault unit detail s).regs = s.regs
    ∧ (raiseField ev fault unit detail s).shadow = s.shadow ∧ (raiseField ev fault unit detail s).inForce = s.inForce
    ∧ (raiseField ev fault unit detail s).pendingSet = s.pendingSet ∧ (raiseField ev fault unit detail s).masters = s.masters
    ∧ (raiseField ev fault unit detail s).crossReads = s.crossReads ∧ (raiseField ev fault unit detail s).nextTag = s.nextTag
    ∧ (raiseField ev fault unit detail s).fieldCopy = s.fieldCopy ∧ (raiseField ev fault unit detail s).heldCommands = s.heldCommands
    ∧ (raiseField ev fault unit detail s).stream = s.stream ∧ (raiseField ev fault unit detail s).hostOut = s.hostOut
    ∧ (raiseField ev fault unit detail s).loader = s.loader ∧ (raiseField ev fault unit detail s).released = s.released
    ∧ (raiseField ev fault unit detail s).params = s.params ∧ (raiseField ev fault unit detail s).imageId = s.imageId
    ∧ (raiseField ev fault unit detail s).otp = s.otp ∧ (raiseField ev fault unit detail s).otpRequest = s.otpRequest
    ∧ (raiseField ev fault unit detail s).array = s.array ∧ (raiseField ev fault unit detail s).batches = s.batches
    ∧ (raiseField ev fault unit detail s).fetchStopped = s.fetchStopped ∧ (raiseField ev fault unit detail s).history = s.history
    ∧ (raiseField ev fault unit detail s).anyBatch = s.anyBatch ∧ (raiseField ev fault unit detail s).lastBatch = s.lastBatch
    ∧ (raiseField ev fault unit detail s).egress = s.egress ∧ (raiseField ev fault unit detail s).unload = s.unload
    ∧ (raiseField ev fault unit detail s).fabric = s.fabric ∧ (raiseField ev fault unit detail s).link0 = s.link0
    ∧ (raiseField ev fault unit detail s).link1 = s.link1 ∧ (raiseField ev fault unit detail s).coffset = s.coffset
    ∧ (raiseField ev fault unit detail s).alignDue = s.alignDue ∧ (raiseField ev fault unit detail s).delaysDue = s.delaysDue
    ∧ (raiseField ev fault unit detail s).ledger0 = s.ledger0 ∧ (raiseField ev fault unit detail s).ledger1 = s.ledger1
    ∧ (raiseField ev fault unit detail s).repair = s.repair ∧ (raiseField ev fault unit detail s).twin = s.twin
    ∧ (raiseField ev fault unit detail s).survey = s.survey ∧ (raiseField ev fault unit detail s).conservator = s.conservator
    ∧ (raiseField ev fault unit detail s).protection = s.protection ∧ (raiseField ev fault unit detail s).store = s.store
    ∧ (raiseField ev fault unit detail s).power = s.power ∧ (raiseField ev fault unit detail s).cores = s.cores
    ∧ (raiseField ev fault unit detail s).pins = s.pins ∧ (raiseField ev fault unit detail s).pending = s.pending := by
  and_intros <;> rfl

@[simp] theorem csWrite_fields (a : Nat) (bs : List Byte) (s : State) :
    (csWrite a bs s).variant = s.variant ∧ (csWrite a bs s).regs = s.regs ∧ (csWrite a bs s).shadow = s.shadow
    ∧ (csWrite a bs s).inForce = s.inForce ∧ (csWrite a bs s).pendingSet = s.pendingSet ∧ (csWrite a bs s).masters = s.masters
    ∧ (csWrite a bs s).crossReads = s.crossReads ∧ (csWrite a bs s).nextTag = s.nextTag ∧ (csWrite a bs s).fieldCopy = s.fieldCopy
    ∧ (csWrite a bs s).heldCommands = s.heldCommands ∧ (csWrite a bs s).stream = s.stream ∧ (csWrite a bs s).hostOut = s.hostOut
    ∧ (csWrite a bs s).barrier = s.barrier ∧ (csWrite a bs s).loader = s.loader ∧ (csWrite a bs s).released = s.released
    ∧ (csWrite a bs s).params = s.params ∧ (csWrite a bs s).imageId = s.imageId ∧ (csWrite a bs s).otp = s.otp
    ∧ (csWrite a bs s).otpRequest = s.otpRequest ∧ (csWrite a bs s).array = s.array ∧ (csWrite a bs s).batches = s.batches
    ∧ (csWrite a bs s).fetchStopped = s.fetchStopped ∧ (csWrite a bs s).history = s.history ∧ (csWrite a bs s).anyBatch = s.anyBatch
    ∧ (csWrite a bs s).lastBatch = s.lastBatch ∧ (csWrite a bs s).egress = s.egress ∧ (csWrite a bs s).unload = s.unload
    ∧ (csWrite a bs s).fabric = s.fabric ∧ (csWrite a bs s).link0 = s.link0 ∧ (csWrite a bs s).link1 = s.link1
    ∧ (csWrite a bs s).coffset = s.coffset ∧ (csWrite a bs s).alignDue = s.alignDue ∧ (csWrite a bs s).delaysDue = s.delaysDue
    ∧ (csWrite a bs s).ledger0 = s.ledger0 ∧ (csWrite a bs s).ledger1 = s.ledger1 ∧ (csWrite a bs s).repair = s.repair
    ∧ (csWrite a bs s).twin = s.twin ∧ (csWrite a bs s).survey = s.survey ∧ (csWrite a bs s).conservator = s.conservator
    ∧ (csWrite a bs s).protection = s.protection ∧ (csWrite a bs s).power = s.power ∧ (csWrite a bs s).cores = s.cores
    ∧ (csWrite a bs s).pins = s.pins ∧ (csWrite a bs s).pending = s.pending := by
  and_intros <;> rfl

@[simp] theorem markFault_fields (s : State) :
    (markFault s).variant = s.variant ∧ (markFault s).regs = s.regs ∧ (markFault s).shadow = s.shadow ∧ (markFault s).inForce = s.inForce
    ∧ (markFault s).pendingSet = s.pendingSet ∧ (markFault s).masters = s.masters ∧ (markFault s).crossReads = s.crossReads
    ∧ (markFault s).nextTag = s.nextTag ∧ (markFault s).fieldCopy = s.fieldCopy ∧ (markFault s).heldCommands = s.heldCommands
    ∧ (markFault s).stream = s.stream ∧ (markFault s).hostOut = s.hostOut ∧ (markFault s).barrier = s.barrier
    ∧ (markFault s).loader = s.loader ∧ (markFault s).released = s.released ∧ (markFault s).params = s.params
    ∧ (markFault s).imageId = s.imageId ∧ (markFault s).otp = s.otp ∧ (markFault s).otpRequest = s.otpRequest
    ∧ (markFault s).array = s.array ∧ (markFault s).batches = s.batches ∧ (markFault s).fetchStopped = s.fetchStopped
    ∧ (markFault s).history = s.history ∧ (markFault s).anyBatch = s.anyBatch ∧ (markFault s).lastBatch = s.lastBatch
    ∧ (markFault s).egress = s.egress ∧ (markFault s).unload = s.unload ∧ (markFault s).fabric = s.fabric ∧ (markFault s).link0 = s.link0
    ∧ (markFault s).link1 = s.link1 ∧ (markFault s).coffset = s.coffset ∧ (markFault s).alignDue = s.alignDue
    ∧ (markFault s).delaysDue = s.delaysDue ∧ (markFault s).ledger0 = s.ledger0 ∧ (markFault s).ledger1 = s.ledger1
    ∧ (markFault s).repair = s.repair ∧ (markFault s).survey = s.survey ∧ (markFault s).conservator = s.conservator
    ∧ (markFault s).protection = s.protection ∧ (markFault s).store = s.store ∧ (markFault s).power = s.power
    ∧ (markFault s).cores = s.cores ∧ (markFault s).pins = s.pins ∧ (markFault s).pending = s.pending := by
  and_intros <;> rfl

@[simp] theorem drawFree_fields (s : State) :
    (drawFree s).variant = s.variant ∧ (drawFree s).regs = s.regs ∧ (drawFree s).shadow = s.shadow ∧ (drawFree s).inForce = s.inForce
    ∧ (drawFree s).pendingSet = s.pendingSet ∧ (drawFree s).masters = s.masters ∧ (drawFree s).crossReads = s.crossReads
    ∧ (drawFree s).nextTag = s.nextTag ∧ (drawFree s).fieldCopy = s.fieldCopy ∧ (drawFree s).heldCommands = s.heldCommands
    ∧ (drawFree s).stream = s.stream ∧ (drawFree s).hostOut = s.hostOut ∧ (drawFree s).barrier = s.barrier
    ∧ (drawFree s).loader = s.loader ∧ (drawFree s).released = s.released ∧ (drawFree s).params = s.params
    ∧ (drawFree s).imageId = s.imageId ∧ (drawFree s).otp = s.otp ∧ (drawFree s).otpRequest = s.otpRequest ∧ (drawFree s).array = s.array
    ∧ (drawFree s).batches = s.batches ∧ (drawFree s).fetchStopped = s.fetchStopped ∧ (drawFree s).history = s.history
    ∧ (drawFree s).anyBatch = s.anyBatch ∧ (drawFree s).lastBatch = s.lastBatch ∧ (drawFree s).egress = s.egress
    ∧ (drawFree s).unload = s.unload ∧ (drawFree s).fabric = s.fabric ∧ (drawFree s).link0 = s.link0 ∧ (drawFree s).link1 = s.link1
    ∧ (drawFree s).coffset = s.coffset ∧ (drawFree s).alignDue = s.alignDue ∧ (drawFree s).delaysDue = s.delaysDue
    ∧ (drawFree s).ledger0 = s.ledger0 ∧ (drawFree s).ledger1 = s.ledger1 ∧ (drawFree s).repair = s.repair ∧ (drawFree s).twin = s.twin
    ∧ (drawFree s).survey = s.survey ∧ (drawFree s).conservator = s.conservator ∧ (drawFree s).protection = s.protection
    ∧ (drawFree s).store = s.store ∧ (drawFree s).power = s.power ∧ (drawFree s).pins = s.pins ∧ (drawFree s).pending = s.pending := by
  and_intros <;> rfl

@[simp] theorem hostWrite_fields (addr n v : Nat) (s : State) :
    (hostWrite addr n v s).variant = s.variant ∧ (hostWrite addr n v s).regs = s.regs ∧ (hostWrite addr n v s).shadow = s.shadow
    ∧ (hostWrite addr n v s).inForce = s.inForce ∧ (hostWrite addr n v s).pendingSet = s.pendingSet
    ∧ (hostWrite addr n v s).masters = s.masters ∧ (hostWrite addr n v s).crossReads = s.crossReads
    ∧ (hostWrite addr n v s).nextTag = s.nextTag ∧ (hostWrite addr n v s).fieldCopy = s.fieldCopy
    ∧ (hostWrite addr n v s).heldCommands = s.heldCommands ∧ (hostWrite addr n v s).stream = s.stream
    ∧ (hostWrite addr n v s).barrier = s.barrier ∧ (hostWrite addr n v s).loader = s.loader
    ∧ (hostWrite addr n v s).released = s.released ∧ (hostWrite addr n v s).params = s.params
    ∧ (hostWrite addr n v s).imageId = s.imageId ∧ (hostWrite addr n v s).otp = s.otp ∧ (hostWrite addr n v s).otpRequest = s.otpRequest
    ∧ (hostWrite addr n v s).array = s.array ∧ (hostWrite addr n v s).batches = s.batches
    ∧ (hostWrite addr n v s).fetchStopped = s.fetchStopped ∧ (hostWrite addr n v s).history = s.history
    ∧ (hostWrite addr n v s).anyBatch = s.anyBatch ∧ (hostWrite addr n v s).lastBatch = s.lastBatch
    ∧ (hostWrite addr n v s).egress = s.egress ∧ (hostWrite addr n v s).unload = s.unload ∧ (hostWrite addr n v s).fabric = s.fabric
    ∧ (hostWrite addr n v s).link0 = s.link0 ∧ (hostWrite addr n v s).link1 = s.link1 ∧ (hostWrite addr n v s).coffset = s.coffset
    ∧ (hostWrite addr n v s).alignDue = s.alignDue ∧ (hostWrite addr n v s).delaysDue = s.delaysDue
    ∧ (hostWrite addr n v s).ledger0 = s.ledger0 ∧ (hostWrite addr n v s).ledger1 = s.ledger1 ∧ (hostWrite addr n v s).repair = s.repair
    ∧ (hostWrite addr n v s).twin = s.twin ∧ (hostWrite addr n v s).survey = s.survey
    ∧ (hostWrite addr n v s).conservator = s.conservator ∧ (hostWrite addr n v s).protection = s.protection
    ∧ (hostWrite addr n v s).store = s.store ∧ (hostWrite addr n v s).power = s.power ∧ (hostWrite addr n v s).cores = s.cores
    ∧ (hostWrite addr n v s).pins = s.pins ∧ (hostWrite addr n v s).pending = s.pending := by
  and_intros <;> rfl

@[simp] theorem hostWriteBytes_fields (addr : Nat) (bs : List Byte) (s : State) :
    (hostWriteBytes addr bs s).variant = s.variant ∧ (hostWriteBytes addr bs s).regs = s.regs
    ∧ (hostWriteBytes addr bs s).shadow = s.shadow ∧ (hostWriteBytes addr bs s).inForce = s.inForce
    ∧ (hostWriteBytes addr bs s).pendingSet = s.pendingSet ∧ (hostWriteBytes addr bs s).masters = s.masters
    ∧ (hostWriteBytes addr bs s).crossReads = s.crossReads ∧ (hostWriteBytes addr bs s).nextTag = s.nextTag
    ∧ (hostWriteBytes addr bs s).fieldCopy = s.fieldCopy ∧ (hostWriteBytes addr bs s).heldCommands = s.heldCommands
    ∧ (hostWriteBytes addr bs s).stream = s.stream ∧ (hostWriteBytes addr bs s).barrier = s.barrier
    ∧ (hostWriteBytes addr bs s).loader = s.loader ∧ (hostWriteBytes addr bs s).released = s.released
    ∧ (hostWriteBytes addr bs s).params = s.params ∧ (hostWriteBytes addr bs s).imageId = s.imageId
    ∧ (hostWriteBytes addr bs s).otp = s.otp ∧ (hostWriteBytes addr bs s).otpRequest = s.otpRequest
    ∧ (hostWriteBytes addr bs s).array = s.array ∧ (hostWriteBytes addr bs s).batches = s.batches
    ∧ (hostWriteBytes addr bs s).fetchStopped = s.fetchStopped ∧ (hostWriteBytes addr bs s).history = s.history
    ∧ (hostWriteBytes addr bs s).anyBatch = s.anyBatch ∧ (hostWriteBytes addr bs s).lastBatch = s.lastBatch
    ∧ (hostWriteBytes addr bs s).egress = s.egress ∧ (hostWriteBytes addr bs s).unload = s.unload
    ∧ (hostWriteBytes addr bs s).fabric = s.fabric ∧ (hostWriteBytes addr bs s).link0 = s.link0
    ∧ (hostWriteBytes addr bs s).link1 = s.link1 ∧ (hostWriteBytes addr bs s).coffset = s.coffset
    ∧ (hostWriteBytes addr bs s).alignDue = s.alignDue ∧ (hostWriteBytes addr bs s).delaysDue = s.delaysDue
    ∧ (hostWriteBytes addr bs s).ledger0 = s.ledger0 ∧ (hostWriteBytes addr bs s).ledger1 = s.ledger1
    ∧ (hostWriteBytes addr bs s).repair = s.repair ∧ (hostWriteBytes addr bs s).twin = s.twin
    ∧ (hostWriteBytes addr bs s).survey = s.survey ∧ (hostWriteBytes addr bs s).conservator = s.conservator
    ∧ (hostWriteBytes addr bs s).protection = s.protection ∧ (hostWriteBytes addr bs s).store = s.store
    ∧ (hostWriteBytes addr bs s).power = s.power ∧ (hostWriteBytes addr bs s).cores = s.cores ∧ (hostWriteBytes addr bs s).pins = s.pins
    ∧ (hostWriteBytes addr bs s).pending = s.pending := by
  and_intros <;> rfl

@[simp] theorem setFlink_fields (l : FLink) (v : FieldLink) (s : State) :
    (setFlink l v s).variant = s.variant ∧ (setFlink l v s).regs = s.regs ∧ (setFlink l v s).shadow = s.shadow
    ∧ (setFlink l v s).inForce = s.inForce ∧ (setFlink l v s).pendingSet = s.pendingSet ∧ (setFlink l v s).masters = s.masters
    ∧ (setFlink l v s).crossReads = s.crossReads ∧ (setFlink l v s).nextTag = s.nextTag ∧ (setFlink l v s).fieldCopy = s.fieldCopy
    ∧ (setFlink l v s).heldCommands = s.heldCommands ∧ (setFlink l v s).stream = s.stream ∧ (setFlink l v s).hostOut = s.hostOut
    ∧ (setFlink l v s).barrier = s.barrier ∧ (setFlink l v s).loader = s.loader ∧ (setFlink l v s).released = s.released
    ∧ (setFlink l v s).params = s.params ∧ (setFlink l v s).imageId = s.imageId ∧ (setFlink l v s).otp = s.otp
    ∧ (setFlink l v s).otpRequest = s.otpRequest ∧ (setFlink l v s).array = s.array ∧ (setFlink l v s).batches = s.batches
    ∧ (setFlink l v s).fetchStopped = s.fetchStopped ∧ (setFlink l v s).history = s.history ∧ (setFlink l v s).anyBatch = s.anyBatch
    ∧ (setFlink l v s).lastBatch = s.lastBatch ∧ (setFlink l v s).egress = s.egress ∧ (setFlink l v s).unload = s.unload
    ∧ (setFlink l v s).fabric = s.fabric ∧ (setFlink l v s).coffset = s.coffset ∧ (setFlink l v s).alignDue = s.alignDue
    ∧ (setFlink l v s).delaysDue = s.delaysDue ∧ (setFlink l v s).ledger0 = s.ledger0 ∧ (setFlink l v s).ledger1 = s.ledger1
    ∧ (setFlink l v s).repair = s.repair ∧ (setFlink l v s).twin = s.twin ∧ (setFlink l v s).survey = s.survey
    ∧ (setFlink l v s).conservator = s.conservator ∧ (setFlink l v s).protection = s.protection ∧ (setFlink l v s).store = s.store
    ∧ (setFlink l v s).power = s.power ∧ (setFlink l v s).cores = s.cores ∧ (setFlink l v s).pins = s.pins
    ∧ (setFlink l v s).pending = s.pending := by
  cases l <;> and_intros <;> rfl

@[simp] theorem setLane_fields (l : FLink) (i : Nat) (v : Lane) (s : State) :
    (setLane l i v s).variant = s.variant ∧ (setLane l i v s).regs = s.regs ∧ (setLane l i v s).shadow = s.shadow
    ∧ (setLane l i v s).inForce = s.inForce ∧ (setLane l i v s).pendingSet = s.pendingSet ∧ (setLane l i v s).masters = s.masters
    ∧ (setLane l i v s).crossReads = s.crossReads ∧ (setLane l i v s).nextTag = s.nextTag ∧ (setLane l i v s).fieldCopy = s.fieldCopy
    ∧ (setLane l i v s).heldCommands = s.heldCommands ∧ (setLane l i v s).stream = s.stream ∧ (setLane l i v s).hostOut = s.hostOut
    ∧ (setLane l i v s).barrier = s.barrier ∧ (setLane l i v s).loader = s.loader ∧ (setLane l i v s).released = s.released
    ∧ (setLane l i v s).params = s.params ∧ (setLane l i v s).imageId = s.imageId ∧ (setLane l i v s).otp = s.otp
    ∧ (setLane l i v s).otpRequest = s.otpRequest ∧ (setLane l i v s).array = s.array ∧ (setLane l i v s).batches = s.batches
    ∧ (setLane l i v s).fetchStopped = s.fetchStopped ∧ (setLane l i v s).history = s.history ∧ (setLane l i v s).anyBatch = s.anyBatch
    ∧ (setLane l i v s).lastBatch = s.lastBatch ∧ (setLane l i v s).egress = s.egress ∧ (setLane l i v s).unload = s.unload
    ∧ (setLane l i v s).fabric = s.fabric ∧ (setLane l i v s).coffset = s.coffset ∧ (setLane l i v s).alignDue = s.alignDue
    ∧ (setLane l i v s).delaysDue = s.delaysDue ∧ (setLane l i v s).ledger0 = s.ledger0 ∧ (setLane l i v s).ledger1 = s.ledger1
    ∧ (setLane l i v s).repair = s.repair ∧ (setLane l i v s).twin = s.twin ∧ (setLane l i v s).survey = s.survey
    ∧ (setLane l i v s).conservator = s.conservator ∧ (setLane l i v s).protection = s.protection ∧ (setLane l i v s).store = s.store
    ∧ (setLane l i v s).power = s.power ∧ (setLane l i v s).cores = s.cores ∧ (setLane l i v s).pins = s.pins
    ∧ (setLane l i v s).pending = s.pending := by
  cases l <;> and_intros <;> rfl

@[simp] theorem setLedger_fields (l : FLink) (v : Ledger) (s : State) :
    (setLedger l v s).variant = s.variant ∧ (setLedger l v s).regs = s.regs ∧ (setLedger l v s).shadow = s.shadow
    ∧ (setLedger l v s).inForce = s.inForce ∧ (setLedger l v s).pendingSet = s.pendingSet ∧ (setLedger l v s).masters = s.masters
    ∧ (setLedger l v s).crossReads = s.crossReads ∧ (setLedger l v s).nextTag = s.nextTag ∧ (setLedger l v s).fieldCopy = s.fieldCopy
    ∧ (setLedger l v s).heldCommands = s.heldCommands ∧ (setLedger l v s).stream = s.stream ∧ (setLedger l v s).hostOut = s.hostOut
    ∧ (setLedger l v s).barrier = s.barrier ∧ (setLedger l v s).loader = s.loader ∧ (setLedger l v s).released = s.released
    ∧ (setLedger l v s).params = s.params ∧ (setLedger l v s).imageId = s.imageId ∧ (setLedger l v s).otp = s.otp
    ∧ (setLedger l v s).otpRequest = s.otpRequest ∧ (setLedger l v s).array = s.array ∧ (setLedger l v s).batches = s.batches
    ∧ (setLedger l v s).fetchStopped = s.fetchStopped ∧ (setLedger l v s).history = s.history ∧ (setLedger l v s).anyBatch = s.anyBatch
    ∧ (setLedger l v s).lastBatch = s.lastBatch ∧ (setLedger l v s).egress = s.egress ∧ (setLedger l v s).unload = s.unload
    ∧ (setLedger l v s).fabric = s.fabric ∧ (setLedger l v s).link0 = s.link0 ∧ (setLedger l v s).link1 = s.link1
    ∧ (setLedger l v s).coffset = s.coffset ∧ (setLedger l v s).alignDue = s.alignDue ∧ (setLedger l v s).delaysDue = s.delaysDue
    ∧ (setLedger l v s).repair = s.repair ∧ (setLedger l v s).twin = s.twin ∧ (setLedger l v s).survey = s.survey
    ∧ (setLedger l v s).conservator = s.conservator ∧ (setLedger l v s).protection = s.protection ∧ (setLedger l v s).store = s.store
    ∧ (setLedger l v s).power = s.power ∧ (setLedger l v s).cores = s.cores ∧ (setLedger l v s).pins = s.pins
    ∧ (setLedger l v s).pending = s.pending := by
  cases l <;> and_intros <;> rfl

@[simp] theorem setCore_fields (c : Core) (v : CoreState) (s : State) :
    (setCore c v s).variant = s.variant ∧ (setCore c v s).regs = s.regs ∧ (setCore c v s).shadow = s.shadow
    ∧ (setCore c v s).inForce = s.inForce ∧ (setCore c v s).pendingSet = s.pendingSet ∧ (setCore c v s).masters = s.masters
    ∧ (setCore c v s).crossReads = s.crossReads ∧ (setCore c v s).nextTag = s.nextTag ∧ (setCore c v s).fieldCopy = s.fieldCopy
    ∧ (setCore c v s).heldCommands = s.heldCommands ∧ (setCore c v s).stream = s.stream ∧ (setCore c v s).hostOut = s.hostOut
    ∧ (setCore c v s).barrier = s.barrier ∧ (setCore c v s).loader = s.loader ∧ (setCore c v s).released = s.released
    ∧ (setCore c v s).params = s.params ∧ (setCore c v s).imageId = s.imageId ∧ (setCore c v s).otp = s.otp
    ∧ (setCore c v s).otpRequest = s.otpRequest ∧ (setCore c v s).array = s.array ∧ (setCore c v s).batches = s.batches
    ∧ (setCore c v s).fetchStopped = s.fetchStopped ∧ (setCore c v s).history = s.history ∧ (setCore c v s).anyBatch = s.anyBatch
    ∧ (setCore c v s).lastBatch = s.lastBatch ∧ (setCore c v s).egress = s.egress ∧ (setCore c v s).unload = s.unload
    ∧ (setCore c v s).fabric = s.fabric ∧ (setCore c v s).link0 = s.link0 ∧ (setCore c v s).link1 = s.link1
    ∧ (setCore c v s).coffset = s.coffset ∧ (setCore c v s).alignDue = s.alignDue ∧ (setCore c v s).delaysDue = s.delaysDue
    ∧ (setCore c v s).ledger0 = s.ledger0 ∧ (setCore c v s).ledger1 = s.ledger1 ∧ (setCore c v s).repair = s.repair
    ∧ (setCore c v s).twin = s.twin ∧ (setCore c v s).survey = s.survey ∧ (setCore c v s).conservator = s.conservator
    ∧ (setCore c v s).protection = s.protection ∧ (setCore c v s).store = s.store ∧ (setCore c v s).power = s.power
    ∧ (setCore c v s).pins = s.pins ∧ (setCore c v s).pending = s.pending := by
  cases c <;> and_intros <;> rfl

@[simp] theorem modBatch_fields (n : DWord) (f : Batch → Batch) (s : State) :
    (modBatch n f s).variant = s.variant ∧ (modBatch n f s).regs = s.regs ∧ (modBatch n f s).shadow = s.shadow
    ∧ (modBatch n f s).inForce = s.inForce ∧ (modBatch n f s).pendingSet = s.pendingSet ∧ (modBatch n f s).masters = s.masters
    ∧ (modBatch n f s).crossReads = s.crossReads ∧ (modBatch n f s).nextTag = s.nextTag ∧ (modBatch n f s).fieldCopy = s.fieldCopy
    ∧ (modBatch n f s).heldCommands = s.heldCommands ∧ (modBatch n f s).stream = s.stream ∧ (modBatch n f s).hostOut = s.hostOut
    ∧ (modBatch n f s).barrier = s.barrier ∧ (modBatch n f s).loader = s.loader ∧ (modBatch n f s).released = s.released
    ∧ (modBatch n f s).params = s.params ∧ (modBatch n f s).imageId = s.imageId ∧ (modBatch n f s).otp = s.otp
    ∧ (modBatch n f s).otpRequest = s.otpRequest ∧ (modBatch n f s).array = s.array ∧ (modBatch n f s).fetchStopped = s.fetchStopped
    ∧ (modBatch n f s).history = s.history ∧ (modBatch n f s).anyBatch = s.anyBatch ∧ (modBatch n f s).lastBatch = s.lastBatch
    ∧ (modBatch n f s).egress = s.egress ∧ (modBatch n f s).unload = s.unload ∧ (modBatch n f s).fabric = s.fabric
    ∧ (modBatch n f s).link0 = s.link0 ∧ (modBatch n f s).link1 = s.link1 ∧ (modBatch n f s).coffset = s.coffset
    ∧ (modBatch n f s).alignDue = s.alignDue ∧ (modBatch n f s).delaysDue = s.delaysDue ∧ (modBatch n f s).ledger0 = s.ledger0
    ∧ (modBatch n f s).ledger1 = s.ledger1 ∧ (modBatch n f s).repair = s.repair ∧ (modBatch n f s).twin = s.twin
    ∧ (modBatch n f s).survey = s.survey ∧ (modBatch n f s).conservator = s.conservator ∧ (modBatch n f s).protection = s.protection
    ∧ (modBatch n f s).store = s.store ∧ (modBatch n f s).power = s.power ∧ (modBatch n f s).cores = s.cores
    ∧ (modBatch n f s).pins = s.pins ∧ (modBatch n f s).pending = s.pending := by
  and_intros <;> rfl

@[simp] theorem setMailboxStatus_fields (b : Nat) (s : State) :
    (setMailboxStatus b s).variant = s.variant ∧ (setMailboxStatus b s).shadow = s.shadow ∧ (setMailboxStatus b s).inForce = s.inForce
    ∧ (setMailboxStatus b s).pendingSet = s.pendingSet ∧ (setMailboxStatus b s).masters = s.masters
    ∧ (setMailboxStatus b s).crossReads = s.crossReads ∧ (setMailboxStatus b s).nextTag = s.nextTag
    ∧ (setMailboxStatus b s).fieldCopy = s.fieldCopy ∧ (setMailboxStatus b s).heldCommands = s.heldCommands
    ∧ (setMailboxStatus b s).stream = s.stream ∧ (setMailboxStatus b s).hostOut = s.hostOut ∧ (setMailboxStatus b s).barrier = s.barrier
    ∧ (setMailboxStatus b s).loader = s.loader ∧ (setMailboxStatus b s).released = s.released ∧ (setMailboxStatus b s).params = s.params
    ∧ (setMailboxStatus b s).imageId = s.imageId ∧ (setMailboxStatus b s).otp = s.otp ∧ (setMailboxStatus b s).otpRequest = s.otpRequest
    ∧ (setMailboxStatus b s).array = s.array ∧ (setMailboxStatus b s).batches = s.batches
    ∧ (setMailboxStatus b s).fetchStopped = s.fetchStopped ∧ (setMailboxStatus b s).history = s.history
    ∧ (setMailboxStatus b s).anyBatch = s.anyBatch ∧ (setMailboxStatus b s).lastBatch = s.lastBatch
    ∧ (setMailboxStatus b s).egress = s.egress ∧ (setMailboxStatus b s).unload = s.unload ∧ (setMailboxStatus b s).fabric = s.fabric
    ∧ (setMailboxStatus b s).link0 = s.link0 ∧ (setMailboxStatus b s).link1 = s.link1 ∧ (setMailboxStatus b s).coffset = s.coffset
    ∧ (setMailboxStatus b s).alignDue = s.alignDue ∧ (setMailboxStatus b s).delaysDue = s.delaysDue
    ∧ (setMailboxStatus b s).ledger0 = s.ledger0 ∧ (setMailboxStatus b s).ledger1 = s.ledger1 ∧ (setMailboxStatus b s).repair = s.repair
    ∧ (setMailboxStatus b s).twin = s.twin ∧ (setMailboxStatus b s).survey = s.survey
    ∧ (setMailboxStatus b s).conservator = s.conservator ∧ (setMailboxStatus b s).protection = s.protection
    ∧ (setMailboxStatus b s).store = s.store ∧ (setMailboxStatus b s).power = s.power ∧ (setMailboxStatus b s).cores = s.cores
    ∧ (setMailboxStatus b s).pins = s.pins ∧ (setMailboxStatus b s).pending = s.pending := by
  and_intros <;> rfl

@[simp] theorem putScrubBit_fields (b : Nat) (v : Bool) (s : State) :
    (putScrubBit b v s).variant = s.variant ∧ (putScrubBit b v s).shadow = s.shadow ∧ (putScrubBit b v s).inForce = s.inForce
    ∧ (putScrubBit b v s).pendingSet = s.pendingSet ∧ (putScrubBit b v s).masters = s.masters
    ∧ (putScrubBit b v s).crossReads = s.crossReads ∧ (putScrubBit b v s).nextTag = s.nextTag
    ∧ (putScrubBit b v s).fieldCopy = s.fieldCopy ∧ (putScrubBit b v s).heldCommands = s.heldCommands
    ∧ (putScrubBit b v s).stream = s.stream ∧ (putScrubBit b v s).hostOut = s.hostOut ∧ (putScrubBit b v s).barrier = s.barrier
    ∧ (putScrubBit b v s).loader = s.loader ∧ (putScrubBit b v s).released = s.released ∧ (putScrubBit b v s).params = s.params
    ∧ (putScrubBit b v s).imageId = s.imageId ∧ (putScrubBit b v s).otp = s.otp ∧ (putScrubBit b v s).otpRequest = s.otpRequest
    ∧ (putScrubBit b v s).array = s.array ∧ (putScrubBit b v s).batches = s.batches ∧ (putScrubBit b v s).fetchStopped = s.fetchStopped
    ∧ (putScrubBit b v s).history = s.history ∧ (putScrubBit b v s).anyBatch = s.anyBatch ∧ (putScrubBit b v s).lastBatch = s.lastBatch
    ∧ (putScrubBit b v s).egress = s.egress ∧ (putScrubBit b v s).unload = s.unload ∧ (putScrubBit b v s).fabric = s.fabric
    ∧ (putScrubBit b v s).link0 = s.link0 ∧ (putScrubBit b v s).link1 = s.link1 ∧ (putScrubBit b v s).coffset = s.coffset
    ∧ (putScrubBit b v s).alignDue = s.alignDue ∧ (putScrubBit b v s).delaysDue = s.delaysDue ∧ (putScrubBit b v s).ledger0 = s.ledger0
    ∧ (putScrubBit b v s).ledger1 = s.ledger1 ∧ (putScrubBit b v s).repair = s.repair ∧ (putScrubBit b v s).twin = s.twin
    ∧ (putScrubBit b v s).survey = s.survey ∧ (putScrubBit b v s).conservator = s.conservator
    ∧ (putScrubBit b v s).protection = s.protection ∧ (putScrubBit b v s).store = s.store ∧ (putScrubBit b v s).power = s.power
    ∧ (putScrubBit b v s).cores = s.cores ∧ (putScrubBit b v s).pins = s.pins ∧ (putScrubBit b v s).pending = s.pending := by
  and_intros <;> rfl

@[simp] theorem putClkBit_fields (b : Nat) (v : Bool) (s : State) :
    (putClkBit b v s).variant = s.variant ∧ (putClkBit b v s).shadow = s.shadow ∧ (putClkBit b v s).inForce = s.inForce
    ∧ (putClkBit b v s).pendingSet = s.pendingSet ∧ (putClkBit b v s).masters = s.masters ∧ (putClkBit b v s).crossReads = s.crossReads
    ∧ (putClkBit b v s).nextTag = s.nextTag ∧ (putClkBit b v s).fieldCopy = s.fieldCopy ∧ (putClkBit b v s).heldCommands = s.heldCommands
    ∧ (putClkBit b v s).stream = s.stream ∧ (putClkBit b v s).hostOut = s.hostOut ∧ (putClkBit b v s).barrier = s.barrier
    ∧ (putClkBit b v s).loader = s.loader ∧ (putClkBit b v s).released = s.released ∧ (putClkBit b v s).params = s.params
    ∧ (putClkBit b v s).imageId = s.imageId ∧ (putClkBit b v s).otp = s.otp ∧ (putClkBit b v s).otpRequest = s.otpRequest
    ∧ (putClkBit b v s).array = s.array ∧ (putClkBit b v s).batches = s.batches ∧ (putClkBit b v s).fetchStopped = s.fetchStopped
    ∧ (putClkBit b v s).history = s.history ∧ (putClkBit b v s).anyBatch = s.anyBatch ∧ (putClkBit b v s).lastBatch = s.lastBatch
    ∧ (putClkBit b v s).egress = s.egress ∧ (putClkBit b v s).unload = s.unload ∧ (putClkBit b v s).fabric = s.fabric
    ∧ (putClkBit b v s).link0 = s.link0 ∧ (putClkBit b v s).link1 = s.link1 ∧ (putClkBit b v s).coffset = s.coffset
    ∧ (putClkBit b v s).alignDue = s.alignDue ∧ (putClkBit b v s).delaysDue = s.delaysDue ∧ (putClkBit b v s).ledger0 = s.ledger0
    ∧ (putClkBit b v s).ledger1 = s.ledger1 ∧ (putClkBit b v s).repair = s.repair ∧ (putClkBit b v s).twin = s.twin
    ∧ (putClkBit b v s).survey = s.survey ∧ (putClkBit b v s).conservator = s.conservator ∧ (putClkBit b v s).protection = s.protection
    ∧ (putClkBit b v s).store = s.store ∧ (putClkBit b v s).power = s.power ∧ (putClkBit b v s).cores = s.cores
    ∧ (putClkBit b v s).pins = s.pins ∧ (putClkBit b v s).pending = s.pending := by
  and_intros <;> rfl

@[simp] theorem putArrayBit_fields (b : Nat) (v : Bool) (s : State) :
    (putArrayBit b v s).variant = s.variant ∧ (putArrayBit b v s).shadow = s.shadow ∧ (putArrayBit b v s).inForce = s.inForce
    ∧ (putArrayBit b v s).pendingSet = s.pendingSet ∧ (putArrayBit b v s).masters = s.masters
    ∧ (putArrayBit b v s).crossReads = s.crossReads ∧ (putArrayBit b v s).nextTag = s.nextTag
    ∧ (putArrayBit b v s).fieldCopy = s.fieldCopy ∧ (putArrayBit b v s).heldCommands = s.heldCommands
    ∧ (putArrayBit b v s).stream = s.stream ∧ (putArrayBit b v s).hostOut = s.hostOut ∧ (putArrayBit b v s).barrier = s.barrier
    ∧ (putArrayBit b v s).loader = s.loader ∧ (putArrayBit b v s).released = s.released ∧ (putArrayBit b v s).params = s.params
    ∧ (putArrayBit b v s).imageId = s.imageId ∧ (putArrayBit b v s).otp = s.otp ∧ (putArrayBit b v s).otpRequest = s.otpRequest
    ∧ (putArrayBit b v s).array = s.array ∧ (putArrayBit b v s).batches = s.batches ∧ (putArrayBit b v s).fetchStopped = s.fetchStopped
    ∧ (putArrayBit b v s).history = s.history ∧ (putArrayBit b v s).anyBatch = s.anyBatch ∧ (putArrayBit b v s).lastBatch = s.lastBatch
    ∧ (putArrayBit b v s).egress = s.egress ∧ (putArrayBit b v s).unload = s.unload ∧ (putArrayBit b v s).fabric = s.fabric
    ∧ (putArrayBit b v s).link0 = s.link0 ∧ (putArrayBit b v s).link1 = s.link1 ∧ (putArrayBit b v s).coffset = s.coffset
    ∧ (putArrayBit b v s).alignDue = s.alignDue ∧ (putArrayBit b v s).delaysDue = s.delaysDue ∧ (putArrayBit b v s).ledger0 = s.ledger0
    ∧ (putArrayBit b v s).ledger1 = s.ledger1 ∧ (putArrayBit b v s).repair = s.repair ∧ (putArrayBit b v s).twin = s.twin
    ∧ (putArrayBit b v s).survey = s.survey ∧ (putArrayBit b v s).conservator = s.conservator
    ∧ (putArrayBit b v s).protection = s.protection ∧ (putArrayBit b v s).store = s.store ∧ (putArrayBit b v s).power = s.power
    ∧ (putArrayBit b v s).cores = s.cores ∧ (putArrayBit b v s).pins = s.pins ∧ (putArrayBit b v s).pending = s.pending := by
  and_intros <;> rfl

@[simp] theorem putTwinBit_fields (b : Nat) (v : Bool) (s : State) :
    (putTwinBit b v s).variant = s.variant ∧ (putTwinBit b v s).shadow = s.shadow ∧ (putTwinBit b v s).inForce = s.inForce
    ∧ (putTwinBit b v s).pendingSet = s.pendingSet ∧ (putTwinBit b v s).masters = s.masters
    ∧ (putTwinBit b v s).crossReads = s.crossReads ∧ (putTwinBit b v s).nextTag = s.nextTag ∧ (putTwinBit b v s).fieldCopy = s.fieldCopy
    ∧ (putTwinBit b v s).heldCommands = s.heldCommands ∧ (putTwinBit b v s).stream = s.stream ∧ (putTwinBit b v s).hostOut = s.hostOut
    ∧ (putTwinBit b v s).barrier = s.barrier ∧ (putTwinBit b v s).loader = s.loader ∧ (putTwinBit b v s).released = s.released
    ∧ (putTwinBit b v s).params = s.params ∧ (putTwinBit b v s).imageId = s.imageId ∧ (putTwinBit b v s).otp = s.otp
    ∧ (putTwinBit b v s).otpRequest = s.otpRequest ∧ (putTwinBit b v s).array = s.array ∧ (putTwinBit b v s).batches = s.batches
    ∧ (putTwinBit b v s).fetchStopped = s.fetchStopped ∧ (putTwinBit b v s).history = s.history
    ∧ (putTwinBit b v s).anyBatch = s.anyBatch ∧ (putTwinBit b v s).lastBatch = s.lastBatch ∧ (putTwinBit b v s).egress = s.egress
    ∧ (putTwinBit b v s).unload = s.unload ∧ (putTwinBit b v s).fabric = s.fabric ∧ (putTwinBit b v s).link0 = s.link0
    ∧ (putTwinBit b v s).link1 = s.link1 ∧ (putTwinBit b v s).coffset = s.coffset ∧ (putTwinBit b v s).alignDue = s.alignDue
    ∧ (putTwinBit b v s).delaysDue = s.delaysDue ∧ (putTwinBit b v s).ledger0 = s.ledger0 ∧ (putTwinBit b v s).ledger1 = s.ledger1
    ∧ (putTwinBit b v s).repair = s.repair ∧ (putTwinBit b v s).twin = s.twin ∧ (putTwinBit b v s).survey = s.survey
    ∧ (putTwinBit b v s).conservator = s.conservator ∧ (putTwinBit b v s).protection = s.protection ∧ (putTwinBit b v s).store = s.store
    ∧ (putTwinBit b v s).power = s.power ∧ (putTwinBit b v s).cores = s.cores ∧ (putTwinBit b v s).pins = s.pins
    ∧ (putTwinBit b v s).pending = s.pending := by
  and_intros <;> rfl

@[simp] theorem putIoDisabled_fields (v : Bool) (s : State) :
    (putIoDisabled v s).variant = s.variant ∧ (putIoDisabled v s).shadow = s.shadow ∧ (putIoDisabled v s).inForce = s.inForce
    ∧ (putIoDisabled v s).pendingSet = s.pendingSet ∧ (putIoDisabled v s).masters = s.masters
    ∧ (putIoDisabled v s).crossReads = s.crossReads ∧ (putIoDisabled v s).nextTag = s.nextTag
    ∧ (putIoDisabled v s).fieldCopy = s.fieldCopy ∧ (putIoDisabled v s).heldCommands = s.heldCommands
    ∧ (putIoDisabled v s).stream = s.stream ∧ (putIoDisabled v s).hostOut = s.hostOut ∧ (putIoDisabled v s).barrier = s.barrier
    ∧ (putIoDisabled v s).loader = s.loader ∧ (putIoDisabled v s).released = s.released ∧ (putIoDisabled v s).params = s.params
    ∧ (putIoDisabled v s).imageId = s.imageId ∧ (putIoDisabled v s).otp = s.otp ∧ (putIoDisabled v s).otpRequest = s.otpRequest
    ∧ (putIoDisabled v s).array = s.array ∧ (putIoDisabled v s).batches = s.batches ∧ (putIoDisabled v s).fetchStopped = s.fetchStopped
    ∧ (putIoDisabled v s).history = s.history ∧ (putIoDisabled v s).anyBatch = s.anyBatch ∧ (putIoDisabled v s).lastBatch = s.lastBatch
    ∧ (putIoDisabled v s).egress = s.egress ∧ (putIoDisabled v s).unload = s.unload ∧ (putIoDisabled v s).fabric = s.fabric
    ∧ (putIoDisabled v s).link0 = s.link0 ∧ (putIoDisabled v s).link1 = s.link1 ∧ (putIoDisabled v s).coffset = s.coffset
    ∧ (putIoDisabled v s).alignDue = s.alignDue ∧ (putIoDisabled v s).delaysDue = s.delaysDue ∧ (putIoDisabled v s).ledger0 = s.ledger0
    ∧ (putIoDisabled v s).ledger1 = s.ledger1 ∧ (putIoDisabled v s).repair = s.repair ∧ (putIoDisabled v s).twin = s.twin
    ∧ (putIoDisabled v s).survey = s.survey ∧ (putIoDisabled v s).conservator = s.conservator
    ∧ (putIoDisabled v s).protection = s.protection ∧ (putIoDisabled v s).store = s.store ∧ (putIoDisabled v s).power = s.power
    ∧ (putIoDisabled v s).cores = s.cores ∧ (putIoDisabled v s).pins = s.pins ∧ (putIoDisabled v s).pending = s.pending := by
  and_intros <;> rfl

@[simp] theorem putLoad_fields (s : State) :
    (putLoad s).variant = s.variant ∧ (putLoad s).shadow = s.shadow ∧ (putLoad s).inForce = s.inForce
    ∧ (putLoad s).pendingSet = s.pendingSet ∧ (putLoad s).masters = s.masters ∧ (putLoad s).crossReads = s.crossReads
    ∧ (putLoad s).nextTag = s.nextTag ∧ (putLoad s).fieldCopy = s.fieldCopy ∧ (putLoad s).heldCommands = s.heldCommands
    ∧ (putLoad s).stream = s.stream ∧ (putLoad s).hostOut = s.hostOut ∧ (putLoad s).barrier = s.barrier ∧ (putLoad s).loader = s.loader
    ∧ (putLoad s).released = s.released ∧ (putLoad s).params = s.params ∧ (putLoad s).imageId = s.imageId ∧ (putLoad s).otp = s.otp
    ∧ (putLoad s).otpRequest = s.otpRequest ∧ (putLoad s).array = s.array ∧ (putLoad s).batches = s.batches
    ∧ (putLoad s).fetchStopped = s.fetchStopped ∧ (putLoad s).history = s.history ∧ (putLoad s).anyBatch = s.anyBatch
    ∧ (putLoad s).lastBatch = s.lastBatch ∧ (putLoad s).egress = s.egress ∧ (putLoad s).unload = s.unload ∧ (putLoad s).fabric = s.fabric
    ∧ (putLoad s).link0 = s.link0 ∧ (putLoad s).link1 = s.link1 ∧ (putLoad s).coffset = s.coffset ∧ (putLoad s).alignDue = s.alignDue
    ∧ (putLoad s).delaysDue = s.delaysDue ∧ (putLoad s).ledger0 = s.ledger0 ∧ (putLoad s).ledger1 = s.ledger1
    ∧ (putLoad s).repair = s.repair ∧ (putLoad s).twin = s.twin ∧ (putLoad s).survey = s.survey ∧ (putLoad s).conservator = s.conservator
    ∧ (putLoad s).protection = s.protection ∧ (putLoad s).store = s.store ∧ (putLoad s).power = s.power ∧ (putLoad s).cores = s.cores
    ∧ (putLoad s).pins = s.pins ∧ (putLoad s).pending = s.pending := by
  and_intros <;> rfl

@[simp] theorem setLoadState_fields (v : Nat) (s : State) :
    (setLoadState v s).variant = s.variant ∧ (setLoadState v s).shadow = s.shadow ∧ (setLoadState v s).inForce = s.inForce
    ∧ (setLoadState v s).pendingSet = s.pendingSet ∧ (setLoadState v s).masters = s.masters
    ∧ (setLoadState v s).crossReads = s.crossReads ∧ (setLoadState v s).nextTag = s.nextTag ∧ (setLoadState v s).fieldCopy = s.fieldCopy
    ∧ (setLoadState v s).heldCommands = s.heldCommands ∧ (setLoadState v s).stream = s.stream ∧ (setLoadState v s).hostOut = s.hostOut
    ∧ (setLoadState v s).barrier = s.barrier ∧ (setLoadState v s).loader = s.loader ∧ (setLoadState v s).released = s.released
    ∧ (setLoadState v s).params = s.params ∧ (setLoadState v s).imageId = s.imageId ∧ (setLoadState v s).otp = s.otp
    ∧ (setLoadState v s).otpRequest = s.otpRequest ∧ (setLoadState v s).array = s.array ∧ (setLoadState v s).batches = s.batches
    ∧ (setLoadState v s).fetchStopped = s.fetchStopped ∧ (setLoadState v s).history = s.history
    ∧ (setLoadState v s).anyBatch = s.anyBatch ∧ (setLoadState v s).lastBatch = s.lastBatch ∧ (setLoadState v s).egress = s.egress
    ∧ (setLoadState v s).unload = s.unload ∧ (setLoadState v s).fabric = s.fabric ∧ (setLoadState v s).link0 = s.link0
    ∧ (setLoadState v s).link1 = s.link1 ∧ (setLoadState v s).coffset = s.coffset ∧ (setLoadState v s).alignDue = s.alignDue
    ∧ (setLoadState v s).delaysDue = s.delaysDue ∧ (setLoadState v s).ledger0 = s.ledger0 ∧ (setLoadState v s).ledger1 = s.ledger1
    ∧ (setLoadState v s).repair = s.repair ∧ (setLoadState v s).twin = s.twin ∧ (setLoadState v s).survey = s.survey
    ∧ (setLoadState v s).conservator = s.conservator ∧ (setLoadState v s).protection = s.protection ∧ (setLoadState v s).store = s.store
    ∧ (setLoadState v s).power = s.power ∧ (setLoadState v s).cores = s.cores ∧ (setLoadState v s).pins = s.pins
    ∧ (setLoadState v s).pending = s.pending := by
  and_intros <;> rfl

@[simp] theorem putLinkState_fields (l : FLink) (v : Nat) (s : State) :
    (putLinkState l v s).variant = s.variant ∧ (putLinkState l v s).shadow = s.shadow ∧ (putLinkState l v s).inForce = s.inForce
    ∧ (putLinkState l v s).pendingSet = s.pendingSet ∧ (putLinkState l v s).masters = s.masters
    ∧ (putLinkState l v s).crossReads = s.crossReads ∧ (putLinkState l v s).nextTag = s.nextTag
    ∧ (putLinkState l v s).fieldCopy = s.fieldCopy ∧ (putLinkState l v s).heldCommands = s.heldCommands
    ∧ (putLinkState l v s).stream = s.stream ∧ (putLinkState l v s).hostOut = s.hostOut ∧ (putLinkState l v s).barrier = s.barrier
    ∧ (putLinkState l v s).loader = s.loader ∧ (putLinkState l v s).released = s.released ∧ (putLinkState l v s).params = s.params
    ∧ (putLinkState l v s).imageId = s.imageId ∧ (putLinkState l v s).otp = s.otp ∧ (putLinkState l v s).otpRequest = s.otpRequest
    ∧ (putLinkState l v s).array = s.array ∧ (putLinkState l v s).batches = s.batches
    ∧ (putLinkState l v s).fetchStopped = s.fetchStopped ∧ (putLinkState l v s).history = s.history
    ∧ (putLinkState l v s).anyBatch = s.anyBatch ∧ (putLinkState l v s).lastBatch = s.lastBatch ∧ (putLinkState l v s).egress = s.egress
    ∧ (putLinkState l v s).unload = s.unload ∧ (putLinkState l v s).fabric = s.fabric ∧ (putLinkState l v s).link0 = s.link0
    ∧ (putLinkState l v s).link1 = s.link1 ∧ (putLinkState l v s).coffset = s.coffset ∧ (putLinkState l v s).alignDue = s.alignDue
    ∧ (putLinkState l v s).delaysDue = s.delaysDue ∧ (putLinkState l v s).ledger0 = s.ledger0 ∧ (putLinkState l v s).ledger1 = s.ledger1
    ∧ (putLinkState l v s).repair = s.repair ∧ (putLinkState l v s).twin = s.twin ∧ (putLinkState l v s).survey = s.survey
    ∧ (putLinkState l v s).conservator = s.conservator ∧ (putLinkState l v s).protection = s.protection
    ∧ (putLinkState l v s).store = s.store ∧ (putLinkState l v s).power = s.power ∧ (putLinkState l v s).cores = s.cores
    ∧ (putLinkState l v s).pins = s.pins ∧ (putLinkState l v s).pending = s.pending := by
  and_intros <;> rfl

@[simp] theorem setChannel_fields (l : FLink) (c : RingChannel) (s : State) :
    (setChannel l c s).variant = s.variant ∧ (setChannel l c s).regs = s.regs ∧ (setChannel l c s).shadow = s.shadow
    ∧ (setChannel l c s).inForce = s.inForce ∧ (setChannel l c s).pendingSet = s.pendingSet ∧ (setChannel l c s).masters = s.masters
    ∧ (setChannel l c s).crossReads = s.crossReads ∧ (setChannel l c s).nextTag = s.nextTag ∧ (setChannel l c s).fieldCopy = s.fieldCopy
    ∧ (setChannel l c s).heldCommands = s.heldCommands ∧ (setChannel l c s).hostOut = s.hostOut ∧ (setChannel l c s).barrier = s.barrier
    ∧ (setChannel l c s).loader = s.loader ∧ (setChannel l c s).released = s.released ∧ (setChannel l c s).params = s.params
    ∧ (setChannel l c s).imageId = s.imageId ∧ (setChannel l c s).otp = s.otp ∧ (setChannel l c s).otpRequest = s.otpRequest
    ∧ (setChannel l c s).array = s.array ∧ (setChannel l c s).batches = s.batches ∧ (setChannel l c s).fetchStopped = s.fetchStopped
    ∧ (setChannel l c s).history = s.history ∧ (setChannel l c s).anyBatch = s.anyBatch ∧ (setChannel l c s).lastBatch = s.lastBatch
    ∧ (setChannel l c s).egress = s.egress ∧ (setChannel l c s).unload = s.unload ∧ (setChannel l c s).fabric = s.fabric
    ∧ (setChannel l c s).link0 = s.link0 ∧ (setChannel l c s).link1 = s.link1 ∧ (setChannel l c s).coffset = s.coffset
    ∧ (setChannel l c s).alignDue = s.alignDue ∧ (setChannel l c s).delaysDue = s.delaysDue ∧ (setChannel l c s).ledger0 = s.ledger0
    ∧ (setChannel l c s).ledger1 = s.ledger1 ∧ (setChannel l c s).repair = s.repair ∧ (setChannel l c s).twin = s.twin
    ∧ (setChannel l c s).survey = s.survey ∧ (setChannel l c s).conservator = s.conservator
    ∧ (setChannel l c s).protection = s.protection ∧ (setChannel l c s).store = s.store ∧ (setChannel l c s).power = s.power
    ∧ (setChannel l c s).cores = s.cores ∧ (setChannel l c s).pins = s.pins ∧ (setChannel l c s).pending = s.pending := by
  cases l <;> and_intros <;> rfl

@[simp] theorem setVault_fields (v : Nat) (x : VaultState) (s : State) :
    (setVault v x s).variant = s.variant ∧ (setVault v x s).regs = s.regs ∧ (setVault v x s).shadow = s.shadow
    ∧ (setVault v x s).inForce = s.inForce ∧ (setVault v x s).pendingSet = s.pendingSet ∧ (setVault v x s).masters = s.masters
    ∧ (setVault v x s).crossReads = s.crossReads ∧ (setVault v x s).nextTag = s.nextTag ∧ (setVault v x s).fieldCopy = s.fieldCopy
    ∧ (setVault v x s).heldCommands = s.heldCommands ∧ (setVault v x s).stream = s.stream ∧ (setVault v x s).hostOut = s.hostOut
    ∧ (setVault v x s).barrier = s.barrier ∧ (setVault v x s).loader = s.loader ∧ (setVault v x s).released = s.released
    ∧ (setVault v x s).params = s.params ∧ (setVault v x s).imageId = s.imageId ∧ (setVault v x s).otp = s.otp
    ∧ (setVault v x s).otpRequest = s.otpRequest ∧ (setVault v x s).array = s.array ∧ (setVault v x s).batches = s.batches
    ∧ (setVault v x s).fetchStopped = s.fetchStopped ∧ (setVault v x s).history = s.history ∧ (setVault v x s).anyBatch = s.anyBatch
    ∧ (setVault v x s).lastBatch = s.lastBatch ∧ (setVault v x s).egress = s.egress ∧ (setVault v x s).unload = s.unload
    ∧ (setVault v x s).link0 = s.link0 ∧ (setVault v x s).link1 = s.link1 ∧ (setVault v x s).coffset = s.coffset
    ∧ (setVault v x s).alignDue = s.alignDue ∧ (setVault v x s).delaysDue = s.delaysDue ∧ (setVault v x s).ledger0 = s.ledger0
    ∧ (setVault v x s).ledger1 = s.ledger1 ∧ (setVault v x s).repair = s.repair ∧ (setVault v x s).twin = s.twin
    ∧ (setVault v x s).survey = s.survey ∧ (setVault v x s).conservator = s.conservator ∧ (setVault v x s).protection = s.protection
    ∧ (setVault v x s).store = s.store ∧ (setVault v x s).power = s.power ∧ (setVault v x s).cores = s.cores
    ∧ (setVault v x s).pins = s.pins ∧ (setVault v x s).pending = s.pending := by
  and_intros <;> rfl

@[simp] theorem setSample_fields (v : Nat) (p : VaultSample) (s : State) :
    (setSample v p s).variant = s.variant ∧ (setSample v p s).regs = s.regs ∧ (setSample v p s).shadow = s.shadow
    ∧ (setSample v p s).inForce = s.inForce ∧ (setSample v p s).pendingSet = s.pendingSet ∧ (setSample v p s).masters = s.masters
    ∧ (setSample v p s).crossReads = s.crossReads ∧ (setSample v p s).nextTag = s.nextTag ∧ (setSample v p s).fieldCopy = s.fieldCopy
    ∧ (setSample v p s).heldCommands = s.heldCommands ∧ (setSample v p s).stream = s.stream ∧ (setSample v p s).hostOut = s.hostOut
    ∧ (setSample v p s).barrier = s.barrier ∧ (setSample v p s).loader = s.loader ∧ (setSample v p s).released = s.released
    ∧ (setSample v p s).params = s.params ∧ (setSample v p s).imageId = s.imageId ∧ (setSample v p s).otp = s.otp
    ∧ (setSample v p s).otpRequest = s.otpRequest ∧ (setSample v p s).array = s.array ∧ (setSample v p s).batches = s.batches
    ∧ (setSample v p s).fetchStopped = s.fetchStopped ∧ (setSample v p s).history = s.history ∧ (setSample v p s).anyBatch = s.anyBatch
    ∧ (setSample v p s).lastBatch = s.lastBatch ∧ (setSample v p s).egress = s.egress ∧ (setSample v p s).unload = s.unload
    ∧ (setSample v p s).link0 = s.link0 ∧ (setSample v p s).link1 = s.link1 ∧ (setSample v p s).coffset = s.coffset
    ∧ (setSample v p s).alignDue = s.alignDue ∧ (setSample v p s).delaysDue = s.delaysDue ∧ (setSample v p s).ledger0 = s.ledger0
    ∧ (setSample v p s).ledger1 = s.ledger1 ∧ (setSample v p s).repair = s.repair ∧ (setSample v p s).twin = s.twin
    ∧ (setSample v p s).survey = s.survey ∧ (setSample v p s).conservator = s.conservator ∧ (setSample v p s).protection = s.protection
    ∧ (setSample v p s).store = s.store ∧ (setSample v p s).power = s.power ∧ (setSample v p s).cores = s.cores
    ∧ (setSample v p s).pins = s.pins ∧ (setSample v p s).pending = s.pending := by
  and_intros <;> rfl

@[simp] theorem putVaultWord_fields (v a : Nat) (w : Word) (s : State) :
    (putVaultWord v a w s).variant = s.variant ∧ (putVaultWord v a w s).regs = s.regs ∧ (putVaultWord v a w s).shadow = s.shadow
    ∧ (putVaultWord v a w s).inForce = s.inForce ∧ (putVaultWord v a w s).pendingSet = s.pendingSet
    ∧ (putVaultWord v a w s).masters = s.masters ∧ (putVaultWord v a w s).crossReads = s.crossReads
    ∧ (putVaultWord v a w s).nextTag = s.nextTag ∧ (putVaultWord v a w s).fieldCopy = s.fieldCopy
    ∧ (putVaultWord v a w s).heldCommands = s.heldCommands ∧ (putVaultWord v a w s).stream = s.stream
    ∧ (putVaultWord v a w s).hostOut = s.hostOut ∧ (putVaultWord v a w s).barrier = s.barrier ∧ (putVaultWord v a w s).loader = s.loader
    ∧ (putVaultWord v a w s).released = s.released ∧ (putVaultWord v a w s).params = s.params
    ∧ (putVaultWord v a w s).imageId = s.imageId ∧ (putVaultWord v a w s).otp = s.otp ∧ (putVaultWord v a w s).otpRequest = s.otpRequest
    ∧ (putVaultWord v a w s).array = s.array ∧ (putVaultWord v a w s).batches = s.batches
    ∧ (putVaultWord v a w s).fetchStopped = s.fetchStopped ∧ (putVaultWord v a w s).history = s.history
    ∧ (putVaultWord v a w s).anyBatch = s.anyBatch ∧ (putVaultWord v a w s).lastBatch = s.lastBatch
    ∧ (putVaultWord v a w s).egress = s.egress ∧ (putVaultWord v a w s).unload = s.unload ∧ (putVaultWord v a w s).link0 = s.link0
    ∧ (putVaultWord v a w s).link1 = s.link1 ∧ (putVaultWord v a w s).coffset = s.coffset ∧ (putVaultWord v a w s).alignDue = s.alignDue
    ∧ (putVaultWord v a w s).delaysDue = s.delaysDue ∧ (putVaultWord v a w s).ledger0 = s.ledger0
    ∧ (putVaultWord v a w s).ledger1 = s.ledger1 ∧ (putVaultWord v a w s).repair = s.repair ∧ (putVaultWord v a w s).twin = s.twin
    ∧ (putVaultWord v a w s).survey = s.survey ∧ (putVaultWord v a w s).conservator = s.conservator
    ∧ (putVaultWord v a w s).protection = s.protection ∧ (putVaultWord v a w s).store = s.store ∧ (putVaultWord v a w s).power = s.power
    ∧ (putVaultWord v a w s).cores = s.cores ∧ (putVaultWord v a w s).pins = s.pins ∧ (putVaultWord v a w s).pending = s.pending := by
  and_intros <;> rfl

@[simp] theorem setBarrierDir_fields (d : Dir) (x : BarrierDir) (s : State) :
    (setBarrierDir d x s).variant = s.variant ∧ (setBarrierDir d x s).regs = s.regs ∧ (setBarrierDir d x s).shadow = s.shadow
    ∧ (setBarrierDir d x s).inForce = s.inForce ∧ (setBarrierDir d x s).pendingSet = s.pendingSet
    ∧ (setBarrierDir d x s).masters = s.masters ∧ (setBarrierDir d x s).crossReads = s.crossReads
    ∧ (setBarrierDir d x s).nextTag = s.nextTag ∧ (setBarrierDir d x s).fieldCopy = s.fieldCopy
    ∧ (setBarrierDir d x s).heldCommands = s.heldCommands ∧ (setBarrierDir d x s).stream = s.stream
    ∧ (setBarrierDir d x s).hostOut = s.hostOut ∧ (setBarrierDir d x s).loader = s.loader ∧ (setBarrierDir d x s).released = s.released
    ∧ (setBarrierDir d x s).params = s.params ∧ (setBarrierDir d x s).imageId = s.imageId ∧ (setBarrierDir d x s).otp = s.otp
    ∧ (setBarrierDir d x s).otpRequest = s.otpRequest ∧ (setBarrierDir d x s).array = s.array ∧ (setBarrierDir d x s).batches = s.batches
    ∧ (setBarrierDir d x s).fetchStopped = s.fetchStopped ∧ (setBarrierDir d x s).history = s.history
    ∧ (setBarrierDir d x s).anyBatch = s.anyBatch ∧ (setBarrierDir d x s).lastBatch = s.lastBatch
    ∧ (setBarrierDir d x s).egress = s.egress ∧ (setBarrierDir d x s).unload = s.unload ∧ (setBarrierDir d x s).fabric = s.fabric
    ∧ (setBarrierDir d x s).link0 = s.link0 ∧ (setBarrierDir d x s).link1 = s.link1 ∧ (setBarrierDir d x s).coffset = s.coffset
    ∧ (setBarrierDir d x s).alignDue = s.alignDue ∧ (setBarrierDir d x s).delaysDue = s.delaysDue
    ∧ (setBarrierDir d x s).ledger0 = s.ledger0 ∧ (setBarrierDir d x s).ledger1 = s.ledger1 ∧ (setBarrierDir d x s).repair = s.repair
    ∧ (setBarrierDir d x s).twin = s.twin ∧ (setBarrierDir d x s).survey = s.survey ∧ (setBarrierDir d x s).conservator = s.conservator
    ∧ (setBarrierDir d x s).protection = s.protection ∧ (setBarrierDir d x s).store = s.store ∧ (setBarrierDir d x s).power = s.power
    ∧ (setBarrierDir d x s).cores = s.cores ∧ (setBarrierDir d x s).pins = s.pins ∧ (setBarrierDir d x s).pending = s.pending := by
  cases d <;> and_intros <;> rfl

@[simp] theorem setEvent_fields (b : Nat) (s : State) :
    (setEvent b s).variant = s.variant ∧ (setEvent b s).shadow = s.shadow ∧ (setEvent b s).inForce = s.inForce
    ∧ (setEvent b s).pendingSet = s.pendingSet ∧ (setEvent b s).masters = s.masters ∧ (setEvent b s).crossReads = s.crossReads
    ∧ (setEvent b s).nextTag = s.nextTag ∧ (setEvent b s).fieldCopy = s.fieldCopy ∧ (setEvent b s).heldCommands = s.heldCommands
    ∧ (setEvent b s).stream = s.stream ∧ (setEvent b s).barrier = s.barrier ∧ (setEvent b s).loader = s.loader
    ∧ (setEvent b s).released = s.released ∧ (setEvent b s).params = s.params ∧ (setEvent b s).imageId = s.imageId
    ∧ (setEvent b s).otp = s.otp ∧ (setEvent b s).otpRequest = s.otpRequest ∧ (setEvent b s).array = s.array
    ∧ (setEvent b s).batches = s.batches ∧ (setEvent b s).fetchStopped = s.fetchStopped ∧ (setEvent b s).history = s.history
    ∧ (setEvent b s).anyBatch = s.anyBatch ∧ (setEvent b s).lastBatch = s.lastBatch ∧ (setEvent b s).egress = s.egress
    ∧ (setEvent b s).unload = s.unload ∧ (setEvent b s).fabric = s.fabric ∧ (setEvent b s).link0 = s.link0
    ∧ (setEvent b s).link1 = s.link1 ∧ (setEvent b s).coffset = s.coffset ∧ (setEvent b s).alignDue = s.alignDue
    ∧ (setEvent b s).delaysDue = s.delaysDue ∧ (setEvent b s).ledger0 = s.ledger0 ∧ (setEvent b s).ledger1 = s.ledger1
    ∧ (setEvent b s).repair = s.repair ∧ (setEvent b s).twin = s.twin ∧ (setEvent b s).survey = s.survey
    ∧ (setEvent b s).conservator = s.conservator ∧ (setEvent b s).protection = s.protection ∧ (setEvent b s).store = s.store
    ∧ (setEvent b s).power = s.power ∧ (setEvent b s).cores = s.cores ∧ (setEvent b s).pins = s.pins ∧ (setEvent b s).pending = s.pending := by
  unfold setEvent; and_intros <;> (dsimp only; split <;> rfl)

@[simp] theorem setFault_fields (code : Nat) (s : State) :
    (setFault code s).variant = s.variant ∧ (setFault code s).shadow = s.shadow ∧ (setFault code s).inForce = s.inForce
    ∧ (setFault code s).pendingSet = s.pendingSet ∧ (setFault code s).masters = s.masters ∧ (setFault code s).crossReads = s.crossReads
    ∧ (setFault code s).nextTag = s.nextTag ∧ (setFault code s).fieldCopy = s.fieldCopy ∧ (setFault code s).heldCommands = s.heldCommands
    ∧ (setFault code s).stream = s.stream ∧ (setFault code s).barrier = s.barrier ∧ (setFault code s).loader = s.loader
    ∧ (setFault code s).released = s.released ∧ (setFault code s).params = s.params ∧ (setFault code s).imageId = s.imageId
    ∧ (setFault code s).otp = s.otp ∧ (setFault code s).otpRequest = s.otpRequest ∧ (setFault code s).array = s.array
    ∧ (setFault code s).batches = s.batches ∧ (setFault code s).fetchStopped = s.fetchStopped ∧ (setFault code s).history = s.history
    ∧ (setFault code s).anyBatch = s.anyBatch ∧ (setFault code s).lastBatch = s.lastBatch ∧ (setFault code s).egress = s.egress
    ∧ (setFault code s).unload = s.unload ∧ (setFault code s).fabric = s.fabric ∧ (setFault code s).link0 = s.link0
    ∧ (setFault code s).link1 = s.link1 ∧ (setFault code s).coffset = s.coffset ∧ (setFault code s).alignDue = s.alignDue
    ∧ (setFault code s).delaysDue = s.delaysDue ∧ (setFault code s).ledger0 = s.ledger0 ∧ (setFault code s).ledger1 = s.ledger1
    ∧ (setFault code s).repair = s.repair ∧ (setFault code s).twin = s.twin ∧ (setFault code s).survey = s.survey
    ∧ (setFault code s).conservator = s.conservator ∧ (setFault code s).protection = s.protection ∧ (setFault code s).store = s.store
    ∧ (setFault code s).power = s.power ∧ (setFault code s).cores = s.cores ∧ (setFault code s).pins = s.pins
    ∧ (setFault code s).pending = s.pending := by
  unfold setFault; and_intros <;> (split <;> [rfl; (dsimp only; split <;> [rfl; simp only [setEvent_fields]])])

/-! ### The registers -/

@[simp] theorem setEvent_regs (b : Nat) (s : State) :
    (setEvent b s).regs = { s.regs with eventStatus := s.regs.eventStatus ||| BitVec.twoPow 16 b } := by
  unfold setEvent; dsimp only; split <;> rfl

/-- An event's bit stands in EVENT_STATUS after the event, and every other bit as before. -/
theorem setEvent_bit (b j : Nat) (s : State) :
    (setEvent b s).regs.eventStatus.getLsbD j = (s.regs.eventStatus.getLsbD j || (decide (j < 16) && decide (j = b))) := by
  rw [setEvent_regs]; exact getLsbD_or_twoPow _ _ _

/-- A fault's bit stands in the fault registers after the fault, unless the part has no such unit. -/
theorem setFault_bit (code : Nat) (s : State) (h : faultAbsent code s = false) (hc : code < 48) :
    faultBit code (setFault code s).regs = true := by
  have key : ∀ r : RegFile, faultBit code (withFaultFirst code (withFaultBit code r)) = true := by
    intro r
    unfold faultBit withFaultFirst withFaultBit
    repeat' split
    all_goals simp [getLsbD_or_twoPow, BitVec.getLsbD_twoPow] <;> omega
  have ev : ∀ t : State, faultBit code (setEvent evFault t).regs = faultBit code t.regs := fun t => by simp [faultBit]
  unfold setFault
  rw [h]
  dsimp only
  split
  · contradiction
  · split
    · exact key s.regs
    · rw [ev]; exact key s.regs

/-- The registers that a fault does not reach. -/
@[simp] theorem setFault_regs (code : Nat) (s : State) :
    (setFault code s).regs.pwrState = s.regs.pwrState ∧ (setFault code s).regs.pwrRequest = s.regs.pwrRequest
    ∧ (setFault code s).regs.wakeEnable = s.regs.wakeEnable ∧ (setFault code s).regs.wakeCause = s.regs.wakeCause
    ∧ (setFault code s).regs.stageStatus = s.regs.stageStatus ∧ (setFault code s).regs.eventMask = s.regs.eventMask
    ∧ (setFault code s).regs.loadControl = s.regs.loadControl ∧ (setFault code s).regs.loadStatus = s.regs.loadStatus
    ∧ (setFault code s).regs.loadDeadline = s.regs.loadDeadline ∧ (setFault code s).regs.loadElapsed = s.regs.loadElapsed
    ∧ (setFault code s).regs.debugLevel = s.regs.debugLevel ∧ (setFault code s).regs.arrayControl = s.regs.arrayControl
    ∧ (setFault code s).regs.arrayStatus = s.regs.arrayStatus ∧ (setFault code s).regs.schedInfo = s.regs.schedInfo
    ∧ (setFault code s).regs.batchControl = s.regs.batchControl ∧ (setFault code s).regs.linkStatus = s.regs.linkStatus
    ∧ (setFault code s).regs.twinPrefer = s.regs.twinPrefer ∧ (setFault code s).regs.twinStatus = s.regs.twinStatus
    ∧ (setFault code s).regs.failControl = s.regs.failControl ∧ (setFault code s).regs.failStatus = s.regs.failStatus
    ∧ (setFault code s).regs.scrubControl = s.regs.scrubControl ∧ (setFault code s).regs.scrubStatus = s.regs.scrubStatus
    ∧ (setFault code s).regs.eccCountCe = s.regs.eccCountCe ∧ (setFault code s).regs.eccCountUe = s.regs.eccCountUe
    ∧ (setFault code s).regs.surveyControl = s.regs.surveyControl ∧ (setFault code s).regs.surveyStatus = s.regs.surveyStatus
    ∧ (setFault code s).regs.wdogControl = s.regs.wdogControl ∧ (setFault code s).regs.clkStatus = s.regs.clkStatus
    ∧ (setFault code s).regs.busCollision = s.regs.busCollision ∧ (setFault code s).regs.mailboxStatus = s.regs.mailboxStatus
    ∧ (setFault code s).regs.scratch = s.regs.scratch := by
  have key : ∀ r : RegFile, ∀ t : State, t.regs = withFaultFirst code (withFaultBit code r) →
    t.regs.pwrState = r.pwrState ∧ t.regs.pwrRequest = r.pwrRequest ∧ t.regs.wakeEnable = r.wakeEnable
    ∧ t.regs.wakeCause = r.wakeCause ∧ t.regs.stageStatus = r.stageStatus ∧ t.regs.eventMask = r.eventMask
    ∧ t.regs.loadControl = r.loadControl ∧ t.regs.loadStatus = r.loadStatus ∧ t.regs.loadDeadline = r.loadDeadline
    ∧ t.regs.loadElapsed = r.loadElapsed ∧ t.regs.debugLevel = r.debugLevel ∧ t.regs.arrayControl = r.arrayControl
    ∧ t.regs.arrayStatus = r.arrayStatus ∧ t.regs.schedInfo = r.schedInfo ∧ t.regs.batchControl = r.batchControl
    ∧ t.regs.linkStatus = r.linkStatus ∧ t.regs.twinPrefer = r.twinPrefer ∧ t.regs.twinStatus = r.twinStatus
    ∧ t.regs.failControl = r.failControl ∧ t.regs.failStatus = r.failStatus ∧ t.regs.scrubControl = r.scrubControl
    ∧ t.regs.scrubStatus = r.scrubStatus ∧ t.regs.eccCountCe = r.eccCountCe ∧ t.regs.eccCountUe = r.eccCountUe
    ∧ t.regs.surveyControl = r.surveyControl ∧ t.regs.surveyStatus = r.surveyStatus ∧ t.regs.wdogControl = r.wdogControl
    ∧ t.regs.clkStatus = r.clkStatus ∧ t.regs.busCollision = r.busCollision ∧ t.regs.mailboxStatus = r.mailboxStatus
    ∧ t.regs.scratch = r.scratch := by
    intro r t h
    rw [h]; unfold withFaultFirst withFaultBit
    repeat' split
    all_goals and_intros <;> rfl
  unfold setFault
  split
  · and_intros <;> rfl
  · dsimp only
    split
    · exact key s.regs _ rfl
    · simpa only [setEvent_regs] using key s.regs { s with regs := withFaultFirst code (withFaultBit code s.regs) } rfl

/-! ### What is read back -/

@[simp] theorem setView_setView (m : Master) (v w : MasterView) (s : State) : setView m w (setView m v s) = setView m w s := by
  simp [setView]

theorem view_setView (m : Master) (v : MasterView) (s : State) (h : s.masters.length = 5) : view m (setView m v s) = v := by
  have : masterNum m < s.masters.length := by rw [h]; cases m <;> decide
  simp [view, setView, this]

@[simp] theorem flink_setFlink (l : FLink) (v : FieldLink) (s : State) : flink l (setFlink l v s) = v := by cases l <;> rfl
@[simp] theorem setFlink_setFlink (l : FLink) (v w : FieldLink) (s : State) : setFlink l w (setFlink l v s) = setFlink l w s := by
  cases l <;> rfl
@[simp] theorem setFlink_flink (l : FLink) (s : State) : setFlink l (flink l s) s = s := by cases l <;> rfl

theorem lane_setLane (l : FLink) (i : Nat) (v : Lane) (s : State) (h : i < (flink l s).lanes.length) : lane l i (setLane l i v s) = v := by
  simp [lane, setLane, h]

theorem lane_setLane_ne (l : FLink) (i j : Nat) (v : Lane) (s : State) (h : i ≠ j) : lane l j (setLane l i v s) = lane l j s := by
  simp [lane, setLane, h]

@[simp] theorem ledger_setLedger (l : FLink) (v : Ledger) (s : State) : ledger l (setLedger l v s) = v := by cases l <;> rfl
@[simp] theorem setLedger_setLedger (l : FLink) (v w : Ledger) (s : State) : setLedger l w (setLedger l v s) = setLedger l w s := by
  cases l <;> rfl
@[simp] theorem ledger_setLedger_other (l : FLink) (v : Ledger) (s : State) :
    ledger (otherLink l) (setLedger l v s) = ledger (otherLink l) s := by cases l <;> rfl
@[simp] theorem flink_setFlink_other (l : FLink) (v : FieldLink) (s : State) :
    flink (otherLink l) (setFlink l v s) = flink (otherLink l) s := by cases l <;> rfl

@[simp] theorem channel_setChannel (l : FLink) (c : RingChannel) (s : State) : channel l (setChannel l c s) = c := by cases l <;> rfl
@[simp] theorem channel_setChannel_other (l : FLink) (c : RingChannel) (s : State) :
    channel (otherLink l) (setChannel l c s) = channel (otherLink l) s := by cases l <;> rfl

@[simp] theorem coreState_setCore (c : Core) (v : CoreState) (s : State) : coreState c (setCore c v s) = v := by cases c <;> rfl
theorem coreState_setCore_ne (c k : Core) (v : CoreState) (s : State) (h : k ≠ c) : coreState k (setCore c v s) = coreState k s := by
  cases c <;> cases k <;> first | contradiction | rfl

@[simp] theorem barrierDir_setBarrierDir (d : Dir) (x : BarrierDir) (s : State) : barrierDir d (setBarrierDir d x s) = x := by
  cases d <;> rfl
@[simp] theorem setBarrierDir_setBarrierDir (d : Dir) (x y : BarrierDir) (s : State) :
    setBarrierDir d y (setBarrierDir d x s) = setBarrierDir d y s := by cases d <;> rfl
@[simp] theorem barrierDir_setBarrierDir_opposite (d : Dir) (x : BarrierDir) (s : State) :
    barrierDir (opposite d) (setBarrierDir d x s) = barrierDir (opposite d) s := by cases d <;> rfl

/-- A batch of the list after a change of the batch of a number. -/
theorem mem_modBatch (n : DWord) (f : Batch → Batch) (s : State) (b : Batch) :
    b ∈ (modBatch n f s).batches ↔ ∃ a ∈ s.batches, b = if a.d.batch = n then f a else a := by
  simp [modBatch, eq_comm]

end Sys2Proof.Machine
end

