-- ==== Sys2Proof/Laws/Store.lean ====
section
/-! SUPPORT. Common Store: its canonical form, and that every operation that writes it keeps the form. -/

namespace Sys2Proof.Machine

/-! ### The canonical form of a byte list -/

theorem memWfFrom_mono (lo lo2 : Nat) (c : List Host.Cell) (hl : lo2 ≤ lo) (h : memWfFrom lo c = true) : memWfFrom lo2 c = true := by
  cases c with
  | nil => rfl
  | cons x c =>
    obtain ⟨k, v⟩ := x
    simp only [memWfFrom, Bool.and_eq_true, decide_eq_true_eq] at h ⊢
    exact ⟨⟨Nat.le_trans hl h.1.1, h.1.2⟩, h.2⟩

theorem rawDel_wf (a lo : Nat) (c : List Host.Cell) (h : memWfFrom lo c = true) : memWfFrom lo (rawDel a c) = true := by
  induction c generalizing lo with
  | nil => rfl
  | cons x c ih =>
    obtain ⟨k, v⟩ := x
    simp only [memWfFrom, Bool.and_eq_true, decide_eq_true_eq] at h
    simp only [rawDel]
    split
    · exact memWfFrom_mono _ _ _ (by omega) h.2
    · simp only [memWfFrom, Bool.and_eq_true, decide_eq_true_eq]
      exact ⟨h.1, ih _ h.2⟩

theorem rawPut_wf (a lo : Nat) (b : Byte) (hb : b ≠ 0) (ha : lo ≤ a) (c : List Host.Cell) (h : memWfFrom lo c = true) :
    memWfFrom lo (rawPut a b c) = true := by
  induction c generalizing lo with
  | nil =>
    simp only [rawPut, memWfFrom, Bool.and_eq_true, decide_eq_true_eq]
    exact ⟨⟨ha, hb⟩, trivial⟩
  | cons x c ih =>
    obtain ⟨k, v⟩ := x
    simp only [memWfFrom, Bool.and_eq_true, decide_eq_true_eq] at h
    simp only [rawPut]
    split
    · simp only [memWfFrom, Bool.and_eq_true, decide_eq_true_eq]
      exact ⟨⟨ha, hb⟩, ⟨by omega, h.1.2⟩, h.2⟩
    · split
      · simp only [memWfFrom, Bool.and_eq_true, decide_eq_true_eq]
        next he => subst he; exact ⟨⟨ha, hb⟩, h.2⟩
      · simp only [memWfFrom, Bool.and_eq_true, decide_eq_true_eq]
        exact ⟨h.1, ih _ (by omega) h.2⟩

/-- Storing a byte keeps the canonical form. -/
theorem rawSet_wf (a : Nat) (b : Byte) (c : List Host.Cell) (h : Memory.wf c = true) : Memory.wf (rawSet a b c) = true := by
  unfold rawSet
  split
  · exact rawDel_wf _ _ _ h
  · next hb => exact rawPut_wf _ _ _ hb (Nat.zero_le _) _ h

theorem csPutAll_wf (a : Nat) (bs : List Byte) (st : Store) (h : Memory.wf st.cs = true) : Memory.wf (csPutAll a bs st).cs = true := by
  induction bs generalizing a st with
  | nil => exact h
  | cons b bs ih => exact ih _ _ (rawSet_wf _ _ _ h)

/-! ### Operations that leave the bytes alone -/


/-! ### Operations that write -/

theorem foldl_wf {α : Type} (f : State → α → State)
    (hf : ∀ s a, Memory.wf s.store.cs = true → Memory.wf (f s a).store.cs = true) (l : List α) (s : State)
    (hw : Memory.wf s.store.cs = true) : Memory.wf (l.foldl f s).store.cs = true := by
  induction l generalizing s with
  | nil => exact hw
  | cons a l ih => exact ih _ (hf _ _ hw)

@[simp] theorem csWrite_wf (a : Nat) (bs : List Byte) (s : State) (hw : Memory.wf s.store.cs = true) :
    Memory.wf (csWrite a bs s).store.cs = true := by
  exact csPutAll_wf _ _ _ hw

@[simp] theorem csPutDev_wf (a : Nat) (b : Byte) (dev : BitVec 5) (s : State) (hw : Memory.wf s.store.cs = true) :
    Memory.wf (csPutDev a b dev s).store.cs = true := by
  exact rawSet_wf _ _ _ hw

@[simp] theorem fieldReset_wf (s : State) : Memory.wf (fieldReset s).store.cs = true := by
  unfold fieldReset; rfl

@[simp] theorem csReadCount_wf (a : Nat) (s : State) (hw : Memory.wf s.store.cs = true) :
    Memory.wf (csReadCount a s).store.cs = true := by
  unfold csReadCount
  (try dsimp only)
  (repeat' split) <;> first | exact hw | (simp [hw]; done) | simp_all

@[simp] theorem csReadCounts_wf (a n : Nat) (s : State) (hw : Memory.wf s.store.cs = true) :
    Memory.wf (csReadCounts a n s).store.cs = true := by
  induction n generalizing a s with
  | zero => exact hw
  | succ n ih => exact ih _ _ (csReadCount_wf _ _ hw)

@[simp] theorem csReadEffect_wf (a : Nat) (s : State) (hw : Memory.wf s.store.cs = true) :
    Memory.wf (csReadEffect a s).store.cs = true := by
  unfold csReadEffect
  (try dsimp only)
  (repeat' split) <;> first | exact hw | (simp [hw]; done) | simp_all

@[simp] theorem csReadEffects_wf (a n : Nat) (s : State) (hw : Memory.wf s.store.cs = true) :
    Memory.wf (csReadEffects a n s).store.cs = true := by
  induction n generalizing a s with
  | zero => exact hw
  | succ n ih => exact ih _ _ (csReadEffect_wf _ _ hw)

@[simp] theorem recordReadEffects_wf (n : DWord) (a len : Nat) (s : State) (hw : Memory.wf s.store.cs = true) :
    Memory.wf (recordReadEffects n a len s).store.cs = true := by
  unfold recordReadEffects
  (try dsimp only)
  (repeat' split) <;> first | exact hw | (simp [hw]; done) | simp_all

@[simp] theorem fetchDescriptor_wf  (s : State) (hw : Memory.wf s.store.cs = true) :
    Memory.wf (fetchDescriptor s).store.cs = true := by
  unfold fetchDescriptor
  (try dsimp only)
  (repeat' split) <;> first | exact hw | (simp [hw]; done) | simp_all

@[simp] theorem fillOne_wf (b : Batch) (p : Nat × Nat) (s : State) (hw : Memory.wf s.store.cs = true) :
    Memory.wf (fillOne b p s).store.cs = true := by
  unfold fillOne
  (try dsimp only)
  (repeat' split) <;> first | exact hw | (simp [hw]; done) | simp_all

@[simp] theorem fillWords_wf (n : Nat) (s : State) (hw : Memory.wf s.store.cs = true) :
    Memory.wf (fillWords n s).store.cs = true := by
  induction n generalizing s with
  | zero => exact hw
  | succ n ih =>
    unfold fillWords
    (repeat' split) <;> first | exact hw | exact ih _ (fillOne_wf _ _ _ hw)

@[simp] theorem beginBurst_wf (b : Batch) (s : State) (hw : Memory.wf s.store.cs = true) :
    Memory.wf (beginBurst b s).store.cs = true := by
  unfold beginBurst
  (try dsimp only)
  simp only [putArrayBit_frame, reportPower_frame, modBatch_frame]
  split <;> simp [hw]

@[simp] theorem stimReads_wf  (s : State) (hw : Memory.wf s.store.cs = true) :
    Memory.wf (stimReads s).store.cs = true := by
  unfold stimReads
  split
  · exact hw
  · split
    · exact hw
    · refine foldl_wf _ (fun s a h => ?_) _ _ hw
      split <;> simp [h]

@[simp] theorem rowReadEffects_wf (b : Batch) (r : RowDue) (s : State) (hw : Memory.wf s.store.cs = true) :
    Memory.wf (rowReadEffects b r s).store.cs = true := by
  unfold rowReadEffects
  (try dsimp only)
  refine foldl_wf _ (fun s a h => ?_) _ _ (foldl_wf _ (fun s a h => ?_) _ _ hw)
  · (repeat' split) <;> first | exact h | (simp [h]; done) | simp_all
  · split <;> simp [h]

@[simp] theorem readRow_wf (r : RowDue) (rest : List RowDue) (b : Batch) (s : State) (hw : Memory.wf s.store.cs = true) :
    Memory.wf (readRow r rest b s).store.cs = true := by
  unfold readRow
  (try dsimp only)
  (repeat' split) <;> first | exact hw | (simp [hw]; done) | simp_all

@[simp] theorem passOn_wf (l : FLink) (r : QRec) (s : State) (hw : Memory.wf s.store.cs = true) :
    Memory.wf (passOn l r s).store.cs = true := by
  unfold passOn
  (try dsimp only)
  (repeat' split) <;> first | exact hw | (simp [hw]; done) | simp_all

@[simp] theorem readRingSlot_wf (l : FLink) (slot n : Nat) (s : State) (hw : Memory.wf s.store.cs = true) :
    Memory.wf (readRingSlot l slot n s).2.store.cs = true := by
  unfold readRingSlot
  (try dsimp only)
  split <;> simp [hw]

@[simp] theorem readRing_wf (l : FLink) (rs : List RingRec) (n : Nat) (s : State) (hw : Memory.wf s.store.cs = true) :
    Memory.wf (readRing l rs n s).2.store.cs = true := by
  induction rs generalizing n s with
  | nil => exact hw
  | cons r rs ih => exact ih _ _ (readRingSlot_wf _ _ _ _ hw)

@[simp] theorem sendLedger_wf (l : FLink) (s : State) (hw : Memory.wf s.store.cs = true) :
    Memory.wf (sendLedger l s).store.cs = true := by
  unfold sendLedger
  (try dsimp only)
  split
  · exact hw
  · simp only [sendMsg_frame, setLedger_frame]
    exact readRing_wf _ _ _ _ hw

@[simp] theorem passNext_wf (l : FLink) (s : State) (hw : Memory.wf s.store.cs = true) :
    Memory.wf (passNext l s).store.cs = true := by
  unfold passNext
  (try dsimp only)
  (repeat' split) <;> first | exact hw | (simp [hw]; done) | simp_all

@[simp] theorem writeLcons_wf (l : FLink) (v : DWord) (s : State) (hw : Memory.wf s.store.cs = true) :
    Memory.wf (writeLcons l v s).store.cs = true := by
  unfold writeLcons
  (try dsimp only)
  (repeat' split) <;> first | exact hw | (simp [hw]; done) | simp_all

@[simp] theorem writeLsize_wf (l : FLink) (v : BitVec 5) (s : State) (hw : Memory.wf s.store.cs = true) :
    Memory.wf (writeLsize l v s).store.cs = true := by
  unfold writeLsize
  (try dsimp only)
  simp only [putHeld_frame]
  apply sendLedger_wf
  simp only [drainCrossed_frame, setLedger_frame, setChannel_frame]
  split <;> simp [hw]

@[simp] theorem frameInError_wf (f t0 : Nat) (drivers : Bool) (q : ConsSettings) (live : CfgFrame) (s : State) (hw : Memory.wf s.store.cs = true) :
    Memory.wf (frameInError f t0 drivers q live s).store.cs = true := by
  unfold frameInError
  (try dsimp only)
  split
  · simp [hw]
  · split
    · exact csWrite_wf _ _ _ (by simpa using csReadCounts_wf _ _ _ hw)
    · (repeat' split) <;> simp [hw]

@[simp] theorem checkOne_wf (f : Nat) (drivers : Bool) (q : ConsSettings) (s : State) (hw : Memory.wf s.store.cs = true) :
    Memory.wf (checkOne f drivers q s).store.cs = true := by
  unfold checkOne
  (try dsimp only)
  split
  · exact csReadCounts_wf _ _ _ hw
  · exact frameInError_wf _ _ _ _ _ _ (csReadCounts_wf _ _ _ hw)

@[simp] theorem frameCheck_wf (q : ConsSettings) (s : State) (hw : Memory.wf s.store.cs = true) :
    Memory.wf (frameCheck q s).store.cs = true := by
  unfold frameCheck
  (try dsimp only)
  (repeat' split) <;> first | exact hw | (simp [hw]; done) | simp_all

@[simp] theorem lateRepair_wf (q : ConsSettings) (f : Nat) (s : State) (hw : Memory.wf s.store.cs = true) :
    Memory.wf (lateRepair q f s).store.cs = true := by
  unfold lateRepair
  (try dsimp only)
  (repeat' split) <;> simp [hw]

@[simp] theorem sweepEnd_wf (q : ConsSettings) (s : State) (hw : Memory.wf s.store.cs = true) :
    Memory.wf (sweepEnd q s).store.cs = true := by
  have h1 := foldl_wf (fun s f => lateRepair q f s) (fun s f h => lateRepair_wf q f s h) s.conservator.lateRepairs s hw
  unfold sweepEnd
  (try dsimp only)
  (repeat' split) <;> simp [h1]

@[simp] theorem checkWrite_wf (store loc : Nat) (d c : QWord) (s : State) (hw : Memory.wf s.store.cs = true) :
    Memory.wf (checkWrite store loc d c s).store.cs = true := by
  unfold checkWrite
  split
  · simp [hw]
  · simp [hw]
  · exact foldl_wf _ (fun s k h => csPutDev_wf _ _ _ _ h) _ _ hw
  · exact hw
  · simp [hw]
  · simp [hw]
  · exact hw

@[simp] theorem placeBytes_wf (u idx o : Nat) (bs : List Byte) (s : State) (hw : Memory.wf s.store.cs = true) :
    Memory.wf (placeBytes u idx o bs s).store.cs = true := by
  unfold placeBytes
  (repeat' split) <;> first | exact hw | (simp [hw]; done)

@[simp] theorem placeFrame_wf (n : Nat) (pre : Record) (bs : List Byte) (s : State) (hw : Memory.wf s.store.cs = true) :
    Memory.wf (placeFrame n pre bs s).store.cs = true := by
  unfold placeFrame
  (try dsimp only)
  (repeat' split) <;> first | exact hw | (simp [hw]; done) | simp_all

@[simp] theorem writeFrameCrcs_wf  (s : State) (hw : Memory.wf s.store.cs = true) :
    Memory.wf (writeFrameCrcs s).store.cs = true := by
  exact csWrite_wf _ _ _ hw

@[simp] theorem writeRepairCrcs_wf  (s : State) (hw : Memory.wf s.store.cs = true) :
    Memory.wf (writeRepairCrcs s).store.cs = true := by
  exact csWrite_wf _ _ _ (csWrite_wf _ _ _ (csWrite_wf _ _ _ hw))

@[simp] theorem completeLoad_wf  (s : State) (hw : Memory.wf s.store.cs = true) :
    Memory.wf (completeLoad s).store.cs = true := by
  unfold completeLoad
  (try dsimp only)
  (repeat' split) <;> first | exact hw | (simp [hw]; done) | simp_all

@[simp] theorem serveRead_wf (h : QWord) (s : State) (hw : Memory.wf s.store.cs = true) :
    Memory.wf (serveRead h s).store.cs = true := by
  unfold serveRead
  (try dsimp only)
  (repeat' split) <;> simp [hw]

@[simp] theorem writeFlit_wf (a be : Nat) (d : QWord) (s : State) (hw : Memory.wf s.store.cs = true) :
    Memory.wf (writeFlit a be d s).store.cs = true := by
  exact foldl_wf _ (fun s k h => by split <;> simp [h]) _ _ hw

@[simp] theorem writeFlits_wf (a be : Nat) (ws : List QWord) (s : State) (hw : Memory.wf s.store.cs = true) :
    Memory.wf (writeFlits a be ws s).store.cs = true := by
  induction ws generalizing a be s with
  | nil => exact hw
  | cons w ws ih => exact ih _ _ _ (writeFlit_wf _ _ _ _ hw)

@[simp] theorem serveWrite_wf (h : QWord) (ws : List QWord) (s : State) (hw : Memory.wf s.store.cs = true) :
    Memory.wf (serveWrite h ws s).store.cs = true := by
  unfold serveWrite
  (try dsimp only)
  (repeat' split) <;> first | exact hw | (simp [hw]; done) | simp_all

@[simp] theorem serveExcl_wf (h : QWord) (s : State) (hw : Memory.wf s.store.cs = true) :
    Memory.wf (serveExcl h s).store.cs = true := by
  unfold serveExcl
  (try dsimp only)
  (repeat' split) <;> first | exact hw | (simp [hw]; done) | simp_all

@[simp] theorem serveCond_wf (h : QWord) (ws : List QWord) (s : State) (hw : Memory.wf s.store.cs = true) :
    Memory.wf (serveCond h ws s).store.cs = true := by
  unfold serveCond
  (try dsimp only)
  (repeat' split) <;> first | exact hw | (simp [hw]; done) | simp_all

@[simp] theorem serveAt_wf (h : QWord) (ws : List QWord) (s : State) (hw : Memory.wf s.store.cs = true) :
    Memory.wf (serveAt h ws s).store.cs = true := by
  unfold serveAt
  (try dsimp only)
  (repeat' split) <;> first | exact hw | (simp [hw]; done) | simp_all

@[simp] theorem serve_wf (h : QWord) (ws : List QWord) (s : State) (hw : Memory.wf s.store.cs = true) :
    Memory.wf (serve h ws s).store.cs = true := by
  unfold serve
  (try dsimp only)
  (repeat' split) <;> first | exact hw | (simp [hw]; done) | simp_all

@[simp] theorem request_wf (op : Nat) (h : QWord) (ws : List QWord) (s : State) (hw : Memory.wf s.store.cs = true) :
    Memory.wf (request op h ws s).store.cs = true := by
  unfold request
  (try dsimp only)
  (repeat' split) <;> first | exact hw | (simp [hw]; done) | simp_all

@[simp] theorem copyBank_wf (b : Nat) (s : State) (hw : Memory.wf s.store.cs = true) :
    Memory.wf (copyBank b s).store.cs = true := by
  exact foldl_wf _ (fun s a h => csReadEffect_wf _ _ h) _ _ hw

@[simp] theorem railFail_wf (side : Side) (s : State) (hw : Memory.wf s.store.cs = true) :
    Memory.wf (railFail side s).store.cs = true := by
  unfold railFail
  (try dsimp only)
  (repeat' split) <;> first | exact hw | (simp [hw]; done) | simp_all

@[simp] theorem writeChannel_wf (l : FLink) (k : Nat) (v : QWord) (s : State) (hw : Memory.wf s.store.cs = true) :
    Memory.wf (writeChannel l k v s).store.cs = true := by
  unfold writeChannel putBase
  (repeat' split) <;> simp [hw]

@[simp] theorem writeStream_wf (off : Nat) (v : QWord) (s : State) (hw : Memory.wf s.store.cs = true) :
    Memory.wf (writeStream off v s).store.cs = true := by
  unfold writeStream
  split <;> first | (simp [hw]; done) | ((repeat' split) <;> simp [hw])

@[simp] theorem streamWrite_wf (off : Nat) (v : QWord) (s : State) (hw : Memory.wf s.store.cs = true) :
    Memory.wf (streamWrite off v s).store.cs = true := by
  unfold streamWrite
  (try dsimp only)
  (repeat' split) <;> first | exact hw | (simp [hw]; done) | simp_all

@[simp] theorem registerWrite_wf (m : Master) (t : WriteTarget) (lost : Bool) (s : State) (hw : Memory.wf s.store.cs = true) :
    Memory.wf (registerWrite m t lost s).store.cs = true := by
  unfold registerWrite
  (repeat' split) <;> simp [hw]

@[simp] theorem pokeStore_wf (a : Nat) (w : DWord) (s : State) (hw : Memory.wf s.store.cs = true) :
    Memory.wf (pokeStore a w s).store.cs = true := by
  unfold pokeStore
  (try dsimp only)
  (repeat' split) <;> first | exact hw | (simp [hw]; done) | simp_all

@[simp] theorem debugWrite_wf (sp : Byte) (a : DWord) (ws : List DWord) (s : State) (hw : Memory.wf s.store.cs = true) :
    Memory.wf (debugWrite sp a ws s).store.cs = true := by
  unfold debugWrite
  (try dsimp only)
  split
  · simp [hw]
  · split
    · simp [hw]
    · split <;> simp [hw]
    · split
      · simp [hw]
      · split
        · simp [hw]
        · simp only [answer_frame]
          exact foldl_wf _ (fun s e h => pokeStore_wf _ _ _ h) _ _ hw
    · split <;> simp [hw]

@[simp] theorem putPacket_wf (p : QWord) (s : State) (hw : Memory.wf s.store.cs = true) :
    Memory.wf (putPacket p s).store.cs = true := by
  unfold putPacket
  (try dsimp only)
  (repeat' split) <;> first | exact hw | (simp [hw]; done) | simp_all

@[simp] theorem emitPacket_wf (core port value : Nat) (s : State) (hw : Memory.wf s.store.cs = true) :
    Memory.wf (emitPacket core port value s).store.cs = true := by
  unfold emitPacket
  (try dsimp only)
  apply putPacket_wf
  split
  · simp [hw]
  · exact putPacket_wf _ _ (by simpa using hw)

end Sys2Proof.Machine
end

