-- ==== Sys2Proof/Tests/Slice0.lean ====
section
/-! SUPPORT. Tests and witnesses: the spec's worked examples, ill-formed commands refused, and for each statement with hypotheses a
concrete state and operands that meet them together. -/

namespace Sys2Proof.Tests

open Sys2Proof Sys2Proof.Machine
set_option Elab.async false

/-! ### Well-formedness -/

theorem test_wf_slot : (Instr.loadReport 63).wf = true ∧ (Instr.loadReport 64).wf = false
    ∧ (Instr.mailboxDoorbell .cb 64).wf = false := by decide
theorem test_wf_bp : (Instr.eval 63 255 511).wf = true ∧ (Instr.eval 64 0 0).wf = false ∧ (Instr.eval 0 256 0).wf = false
    ∧ (Instr.eval 0 0 512).wf = false := by decide
theorem test_wf_targets : (Instr.registerWrite .cb (.stream 0x120 0) false).wf = true
    ∧ (Instr.registerWrite .cb (.stream 0x128 0) false).wf = false ∧ (Instr.registerWrite .cb (.stream 2 0) false).wf = false
    ∧ (Instr.registerWrite .cb (.mailbox 0x3FFF [0, 0]) false).wf = false
    ∧ (Instr.registerWrite .cb (.msix 0xFF [0, 0]) false).wf = false := by decide
theorem test_wf_tables : (Instr.tableEntryFetch .cb 4).wf = false ∧ (Instr.tableEntryWrite .cb 4 0 false).wf = false := by decide
theorem test_wf_lanes : (Instr.ingressWord .f0 32 0).wf = false ∧ (Instr.wordLock (.fieldLane .f0 32)).wf = false
    ∧ (Instr.wordLock (.meshLane .m0 12)).wf = false ∧ (Instr.wordLock (.twinLane 8)).wf = false
    ∧ (Instr.spareReq .hostToField 18).wf = false ∧ (Instr.quarterLost .f0 0 4 true).wf = false := by decide
theorem test_wf_pins : (Instr.pinFunctionChange .cb 40 0).wf = false ∧ (Instr.padLevelChange 40 true).wf = false := by decide
theorem test_wf_fabric : (Instr.siteStrobe 1024).wf = false ∧ (Instr.gapRecord .f0 1024).wf = false
    ∧ (Instr.blockMemoryWrite 128).wf = false ∧ (Instr.vaultRead 32).wf = false ∧ (Instr.avenueContention 768).wf = false := by decide
theorem test_wf_steps : (Instr.boulevardDelivery 32768).wf = false ∧ (Instr.meshHold 32768).wf = false := by decide
theorem test_wf_survey : (Instr.surveySample (.rail 9 0)).wf = false ∧ (Instr.surveySample (.sensor 16 0)).wf = false := by decide
theorem test_wf_domains : (Instr.domainPowerDown (.gallery 64)).wf = false ∧ (Instr.domainPowerDown (.bankGroup 9)).wf = false
    ∧ (Instr.bankGroupSleep 9).wf = false := by decide
theorem test_wf_items : (Instr.stateBlockReceive true 0 (.prevRow 16384 0 [0, 0, 0, 0] false)).wf = false
    ∧ (Instr.stateBlockReceive true 0 (.prevRow 0 128 [0, 0, 0, 0] false)).wf = false
    ∧ (Instr.stateBlockReceive true 0 (.prevRow 0 0 [0] false)).wf = false
    ∧ (Instr.stateBlockReceive true 0 (.block 128 0 0 0)).wf = false
    ∧ (Instr.stateBlockReceive true 0 (.vaultWord 32 0 0)).wf = false
    ∧ (Instr.stateBlockReceive true 0 (.vaultQueue 32 0 0 0 false false)).wf = false
    ∧ (Instr.stateBlockReceive true 0 (.siteCounters 1024 0 0)).wf = false := by decide
theorem test_wf_debug : (Instr.debugRead 0 0 0).wf = false ∧ (Instr.debugRead 0 0 17).wf = false ∧ (Instr.debugWrite 0 0 []).wf = false
    ∧ (Instr.step .curator 0).wf = false ∧ (Instr.step .curator 65536).wf = false ∧ (Instr.trigger 8 0 0 0).wf = false
    ∧ (Instr.trace 0).wf = false ∧ (Instr.trace 17).wf = false ∧ (Instr.crossTrigger 0 26).wf = false
    ∧ (Instr.tracePacket .curator 32 0).wf = false := by decide
theorem test_wf_image : (Instr.imageFrameTake 64).wf = false ∧ (Instr.frameApertureWrite 64 0 [0]).wf = false
    ∧ (Instr.frameApertureWrite 0 4095 [0, 0]).wf = false := by decide

/-! ### Witnesses: the statements' hypotheses are met -/

/-- A part whose image is loaded and whose field side is Armed, with no batch. -/
def ready : State := { State.reset with
  power := { State.reset.power with field := .armed }
  regs := { State.reset.regs with loadStatus := 0x8000#16, pwrState := 0x0003#16 }
  released := ⟨true, true, true⟩
  cores := { State.reset.cores with
    curator := { State.reset.cores.curator with atReset := false }
    docentA := { State.reset.cores.docentA with atReset := false }
    docentB := { State.reset.cores.docentB with atReset := false }
    warden := { State.reset.cores.warden with atReset := false }
    resetHold := false } }

/-- The same with the field side Running and one batch of capture mode fetched and issued to both Docents. -/
def running : State := { ready with
  power := { ready.power with field := .running }
  batches := [{ issuedA := true, issuedB := true }] }

theorem witness_StepRunsFrontCommand : State.reset.pending = [] := rfl

theorem witness_ResetRegisters : numbered 0 ∧ numbered 63 := by unfold numbered; decide

theorem witness_HostResetRestoresRegisters : numbered 0 ∧ 0 ≠ 0x04 ∧ 0 ≠ 0x17 ∧ numbered 63 ∧ 63 ≠ 0x04 ∧ 63 ≠ 0x17 := by
  unfold numbered; decide

theorem witness_DebugLevelOutlivesReset : { State.reset with power := { State.reset.power with hostRails := false } }.power.hostRails = false :=
  rfl

theorem witness_FusesOneWay : ∃ t, exec (.keyProvision 0) ready = .next t := ⟨_, rfl⟩

theorem witness_OnlyProgrammingChangesFuses : (∃ t, exec .debugReset ready = .next t) ∧ Instr.debugReset ≠ .otpProgrammed
    ∧ ∀ slot, Instr.debugReset ≠ .keyProvision slot := ⟨⟨_, rfl⟩, nofun, fun _ => nofun⟩

theorem witness_LevelRaisedOnlyByResponse : (∃ t, exec (.challenge 2) ready = .next t)
    ∧ (∀ token, Instr.challenge 2 ≠ .response token) ∧ (∀ slot, Instr.challenge 2 ≠ .debugResponse slot) :=
  ⟨⟨_, rfl⟩, fun _ => nofun, fun _ => nofun⟩

theorem witness_StoreFormKept : storeWf State.reset ∧ ∃ t, step { State.reset with pending := [.sgo 1] } = .next t :=
  ⟨rfl, _, rfl⟩

theorem witness_TablesKeepTheirSize : fiveMasters State.reset ∧ fortyPins State.reset ∧ State.reset.cores.channels.length = 8
    ∧ ∃ t, step { State.reset with pending := [.padLevelChange 39 true] } = .next t := ⟨rfl, rfl, rfl, _, rfl⟩

theorem witness_OnlyItsCommandsReachIt : (∃ t, exec .coreStatus ready = .next t) ∧ writesStore .coreStatus = false
    ∧ movesPins .coreStatus = false ∧ movesStream .coreStatus = false ∧ movesPower .coreStatus = false
    ∧ movesLoader .coreStatus = false ∧ movesRepair .coreStatus = false ∧ movesConservator .coreStatus = false
    ∧ stages .coreStatus = false ∧ applies .coreStatus = false ∧ crosses .coreStatus = false :=
  ⟨⟨_, rfl⟩, rfl, rfl, rfl, rfl, rfl, rfl, rfl, rfl, rfl, rfl⟩

theorem witness_AreaWriteTakesEffect : 0 < 0x100 ∧ 0xFF < 0x100 ∧ Master.curator ≠ .pcie := by decide

theorem witness_LostWritesAreDiscarded : (2#2 : BitVec 2) ≠ 3#2 ∧ State.reset.regs.busCollision.getLsbD 15 = false
    ∧ { State.reset.regs with busCollision := 0x8038#16 }.busCollision.getLsbD 15 = true := by decide

/-- A state in which master `m` has window `w` and index `i` selected. -/
def atEntry (m : Master) (w : BitVec 4) (i : Word) : State :=
  setView m { view m ready with select := w, index := i } ready

theorem witness_LocalEntryFetch :
    let s := atEntry .cb 1 2048
    fiveMasters s ∧ s.crossReads.any (fun r => r.master = .cb) = false ∧ windowCrosses 1 = false
      ∧ (view .cb s).index.toNat < windowEntries (view .cb s).select.toNat ∧ entryAbsent 1 2048 s = false
      ∧ 3 < windowRegs 1 ∧ (view .cb s).latchValid = false := by unfold fiveMasters; decide +kernel

theorem witness_CrossingEntryFetch :
    let s := atEntry .debug 7 535
    s.crossReads.any (fun r => r.master = .debug) = false ∧ windowCrosses (view .debug s).select.toNat = true
      ∧ (view .debug s).index.toNat < windowEntries (view .debug s).select.toNat ∧ entryAbsent 7 535 s = false
      ∧ 0 < windowRegs 7 := by decide +kernel

theorem witness_BeyondTheWindow :
    let s := atEntry .pcie 6 64
    windowEntries (view .pcie s).select.toNat ≤ (view .pcie s).index.toNat ∧ fiveMasters s
      ∧ s.crossReads.any (fun r => r.master = .pcie) = false ∧ 3 < 4 := by unfold fiveMasters; decide +kernel

theorem witness_CatalogueEntryWrite :
    let s := atEntry .cb 1 2047
    (view .cb s).select = 1#4 ∧ (view .cb s).index.toNat < 2048 ∧ 0 < 3 ∧ 2 < 3 := by decide +kernel

theorem witness_CorrectionLogPops :
    let s := atEntry .cb 2 0
    fieldAwake s = true ∧ (view .cb s).select = 2#4 ∧ (view .cb s).index = 0 ∧ peeks .cb s = false ∧ peeks .debug s = true := by
  decide +kernel

theorem witness_UnansweredReadReturnsZero :
    let s : State := { ready with crossReads := [⟨.cb, 0xFFFF#16, 0x1A#6, 7, 535, none⟩] }
    fiveMasters s ∧ s.crossReads.any (fun r => r.master = .cb) = true
      ∧ s.crossReads.find? (fun r => r.tag = 0xFFFF#16) = some ⟨.cb, 0xFFFF#16, 0x1A#6, 7, 535, none⟩ := by
  unfold fiveMasters; decide +kernel

theorem witness_ReadsShowStagedOnRequest : hasTwin ready = true ∧ 63 < galleryCount ready ∧ 2047 < 2048
    ∧ { view .cb ready with viewStaged := true }.viewStaged = true ∧ (12 < 13 ∨ 26 < 12) ∧ (27 < 13 ∨ 26 < 27) ∧ 31 < 32 := by
  decide +kernel

theorem witness_CommitChecksTheWholeSet : (0xC0DF#16 : Word) ≠ 0xC0DE#16 ∧ (view .cb ready).commitBlocked = false
    ∧ refusal ready.shadow ready = 0 ∧ noBatch ready = true ∧ noBatch running = false ∧ refusal running.shadow running = 0
    ∧ refusal { ready.shadow with sites := 1025#11 } ready ≠ 0 := by decide +kernel

theorem witness_PendingSetApplies :
    let s : State := { ready with pendingSet := some ready.shadow }
    s.pendingSet = some ready.shadow ∧ atBoundary s = true ∧ s.array.running = none := by decide +kernel

/-- A valid Catalogue entry of these fields. -/
def entryOf (site role link lane slot port : Nat) : QWord :=
  BitVec.ofNat 64 (2 ^ 63 + site * 2 ^ 53 + role * 2 ^ 50 + link * 2 ^ 49 + lane * 2 ^ 44 + slot * 2 ^ 39 + port * 2 ^ 27)

/-- `ready` with a Catalogue entry in force that names lane 31 of link F0, and both links UP. -/
def linked : State := { ready with
  inForce := { ready.inForce with catalogue := [(0, entryOf 0 2 0 31 31 5)] }
  regs := { ready.regs with linkStatus := 0x0022#16, arrayStatus := 0x8000#16 }
  egress := { ready.egress with stopped := true } }

theorem witness_CommandFieldsAct : fieldAwake linked = true ∧ linked.regs.arrayStatus.getLsbD 15 = true
    ∧ ready.regs.arrayStatus.getLsbD 15 = false ∧ linked.egress.stopped = true ∧ linkNamed .f0 linked = true
    ∧ surveyHold linked = false ∧ 2 ≤ linkState .f1 linked ∧ hasTwin linked = true ∧ loaded linked = true
    ∧ linked.loader.active = false := by decide +kernel

theorem witness_CommandFieldsWakeADormantSide :
    let s : State := { ready with power := { ready.power with field := .dormant } }
    s.power.field = .dormant ∧ s.barrier.fieldSilent = false ∧ Instr.detach .cb ∈ [Instr.resync .cb, .detach .cb, .logClear .cb] := by
  decide +kernel

theorem witness_ControlFieldsAct :
    ({ ready with protection := { ready.protection with unlocked := true } } : State).protection.unlocked = true
    ∧ ready.protection.unlocked = false ∧ (0#2 : BitVec 2) ≠ 3#2 ∧ (0#2).toNat < (2#2 : BitVec 2).toNat
    ∧ ready.regs.debugLevel.toNat ≤ (2#2 : BitVec 2).toNat ∧ (2#2 : BitVec 2) ≠ 3#2 ∧ ready.power.host = .standby := by decide +kernel

theorem witness_PowerRequestTakesItsValue : 1 ≤ (1#3 : BitVec 3).toNat ∧ (3#3 : BitVec 3).toNat ≤ 3 ∧ 3 < (4#3 : BitVec 3).toNat := by
  decide

theorem witness_KeyedKickActs :
    effectiveLevel { ready with regs := { ready.regs with debugLevel := 2#2 } } = 2 ∧ effectiveLevel ready < 2
    ∧ (0xF#4 : BitVec 4).getLsbD (coreNum .warden) = true ∧ (0x4A#8 : Byte) ≠ 0x4B#8 := by decide +kernel

theorem witness_CuratorExpiryAlerts : coreRuns ready.cores.curator = true ∧ ready.cores.curator.wdogPeriod ≠ 0 := by decide +kernel

/-- A call on a slot. -/
def callAt (slot : Nat) : QueuedCall := ⟨slot, 0, 0x11#16, [], false⟩

theorem witness_DoorbellQueuesOrRefuses :
    let one : State := { ready with cores := { ready.cores with calls := [callAt 63] } }
    let full : State := { ready with cores := { ready.cores with calls := List.replicate 64 (callAt 63) } }
    let asked : State := { ready with cores := { ready.cores with mailbox := [(1, 0x11#8)] } }
    Master.cb ≠ .curator ∧ 63 < 64 ∧ one.cores.calls.any (fun c => c.slot = 63) = true
      ∧ full.cores.calls.any (fun c => c.slot = 0) = false ∧ 64 ≤ full.cores.calls.length
      ∧ asked.cores.calls.any (fun c => c.slot = 0) = false ∧ asked.cores.calls.length < 64
      ∧ ∀ c ∈ asked.cores.calls ++ [requestOf 0 asked], 64 ≤ c.slot ∨
          (callListed c.call.toNat = true ∧ (asked.loader.active = false ∨ hostCall c.call = true)) := by decide +kernel

theorem witness_SecurityLockSequence :
    let s := setView .cb { view .cb ready with lockPrev := true } { ready with otp := { ready.otp with programmed := 3#4 } }
    let live := s.otp.programmed &&& ~~~s.otp.retired &&& ~~~((s.otpRequest.getD 0).extractLsb' 4 4)
    fiveMasters s ∧ (view .cb s).lockPrev = true ∧ (view .cb ready).lockPrev = false ∧ (0x0010#16 : Word).extractLsb' 8 8 = 0#8
      ∧ live &&& ~~~(0x0010#16 : Word).extractLsb' 4 4 ≠ 0 ∧ live ≠ 0 ∧ live &&& ~~~(0x0030#16 : Word).extractLsb' 4 4 = 0
      ∧ (0x0030#16 : Word).extractLsb' 8 8 = 0#8 := by unfold fiveMasters; decide +kernel

theorem witness_RequestedBitsAreProgrammed : ({ ready with otpRequest := some 0xFF#8 } : State).otpRequest = some 0xFF#8 := rfl

theorem witness_PinLockSequence :
    let at' (n : Nat) : State := setView .cb { view .cb ready with pinKeyPhase := n } ready
    fiveMasters (at' 0) ∧ (view .cb (at' 0)).pinKeyPhase = 0 ∧ (view .cb (at' 1)).pinKeyPhase = 1 ∧ (view .cb (at' 2)).pinKeyPhase = 2
      ∧ (39#16 : Word).toNat < 40 ∧ 39 < (40#16 : Word).toNat % 64 := by unfold fiveMasters; decide +kernel

theorem witness_PinFunctionChanges :
    let s : State := { ready with pins := { ready.pins with pins := lset ready.pins.pins 39 { pinAt 39 ready with locked := true } } }
    let q := pinOf 0x8C6#32 (pinAt 39 ready)
    39 < 40 ∧ pinCodeOk 39 q.osel.toNat ready = true ∧ pinCodeOk 39 q.isel.toNat ready = true ∧ (pinAt 39 ready).locked = false
      ∧ ready.inForce.twinEnable = false ∧ (pinAt 39 s).locked = true ∧ q ≠ { pinAt 39 s with swout := false } := by decide +kernel

theorem witness_PadsAndEdges :
    let s : State := { ready with pins := { ready.pins with
      pins := lset ready.pins.pins 8 { pinAt 8 ready with isel := 6#6, pad := true, mirror := true } } }
    0 < 40 ∧ 39 < 40 ∧ fieldAwake s = true ∧ fieldInput 6 s = true ∧ s.pins.handlerPrev = false := by decide +kernel

theorem witness_BatchRingRegisters : ringMay ready = true ∧ ringMay running = false ∧ (0xFFFFE0#24 : BitVec 24).toNat % 32 = 0
    ∧ 4 ≤ (4#24 : BitVec 24).toNat ∧ (12#24 : BitVec 24).toNat ≤ 12 := by decide +kernel

theorem witness_RingConsumersTakeTheirValue : 8 ≤ (8#5 : BitVec 5).toNat ∧ (24#5 : BitVec 5).toNat ≤ 24
    ∧ (ledger .f0 ready).crossed = [] := by decide +kernel

theorem witness_ConsumerBeyondWriteback : ((5#32 : DWord) - BitVec.ofNat 32 4).toNat < 2 ^ 31 := by decide

theorem witness_StimulusDma :
    let busy : State := { ready with stream := { ready.stream with sBusy := true, sLen := 8 } }
    let some' : State := { ready with stream := { ready.stream with sLen := 8 } }
    some'.stream.sBusy = false ∧ stimRefused some' = false ∧ some'.stream.sLen ≠ 0
      ∧ stimRefused { ready with stream := { ready.stream with sLen := 8, sDest := 0xFFFFFC } } = true
      ∧ busy.stream.sBusy = true ∧ fieldAwake busy = true
      ∧ (List.replicate 8 (0x5A#8 : Byte)).length = busy.stream.sLen.toNat ∧ busy.stream.sError = false
      ∧ granuleValid 8 busy.store = false ∧ (∀ k, k < 8 → 8 / 8 ≠ (busy.stream.sDest.toNat + k) / 8)
      ∧ busy.stream.sDest.toNat + 8 ≤ 8 := by decide +kernel

/-! ### Loading -/

/-- The field side Dormant. -/
def dormant : State := { ready with power := { ready.power with field := .dormant } }

/-- A load that receives frames. -/
def loading : State := { ready with
  regs := { ready.regs with loadStatus := 0x2000#16 }
  loader := { ready.loader with active := true } }

theorem witness_LoadBegins : (0xFE#8 : Byte) ≠ 0xFF#8 ∧ ready.store.test = .idle ∧ dormant.power.field = .dormant ∧ armed ready = true
    ∧ ({ ready with store := { ready.store with test := .march 0 0 } } : State).store.test ≠ .idle := by decide +kernel

theorem witness_LoadFails :
    let locking : State := { loading with loader := { loading.loader with pllWait := true } }
    loading.loader.active = true ∧ ready.loader.active = false ∧ loadState loading = stReceiving ∧ loading.regs.loadDeadline ≠ 0
      ∧ locking.loader.active = true ∧ locking.loader.pllWait = true := by decide +kernel

/-- A plain frame 0 of nonce 0: the header and four payload bytes that bring the CRC register to 0, zeros, and 16 bytes at the end. -/
def frameStart : List Byte := [0x5A#8, 0x52#8, 1#8, 8#8] ++ List.replicate 28 0#8 ++ [0x43#8, 0xD6#8, 0xBA#8, 0xF9#8]
def plainFrame (last : List Byte) : List Byte := frameStart ++ List.replicate 4044 0#8 ++ last

/-- The end of the frame whose CRC-32C is right, and one that is not 0 where it must be. -/
def goodEnd : List Byte := List.replicate 4 0xFF#8 ++ List.replicate 12 0#8
def badEnd : List Byte := List.replicate 15 0#8 ++ [1#8]

/-- `loading` with a frame in slot 63. -/
def frameWaits (bs : List Byte) : State := { loading with loader := { loading.loader with
  aperture := [(63, (List.range 4096).zip bs)], nonce := some 0 } }

theorem witness_FramesTaken :
    let s := frameWaits (plainFrame goodEnd)
    let bs := (tget [] s.loader.aperture 63).map (fun e => e.2)
    let h := frameHeader bs
    63 < 64 ∧ 4095 < 4096 ∧ (tget [] loading.loader.aperture 63).length < 4096 ∧ 4096 ≤ (tget [] s.loader.aperture 63).length
      ∧ s.loader.active = true ∧ loadState s = stReceiving ∧ hMagicOk 0 = false ∧ hMagicOk h = true ∧ hPlain h = true
      ∧ s.otp.authOnly = false ∧ s.loader.nonce = some (hNonce h) ∧ holdsFrame (hFrame h) s = false
      ∧ ({ s with loader := { s.loader with active := false } } : State).loader.active = false := by
  decide +kernel

/-- Zero bytes keep a CRC register that stands at 0. -/
theorem crc_zeros (n : Nat) : (List.replicate n (0#8 : Byte)).foldl (fun r b => crc32cShift 8 (r ^^^ b.toNat)) 0 = 0 := by
  induction n with
  | zero => rfl
  | succ n ih => exact ih

theorem crc_plainFrame (n : Nat) : crc32c (frameStart ++ List.replicate n 0#8) = 0xFFFFFFFF := by
  have h : frameStart.foldl (fun r b => crc32cShift 8 (r ^^^ b.toNat)) 0xFFFFFFFF = 0 := by decide +kernel
  simp only [crc32c, List.foldl_append, h, crc_zeros, Nat.zero_xor]

/-- The frame with the right CRC opens, the other does not. -/
theorem witness_FramesTaken_opens (s : State) :
    openFrame (plainFrame goodEnd) (frameHeader (plainFrame goodEnd)) s = some (((plainFrame goodEnd).drop 32).take payloadMax)
      ∧ openFrame (plainFrame badEnd) (frameHeader (plainFrame badEnd)) s = none := by
  have h1 : hPlain (frameHeader (plainFrame goodEnd)) = true ∧ hPlain (frameHeader (plainFrame badEnd)) = true := by decide +kernel
  have h2 : ofBytes ((plainFrame goodEnd).drop 4084) = 0 ∧ ofBytes (((plainFrame goodEnd).drop 4080).take 4) = 0xFFFFFFFF
      ∧ ofBytes ((plainFrame badEnd).drop 4084) = 1 ∧ (plainFrame goodEnd).take 4080 = frameStart ++ List.replicate 4044 0#8 := by
    decide +kernel
  constructor
  · rw [openFrame, if_pos h1.1, h2.1, h2.2.1, h2.2.2.2, crc_plainFrame]; rfl
  · rw [openFrame, if_pos h1.2, h2.2.2.1, Bool.and_comm]; rfl

/-- The bytes of the slot are the frame's. -/
theorem frameWaits_bytes : ((List.range 4096).zip (plainFrame goodEnd)).map (fun e => e.2) = plainFrame goodEnd := by
  refine List.map_snd_zip ?_
  simp only [plainFrame, frameStart, goodEnd, List.length_append, List.length_replicate, List.length_range, List.length_cons,
    List.length_nil, Nat.reduceAdd, Nat.le_refl]

/-- The prefix of a frame of unit 0x07 for Common Store. -/
def commonPrefix : Record := 0x07000000000000000000000800000000#128

theorem witness_FramesCross :
    let begun : State := { loading with loader := { loading.loader with
      begun := [5], repeats := [⟨5, 3#8, true⟩] } }
    fieldAwake begun = true ∧ begun.loader.active = true ∧ begun.loader.begun.contains 5 = true ∧ fld commonPrefix 127 120 = 7
      ∧ fld commonPrefix 119 112 = 0
      ∧ fld commonPrefix 95 64 + ((List.replicate 8 (0#8 : Byte)).take (fld commonPrefix 63 48)).length ≤ 0xE00000
      ∧ loadState begun = stReceiving ∧ begun.loader.begun = [5] ∧ begun.loader.repeats.any (fun r => r.frame = 5) = true
      ∧ holdsFrame 5 begun = false := by decide +kernel

/-- A load that holds a trailer as its only frame: no data frame to count, and their CRC-32C. -/
def trailerHeld : State := { loading with loader := { loading.loader with
  manifestDone := true
  frameCount := 1
  frames := [⟨0, BitVec.ofNat 256 (3 * 2 ^ 228 + 2 ^ 168 + 0xFF * 2 ^ 160), List.replicate 8 0#8⟩] } }

/-- A load in verification, with no section to place. -/
def verifying : State := { loading with regs := { loading.regs with loadStatus := 0x4000#16 } }

theorem witness_StartUpRuns_verify : trailerHeld.loader.active = true ∧ loadState trailerHeld = stReceiving
    ∧ trailerHeld.loader.manifestDone = true ∧ (∀ k, k < 1 → holdsFrame k trailerHeld = true)
    ∧ epochsOk trailerHeld 1 0 0 0 = true ∧ trailerOk trailerHeld = true ∧ trailerCrcOk trailerHeld = true := by decide +kernel

/-- The frame that an unlisted key holds. -/
theorem cfgFrame_empty (b f : Nat) (s : State) (h : s.fabric.frames = []) : cfgFrame b f s = 0#1024 := by rw [cfgFrame, h]; rfl

theorem cfgField_zero (off n : Nat) : cfgField 0#1024 off n = 0 := by
  rw [cfgField, BitVec.toNat_zero, Nat.zero_shiftRight, Nat.zero_mod]

theorem restZero_zero (n : Nat) : restZero n 0#1024 = true := by
  rw [restZero, decide_eq_true_iff, BitVec.toNat_zero, Nat.zero_mod]

/-- An empty fabric passes its checks. -/
theorem fabricOk_empty (s : State) (h : s.fabric.frames = []) : fabricOk s = true := by
  have z := fun b f => cfgFrame_empty b f s h
  have c : ∀ m, mcConfig 0#1024 m = ⟨0, false, 0, 0, 0, 0, 0, false, 0, 0, false⟩ := fun m => by simp [mcConfig, cfgField_zero]
  have ok : ∀ b, blockOk b s = true := by
    intro b
    have m : memMode b s = false := by simp [memMode, z, cfgField_zero]
    have r : reservedOk b s = true := by simp [reservedOk, m, z, cfgField_zero, restZero_zero]
    have u : ∀ k, inputUsed b k s = false := by intro k; simp [inputUsed, m, z, cfgField_zero]
    have i : ∀ k, inselOk b (inselOf b k s) = true := by intro k; simp [inselOk, inselOf, z, cfgField_zero]
    have q : squareOk b s = true := by simp [squareOk, oselOk, oselOf, asrcOf, aenOf, z, cfgField_zero]
    have p : portsFieldOk b s = true := by simp [portsFieldOk, z, cfgField_zero]
    have v : vaultOk b s = true := by
      unfold vaultOk
      cases blockVault b with
      | none => rfl
      | some v => simp [inselOk, vaultRst, vaultMode, vaultFrame, z, cfgField_zero]
    have t : treesOk s = true := by simp [treesOk, ctField, z, cfgField_zero]
    have w : ((List.range 32).map (fun k => (k, (⟨0, false, 0, 0, 0, 0, 0, false, 0, 0, false⟩ : McConfig)))).all
        (fun e => macrocellOk false e.1 e.2) = true := by decide +kernel
    have y : windowsOk false ((List.range 32).map (fun k => (k, (⟨0, false, 0, 0, 0, 0, 0, false, 0, 0, false⟩ : McConfig))))
        = true := by decide +kernel
    simp only [blockOk, m, r, u, i, q, p, v, t, z, c, w, y, Bool.false_and, Bool.not_false, Bool.and_true, Bool.true_and,
      Bool.or_true]
    decide
  simp [fabricOk, ok]

theorem avenuesOk_empty (s : State) (h : s.fabric.frames = []) : avenuesOk s = true := by
  have z : ∀ b k, aenOf b k s = false := fun b k => by simp [aenOf, cfgFrame_empty b 24 s h, cfgField_zero]
  simp [avenuesOk, avenueDrivers, z]

theorem witness_StartUpRuns_done : verifying.loader.active = true ∧ loadState verifying = stVerifying ∧ allPlaced verifying = true
    ∧ (placedSections (fillDefaults verifying)).filter (fun e => e.unit = 9#8) = []
    ∧ scheduleOk (imageLength (fillDefaults verifying)) (fillDefaults verifying) = true
    ∧ mapStarts (fillDefaults verifying) = [] := by decide +kernel

theorem witness_StartUpRuns_fabric : fabricOk (fillDefaults verifying) = true ∧ avenuesOk (fillDefaults verifying) = true :=
  ⟨fabricOk_empty _ rfl, avenuesOk_empty _ rfl⟩

theorem witness_StartUpRuns_stages :
    let l (ks : List Nat) : State := { loading with loader := { loading.loader with stagesLeft := ks, pllWait := true } }
    (l [0, 1, 2]).loader.pllWait = true ∧ (l [0, 1, 2]).loader.stagesLeft = 0 :: 1 :: [2] ∧ (l [1, 2]).loader.stagesLeft = 1 :: 2 :: []
      ∧ (l [2, 1]).loader.stagesLeft = 2 :: 1 :: [] ∧ (l [2]).loader.stagesLeft = [2] := by decide +kernel

/-! ### The barrier -/

theorem witness_RegisterMessages :
    let s : State := { ready with crossReads := [⟨.cb, 7#16, 0x1A#6, 7, 535, none⟩] }
    fieldAwake ready = true ∧ ready.crossReads.find? (fun r => r.tag = 0#16) = none ∧ fiveMasters s
      ∧ s.crossReads.find? (fun r => r.tag = 7#16) = some ⟨.cb, 7#16, 0x1A#6, 7, 535, none⟩ := by unfold fiveMasters; decide +kernel

theorem witness_EventsAndTimeMarks :
    eventExists ((0x0F00#16 : Word).toNat / 256) ready = true ∧ eventExists ((0x0000#16 : Word).toNat / 256) ready = false
      ∧ eventExists ((0x1000#16 : Word).toNat / 256) ready = false ∧ ready.cores.calls.length < 64
      ∧ coreRuns ready.cores.curator = true ∧ ready.cores.eventLog.length < 128 ∧ fieldAwake ready = true := by decide +kernel

theorem witness_ServiceMessages : Core.warden ≠ .curator ∧ Core.docentA ≠ .warden ∧ ready.cores.calls.length < 64
    ∧ ready.cores.calls.any (fun c => decide (c.slot < 64) && c.forwarded && decide (c.tag = 0#16)) = false
    ∧ ∀ c ∈ [callAt 66], 64 ≤ c.slot := by decide +kernel

/-- A barrier cell of a type and sequence number with an empty payload, its CRC right. -/
def cellOf (typ seq : Nat) : Cell :=
  let p := typ * 2 ^ 472 + seq * 2 ^ 448
  BitVec.ofNat 512 (p * 2 ^ 32 + crc32c (bytesOf 60 p))

/-- The barrier trained, lanes 0 to 15 active both ways. -/
def trained : State := { ready with barrier := { ready.barrier with
  toField := { ready.barrier.toField with active := List.range 16, spares := [16, 17] }
  toHost := { ready.barrier.toHost with active := List.range 16, spares := [16, 17] } } }

theorem witness_CellsArriveInOrder :
    let x := trained.barrier.toField
    let c := cellOf 1 0
    let h := cellOf 1 64
    x.active.contains 15 = true ∧ x.failed.contains 15 = false ∧ trained.barrier.hostSilent = false
      ∧ trained.barrier.toHost.unacked = [] ∧ cellCrcOk c = true ∧ cellNoSeq c = false ∧ cellSeq c = x.expected
      ∧ typeDefined .hostToField (cellMsg c).typ.toNat = true ∧ x.held = [] ∧ cellCrcOk h = true ∧ cellNoSeq h = false
      ∧ x.nakWait = false ∧ 1 ≤ (cellSeq (cellOf 1 1) - x.expected).toNat ∧ (cellSeq h - x.expected).toNat ≤ 64
      ∧ x.held.any (fun e => e.seq = cellSeq h) = false ∧ cellCrcOk (c ^^^ 1#512) = false := by decide +kernel

theorem witness_ResendKeepsEveryCell :
    let s : State := setBarrierDir .hostToField
      { barrierDir .hostToField trained with unacked := [⟨0xFFFF#16, ⟨1, 4, 0⟩⟩, ⟨0#16, ⟨1, 4, 0⟩⟩] } trained
    (barrierDir .hostToField s).unacked = ⟨0xFFFF#16, ⟨1, 4, 0⟩⟩ :: [⟨0#16, ⟨1, 4, 0⟩⟩] ∧ (barrierDir .hostToField s).waiting = []
      ∧ ((0#16 : Word) - 0xFFFF#16).toNat ≤ 2 ∧ ((1#16 : Word) - 0xFFFF#16).toNat ≤ 2 := by decide +kernel

theorem witness_LanesAreSpared : (barrierDir .hostToField trained).active.contains 0 = true
    ∧ (barrierDir .hostToField trained).failed.contains 0 = false ∧ (barrierDir .hostToField trained).spares = 16 :: [17]
    ∧ trained.power.hostRails = true ∧ trained.power.fieldRails = true := by decide +kernel

theorem witness_Heartbeats : trained.power.hostRails = true ∧ trained.power.host ≠ .off ∧ trained.barrier.toField.active ≠ []
    ∧ (7#8 : Byte).toNat < 8 ∧ trained.barrier.fieldSilent = false := by decide +kernel

/-! ### The Boolean processors -/

/-- A pass in progress in Gallery 0 in which BP 255 runs the given program, 9 steps long. -/
def inPass (ws : List QWord) : State := { ready with
  regs := { ready.regs with schedInfo := 9#16 }
  power := { ready.power with field := .running }
  batches := [{ issuedA := true, issuedB := true, burstBegun := true }]
  array := { ready.array with
    instr := (List.range ws.length).zip ws |>.map (fun e => (255 * 512 + e.1, e.2))
    galleries := [(0, { length := 9, powered := true })]
    phase := .inPass, running := some 0, passes := 1 } }

/-- An instruction with operand A the constant 0 and the given opcode and table. -/
def opWord (op : BpOp) (tt : Word) (a : BitVec 11) : QWord := encodeBp ⟨op, tt, a, 0x600, 0x600, 0x600⟩

theorem witness_EvalPerLane : executes .eval 0 255 0 (inPass [opWord .eval 0xFFFF 0x600]) = true
    ∧ executes .evalExport 0 255 0 (inPass [opWord .evalExport 0xFFFF 0x600]) = true
    ∧ executes .evalCommit 0 255 0 (inPass [opWord .evalCommit 0xFFFF 0x600]) = true
    ∧ executes .evalCommitExport 0 255 0 (inPass [opWord .evalCommitExport 0xFFFF 0x600]) = true := by decide +kernel

theorem witness_Eval3PerPair : executes .eval3 0 255 0 (inPass [opWord .eval3 0xFFFF 0x600]) = true
    ∧ executes .eval3Commit 0 255 0 (inPass [opWord .eval3Commit 0xFFFF 0x600]) = true ∧ 7 < 8 := by decide +kernel

theorem witness_TheOtherOpcodes : executes .nop 0 255 8 (inPass []) = true ∧ executes .endOp 0 255 0 (inPass []) = true
    ∧ executes .send 0 255 0 (inPass [opWord .send 7 0x600]) = true
    ∧ executes .meshSend 0 255 0 (inPass [opWord .meshSend 11 0x600]) = true
    ∧ executes .stim 0 255 0 (inPass [opWord .stim 0 0x63F]) = true
    ∧ routeValid 0 = false ∧ routeValid 0xFFFF = true
    ∧ stimPort 0 31 { inPass [] with array := { (inPass []).array with stim := [(31, [1, 2])] } } = 1 :: [2] := by decide +kernel

theorem witness_FirstWriteOfARow : (bankPoison true (inPass [])).contains (rowKey 255 511) = false
    ∧ (bankValid true (inPass [])).contains (rowKey 255 511) = false ∧ 0 < 4 ∧ 0 ≠ 511 % 4 := by decide +kernel

theorem witness_IllegalWritesOnlyZero :
    let s := inPass [0xC000000000000000#64]
    bpRuns 0 255 0 s = true ∧ fetchGood (bpNum 0 255) 0 s = true ∧ bpLegal (fetched (bpNum 0 255) 0 s) = false
      ∧ rowWrites (bpNum 0 255) 0 s := by unfold rowWrites; decide +kernel

theorem witness_IllegalIsReported : bpLegal ⟨.stim, 0, 0x640#11, 0, 0, 0⟩ = false ∧ bpLegal ⟨.meshSend, 12, 0x600#11, 0, 0, 0⟩ = false
    ∧ bpRuns 0 255 8 (inPass [opWord .meshSend 12 0x600]) = true := by decide +kernel

theorem witness_PoisonedFetchIsNop :
    let s : State := { inPass [] with array := { (inPass []).array with instrPoison := [255 * 512] } }
    bpRuns 0 255 0 s = true ∧ 0 ≤ bpLength (bpNum 0 255) s ∧ instrPoisoned (bpNum 0 255) 0 s = true ∧ rowWrites (bpNum 0 255) 0 s := by
  unfold rowWrites; decide +kernel

theorem witness_EmptyPortUnderflows :
    let s := inPass [opWord .stim 0 0x63F]
    31 < 32 ∧ stimPort 0 31 s = [] ∧ executes .stim 0 255 0 s = true ∧ (bpInstr 0 255 0 s).a = BitVec.ofNat 11 (0x620 + 31)
      ∧ rowWrites (bpNum 0 255) 0 s := by unfold rowWrites; decide +kernel

/-! ### Batches, bursts and passes -/

/-- A batch number that follows the last, and PATTERNS = 0. -/
def noopDescriptor (n : Nat) : Nat := n * 2 ^ 224 + 2 ^ 192

/-- The batch ring holds one entry, at address 0. -/
def fetching (d : Nat) : State := { ready with
  regs := { ready.regs with batchControl := 1 }
  inForce := { ready.inForce with mode := 1 }
  stream := { ready.stream with brSize := 4, brProd := 1 }
  lastBatch := 6
  store := csPutAll 0 (bytesOf 32 d) ready.store }

/-- A capture-mode descriptor of one pattern: batch 7, CAPTURE 1, SHIFT_LEN 1, SHIFT_DIV 1, CAP_GAP 64, PASSES 1, stimulus at 64 (24 bytes),
unload map at 128. -/
def captureDescriptor : Nat :=
  7 * 2 ^ 224 + 2 ^ 187 + 2 ^ 183 + 2 ^ 160 + 2 ^ 156 + 64 * 2 ^ 144 + 2 ^ 132 + 64 * 2 ^ 88 + 24 * 2 ^ 64 + 128 * 2 ^ 16

/-- The same ring with that descriptor, its stimulus record of one stream and one word, and an unload map of no row. -/
def fetchingCapture : State :=
  let s := fetching captureDescriptor
  { s with
    store := csPutAll 128 (List.replicate 8 0#8) (csPutAll 64 ([1#8, 0#8, 1#8] ++ List.replicate 21 0#8) s.store)
    loader := { s.loader with umapStarts := [128] } }

theorem witness_DescriptorBecomesABatch :
    let s := fetching (noopDescriptor 7)
    let d := descriptorOf (BitVec.ofNat 256 (rawNat (ringEntryAddr s.stream.brFetch s) 32 s.store))
    mayFetch s = true ∧ csUe (ringEntryAddr s.stream.brFetch s) 32 s.store = false ∧ d.batch = s.lastBatch + 1 ∧ d.patterns = 0 := by
  decide +kernel

theorem witness_DescriptorBecomesABatch_capture :
    let s := fetchingCapture
    let a := ringEntryAddr s.stream.brFetch s
    let d := descriptorOf (BitVec.ofNat 256 (rawNat a 32 s.store))
    mayFetch s = true ∧ csUe a 32 s.store = false ∧ d.batch = s.lastBatch + 1 ∧ d.patterns = 1
      ∧ malformedFields d (s.inForce.mode.toNat % 4) (csReadEffects a 32 s) = false := by decide +kernel

theorem witness_BadNumberStopsTheFetch :
    let s := fetching (noopDescriptor 8)
    let d := descriptorOf (BitVec.ofNat 256 (rawNat (ringEntryAddr s.stream.brFetch s) 32 s.store))
    mayFetch s = true ∧ csUe (ringEntryAddr s.stream.brFetch s) 4 s.store = false ∧ s.anyBatch = false ∧ d.batch ≠ s.lastBatch + 1 := by
  decide +kernel

/-- A batch fetched and not issued, then the same issued, of one stimulus stream that fills port 31 of Gallery 0. -/
def oneBatch (b : Batch) : State := { ready with
  batches := [b]
  array := { ready.array with galleries := [(0, { length := 9, powered := true })] }
  store := csPutAll 64 ([1#8, 0#8, 1#8] ++ List.replicate 5 0#8 ++ [0x40#8, 0#8, 0#8, 0x1F#8] ++ List.replicate 12 0#8) ready.store }

def stimDescriptor : Descriptor := { patterns := 1, stimPtr := 64, stimLen := 24 }

theorem witness_DocentsIssue : issueBlocked (oneBatch {}) = false ∧ announcedOk {} (oneBatch {}) = true
    ∧ nextToIssue .a (oneBatch {}) = some {} ∧ coreRuns (oneBatch {}).cores.docentA = true
    ∧ nextToIssue .b (oneBatch {}) = some {} ∧ coreRuns (oneBatch {}).cores.docentB = true := by decide +kernel

theorem witness_StimulusRefills :
    let b : Batch := { d := stimDescriptor, issuedA := true, issuedB := true }
    coreRuns (oneBatch b).cores.docentA = true ∧ fillBatch (oneBatch b) = some b ∧ nextPort b (oneBatch b) = some (0, 31) ∧ 0 ≠ 31 := by
  decide +kernel

/-- The array Running the only batch in hand, in a phase. -/
def arrayAt (p : ArrayPhase) (pass passes : Nat) : State := { running with
  batches := [{ issuedA := true, issuedB := true, burstBegun := true }]
  array := { running.array with phase := p, running := some 0, pass := pass, passes := passes } }

theorem witness_BurstsAndPasses :
    let b : Batch := { issuedA := true, issuedB := true }
    let c : Batch := { b with burstBegun := true }
    nextBurst (oneBatch b) = some b ∧ burstReady b (oneBatch b) = true ∧ b.d.xmaskEn = false
      ∧ (arrayAt .idle 0 1).array.running.bind (fun n => findBatch n (arrayAt .idle 0 1)) = some c
      ∧ (arrayAt .idle 0 1).array.phase = .idle ∧ (arrayAt .idle 0 1).array.passes ≠ 0 ∧ c.d.clearPrev = false
      ∧ passReady (arrayAt .cleared 0 1) = true ∧ passReady (arrayAt .tail 0 1) = true
      ∧ (arrayAt .inPass 0 2).array.phase = .inPass ∧ (arrayAt .inPass 0 2).array.running.isSome = true
      ∧ (arrayAt .inPass 0 2).array.pass + 1 < (arrayAt .inPass 0 2).array.passes
      ∧ (arrayAt .inPass 0 1).array.running.bind (fun n => findBatch n (arrayAt .inPass 0 1)) = some c
      ∧ (arrayAt .inPass 0 1).array.passes ≤ (arrayAt .inPass 0 1).array.pass + 1
      ∧ (arrayAt .inPass 0 1).power.field = .running := by decide +kernel

/-- The array in a pass, or waiting for one, of a schedule with mesh words. -/
def meshAt (p : ArrayPhase) : State :=
  let s := arrayAt p 0 1
  { s with
    regs := { s.regs with schedInfo := 0x2052#16 }
    array := { s.array with
      step := 80
      galleries := [(0, { length := 82, powered := true })]
      meshRecvTab := [(80, 1#24)]
      flight := [⟨81, 0, 31, 5, none⟩] } }

theorem witness_ExchangeSteps : (meshAt .inPass).array.phase = .inPass ∧ 81 < schedLength (meshAt .inPass)
    ∧ ⟨81, 0, 31, 5, none⟩ ∈ (meshAt .inPass).array.flight ∧ 0 < galleryCount (meshAt .inPass)
    ∧ galleryInUse 0 (meshAt .inPass) = true ∧ awaitsToken (meshAt .cleared) = true ∧ schedMesh (meshAt .cleared) = true
    ∧ (meshAt .inPass).array.step = 80 ∧ meshReady 80 (meshAt .inPass) = false ∧ hasMesh (meshAt .cleared) = true
    ∧ (meshAt .cleared).array.running.bind (fun n => findBatch n (meshAt .cleared))
        = some { issuedA := true, issuedB := true, burstBegun := true } := by decide +kernel

/-- A mesh block of a kind (1 a step block, 2 a token) at step 0 of batch 0 and pass 0, its CRC right. -/
def meshBlockOf (kind : Nat) : Block := meshBlock [3#16, 9#16, 2#16] kind false 0 0 0

theorem witness_MeshBlocks : hasMesh ready = true ∧ blockCrcOk (meshBlockOf 1 ^^^ 1) = false ∧ blockCrcOk (meshBlockOf 2) = true
    ∧ blockKind (meshBlockOf 2) = 2 ∧ blockCrcOk (meshBlockOf 1) = true ∧ blockKind (meshBlockOf 1) = 1 ∧ blockStep (meshBlockOf 1) = 0
    ∧ ready.array.meshHeld.any (fun h => h.link = .m0 && h.batch = 0 && h.pass = 0 && h.step = 0) = false := by decide +kernel

/-! ### Egress and the unload -/

/-- A capture-mode batch whose last pattern waits to unload, with LAST = 1. -/
def waitingToUnload : Batch :=
  { d := { patterns := 1, capture := 1, shiftDiv := 1, last := true }, mode := 1#2, issuedA := true, issuedB := true, burstBegun := true,
    burstDone := true, egressBegun := true, egressDone := true, nrows := 1, nstream := 1 }

def flushing : State := { running with
  batches := [waitingToUnload]
  egress := { running.egress with phase := .hold, waitingUnload := some 0 } }

theorem witness_EgressBegins :
    let b : Batch := { mode := 1#2, issuedA := true, issuedB := true }
    nextEgress (settle (oneBatch b)) = some b ∧ egressReady b (settle (oneBatch b)) = true
      ∧ waitingBatch flushing = some waitingToUnload ∧ flushing.egress.phase = .hold ∧ waitingToUnload.burstDone = true
      ∧ flushDue waitingToUnload flushing = true ∧ egressPaused flushing = false ∧ flushing.egress.rerunFrom = none := by
  decide +kernel

theorem witness_EgressCycle :
    let up : State := { ready with regs := { ready.regs with linkStatus := 2 } }
    let e : State := { up with link0 := { up.link0 with lanes := List.replicate 32 { state := .up } } }
    let p : State := { ready with egress := { ready.egress with stopped := true } }
    linkIsUp .f1 e = false ∧ egressBatch e = none ∧ e.twin.role ≠ .mirror ∧ e.twin.switchoverFrames = 0 ∧ linkIsUp .f0 e = true
      ∧ halfRate .f0 e = false ∧ egressPaused e = false ∧ laneCarries (lane .f0 0 e) = true ∧ laneCarries (lane .f0 31 e) = true
      ∧ linkIsUp .f0 p = false ∧ egressPaused p = true ∧ linkIsUp .f0 ready = false ∧ egressPaused ready = false := by decide +kernel

/-- A row of the waiting pattern. -/
def rowOfWaiting : RowDue := ⟨0, 0, 0, 0, true, 3, 1, false⟩

/-- A cycle-mode batch on egress, at a cycle whose delivery is due. -/
def cycleBatch (done : Bool) : Batch :=
  { d := { patterns := 1, passes := 1 }, mode := 2#2, issuedA := true, issuedB := true, burstBegun := true, burstDone := done,
    egressBegun := true }

def delivering (done : Bool) : State := { running with
  regs := { running.regs with schedInfo := 9#16 }
  batches := [cycleBatch done]
  egress := { running.egress with phase := .emul, batch := some 0 } }

theorem witness_RowsAndDeliveries :
    let s : State := { flushing with unload := { flushing.unload with due := [rowOfWaiting] } }
    let d : Batch := { waitingToUnload with egressEnd := 0 }
    s.unload.due = rowOfWaiting :: [] ∧ findBatch rowOfWaiting.batch s = some waitingToUnload ∧ waitingToUnload.mode = 1#2
      ∧ rowOfWaiting.presentAt ≤ s.power.fclk + 3 ∧ (∀ k, k < 1 → csUe (mapEntryAddr waitingToUnload 0 k) 4 s.store = false)
      ∧ (∀ k, k < 1 → recordReadEffects 0 (mapEntryAddr waitingToUnload 0 k) 4 s = s)
      ∧ (delivering true).batches.find? (fun b => deliveryDue b (delivering true)) = some (cycleBatch true)
      ∧ deliveryLate (cycleBatch true) (delivering true) = false
      ∧ (delivering false).batches.find? (fun b => deliveryDue b (delivering false)) = some (cycleBatch false)
      ∧ deliveryLate (cycleBatch false) (delivering false) = true ∧ (cycleBatch false).verdictsFormed = false
      ∧ findBatch 0 (delivering true) = some (cycleBatch true)
      ∧ ({ flushing with egress := { flushing.egress with waitingUnload := none } } : State).batches.find?
          (fun b => !b.comparesDone && comparesOver b { flushing with egress := { flushing.egress with waitingUnload := none } })
          = some d := by decide +kernel

theorem witness_RowsAndDeliveries_late : 0 < siteCount { ready with inForce := { ready.inForce with sites := 1 } } := by decide +kernel

theorem witness_StopAndResume :
    let s : State := { running with
      fabric := { running.fabric with stopA := true, stopB := true, resumeA := true }
      egress := { running.egress with stopped := true, stopA := true } }
    let h : State := { s with fabric := { s.fabric with resumeA := false } }
    s.fabric.stopA = true ∧ s.fabric.stopB = true ∧ s.egress.stopped = true ∧ s.egress.stopA = true ∧ s.egress.stopB = false
      ∧ s.fabric.resumeA = true ∧ h.egress.stopped = true ∧ h.egress.resumedA = false ∧ h.fabric.resumeA = false := by decide +kernel

/-! ### The fabric and its Vaults -/

/-- `ready` with FCLK running and these configuration frames. -/
def fabricOf (frames : Table CfgFrame) : State := { ready with
  regs := { ready.regs with clkStatus := 0x4000#16 }
  fabric := { ready.fabric with frames := frames } }

/-- A macrocell 0 in each register mode. -/
def modeFrame (m : Nat) : CfgFrame := BitVec.ofNat 1024 (m * 2 ^ (1024 - 17))

theorem witness_FabricCycles : fclkRuns (fabricOf []) = true ∧ avenueDrivers 0 (fabricOf []) = []
    ∧ avenueDrivers 0 (fabricOf [(24, BitVec.ofNat 1024 (2 ^ 1023))]) = [(0, 0)]
    ∧ avenueDrivers 767 (fabricOf [(48 * 15 + 24, BitVec.ofNat 1024 (2 ^ 456))]) = [(15, 63)]
    ∧ (avenueDrivers 0 (fabricOf [(24, BitVec.ofNat 1024 (2 ^ 1023)), (72, BitVec.ofNat 1024 (2 ^ 1023))])).length = 2
    ∧ (mcConfig (modeFrame 0) 0).regMode = 0 ∧ (mcConfig (modeFrame 1) 0).regMode = 1 ∧ (mcConfig (modeFrame 2) 0).regMode = 2
    ∧ (mcConfig (modeFrame 3) 0).regMode = 3 ∧ (mcConfig 0 31).regMode = 0 ∧ netSel 0 true true true = false
    ∧ netSel 3 false false true = true ∧ (fabricOf []).released.resets = true ∧ State.reset.released.resets = false := by
  decide +kernel

theorem witness_BlockMemoryWrites :
    let s : State := { fabricOf [(20, BitVec.ofNat 1024 (2 ^ 447))] with fabric := { (fabricOf []).fabric with
      frames := [(20, BitVec.ofNat 1024 (2 ^ 447))]
      ctEdges := 15#4
      inputs := lset (List.replicate 128 0) 0 0x3FFFFF#64 } }
    memWrite 0 s = some (31, 0xFFFF) ∧ 0 < 32 ∧ 0 ≠ 31 ∧ memWrite 0 (fabricOf []) = none := by decide +kernel

theorem witness_AvenuesContend :
    let two : Table CfgFrame := [(24, BitVec.ofNat 1024 (2 ^ 1023)), (72, BitVec.ofNat 1024 (2 ^ 1023))]
    let one : State := { fabricOf [(24, BitVec.ofNat 1024 (2 ^ 1023))] with
      fabric := { (fabricOf [(24, BitVec.ofNat 1024 (2 ^ 1023))]).fabric with contended := [0] } }
    let b : Batch := { egressBegun := true }
    767 < 768 ∧ 2 ≤ (avenueDrivers 0 (fabricOf two)).length ∧ (fabricOf two).fabric.contended.contains 0 = false
      ∧ one.fabric.contended.contains 0 = true ∧ (avenueDrivers 0 one).length ≤ 1 ∧ one.batches.filter (touchedBy 0) = []
      ∧ touchedBy 0 b = true ∧ b.firstEgress ≤ 0 := by decide +kernel

/-- A block that reads Avenue 0, whose site map names site 0. -/
theorem witness_AvenuesContend_site :
    let s : State := { fabricOf [(20, BitVec.ofNat 1024 ((0x100 + 128) * 2 ^ 1015))] with store := csPut 0 0x80#8 ready.store }
    readsAvenue 0 0 s = true ∧ 0 ∈ (avenueSquares 0).map (·.1) ∧ (csByte (s.params.siteMapBase + 128 * 0 + 0 / 8) s.store).getLsbD (7 - 0 % 8) = true := by
  decide +kernel

/-- Vault 0 in a mode, with a sample and a state. -/
def vaultAt (mode : Nat) (p : VaultSample) (x : VaultState) : State := { fabricOf [(25, BitVec.ofNat 1024 (mode * 2 ^ 653))] with
  fabric := { (fabricOf [(25, BitVec.ofNat 1024 (mode * 2 ^ 653))]).fabric with
    vaultIn := lset (List.replicate 32 {}) 0 p
    vaults := lset (List.replicate 32 {}) 0 x } }

theorem witness_VaultRam :
    let w : VaultSample := { edge := true, we := true, waddr := 2047, wdata := 0xABCD }
    let r : VaultSample := { edge := true, re := true, word := 0xABCD }
    vaultMode 0 (vaultAt 1 w {}) = 1 ∧ vaultTakes 0 (vaultAt 1 w {}) = true ∧ w.wrote = false ∧ 0 ≠ 2048 * 0 + 2047
      ∧ vaultTakes 0 (vaultAt 1 r {}) = true ∧ r.fetched = false ∧ r.devHigh = 0 ∧ r.devLow = 0 ∧ 0 < (vaultAt 1 r {}).fabric.vaults.length
      ∧ (vaultDecode 0xABCD 0 0).1.1 ≠ .uncorrectable ∧ (vaultDecode 0xABCD 3 0).1.1 = .uncorrectable := by decide +kernel

theorem witness_VaultQueues :
    let p : VaultSample := { edge := true, we := true, count := 2047 }
    let f : VaultSample := { edge := true, we := true, count := 2048 }
    let pp : VaultSample := { edge := true, we := true, re := true, count := 1 }
    let e : VaultSample := { edge := true, re := true }
    let q : VaultSample := { edge := true, re := true, count := 1 }
    let c : VaultSample := { edge := true, clr := true }
    let h : VaultSample := { edge := true, held := true }
    queueTakes 0 (vaultAt 2 p {}) = true ∧ p.wrote = false ∧ p.count < 2048 ∧ p.re = false ∧ vaultMode 0 (vaultAt 2 p {}) = 2
      ∧ queueTakes 0 (vaultAt 2 f {}) = true ∧ f.count = 2048 ∧ f.re = false
      ∧ queueTakes 0 (vaultAt 3 pp {}) = true ∧ vaultMode 0 (vaultAt 3 pp {}) = 3 ∧ pp.re = true ∧ 0 < pp.count
      ∧ queueTakes 0 (vaultAt 2 e {}) = true ∧ e.fetched = false ∧ e.count = 0
      ∧ queueTakes 0 (vaultAt 3 q {}) = true ∧ 0 < q.count ∧ q.devHigh = 0 ∧ q.devLow = 0 ∧ q.we = false
      ∧ 0 < (vaultAt 3 q {}).fabric.vaults.length ∧ queueMode (vaultMode 0 (vaultAt 2 c {})) = true ∧ c.edge = true ∧ c.clr = true
      ∧ queueMode (vaultMode 0 (vaultAt 3 h {})) = true ∧ h.held = true := by decide +kernel

/-! ### Field links -/

/-- `linked` with lane 31 of link F0 in a state. -/
def laneAt (x : Lane) : State := setLane .f0 31 x linked

/-- An up lane. -/
def upLane : Lane := { state := .up, prevCrc := some 0x1234#16, wordLock := true, sideLock := true }

theorem witness_IngressWords :
    let e : Nat × QWord := (0, entryOf 0 2 0 31 31 5)
    let s := laneAt { upLane with handed := true }
    (lane .f0 31 s).state = .up ∧ sideBit (slotWord 0x80000000#32 true) = some true ∧ sideBit (slotWord 0x80000000#32 true ^^^ 1#34) = none
      ∧ validEntries s.inForce.catalogue = [e] ∧ catLink e.2 = .f0 ∧ catLane e.2 = 31 ∧ roleIngress (catRole e.2) = true
      ∧ (lane .f0 31 s).handed = true ∧ 31 < (flink .f0 s).lanes.length
      ∧ (lane .f0 31 (laneAt { upLane with state := .lost })).state = .lost := by decide +kernel

theorem witness_FrameChecks :
    let s := laneAt { upLane with handed := true }
    let good := quarterOf 0 5 1 0 0x12340000
    let bad := quarterOf 0 5 1 0 0x12350000
    31 < (flink .f0 s).lanes.length ∧ (lane .f0 31 s).state = .up ∧ qIs 1 good = true ∧ (lane .f0 31 s).prevCrc = some 0x1234#16
      ∧ fld (qData good) 31 16 = 0x1234 ∧ qIs 1 bad = true ∧ fld (qData bad) 31 16 ≠ 0x1234 ∧ (lane .f0 31 s).handed = true
      ∧ laneListens (lane .f0 31 s) = true ∧ 3 ≠ 0 ∧ 4 ≤ (lane .f0 31 (laneAt { upLane with badQuarters := 4 })).badQuarters
      ∧ (lane .f0 31 (laneAt { upLane with badQuarters := 4 })).sideLock = true := by decide +kernel

theorem witness_StatusArrives :
    let ok := quarterOf 1 5 2 0 0
    let err := quarterOf 1 5 2 0 0xFF000000
    let crc := quarterOf 1 5 2 0 0x00800000
    let b : Batch := { egressBegun := true }
    let s : State := { laneAt upLane with batches := [b] }
    let t := laneAt { state := .training, step := 7, configSent := 255 }
    31 < 32 ∧ 31 < (flink .f0 s).lanes.length ∧ qIs 2 ok = true ∧ qIs 2 err = true ∧ (lane .f0 31 s).applyFrame = none
      ∧ fld (qData ok) 31 24 = 0 ∧ (qData ok).getLsbD 23 = false ∧ fld (qData err) 31 24 ≠ 0 ∧ (qData crc).getLsbD 23 = true
      ∧ s.batches = [b] ∧ b.egressBegun = true ∧ b.verdictsFormed = false ∧ b.comparesDone = false ∧ 0 ∈ ingressSites .f0 31 s
      ∧ b.firstEgress < egressFrameStart .f0 ((qFrame err + 63) % 64) s + frameLen .f0 s
      ∧ (lane .f0 31 t).state = .training ∧ (lane .f0 31 t).step = 7
      ∧ fld (qData (quarterOf 1 5 2 0 (255 * 2 ^ 14))) 21 14 = (lane .f0 31 t).configSent := by decide +kernel

/-- A link due to train: link F0 down. -/
def toTrain : State :=
  let s := setFlink .f0 { linked.link0 with retrainDue := true } linked
  { s with regs := { s.regs with linkStatus := 0 } }

theorem witness_LinksTrain : atBoundary (settle toTrain) = true ∧ linkNamed .f0 (settle toTrain) = true
    ∧ (flink .f0 (settle toTrain)).retrainDue = true ∧ linkState .f0 (settle toTrain) ≠ 1 ∧ loaded (settle toTrain) = true
    ∧ armed (settle toTrain) = true ∧ ioDisabled (settle toTrain) = false ∧ laneEnabled .f0 31 (settle toTrain) = true
    ∧ (lane .f0 31 (settle toTrain)).failedByDecision = false ∧ (flink .f0 (settle toTrain)).fullDue = true := by decide +kernel

theorem witness_LinksTrain_steps :
    let one := laneAt { state := .training, step := 1 }
    let two := laneAt { state := .training, step := 2, wordLock := true, goodQuarters := 3 }
    31 < 32 ∧ 31 < (flink .f0 one).lanes.length ∧ (lane .f0 31 one).state = .training ∧ (lane .f0 31 one).step = 1
      ∧ (lane .f0 31 one).sideLock = false ∧ (lane .f0 31 two).step = 2 ∧ (lane .f0 31 two).wordLock = true
      ∧ 3 ≤ (lane .f0 31 two).goodQuarters ∧ qIs 3 (quarterOf 2 5 3 0 0) = true
      ∧ advances (lane .f0 31 two) (qFrame (quarterOf 2 5 3 0 0)) (qQuarter (quarterOf 2 5 3 0 0)) = true
      ∧ (flink .f0 two).fullDue = true ∧ (∀ j, j < 32 → j ≠ 31 → (lane .f0 j one).state ≠ .training) ∧ 1 < (lane .f0 31 two).step
      ∧ (lane .f0 31 two).step < 8 ∧ laneSites .f0 30 (setLane .f0 30 { state := .training, step := 1 } linked) = []
      ∧ (lane .f0 32 one).state ≠ .training := by decide +kernel

/-- A lane in step 3 that has taken parts 1, 2 and 3 of a descriptor twice and part 0 once. -/
def describing (p1 : DWord) (old : Option Record) : Lane :=
  { state := .training, step := 3, descSeen := [(0, 0), (1, p1), (2, 0), (3, 0)], descTwice := [1, 2, 3], descriptor := old }

theorem witness_LinksTrain_descriptors :
    let q := quarterOf 3 5 4 0 0
    let y (p1 : DWord) := descPart (qPart q) (qData q) (goodQuarter (qFrame q) (qQuarter q) (describing p1 none))
    qIs 4 q = true ∧ (describing 0 none).descDone = false ∧ (y 0).descTwice.length = 4 ∧ dChannels (descOf (y 0)) = 0
      ∧ dChannels (descOf (y 0x00FC0000)) ≠ 0 ∧ (0 : Record) ≠ descOf (y 0x00FC0000)
      ∧ (descPart 1 5 (describing 0 none)).descTwice.length ≠ 4 := by decide +kernel

theorem witness_LinksTrain_up :
    let s := setLane .f0 31 { state := .training, step := 8 } { linked with regs := { linked.regs with linkStatus := 1 } }
    linkState .f0 s = 1 ∧ (trainingLanes .f0 s).all (fun x => decide (x.2.step = 8)) = true ∧ (lane .f0 31 s).state = .training := by
  decide +kernel

theorem witness_OtherLanesLock :
    let s : State := { ready with twin := { ready.twin with lanesLocked := [0, 1, 2, 3, 4, 5, 6], role := .outOfLockstep } }
    hasMesh ready = true ∧ armed ready = true ∧ 11 < 12 ∧ hasTwin ready = true ∧ 7 < 8 ∧ ready.twin.tUp = false
      ∧ (nins ready.twin.lanesLocked 7).length ≠ 8 ∧ (nins s.twin.lanesLocked 7).length = 8 ∧ s.twin.role ≠ .solo := by decide +kernel

theorem witness_PartnersComeAndGo :
    let b : Batch := { issuedA := true, issuedB := true }
    let s : State := { laneAt upLane with batches := [b] }
    let x : Lane := { state := .lost, descriptor := some 0 }
    let t : State := { laneAt x with coffset := offsetWith .f0 31 640 (laneAt x), batches := [{ b with egressBegun := true }] }
    31 < (flink .f0 s).lanes.length ∧ (lane .f0 31 s).state = .up ∧ findBatch b.d.batch s = some b ∧ issued b = true
      ∧ b.verdictsFormed = false ∧ 0 ∈ laneSites .f0 31 s ∧ (0, entryOf 0 2 0 31 31 5) ∈ validEntries s.inForce.catalogue
      ∧ (lane .f0 31 t).state = .lost ∧ x.stopRetry = false ∧ x.rejoinDue = false ∧ 2 ≤ linkState .f0 t
      ∧ { x with alarm := true }.alarm = true ∧ x.alarm = false ∧ offsetWith .f0 31 641 t = t.coffset ∧ offsetWith .f0 31 640 t = t.coffset
      ∧ offsetWith .f0 31 704 t ≠ t.coffset ∧ atBoundary t = false := by decide +kernel

/-- A descriptor with RPADMAX and DLYMAX at their greatest. -/
def wideDescriptor : Record := BitVec.ofNat 128 (0xFF * 2 ^ 26 + 0xFF * 2 ^ 34)

theorem witness_AlignmentIsCommon :
    let s0 := laneAt { upLane with descriptor := some wideDescriptor, echo64 := 64 * 249 }
    let s : State := { s0 with alignDue := true }
    let all := alignLanes .f0 (settle s) ++ alignLanes .f1 (settle s)
    (settle s).alignDue = true ∧ atBoundary (settle s) = true ∧ linkState .f0 (settle s) ≠ 1 ∧ linkState .f1 (settle s) ≠ 1 ∧ all ≠ []
      ∧ (∀ x ∈ all, beyondLimits all x = false) ∧ maxRt all + 1 ≤ 255 := by decide +kernel

theorem witness_DriftIsMeasured :
    let s := setFlink .f0 { (laneAt upLane).link0 with remeasureDue := true } (laneAt upLane)
    31 < (flink .f0 s).lanes.length ∧ (lane .f0 31 s).state = .up ∧ (15 : Int).natAbs < 16 ∧ 16 ≤ (-16 : Int).natAbs
      ∧ 24 ≤ (24 : Int).natAbs ∧ linkNamed .f0 s = true ∧ (flink .f0 s).remeasureDue = true ∧ 2 ≤ linkState .f0 s
      ∧ ([(31, 640)] : List (Nat × Nat)).find? (fun e => e.1 = 31) = some (31, 640) := by decide +kernel

/-! ### Fail records -/

/-- A site record of batch 0. -/
def siteRecord (channel site : Nat) : QRec := ⟨some 0, true, mkRecord 0 site channel 0 0 0 0, true⟩

/-- `running` with one batch and a Ledger of link F0. -/
def withLedger (b : Batch) (q : Ledger) : State := setLedger .f0 q { running with batches := [b] }

theorem witness_QueueTakesRecords :
    let b : Batch := { issuedA := true, issuedB := true }
    let four : Ledger := { offered := [siteRecord 3 1, siteRecord 3 0, siteRecord 1 9, siteRecord 0 9], queue := List.replicate 52 (siteRecord 0 0) }
    let full : Ledger := { offered := [siteRecord 0 0], queue := List.replicate 64 (siteRecord 0 0) }
    let gap : Ledger := { waiting := [gapMarker 0 1023] }
    four.waiting = [] ∧ four.gapsEntered = 0 ∧ four.offered.length ≤ 4 ∧ four.queue.length + four.offered.length ≤ 56
      ∧ full.waiting = [] ∧ full.offered = [siteRecord 0 0] ∧ 64 ≤ full.queue.length ∧ (siteRecord 0 0).batch = some 0
      ∧ findBatch 0 (withLedger b full) = some b ∧ b.lost = []
      ∧ gapReady .f0 1023 (withLedger { b with lost := [⟨1023, 65536, 7, 8⟩] } gap) = some (0, ⟨1023, 65536, 7, 8⟩)
      ∧ (withLedger b gap).regs.failStatus.getLsbD (linkNum .f0) = false := by decide +kernel

theorem witness_RecordsPassOn :
    let b : Batch := { issuedA := true, issuedB := true }
    let q : Ledger := { queue := [siteRecord 0 1023] }
    let c : Ledger := { queue := [⟨some 0, false, mkRecord 3 0 0 0 0 0 0, false⟩] }
    nextToPass .f0 (withLedger b q) = some (siteRecord 0 1023) ∧ q.ring.length < ringRecords .f0 (withLedger b q)
      ∧ isLinkRec (siteRecord 0 1023).bits = false ∧ 0 ≠ recSite (siteRecord 0 1023).bits
      ∧ (nextToPass .f0 (withLedger b c)).map (fun r => isLinkRec r.bits) = some true ∧ nextToPass .f0 (withLedger b {}) = none
      ∧ ringRecords .f0 (withLedger b { q with ring := [⟨siteRecord 0 0, 0, 0⟩] }) ≤ ([⟨siteRecord 0 0, 0, 0⟩] : List RingRec).length := by
  decide +kernel

theorem witness_RecordsReachTheHost :
    let f : FlightRec := ⟨siteRecord 0 0, 0, true⟩
    let q : Ledger := { flying := [f], commitDue := [⟨5, 0, false, true, true, true, false⟩] }
    let s := setChannel .f0 { channel .f0 running with size := 8, next := 255 } (setLedger .f0 q running)
    q.flying = [f] ∧ f.keep = true ∧ q.crossed = [] ∧ recKind (0 : Record) ≠ 3 ∧ recKind (0 : Record) ≠ 7 ∧ recKind (0 : Record) ≠ 8
      ∧ hostRoom (channel .f0 s) 255 = true ∧ hostRoom (channel .f0 s) 256 = false ∧ hostRoom (channel .f0 running) 0 = false
      ∧ (ledger .f0 s).commitDue = ⟨5, 0, false, true, true, true, false⟩ :: [] := by decide +kernel

theorem witness_LinksCommit :
    let b : Batch := { waitingToUnload with comparesDone := true }
    let f : Batch := { b with fails := [(0, 1, 4)] }
    let w (n : Nat) : Batch := { f with windows := [⟨0, n, 1, 0, 0⟩] }
    let s : State := { withLedger b {} with inForce := { running.inForce with sites := 1024 } }
    (0, 1) ∈ ({ b with causes := [(0, 1)] } : Batch).causes ∧ (∀ c ∈ b.causes, c.1 ≠ 0) ∧ (∃ x ∈ (w 4).windows, x.site = 0)
      ∧ (∀ e ∈ (w 4).fails, e.1 = 0 → ∃ x ∈ (w 4).windows, x.site = 0 ∧ x.first ≤ e.2.2)
      ∧ (w 5).fails.find? (fun e => e.1 = 0) = some (0, 1, 4) ∧ (∀ x ∈ (w 5).windows, x.site = 0 → 4 < x.first)
      ∧ (∀ x ∈ f.windows, x.site ≠ 0) ∧ (∃ e ∈ f.fails, e.1 = 0) ∧ (∀ e ∈ b.fails, e.1 ≠ 0)
      ∧ s.egress.rerunFrom = none ∧ oldestOpen .f0 s = some b ∧ linkReady .f0 b s = true ∧ s.twin.role = .solo
      ∧ s.twin.detachDue = false ∧ jointly b s = false ∧ rerunDecided b s = false := by decide +kernel

/-! ### Twins -/

/-- A member with this twin state. -/
def twinState (t : Twin) : State := { ready with twin := t, inForce := { ready.inForce with twinEnable := true } }

/-- A twin block of a kind, TSEQ and ADDR, its CRC right. -/
def twinBlockOf (kind addr tseq : Nat) : Block :=
  let body := kind * 2 ^ 236 + addr * 2 ^ 208 + tseq
  BitVec.ofNat 256 (body * 65536 + crc16 (bitsMsb 240 body))

theorem witness_TwinHeartbeats :
    let x : TwinSent := ⟨1, .control 1⟩
    let s := twinState { leaseValid := true, unacked := [x], role := .mirror }
    hasTwin s = true ∧ s.twin.leaseValid = true ∧ ready.twin.leaseValid = false ∧ s.twin.unacked = x :: [] ∧ s.twin.role ≠ .negotiating
      ∧ s.twin.role ≠ .primary := by decide +kernel

theorem witness_TokenMoves :
    let s := twinState { leaseValid := true, role := .mirror, tUp := true }
    let l := twinState { role := .mirror, line := false }
    hasTwin s = true ∧ coreRuns s.cores.warden = true ∧ fieldAwake s = true ∧ s.inForce.twinEnable = true ∧ s.twin.role ≠ .detached
      ∧ s.twin.leaseValid = true ∧ inLockstep s = true ∧ s.twin.line = true ∧ s.twin.token = false ∧ s.twin.role = .mirror
      ∧ (∀ b ∈ s.batches, issued b = true → committedBoth b = true) ∧ l.twin.line = false ∧ s.twin.tUp = true
      ∧ (twinState { role := .joining, tUp := true }).twin.role = .joining ∧ l.twin.role = .mirror ∧ l.twin.tUp = false := by decide +kernel

theorem witness_CapabilitiesDecide :
    let s := twinState { role := .outOfLockstep }
    let j := twinState { role := .primary, joinBatch := some 1 }
    hasTwin s = true ∧ twinKind (twinBlockOf 2 0 1) = 2
      ∧ inOrder (twinCrcOk (twinBlockOf 2 0 1)) (twinTseq (twinBlockOf 2 0 1)) s = true ∧ twinAddr (twinBlockOf 2 0 1) = 0
      ∧ twinKind (twinBlockOf 2 1 1) = 2 ∧ inOrder (twinCrcOk (twinBlockOf 2 1 1)) (twinTseq (twinBlockOf 2 1 1)) s = true
      ∧ twinAddr (twinBlockOf 2 1 1) ≠ 0 ∧ s.twin.token = false ∧ s.twin.line = true
      ∧ (twinState { token := true }).twin.token = true ∧ twinKind (twinBlockOf 4 1 1) = 4
      ∧ inOrder (twinCrcOk (twinBlockOf 4 1 1)) (twinTseq (twinBlockOf 4 1 1)) s = true ∧ twinAddr (twinBlockOf 4 1 1) = 1
      ∧ inOrder (twinCrcOk (twinBlockOf 4 2 1)) (twinTseq (twinBlockOf 4 2 1)) j = true ∧ twinKind (twinBlockOf 4 2 1) = 4
      ∧ twinAddr (twinBlockOf 4 2 1) = 2 ∧ j.twin.joinBatch.isSome = true ∧ j.twin.role = .primary
      ∧ twinCrcOk (twinBlockOf 2 0 1 ^^^ 1) = false := by decide +kernel

/-- A peer with the same capability agrees; with no Catalogue entry every partner is dual-ported, and one that is not is found. -/
theorem witness_CapabilitiesDecide_match (s : State) :
    capsMatch { s with twin := { s.twin with caps0 := some (capability0 s) } } = true ∧ dualPorted ready = true
      ∧ dualPorted (laneAt { upLane with descriptor := some 0 }) = false :=
  ⟨decide_eq_true rfl, by decide +kernel, by decide +kernel⟩

theorem witness_DigestsDecide :
    let b (mine : Option QWord) : Batch := { digestMine := mine }
    let s (mine : Option QWord) (fault : Bool) : State := { twinState { role := .mirror, faultSinceCommit := fault } with batches := [b mine] }
    inOrder true 1 (s none true) = true ∧ findBatch 0 (s none true) = some (b none) ∧ (b none).d.batch = 0 ∧ (b none).agreed = false
      ∧ (b none).digestMine = none ∧ (b (some 9)).digestMine = some 9 ∧ (8 : QWord) ≠ 9 ∧ inLockstep (s (some 9) true) = true
      ∧ findBatch 0 (s (some 9) true) = some (b (some 9)) ∧ (s (some 9) true).twin.faultSinceCommit = true
      ∧ findBatch 0 (s (some 9) false) = some (b (some 9)) ∧ (s (some 9) false).twin.faultSinceCommit = false := by decide +kernel

/-- `ready` with a call of a code waiting on slot 63. -/
def called (code : Word) (args : List QWord) (s : State) : State :=
  { s with cores := { s.cores with calls := [⟨63, 7, code, args, false⟩] } }

theorem witness_JoinsProceed :
    let s := twinState { role := .outOfLockstep, tUp := true, capsAgree := true, line := false }
    let j := twinState { role := .joining }
    hasTwin s = true ∧ callOf 63 0x000D (called 0x000D#16 [1] s) = some ⟨63, 7, 0x000D#16, [1], false⟩ ∧ s.twin.role = .outOfLockstep
      ∧ s.twin.tUp = true ∧ s.twin.capsAgree = true ∧ s.twin.line = false ∧ s.twin.token = false
      ∧ callOf 63 0x000D (called 0x000D#16 [1] j) = some ⟨63, 7, 0x000D#16, [1], false⟩ ∧ j.twin.role ≠ .outOfLockstep
      ∧ inOrder true 1 j = true ∧ j.twin.role = .joining ∧ inOrder true 1 s = true ∧ s.twin.role ≠ .joining := by decide +kernel

theorem witness_JoinsProceed_items : (∀ n w, StateItem.linkCounter .f0 0 ≠ .finish n w) ∧ StateItem.finish 8 false = .finish 8 false :=
  ⟨fun _ _ => nofun, rfl⟩

/-! ### Strobes and the Repair Analyser -/

/-- A capture-mode or memory-mode batch on egress with site 0 strobing and port 5 reporting a fail; the port's entry names STOP. -/
def strobing (mode : BitVec 2) : State :=
  let b : Batch := { mode := mode, issuedA := true, issuedB := true, egressBegun := true }
  { linked with
    power := { linked.power with field := .running }
    batches := [b]
    egress := { ready.egress with batch := some 0, phase := .emul }
    fabric := { linked.fabric with strobes := [0], failRep := [5] } }

theorem witness_StrobesRecordFails :
    compareCtx ready = none ∧ (strobing 2#2).fabric.strobes.contains 1 = false ∧ (compareCtx (strobing 2#2)).isSome = true
      ∧ (compareCtx (strobing 3#2)).map (fun x => x.batch.mode) = some 3#2 ∧ (strobing 2#2).fabric.strobes.contains 0 = true
      ∧ (strobing 2#2).fabric.strobed.contains 0 = false ∧ (compareCtx (strobing 2#2)).map (fun x => x.batch.mode) = some 2#2
      ∧ 1023 < 1024 ∧ 2047 < 2048 := by decide +kernel

theorem witness_BitFailsAreAnalysed :
    let g : Geometry := { sr := 1, sc := 1 }
    let s : State := { ready with repair := { ready.repair with queue := [(0, 3, 4)], geometry := some g } }
    let t : Tracker := { mustRows := [1], mustCols := [2], sparse := [(5, 6)] }
    s.repair.queue = (0, 3, 4) :: [] ∧ s.repair.geometry = some g ∧ 1 ≠ 0 ∧ ({ t with unrepairable := true } : Tracker).unrepairable = true
      ∧ 1 ∈ t.mustRows ∧ 2 ∈ t.mustCols ∧ (5, 6) ∈ t.sparse ∧ t.unrepairable = false ∧ 5 ∉ t.mustRows ∧ 7 ∉ t.mustCols
      ∧ (5, 7) ∉ t.sparse ∧ 1 ≤ (t.sparse.filter (fun e => e.1 = 5)).length ∧ (t.sparse.filter (fun e => e.1 = 8)).length < 1
      ∧ 1 ≤ (t.sparse.filter (fun e => e.2 = 6)).length ∧ (t.sparse.filter (fun e => e.2 = 9)).length < 1
      ∧ ([(5, 6), (7, 8)] : List (Nat × Nat)).length = 2 * 1 * 1 ∧ t.sparse.length ≠ 2 * 1 * 1
      ∧ 1 < (mustRepair 1 1 5 7 t).mustRows.length := by decide +kernel

/-! ### The survey unit -/

theorem witness_ReadingsArrive : surveyRuns ready = true ∧ 4 < 5 ∧ 5 ≤ 5 ∧ 5 ≤ 8 ∧ 11 < 12 ∧ 11 < ready.survey.sensors.length
    ∧ (4 * policy 10 ready : Int) ≤ 4 * policy 10 ready ∧ lget 0 (lset ready.survey.rails 0 100) 0 + policy 9 ready ≤ 750
    ∧ ¬ lget 0 (lset ready.survey.rails 0 1000) 0 + policy 9 ready ≤ 750 ∧ ready.survey.hot = false := by decide +kernel

theorem witness_SurveyDecides :
    let u : State := { running with
      batches := [{ egressBegun := true }]
      survey := { running.survey with upsets := policy 6 ready, quietWindows := 9, sag := true } }
    let z : State := { u with
      survey := { u.survey with upsets := 0, sag := false, level := 1, overrides := 0x20#8 }
      regs := { u.regs with scrubStatus := 0x4000#16 } }
    let p : State := { u with array := { u.array with phase := .inPass, toPower := [0, 63], powerGroup := 1 } }
    surveyRuns u = true ∧ atBoundary u = false ∧ overridden 5 u = false ∧ policy 6 u ≤ u.survey.upsets ∧ sweepTarget u < policy 5 u
      ∧ z.survey.upsets = 0 ∧ 9 ≤ z.survey.quietWindows ∧ 0 < sweepTarget z ∧ 0 < policy 6 z ∧ overridden 5 z = true
      ∧ overridden 7 p = false ∧ surveyHold p = false ∧ p.array.phase = .inPass ∧ p.survey.sag = true ∧ levelTarget p < policy 11 p
      ∧ z.survey.sag = false ∧ z.survey.hot = false ∧ 0 < levelTarget z ∧ u.array.phase ≠ .inPass ∧ levelTarget u < 3
      ∧ p.array.powerGroup = 0 + 1 ∧ p.array.toPower ≠ [] ∧ 0 ∈ p.array.toPower.take 1 ∧ 63 ∉ p.array.toPower.take 1
      ∧ u.array.powerGroup = 0 ∧ overridden 4 p = false := by decide +kernel

/-! ### Error protection -/

theorem witness_CodesCorrect : 7 < 8 ∧ 4 < 5 ∧ 0 < 1 ∧ 6 < 7 ∧ 63 < 64 ∧ 14 < 15 ∧ 62 < 63 := by decide

theorem witness_PatrolSweeps :
    let one (dev : BitVec 15) : State := { ready with
      array := { ready.array with patrolPos := 511, instrDev := [(255 * 512 + 511, dev)], galleries := [(0, { length := 9, powered := true })] }
      regs := { ready.regs with scrubControl := 4 } }
    let burst : State := { running with
      array := { running.array with running := some 0 }
      regs := { running.regs with scrubStatus := 0x2000#16 } }
    armed (one 1) = true ∧ loaded (one 1) = true ∧ (one 1).loader.active = false ∧ (one 1).array.running.isNone = true
      ∧ (one 1).regs.scrubControl.getLsbD 2 = true ∧ burst.array.running.isSome = true ∧ burst.regs.scrubStatus.getLsbD 13 = true
      ∧ armed burst = true ∧ loaded burst = true ∧ 511 < 512 ∧ (255 * 512 + 511) % 512 = (one 1).array.patrolPos
      ∧ galleryPowered ((255 * 512 + 511) / 131072) (one 1) = true ∧ (one 1).array.routeDev = [] ∧ (one 1).array.meshDev = []
      ∧ (bchDecode endWord 1).1 ≠ .uncorrectable ∧ (bchDecode endWord 0x7F#15).1 = .uncorrectable ∧ armed State.reset = false := by
  decide +kernel

/-- A codeword that awaits repair, its call waiting: the last instruction of BP 255 of Gallery 0. -/
def repairing (d : QWord) : State :=
  let s := called 0x000F#16 [0, 255, 511, d] ready
  { s with array := { s.array with awaiting := [(0, 255, 511)] } }

/-- The CRC register after 16 more END words. -/
def crcWords (n r : Nat) : Nat :=
  ((List.replicate n endWord).flatMap (fun w => bytesOf 8 w.toNat)).foldl (fun r b => crc32cShift 8 (r ^^^ b.toNat)) r

/-- Each register of a list is the one before it after 16 END words. -/
def chain : Nat → List Nat → Bool
  | _, [] => true
  | r, x :: xs => decide (crcWords 16 r = x) && chain x xs

theorem crcWords_chain (xs : List Nat) (r : Nat) (h : chain r xs = true) : crcWords (16 * xs.length) r = xs.getLastD r := by
  induction xs generalizing r with
  | nil => rfl
  | cons x xs ih =>
    simp only [chain, Bool.and_eq_true, decide_eq_true_eq] at h
    have e : List.replicate (16 * (x :: xs).length) endWord = List.replicate 16 endWord ++ List.replicate (16 * xs.length) endWord := by
      rw [List.replicate_append_replicate, List.length_cons]; congr 1; omega
    have k : crcWords (16 * (x :: xs).length) r = crcWords (16 * xs.length) (crcWords 16 r) := by
      simp only [crcWords, e, List.flatMap_append, List.foldl_append]
    rw [k, h.1, ih x h.2, List.getLastD_cons]

/-- The registers after each 16 of 512 END words. -/
def endRegisters : List Nat := [0xC9B6702B, 0xDFFDE529, 0x79976CB2, 0xF68F4719, 0xFCC8B978, 0x6B4BCDD2, 0x8D9FB054, 0x1EF7DFA3, 0x0426C0B7, 0xC095FF42,
    0x8CBF0A24, 0x72F31E74, 0xD46B52A5, 0x820AE964, 0xF4F0B990, 0x77852D5D, 0x46B3452F, 0x588288F4, 0xC51F2366, 0xB241F426,
    0x5599A563, 0x5CA6E83F, 0x5EB54747, 0x72AB525A, 0x6B934746, 0xDF6AC30D, 0x294373D5, 0xE6D3A303, 0x58838C34, 0x8DC29323,
    0xD27F0E56, 0xC288C7CF]

theorem repairCrc_ends (n : Nat) : repairCrc (List.replicate n endWord) = crcWords n 0xFFFFFFFF ^^^ 0xFFFFFFFF := rfl

/-- The repair CRC of a store of 512 END words. -/
theorem endStore_crc : repairCrc (List.replicate 512 endWord) = 0x3D773830 := by
  have n : 512 = 16 * endRegisters.length := by decide
  have h := crcWords_chain endRegisters 0xFFFFFFFF (by decide +kernel)
  have l : endRegisters.getLastD 0xFFFFFFFF ^^^ 0xFFFFFFFF = 0x3D773830 := by decide
  rw [n, repairCrc_ends, h, l]

theorem witness_LinesAreRepaired :
    let s := repairing endWord
    let idle := called 0x000F#16 [0, 255, 510, endWord] ready
    callOf 63 0x000F s = some ⟨63, 7, 0x000F#16, [0, 255, 511, endWord], false⟩ ∧ s.loader.active = false
      ∧ s.array.awaiting.contains (0, 255, 511) = true ∧ idle.array.awaiting.contains (0, 255, 510) = false
      ∧ s.otp.authOnly = false ∧ scheduleOk 0 (putRepaired 0 255 511 endWord s) = true
      ∧ (repairWords 0 255 511 (putRepaired 0 255 511 endWord s)).1 = List.replicate 512 endWord
      ∧ csNat (repairCrcAddr 0 255 511) 4 s.store = 0
      ∧ csNat (repairCrcAddr 0 255 511) 4 (csPutAll (repairCrcAddr 0 255 511) (bytesOf 4 0x3D773830) s.store) = 0x3D773830 ∧ 0x3D773830 ≠ 0
      ∧ ({ s with otp := { s.otp with authOnly := true } } : State).otp.authOnly = true := by decide +kernel

theorem witness_LinesAreRepaired_schedule :
    let bad := encodeBp ⟨.send, 0, 0x600#11, 0x600#11, 0x600#11, 0x600#11⟩
    scheduleOk 0 (putRepaired 0 255 0 bad (repairing endWord)) = false := by decide +kernel

/-- The Conservator at a frame, with that frame's live content and its entry in the CRC table. -/
def checking (live : CfgFrame) (crc : Nat) : State := { ready with
  conservator := { ready.conservator with running := true, next := 6143 }
  fabric := { ready.fabric with frames := if live = 0 then [] else [(6143, live)] }
  store := csPutAll (0xF80000 + 4 * 6143) (bytesOf 4 crc) ready.store }

theorem witness_FramesAreChecked :
    let s := checking 0 (frameCrcOf 0)
    let b := checking 0 1
    let l := checking 1 1
    let e : State := { l with store := csPut (0xEC0000 + 128 * 6143 + 127) 1#8 l.store }
    let split : State := { ready with batches := [{ egressBegun := true }], conservator := { ready.conservator with
      running := true, copies := [{}, { sweepLevel := 1 }, { sweepLevel := 2 }] } }
    conservatorRuns s = true ∧ conservatorRuns split = true ∧ votedSettings split.conservator = none ∧ inLockstep split = false
      ∧ atBoundary split = false ∧ votedSettings s.conservator = some ({}, false) ∧ s.conservator.next = 6143
      ∧ 6143 < ({} : ConsSettings).frameCount ∧ ({} : ConsSettings).skip.contains 6143 = false ∧ s.fabric.driverCheck = []
      ∧ s.store.csDev = [] ∧ 6143 < 6144 ∧ frameCrcOf 0 = csNat (0xF80000 + 4 * 6143) 4 s.store
      ∧ frameCrcOf 0 ≠ csNat (0xF80000 + 4 * 6143) 4 b.store ∧ csUe (0xE00000 + 128 * 6143) 128 b.store = false
      ∧ csNat (0xE00000 + 128 * 6143) 128 b.store = 0 ∧ tget 0 b.fabric.frames 6143 = 0 ∧ tget 0 l.fabric.frames 6143 = 1
      ∧ frameCrcOf 1 ≠ csNat (0xF80000 + 4 * 6143) 4 l.store ∧ csNat (0xE00000 + 128 * 6143) 128 l.store = 0
      ∧ inventoryBits 0xEC0000 6143 l.store = 0 ∧ inventoryBits 0xEC0000 6143 e.store = 1
      ∧ csNat (0xE00000 + 128 * 6143) 128 e.store = 0 := by decide +kernel

theorem witness_SweepsAreSigned :
    let s : State := { ready with conservator := { ready.conservator with running := true, next := 6144 } }
    let bad (n : Nat) : State := { s with
      batches := [{ egressBegun := true }]
      conservator := { s.conservator with signatureAtLoad := 1, mismatches := n } }
    let t : State := { ready with conservator := { ready.conservator with lastSignature := some 5 } }
    conservatorRuns s = true ∧ votedSettings s.conservator = some ({}, false) ∧ ({} : ConsSettings).frameCount ≤ s.conservator.next
      ∧ s.conservator.lateRepairs = [] ∧ inLockstep s = false ∧ signature s.conservator.computed = s.conservator.signatureAtLoad
      ∧ signature (bad 0).conservator.computed ≠ (bad 0).conservator.signatureAtLoad ∧ (bad 0).conservator.mismatches = 0
      ∧ 1 ≤ (bad 1).conservator.mismatches ∧ atBoundary (bad 1) = false ∧ inOrder true 1 t = true
      ∧ t.conservator.lastSignature = some 5 ∧ (5 : DWord) ≠ 6 := by decide +kernel

/-- Checker test mode. -/
def testMode : State := { ready with regs := { ready.regs with scrubControl := 0x8000#16 } }

theorem witness_CheckerTestMode :
    let on : State := { ready with regs := { ready.regs with batchControl := 1 } }
    callOf 63 0x0010 (called 0x0010#16 [] ready) = some ⟨63, 7, 0x0010#16, [], false⟩ ∧ ready.regs.batchControl.getLsbD 0 = false
      ∧ noBatch ready = true ∧ on.regs.batchControl.getLsbD 0 = true ∧ callOf 63 0x0010 (called 0x0010#16 [] on) ≠ none
      ∧ callOf 63 0x0011 (called 0x0011#16 [6, 65535, 1, 2] testMode) = some ⟨63, 7, 0x0011#16, [6, 65535, 1, 2], false⟩
      ∧ checkTest testMode = true ∧ checkTest ready = false ∧ argOf ⟨63, 7, 0x0011#16, [6, 65535, 1, 2], false⟩ 0 = 6
      ∧ callOf 63 0x0012 (called 0x0012#16 [6, 65535] testMode) = some ⟨63, 7, 0x0012#16, [6, 65535], false⟩
      ∧ callOf 63 0x0013 (called 0x0013#16 [4, 1, 2] testMode) = some ⟨63, 7, 0x0013#16, [4, 1, 2], false⟩
      ∧ argOf ⟨63, 7, 0x0013#16, [4, 1, 2], false⟩ 0 = 4 := by decide +kernel

theorem witness_ScrubCountersAreRead :
    callOf 63 0x0014 (called 0x0014#16 [8] ready) = some ⟨63, 7, 0x0014#16, [8], false⟩ ∧ (argOf ⟨63, 7, 0x0014#16, [8], false⟩ 0).toNat % 8 = 0
      ∧ callOf 63 0x0014 (called 0x0014#16 [15] ready) = some ⟨63, 7, 0x0014#16, [15], false⟩
      ∧ (argOf ⟨63, 7, 0x0014#16, [15], false⟩ 0).toNat % 8 ≠ 0 := by decide +kernel

/-! ### The network and Common Store -/

/-- A packet header: operation, destination, source, address, flits and byte enables. -/
def packetOf (op dest src addr flits mask : Nat) : QWord :=
  BitVec.ofNat 64 (dest * 2 ^ 57 + src * 2 ^ 50 + op * 2 ^ 40 + flits * 2 ^ 37 + 3 * 2 ^ 32 + mask * 2 ^ 24 + addr)

/-- `ready` with an error of two bits in the check bits of byte 248 of Common Store. -/
def brokenByte : State := { ready with store := { csPut 248 0x55#8 ready.store with csDev := [(248, 3)] } }

theorem witness_RequestsAreServed :
    let r := packetOf 0 0x47 0x4E 248 1 0
    let w := packetOf 1 0x47 0x4E 248 1 0x80
    let x := packetOf 1 0x40 0x4E 0xE00000 1 0xFF
    csUe (pAddr r) (8 * pFlits r) ready.store = false ∧ csUe (pAddr r) (8 * pFlits r) brokenByte.store = true ∧ pFlits w = 1
      ∧ granuleClean (pAddr w) ready.store ∧ writeRefused w ready = false ∧ writeRefused x ready = true ∧ fld w 31 24 ≠ 0 ∧ 7 < 8 := by
  unfold granuleClean; decide +kernel

theorem witness_RequestsAreServed_read : reachesBank opRead (packetOf 0 0x47 0x4E 248 1 0) ready
    ∧ reachesBank opRead (packetOf 0 0x47 0x4E 248 1 0) brokenByte := by unfold reachesBank reachesNode; decide +kernel

theorem witness_RequestsAreServed_write : reachesBank opWrite (packetOf 1 0x47 0x4E 248 1 0x80) ready
    ∧ reachesBank opWrite (packetOf 1 0x40 0x4E 0xE00000 1 0xFF) ready := by unfold reachesBank reachesNode; decide +kernel

theorem witness_ExclusivePairs :
    let e := packetOf 2 0x47 0x4E 248 1 0
    let c := packetOf 3 0x47 0x4E 248 1 0x80
    let s : State := { ready with
      store := { ready.store with reservations := [(0x4E, 31)] }
      cores := { ready.cores with docentA := { ready.cores.docentA with halted := true } } }
    csUe (pAddr e) (8 * pFlits e) ready.store = false ∧ ready.store.csDev = [] ∧ reachesBank opCond c s ∧ pFlits c = 1 ∧ s.store.reservations.contains (pSrc c, pAddr c / 8) = true ∧ writeRefused c s = false
      ∧ ready.store.reservations.contains (pSrc c, pAddr c / 8) = false
      ∧ (coreState .docentA s).halted = true ∧ s.store.reservations.any (fun r => r.1 = coreNode .docentA) = true := by
  unfold reachesBank reachesNode; decide +kernel

theorem witness_ExclusivePairs_requests : reachesBank opExcl (packetOf 2 0x47 0x4E 248 1 0) ready
    ∧ reachesBank opCond (packetOf 3 0x47 0x4E 248 1 0x80) ready := by unfold reachesBank reachesNode; decide +kernel

theorem witness_RequestsAreTurnedAway :
    let h (dest flits : Nat) := packetOf 0 dest 0x4E 248 flits 0
    let blocked : State := { ready with store := { ready.store with routes := [(1, 0x8001#16)] } }
    let done (st : Nat) : QWord := BitVec.ofNat 64 (0x4E * 2 ^ 57 + 2 ^ 49 + 8 * 2 ^ 40 + 3 * 2 ^ 32 + st * 2 ^ 20)
    let r (n : Nat) : NocRequest := ⟨packetOf 0 0x47 0x4E 248 1 0, [], 7, n⟩
    let s (n : Nat) : State := { ready with store := { ready.store with outstanding := [r n] } }
    pOp (h 0x47 1) = opRead ∧ (h 0x47 1).getLsbD 49 = false ∧ fieldAwake ready = true ∧ injects (h 0x47 1) ready = true
      ∧ heldBehind (h 0x47 1) ready = false ∧ routeMissing (h 0x47 1) blocked = true ∧ injects (h 0x47 1) blocked = true
      ∧ nodeExists (pDest (h 0x55 1)) ready = false
      ∧ routeMissing (h 0x3F 1) ready = false ∧ nodeExists (pDest (h 0x3F 1)) ready = true ∧ nodeAsleep (pDest (h 0x3F 1)) ready = true
      ∧ nodeAsleep (pDest (h 0x47 5)) ready = false ∧ routeProxy (h 0x47 5) ready = false ∧ malformedPacket (h 0x47 5) = true
      ∧ malformedPacket (h 0x47 0) = true
      ∧ pOp (done 0) = opCompletion ∧ (done 0).getLsbD 49 = true ∧ (s 62).store.outstanding = [r 62]
      ∧ isRequest (pDest (done 0)) (pTag (done 0)) (r 62) = true ∧ pStatus (done 0) ≠ stAsleep ∧ pStatus (done stAsleep) = stAsleep
      ∧ (r 62).asleepCount < 63 ∧ 63 ≤ (r 63).asleepCount ∧ (s 62).store.outstanding.find? (isRequest 0x4E 3) = some (r 62)
      ∧ (r 62).asleepCount ≠ 0 ∧ isRequest 0x4E 3 (r 62) = true := by decide +kernel

theorem witness_RoutesSwitch : fieldAwake ready = true ∧ coreRuns ready.cores.warden = true
    ∧ ready.store.outstanding.all (fun r => decide (pEpoch r.header = ready.store.epoch)) = true ∧ 0x54 < 128 ∧ nodeExists 0x54 ready = true
    ∧ 16383 < 16384 ∧ callOf 63 0x0015 (called 0x0015#16 [16] ready) = some ⟨63, 7, 0x0015#16, [16], false⟩
    ∧ (argOf ⟨63, 7, 0x0015#16, [16], false⟩ 0).toNat % 8 = 0 := by decide +kernel

theorem witness_BanksAreTested :
    let t (k : BankTest) (l : Option Nat) : State := { ready with store := { ready.store with test := k, loan := l } }
    ready.store.loan = some 32 ∧ ready.store.test = .idle ∧ fieldAwake ready = true ∧ ready.loader.active = false
      ∧ ready.loader.waiting = none ∧ checkTest ready = false ∧ coreRuns ready.cores.warden = true ∧ (t .idle none).store.loan = none
      ∧ (t (.copying 31 31 32) (some 32)).store.test = .copying 31 31 32 ∧ (t (.march 31 31) none).store.test = .march 31 31
      ∧ (t (.march 31 31) none).loader.waiting = none ∧ 31 < 2 ^ 32 := by decide +kernel

theorem witness_DomainsSleep :
    let st : State := { ready with power := { ready.power with field := .standby } }
    let busy : State := { ready with store := { ready.store with outstanding := [⟨packetOf 0 0x3F 0x4E 0 1 0, [], 0, 0⟩] } }
    st.power.field = .standby ∧ 8 < 9 ∧ ready.power.field ≠ .standby ∧ domainSleeps (.gallery 63) ready = true
      ∧ domainBusy (.gallery 63) ready = false ∧ 63 < galleryCount ready ∧ (∀ g, Domain.fabric ≠ .gallery g)
      ∧ domainSleeps .fabric st = true ∧ domainSleeps .docents ready = false ∧ domainBusy (.gallery 63) busy = true :=
  ⟨rfl, by decide, by decide, by decide +kernel, by decide +kernel, by decide +kernel, fun _ => nofun, by decide +kernel,
    by decide +kernel, by decide +kernel⟩

/-! ### Power, clocks and watchdogs -/

/-- The field side in a power state, its requested state named. -/
def poweredAt (p : PowerState) (req : Word) : State := { ready with
  power := { ready.power with field := p, target := if p = .dormant then some .standby else none }
  regs := { ready.regs with pwrRequest := req } }

theorem witness_PowerTransitions :
    let off := poweredAt .off 3
    let un : State := { poweredAt .standby 3 with regs := { ready.regs with loadStatus := 0, pwrRequest := 3 } }
    let held : State := { poweredAt .standby 1 with ledger0 := { ready.ledger0 with queue := [siteRecord 0 0] } }
    let down := poweredAt .standby 1
    off.barrier.fieldSilent = false ∧ off.heldCommands = [] ∧ off.power.field = .off ∧ off.power.fieldRails = true ∧ off.power.tref = true
      ∧ (poweredAt .dormant 3).power.field = .dormant ∧ (poweredAt .dormant 3).power.target = some .standby
      ∧ requested (poweredAt .standby 3) = .armed ∧ loaded (poweredAt .standby 3) = true ∧ requested un = .armed ∧ loaded un = false
      ∧ un.power.field = .standby ∧ requested (poweredAt .armed 2) ≠ .armed ∧ atBoundary (poweredAt .armed 2) = true
      ∧ (poweredAt .armed 2).batches.all committedBoth = true ∧ (poweredAt .armed 2).loader.active = false
      ∧ requested held = .dormant ∧ ledgerHolds held.ledger0 = true ∧ requested down = .dormant ∧ ledgerHolds down.ledger0 = false
      ∧ ledgerHolds down.ledger1 = false ∧ down.store.test = .idle ∧ down.store.outstanding = [] := by decide +kernel

theorem witness_WakesRaise :
    let s : State := { ready with
      power := { ready.power with field := .dormant, host := .dormant }
      regs := { ready.regs with wakeEnable := 0x810B#16, pwrRequest := 2 } }
    let p : WakeSample := ⟨true, true⟩
    ready.regs.wakeEnable.getLsbD 15 = false ∧ ready.regs.wakeEnable.getLsbD 8 = false ∧ p.fieldPin = true
      ∧ s.regs.wakeEnable.getLsbD 15 = true ∧ s.power.field = .dormant ∧ 2 ≤ fld s.regs.wakeEnable 1 0
      ∧ fld s.regs.pwrRequest 2 0 < fld s.regs.wakeEnable 1 0 ∧ p.hostPin = true ∧ s.regs.wakeEnable.getLsbD 8 = true
      ∧ s.power.host = .dormant ∧ s.regs.wakeEnable.getLsbD 3 = true ∧ ready.power.host ≠ .dormant := by decide +kernel

theorem witness_RailsAndReferences :
    let down : State := { ready with power := { ready.power with fieldRails := false } }
    let lost : State := { ready with power := { ready.power with tref := false } }
    down.power.fieldRails = false ∧ ready.power.fieldRails = true ∧ ready.loader.waiting = none ∧ ready.power.hostRails = true
      ∧ numbered 63 ∧ ready.power.host ≠ .off ∧ ready.power.tref = true ∧ ready.power.field ≠ .off ∧ lost.power.fieldRails = true
      ∧ lost.power.tref = false := by unfold numbered; decide +kernel

theorem witness_ClocksChange :
    let s : State := { ready with
      power := { ready.power with clkDue := true }
      inForce := { ready.inForce with clk := 0x9880#16 } }
    let r (a b : Bool) : State := { ready with power := { ready.power with relockS := a, relockF := b } }
    s.power.clkDue = true ∧ s.power.field = .armed ∧ atBoundary s = true ∧ s.array.running = none ∧ s.loader.active = false
      ∧ stepClockDiffers s.power.clkInForce s.inForce.clk = true ∧ fabricClockDiffers s.power.clkInForce s.inForce.clk = true
      ∧ ready.power.clkDue = false ∧ (r true false).power.relockS = true ∧ (r true false).power.relockF = false
      ∧ (r false true).power.relockF = true ∧ linkNamed .f0 linked = true ∧ (r true true).loader.active = false := by decide +kernel

theorem witness_WatchdogsResetCores :
    let h : State := { ready with cores := { ready.cores with warden := { ready.cores.warden with halted := true } } }
    let r : State := { ready with cores := { ready.cores with warden := { ready.cores.warden with restarting := true } } }
    coreRuns (coreState .warden ready) = true ∧ (coreState .warden ready).wdogPeriod ≠ 0 ∧ Core.docentA ≠ .warden ∧ Core.warden ≠ .curator
      ∧ coreRuns (coreState .warden h) = false ∧ (coreState .warden r).restarting = true := by decide +kernel

/-! ### Service calls -/

theorem witness_RepliesAreWritten :
    let s := called 0x0005#16 [] ready
    let h := called 0x0001#16 [] ready
    63 < 64 ∧ (List.replicate 7 (0 : QWord)).length ≤ 7 ∧ s.cores.calls.find? (fun c => c.slot = 63) = some ⟨63, 7, 0x0005#16, [], false⟩
      ∧ curatorServes 5 = false ∧ curatorServes 1 = true ∧ h.cores.calls.find? (fun c => c.slot = 63) ≠ none
      ∧ 0x1FFF < 0x1000 + 64 * 63 + 64 ∧ 0x1FBF < 0x1000 + 64 * 63 := by decide +kernel

theorem witness_ReportsAreGiven :
    let log : State := { ready with cores := { ready.cores with eventLog := [1, 2, 3] } }
    callOf 63 1 (called 1#16 [] ready) ≠ none ∧ ready.loader.skipped = [] ∧ callOf 63 3 (called 3#16 [8] ready) ≠ none
      ∧ (8 : QWord).toNat % 8 = 0 ∧ (9 : QWord).toNat % 8 ≠ 0 ∧ callOf 63 4 (called 4#16 [8] ready) ≠ none
      ∧ ready.link0.lanes.length = 32 ∧ ready.link1.lanes.length = 32 ∧ callOf 63 0x000E (called 0x000E#16 [8] ready) ≠ none
      ∧ callOf 63 8 (called 8#16 [] ready) ≠ none ∧ callOf 63 0x0016 (called 0x0016#16 [1, 2] log) ≠ none
      ∧ (2 : QWord).toNat ≤ 7 ∧ (1 : QWord).toNat + (2 : QWord).toNat ≤ log.cores.eventLog.length ∧ 7 < (8 : QWord).toNat
      ∧ log.cores.eventLog.length < (2 : QWord).toNat + (2 : QWord).toNat := by decide +kernel

theorem witness_KeysAreProvisionedOnce :
    let s : State := { ready with otp := { ready.otp with programmed := 8#4 } }
    callOf 63 2 (called 2#16 [3, 0, 0, 0, 0, 0] s) ≠ none ∧ 4 ≤ (4 : QWord).toNat ∧ (3 : QWord).toNat < 4
      ∧ s.otp.programmed.getLsbD 3 = true ∧ s.otp.programmed.getLsbD 0 = false := by decide +kernel

/-- A blob unwraps or does not: the provisioning key is the part's own. -/
theorem witness_KeysAreProvisionedOnce_blob (blob : List QWord) :
    keyUnwrap Config.provisioningKey blob = none ∨ ∃ key, keyUnwrap Config.provisioningKey blob = some key := by
  cases keyUnwrap Config.provisioningKey blob with
  | none => exact .inl rfl
  | some k => exact .inr ⟨k, rfl⟩

theorem witness_StateIsReadBack :
    let g : State := { ready with array := { ready.array with galleries := [(63, { powered := true })] } }
    let on : State := { ready with regs := { ready.regs with batchControl := 1 } }
    let d : State := { ready with otp := { ready.otp with readbackDis := true } }
    let stop : State := { ready with fabric := { ready.fabric with stopCapture := some (63, 7#16), stopB := true } }
    callOf 63 5 (called 5#16 [63, 3, 511, 1, 8] g) ≠ none ∧ stateTime on = false ∧ stateTime g = true ∧ stateTime d = true
      ∧ d.otp.readbackDis = true ∧ g.otp.readbackDis = false ∧ galleryAwake 63 g = true ∧ 1 ≤ (3 : QWord).toNat ∧ (3 : QWord).toNat ≤ 3
      ∧ (511 : QWord).toNat + (1 : QWord).toNat ≤ 512 ∧ (8 : QWord).toNat % 8 = 0 ∧ g.array.curDev = [] ∧ g.array.prevDev = []
      ∧ callOf 63 6 (called 6#16 [1] ready) ≠ none ∧ armed (poweredAt .standby 3) = false ∧ armed ready = true
      ∧ callOf 63 6 (called 6#16 [0] (poweredAt .standby 3)) ≠ none ∧ stop.fabric.stopCapture = some (63, 7#16)
      ∧ stop.fabric.stopB = true ∧ ready.fabric.stopA = false ∧ ready.fabric.stopB = false
      ∧ callOf 63 7 (called 7#16 [0x17FF, 1, 8] ready) ≠ none ∧ (0x17FF : QWord).toNat + (1 : QWord).toNat ≤ 0x1800
      ∧ callOf 63 7 (called 7#16 [0x2000, 1, 8] ready) ≠ none ∧ ready.fabric.capture = none := by decide +kernel

/-- The geometry of one site, 8 rows, 4 columns, one region bit, one spare row and one spare column, in its two fields. -/
def smallGeometry : List QWord := [0x0000000100030302#64, 0x0501010100000000#64]

theorem witness_RepairCalls :
    let l : State := { ready with variant := .l }
    let g := geometryOf (bytesOf 8 (smallGeometry.getD 0 0).toNat ++ bytesOf 8 (smallGeometry.getD 1 0).toNat)
    let s : State := { ready with repair := { ready.repair with geometry := some g }, batches := [{ egressBegun := true }] }
    hasRepair l = false ∧ callOf 63 9 (called 9#16 [] l) ≠ none ∧ callOf 63 0x000A (called 0x000A#16 [] l) ≠ none
      ∧ callOf 63 0x000B (called 0x000B#16 [] l) ≠ none ∧ callOf 63 0x000C (called 0x000C#16 [] l) ≠ none ∧ hasRepair s = true
      ∧ geometryOk g = true ∧ geometryReserved (bytesOf 8 (smallGeometry.getD 0 0).toNat ++ bytesOf 8 (smallGeometry.getD 1 0).toNat) = 0
      ∧ geometryOk { g with rowWidth := 21 } = false ∧ atBoundary s = false ∧ trackersConfigured s = 2
      ∧ callOf 63 9 (called 9#16 smallGeometry s) ≠ none
      ∧ callOf 63 0x000A (called 0x000A#16 [1, 2] s) ≠ none ∧ trackersConfigured s < 1 + 2 ∧ 1 + 1 ≤ trackersConfigured s
      ∧ callOf 63 0x000B (called 0x000B#16 [1, 1, 8] s) ≠ none := by decide +kernel

/-! ### Debug -/

/-- `ready` at a debug level. -/
def atLevel (l : BitVec 2) : State := { ready with regs := { ready.regs with debugLevel := l } }

theorem witness_ChallengesDrawNonces :
    let out : State := { ready with cores := { ready.cores with lockedOut := true } }
    out.cores.lockedOut = true ∧ ready.cores.lockedOut = false ∧ (2#2 : BitVec 2) ≠ 3#2 ∧ coreRuns State.reset.cores.curator = false
      ∧ State.reset.cores.lockedOut = false ∧ coreRuns ready.cores.curator = true
      ∧ callOf 63 0x0017 (called 0x0017#16 [2] ready) = some ⟨63, 7, 0x0017#16, [2], false⟩
      ∧ callOf 63 0x0017 (called 0x0017#16 [3] ready) = some ⟨63, 7, 0x0017#16, [3], false⟩ ∧ 2 < (3 : QWord).toNat
      ∧ (2 : QWord).toNat = (2#2 : BitVec 2).toNat ∧ callOf 63 0x0017 (called 0x0017#16 [2] out) ≠ none := by decide +kernel

/-- A state that holds a nonce, with a wrong token: the right one is the part's own. -/
theorem witness_ResponsesGrantOrCount (n : QWord) :
    ({ ready with cores := { ready.cores with nonce := some (n, 2#2) } } : State).cores.nonce = some (n, 2#2)
      ∧ (∃ token : QWord, token.toNat ≠ tokenFor n 2#2)
      ∧ callOf 63 0x0018 (called 0x0018#16 [5] ready) = some ⟨63, 7, 0x0018#16, [5], false⟩
      ∧ argOf ⟨63, 7, 0x0018#16, [5], false⟩ 0 = 5 := by
  refine ⟨rfl, ?_, by decide +kernel, by decide⟩
  by_cases h : tokenFor n 2#2 = 0
  · exact ⟨1, by rw [h]; decide⟩
  · exact ⟨0, fun e => h e.symm⟩

theorem witness_CommandsBelowTheirLevel : effectiveLevel (atLevel 0) < 1 ∧ effectiveLevel (atLevel 1) < 2 ∧ (1#16 : Word) &&& 0xF#16 ≠ 0 := by
  decide +kernel

theorem witness_DebugPortAccess :
    let h : State := { atLevel 2 with cores := { (atLevel 2).cores with warden := { (atLevel 2).cores.warden with halted := true } } }
    let d : State := { atLevel 2 with power := { (atLevel 2).power with field := .dormant } }
    let s : State := { atLevel 2 with store := { (atLevel 2).store with sleepingGroups := [] } }
    1 ≤ effectiveLevel (atLevel 2) ∧ spaceOk 0 63 2 = false ∧ spaceOk 4 0 1 = false ∧ spaceOk 1 2 1 = false ∧ 63 < 64 ∧ 0x1D < 63
      ∧ 0x19 < 0x1A ∧ spaceOk 3 0xC00FF 1 = true ∧ (coreState (coreAt (0xC00FF / 0x40000)) (atLevel 2)).halted = false
      ∧ spaceOk 2 0xFFFFFC 1 = true ∧ d.power.field = .dormant ∧ d.barrier.fieldSilent = false ∧ effectiveLevel (atLevel 2) = 2
      ∧ (coreState (coreAt (0xC00FF / 0x40000)) h).halted = true ∧ effectiveLevel h = 2 ∧ spaceOk 2 0xDFFFFC 1 = true
      ∧ fieldAwake s = true ∧ storeAsleep 0xDFFFFC 1 s = false ∧ inShadow 0xDFFFFC = false ∧ touchesShadow 0xDFFFFC 4 = false := by
  decide +kernel

theorem witness_CoresHaltAndRun :
    let h (n : Nat) : State := { atLevel 2 with cores := { (atLevel 2).cores with
      curator := { (atLevel 2).cores.curator with halted := true, cause := 1 }
      warden := { (atLevel 2).cores.warden with stepLeft := n } } }
    effectiveLevel (h 65535) = 2 ∧ (0xF#4 : BitVec 4).getLsbD (coreNum .warden) = true ∧ 65535 < 65536 ∧ 1 ≤ 65535
      ∧ (coreState .warden (h 0)).halted = false ∧ (coreState .curator (h 0)).halted = true ∧ Core.docentA ≠ .curator
      ∧ coreRuns (coreState .warden (h 0)) = true ∧ effectiveLevel (atLevel 1) ≠ 2 ∧ (coreState .warden (h 65535)).stepLeft ≠ 0
      ∧ 1 ≤ effectiveLevel (atLevel 1) := by decide +kernel

theorem witness_CrossTriggers :
    let s : State := { atLevel 2 with
      fabric := { (atLevel 2).fabric with userOut := 0x8000#16 }
      cores := { (atLevel 2).cores with
        channels := lset (atLevel 2).cores.channels 7 ⟨0x00200000#32, 0x8#16, 0⟩
        curator := { (atLevel 2).cores.curator with halted := true } } }
    effectiveLevel s = 2 ∧ 7 < 8 ∧ s.cores.channels.length = 8 ∧ 0 ≠ 7 ∧ (lget {} s.cores.channels 7).sources.getLsbD 21 = true
      ∧ sourceOn (lget {} s.cores.channels 7) 21 s = true ∧ (lget {} s.cores.channels 7).sinks.getLsbD (coreNum .warden) = true
      ∧ (coreState .curator s).halted = true ∧ (lget {} s.cores.channels 7).sources.getLsbD 25 = false := by decide +kernel

theorem witness_TraceFlows :
    let s : State := { atLevel 1 with cores := { (atLevel 1).cores with
      warden := { (atLevel 1).cores.warden with traceMask := 0x40000000#31 }
      curator := { (atLevel 1).cores.curator with halted := true } } }
    callOf 63 0x0019 (called 0x0019#16 [] (atLevel 0)) ≠ none ∧ effectiveLevel (atLevel 0) = 0 ∧ 1 ≤ effectiveLevel s
      ∧ callOf 63 0x0019 (called 0x0019#16 [0x7FFFFFFF, 0, 0, 0, 0] s) = none
      ∧ callOf 63 0x0019 (called 0x0019#16 [0x7FFFFFFF, 0, 0, 0, 0] (atLevel 1))
        = some ⟨63, 7, 0x0019#16, [0x7FFFFFFF, 0, 0, 0, 0], false⟩
      ∧ argOf ⟨63, 7, 0x0019#16, [0x7FFFFFFF, 0, 0, 0, 0], false⟩ 4 = 0
      ∧ (∀ k, k < 4 → (argOf ⟨63, 7, 0x0019#16, [0x7FFFFFFF, 0, 0, 0, 0], false⟩ k).toNat < 2 ^ 31)
      ∧ coreRuns (coreState .warden s) = true ∧ 30 < 31 ∧ (coreState .warden s).traceMask.getLsbD 30 = true ∧ s.cores.traceToRing = false
      ∧ s.cores.traceDropped = 0 ∧ (coreState .curator s).halted = true ∧ (coreState .warden s).traceMask.getLsbD 0 = false
      ∧ 1 ≤ 16 ∧ 16 ≤ 16 := by decide +kernel

/-- Whether a trace packet finds space is a free value of the part: one of the two holds. -/
theorem witness_TraceFlows_space (n : Nat) : Config.traceFull n = false ∨ Config.traceFull n = true := by
  cases Config.traceFull n <;> simp

theorem witness_WireAndReset :
    let hold (b : Bool) : State := { atLevel 2 with cores := { (atLevel 2).cores with resetHold := true, haltOnReset := b } }
    crc8 (bitsMsb (8 * 1) (ofBytes [0x01#8])) ≠ 0 ∧ crc8 (bitsMsb (8 * 1) (ofBytes [0x01#8])) < 256 ∧ effectiveLevel (atLevel 1) ≠ 2
      ∧ effectiveLevel (hold false) = 2 ∧ (hold false).cores.resetHold = true ∧ (1#8 : Byte).getLsbD 0 = true
      ∧ (hold true).cores.haltOnReset = true ∧ (hold false).cores.haltOnReset = false := by decide +kernel

/-! ### The spec's worked examples -/

/-- The comparator of the chapter on the Boolean processor: its eight instructions and the words that the spec assembles them into. -/
theorem test_comparator_words :
    [0x70000C4000000000#64, 0x70000C4200000000#64, 0x70000C4400000000#64, 0x70000C4600000000#64, 0x1842100000401003#64,
        0x20F0000881B00600#64, 0x3731000000401003#64, 0xF000000000000000#64].map decodeBp
      = [⟨.stim, 0, 0x620, 0, 0, 0⟩, ⟨.stim, 0, 0x621, 0, 0, 0⟩, ⟨.stim, 0, 0x622, 0, 0, 0⟩, ⟨.stim, 0, 0x623, 0, 0, 0⟩,
        ⟨.eval, 0x8421, 0, 1, 2, 3⟩, ⟨.evalExport, 0x0F00, 4, 0x206, 0x600, 0x600⟩, ⟨.evalCommit, 0x7310, 0, 1, 2, 3⟩,
        ⟨.endOp, 0, 0, 0, 0, 0⟩] := by decide

/-- Each opcode of R75, its number written out in bits [63:60]. -/
theorem test_opcodes : (List.range 16).map (fun k => (decodeBp (BitVec.ofNat 64 (k * 2 ^ 60))).op)
    = [.nop, .eval, .evalExport, .evalCommit, .evalCommitExport, .send, .meshSend, .stim, .eval3, .eval3Commit, .reserved 0, .reserved 1,
      .reserved 2, .reserved 3, .reserved 4, .endOp] := by decide

/-- The same example: eq, y and gt of both passes. -/
theorem test_comparator_values : evalTT 0x8421 0x0009 0x000A 0x000C 0x000F = 0xFFFA ∧ evalTT 0x8421 0x0003 0x0006 0x0005 0x0000 = 0xFFF9
    ∧ evalTT 0x0F00 0xFFFA 0x0000 0 0 = 0xFFFA ∧ evalTT 0x0F00 0xFFF9 0x0001 0 0 = 0xFFF8
    ∧ evalTT 0x7310 0x0009 0x000A 0x000C 0x000F = 0x0001 ∧ evalTT 0x7310 0x0003 0x0006 0x0005 0x0000 = 0x0002 := by decide +kernel

/-- One step of it: EVAL of the four operand words in BP 17's place writes eq to current word 4. -/
theorem test_eval_step :
    let s : State := { inPass [0, 0, 0, 0, 0x1842100000401003#64] with array := { (inPass [0, 0, 0, 0, 0x1842100000401003#64]).array with
      cur := (List.range 4).zip [0x0009#16, 0x000A#16, 0x000C#16, 0x000F#16] |>.map (fun e => (255 * 512 + e.1, e.2))
      curValid := [255 * 128], step := 4 } }
    (match exec (.eval 0 255 4) s with | .next t => stateValue false 255 4 t | _ => 0) = 0xFFFA := by decide +kernel

/-- Three-valued AND of 0, 1, X and X with X, 0, 0 and 1 (R96): pairs from lane 0 up. -/
theorem test_eval3 : eval3TT 0xF000 0x0061 0x006A 0 0 = 0x0062 := by decide +kernel

/-- The Catalogue entry of the register chapter's example, and its third and fourth data words. -/
theorem test_catalogue_entry :
    let e := 0x84A8130230000000#64
    catValid e = true ∧ catSite e = 37 ∧ catRole e = 2 ∧ catLink e = .f0 ∧ catLane e = 1 ∧ catSlot e = 6 ∧ catPort e = 70
      ∧ e = entryOf 37 2 0 1 6 70 := by decide

/-- The same example's write of TABLE_DATA_D: the entry stands in the shadow, and nothing is in force yet. -/
theorem test_catalogue_staged :
    let s := setView .cb { view .cb State.reset with select := 1, index := 70, latch := 0x84A8130230000000#64 } State.reset
    (match exec (.tableEntryWrite .cb 3 0 false) s with | .next t => (tget 0 t.shadow.catalogue 70, t.inForce.catalogue) | _ => (0, []))
      = (0x84A8130230000000#64, []) := by decide +kernel

/-- The same entry with FPORT = 2,100 is refused with REASON 0x06 (R625). -/
theorem test_catalogue_refused : refusal { State.reset.shadow with catalogue := [(70, entryOf 37 2 0 1 6 2100)], sites := 64 } State.reset = 6
    ∧ refusal { State.reset.shadow with catalogue := [(70, entryOf 37 2 0 1 6 70)], sites := 37 } State.reset = 6
    ∧ refusal { State.reset.shadow with catalogue := [(70, entryOf 37 2 0 1 6 70)], sites := 64 } State.reset = 0 := by decide +kernel

/-- The compare-fail record of the chapter on fail records: site 6, channel 38, PATTERN 129, row 165, cycle 4,000, SEQ 77. -/
theorem test_compare_record :
    let b : Batch := { d := { firstPattern := 129 }, egressBegun := true }
    let s : State := { ready with power := { ready.power with fclk := 4000 } }
    (compareRecord ⟨b, 0, 165⟩ 6 38 false true false s).bits + 77 = 0x00181301000000810000A50FA000004D#128 := by decide +kernel

/-- The memory fail-address record of the Repair Analyser's example: MA 0x0004_0000, group 1, bit 4, channel 788, SEQ 40. -/
theorem test_memory_record :
    let s : State := { ready with fabric := { ready.fabric with ma := List.replicate 4 0x40000#40 } }
    (memRecord ⟨{}, 3, 0⟩ 12 788 1 0x10 s).bits + 40 = 0x60318A00000400000013000010000028#128 := by decide +kernel

/-- The Repair Analyser's example: nine fails of one region with SR = SC = 2. -/
theorem test_repair_example :
    let t := [(0x0100, 5), (0x0100, 9), (0x0100, 5), (0x0100, 20), (0x0233, 7), (0x0415, 7), (0x0500, 7), (0x0100, 30), (0x0777, 40)].foldl
      (fun t f => mustRepair 2 2 f.1 f.2 t) ({} : Tracker)
    t.mustRows = [0x0100] ∧ t.mustCols = [7] ∧ t.sparse = [(0x0777, 40)] ∧ t.fails = 9 ∧ t.unrepairable = false := by decide

/-- The three lanes of the alignment example: RT, s, RPAD and D. -/
theorem test_alignment_example :
    let d : Record := BitVec.ofNat 128 (24 * 2 ^ 64 + 3 * 2 ^ 48 + 8 * 2 ^ 34 + 16 * 2 ^ 26)
    let ls := [alignLane .f0 0 (41 * 64 + 32) d ready, alignLane .f0 1 (45 * 64) d ready, alignLane .f1 2 (38 * 64 + 48) d ready]
    ls.map (fun x => x.rt) = [46, 50, 43] ∧ ls.map (fun x => x.s64) = [9 * 64 + 16, 11 * 64, 7 * 64 + 56] ∧ wireMax ls = 11
      ∧ maxRt ls + 1 = 51 ∧ ls.map (rpadOf ls) = [4, 0, 7] ∧ ls.map (delayOf ls) = [64 + 48, 0, 3 * 64 + 8]
      ∧ ls.all (fun x => !beyondLimits ls x) = true := by decide +kernel

/-- SCLK_ACT at 1.2 GHz: 42 at throttle level 1, 24 at level 3 (R536). -/
theorem test_sclk_act :
    let s (l : Nat) : State := { ready with
      power := { ready.power with clkInForce := 0x1840#16 }
      regs := { ready.regs with clkStatus := 0x8000#16 }
      survey := { ready.survey with level := l } }
    sclkAct (s 0) = 48 ∧ sclkAct (s 1) = 42 ∧ sclkAct (s 3) = 24 := by decide +kernel

/-- The barrier example: lane 16 takes lane 5's position in the dealing order. -/
theorem test_lane_spared :
    (match exec (.spareReq .hostToField 5) trained with | .next t => (t.barrier.toField.active.getD 5 0, t.barrier.toField.spares) | _ => (0, []))
      = (16, [17]) := by decide +kernel

/-- Check values of the three CRCs over the bytes of 123456789 (the codes' published check values, for the parameters that R125, R258
and R408 name). -/
theorem test_crcs :
    let bs : List Byte := [0x31, 0x32, 0x33, 0x34, 0x35, 0x36, 0x37, 0x38, 0x39]
    crc32c bs = 0xE3069283 ∧ crc16 (bitsMsb 72 (ofBytes bs)) = 0x29B1 ∧ crc8 (bitsMsb 72 (ofBytes bs)) = 0xF4 := by decide +kernel

/-- A block that idles stays as it is. -/
theorem test_idle : step State.reset = .next State.reset := rfl

/-- No row of the table gives bits. -/
theorem test_no_words : decodeTableWord 64 0xF000000000000000 = none := rfl

end Sys2Proof.Tests
end

section
/-! PROOF. Registers: what a write changes (O11), what a window's read and write change (O14), what the command fields do to an awake and to
a Dormant field side (O16), and the control fields of the host register file (O17). -/

namespace Sys2Proof.Machine

/-! ### What every write does besides: the key sequences it ends, and the cell it sends to an awake field side (R51, R444, R594) -/

theorem view_setView_eq_ite (m : Master) (v : MasterView) (s : State) :
    view m (setView m v s) = if masterNum m < s.masters.length then v else {} := by
  by_cases h : masterNum m < s.masters.length
  · simp [view, setView, h]
  · simp [view, setView, lget, lset, h]

/-- A master's write leaves its own table registers and latch as they are. -/
theorem view_dropKeys (m : Master) (s : State) :
    view m (dropKeys m s) = { view m s with lockPrev := false, pinKeyPhase := 0 } := by
  by_cases h : masterNum m < s.masters.length
  · simp [dropKeys, view_setView_eq_ite, h]
  · have hv : view m s = {} := by simp [view, lget, h]
    rw [dropKeys, view_setView_eq_ite, if_neg h, hv]

theorem wrote_shape (m : Master) (a : Nat) (d : Word) (s : State) :
    wrote m a d s = { s with masters := (dropKeys m s).masters, barrier := (forwardWrite m a d s).barrier } := by
  unfold wrote forwardWrite
  split <;> rfl

@[simp] theorem wrote_fields (m : Master) (a : Nat) (d : Word) (s : State) :
    (wrote m a d s).variant = s.variant ∧ (wrote m a d s).regs = s.regs ∧ (wrote m a d s).shadow = s.shadow
    ∧ (wrote m a d s).inForce = s.inForce ∧ (wrote m a d s).pendingSet = s.pendingSet ∧ (wrote m a d s).crossReads = s.crossReads
    ∧ (wrote m a d s).nextTag = s.nextTag ∧ (wrote m a d s).fieldCopy = s.fieldCopy ∧ (wrote m a d s).heldCommands = s.heldCommands
    ∧ (wrote m a d s).stream = s.stream ∧ (wrote m a d s).hostOut = s.hostOut
    ∧ (wrote m a d s).loader = s.loader ∧ (wrote m a d s).released = s.released ∧ (wrote m a d s).params = s.params
    ∧ (wrote m a d s).imageId = s.imageId ∧ (wrote m a d s).otp = s.otp ∧ (wrote m a d s).otpRequest = s.otpRequest
    ∧ (wrote m a d s).array = s.array ∧ (wrote m a d s).batches = s.batches ∧ (wrote m a d s).fetchStopped = s.fetchStopped
    ∧ (wrote m a d s).history = s.history ∧ (wrote m a d s).anyBatch = s.anyBatch ∧ (wrote m a d s).lastBatch = s.lastBatch
    ∧ (wrote m a d s).egress = s.egress ∧ (wrote m a d s).unload = s.unload ∧ (wrote m a d s).fabric = s.fabric
    ∧ (wrote m a d s).link0 = s.link0 ∧ (wrote m a d s).link1 = s.link1 ∧ (wrote m a d s).coffset = s.coffset
    ∧ (wrote m a d s).alignDue = s.alignDue ∧ (wrote m a d s).delaysDue = s.delaysDue ∧ (wrote m a d s).ledger0 = s.ledger0
    ∧ (wrote m a d s).ledger1 = s.ledger1 ∧ (wrote m a d s).repair = s.repair ∧ (wrote m a d s).twin = s.twin
    ∧ (wrote m a d s).survey = s.survey ∧ (wrote m a d s).conservator = s.conservator ∧ (wrote m a d s).protection = s.protection
    ∧ (wrote m a d s).store = s.store ∧ (wrote m a d s).power = s.power ∧ (wrote m a d s).cores = s.cores
    ∧ (wrote m a d s).pins = s.pins ∧ (wrote m a d s).pending = s.pending := by
  rw [wrote_shape]; and_intros <;> rfl

theorem view_wrote (m : Master) (a : Nat) (d : Word) (s : State) :
    view m (wrote m a d s) = { view m s with lockPrev := false, pinKeyPhase := 0 } := by
  rw [← view_dropKeys, wrote_shape]; rfl

/-- An event changes EVENT_STATUS and what the host is told (R610, R626). -/
theorem setEvent_shape (b : Nat) (s : State) :
    setEvent b s = { s with regs := (setEvent b s).regs, hostOut := (setEvent b s).hostOut } := by
  unfold setEvent; dsimp only; split <;> rfl

/-! ### Writes of the register file (R18, R604, R612, R615) -/

/-- A register that no field unit uses and that is no key register and no doorbell. -/
def hostOnly (a : Nat) : Bool := !fieldRegister a && decide (woMask a = 0) && a ≠ 0x16 && a ≠ 0x34 && a ≠ 0x36

theorem fileWrite_hostOnly (m : Master) (a : Nat) (data : Word) (s : State) (h : hostOnly a = true) :
    fileWrite m a data s = writeReg m a data (dropKeys m s) := by
  simp only [hostOnly, Bool.and_eq_true, Bool.not_eq_true', decide_eq_true_eq] at h
  obtain ⟨⟨⟨⟨hf, hw⟩, h16⟩, h34⟩, h36⟩ := h
  simp [fileWrite, writeCommands, hf, hw, h16, h34, h36]

theorem exec_registerWrite_file (m : Master) (a : BitVec 6) (data : Word) (s : State) :
    exec (.registerWrite m (.file a data 3) false) s = .next (fileWrite m a.toNat data s) := by
  simp [exec, execRegisterWrite, registerWrite, collided]

/-- A whole write of a register that no field unit uses reaches the register and ends the master's key sequences. -/
theorem exec_registerWrite_hostOnly (m : Master) (a : BitVec 6) (data : Word) (s : State) (h : hostOnly a.toNat = true) :
    exec (.registerWrite m (.file a data 3) false) s = .next (writeReg m a.toNat data (dropKeys m s)) := by
  rw [exec_registerWrite_file, fileWrite_hostOnly m _ data s h]

theorem registerWriteTakesEffect : Claims.RegisterWriteTakesEffect := by
  intro m data s
  refine ⟨?_, ?_, ?_, ?_, ?_, ?_⟩ <;> exact exec_registerWrite_hostOnly m _ data s (by decide)

theorem areaWriteTakesEffect : Claims.AreaWriteTakesEffect := by
  intro v b off s hoff
  refine ⟨rfl, ?_, ?_⟩
  · have htake : [b].take (0x100 - off) = [b] := List.take_of_length_le (by simp; omega)
    simp [exec, execRegisterWrite, registerWrite, putMsix, htake, putMailbox]
  · intro m hm
    have htake : [b].take (0x4000 - off) = [b] := List.take_of_length_le (by simp; omega)
    rcases hm with rfl | rfl <;> simp [exec, execRegisterWrite, registerWrite, putMailboxBytes, htake, putMailbox]

/-! ### A lost PCI Express write (R612) -/

theorem collide_shape (a : Nat) (table : Bool) (s : State) :
    collide a table s = { s with
      regs := { s.regs with busCollision := (collide a table s).regs.busCollision, eventStatus := (collide a table s).regs.eventStatus }
      hostOut := (collide a table s).hostOut } := by
  unfold collide
  rw [setEvent_shape]
  simp

theorem collide_eventSet (a : Nat) (table : Bool) (s : State) : eventSet evCollision (collide a table s) := by
  simp [eventSet, collide, evCollision]

/-- BUS_COLLISION keeps the first collision recorded. -/
theorem collide_busCollision (a : Nat) (table : Bool) (s : State) :
    (collide a table s).regs.busCollision = if s.regs.busCollision.getLsbD 15 then s.regs.busCollision
      else BitVec.ofNat 16 (0x8000 + table.toNat * 0x4000 + a % 64) := by
  simp [collide]

/-- A recorded collision is valid and names the address of the register or table word (R612). -/
theorem collisionWord_fields (a : Nat) (table : Bool) :
    (BitVec.ofNat 16 (0x8000 + table.toNat * 0x4000 + a % 64)).getLsbD 15 = true
    ∧ fld (BitVec.ofNat 16 (0x8000 + table.toNat * 0x4000 + a % 64)) 13 0 = a % 64 := by
  have ha : a % 64 < 64 := Nat.mod_lt _ (by norm_num)
  generalize a % 64 = r at ha
  constructor
  · cases table <;> (simp [BitVec.getLsbD, Nat.testBit, Nat.shiftRight_eq_div_pow]; omega)
  · cases table <;> (simp [fld]; omega)

/-- The bus's own write of a collision, of a register that no field unit uses, takes effect before the collision is recorded. -/
theorem exec_registerWrite_cb_lost (a : BitVec 6) (data : Word) (s : State) (h : hostOnly a.toNat = true) :
    exec (.registerWrite .cb (.file a data 3) true) s
      = .next (collide a.toNat (decide (0x1A ≤ a.toNat) && decide (a.toNat ≤ 0x1D)) (writeReg .cb a.toNat data (dropKeys .cb s))) := by
  simp [exec, execRegisterWrite, registerWrite, collided, fileWrite_hostOnly _ _ _ _ h]

theorem exec_registerWrite_pcie_lost (a : BitVec 6) (data : Word) (s : State) :
    exec (.registerWrite .pcie (.file a data 3) true) s
      = .next (collide a.toNat (decide (0x1A ≤ a.toNat) && decide (a.toNat ≤ 0x1D)) s) := rfl

theorem lostWritesAreDiscarded : Claims.LostWritesAreDiscarded := by
  intro addr data be s
  refine ⟨?_, ?_, ?_⟩
  · intro hbe
    simp [exec, execRegisterWrite, registerWrite, hbe]
  · obtain ⟨hvalid, haddr⟩ := collisionWord_fields addr.toNat (decide (0x1A ≤ addr.toNat) && decide (addr.toNat ≤ 0x1D))
    refine ⟨_, exec_registerWrite_pcie_lost addr data s, ?_, collide_eventSet _ _ _, ?_, ?_, collide_shape _ _ _⟩
    · rw [collide_busCollision]
      split
      · assumption
      · exact hvalid
    · intro hfree
      rw [collide_busCollision, if_neg (by rw [hfree]; exact Bool.false_ne_true), haddr, Nat.mod_eq_of_lt addr.isLt]
    · intro htaken
      rw [collide_busCollision, if_pos htaken]
  · refine ⟨_, exec_registerWrite_cb_lost 0x38 data s (by decide), ?_, collide_eventSet _ _ _⟩
    rw [collide_shape]
    rfl

/-- Settles O11: a write of a register that no field unit uses is `writeReg` after the key sequences end, and a lost one is `collide`. -/
theorem registerWrites : Obligations.RegisterWrites :=
  ⟨registerWriteTakesEffect, areaWriteTakesEffect, lostWritesAreDiscarded⟩

/-! ### Writes of a table window (R268, R635) -/

theorem exec_tableEntryWrite (m : Master) (k : Nat) (data : Word) (s : State) (hk : k < 4) :
    exec (.tableEntryWrite m k data false) s = .next (writeTable m k data (wrote m (0x1A + k) data s)) := by
  simp [exec, execTableEntryWrite, collided, hk]

/-- The latch of a master after a write of data register `k`. -/
def latchedWrite (k : Nat) (data : Word) (v : MasterView) : MasterView :=
  { v with latch := setFld v.latch (63 - 16 * k) (48 - 16 * k) data.toNat, latchValid := true }

/-- A write of a data register before an entry's last one changes the latch alone. -/
theorem writeTable_before_last (m : Master) (k : Nat) (data : Word) (s : State)
    (hi : (view m s).index.toNat < windowEntries (view m s).select.toNat)
    (ha : entryAbsent (view m s).select.toNat (view m s).index.toNat s = false)
    (hk : k + 1 < windowRegs (view m s).select.toNat) :
    writeTable m k data s = setView m (latchedWrite k data (view m s)) s := by
  have hk' : ¬ windowRegs (view m s).select.toNat ≤ k := by omega
  simp [writeTable, latchedWrite, Nat.not_le.2 hi, ha, hk', Nat.ne_of_lt hk]

/-- A write of an entry's last data register writes the whole latch; besides, it changes only the masters' table registers. -/
theorem writeTable_last (m : Master) (k : Nat) (data : Word) (s : State)
    (hi : (view m s).index.toNat < windowEntries (view m s).select.toNat)
    (ha : entryAbsent (view m s).select.toNat (view m s).index.toNat s = false)
    (hk : k + 1 = windowRegs (view m s).select.toNat) :
    writeTable m k data s
      = { writeEntry m (view m s).select.toNat (view m s).index.toNat (latchedWrite k data (view m s)).latch
            (setView m (latchedWrite k data (view m s)) s) with masters := (writeTable m k data s).masters } := by
  have hk' : ¬ windowRegs (view m s).select.toNat ≤ k := by omega
  simp only [writeTable, latchedWrite, Nat.not_le.2 hi, ha, hk', hk, if_true, if_false, decide_false, Bool.or_self,
    Bool.false_eq_true]
  split <;> rfl

/-- A Catalogue entry is staged, with its bits [3:0] kept 0. -/
theorem writeEntry_catalogue (m : Master) (i : Nat) (e : QWord) (s : State) (hi : i < 2048) :
    writeEntry m 1 i e s = { s with
      masters := (writeEntry m 1 i e s).masters
      shadow := { s.shadow with catalogue := tset 0 s.shadow.catalogue i (setFld e 3 0 0) } } := by
  simp only [writeEntry, if_neg (show i ≠ 2048 by omega)]
  rfl

theorem catalogueEntryWrite : Claims.CatalogueEntryWrite := by
  intro m data s v hsel hidx
  have hw : ∀ k, view m (wrote m (0x1A + k) data s) = { v with lockPrev := false, pinKeyPhase := 0 } := fun k => view_wrote m _ data s
  have hs : v.select.toNat = 1 := by rw [hsel]; rfl
  have hin : v.index.toNat < windowEntries v.select.toNat := by rw [hs]; exact Nat.lt_succ_of_lt hidx
  have hregs : windowRegs v.select.toNat = 4 := by rw [hs]; rfl
  have hthere : ∀ t, entryAbsent v.select.toNat v.index.toNat t = false := fun t => by simp [entryAbsent, hs]
  constructor
  · refine ⟨_, exec_tableEntryWrite m 3 data s (by norm_num), ?_⟩
    rw [writeTable_last m 3 data _ (by rw [hw]; exact hin) (by rw [hw]; exact hthere _) (by rw [hw]; exact hregs.symm), hw]
    simp only [hs]
    rw [writeEntry_catalogue m _ _ _ hidx]
    simp [latchedWrite]
  · intro k hk
    rw [exec_tableEntryWrite m k data s (by omega),
      writeTable_before_last m k data _ (by rw [hw]; exact hin) (by rw [hw]; exact hthere _) (by rw [hw, hregs]; omega)]
    dsimp only [latchedWrite]
    rw [hw]

/-! ### The Correction Log (R20, R465) -/

theorem foldl_staleLatches_shape (w : Nat) (is : List Nat) (s : State) :
    is.foldl (fun s i => staleLatches w i s) s = { s with masters := (is.foldl (fun s i => staleLatches w i s) s).masters } := by
  induction is generalizing s with
  | nil => rfl
  | cons i is ih => exact ih (staleLatches w i s)

theorem exec_correctionLogPop (m : Master) (s : State) (h : fieldAwake s = true) :
    exec (.correctionLogPop m) s = .next (popLog m s) := by
  simp [exec, execCorrectionLogPop, h]

theorem correctionLogPops : Claims.CorrectionLogPops := by
  intro m s hawake hsel hidx
  rw [exec_correctionLogPop m s hawake]
  constructor
  · intro hpeek
    have hpop : popLog m s = { s with
        masters := (popLog m s).masters, protection := { s.protection with log := s.protection.log.drop 1 } } := by
      simp only [popLog, hsel, hidx, hpeek, decide_true, Bool.not_false, Bool.and_self, if_true]
      exact foldl_staleLatches_shape 2 _ _
    exact ⟨_, rfl, by rw [hpop], hpop⟩
  · intro hpeek
    simp [popLog, hpeek]

/-! ### Reads that the field side does not answer (R57) -/

theorem failRead_readData (m : Master) (s : State) (h : fiveMasters s) : (view m (failRead m s)).readData = 0 := by
  have hview : ∀ t : State, view m (setFault fcFieldUnavailable t) = view m t := fun t => by simp [view]
  rw [failRead, hview, view_setView]
  exact h

theorem failRead_faultSet (m : Master) (s : State) : faultSet fcFieldUnavailable (failRead m s) :=
  setFault_bit _ _ (by simp [faultAbsent, fcFieldUnavailable, fcMeshError, fcMeshMismatch, fcMeshTimeout]) (by decide)

/-- A REG_REPLY with a STATUS other than 0 ends the read that waits for it without an answer. -/
theorem exec_regReply_refused (tag data : Word) (status : Byte) (r : CrossRead) (s : State)
    (hr : s.crossReads.find? (fun r => r.tag = tag) = some r) (hst : status ≠ 0) :
    exec (.regReply tag data status) s = .next (failRead r.master (popDir .fieldToHost 0x03 s)) := by
  simp only [exec, execRegReply, popDir, setBarrierDir_fields, hr, if_pos hst]

theorem unansweredReadReturnsZero : Claims.UnansweredReadReturnsZero := by
  intro m s hfive hwaits
  constructor
  · refine ⟨failRead m s, ?_, failRead_readData m s hfive, failRead_faultSet m s⟩
    simp only [exec, execRegReadTimeout, hwaits, if_true]
  · rintro r tag data hr rfl
    exact ⟨_, exec_regReply_refused tag data 1 r s hr (by decide), failRead_readData _ _ (by simpa [fiveMasters, popDir] using hfive),
      failRead_faultSet _ _⟩

/-! ### Reads of staged fields (R271, R621) -/

/-- A one-bit field at bit `n` of a number, below the higher fields and above the lower ones. -/
theorem testBit_of_fields (hi r m n : Nat) (b : Bool) (hm : n < m) (hr : r < 2 ^ n) :
    (hi * 2 ^ m + (b.toNat * 2 ^ n + r)).testBit n = b := by
  obtain ⟨k, rfl⟩ := Nat.exists_eq_add_of_lt hm
  have h : hi * 2 ^ (n + k + 1) + (b.toNat * 2 ^ n + r) = 2 ^ n * (2 * (hi * 2 ^ k) + b.toNat) + r := by ring
  rw [h, Nat.testBit_two_pow_mul_add _ hr, if_neg (lt_irrefl n), Nat.sub_self]
  cases b <;> simp

theorem windowEntry_catalogue (v : MasterView) (i : Nat) (s : State) (hi : i < 2048) : windowEntry v 1 i s = catalogueRead v i s := by
  have hin : ¬ windowEntries 1 ≤ i := Nat.not_le.2 (Nat.lt_succ_of_lt hi)
  simp [windowEntry, hin, entryAbsent, Nat.ne_of_lt hi]

theorem windowEntry_sites (v : MasterView) (s : State) : windowEntry v 1 2048 s = (viewSet v s).sites.setWidth 64 := rfl

theorem windowEntry_gallery (v : MasterView) (g : Nat) (s : State) (hg : g < galleryCount s) :
    windowEntry v 6 g s = galleryRead v g s := by
  have h64 : galleryCount s ≤ 64 := by unfold galleryCount; split <;> norm_num
  have hin : ¬ windowEntries 6 ≤ g := Nat.not_le.2 (lt_of_lt_of_le hg h64)
  simp [windowEntry, hin, entryAbsent, hg]

theorem windowEntry_partner (v : MasterView) (i : Nat) (s : State) (hi : i < 512) : windowEntry v 7 i s = partnerRead v i s := by
  have hin : ¬ windowEntries 7 ≤ i := Nat.not_le.2 (lt_trans hi (by decide))
  simp [windowEntry, hin, entryAbsent, hi, show i < 528 by omega]

/-- The ENABLE bit of a Gallery descriptor is the one in the set that the read shows. -/
theorem galleryRead_enable (v : MasterView) (g : Nat) (s : State) :
    (galleryRead v g s).getLsbD 53 = (viewSet v s).galleryEn.getLsbD g := by
  unfold galleryRead
  generalize gallery g s = d
  have hp := Bool.toNat_le (!d.powered)
  have ha := Bool.toNat_le d.asleepValid
  have hi := Bool.toNat_le d.illegalValid
  rw [BitVec.getLsbD_ofNat]
  simp only [Nat.add_assoc]
  rw [testBit_of_fields _ _ _ _ _ (by norm_num) (by omega)]
  rfl

/-- LANE_EN of a lane in a staged set. -/
def laneEnShown (q : StagedSet) (l : FLink) (i : Nat) : Bool :=
  match l with | .f0 => q.laneEnF0.getLsbD i | .f1 => q.laneEnF1.getLsbD i

theorem laneRead_state (v : MasterView) (l : FLink) (i : Nat) (s : State) :
    laneRead v l i 2 s = BitVec.ofNat 64 ((laneEnShown (viewSet v s) l i).toNat * 2 ^ 63 + laneCode (lane l i s).state * 2 ^ 60
      + (lane l i s).rpad % 256 * 2 ^ 52 + (lane l i s).echo64 / 64 % 2 ^ 14 * 2 ^ 38 + (lane l i s).echo64 % 64 * 2 ^ 32) := by
  cases l <;> rfl

theorem laneCode_le (x : LaneState) : laneCode x ≤ 5 := by cases x <;> decide

/-- The ENABLE bit of a lane's record is the one in the set that the read shows. -/
theorem laneRead_enable (v : MasterView) (l : FLink) (i : Nat) (s : State) :
    (laneRead v l i 2 s).getLsbD 63 = laneEnShown (viewSet v s) l i := by
  rw [laneRead_state]
  generalize lane l i s = x
  have hc := laneCode_le x.state
  rw [BitVec.getLsbD_ofNat]
  simp only [Nat.add_assoc]
  rw [← Nat.zero_add (_ + _), ← Nat.zero_mul (2 ^ 64), testBit_of_fields _ _ _ _ _ (by norm_num) (by omega)]
  rfl

/-- Only the delay fields, bits 26 to 13, of a Catalogue entry read may be measured ones. -/
theorem catalogueRead_bit (v : MasterView) (i b : Nat) (s : State) (hb : b < 13 ∨ 26 < b) :
    (catalogueRead v i s).getLsbD b = (tget 0 (viewSet v s).catalogue i).getLsbD b := by
  unfold catalogueRead
  dsimp only
  split
  · rfl
  · rw [getLsbD_setFld _ _ _ _ _ (by norm_num), if_neg (by omega), getLsbD_setFld _ _ _ _ _ (by norm_num), if_neg (by omega)]

theorem catalogueRead_staged (v : MasterView) (i : Nat) (s : State) (hv : v.viewStaged = true) :
    catalogueRead v i s = tget 0 (viewSet v s).catalogue i := by
  simp [catalogueRead, hv]

theorem twinControl_enable (v : MasterView) (s : State) : (twinControl v s).getLsbD 0 = (viewSet v s).twinEnable := by
  rw [twinControl, getLsbD_setBit, if_neg (by decide), getLsbD_setBit, if_pos rfl]
  simp

/-- The entry of a lane's third data word lies in its record. -/
theorem partnerRead_lane (v : MasterView) (i : Nat) (s : State) (hi : i < 32) :
    partnerRead v (8 * i + 2) s = laneRead v .f0 i 2 s ∧ partnerRead v (256 + 8 * i + 2) s = laneRead v .f1 i 2 s := by
  have hr0 : (8 * i + 2) / 8 = i := by omega
  have he0 : (8 * i + 2) % 8 = 2 := by omega
  have hr1 : (256 + 8 * i + 2) / 8 = 32 + i := by omega
  have he1 : (256 + 8 * i + 2) % 8 = 2 := by omega
  constructor
  · simp [partnerRead, hr0, he0, hi]
  · simp [partnerRead, hr1, he1, show 32 + i < 64 by omega]

theorem readsShowStagedOnRequest : Claims.ReadsShowStagedOnRequest := by
  intro v s q
  refine ⟨rfl, rfl, rfl, rfl, ?_, ?_, rfl, ?_, ?_⟩
  · intro htwin
    have hreg : regValue v 0x26 s = twinControl v s := by simp [regValue, htwin]
    rw [hreg]
    exact twinControl_enable v s
  · intro g hg
    rw [windowEntry_gallery v g s hg]
    exact galleryRead_enable v g s
  · intro i hi
    rw [windowEntry_catalogue v i s hi]
    exact ⟨catalogueRead_staged v i s, fun b => catalogueRead_bit v i b s⟩
  · intro i hi
    obtain ⟨hf0, hf1⟩ := partnerRead_lane v i s hi
    rw [windowEntry_partner v _ s (by omega), windowEntry_partner v _ s (by omega), hf0, hf1]
    exact ⟨laneRead_enable v .f0 i s, laneRead_enable v .f1 i s⟩

/-- Settles O14: a whole entry is written by its last data register, and a read shows the set that VIEW_STAGED names. -/
theorem windowContents : Obligations.WindowContents :=
  ⟨catalogueEntryWrite, correctionLogPops, readsShowStagedOnRequest, unansweredReadReturnsZero⟩

/-! ### Command fields of an awake field side (R18, R51) -/

theorem fieldCommand_awake (m : Master) (a : Nat) (d : Word) (f : State → State) (s : State) (h : fieldAwake s = true) :
    fieldCommand m a d f s = f (wrote m a d s) := by
  simp [fieldCommand, h]

/-- RESUME of FAIL_CONTROL resumes both Docents, so a stop ends (R173, R205). -/
theorem resumeEgress_of_stopped (s : State) (h : s.egress.stopped = true) :
    resumeEgress s = { s with egress := { s.egress with
      stopped := false, stopA := false, stopB := false, resumedA := false, resumedB := false } } := by
  have hall : allResumed (noteResume true true s) = true := by
    simp only [allResumed, noteResume]
    cases s.egress.stopA <;> cases s.egress.stopB <;> simp
  have hstop : (noteResume true true s).egress.stopped = true := h
  rw [resumeEgress, endStop, hstop, hall]
  rfl

/-- A link whose RETRAIN bit is written (R264, R282, R386). -/
def retrainRequested (k : FieldLink) : FieldLink :=
  { k with
    retrainDue := true, fullDue := k.fullDue || k.fallback, fallback := false
    lanes := k.lanes.map (fun x => { x with failedByDecision := false, stopRetry := false }) }

theorem requestRetrain_of_named (l : FLink) (s : State) (h : linkNamed l s = true) :
    requestRetrain l s = setFlink l (retrainRequested (flink l s)) s := by
  have hk : ∀ v, linkNamed l (setFlink l v s) = true := fun v => by simpa [linkNamed] using h
  simp [requestRetrain, retrainLink, h, hk, retrainRequested]

/-- A link whose re-measurement is due for a reason. -/
def measureDue (code : Nat) (k : FieldLink) : FieldLink :=
  { k with remeasureDue := true, remeasureCode := code, remeasureHeld := none }

/-- The survey unit measures, and SURVEY_STATUS says so. -/
def noteMeasuring (s : State) : State :=
  { s with
    survey := { s.survey with measuring := true }
    regs := { s.regs with surveyStatus := setBit s.regs.surveyStatus 3 true } }

/-- A re-measurement that no HOLD withholds falls due on a link that is up and has none due (R388). -/
theorem remeasureDue_cases (l : FLink) (code : Nat) (s : State) (h : surveyHold s = false) :
    (remeasureDue l code s = s ∧ (linkState l s < 2 ∨ (flink l s).remeasureDue = true))
    ∨ remeasureDue l code s = noteMeasuring (setFlink l (measureDue code (flink l s)) s) := by
  by_cases hskip : (decide (linkState l s < 2) || (flink l s).remeasureDue) = true
  · exact .inl ⟨by simp only [remeasureDue, if_pos hskip], by simpa using hskip⟩
  · refine .inr ?_
    simp only [remeasureDue, if_neg hskip, h, Bool.false_eq_true, if_false]
    rfl

theorem linkState_remeasureDue (k l : FLink) (code : Nat) (s : State) (h : surveyHold s = false) :
    linkState k (remeasureDue l code s) = linkState k s ∧ surveyHold (remeasureDue l code s) = surveyHold s := by
  rcases remeasureDue_cases l code s h with ⟨hs, -⟩ | hs <;> rw [hs]
  · exact ⟨rfl, rfl⟩
  · constructor <;> simp [linkState, surveyHold, noteMeasuring]

/-- It is due afterwards on a link that is up. -/
theorem remeasureDue_due (l : FLink) (code : Nat) (s : State) (h : surveyHold s = false) (hup : 2 ≤ linkState l s) :
    (flink l (remeasureDue l code s)).remeasureDue = true := by
  rcases remeasureDue_cases l code s h with ⟨hs, hlow | hdue⟩ | hs
  · omega
  · rw [hs, hdue]
  · rw [hs]
    cases l <;> rfl

/-- A re-measurement that is due stays due. -/
theorem remeasureDue_keeps_due (k l : FLink) (code : Nat) (s : State) (h : surveyHold s = false)
    (hk : (flink k s).remeasureDue = true) : (flink k (remeasureDue l code s)).remeasureDue = true := by
  rcases remeasureDue_cases l code s h with ⟨hs, -⟩ | hs
  · rw [hs, hk]
  · rw [hs]
    cases l <;> cases k
    · rfl
    · exact hk
    · exact hk
    · rfl

/-- REMEASURE makes a re-measurement due on every link that is up. -/
theorem requestRemeasure_due (l : FLink) (s : State) (h : surveyHold s = false) (hup : 2 ≤ linkState l s) :
    (flink l (requestRemeasure s)).remeasureDue = true := by
  obtain ⟨hup1, hhold⟩ := linkState_remeasureDue l .f0 8 s h
  rw [h] at hhold
  cases l with
  | f0 => exact remeasureDue_keeps_due .f0 .f1 8 _ hhold (remeasureDue_due .f0 8 s h hup)
  | f1 => exact remeasureDue_due .f1 8 _ hhold (by rw [hup1]; exact hup)

theorem commandFieldsAct : Claims.CommandFieldsAct := by
  intro m s hawake
  have acts : ∀ a d f, (.next (fieldCommand m a d f s) : Host.Outcome State Fault Refusal) = .next (f (wrote m a d s)) :=
    fun a d f => congrArg _ (fieldCommand_awake m a d f s hawake)
  refine ⟨acts _ _ _, ?_, ?_, ?_, ?_, ?_, ?_, ?_, ?_, ?_⟩
  · intro hfrozen
    refine (acts _ _ _).trans ?_
    simp only [releaseFreeze, wrote_fields, hfrozen, if_true]
  · intro hfree
    refine (acts _ _ _).trans ?_
    simp only [releaseFreeze, wrote_fields, hfree, Bool.false_eq_true, if_false]
  · intro hstopped
    refine ⟨_, acts _ _ _, ?_⟩
    rw [resumeEgress_of_stopped _ (by simpa using hstopped)]
    simp
  · intro l hnamed
    refine ⟨_, acts _ _ _, ?_⟩
    rw [requestRetrain_of_named l _ (by simpa [linkNamed] using hnamed), flink_setFlink, flink_setFlink_other]
    refine ⟨rfl, rfl, ?_⟩
    cases l <;> simp [flink, otherLink]
  · intro hhold
    refine ⟨_, acts _ _ _, fun l hup => requestRemeasure_due l _ ?_ ?_⟩
    · simpa [surveyHold] using hhold
    · simpa [linkState] using hup
  · intro htwin
    refine (acts _ _ _).trans ?_
    simp [requestDetach, show hasTwin (wrote _ _ _ s) = true by simpa [hasTwin] using htwin]
  · intro hloaded hidle
    refine ⟨_, acts _ _ _, ?_⟩
    have hl : ∀ a d, loaded (wrote m a d s) = true := fun a d => by simpa [loaded] using hloaded
    simp [requestRestart, hl, hidle, restartConservator, putScrubBit]
  · refine (acts _ _ _).trans ?_
    simp [clearCounts]
  · refine (acts _ _ _).trans ?_
    simp [clearLog]

/-! ### Command fields of a Dormant field side (R54) -/

/-- A wake's cause changes WAKE_CAUSE, EVENT_STATUS and what the host is told (R527, R610). -/
theorem setWakeCause_shape (b : Nat) (s : State) :
    setWakeCause b s = { s with
      regs := { s.regs with
        wakeCause := s.regs.wakeCause ||| BitVec.twoPow 16 b, eventStatus := (setWakeCause b s).regs.eventStatus }
      hostOut := (setWakeCause b s).hostOut } := by
  unfold setWakeCause
  dsimp only
  split
  · rfl
  · rw [setEvent_shape]
    simp

theorem fieldCommand_dormant (m : Master) (a : Nat) (d : Word) (f : State → State) (s : State)
    (hd : s.power.field = .dormant) (hs : s.barrier.fieldSilent = false) :
    fieldCommand m a d f s = dropKeys m (holdCommand m (BitVec.ofNat 6 a) d s) := by
  have hasleep : fieldAwake s = false := by simp [fieldAwake, hd]
  simp [fieldCommand, hasleep, hd, hs]

theorem commandFieldsWakeADormantSide : Claims.CommandFieldsWakeADormantSide := by
  intro m c s hd hs hc
  have held : ∃ (a : BitVec 6) (d : Word), exec c s = .next (dropKeys m (holdCommand m a d s)) := by
    simp only [List.mem_cons, List.not_mem_nil, or_false] at hc
    rcases hc with rfl | rfl | rfl | rfl | rfl | rfl | rfl | rfl | rfl | rfl <;>
      exact ⟨_, _, congrArg Host.Outcome.next (fieldCommand_dormant m _ _ _ s hd hs)⟩
  obtain ⟨a, d, hexec⟩ := held
  refine ⟨_, (m, a, d), hexec, ?_⟩
  rw [holdCommand, setWakeCause_shape]
  refine ⟨rfl, rfl, rfl, ?_, rfl⟩
  simp

/-- Settles O16: an awake field side performs a command field after the write has crossed; a Dormant one holds it and is woken. -/
theorem commandFields : Obligations.CommandFields :=
  ⟨commandFieldsAct, commandFieldsWakeADormantSide⟩

/-! ### Control fields of the host register file (R147, R486, R521, R558) -/

theorem holdPins_shape (is : List Nat) (s : State) : holdPins is s = { s with pins := (holdPins is s).pins } := by
  have key : ∀ (f : Nat → Pin) (js : List Nat) (t : State),
      js.foldl (fun t i => setPin i (f i) t) t = { t with pins := (js.foldl (fun t i => setPin i (f i) t) t).pins } := by
    intro f js
    induction js with
    | nil => exact fun _ => rfl
    | cons j js ih => exact fun t => ih (setPin j (f j) t)
  exact key _ is s

/-- The host die enters Dormant from Standby only with its PCI Express link down (R521). -/
theorem hostSleep_of_standby (s : State) (h : s.power.host = .standby) :
    (hostSleep true s).power.host = .dormant ∧ (hostSleep true s).regs = s.regs := by
  simp only [hostSleep, h, decide_true, Bool.and_self, if_true]
  exact ⟨trivial, by rw [holdPins_shape]⟩

/-- A fall of LEVEL: it takes the lower value (R558). -/
theorem writeLevel_of_lower (v : BitVec 2) (s : State) (hv : v ≠ 3#2) (hlow : v.toNat < s.regs.debugLevel.toNat) :
    (writeLevel v s).regs.debugLevel = v := by
  rw [writeLevel, if_neg hv, if_pos hlow]
  simp [putLevel]

/-- CHECK_TEST sets only under the unlock, and the unlock ends when it clears (R486). -/
theorem checkTest_setCheckTest (v : Bool) (s : State) :
    checkTest (setCheckTest v s) = (if v then s.protection.unlocked || checkTest s else false)
    ∧ (setCheckTest v s).protection.unlocked = (v && s.protection.unlocked) := by
  cases v
  · simp [setCheckTest, checkTest, putUnlock, putScrubBit, -BitVec.getLsbD_eq_getElem, getLsbD_setBit]
  · cases hu : s.protection.unlocked
    · simp [setCheckTest, hu]
    · simp [setCheckTest, hu, checkTest, -BitVec.getLsbD_eq_getElem, getLsbD_setBit]

theorem setCheckTest_true_protection (s : State) : (setCheckTest true s).protection = s.protection := by
  simp only [setCheckTest, if_true]
  split <;> rfl

theorem controlFieldsAct : Claims.ControlFieldsAct := by
  intro m v s
  refine ⟨⟨_, rfl, ?_⟩, ?_, ?_, ⟨_, rfl, ?_⟩, ?_, ?_, ?_, ?_, ⟨_, rfl, ?_⟩⟩
  · simp [putRun, refreshEndOfTest]
  · intro hu
    refine ⟨_, rfl, ?_, ?_⟩
    · simp [checkTest_setCheckTest, hu]
    · simp [setCheckTest_true_protection]
  · intro hu
    refine ⟨_, rfl, ?_⟩
    rw [(checkTest_setCheckTest true _).1]
    simp [hu, checkTest]
  · simpa using checkTest_setCheckTest false _
  · intro level hl hlow
    exact ⟨_, rfl, writeLevel_of_lower level _ hl (by simpa using hlow)⟩
  · intro level hl hhigh
    simp [exec, execDebugLevel, writeLevel, hl, Nat.not_lt.2 hhigh]
  · simp [exec, execDebugLevel, writeLevel]
  · intro hstandby
    obtain ⟨hdormant, hregs⟩ :=
      hostSleep_of_standby (wrote m 0x05 (s.regs.pwrRequest ||| 0x100) s) (by simpa using hstandby)
    exact ⟨_, rfl, hdormant, by rw [hregs]; simp⟩
  · simp [hostSleep]

/-! ### PWR_REQUEST.FIELD (R16, R525) -/

/-- But for the cause of a wake, a write of FIELD leaves what its register takes, and no power state changes (R525, R527). -/
theorem requestField_keeps_putRequest (v : Nat) (s : State) :
    (requestField v s).regs.pwrRequest = (putRequest v s).regs.pwrRequest ∧ (requestField v s).power = s.power
    ∧ ∀ code, faultBit code (requestField v s).regs = faultBit code (putRequest v s).regs := by
  have hpower : (putRequest v s).power = s.power := by
    unfold putRequest; dsimp only; split <;> simp
  unfold requestField
  dsimp only
  split
  · rw [setWakeCause_shape]
    exact ⟨rfl, hpower, fun _ => rfl⟩
  · exact ⟨rfl, hpower, fun _ => rfl⟩

theorem putRequest_defined (v : Nat) (s : State) (h1 : 1 ≤ v) (h3 : v ≤ 3) : fld (putRequest v s).regs.pwrRequest 2 0 = v := by
  simp only [putRequest, h1, h3, decide_true, Bool.and_self, if_true]
  rw [fld_setFld _ _ _ _ (by norm_num) (by norm_num)]
  exact Nat.mod_eq_of_lt (by omega)

/-- A reserved value leaves the reset value and is reported. -/
theorem putRequest_reserved (v : Nat) (s : State) (h : ¬ (1 ≤ v ∧ v ≤ 3)) :
    fld (putRequest v s).regs.pwrRequest 2 0 = 3 ∧ faultSet fcReservedWrite (putRequest v s) := by
  have hv : (decide (1 ≤ v) && decide (v ≤ 3)) = false := by simpa using h
  simp only [putRequest, hv, Bool.false_eq_true, if_false]
  constructor
  · simp only [setFault_regs]
    exact fld_setFld _ _ _ _ (by norm_num) (by norm_num)
  · exact setFault_bit _ _ (by simp [faultAbsent, fcReservedWrite, fcMeshError, fcMeshMismatch, fcMeshTimeout]) (by decide)

theorem powerRequestTakesItsValue : Claims.PowerRequestTakesItsValue := by
  intro m v s
  constructor
  · intro h1 h3
    refine ⟨_, rfl, ?_⟩
    obtain ⟨hreq, hpow, -⟩ := requestField_keeps_putRequest v.toNat (wrote m 0x05 (setFld s.regs.pwrRequest 2 0 v.toNat) s)
    rw [hreq, hpow]
    exact ⟨putRequest_defined _ _ h1 h3, by simp⟩
  · intro hv
    have hres : ¬ (1 ≤ v.toNat ∧ v.toNat ≤ 3) := by rcases hv with rfl | hv <;> simp; omega
    refine ⟨_, rfl, ?_⟩
    obtain ⟨hreq, hpow, hfault⟩ := requestField_keeps_putRequest v.toNat (wrote m 0x05 (setFld s.regs.pwrRequest 2 0 v.toNat) s)
    obtain ⟨hreset, hset⟩ := putRequest_reserved v.toNat (wrote m 0x05 (setFld s.regs.pwrRequest 2 0 v.toNat) s) hres
    rw [hreq, hpow, faultSet, hfault]
    exact ⟨hreset, hset, by simp⟩

/-! ### Resets of the cores (R572, R574, R575) -/

theorem coreState_of_cores {s t : State} (h : t.cores = s.cores) (k : Core) : coreState k t = coreState k s := by
  cases k <;> simp [coreState, h]

theorem lapseLease_cores (s : State) : (lapseLease s).cores = s.cores := by
  unfold lapseLease; dsimp only; split <;> simp

/-- The twin's role, token and time marks reach no core. -/
theorem leaveLockstep_cores (code : Nat) (s : State) : (leaveLockstep code s).cores = s.cores := by
  have role : ∀ t : State, (setRole .outOfLockstep t).cores = t.cores := fun t => by unfold setRole; split <;> simp
  have mark : ∀ (c : Nat) (t : State), (roleMark c t).cores = t.cores := fun c t => by simp [roleMark, timeMarks, wait]
  have status : ∀ t : State, (setTwinStatus 5 t).cores = t.cores := fun t => by
    unfold setTwinStatus; split <;> [rfl; (dsimp only; split <;> simp)]
  have hand : ∀ t : State, (handOver t).cores = t.cores := fun t => by
    unfold handOver; split <;> simp [lapseLease_cores, mark, sendTwin]
  have event : ∀ t : State, (fieldEventFree evTwin t).cores = t.cores := fun t => by
    simp [fieldEventFree, fieldEvent]
  unfold leaveLockstep
  split
  · rw [hand]
    split <;> simp [mark, event, status, role]
  · rfl

theorem coreState_writeReply (k : Core) (slot : Nat) (tag : Word) (result : Nat) (data : List QWord) (s : State) :
    coreState k (writeReply slot tag result data s) = coreState k s := by
  unfold writeReply
  split
  · exact coreState_of_cores (by simp [sendReply]) k
  · cases k <;> simp only [coreState, msix_fields]

/-- A core that a reset leaves: at its reset vector, restarting, not halted. -/
def freshCore (x : CoreState) : CoreState :=
  { x with halted := false, cause := 0, atReset := true, restarting := true, stepLeft := 0 }

/-- A reset reaches its own core alone. -/
theorem coreState_resetCore (c k : Core) (s : State) :
    coreState k (resetCore c s) = coreState k (setCore c (freshCore (coreState c s)) s) := by
  cases c with
  | curator =>
    have answered : ∀ (qs : List QueuedCall) (t : State),
        coreState k (qs.foldl (fun s q => writeReply q.slot q.tag resRestarted [] s) t) = coreState k t := by
      intro qs
      induction qs with
      | nil => exact fun _ => rfl
      | cons q qs ih => exact fun t => (ih _).trans (coreState_writeReply k _ _ _ _ t)
    have emptied : ∀ t : State, coreState k (putLoad { t with cores := { t.cores with calls := [] } }) = coreState k t :=
      fun t => by cases k <;> simp only [coreState, putLoad]
    unfold resetCore
    dsimp only
    rw [emptied, answered]
    rfl
  | docentA => rfl
  | docentB => rfl
  | warden => exact coreState_of_cores ((leaveLockstep_cores 0 _).trans (lapseLease_cores _)) k

/-- A core resets: it restarts and is not halted. -/
def resetting (c : Core) (s : State) : Prop := (coreState c s).restarting = true ∧ (coreState c s).halted = false

theorem resetCore_resetting (c : Core) (s : State) : resetting c (resetCore c s) := by
  rw [resetting, coreState_resetCore, coreState_setCore]
  exact ⟨rfl, rfl⟩

theorem resetCore_keeps_resetting (c k : Core) (s : State) (h : resetting k s) : resetting k (resetCore c s) := by
  by_cases hk : k = c
  · subst hk
    exact resetCore_resetting k s
  · rw [resetting, coreState_resetCore, coreState_setCore_ne c k _ s hk]
    exact h

/-- Every core of a list resets when each is reset in turn. -/
theorem foldl_resetCore_resetting (cs : List Core) (c : Core) (s : State) (h : c ∈ cs ∨ resetting c s) :
    resetting c (cs.foldl (fun s c => resetCore c s) s) := by
  induction cs generalizing s with
  | nil => exact h.resolve_left List.not_mem_nil
  | cons k ks ih =>
    refine ih _ ?_
    rcases h with h | h
    · rcases List.mem_cons.1 h with rfl | h
      · exact .inr (resetCore_resetting c s)
      · exact .inl h
    · exact .inr (resetCore_keeps_resetting k c s h)

theorem mem_coresOf (mask : BitVec 4) (c : Core) : c ∈ coresOf mask ↔ mask.getLsbD (coreNum c) = true := by
  cases c <;> simp [coresOf, allCores]

/-! ### Keyed writes of WDOG_KICK, and the alert (R572, R574) -/

theorem kick_without_key (key : Byte) (alertClr : Bool) (cores : BitVec 4) (s : State) (h : key ≠ 0x4B#8) :
    kick key alertClr cores s = setFault fcReservedWrite s := by
  rw [kick, if_pos h]

theorem kick_alertClr (s : State) : kick 0x4B#8 true 0 s = { s with cores := { s.cores with alert := false } } := by
  simp [kick, coresOf]

theorem kick_restart (cores : BitVec 4) (s : State) : kick 0x4B#8 false cores s
    = if effectiveLevel s = 2 then (coresOf cores).foldl (fun s c => resetCore c s) s else s := by
  simp [kick]

theorem effectiveLevel_dropKeys (m : Master) (s : State) : effectiveLevel (dropKeys m s) = effectiveLevel s := rfl

theorem keyedKickActs : Claims.KeyedKickActs := by
  intro m key cores s
  refine ⟨congrArg Host.Outcome.next (kick_alertClr (dropKeys m s)), ?_, ?_, ?_⟩
  · intro hfull
    refine ⟨_, rfl, fun c hc => ?_⟩
    rw [kick_restart, effectiveLevel_dropKeys, if_pos hfull]
    exact foldl_resetCore_resetting _ c _ (.inl ((mem_coresOf cores c).2 hc))
  · intro hlow
    refine congrArg Host.Outcome.next ?_
    rw [kick_restart, effectiveLevel_dropKeys, if_neg (Nat.ne_of_lt hlow)]
  · intro hkey
    have ignored : ∀ a c t, (.next (kick key a c t) : Host.Outcome State Fault Refusal) = .next (setFault fcReservedWrite t) :=
      fun a c t => congrArg _ (kick_without_key key a c t hkey)
    exact ⟨ignored _ _ _, ignored _ _ _⟩

theorem curatorExpiryAlerts : Claims.CuratorExpiryAlerts := by
  constructor
  · intro s hruns hperiod
    have hexpires : (coreRuns (coreState .curator s) && decide ((coreState .curator s).wdogPeriod ≠ 0)) = true := by
      simp [coreState, hruns, hperiod]
    simp only [exec, execWatchdogExpiry, hexpires, if_true]
    exact ⟨_, rfl, rfl, by simp [cbIntLow]⟩
  · intro m s
    exact ⟨_, congrArg Host.Outcome.next (kick_alertClr (dropKeys m s)), rfl⟩

/-- Settles O17: each control field is one shared operation, and a keyed restart resets the named cores one after the other. -/
theorem controlFields : Obligations.ControlFields :=
  ⟨controlFieldsAct, powerRequestTakesItsValue, keyedKickActs, curatorExpiryAlerts⟩

end Sys2Proof.Machine
end

section
/-! PROOF. The Docents and the array phase of a batch (O35): a descriptor's fetch, the issue, the stimulus, the burst and its passes. -/

namespace Sys2Proof.Machine

/-! ### Cells on their way to the host (R40, R42, R58, R627) -/

/-- The cells that the field side has sent and the host has not acknowledged, and those that wait to be sent. -/
def cellsToHost (s : State) : List Msg := s.barrier.toHost.unacked.map (fun c => c.msg) ++ s.barrier.toHost.waiting

/-- No cell on its way to the host in `s` is missing in `t`. -/
def cellsKept (s t : State) : Prop := ∀ m, (cellsToHost s).count m ≤ (cellsToHost t).count m

theorem cellsKept_of_barrier {s t : State} (h : t.barrier = s.barrier) : cellsKept s t := fun m => by
  simp [cellsToHost, h]

theorem cellsKept.trans {s t u : State} (h : cellsKept s t) (k : cellsKept t u) : cellsKept s u := fun m => (h m).trans (k m)

/-- A message sent is one more cell, numbered at once or waiting. -/
theorem cellsToHost_sendMsg (typ n v : Nat) (s : State) :
    (cellsToHost (sendMsg .fieldToHost typ n v s)).Perm (⟨BitVec.ofNat 8 typ, BitVec.ofNat 8 n, payloadOf n v⟩ :: cellsToHost s) := by
  simp only [cellsToHost, sendMsg, dirSend]
  split
  · simp
  · rw [← List.append_assoc]
    exact List.perm_append_singleton _ _

theorem cellsKept_raiseField (ev fault unit detail : Nat) (s : State) : cellsKept s (raiseField ev fault unit detail s) := fun m => by
  rw [raiseField, (cellsToHost_sendMsg _ _ _ s).count_eq]
  exact List.count_le_count_cons

/-- The fields of a payload of seven bytes, which stand left-aligned in the 52 (R37). -/
theorem payloadOf_field (v lo k : Nat) (h : lo + k ≤ 56) :
    ((payloadOf 7 v).extractLsb' (360 + lo) k).toNat = v / 2 ^ lo % 2 ^ k := by
  apply Nat.eq_of_testBit_eq
  intro i
  simp only [payloadOf, BitVec.extractLsb'_toNat, BitVec.toNat_ofNat, Nat.testBit_mod_two_pow, Nat.testBit_shiftRight,
    Nat.testBit_shiftLeft, Nat.testBit_div_two_pow]
  by_cases hi : i < k
  · simp [hi, show 360 + lo + i < 416 by omega, show 8 * (52 - 7) ≤ 360 + lo + i by omega,
      show 360 + lo + i - 8 * (52 - 7) = i + lo by omega]
  · simp [hi]

/-- An EVENT cell carries CODE in its first two bytes and DETAIL in its last four (R627). -/
theorem eventSent_raiseField (ev fault unit detail : Nat) (s t : State) (hev : ev < 256) (hfault : fault < 256) (hunit : unit < 256)
    (hdetail : detail < 2 ^ 32) (hkept : cellsKept s t) : eventSent ev fault detail s (raiseField ev fault unit detail t) := by
  refine ⟨⟨7#8, 7#8, payloadOf 7 (((ev * 256 + fault) * 256 + unit) * 2 ^ 32 + detail % 2 ^ 32)⟩, ?_, rfl, ?_, ?_⟩
  · refine (Nat.lt_succ_of_le (hkept _)).trans_eq ?_
    exact (List.count_cons_self ..).symm.trans ((cellsToHost_sendMsg _ _ _ t).count_eq _).symm
  · rw [payloadOf_field _ 40 16 (by norm_num)]
    omega
  · rw [payloadOf_field _ 0 32 (by norm_num)]
    omega

theorem faultEventFree_eventSent (code : Nat) (s t : State) (hcode : code < 256) (hkept : cellsKept s t) :
    eventSent evFault code (Config.eventDetail code).toNat s (faultEventFree code t) :=
  eventSent_raiseField _ _ _ _ _ _ (by decide) hcode (Config.eventUnit code).isLt (Config.eventDetail code).isLt
    (hkept.trans (cellsKept_of_barrier (by simp)))

theorem faultEventFree_faultSet (code : Nat) (s : State) (h : faultAbsent code s = false) (hc : code < 48) :
    faultSet code (faultEventFree code s) := by
  simpa [faultSet, faultEventFree, faultEvent] using setFault_bit code s h hc

/-! ### What reads of Common Store leave alone (R457, R458) -/

@[simp] theorem faultEventFree_keeps (code : Nat) (s : State) :
    (faultEventFree code s).batches = s.batches ∧ (faultEventFree code s).array = s.array
    ∧ (faultEventFree code s).ledger0 = s.ledger0 ∧ (faultEventFree code s).ledger1 = s.ledger1
    ∧ (faultEventFree code s).fetchStopped = s.fetchStopped := by
  simp [faultEventFree, faultEvent]

@[simp] theorem setScrubStatus_keeps (b : Nat) (s : State) :
    (setScrubStatus b s).batches = s.batches ∧ (setScrubStatus b s).array = s.array
    ∧ (setScrubStatus b s).ledger0 = s.ledger0 ∧ (setScrubStatus b s).ledger1 = s.ledger1
    ∧ (setScrubStatus b s).barrier = s.barrier := by
  unfold setScrubStatus
  dsimp only
  split <;> simp

@[simp] theorem countError_keeps (store cls loc bytes : Nat) (s : State) :
    (countError store cls loc bytes s).batches = s.batches ∧ (countError store cls loc bytes s).array = s.array
    ∧ (countError store cls loc bytes s).ledger0 = s.ledger0 ∧ (countError store cls loc bytes s).ledger1 = s.ledger1
    ∧ (countError store cls loc bytes s).barrier = s.barrier := by
  simp only [countError, markFault_fields]
  split <;> simp

@[simp] theorem csReadCount_keeps (a : Nat) (s : State) :
    (csReadCount a s).batches = s.batches ∧ (csReadCount a s).array = s.array
    ∧ (csReadCount a s).ledger0 = s.ledger0 ∧ (csReadCount a s).ledger1 = s.ledger1 ∧ (csReadCount a s).barrier = s.barrier := by
  unfold csReadCount
  split <;> simp

@[simp] theorem csReadEffects_keeps (a n : Nat) (s : State) :
    (csReadEffects a n s).batches = s.batches ∧ (csReadEffects a n s).array = s.array
    ∧ (csReadEffects a n s).ledger0 = s.ledger0 ∧ (csReadEffects a n s).ledger1 = s.ledger1 := by
  induction n generalizing a s with
  | zero => simp [csReadEffects]
  | succ n ih =>
    rw [csReadEffects]
    simp only [ih, csReadEffect]
    split <;> simp

/-- A read's own fault may send an event; no cell is lost. -/
theorem cellsKept_csReadEffects (a n : Nat) (s : State) : cellsKept s (csReadEffects a n s) := by
  induction n generalizing a s with
  | zero => exact cellsKept_of_barrier rfl
  | succ n ih =>
    refine cellsKept.trans ?_ (ih (a + 1) (csReadEffect a s))
    unfold csReadEffect
    split
    · exact (cellsKept_of_barrier (by simp)).trans (cellsKept_raiseField _ _ _ _ _)
    · exact cellsKept_of_barrier (by simp)

/-! ### Causes of indeterminate verdicts: the batches in hand but for their causes (R290) -/

/-- A batch but for the causes that make its verdicts indeterminate. -/
def forgetCauses (b : Batch) : Batch := { b with causes := [] }

/-- The batches in hand but for their causes. -/
def causeless (s : State) : List Batch := s.batches.map forgetCauses

theorem causeless_setFault (code : Nat) (s : State) : causeless (setFault code s) = causeless s := by simp [causeless]

theorem wait_keeps (l : FLink) (rs : List QRec) (s : State) :
    (wait l rs s).batches = s.batches ∧ (wait l rs s).array = s.array ∧ (wait l rs s).store = s.store := by
  simp [wait]

@[simp] theorem addCause_causeless (n : DWord) (cause site : Nat) (s : State) :
    causeless (addCause n cause site s) = causeless s ∧ (addCause n cause site s).array = s.array := by
  unfold addCause
  split
  · exact ⟨rfl, rfl⟩
  · dsimp only
    split
    · exact ⟨rfl, rfl⟩
    · refine ⟨?_, by simp [wait_keeps]⟩
      simp only [causeless, markFault_fields, wait_keeps, modBatch, List.map_map]
      refine List.map_congr_left fun x _ => ?_
      simp only [Function.comp_apply]
      split <;> rfl

@[simp] theorem addCauses_causeless (n : DWord) (cause : Nat) (sites : List Nat) (s : State) :
    causeless (addCauses n cause sites s) = causeless s ∧ (addCauses n cause sites s).array = s.array := by
  unfold addCauses
  induction sites generalizing s with
  | nil => exact ⟨rfl, rfl⟩
  | cons x xs ih => simpa using ih (addCause n cause x s)

@[simp] theorem indetAll_causeless (n : DWord) (cause : Nat) (s : State) :
    causeless (indetAll n cause s) = causeless s ∧ (indetAll n cause s).array = s.array := addCauses_causeless _ _ _ _

@[simp] theorem indetNow_causeless (cause : Nat) (s : State) :
    causeless (indetNow cause s) = causeless s ∧ (indetNow cause s).array = s.array := by
  unfold indetNow
  split <;> simp

/-- The lanes that are out when a batch is issued change its causes alone (R281). -/
theorem lostAtIssue_causeless (n : DWord) (s : State) : causeless (lostAtIssue n s) = causeless s := by
  have lanes : ∀ (l : FLink) (is : List Nat) (s : State), causeless (is.foldl (fun s i =>
      if laneOut (lane l i s) then addCauses n 9 (laneSites l i s) s else s) s) = causeless s := by
    intro l is
    induction is with
    | nil => exact fun _ => rfl
    | cons i is ih =>
      intro s
      rw [List.foldl_cons, ih]
      split <;> simp
  simp only [lostAtIssue, List.foldl_cons, List.foldl_nil, lanes]

/-- A batch in hand stays in hand, but for its causes. -/
theorem exists_mem_of_causeless {s t : State} (h : causeless t = causeless s) {b : Batch} (hb : b ∈ s.batches) :
    ∃ b' ∈ t.batches, forgetCauses b' = forgetCauses b :=
  List.mem_map.1 (h ▸ List.mem_map_of_mem hb : forgetCauses b ∈ causeless t)

theorem findBatch_isSome_of_causeless {s t : State} (h : causeless t = causeless s) (n : DWord) :
    (findBatch n t).isSome = (findBatch n s).isSome := by
  have key : ∀ u : State, (findBatch n u).isSome = ((causeless u).find? (fun b => b.d.batch = n)).isSome := fun u => by
    rw [causeless, List.find?_map]
    exact Option.isSome_map.symm
  rw [key, key, h]

/-! ### Descriptors (R141 to R143, R608) -/

theorem csUe_add (a m n : Nat) (st : Store) : csUe a (m + n) st = (csUe a m st || csUe (a + m) n st) := by
  induction m generalizing a with
  | zero => simp [csUe]
  | succ m ih => rw [Nat.succ_add, csUe, csUe, ih, Bool.or_assoc, Nat.add_right_comm, Nat.add_assoc]

theorem exec_descriptorFetch (s : State) (h : mayFetch s = true) : exec .descriptorFetch s = .next (fetchDescriptor s) := by
  simp [exec, execDescriptorFetch, h]

/-- A readable descriptor whose number is in sequence is taken, after the effects of its read. -/
theorem fetchDescriptor_of_readable (s : State) :
    let a := ringEntryAddr s.stream.brFetch s
    let d := descriptorOf (BitVec.ofNat 256 (rawNat a 32 s.store))
    csUe a 32 s.store = false → (s.anyBatch = true ∨ d.batch = s.lastBatch + 1) →
    fetchDescriptor s = takeBatch d false (csReadEffects a 32 s) := by
  intro a d hue hnum
  obtain ⟨h4, h28⟩ : csUe a 4 s.store = false ∧ csUe (a + 4) 28 s.store = false := by
    simpa [csUe_add a 4 28] using hue
  have hseq : (!s.anyBatch && decide (d.batch ≠ s.lastBatch + 1)) = false := by
    rcases hnum with h | h <;> simp [h]
  simp only [a, d] at h4 h28 hseq
  simp only [fetchDescriptor, h4, h28, hseq, Bool.false_eq_true, if_false]
  rfl

/-- A descriptor whose number breaks the sequence stops the fetch, after the effects of its read. -/
theorem fetchDescriptor_of_bad_number (s : State) :
    let a := ringEntryAddr s.stream.brFetch s
    csUe a 4 s.store = false → s.anyBatch = false →
    (descriptorOf (BitVec.ofNat 256 (rawNat a 32 s.store))).batch ≠ s.lastBatch + 1 →
    fetchDescriptor s = badDescriptor (csReadEffects a 32 s) := by
  intro a h4 hany hnum
  simp only [a] at h4 hnum
  simp only [fetchDescriptor, h4, hany, decide_eq_true hnum, Bool.not_false, Bool.and_self, Bool.false_eq_true, if_false, if_true]
  rfl

/-- A descriptor that R144 allows becomes the last batch in hand. -/
theorem takeBatch_of_wellFormed (d : Descriptor) (s : State)
    (h : d.patterns = 0 ∨ malformedFields d (s.inForce.mode.toNat % 4) s = false) :
    ∃ b, (takeBatch d false s).batches = s.batches ++ [b] ∧ b.d = d ∧ b.malformed = false ∧ b.burstBegun = false
      ∧ (takeBatch d false s).stream = { s.stream with brFetch := s.stream.brFetch + 1 }
      ∧ (takeBatch d false s).lastBatch = d.batch ∧ (takeBatch d false s).anyBatch = false := by
  have hgood : (decide (d.patterns ≠ 0) && malformedFields d (s.inForce.mode.toNat % 4) s) = false := by
    rcases h with h | h <;> simp [h]
  unfold takeBatch
  dsimp only
  rw [Bool.false_or, hgood]
  exact ⟨_, rfl, rfl, rfl, rfl, rfl, rfl, rfl⟩

theorem descriptorBecomesABatch : Claims.DescriptorBecomesABatch := by
  intro s hmay a d hue hnum hwf
  have hread : (csReadEffects a 32 s).inForce = s.inForce ∧ (csReadEffects a 32 s).stream = s.stream := by simp
  obtain ⟨hforce, hstream⟩ := hread
  obtain ⟨b, hbatches, hd, hmal, hburst, hindex, hlast, hany⟩ :=
    takeBatch_of_wellFormed d (csReadEffects a 32 s) (by rw [hforce]; exact hwf)
  refine ⟨_, b, (exec_descriptorFetch s hmay).trans (congrArg _ (fetchDescriptor_of_readable s hue hnum)), ?_, hd, hmal, hburst, ?_,
    hlast, hany⟩
  · rw [hbatches, (csReadEffects_keeps a 32 s).1]
  · rw [hindex, hstream]

/-- A bad descriptor stops the fetch and is reported with an event; besides, it changes nothing that a commit or a record needs (R143). -/
theorem badDescriptor_reports (s t : State) (hkept : cellsKept s t) :
    (badDescriptor t).fetchStopped = true ∧ faultSet fcBadDescriptor (badDescriptor t)
    ∧ eventSent evFault fcBadDescriptor (Config.eventDetail fcBadDescriptor).toNat s (badDescriptor t)
    ∧ (badDescriptor t).batches = t.batches ∧ (badDescriptor t).ledger0 = t.ledger0 ∧ (badDescriptor t).ledger1 = t.ledger1
    ∧ (badDescriptor t).stream = t.stream := by
  refine ⟨?_, faultEventFree_faultSet _ _ ?_ (by decide), faultEventFree_eventSent _ _ _ (by decide)
    (hkept.trans (cellsKept_of_barrier rfl)), ?_⟩
  · simp [badDescriptor]
  · simp [faultAbsent, fcBadDescriptor, fcMeshError, fcMeshMismatch, fcMeshTimeout]
  · simp [badDescriptor]

theorem badNumberStopsTheFetch : Claims.BadNumberStopsTheFetch := by
  intro s hmay a d hue hany hnum
  have hreports := badDescriptor_reports s _ (cellsKept_csReadEffects a 32 s)
  simp only [csReadEffects_keeps, csReadEffects_frame] at hreports
  exact ⟨_, _, (exec_descriptorFetch s hmay).trans (congrArg _ (fetchDescriptor_of_bad_number s hue hany hnum)), hreports⟩

/-! ### Issue (R21, R22) -/

/-- The core of a Docent. -/
def docentCore : Docent → Core
  | .a => .docentA
  | .b => .docentB

/-- A Docent's mark on a batch that it issues. -/
def markIssued (d : Docent) (b : Batch) : Batch :=
  match d with
  | .a => { b with issuedA := true }
  | .b => { b with issuedB := true }

theorem exec_batchIssue (d : Docent) (b : Batch) (s : State) (hnext : nextToIssue d s = some b)
    (hruns : coreRuns (coreState (docentCore d) s) = true) (hfree : issueBlocked s = false) (hann : announcedOk b s = true) :
    exec (.batchIssue d) s
      = .next (afterIssue b.d.batch (announce b.d.batch (modBatch b.d.batch (markIssued d) s))) := by
  cases d <;> simp only [docentCore, coreState] at hruns <;>
    simp [exec, execBatchIssue, hnext, hruns, hfree, hann, issueBatch] <;> rfl

@[simp] theorem announce_batches (n : DWord) (s : State) : (announce n s).batches = s.batches := by
  unfold announce
  split
  · rfl
  · split <;> simp [sendTwin]

theorem afterIssue_causeless (n : DWord) (s : State) : causeless (afterIssue n s) = causeless s := by
  unfold afterIssue
  split
  · rfl
  · split
    · exact lostAtIssue_causeless n s
    · rfl

/-- The Docent that issues a batch leaves its mark on it. -/
theorem exec_batchIssue_marks (d : Docent) (b : Batch) (s : State) (hnext : nextToIssue d s = some b)
    (hruns : coreRuns (coreState (docentCore d) s) = true) (hfree : issueBlocked s = false) (hann : announcedOk b s = true) :
    ∃ t, exec (.batchIssue d) s = .next t ∧ ∃ b' ∈ t.batches, forgetCauses b' = forgetCauses (markIssued d b) := by
  refine ⟨_, exec_batchIssue d b s hnext hruns hfree hann, ?_⟩
  refine exists_mem_of_causeless (afterIssue_causeless _ _) ?_
  rw [announce_batches, mem_modBatch]
  exact ⟨b, List.mem_of_find?_eq_some hnext, (if_pos rfl).symm⟩

theorem docentsIssue : Claims.DocentsIssue := by
  intro b s hfree hann
  constructor
  · intro hnext hruns
    obtain ⟨t, hexec, b', hb', hsame⟩ := exec_batchIssue_marks .a b s hnext hruns hfree hann
    have hd := congrArg Batch.d hsame
    have hmark := congrArg Batch.issuedA hsame
    exact ⟨t, hexec, b', hb', hd, hmark⟩
  · intro hnext hruns
    obtain ⟨t, hexec, b', hb', hsame⟩ := exec_batchIssue_marks .b b s hnext hruns hfree hann
    have hd := congrArg Batch.d hsame
    have hmark := congrArg Batch.issuedB hsame
    exact ⟨t, hexec, b', hb', hd, hmark⟩

/-! ### Stimulus (R150, R677) -/

@[simp] theorem recordReadEffects_array (n : DWord) (a len : Nat) (s : State) : (recordReadEffects n a len s).array = s.array := by
  unfold recordReadEffects
  dsimp only
  split <;> simp

/-- The words of the port that takes a word end with the stream's next one; every other port holds what it held. -/
theorem fillOne_stim (b : Batch) (p : Nat × Nat) (s : State) :
    (fillOne b p s).array.stim = tset [] s.array.stim p.2 (tget [] s.array.stim p.2 ++ [BitVec.ofNat 16 (rawNat
      (stimWordAddr b.d.stimPtr (stimCountStreams b.d.stimPtr s.store) (tget 0 b.stimSent p.1) p.1) 2 s.store)]) := by
  simp [fillOne]

theorem fillWords_succ (b : Batch) (p : Nat × Nat) (n : Nat) (s : State) (hb : fillBatch s = some b) (hp : nextPort b s = some p) :
    fillWords (n + 1) s = fillWords n (fillOne b p s) := by
  simp [fillWords, hb, hp]

theorem stimulusRefills : Claims.StimulusRefills := by
  intro b p s hruns hb hp
  refine ⟨?_, ?_, fun k hk => ?_⟩
  · rw [← fillWords_succ b p 31 s hb hp]
    simp [exec, execStimRefill, hruns]
  · rw [fillOne_stim, tget_tset_self]
  · rw [fillOne_stim, tget_tset_ne _ _ _ _ _ hk]

/-! ### The burst begins (R23, R156) -/

@[simp] theorem reportPower_keeps (code : Nat) (s : State) :
    (reportPower code s).array = s.array ∧ (reportPower code s).power = s.power ∧ (reportPower code s).batches = s.batches := by
  unfold reportPower
  dsimp only
  split
  · exact ⟨rfl, rfl, rfl⟩
  · split <;> simp

theorem reportPower_field (code : Nat) (s : State) (h : code < 8) : fld (reportPower code s).regs.pwrState 2 0 = code := by
  have hreg : (reportPower code s).regs.pwrState = setFld s.regs.pwrState 2 0 code := by
    unfold reportPower
    dsimp only
    split
    · rfl
    · split <;> simp
  rw [hreg, fld_setFld _ _ _ _ (by norm_num) (by norm_num)]
  exact Nat.mod_eq_of_lt h

theorem exec_burstBegin (b : Batch) (s : State) (hnext : nextBurst s = some b) (hready : burstReady b s = true) :
    exec .burstBegin s = .next (beginBurst b s) := by
  simp [exec, execBurstBegin, hnext, hready]

/-- A burst without an X-mask begins at pass 0 with the array Running. -/
theorem beginBurst_of_no_xmask (b : Batch) (s : State) (hmask : b.d.xmaskEn = false) :
    (beginBurst b s).array = { s.array with
      running := some b.d.batch, phase := .idle, pass := 0, passes := passCount b s, step := 0, xmask := 0 }
    ∧ (beginBurst b s).power.field = .running ∧ fld (beginBurst b s).regs.pwrState 2 0 = 4
    ∧ (beginBurst b s).regs.arrayStatus.getLsbD 14 = true := by
  refine ⟨?_, ?_, ?_, ?_⟩
  · simp [beginBurst, xmaskWord, hmask]
  · simp [beginBurst]
  · simp [beginBurst, putArrayBit, reportPower_field]
  · simp [beginBurst, putArrayBit, getLsbD_setBit, -BitVec.getLsbD_eq_getElem]

theorem burstBegins (b : Batch) (s : State) (hnext : nextBurst s = some b) (hready : burstReady b s = true)
    (hmask : b.d.xmaskEn = false) :
    ∃ t, exec .burstBegin s = .next t ∧ t.array = { s.array with
        running := some b.d.batch, phase := .idle, pass := 0, passes := passCount b s, step := 0, xmask := 0 }
      ∧ t.power.field = .running ∧ fld t.regs.pwrState 2 0 = 4 ∧ t.regs.arrayStatus.getLsbD 14 = true :=
  ⟨_, exec_burstBegin b s hnext hready, beginBurst_of_no_xmask b s hmask⟩

/-! ### The clear step and a pass's beginning (R94, R105, R130, R395) -/

theorem sendToken_shape (pass : Nat) (s : State) : sendToken pass s = { s with array := { s.array with
    sentToken := (sendToken pass s).array.sentToken, meshBlocksSent := (sendToken pass s).array.meshBlocksSent } } := by
  unfold sendToken
  split <;> rfl

theorem sendStepBlocks_shape (st n : Nat) (s : State) : sendStepBlocks st n s = { s with array := { s.array with
    meshBlocksSent := (sendStepBlocks st n s).array.meshBlocksSent } } := by
  unfold sendStepBlocks
  split <;> rfl

/-- The banks after the clear step of a batch. -/
def clearedBanks (b : Batch) (a : ArrayState) : ArrayState :=
  let c := { a with curValid := [], curPoison := [], phase := ArrayPhase.cleared }
  if b.d.clearPrev then clearPrev (halfOf b) c else c

/-- The clear step of a batch with passes sends the token of pass 0. -/
theorem exec_validClear (b : Batch) (s : State) (hb : s.array.running.bind (fun n => findBatch n s) = some b)
    (hphase : s.array.phase = .idle) (hpasses : s.array.passes ≠ 0) :
    exec .validClear s = .next (sendToken 0 { s with array := clearedBanks b s.array }) := by
  simp [exec, execValidClear, hb, hphase, validClear, hpasses, clearedBanks]

theorem clearedBanks_fields (b : Batch) (a : ArrayState) :
    (clearedBanks b a).curValid = [] ∧ (clearedBanks b a).curPoison = [] ∧ (clearedBanks b a).phase = .cleared
    ∧ (b.d.clearPrev = false → (clearedBanks b a).prevValid = a.prevValid)
    ∧ (b.d.clearPrev = true → (clearedBanks b a).prevValid = a.prevValid.filter (fun r => !rowInHalf (halfOf b) r))
    ∧ (clearedBanks b a).cur = a.cur ∧ (clearedBanks b a).prev = a.prev := by
  cases hclear : b.d.clearPrev <;> simp [clearedBanks, clearPrev, hclear]

theorem banksAreCleared (b : Batch) (s : State) (hb : s.array.running.bind (fun n => findBatch n s) = some b)
    (hphase : s.array.phase = .idle) (hpasses : s.array.passes ≠ 0) :
    ∃ t, exec .validClear s = .next t ∧ t.array.curValid = [] ∧ t.array.curPoison = [] ∧ t.array.phase = .cleared
      ∧ (b.d.clearPrev = false → t.array.prevValid = s.array.prevValid)
      ∧ (b.d.clearPrev = true → t.array.prevValid = s.array.prevValid.filter (fun r => !rowInHalf (halfOf b) r))
      ∧ t.array.cur = s.array.cur ∧ t.array.prev = s.array.prev := by
  refine ⟨_, exec_validClear b s hb hphase hpasses, ?_⟩
  rw [sendToken_shape]
  exact clearedBanks_fields b s.array

@[simp] theorem decide1_keeps (code arg : Nat) (s : State) :
    (decide1 code arg s).batches = s.batches ∧ (decide1 code arg s).array = s.array ∧ (decide1 code arg s).store = s.store := by
  simp [decide1, putLastCode, timeMarks, wait_keeps]

theorem applyThrottle_keeps (s : State) : (applyThrottle s).batches = s.batches ∧ (applyThrottle s).array = s.array
    ∧ (applyThrottle s).store = s.store := by
  unfold applyThrottle
  split
  · exact ⟨rfl, rfl, rfl⟩
  · dsimp only
    split <;> simp

theorem passBegins (s : State) (hready : passReady s = true) : ∃ t, exec .passBegin s = .next t ∧ t.array = { s.array with
      phase := .inPass, step := 0, bus := [], rx := [], flight := [], meshOut := [], meshWaiting := false }
    ∧ t.batches = s.batches ∧ t.store = s.store := by
  obtain ⟨hbatches, harray, hstore⟩ := applyThrottle_keeps s
  refine ⟨{ applyThrottle s with array := { s.array with
      phase := .inPass, step := 0, bus := [], rx := [], flight := [], meshOut := [], meshWaiting := false } }, ?_, rfl, hbatches, hstore⟩
  simp [exec, execPassBegin, hready, harray]

/-! ### The tail of a pass (R23, R105, R106, R152) -/

theorem exec_passTail (s : State) (hphase : s.array.phase = .inPass) (hrun : s.array.running.isSome = true) :
    exec .passTail s = .next (passTail s) := by
  simp [exec, execPassTail, hphase, hrun]

/-- The state in a pass's tail: its last blocks sent, the pass counted, its words and its neighbours' blocks dropped (R106, R127). -/
def afterPass (s : State) : State :=
  let sent := (sendStepBlocks (s.array.step - 1) (schedLength s) s).array.meshBlocksSent
  { s with array := { s.array with
      meshBlocksSent := sent, pass := s.array.pass + 1, phase := .tail, step := 0, bus := [], rx := [], flight := [], meshOut := []
      meshHeld := s.array.meshHeld.filter (fun h => !(h.batch = meshBatch s && h.pass = meshPass s)) } }

/-- Stimulus left over makes the batch's verdicts indeterminate and is reported (R152). -/
def reportLeftStimulus (s : State) : State := if stimLeft s then indetNow 0xB (setFault fcStimMismatch s) else s

/-- After a pass the next pass's token goes out, or the burst ends. -/
theorem passTail_eq (s : State) : passTail s = if s.array.pass + 1 < s.array.passes then sendToken (s.array.pass + 1) (afterPass s)
    else endBurst (reportLeftStimulus (afterPass s)) := by
  simp only [passTail]
  rw [sendStepBlocks_shape]
  rfl

theorem reportLeftStimulus_keeps (s : State) :
    causeless (reportLeftStimulus s) = causeless s ∧ (reportLeftStimulus s).array = s.array
    ∧ (reportLeftStimulus s).power = s.power := by
  unfold reportLeftStimulus
  split
  · simp [causeless_setFault]
  · exact ⟨rfl, rfl, rfl⟩

theorem passTailMovesOn (s : State) (hphase : s.array.phase = .inPass) (hrun : s.array.running.isSome = true)
    (hmore : s.array.pass + 1 < s.array.passes) :
    ∃ t, exec .passTail s = .next t ∧ t.array.pass = s.array.pass + 1 ∧ t.array.phase = .tail ∧ t.array.cur = s.array.cur
      ∧ t.array.prev = s.array.prev ∧ t.power = s.power := by
  refine ⟨_, exec_passTail s hphase hrun, ?_⟩
  rw [passTail_eq, if_pos hmore, sendToken_shape]
  exact ⟨rfl, rfl, rfl, rfl, rfl⟩

/-- The end of a burst leaves no batch running, the ports empty, and a Running array Armed. -/
theorem endBurst_of_running (b : Batch) (s : State) (h : s.array.running.bind (fun n => findBatch n s) = some b) :
    (endBurst s).array.running = none ∧ (endBurst s).array.phase = .idle ∧ (endBurst s).array.stim = []
    ∧ (s.power.field = .running → (endBurst s).power.field = .armed) ∧ (endBurst s).array.prev = s.array.prev := by
  simp only [endBurst, h, putArrayBit_fields, modBatch_fields]
  split
  · next hfield => simp [hfield]
  · next hfield => simp [hfield]

theorem lastPassTailEndsTheBurst (b : Batch) (s : State) (hphase : s.array.phase = .inPass)
    (hb : s.array.running.bind (fun n => findBatch n s) = some b) (hlast : s.array.passes ≤ s.array.pass + 1) :
    ∃ t, exec .passTail s = .next t ∧ t.array.running = none ∧ t.array.phase = .idle ∧ t.array.stim = []
      ∧ (s.power.field = .running → t.power.field = .armed) ∧ t.array.prev = s.array.prev := by
  obtain ⟨n, hrun, hfind⟩ := Option.bind_eq_some_iff.1 hb
  obtain ⟨hcauseless, harray, hpower⟩ := reportLeftStimulus_keeps (afterPass s)
  generalize hu : reportLeftStimulus (afterPass s) = u at hcauseless harray hpower
  obtain ⟨b', hfind'⟩ : ∃ b', findBatch n u = some b' := by
    rw [← Option.isSome_iff_exists, findBatch_isSome_of_causeless hcauseless]
    exact Option.isSome_iff_exists.2 ⟨b, hfind⟩
  have hb' : u.array.running.bind (fun n => findBatch n u) = some b' := by
    rw [harray]
    exact Option.bind_eq_some_iff.2 ⟨n, hrun, hfind'⟩
  obtain ⟨hnone, hidle, hstim, harmed, hprev⟩ := endBurst_of_running b' u hb'
  refine ⟨_, exec_passTail s hphase (Option.isSome_iff_exists.2 ⟨n, hrun⟩), ?_⟩
  rw [passTail_eq, if_neg (Nat.not_lt.2 hlast), hu]
  rw [hpower] at harmed
  rw [harray] at hprev
  exact ⟨hnone, hidle, hstim, harmed, hprev⟩

theorem burstsAndPasses : Claims.BurstsAndPasses := fun b s =>
  ⟨burstBegins b s, banksAreCleared b s, passBegins s, passTailMovesOn s, lastPassTailEndsTheBurst b s⟩

/-- Settles O35: a fetch and an issue change a batch but for its causes, and the array phase goes on through the same batch. -/
theorem batchesIssue : Obligations.BatchesIssue :=
  ⟨descriptorBecomesABatch, badNumberStopsTheFetch, docentsIssue, stimulusRefills, burstsAndPasses⟩

end Sys2Proof.Machine
end

section
/-! PROOF. The table registers: their number (O7, O8), and the fetch of a window entry (O12). -/

namespace Sys2Proof.Machine

/-! ### The number of masters, pins and trigger channels (R38, R565, R578, R613) -/

/-- How many masters have table registers, how many pins there are, and how many trigger channels. -/
def tableSizes (s : State) : Nat × Nat × Nat := (s.masters.length, s.pins.pins.length, s.cores.channels.length)

theorem tableSizes_eq_iff (s : State) :
    tableSizes s = (5, 40, 8) ↔ fiveMasters s ∧ fortyPins s ∧ s.cores.channels.length = 8 := by
  simp [tableSizes, fiveMasters, fortyPins]

/-- The commands that may reset the host die and with it every master's table registers (R616). -/
def resetsHostDie : Instr → Bool
  | .railsGood .. | .railFail .. | .hrefLoss | .debugReset => true
  | _ => false

/-- Every other command keeps the three numbers, as its own frame says. -/
theorem tableSizes_of_exec (c : Instr) (s u : State) (hc : resetsHostDie c = false) (h : exec c s = .next u) :
    tableSizes u = tableSizes s := by
  cases c with
  | registerWrite m target pcieLost => simp [tableSizes, execRegisterWrite_frame m target pcieLost s u h]
  | regReadTimeout m => simp [tableSizes, execRegReadTimeout_frame m s u h]
  | stageCommit m data pcieLost => simp [tableSizes, execStageCommit_frame m data pcieLost s u h]
  | stagedSetApply => simp [tableSizes, execStagedSetApply_frame s u h]
  | tableEntryFetch m reg => simp [tableSizes, execTableEntryFetch_frame m reg s u h]
  | tableEntryWrite m reg data pcieLost => simp [tableSizes, execTableEntryWrite_frame m reg data pcieLost s u h]
  | correctionLogPop m => simp [tableSizes, execCorrectionLogPop_frame m s u h]
  | loadBegin m slot group devIndex => simp [tableSizes, execLoadBegin_frame m slot group devIndex s u h]
  | loadAbort m => simp [tableSizes, execLoadAbort_frame m s u h]
  | resync m => simp [tableSizes, execResync_frame m s u h]
  | release m => simp [tableSizes, execRelease_frame m s u h]
  | run m value => simp [tableSizes, execRun_frame m value s u h]
  | retrain m link => simp [tableSizes, execRetrain_frame m link s u h]
  | failResume m => simp [tableSizes, execFailResume_frame m s u h]
  | detach m => simp [tableSizes, execDetach_frame m s u h]
  | remeasure m => simp [tableSizes, execRemeasure_frame m s u h]
  | countClear m => simp [tableSizes, execCountClear_frame m s u h]
  | logClear m => simp [tableSizes, execLogClear_frame m s u h]
  | conservatorRestart m => simp [tableSizes, execConservatorRestart_frame m s u h]
  | checkTest m value => simp [tableSizes, execCheckTest_frame m value s u h]
  | hostSleep m pcieDown => simp [tableSizes, execHostSleep_frame m pcieDown s u h]
  | pwrRequestField m value => simp [tableSizes, execPwrRequestField_frame m value s u h]
  | securityLock m data => simp [tableSizes, execSecurityLock_frame m data s u h]
  | otpProgrammed => simp [tableSizes, execOtpProgrammed_frame s u h]
  | pinLockKey m data => simp [tableSizes, execPinLockKey_frame m data s u h]
  | debugLevel m level => simp [tableSizes, execDebugLevel_frame m level s u h]
  | alertClr m key => simp [tableSizes, execAlertClr_frame m key s u h]
  | coreRestart m key cores => simp [tableSizes, execCoreRestart_frame m key cores s u h]
  | mailboxDoorbell m slot => simp [tableSizes, execMailboxDoorbell_frame m slot s u h]
  | pinFunctionChange m index value => simp [tableSizes, execPinFunctionChange_frame m index value s u h]
  | batchDoorbell value => simp [tableSizes, execBatchDoorbell_frame value s u h]
  | batchRingSetup size value => simp [tableSizes, execBatchRingSetup_frame size value s u h]
  | lcons link value => simp [tableSizes, execLcons_frame link value s u h]
  | lsize link value => simp [tableSizes, execLsize_frame link value s u h]
  | rcons value => simp [tableSizes, execRcons_frame value s u h]
  | sgo data => simp [tableSizes, execSgo_frame data s u h]
  | stimDmaDone bytes => simp [tableSizes, execStimDmaDone_frame bytes s u h]
  | imageFrameTake slot => simp [tableSizes, execImageFrameTake_frame slot s u h]
  | repeatRetry frame => simp [tableSizes, execRepeatRetry_frame frame s u h]
  | loadDeadline => simp [tableSizes, execLoadDeadline_frame s u h]
  | verify => simp [tableSizes, execVerify_frame s u h]
  | verificationDone => simp [tableSizes, execVerificationDone_frame s u h]
  | pllLock => simp [tableSizes, execPllLock_frame s u h]
  | pllLockTimeout => simp [tableSizes, execPllLockTimeout_frame s u h]
  | stageRelease => simp [tableSizes, execStageRelease_frame s u h]
  | regWrite dir addr master data => simp [tableSizes, execRegWrite_frame dir addr master data s u h]
  | regRead addr master tag => simp [tableSizes, execRegRead_frame addr master tag s u h]
  | regReply tag data status => simp [tableSizes, execRegReply_frame tag data status s u h]
  | imageFrame frame prefixBits payload => simp [tableSizes, execImageFrame_frame frame prefixBits payload s u h]
  | repeatRequest frame reason => simp [tableSizes, execRepeatRequest_frame frame reason s u h]
  | ledgerBatch link records => simp [tableSizes, execLedgerBatch_frame link records s u h]
  | ledgerWriteback link => simp [tableSizes, execLedgerWriteback_frame link s u h]
  | event code unit detail => simp [tableSizes, execEvent_frame code unit detail s u h]
  | timeMark ns => simp [tableSizes, execTimeMark_frame ns s u h]
  | serviceCall core tag call args => simp [tableSizes, execServiceCall_frame core tag call args s u h]
  | serviceReply core tag result data => simp [tableSizes, execServiceReply_frame core tag result data s u h]
  | heartbeat dir power reset ticks ack => simp [tableSizes, execHeartbeat_frame dir power reset ticks ack s u h]
  | heartbeatDue side => simp [tableSizes, execHeartbeatDue_frame side s u h]
  | barrierCellReceive dir lane cell => simp [tableSizes, execBarrierCellReceive_frame dir lane cell s u h]
  | nak dir ack => simp [tableSizes, execNak_frame dir ack s u h]
  | retransmitTimeout dir => simp [tableSizes, execRetransmitTimeout_frame dir s u h]
  | barrierLaneFail dir lane => simp [tableSizes, execBarrierLaneFail_frame dir lane s u h]
  | spareReq dir lane => simp [tableSizes, execSpareReq_frame dir lane s u h]
  | barrierTrained dir locked => simp [tableSizes, execBarrierTrained_frame dir locked s u h]
  | counterpartSilent side => simp [tableSizes, execCounterpartSilent_frame side s u h]
  | descriptorFetch => simp [tableSizes, execDescriptorFetch_frame s u h]
  | batchIssue d => simp [tableSizes, execBatchIssue_frame d s u h]
  | stimRefill => simp [tableSizes, execStimRefill_frame s u h]
  | burstBegin => simp [tableSizes, execBurstBegin_frame s u h]
  | validClear => simp [tableSizes, execValidClear_frame s u h]
  | passBegin => simp [tableSizes, execPassBegin_frame s u h]
  | nop g bp idx => simp [tableSizes, execNop_frame g bp idx s u h]
  | eval g bp idx => simp [tableSizes, execEval_frame g bp idx s u h]
  | evalExport g bp idx => simp [tableSizes, execEvalExport_frame g bp idx s u h]
  | evalCommit g bp idx => simp [tableSizes, execEvalCommit_frame g bp idx s u h]
  | evalCommitExport g bp idx => simp [tableSizes, execEvalCommitExport_frame g bp idx s u h]
  | send g bp idx => simp [tableSizes, execSend_frame g bp idx s u h]
  | meshSend g bp idx => simp [tableSizes, execMeshSend_frame g bp idx s u h]
  | stim g bp idx => simp [tableSizes, execStim_frame g bp idx s u h]
  | eval3 g bp idx => simp [tableSizes, execEval3_frame g bp idx s u h]
  | eval3Commit g bp idx => simp [tableSizes, execEval3Commit_frame g bp idx s u h]
  | endOp g bp idx => simp [tableSizes, execEndOp_frame g bp idx s u h]
  | illegalInstruction g bp idx => simp [tableSizes, execIllegalInstruction_frame g bp idx s u h]
  | poisonedFetch g bp idx => simp [tableSizes, execPoisonedFetch_frame g bp idx s u h]
  | boulevardDelivery step => simp [tableSizes, execBoulevardDelivery_frame step s u h]
  | passTail => simp [tableSizes, execPassTail_frame s u h]
  | passTokenReceive link block => simp [tableSizes, execPassTokenReceive_frame link block s u h]
  | tokenResend => simp [tableSizes, execTokenResend_frame s u h]
  | meshBlockReceive link block wordsOk => simp [tableSizes, execMeshBlockReceive_frame link block wordsOk s u h]
  | meshHold step => simp [tableSizes, execMeshHold_frame step s u h]
  | meshTimeout => simp [tableSizes, execMeshTimeout_frame s u h]
  | egressBegin => simp [tableSizes, execEgressBegin_frame s u h]
  | flushLoad => simp [tableSizes, execFlushLoad_frame s u h]
  | rowRead => simp [tableSizes, execRowRead_frame s u h]
  | delivery => simp [tableSizes, execDelivery_frame s u h]
  | bankRelease => simp [tableSizes, execBankRelease_frame s u h]
  | docentStop d => simp [tableSizes, execDocentStop_frame d s u h]
  | docentResume => simp [tableSizes, execDocentResume_frame s u h]
  | siteStrobe site => simp [tableSizes, execSiteStrobe_frame site s u h]
  | bitFailProcess => simp [tableSizes, execBitFailProcess_frame s u h]
  | blockMemoryWrite block => simp [tableSizes, execBlockMemoryWrite_frame block s u h]
  | vaultWrite v => simp [tableSizes, execVaultWrite_frame v s u h]
  | vaultRead v => simp [tableSizes, execVaultRead_frame v s u h]
  | vaultPush v => simp [tableSizes, execVaultPush_frame v s u h]
  | vaultPop v => simp [tableSizes, execVaultPop_frame v s u h]
  | vaultClr v => simp [tableSizes, execVaultClr_frame v s u h]
  | avenueContention avenue => simp [tableSizes, execAvenueContention_frame avenue s u h]
  | contentionEnd avenue => simp [tableSizes, execContentionEnd_frame avenue s u h]
  | ingressWord link lane word => simp [tableSizes, execIngressWord_frame link lane word s u h]
  | frameCrc link lane quarter echo64 => simp [tableSizes, execFrameCrc_frame link lane quarter echo64 s u h]
  | status link lane quarter => simp [tableSizes, execStatus_frame link lane quarter s u h]
  | desc link lane quarter => simp [tableSizes, execDesc_frame link lane quarter s u h]
  | train link lane quarter => simp [tableSizes, execTrain_frame link lane quarter s u h]
  | sideChannelLockLoss link lane => simp [tableSizes, execSideChannelLockLoss_frame link lane s u h]
  | arrivalDrift link lane drift64 => simp [tableSizes, execArrivalDrift_frame link lane drift64 s u h]
  | linkTrain link => simp [tableSizes, execLinkTrain_frame link s u h]
  | linkUp link => simp [tableSizes, execLinkUp_frame link s u h]
  | trainingStepTimeout link lane => simp [tableSizes, execTrainingStepTimeout_frame link lane s u h]
  | partnerLost link lane => simp [tableSizes, execPartnerLost_frame link lane s u h]
  | partnerRetry link lane echo64 => simp [tableSizes, execPartnerRetry_frame link lane echo64 s u h]
  | remeasurementDone link echoes => simp [tableSizes, execRemeasurementDone_frame link echoes s u h]
  | alignmentApply => simp [tableSizes, execAlignmentApply_frame s u h]
  | recordEnter link => simp [tableSizes, execRecordEnter_frame link s u h]
  | gapRecord link site => simp [tableSizes, execGapRecord_frame link site s u h]
  | recordPassOn link => simp [tableSizes, execRecordPassOn_frame link s u h]
  | batchCommit link => simp [tableSizes, execBatchCommit_frame link s u h]
  | twinHeartbeatReceive crcOk role token epoch last ack join =>
    simp [tableSizes, execTwinHeartbeatReceive_frame crcOk role token epoch last ack join s u h]
  | twinHeartbeatDue => simp [tableSizes, execTwinHeartbeatDue_frame s u h]
  | twinBlockResend => simp [tableSizes, execTwinBlockResend_frame s u h]
  | tLost => simp [tableSizes, execTLost_frame s u h]
  | leaseRenew => simp [tableSizes, execLeaseRenew_frame s u h]
  | leaseLapse => simp [tableSizes, execLeaseLapse_frame s u h]
  | tokenTake => simp [tableSizes, execTokenTake_frame s u h]
  | tokenWaitTimeout => simp [tableSizes, execTokenWaitTimeout_frame s u h]
  | capabilityReceive block => simp [tableSizes, execCapabilityReceive_frame block s u h]
  | batchAnnounce crcOk tseq batch frame word freeze => simp [tableSizes, execBatchAnnounce_frame crcOk tseq batch frame word freeze s u h]
  | digestReceive crcOk tseq batch digest fault => simp [tableSizes, execDigestReceive_frame crcOk tseq batch digest fault s u h]
  | handover block => simp [tableSizes, execHandover_frame block s u h]
  | twinJoin slot => simp [tableSizes, execTwinJoin_frame slot s u h]
  | stateBlockReceive crcOk tseq item => simp [tableSizes, execStateBlockReceive_frame crcOk tseq item s u h]
  | joinAck block => simp [tableSizes, execJoinAck_frame block s u h]
  | joinTimeout => simp [tableSizes, execJoinTimeout_frame s u h]
  | sweepSignatureReceive crcOk tseq sweep => simp [tableSizes, execSweepSignatureReceive_frame crcOk tseq sweep s u h]
  | surveySample point => simp [tableSizes, execSurveySample_frame point s u h]
  | hostReadingCopy busy => simp [tableSizes, execHostReadingCopy_frame busy s u h]
  | upsetWindow => simp [tableSizes, execUpsetWindow_frame s u h]
  | throttleRaise => simp [tableSizes, execThrottleRaise_frame s u h]
  | throttleLower => simp [tableSizes, execThrottleLower_frame s u h]
  | galleryPowerUp => simp [tableSizes, execGalleryPowerUp_frame s u h]
  | patrolCycle => simp [tableSizes, execPatrolCycle_frame s u h]
  | lineRepair slot => simp [tableSizes, execLineRepair_frame slot s u h]
  | frameCheck => simp [tableSizes, execFrameCheck_frame s u h]
  | sweepEnd => simp [tableSizes, execSweepEnd_frame s u h]
  | read header => simp [tableSizes, execRead_frame header s u h]
  | write header flits => simp [tableSizes, execWrite_frame header flits s u h]
  | exclRead header => simp [tableSizes, execExclRead_frame header s u h]
  | condWrite header flits => simp [tableSizes, execCondWrite_frame header flits s u h]
  | completion header flits => simp [tableSizes, execCompletion_frame header flits s u h]
  | asleepResend src tag => simp [tableSizes, execAsleepResend_frame src tag s u h]
  | urgencyRise src tag => simp [tableSizes, execUrgencyRise_frame src tag s u h]
  | routeSwitch entries => simp [tableSizes, execRouteSwitch_frame entries s u h]
  | reservationBreak core => simp [tableSizes, execReservationBreak_frame core s u h]
  | bankTestStart => simp [tableSizes, execBankTestStart_frame s u h]
  | bankMapSwitch => simp [tableSizes, execBankMapSwitch_frame s u h]
  | marchDone passed => simp [tableSizes, execMarchDone_frame passed s u h]
  | bankGroupSleep k => simp [tableSizes, execBankGroupSleep_frame k s u h]
  | domainPowerDown d => simp [tableSizes, execDomainPowerDown_frame d s u h]
  | wakePin sample => simp [tableSizes, execWakePin_frame sample s u h]
  | perstDeassert => simp [tableSizes, execPerstDeassert_frame s u h]
  | controlBusWake => simp [tableSizes, execControlBusWake_frame s u h]
  | powerTransitionDone => simp [tableSizes, execPowerTransitionDone_frame s u h]
  | railsGood _ => cases hc
  | railFail _ => cases hc
  | trefLoss => simp [tableSizes, execTrefLoss_frame s u h]
  | trefReturn => simp [tableSizes, execTrefReturn_frame s u h]
  | hrefLoss => cases hc
  | clockChange => simp [tableSizes, execClockChange_frame s u h]
  | relockFail => simp [tableSizes, execRelockFail_frame s u h]
  | fieldResetDuringLoad => simp [tableSizes, execFieldResetDuringLoad_frame s u h]
  | watchdogExpiry core => simp [tableSizes, execWatchdogExpiry_frame core s u h]
  | coreRestarted core => simp [tableSizes, execCoreRestarted_frame core s u h]
  | serviceCallTimeout slot => simp [tableSizes, execServiceCallTimeout_frame slot s u h]
  | loadReport slot => simp [tableSizes, execLoadReport_frame slot s u h]
  | keyProvision slot => simp [tableSizes, execKeyProvision_frame slot s u h]
  | barrierCounters slot => simp [tableSizes, execBarrierCounters_frame slot s u h]
  | linkCounters slot => simp [tableSizes, execLinkCounters_frame slot s u h]
  | snapshotCopy slot => simp [tableSizes, execSnapshotCopy_frame slot s u h]
  | fabricCapture slot => simp [tableSizes, execFabricCapture_frame slot s u h]
  | captureOnStop => simp [tableSizes, execCaptureOnStop_frame s u h]
  | fabricReadback slot => simp [tableSizes, execFabricReadback_frame slot s u h]
  | memInfo slot => simp [tableSizes, execMemInfo_frame slot s u h]
  | raConfigure slot => simp [tableSizes, execRaConfigure_frame slot s u h]
  | raClear slot => simp [tableSizes, execRaClear_frame slot s u h]
  | raRead slot => simp [tableSizes, execRaRead_frame slot s u h]
  | raStatus slot => simp [tableSizes, execRaStatus_frame slot s u h]
  | surveyRead slot => simp [tableSizes, execSurveyRead_frame slot s u h]
  | scrubUnlock slot => simp [tableSizes, execScrubUnlock_frame slot s u h]
  | checkWrite slot => simp [tableSizes, execCheckWrite_frame slot s u h]
  | checkRead slot => simp [tableSizes, execCheckRead_frame slot s u h]
  | checkInject slot => simp [tableSizes, execCheckInject_frame slot s u h]
  | scrubCounters slot => simp [tableSizes, execScrubCounters_frame slot s u h]
  | nocStatus slot => simp [tableSizes, execNocStatus_frame slot s u h]
  | eventRead slot => simp [tableSizes, execEventRead_frame slot s u h]
  | debugChallenge slot => simp [tableSizes, execDebugChallenge_frame slot s u h]
  | debugResponse slot => simp [tableSizes, execDebugResponse_frame slot s u h]
  | traceConfig slot => simp [tableSizes, execTraceConfig_frame slot s u h]
  | connect flags => simp [tableSizes, execConnect_frame flags s u h]
  | debugRead space addr count => simp [tableSizes, execDebugRead_frame space addr count s u h]
  | debugWrite space addr words => simp [tableSizes, execDebugWrite_frame space addr words s u h]
  | halt cores => simp [tableSizes, execHalt_frame cores s u h]
  | resume cores => simp [tableSizes, execResume_frame cores s u h]
  | step core n => simp [tableSizes, execStep_frame core n s u h]
  | stepEnd core => simp [tableSizes, execStepEnd_frame core s u h]
  | coreStatus => simp [tableSizes, execCoreStatus_frame s u h]
  | challenge level => simp [tableSizes, execChallenge_frame level s u h]
  | response token => simp [tableSizes, execResponse_frame token s u h]
  | nonceExpiry => simp [tableSizes, execNonceExpiry_frame s u h]
  | challengeLockoutEnd => simp [tableSizes, execChallengeLockoutEnd_frame s u h]
  | trigger channel sources sinks matchIndex => simp [tableSizes, execTrigger_frame channel sources sinks matchIndex s u h]
  | trace max => simp [tableSizes, execTrace_frame max s u h]
  | crossTrigger channel source => simp [tableSizes, execCrossTrigger_frame channel source s u h]
  | tracePacket core port value => simp [tableSizes, execTracePacket_frame core port value s u h]
  | debugBreak => simp [tableSizes, execDebugBreak_frame s u h]
  | debugReset => cases hc
  | debugFrame body crc => simp [tableSizes, execDebugFrame_frame body crc s u h]
  | resetHoldEnd => simp [tableSizes, execResetHoldEnd_frame s u h]
  | handlerStart => simp [tableSizes, execHandlerStart_frame s u h]
  | fabricCycle => simp [tableSizes, execFabricCycle_frame s u h]
  | egressWord => simp [tableSizes, execEgressWord_frame s u h]
  | quarterLost link lane quarter crcOk => simp [tableSizes, execQuarterLost_frame link lane quarter crcOk s u h]
  | frameApertureWrite slot offset bytes => simp [tableSizes, execFrameApertureWrite_frame slot offset bytes s u h]
  | padLevelChange index level => simp [tableSizes, execPadLevelChange_frame index level s u h]
  | breakpoint core => simp [tableSizes, execBreakpoint_frame core s u h]
  | watchdogReload core => simp [tableSizes, execWatchdogReload_frame core s u h]
  | pllRelocked => simp [tableSizes, execPllRelocked_frame s u h]
  | wordLock lane => simp [tableSizes, execWordLock_frame lane s u h]
theorem railsGood_masters (side : Side) (s : State) (h : s.masters.length = 5) : (railsGood side s).masters.length = 5 := by
  unfold railsGood
  split
  · split <;> exact h
  · split
    · exact h
    · exact hostReset_masters _ _

theorem railFail_masters (side : Side) (s : State) (h : s.masters.length = 5) : (railFail side s).masters.length = 5 := by
  unfold railFail
  split
  · split
    · simpa using h
    · exact h
  · split
    · exact hostReset_masters false { s with power := { s.power with hostRails := false } }
    · exact h

/-- A reset of the host die leaves five masters, and the pins and channels in number. -/
theorem tableSizes_of_reset (c : Instr) (s u : State) (hc : resetsHostDie c = true) (h : exec c s = .next u)
    (hs : tableSizes s = (5, 40, 8)) : tableSizes u = (5, 40, 8) := by
  simp only [tableSizes, Prod.mk.injEq] at hs ⊢
  obtain ⟨hm, hp, hch⟩ := hs
  cases c with
  | railsGood side =>
    obtain ⟨-, -, -, hchannels, -, -, -, -, -, -, hpins⟩ := execRailsGood_frame side s u h
    cases h
    exact ⟨railsGood_masters side s hm, hpins.trans hp, hchannels.trans hch⟩
  | railFail side =>
    obtain ⟨-, -, -, hchannels, hpins⟩ := execRailFail_frame side s u h
    cases h
    exact ⟨railFail_masters side s hm, hpins.trans hp, hchannels.trans hch⟩
  | hrefLoss =>
    obtain ⟨-, -, -, hchannels, -, -, -, -, -, -, hpins⟩ := execHrefLoss_frame s u h
    cases h
    refine ⟨?_, hpins.trans hp, hchannels.trans hch⟩
    split
    · exact hostReset_masters _ _
    · exact hm
  | debugReset =>
    obtain ⟨-, -, -, hchannels, -, -, -, -, -, -, hpins⟩ := execDebugReset_frame s u h
    cases h
    exact ⟨hostReset_masters false s, hpins.trans hp, hchannels.trans hch⟩
  | _ => cases hc

theorem exec_keeps_tableSizes (c : Instr) (s u : State) (h : exec c s = .next u) (hs : tableSizes s = (5, 40, 8)) :
    tableSizes u = (5, 40, 8) := by
  cases hc : resetsHostDie c with
  | false => exact (tableSizes_of_exec c s u hc h).trans hs
  | true => exact tableSizes_of_reset c s u hc h hs

/-- Settles O8: a command keeps the three numbers or resets the host die, which gives each master its table registers again. -/
theorem tablesKeepTheirSize : Obligations.TablesKeepTheirSize := by
  intro s t hm hp hch hstep
  rw [← and_assoc, and_assoc, ← tableSizes_eq_iff]
  have hs : tableSizes s = (5, 40, 8) := (tableSizes_eq_iff s).2 ⟨hm, hp, hch⟩
  cases hpend : s.pending with
  | nil =>
    simp only [step, hpend, Host.Outcome.next.injEq] at hstep
    exact hstep ▸ hs
  | cons c rest =>
    simp only [step, hpend] at hstep
    exact exec_keeps_tableSizes c { s with pending := rest } t hstep hs

/-- Settles O7: at reset Common Store lists no byte, and the tables stand as the state gives them. -/
theorem formsAtReset : Obligations.FormsAtReset :=
  ⟨rfl, rfl, rfl, rfl⟩

/-! ### Fetching a window entry (R56, R613, R633, R634) -/

/-- A master whose last read is complete reads a table window at once. -/
theorem exec_tableEntryFetch (m : Master) (k : Nat) (s : State) (h : s.crossReads.any (fun r => r.master = m) = false) :
    exec (.tableEntryFetch m k) s = .next (readTable m k s) := by
  simp only [exec, execTableEntryFetch, h, Bool.false_eq_true, if_false]

/-- A data register of an entry that exists, read at _A or with no entry latched: the entry is fetched. -/
theorem readTable_of_fetch (m : Master) (k : Nat) (s : State) (hi : (view m s).index.toNat < windowEntries (view m s).select.toNat)
    (ha : entryAbsent (view m s).select.toNat (view m s).index.toNat s = false) (hk : k < windowRegs (view m s).select.toNat)
    (hfetch : k = 0 ∨ (view m s).latchValid = false) :
    readTable m k s = if windowCrosses (view m s).select.toNat then crossRead m k s
      else finishRead m k (windowReadDone (view m s).select.toNat (view m s).index.toNat
        (takeEntry m (windowEntry (view m s) (view m s).select.toNat (view m s).index.toNat s) s)) := by
  have hf : (decide (k = 0) || !(view m s).latchValid) = true := by simpa using hfetch
  simp only [readTable, ha, hf, Nat.not_le.2 hi, Nat.not_le.2 hk, decide_false, Bool.or_self, Bool.false_eq_true, if_false, if_true]

/-- Only the array state window, which the field side holds, does more than fetch. -/
theorem windowReadDone_of_local (w i : Nat) (s : State) (h : windowCrosses w = false) : windowReadDone w i s = s := by
  simp only [windowCrosses, Bool.or_eq_false_iff, decide_eq_false_iff_not] at h
  rw [windowReadDone, if_neg h.2]

/-- A read that completes changes its own master's table registers alone. -/
theorem finishRead_shape (m : Master) (k : Nat) (s : State) : ∃ v, finishRead m k s = setView m v s := by
  simp only [finishRead]
  split
  · exact ⟨_, setView_setView m _ _ s⟩
  · exact ⟨_, rfl⟩

/-- It returns the latch's word and keeps the latch. -/
theorem view_finishRead (m : Master) (k : Nat) (s : State) (hfive : fiveMasters s) (hk : k < windowRegs (view m s).select.toNat) :
    (view m (finishRead m k s)).latch = (view m s).latch
    ∧ (view m (finishRead m k s)).readData = latchWord k (view m s) := by
  have hset : ∀ v (t : State), fiveMasters t → view m (setView m v t) = v := fun v t ht => view_setView m v t ht
  simp only [finishRead, if_pos hk]
  split
  · rw [bumpIndex, hset _ _ (by simpa [fiveMasters] using hfive), hset _ _ hfive]
    exact ⟨rfl, rfl⟩
  · rw [hset _ _ hfive]
    exact ⟨rfl, rfl⟩

theorem localEntryFetch : Claims.LocalEntryFetch := by
  intro m k s v hfive hfree hlocal hi ha hk hfetch
  have hread : readTable m k s = finishRead m k (takeEntry m (windowEntry v v.select.toNat v.index.toNat s) s) := by
    rw [readTable_of_fetch m k s hi ha hk hfetch, if_neg (by simp [hlocal, v]), windowReadDone_of_local _ _ _ hlocal]
  have hview : view m (takeEntry m (windowEntry v v.select.toNat v.index.toNat s) s)
      = { v with latch := windowEntry v v.select.toNat v.index.toNat s, latchValid := true } := view_setView _ _ _ hfive
  obtain ⟨hlatch, hdata⟩ := view_finishRead m k (takeEntry m (windowEntry v v.select.toNat v.index.toNat s) s)
    (by simpa [fiveMasters, takeEntry] using hfive) (by rw [hview]; exact hk)
  obtain ⟨v', hshape⟩ := finishRead_shape m k (takeEntry m (windowEntry v v.select.toNat v.index.toNat s) s)
  rw [hview] at hlatch hdata
  refine ⟨_, exec_tableEntryFetch m k s hfree, ?_⟩
  rw [hread]
  refine ⟨hlatch, hdata, ?_⟩
  rw [hshape, takeEntry, setView_setView, view_setView m v' s hfive]

theorem crossingEntryFetch : Claims.CrossingEntryFetch := by
  intro m k s v hfree hcrosses hi ha hk hfetch
  rw [exec_tableEntryFetch m k s hfree, readTable_of_fetch m k s hi ha hk hfetch, if_pos hcrosses]
  rfl

/-- Settles O12: a fetch of a window on the host die latches the entry; one of the field side's asks for it across the barrier. -/
theorem tableEntryFetches : Obligations.TableEntryFetches :=
  ⟨localEntryFetch, crossingEntryFetch⟩

end Sys2Proof.Machine
end

section
/-! PROOF. The Llyniz barrier: each kind of message at its receiver (O25), and cells, retransmission, lanes and heartbeats (O26). -/

namespace Sys2Proof.Machine

/-! ### Register messages (R51, R55, R56) -/

/-- No W1C bit of ARRAY_STATUS raises an event. -/
theorem mirrorEvent_arrayStatus (old new : Word) (s : State) : mirrorEvent 0x20 old new s = s :=
  ite_self s

/-- A report of ARRAY_STATUS changes its mirror alone. -/
theorem reportStatus_arrayStatus (data : Word) (s : State) :
    reportStatus 0x20 data s = { s with regs := { s.regs with arrayStatus := mirrored 0x20 data s.regs.arrayStatus } } :=
  mirrorEvent_arrayStatus _ _ _

/-- A read of a register that the field side holds is answered with its copy. -/
theorem exec_regRead_of_register (addr : BitVec 6) (who : Byte) (tag : Word) (s : State) (hawake : fieldAwake s = true)
    (hnone : s.crossReads.find? (fun r => r.tag = tag) = none) :
    exec (.regRead addr who tag) s = .next (sendMsg .fieldToHost 0x03 5
      ((tag.toNat * 65536 + (lget 0 s.fieldCopy addr.toNat).toNat) * 256) (popDir .hostToField 0x02 s)) := by
  have hfind : (popDir .hostToField 0x02 s).crossReads.find? (fun r => r.tag = tag) = none := hnone
  have hcopy : (popDir .hostToField 0x02 s).fieldCopy = s.fieldCopy := rfl
  simp only [exec, execRegRead, hawake, hfind, hcopy, Bool.not_true, Bool.false_eq_true, if_false, Nat.add_zero]

/-- A reply to a register read leaves its data with the master that asked. -/
theorem exec_regReply_of_register (tag data : Word) (r : CrossRead) (s : State)
    (hr : s.crossReads.find? (fun r => r.tag = tag) = some r) (hentry : r.entry = none) :
    exec (.regReply tag data 0) s = .next (setView r.master { view r.master s with readData := data }
      { popDir .fieldToHost 0x03 s with crossReads := s.crossReads.filter (fun x => x.tag ≠ tag) }) := by
  have hfind : (popDir .fieldToHost 0x03 s).crossReads.find? (fun r => r.tag = tag) = some r := hr
  simp only [exec, execRegReply, hfind, hentry]
  rfl

theorem registerMessages : Claims.RegisterMessages := by
  intro addr who tag data s
  refine ⟨rfl, ?_, exec_regRead_of_register addr who tag s, ?_⟩
  · exact ⟨_, congrArg Host.Outcome.next (reportStatus_arrayStatus data _), rfl, rfl⟩
  · intro hfive r hr hentry
    exact ⟨_, exec_regReply_of_register tag data r s hr hentry, congrArg MasterView.readData (view_setView _ _ _ hfive), rfl, rfl⟩

/-! ### The event log and host time (R38, R58, R397, R546, R627) -/

/-- An entry of the event log: CODE, UNIT, DETAIL and the count of events. -/
def eventEntry (code : Word) (unit : Byte) (detail : DWord) (count : Byte) : QWord :=
  BitVec.ofNat 64 (((code.toNat * 256 + unit.toNat) * 2 ^ 32 + detail.toNat) * 256 + count.toNat)

theorem eventEntry_code (code : Word) (unit : Byte) (detail : DWord) (count : Byte) :
    fld (eventEntry code unit detail count) 63 48 = code.toNat := by
  have hc := code.isLt
  have hu := unit.isLt
  have hd := detail.isLt
  have hn := count.isLt
  simp only [fld, eventEntry, BitVec.toNat_ofNat, Nat.shiftRight_eq_div_pow]
  omega

/-- A Curator that runs, with room in its queue and in the log, appends an entry. -/
theorem logEvent_of_room (code : Word) (unit : Byte) (detail : DWord) (s : State) (hcalls : s.cores.calls.length < 64)
    (hruns : coreRuns s.cores.curator = true) (hroom : s.cores.eventLog.length < 128) :
    (logEvent code unit detail s).cores.eventLog = s.cores.eventLog ++ [eventEntry code unit detail s.cores.eventCount] := by
  simp only [coreRuns, Bool.and_eq_true, Bool.not_eq_true'] at hruns
  obtain ⟨⟨hhalted, hreset⟩, hrestarting⟩ := hruns
  have hdrop : s.cores.eventLog.length + 1 - 128 = 0 := by omega
  simp [logEvent, hhalted, hreset, hrestarting, Nat.not_le.2 hcalls, hdrop, eventEntry]

/-- Logging an event reaches the log, or the count of events that the Curator could not take, alone. -/
theorem logEvent_keeps (code : Word) (unit : Byte) (detail : DWord) (s : State) :
    (logEvent code unit detail s).regs.eventStatus = s.regs.eventStatus ∧ (logEvent code unit detail s).otp = s.otp
    ∧ (logEvent code unit detail s).array = s.array := by
  simp only [logEvent]
  split <;> exact ⟨rfl, rfl, rfl⟩

theorem exec_event_of_exists (code : Word) (unit : Byte) (detail : DWord) (s : State)
    (h : eventExists (code.toNat / 256) s = true) :
    exec (.event code unit detail) s
      = .next (logEvent code unit detail (setEvent (code.toNat / 256) (popDir .fieldToHost 0x07 s))) := by
  simp only [exec, execEvent, h, if_true]

theorem exec_event_of_absent (code : Word) (unit : Byte) (detail : DWord) (s : State)
    (h : eventExists (code.toNat / 256) s = false) :
    exec (.event code unit detail) s = .next (popDir .fieldToHost 0x07 s) := by
  simp only [exec, execEvent, h, Bool.false_eq_true, if_false]

theorem eventSet_setEvent (b : Nat) (s : State) (hb : b ≤ 15) : eventSet b (setEvent b s) := by
  simp [eventSet, setEvent_bit, -setEvent_regs, Nat.lt_succ_of_le hb]

theorem le_of_eventExists {b : Nat} {s : State} (h : eventExists b s = true) : b ≤ 15 := by
  simp only [eventExists, Bool.and_eq_true, decide_eq_true_eq] at h
  exact h.1.1.2

/-- One record waits behind those that a Ledger holds, with its bits as they were; the other Ledger is as before. -/
theorem wait_one (l : FLink) (r : QRec) (s : State) :
    (∃ r', (ledger l (wait l [r] s)).waiting = (ledger l s).waiting ++ [r'] ∧ r'.bits = r.bits)
    ∧ ledger (otherLink l) (wait l [r] s) = ledger (otherLink l) s ∧ (wait l [r] s).power = s.power := by
  refine ⟨?_, ?_, ?_⟩
  · simp only [wait, ledger_setLedger, List.map_cons, List.map_nil]
    refine ⟨_, rfl, ?_⟩
    split <;> rfl
  · rw [wait, ledger_setLedger_other]
  · simp [wait]

/-- A time mark is a record of kind 7 (R288). -/
theorem recKind_timeMarkRecord (source time code : Nat) (h : source < 2 ^ 21) :
    recKind (timeMarkRecord source time code).bits = 7 := by
  simp only [recKind, fld, timeMarkRecord, BitVec.toNat_ofNat, Nat.shiftRight_eq_div_pow]
  omega

/-- A time mark is one more record in each Ledger. -/
theorem timeMarks_records (source code : Nat) (s : State) (h : source < 2 ^ 21) :
    (∃ r, (timeMarks source code s).ledger0.waiting = s.ledger0.waiting ++ [r] ∧ recKind r.bits = 7)
    ∧ (∃ r, (timeMarks source code s).ledger1.waiting = s.ledger1.waiting ++ [r] ∧ recKind r.bits = 7)
    ∧ (timeMarks source code s).power = s.power := by
  have hkind := recKind_timeMarkRecord source (hostTime s) code h
  obtain ⟨⟨r0, hr0, hbits0⟩, hother0, hpower0⟩ := wait_one .f0 (timeMarkRecord source (hostTime s) code) s
  obtain ⟨⟨r1, hr1, hbits1⟩, hother1, hpower1⟩ := wait_one .f1 (timeMarkRecord source (hostTime s) code)
    (wait .f0 [timeMarkRecord source (hostTime s) code] s)
  refine ⟨⟨r0, ?_, hbits0 ▸ hkind⟩, ⟨r1, ?_, hbits1 ▸ hkind⟩, hpower1.trans hpower0⟩
  · exact (congrArg Ledger.waiting hother1).trans hr0
  · exact hr1.trans (congrArg (fun l => Ledger.waiting l ++ [r1]) hother0)

/-- Host time as a TIME_MARK sets it. -/
def markedTime (ns : QWord) (s : State) : State :=
  { s with power := { s.power with timeMarked := true, hostTimeBase := ns.toNat, hostTimeAt := s.power.fclk } }

theorem exec_timeMark (ns : QWord) (s : State) (h : fieldAwake s = true) :
    exec (.timeMark ns) s = .next (timeMarks 0 0 (markedTime ns (popDir .hostToField 0x08 s))) := by
  simp only [exec, execTimeMark, h, if_true]
  rfl

theorem eventsAndTimeMarks : Claims.EventsAndTimeMarks := by
  intro code unit detail ns s
  refine ⟨fun hexists => ?_, exec_event_of_absent code unit detail s, fun hawake => ?_⟩
  · obtain ⟨hstatus, hotp, harray⟩ := logEvent_keeps code unit detail (setEvent (code.toNat / 256) (popDir .fieldToHost 0x07 s))
    have hcores : (setEvent (code.toNat / 256) (popDir .fieldToHost 0x07 s)).cores = s.cores := by simp [popDir]
    refine ⟨_, exec_event_of_exists code unit detail s hexists, ?_, hotp.trans (by simp [popDir]), harray.trans (by simp [popDir]), ?_⟩
    · rw [eventSet, hstatus]
      exact eventSet_setEvent _ _ (le_of_eventExists hexists)
    · intro hcalls hruns hroom
      rw [← hcores] at hcalls hruns hroom
      rw [logEvent_of_room _ _ _ _ hcalls hruns hroom, hcores]
      simp [lget, eventEntry_code]
  · obtain ⟨hledger0, hledger1, hpower⟩ := timeMarks_records 0 0 (markedTime ns (popDir .hostToField 0x08 s)) (by norm_num)
    exact ⟨_, exec_timeMark ns s hawake, by rw [hpower]; rfl, by rw [hpower]; rfl, hledger0, hledger1⟩

/-! ### Service messages (R38, R542) -/

/-- A call that the Curator does not answer at once: of a field core, or listed and allowed during a load (R438, R544). -/
def awaitsService (c : QueuedCall) (s : State) : Prop :=
  64 ≤ c.slot ∨ (callListed c.call.toNat = true ∧ (s.loader.active = false ∨ hostCall c.call = true))

theorem foldl_of_unchanged {α β : Type} (f : α → β → α) (l : List β) (a : α) (h : ∀ b ∈ l, f a b = a) : l.foldl f a = a := by
  induction l with
  | nil => rfl
  | cons b l ih =>
    rw [List.foldl_cons, h b List.mem_cons_self]
    exact ih (fun x hx => h x (List.mem_cons_of_mem b hx))

theorem answerAtOnce_of_awaiting (s : State) (h : ∀ c ∈ s.cores.calls, awaitsService c s) : answerAtOnce s = s := by
  unfold answerAtOnce
  split
  · refine foldl_of_unchanged _ _ _ (fun c hc => ?_)
    rcases h c hc with hslot | ⟨hlisted, hidle | hhost⟩
    · simp [Nat.not_lt.2 hslot]
    · simp [hlisted, hidle]
    · simp [hlisted, hhost]
  · rfl

/-- The queue takes a call that awaits service behind others that do. -/
theorem queueCall_of_room (c : QueuedCall) (s : State) (hroom : s.cores.calls.length < 64) (hc : awaitsService c s)
    (hcalls : ∀ x ∈ s.cores.calls, awaitsService x s) : (queueCall c s).cores.calls = s.cores.calls ++ [c] := by
  rw [queueCall, if_neg (Nat.not_le.2 hroom), answerAtOnce_of_awaiting]
  · simp
  · intro x hx
    rcases (by simpa using hx : x ∈ s.cores.calls ∨ x = c) with hold | rfl
    · exact hcalls x hold
    · exact hc

/-- A field core's call that belongs to no forwarded call is queued under slot 64 plus its core's number. -/
theorem exec_serviceCall_of_own (core : Core) (tag call : Word) (args : List QWord) (s : State) (hcore : core ≠ .curator)
    (hown : s.cores.calls.any (fun c => decide (c.slot < 64) && c.forwarded && decide (c.tag = tag)) = false) :
    exec (.serviceCall core tag call args) s
      = .next (queueCall ⟨64 + coreNum core, tag, call, args, false⟩ (popHostInbox 0x09 s)) := by
  have hown' : (popHostInbox 0x09 s).cores.calls.any
      (fun c => decide (c.slot < 64) && c.forwarded && decide (c.tag = tag)) = false := hown
  simp only [exec, execServiceCall, hown', hcore, decide_false, Bool.or_self, Bool.false_eq_true, if_false]

theorem serviceMessages : Claims.ServiceMessages := by
  intro core tag call result args data s
  constructor
  · intro hcore hroom hcalls hown
    exact ⟨_, exec_serviceCall_of_own core tag call args s hcore hown,
      queueCall_of_room _ (popHostInbox 0x09 s) hroom (.inl (Nat.le_add_right 64 _)) hcalls⟩
  · refine ⟨_, rfl, ?_⟩
    split
    · next hbusy =>
      simp only [Bool.and_eq_true, decide_eq_true_eq] at hbusy
      exact ⟨rfl, fun hcore => absurd hbusy.1 hcore, rfl, rfl⟩
    · exact ⟨rfl, fun _ => rfl, rfl, rfl⟩

/-- Settles O25: the receiver's step of each message is one shared operation on the state without the message's cell. -/
theorem barrierMessages : Obligations.BarrierMessages :=
  ⟨registerMessages, eventsAndTimeMarks, serviceMessages⟩

/-! ### A direction of the barrier -/

theorem dirAck_of_empty (ack : Word) (x : BarrierDir) (h : x.unacked = []) : dirAck ack x = x := by simp [dirAck, h]

/-- With nothing waiting, an acknowledgement takes the cells before it out of the replay store. -/
theorem dirAck_of_outstanding (ack : Word) (x : BarrierDir) (c : SentCell) (rest : List SentCell) (h : x.unacked = c :: rest)
    (hwaiting : x.waiting = []) (hack : (ack - c.seq).toNat ≤ rest.length + 1) :
    dirAck ack x = { x with unacked := (c :: rest).drop (ack - c.seq).toNat, waiting := [] } := by
  simp only [dirAck, h, List.length_cons, if_pos hack, hwaiting, acceptWaiting]

/-- A cell sent stands behind those in the replay store, or waits; the lanes are as before. -/
theorem dirSend_keeps (m : Msg) (x : BarrierDir) :
    (dirSend m x).active = x.active ∧ (dirSend m x).spares = x.spares
    ∧ (dirSend m x).unacked.take x.unacked.length = x.unacked := by
  unfold dirSend
  split <;> simp

/-! ### Cells received (R37, R41, R44) -/

/-- A good cell with a sequence number, on a good lane, from a host die that is heard: its acknowledgement frees nothing where
nothing is outstanding. -/
theorem receiveCell_of_good (l : Nat) (c : Cell) (s : State) (hactive : s.barrier.toField.active.contains l = true)
    (hgood : s.barrier.toField.failed.contains l = false) (hheard : s.barrier.hostSilent = false)
    (hunacked : s.barrier.toHost.unacked = []) (hcrc : cellCrcOk c = true) (hseq : cellNoSeq c = false) :
    receiveCell .hostToField l c s
      = takeCell .hostToField c (setBarrierDir .hostToField (countLane l (barrierDir .hostToField s)) s) := by
  simp [receiveCell, countLane, barrierDir, setBarrierDir, heard, receiver, opposite, dirAck_of_empty, -List.contains_eq_mem,
    hactive, hgood, hheard, hunacked, hcrc, hseq]

theorem deliverHeld_of_none (d : Dir) (n : Nat) (s : State) (h : (barrierDir d s).held = []) : deliverHeld d n s = s := by
  cases n with
  | zero => rfl
  | succ n => simp [deliverHeld, h]

/-- The next cell in sequence is delivered, and no held one follows it. -/
theorem takeCell_of_next (d : Dir) (c : Cell) (s : State) (hnext : cellSeq c = (barrierDir d s).expected)
    (htype : typeDefined d (cellMsg c).typ.toNat = true) (hheld : (barrierDir d s).held = []) :
    takeCell d c s = setBarrierDir d { barrierDir d s with
      ackDue := true, expected := (barrierDir d s).expected + 1, nakWait := false
      inbox := (barrierDir d s).inbox ++ [cellMsg c] } s := by
  simp only [takeCell, deliverCell, hnext, sub_self, if_true, htype, barrierDir_setBarrierDir,
    setBarrierDir_setBarrierDir]
  exact deliverHeld_of_none _ _ _ (by simpa using hheld)

/-- A cell ahead of the next one by at most 64 is held. -/
theorem takeCell_of_early (d : Dir) (c : Cell) (s : State) (hwait : (barrierDir d s).nakWait = false)
    (hahead : 1 ≤ (cellSeq c - (barrierDir d s).expected).toNat) (hnear : (cellSeq c - (barrierDir d s).expected).toNat ≤ 64)
    (hnew : (barrierDir d s).held.any (fun h => h.seq = cellSeq c) = false) :
    takeCell d c s = setBarrierDir d { barrierDir d s with
      ackDue := true, held := (barrierDir d s).held ++ [⟨cellSeq c, cellMsg c⟩] } s := by
  simp only [takeCell, Nat.ne_of_gt hahead, hwait, hnear, hnew, decide_true, Bool.not_false, Bool.and_self, Bool.false_eq_true,
    if_true, if_false]

/-- A lane that its receiver has declared failed: its spare and the missing cell are asked for. -/
def barrierLaneFailed (l : Nat) (x : BarrierDir) : BarrierDir :=
  { x with failed := nins x.failed l, spareReqDue := x.spareReqDue ++ [l], nakDue := true, nakWait := true, held := [] }

theorem declareFailed_cases (d : Dir) (l : Nat) (s : State) :
    declareFailed d l s = s ∨ declareFailed d l s = setBarrierDir d (barrierLaneFailed l (barrierDir d s)) s := by
  unfold declareFailed
  dsimp only
  split
  · exact .inr rfl
  · exact .inl rfl

/-- A cell with a bad CRC delivers nothing, whether or not its lane is declared failed with it (R39, R44, R47). -/
theorem badCell_dir (d : Dir) (l : Nat) (s : State) :
    (barrierDir d (badCell d l s)).inbox = (barrierDir d s).inbox ∧ (barrierDir d (badCell d l s)).expected = (barrierDir d s).expected
    ∧ (barrierDir d (badCell d l s)).held = [] ∧ (barrierDir d (badCell d l s)).nakDue = true
    ∧ (barrierDir d (badCell d l s)).nakWait = true
    ∧ tget 0 (barrierDir d (badCell d l s)).crcCount l = satInc (tget 0 (barrierDir d s).crcCount l) := by
  simp only [badCell]
  split
  · rcases declareFailed_cases d l _ with h | h <;> rw [h] <;> simp [barrierLaneFailed]
  · simp

/-- A cell with a bad CRC on an active lane. -/
theorem receiveCell_of_bad (d : Dir) (l : Nat) (c : Cell) (s : State) (hactive : (barrierDir d s).active.contains l = true)
    (hcrc : cellCrcOk c = false) :
    receiveCell d l c s = badCell d l (setBarrierDir d (countLane l (barrierDir d s)) s) := by
  simp [receiveCell, countLane, -List.contains_eq_mem, hactive, hcrc]

theorem cellsArriveInOrder : Claims.CellsArriveInOrder := by
  intro l c s x hactive hgood hheard hunacked
  refine ⟨?_, ?_, ?_⟩
  · intro hcrc hseq hnext htype hheld
    refine ⟨_, congrArg Host.Outcome.next (receiveCell_of_good l c s hactive hgood hheard hunacked hcrc hseq), ?_⟩
    rw [takeCell_of_next .hostToField c (setBarrierDir .hostToField (countLane l (barrierDir .hostToField s)) s) hnext htype hheld]
    exact ⟨rfl, rfl, rfl, rfl⟩
  · intro hcrc hseq hwait hahead hnear hnew
    refine ⟨_, congrArg Host.Outcome.next (receiveCell_of_good l c s hactive hgood hheard hunacked hcrc hseq), ?_⟩
    rw [takeCell_of_early .hostToField c (setBarrierDir .hostToField (countLane l (barrierDir .hostToField s)) s) hwait hahead hnear hnew]
    exact ⟨rfl, rfl, rfl⟩
  · intro hcrc
    refine ⟨_, congrArg Host.Outcome.next (receiveCell_of_bad .hostToField l c s hactive hcrc), ?_⟩
    exact badCell_dir .hostToField l _

/-! ### Retransmission (R42, R45) -/

/-- Sending every outstanding cell again changes counts and the next lane alone. -/
theorem resendAll_keeps (x : BarrierDir) : (resendAll x).unacked = x.unacked ∧ (resendAll x).seqNext = x.seqNext := by
  unfold resendAll
  dsimp only
  split <;> exact ⟨rfl, rfl⟩

theorem resendKeepsEveryCell : Claims.ResendKeepsEveryCell := by
  intro d ack s
  constructor
  · obtain ⟨hunacked, hseq⟩ := resendAll_keeps (barrierDir d s)
    refine ⟨_, rfl, ?_⟩
    rw [barrierDir_setBarrierDir]
    exact ⟨hunacked, hseq, barrierDir_setBarrierDir_opposite _ _ _, rfl⟩
  · intro c rest houtstanding hwaiting hack
    refine ⟨_, rfl, ?_⟩
    rw [barrierDir_setBarrierDir, (resendAll_keeps _).1, dirAck_of_outstanding ack _ c rest houtstanding hwaiting hack]
    exact ⟨rfl, rfl⟩

/-! ### Lanes (R34, R36, R47 to R49) -/

/-- A fault of the transmitter may add an event's cell to its direction, behind those that it holds. -/
theorem laneFault_dir (d : Dir) (code : Nat) (s : State) :
    (barrierDir d (laneFault d code s)).active = (barrierDir d s).active
    ∧ (barrierDir d (laneFault d code s)).spares = (barrierDir d s).spares
    ∧ (barrierDir d (laneFault d code s)).unacked.take (barrierDir d s).unacked.length = (barrierDir d s).unacked := by
  cases d with
  | hostToField => simp [laneFault, barrierDir]
  | fieldToHost =>
    have hbarrier : (setFault code s).barrier = s.barrier := by simp
    simp only [laneFault, barrierDir, faultEventFree, faultEvent, raiseField, sendMsg, hbarrier]
    exact dirSend_keeps _ _

theorem laneFault_faultSet (d : Dir) (code : Nat) (s : State) (h : faultAbsent code s = false) (hc : code < 48) :
    faultSet code (laneFault d code s) := by
  cases d with
  | hostToField => exact setFault_bit code s h hc
  | fieldToHost => exact faultEventFree_faultSet code s h hc

theorem faultAbsent_barrierSpared (s : State) : faultAbsent fcBarrierSpared s = false := by
  simp [faultAbsent, fcBarrierSpared, fcMeshError, fcMeshMismatch, fcMeshTimeout]

/-- With a spare lane left, the lowest takes the failed lane's place. -/
theorem exec_spareReq_of_spare (d : Dir) (l p : Nat) (rest : List Nat) (s : State)
    (hactive : (barrierDir d s).active.contains l = true) (hspares : (barrierDir d s).spares = p :: rest) :
    exec (.spareReq d l) s = .next (laneFault d fcBarrierSpared (setBarrierDir d { barrierDir d s with
      active := (barrierDir d s).active.map (fun a => if a = l then p else a), spares := rest } s)) := by
  simp only [exec, execSpareReq, hactive, hspares, Bool.not_true, Bool.false_eq_true, if_false]

/-- Training that locks all 18 lanes. -/
theorem exec_barrierTrained_all (d : Dir) (s : State) (hhost : s.power.hostRails = true) (hfield : s.power.fieldRails = true) :
    exec (.barrierTrained d 0x3FFFF) s = .next (setBarrierDir d (trained (List.range 18) (barrierDir d s)) s) := by
  have hall : (List.range 18).filter (fun i => (0x3FFFF#18).getLsbD i) = List.range 18 := by decide
  simp [exec, execBarrierTrained, hhost, hfield, hall, -BitVec.getLsbD_eq_getElem]

theorem lanesAreSpared : Claims.LanesAreSpared := by
  intro d l p rest s
  refine ⟨?_, ?_, ?_⟩
  · intro hactive hgood
    simp only [exec, execBarrierLaneFail, declareFailed, hactive, hgood, Bool.not_false, Bool.and_self, if_true]
  · intro hactive hspares
    refine ⟨_, exec_spareReq_of_spare d l p rest s hactive hspares, ?_⟩
    generalize hu : setBarrierDir d { barrierDir d s with
      active := (barrierDir d s).active.map (fun a => if a = l then p else a), spares := rest } s = u
    obtain ⟨hlanes, hleft, hcells⟩ := laneFault_dir d fcBarrierSpared u
    have hfault := laneFault_faultSet d fcBarrierSpared u (faultAbsent_barrierSpared u) (by decide)
    have hdir := congrArg (barrierDir d) hu
    rw [barrierDir_setBarrierDir] at hdir
    rw [← hdir] at hlanes hleft hcells
    exact ⟨hlanes, hleft, hcells, hfault⟩
  · intro hhost hfield
    refine ⟨_, exec_barrierTrained_all d s hhost hfield, ?_⟩
    rw [barrierDir_setBarrierDir]
    exact ⟨rfl, rfl, rfl, rfl, by simp⟩

/-! ### Silence and discarded configurations (R59, R60, R430, R437) -/

theorem reportPower_barrier (code : Nat) (s : State) : (reportPower code s).barrier = s.barrier := by
  unfold reportPower
  dsimp only
  split
  · rfl
  · split <;> simp

/-- The lapse of the lease changes the twin and its status register alone. -/
theorem lapseLease_shape (s : State) : lapseLease s = { s with
    twin := (lapseLease s).twin, regs := { s.regs with twinStatus := (lapseLease s).regs.twinStatus } } := by
  unfold lapseLease
  dsimp only
  split <;> rfl

/-- An untrained twin link changes the twin, its status register and the mesh locks alone. -/
theorem downMeshTwin_shape (s : State) : downMeshTwin s = { s with
    twin := (downMeshTwin s).twin, array := (downMeshTwin s).array
    regs := { s.regs with twinStatus := (downMeshTwin s).regs.twinStatus } } := by
  unfold downMeshTwin
  dsimp only
  split <;> rfl

/-- Disabling field I/O drops what was released, says so in PWR_STATE, and keeps the barrier, the loader and the batches. -/
theorem disableFieldIo_keeps (s : State) :
    (disableFieldIo s).barrier = s.barrier ∧ (disableFieldIo s).loader = s.loader ∧ (disableFieldIo s).batches = s.batches
    ∧ (disableFieldIo s).released = {} ∧ (disableFieldIo s).regs.pwrState = setBit s.regs.pwrState 3 true := by
  simp only [disableFieldIo]
  rw [downMeshTwin_shape, lapseLease_shape]
  exact ⟨rfl, rfl, rfl, rfl, rfl⟩

/-- LOAD_STATUS says that no image is loaded. -/
theorem unloadStatus_not_loaded (s : State) : loaded (unloadStatus s) = false := by
  unfold unloadStatus
  split
  · simp [loaded, fld_setFld]
  · next h => simpa using h

theorem unloadStatus_shape (s : State) :
    unloadStatus s = { s with regs := { s.regs with loadStatus := (unloadStatus s).regs.loadStatus } } := by
  unfold unloadStatus
  split <;> rfl

theorem ioDisabled_of_setBit (s t : State) (h : t.regs.pwrState = setBit s.regs.pwrState 3 true) : ioDisabled t = true := by
  rw [ioDisabled, h, getLsbD_setBit]
  rfl

/-- A configuration discarded: no batch, nothing released, field I/O disabled and no image loaded. -/
theorem discardConfig_drops (s : State) :
    (discardConfig s).batches = [] ∧ (discardConfig s).released = {} ∧ ioDisabled (discardConfig s) = true
    ∧ loaded (discardConfig s) = false := by
  obtain ⟨-, -, hbatches, hreleased, hpwr⟩ := disableFieldIo_keeps (dropBatches s)
  refine ⟨?_, ?_, ioDisabled_of_setBit (dropBatches s) _ ?_, unloadStatus_not_loaded _⟩
  · rw [discardConfig, unloadStatus_shape, ← hbatches.trans (rfl : _ = [])]
  · rw [discardConfig, unloadStatus_shape, ← hreleased]
  · rw [discardConfig, unloadStatus_shape, ← hpwr]

/-- A load that fails is no longer active; the barrier and PWR_STATE's FIELD are as they were. -/
theorem failLoad_ends (code : Nat) (s : State) :
    (failLoad code s).loader.active = false ∧ (failLoad code s).barrier = s.barrier
    ∧ fld (failLoad code s).regs.pwrState 2 0 = fld s.regs.pwrState 2 0 := by
  unfold failLoad
  split
  · refine ⟨?_, ?_, ?_⟩
    · simp only [setEvent_fields, disableFieldIo_keeps]
    · simp only [setEvent_fields, disableFieldIo_keeps]
    · simp only [setEvent_regs, disableFieldIo_keeps]
      exact fld_setBit_ne _ _ _ _ _ (by norm_num)
  · next h => exact ⟨by simpa using h, rfl, rfl⟩

/-! ### Heartbeats (R43, R59, R60) -/

/-- A side heard from is silent no more. -/
theorem heard_fieldSilent (s : State) : (heard .fieldToHost s).barrier.fieldSilent = false := by
  simp only [heard, receiver]
  split
  · split <;> rfl
  · next h => simpa using h

/-- The state after a heartbeat's acknowledgement, its cell taken. -/
def beatTaken (d : Dir) (ack : Word) (s : State) : State :=
  setBarrierDir (opposite d) (dirAck ack (barrierDir (opposite d) (popDir d 0xC (heard d s)))) (popDir d 0xC (heard d s))

theorem exec_heartbeat_field (power : Byte) (ticks : DWord) (ack : Word) (s : State) :
    exec (.heartbeat .fieldToHost power 0 ticks ack) s = .next (reportPower (power.toNat % 8) (beatTaken .fieldToHost ack s)) := rfl

/-- The first heartbeat of a host die after its reset. -/
theorem exec_heartbeat_host_reset (power : Byte) (ticks : DWord) (ack : Word) (s : State) :
    exec (.heartbeat .hostToField power 1 ticks ack) s = .next (discardConfig (beatTaken .hostToField ack s)) := rfl

theorem exec_counterpartSilent_host (s : State) (h : s.barrier.fieldSilent = false) :
    exec (.counterpartSilent .host) s = .next (fieldSilence s) := by
  simp only [exec, execCounterpartSilent, silence, h, Bool.false_eq_true, if_false]

theorem fieldSilence_reports (s : State) :
    (fieldSilence s).barrier.fieldSilent = true ∧ fld (fieldSilence s).regs.pwrState 2 0 = 0
    ∧ (fieldSilence s).loader.active = false := by
  obtain ⟨hactive, hbarrier, hpwr⟩ :=
    failLoad_ends ldFieldLost (reportPower 0 { s with barrier := { s.barrier with fieldSilent := true } })
  refine ⟨?_, hpwr.trans (reportPower_field 0 _ (by norm_num)), hactive⟩
  rw [fieldSilence, hbarrier, reportPower_barrier]

/-- The heartbeat that the host die sends. -/
def hostBeat (s : State) : Beat :=
  ⟨.host, powerCode s.power.host, s.barrier.hostFirstCell, s.barrier.toHost.expected, s.barrier.toHost.nakDue,
    s.barrier.toHost.spareReqDue.head?⟩

theorem exec_heartbeatDue_host (s : State) (hrails : s.power.hostRails = true) (hon : s.power.host ≠ .off)
    (hlanes : s.barrier.toField.active ≠ []) :
    exec (.heartbeatDue .host) s = .next { s with barrier := { s.barrier with
      toHost := { s.barrier.toHost with
        ackDue := false, nakDue := false, spareReqDue := s.barrier.toHost.spareReqDue.drop 1 }
      beats := s.barrier.beats ++ [hostBeat s]
      hostFirstCell := false } } := by
  simp [exec, execHeartbeatDue, sidePowered, sendsOn, opposite, barrierDir, setBarrierDir, hostBeat, hrails, hon, hlanes]

theorem heartbeats : Claims.Heartbeats := by
  intro power ticks ack s
  refine ⟨?_, ?_, ?_, ?_, rfl⟩
  · intro hrails hon hlanes
    exact ⟨_, exec_heartbeatDue_host s hrails hon hlanes, rfl, rfl, rfl, rfl, rfl⟩
  · intro hpower
    refine ⟨_, exec_heartbeat_field power ticks ack s, ?_, ?_⟩
    · rw [reportPower_field _ _ (Nat.mod_lt _ (by norm_num)), Nat.mod_eq_of_lt hpower]
    · rw [reportPower_barrier]
      exact heard_fieldSilent s
  · obtain ⟨hbatches, hreleased, hio, hunloaded⟩ := discardConfig_drops (beatTaken .hostToField ack s)
    exact ⟨_, exec_heartbeat_host_reset power ticks ack s, hbatches, hreleased, hio, hunloaded, by simp [beatTaken]⟩
  · intro hheard
    exact ⟨_, exec_counterpartSilent_host s hheard, fieldSilence_reports s⟩

/-- Settles O26: cells, retransmission and sparing are operations on one direction of the barrier; a heartbeat or a silence besides drops
what depends on the counterpart. -/
theorem barrierLanes : Obligations.BarrierLanes :=
  ⟨cellsArriveInOrder, resendKeepsEveryCell, lanesAreSpared, heartbeats⟩

end Sys2Proof.Machine
end

section
/-! PROOF. Service replies, reports and key provisioning (O54). -/

namespace Sys2Proof.Machine

/-! ### Numbers as bytes (R13, R14) -/

@[simp] theorem length_bytesOf (n v : Nat) : (bytesOf n v).length = n := by
  induction n with
  | zero => rfl
  | succ n ih => simp [bytesOf, ih]

/-- Byte `k` of a number, from the most significant one. -/
theorem lget_bytesOf (n v k : Nat) (h : k < n) : lget 0 (bytesOf n v) k = BitVec.ofNat 8 (v >>> (8 * (n - 1 - k))) := by
  induction n generalizing k with
  | zero => exact absurd h (Nat.not_lt_zero k)
  | succ n ih =>
    cases k with
    | zero => rfl
    | succ k =>
      rw [show n + 1 - 1 - (k + 1) = n - 1 - k by omega]
      exact ih k (by omega)

theorem length_flatMap_of_const {α β : Type} (f : α → List β) (n : Nat) (h : ∀ a, (f a).length = n) (l : List α) :
    (l.flatMap f).length = n * l.length := by
  simp [List.length_flatMap, h, Nat.mul_comm]

@[simp] theorem length_packed (xs : List Nat) : (packed xs).length = 8 * xs.length :=
  length_flatMap_of_const _ 8 (fun x => length_bytesOf 8 x) xs

/-- The bytes of numbers, eight each, stand one number after the other. -/
theorem lget_flatMap_bytesOf (data : List QWord) (rest : List Byte) (i k : Nat) (hi : i < data.length) (hk : k < 8) :
    lget 0 (data.flatMap (fun d => bytesOf 8 d.toNat) ++ rest) (8 * i + k) = (lget 0 data i).extractLsb' (56 - 8 * k) 8 := by
  induction data generalizing i with
  | nil => exact absurd hi (Nat.not_lt_zero i)
  | cons d data ih =>
    rw [List.flatMap_cons, List.append_assoc]
    cases i with
    | zero =>
      have hin : 8 * 0 + k < (bytesOf 8 d.toNat).length := by simpa using hk
      rw [lget, List.getD_append _ _ _ _ hin, ← lget, Nat.mul_zero, Nat.zero_add, lget_bytesOf 8 _ k hk,
        show 8 * (8 - 1 - k) = 56 - 8 * k by omega]
      rfl
    | succ i =>
      have hout : (bytesOf 8 d.toNat).length ≤ 8 * (i + 1) + k := by rw [length_bytesOf]; omega
      rw [lget, List.getD_append_right _ _ _ _ hout, length_bytesOf, show 8 * (i + 1) + k - 8 = 8 * i + k by omega]
      exact ih i (Nat.lt_of_succ_lt_succ hi)

/-! ### Reply slots (R540, R541, R545) -/

/-- What the Mailbox holds after bytes are written to it: they at their addresses, and elsewhere what it held. -/
theorem tget_putMailbox (a : Nat) (bs : List Byte) (t : Table Byte) (j : Nat) :
    tget 0 (putMailbox a bs t) j = if a ≤ j ∧ j < a + bs.length then lget 0 bs (j - a) else tget 0 t j := by
  induction bs generalizing a t with
  | nil => rw [putMailbox, if_neg (by simp)]
  | cons b bs ih =>
    rw [putMailbox, ih, tget_tset]
    by_cases hj : j = a
    · subst hj
      simp [lget]
    · by_cases hin : a + 1 ≤ j ∧ j < a + 1 + bs.length
      · obtain ⟨k, rfl⟩ := Nat.exists_eq_add_of_le hin.1
        rw [if_pos hin, if_pos (by rw [List.length_cons]; omega), show a + 1 + k - (a + 1) = k by omega,
          show a + 1 + k - a = k + 1 by omega]
        rfl
      · rw [if_neg hin, if_neg hj, if_neg (by rw [List.length_cons]; omega)]

/-- The five bytes that begin a reply: TAG, RESULT and LENGTH. -/
def replyHeadBytes (tag : Word) (result n : Nat) : List Byte := bytesOf 2 tag.toNat ++ bytesOf 2 result ++ [BitVec.ofNat 8 (8 * n)]

/-- The fields of a reply, after its eight bytes of head. -/
def replyFields (data : List QWord) : List Byte := data.flatMap (fun d => bytesOf 8 d.toNat)

/-- The 64 bytes of a reply. -/
def replyBytes (tag : Word) (result : Nat) (data : List QWord) : List Byte :=
  replyHeadBytes tag result data.length ++ bytesOf 3 0 ++ (replyFields data ++ List.replicate (56 - 8 * data.length) 0)

theorem length_replyFields (data : List QWord) : (replyFields data).length = 8 * data.length := by
  rw [replyFields, length_flatMap_of_const _ 8 (fun d => length_bytesOf 8 _)]

theorem length_replyBytes (tag : Word) (result : Nat) (data : List QWord) (h : data.length ≤ 7) :
    (replyBytes tag result data).length = 64 := by
  simp only [replyBytes, replyHeadBytes, List.length_append, length_bytesOf, length_replyFields, List.length_replicate,
    List.length_singleton]
  omega

/-- A reply to a request slot is its 64 bytes in the reply slot, and then the Mailbox vector. -/
theorem writeReply_of_slot (slot : Nat) (tag : Word) (result : Nat) (data : List QWord) (s : State) (h : slot < 64) :
    writeReply slot tag result data s = msix 1 { s with cores := { s.cores with
      mailbox := putMailbox (0x1000 + 64 * slot) (replyBytes tag result data) s.cores.mailbox } } := by
  have hpad : (bytesOf 2 tag.toNat ++ bytesOf 2 result ++ [BitVec.ofNat 8 (8 * data.length)] ++ bytesOf 3 0
      ++ data.flatMap (fun d => bytesOf 8 d.toNat)).length = 8 + 8 * data.length := by
    have hfields : (data.flatMap (fun d => bytesOf 8 d.toNat)).length = 8 * data.length := length_replyFields data
    simp only [List.length_append, length_bytesOf, List.length_singleton, hfields]
  rw [writeReply, if_neg (Nat.not_le.2 h)]
  dsimp only
  rw [hpad, show 64 - (8 + 8 * data.length) = 56 - 8 * data.length by omega, List.append_assoc]
  rfl

/-- The queue without the calls of a slot and tag. -/
def answeredQueue (c : QueuedCall) (q : List QueuedCall) : List QueuedCall :=
  q.filter (fun x => decide (x.slot ≠ c.slot) || decide (x.tag ≠ c.tag))

/-- What a reply to a request slot changes: the reply slot, the queue, and the vector signalled. -/
theorem reply_of_slot (c : QueuedCall) (result : Nat) (data : List QWord) (s : State) (h : c.slot < 64) :
    (reply c result data s).cores.mailbox
      = putMailbox (0x1000 + 64 * c.slot) (replyBytes c.tag result data) s.cores.mailbox
    ∧ (reply c result data s).hostOut = s.hostOut ++ [.msix 1]
    ∧ (reply c result data s).cores.calls = answeredQueue c s.cores.calls := by
  rw [reply, writeReply_of_slot _ _ _ _ _ h]
  exact ⟨rfl, rfl, rfl⟩

theorem replyHead_reply (c : QueuedCall) (result : Nat) (data : List QWord) (s : State) (h : c.slot < 64) (hdata : data.length ≤ 7) :
    replyHead c.slot (reply c result data s) = replyHeadBytes c.tag result data.length := by
  have hbytes : ∀ k ∈ List.range 5, tget 0 (reply c result data s).cores.mailbox (0x1000 + 64 * c.slot + k)
      = lget 0 (replyBytes c.tag result data) k := by
    intro k hk
    rw [List.mem_range] at hk
    rw [(reply_of_slot c result data s h).1, tget_putMailbox, length_replyBytes _ _ _ hdata, if_pos (by omega),
      Nat.add_sub_cancel_left]
  rw [replyHead, List.map_congr_left hbytes]
  rfl

theorem replyField_reply (c : QueuedCall) (result : Nat) (data : List QWord) (s : State) (h : c.slot < 64) (hdata : data.length ≤ 7)
    (i k : Nat) (hi : i < data.length) (hk : k < 8) :
    tget 0 (reply c result data s).cores.mailbox (0x1000 + 64 * c.slot + 8 + 8 * i + k)
      = (lget 0 data i).extractLsb' (56 - 8 * k) 8 := by
  rw [(reply_of_slot c result data s h).1, tget_putMailbox, length_replyBytes _ _ _ hdata, if_pos (by omega),
    show 0x1000 + 64 * c.slot + 8 + 8 * i + k - (0x1000 + 64 * c.slot) = 8 * i + k + 8 by omega]
  exact lget_flatMap_bytesOf data _ i k hi hk

theorem mailbox_reply_of_outside (c : QueuedCall) (result : Nat) (data : List QWord) (s : State) (h : c.slot < 64)
    (hdata : data.length ≤ 7) (a : Nat) (ha : a < 0x1000 + 64 * c.slot ∨ 0x1000 + 64 * c.slot + 64 ≤ a) :
    tget 0 (reply c result data s).cores.mailbox a = tget 0 s.cores.mailbox a := by
  rw [(reply_of_slot c result data s h).1, tget_putMailbox, length_replyBytes _ _ _ hdata, if_neg (by omega)]

/-- A call that a field unit serves and has not answered in time. -/
theorem exec_serviceCallTimeout (slot : Nat) (c : QueuedCall) (s : State) (hslot : slot < 64)
    (hc : s.cores.calls.find? (fun c => c.slot = slot) = some c) :
    exec (.serviceCallTimeout slot) s = .next (if curatorServes c.call.toNat then s else reply c resTimeout [] s) := by
  simp only [exec, execServiceCallTimeout, hc, Nat.not_le.2 hslot, decide_false, Bool.or_false]

theorem repliesAreWritten : Claims.RepliesAreWritten := by
  constructor
  · intro c result data s hslot hdata t
    obtain ⟨-, hout, hcalls⟩ := reply_of_slot c result data s hslot
    exact ⟨replyHead_reply c result data s hslot hdata, replyField_reply c result data s hslot hdata,
      mailbox_reply_of_outside c result data s hslot hdata, hout, hcalls⟩
  · intro slot c s hslot hc
    rw [exec_serviceCallTimeout slot c s hslot hc]
    exact ⟨fun hfield => by rw [hfield]; rfl, fun hcurator => by rw [hcurator]; rfl⟩

/-! ### Reports and counters (R39, R285, R339, R381, R433, R546, R676) -/

theorem slot_of_callOf {slot code : Nat} {s : State} {c : QueuedCall} (h : callOf slot code s = some c) : c.slot = slot := by
  unfold callOf at h
  split at h
  · have hfound := List.find?_some h
    simp only [Bool.and_eq_true, decide_eq_true_eq] at hfound
    exact hfound.1
  · cases h

theorem replyBulk_of_aligned (c : QueuedCall) (a : Nat) (bs : List Byte) (s : State) (h : a % 8 = 0) :
    replyBulk c a bs s = reply c resOk [BitVec.ofNat 64 bs.length] (hostWriteBytes a bs s) := by
  rw [replyBulk, if_neg (not_not.2 h)]

theorem replyBulk_of_unaligned (c : QueuedCall) (a : Nat) (bs : List Byte) (s : State) (h : a % 8 ≠ 0) :
    replyBulk c a bs s = reply c resRange [] s := by
  rw [replyBulk, if_pos h]

theorem exec_loadReport (slot : Nat) (c : QueuedCall) (s : State) (hc : callOf slot 0x0001 s = some c) (hskip : s.loader.skipped = []) :
    exec (.loadReport slot) s = .next (reply c resOk
      [0, s.loader.discarded.setWidth 64, s.loader.dropped.setWidth 64, s.loader.failed.setWidth 64,
        s.loader.repeated.setWidth 64, 0, 0] s) := by
  simp [exec, execLoadReport, hc, hskip, lget]

/-- The numbers of barrier_counters: the discards, then two counts for each lane of each direction. -/
def barrierCounts (s : State) : List Nat :=
  (satAdd s.barrier.toField.undefinedCount s.barrier.toHost.undefinedCount.toNat).toNat
    :: (dirCounts s.barrier.toField ++ dirCounts s.barrier.toHost)

theorem exec_barrierCounters (slot : Nat) (c : QueuedCall) (s : State) (hc : callOf slot 0x0003 s = some c) :
    exec (.barrierCounters slot) s = .next (replyBulk c (argOf c 0).toNat (packed (barrierCounts s)) s) := by
  simp only [exec, execBarrierCounters, hc]
  rfl

theorem length_barrierCounts (s : State) : (barrierCounts s).length = 73 := by
  have hdir : ∀ d : BarrierDir, (dirCounts d).length = 36 := fun d => length_flatMap_of_const _ 2 (fun _ => rfl) _
  simp [barrierCounts, hdir]

/-- The four counts of a lane. -/
def laneCounts (x : Lane) : List Nat := [x.wordErrors.toNat, x.crcErrors.toNat, x.quarterErrors.toNat, x.lostCount.toNat]

/-- The numbers of link_counters, link after link. -/
def linkCounts (s : State) : List Nat := (s.link0.lanes ++ s.link1.lanes).flatMap laneCounts

theorem exec_linkCounters (slot : Nat) (c : QueuedCall) (s : State) (hc : callOf slot 0x0004 s = some c) :
    exec (.linkCounters slot) s = .next (replyBulk c (argOf c 0).toNat (packed (linkCounts s)) s) := by
  simp only [exec, execLinkCounters, hc]
  rfl

theorem length_linkCounts (s : State) (h0 : s.link0.lanes.length = 32) (h1 : s.link1.lanes.length = 32) :
    (linkCounts s).length = 256 := by
  rw [linkCounts, length_flatMap_of_const laneCounts 4 (fun _ => rfl), List.length_append, h0, h1]

/-- Its first 32 bytes are the counts of lane 0 of F0. -/
theorem take_linkCounts (s : State) (h0 : s.link0.lanes.length = 32) :
    (packed (linkCounts s)).take 32 = packed (laneCounts (lane .f0 0 s)) := by
  obtain ⟨x, rest, hlanes⟩ := List.exists_cons_of_length_pos (h0 ▸ (by norm_num : 0 < 32))
  have hlane : lane .f0 0 s = x := by simp [lane, flink, hlanes, lget]
  have hsplit : packed (linkCounts s) = packed (laneCounts x) ++ packed ((rest ++ s.link1.lanes).flatMap laneCounts) := by
    rw [linkCounts, hlanes, List.cons_append, List.flatMap_cons, packed, List.flatMap_append]
    rfl
  rw [hlane, hsplit, List.take_left' (by rw [length_packed]; rfl)]

theorem exec_surveyRead (slot : Nat) (c : QueuedCall) (s : State) (hc : callOf slot 0x000E s = some c) :
    exec (.surveyRead slot) s = .next (replyBulk c (argOf c 0).toNat (surveyBlock s) (drawFree s)) := by
  simp only [exec, execSurveyRead, hc]

/-- A block goes to host memory before the reply that tells of it. -/
theorem hostOut_replyBulk (c : QueuedCall) (a : Nat) (bs : List Byte) (s : State) (ha : a % 8 = 0) (h : c.slot < 64) :
    (replyBulk c a bs s).hostOut = s.hostOut ++ [.memWrite a bs, .msix 1] := by
  rw [replyBulk_of_aligned c a bs s ha, (reply_of_slot c _ _ _ h).2.1]
  exact List.append_assoc _ _ _

theorem exec_memInfo (slot : Nat) (c : QueuedCall) (s : State) (hc : callOf slot 0x0008 s = some c) :
    exec (.memInfo slot) s = .next (reply c resOk [BitVec.ofNat 64 s.params.maLag, BitVec.ofNat 64 s.params.mrec.toNat] s) := by
  simp only [exec, execMemInfo, hc]

/-- At most seven entries of the event log, all of them there, are read; else the call is answered RANGE. -/
theorem exec_eventRead (slot : Nat) (c : QueuedCall) (s : State) (hc : callOf slot 0x0016 s = some c) :
    exec (.eventRead slot) s = .next (if 7 < (argOf c 1).toNat ∨ s.cores.eventLog.length < (argOf c 0).toNat + (argOf c 1).toNat
      then reply c resRange [] s
      else reply c resOk ((s.cores.eventLog.drop (argOf c 0).toNat).take (argOf c 1).toNat) s) := by
  simp only [exec, execEventRead, hc, Bool.or_eq_true, decide_eq_true_eq]

theorem reportsAreGiven : Claims.ReportsAreGiven := by
  intro slot c s addr
  refine ⟨exec_loadReport slot c s, fun hc => ⟨fun ha => ?_, fun ha => ?_⟩, fun hc ha h0 h1 => ?_, fun hc ha hslot => ?_,
    exec_memInfo slot c s, fun hc => ⟨fun hfew hthere => ?_, fun hbad => ?_⟩⟩
  · refine ⟨packed (barrierCounts s), by rw [length_packed, length_barrierCounts], ?_⟩
    rw [exec_barrierCounters slot c s hc, replyBulk_of_aligned c _ _ s ha, length_packed, length_barrierCounts]
    rfl
  · rw [exec_barrierCounters slot c s hc, replyBulk_of_unaligned c _ _ s ha]
  · refine ⟨packed (linkCounts s), by rw [length_packed, length_linkCounts s h0 h1], ?_, ?_⟩
    · rw [exec_linkCounters slot c s hc, replyBulk_of_aligned c _ _ s ha, length_packed, length_linkCounts s h0 h1]
      rfl
    · rw [take_linkCounts s h0]
      simp [packed, laneCounts]
  · refine ⟨_, surveyBlock s, exec_surveyRead slot c s hc, ?_⟩
    exact hostOut_replyBulk c _ _ (drawFree s) ha ((slot_of_callOf hc).symm ▸ hslot)
  · rw [exec_eventRead slot c s hc, if_neg (not_or.2 ⟨Nat.not_lt.2 hfew, Nat.not_lt.2 hthere⟩)]
  · rw [exec_eventRead slot c s hc, if_pos hbad]

/-! ### Key provisioning (R448) -/

theorem setBit_true {n : Nat} (x : BitVec n) (k : Nat) : setBit x k true = x ||| BitVec.twoPow n k := by
  refine BitVec.eq_of_getLsbD_eq (fun j hj => ?_)
  rw [getLsbD_setBit, getLsbD_or_twoPow]
  split
  · next h => rw [decide_eq_true hj, decide_eq_true h, Bool.and_true, Bool.or_true]
  · next h => rw [decide_eq_false h, Bool.and_false, Bool.or_false]

/-- The key that a call of key_provision carries wrapped, if its blob unwraps. -/
def carriedKey (c : QueuedCall) : Option (BitVec 256) :=
  keyUnwrap Config.provisioningKey ((List.range 5).map (fun i => argOf c (i + 1)))

/-- A call of key_provision that carries `key`. -/
def provision (c : QueuedCall) (key : Option (BitVec 256)) (s : State) : State :=
  if 4 ≤ (argOf c 0).toNat then reply c resRange [] s
  else if s.otp.programmed.getLsbD (argOf c 0).toNat then reply c resRefused [] s
  else key.elim (reply c resRefused [] s) (fun key => reply c resOk [] { s with otp := { s.otp with
    programmed := s.otp.programmed ||| BitVec.twoPow 4 (argOf c 0).toNat, keys := tput s.otp.keys (argOf c 0).toNat key } })

theorem exec_keyProvision (slot : Nat) (c : QueuedCall) (s : State) (hc : callOf slot 0x0002 s = some c) :
    exec (.keyProvision slot) s = .next (provision c (carriedKey c) s) := by
  change execKeyProvision slot s = _
  unfold execKeyProvision provision carriedKey
  generalize keyUnwrap = unwrap
  rw [hc]
  simp only [setBit_true]
  cases unwrap Config.provisioningKey ((List.range 5).map (fun i => argOf c (i + 1))) <;> rfl

theorem provision_of_range (c : QueuedCall) (key : Option (BitVec 256)) (s : State) (hk : 4 ≤ (argOf c 0).toNat) :
    provision c key s = reply c resRange [] s := by
  rw [provision, if_pos hk]

theorem provision_of_refused (c : QueuedCall) (key : Option (BitVec 256)) (s : State) (hk : (argOf c 0).toNat < 4)
    (hbad : s.otp.programmed.getLsbD (argOf c 0).toNat = true ∨ key = none) : provision c key s = reply c resRefused [] s := by
  rw [provision, if_neg (Nat.not_le.2 hk)]
  split
  · rfl
  · next hfree => rw [hbad.resolve_left hfree, Option.elim_none]

/-- An unprogrammed slot takes the key, and the fuses are as before but for it. -/
theorem provision_of_key (c : QueuedCall) (key : BitVec 256) (s : State) (hk : (argOf c 0).toNat < 4)
    (hfree : s.otp.programmed.getLsbD (argOf c 0).toNat = false) : (provision c (some key) s).otp = { s.otp with
      programmed := s.otp.programmed ||| BitVec.twoPow 4 (argOf c 0).toNat, keys := tput s.otp.keys (argOf c 0).toNat key } := by
  rw [provision, if_neg (Nat.not_le.2 hk), if_neg (Bool.not_eq_true _ ▸ hfree), Option.elim_some, (reply_frame _ _ _ _).2.2.1]

theorem keysAreProvisionedOnce : Claims.KeysAreProvisionedOnce := by
  intro slot c s hc k blob
  rw [exec_keyProvision slot c s hc]
  refine ⟨fun hk => ?_, fun hk hbad => ?_, fun hk hfree key hkey => ?_⟩
  · rw [provision_of_range c _ s hk]
  · rw [provision_of_refused c (carriedKey c) s hk hbad]
  · have hcarried : carriedKey c = some key := hkey
    refine ⟨_, rfl, ?_⟩
    rw [hcarried]
    exact provision_of_key c key s hk hfree

/-- Settles O54: a reply is 64 bytes in its slot and the vector, and each call answers its numbers or its block by one. -/
theorem serviceReplies : Obligations.ServiceReplies :=
  ⟨repliesAreWritten, reportsAreGiven, keysAreProvisionedOnce⟩

end Sys2Proof.Machine
end

section
/-! PROOF. The debug port: what each level permits, and reads and writes of its spaces (O58). -/

namespace Sys2Proof.Machine

/-! ### Levels (R552) -/

theorem permitted_of_low (level : Nat) (f : State → State) (s : State) (h : effectiveLevel s < level) :
    permitted level f s = answer dbgDenied [] s := by
  rw [permitted, if_pos h]

theorem permitted_of_level (level : Nat) (f : State → State) (s : State) (h : level ≤ effectiveLevel s) :
    permitted level f s = f s := by
  rw [permitted, if_neg (Nat.not_lt.2 h)]

/-- Sinks that halt a core need FULL. -/
theorem trigger_of_low (channel : Nat) (sources : DWord) (sinks : Word) (addr : DWord) (s : State) (h : effectiveLevel s < 2)
    (hsinks : sinks &&& 0xF#16 ≠ 0) : trigger channel sources sinks addr s = answer dbgDenied [] s := by
  have hdenied : (decide (sinks &&& 0xF#16 ≠ 0) && decide (effectiveLevel s < 2)) = true := by
    rw [decide_eq_true hsinks, decide_eq_true h, Bool.and_self]
  rw [trigger, if_pos hdenied]

theorem commandsBelowTheirLevel : Claims.CommandsBelowTheirLevel := by
  intro space addr count words cores core channel sources sinks s
  refine ⟨fun hlow c hc => ?_, fun hlow c hc => ?_, fun hlow hsinks => congrArg Host.Outcome.next ?_⟩
  · simp only [List.mem_cons, List.not_mem_nil, or_false] at hc
    rcases hc with rfl | rfl | rfl | rfl <;> exact congrArg Host.Outcome.next (permitted_of_low 1 _ s hlow)
  · simp only [List.mem_cons, List.not_mem_nil, or_false] at hc
    rcases hc with rfl | rfl | rfl | rfl <;> exact congrArg Host.Outcome.next (permitted_of_low 2 _ s hlow)
  · by_cases hnone : effectiveLevel s < 1
    · exact permitted_of_low 1 _ s hnone
    · exact (permitted_of_level 1 _ s (Nat.not_lt.1 hnone)).trans (trigger_of_low channel sources sinks addr s hlow hsinks)

/-! ### Reads (R553 to R555) -/

theorem debugRead_of_range (space : Byte) (addr : DWord) (count : Nat) (s : State) (h : spaceOk space addr.toNat count = false) :
    debugRead space addr count s = answer dbgRange [] s := by
  simp only [debugRead, h, Bool.not_false, if_true]

theorem spaceOk_register (a : Nat) (h : a < 64) : spaceOk 0 a 1 = true := by
  simpa [spaceOk] using h

/-- A register other than the table data reads as it stands. -/
theorem debugRead_register (addr : DWord) (s : State) (h : addr.toNat < 64) (hdata : addr.toNat < 0x1A ∨ 0x1D < addr.toNat) :
    debugRead 0 addr 1 s = answer dbgOk (bytesOf 4 (regValue (view .debug s) addr.toNat s).toNat) s := by
  have hreg : peekReg addr.toNat s = .ok ((regValue (view .debug s) addr.toNat s).setWidth 32, s) := by
    rw [peekReg, if_neg]
    simp only [Bool.and_eq_true, decide_eq_true_eq]
    omega
  have hpeek : peekRegs addr.toNat 1 [] s = .ok ([(regValue (view .debug s) addr.toNat s).setWidth 32], s) := by
    simp only [peekRegs, hreg, List.nil_append]
  have hspace : BitVec.toNat (0 : Byte) = 0 := rfl
  have hword : ((regValue (view .debug s) addr.toNat s).setWidth 32).toNat = (regValue (view .debug s) addr.toNat s).toNat :=
    BitVec.toNat_setWidth_of_le (by norm_num)
  simp only [debugRead, spaceOk_register _ h, hspace, hpeek, Bool.not_true, Bool.false_eq_true, if_false, List.flatMap_cons,
    List.flatMap_nil, List.append_nil, hword]

/-- A word of a core or of Common Store that cannot be read is answered with why. -/
theorem debugRead_core_of_error (addr : DWord) (count : Nat) (e : Byte) (s : State) (h : spaceOk 3 addr.toNat count = true)
    (hpeek : peekCore addr.toNat count s = .error e) : debugRead 3 addr count s = answer e [] s := by
  have hspace : BitVec.toNat (3 : Byte) = 3 := rfl
  simp only [debugRead, h, hspace, hpeek, Bool.not_true, Bool.false_eq_true, if_false]

theorem debugRead_core_of_words (addr : DWord) (count : Nat) (ws : List DWord) (s : State) (h : spaceOk 3 addr.toNat count = true)
    (hpeek : peekCore addr.toNat count s = .ok ws) :
    debugRead 3 addr count s = answer dbgOk (ws.flatMap (fun w => bytesOf 4 w.toNat)) s := by
  have hspace : BitVec.toNat (3 : Byte) = 3 := rfl
  simp only [debugRead, h, hspace, hpeek, Bool.not_true, Bool.false_eq_true, if_false]

theorem debugRead_store_of_error (addr : DWord) (count : Nat) (e : Byte) (s : State) (h : spaceOk 2 addr.toNat count = true)
    (hpeek : peekStore addr.toNat count s = .error e) : debugRead 2 addr count s = answer e [] s := by
  have hspace : BitVec.toNat (2 : Byte) = 2 := rfl
  simp only [debugRead, h, hspace, hpeek, Bool.not_true, Bool.false_eq_true, if_false]

theorem peekCore_of_running (a n : Nat) (s : State) (h : (coreState (coreAt (a / 0x40000)) s).halted = false) :
    peekCore a n s = .error dbgNotHalted := by
  simp only [peekCore, h, Bool.not_false, if_true]

theorem peekCore_of_halted (a : Nat) (s : State) (h : (coreState (coreAt (a / 0x40000)) s).halted = true) :
    peekCore a 1 s = .ok [coreReg (coreAt (a / 0x40000)) (a % 0x40000) s] := by
  simp only [peekCore, h, Bool.not_true, Bool.false_eq_true, if_false]
  rfl

theorem fieldReach_of_awake (s : State) (h : fieldAwake s = true) : fieldReach s = none := by
  rw [fieldReach, if_pos h]

/-- A Dormant field side that is heard from is asleep. -/
theorem fieldReach_of_dormant (s : State) (hd : s.power.field = .dormant) (hs : s.barrier.fieldSilent = false) :
    fieldReach s = some dbgAsleep := by
  simp [fieldReach, fieldAwake, hd, hs]

theorem peekStore_of_dormant (a n : Nat) (s : State) (hd : s.power.field = .dormant) (hs : s.barrier.fieldSilent = false) :
    peekStore a n s = .error dbgAsleep := by
  simp only [peekStore, fieldReach_of_dormant s hd hs]

/-! ### Writes (R450, R554) -/

theorem debugWrite_of_range (space : Byte) (addr : DWord) (words : List DWord) (s : State)
    (h : spaceOk space addr.toNat words.length = false) : debugWrite space addr words s = answer dbgRange [] s := by
  simp only [debugWrite, h, Bool.not_false, if_true]

/-- One word to a register is a write by master 3. -/
theorem debugWrite_register (addr : DWord) (w : DWord) (s : State) (h : addr.toNat < 64) :
    debugWrite 0 addr [w] s = answer dbgOk [] (fileWrite .debug addr.toNat (w.setWidth 16) s) := by
  have hspace : BitVec.toNat (0 : Byte) = 0 := rfl
  have hok : spaceOk 0 addr.toNat [w].length = true := spaceOk_register _ h
  simp only [debugWrite, hok, hspace, Bool.not_true, Bool.false_eq_true, if_false]
  rfl

/-- The number of a register of the core that an address names. -/
def coreKey (a : Nat) : Nat := 256 * coreNum (coreAt (a / 0x40000)) + a % 0x40000

theorem debugWrite_core (addr : DWord) (w : DWord) (s : State) (h : spaceOk 3 addr.toNat 1 = true)
    (hhalted : (coreState (coreAt (addr.toNat / 0x40000)) s).halted = true) :
    debugWrite 3 addr [w] s = answer dbgOk [] (pokeCore (coreKey addr.toNat) w s) := by
  have hspace : BitVec.toNat (3 : Byte) = 3 := rfl
  have hok : spaceOk 3 addr.toNat [w].length = true := h
  simp only [debugWrite, hok, hspace, hhalted, Bool.not_true, Bool.false_eq_true, if_false]
  rfl

/-- One word of an awake bank outside the configuration shadow is written. -/
theorem debugWrite_store (addr : DWord) (w : DWord) (s : State) (h : spaceOk 2 addr.toNat 1 = true) (hawake : fieldAwake s = true)
    (hbank : storeAsleep addr.toNat 1 s = false) (hshadow : inShadow addr.toNat = false)
    (htouches : touchesShadow addr.toNat 4 = false) :
    debugWrite 2 addr [w] s = answer dbgOk [] (csWrite addr.toNat (bytesOf 4 w.toNat) s) := by
  have hspace : BitVec.toNat (2 : Byte) = 2 := rfl
  simp only [debugWrite, List.length_singleton, h, hspace, fieldReach_of_awake s hawake, hbank, htouches, wordsAt, List.foldl_cons,
    List.foldl_nil, pokeStore, hshadow, Nat.mul_one, Bool.not_true, Bool.false_eq_true, if_false]

/-! ### A core register written and read back -/

theorem any_tput {α : Type} (t : Table α) (k : Nat) (v : α) : (tput t k v).any (fun e => decide (e.1 = k)) = true := by
  induction t with
  | nil => simp [tput]
  | cons e t ih =>
    obtain ⟨j, x⟩ := e
    unfold tput
    split
    · simp
    · split
      · simp
      · rw [List.any_cons, ih, Bool.or_true]

theorem coreReg_pokeCore (c : Core) (r : Nat) (w : DWord) (s : State) : coreReg c r (pokeCore (256 * coreNum c + r) w s) = w := by
  simp only [coreReg, pokeCore, any_tput, if_true, tget_tput]

theorem coreState_pokeCore (c : Core) (k : Nat) (w : DWord) (s : State) : coreState c (pokeCore k w s) = coreState c s := by
  cases c <;> rfl

theorem coreState_answer (c : Core) (status : Byte) (data : List Byte) (s : State) :
    coreState c (answer status data s) = coreState c s := by
  cases c <;> rfl

/-- The state after a register of a halted core is written reads it back. -/
theorem debugRead_core_after_write (addr : DWord) (w : DWord) (s : State) (h : spaceOk 3 addr.toNat 1 = true)
    (hhalted : (coreState (coreAt (addr.toNat / 0x40000)) s).halted = true) :
    debugRead 3 addr 1 (answer dbgOk [] (pokeCore (coreKey addr.toNat) w s))
      = answer dbgOk (bytesOf 4 w.toNat) (answer dbgOk [] (pokeCore (coreKey addr.toNat) w s)) := by
  have hstill : (coreState (coreAt (addr.toNat / 0x40000)) (answer dbgOk [] (pokeCore (coreKey addr.toNat) w s))).halted = true := by
    rw [coreState_answer, coreState_pokeCore, hhalted]
  have hreg : coreReg (coreAt (addr.toNat / 0x40000)) (addr.toNat % 0x40000) (answer dbgOk [] (pokeCore (coreKey addr.toNat) w s)) = w :=
    (rfl : _ = coreReg (coreAt (addr.toNat / 0x40000)) (addr.toNat % 0x40000) (pokeCore (coreKey addr.toNat) w s)).trans
      (coreReg_pokeCore _ _ w s)
  rw [debugRead_core_of_words addr 1 _ _ h (peekCore_of_halted addr.toNat _ hstill), hreg]
  simp

theorem debugPortAccess : Claims.DebugPortAccess := by
  intro space addr count words w s
  constructor
  · intro hlevel
    have reads : ∀ sp a n, exec (.debugRead sp a n) s = .next (debugRead sp a n s) :=
      fun sp a n => congrArg Host.Outcome.next (permitted_of_level 1 _ s hlevel)
    simp only [reads]
    refine ⟨fun hrange => ?_, fun hreg hdata => ?_, fun hok hruns => ?_, fun hok hdormant hheard => ?_⟩
    · rw [debugRead_of_range space addr count s hrange]
    · rw [debugRead_register addr s hreg hdata]
    · rw [debugRead_core_of_error addr count _ s hok (peekCore_of_running _ _ s hruns)]
    · rw [debugRead_store_of_error addr count _ s hok (peekStore_of_dormant _ _ s hdormant hheard)]
  · intro hlevel
    have writes : ∀ sp a ws, exec (.debugWrite sp a ws) s = .next (debugWrite sp a ws s) :=
      fun sp a ws => congrArg Host.Outcome.next (permitted_of_level 2 _ s hlevel.ge)
    simp only [writes]
    refine ⟨fun hrange => ?_, fun hreg => ?_, fun hok hhalted => ?_, fun hok hawake hbank hshadow htouches => ?_⟩
    · rw [debugWrite_of_range space addr words s hrange]
    · rw [debugWrite_register addr w s hreg]
    · refine ⟨_, congrArg Host.Outcome.next (debugWrite_core addr w s hok hhalted), congrArg Host.Outcome.next ?_⟩
      have hlevel' : 1 ≤ effectiveLevel (answer dbgOk [] (pokeCore (coreKey addr.toNat) w s)) :=
        hlevel.ge.trans' (by norm_num)
      rw [permitted_of_level 1 _ _ hlevel', debugRead_core_after_write addr w s hok hhalted]
    · rw [debugWrite_store addr w s hok hawake hbank hshadow htouches]

/-- Settles O58: the level decides whether a command acts; a read or write of a space is then the shared operation on its words. -/
theorem debugPort : Obligations.DebugPort :=
  ⟨commandsBelowTheirLevel, debugPortAccess⟩

end Sys2Proof.Machine
end

section
/-! PROOF. The Boolean processors' instruction words (O33, O34) and their evaluating opcodes (O27, O28). -/

namespace Sys2Proof.Machine

/-! ### Instruction words (R66, R75) -/

theorem bpOpOf_bpCodeOf (op : BpOp) : bpOpOf (bpCodeOf op) = op := by
  cases op with
  | reserved k => revert k; decide
  | _ => rfl

theorem bpCodeOf_bpOpOf (code : BitVec 4) : bpCodeOf (bpOpOf code) = code := by
  revert code
  decide

/-- The fields of a word, most significant first. -/
theorem append_bpFields (w : BitVec 64) : w.extractLsb' 60 4 ++ w.extractLsb' 44 16 ++ w.extractLsb' 33 11
    ++ w.extractLsb' 22 11 ++ w.extractLsb' 11 11 ++ w.extractLsb' 0 11 = w := by
  simp (disch := norm_num) only [BitVec.extractLsb'_append_extractLsb'_eq_extractLsb']
  exact BitVec.extractLsb'_eq_self

theorem decodeBp_encodeBp (x : BpInstr) : decodeBp (encodeBp x) = x := by
  obtain ⟨op, tt, a, b, c, d⟩ := x
  simp (disch := norm_num) only [decodeBp, encodeBp, BitVec.extractLsb'_append_eq_of_le, BitVec.extractLsb'_append_eq_of_add_le]
  simp only [Nat.sub_self, Nat.reduceSub, BitVec.extractLsb'_eq_self, bpOpOf_bpCodeOf]

theorem encodeBp_decodeBp (w : BitVec 64) : encodeBp (decodeBp w) = w := by
  simp only [encodeBp, decodeBp, bpCodeOf_bpOpOf, append_bpFields]

/-- Settles O33: the opcode and its code, and the fields and the word, determine each other. -/
theorem bpRoundTrip : Obligations.BpRoundTrip := ⟨decodeBp_encodeBp, encodeBp_decodeBp⟩

/-- Settles O34: the words are closed, so their fields are computed. -/
theorem bpWordsDecode : Obligations.BpWordsDecode := by
  unfold Obligations.BpWordsDecode
  decide

/-! ### Evaluating opcodes (R65, R67, R96) -/

theorem getLsbD_lanes (f : Nat → Bool) (n : Nat) (h : n < 16) : (lanes f).getLsbD n = f n := by
  simp [lanes, BitVec.getLsbD_ofBoolListLE, h, -BitVec.getLsbD_eq_getElem]

/-- Settles O27: each of the four is one step of `runStep`, and its result is made of lanes. -/
theorem evalPerLane : Obligations.EvalPerLane := by
  intro g bp i s x bit
  exact ⟨ttResult g bp i x (bpStart g bp i s), fun n hn => getLsbD_lanes _ n hn,
    fun h => congrArg Host.Outcome.next (if_pos h), fun h => congrArg Host.Outcome.next (if_pos h),
    fun h => congrArg Host.Outcome.next (if_pos h), fun h => congrArg Host.Outcome.next (if_pos h)⟩

/-- The number that four bits spell, A most significant (R67). -/
def ttIndex (a b c d : Bool) : Nat := 8 * a.toNat + 4 * b.toNat + 2 * c.toNat + d.toNat

theorem ttIndex_testBits : ∀ k, k < 16 → ttIndex (k.testBit 3) (k.testBit 2) (k.testBit 1) (k.testBit 0) = k := by decide

theorem testBits_ttIndex : ∀ a b c d : Bool, ttIndex a b c d < 16 ∧ (ttIndex a b c d).testBit 3 = a
    ∧ (ttIndex a b c d).testBit 2 = b ∧ (ttIndex a b c d).testBit 1 = c ∧ (ttIndex a b c d).testBit 0 = d := by decide

/-- The results of a pair are those of the assignments that its operands allow. -/
theorem mem_pairResults (tt a b c d : Word) (m : Nat) (r : Bool) : r ∈ pairResults tt a b c d m ↔
    ∃ p q u v : Bool, pairAllows a m p = true ∧ pairAllows b m q = true ∧ pairAllows c m u = true ∧ pairAllows d m v = true
      ∧ tt.getLsbD (ttIndex p q u v) = r := by
  simp only [pairResults, List.mem_map, List.mem_filter, List.mem_range, Bool.and_eq_true, and_assoc]
  constructor
  · rintro ⟨k, hk, ha, hb, hc, hd, hr⟩
    exact ⟨_, _, _, _, ha, hb, hc, hd, by rw [ttIndex_testBits k hk, hr]⟩
  · rintro ⟨p, q, u, v, ha, hb, hc, hd, hr⟩
    obtain ⟨hlt, h3, h2, h1, h0⟩ := testBits_ttIndex p q u v
    exact ⟨ttIndex p q u v, hlt, h3.symm ▸ ha, h2.symm ▸ hb, h1.symm ▸ hc, h0.symm ▸ hd, hr⟩

theorem pairAllows_iff (x : Word) (m : Nat) (v : Bool) :
    pairAllows x m v = true ↔ x.getLsbD (2 * m + 1) = true ∨ x.getLsbD (2 * m) = v := by
  simp [pairAllows, -BitVec.getLsbD_eq_getElem]

/-- Every pair has an assignment: the one that gives each operand its value bit. -/
theorem exists_mem_pairResults (tt a b c d : Word) (m : Nat) : ∃ r, r ∈ pairResults tt a b c d m :=
  have own (x : Word) : pairAllows x m (x.getLsbD (2 * m)) = true := (pairAllows_iff x m _).2 (.inr rfl)
  ⟨_, (mem_pairResults tt a b c d m _).2 ⟨_, _, _, _, own a, own b, own c, own d, rfl⟩⟩

theorem eval3TT_lanes (tt a b c d : Word) (m : Nat) (h : m < 8) :
    (eval3TT tt a b c d).getLsbD (2 * m) = (pairResults tt a b c d m).all id
    ∧ (eval3TT tt a b c d).getLsbD (2 * m + 1)
      = !((pairResults tt a b c d m).all id || (pairResults tt a b c d m).all not) := by
  rw [eval3TT, getLsbD_lanes _ _ (by omega), getLsbD_lanes _ _ (by omega)]
  simp [show (2 * m + 1) / 2 = m by omega]

/-- A pair whose assignments all give one value takes it. -/
theorem eval3TT_common (tt a b c d : Word) (m : Nat) (h : m < 8) (r : Bool) (hr : ∀ r' ∈ pairResults tt a b c d m, r' = r) :
    (eval3TT tt a b c d).getLsbD (2 * m + 1) = false ∧ (eval3TT tt a b c d).getLsbD (2 * m) = r := by
  obtain ⟨r', hr'⟩ := exists_mem_pairResults tt a b c d m
  obtain rfl := hr r' hr'
  rw [(eval3TT_lanes tt a b c d m h).1, (eval3TT_lanes tt a b c d m h).2]
  cases r' with
  | true =>
    have h1 : (pairResults tt a b c d m).all id = true := List.all_eq_true.2 hr
    simp [h1]
  | false =>
    have h0 : (pairResults tt a b c d m).all not = true := List.all_eq_true.2 fun x hx => by simp [hr x hx]
    have h1 : (pairResults tt a b c d m).all id = false := List.all_eq_false.2 ⟨_, hr', by simp⟩
    simp [h0, h1]

/-- A pair whose assignments give both values is X. -/
theorem eval3TT_unknown (tt a b c d : Word) (m : Nat) (h : m < 8) (h0 : false ∈ pairResults tt a b c d m)
    (h1 : true ∈ pairResults tt a b c d m) :
    (eval3TT tt a b c d).getLsbD (2 * m + 1) = true ∧ (eval3TT tt a b c d).getLsbD (2 * m) = false := by
  have hid : (pairResults tt a b c d m).all id = false := List.all_eq_false.2 ⟨_, h0, by simp⟩
  have hnot : (pairResults tt a b c d m).all not = false := List.all_eq_false.2 ⟨_, h1, by simp⟩
  rw [(eval3TT_lanes tt a b c d m h).1, (eval3TT_lanes tt a b c d m h).2]
  simp [hid, hnot]

/-- Settles O28: the values that the allowed assignments give are the members of `pairResults`. -/
theorem eval3PerPair : Obligations.Eval3PerPair := by
  intro g bp i s x may gives
  have hgives (m : Nat) (r : Bool) : gives m r ↔ r ∈ pairResults x.tt (bpOperand g bp i x.a s) (bpOperand g bp i x.b s)
      (bpOperand g bp i x.c s) (bpOperand g bp i x.d s) m := by
    simp only [mem_pairResults, pairAllows_iff]
    rfl
  refine ⟨tt3Result g bp i x (bpStart g bp i s), fun m hm => ⟨fun r hr => ?_, fun h0 h1 => ?_⟩,
    fun h => congrArg Host.Outcome.next (if_pos h), fun h => congrArg Host.Outcome.next (if_pos h)⟩
  · exact eval3TT_common _ _ _ _ _ m hm r fun r' hr' => hr r' ((hgives m r').2 hr')
  · exact eval3TT_unknown _ _ _ _ _ m hm ((hgives m false).1 h0) ((hgives m true).1 h1)

end Sys2Proof.Machine
end

section
/-! PROOF. The other opcodes of the Boolean processors, and the rows that their results are written to (O29). -/

namespace Sys2Proof.Machine

/-! ### The four words of a state row (R91, R452) -/

theorem getLsbD_wordOfRow (d : QWord) (k j : Nat) :
    (wordOfRow d k).getLsbD j = (decide (j < 16) && d.getLsbD (48 - 16 * (k % 4) + j)) := by
  simp [wordOfRow, -BitVec.getLsbD_eq_getElem]

/-- A row with a word replaced holds that word, and elsewhere what it held. -/
theorem wordOfRow_mergeRow (d : QWord) (w k : Nat) (v : Word) :
    wordOfRow (mergeRow d w v) k = if k % 4 = w % 4 then v else wordOfRow d k := by
  apply BitVec.eq_of_getLsbD_eq
  intro j hj
  rw [getLsbD_wordOfRow, mergeRow, getLsbD_setFld _ _ _ _ _ (by omega)]
  by_cases h : k % 4 = w % 4
  · rw [if_pos h, if_pos (by omega), show 48 - 16 * (k % 4) + j - (48 - 16 * (w % 4)) = j by omega]
    simp [hj, show 48 - 16 * (k % 4) + j < 64 by omega, BitVec.getLsbD]
  · rw [if_neg h, if_neg (by omega), getLsbD_wordOfRow]

/-- The words of a row, word 0 most significant, spell the row. -/
theorem ofNat_wordOfRow (d : QWord) : BitVec.ofNat 64 ((((wordOfRow d 0).toNat * 65536 + (wordOfRow d 1).toNat) * 65536
    + (wordOfRow d 2).toNat) * 65536 + (wordOfRow d 3).toNat) = d := by
  apply BitVec.eq_of_toNat_eq
  have := d.isLt
  simp only [wordOfRow, BitVec.extractLsb'_toNat, Nat.shiftRight_eq_div_pow, BitVec.toNat_ofNat, Nat.reduceMod, Nat.reduceMul,
    Nat.reduceSub, Nat.reducePow]
  omega

theorem bchDecode_zero (d : QWord) : bchDecode d 0 = (.clean, d) := rfl

/-! ### A row written whole (R93) -/

theorem bankValid_putRow (prev : Bool) (row : Nat) (d : QWord) (s : State) :
    bankValid prev (putRow prev row d s) = nins (bankValid prev s) row := by
  cases prev <;> rfl

theorem bankPoison_putRow (prev : Bool) (row : Nat) (d : QWord) (s : State) :
    bankPoison prev (putRow prev row d s) = bankPoison prev s := by
  cases prev <;> rfl

theorem bankDev_putRow (prev : Bool) (row : Nat) (d : QWord) (s : State) :
    bankDev prev (putRow prev row d s) = tdel (bankDev prev s) row := by
  cases prev <;> rfl

theorem bankWords_putRow (prev : Bool) (row : Nat) (d : QWord) (s : State) : bankWords prev (putRow prev row d s)
    = (List.range 4).foldl (fun t k => tset 0 t (4 * row + k) (wordOfRow d k)) (bankWords prev s) := by
  cases prev <;> rfl

theorem tget_bankWords_putRow (prev : Bool) (row r k : Nat) (d : QWord) (s : State) (hk : k < 4) :
    tget 0 (bankWords prev (putRow prev row d s)) (4 * r + k)
      = if r = row then wordOfRow d k else tget 0 (bankWords prev s) (4 * r + k) := by
  have hkeys (j : Nat) (hj : j < 4) : 4 * r + k = 4 * row + j ↔ r = row ∧ k = j := by omega
  simp only [bankWords_putRow, List.range, List.range.loop, List.foldl, tget_tset, hkeys, Nat.reduceLT]
  by_cases hr : r = row
  · obtain rfl | rfl | rfl | rfl : k = 0 ∨ k = 1 ∨ k = 2 ∨ k = 3 := by omega
    all_goals simp [hr]
  · simp [hr]

/-- A row written whole stands under its own check bits. -/
theorem rowDecode_putRow (prev : Bool) (row : Nat) (d : QWord) (s : State) :
    rowDecode prev row (putRow prev row d s) = (.clean, d) := by
  have hwords (k : Nat) (hk : k < 4) : tget 0 (bankWords prev (putRow prev row d s)) (4 * row + k) = wordOfRow d k := by
    rw [tget_bankWords_putRow _ _ _ _ _ _ hk, if_pos rfl]
  have hword : rowWord prev row (putRow prev row d s) = d := by
    have hfirst : tget 0 (bankWords prev (putRow prev row d s)) (4 * row) = wordOfRow d 0 := hwords 0 (by norm_num)
    simp only [rowWord, hfirst, hwords 1 (by norm_num), hwords 2 (by norm_num), hwords 3 (by norm_num), ofNat_wordOfRow]
  rw [rowDecode, hword, bankDev_putRow, tget_tdel, if_pos rfl, bchDecode_zero]

theorem stateValue_putRow (prev : Bool) (bpn w : Nat) (d : QWord) (s : State)
    (hp : (bankPoison prev s).contains (rowKey bpn w) = false) :
    stateValue prev bpn w (putRow prev (rowKey bpn w) d s) = wordOfRow d w := by
  simp only [stateValue, bankValid_putRow, contains_nins, bankPoison_putRow, hp, rowDecode_putRow, Bool.not_true, Bool.or_self,
    Bool.false_eq_true, reduceCtorEq, if_false]

/-! ### Writes of a state word (R93, R460) -/

theorem stateWrite_of_invalid (prev : Bool) (bpn w : Nat) (v : Word) (s : State)
    (hp : (bankPoison prev s).contains (rowKey bpn w) = false) (hv : (bankValid prev s).contains (rowKey bpn w) = false) :
    stateWrite prev bpn w v s = putRow prev (rowKey bpn w) (mergeRow 0 w v) s := by
  simp [stateWrite, hp, hv, -List.contains_eq_mem]

/-- The state after a correctable error found in a row, if any, is counted. -/
def afterRowCount (prev : Bool) (row : Nat) (s u : State) : Prop :=
  u = s ∨ ∃ cls, u = countError (rowStore prev) cls (rowLocation row) 0 s

/-- A write that finds no uncorrectable error merges its word into the row. -/
theorem stateWrite_puts (prev : Bool) (bpn w : Nat) (v : Word) (s : State)
    (hp : (bankPoison prev s).contains (rowKey bpn w) = false) (hd : (rowDecode prev (rowKey bpn w) s).1 ≠ .uncorrectable) :
    ∃ d u, afterRowCount prev (rowKey bpn w) s u ∧ stateWrite prev bpn w v s = putRow prev (rowKey bpn w) (mergeRow d w v) u := by
  cases hv : (bankValid prev s).contains (rowKey bpn w) with
  | false => exact ⟨0, s, .inl rfl, stateWrite_of_invalid prev bpn w v s hp hv⟩
  | true =>
    refine ⟨(rowDecode prev (rowKey bpn w) s).2, ?_⟩
    cases hc : (rowDecode prev (rowKey bpn w) s).1 with
    | uncorrectable => exact absurd hc hd
    | clean => exact ⟨s, .inl rfl, by simp [stateWrite, hp, hv, hc, -List.contains_eq_mem]⟩
    | dataBit => exact ⟨_, .inr ⟨classCode .dataBit, rfl⟩, by simp [stateWrite, hp, hv, hc, -List.contains_eq_mem]⟩
    | checkBit => exact ⟨_, .inr ⟨classCode .checkBit, rfl⟩, by simp [stateWrite, hp, hv, hc, -List.contains_eq_mem]⟩
    | twoBits => exact ⟨_, .inr ⟨classCode .twoBits, rfl⟩, by simp [stateWrite, hp, hv, hc, -List.contains_eq_mem]⟩

/-- All that a write of a state word can do. -/
theorem stateWrite_cases (prev : Bool) (bpn w : Nat) (v : Word) (s : State) :
    stateWrite prev bpn w v s = s ∨ stateWrite prev bpn w v s = rowUncorrectable prev (rowKey bpn w) s
    ∨ ∃ d u, afterRowCount prev (rowKey bpn w) s u ∧ stateWrite prev bpn w v s = putRow prev (rowKey bpn w) (mergeRow d w v) u := by
  cases hp : (bankPoison prev s).contains (rowKey bpn w) with
  | true => exact .inl (by rw [stateWrite, if_pos hp])
  | false =>
    by_cases hd : (rowDecode prev (rowKey bpn w) s).1 = .uncorrectable
    · cases hv : (bankValid prev s).contains (rowKey bpn w) with
      | true => exact .inr (.inl (by simp [stateWrite, hp, hv, hd, -List.contains_eq_mem]))
      | false => exact .inr (.inr ⟨0, s, .inl rfl, stateWrite_of_invalid prev bpn w v s hp hv⟩)
    · exact .inr (.inr (stateWrite_puts prev bpn w v s hp hd))

theorem firstWriteOfARow : Claims.FirstWriteOfARow := by
  intro prev bpn w v s row t hp hv
  have ht : t = putRow prev row (mergeRow 0 w v) s := stateWrite_of_invalid prev bpn w v s hp hv
  rw [ht]
  refine ⟨?_, fun k hk hkw => ?_, ?_, ?_, fun r hr k hk => ?_⟩
  · rw [stateValue_putRow _ _ _ _ _ hp, wordOfRow_mergeRow, if_pos rfl]
  · have hrow : row = rowKey bpn (4 * (w / 4) + k) := by simp only [row, rowKey]; omega
    rw [hrow] at hp ⊢
    rw [stateValue_putRow _ _ _ _ _ hp, wordOfRow_mergeRow, if_neg (by omega)]
    simp [wordOfRow]
  · rw [rowDecode_putRow]
  · rw [bankValid_putRow, contains_nins]
  · rw [tget_bankWords_putRow _ _ _ _ _ _ hk, if_neg hr]

/-! ### What the parts of a step leave alone -/

/-- Reaching a step sends the blocks due and drops old bus words (R70, R127). -/
theorem atStep_shape (i : Nat) (s : State) : atStep i s = { s with array := { s.array with
    meshBlocksSent := (atStep i s).array.meshBlocksSent, step := (atStep i s).array.step, bus := (atStep i s).array.bus } } := by
  unfold atStep
  split
  · rw [sendStepBlocks_shape]
  · rfl

theorem fetchEffect_keeps (bpn i : Nat) (s : State) :
    (fetchEffect bpn i s).array = s.array ∧ (fetchEffect bpn i s).batches = s.batches
    ∧ (fetchEffect bpn i s).barrier = s.barrier := by
  unfold fetchEffect
  split
  · exact ⟨rfl, rfl, rfl⟩
  · split <;> simp

/-- What an instruction's start leaves of the array and of the batches. -/
theorem bpStart_shape (g bp i : Nat) (s : State) :
    (bpStart g bp i s).array = { s.array with
      meshBlocksSent := (bpStart g bp i s).array.meshBlocksSent, step := (bpStart g bp i s).array.step
      bus := (bpStart g bp i s).array.bus }
    ∧ (bpStart g bp i s).batches = s.batches ∧ (bpStart g bp i s).barrier = s.barrier := by
  obtain ⟨harray, hbatches, hbarrier⟩ := fetchEffect_keeps (bpNum g bp) i (atStep i s)
  rw [bpStart, harray, hbatches, hbarrier, atStep_shape]
  exact ⟨rfl, rfl, rfl⟩

/-- A write of a current word changes the current bank alone (R64). -/
theorem stateWrite_cur_shape (bpn w : Nat) (v : Word) (s : State) : (stateWrite false bpn w v s).array = { s.array with
    cur := (stateWrite false bpn w v s).array.cur, curValid := (stateWrite false bpn w v s).array.curValid
    curPoison := (stateWrite false bpn w v s).array.curPoison, curDev := (stateWrite false bpn w v s).array.curDev } := by
  obtain h | h | ⟨d, u, hu, h⟩ := stateWrite_cases false bpn w v s
  · rw [h]
  · rw [h]
    simp [rowUncorrectable, poisonRow]
  · have harray : u.array = s.array := by
      obtain rfl | ⟨cls, rfl⟩ := hu <;> simp
    rw [h, ← harray]
    rfl

theorem awaitRepair_shape (g bp row : Nat) (s : State) :
    (awaitRepair g bp row s).array = { s.array with awaiting := (awaitRepair g bp row s).array.awaiting } := by
  unfold awaitRepair
  split
  · rfl
  · simp [fieldEvent]

theorem routeReadEffect_shape (g i p : Nat) (s : State) : (routeReadEffect g i p s).array = { s.array with
    routePoison := (routeReadEffect g i p s).array.routePoison, awaiting := (routeReadEffect g i p s).array.awaiting } := by
  unfold routeReadEffect
  dsimp only
  split
  · simp
  · split
    · rfl
    · rw [awaitRepair_shape]
      simp
    · simp

theorem meshReadEffect_shape (i : Nat) (s : State) : (meshReadEffect i s).array = { s.array with
    meshPoison := (meshReadEffect i s).array.meshPoison, awaiting := (meshReadEffect i s).array.awaiting } := by
  unfold meshReadEffect
  split
  · simp
  · split
    · rfl
    · rw [awaitRepair_shape]
      simp
    · simp

/-! ### SEND, MESH_SEND and STIM (R75, R110, R127) -/

theorem sendBoulevard_array (g i : Nat) (x : BpInstr) (v : Word) (s : State) :
    let e := routeEntry g i (x.tt.toNat % 8) s
    (sendBoulevard g i x v s).array.cur = s.array.cur ∧ (sendBoulevard g i x v s).array.prev = s.array.prev
    ∧ (routeValid e = true →
        (sendBoulevard g i x v s).array.flight = s.array.flight ++ [⟨i + 6, routeGallery e, routePort e, v, none⟩])
    ∧ (routeValid e = false → (sendBoulevard g i x v s).array.flight = s.array.flight) := by
  intro e
  cases h : routeValid e with
  | true =>
    simp only [sendBoulevard, e, h, if_true]
    rw [routeReadEffect_shape]
    simp
  | false =>
    simp only [sendBoulevard, e, h, Bool.false_eq_true, if_false]
    rw [routeReadEffect_shape]
    simp

theorem sendMesh_array (i : Nat) (x : BpInstr) (v : Word) (s : State) :
    (sendMesh i x v s).array.cur = s.array.cur ∧ (sendMesh i x v s).array.flight = s.array.flight
    ∧ (sendMesh i x v s).array.meshOut = s.array.meshOut ++ [⟨i, x.tt.toNat % 16, v, false⟩] := by
  unfold sendMesh
  dsimp only
  split
  · rw [meshReadEffect_shape]
    exact ⟨rfl, rfl, rfl⟩
  · exact ⟨rfl, rfl, rfl⟩

theorem takeStim_of_cons (g : Nat) (x : BpInstr) (w : Word) (rest : List Word) (s : State)
    (h : stimPort g (x.a.toNat - 0x620) s = w :: rest) : takeStim g x s = { s with array := { s.array with
      stim := tset [] s.array.stim (32 * g + (x.a.toNat - 0x620)) rest } } := by
  simp [takeStim, h]

theorem takeStim_of_nil (g : Nat) (x : BpInstr) (s : State) (h : stimPort g (x.a.toNat - 0x620) s = []) :
    takeStim g x s = stimUnderflow s := by
  simp [takeStim, h]

theorem exec_stim (g bp i : Nat) (s : State) (h : executes .stim g bp i s = true) :
    exec (.stim g bp i) s = .next (stateWrite false (bpNum g bp) i
      ((stimPort g ((bpInstr g bp i s).a.toNat - 0x620) (bpStart g bp i s)).headD 0)
      (takeStim g (bpInstr g bp i s) (bpStart g bp i s))) :=
  congrArg Host.Outcome.next (if_pos h)

theorem theOtherOpcodesAct : Claims.TheOtherOpcodes := by
  intro g bp i s x s1 a
  refine ⟨fun h => congrArg Host.Outcome.next (if_pos h), fun h => congrArg Host.Outcome.next (if_pos h),
    fun h => ?_, fun h => ?_, fun h w rest hport => ?_⟩
  · exact ⟨_, congrArg Host.Outcome.next (if_pos h), sendBoulevard_array g i x a _⟩
  · exact ⟨_, congrArg Host.Outcome.next (if_pos h), sendMesh_array i x a _⟩
  · rw [exec_stim g bp i s h, takeStim_of_cons g _ w rest _ hport, hport]
    rfl

/-- Settles O29: each opcode is one step of `runStep`, and a first write is a row written whole. -/
theorem theOtherOpcodes : Obligations.TheOtherOpcodes :=
  ⟨theOtherOpcodesAct, firstWriteOfARow⟩

end Sys2Proof.Machine
end

section
/-! PROOF. What the Boolean processors report: reads of an empty stimulus port (O32) and illegal instructions (O30). -/

namespace Sys2Proof.Machine

/-! ### Faults stand until they are cleared (R629) -/

theorem faultBit_setEvent (c b : Nat) (s : State) : faultBit c (setEvent b s).regs = faultBit c s.regs := by simp [faultBit]

theorem faultBit_withFaultFirst (c code : Nat) (r : RegFile) : faultBit c (withFaultFirst code r) = faultBit c r := by
  unfold withFaultFirst
  split <;> rfl

theorem faultBit_withFaultBit_of_faultBit (c code : Nat) (r : RegFile) (h : faultBit c r = true) :
    faultBit c (withFaultBit code r) = true := by
  unfold withFaultBit
  repeat' split
  all_goals
    simp only [faultBit, getLsbD_or_twoPow] at h ⊢
    split_ifs at h ⊢ <;> simp only [h, Bool.true_or]

/-- A fault that is set stays set when another one comes. -/
theorem faultSet_setFault (c code : Nat) (s : State) (h : faultSet c s) : faultSet c (setFault code s) := by
  have hset : faultBit c (withFaultFirst code (withFaultBit code s.regs)) = true :=
    (faultBit_withFaultFirst c code _).trans (faultBit_withFaultBit_of_faultBit c code _ h)
  unfold setFault
  split
  · exact h
  · dsimp only
    split
    · exact hset
    · exact (faultBit_setEvent _ _ _).trans hset

theorem faultBit_setScrubStatus (c b : Nat) (s : State) : faultBit c (setScrubStatus b s).regs = faultBit c s.regs := by
  unfold setScrubStatus
  dsimp only
  split
  · rfl
  · exact faultBit_setEvent _ _ _

theorem faultBit_countError (c store cls loc bytes : Nat) (s : State) :
    faultBit c (countError store cls loc bytes s).regs = faultBit c s.regs := by
  have hcount : ∀ r : RegFile, r = (if cls = 3 then { s.regs with eccCountUe := satInc s.regs.eccCountUe }
      else { s.regs with eccCountCe := satInc s.regs.eccCountCe }) → faultBit c r = faultBit c s.regs := by
    rintro r rfl
    split <;> rfl
  unfold countError
  dsimp only
  split
  · exact (faultBit_setScrubStatus _ _ _).trans (hcount _ rfl)
  · exact hcount _ rfl

/-! ### What the writes of a step leave of the batches, the faults and the cells -/

theorem afterRowCount_keeps {prev : Bool} {row : Nat} {s u : State} (h : afterRowCount prev row s u) :
    u.array = s.array ∧ u.batches = s.batches ∧ u.barrier = s.barrier ∧ ∀ c, faultBit c u.regs = faultBit c s.regs := by
  obtain rfl | ⟨cls, rfl⟩ := h
  · exact ⟨rfl, rfl, rfl, fun _ => rfl⟩
  · exact ⟨by simp, by simp, by simp, fun c => faultBit_countError c _ _ _ _ s⟩

theorem putRow_keeps (prev : Bool) (row : Nat) (d : QWord) (s : State) : (putRow prev row d s).batches = s.batches
    ∧ (putRow prev row d s).barrier = s.barrier ∧ (putRow prev row d s).regs = s.regs := by
  cases prev <;> exact ⟨rfl, rfl, rfl⟩

theorem poisonRow_keeps (prev : Bool) (row : Nat) (s : State) : (poisonRow prev row s).batches = s.batches
    ∧ (poisonRow prev row s).barrier = s.barrier ∧ ∀ c, faultBit c (poisonRow prev row s).regs = faultBit c s.regs := by
  cases prev <;> exact ⟨by simp [poisonRow], by simp [poisonRow], fun c => faultBit_setScrubStatus c _ _⟩

/-- A row found uncorrectable changes no batch, loses no cell and clears no fault. -/
theorem rowUncorrectable_keeps (prev : Bool) (row : Nat) (s : State) : (rowUncorrectable prev row s).batches = s.batches
    ∧ cellsKept s (rowUncorrectable prev row s) ∧ ∀ c, faultSet c s → faultSet c (rowUncorrectable prev row s) := by
  generalize hu : countError (rowStore prev) 3 (rowLocation row) 0 s = u
  have hbatches : u.batches = s.batches := by rw [← hu]; simp
  have hbarrier : u.barrier = s.barrier := by rw [← hu]; simp
  have hfaults : ∀ c, faultBit c u.regs = faultBit c s.regs := fun c => by rw [← hu, faultBit_countError]
  obtain ⟨hpb, hpbar, hpf⟩ := poisonRow_keeps prev row (faultEventFree fcArrayUe u)
  rw [rowUncorrectable, hu]
  refine ⟨by simp [hpb, hbatches], ?_, fun c hc => ?_⟩
  · have hfault : cellsKept s (setFault fcArrayUe u) := cellsKept_of_barrier (by simp [hbarrier])
    exact (hfault.trans (cellsKept_raiseField _ _ _ _ _)).trans (cellsKept_of_barrier hpbar)
  · exact (hpf c).trans (faultSet_setFault c _ u ((hfaults c).trans hc))

/-- A write of a state word changes no batch, loses no cell and clears no fault. -/
theorem stateWrite_keeps (prev : Bool) (bpn w : Nat) (v : Word) (s : State) : (stateWrite prev bpn w v s).batches = s.batches
    ∧ cellsKept s (stateWrite prev bpn w v s) ∧ ∀ c, faultSet c s → faultSet c (stateWrite prev bpn w v s) := by
  obtain h | h | ⟨d, u, hu, h⟩ := stateWrite_cases prev bpn w v s
  · rw [h]
    exact ⟨rfl, cellsKept_of_barrier rfl, fun _ hc => hc⟩
  · rw [h]
    exact rowUncorrectable_keeps _ _ _
  · obtain ⟨-, hub, hubar, huf⟩ := afterRowCount_keeps hu
    obtain ⟨hb, hbar, hregs⟩ := putRow_keeps prev (rowKey bpn w) (mergeRow d w v) u
    rw [h]
    refine ⟨hb.trans hub, cellsKept_of_barrier (hbar.trans hubar), fun c hc => ?_⟩
    rw [faultSet, hregs, huf]
    exact hc

/-! ### What a state word reads after its write (R92, R93) -/

/-- Two states hold the same current bank. -/
def sameCurrent (s t : State) : Prop := t.array.cur = s.array.cur ∧ t.array.curValid = s.array.curValid
  ∧ t.array.curPoison = s.array.curPoison ∧ t.array.curDev = s.array.curDev

theorem sameCurrent_of_array {s t : State} (h : t.array = s.array) : sameCurrent s t := by simp [sameCurrent, h]

theorem rowDecode_of_sameCurrent {s t : State} (h : sameCurrent s t) (row : Nat) :
    rowDecode false row t = rowDecode false row s := by
  obtain ⟨hcur, -, -, hdev⟩ := h
  simp [rowDecode, rowWord, bankWords, bankDev, hcur, hdev]

theorem stateValue_of_sameCurrent {s t : State} (h : sameCurrent s t) (bpn w : Nat) :
    stateValue false bpn w t = stateValue false bpn w s := by
  have hdecode := rowDecode_of_sameCurrent h
  obtain ⟨-, hvalid, hpoison, -⟩ := h
  simp [stateValue, bankValid, bankPoison, hvalid, hpoison, hdecode]

theorem rowWrites_of_sameCurrent {s t : State} (h : sameCurrent s t) {bpn w : Nat} (hw : rowWrites bpn w s) : rowWrites bpn w t := by
  have hdecode := rowDecode_of_sameCurrent h
  obtain ⟨-, -, hpoison, -⟩ := h
  rw [rowWrites, hpoison, hdecode]
  exact hw

/-- A current word that can be written reads the word written. -/
theorem stateValue_stateWrite (bpn w : Nat) (v : Word) (s : State) (h : rowWrites bpn w s) :
    stateValue false bpn w (stateWrite false bpn w v s) = v := by
  obtain ⟨hpoison, hdecode⟩ := h
  obtain ⟨d, u, hu, hwrite⟩ := stateWrite_puts false bpn w v s hpoison hdecode
  obtain ⟨hua, -⟩ := afterRowCount_keeps hu
  have hup : (bankPoison false u).contains (rowKey bpn w) = false := by
    change u.array.curPoison.contains _ = false
    rw [hua]
    exact hpoison
  rw [hwrite, stateValue_putRow _ _ _ _ _ hup, wordOfRow_mergeRow, if_pos rfl]

/-! ### Causes of indeterminate verdicts (R290) -/

theorem addCause_keeps (n : DWord) (cause site : Nat) (s : State) :
    (addCause n cause site s).regs = s.regs ∧ (addCause n cause site s).barrier = s.barrier := by
  unfold addCause
  split
  · exact ⟨rfl, rfl⟩
  · dsimp only
    split
    · exact ⟨rfl, rfl⟩
    · simp [wait]

theorem addCauses_keeps (n : DWord) (cause : Nat) (sites : List Nat) (s : State) :
    (addCauses n cause sites s).regs = s.regs ∧ (addCauses n cause sites s).barrier = s.barrier := by
  unfold addCauses
  induction sites generalizing s with
  | nil => exact ⟨rfl, rfl⟩
  | cons x xs ih =>
    obtain ⟨hregs, hbarrier⟩ := addCause_keeps n cause x s
    rw [List.foldl_cons, ← hregs, ← hbarrier]
    exact ih (addCause n cause x s)

theorem indetNow_keeps (cause : Nat) (s : State) :
    (indetNow cause s).regs = s.regs ∧ (indetNow cause s).barrier = s.barrier := by
  unfold indetNow
  split
  · exact ⟨rfl, rfl⟩
  · exact addCauses_keeps _ _ _ _

/-- A change that leaves a batch its number leaves it in its place. -/
theorem findBatch_modBatch (n : DWord) (f : Batch → Batch) (s : State) (hf : ∀ b, (f b).d.batch = b.d.batch) :
    findBatch n (modBatch n f s) = (findBatch n s).map f := by
  have hnum : ((fun b : Batch => decide (b.d.batch = n)) ∘ fun b => if b.d.batch = n then f b else b)
      = fun b => decide (b.d.batch = n) := by
    funext b
    by_cases h : b.d.batch = n <;> simp [h, hf]
  rw [findBatch, modBatch, List.find?_map, hnum]
  refine Option.map_congr fun b hb => if_pos ?_
  simpa using List.find?_some hb

/-- A batch whose verdicts are not formed takes its own findings (R678). -/
theorem findingBatch_of_open (n : DWord) (s : State) (b : Batch) (hb : findBatch n s = some b) (hopen : b.verdictsFormed = false) :
    findingBatch n s = some b := by
  simp [findingBatch, hb, hopen]

/-- A batch with one more cause. -/
def withCause (site cause : Nat) (b : Batch) : Batch := { b with causes := b.causes ++ [(site, cause)] }

theorem addCause_batches (n : DWord) (cause site : Nat) (s : State) (b : Batch) (hb : findBatch n s = some b)
    (hopen : b.verdictsFormed = false) (hnew : ¬ b.causes.contains (site, cause) = true) :
    (addCause n cause site s).batches = (modBatch n (withCause site cause) s).batches := by
  have hnum : b.d.batch = n := by simpa using List.find?_some hb
  rw [addCause, findingBatch_of_open n s b hb hopen]
  simp only [if_neg hnew, markFault_fields, wait_keeps, hnum]
  rfl

/-- A finding marks its site, and the batch keeps the causes it has. -/
theorem addCause_marks (n : DWord) (cause site : Nat) (s : State) (b : Batch) (hb : findBatch n s = some b)
    (hopen : b.verdictsFormed = false) :
    ∃ b', findBatch n (addCause n cause site s) = some b' ∧ b'.verdictsFormed = false ∧ (site, cause) ∈ b'.causes
      ∧ b.causes ⊆ b'.causes := by
  by_cases h : b.causes.contains (site, cause) = true
  · have hsame : addCause n cause site s = s := by
      rw [addCause, findingBatch_of_open n s b hb hopen]
      exact if_pos h
    exact ⟨b, hsame.symm ▸ hb, hopen, List.contains_iff_mem.1 h, fun _ hc => hc⟩
  · refine ⟨withCause site cause b, ?_, hopen, by simp [withCause], fun _ hc => List.mem_append_left _ hc⟩
    rw [findBatch, addCause_batches n cause site s b hb hopen h, ← findBatch,
      findBatch_modBatch n (withCause site cause) s (fun _ => rfl), hb]
    rfl

theorem addCauses_marks (n : DWord) (cause : Nat) (sites : List Nat) (s : State) (b : Batch) (hb : findBatch n s = some b)
    (hopen : b.verdictsFormed = false) :
    ∃ b', findBatch n (addCauses n cause sites s) = some b' ∧ (∀ x ∈ sites, (x, cause) ∈ b'.causes) ∧ b.causes ⊆ b'.causes := by
  unfold addCauses
  induction sites generalizing s b with
  | nil => exact ⟨b, hb, by simp, fun _ hc => hc⟩
  | cons x xs ih =>
    obtain ⟨b1, hb1, hopen1, hx, hold⟩ := addCause_marks n cause x s b hb hopen
    obtain ⟨b2, hb2, hxs, hkept⟩ := ih (addCause n cause x s) b1 hb1 hopen1
    exact ⟨b2, hb2, List.forall_mem_cons.2 ⟨hkept hx, hxs⟩, fun _ hc => hkept (hold hc)⟩

/-- Two states have the same batches in hand, running and on egress, and the same sites. -/
def sameProgress (s t : State) : Prop :=
  t.batches = s.batches ∧ t.array.running = s.array.running ∧ t.egress = s.egress ∧ t.inForce = s.inForce

/-- A finding against the batch in progress marks every site of it. -/
theorem indetBy_indetNow (cause : Nat) (s t : State) (h : sameProgress s t) : indetBy cause s (indetNow cause t) := by
  obtain ⟨hbatches, hrunning, hegress, hforce⟩ := h
  intro b hin hfind hopen x hx
  have hin' : inProgress t = some b := by
    simpa only [inProgress, findBatch, hbatches, hrunning, hegress] using hin
  have hfind' : findBatch b.d.batch t = some b := by rw [findBatch, hbatches]; exact hfind
  have hx' : x ∈ List.range (siteCount t) := by simpa [siteCount, hforce] using hx
  obtain ⟨b', hb', hsites, -⟩ := addCauses_marks b.d.batch cause (List.range (siteCount t)) t b hfind' hopen
  rw [indetNow, hin']
  exact ⟨b', List.mem_of_find?_eq_some hb', by simpa using List.find?_some hb', List.contains_iff_mem.2 (hsites x hx')⟩

theorem indetBy_of_batches {cause : Nat} {s t u : State} (h : indetBy cause s t) (hu : u.batches = t.batches) : indetBy cause s u := by
  unfold indetBy
  rw [hu]
  exact h

/-! ### A step's start -/

theorem bpStart_sameProgress (g bp i : Nat) (s : State) : sameProgress s (bpStart g bp i s) := by
  obtain ⟨harray, hbatches, -⟩ := bpStart_shape g bp i s
  refine ⟨hbatches, ?_, by simp [bpStart], by simp [bpStart]⟩
  rw [harray]

theorem bpStart_sameCurrent (g bp i : Nat) (s : State) : sameCurrent s (bpStart g bp i s) := by
  obtain ⟨harray, -, -⟩ := bpStart_shape g bp i s
  rw [sameCurrent, harray]
  exact ⟨rfl, rfl, rfl, rfl⟩

theorem stateWrite_sameProgress (bpn w : Nat) (v : Word) (s : State) : sameProgress s (stateWrite false bpn w v s) := by
  refine ⟨(stateWrite_keeps false bpn w v s).1, ?_, by simp, by simp⟩
  rw [stateWrite_cur_shape]

theorem setFault_sameProgress (code : Nat) (s : State) : sameProgress s (setFault code s) := by simp [sameProgress]

theorem sameProgress.trans {s t u : State} (h : sameProgress s t) (k : sameProgress t u) : sameProgress s u := by
  obtain ⟨hb, hr, he, hf⟩ := h
  obtain ⟨kb, kr, ke, kf⟩ := k
  exact ⟨kb.trans hb, kr.trans hr, ke.trans he, kf.trans hf⟩

/-! ### Empty stimulus ports (R73) -/

/-- An underflow sets its fault, marks the batch in progress, and leaves the array as it is. -/
theorem stimUnderflow_effect (s t : State) (h : sameProgress s t) :
    faultSet fcStimUnderflow (stimUnderflow t) ∧ indetBy 1 s (stimUnderflow t) ∧ (stimUnderflow t).array = t.array := by
  refine ⟨?_, indetBy_indetNow 1 s _ (h.trans (setFault_sameProgress _ _)), ?_⟩
  · rw [faultSet, stimUnderflow, (indetNow_keeps _ _).1]
    exact setFault_bit _ t rfl (by decide)
  · rw [stimUnderflow, (indetNow_causeless _ _).2]
    simp

/-- The operand that names stimulus port `p`. -/
theorem operand_stim (p : Nat) (h : p < 32) : operandSpace (BitVec.ofNat 11 (0x620 + p)) = 3
    ∧ operandIndex (BitVec.ofNat 11 (0x620 + p)) = 0x20 + p := by
  simp only [operandSpace, operandIndex, BitVec.toNat_ofNat]
  omega

theorem operand_of_empty_port (i g bp p : Nat) (s : State) (hp : p < 32) (h : stimPort g p s = []) :
    operandValue i g bp (BitVec.ofNat 11 (0x620 + p)) s = 0
    ∧ operandEffect i g bp (BitVec.ofNat 11 (0x620 + p)) s = stimUnderflow s := by
  obtain ⟨hspace, hindex⟩ := operand_stim p hp
  simp [operandValue, operandEffect, hspace, hindex, specialValue, specialEffect, h, show 32 + p < 64 by omega]

theorem stim_of_empty_port (g bp i p : Nat) (s : State) (hp : p < 32) (hruns : executes .stim g bp i s = true)
    (ha : (bpInstr g bp i s).a = BitVec.ofNat 11 (0x620 + p)) (h : stimPort g p s = []) :
    exec (.stim g bp i) s = .next (stateWrite false (bpNum g bp) i 0 (stimUnderflow (bpStart g bp i s))) := by
  have hport : (bpInstr g bp i s).a.toNat - 0x620 = p := by
    rw [ha, BitVec.toNat_ofNat]
    omega
  have hempty : stimPort g ((bpInstr g bp i s).a.toNat - 0x620) (bpStart g bp i s) = [] := by
    rw [hport, stimPort, (bpStart_shape g bp i s).1]
    exact h
  rw [exec_stim g bp i s hruns, takeStim_of_nil _ _ _ hempty, hempty]
  rfl

/-- Settles O32: an operand read and STIM both come to `stimUnderflow`, and the write that follows STIM keeps its marks. -/
theorem emptyPortUnderflows : Obligations.EmptyPortUnderflows := by
  intro g bp i p s hp
  constructor
  · intro h o
    obtain ⟨hvalue, heffect⟩ := operand_of_empty_port i g bp p s hp h
    obtain ⟨hfault, hindet, -⟩ := stimUnderflow_effect s s ⟨rfl, rfl, rfl, rfl⟩
    rw [heffect]
    exact ⟨hvalue, hfault, hindet⟩
  · intro hruns ha h
    obtain ⟨hfault, hindet, harray⟩ := stimUnderflow_effect s _ (bpStart_sameProgress g bp i s)
    obtain ⟨hbatches, -, hfaults⟩ := stateWrite_keeps false (bpNum g bp) i 0 (stimUnderflow (bpStart g bp i s))
    refine ⟨_, stim_of_empty_port g bp i p s hp hruns ha h, hfaults _ hfault, indetBy_of_batches hindet hbatches, fun hw => ?_⟩
    have hstart := rowWrites_of_sameCurrent (bpStart_sameCurrent g bp i s) hw
    exact stateValue_stateWrite _ i 0 _ (rowWrites_of_sameCurrent (sameCurrent_of_array harray) hstart)

/-! ### Illegal instructions (R82 to R84) -/

theorem recordIllegal_shape (g bp i : Nat) (s : State) : recordIllegal g bp i s = { s with array := { s.array with
    galleries := (recordIllegal g bp i s).array.galleries } } := by
  unfold recordIllegal
  dsimp only
  split <;> rfl

/-- The state of an illegal instruction once its word is written and it is recorded, before it is reported. -/
def illegalRecorded (g bp i : Nat) (s : State) : State :=
  recordIllegal g bp i (stateWrite false (bpNum g bp) i 0 (bpStart g bp i s))

theorem exec_illegalInstruction (g bp i : Nat) (s : State) (hruns : bpRuns g bp i s = true) (hfetch : fetchGood (bpNum g bp) i s = true)
    (hill : bpLegal (fetched (bpNum g bp) i s) = false) : exec (.illegalInstruction g bp i) s
      = .next (indetNow 2 (faultEvent fcArrayIllegal (g * 2 ^ 24 + bp * 2 ^ 16 + i) (illegalRecorded g bp i s))) :=
  congrArg Host.Outcome.next (if_pos (by simp [hruns, hfetch, hill]))

/-- Reporting a fault and marking the batch leave the array as it is. -/
theorem report_array (cause code detail : Nat) (s : State) : (indetNow cause (faultEvent code detail s)).array = s.array := by
  rw [(indetNow_causeless _ _).2]
  simp [faultEvent]

theorem illegalWritesOnlyZero : Claims.IllegalWritesOnlyZero := by
  intro g bp i s hruns hfetch hill hw
  refine ⟨_, exec_illegalInstruction g bp i s hruns hfetch hill, ?_⟩
  rw [report_array]
  have hcurrent : sameCurrent (stateWrite false (bpNum g bp) i 0 (bpStart g bp i s)) (illegalRecorded g bp i s) := by
    rw [illegalRecorded, recordIllegal_shape]
    exact ⟨rfl, rfl, rfl, rfl⟩
  refine ⟨?_, ?_⟩
  · rw [stateValue_of_sameCurrent (sameCurrent_of_array (report_array _ _ _ _)), stateValue_of_sameCurrent hcurrent]
    exact stateValue_stateWrite _ i 0 _ (rowWrites_of_sameCurrent (bpStart_sameCurrent g bp i s) hw)
  · rw [illegalRecorded, recordIllegal_shape, stateWrite_cur_shape]
    obtain ⟨harray, -, -⟩ := bpStart_shape g bp i s
    refine ⟨rfl, ?_⟩
    rw [harray]
    exact ⟨rfl, rfl, rfl, rfl, rfl⟩

theorem illegalRecorded_sameProgress (g bp i : Nat) (s : State) : sameProgress s (illegalRecorded g bp i s) := by
  have hrecord : sameProgress (stateWrite false (bpNum g bp) i 0 (bpStart g bp i s)) (illegalRecorded g bp i s) := by
    rw [illegalRecorded, recordIllegal_shape]
    exact ⟨rfl, rfl, rfl, rfl⟩
  exact (bpStart_sameProgress g bp i s).trans ((stateWrite_sameProgress _ _ _ _).trans hrecord)

theorem cellsKept_illegalRecorded (g bp i : Nat) (s : State) : cellsKept s (illegalRecorded g bp i s) := by
  obtain ⟨-, -, hbarrier⟩ := bpStart_shape g bp i s
  obtain ⟨-, hcells, -⟩ := stateWrite_keeps false (bpNum g bp) i 0 (bpStart g bp i s)
  refine ((cellsKept_of_barrier hbarrier).trans hcells).trans (cellsKept_of_barrier ?_)
  rw [illegalRecorded, recordIllegal_shape]

/-- Gallery, BP and step of a BP that runs fit their places in the event's DETAIL (R83). -/
theorem illegalDetail_lt (g bp i : Nat) (s : State) (h : bpRuns g bp i s = true) : g * 2 ^ 24 + bp * 2 ^ 16 + i < 2 ^ 32 := by
  simp only [bpRuns, Bool.and_eq_true, decide_eq_true_eq] at h
  obtain ⟨⟨⟨⟨⟨⟨⟨-, hg⟩, hbp⟩, -⟩, hi⟩, -⟩, -⟩, -⟩ := h
  have hcount : galleryCount s ≤ 64 := by unfold galleryCount; split <;> norm_num
  have hlength : schedLength s < 2 ^ 10 := fld_lt s.regs.schedInfo 9 0
  omega

theorem eventSent_of_barrier {ev fault detail : Nat} {s t u : State} (h : eventSent ev fault detail s t)
    (hu : u.barrier = t.barrier) : eventSent ev fault detail s u := by
  unfold eventSent
  simp only [hu]
  exact h

theorem illegalIsReported : Claims.IllegalIsReported := by
  intro g bp i s hruns hfetch hill _
  obtain ⟨hregs, hbarrier⟩ := indetNow_keeps 2 (faultEvent fcArrayIllegal (g * 2 ^ 24 + bp * 2 ^ 16 + i) (illegalRecorded g bp i s))
  refine ⟨_, exec_illegalInstruction g bp i s hruns hfetch hill, ?_, ?_, ?_⟩
  · rw [faultSet, hregs]
    simpa [faultEvent] using setFault_bit fcArrayIllegal (illegalRecorded g bp i s) rfl (by decide)
  · refine indetBy_indetNow 2 s _ ((illegalRecorded_sameProgress g bp i s).trans ?_)
    simp [faultEvent, sameProgress]
  · refine eventSent_of_barrier (eventSent_raiseField _ _ _ _ _ _ (by decide) (by decide) (Config.eventUnit _).isLt
      (illegalDetail_lt g bp i s hruns) ((cellsKept_illegalRecorded g bp i s).trans (cellsKept_of_barrier ?_))) hbarrier
    simp

/-- Settles O30: once the word is written and the instruction recorded, the report leaves the array as it is. -/
theorem illegalInstructions : Obligations.IllegalInstructions :=
  ⟨illegalWritesOnlyZero, illegalIsReported⟩

end Sys2Proof.Machine
end

section
/-! PROOF. Boulevard and mesh words, pass tokens, mesh blocks and the waits for them (O36). -/

namespace Sys2Proof.Machine

/-! ### Boulevard words (R110) -/

/-- A word due at a step reaches its port, or stands there already. -/
theorem due_word_is_received (j : Nat) (w : BlvdWord) (s : State) (hw : w ∈ s.array.flight) (hdue : w.step = j)
    (hg : w.gallery < galleryCount s) (huse : galleryInUse w.gallery s = true) :
    w ∈ arriving j s ++ s.array.rx.filter (fun w => decide (j ≤ w.step + 1)) := by
  rw [List.mem_append]
  by_cases hrx : w ∈ s.array.rx
  · exact .inr (List.mem_filter.2 ⟨hrx, decide_eq_true (by omega)⟩)
  · refine .inl (List.mem_filter.2 ⟨List.mem_append_left _ (List.mem_filter.2 ⟨hw, decide_eq_true hdue⟩), ?_⟩)
    simp [hg, huse, hrx]

theorem boulevardDelivers (j : Nat) (s : State) (hphase : s.array.phase = .inPass) (hj : j < schedLength s) :
    ∃ t, exec (.boulevardDelivery j) s = .next t
      ∧ (∀ w ∈ s.array.flight, w.step = j → w.gallery < galleryCount s → galleryInUse w.gallery s = true → w ∈ t.array.rx)
      ∧ t.array.flight = s.array.flight.filter (fun w => decide (j < w.step))
      ∧ t = { s with array := { s.array with rx := t.array.rx, flight := t.array.flight } } :=
  ⟨_, congrArg Host.Outcome.next (if_pos (by simp [hphase, hj])), fun w hw hdue hg huse => due_word_is_received j w s hw hdue hg huse,
    rfl, rfl⟩

/-! ### Waiting for the neighbours (R133, R134, R136) -/

/-- No fault is absent from a part with a mesh (R7). -/
theorem faultAbsent_of_hasMesh (code : Nat) (s : State) (h : hasMesh s = true) : faultAbsent code s = false := by
  simp [faultAbsent, h]

theorem tokenGoesOutAgain (s : State) (hwait : awaitsToken s = true) (hmesh : schedMesh s = true) :
    exec .tokenResend s = .next { s with array := { s.array with
      sentToken := some (meshBatch s, BitVec.ofNat 12 s.array.pass)
      meshBlocksSent := s.array.meshBlocksSent ++ [(.m0, tokenBlock s.array.pass s), (.m1, tokenBlock s.array.pass s)] } } :=
  congrArg Host.Outcome.next ((if_pos hwait).trans (if_pos hmesh))

theorem arrayHolds (j : Nat) (s : State) (hphase : s.array.phase = .inPass) (hstep : s.array.step = j) (hj : j < schedLength s)
    (hmissing : meshReady j s = false) :
    exec (.meshHold j) s = .next (putArrayBit 13 true { s with array := { s.array with meshWaiting := true } }) :=
  congrArg Host.Outcome.next (if_pos (by simp [hphase, hstep, hj, hmissing]))

/-- A batch whose burst has ended. -/
def withBurstDone (b : Batch) : Batch := { b with burstDone := true }

/-- A report of the power state sends nothing and clears no fault. -/
theorem reportPower_sends_nothing (code : Nat) (s : State) :
    (reportPower code s).barrier = s.barrier ∧ ∀ c, faultBit c (reportPower code s).regs = faultBit c s.regs := by
  unfold reportPower
  dsimp only
  split
  · exact ⟨rfl, fun _ => rfl⟩
  · split
    · exact ⟨by simp, fun c => faultBit_setEvent c _ _⟩
    · exact ⟨rfl, fun _ => rfl⟩

/-- The end of a burst sends nothing, clears no fault, and marks its batch. -/
theorem endBurst_keeps (b : Batch) (s : State) (h : s.array.running.bind (fun n => findBatch n s) = some b) :
    (endBurst s).barrier = s.barrier ∧ (∀ c, faultBit c (endBurst s).regs = faultBit c s.regs)
    ∧ (endBurst s).batches = (modBatch b.d.batch withBurstDone s).batches := by
  have hput : ∀ (c : Nat) (u : State), faultBit c (putArrayBit 14 false u).regs = faultBit c u.regs := fun _ _ => rfl
  simp only [endBurst, h, hput, putArrayBit_fields]
  split
  · obtain ⟨hbarrier, hfaults⟩ := reportPower_sends_nothing 3 _
    obtain ⟨-, -, hbatches⟩ := reportPower_keeps 3 _
    exact ⟨hbarrier, hfaults, hbatches⟩
  · exact ⟨rfl, fun _ => rfl, rfl⟩

/-- A change of the batches that keeps their causes keeps what is marked. -/
theorem indetBy_modBatch {cause : Nat} {s t u : State} (n : DWord) (f : Batch → Batch) (h : indetBy cause s t)
    (hf : ∀ b, (f b).d = b.d ∧ (f b).causes = b.causes) (hu : u.batches = (modBatch n f t).batches) : indetBy cause s u := by
  intro b hin hfind hopen x hx
  obtain ⟨b', hb', hnum, hcause⟩ := h b hin hfind hopen x hx
  obtain ⟨hd, hcauses⟩ := hf b'
  refine ⟨if b'.d.batch = n then f b' else b', ?_, ?_, ?_⟩
  · rw [hu, mem_modBatch]
    exact ⟨b', hb', rfl⟩
  · split
    · rw [hd, hnum]
    · exact hnum
  · split
    · rw [hcauses]
      exact hcause
    · exact hcause

theorem exec_meshTimeout (s : State) (hwait : awaitsToken s = true) :
    exec .meshTimeout s = .next (endBurst (indetNow 4 (faultEventFree fcMeshTimeout s))) :=
  congrArg Host.Outcome.next (if_pos (by simp [hwait]))

theorem waitTimesOut (b : Batch) (s : State) (hwait : awaitsToken s = true) (hmesh : hasMesh s = true)
    (hb : s.array.running.bind (fun n => findBatch n s) = some b) :
    ∃ t detail, exec .meshTimeout s = .next t ∧ faultSet fcMeshTimeout t ∧ eventSent evFault fcMeshTimeout detail s t
      ∧ indetBy 4 s t ∧ t.array.running = none ∧ t.array.phase = .idle := by
  obtain ⟨n, hrun, hfind⟩ := Option.bind_eq_some_iff.1 hb
  have hfault : faultSet fcMeshTimeout (faultEventFree fcMeshTimeout s) :=
    faultEventFree_faultSet _ s (faultAbsent_of_hasMesh _ s hmesh) (by decide)
  have hevent := faultEventFree_eventSent fcMeshTimeout s s (by decide) (cellsKept_of_barrier rfl)
  have hindet : indetBy 4 s (indetNow 4 (faultEventFree fcMeshTimeout s)) :=
    indetBy_indetNow 4 s _ (by simp [sameProgress, faultEventFree, faultEvent])
  obtain ⟨hregs, hbarrier⟩ := indetNow_keeps 4 (faultEventFree fcMeshTimeout s)
  obtain ⟨hcauseless, harray⟩ := indetNow_causeless 4 (faultEventFree fcMeshTimeout s)
  have hbatches : causeless (faultEventFree fcMeshTimeout s) = causeless s := by simp [causeless]
  obtain ⟨b', hfind'⟩ := Option.isSome_iff_exists.1
    ((findBatch_isSome_of_causeless (hcauseless.trans hbatches) n).trans (Option.isSome_iff_exists.2 ⟨b, hfind⟩))
  have hb' : (indetNow 4 (faultEventFree fcMeshTimeout s)).array.running.bind
      (fun n => findBatch n (indetNow 4 (faultEventFree fcMeshTimeout s))) = some b' := by
    simp only [harray, faultEventFree_keeps]
    exact Option.bind_eq_some_iff.2 ⟨n, hrun, hfind'⟩
  obtain ⟨hbar, hfaults, hmarked⟩ := endBurst_keeps b' _ hb'
  obtain ⟨hnone, hidle, -⟩ := endBurst_of_running b' _ hb'
  refine ⟨_, _, exec_meshTimeout s hwait, ?_, eventSent_of_barrier hevent (hbar.trans hbarrier),
    indetBy_modBatch _ withBurstDone hindet (fun _ => ⟨rfl, rfl⟩) hmarked, hnone, hidle⟩
  rw [faultSet, hfaults, hregs]
  exact hfault

theorem exchangeSteps : Claims.ExchangeSteps := fun j b s =>
  ⟨boulevardDelivers j s, tokenGoesOutAgain s, arrayHolds j s, waitTimesOut b s⟩

/-! ### Blocks on a mesh link (R125, R131, R137) -/

/-- A discarded block is counted and is a fault of the mesh; the array keeps everything else. -/
theorem discardBlock_effect (s : State) (hmesh : hasMesh s = true) : faultSet fcMeshError (discardBlock s)
    ∧ (discardBlock s).array = { s.array with meshBlockErrors := satInc s.array.meshBlockErrors } := by
  refine ⟨?_, by simp [discardBlock]⟩
  simp only [faultSet, discardBlock, markFault_fields]
  exact setFault_bit _ _ (faultAbsent_of_hasMesh _ s hmesh) (by decide)

theorem badBlockIsDiscarded (l : MLink) (blk : Block) (s : State) (hmesh : hasMesh s = true) (hcrc : blockCrcOk blk = false) :
    exec (.passTokenReceive l blk) s = exec (.meshBlockReceive l blk true) s
    ∧ ∃ t, exec (.meshBlockReceive l blk true) s = .next t ∧ faultSet fcMeshError t
      ∧ t.array = { s.array with meshBlockErrors := satInc s.array.meshBlockErrors } := by
  have htoken : exec (.passTokenReceive l blk) s = .next (discardBlock s) := by simp [exec, execPassTokenReceive, hmesh, hcrc]
  have hblock : exec (.meshBlockReceive l blk true) s = .next (discardBlock s) := by simp [exec, execMeshBlockReceive, hmesh, hcrc]
  exact ⟨htoken.trans hblock.symm, _, hblock, discardBlock_effect s hmesh⟩

theorem indetLow_array (b : BitVec 24) (cause : Nat) (s : State) : (indetLow b cause s).array = s.array := by
  unfold indetLow
  split
  · exact (indetAll_causeless _ _ _).2
  · rfl

/-- Blocks known lost, and batches made indeterminate for them, leave a link's token. -/
theorem tokenOf_markLost (l k : MLink) (b : BitVec 24) (p : BitVec 12) (n : Nat) (s : State) :
    tokenOf k (markLost l b p n s) = tokenOf k s := by
  unfold markLost
  dsimp only
  split
  · rfl
  · cases k <;> simp [tokenOf, indetLow_array]

/-- The token that a pass-token block of a neighbour spells (R125, R131). -/
def receivedToken (l : MLink) (blk : Block) (s : State) : MeshToken :=
  ⟨lget 0 (blockWords blk) 0, lget 0 (blockWords blk) 1, lget 0 (blockWords blk) 2, blockBatch blk, blockPass blk,
    decide ((lget 0 (blockWords blk) 0).toNat = neighbourPos l s) && decide ((lget 0 (blockWords blk) 1).toNat = schedLength s)
      && decide ((lget 0 (blockWords blk) 2).toNat = s.params.meshSize)⟩

/-- Whatever else a token shows, it is kept as the link's last one. -/
theorem tokenOf_takeToken (l : MLink) (blk : Block) (s : State) : tokenOf l (takeToken l blk s) = some (receivedToken l blk s) := by
  have hreport : ∀ u : State, tokenOf l (markFault (faultEventFree fcMeshMismatch u)) = tokenOf l u := fun u => by
    cases l <;> simp [tokenOf]
  unfold takeToken
  simp only [apply_ite (tokenOf l), hreport, tokenOf_markLost, ite_self]
  cases l <;> rfl

theorem tokenIsKept (l : MLink) (blk : Block) (s : State) (hmesh : hasMesh s = true) (hcrc : blockCrcOk blk = true)
    (hkind : blockKind blk = 2) :
    ∃ t k, exec (.passTokenReceive l blk) s = .next t ∧ tokenOf l t = some k ∧ k.batch = blockBatch blk ∧ k.pass = blockPass blk
      ∧ k.position = lget 0 (blockWords blk) 0 := by
  refine ⟨_, _, ?_, tokenOf_takeToken l blk s, rfl, rfl, rfl⟩
  simp [exec, execPassTokenReceive, hmesh, hcrc, hkind]

/-- The block of a step that is not held yet is held; one of step 0 shows no earlier block lost. -/
theorem holdBlock_of_new_step0 (l : MLink) (blk : Block) (s : State) (hstep : blockStep blk = 0)
    (hnew : s.array.meshHeld.any (fun h => h.link = l && h.batch = blockBatch blk && h.pass = blockPass blk && h.step = 0) = false) :
    (holdBlock l blk s).array.meshHeld
      = s.array.meshHeld ++ [⟨l, blockBatch blk, blockPass blk, 0, blockWords blk, blockPoison blk, false⟩] := by
  have hlost : markLost l (blockBatch blk) (blockPass blk) 0 s = s := rfl
  simp only [holdBlock, hstep, hlost, hnew]
  split <;> simp [indetLow_array]

theorem stepBlockIsHeld (l : MLink) (blk : Block) (s : State) (hmesh : hasMesh s = true) (hcrc : blockCrcOk blk = true)
    (hkind : blockKind blk = 1) (hstep : blockStep blk = 0)
    (hnew : s.array.meshHeld.any (fun h => h.link = l && h.batch = blockBatch blk && h.pass = blockPass blk && h.step = 0) = false) :
    ∃ t, exec (.meshBlockReceive l blk true) s = .next t ∧ t.array.meshHeld
      = s.array.meshHeld ++ [⟨l, blockBatch blk, blockPass blk, 0, blockWords blk, blockPoison blk, false⟩] := by
  refine ⟨_, ?_, holdBlock_of_new_step0 l blk s hstep hnew⟩
  simp [exec, execMeshBlockReceive, hmesh, hcrc, hkind]

theorem meshBlocks : Claims.MeshBlocks := fun l blk s hmesh =>
  ⟨badBlockIsDiscarded l blk s hmesh, tokenIsKept l blk s hmesh, stepBlockIsHeld l blk s hmesh⟩

/-- Settles O36: each wait has one outcome, the timeout's report outlasts the end of the burst, and a block changes what its link holds. -/
theorem boulevardAndMesh : Obligations.BoulevardAndMesh :=
  ⟨exchangeSteps, meshBlocks⟩

end Sys2Proof.Machine
end

section
/-! PROOF. Field links: training, word lock, and partners lost and regained (O40). -/

namespace Sys2Proof.Machine

/-! ### What a finding leaves alone (R279, R290) -/

/-- From `s` to `t` findings change nothing but records, windows and causes: the links, the registers, the barrier and the set in force
stay, and a batch whose verdicts are open keeps its number, its issue and its causes. -/
structure FindingKeeps (s t : State) : Prop where
  link0 : t.link0 = s.link0
  link1 : t.link1 = s.link1
  regs : t.regs = s.regs
  barrier : t.barrier = s.barrier
  inForce : t.inForce = s.inForce
  batches : ∀ n b, findBatch n s = some b → b.verdictsFormed = false →
    ∃ b', findBatch n t = some b' ∧ issued b' = issued b ∧ b'.verdictsFormed = false ∧ b.causes ⊆ b'.causes

theorem FindingKeeps.refl (s : State) : FindingKeeps s s :=
  ⟨rfl, rfl, rfl, rfl, rfl, fun _ b hb hopen => ⟨b, hb, rfl, hopen, fun _ hc => hc⟩⟩

theorem FindingKeeps.trans {s t u : State} (h : FindingKeeps s t) (k : FindingKeeps t u) : FindingKeeps s u where
  link0 := k.link0.trans h.link0
  link1 := k.link1.trans h.link1
  regs := k.regs.trans h.regs
  barrier := k.barrier.trans h.barrier
  inForce := k.inForce.trans h.inForce
  batches n b hb hopen := by
    obtain ⟨b1, hb1, hissued, hopen1, hcauses⟩ := h.batches n b hb hopen
    obtain ⟨b2, hb2, kissued, kopen, kcauses⟩ := k.batches n b1 hb1 hopen1
    exact ⟨b2, hb2, kissued.trans hissued, kopen, fun _ hc => kcauses (hcauses hc)⟩

theorem findingKeeps_foldl {α : Type} (f : State → α → State) (h : ∀ s a, FindingKeeps s (f s a)) (xs : List α) (s : State) :
    FindingKeeps s (xs.foldl f s) := by
  induction xs generalizing s with
  | nil => exact .refl s
  | cons a xs ih => exact (h s a).trans (ih (f s a))

/-- What a change of one batch finds under any number. -/
theorem findBatch_modBatch_any (n m : DWord) (f : Batch → Batch) (s : State) (hf : ∀ b, (f b).d.batch = b.d.batch) :
    findBatch n (modBatch m f s) = (findBatch n s).map (fun b => if b.d.batch = m then f b else b) := by
  rw [findBatch, modBatch, List.find?_map]
  congr 2
  funext b
  by_cases h : b.d.batch = m <;> simp [h, hf]

/-- A finding's change of one batch. -/
theorem findingKeeps_of_modBatch {s t : State} (m : DWord) (f : Batch → Batch)
    (hf : ∀ b, (f b).d = b.d ∧ issued (f b) = issued b ∧ (f b).verdictsFormed = b.verdictsFormed ∧ b.causes ⊆ (f b).causes)
    (hrest : t.link0 = s.link0 ∧ t.link1 = s.link1 ∧ t.regs = s.regs ∧ t.barrier = s.barrier ∧ t.inForce = s.inForce)
    (ht : t.batches = (modBatch m f s).batches) : FindingKeeps s t := by
  obtain ⟨h0, h1, hregs, hbar, hforce⟩ := hrest
  refine ⟨h0, h1, hregs, hbar, hforce, fun n b hb hopen => ?_⟩
  obtain ⟨-, hissued, hverdicts, hcauses⟩ := hf b
  have hfind : findBatch n t = some (if b.d.batch = m then f b else b) := by
    rw [findBatch, ht, ← findBatch, findBatch_modBatch_any n m f s (fun b => congrArg Descriptor.batch (hf b).1), hb]
    rfl
  refine ⟨_, hfind, ?_⟩
  split
  · exact ⟨hissued, hverdicts.trans hopen, hcauses⟩
  · exact ⟨rfl, hopen, fun _ hc => hc⟩

theorem addCause_findingKeeps (n : DWord) (cause site : Nat) (s : State) : FindingKeeps s (addCause n cause site s) := by
  unfold addCause
  split
  · exact .refl s
  · dsimp only
    split
    · exact .refl s
    · exact findingKeeps_of_modBatch _ (withCause site cause) (fun _ => ⟨rfl, rfl, rfl, List.subset_append_left _ _⟩)
        (by simp [wait]) (wait_keeps _ _ _).1

theorem addCauses_findingKeeps (n : DWord) (cause : Nat) (sites : List Nat) (s : State) :
    FindingKeeps s (addCauses n cause sites s) :=
  findingKeeps_foldl _ (fun s x => addCause_findingKeeps n cause x s) sites s

theorem addWindow_findingKeeps (n : DWord) (w : Window) (s : State) : FindingKeeps s (addWindow n w s) := by
  have hledger : ∀ l v (u : State), (setLedger l v u).batches = u.batches := by simp
  unfold addWindow
  split
  · exact .refl s
  · dsimp only
    split
    · refine findingKeeps_of_modBatch _ _ ?_ (by simp) (hledger _ _ _)
      exact fun _ => ⟨rfl, rfl, rfl, fun _ hc => hc⟩
    · refine findingKeeps_of_modBatch _ _ ?_ (by simp [wait]) (wait_keeps _ _ _).1
      exact fun _ => ⟨rfl, rfl, rfl, fun _ hc => hc⟩

theorem windowOver_findingKeeps (sites : List Nat) (source detail a e : Nat) (s : State) :
    FindingKeeps s (windowOver sites source detail a e s) :=
  findingKeeps_foldl _ (fun s _ => findingKeeps_foldl _ (fun s _ => addWindow_findingKeeps _ _ s) sites s) _ s

theorem driftWindows_findingKeeps (l : FLink) (i : Nat) (s : State) : FindingKeeps s (driftWindows l i s) := by
  unfold driftWindows
  split
  · exact .refl s
  · exact windowOver_findingKeeps _ _ _ _ _ s

theorem lostCauses_findingKeeps (l : FLink) (i : Nat) (s : State) : FindingKeeps s (lostCauses l i s) :=
  findingKeeps_foldl _ (fun s _ => addCauses_findingKeeps _ 9 (laneSites l i s) s) _ s

theorem flink_of_findingKeeps {s t : State} (h : FindingKeeps s t) (l : FLink) : flink l t = flink l s := by
  cases l
  · exact h.link0
  · exact h.link1

theorem laneSites_of_findingKeeps {s t : State} (h : FindingKeeps s t) (l : FLink) (i : Nat) : laneSites l i t = laneSites l i s := by
  rw [laneSites, h.inForce]
  rfl

/-! ### Lanes and the state of a link (R250, R278) -/

@[simp] theorem setLane_setLane (l : FLink) (i : Nat) (v w : Lane) (s : State) : setLane l i w (setLane l i v s) = setLane l i w s := by
  simp [setLane]

theorem lane_of_flink {l : FLink} {s t : State} (h : flink l t = flink l s) (i : Nat) : lane l i t = lane l i s := by
  rw [lane, lane, h]

theorem lget_map_of_lt {α β : Type} (d : α) (e : β) (f : α → β) (xs : List α) (i : Nat) (h : i < xs.length) :
    lget e (xs.map f) i = f (lget d xs i) := by
  simp [lget, h]

theorem linkState_putLinkState (l : FLink) (v : Nat) (s : State) (h : v < 4) : linkState l (putLinkState l v s) = v := by
  cases l
  · exact (fld_setFld _ 1 0 v (by norm_num) (by norm_num)).trans (Nat.mod_eq_of_lt h)
  · exact (fld_setFld _ 5 4 v (by norm_num) (by norm_num)).trans (Nat.mod_eq_of_lt h)

/-- The refresh of a link's STATE leaves it or gives it one of the two values of a link that is up. -/
theorem refreshLinkState_cases (l : FLink) (s : State) : refreshLinkState l s = s ∨ ∃ v, 2 ≤ v ∧ v < 4
    ∧ refreshLinkState l s = putLinkState l v s := by
  unfold refreshLinkState
  split
  · exact .inl rfl
  · refine .inr ⟨_, ?_, ?_, rfl⟩ <;> split <;> omega

theorem flink_refreshLinkState (l k : FLink) (s : State) : flink k (refreshLinkState l s) = flink k s := by
  obtain h | ⟨v, -, -, h⟩ := refreshLinkState_cases l s <;> rw [h]
  cases k <;> rfl

theorem refreshLinkState_keeps (l : FLink) (s : State) : (refreshLinkState l s).batches = s.batches
    ∧ (refreshLinkState l s).barrier = s.barrier ∧ ∀ c, faultBit c (refreshLinkState l s).regs = faultBit c s.regs := by
  obtain h | ⟨v, -, -, h⟩ := refreshLinkState_cases l s <;> rw [h]
  · exact ⟨rfl, rfl, fun _ => rfl⟩
  · exact ⟨rfl, rfl, fun _ => rfl⟩

theorem findBatch_refreshLinkState (l : FLink) (n : DWord) (s : State) : findBatch n (refreshLinkState l s) = findBatch n s := by
  obtain ⟨hbatches, -⟩ := refreshLinkState_keeps l s
  rw [findBatch, hbatches, findBatch]

theorem linkState_refreshLinkState (l : FLink) (s : State) (h : 2 ≤ linkState l s) : 2 ≤ linkState l (refreshLinkState l s) := by
  obtain hs | ⟨v, hlo, hhi, hs⟩ := refreshLinkState_cases l s
  · rwa [hs]
  · rwa [hs, linkState_putLinkState l v s hhi]

/-! ### A lane that is lost, failed or absent (R278, R281) -/

/-- A lane whose partner is lost, in the state that it takes. -/
def lostLane (st : LaneState) (x : Lane) : Lane :=
  { x with state := st, rejoinDue := false, lostCount := satInc x.lostCount, outMsgs := [], applyLeft := 0, applyFrame := none }

theorem losePartner_eq (l : FLink) (i : Nat) (st : LaneState) (s : State) : losePartner l i st s
    = refreshLinkState l (lostCauses l i (faultEventFree fcPartnerLost (setLane l i (lostLane st (lane l i s)) s))) := rfl

theorem flink_faultEventFree (l : FLink) (code : Nat) (s : State) : flink l (faultEventFree code s) = flink l s := by
  cases l <;> simp [flink, faultEventFree, faultEvent]

/-- Of the lanes, a loss changes the lane's own. -/
theorem flink_losePartner (l : FLink) (i : Nat) (st : LaneState) (s : State) :
    flink l (losePartner l i st s) = flink l (setLane l i (lostLane st (lane l i s)) s) := by
  rw [losePartner_eq, flink_refreshLinkState, flink_of_findingKeeps (lostCauses_findingKeeps _ _ _), flink_faultEventFree]

theorem lane_losePartner (l : FLink) (i : Nat) (st : LaneState) (s : State) (hi : i < (flink l s).lanes.length) :
    lane l i (losePartner l i st s) = lostLane st (lane l i s) := by
  rw [lane_of_flink (flink_losePartner l i st s), lane_setLane l i _ s hi]

theorem lane_losePartner_ne (l : FLink) (i j : Nat) (st : LaneState) (s : State) (h : i ≠ j) :
    lane l j (losePartner l i st s) = lane l j s := by
  rw [lane_of_flink (flink_losePartner l i st s), lane_setLane_ne l i j _ s h]

theorem faultAbsent_partnerLost (s : State) : faultAbsent fcPartnerLost s = false := rfl

/-- A loss sets its fault and sends its event; no cell on its way is lost. -/
theorem losePartner_reports (l : FLink) (i : Nat) (st : LaneState) (s t : State) (h : cellsKept s t) :
    faultSet fcPartnerLost (losePartner l i st t)
    ∧ eventSent evFault fcPartnerLost (Config.eventDetail fcPartnerLost).toNat s (losePartner l i st t) := by
  obtain ⟨-, hbar, hfaults⟩ := refreshLinkState_keeps l
    (lostCauses l i (faultEventFree fcPartnerLost (setLane l i (lostLane st (lane l i t)) t)))
  have hcauses := lostCauses_findingKeeps l i (faultEventFree fcPartnerLost (setLane l i (lostLane st (lane l i t)) t))
  rw [losePartner_eq]
  constructor
  · rw [faultSet, hfaults, hcauses.regs]
    exact faultEventFree_faultSet _ _ (faultAbsent_partnerLost _) (by decide)
  · refine eventSent_of_barrier (faultEventFree_eventSent _ s _ (by decide) ?_) (hbar.trans hcauses.barrier)
    exact h.trans (cellsKept_of_barrier (by simp))

/-- Every issued batch with open verdicts is marked for the sites of the lane. -/
theorem lostCauses_marks (l : FLink) (i x : Nat) (s : State) (b : Batch) (hb : findBatch b.d.batch s = some b)
    (hissued : issued b = true) (hopen : b.verdictsFormed = false) (hx : x ∈ laneSites l i s) :
    ∃ b', findBatch b.d.batch (lostCauses l i s) = some b' ∧ (x, 9) ∈ b'.causes := by
  have hstep : ∀ (s : State) (b : Batch), FindingKeeps s (addCauses b.d.batch 9 (laneSites l i s) s) :=
    fun s b => addCauses_findingKeeps b.d.batch 9 (laneSites l i s) s
  have hmem : b ∈ s.batches.filter (fun b => issued b && !b.verdictsFormed) :=
    List.mem_filter.2 ⟨List.mem_of_find?_eq_some hb, by simp [hissued, hopen]⟩
  obtain ⟨before, after, hsplit⟩ := List.append_of_mem hmem
  rw [lostCauses, hsplit, List.foldl_append, List.foldl_cons]
  have hbefore := findingKeeps_foldl _ hstep before s
  generalize before.foldl _ s = u at hbefore ⊢
  have hafter := findingKeeps_foldl _ hstep after (addCauses b.d.batch 9 (laneSites l i u) u)
  have hsites := laneSites_of_findingKeeps hbefore l i
  obtain ⟨b1, hb1, -, hopen1, -⟩ := hbefore.batches b.d.batch b hb hopen
  obtain ⟨b2, hb2, hmarks, -⟩ := addCauses_marks b.d.batch 9 (laneSites l i u) u b1 hb1 hopen1
  obtain ⟨b2', hb2', -, hopen2, -⟩ := (hstep u b).batches b.d.batch b1 hb1 hopen1
  obtain rfl : b2' = b2 := Option.some.inj (hb2'.symm.trans hb2)
  obtain ⟨b3, hb3, -, -, hkept⟩ := hafter.batches b.d.batch b2' hb2 hopen2
  exact ⟨b3, hb3, hkept (hmarks x (hsites ▸ hx))⟩

theorem losePartner_marks (l : FLink) (i x : Nat) (st : LaneState) (s : State) (b : Batch) (hb : findBatch b.d.batch s = some b)
    (hissued : issued b = true) (hopen : b.verdictsFormed = false) (hx : x ∈ laneSites l i s) :
    ∃ b', findBatch b.d.batch (losePartner l i st s) = some b' ∧ (x, 9) ∈ b'.causes := by
  rw [losePartner_eq, findBatch_refreshLinkState]
  refine lostCauses_marks l i x _ b ?_ hissued hopen ?_
  · simpa [findBatch] using hb
  · simpa [laneSites, faultEventFree, faultEvent] using hx

/-! ### Partners lost and regained (R281, R282) -/

theorem tget_foldl_tdel {α : Type} (d : α) (ports : List Nat) (t : Table α) (k : Nat) :
    tget d (ports.foldl (fun q p => tdel q p) t) k = if k ∈ ports then d else tget d t k := by
  induction ports generalizing t with
  | nil => simp
  | cons p ps ih =>
    rw [List.foldl_cons, ih, tget_tdel]
    by_cases hp : k = p <;> simp [hp]

/-- A lane that holds has its ingress ports' qualifiers at 0 (R256). -/
theorem holdLane_qualifier (l : FLink) (i : Nat) (s : State) (e : Nat × QWord) (he : e ∈ validEntries s.inForce.catalogue)
    (hlink : catLink e.2 = l) (hlane : catLane e.2 = i) (hrole : roleIngress (catRole e.2) = true) :
    tget false (holdLane l i s).fabric.qualifier (catPort e.2) = false := by
  refine (tget_foldl_tdel false _ s.fabric.qualifier (catPort e.2)).trans (if_pos ?_)
  exact List.mem_map.2 ⟨e, List.mem_filter.2 ⟨he, by simp [hlink, hlane, hrole]⟩, rfl⟩

theorem lane_holdLane (l k : FLink) (i j : Nat) (s : State) : lane k j (holdLane l i s) = lane k j s := by cases k <;> rfl

theorem exec_partnerLost (l : FLink) (i : Nat) (s : State) (h : (lane l i s).state = .up) :
    exec (.partnerLost l i) s = .next (holdLane l i (losePartner l i .lost (driftWindows l i s))) :=
  congrArg Host.Outcome.next (if_pos h)

theorem partnerIsLost (l : FLink) (i : Nat) (s : State) (hi : i < (flink l s).lanes.length) (hup : (lane l i s).state = .up) :
    ∃ t detail, exec (.partnerLost l i) s = .next t ∧ (lane l i t).state = .lost
      ∧ (lane l i t).lostCount = satInc (lane l i s).lostCount ∧ faultSet fcPartnerLost t
      ∧ eventSent evFault fcPartnerLost detail s t
      ∧ (∀ b x, findBatch b.d.batch s = some b → issued b = true → b.verdictsFormed = false → x ∈ laneSites l i s →
        ∃ b' ∈ t.batches, b'.d.batch = b.d.batch ∧ b'.causes.contains (x, 9) = true)
      ∧ ∀ e ∈ validEntries s.inForce.catalogue, catLink e.2 = l → catLane e.2 = i → roleIngress (catRole e.2) = true →
        tget false t.fabric.qualifier (catPort e.2) = false := by
  have hkeeps := driftWindows_findingKeeps l i s
  have hsites := laneSites_of_findingKeeps hkeeps l i
  have hflink := flink_of_findingKeeps hkeeps l
  generalize hu : driftWindows l i s = u at hkeeps hsites hflink
  have hlane : lane l i (holdLane l i (losePartner l i .lost u)) = lostLane .lost (lane l i s) := by
    rw [lane_holdLane, lane_losePartner l i .lost u (hflink ▸ hi), lane_of_flink hflink]
  obtain ⟨hfault, hevent⟩ := losePartner_reports l i .lost s u (cellsKept_of_barrier hkeeps.barrier)
  refine ⟨_, _, hu ▸ exec_partnerLost l i s hup, congrArg Lane.state hlane, congrArg Lane.lostCount hlane, hfault, hevent, ?_, ?_⟩
  · intro b x hb hissued hopen hx
    obtain ⟨b1, hb1, hissued1, hopen1, -⟩ := hkeeps.batches b.d.batch b hb hopen
    have hnum : b1.d.batch = b.d.batch := by simpa using List.find?_some hb1
    obtain ⟨b2, hb2, hmark⟩ := losePartner_marks l i x .lost u b1 (hnum ▸ hb1) (hissued1.trans hissued) hopen1 (hsites ▸ hx)
    have hnum2 : b2.d.batch = b1.d.batch := by simpa using List.find?_some hb2
    exact ⟨b2, List.mem_of_find?_eq_some hb2, hnum2.trans hnum, List.contains_iff_mem.2 hmark⟩
  · intro e he hlink hlane hrole
    have hcatalogue : (losePartner l i .lost u).inForce = s.inForce := by simp [hkeeps.inForce]
    exact holdLane_qualifier l i _ e (hcatalogue ▸ he) hlink hlane hrole

theorem exec_partnerRetry (l : FLink) (i : Nat) (e : Option Nat) (s : State) (hlost : (lane l i s).state = .lost)
    (hstop : (lane l i s).stopRetry = false) (hrejoin : (lane l i s).rejoinDue = false) (hup : 2 ≤ linkState l s) :
    exec (.partnerRetry l i e) s = .next (retryLane l i e s) :=
  congrArg Host.Outcome.next (if_pos (by simp [hlost, hstop, hrejoin, hup]))

theorem settle_of_not_atBoundary (s : State) (h : atBoundary s = false) : settle s = s := by simp [settle, h]

theorem partnerIsRetried (l : FLink) (i : Nat) (s : State) (hlost : (lane l i s).state = .lost)
    (hstop : (lane l i s).stopRetry = false) (hrejoin : (lane l i s).rejoinDue = false) (hup : 2 ≤ linkState l s) :
    exec (.partnerRetry l i none) s = .next s
    ∧ ∀ n, ((lane l i s).alarm = true → exec (.partnerRetry l i (some n)) s = .next s)
      ∧ ((lane l i s).alarm = false → offsetWith l i n s ≠ s.coffset →
        exec (.partnerRetry l i (some n)) s = .next (setLane l i { lane l i s with stopRetry := true } s))
      ∧ ((lane l i s).alarm = false → offsetWith l i n s = s.coffset → atBoundary s = false →
        exec (.partnerRetry l i (some n)) s = .next { setLane l i { lane l i s with
          echo64 := n, rejoinDue := true, wordLock := true, sideLock := true } s with alignDue := true }) := by
  have hexec := fun e => exec_partnerRetry l i e s hlost hstop hrejoin hup
  refine ⟨hexec none, fun n => ⟨fun halarm => ?_, fun halarm hmoves => ?_, fun halarm hsame hnot => ?_⟩⟩
  · rw [hexec, retryLane]
    exact congrArg _ (if_pos halarm)
  · rw [hexec, retryLane]
    simp only [halarm, hmoves, Bool.false_eq_true, if_false]
  · rw [hexec, retryLane]
    simp only [halarm, hsame, Bool.false_eq_true, if_false, if_true]
    refine congrArg _ (settle_of_not_atBoundary _ ?_)
    simpa [atBoundary] using hnot

theorem partnersComeAndGo : Claims.PartnersComeAndGo := fun l i s hi =>
  ⟨partnerIsLost l i s hi, partnerIsRetried l i s⟩

/-! ### Word lock on the mesh links and on T (R125, R351, R377) -/

theorem meshLaneLocks (m : MLink) (i : Nat) (s : State) (hmesh : hasMesh s = true) (harmed : armed s = true) (hi : i < 12) :
    ∃ t, exec (.wordLock (.meshLane m i)) s = .next t
      ∧ (m = .m0 → t = { s with array := { s.array with meshLock0 := nins s.array.meshLock0 i } })
      ∧ (m = .m1 → t = { s with array := { s.array with meshLock1 := nins s.array.meshLock1 i } }) := by
  refine ⟨_, congrArg Host.Outcome.next (if_pos (by simp [hmesh, harmed, hi])), ?_⟩
  cases m <;> simp

theorem exec_twinWordLock (i : Nat) (s : State) (htwin : hasTwin s = true) (harmed : armed s = true) (hi : i < 8) :
    exec (.wordLock (.twinLane i)) s = .next (twinWordLock i s) :=
  congrArg Host.Outcome.next (if_pos (by simp [htwin, harmed, hi]))

/-- With its eighth lane T is up; a member that is not solo does nothing more. -/
theorem twinWordLock_eighth (i : Nat) (s : State) (hdown : s.twin.tUp = false) (h : (nins s.twin.lanesLocked i).length = 8)
    (hrole : s.twin.role ≠ .solo) : twinWordLock i s
      = putTwinBit 10 true { s with twin := { s.twin with lanesLocked := nins s.twin.lanesLocked i, tUp := true } } := by
  simp [twinWordLock, h, hdown, hrole]

theorem twinLaneLocks (i : Nat) (s : State) (htwin : hasTwin s = true) (harmed : armed s = true) (hi : i < 8)
    (hdown : s.twin.tUp = false) :
    ((nins s.twin.lanesLocked i).length ≠ 8 → exec (.wordLock (.twinLane i)) s
      = .next { s with twin := { s.twin with lanesLocked := nins s.twin.lanesLocked i } })
    ∧ ((nins s.twin.lanesLocked i).length = 8 → s.twin.role ≠ .solo → ∃ t, exec (.wordLock (.twinLane i)) s = .next t
      ∧ t.twin = { s.twin with lanesLocked := nins s.twin.lanesLocked i, tUp := true } ∧ t.regs.twinStatus.getLsbD 10 = true) := by
  rw [exec_twinWordLock i s htwin harmed hi]
  refine ⟨fun h => ?_, fun h hrole => ⟨_, congrArg _ (twinWordLock_eighth i s hdown h hrole), rfl, ?_⟩⟩
  · simp [twinWordLock, h]
  · rw [putTwinBit, getLsbD_setBit]
    rfl

theorem otherLanesLock : Claims.OtherLanesLock := fun m i s =>
  ⟨meshLaneLocks m i s, twinLaneLocks i s⟩

/-! ### When a link's training stands still (R265) -/

theorem mem_trainingLanes (l : FLink) (s : State) (j : Nat) (x : Lane) :
    (j, x) ∈ trainingLanes l s ↔ j < 32 ∧ x = lane l j s ∧ x.state = .training := by
  simp only [trainingLanes, List.mem_filter, List.mem_map, List.mem_range, Prod.mk.injEq, decide_eq_true_eq]
  constructor
  · rintro ⟨⟨k, hk, rfl, rfl⟩, hstate⟩
    exact ⟨hk, rfl, hstate⟩
  · rintro ⟨hj, rfl, hstate⟩
    exact ⟨⟨j, hj, rfl, rfl⟩, hstate⟩

/-- A link waits for a lane that trains and has ended neither step 3 nor step 5. -/
theorem trainAdvance_of_waiting (l : FLink) (i : Nat) (s : State) (hi : i < 32) (htrains : (lane l i s).state = .training)
    (h3 : (lane l i s).step = 3 → (lane l i s).descDone = false) (h5 : (lane l i s).step ≠ 6) : trainAdvance l s = s := by
  have hmem : (i, lane l i s) ∈ trainingLanes l s := (mem_trainingLanes l s i _).2 ⟨hi, rfl, htrains⟩
  have hrate : (trainingLanes l s).all (fun x => decide (x.2.step = 3) && x.2.descDone) = false :=
    List.all_eq_false.2 ⟨_, hmem, by simpa using h3⟩
  have hconfig : (trainingLanes l s).all (fun x => decide (x.2.step = 6)) = false :=
    List.all_eq_false.2 ⟨_, hmem, by simpa using h5⟩
  have hrates : rateChoice l s = s := by simp [rateChoice, hrate]
  rw [trainAdvance, hrates]
  simp [configStep, hconfig]

/-- A link of which no lane trains has no training to advance. -/
theorem trainAdvance_of_none_training (l : FLink) (s : State) (h : ∀ j, (lane l j s).state ≠ .training) : trainAdvance l s = s := by
  have hnone : trainingLanes l s = [] := by
    refine List.eq_nil_iff_forall_not_mem.2 fun x hx => ?_
    obtain ⟨-, hlane, hstate⟩ := (mem_trainingLanes l s x.1 x.2).1 hx
    exact h x.1 (hlane ▸ hstate)
  have hrates : rateChoice l s = s := by simp [rateChoice, hnone]
  rw [trainAdvance, hrates]
  simp [configStep, hnone]

/-- The last lane of a link to train ends its training. -/
theorem trainAdvance_of_last_ended (l : FLink) (i : Nat) (s t : State) (halone : ∀ j, j ≠ i → (lane l j s).state ≠ .training)
    (hothers : ∀ j, j ≠ i → lane l j t = lane l j s) (hended : (lane l i t).state ≠ .training) : trainAdvance l t = t :=
  trainAdvance_of_none_training l t fun j => by
    by_cases hj : j = i
    · rwa [hj]
    · rw [hothers j hj]
      exact halone j hj

/-! ### Training begins (R264 to R266) -/

theorem holdLanes_flink (l k : FLink) (is : List Nat) (s : State) : flink k (is.foldl (fun s i => holdLane l i s) s) = flink k s := by
  induction is generalizing s with
  | nil => rfl
  | cons i is ih =>
    rw [List.foldl_cons, ih]
    cases k <;> rfl

/-- A lane of a link that begins to train: enabled and not failed by decision, it trains from the step that its training begins with. -/
theorem startLane_trains (full fresh : Bool) (x : Lane) (h : x.failedByDecision = false) :
    (startLane full fresh true x).state = .training ∧ (startLane full fresh true x).step = if full then 1 else 2 := by
  simp [startLane, h]

theorem linkDrift_findingKeeps (l : FLink) (s : State) : FindingKeeps s (linkDrift l s) :=
  findingKeeps_foldl _ (fun s i => driftWindows_findingKeeps l i s) _ s

/-- A link trains with every step of R265 where that is due or a lane asks for it (R266). -/
def trainsInFull (k : FieldLink) : Bool :=
  k.fullDue || k.lanes.any (fun x => x.descriptor.isNone || decide (x.state = .failed) || decide (x.state = .absent))

/-- Every lane of the link starts; the findings and the holds at the start leave the lanes alone. -/
theorem lane_beginTraining (l : FLink) (j : Nat) (s : State) (hj : j < 32) : lane l j (beginTraining l s)
    = startLane (trainsInFull (flink l s)) (!(flink l s).everTrained) (laneEnabled l j s) (lane l j s) := by
  have hkeeps := linkDrift_findingKeeps l s
  have henabled : laneEnabled l j (linkDrift l s) = laneEnabled l j s := by simp only [laneEnabled, hkeeps.inForce]
  have hsurvey : ∀ (u : State) (v : Survey), flink l (putLinkState l 1 { u with survey := v }) = flink l u := by
    intro u v
    cases l <;> rfl
  have hrange : lget 0 (List.range 32) j = j := by simp [lget, hj]
  rw [lane, beginTraining, hsurvey, holdLanes_flink, flink_setFlink, flink_of_findingKeeps hkeeps,
    lget_map_of_lt 0 _ _ _ _ (by simpa using hj), hrange, henabled]
  rfl

theorem linkState_beginTraining (l : FLink) (s : State) : linkState l (beginTraining l s) = 1 :=
  linkState_putLinkState l 1 _ (by norm_num)

theorem trainingBegins (l : FLink) (s : State) (hbound : atBoundary (settle s) = true) (hnamed : linkNamed l (settle s) = true)
    (hdue : (flink l (settle s)).retrainDue = true) (hstate : linkState l (settle s) ≠ 1) (hloaded : loaded (settle s) = true)
    (harmed : armed (settle s) = true) (hio : ioDisabled (settle s) = false) :
    ∃ t, exec (.linkTrain l) s = .next t ∧ linkState l t = 1
      ∧ ∀ j, j < 32 → laneEnabled l j (settle s) = true → (lane l j (settle s)).failedByDecision = false →
        (lane l j t).state = .training ∧ ((lane l j t).step = 1 ∨ (lane l j t).step = 2)
        ∧ ((flink l (settle s)).fullDue = true → (lane l j t).step = 1) := by
  refine ⟨_, congrArg Host.Outcome.next (if_pos (by simp [hbound, hnamed, hdue, hstate, hloaded, harmed, hio])),
    linkState_beginTraining l _, fun j hj henabled hfailed => ?_⟩
  obtain ⟨htrains, hstep⟩ := startLane_trains (trainsInFull (flink l (settle s))) (!(flink l (settle s)).everTrained) _ hfailed
  rw [lane_beginTraining l j _ hj, henabled, htrains, hstep]
  refine ⟨rfl, ?_, fun h => if_pos (by rw [trainsInFull, h, Bool.true_or])⟩
  split
  · exact .inl rfl
  · exact .inr rfl

/-! ### Steps 1 to 3 (R261, R262, R265) -/

theorem goodQuarter_keeps (frame quarter : Nat) (x : Lane) :
    (goodQuarter frame quarter x).state = x.state ∧ (goodQuarter frame quarter x).step = x.step
    ∧ (goodQuarter frame quarter x).wordLock = x.wordLock ∧ (goodQuarter frame quarter x).descDone = x.descDone
    ∧ (goodQuarter frame quarter x).descriptor = x.descriptor := by
  unfold goodQuarter
  split <;> exact ⟨rfl, rfl, rfl, rfl, rfl⟩

/-- The fourth good quarter in a row gives side-channel lock. -/
theorem goodQuarter_locks (frame quarter : Nat) (x : Lane) (h : advances x frame quarter = true) (hgood : 3 ≤ x.goodQuarters) :
    (goodQuarter frame quarter x).sideLock = true := by
  simp [goodQuarter, h, hgood]

theorem lockAdvance_of_unlocked (full rate34 : Bool) (x : Lane) (h : x.sideLock = false) : lockAdvance full rate34 x = x := by
  simp [lockAdvance, h]

theorem lockAdvance_of_step3 (full rate34 : Bool) (x : Lane) (h : x.step = 3) : lockAdvance full rate34 x = x := by
  simp [lockAdvance, h]

theorem stepLane_eq (l : FLink) (i : Nat) (f : Lane → Lane) (s : State) :
    stepLane l i f s = setLane l i (lockAdvance (flink l s).fullDue (flink l s).rate34 (f (lane l i s))) s := rfl

theorem laneListens_of_training (x : Lane) (h : x.state = .training) : laneListens x = true := by simp [laneListens, h]

/-- A lane with word lock in step 2. -/
def wordLocked (x : Lane) : Lane := { x with wordLock := true, step := 2 }

/-- Word lock ends step 1; the link waits on, for this lane is in step 2. -/
theorem wordLockEndsStep1 (l : FLink) (i : Nat) (s : State) (h32 : i < 32) (hi : i < (flink l s).lanes.length)
    (htrains : (lane l i s).state = .training) (hstep : (lane l i s).step = 1) (hside : (lane l i s).sideLock = false) :
    exec (.wordLock (.fieldLane l i)) s = .next (setLane l i (wordLocked (lane l i s)) s) := by
  have hexec : exec (.wordLock (.fieldLane l i)) s = .next (trainAdvance l (stepLane l i (fun x =>
      { x with wordLock := true, step := if x.step = 1 then 2 else x.step }) s)) := congrArg Host.Outcome.next (if_pos htrains)
  have hlocked : stepLane l i (fun x => { x with wordLock := true, step := if x.step = 1 then 2 else x.step }) s
      = setLane l i (wordLocked (lane l i s)) s := by
    rw [stepLane_eq, hstep, if_pos rfl]
    exact congrArg (setLane l i · s) (lockAdvance_of_unlocked _ _ (wordLocked (lane l i s)) hside)
  have hlane := lane_setLane l i (wordLocked (lane l i s)) s hi
  rw [hexec, hlocked]
  refine congrArg _ (trainAdvance_of_waiting l i _ h32 ?_ ?_ ?_) <;> rw [hlane]
  · exact htrains
  · exact fun h => absurd h (by decide : ¬2 = 3)
  · exact (by decide : 2 ≠ 6)

/-- A lane that begins step 3. -/
def beginsStep3 (x : Lane) : Lane := { x with step := 3, descSeen := [], descTwice := [], descDone := false }

/-- Both locks end step 2 of a full training. -/
theorem lockAdvance_of_locked_step2 (rate34 : Bool) (x : Lane) (htrains : x.state = .training) (hword : x.wordLock = true)
    (hside : x.sideLock = true) (hstep : x.step = 2) : lockAdvance true rate34 x = beginsStep3 x := by
  simp [lockAdvance, htrains, hword, hside, hstep, beginsStep3]

/-- A lane after its partner partnerAnnounced its step. -/
def partnerAnnounced (q : QWord) (x : Lane) : Lane :=
  { goodQuarter (qFrame q) (qQuarter q) x with partnerStep := fld (qData q) 31 28 }

/-- The fourth good quarter ends step 2; the link waits on, for this lane is in step 3. -/
theorem sideLockEndsStep2 (l : FLink) (i : Nat) (q : QWord) (s : State) (h32 : i < 32) (hi : i < (flink l s).lanes.length)
    (htrains : (lane l i s).state = .training) (hstep : (lane l i s).step = 2) (hword : (lane l i s).wordLock = true)
    (hgood : 3 ≤ (lane l i s).goodQuarters) (hq : qIs 3 q = true)
    (hadv : advances (lane l i s) (qFrame q) (qQuarter q) = true) (hfull : (flink l s).fullDue = true) :
    ∃ t, exec (.train l i q) s = .next t ∧ (lane l i t).step = 3 ∧ (lane l i t).partnerStep = fld (qData q) 31 28
      ∧ t = setFlink l (flink l t) s := by
  have hexec : exec (.train l i q) s = .next (trainAdvance l (stepLane l i (partnerAnnounced q) s)) :=
    congrArg Host.Outcome.next (if_pos (by simp [hq, laneListens_of_training _ htrains]))
  obtain ⟨hstate', hstep', hword', -⟩ := goodQuarter_keeps (qFrame q) (qQuarter q) (lane l i s)
  have hlocked : stepLane l i (partnerAnnounced q) s = setLane l i (beginsStep3 (partnerAnnounced q (lane l i s))) s := by
    rw [stepLane_eq, hfull, lockAdvance_of_locked_step2 _ (partnerAnnounced q (lane l i s)) (hstate'.trans htrains) (hword'.trans hword)
      (goodQuarter_locks _ _ _ hadv hgood) (hstep'.trans hstep)]
  have hlane := lane_setLane l i (beginsStep3 (partnerAnnounced q (lane l i s))) s hi
  have hwaits : trainAdvance l (stepLane l i (partnerAnnounced q) s) = setLane l i (beginsStep3 (partnerAnnounced q (lane l i s))) s := by
    rw [hlocked]
    refine trainAdvance_of_waiting l i _ h32 ?_ ?_ ?_ <;> rw [hlane]
    · exact hstate'.trans htrains
    · exact fun _ => rfl
    · exact (by decide : 3 ≠ 6)
  exact ⟨_, hexec.trans (congrArg _ hwaits), congrArg Lane.step hlane, congrArg Lane.partnerStep hlane, by simp [setLane]⟩

/-- The lane after a part of its partner's descriptor. -/
def heardPart (q : QWord) (x : Lane) : Lane := descPart (qPart q) (qData q) (goodQuarter (qFrame q) (qQuarter q) x)

/-- A part leaves the descriptor that the lane knows. -/
theorem heardPart_descriptor (q : QWord) (x : Lane) : (heardPart q x).descriptor = x.descriptor := by
  have hpart : ∀ p d (y : Lane), (descPart p d y).descriptor = y.descriptor := fun p d y => by
    unfold descPart
    split <;> rfl
  obtain ⟨-, -, -, -, hgood⟩ := goodQuarter_keeps (qFrame q) (qQuarter q) x
  exact (hpart _ _ _).trans hgood

/-- A part of the descriptor in step 3 is kept; the fourth that has come twice ends the step. -/
theorem exec_desc (l : FLink) (i : Nat) (q : QWord) (s : State) (hi : i < (flink l s).lanes.length)
    (htrains : (lane l i s).state = .training) (hstep : (lane l i s).step = 3) (hdone : (lane l i s).descDone = false)
    (hq : qIs 4 q = true) : exec (.desc l i q) s = .next (if (heardPart q (lane l i s)).descTwice.length = 4
      then trainAdvance l (endDesc l i (setLane l i (heardPart q (lane l i s)) s))
      else setLane l i (heardPart q (lane l i s)) s) := by
  have hexec : exec (.desc l i q) s = .next (takeDesc l i q s) :=
    congrArg Host.Outcome.next (if_pos (by simp [hq, laneListens_of_training _ htrains]))
  obtain ⟨hstate', hstep', -, hdone', -⟩ := goodQuarter_keeps (qFrame q) (qQuarter q) (lane l i s)
  have hwaits : ((goodQuarter (qFrame q) (qQuarter q) (lane l i s)).state = .training
      && decide ((goodQuarter (qFrame q) (qQuarter q) (lane l i s)).step = 3)
      && !(goodQuarter (qFrame q) (qQuarter q) (lane l i s)).descDone) = true := by
    simp [hstate', hstep', hdone', htrains, hstep, hdone]
  rw [hexec, takeDesc, stepLane_eq, lockAdvance_of_step3 _ _ _ (hstep'.trans hstep)]
  simp only [lane_setLane l i _ s hi, hwaits, if_true, setLane_setLane]
  rfl

/-- A lane that fails in training leaves it, and its fault is set. -/
theorem failTraining_effect (l : FLink) (i : Nat) (s : State) (hi : i < (flink l s).lanes.length) :
    (lane l i (failTraining l i s)).state = .failed ∧ faultSet fcPartnerLost (failTraining l i s)
    ∧ ∀ j, j ≠ i → lane l j (failTraining l i s) = lane l j s :=
  ⟨congrArg Lane.state (lane_losePartner l i .failed s hi), (losePartner_reports l i .failed s s (cellsKept_of_barrier rfl)).1,
    fun j hj => lane_losePartner_ne l i j .failed s hj.symm⟩

/-- A lane that knows its partner's descriptor. -/
def withDescriptor (d : Record) (x : Lane) : Lane := { x with descriptor := some d }

/-- No channel in the descriptor fails the lane (R262). -/
theorem endDesc_of_no_channel (l : FLink) (i : Nat) (s : State) (h : dChannels (descOf (lane l i s)) = 0) :
    endDesc l i s = failTraining l i (setLane l i (withDescriptor (descOf (lane l i s)) (lane l i s)) s) := by
  exact if_pos h

/-- A descriptor that is not the one known fails the lane with LINK_TRAIN (R278). -/
theorem endDesc_of_changed (l : FLink) (i : Nat) (s : State) (old : Record) (h : dChannels (descOf (lane l i s)) ≠ 0)
    (hold : (lane l i s).descriptor = some old) (hne : old ≠ descOf (lane l i s)) : endDesc l i s
      = setFault fcLinkTrain (failTraining l i (setLane l i (withDescriptor (descOf (lane l i s)) (lane l i s)) s)) := by
  simp [endDesc, h, hold, hne, withDescriptor]

theorem lane_setFault (l : FLink) (j code : Nat) (s : State) : lane l j (setFault code s) = lane l j s := by
  cases l <;> simp [lane, flink]

theorem descriptorsArrive (l : FLink) (i : Nat) (q : QWord) (s : State) (hi : i < (flink l s).lanes.length)
    (htrains : (lane l i s).state = .training) (hstep : (lane l i s).step = 3) (hdone : (lane l i s).descDone = false)
    (hq : qIs 4 q = true) :
    let x := lane l i s
    let y := heardPart q x
    (y.descTwice.length ≠ 4 → exec (.desc l i q) s = .next (setLane l i y s))
    ∧ (y.descTwice.length = 4 → (∀ j, j ≠ i → (lane l j s).state ≠ .training) →
      (dChannels (descOf y) = 0 → ∃ t, exec (.desc l i q) s = .next t ∧ (lane l i t).state = .failed ∧ faultSet fcPartnerLost t)
      ∧ (dChannels (descOf y) ≠ 0 → (∃ old, x.descriptor = some old ∧ old ≠ descOf y) →
        ∃ t, exec (.desc l i q) s = .next t ∧ (lane l i t).state = .failed ∧ faultSet fcLinkTrain t)) := by
  intro x y
  have hexec := exec_desc l i q s hi htrains hstep hdone hq
  have hlane : lane l i (setLane l i y s) = y := lane_setLane l i y s hi
  refine ⟨fun h => hexec.trans (congrArg _ (if_neg h)), fun h halone => ?_⟩
  rw [hexec, if_pos h]
  have hlen : i < (flink l (setLane l i (withDescriptor (descOf y) y) (setLane l i y s))).lanes.length := by
    simpa [setLane] using hi
  obtain ⟨hfailed, hfault, hothers⟩ := failTraining_effect l i _ hlen
  have hothers' : ∀ j, j ≠ i → lane l j (failTraining l i (setLane l i (withDescriptor (descOf y) y) (setLane l i y s)))
      = lane l j s := fun j hj => by
    rw [hothers j hj, lane_setLane_ne l i j _ _ hj.symm, lane_setLane_ne l i j _ _ hj.symm]
  constructor
  · intro hnone
    have hend := endDesc_of_no_channel l i (setLane l i y s) (by rw [hlane]; exact hnone)
    rw [hlane] at hend
    refine ⟨_, congrArg _ ((congrArg _ hend).trans (trainAdvance_of_last_ended l i s _ halone hothers' ?_)), hfailed, hfault⟩
    rw [hfailed]
    decide
  · rintro hsome ⟨old, hold, hne⟩
    have hkept : y.descriptor = some old := (heardPart_descriptor q x).trans hold
    have hend := endDesc_of_changed l i (setLane l i y s) old (by rw [hlane]; exact hsome) (by rw [hlane]; exact hkept)
      (by rw [hlane]; exact hne)
    rw [hlane] at hend
    refine ⟨_, congrArg _ ((congrArg _ hend).trans (trainAdvance_of_last_ended l i s _ halone (fun j hj => ?_) ?_)), ?_, ?_⟩
    · rw [lane_setFault]
      exact hothers' j hj
    · rw [lane_setFault, hfailed]
      decide
    · rw [lane_setFault]
      exact hfailed
    · exact setFault_bit _ _ rfl (by decide)

/-! ### Limits of a step, and the link's end of training (R265) -/

theorem stepLimits (l : FLink) (i : Nat) (s : State) (hi : i < (flink l s).lanes.length) (htrains : (lane l i s).state = .training)
    (halone : ∀ j, j ≠ i → (lane l j s).state ≠ .training) :
    ((lane l i s).step = 1 → laneSites l i s = [] →
      exec (.trainingStepTimeout l i) s = .next (setLane l i { lane l i s with state := .absent } s))
    ∧ (1 < (lane l i s).step → (lane l i s).step < 8 → ∃ t, exec (.trainingStepTimeout l i) s = .next t
      ∧ (lane l i t).state = .failed ∧ faultSet fcPartnerLost t) := by
  have hexec : (lane l i s).step < 8 → exec (.trainingStepTimeout l i) s = .next (trainAdvance l (trainingTimeout l i s)) :=
    fun h => congrArg Host.Outcome.next (if_pos (by simp [htrains, h]))
  constructor
  · intro hstep hsites
    have habsent : trainingTimeout l i s = setLane l i { lane l i s with state := .absent } s := by
      simp [trainingTimeout, hstep, hsites]
    rw [hexec (by omega), habsent]
    refine congrArg _ (trainAdvance_of_last_ended l i s _ halone (fun j hj => lane_setLane_ne l i j _ s hj.symm) ?_)
    simp [lane_setLane l i _ s hi]
  · intro hlo hhi
    have hfails : trainingTimeout l i s = failTraining l i s := if_neg (by omega)
    obtain ⟨hfailed, hfault, hothers⟩ := failTraining_effect l i s hi
    refine ⟨_, (hexec hhi).trans ?_, hfailed, hfault⟩
    rw [hfails]
    exact congrArg _ (trainAdvance_of_last_ended l i s _ halone hothers (by simp [hfailed]))

theorem exec_linkUp (l : FLink) (s : State) (hstate : linkState l s = 1)
    (hall : (trainingLanes l s).all (fun x => decide (x.2.step = 8)) = true) : exec (.linkUp l) s = .next (linkUp l s) :=
  congrArg Host.Outcome.next (if_pos (by simp [hstate, -List.all_eq_true, hall]))

/-- A lane as its link comes up in a cycle. -/
def risenLane (now : Nat) (x : Lane) : Lane :=
  if x.state = .training then
    { x with
      state := .up, step := 0, rxWord := 0, prevCrc := none, frameStart := now, checkedTo := now, statusTo := now, egPrevCrc := none
      errWords := [], errFrames := [] }
  else x

/-- A link that has come up in a cycle. -/
def risenLink (now : Nat) (temp : Int) (k : FieldLink) : FieldLink :=
  { k with
    lanes := k.lanes.map (risenLane now), retrainDue := false, fullDue := false, everTrained := true, frame := 0, word := 0
    egStart := now, secondOfPair := false, tempAtEcho := temp }

theorem linkUp_eq (l : FLink) (s : State) : linkUp l s
    = refreshLinkState l (putLinkState l 2 (setFlink l (risenLink s.power.fclk (linkTemp l s) (flink l s)) s)) := rfl

theorem flink_linkUp (l : FLink) (s : State) : flink l (linkUp l s) = risenLink s.power.fclk (linkTemp l s) (flink l s) := by
  rw [linkUp_eq, flink_refreshLinkState]
  cases l <;> rfl

theorem linkComesUp (l : FLink) (i : Nat) (s : State) (hi : i < (flink l s).lanes.length) (hstate : linkState l s = 1)
    (hall : (trainingLanes l s).all (fun x => decide (x.2.step = 8)) = true) :
    ∃ t, exec (.linkUp l) s = .next t ∧ 2 ≤ linkState l t ∧ (flink l t).retrainDue = false ∧ (flink l t).frame = 0
      ∧ (flink l t).word = 0 ∧ (flink l t).egStart = s.power.fclk ∧ (flink l t).everTrained = true
      ∧ ((lane l i s).state = .training → (lane l i t).state = .up) ∧ t.batches = s.batches := by
  have hlane : lane l i (linkUp l s) = risenLane s.power.fclk (lane l i s) := by
    rw [lane, flink_linkUp]
    exact lget_map_of_lt {} _ _ _ _ hi
  refine ⟨_, exec_linkUp l s hstate hall, ?_⟩
  rw [flink_linkUp, hlane]
  obtain ⟨hbatches, -⟩ := refreshLinkState_keeps l
    (putLinkState l 2 (setFlink l (risenLink s.power.fclk (linkTemp l s) (flink l s)) s))
  refine ⟨?_, rfl, rfl, rfl, rfl, rfl, fun h => ?_, hbatches.trans (by simp)⟩
  · rw [linkUp_eq]
    exact linkState_refreshLinkState l _ (linkState_putLinkState l 2 _ (by norm_num)).ge
  · rw [risenLane, if_pos h]

theorem fieldLanesTrain : Claims.LinksTrain := fun l i q s h32 hi =>
  ⟨trainingBegins l s, wordLockEndsStep1 l i s h32 hi, sideLockEndsStep2 l i q s h32 hi, descriptorsArrive l i q s hi,
    stepLimits l i s hi, linkComesUp l i s hi⟩

/-- Settles O40: a link waits for each lane that trains, findings leave its lanes alone, and a loss changes its own lane. -/
theorem linksTrain : Obligations.LinksTrain :=
  ⟨fieldLanesTrain, otherLanesLock, partnersComeAndGo⟩

end Sys2Proof.Machine
end

section
/-! PROOF. Snapshots, captures and readback of the fabric (O55). -/

namespace Sys2Proof.Machine

/-! ### Snapshot copies (R175 to R178, R446, R675) -/

/-- A bank without deviations decodes clean. -/
theorem rowDecode_of_bankDev_nil (prev : Bool) (row : Nat) (s : State) (h : bankDev prev s = []) :
    (rowDecode prev row s).1 = .clean := by
  rw [rowDecode, h]
  rfl

/-- The bytes of one word as a snapshot copies it. -/
def snapshotBytes (g : Nat) (s : State) (w : Bool × Nat × Nat) : List Byte :=
  bytesOf 2 (stateValue w.1 (bpNum g w.2.1) w.2.2 s).toNat

theorem length_snapshotBytes (g : Nat) (s : State) (w : Bool × Nat × Nat) : (snapshotBytes g s w).length = 2 := length_bytesOf 2 _

theorem snapshotEffect_of_clean (prev : Bool) (bpn w : Nat) (s : State) (h : (rowDecode prev (rowKey bpn w) s).1 = .clean) :
    snapshotEffect prev bpn w s = s := by
  simp [snapshotEffect, h]

theorem snapshotBad_of_clean (prev : Bool) (bpn w : Nat) (s : State) (h : (rowDecode prev (rowKey bpn w) s).1 = .clean) :
    snapshotBad prev bpn w s = false := by
  simp [snapshotBad, h]

/-- From banks that decode clean a snapshot copies every word, and changes nothing. -/
theorem snapshotGo_of_clean (g : Nat) (ws : List (Bool × Nat × Nat)) (bs : List Byte) (s : State)
    (h : ∀ prev row, (rowDecode prev row s).1 = .clean) :
    snapshotGo g ws bs s = (bs ++ ws.flatMap (snapshotBytes g s), none, s) := by
  induction ws generalizing bs with
  | nil => simp [snapshotGo]
  | cons w ws ih =>
    obtain ⟨prev, bp, k⟩ := w
    have hclean := h prev (rowKey (bpNum g bp) k)
    simp only [snapshotGo, snapshotEffect_of_clean _ _ _ _ hclean, snapshotBad_of_clean _ _ _ _ hclean, Bool.false_eq_true, if_false]
    rw [ih, List.flatMap_cons, ← List.append_assoc]
    rfl

/-- A snapshot copies 256 times `count` words of each bank that it names. -/
theorem length_snapshotWords (banks first count : Nat) (h1 : 1 ≤ banks) (h3 : banks ≤ 3) :
    (snapshotWords banks first count).length = (if banks = 3 then 2 else 1) * (256 * count) := by
  have hbank : ∀ prev : Bool, ((List.range 256).flatMap (fun bp => (List.range count).map (fun k => (prev, bp, first + k)))).length
      = 256 * count := fun prev => by
    rw [length_flatMap_of_const _ count (fun _ => by simp), List.length_range, Nat.mul_comm]
  obtain rfl | rfl | rfl : banks = 1 ∨ banks = 2 ∨ banks = 3 := by omega
  · simp [snapshotWords, hbank, -List.length_flatMap]
  · simp [snapshotWords, hbank, -List.length_flatMap]
  · simp only [snapshotWords, List.length_append, Nat.reduceMod, Nat.reduceLeDiff, if_true, hbank]
    ring

theorem exec_snapshotCopy (slot : Nat) (c : QueuedCall) (s : State) (hc : callOf slot 0x0005 s = some c) :
    exec (.snapshotCopy slot) s = .next (snapshotCopy c s) := by
  simp only [exec, execSnapshotCopy, hc]

/-- A snapshot that R675 allows, of banks that decode clean, goes to host memory whole. -/
theorem snapshotCopy_of_clean (c : QueuedCall) (s : State) (htime : stateTime s = true) (hread : s.otp.readbackDis = false)
    (hawake : galleryAwake (argOf c 0).toNat s = true) (h1 : 1 ≤ (argOf c 1).toNat) (h3 : (argOf c 1).toNat ≤ 3)
    (hcount : 1 ≤ (argOf c 3).toNat) (hend : (argOf c 2).toNat + (argOf c 3).toNat ≤ 512) (haddr : (argOf c 4).toNat % 8 = 0)
    (hclean : ∀ prev row, (rowDecode prev row s).1 = .clean) :
    snapshotCopy c s = replyBulk c (argOf c 4).toNat ((snapshotWords (argOf c 1).toNat (argOf c 2).toNat (argOf c 3).toNat).flatMap
      (snapshotBytes (argOf c 0).toNat s)) s := by
  obtain ⟨hg, -⟩ : (argOf c 0).toNat < galleryCount s ∧ _ := by simpa [galleryAwake] using hawake
  have hrange : (decide (galleryCount s ≤ (argOf c 0).toNat) || decide ((argOf c 1).toNat = 0) || decide (3 < (argOf c 1).toNat)
      || decide (511 < (argOf c 2).toNat) || decide ((argOf c 3).toNat = 0) || decide (512 < (argOf c 2).toNat + (argOf c 3).toNat)
      || decide ((argOf c 4).toNat % 8 ≠ 0)) = false := by
    simp only [Bool.or_eq_false_iff, decide_eq_false_iff_not]
    omega
  simp only [snapshotCopy, htime, hread, hrange, hawake, snapshotGo_of_clean _ _ _ _ hclean, Bool.not_true, Bool.false_eq_true, if_false,
    List.nil_append]

theorem snapshotGoesToHostMemory (c : QueuedCall) (s : State) (htime : stateTime s = true) (hread : s.otp.readbackDis = false)
    (hawake : galleryAwake (argOf c 0).toNat s = true) (h1 : 1 ≤ (argOf c 1).toNat) (h3 : (argOf c 1).toNat ≤ 3)
    (hcount : 1 ≤ (argOf c 3).toNat) (hend : (argOf c 2).toNat + (argOf c 3).toNat ≤ 512) (haddr : (argOf c 4).toNat % 8 = 0)
    (hcur : s.array.curDev = []) (hprev : s.array.prevDev = []) :
    ∃ bs, bs.length = (if (argOf c 1).toNat = 3 then 2 else 1) * 512 * (argOf c 3).toNat
      ∧ snapshotCopy c s = reply c resOk [BitVec.ofNat 64 bs.length] (hostWriteBytes (argOf c 4).toNat bs s) := by
  have hclean : ∀ prev row, (rowDecode prev row s).1 = .clean := fun prev row =>
    rowDecode_of_bankDev_nil prev row s (by cases prev <;> simp [bankDev, hcur, hprev])
  have hcopy := snapshotCopy_of_clean c s htime hread hawake h1 h3 hcount hend haddr hclean
  refine ⟨_, ?_, hcopy.trans (replyBulk_of_aligned c _ _ s haddr)⟩
  rw [length_flatMap_of_const _ 2 (length_snapshotBytes _ s), length_snapshotWords _ _ _ h1 h3]
  ring

/-! ### Captures (R240, R241, R245) -/

theorem exec_fabricCapture (slot : Nat) (c : QueuedCall) (s : State) (hc : callOf slot 0x0006 s = some c) :
    exec (.fabricCapture slot) s = .next (fabricCapture c s) := by
  simp only [exec, execFabricCapture, hc]

theorem fabricCapture_of_armed (c : QueuedCall) (s : State) (hread : s.otp.readbackDis = false) (harmed : armed s = true) :
    ((argOf c 0).toNat = 0 → fabricCapture c s = reply c resOk (captureReply s) (takeCapture s))
    ∧ ((argOf c 0).toNat = 1 → fabricCapture c s = { s with fabric := { s.fabric with stopCapture := some (c.slot, c.tag) } }) := by
  constructor <;> intro h <;> simp [fabricCapture, fabricAwake, hread, harmed, h]

@[simp] theorem reply_fabric (c : QueuedCall) (result : Nat) (data : List QWord) (s : State) :
    (reply c result data s).fabric = s.fabric := by
  simp only [reply, writeReply]
  split <;> simp [sendReply]

/-- The first stop line takes the capture that waits for it, and answers the call if it is still queued (R241). -/
theorem exec_captureOnStop (slot : Nat) (tag : Word) (s : State) (hwait : s.fabric.stopCapture = some (slot, tag))
    (hstop : s.fabric.stopA = true ∨ s.fabric.stopB = true) :
    ∃ t, exec .captureOnStop s = .next t ∧ t.fabric = (takeCapture s).fabric := by
  have hline : (s.fabric.stopA || s.fabric.stopB) = true := by simpa using hstop
  simp only [exec, execCaptureOnStop, hwait, hline, if_true]
  refine ⟨_, rfl, ?_⟩
  split <;> simp

theorem exec_captureOnStop_of_no_stop (slot : Nat) (tag : Word) (s : State) (hwait : s.fabric.stopCapture = some (slot, tag))
    (ha : s.fabric.stopA = false) (hb : s.fabric.stopB = false) : exec .captureOnStop s = .next s := by
  simp [exec, execCaptureOnStop, hwait, ha, hb]

/-! ### Readback (R240, R242 to R245) -/

theorem exec_fabricReadback (slot : Nat) (c : QueuedCall) (s : State) (hc : callOf slot 0x0007 s = some c) :
    exec (.fabricReadback slot) s = .next (fabricReadback c s) := by
  simp only [exec, execFabricReadback, hc]

/-- The bytes of a configuration frame. -/
def frameBytes (s : State) (a : Nat) : List Byte := bytesOf 128 (tget 0 s.fabric.frames a).toNat

theorem length_frameBytes (s : State) (a : Nat) : (frameBytes s a).length = 128 := length_bytesOf 128 _

/-- Configuration frames are copied one after the other, and nothing changes. -/
theorem readbackGo_of_config (as : List Nat) (bs : List Byte) (s : State) (h : ∀ a ∈ as, a ≤ 0x17FF) :
    readbackGo as bs s = (bs ++ as.flatMap (frameBytes s), none, s) := by
  induction as generalizing bs with
  | nil => simp [readbackGo]
  | cons a as ih =>
    obtain ⟨ha, has⟩ := List.forall_mem_cons.1 h
    rw [readbackGo, if_pos ha, ih _ has, List.flatMap_cons, ← List.append_assoc]
    rfl

/-- Readback of frames below the captures copies them all. -/
theorem readbackOfConfigFrames (c : QueuedCall) (s : State) (hread : s.otp.readbackDis = false) (harmed : armed s = true)
    (haddr : (argOf c 2).toNat % 8 = 0) (hend : (argOf c 0).toNat + (argOf c 1).toNat ≤ 0x1800) :
    fabricReadback c s = replyBulk c (argOf c 2).toNat
      ((List.range' (argOf c 0).toNat (argOf c 1).toNat).flatMap (frameBytes s)) s := by
  have hmin : min (argOf c 1).toNat 0x4400 = (argOf c 1).toNat := by omega
  have hfits : ¬ 0x4400 < (argOf c 0).toNat + (argOf c 1).toNat := by omega
  have hconfig : ∀ a ∈ List.range' (argOf c 0).toNat (argOf c 1).toNat, a ≤ 0x17FF := fun a ha => by
    rw [List.mem_range'_1] at ha
    omega
  have hreadable : (List.range' (argOf c 0).toNat (argOf c 1).toNat).all frameReadable = true :=
    List.all_eq_true.2 fun a ha => by simp [frameReadable, hconfig a ha]
  have hcapture : (List.range' (argOf c 0).toNat (argOf c 1).toNat).any
      (fun a => decide (0x2000 ≤ a) && decide (a ≤ 0x207F)) = false :=
    List.any_eq_false.2 fun a ha => by simp [show ¬ 0x2000 ≤ a from by have := hconfig a ha; omega]
  simp only [fabricReadback, fabricAwake, hread, harmed, haddr, hmin, hfits, ← List.range'_eq_map_range, hreadable, hcapture,
    readbackGo_of_config _ _ _ hconfig, Bool.not_true, Bool.false_eq_true, if_false, List.nil_append, ne_eq, not_true, decide_false,
    Bool.or_false, Bool.and_false]

theorem readbackGoesToHostMemory (c : QueuedCall) (s : State) (hread : s.otp.readbackDis = false) (harmed : armed s = true)
    (haddr : (argOf c 2).toNat % 8 = 0) (hend : (argOf c 0).toNat + (argOf c 1).toNat ≤ 0x1800) :
    fabricReadback c s = reply c resOk [BitVec.ofNat 64 (128 * (argOf c 1).toNat)] (hostWriteBytes (argOf c 2).toNat
      ((List.range (argOf c 1).toNat).flatMap (fun k => frameBytes s ((argOf c 0).toNat + k))) s) := by
  rw [readbackOfConfigFrames c s hread harmed haddr hend, replyBulk_of_aligned _ _ _ _ haddr,
    length_flatMap_of_const _ 128 (length_frameBytes s), List.length_range', List.range'_eq_map_range, List.flatMap_map]

theorem readbackWithoutCapture (c : QueuedCall) (s : State) (hread : s.otp.readbackDis = false) (harmed : armed s = true)
    (haddr : (argOf c 2).toNat % 8 = 0) (hfirst : (argOf c 0).toNat = 0x2000) (hone : (argOf c 1).toNat = 1)
    (hcap : s.fabric.capture = none) : fabricReadback c s = reply c resNoCapture [] s := by
  simp [fabricReadback, fabricAwake, hread, harmed, haddr, hfirst, hone, hcap, frameReadable]

/-- Settles O55: each call checks its rules in turn, and copies stored words and frames alone. -/
theorem stateIsReadBack : Obligations.StateIsReadBack := by
  intro slot c s n snap
  refine ⟨fun hc => ?_, fun hc => ?_, fun tag hwait => ?_, fun hc => ?_⟩
  · rw [exec_snapshotCopy slot c s hc]
    refine ⟨fun htime => ?_, fun htime hread => ?_, fun htime hread hawake h1 h3 hcount hend haddr hcur hprev => ?_⟩
    · simp [snapshotCopy, htime]
    · simp [snapshotCopy, htime, hread]
    · obtain ⟨bs, hlen, hcopy⟩ := snapshotGoesToHostMemory c s htime hread hawake h1 h3 hcount hend haddr hcur hprev
      exact ⟨bs, hlen, congrArg _ hcopy⟩
  · rw [exec_fabricCapture slot c s hc]
    refine ⟨fun hread => ?_, fun hread hasleep => ?_, fun hread harmed => ?_⟩
    · simp [fabricCapture, hread]
    · simp [fabricCapture, fabricAwake, hread, hasleep]
    · obtain ⟨hnow, hstop⟩ := fabricCapture_of_armed c s hread harmed
      exact ⟨fun h0 => congrArg _ (hnow h0), fun h1 => congrArg _ (hstop h1)⟩
  · refine ⟨exec_captureOnStop_of_no_stop slot tag s hwait, fun hstop => ?_⟩
    obtain ⟨t, hexec, hfabric⟩ := exec_captureOnStop slot tag s hwait hstop
    rw [hexec]
    exact ⟨t, rfl, by rw [hfabric]; exact ⟨rfl, rfl, rfl⟩⟩
  · rw [exec_fabricReadback slot c s hc]
    refine ⟨fun hread => ?_, fun hread harmed haddr hend => ?_, fun hread harmed haddr hfirst hone hcap => ?_⟩
    · simp [fabricReadback, hread]
    · exact congrArg _ (readbackGoesToHostMemory c s hread harmed haddr hend)
    · exact congrArg _ (readbackWithoutCapture c s hread harmed haddr hfirst hone hcap)

end Sys2Proof.Machine
end

section
/-! PROOF. Egress cycles, slot words, rows and deliveries (O37). -/

namespace Sys2Proof.Machine

/-! ### A batch goes on egress, and a waiting pattern is flushed (R157, R158, R164, R169) -/

/-- A batch on egress, from a cycle on. -/
def withEgress (fclk : Nat) (b : Batch) : Batch := { b with egressBegun := true, firstEgress := fclk }

/-- The egress state of a batch's first pattern. -/
def firstPattern (b : Batch) (e : Egress) : Egress :=
  { e with
    phase := if b.mode = 1#2 then .load else .emul
    batch := some b.d.batch, pattern := 0, cycle := 0, emulated := 0, waitingUnload := none, batchStart := false }

theorem beginEgress_keeps (b : Batch) (s : State) : (beginEgress b s).egress = firstPattern b s.egress
    ∧ (beginEgress b s).batches = (modBatch b.d.batch (withEgress s.power.fclk) s).batches := by
  unfold beginEgress firstPattern
  dsimp only
  split <;> split <;> exact ⟨rfl, rfl⟩

theorem exec_egressBegin (b : Batch) (s : State) (hnext : nextEgress (settle s) = some b) (hready : egressReady b (settle s) = true) :
    exec .egressBegin s = .next (beginEgress b (settle s)) := by
  simp [exec, execEgressBegin, hnext, hready]

theorem exec_flushLoad (b : Batch) (s : State) (hwait : waitingBatch s = some b) (hphase : s.egress.phase = .hold)
    (hdone : b.burstDone = true) (hflush : flushDue b s = true) (hrun : egressPaused s = false) (hrerun : s.egress.rerunFrom = none) :
    exec .flushLoad s = .next (addRows (captureRows b (b.d.patterns - 1) b.d.shiftDiv s)
      { s with egress := { s.egress with phase := .flush, cycle := 0, batch := some b.d.batch, waitingUnload := none } }) := by
  simp [exec, execFlushLoad, hwait, hphase, hdone, hflush, hrun, hrerun]

theorem egressBegins : Claims.EgressBegins := by
  intro b s
  refine ⟨fun hnext hready => ?_, exec_flushLoad b s⟩
  obtain ⟨hegress, hbatches⟩ := beginEgress_keeps b (settle s)
  refine ⟨_, exec_egressBegin b s hnext hready, ?_⟩
  rw [hegress, hbatches]
  exact ⟨rfl, rfl, rfl, rfl, _, (mem_modBatch _ _ _ _).2 ⟨b, List.mem_of_find?_eq_some hnext, (if_pos rfl).symm⟩, rfl, rfl, rfl⟩

/-! ### One egress cycle (R154, R173, R249, R252, R255) -/

theorem takeLink_of_down (l : FLink) (s : State) (h : linkIsUp l s = false) : takeLink l s = s := by
  simp [takeLink, h]

/-- The words of a cycle change the lanes and counters of their link, and the words taken and the bits last driven. -/
theorem takeLink_shape (l : FLink) (s : State) : takeLink l s = { setFlink l (flink l (takeLink l s)) s with
    egress := { s.egress with lastBits := (takeLink l s).egress.lastBits, taken := (takeLink l s).egress.taken } } := by
  unfold takeLink
  dsimp only
  split
  · cases l <;> rfl
  · split <;> cases l <;> rfl

/-- A lane's word is a slot word of its channel bits. -/
theorem laneSent_word (l : FLink) (i : Nat) (s : State) (x : Lane) :
    ∃ side, (laneSent l i s x).2 = slotWord (laneBits l i (decide (x.state = .lost)) s) side := ⟨_, rfl⟩

/-- Of a link at full rate every lane that carries words gives one, with its channel bits, and the link moves on to its next word. -/
theorem takeLink_of_full_rate (l : FLink) (s : State) (hup : linkIsUp l s = true) (hfull : halfRate l s = false) :
    (flink l (takeLink l s)).word = (if (flink l s).word = 255 then 0 else (flink l s).word + 1)
    ∧ ∀ i, i < 32 → laneCarries (lane l i s) = true → ∃ side,
      (linkNum l, i, slotWord (laneBits l i (decide ((lane l i s).state = .lost)) s) side) ∈ (takeLink l s).egress.taken := by
  simp only [takeLink, hup, hfull, Bool.not_true, Bool.false_and, Bool.false_eq_true, if_false]
  constructor
  · cases l <;> exact if_congr decide_eq_true_iff rfl rfl
  · intro i hi hcarries
    obtain ⟨side, hside⟩ := laneSent_word l i s (lane l i s)
    refine ⟨side, List.mem_append_right _ (List.mem_filterMap.2 ⟨i, List.mem_range.2 hi, ?_⟩)⟩
    have hlane : laneCarries (lget {} (flink l s).lanes i) = true := hcarries
    have hplace : lget 0 (List.range 32) i = i := by simp [lget, hi]
    rw [if_pos hlane, lget_map_of_lt 0 _ _ _ _ (by simpa using hi), hplace, if_pos hlane, ← hside]
    rfl

/-- The state in which the links take the words of a cycle: no word taken yet. -/
def beforeWords (s : State) : State := { s with egress := { s.egress with taken := [] } }

theorem exec_egressWord_eq (s : State) : exec .egressWord s = .next (
    let s2 := stimReads (beforeWords (if egressPaused s then s else egressEnter s))
    let s3 := countSwitchover s2 (takeLink .f1 (takeLink .f0 s2))
    mirrorLate (if egressPaused s then shiftRows s3 else egressAdvance s3)) := rfl

/-- Without a batch on egress, and with F1 down, a cycle is F0's words, and the wait of the rows while a pause is in force. -/
theorem exec_egressWord (s : State) (hdown : linkIsUp .f1 s = false) (hbatch : egressBatch s = none) (hrole : s.twin.role ≠ .mirror)
    (hframes : s.twin.switchoverFrames = 0) : exec .egressWord s
      = .next (if egressPaused s then shiftRows (takeLink .f0 (beforeWords s)) else takeLink .f0 (beforeWords s)) := by
  have hbefore : egressBatch (beforeWords s) = none := hbatch
  have henter : egressEnter s = s := by simp only [egressEnter, hbatch]
  have hreads : stimReads (beforeWords s) = beforeWords s := by simp only [stimReads, hbefore]
  rw [exec_egressWord_eq]
  simp only [henter, ite_self, hreads]
  have hshape := takeLink_shape .f0 (beforeWords s)
  generalize takeLink .f0 (beforeWords s) = u at hshape ⊢
  have hf1 : takeLink .f1 u = u := takeLink_of_down _ _ (by rw [hshape]; exact hdown)
  have hcount : countSwitchover (beforeWords s) u = u := if_neg (by simp [beforeWords, hframes])
  have hadvance : egressAdvance u = u := by
    have hu : egressBatch u = none := by rw [hshape]; exact hbatch
    simp only [egressAdvance, hu]
  have hlate : ∀ v : State, v.twin = s.twin → mirrorLate v = v := fun v hv => if_neg (by simp [hv, hrole])
  have htwin : u.twin = s.twin := by rw [hshape]; rfl
  rw [hf1, hcount, hadvance]
  split
  · rw [hlate (shiftRows u) htwin]
  · rw [hlate u htwin]

theorem egressCycle : Claims.EgressCycle := by
  intro s hdown hbatch hrole hframes
  rw [exec_egressWord s hdown hbatch hrole hframes]
  refine ⟨fun hup hfull hrun => ?_, fun hdown0 hpaused => ?_, fun hdown0 hrun => ?_⟩
  · obtain ⟨hword, htaken⟩ := takeLink_of_full_rate .f0 (beforeWords s) hup hfull
    rw [hrun]
    exact ⟨_, rfl, hword, htaken⟩
  · rw [hpaused, if_pos rfl, takeLink_of_down .f0 (beforeWords s) hdown0]
    exact ⟨_, rfl, rfl, rfl⟩
  · rw [hrun, takeLink_of_down .f0 (beforeWords s) hdown0]
    rfl

/-! ### Slot words and their parities (R252) -/

theorem parity_xor (n a b : Nat) : parity n (a ^^^ b) = (parity n a != parity n b) := by
  induction n with
  | zero => rfl
  | succ n ih =>
    rw [parity, parity, parity, ih, Nat.testBit_xor]
    cases a.testBit n <;> cases b.testBit n <;> cases parity n a <;> cases parity n b <;> rfl

theorem oddParity_xor (a b : DWord) : oddParity (a ^^^ b) = (oddParity a != oddParity b) := by
  rw [oddParity, BitVec.toNat_xor, Nat.and_xor_distrib_right, parity_xor]
  rfl

theorem evenParity_xor (a b : DWord) : evenParity (a ^^^ b) = (evenParity a != evenParity b) := by
  rw [evenParity, BitVec.toNat_xor, Nat.and_xor_distrib_right, parity_xor]
  rfl

theorem parity_two_pow (n i : Nat) : parity n (2 ^ i) = decide (i < n) := by
  induction n with
  | zero => rfl
  | succ n ih =>
    rw [parity, ih, Nat.testBit_two_pow]
    rcases Nat.lt_trichotomy i n with h | h | h
    · simp [h, h.ne, Nat.lt_succ_of_lt h]
    · simp [h]
    · simp [h.ne', Nat.not_lt.2 h.le, Nat.not_lt.2 (Nat.succ_le_of_lt h)]

/-- The two parities together count every channel bit. -/
theorem oddParity_bne_evenParity (ch : DWord) : (oddParity ch != evenParity ch) = parity 32 ch.toNat := by
  rw [oddParity, evenParity, ← parity_xor, ← Nat.and_xor_distrib_left, show 0xAAAAAAAA ^^^ 0x55555555 = 2 ^ 32 - 1 from rfl,
    Nat.and_two_pow_sub_one_of_lt_two_pow ch.isLt]

/-- Each channel bit is counted in one of the two parities, and not in the other. -/
theorem oddParity_ne_evenParity_twoPow (i : Nat) (h : i < 32) :
    oddParity (BitVec.twoPow 32 i) ≠ evenParity (BitVec.twoPow 32 i) := by
  have hcount := oddParity_bne_evenParity (BitVec.twoPow 32 i)
  rw [BitVec.toNat_twoPow_of_lt h, parity_two_pow, decide_eq_true h] at hcount
  exact bne_iff_ne.1 hcount

/-- A slot word is its channel bits, and above them the two parity bits. -/
theorem getLsbD_slotWord (ch : DWord) (side : Bool) (k : Nat) (h : k < 34) : (slotWord ch side).getLsbD k
    = if k < 32 then ch.getLsbD k else (2 * (oddParity ch != side).toNat + (evenParity ch != side).toNat).testBit (k - 32) := by
  rw [slotWord, BitVec.getLsbD_ofNat, decide_eq_true h, Bool.true_and, BitVec.getLsbD, ← Nat.testBit_two_pow_mul_add _ ch.isLt]
  congr 1
  ring

theorem slotWordParity : Claims.SlotWordParity := by
  intro ch side
  refine ⟨?_, ?_, ?_, fun i hi => ?_⟩
  · apply BitVec.eq_of_getLsbD_eq
    intro k hk
    rw [BitVec.getLsbD_extractLsb', decide_eq_true hk, Bool.true_and, Nat.zero_add, getLsbD_slotWord ch side k (by omega), if_pos hk]
  · rw [getLsbD_slotWord ch side 33 (by norm_num)]
    cases (oddParity ch != side) <;> cases (evenParity ch != side) <;> rfl
  · rw [getLsbD_slotWord ch side 32 (by norm_num)]
    cases (oddParity ch != side) <;> cases (evenParity ch != side) <;> rfl
  · have hone := oddParity_ne_evenParity_twoPow i hi
    rw [oddParity_xor, evenParity_xor]
    cases hodd : oddParity (BitVec.twoPow 32 i)
    · have heven : evenParity (BitVec.twoPow 32 i) = true := by simpa [hodd] using hone
      exact .inr (by simp [heven])
    · exact .inl (by simp)

/-! ### Rows are read (R163, R164, R458) -/

/-- A fold whose every step leaves its start as it is. -/
theorem foldl_eq_of_fixed {α σ : Type} (f : σ → α → σ) (s : σ) (xs : List α) (h : ∀ x ∈ xs, f s x = s) :
    xs.foldl f s = s := by
  induction xs with
  | nil => rfl
  | cons x xs ih =>
    obtain ⟨hx, hxs⟩ := List.forall_mem_cons.1 h
    rw [List.foldl_cons, hx, ih hxs]

/-- A read's errors and findings leave the rows due and read as they are, and the batches but for their causes. -/
def rowsKept (s t : State) : Prop := t.unload = s.unload ∧ causeless t = causeless s

theorem rowsKept.trans {s t u : State} (h : rowsKept s t) (k : rowsKept t u) : rowsKept s u := ⟨k.1.trans h.1, k.2.trans h.2⟩

theorem rowsKept_foldl {α : Type} (f : State → α → State) (h : ∀ s a, rowsKept s (f s a)) (xs : List α) (s : State) :
    rowsKept s (xs.foldl f s) := by
  induction xs generalizing s with
  | nil => exact ⟨rfl, rfl⟩
  | cons x xs ih => exact (h s x).trans (ih (f s x))

theorem rowsKept_addCause (n : DWord) (cause site : Nat) (s : State) : rowsKept s (addCause n cause site s) := by
  refine ⟨?_, (addCause_causeless n cause site s).1⟩
  unfold addCause
  split
  · rfl
  · dsimp only
    split
    · rfl
    · simp [wait]

theorem rowsKept_indetAll (n : DWord) (cause : Nat) (s : State) : rowsKept s (indetAll n cause s) :=
  rowsKept_foldl _ (fun s x => rowsKept_addCause n cause x s) _ s

theorem rowsKept_setScrubStatus (b : Nat) (s : State) : rowsKept s (setScrubStatus b s) := by
  refine ⟨?_, by simp [causeless]⟩
  unfold setScrubStatus
  dsimp only
  split
  · rfl
  · simp

theorem rowsKept_faultEventFree (code : Nat) (s : State) : rowsKept s (faultEventFree code s) := by
  simp [rowsKept, causeless, faultEventFree, faultEvent]

theorem rowsKept_countError (store cls loc bytes : Nat) (s : State) : rowsKept s (countError store cls loc bytes s) := by
  refine ⟨?_, by simp [causeless]⟩
  simp only [countError, markFault_fields]
  split
  · exact (rowsKept_setScrubStatus 1 _).1
  · rfl

theorem rowsKept_poisonRow (prev : Bool) (row : Nat) (s : State) : rowsKept s (poisonRow prev row s) := by
  refine rowsKept.trans ?_ (rowsKept_setScrubStatus 0 _)
  cases prev <;> exact ⟨rfl, rfl⟩

theorem rowsKept_rowUncorrectable (prev : Bool) (row : Nat) (s : State) : rowsKept s (rowUncorrectable prev row s) :=
  ((rowsKept_countError _ _ _ _ s).trans (rowsKept_faultEventFree _ _)).trans (rowsKept_poisonRow prev row _)

/-- What the state words of a row's entries change, once the map's bytes are read without error. -/
theorem rowsKept_rowReadEffects (b : Batch) (r : RowDue) (s : State)
    (hmap : ∀ k, k < b.nstream → recordReadEffects b.d.batch (mapEntryAddr b r.row k) 4 s = s
      ∧ csUe (mapEntryAddr b r.row k) 4 s.store = false) : rowsKept s (rowReadEffects b r s) := by
  unfold rowReadEffects
  dsimp only
  rw [foldl_eq_of_fixed _ s]
  · refine rowsKept_foldl _ (fun s k => ?_) _ _
    split
    · exact ⟨rfl, rfl⟩
    · split
      · exact ⟨rfl, rfl⟩
      · split
        · exact rowsKept_indetAll _ _ s
        · split
          · exact ⟨rfl, rfl⟩
          · exact (rowsKept_rowUncorrectable _ _ s).trans (rowsKept_indetAll _ _ _)
          · exact rowsKept_countError _ _ _ _ s
  · intro k hk
    obtain ⟨heffects, hclean⟩ := hmap k (List.mem_range.1 hk)
    rw [hclean, heffects]
    rfl

/-- The value of a row's expected streams does not depend on the causes of its batch. -/
theorem rowEs_forgetCauses (b : Batch) (r : RowDue) (s : State) : rowEs (forgetCauses b) r s = rowEs b r s := rfl

theorem findBatch_of_causeless {s t : State} (h : causeless t = causeless s) (n : DWord) :
    (findBatch n t).map forgetCauses = (findBatch n s).map forgetCauses := by
  have key : ∀ u : State, (findBatch n u).map forgetCauses = (causeless u).find? (fun b => b.d.batch = n) := fun u => by
    rw [causeless, List.find?_map]
    rfl
  rw [key, key, h]

/-- A capture-mode row in its time is read with the value of its expected streams, the batch taken as found after the read's effects. -/
theorem exec_rowRead (r : RowDue) (rest : List RowDue) (b : Batch) (s : State) (hdue : s.unload.due = r :: rest)
    (hb : findBatch r.batch s = some b) (hmode : b.mode = 1#2) (htime : r.presentAt ≤ s.power.fclk + 3) :
    exec .rowRead s = .next { rowReadEffects b r s with unload := { (rowReadEffects b r s).unload with
      due := rest
      read := (rowReadEffects b r s).unload.read ++ [(r, rowEs ((findBatch b.d.batch (rowReadEffects b r s)).getD b) r s)] } } := by
  simp [exec, execRowRead, hdue, hb, htime, readRow, hmode]

theorem rowIsRead (r : RowDue) (rest : List RowDue) (b : Batch) (s : State) (hdue : s.unload.due = r :: rest)
    (hb : findBatch r.batch s = some b) (hmode : b.mode = 1#2) (htime : r.presentAt ≤ s.power.fclk + 3)
    (hmap : ∀ k, k < b.nstream → recordReadEffects b.d.batch (mapEntryAddr b r.row k) 4 s = s
      ∧ csUe (mapEntryAddr b r.row k) 4 s.store = false) :
    ∃ t, exec .rowRead s = .next t ∧ t.unload = { s.unload with due := rest, read := s.unload.read ++ [(r, rowEs b r s)] }
      ∧ t.egress = s.egress := by
  obtain ⟨hunload, hcauseless⟩ := rowsKept_rowReadEffects b r s hmap
  have hnum : b.d.batch = r.batch := by simpa using List.find?_some hb
  obtain ⟨b', hb', hsame⟩ : ∃ b', findBatch b.d.batch (rowReadEffects b r s) = some b' ∧ forgetCauses b' = forgetCauses b := by
    rw [← Option.map_eq_some_iff, findBatch_of_causeless hcauseless, hnum, hb]
    rfl
  refine ⟨_, exec_rowRead r rest b s hdue hb hmode htime, ?_, rowReadEffects_egress b r s⟩
  rw [hb', Option.getD_some, ← rowEs_forgetCauses b', hsame, rowEs_forgetCauses, hunload]

/-! ### Deliveries, and the end of a batch's compares (R160, R170, R172) -/

theorem exec_delivery (b : Batch) (s : State) (hdue : s.batches.find? (fun b => deliveryDue b s) = some b) :
    exec .delivery s = .next (deliver b s) := by
  simp only [exec, execDelivery, hdue]

/-- A late delivery is reported once its rows are no longer due, and read as unknown. -/
theorem lateDelivery_eq (b : Batch) (q : Nat) (s : State) : ∃ u : State,
    lateDelivery b q s = indetAll b.d.batch 8 (faultEventFree fcCycleLate u)
    ∧ u.batches = s.batches ∧ u.inForce = s.inForce ∧ u.barrier = s.barrier :=
  ⟨_, rfl, rfl, rfl, rfl⟩

/-- A late delivery sets its fault, sends the fault's event, and marks every site of an open batch. -/
theorem lateDelivery_reports (b : Batch) (q : Nat) (s : State) (hb : findBatch b.d.batch s = some b) :
    faultSet fcCycleLate (lateDelivery b q s)
    ∧ eventSent evFault fcCycleLate (Config.eventDetail fcCycleLate).toNat s (lateDelivery b q s)
    ∧ (b.verdictsFormed = false → ∃ b', findBatch b.d.batch (lateDelivery b q s) = some b'
        ∧ ∀ x, x < siteCount s → (x, 8) ∈ b'.causes) := by
  obtain ⟨u, hlate, hbatches, hforce, hbar⟩ := lateDelivery_eq b q s
  have hfound : findBatch b.d.batch (faultEventFree fcCycleLate u) = some b := by simpa [findBatch, hbatches] using hb
  have hsites : siteCount (faultEventFree fcCycleLate u) = siteCount s := by simp [siteCount, faultEventFree, faultEvent, hforce]
  obtain ⟨hregs, hbarrier⟩ := addCauses_keeps b.d.batch 8 (List.range (siteCount s)) (faultEventFree fcCycleLate u)
  rw [hlate, indetAll, hsites]
  refine ⟨?_, eventSent_of_barrier (faultEventFree_eventSent _ s u (by decide) (cellsKept_of_barrier hbar)) hbarrier, fun hopen => ?_⟩
  · rw [faultSet, hregs]
    exact faultEventFree_faultSet _ _ rfl (by decide)
  · obtain ⟨b', hb', hmarks, -⟩ := addCauses_marks b.d.batch 8 (List.range (siteCount s)) _ b hfound hopen
    exact ⟨b', hb', fun x hx => hmarks x (List.mem_range.2 hx)⟩

theorem deliveriesCount (b : Batch) (s : State) (hdue : s.batches.find? (fun b => deliveryDue b s) = some b)
    (hb : findBatch b.d.batch s = some b) :
    (deliveryLate b s = false → exec .delivery s
      = .next (modBatch b.d.batch (fun b => { b with delivered := b.delivered + 1 }) s))
    ∧ (deliveryLate b s = true → ∃ t detail, exec .delivery s = .next t ∧ faultSet fcCycleLate t
      ∧ eventSent evFault fcCycleLate detail s t
      ∧ (b.verdictsFormed = false → ∀ x, x < siteCount s → ∃ b' ∈ t.batches, b'.d.batch = b.d.batch
          ∧ b'.causes.contains (x, 8) = true)) := by
  rw [exec_delivery b s hdue, deliver]
  constructor <;> intro hlate
  · rw [hlate]
    rfl
  · rw [hlate, if_pos rfl]
    obtain ⟨hfault, hevent, hmarks⟩ := lateDelivery_reports b b.delivered s hb
    refine ⟨_, _, rfl, hfault, hevent, fun hopen x hx => ?_⟩
    obtain ⟨b', hb', hcauses⟩ := hmarks hopen
    have hnum : b'.d.batch = b.d.batch := by simpa using List.find?_some hb'
    refine ⟨_, (mem_modBatch _ _ _ _).2 ⟨b', List.mem_of_find?_eq_some hb', (if_pos hnum).symm⟩, hnum, ?_⟩
    exact List.contains_iff_mem.2 (hcauses x hx)

theorem exec_bankRelease (b : Batch) (s : State) (hover : s.batches.find? (fun b => !b.comparesDone && comparesOver b s) = some b) :
    exec .bankRelease s
      = .next { modBatch b.d.batch (fun b => { b with comparesDone := true, compareEnd := s.power.fclk }) s with
        array := { s.array with halves := s.array.halves.filter (fun h => decide (h.1 ≠ b.d.batch)) } } := by
  simp only [exec, execBankRelease, hover]
  rfl

theorem rowsAndDeliveries : Claims.RowsAndDeliveries := fun r rest b s =>
  ⟨rowIsRead r rest b s, deliveriesCount b s, exec_bankRelease b s⟩

/-! ### Stop and resume (R173) -/

/-- Every stopped Docent has been resumed once each that stands stopped has had its resume line, now or before. -/
theorem allResumed_noteResume (a b : Bool) (s : State) : allResumed (noteResume a b s)
    = ((!s.egress.stopA || (s.egress.resumedA || a)) && (!s.egress.stopB || (s.egress.resumedB || b))) := by
  simp only [allResumed, noteResume]
  cases s.egress.stopA <;> cases s.egress.stopB <;> simp

/-- Egress goes on with no stop left, or the resume lines are noted. -/
theorem exec_docentResume (s : State) : exec .docentResume s = .next (
    if s.egress.stopped && ((!s.egress.stopA || (s.egress.resumedA || s.fabric.resumeA))
        && (!s.egress.stopB || (s.egress.resumedB || s.fabric.resumeB))) then
      { s with egress := { s.egress with stopped := false, stopA := false, stopB := false, resumedA := false, resumedB := false } }
    else noteResume s.fabric.resumeA s.fabric.resumeB s) := by
  rw [← allResumed_noteResume]
  rfl

theorem stopAndResume : Claims.StopAndResume := by
  intro s
  rw [exec_docentResume]
  refine ⟨fun hline => ?_, fun hline => ?_, fun hstopped ha hb hresume => ?_, fun hstopped ha hresumed hresume => ?_⟩
  · simp [exec, execDocentStop, hline, docentStop]
  · simp [exec, execDocentStop, hline, docentStop]
  · simp [hstopped, ha, hb, hresume]
  · simp [noteResume, hstopped, ha, hresumed, hresume]

/-- Settles O37: a cycle without a batch is the words of its link, and a read or a late delivery changes a batch but for its causes. -/
theorem egressRuns : Obligations.EgressRuns :=
  ⟨egressBegins, egressCycle, slotWordParity, rowsAndDeliveries, stopAndResume⟩

end Sys2Proof.Machine
end

section
/-! PROOF. The fail generator at a site strobe, and bit fails that reach their tracker (O43). -/

namespace Sys2Proof.Machine

/-! ### A strobe's records, counts and stop lines (R202 to R204, R305, R326) -/

/-- The Repair Analyser takes bit fails into its own queue and trackers. -/
theorem analyse_shape (site : Nat) (ps : List Passed) (s : State) :
    analyse site ps s = { s with repair := (analyse site ps s).repair } := by
  unfold analyse
  split
  · rfl
  · split <;> rfl

/-- The records of a strobe: a memory-mode batch has address records where the part makes them. -/
def strobeRecords (x : CompareCtx) (site : Nat) (s : State) : List QRec :=
  if x.batch.mode = 3#2 ∧ s.params.mrec = true then memRecords x site (passedReports site s) s
  else compareRecords x site (passedReports site s) s

/-- What a strobe's passed reports add to a batch's count of fails. -/
def strobeCount (x : CompareCtx) (site : Nat) (s : State) : Batch → Batch :=
  countFails site (failsOf (decide (x.batch.mode = 3#2) && s.params.mrec) (passedReports site s)) (offsetOf x.batch s)

/-- The records are offered, the fails counted and the stop lines asserted; then the Repair Analyser takes the bit fails of a
memory-mode batch. -/
theorem strobe_eq (x : CompareCtx) (site : Nat) (s : State) :
    let t := assertStops (passedReports site s)
      (modBatch x.batch.d.batch (strobeCount x site s) (offer (siteLink site s) (strobeRecords x site s) s))
    strobe x site s = if x.batch.mode = 3#2 then analyse site (passedReports site s) t else t := by
  simp [strobe, strobeRecords, strobeCount]

/-- Beyond its records, its count and its stop lines a strobe reaches the Repair Analyser alone. -/
theorem strobe_shape (x : CompareCtx) (site : Nat) (s : State) : ∃ r,
    strobe x site s = { assertStops (passedReports site s)
      (modBatch x.batch.d.batch (strobeCount x site s) (offer (siteLink site s) (strobeRecords x site s) s)) with repair := r }
    ∧ (x.batch.mode ≠ 3#2 → r = s.repair) := by
  rw [strobe_eq]
  split
  · rename_i hmem
    exact ⟨_, analyse_shape _ _ _, fun h => absurd hmem h⟩
  · exact ⟨s.repair, by simp [assertStops, offer], fun _ => rfl⟩

theorem ledger_offer (l : FLink) (rs : List QRec) (s : State) :
    (ledger l (offer l rs s)).offered = (ledger l s).offered ++ rs
    ∧ ledger (otherLink l) (offer l rs s) = ledger (otherLink l) s := by
  simp [offer]

theorem offer_keeps (l : FLink) (rs : List QRec) (s : State) :
    (offer l rs s).batches = s.batches ∧ (offer l rs s).fabric = s.fabric ∧ (offer l rs s).regs = s.regs := by
  simp [offer]

/-- The Ledgers after a strobe are those after its offer. -/
theorem ledger_strobe (k : FLink) (x : CompareCtx) (site : Nat) (s : State) :
    ledger k (strobe x site s) = ledger k (offer (siteLink site s) (strobeRecords x site s) s) := by
  obtain ⟨r, hr, -⟩ := strobe_shape x site s
  rw [hr]
  generalize offer (siteLink site s) (strobeRecords x site s) s = u
  cases k <;> rfl

theorem strobe_keeps (x : CompareCtx) (site : Nat) (s : State) :
    (strobe x site s).batches = (modBatch x.batch.d.batch (strobeCount x site s) s).batches
    ∧ (strobe x site s).fabric = (assertStops (passedReports site s) s).fabric
    ∧ (x.batch.mode ≠ 3#2 → (strobe x site s).repair = s.repair) ∧ (strobe x site s).regs = s.regs := by
  obtain ⟨r, hr, hrepair⟩ := strobe_shape x site s
  obtain ⟨hbatches, hfabric, hregs⟩ := offer_keeps (siteLink site s) (strobeRecords x site s) s
  rw [hr]
  generalize offer (siteLink site s) (strobeRecords x site s) s = u at hbatches hfabric hregs
  refine ⟨congrArg (List.map _) hbatches, ?_, hrepair, hregs⟩
  simp only [assertStops, modBatch, hfabric]

/-- A strobe of the cycle that has not yet acted acts on the batch that the compare belongs to. -/
theorem exec_siteStrobe (x : CompareCtx) (site : Nat) (s : State) (hctx : compareCtx s = some x)
    (hstrobe : s.fabric.strobes.contains site = true) (hnew : s.fabric.strobed.contains site = false) :
    exec (.siteStrobe site) s
      = .next (strobe x site { s with fabric := { s.fabric with strobed := nins s.fabric.strobed site } }) := by
  simp only [exec, execSiteStrobe, hctx, hstrobe, hnew, Bool.not_false, Bool.and_self, if_true]

theorem exec_siteStrobe_idle (site : Nat) (s : State)
    (h : compareCtx s = none ∨ s.fabric.strobes.contains site = false) : exec (.siteStrobe site) s = .next s := by
  cases hctx : compareCtx s with
  | none => simp only [exec, execSiteStrobe, hctx]
  | some x =>
    have hno : s.fabric.strobes.contains site = false := h.resolve_left (by simp [hctx])
    simp only [exec, execSiteStrobe, hctx, hno, Bool.false_and, Bool.false_eq_true, if_false]

theorem strobeRecordsFails (x : CompareCtx) (site : Nat) (s : State) (hctx : compareCtx s = some x)
    (hstrobe : s.fabric.strobes.contains site = true) (hnew : s.fabric.strobed.contains site = false) :
    let l := siteLink site s
    let ps := passedReports site s
    ∃ t, exec (.siteStrobe site) s = .next t
      ∧ (ledger l t).offered = (ledger l s).offered
        ++ (if x.batch.mode = 3#2 ∧ s.params.mrec = true then memRecords x site ps s else compareRecords x site ps s)
      ∧ ledger (otherLink l) t = ledger (otherLink l) s
      ∧ t.batches = (modBatch x.batch.d.batch (countFails site
          (failsOf (decide (x.batch.mode = 3#2) && s.params.mrec) ps) (offsetOf x.batch s)) s).batches
      ∧ t.fabric.stopA = (s.fabric.stopA || ps.any (fun p => p.fail && catStop p.entry && decide (catLink p.entry = .f0)))
      ∧ t.fabric.stopB = (s.fabric.stopB || ps.any (fun p => p.fail && catStop p.entry && decide (catLink p.entry = .f1)))
      ∧ (x.batch.mode ≠ 3#2 → t.repair = s.repair) ∧ t.regs = s.regs := by
  let s' : State := { s with fabric := { s.fabric with strobed := nins s.fabric.strobed site } }
  obtain ⟨hoffered, hother⟩ := ledger_offer (siteLink site s') (strobeRecords x site s') s'
  obtain ⟨hbatches, hfabric, hrepair, hregs⟩ := strobe_keeps x site s'
  refine ⟨strobe x site s', exec_siteStrobe x site s hctx hstrobe hnew, ?_, ?_, hbatches, ?_, ?_, hrepair, hregs⟩
  · exact (congrArg Ledger.offered (ledger_strobe _ x site s')).trans hoffered
  · exact (ledger_strobe _ x site s').trans hother
  · rw [hfabric]
    rfl
  · rw [hfabric]
    rfl

/-! ### A compare-fail record (R203, R288) -/

/-- A compare-fail record spells its site, channel, flags and pattern, and below them its cycle and offset. -/
theorem compareRecord_toNat (x : CompareCtx) (site ch : Nat) (o e m : Bool) (s : State) (hsite : site < 1024) (hch : ch < 2048) :
    ∃ low < 2 ^ 64, (compareRecord x site ch o e m s).bits.toNat
      = ((site * 2048 + ch) * 128 + (e.toNat + 2 * o.toNat + 8 * m.toNat)) * 2 ^ 96
        + ((x.batch.d.firstPattern + BitVec.ofNat 32 x.pattern).toNat * 2 ^ 64 + low) := by
  have hflags : e.toNat + 2 * o.toNat + 8 * m.toNat < 128 := by cases e <;> cases o <;> cases m <;> decide
  have hcycle : x.cycle % 2 ^ 24 < 2 ^ 24 := Nat.mod_lt _ (by norm_num)
  have haux : offsetOf x.batch s % 65536 < 65536 := Nat.mod_lt _ (by norm_num)
  have hpattern := (x.batch.d.firstPattern + BitVec.ofNat 32 x.pattern).isLt
  simp only [compareRecord, mkRecord, BitVec.toNat_ofNat, Nat.mod_eq_of_lt hsite, Nat.mod_eq_of_lt hch, Nat.mod_eq_of_lt hflags]
  generalize x.cycle % 2 ^ 24 = c at *
  generalize offsetOf x.batch s % 65536 = a at *
  generalize (x.batch.d.firstPattern + BitVec.ofNat 32 x.pattern).toNat = p at *
  exact ⟨c * 2 ^ 40 + a * 2 ^ 24, by omega, by omega⟩

/-- The numbers that a record of kind 0 spells. -/
theorem record_numbers (r : Record) (site ch flags p low : Nat) (hsite : site < 1024) (hch : ch < 2048) (hflags : flags < 128)
    (hp : p < 2 ^ 32) (hlow : low < 2 ^ 64) (hr : r.toNat = ((site * 2048 + ch) * 128 + flags) * 2 ^ 96 + (p * 2 ^ 64 + low)) :
    recKind r = 0 ∧ recSite r = site ∧ recChannel r = ch ∧ (recPattern r).toNat = p := by
  simp only [recKind, recSite, recChannel, recPattern, fld, Nat.shiftRight_eq_div_pow, BitVec.extractLsb'_toNat]
  and_intros <;> omega

/-- The flags of a record that spells them from bit 96 on. -/
theorem record_flags (r : Record) (q flags low : Nat) (hflags : flags < 128) (hlow : low < 2 ^ 96)
    (hr : r.toNat = (q * 128 + flags) * 2 ^ 96 + low) (k : Nat) (hk : k < 7) : r.getLsbD (96 + k) = flags.testBit k := by
  have hhead : r.toNat / 2 ^ 96 = 2 ^ 7 * q + flags := by omega
  rw [BitVec.getLsbD, Nat.add_comm, ← Nat.testBit_div_two_pow, hhead, Nat.testBit_two_pow_mul_add q hflags, if_pos hk]

theorem compareRecord_fields (x : CompareCtx) (site ch : Nat) (o e m : Bool) (s : State) (hsite : site < 1024) (hch : ch < 2048) :
    let r := (compareRecord x site ch o e m s).bits
    recKind r = 0 ∧ recSite r = site ∧ recChannel r = ch ∧ r.getLsbD 96 = e ∧ r.getLsbD 97 = o ∧ r.getLsbD 98 = false
    ∧ r.getLsbD 99 = m ∧ recPattern r = x.batch.d.firstPattern + BitVec.ofNat 32 x.pattern := by
  intro r
  obtain ⟨low, hlow, hr⟩ := compareRecord_toNat x site ch o e m s hsite hch
  have hpattern := (x.batch.d.firstPattern + BitVec.ofNat 32 x.pattern).isLt
  have hflags : e.toNat + 2 * o.toNat + 8 * m.toNat < 128 := by cases e <;> cases o <;> cases m <;> decide
  obtain ⟨hkind, hsite', hch', hp⟩ := record_numbers r site ch _ _ low hsite hch hflags hpattern hlow hr
  have hflag := record_flags r _ _ _ hflags (by omega) hr
  refine ⟨hkind, hsite', hch', (hflag 0 (by decide)).trans ?_, (hflag 1 (by decide)).trans ?_, (hflag 2 (by decide)).trans ?_,
    (hflag 3 (by decide)).trans ?_, BitVec.eq_of_toNat_eq hp⟩ <;> cases e <;> cases o <;> cases m <;> rfl

theorem strobesRecordFails : Claims.StrobesRecordFails :=
  ⟨fun site s => ⟨exec_siteStrobe_idle site s, fun x hctx hstrobe hnew => strobeRecordsFails x site s hctx hstrobe hnew⟩,
    compareRecord_fields⟩

/-! ### What a bit fail does to its tracker (R333) -/

/-- A bit fail that reaches a tracker's sparse entries: a must-repair row, a must-repair column, or one more entry while there is
room. -/
def placeFail (sr sc row col : Nat) (t : Tracker) : Tracker :=
  if sc < 1 + (t.sparse.filter (fun e => e.1 = row)).length then
    { t with sparse := t.sparse.filter (fun e => e.1 ≠ row), mustRows := t.mustRows ++ [row] }
  else if sr < 1 + (t.sparse.filter (fun e => e.2 = col)).length then
    { t with sparse := t.sparse.filter (fun e => e.2 ≠ col), mustCols := t.mustCols ++ [col] }
  else if t.sparse.length = 2 * sr * sc then { t with unrepairable := true }
  else { t with sparse := t.sparse ++ [(row, col)] }

/-- More must-repair lines than spares make a tracker unrepairable. -/
def judgeLines (sr sc : Nat) (t : Tracker) : Tracker :=
  if sr < t.mustRows.length || sc < t.mustCols.length then { t with unrepairable := true } else t

/-- A tracker takes a fail's place no more, or the fail is covered by what it has. -/
def failCovered (row col : Nat) (t : Tracker) : Prop :=
  t.unrepairable = true ∨ row ∈ t.mustRows ∨ col ∈ t.mustCols ∨ (row, col) ∈ t.sparse

theorem mustRepair_of_covered (sr sc row col : Nat) (t : Tracker) (h : failCovered row col t) :
    mustRepair sr sc row col t = { t with fails := satInc t.fails } := by
  rcases h with h | h | h | h <;> simp [mustRepair, h]

theorem mustRepair_of_open (sr sc row col : Nat) (t : Tracker) (h : ¬ failCovered row col t) :
    mustRepair sr sc row col t = judgeLines sr sc (placeFail sr sc row col { t with fails := satInc t.fails }) := by
  simp only [failCovered, not_or, Bool.not_eq_true] at h
  obtain ⟨hopen, hrow, hcol, hnew⟩ := h
  simp [mustRepair, judgeLines, placeFail, hopen, hrow, hcol, hnew]

/-- The judgement touches the verdict alone. -/
theorem judgeLines_keeps (sr sc : Nat) (t : Tracker) :
    (judgeLines sr sc t).fails = t.fails ∧ (judgeLines sr sc t).sparse = t.sparse ∧ (judgeLines sr sc t).mustRows = t.mustRows
    ∧ (judgeLines sr sc t).mustCols = t.mustCols ∧ (t.unrepairable = true → (judgeLines sr sc t).unrepairable = true)
    ∧ (sr < t.mustRows.length ∨ sc < t.mustCols.length → (judgeLines sr sc t).unrepairable = true) := by
  unfold judgeLines
  split
  · simp
  · rename_i h
    simp only [Bool.or_eq_true, decide_eq_true_eq] at h
    exact ⟨rfl, rfl, rfl, rfl, id, fun hover => absurd hover h⟩

theorem placeFail_fails (sr sc row col : Nat) (t : Tracker) : (placeFail sr sc row col t).fails = t.fails := by
  unfold placeFail
  split <;> [rfl; (split <;> [rfl; (split <;> rfl)])]

theorem mustRepair_fails (sr sc row col : Nat) (t : Tracker) : (mustRepair sr sc row col t).fails = satInc t.fails := by
  by_cases h : failCovered row col t
  · rw [mustRepair_of_covered sr sc row col t h]
  · rw [mustRepair_of_open sr sc row col t h, (judgeLines_keeps _ _ _).1, placeFail_fails]

/-- An uncovered fail in a row with as many entries as spare columns makes it a must-repair row. -/
theorem placeFail_row (sr sc row col : Nat) (t : Tracker) (h : sc ≤ (t.sparse.filter (fun e => e.1 = row)).length) :
    row ∈ (placeFail sr sc row col t).mustRows ∧ ∀ e ∈ (placeFail sr sc row col t).sparse, e.1 ≠ row := by
  rw [placeFail, if_pos (by omega)]
  simp

theorem placeFail_col (sr sc row col : Nat) (t : Tracker) (hrow : (t.sparse.filter (fun e => e.1 = row)).length < sc)
    (h : sr ≤ (t.sparse.filter (fun e => e.2 = col)).length) :
    col ∈ (placeFail sr sc row col t).mustCols ∧ ∀ e ∈ (placeFail sr sc row col t).sparse, e.2 ≠ col := by
  rw [placeFail, if_neg (by omega), if_pos (by omega)]
  simp

/-- A fail that makes no must-repair line takes an entry, or finds the entries full. -/
theorem placeFail_entry (sr sc row col : Nat) (t : Tracker) (hrow : (t.sparse.filter (fun e => e.1 = row)).length < sc)
    (hcol : (t.sparse.filter (fun e => e.2 = col)).length < sr) :
    (t.sparse.length = 2 * sr * sc → (placeFail sr sc row col t).unrepairable = true)
    ∧ (t.sparse.length ≠ 2 * sr * sc → (row, col) ∈ (placeFail sr sc row col t).sparse) := by
  rw [placeFail, if_neg (by omega), if_neg (by omega)]
  constructor <;> intro h <;> simp [h]

theorem trackerTakesFail (sr sc row col : Nat) (t : Tracker) :
    let u := mustRepair sr sc row col t
    u.fails = satInc t.fails
    ∧ (t.unrepairable = true ∨ row ∈ t.mustRows ∨ col ∈ t.mustCols ∨ (row, col) ∈ t.sparse →
      u = { t with fails := satInc t.fails })
    ∧ (t.unrepairable = false → row ∉ t.mustRows → col ∉ t.mustCols → (row, col) ∉ t.sparse →
      (sc ≤ (t.sparse.filter (fun e => e.1 = row)).length → row ∈ u.mustRows ∧ ∀ e ∈ u.sparse, e.1 ≠ row)
      ∧ ((t.sparse.filter (fun e => e.1 = row)).length < sc → sr ≤ (t.sparse.filter (fun e => e.2 = col)).length →
        col ∈ u.mustCols ∧ ∀ e ∈ u.sparse, e.2 ≠ col)
      ∧ ((t.sparse.filter (fun e => e.1 = row)).length < sc → (t.sparse.filter (fun e => e.2 = col)).length < sr →
        (t.sparse.length = 2 * sr * sc → u.unrepairable = true)
        ∧ (t.sparse.length ≠ 2 * sr * sc → (row, col) ∈ u.sparse))
      ∧ (sr < u.mustRows.length ∨ sc < u.mustCols.length → u.unrepairable = true)) := by
  refine ⟨mustRepair_fails sr sc row col t, mustRepair_of_covered sr sc row col t, fun hopen hrow hcol hnew => ?_⟩
  rw [mustRepair_of_open sr sc row col t (by simp [failCovered, hopen, hrow, hcol, hnew])]
  obtain ⟨-, hsparse, hrows, hcols, hstays, hjudged⟩ :=
    judgeLines_keeps sr sc (placeFail sr sc row col { t with fails := satInc t.fails })
  rw [hsparse, hrows, hcols]
  refine ⟨fun h => ?_, fun h1 h2 => ?_, fun h1 h2 => ?_, hjudged⟩
  · exact placeFail_row sr sc row col _ h
  · exact placeFail_col sr sc row col _ h1 h2
  · obtain ⟨hfull, hroom⟩ := placeFail_entry sr sc row col { t with fails := satInc t.fails } h1 h2
    exact ⟨fun h => hstays (hfull h), hroom⟩

/-- A bit fail at the front of the queue reaches its own tracker and no other. -/
theorem bitFailReachesItsTracker (f : Nat × Nat × Nat) (rest : List (Nat × Nat × Nat)) (g : Geometry) (s : State)
    (hqueue : s.repair.queue = f :: rest) (hgeometry : s.repair.geometry = some g) :
    ∃ t, exec .bitFailProcess s = .next t
      ∧ tget {} t.repair.working f.1 = mustRepair g.sr g.sc f.2.1 f.2.2 (workingOf f.1 s)
      ∧ (∀ k, k ≠ f.1 → tget {} t.repair.working k = tget {} s.repair.working k)
      ∧ t = { s with repair := { s.repair with queue := rest, working := t.repair.working } } := by
  refine ⟨processBitFail f rest g s, ?_, tget_tset_self _ _ _ _, fun k hk => tget_tset_ne _ _ _ _ _ hk, rfl⟩
  simp only [exec, execBitFailProcess, hqueue, hgeometry]

theorem bitFailsAreAnalysed : Claims.BitFailsAreAnalysed :=
  ⟨bitFailReachesItsTracker, trackerTakesFail⟩

/-- Settles O43: a strobe is an offer, a count, the stop lines and the Repair Analyser; a bit fail is placed, then its lines are judged. -/
theorem failsAreJudged : Obligations.FailsAreJudged :=
  ⟨strobesRecordFails, bitFailsAreAnalysed⟩

end Sys2Proof.Machine
end

section
/-! PROOF. The macrocell fabric: an FCLK cycle, block memories and Avenue contention (for O38). -/

namespace Sys2Proof.Machine

/-! ### Bits of words that a cycle forms -/

/-- Bits spell a number with the first of them the most significant. -/
theorem testBit_ofBits (n : Nat) (f : Nat → Bool) (i : Nat) :
    (ofBits ((List.range n).map f)).testBit i = (decide (i < n) && f (n - 1 - i)) := by
  induction n generalizing i with
  | zero => simp [ofBits]
  | succ n ih =>
    have hlast : ofBits ((List.range (n + 1)).map f) = 2 * ofBits ((List.range n).map f) + (f n).toNat := by
      simp [ofBits, List.range_succ]
    rw [hlast]
    cases i with
    | zero => cases hf : f n <;> simp [hf]
    | succ i =>
      have hhalf : (2 * ofBits ((List.range n).map f) + (f n).toNat) / 2 = ofBits ((List.range n).map f) := by
        have := (f n).toNat_lt
        omega
      rw [Nat.testBit_succ, hhalf, ih]
      simp [Nat.sub_sub, Nat.add_comm]

/-- A word whose bits are set one after the other. -/
theorem getLsbD_foldl_setBit {k : Nat} (f : Nat → Bool) (n : Nat) (w : BitVec k) (j : Nat) :
    ((List.range n).foldl (fun w m => setBit w m (f m)) w).getLsbD j = if j < n then decide (j < k) && f j else w.getLsbD j := by
  induction n with
  | zero => simp
  | succ n ih =>
    rw [List.range_succ, List.foldl_append, List.foldl_cons, List.foldl_nil, getLsbD_setBit, ih]
    rcases Nat.lt_trichotomy j n with h | h | h
    · simp [h, h.ne, Nat.lt_succ_of_lt h]
    · simp [h]
    · simp [h.ne', Nat.not_lt.2 h.le, Nat.not_lt.2 (Nat.succ_le_of_lt h)]

theorem lget_map_range {α : Type} (d : α) (f : Nat → α) (n i : Nat) (h : i < n) : lget d ((List.range n).map f) i = f i := by
  simp [lget, h]

/-! ### What the cycle's rows leave alone -/

theorem presentRows_keeps (s : State) :
    (presentRows s).fabric = s.fabric ∧ (presentRows s).released = s.released ∧ (presentRows s).power = s.power
    ∧ (presentRows s).batches = s.batches ∧ (presentRows s).regs = s.regs ∧ (presentRows s).store = s.store
    ∧ (presentRows s).array = s.array := by
  unfold presentRows
  dsimp only
  split <;> and_intros <;> rfl

/-- Configuration stands in the frames alone. -/
theorem cfgFrame_of_frames {s t : State} (h : t.fabric.frames = s.fabric.frames) (b f : Nat) : cfgFrame b f t = cfgFrame b f s := by
  rw [cfgFrame, h, cfgFrame]

theorem avenueDrivers_of_frames {s t : State} (h : t.fabric.frames = s.fabric.frames) (a : Nat) :
    avenueDrivers a t = avenueDrivers a s := by
  simp only [avenueDrivers, aenOf, cfgFrame_of_frames h]

theorem avenueValue_of_fabric {s t : State} (h : t.fabric = s.fabric) (a : Nat) : avenueValue a t = avenueValue a s := by
  simp only [avenueValue, avenueDrivers_of_frames (congrArg Fabric.frames h), h]

/-! ### One macrocell (R185, R189 to R191, R217) -/

/-- Product term `j` of a block whose inputs are `inp`. -/
def cycleTerm (b : Nat) (inp : QWord) (s : State) (j : Nat) : Bool := decide (j < 160) && blockTerm b j (literals inp) s

theorem cycleTerm_of_frames {s t : State} (h : t.fabric.frames = s.fabric.frames) (b : Nat) (inp : QWord) :
    cycleTerm b inp t = cycleTerm b inp s := by
  funext j
  simp only [cycleTerm, blockTerm, memMode, cfgFrame_of_frames h]

/-- The memory word counts only in a memory-mode block. -/
theorem mcEval_read (b m : Nat) (fr : CfgFrame) (term : Nat → Bool) (w : Word) (grnA grnB : Bool) (s : State) :
    mcEval b m fr term (if memMode b s then w else 0) grnA grnB s = mcEval b m fr term w grnA grnB s := by
  cases h : memMode b s <;> simp [mcEval, h]

/-- Macrocell `m` of a block whose inputs are `inp`: its output, next stored bit and H1. -/
def cellEval (b : Nat) (inp : QWord) (grnA grnB : Bool) (s : State) (m : Nat) : Bool × Bool × Bool :=
  mcEval b m (cfgFrame b 21 s) (cycleTerm b inp s) (memWord b (memReadAddr inp) s) grnA grnB s

/-- A block's evaluation with one macrocell's bits put in. -/
def putCell (m : Nat) (v : Bool × Bool × Bool) (e : BlockEval) : BlockEval :=
  { out := setBit e.out m v.1, next := setBit e.next m v.2.1, h1 := setBit e.h1 m v.2.2 }

theorem blockEval_eq (b : Nat) (inp : QWord) (grnA grnB : Bool) (s : State) :
    blockEval b inp grnA grnB s = (List.range 32).foldl (fun e m => putCell m (cellEval b inp grnA grnB s m) e) ⟨0, 0, 0⟩ := by
  simp only [blockEval, mcEval_read]
  rfl

/-- The outputs and stored bits of a block are those of its macrocells. -/
theorem blockEval_bits (b m : Nat) (inp : QWord) (grnA grnB : Bool) (s : State) (hm : m < 32) :
    (blockEval b inp grnA grnB s).out.getLsbD m = (cellEval b inp grnA grnB s m).1
    ∧ (blockEval b inp grnA grnB s).next.getLsbD m = (cellEval b inp grnA grnB s m).2.1 := by
  have hout : (blockEval b inp grnA grnB s).out
      = (List.range 32).foldl (fun w m => setBit w m (cellEval b inp grnA grnB s m).1) 0 := by
    rw [blockEval_eq]
    exact (List.foldl_hom BlockEval.out fun _ _ => rfl).symm
  have hnext : (blockEval b inp grnA grnB s).next
      = (List.range 32).foldl (fun w m => setBit w m (cellEval b inp grnA grnB s m).2.1) 0 := by
    rw [blockEval_eq]
    exact (List.foldl_hom BlockEval.next fun _ _ => rfl).symm
  rw [hout, hnext, getLsbD_foldl_setBit, getLsbD_foldl_setBit]
  simp [hm]

/-- What a register mode gives for a macrocell's output and next stored bit, under a reset `r` and a preset `p`. -/
def stepRule (mode : Nat) (st d h1 update r p out next : Bool) : Prop :=
  (r = true → out = false ∧ next = false)
  ∧ (r = false → p = true → out = true ∧ next = true)
  ∧ (r = false → p = false →
    (mode = 0 → out = d ∧ next = st)
    ∧ (mode = 1 → out = st ∧ next = if update then d else st)
    ∧ (mode = 2 → out = st ∧ next = if update then st != d else st)
    ∧ (mode = 3 → out = (if h1 then d else st) ∧ next = if h1 then d else st))

theorem mcStep_rule (mode : Nat) (st d h1 update r p : Bool) :
    stepRule mode st d h1 update r p (mcStep mode st d h1 update r p).1 (mcStep mode st d h1 update r p).2 := by
  refine ⟨fun hr => ?_, fun hr hp => ?_, fun hr hp => ⟨?_, ?_, ?_, ?_⟩⟩
  · simp [mcStep, hr]
  · simp [mcStep, hr, hp]
  all_goals
    rintro rfl
    cases h1 <;> simp [mcStep, hr, hp]

/-- Bit `m` of a block's initial stored bits is the INIT of macrocell `m`. -/
theorem getLsbD_initWord (b m : Nat) (s : State) (hm : m < 32) : (initWord b s).getLsbD m = (mcConfig (cfgFrame b 21 s) m).init := by
  simp only [initWord]
  rw [BitVec.getLsbD_ofNat, testBit_ofBits]
  simp [hm, show 31 - (31 - m) = m by omega]

/-- What a cycle makes of macrocell `m`: its output and next stored bit by its configuration, its terms on the block's inputs, the clock
edges and the reset nets; before the resets stage the stored bit is held at INIT. -/
def macrocellRule (b m : Nat) (inp : QWord) (edges : BitVec 4) (grnA grnB out next : Bool) (s : State) : Prop :=
  let c := mcConfig (cfgFrame b 21 s) m
  let h (j : Nat) : Bool := cycleTerm b inp s (5 * m + j)
  let sum := if memMode b s && decide (m < 16) then (memWord b (memReadAddr inp) s).getLsbD m else sumTerm c m (cycleTerm b inp s)
  let d := sum != xorInput c (h 0)
  let st := (lget 0 s.fabric.stored b).getLsbD m
  let clk := if c.clkSel < 4 then edges.getLsbD c.clkSel
    else decide (c.clkSel = 4) && h 1 && !(lget 0 s.fabric.edge b).getLsbD m
  let update := clk && (!c.ceSel || h 4)
  (s.released.resets = false → next = c.init)
  ∧ (s.released.resets = true →
    stepRule c.regMode st d (h 1) update (netSel c.rstSel grnA grnB (h 2)) (netSel c.setSel grnA grnB (h 3)) out next)

theorem cellEval_rule (b m : Nat) (inp : QWord) (grnA grnB : Bool) (s : State) (hm : m < 32) :
    macrocellRule b m inp s.fabric.ctEdges grnA grnB (cellEval b inp grnA grnB s m).1 (cellEval b inp grnA grnB s m).2.1 s := by
  refine ⟨fun hheld => ?_, fun hreleased => ?_⟩
  · rw [← getLsbD_initWord b m s hm]
    simp [cellEval, mcEval, storedAt, hheld]
  · simp only [cellEval, mcEval, storedAt, hreleased, if_true]
    exact mcStep_rule _ _ _ _ _ _ _

/-- The rule looks at the frames, the stored bits, the edges and the released stages. -/
theorem macrocellRule_of_fabric {s t : State} (hframes : t.fabric.frames = s.fabric.frames) (hstored : t.fabric.stored = s.fabric.stored)
    (hedge : t.fabric.edge = s.fabric.edge) (hreleased : t.released = s.released) (b m : Nat) (inp : QWord) (edges : BitVec 4)
    (grnA grnB out next : Bool) (h : macrocellRule b m inp edges grnA grnB out next t) :
    macrocellRule b m inp edges grnA grnB out next s := by
  simp only [macrocellRule, memMode, memWord, cycleTerm_of_frames hframes, cfgFrame_of_frames hframes, hstored, hedge, hreleased] at h ⊢
  exact h

/-! ### A cycle -/

/-- The outputs and stored bits after a cycle are those of its blocks, evaluated on the state that the cycle prepares. -/
theorem evalCycle_macrocell (b m : Nat) (s : State) (hb : b < 128) (hm : m < 32) :
    macrocellRule b m (lget 0 (evalCycle s).fabric.inputs b) (evalCycle s).fabric.ctEdges (grnAsserted 0 s) (grnAsserted 1 s)
      ((lget 0 (evalCycle s).fabric.mcOut b).getLsbD m) ((lget 0 (evalCycle s).fabric.stored b).getLsbD m) s := by
  let p := prepareCycle (grnAsserted 0 s) (grnAsserted 1 s) s
  let inps := (List.range 128).map (fun b => blockInputs b p)
  let evs := (List.range 128).map (fun b => blockEval b (lget 0 inps b) (grnAsserted 0 s) (grnAsserted 1 s) p)
  have hlen : b < evs.length := by simp [evs, hb]
  have hev : lget ⟨0, 0, 0⟩ evs b = blockEval b (lget 0 inps b) (grnAsserted 0 s) (grnAsserted 1 s) p :=
    lget_map_range _ _ 128 b hb
  have hout : lget 0 (evalCycle s).fabric.mcOut b = (lget ⟨0, 0, 0⟩ evs b).out := lget_map_of_lt _ 0 (fun e => e.out) evs b hlen
  have hnext : lget 0 (evalCycle s).fabric.stored b = (lget ⟨0, 0, 0⟩ evs b).next := lget_map_of_lt _ 0 (fun e => e.next) evs b hlen
  obtain ⟨hbitOut, hbitNext⟩ := blockEval_bits b m (lget 0 inps b) (grnAsserted 0 s) (grnAsserted 1 s) p hm
  have hrule := cellEval_rule b m (lget 0 inps b) (grnAsserted 0 s) (grnAsserted 1 s) p hm
  rw [← hbitOut, ← hbitNext, ← hev, ← hout, ← hnext] at hrule
  exact macrocellRule_of_fabric (t := p) rfl rfl rfl rfl b m _ _ _ _ _ _ hrule

/-- An Avenue carries its one enabled driver's register, and 0 with none or with more than one. -/
theorem evalCycle_avenue (a : Nat) (s : State) (ha : a < 768) : (evalCycle s).fabric.avenueRx.getLsbD a = avenueValue a s := by
  have hrx : (evalCycle s).fabric.avenueRx = BitVec.ofNat 768 (ofBits ((List.range 768).map (fun i => avenueValue (767 - i) s))) := rfl
  rw [hrx, BitVec.getLsbD_ofNat, testBit_ofBits]
  simp [ha, show 767 - (767 - a) = a by omega]

theorem avenueValue_cases (a : Nat) (s : State) :
    (avenueDrivers a s = [] → avenueValue a s = false)
    ∧ (2 ≤ (avenueDrivers a s).length → avenueValue a s = false)
    ∧ (∀ x, avenueDrivers a s = [x] → avenueValue a s = (lget 0 s.fabric.avenueDrv x.1).getLsbD x.2) := by
  unfold avenueValue
  refine ⟨fun h => by rw [h], fun h => ?_, fun x h => by rw [h]⟩
  split
  · next hone => simp [hone] at h
  · rfl

theorem evalCycle_keeps (s : State) : (evalCycle s).power = s.power ∧ (evalCycle s).batches = s.batches
    ∧ (evalCycle s).regs = s.regs ∧ (evalCycle s).store = s.store ∧ (evalCycle s).array = s.array := by
  and_intros <;> rfl

theorem exec_fabricCycle (s : State) (h : fclkRuns s = true) : exec .fabricCycle s = .next (evalCycle (presentRows (nextCycle s))) := by
  simp only [exec, execFabricCycle, h, if_true]

theorem fabricCycles : Claims.FabricCycles := by
  intro s hruns s1
  obtain ⟨hfabric, hreleased, hpower, hbatches, hregs, hstore, harray⟩ := presentRows_keeps (nextCycle s)
  have hframes : s1.fabric.frames = s.fabric.frames := congrArg Fabric.frames hfabric
  obtain ⟨kpower, kbatches, kregs, kstore, karray⟩ := evalCycle_keeps s1
  refine ⟨evalCycle s1, exec_fabricCycle s hruns, congrArg Power.fclk (kpower.trans hpower), fun a ha => ?_, fun b m hb hm => ?_,
    kbatches.trans hbatches, kregs.trans hregs, kstore.trans hstore, karray.trans harray⟩
  · have hrx : (evalCycle s1).fabric.avenueRx.getLsbD a = avenueValue a s :=
      (evalCycle_avenue a s1 ha).trans (avenueValue_of_fabric hfabric a)
    obtain ⟨hnone, hmany, hone⟩ := avenueValue_cases a s
    exact ⟨fun h => hrx.trans (hnone h), fun h => hrx.trans (hmany h), fun x h => hrx.trans (hone x h)⟩
  · exact macrocellRule_of_fabric hframes (congrArg Fabric.stored hfabric) (congrArg Fabric.edge hfabric) hreleased b m _ _ _ _ _ _
      (evalCycle_macrocell b m s1 hb hm)

/-! ### Block memories (R196) -/

/-- Word `a` of a block memory is a field of the block's frame 0. -/
theorem memWord_eq_fld (b a : Nat) (s : State) (ha : a < 32) :
    memWord b a s = BitVec.ofNat 16 (fld (cfgFrame b 0 s) (1023 - 16 * a) (1008 - 16 * a)) := by
  rw [memWord, cfgField, fld, show 1024 - 16 * a - 16 = 1008 - 16 * a by omega, show 1023 - 16 * a + 1 - (1008 - 16 * a) = 16 by omega]

theorem memWrite_bounds (b a v : Nat) (s : State) (h : memWrite b s = some (a, v)) : a < 32 ∧ v < 2 ^ 16 := by
  simp only [memWrite, Option.ite_none_right_eq_some, Option.some.injEq, Prod.mk.injEq] at h
  obtain ⟨-, rfl, rfl⟩ := h
  exact ⟨fld_lt _ 4 0, fld_lt _ 20 5⟩

theorem cfgFrame_putMemWord (b a v : Nat) (s : State) :
    cfgFrame b 0 (putMemWord b a v s) = setFld (cfgFrame b 0 s) (1023 - 16 * a) (1008 - 16 * a) v :=
  tget_tset_self _ _ _ _

theorem memWord_putMemWord (b a v : Nat) (s : State) (ha : a < 32) (hv : v < 2 ^ 16) :
    (memWord b a (putMemWord b a v s)).toNat = v := by
  rw [memWord_eq_fld b a _ ha, cfgFrame_putMemWord, fld_setFld _ _ _ _ (by omega) (by omega),
    show 1023 - 16 * a + 1 - (1008 - 16 * a) = 16 by omega, BitVec.toNat_ofNat, Nat.mod_mod, Nat.mod_eq_of_lt hv]

theorem memWord_putMemWord_ne (b a k v : Nat) (s : State) (ha : a < 32) (hk : k < 32) (hne : k ≠ a) :
    memWord b k (putMemWord b a v s) = memWord b k s := by
  rw [memWord_eq_fld b k _ hk, memWord_eq_fld b k s hk, cfgFrame_putMemWord, fld_setFld_ne _ _ _ _ _ _ (by omega) (by omega)]

theorem blockMemoryWrites : Claims.BlockMemoryWrites := by
  intro b s
  refine ⟨fun a v h => ?_, fun h => ?_⟩
  · obtain ⟨ha, hv⟩ := memWrite_bounds b a v s h
    refine ⟨putMemWord b a v s, ?_, memWord_putMemWord b a v s ha hv, fun k hk hne => memWord_putMemWord_ne b a k v s ha hk hne, ?_⟩
    · simp only [exec, execBlockMemoryWrite, h]
    · rw [cfgFrame_putMemWord]
      rfl
  · simp only [exec, execBlockMemoryWrite, h]

/-! ### Contention on an Avenue (R236 to R238) -/

theorem mem_foldl_nins (fs : List Nat) (q : NatSet) (f : Nat) : f ∈ fs.foldl nins q ↔ f ∈ fs ∨ f ∈ q := by
  induction fs generalizing q with
  | nil => simp
  | cons g fs ih => rw [List.foldl_cons, ih, mem_nins, List.mem_cons, or_left_comm, or_assoc]

theorem exec_avenueContention (a : Nat) (s : State) (hmany : 2 ≤ (avenueDrivers a s).length)
    (hnew : s.fabric.contended.contains a = false) : exec (.avenueContention a) s = .next (beginContention a s) :=
  congrArg Host.Outcome.next (if_pos (by simp only [hmany, hnew, decide_true, Bool.not_false, Bool.and_self]))

/-- The first cycle of contention sets its fault, sends its event, and has the drivers' frames checked. -/
theorem beginContention_reports (a : Nat) (s : State) (ha : a < 768) :
    (beginContention a s).fabric = { s.fabric with
        contended := nins s.fabric.contended a
        contendSince := tput s.fabric.contendSince a s.power.fclk
        driverCheck := (driverFrames a).foldl nins s.fabric.driverCheck }
    ∧ faultSet fcContention (beginContention a s) ∧ eventSent evFault fcContention a s (beginContention a s)
    ∧ (beginContention a s).twin.faultSinceCommit = true := by
  refine ⟨by simp [beginContention, faultEvent], ?_, ?_, rfl⟩
  · simpa [faultSet, beginContention, faultEvent] using setFault_bit fcContention _ rfl (by decide)
  · refine eventSent_of_barrier (eventSent_raiseField _ _ _ _ s _ (by decide) (by decide) (Config.eventUnit _).isLt (by omega) ?_)
      rfl
    exact cellsKept_of_barrier (by simp)

theorem contentionBegins (a : Nat) (s : State) (ha : a < 768) (hmany : 2 ≤ (avenueDrivers a s).length)
    (hnew : s.fabric.contended.contains a = false) :
    ∃ t, exec (.avenueContention a) s = .next t ∧ t.fabric.contended.contains a = true ∧ faultSet fcContention t
      ∧ eventSent evFault fcContention a s t ∧ (∀ f ∈ driverFrames a, t.fabric.driverCheck.contains f = true)
      ∧ tget 0 t.fabric.contendSince a = s.power.fclk ∧ t.twin.faultSinceCommit = true := by
  obtain ⟨hfabric, hfault, hevent, hmark⟩ := beginContention_reports a s ha
  refine ⟨_, exec_avenueContention a s hmany hnew, ?_, hfault, hevent, fun f hf => ?_, ?_, hmark⟩
  · rw [hfabric]
    exact contains_nins _ _
  · rw [hfabric]
    exact List.contains_iff_mem.2 ((mem_foldl_nins _ _ f).2 (.inl hf))
  · rw [hfabric, tget_tput, if_pos rfl]

/-- A batch with its suspect windows changed. -/
def withWindows (f : List Window → List Window) (b : Batch) : Batch := { b with windows := f b.windows }

/-- A list has a suspect window of a site and a source. -/
def windowOf (site source : Nat) (ws : List Window) : Prop := ∃ w ∈ ws, w.site = site ∧ w.source = source

theorem site_eq_of_windowsTouch {v w : Window} (h : windowsTouch v w = true) : v.site = w.site ∧ v.source = w.source := by
  simp only [windowsTouch, Bool.and_eq_true, decide_eq_true_eq] at h
  obtain ⟨⟨⟨⟨hsite, hsource⟩, -⟩, -⟩, -⟩ := h
  exact ⟨hsite, hsource⟩

/-- A window for an open batch joins one of its site and source, or stands beside the others; either way none is lost. -/
theorem addWindow_cases (n : DWord) (w : Window) (s : State) (b : Batch) (hb : findBatch n s = some b)
    (hopen : b.verdictsFormed = false) :
    ∃ f, (addWindow n w s).batches = (modBatch n (withWindows f) s).batches ∧ windowOf w.site w.source (f b.windows)
      ∧ ∀ x k, windowOf x k b.windows → windowOf x k (f b.windows) := by
  have hnum : b.d.batch = n := by simpa using List.find?_some hb
  have hfinding : findingBatch n s = some b := by simp [findingBatch, hb, hopen]
  have hledger : ∀ l v (u : State), (setLedger l v u).batches = u.batches := by simp
  unfold addWindow
  rw [hfinding]
  dsimp only
  rw [if_pos hnum, hnum]
  split
  · next v hv =>
    have hjoins := List.find?_some hv
    simp only [Bool.and_eq_true] at hjoins
    obtain ⟨hsite, hsource⟩ := site_eq_of_windowsTouch hjoins.1
    refine ⟨List.map (fun x => if x = v then windowJoin v w else x), hledger _ _ _,
      ⟨windowJoin v w, List.mem_map.2 ⟨v, List.mem_of_find?_eq_some hv, if_pos rfl⟩, hsite, hsource⟩, ?_⟩
    rintro x k ⟨u, hu, hx, hk⟩
    refine ⟨_, List.mem_map_of_mem hu, ?_⟩
    split
    · next huv => exact ⟨huv ▸ hx, huv ▸ hk⟩
    · exact ⟨hx, hk⟩
  · refine ⟨(· ++ [w]), (wait_keeps _ _ _).1, ⟨w, by simp, rfl, rfl⟩, ?_⟩
    rintro x k ⟨u, hu, hsame⟩
    exact ⟨u, List.mem_append_left _ hu, hsame⟩

/-- An open batch stays open, under its descriptor, and gains the window. -/
theorem addWindow_marks (n : DWord) (w : Window) (s : State) (b : Batch) (hb : findBatch n s = some b)
    (hopen : b.verdictsFormed = false) :
    ∃ b', findBatch n (addWindow n w s) = some b' ∧ b'.d = b.d ∧ b'.verdictsFormed = false
      ∧ windowOf w.site w.source b'.windows ∧ ∀ x k, windowOf x k b.windows → windowOf x k b'.windows := by
  obtain ⟨f, hbatches, hmarked, hkept⟩ := addWindow_cases n w s b hb hopen
  refine ⟨withWindows f b, ?_, rfl, hopen, hmarked, hkept⟩
  rw [findBatch, hbatches, ← findBatch, findBatch_modBatch n (withWindows f) s (fun _ => rfl), hb]
  rfl

theorem foldl_addWindow_marks (n : DWord) (g : State → Nat → Window) (k : Nat) (hg : ∀ s x, (g s x).site = x ∧ (g s x).source = k)
    (sites : List Nat) (s : State) (b : Batch) (hb : findBatch n s = some b) (hopen : b.verdictsFormed = false) :
    ∃ b', findBatch n (sites.foldl (fun s x => addWindow n (g s x) s) s) = some b' ∧ b'.d = b.d
      ∧ (∀ x ∈ sites, windowOf x k b'.windows) ∧ ∀ x k, windowOf x k b.windows → windowOf x k b'.windows := by
  induction sites generalizing s b with
  | nil => exact ⟨b, hb, rfl, by simp, fun _ _ h => h⟩
  | cons x xs ih =>
    obtain ⟨b1, hb1, hd1, hopen1, hmark, hkept1⟩ := addWindow_marks n (g s x) s b hb hopen
    obtain ⟨b2, hb2, hd2, hmarks, hkept2⟩ := ih _ b1 hb1 hopen1
    rw [(hg s x).1, (hg s x).2] at hmark
    exact ⟨b2, hb2, hd2.trans hd1, List.forall_mem_cons.2 ⟨hkept2 x k hmark, hmarks⟩, fun y j h => hkept2 y j (hkept1 y j h)⟩

theorem addWindow_fabric (n : DWord) (w : Window) (s : State) : (addWindow n w s).fabric = s.fabric := by
  unfold addWindow
  split
  · rfl
  · dsimp only
    split <;> simp [wait]

theorem foldl_contentionWindows_fabric (a since : Nat) (bs : List Batch) (s : State) :
    (bs.foldl (fun s b => contentionWindows a since b s) s).fabric = s.fabric := by
  have hone : ∀ (b : Batch) (s : State), (contentionWindows a since b s).fabric = s.fabric := fun b s => by
    unfold contentionWindows
    dsimp only
    generalize avenueSites a s = sites
    induction sites generalizing s with
    | nil => rfl
    | cons x xs ih => rw [List.foldl_cons, ih, addWindow_fabric]
  induction bs generalizing s with
  | nil => rfl
  | cons b bs ih => rw [List.foldl_cons, ih, hone]

theorem exec_contentionEnd (a : Nat) (s : State) (hin : s.fabric.contended.contains a = true)
    (hfew : (avenueDrivers a s).length ≤ 1) : exec (.contentionEnd a) s = .next (endContention a s) :=
  congrArg Host.Outcome.next (if_pos (by simp only [hin, hfew, decide_true, Bool.and_self]))

theorem contentionEnds (a : Nat) (s : State) (hin : s.fabric.contended.contains a = true) (hfew : (avenueDrivers a s).length ≤ 1) :
    let since := tget 0 s.fabric.contendSince a
    ∃ t, exec (.contentionEnd a) s = .next t ∧ t.fabric.contended = ndel s.fabric.contended a
      ∧ (s.batches.filter (touchedBy since) = [] →
        t = { s with fabric := { s.fabric with
          contended := ndel s.fabric.contended a, contendSince := tdel s.fabric.contendSince a } })
      ∧ (∀ b x, s.batches = [b] → touchedBy since b = true → b.firstEgress ≤ since → x ∈ avenueSites a s →
        ∃ b' ∈ t.batches, b'.d = b.d ∧ ∃ w ∈ b'.windows, w.site = x ∧ w.source = 3) := by
  intro since
  refine ⟨endContention a s, exec_contentionEnd a s hin hfew, ?_, fun hnone => ?_, fun b x hone htouch _ hx => ?_⟩
  · exact congrArg (fun f => ndel (Fabric.contended f) a) (foldl_contentionWindows_fabric a since _ s)
  · rw [endContention, hnone]
    rfl
  · have hb : findBatch b.d.batch s = some b := by simp [findBatch, hone]
    have hopen : b.verdictsFormed = false := by
      simp only [touchedBy, Bool.and_eq_true, Bool.not_eq_true'] at htouch
      exact htouch.1.2
    obtain ⟨b', hb', hd, hmarks, -⟩ := foldl_addWindow_marks b.d.batch (fun u x => ⟨x, since - b.firstEgress,
      lastCycle b u - (b.firstEgress + (since - b.firstEgress)), 3, 0⟩) 3 (fun _ _ => ⟨rfl, rfl⟩) (avenueSites a s) s b hb hopen
    refine ⟨b', ?_, hd, hmarks x hx⟩
    have hfilter : s.batches.filter (touchedBy since) = [b] := by simp [hone, htouch]
    rw [endContention, hfilter]
    exact List.mem_of_find?_eq_some hb'

theorem avenuesContend : Claims.AvenuesContend := fun a s ha =>
  ⟨contentionBegins a s ha, contentionEnds a s⟩

end Sys2Proof.Machine
end

section
/-! PROOF. The Vaults of the fabric: reads and writes, and queues (O38). -/

namespace Sys2Proof.Machine

/-! ### Reads of a Vault word (R213, R216) -/

theorem vaultState_of_fabric {s t : State} (h : t.fabric = s.fabric) (v : Nat) : vaultState v t = vaultState v s := by
  rw [vaultState, h, vaultState]

theorem vaultState_setVault (v : Nat) (x : VaultState) (s : State) (hv : v < s.fabric.vaults.length) :
    vaultState v (setVault v x s) = x :=
  lget_lset_self _ _ _ _ hv

/-- An error counted reaches the logs, not the fabric. -/
theorem countError_fabric (store cls loc bytes : Nat) (s : State) : (countError store cls loc bytes s).fabric = s.fabric := by
  have hscrub : ∀ u : State, (setScrubStatus 1 u).fabric = u.fabric := fun u => by
    unfold setScrubStatus
    dsimp only
    split <;> simp
  simp only [countError, markFault_fields]
  split <;> simp [hscrub]

theorem vaultByteEffect_vaults (v a k : Nat) (c : EccClass) (fixed : Byte) (s : State) :
    (vaultByteEffect v a k c fixed s).fabric.vaults = s.fabric.vaults := by
  cases c <;> simp [vaultByteEffect, countError_fabric]

theorem addCause_fabric (n : DWord) (cause site : Nat) (s : State) : (addCause n cause site s).fabric = s.fabric := by
  unfold addCause
  split
  · rfl
  · dsimp only
    split
    · rfl
    · simp [wait]

theorem addCauses_fabric (n : DWord) (cause : Nat) (sites : List Nat) (s : State) : (addCauses n cause sites s).fabric = s.fabric := by
  unfold addCauses
  induction sites generalizing s with
  | nil => rfl
  | cons x xs ih => rw [List.foldl_cons, ih, addCause_fabric]

theorem vaultIndet_keeps (v : Nat) (s : State) : (vaultIndet v s).fabric = s.fabric ∧ (vaultIndet v s).regs = s.regs := by
  unfold vaultIndet
  split
  · exact ⟨rfl, rfl⟩
  · exact ⟨addCauses_fabric _ _ _ _, (addCauses_keeps _ _ _ _).1⟩

/-- The decoded bytes of a Vault word hold an uncorrectable error. -/
def vaultBroken (r : (EccClass × Byte) × (EccClass × Byte)) : Bool := decide (r.1.1 = .uncorrectable) || decide (r.2.1 = .uncorrectable)

/-- What a Vault presents after a read of a word as decoded: the corrected word with CE, or the word as stored with UE. -/
def presentedWord (w : Word) (r : (EccClass × Byte) × (EccClass × Byte)) (x : VaultState) : VaultState :=
  { x with
    rdata := if vaultBroken r then w else r.1.2 ++ r.2.2
    ce := !vaultBroken r && (decide (r.1.1 ≠ .clean) || decide (r.2.1 ≠ .clean))
    ue := vaultBroken r }

theorem presentedWord_of_whole (w : Word) (r : (EccClass × Byte) × (EccClass × Byte)) (x : VaultState) (h : vaultBroken r = false) :
    presentedWord w r x
      = { x with rdata := r.1.2 ++ r.2.2, ce := decide (r.1.1 ≠ .clean) || decide (r.2.1 ≠ .clean), ue := false } := by
  simp [presentedWord, h]

theorem presentedWord_of_broken (w : Word) (r : (EccClass × Byte) × (EccClass × Byte)) (x : VaultState) (h : vaultBroken r = true) :
    presentedWord w r x = { x with rdata := w, ce := false, ue := true } := by
  simp [presentedWord, h]

/-- The fetched word presented, on a state `u` with the corrections of the read. -/
def presentFetched (v : Nat) (s u : State) : State :=
  let p := sampleOf v s
  setSample v { p with fetched := true } (setVault v (presentedWord p.word (vaultDecode p.word p.devHigh p.devLow) (vaultState v s)) u)

/-- The corrections of a read reach no Vault's state; an uncorrectable error is reported once its word is presented. -/
theorem fetchVault_eq (v : Nat) (s : State) : ∃ u : State, u.fabric.vaults = s.fabric.vaults
    ∧ fetchVault v s = if vaultBroken (vaultDecode (sampleOf v s).word (sampleOf v s).devHigh (sampleOf v s).devLow)
        then vaultIndet v (faultEventFree fcVaultUe (presentFetched v s u)) else presentFetched v s u := by
  let p := sampleOf v s
  let r := vaultDecode p.word p.devHigh p.devLow
  let s1 := vaultByteEffect v p.place 1 r.2.1 r.2.2 (vaultByteEffect v p.place 0 r.1.1 r.1.2 s)
  let s2 : State := if vaultOverwritten v s then { s1 with fabric := { s1.fabric with
      vaultWords := s.fabric.vaultWords, vaultDev := s.fabric.vaultDev } } else s1
  have hs1 : s1.fabric.vaults = s.fabric.vaults := (vaultByteEffect_vaults ..).trans (vaultByteEffect_vaults ..)
  have hs2 : s2.fabric.vaults = s.fabric.vaults := by
    simp only [s2]
    split <;> exact hs1
  have hstate : vaultState v s2 = vaultState v s := by rw [vaultState, hs2, vaultState]
  refine ⟨s2, hs2, ?_⟩
  rw [presentFetched, ← hstate]
  rfl

/-- A fetched word is presented; an uncorrectable one sets VAULT_UE. -/
theorem fetchVault_effect (v : Nat) (s : State) (hv : v < s.fabric.vaults.length) :
    let p := sampleOf v s
    let r := vaultDecode p.word p.devHigh p.devLow
    vaultState v (fetchVault v s) = presentedWord p.word r (vaultState v s)
    ∧ (vaultBroken r = true → faultSet fcVaultUe (fetchVault v s)) := by
  intro p r
  obtain ⟨u, hu, hfetch⟩ := fetchVault_eq v s
  have hpresent : vaultState v (presentFetched v s u) = presentedWord p.word r (vaultState v s) :=
    vaultState_setVault v _ u (by rw [hu]; exact hv)
  rw [hfetch]
  split
  · obtain ⟨hfabric, hregs⟩ := vaultIndet_keeps v (faultEventFree fcVaultUe (presentFetched v s u))
    refine ⟨(vaultState_of_fabric (hfabric.trans ?_) v).trans hpresent, fun _ => ?_⟩
    · simp [faultEventFree, faultEvent]
    · rw [faultSet, hregs]
      exact faultEventFree_faultSet _ _ rfl (by decide)
  · next hwhole => exact ⟨hpresent, fun hbroken => absurd hbroken hwhole⟩

/-- A word whose check bits agree decodes to itself. -/
theorem vaultDecode_clean (w : Word) :
    vaultDecode w 0 0 = ((.clean, w.extractLsb' 8 8), (.clean, w.extractLsb' 0 8)) := by
  simp [vaultDecode, secdedDecode]

theorem bytes_append (w : Word) : w.extractLsb' 8 8 ++ w.extractLsb' 0 8 = w := by
  apply BitVec.eq_of_getLsbD_eq
  intro i hi
  rw [BitVec.getLsbD_append, BitVec.getLsbD_extractLsb', BitVec.getLsbD_extractLsb']
  by_cases h : i < 8
  · simp [h]
  · simp [h, show i - 8 < 8 by omega, show 8 + (i - 8) = i by omega]

/-- A word whose check bits agree is presented as it stands, and nothing else is done. -/
theorem fetchVault_of_clean (v : Nat) (s : State) (hhigh : (sampleOf v s).devHigh = 0) (hlow : (sampleOf v s).devLow = 0) :
    fetchVault v s = setSample v { sampleOf v s with fetched := true }
      (setVault v { vaultState v s with rdata := (sampleOf v s).word, ce := false, ue := false } s) := by
  have hdecode : vaultDecode (sampleOf v s).word (sampleOf v s).devHigh (sampleOf v s).devLow
      = ((.clean, (sampleOf v s).word.extractLsb' 8 8), (.clean, (sampleOf v s).word.extractLsb' 0 8)) := by
    rw [hhigh, hlow, vaultDecode_clean]
  simp only [fetchVault, hdecode, vaultByteEffect, bytes_append]
  cases vaultOverwritten v s <;> rfl

theorem exec_vaultWrite (v : Nat) (s : State) (hmode : vaultMode v s = 1) (htakes : vaultTakes v s = true)
    (hwe : (sampleOf v s).we = true) (hnew : (sampleOf v s).wrote = false) :
    exec (.vaultWrite v) s = .next (setSample v { sampleOf v s with wrote := true }
      (putVaultWord v (sampleOf v s).waddr (sampleOf v s).wdata s)) :=
  congrArg Host.Outcome.next (if_pos (by simp only [hmode, htakes, hwe, hnew, decide_true, Bool.not_false, Bool.and_self]))

theorem exec_vaultRead (v : Nat) (s : State) (hmode : vaultMode v s = 1) (htakes : vaultTakes v s = true)
    (hre : (sampleOf v s).re = true) (hnew : (sampleOf v s).fetched = false) :
    exec (.vaultRead v) s = .next (fetchVault v s) :=
  congrArg Host.Outcome.next (if_pos (by simp only [hmode, htakes, hre, hnew, decide_true, Bool.not_false, Bool.and_self]))

theorem vaultRam : Claims.VaultRam := by
  intro v s p x r hmode htakes
  refine ⟨fun hwe hnew => ?_, fun hre hnew => ⟨fun hhigh hlow => ?_, fun hv => ?_⟩⟩
  · exact ⟨_, exec_vaultWrite v s hmode htakes hwe hnew, rfl, tget_tset_self _ _ _ _, fun k hk => tget_tset_ne _ _ _ _ _ hk⟩
  · rw [exec_vaultRead v s hmode htakes hre hnew, fetchVault_of_clean v s hhigh hlow]
  · obtain ⟨hstate, hfault⟩ := fetchVault_effect v s hv
    refine ⟨_, exec_vaultRead v s hmode htakes hre hnew, fun hhigh hlow => ?_, fun hbroken => ?_⟩
    · have hwhole : vaultBroken r = false := by simp [vaultBroken, hhigh, hlow]
      rw [hstate.trans (presentedWord_of_whole p.word r x hwhole)]
      exact ⟨rfl, rfl, rfl⟩
    · have hue : vaultBroken r = true := by simpa [vaultBroken] using hbroken
      rw [hstate.trans (presentedWord_of_broken p.word r x hue)]
      exact ⟨rfl, rfl, rfl, hfault hue⟩

/-! ### Queues (R214, R215) -/

theorem exec_vaultPush (v : Nat) (s : State) (htakes : queueTakes v s = true) (hwe : (sampleOf v s).we = true)
    (hnew : (sampleOf v s).wrote = false) :
    exec (.vaultPush v) s = .next (if (sampleOf v s).count < 2048 || popsToo (sampleOf v s) then pushVault v s
      else setSample v { sampleOf v s with wrote := true } (setVault v { vaultState v s with ovf := true } s)) := by
  simp only [exec, execVaultPush, htakes, hwe, hnew, Bool.not_false, Bool.and_self, if_true]

theorem exec_vaultPop (v : Nat) (s : State) (htakes : queueTakes v s = true) (hre : (sampleOf v s).re = true)
    (hnew : (sampleOf v s).fetched = false) :
    exec (.vaultPop v) s = .next (if 0 < (sampleOf v s).count then popVault v s
      else setSample v { sampleOf v s with fetched := true } (setVault v { vaultState v s with udf := true, rdata := 0 } s)) := by
  simp only [exec, execVaultPop, htakes, hre, hnew, Bool.not_false, Bool.and_self, if_true]

/-- A queue whose reset is selected and acts takes neither pushes nor pops. -/
theorem queueTakes_of_held (v : Nat) (s : State) (h : (sampleOf v s).held = true) : queueTakes v s = false := by
  simp [queueTakes, h]

theorem pushVault_at_wptr (v : Nat) (s : State) (h : vaultMode v s = 2 ∨ popsToo (sampleOf v s) = false) :
    pushVault v s = setSample v { sampleOf v s with wrote := true } (setVault v { vaultState v s with
      count := (vaultState v s).count + 1, wptr := ((sampleOf v s).wptr + 1) % 2048 }
      (putVaultWord v (sampleOf v s).wptr (sampleOf v s).wdata s)) := by
  have hreplace : (decide (vaultMode v s = 3) && popsToo (sampleOf v s)) = false := by
    rcases h with h | h <;> simp [h]
  simp only [pushVault, hreplace, Bool.false_eq_true, if_false]

theorem pushVault_in_place (v : Nat) (s : State) (hmode : vaultMode v s = 3) (hpops : popsToo (sampleOf v s) = true) :
    pushVault v s = setSample v { sampleOf v s with wrote := true } (setVault v { vaultState v s with
      count := (vaultState v s).count + 1 } (putVaultWord v (sampleOf v s).place (sampleOf v s).wdata s)) := by
  simp only [pushVault, hmode, hpops, decide_true, Bool.and_self, if_true]

theorem vaultPushes (v : Nat) (s : State) (htakes : queueTakes v s = true) (hwe : (sampleOf v s).we = true)
    (hnew : (sampleOf v s).wrote = false) :
    let p := sampleOf v s
    let x := vaultState v s
    (p.count < 2048 ∨ (p.re = true ∧ 0 < p.count) → vaultMode v s = 2 ∨ p.re = false ∨ p.count = 0 → exec (.vaultPush v) s
      = .next (setSample v { p with wrote := true } (setVault v { x with
          count := x.count + 1, wptr := (p.wptr + 1) % 2048 } (putVaultWord v p.wptr p.wdata s))))
    ∧ (p.count = 2048 → p.re = false → exec (.vaultPush v) s
      = .next (setSample v { p with wrote := true } (setVault v { x with ovf := true } s)))
    ∧ (vaultMode v s = 3 → p.re = true → 0 < p.count → exec (.vaultPush v) s
      = .next (setSample v { p with wrote := true } (setVault v { x with count := x.count + 1 } (putVaultWord v p.place p.wdata s)))) := by
  intro p x
  rw [exec_vaultPush v s htakes hwe hnew]
  refine ⟨fun hroom hplain => ?_, fun hfull hre => ?_, fun hmode hre hcount => ?_⟩
  · have hplace : vaultMode v s = 2 ∨ popsToo p = false := by
      rcases hplain with h | h | h
      · exact .inl h
      · exact .inr (by simp [popsToo, h])
      · exact .inr (by simp [popsToo, h])
    rw [if_pos (by simpa [popsToo] using hroom), pushVault_at_wptr v s hplace]
  · have hno : popsToo p = false := by simp [popsToo, hre]
    rw [if_neg (show ¬ (decide (p.count < 2048) || popsToo p) = true by simp [hfull, hno])]
  · have hpops : popsToo p = true := by simp [popsToo, hre, hcount]
    rw [if_pos (show (decide (p.count < 2048) || popsToo p) = true by simp [hpops]), pushVault_in_place v s hmode hpops]

/-- A pop of a word whose check bits agree presents it and moves the queue. -/
theorem popVault_of_clean (v : Nat) (s : State) (hhigh : (sampleOf v s).devHigh = 0) (hlow : (sampleOf v s).devLow = 0)
    (hv : v < s.fabric.vaults.length) :
    let p := sampleOf v s
    let x := vaultState v s
    let lifo := decide (vaultMode v s = 3)
    vaultState v (popVault v s) = { x with
      rdata := p.word, ce := false, ue := false, count := x.count - 1
      rptr := if lifo then x.rptr else (x.rptr + 1) % 2048
      wptr := if lifo && !p.we then (x.wptr + 2047) % 2048 else x.wptr }
    ∧ (popVault v s).fabric.vaultWords = s.fabric.vaultWords ∧ (popVault v s).regs = s.regs := by
  intro p x lifo
  have hfetched : vaultState v (fetchVault v s) = { x with rdata := p.word, ce := false, ue := false } := by
    rw [fetchVault_of_clean v s hhigh hlow]
    exact vaultState_setVault v _ s hv
  have hlen : v < (fetchVault v s).fabric.vaults.length := by
    rw [fetchVault_of_clean v s hhigh hlow]
    simpa [setSample, setVault] using hv
  refine ⟨?_, ?_, ?_⟩
  · rw [popVault, vaultState_setVault v _ _ hlen, hfetched]
  · rw [popVault, fetchVault_of_clean v s hhigh hlow]
    rfl
  · rw [popVault, fetchVault_of_clean v s hhigh hlow]
    rfl

theorem vaultPops (v : Nat) (s : State) (htakes : queueTakes v s = true) (hre : (sampleOf v s).re = true)
    (hnew : (sampleOf v s).fetched = false) :
    let p := sampleOf v s
    let x := vaultState v s
    (p.count = 0 → exec (.vaultPop v) s
      = .next (setSample v { p with fetched := true } (setVault v { x with udf := true, rdata := 0 } s)))
    ∧ (0 < p.count → p.devHigh = 0 → p.devLow = 0 → v < s.fabric.vaults.length →
      ∃ t, exec (.vaultPop v) s = .next t ∧ (vaultState v t).rdata = p.word ∧ (vaultState v t).count = x.count - 1
        ∧ (vaultMode v s = 2 → (vaultState v t).rptr = (x.rptr + 1) % 2048 ∧ (vaultState v t).wptr = x.wptr)
        ∧ (vaultMode v s = 3 → p.we = false → (vaultState v t).wptr = (x.wptr + 2047) % 2048)
        ∧ t.fabric.vaultWords = s.fabric.vaultWords ∧ t.regs = s.regs) := by
  intro p x
  rw [exec_vaultPop v s htakes hre hnew]
  refine ⟨fun hempty => ?_, fun hcount hhigh hlow hv => ?_⟩
  · rw [if_neg (Nat.not_lt.2 hempty.le)]
  · obtain ⟨hstate, hwords, hregs⟩ := popVault_of_clean v s hhigh hlow hv
    refine ⟨popVault v s, congrArg Host.Outcome.next (if_pos hcount), ?_⟩
    rw [hstate]
    refine ⟨rfl, rfl, fun hmode => ?_, fun hmode hwe => ?_, hwords, hregs⟩
    · simp [hmode, x]
    · simp [hmode, hwe, p, x]

theorem exec_vaultClr (v : Nat) (s : State) (hmode : queueMode (vaultMode v s) = true) (hedge : (sampleOf v s).edge = true)
    (hclr : (sampleOf v s).clr = true) :
    exec (.vaultClr v) s = .next (setVault v (clearQueue (vaultState v s)) s) :=
  congrArg Host.Outcome.next (if_pos (by simp only [hmode, hedge, hclr, Bool.and_self]))

/-- The selected reset of a queue refuses pushes and pops. -/
theorem exec_of_held (v : Nat) (s : State) (h : (sampleOf v s).held = true) :
    exec (.vaultPush v) s = .next s ∧ exec (.vaultPop v) s = .next s := by
  simp [exec, execVaultPush, execVaultPop, queueTakes_of_held v s h]

theorem vaultQueues : Claims.VaultQueues := fun v s =>
  ⟨vaultPushes v s, vaultPops v s, exec_vaultClr v s, fun _ hheld => exec_of_held v s hheld⟩

/-- Settles O38: a cycle is each macrocell's rule on the prepared state, and a read of a Vault is its word presented, then reported. -/
theorem fabricAndVaults : Obligations.FabricAndVaults :=
  ⟨fabricCycles, blockMemoryWrites, avenuesContend, vaultRam, vaultQueues⟩

end Sys2Proof.Machine
end

section
/-! PROOF. Field links: ingress words, frame checks and the STATUS of partners (O39). -/

namespace Sys2Proof.Machine

/-! ### Findings and the batch boundary (R160, R279) -/

theorem atBoundary_of_batches {s t : State} (hbatches : t.batches = s.batches) (hegress : t.egress = s.egress) :
    atBoundary t = atBoundary s := by
  rw [atBoundary, hbatches, hegress, atBoundary]

/-- The batches in hand but for their suspect windows. -/
def windowless (s : State) : List Batch := s.batches.map (withWindows fun _ => [])

/-- The boundary depends on no suspect window. -/
theorem atBoundary_of_windowless {s t : State} (hbatches : windowless t = windowless s) (hegress : t.egress = s.egress) :
    atBoundary t = atBoundary s := by
  have key : ∀ u : State, atBoundary u = (decide (u.egress.phase ≠ .flush) && (windowless u).all (fun b =>
      !b.egressBegun || (b.egressDone && (decide (b.mode = 1#2) || b.comparesDone)))) := fun u => by
    rw [windowless, List.all_map]
    rfl
  rw [key, key, hbatches, hegress]

theorem addWindow_windowless (n : DWord) (w : Window) (s : State) : windowless (addWindow n w s) = windowless s := by
  have hmod : ∀ m f (u : State), u.batches = (modBatch m (withWindows f) s).batches → windowless u = windowless s := by
    intro m f u hu
    rw [windowless, hu, modBatch, List.map_map]
    refine List.map_congr_left fun b _ => ?_
    simp only [Function.comp_apply]
    split <;> rfl
  have hledger : ∀ l v (u : State), (setLedger l v u).batches = u.batches := by simp
  unfold addWindow
  split
  · rfl
  · dsimp only
    split
    · exact hmod _ (List.map _) _ (hledger _ _ _)
    · exact hmod _ (· ++ [_]) _ (wait_keeps _ _ _).1

/-- From `s` to `u` the batches change in their suspect windows alone, and the fabric not at all. -/
def changesWindows (s u : State) : Prop := windowless u = windowless s ∧ u.fabric = s.fabric

theorem addWindow_changesWindows (n : DWord) (w : Window) {s u : State} (h : changesWindows s u) : changesWindows s (addWindow n w u) :=
  ⟨(addWindow_windowless n w u).trans h.1, (addWindow_fabric n w u).trans h.2⟩

theorem windowOver_changesWindows (sites : List Nat) (source detail a e : Nat) (s : State) :
    changesWindows s (windowOver sites source detail a e s) := by
  unfold windowOver
  dsimp only
  refine List.foldlRecOn _ _ (motive := changesWindows s) ⟨rfl, rfl⟩ fun u hu b _ => ?_
  exact List.foldlRecOn _ _ (motive := changesWindows s) hu fun v hv x _ => addWindow_changesWindows _ _ hv

/-- A batch in egress whose cycles the window touches gains the window for each of the sites. -/
theorem windowOver_marks (sites : List Nat) (source detail a e x : Nat) (s : State) (b : Batch) (hone : s.batches = [b])
    (hbegun : b.egressBegun = true) (hopen : b.verdictsFormed = false) (hcompares : b.comparesDone = false) (hend : b.firstEgress < e)
    (hx : x ∈ sites) : ∃ b' ∈ (windowOver sites source detail a e s).batches, b'.d = b.d ∧ windowOf x source b'.windows := by
  have hb : findBatch b.d.batch s = some b := by simp [findBatch, hone]
  obtain ⟨b', hb', hd, hmarks, -⟩ := foldl_addWindow_marks b.d.batch (fun _ x => ⟨x, max a b.firstEgress - b.firstEgress,
    e - max a b.firstEgress, source, detail⟩) source (fun _ _ => ⟨rfl, rfl⟩) sites s b hb hopen
  have hover : windowOver sites source detail a e s = sites.foldl (fun u x => addWindow b.d.batch ⟨x,
      max a b.firstEgress - b.firstEgress, e - max a b.firstEgress, source, detail⟩ u) s := by
    simp [windowOver, hone, hbegun, hopen, hcompares, hend]
  exact ⟨b', List.mem_of_find?_eq_some (hover ▸ hb'), hd, hmarks x hx⟩

/-! ### Errors of a lane that is up are reported (R278, R280) -/

theorem faultSet_faultEventFree (c code : Nat) (s : State) (h : faultSet c s) : faultSet c (faultEventFree code s) := by
  simpa [faultSet, faultEventFree, faultEvent] using faultSet_setFault c code s h

/-- A lane with persistent errors is handed over to the survey unit, with its fault and event. -/
def handedOver (l : FLink) (i : Nat) (s : State) : State :=
  faultEventFree fcLinkWord (setLane l i { lane l i s with handed := true } s)

/-- Where the lane is handed over already, or no boundary lets the survey unit decide at once, the hand-over is all. -/
theorem checkPersistent_cases (l : FLink) (i : Nat) (s : State) (h : (lane l i s).handed = true ∨ atBoundary s = false) :
    checkPersistent l i s = s ∨ ∃ v, checkPersistent l i s = putPending { handedOver l i s with survey := v } := by
  unfold checkPersistent
  dsimp only
  split
  · next hpersists =>
    have hnew : (lane l i s).handed = false := by
      simp only [Bool.and_eq_true, Bool.not_eq_true'] at hpersists
      exact hpersists.1.2
    refine .inr ⟨_, settle_of_not_atBoundary _ ?_⟩
    refine (atBoundary_of_batches ?_ ?_).trans (h.resolve_left (by simp [hnew]))
    · simp [putPending]
    · simp
  · exact .inl rfl

/-- A hand-over clears no fault, and of the fabric and the lane it changes the mark of the hand-over alone. -/
theorem checkPersistent_keeps (l : FLink) (i : Nat) (s : State) (hi : i < (flink l s).lanes.length)
    (h : (lane l i s).handed = true ∨ atBoundary s = false) :
    (∀ c, faultSet c s → faultSet c (checkPersistent l i s)) ∧ (checkPersistent l i s).fabric = s.fabric
    ∧ ∃ b, lane l i (checkPersistent l i s) = { lane l i s with handed := b } := by
  obtain hs | ⟨v, hs⟩ := checkPersistent_cases l i s h <;> rw [hs]
  · exact ⟨fun _ hc => hc, rfl, _, rfl⟩
  · refine ⟨fun c hc => ?_, by simp [putPending, handedOver, faultEventFree, faultEvent], true, ?_⟩
    · have hlane : faultSet c (setLane l i { lane l i s with handed := true } s) := by simpa [faultSet] using hc
      exact faultSet_faultEventFree c fcLinkWord _ hlane
    · have hlane : ∀ u : State, lane l i (putPending { u with survey := v }) = lane l i u := fun u => by cases l <;> rfl
      rw [hlane, handedOver, lane_of_flink (flink_faultEventFree l _ _), lane_setLane l i _ s hi]

/-- An error of a lane over some of its cycles: their window stands, its fault is set, and errors that persist are handed over. -/
def reportError (l : FLink) (i code a e : Nat) (s : State) : State :=
  checkPersistent l i (markFault (setFault code (windowOver (ingressSites l i s) 0 (linkNum l * 32 + i) a e s)))

theorem reportError_effect (l : FLink) (i code a e : Nat) (s : State) (hi : i < (flink l s).lanes.length)
    (h : (lane l i s).handed = true ∨ atBoundary s = false) (habsent : ∀ t, faultAbsent code t = false) (hcode : code < 48) :
    faultSet code (reportError l i code a e s) ∧ (reportError l i code a e s).fabric = s.fabric
    ∧ ∃ b, lane l i (reportError l i code a e s) = { lane l i s with handed := b } := by
  obtain ⟨hwindowless, hfabric⟩ := windowOver_changesWindows (ingressSites l i s) 0 (linkNum l * 32 + i) a e s
  have hlinks := flink_of_findingKeeps (windowOver_findingKeeps (ingressSites l i s) 0 (linkNum l * 32 + i) a e s) l
  have hegress : (windowOver (ingressSites l i s) 0 (linkNum l * 32 + i) a e s).egress = s.egress := by simp
  rw [reportError]
  generalize windowOver (ingressSites l i s) 0 (linkNum l * 32 + i) a e s = u at *
  have hflink : flink l (markFault (setFault code u)) = flink l s := by
    rw [← hlinks]
    cases l <;> simp [flink]
  have hboundary : atBoundary (markFault (setFault code u)) = atBoundary s :=
    (atBoundary_of_batches (by simp) (by simp)).trans (atBoundary_of_windowless hwindowless hegress)
  obtain ⟨hfaults, hkept, b, hlane⟩ := checkPersistent_keeps l i (markFault (setFault code u)) (hflink ▸ hi)
    (by rwa [lane_of_flink hflink, hboundary])
  exact ⟨hfaults code (by simpa [faultSet] using setFault_bit code u (habsent u) hcode), hkept.trans (by simp [hfabric]), b,
    by rw [hlane, lane_of_flink hflink]⟩

/-! ### Ingress words (R253, R256) -/

/-- After the writes of a list a key holds what those that name it agree on. -/
theorem tget_foldl_tset {α β : Type} [DecidableEq α] (d : α) (key : β → Nat) (val : β → α) (es : List β) (k : Nat) (v : α)
    (hval : ∀ e ∈ es, key e = k → val e = v) (t : Table α) (h : tget d t k = v ∨ ∃ e ∈ es, key e = k) :
    tget d (es.foldl (fun t e => tset d t (key e) (val e)) t) k = v := by
  induction es generalizing t with
  | nil => simpa using h
  | cons e es ih =>
    refine ih (fun e' he' => hval e' (List.mem_cons_of_mem _ he')) _ ?_
    rw [tget_tset]
    by_cases hk : k = key e
    · exact .inl (by rw [if_pos hk, hval e (List.mem_cons_self ..) hk.symm])
    · simpa [hk, Ne.symm hk] using h

/-- The entries with ingress on a lane. -/
def ingressEntries (l : FLink) (i : Nat) (s : State) : List (Nat × QWord) :=
  (validEntries s.inForce.catalogue).filter (fun e => catLink e.2 = l && catLane e.2 = i && roleIngress (catRole e.2))

theorem mem_ingressEntries (l : FLink) (i : Nat) (s : State) (e : Nat × QWord) : e ∈ ingressEntries l i s
    ↔ e ∈ validEntries s.inForce.catalogue ∧ catLink e.2 = l ∧ catLane e.2 = i ∧ roleIngress (catRole e.2) = true := by
  simp [ingressEntries, and_assoc]

/-- A delivered word gives each port that one entry names its channel bit, and sets the qualifier. -/
theorem deliverWord_port (l : FLink) (i : Nat) (ch : DWord) (s : State) (e : Nat × QWord) (he : e ∈ ingressEntries l i s)
    (hone : ∀ e' ∈ ingressEntries l i s, catPort e'.2 = catPort e.2 → e' = e) :
    tget false (deliverWord l i ch s).fabric.ingress (catPort e.2) = ch.getLsbD (catSlot e.2)
    ∧ tget false (deliverWord l i ch s).fabric.qualifier (catPort e.2) = true :=
  ⟨tget_foldl_tset false (fun e : Nat × QWord => catPort e.2) _ _ _ _ (fun e' he' hport => by rw [hone e' he' hport]) _
      (.inr ⟨e, he, rfl⟩),
    tget_foldl_tset false (fun e : Nat × QWord => catPort e.2) _ _ _ _ (fun _ _ _ => rfl) _ (.inr ⟨e, he, rfl⟩)⟩

theorem exec_ingressWord_up (l : FLink) (i : Nat) (w : BitVec 34) (s : State) (hup : (lane l i s).state = .up) :
    exec (.ingressWord l i w) s = .next (takeWord l i w s) := by
  simp only [exec, execIngressWord, hup]

theorem validWordArrives (l : FLink) (i : Nat) (w : BitVec 34) (s : State) (hup : (lane l i s).state = .up)
    (hvalid : ∃ b, sideBit w = some b) :
    ∃ t, exec (.ingressWord l i w) s = .next t
      ∧ (∀ e ∈ ingressEntries l i s, (∀ e' ∈ ingressEntries l i s, catPort e'.2 = catPort e.2 → e' = e) →
        tget false t.fabric.ingress (catPort e.2) = w.getLsbD (catSlot e.2) ∧ tget false t.fabric.qualifier (catPort e.2) = true)
      ∧ t = setFlink l (flink l t)
          { s with fabric := { s.fabric with ingress := t.fabric.ingress, qualifier := t.fabric.qualifier } } := by
  obtain ⟨b, hb⟩ := hvalid
  have htake : takeWord l i w s = deliverWord l i (w.setWidth 32) (setLane l i (frameWord s.power.fclk w (lane l i s)) s) := by
    simp only [takeWord, hb]
  refine ⟨_, (exec_ingressWord_up l i w s hup).trans (congrArg _ htake), fun e he hone => ?_, by cases l <;> rfl⟩
  have hentries : ingressEntries l i (setLane l i (frameWord s.power.fclk w (lane l i s)) s) = ingressEntries l i s := by
    simp [ingressEntries]
  obtain ⟨hbit, hqualifier⟩ := deliverWord_port l i (w.setWidth 32) _ e (hentries ▸ he) (hentries ▸ hone)
  refine ⟨hbit.trans ?_, hqualifier⟩
  have hslot : catSlot e.2 < 32 := fld_lt e.2 43 39
  simp [hslot]

/-- A lane with one more word-check error. -/
def wordErred (x : Lane) : Lane :=
  { x with wordErrors := satInc x.wordErrors, errWords := recent (2 ^ 20) x.wordsSeen (x.errWords ++ [x.wordsSeen]) }

theorem wordError_eq (l : FLink) (i : Nat) (s : State) : wordError l i s = reportError l i fcLinkWord s.power.fclk (s.power.fclk + 1)
    (holdLane l i (setLane l i (wordErred (lane l i s)) s)) := rfl

/-- A word of a frame leaves the lane's hand-over and its count of word-check errors. -/
theorem frameWord_keeps (now : Nat) (w : BitVec 34) (x : Lane) : (frameWord now w x).handed = x.handed
    ∧ (frameWord now w x).wordErrors = x.wordErrors := by
  unfold frameWord
  dsimp only
  split <;> exact ⟨rfl, rfl⟩

theorem atBoundary_setLane (l : FLink) (i : Nat) (v : Lane) (s : State) : atBoundary (setLane l i v s) = atBoundary s :=
  atBoundary_of_batches (by simp) (by simp)

theorem wrongWordArrives (l : FLink) (i : Nat) (w : BitVec 34) (s : State) (hup : (lane l i s).state = .up) (hwrong : sideBit w = none)
    (hhand : (lane l i s).handed = true ∨ atBoundary s = false) (hi : i < (flink l s).lanes.length) :
    ∃ t, exec (.ingressWord l i w) s = .next t ∧ faultSet fcLinkWord t ∧ t.fabric.ingress = s.fabric.ingress
      ∧ (∀ e ∈ ingressEntries l i s, tget false t.fabric.qualifier (catPort e.2) = false)
      ∧ (lane l i t).wordErrors = satInc (lane l i s).wordErrors := by
  obtain ⟨hhanded, herrors⟩ := frameWord_keeps s.power.fclk w (lane l i s)
  generalize hy : frameWord s.power.fclk w (lane l i s) = y at hhanded herrors
  have htake : takeWord l i w s = reportError l i fcLinkWord s.power.fclk (s.power.fclk + 1)
      (holdLane l i (setLane l i (wordErred y) s)) := by
    simp [takeWord, hwrong, wordError_eq, hy, lane_setLane l i y s hi]
  have hlane : lane l i (holdLane l i (setLane l i (wordErred y) s)) = wordErred y := by
    rw [lane_holdLane, lane_setLane l i _ s hi]
  have hlength : i < (flink l (holdLane l i (setLane l i (wordErred y) s))).lanes.length := by
    have hlinks : flink l (holdLane l i (setLane l i (wordErred y) s)) = flink l (setLane l i (wordErred y) s) := by cases l <;> rfl
    rw [hlinks]
    simpa [setLane] using hi
  obtain ⟨hfault, hfabric, b, hreported⟩ := reportError_effect l i fcLinkWord s.power.fclk (s.power.fclk + 1) _ hlength
    (by rw [hlane]; exact hhand.imp hhanded.trans (atBoundary_setLane l i (wordErred y) s).trans) (fun _ => rfl) (by decide)
  refine ⟨_, (exec_ingressWord_up l i w s hup).trans (congrArg _ htake), hfault, ?_, fun e he => ?_, ?_⟩
  · rw [hfabric]
    simp [holdLane]
  · obtain ⟨hvalid, hlink, hon, hrole⟩ := (mem_ingressEntries l i s e).1 he
    rw [hfabric]
    exact holdLane_qualifier l i _ e (by simpa using hvalid) hlink hon hrole
  · rw [hreported, hlane]
    exact congrArg satInc herrors

theorem ingressWords : Claims.IngressWords := by
  intro l i w s named
  have hnamed : ∀ e, named e ↔ e ∈ ingressEntries l i s := fun e => (mem_ingressEntries l i s e).symm
  simp only [hnamed]
  refine ⟨validWordArrives l i w s, wrongWordArrives l i w s, ?_⟩
  rintro (hlost | hfailed)
  · simp only [exec, execIngressWord, hlost]
  · simp only [exec, execIngressWord, hfailed]

/-! ### Quarters of the side channel (R257, R261) -/

/-- A lane with the record of its quarters changed. -/
def withQuarters (good bad : Nat) (lock : Bool) (last : Option (Nat × Nat)) (x : Lane) : Lane :=
  { x with goodQuarters := good, badQuarters := bad, sideLock := lock, lastQuarter := last }

theorem goodQuarter_cases (frame quarter : Nat) (x : Lane) :
    ∃ good bad lock last, goodQuarter frame quarter x = withQuarters good bad lock last x := by
  unfold goodQuarter
  split <;> exact ⟨_, _, _, _, rfl⟩

theorem lockAdvance_of_not_training (full rate34 : Bool) (x : Lane) (h : x.state ≠ .training) : lockAdvance full rate34 x = x := by
  simp [lockAdvance, h]

/-- A good quarter of a lane that is up. -/
theorem stepLane_goodQuarter_up (l : FLink) (i frame quarter : Nat) (s : State) (hup : (lane l i s).state = .up) :
    stepLane l i (goodQuarter frame quarter) s = setLane l i (goodQuarter frame quarter (lane l i s)) s := by
  obtain ⟨hstate, -⟩ := goodQuarter_keeps frame quarter (lane l i s)
  rw [stepLane_eq, lockAdvance_of_not_training _ _ _ (by simp [hstate, hup])]

theorem laneListens_of_up (x : Lane) (h : x.state = .up) : laneListens x = true := by simp [laneListens, h]

theorem length_lanes_setLane (k l : FLink) (i : Nat) (v : Lane) (s : State) :
    (flink k (setLane l i v s)).lanes.length = (flink k s).lanes.length := by
  cases l <;> cases k <;> simp [setLane, flink, setFlink]

theorem setLane_eq_setFlink (l : FLink) (i : Nat) (v : Lane) (s : State) :
    setLane l i v s = setFlink l (flink l (setLane l i v s)) s := by simp [setLane]

/-! ### Frame checks (R260, R278) -/

/-- A lane with one more checked frame, and with one more frame that failed. -/
def frameChecked (x : Lane) : Lane := { x with framesSeen := x.framesSeen + 1, checkedTo := x.frameStart }
def frameFailed (x : Lane) : Lane :=
  { x with crcErrors := satInc x.crcErrors, errFrames := recent 4096 x.framesSeen (x.errFrames ++ [x.framesSeen]) }

theorem checkFrame_good (l : FLink) (i : Nat) (s : State) : checkFrame l i true s = setLane l i (frameChecked (lane l i s)) s := rfl

/-- A frame that fails its check: LINK_CRC is set and the failure is counted, and the other counts stay. -/
theorem checkFrame_bad (l : FLink) (i : Nat) (s : State) (hi : i < (flink l s).lanes.length)
    (h : (lane l i s).handed = true ∨ atBoundary s = false) :
    faultSet fcLinkCrc (checkFrame l i false s) ∧ (lane l i (checkFrame l i false s)).crcErrors = satInc (lane l i s).crcErrors
    ∧ (lane l i (checkFrame l i false s)).quarterErrors = (lane l i s).quarterErrors := by
  have hchecked := lane_setLane l i (frameChecked (lane l i s)) s hi
  have hfails : checkFrame l i false s = reportError l i fcLinkCrc (lane l i s).prevStart
      ((lane l i s).prevStart + frameLen l (setLane l i (frameChecked (lane l i s)) s))
      (setLane l i (frameFailed (frameChecked (lane l i s))) s) := by
    change crcFail l i (setLane l i (frameChecked (lane l i s)) s) = _
    rw [crcFail, hchecked]
    simp only [setLane_setLane]
    rfl
  have hlane := lane_setLane l i (frameFailed (frameChecked (lane l i s))) s hi
  obtain ⟨hfault, -, b, hreported⟩ := reportError_effect l i fcLinkCrc (lane l i s).prevStart
    ((lane l i s).prevStart + frameLen l (setLane l i (frameChecked (lane l i s)) s))
    (setLane l i (frameFailed (frameChecked (lane l i s))) s) (by rwa [length_lanes_setLane])
    (by rw [hlane, atBoundary_setLane]; exact h) (fun _ => rfl) (by decide)
  rw [hfails, hreported, hlane]
  exact ⟨hfault, rfl, rfl⟩

theorem exec_frameCrc_up (l : FLink) (i : Nat) (q : QWord) (echo64 : Nat) (c : Word) (s : State) (hi : i < (flink l s).lanes.length)
    (hup : (lane l i s).state = .up) (hq : qIs 1 q = true) (hcrc : (lane l i s).prevCrc = some c) :
    exec (.frameCrc l i q echo64) s = .next (checkFrame l i (decide (fld (qData q) 31 16 = c.toNat))
      (setLane l i (goodQuarter (qFrame q) 0 (lane l i s)) s)) := by
  have hexec : exec (.frameCrc l i q echo64) s = .next (takeFrameCrc l i q echo64 s) :=
    congrArg Host.Outcome.next (if_pos (by simp [hq, laneListens_of_up _ hup]))
  obtain ⟨good, bad, lock, last, hgood⟩ := goodQuarter_cases (qFrame q) 0 (lane l i s)
  rw [hexec, takeFrameCrc, stepLane_goodQuarter_up l i _ _ s hup, hgood]
  simp only [lane_setLane l i _ s hi, withQuarters, hup, hcrc, if_true]

theorem framesAreChecked (l : FLink) (i : Nat) (q : QWord) (echo64 : Nat) (c : Word) (s : State) (hi : i < (flink l s).lanes.length)
    (hup : (lane l i s).state = .up) (hq : qIs 1 q = true) (hcrc : (lane l i s).prevCrc = some c) :
    (fld (qData q) 31 16 = c.toNat → ∃ t, exec (.frameCrc l i q echo64) s = .next t
      ∧ (lane l i t).crcErrors = (lane l i s).crcErrors ∧ (lane l i t).framesSeen = (lane l i s).framesSeen + 1
      ∧ t = setFlink l (flink l t) s)
    ∧ (fld (qData q) 31 16 ≠ c.toNat → (lane l i s).handed = true ∨ atBoundary s = false →
      ∃ t, exec (.frameCrc l i q echo64) s = .next t ∧ faultSet fcLinkCrc t
        ∧ (lane l i t).crcErrors = satInc (lane l i s).crcErrors) := by
  have hexec := exec_frameCrc_up l i q echo64 c s hi hup hq hcrc
  obtain ⟨good, bad, lock, last, hgood⟩ := goodQuarter_cases (qFrame q) 0 (lane l i s)
  rw [hgood] at hexec
  have hlane := lane_setLane l i (withQuarters good bad lock last (lane l i s)) s hi
  constructor
  · intro hagree
    rw [decide_eq_true hagree, checkFrame_good, hlane, setLane_setLane] at hexec
    refine ⟨_, hexec, ?_⟩
    rw [lane_setLane l i _ s hi]
    exact ⟨rfl, rfl, setLane_eq_setFlink l i _ s⟩
  · intro hdiffer hhand
    rw [decide_eq_false hdiffer] at hexec
    obtain ⟨hfault, hcount, -⟩ := checkFrame_bad l i (setLane l i (withQuarters good bad lock last (lane l i s)) s)
      (by rwa [length_lanes_setLane]) (by rw [hlane, atBoundary_setLane]; exact hhand)
    exact ⟨_, hexec, hfault, by rw [hcount, hlane]; rfl⟩

/-- A lane after a lost quarter. -/
def quarterCounted (quarter : Nat) (ok : Bool) (x : Lane) : Lane :=
  if ok then goodQuarter ((x.lastQuarter.map (·.1)).getD 0 + (if quarter = 0 then 1 else 0)) quarter
    { x with quarterErrors := satInc x.quarterErrors }
  else badQuarter { x with quarterErrors := satInc x.quarterErrors }

theorem quarterCounted_cases (quarter : Nat) (ok : Bool) (x : Lane) : ∃ good bad lock last,
    quarterCounted quarter ok x = withQuarters good bad lock last { x with quarterErrors := satInc x.quarterErrors } := by
  cases ok
  · exact ⟨_, _, _, _, rfl⟩
  · exact goodQuarter_cases _ _ _

theorem quarterLost_eq (l : FLink) (i quarter : Nat) (ok : Bool) (s : State) : quarterLost l i quarter ok s
    = if quarter = 0 && decide ((lane l i s).state = .up) && (lane l i s).prevCrc.isSome
      then checkFrame l i false (setLane l i (quarterCounted quarter ok (lane l i s)) s)
      else setLane l i (quarterCounted quarter ok (lane l i s)) s := rfl

theorem quartersAreLost (l : FLink) (i quarter : Nat) (ok : Bool) (c : Word) (s : State) (hi : i < (flink l s).lanes.length)
    (hlistens : laneListens (lane l i s) = true) :
    (quarter ≠ 0 → ∃ t, exec (.quarterLost l i quarter ok) s = .next t
      ∧ (lane l i t).quarterErrors = satInc (lane l i s).quarterErrors ∧ t = setFlink l (flink l t) s)
    ∧ ((lane l i s).state = .up → (lane l i s).prevCrc = some c → (lane l i s).handed = true ∨ atBoundary s = false →
      ∃ t, exec (.quarterLost l i 0 ok) s = .next t ∧ faultSet fcLinkCrc t
        ∧ (lane l i t).quarterErrors = satInc (lane l i s).quarterErrors) := by
  have hexec : ∀ n, exec (.quarterLost l i n ok) s = .next (quarterLost l i n ok s) :=
    fun _ => congrArg Host.Outcome.next (if_pos hlistens)
  constructor
  · intro hquarter
    obtain ⟨good, bad, lock, last, hcounted⟩ := quarterCounted_cases quarter ok (lane l i s)
    refine ⟨_, (hexec quarter).trans (congrArg _ ((quarterLost_eq l i quarter ok s).trans (if_neg (by simp [hquarter])))), ?_,
      setLane_eq_setFlink l i _ s⟩
    rw [lane_setLane l i _ s hi, hcounted]
    rfl
  · intro hup hcrc hhand
    obtain ⟨good, bad, lock, last, hcounted⟩ := quarterCounted_cases 0 ok (lane l i s)
    have hlane := lane_setLane l i (quarterCounted 0 ok (lane l i s)) s hi
    rw [hcounted] at hlane
    obtain ⟨hfault, -, hcount⟩ := checkFrame_bad l i (setLane l i (quarterCounted 0 ok (lane l i s)) s)
      (by rwa [length_lanes_setLane]) (by rw [hcounted, hlane, atBoundary_setLane]; exact hhand)
    refine ⟨_, (hexec 0).trans (congrArg _ ((quarterLost_eq l i 0 ok s).trans (if_pos (by simp [hup, hcrc])))), hfault, ?_⟩
    rw [hcount, hcounted, hlane]
    rfl

theorem frameChecks : Claims.FrameChecks := fun l i q echo64 quarter ok c s hi =>
  ⟨framesAreChecked l i q echo64 c s hi, quartersAreLost l i quarter ok c s hi,
    fun hbad hlock => congrArg Host.Outcome.next (if_pos (by simp [hbad, hlock]))⟩

/-! ### STATUS of a partner (R263, R265, R278) -/

/-- The lane after a STATUS while it waits for no count of an APPLY. -/
def statusHeard (e : Nat) (q : QWord) (x : Lane) : Lane :=
  { x with statusTo := max x.statusTo e, alarm := (qData q).getLsbD 22 }

/-- The end of the egress frame that a STATUS reports on. -/
def reportedEnd (l : FLink) (q : QWord) (s : State) : Nat := egressFrameStart l ((qFrame q + 63) % 64) s + frameLen l s

theorem egressFrameStart_setLane (l : FLink) (i n : Nat) (v : Lane) (s : State) :
    egressFrameStart l n (setLane l i v s) = egressFrameStart l n s := by
  cases l <;> rfl

theorem frameLen_setLane (l : FLink) (i : Nat) (v : Lane) (s : State) : frameLen l (setLane l i v s) = frameLen l s := by
  cases l <;> rfl

theorem ingressSites_setLane (l : FLink) (i : Nat) (v : Lane) (s : State) :
    ingressSites l i (setLane l i v s) = ingressSites l i s := by
  simp [ingressSites]

/-- A STATUS on an up lane that waits for no count: the errors that it reports give windows over the frame before. -/
theorem exec_status_up (l : FLink) (i : Nat) (q : QWord) (s : State) (hi : i < (flink l s).lanes.length) (hq : qIs 2 q = true)
    (hup : (lane l i s).state = .up) (hnone : (lane l i s).applyFrame = none) :
    let heard := setLane l i (statusHeard (reportedEnd l q s) q (goodQuarter (qFrame q) 1 (lane l i s))) s
    exec (.status l i q) s = .next (if fld (qData q) 31 24 ≠ 0 || (qData q).getLsbD 23 then markFault (windowOver (ingressSites l i s) 1
      (linkNum l * 32 + i) (egressFrameStart l ((qFrame q + 63) % 64) s) (reportedEnd l q s) heard) else heard) := by
  intro heard
  have hexec : exec (.status l i q) s = .next (takeStatus l i q s) :=
    congrArg Host.Outcome.next (if_pos (by simp [hq, laneListens_of_up _ hup]))
  obtain ⟨hstate, -⟩ := goodQuarter_keeps (qFrame q) 1 (lane l i s)
  obtain ⟨good, bad, lock, last, hgood⟩ := goodQuarter_cases (qFrame q) 1 (lane l i s)
  have hwaits : (goodQuarter (qFrame q) 1 (lane l i s)).applyFrame = none := by rw [hgood]; exact hnone
  rw [hexec, takeStatus, stepLane_goodQuarter_up l i _ _ s hup]
  simp [lane_setLane l i _ s hi, hstate, hup, statusUp, hwaits, egressFrameStart_setLane, frameLen_setLane, ingressSites_setLane,
    reportedEnd, heard, statusHeard]

theorem statusOnUpLane (l : FLink) (i : Nat) (q : QWord) (s : State) (hi : i < (flink l s).lanes.length) (hq : qIs 2 q = true)
    (hup : (lane l i s).state = .up) (hnone : (lane l i s).applyFrame = none) :
    (fld (qData q) 31 24 = 0 → (qData q).getLsbD 23 = false → ∃ t, exec (.status l i q) s = .next t
      ∧ (lane l i t).alarm = (qData q).getLsbD 22 ∧ t = setFlink l (flink l t) s)
    ∧ (fld (qData q) 31 24 ≠ 0 ∨ (qData q).getLsbD 23 = true → ∀ b x, s.batches = [b] → b.egressBegun = true →
      b.verdictsFormed = false → b.comparesDone = false → x ∈ ingressSites l i s → b.firstEgress < reportedEnd l q s →
      ∃ t, exec (.status l i q) s = .next t ∧ t.twin.faultSinceCommit = true
        ∧ ∃ b' ∈ t.batches, b'.d = b.d ∧ ∃ w ∈ b'.windows, w.site = x ∧ w.source = 1) := by
  have hexec := exec_status_up l i q s hi hq hup hnone
  constructor
  · intro hegress hcrc
    refine ⟨_, hexec.trans (congrArg _ (if_neg ?_)), ?_, setLane_eq_setFlink l i _ s⟩
    · rw [hegress, hcrc]
      decide
    · rw [lane_setLane l i _ s hi]
      rfl
  · intro herrors b x hone hbegun hopen hcompares hx hend
    obtain ⟨b', hb', hd, hwindow⟩ := windowOver_marks (ingressSites l i s) 1 (linkNum l * 32 + i)
      (egressFrameStart l ((qFrame q + 63) % 64) s) (reportedEnd l q s) x
      (setLane l i (statusHeard (reportedEnd l q s) q (goodQuarter (qFrame q) 1 (lane l i s))) s) b (by simpa using hone) hbegun hopen
      hcompares hend hx
    exact ⟨_, hexec.trans (congrArg _ (if_pos (by simpa using herrors))), rfl, b', hb', hd, hwindow⟩

/-- The lane whose partner has counted the messages of its step 6. -/
def countHeard (q : QWord) (x : Lane) : Lane := { x with alarm := (qData q).getLsbD 22, step := 8 }

theorem statusEndsStep6 (l : FLink) (i : Nat) (q : QWord) (s : State) (h32 : i < 32) (hi : i < (flink l s).lanes.length)
    (hq : qIs 2 q = true) (htrains : (lane l i s).state = .training) (hstep : (lane l i s).step = 7)
    (hcount : fld (qData q) 21 14 = (lane l i s).configSent) :
    ∃ t, exec (.status l i q) s = .next t ∧ (lane l i t).step = 8 ∧ t = setFlink l (flink l t) s := by
  have hexec : exec (.status l i q) s = .next (takeStatus l i q s) :=
    congrArg Host.Outcome.next (if_pos (by simp [hq, laneListens_of_training _ htrains]))
  obtain ⟨good, bad, lock, last, hgood⟩ := goodQuarter_cases (qFrame q) 1 (lane l i s)
  have hquarter : stepLane l i (goodQuarter (qFrame q) 1) s = setLane l i (withQuarters good bad lock last (lane l i s)) s := by
    rw [stepLane_eq, hgood]
    simp [lockAdvance, withQuarters, hstep]
  have htake : takeStatus l i q s
      = trainAdvance l (setLane l i (countHeard q (withQuarters good bad lock last (lane l i s))) s) := by
    rw [takeStatus, hquarter]
    simp only [lane_setLane l i _ s hi, withQuarters, htrains, statusTraining, hstep, hcount, setLane_setLane, decide_true, Bool.and_self,
      if_true]
    rfl
  have hlane := lane_setLane l i (countHeard q (withQuarters good bad lock last (lane l i s))) s hi
  have hwaits : trainAdvance l (setLane l i (countHeard q (withQuarters good bad lock last (lane l i s))) s)
      = setLane l i (countHeard q (withQuarters good bad lock last (lane l i s))) s := by
    refine trainAdvance_of_waiting l i _ h32 ?_ ?_ ?_ <;> rw [hlane]
    · exact htrains
    · exact fun h => absurd h (by decide : ¬8 = 3)
    · exact (by decide : 8 ≠ 6)
  exact ⟨_, hexec.trans (congrArg _ (htake.trans hwaits)), congrArg Lane.step hlane, setLane_eq_setFlink l i _ s⟩

theorem statusArrives : Claims.StatusArrives := fun l i q s h32 hi hq =>
  ⟨statusOnUpLane l i q s hi hq, statusEndsStep6 l i q s h32 hi hq⟩

/-- Settles O39: a word, a quarter and a STATUS change their own lane; what an error reports besides clears no fault and moves no lane. -/
theorem linksReceive : Obligations.LinksReceive :=
  ⟨ingressWords, frameChecks, statusArrives⟩

end Sys2Proof.Machine
end

section
/-! PROOF. Field links: the alignment of every lane, drift and re-measurement (O41). -/

namespace Sys2Proof.Machine

/-! ### Maxima of a list of lanes (R274) -/

theorem le_foldl_max {α β : Type} [LinearOrder β] (f : α → β) (xs : List α) (m : β) :
    m ≤ xs.foldl (fun m x => max m (f x)) m ∧ ∀ x ∈ xs, f x ≤ xs.foldl (fun m x => max m (f x)) m := by
  induction xs generalizing m with
  | nil => exact ⟨le_rfl, by simp⟩
  | cons x xs ih =>
    obtain ⟨hstart, hmem⟩ := ih (max m (f x))
    exact ⟨(le_max_left _ _).trans hstart, List.forall_mem_cons.2 ⟨(le_max_right _ _).trans hstart, hmem⟩⟩

theorem rt_le_maxRt (ls : List AlignLane) (x : AlignLane) (hx : x ∈ ls) : x.rt ≤ maxRt ls := (le_foldl_max AlignLane.rt ls 0).2 x hx

theorem s64_le_maxS (ls : List AlignLane) (x : AlignLane) (hx : x ∈ ls) : x.s64 ≤ maxS ls := by
  cases ls with
  | nil => simp at hx
  | cons y ys =>
    obtain ⟨hfirst, hrest⟩ := le_foldl_max AlignLane.s64 ys y.s64
    exact (List.mem_cons.1 hx).elim (fun h => h ▸ hfirst) (hrest x)

/-- Each lane's RPAD fills its RT up to the largest. -/
theorem rpadOf_add_rt (ls : List AlignLane) (x : AlignLane) (hx : x ∈ ls) : rpadOf ls x + x.rt = maxRt ls :=
  Nat.sub_add_cancel (rt_le_maxRt ls x hx)

/-- Each lane's delay fills its s up to the whole cycle that all of them reach. -/
theorem delayOf_add_s64 (ls : List AlignLane) (x : AlignLane) (hx : x ∈ ls) : (delayOf ls x : Int) + x.s64 = 64 * wireMax ls := by
  have hmax := s64_le_maxS ls x hx
  simp only [delayOf, wireMax]
  omega

/-! ### The lanes that take part (R274) -/

/-- Two entries of an alignment for one lane. -/
def sameLane (x y : AlignLane) : Prop := x.link = y.link ∧ x.i = y.i

/-- A lane's part in the alignment, where it takes part. -/
def alignLaneAt (l : FLink) (s : State) (i : Nat) : Option AlignLane :=
  if (decide ((lane l i s).state = .up) || (decide ((lane l i s).state = .training) && decide (6 ≤ (lane l i s).step)))
      && !(laneSites l i s).isEmpty then
    (lane l i s).descriptor.map (fun d => alignLane l i (lane l i s).echo64 d s)
  else none

theorem alignLanes_eq (l : FLink) (s : State) : alignLanes l s = (List.range 32).filterMap (alignLaneAt l s) := rfl

/-- A place beyond the lanes of a link holds a lane that is disabled. -/
theorem lane_of_length_le (l : FLink) (i : Nat) (s : State) (h : (flink l s).lanes.length ≤ i) : lane l i s = {} := by
  simp [lane, lget, h]

theorem alignLaneAt_some (l : FLink) (i : Nat) (s : State) (x : AlignLane) (h : alignLaneAt l s i = some x) :
    x.link = l ∧ x.i = i ∧ i < (flink l s).lanes.length := by
  have hin : i < (flink l s).lanes.length := by
    by_contra hout
    simp [alignLaneAt, lane_of_length_le l i s (Nat.le_of_not_lt hout)] at h
  unfold alignLaneAt at h
  split at h
  · obtain ⟨d, -, rfl⟩ := Option.map_eq_some_iff.1 h
    exact ⟨rfl, rfl, hin⟩
  · simp at h

theorem mem_alignLanes (l : FLink) (s : State) (x : AlignLane) (h : x ∈ alignLanes l s) :
    x.link = l ∧ x.i < (flink l s).lanes.length := by
  rw [alignLanes_eq] at h
  obtain ⟨i, -, hi⟩ := List.mem_filterMap.1 h
  obtain ⟨hlink, rfl, hlen⟩ := alignLaneAt_some l i s x hi
  exact ⟨hlink, hlen⟩

theorem alignLanes_distinct (l : FLink) (s : State) : (alignLanes l s).Pairwise (fun x y => ¬sameLane x y) := by
  rw [alignLanes_eq, List.pairwise_filterMap]
  refine (List.nodup_range (n := 32)).imp fun hne x hx y hy hsame => hne ?_
  obtain ⟨-, rfl, -⟩ := alignLaneAt_some l _ s x hx
  obtain ⟨-, rfl, -⟩ := alignLaneAt_some l _ s y hy
  exact hsame.2

/-- The lanes of both links that take part. -/
def allLanes (s : State) : List AlignLane := alignLanes .f0 s ++ alignLanes .f1 s

theorem mem_allLanes (s : State) (x : AlignLane) (h : x ∈ allLanes s) : x.i < (flink x.link s).lanes.length := by
  obtain h | h := List.mem_append.1 h
  all_goals
    obtain ⟨hlink, hlen⟩ := mem_alignLanes _ s x h
    rwa [hlink]

theorem allLanes_distinct (s : State) : (allLanes s).Pairwise (fun x y => ¬sameLane x y) := by
  refine List.pairwise_append.2 ⟨alignLanes_distinct .f0 s, alignLanes_distinct .f1 s, fun x hx y hy hsame => ?_⟩
  obtain ⟨hx0, -⟩ := mem_alignLanes _ s x hx
  obtain ⟨hy1, -⟩ := mem_alignLanes _ s y hy
  exact absurd (hx0.symm.trans (hsame.1.trans hy1)) (by decide)

/-! ### Each lane takes its values (R274, R390) -/

/-- A lane with its values of an alignment. -/
def alignedLane (ls : List AlignLane) (x : AlignLane) (y : Lane) : Lane := { y with rpad := rpadOf ls x, delay64 := delayOf ls x }

/-- A lane that has its partner told of new values. -/
def tellingLane (msgs : List (Nat × DWord)) (queued : List (Nat × DWord)) (y : Lane) : Lane :=
  { y with outMsgs := queued ++ msgs ++ [applyMsg msgs.length], configSent := msgs.length, applyFrame := none }

/-- The CONFIG messages for the values that a lane's alignment changes. -/
def alignMsgs (delays : Bool) (ls : List AlignLane) (x : AlignLane) (y : Lane) (aligned : State) : List (Nat × DWord) :=
  (if delayOf ls x ≠ y.delay64 || delays then delayConfigs x.link x.i aligned else [])
    ++ (if rpadOf ls x ≠ y.rpad then [rpadConfig x.link x.i aligned] else [])

theorem alignOne_eq (delays : Bool) (ls : List AlignLane) (x : AlignLane) (r : State × Bool) :
    let y := lane x.link x.i r.1
    let aligned := setLane x.link x.i (alignedLane ls x y) r.1
    let msgs := alignMsgs delays ls x y aligned
    alignOne delays ls x r = if msgs.isEmpty then (aligned, r.2)
      else if y.state = .up then (setLane x.link x.i (tellingLane msgs y.outMsgs (lane x.link x.i aligned)) aligned, true)
      else (aligned, true) := rfl

/-- A lane takes its values, and an up lane whose values change has its partner told. -/
theorem alignOne_cases (delays : Bool) (ls : List AlignLane) (x : AlignLane) (r : State × Bool) :
    let aligned := setLane x.link x.i (alignedLane ls x (lane x.link x.i r.1)) r.1
    (alignOne delays ls x r).1 = aligned ∨ ∃ msgs queued,
      (alignOne delays ls x r).1 = setLane x.link x.i (tellingLane msgs queued (lane x.link x.i aligned)) aligned := by
  intro aligned
  rw [alignOne_eq]
  split
  · exact .inl rfl
  · split
    · exact .inr ⟨_, _, rfl⟩
    · exact .inl rfl

/-- A lane takes its RPAD and its delay; nothing else but this lane changes. -/
theorem alignOne_sets (delays : Bool) (ls : List AlignLane) (x : AlignLane) (r : State × Bool) :
    ∃ v, (alignOne delays ls x r).1 = setLane x.link x.i v r.1
      ∧ (x.i < (flink x.link r.1).lanes.length → v.rpad = rpadOf ls x ∧ v.delay64 = delayOf ls x) := by
  obtain h | ⟨msgs, queued, h⟩ := alignOne_cases delays ls x r
  · exact ⟨_, h, fun _ => ⟨rfl, rfl⟩⟩
  · refine ⟨_, h.trans (setLane_setLane _ _ _ _ _), fun hlen => ?_⟩
    rw [lane_setLane _ _ _ _ hlen]
    exact ⟨rfl, rfl⟩

theorem lane_setLane_other (k l : FLink) (i j : Nat) (v : Lane) (s : State) (h : ¬(l = k ∧ i = j)) :
    lane k j (setLane l i v s) = lane k j s := by
  by_cases hlink : l = k
  · subst hlink
    exact lane_setLane_ne l i j v s fun hij => h ⟨rfl, hij⟩
  · cases l <;> cases k
    · exact absurd rfl hlink
    · rfl
    · rfl
    · exact absurd rfl hlink

/-- What the lanes take leaves the registers, the alignment's mark and every lane that is not among them. -/
theorem foldl_alignOne_keeps (delays : Bool) (ls xs : List AlignLane) (r : State × Bool) :
    let t := (xs.foldl (fun r x => alignOne delays ls x r) r).1
    t.regs = r.1.regs ∧ t.alignDue = r.1.alignDue
    ∧ ∀ k j, (∀ x ∈ xs, ¬(x.link = k ∧ x.i = j)) → lane k j t = lane k j r.1 := by
  induction xs generalizing r with
  | nil => exact ⟨rfl, rfl, fun _ _ _ => rfl⟩
  | cons x xs ih =>
    obtain ⟨hregs, hdue, hlanes⟩ := ih (alignOne delays ls x r)
    obtain ⟨v, hv, -⟩ := alignOne_sets delays ls x r
    rw [hv] at hregs hdue hlanes
    refine ⟨hregs.trans (by simp), hdue.trans (by simp), fun k j hout => ?_⟩
    obtain ⟨hx, hxs⟩ := List.forall_mem_cons.1 hout
    exact (hlanes k j hxs).trans (lane_setLane_other k x.link x.i j v r.1 hx)

/-- Every lane among them holds its own RPAD and delay at the end. -/
theorem foldl_alignOne_values (delays : Bool) (ls xs : List AlignLane) (r : State × Bool)
    (hdistinct : xs.Pairwise (fun x y => ¬sameLane x y)) (hlen : ∀ x ∈ xs, x.i < (flink x.link r.1).lanes.length) :
    ∀ x ∈ xs, (lane x.link x.i (xs.foldl (fun r x => alignOne delays ls x r) r).1).rpad = rpadOf ls x
      ∧ (lane x.link x.i (xs.foldl (fun r x => alignOne delays ls x r) r).1).delay64 = delayOf ls x := by
  induction xs generalizing r with
  | nil => simp
  | cons x xs ih =>
    obtain ⟨hx, hxs⟩ := List.pairwise_cons.1 hdistinct
    obtain ⟨hxlen, hxslen⟩ := List.forall_mem_cons.1 hlen
    obtain ⟨v, hv, hvalues⟩ := alignOne_sets delays ls x r
    refine List.forall_mem_cons.2 ⟨?_, ih _ hxs fun y hy => ?_⟩
    · obtain ⟨-, -, hkept⟩ := foldl_alignOne_keeps delays ls xs (alignOne delays ls x r)
      have hlane := hkept x.link x.i fun y hy hsame => hx y hy ⟨hsame.1.symm, hsame.2.symm⟩
      rw [hv, lane_setLane _ _ _ _ hxlen] at hlane
      rw [List.foldl_cons, hlane]
      exact hvalues hxlen
    · rw [hv, length_lanes_setLane]
      exact hxslen y hy

/-! ### The alignment at a boundary (R275, R397) -/

theorem trimLanes_of_fits (n : Nat) (ls : List AlignLane) (h : maxRt ls + 1 ≤ 255) : trimLanes n ls = (ls, []) := by
  cases n with
  | zero => rfl
  | succ n => exact if_pos h

/-- Every lane that takes part takes its values, in order. -/
def alignAll (delays : Bool) (s : State) : State := ((allLanes s).foldl (fun r x => alignOne delays (allLanes s) x r) (s, false)).1

/-- An alignment in which no lane is beyond its limits: every lane takes its values, and C is the largest RT and 1. -/
theorem realign_of_fits (delays : Bool) (s : State) (hsome : allLanes s ≠ [])
    (hlimits : ∀ x ∈ allLanes s, beyondLimits (allLanes s) x = false) (hfits : maxRt (allLanes s) + 1 ≤ 255) :
    (realign delays s).1 = { alignAll delays s with
      coffset := maxRt (allLanes s) + 1
      regs := { (alignAll delays s).regs with
        linkStatus := setFld (alignAll delays s).regs.linkStatus 15 8 (maxRt (allLanes s) + 1) } } := by
  have hkeep : (allLanes s).filter (fun x => !beyondLimits (allLanes s) x) = allLanes s :=
    List.filter_eq_self.2 fun x hx => by simp [hlimits x hx]
  have hbad : (allLanes s).filter (beyondLimits (allLanes s)) = [] :=
    List.filter_eq_nil_iff.2 fun x hx => by simp [hlimits x hx]
  have hempty : (allLanes s).isEmpty = false := by simpa using hsome
  unfold realign
  rw [← allLanes]
  simp only [hempty, trimLanes_of_fits _ _ hfits, hkeep, hbad, List.nil_append, List.foldl_nil, Bool.false_eq_true, if_false]
  rfl

/-- A decision at a boundary places records; the links and what the alignment says stay. -/
theorem decideAtBoundary_keeps (code arg : Nat) (s : State) :
    (∀ l, flink l (decideAtBoundary code arg s) = flink l s) ∧ (decideAtBoundary code arg s).regs.linkStatus = s.regs.linkStatus
    ∧ (decideAtBoundary code arg s).alignDue = s.alignDue ∧ (decideAtBoundary code arg s).coffset = s.coffset := by
  refine ⟨fun l => ?_, ?_, ?_, ?_⟩
  · cases l <;> simp [flink, decideAtBoundary, putLastCode, waitAhead]
  all_goals simp [decideAtBoundary, putLastCode, waitAhead]

/-- The record of an alignment changes none of its values. -/
theorem alignAndLog_keeps (delays : Bool) (s : State) :
    (∀ l, flink l (alignAndLog delays s) = flink l (realign delays s).1)
    ∧ (alignAndLog delays s).regs.linkStatus = (realign delays s).1.regs.linkStatus
    ∧ (alignAndLog delays s).alignDue = (realign delays s).1.alignDue
    ∧ (alignAndLog delays s).coffset = (realign delays s).1.coffset := by
  unfold alignAndLog
  dsimp only
  split
  · exact decideAtBoundary_keeps _ _ _
  · exact ⟨fun _ => rfl, rfl, rfl, rfl⟩

/-- The alignment applied to the lanes that take part brings each to the common sum of RPAD and RT, and of delay and s. -/
theorem alignAndLog_values (delays : Bool) (s : State) (hsome : allLanes s ≠ [])
    (hlimits : ∀ x ∈ allLanes s, beyondLimits (allLanes s) x = false) (hfits : maxRt (allLanes s) + 1 ≤ 255) :
    (alignAndLog delays s).alignDue = s.alignDue ∧ (alignAndLog delays s).coffset = maxRt (allLanes s) + 1
    ∧ fld (alignAndLog delays s).regs.linkStatus 15 8 = maxRt (allLanes s) + 1
    ∧ ∀ x ∈ allLanes s, (lane x.link x.i (alignAndLog delays s)).rpad + x.rt = maxRt (allLanes s)
      ∧ ((lane x.link x.i (alignAndLog delays s)).delay64 : Int) + x.s64 = 64 * wireMax (allLanes s) := by
  obtain ⟨hlinks, hstatus, hdue, hoffset⟩ := alignAndLog_keeps delays s
  have hrealign := realign_of_fits delays s hsome hlimits hfits
  obtain ⟨-, hfolddue, -⟩ := foldl_alignOne_keeps delays (allLanes s) (allLanes s) (s, false)
  have hvalues := foldl_alignOne_values delays (allLanes s) (allLanes s) (s, false) (allLanes_distinct s) (mem_allLanes s)
  rw [hstatus, hdue, hoffset, hrealign]
  refine ⟨hfolddue, rfl, ?_, fun x hx => ?_⟩
  · exact (fld_setFld _ 15 8 _ (by norm_num) (by norm_num)).trans (Nat.mod_eq_of_lt (by omega))
  · have hlane : lane x.link x.i (alignAndLog delays s) = lane x.link x.i (alignAll delays s) := by
      refine lane_of_flink ((hlinks x.link).trans ?_) x.i
      rw [hrealign]
      cases x.link <;> rfl
    obtain ⟨hrpad, hdelay⟩ := hvalues x hx
    rw [hlane, alignAll, hrpad, hdelay]
    exact ⟨rpadOf_add_rt _ x hx, delayOf_add_s64 _ x hx⟩

/-- From `s` to `t` nothing changes that the lanes' parts in an alignment depend on. -/
structure AlignKeeps (s t : State) : Prop where
  lanes : ∀ l i, lane l i t = lane l i s
  inForce : t.inForce = s.inForce
  linkStatus : t.regs.linkStatus = s.regs.linkStatus
  alignDue : t.alignDue = s.alignDue

theorem AlignKeeps.trans {s t u : State} (h : AlignKeeps s t) (k : AlignKeeps t u) : AlignKeeps s u :=
  ⟨fun l i => (k.lanes l i).trans (h.lanes l i), k.inForce.trans h.inForce, k.linkStatus.trans h.linkStatus,
    k.alignDue.trans h.alignDue⟩

theorem allLanes_of_alignKeeps {s t : State} (h : AlignKeeps s t) : allLanes t = allLanes s := by
  have hlinks : ∀ l, alignLanes l t = alignLanes l s := fun l => by
    have hsites : ∀ i, laneSites l i t = laneSites l i s := fun i => by rw [laneSites, h.inForce, laneSites]
    have hhalf : halfRate l t = halfRate l s := by
      cases l <;> simp only [halfRate, h.linkStatus]
    simp only [alignLanes, alignLane, h.lanes, hsites, hhalf]
  rw [allLanes, hlinks, hlinks, allLanes]

theorem logMeasured_alignKeeps (l : FLink) (s : State) : AlignKeeps s (logMeasured l s) := by
  unfold logMeasured
  dsimp only
  split
  · obtain ⟨hlinks, hstatus, hdue, -⟩ := decideAtBoundary_keeps (flink l s).remeasureCode (linkNum l)
      (setFlink l { flink l s with measured := false } s)
    refine ⟨fun k i => (lane_of_flink (hlinks k) i).trans ?_, by simp, hstatus.trans (by simp), hdue.trans (by simp)⟩
    cases k <;> cases l <;> rfl
  · exact ⟨fun _ _ => rfl, rfl, rfl, rfl⟩

/-- The state in which an alignment that is due begins, the re-measurements recorded. -/
def alignmentBegun (s : State) : State := logMeasured .f1 (logMeasured .f0 { s with alignDue := false, delaysDue := false })

theorem exec_alignmentApply (s : State) (hdue : (settle s).alignDue = true) (hbound : atBoundary (settle s) = true)
    (hf0 : linkState .f0 (settle s) ≠ 1) (hf1 : linkState .f1 (settle s) ≠ 1) :
    exec .alignmentApply s = .next (alignAndLog (settle s).delaysDue (alignmentBegun (settle s))) :=
  congrArg Host.Outcome.next (if_pos (by simp [hdue, hbound, hf0, hf1]))

theorem alignmentIsCommon : Claims.AlignmentIsCommon := by
  intro s s0 all hdue hbound hf0 hf1 hsome hlimits hfits
  have hexec := exec_alignmentApply s hdue hbound hf0 hf1
  have hbegun : AlignKeeps { s0 with alignDue := false, delaysDue := false } (alignmentBegun s0) :=
    (logMeasured_alignKeeps .f0 _).trans (logMeasured_alignKeeps .f1 _)
  have hall : allLanes (alignmentBegun s0) = all := (allLanes_of_alignKeeps hbegun).trans rfl
  obtain ⟨hended, hvalues⟩ := alignAndLog_values s0.delaysDue (alignmentBegun s0) (by rwa [hall]) (by rwa [hall]) (by rwa [hall])
  rw [hall] at hvalues
  exact ⟨_, hexec, hended.trans hbegun.alignDue, hvalues⟩

/-! ### Drift (R276) -/

theorem faultBit_withhold (c k : Nat) (s : State) : faultBit c (withhold k s).regs = faultBit c s.regs := by
  unfold withhold
  split
  · rfl
  · simp [decide1, putLastCode, timeMarks, wait, faultBit]

/-- A re-measurement that falls due, or is withheld, leaves the lanes of every link, the faults and the Catalogue. -/
theorem remeasureDue_keeps (l : FLink) (code : Nat) (s : State) : (flink l (remeasureDue l code s)).lanes = (flink l s).lanes
    ∧ (∀ c, faultBit c (remeasureDue l code s).regs = faultBit c s.regs) ∧ (remeasureDue l code s).inForce = s.inForce := by
  refine ⟨?_, fun c => ?_, by simp⟩
  · unfold remeasureDue
    dsimp only
    split
    · rfl
    · split
      · rw [flink_setFlink]
      · cases l <;> rfl
  · unfold remeasureDue
    dsimp only
    split
    · rfl
    · split
      · simpa using faultBit_withhold c 3 s
      · cases l <;> rfl

/-- LINK_DRIFT is set, and a re-measurement falls due unless the host has taken its class. -/
def driftNoted (l : FLink) (s : State) : State :=
  if overridden 3 s then setFault fcLinkDrift s else remeasureDue l 8 (setFault fcLinkDrift s)

theorem driftNoted_effect (l : FLink) (s : State) : faultSet fcLinkDrift (driftNoted l s)
    ∧ (flink l (driftNoted l s)).lanes = (flink l s).lanes ∧ (driftNoted l s).inForce = s.inForce := by
  have hfault : faultSet fcLinkDrift (setFault fcLinkDrift s) := setFault_bit _ _ rfl (by decide)
  have hlanes : flink l (setFault fcLinkDrift s) = flink l s := by cases l <;> simp [flink]
  obtain ⟨hkept, hfaults, hforce⟩ := remeasureDue_keeps l 8 (setFault fcLinkDrift s)
  unfold driftNoted
  split
  · exact ⟨hfault, by rw [hlanes], by simp⟩
  · exact ⟨(hfaults _).trans hfault, by rw [hkept, hlanes], hforce.trans (by simp)⟩

/-- A lane that drift has made suspect from a cycle on. -/
def suspectLane (now : Nat) (x : Lane) : Lane := { x with suspectFrom := some (x.suspectFrom.getD now) }

theorem drift_eq (l : FLink) (i : Nat) (d : Int) (s : State) (h : 16 ≤ d.natAbs) : drift l i d s = if d.natAbs < 24 then driftNoted l s
    else retrainLink l false (markFault (setLane l i (suspectLane s.power.fclk (lane l i (driftNoted l s))) (driftNoted l s))) :=
  if_neg (Nat.not_lt.2 h)

theorem exec_arrivalDrift (l : FLink) (i : Nat) (d : Int) (s : State) (hup : (lane l i s).state = .up) :
    exec (.arrivalDrift l i d) s = .next (drift l i d s) := congrArg Host.Outcome.next (if_pos hup)

/-- A link that is to be trained keeps its lanes and the faults; where the Catalogue names it, its training is due. -/
theorem retrainLink_effect (l : FLink) (full : Bool) (s : State) : (flink l (retrainLink l full s)).lanes = (flink l s).lanes
    ∧ (retrainLink l full s).regs = s.regs ∧ (linkNamed l s = true → (flink l (retrainLink l full s)).retrainDue = true) := by
  unfold retrainLink
  split
  · exact ⟨by rw [flink_setFlink], by simp, fun _ => by rw [flink_setFlink]⟩
  · next hnot => exact ⟨rfl, rfl, fun h => absurd h hnot⟩

theorem driftMakesSuspect (l : FLink) (i : Nat) (d : Int) (s : State) (hi : i < (flink l s).lanes.length) (h : 24 ≤ d.natAbs) :
    faultSet fcLinkDrift (drift l i d s) ∧ (lane l i (drift l i d s)).suspectFrom.isSome = true
    ∧ (linkNamed l s = true → (flink l (drift l i d s)).retrainDue = true) := by
  obtain ⟨hfault, hlanes, hforce⟩ := driftNoted_effect l s
  rw [drift_eq l i d s (by omega), if_neg (by omega)]
  generalize driftNoted l s = u at hfault hlanes hforce
  have hsuspect := lane_setLane l i (suspectLane s.power.fclk (lane l i u)) u (hlanes ▸ hi)
  obtain ⟨hkept, hregs, hdue⟩ := retrainLink_effect l false (markFault (setLane l i (suspectLane s.power.fclk (lane l i u)) u))
  refine ⟨?_, ?_, fun hnamed => hdue ?_⟩
  · rw [faultSet, hregs]
    simpa [faultSet] using hfault
  · have hmark : ∀ v : State, flink l (markFault v) = flink l v := fun v => by cases l <;> rfl
    rw [lane, hkept, hmark, ← lane, hsuspect]
    rfl
  · simpa [linkNamed, hforce] using hnamed

theorem driftIsNoted (l : FLink) (i : Nat) (d : Int) (s : State) (hi : i < (flink l s).lanes.length) (hup : (lane l i s).state = .up) :
    (d.natAbs < 16 → exec (.arrivalDrift l i d) s = .next s)
    ∧ (16 ≤ d.natAbs → ∃ t, exec (.arrivalDrift l i d) s = .next t ∧ faultSet fcLinkDrift t
      ∧ (24 ≤ d.natAbs → (lane l i t).suspectFrom.isSome = true ∧ (linkNamed l s = true → (flink l t).retrainDue = true))) := by
  refine ⟨fun h => (exec_arrivalDrift l i d s hup).trans (congrArg _ (if_pos h)), fun h => ⟨_, exec_arrivalDrift l i d s hup, ?_⟩⟩
  by_cases hlarge : 24 ≤ d.natAbs
  · obtain ⟨hfault, hsuspect⟩ := driftMakesSuspect l i d s hi hlarge
    exact ⟨hfault, fun _ => hsuspect⟩
  · rw [drift_eq l i d s h, if_pos (by omega)]
    exact ⟨(driftNoted_effect l s).1, fun h24 => absurd h24 hlarge⟩

/-! ### Re-measurement (R389) -/

/-- An up lane takes the echo time that a re-measurement found for it. -/
def remeasuredLane (e : Option (Nat × Nat)) (x : Lane) : Lane :=
  match e with
  | some e => if x.state = .up then { x with echo64 := e.2 } else x
  | none => x

/-- A link whose re-measurement has ended. -/
def remeasuredLink (temp : Int) (es : List (Nat × Nat)) (k : FieldLink) : FieldLink :=
  { k with
    lanes := (List.range 32).map (fun i => remeasuredLane (es.find? (fun e => e.1 = i)) (lget {} k.lanes i))
    remeasureDue := false, measured := true, tempAtEcho := temp }

theorem flink_remeasured (l : FLink) (es : List (Nat × Nat)) (s : State) :
    flink l (remeasured l es s) = remeasuredLink (linkTemp l s) es (flink l s) := by
  cases l <;> rfl

/-- MEASURING stands while the other link still measures. -/
theorem measuring_remeasured (l : FLink) (es : List (Nat × Nat)) (s : State) :
    (remeasured l es s).regs.surveyStatus.getLsbD 3 = (flink (otherLink l) s).remeasureDue := by
  have hbusy : ∀ (w : Word) (b : Bool), (setBit w 3 b).getLsbD 3 = b := fun w b => by rw [getLsbD_setBit]; simp
  cases l
  · exact (hbusy _ _).trans (Bool.false_or _)
  · exact (hbusy _ _).trans (Bool.or_false _)

theorem remeasurementEnds (l : FLink) (i : Nat) (es : List (Nat × Nat)) (s : State) (hdue : (flink l s).remeasureDue = true)
    (hup : 2 ≤ linkState l s) :
    ∃ t, exec (.remeasurementDone l es) s = .next t ∧ (flink l t).remeasureDue = false ∧ t.alignDue = true
      ∧ (∀ e, es.find? (fun e => e.1 = i) = some e → i < 32 → (lane l i s).state = .up → (lane l i t).echo64 = e.2)
      ∧ t.regs.surveyStatus.getLsbD 3 = (flink (otherLink l) s).remeasureDue ∧ t.coffset = s.coffset := by
  refine ⟨_, congrArg Host.Outcome.next (if_pos (by simp [hdue, hup])), ?_, rfl, fun e he h32 hstate => ?_, measuring_remeasured l es s,
    by simp [remeasured]⟩
  · rw [flink_remeasured]
    rfl
  · have hrange : lget 0 (List.range 32) i = i := by simp [lget, h32]
    rw [lane, flink_remeasured, remeasuredLink, lget_map_of_lt 0 _ _ _ _ (by simpa using h32), hrange, he, ← lane]
    simp only [remeasuredLane, hstate, if_true]

theorem driftIsMeasured : Claims.DriftIsMeasured := fun l i d es s hi =>
  ⟨driftIsNoted l i d s hi, remeasurementEnds l i es s⟩

/-- Settles O41: each lane's RPAD and delay are its distance from the common maxima, and no other lane's turn changes them. -/
theorem linksAlign : Obligations.LinksAlign :=
  ⟨alignmentIsCommon, driftIsMeasured⟩

end Sys2Proof.Machine
end

section
/-! PROOF. Host rings: a consumer index beyond the last writeback (O22); the stimulus DMA over a store that is not canonical (O21). -/

namespace Sys2Proof.Machine

/-! ### Room in a host ring (R303) -/

theorem effCons_of_beyond (c : RingChannel) (h : (c.cons - BitVec.ofNat 32 c.lastWb).toNat < 2 ^ 31) :
    effCons c = BitVec.ofNat 32 c.lastWb := if_pos h

/-- Settles O22: both channels use the index of the last writeback. -/
theorem consumerBeyondWriteback : Obligations.ConsumerBeyondWriteback := by
  intro c i hbeyond
  have hequal : effCons { c with cons := BitVec.ofNat 32 c.lastWb } = BitVec.ofNat 32 c.lastWb := effCons_of_beyond _ (by simp)
  rw [hostRoom, hostRoom, effCons_of_beyond c hbeyond, hequal]

/-! ### A stimulus copy over a byte listed twice (R509, R609) -/

/-- A copy of one byte to address 0, where Common Store lists that byte twice: `Memory.wf` does not hold, and the statement does not ask
for it. -/
def byteListedTwice : State :=
  { State.reset with
    power := { State.reset.power with field := .armed }
    store := { State.reset.store with cs := [(0, 1#8), (0, 2#8)] }
    stream := { State.reset.stream with sBusy := true, sLen := 1 } }

/-- Writing 0 removes the first entry of the byte, and the second one shows. -/
theorem csByte_after_zero : csByte 0 (csPutAll 0 [0#8] byteListedTwice.store) = 2#8 := by decide

theorem not_stimulusDma : ¬ Claims.StimulusDma := by
  intro h
  obtain ⟨-, -, -, hends⟩ := h byteListedTwice [0#8]
  obtain ⟨t, -, ht, -, hstored⟩ := hends rfl (by decide) rfl rfl
  have hzero : csByte 0 (csPutAll 0 [0#8] byteListedTwice.store) = 0#8 := by
    have := hstored 0 (by decide)
    rwa [ht] at this
  exact absurd (csByte_after_zero.symm.trans hzero) (by decide)

/-- Refutes O21: a zero byte copied over a byte that Common Store lists twice reads back as the second entry, not as 0. -/
theorem not_streamRegisters : ¬ Obligations.StreamRegisters := fun ⟨_, _, hstimulus⟩ => not_stimulusDma hstimulus

end Sys2Proof.Machine
end

section
/-! PROOF. Ledger queues: offered records, lost records and gap records (O42). -/

namespace Sys2Proof.Machine

/-! ### Ledgers by name -/

theorem ledger_of_ledgers {s t : State} (h0 : t.ledger0 = s.ledger0) (h1 : t.ledger1 = s.ledger1) (l : FLink) :
    ledger l t = ledger l s := by
  cases l
  · exact h0
  · exact h1

@[simp] theorem setLedger_ledger (l : FLink) (s : State) : setLedger l (ledger l s) s = s := by cases l <;> rfl

@[simp] theorem ledger_modBatch (l : FLink) (n : DWord) (f : Batch → Batch) (s : State) : ledger l (modBatch n f s) = ledger l s :=
  ledger_of_ledgers (by simp) (by simp) l

/-! ### The order of entry (R294) -/

theorem insertRec_perm (r : QRec) (rs : List QRec) : (insertRec r rs).Perm (r :: rs) := by
  induction rs with
  | nil => exact .refl _
  | cons x rest ih =>
    unfold insertRec
    split
    · exact .refl _
    · exact (ih.cons x).trans (.swap r x rest)

theorem insertRec_sorted (r : QRec) (rs : List QRec) (h : rs.Pairwise (fun a b => entryKey a ≤ entryKey b)) :
    (insertRec r rs).Pairwise (fun a b => entryKey a ≤ entryKey b) := by
  induction rs with
  | nil => exact List.pairwise_singleton _ _
  | cons x rest ih =>
    obtain ⟨hx, hrest⟩ := List.pairwise_cons.1 h
    unfold insertRec
    split
    · next hlt => exact List.pairwise_cons.2 ⟨List.forall_mem_cons.2 ⟨hlt.le, fun y hy => hlt.le.trans (hx y hy)⟩, h⟩
    · next hle =>
      refine List.pairwise_cons.2 ⟨fun y hy => ?_, ih hrest⟩
      rcases List.mem_cons.1 ((insertRec_perm r rest).mem_iff.1 hy) with rfl | hy
      · exact Nat.le_of_not_lt hle
      · exact hx y hy

theorem foldl_insertRec_perm (rs acc : List QRec) : (rs.foldl (fun acc r => insertRec r acc) acc).Perm (rs ++ acc) := by
  induction rs generalizing acc with
  | nil => exact .refl _
  | cons r rest ih => exact (ih _).trans (((insertRec_perm r acc).append_left rest).trans List.perm_middle)

theorem sortRecs_perm (rs : List QRec) : (sortRecs rs).Perm rs := by
  simpa [sortRecs] using foldl_insertRec_perm rs []

theorem sortRecs_sorted (rs : List QRec) : (sortRecs rs).Pairwise (fun a b => entryKey a ≤ entryKey b) :=
  List.foldlRecOn rs _ (motive := List.Pairwise fun a b => entryKey a ≤ entryKey b) .nil fun _ h r _ => insertRec_sorted r _ h

/-! ### Room and no room (R295, R297) -/

theorem queueRoom_of_lt (l : FLink) (r : QRec) (s : State) (h : (ledger l s).queue.length < 56) : queueRoom l r s = true := by
  unfold queueRoom
  split <;> simp <;> omega

theorem queueRoom_of_full (l : FLink) (r : QRec) (s : State) (h : 64 ≤ (ledger l s).queue.length) : queueRoom l r s = false := by
  unfold queueRoom
  split <;> simp <;> omega

/-- With room for all of them, as many records as the cycle may take enter in their order. -/
theorem enterOffered_of_room (l : FLink) (rs : List QRec) (n : Nat) (s : State) (hn : rs.length ≤ n) (hwait : (ledger l s).waiting = [])
    (hroom : (ledger l s).queue.length + rs.length ≤ 56) :
    enterOffered l rs n s = setLedger l { ledger l s with queue := (ledger l s).queue ++ rs } s := by
  induction rs generalizing n s with
  | nil =>
    rw [List.append_nil]
    exact (setLedger_ledger l s).symm
  | cons r rest ih =>
    rw [List.length_cons] at hn hroom
    have henters : (n ≠ 0 && queueRoom l r s && !gapWaits r (ledger l s).waiting) = true := by
      simp [queueRoom_of_lt l r s (by omega), hwait, gapWaits]
      omega
    rw [enterOffered, if_pos henters, ih _ _ (by omega) (by simpa [enqueue] using hwait) (by simp [enqueue]; omega)]
    simp [enqueue]

/-- A cycle that begins with no record waiting and no gap entered. -/
theorem enterRecords_of_none_waiting (l : FLink) (s : State) (hwait : (ledger l s).waiting = []) : enterRecords l s
    = enterOffered l (sortRecs (ledger l s).offered) (4 - (ledger l s).gapsEntered)
      (setLedger l { ledger l s with offered := [], gapsEntered := 0 } s) := by
  simp [enterRecords, hwait, enterWaiting]

theorem recordsEnterInOrder (l : FLink) (s : State) (hwait : (ledger l s).waiting = []) (hgaps : (ledger l s).gapsEntered = 0)
    (hfour : (ledger l s).offered.length ≤ 4) (hroom : (ledger l s).queue.length + (ledger l s).offered.length ≤ 56) :
    ∃ rs, rs.Perm (ledger l s).offered ∧ rs.Pairwise (fun a b => entryKey a ≤ entryKey b)
      ∧ exec (.recordEnter l) s
        = .next (setLedger l { ledger l s with offered := [], queue := (ledger l s).queue ++ rs } s) := by
  have hlength := (sortRecs_perm (ledger l s).offered).length_eq
  refine ⟨_, sortRecs_perm _, sortRecs_sorted _, congrArg Host.Outcome.next ?_⟩
  rw [enterRecords_of_none_waiting l s hwait, hgaps, enterOffered_of_room _ _ _ _ (by omega) (by simpa using hwait)
    (by simp; omega)]
  simp [← hgaps]

/-! ### Lost records and gaps (R295, R296) -/

theorem addLost_of_none (r : QRec) (b : Batch) (h : b.lost = []) :
    addLost r b = { b with lost := [⟨recSite r.bits, 1, recPattern r.bits, recCycle r.bits⟩] } := by
  simp [addLost, h]

theorem loseRec_of_first (l : FLink) (r : QRec) (n : DWord) (s : State) (hwait : (ledger l s).waiting = []) (hr : r.batch = some n) :
    loseRec l r s = setLedger l { ledger l s with waiting := [gapMarker n (recSite r.bits)] } (modBatch n (addLost r) s) := by
  simp [loseRec, hr, hwait, gapWaits]

theorem mem_modBatch_of_findBatch {n : DWord} {s : State} {b : Batch} (f : Batch → Batch) (h : findBatch n s = some b) :
    f b ∈ (modBatch n f s).batches := by
  have hn : b.d.batch = n := by simpa using List.find?_some h
  exact (mem_modBatch n f s _).2 ⟨b, List.mem_of_find?_eq_some h, (if_pos hn).symm⟩

theorem fullQueueLosesRecord (l : FLink) (r : QRec) (n : DWord) (b : Batch) (s : State) (hwait : (ledger l s).waiting = [])
    (hoffered : (ledger l s).offered = [r]) (hfull : 64 ≤ (ledger l s).queue.length) (hr : r.batch = some n)
    (hb : findBatch n s = some b) (hlost : b.lost = []) :
    ∃ t, exec (.recordEnter l) s = .next t ∧ (ledger l t).queue = (ledger l s).queue ∧ (ledger l t).offered = []
      ∧ (ledger l t).waiting = [gapMarker n (recSite r.bits)]
      ∧ ∃ b' ∈ t.batches, b'.d = b.d ∧ b'.lost = [⟨recSite r.bits, 1, recPattern r.bits, recCycle r.bits⟩] := by
  have henter : enterRecords l s = loseRec l r (setLedger l { ledger l s with offered := [], gapsEntered := 0 } s) := by
    have hno : queueRoom l r (setLedger l { ledger l s with offered := [], gapsEntered := 0 } s) = false :=
      queueRoom_of_full l r _ (by simpa using hfull)
    rw [enterRecords_of_none_waiting l s hwait, hoffered, show sortRecs [r] = [r] from rfl, enterOffered, hno]
    simp [enterOffered]
  refine ⟨_, congrArg Host.Outcome.next henter, ?_⟩
  rw [loseRec_of_first l r n _ (by simpa using hwait) hr]
  refine ⟨by simp, by simp, by simp, addLost r b, ?_, ?_⟩
  · have hmem := mem_modBatch_of_findBatch (addLost r) (s := setLedger l { ledger l s with offered := [], gapsEntered := 0 } s)
      (by simpa [findBatch] using hb)
    simpa using hmem
  · simp [addLost_of_none r b hlost]

@[simp] theorem setFailStatus_keeps (w : Word) (s : State) :
    (setFailStatus w s).ledger0 = s.ledger0 ∧ (setFailStatus w s).ledger1 = s.ledger1 ∧ (setFailStatus w s).batches = s.batches := by
  unfold setFailStatus
  dsimp only
  split <;> simp

@[simp] theorem ledger_setFailStatus (l : FLink) (w : Word) (s : State) : ledger l (setFailStatus w s) = ledger l s :=
  ledger_of_ledgers (by simp) (by simp) l

@[simp] theorem setFailStatus_failStatus (w : Word) (s : State) : (setFailStatus w s).regs.failStatus = s.regs.failStatus ||| w := by
  unfold setFailStatus
  dsimp only
  split <;> simp

theorem setFailStatus_eventSet (w : Word) (s : State) (h : s.regs.failStatus ||| w ≠ s.regs.failStatus) :
    eventSet evLedger (setFailStatus w s) := by
  simp only [setFailStatus, h, if_false]
  exact eventSet_setEvent _ _ (by decide)

@[simp] theorem fieldEvent_keeps (ev detail : Nat) (s : State) :
    (fieldEvent ev detail s).ledger0 = s.ledger0 ∧ (fieldEvent ev detail s).ledger1 = s.ledger1
    ∧ (fieldEvent ev detail s).batches = s.batches ∧ (fieldEvent ev detail s).regs = s.regs := by
  simp [fieldEvent]

@[simp] theorem ledger_fieldEvent (l : FLink) (ev detail : Nat) (s : State) : ledger l (fieldEvent ev detail s) = ledger l s :=
  ledger_of_ledgers (by simp) (by simp) l

/-- The OVERFLOW bit of a link (R319). -/
theorem overflow_set (l : FLink) (w : Word) : (w ||| BitVec.twoPow 16 (linkNum l)).getLsbD (linkNum l) = true := by
  have hlink : linkNum l < 16 := by cases l <;> decide
  rw [getLsbD_or_twoPow]
  simp [hlink]

theorem gapRecordEnters (l : FLink) (site : Nat) (n : DWord) (x : Lost) (s : State) (h : gapReady l site s = some (n, x)) :
    ∃ t, exec (.gapRecord l site) s = .next t ∧ (ledger l t).queue = (ledger l s).queue ++ [gapRecord n x]
      ∧ t.regs.failStatus.getLsbD (linkNum l) = true
      ∧ (s.regs.failStatus.getLsbD (linkNum l) = false → eventSet evLedger t)
      ∧ (∀ b ∈ t.batches, b.d.batch = n → b.lost.any (fun y => y.site = x.site) = false) := by
  have hexec : exec (.gapRecord l site) s = .next (placeGap l n x s) := by simp only [exec, execGapRecord, h]
  refine ⟨_, hexec, ?_, ?_, fun hclear => ?_, fun b hb hn => ?_⟩
  · simp [placeGap, fieldEventFree]
  · simp only [placeGap, fieldEventFree, fieldEvent_keeps, setFailStatus_failStatus, overflow_set]
  · simp only [placeGap, fieldEventFree, eventSet, fieldEvent_keeps]
    refine setFailStatus_eventSet _ _ fun hsame => ?_
    have hset := overflow_set l s.regs.failStatus
    simp only [modBatch_fields, setLedger_fields] at hsame
    rw [hsame, hclear] at hset
    contradiction
  · simp only [placeGap, fieldEventFree, fieldEvent_keeps, setFailStatus_keeps] at hb
    obtain ⟨a, -, rfl⟩ := (mem_modBatch _ _ _ _).1 hb
    by_cases ha : a.d.batch = n
    · simp [ha]
    · rw [if_neg ha] at hn
      exact absurd hn ha

theorem queueTakesRecords : Claims.QueueTakesRecords := fun l s =>
  ⟨recordsEnterInOrder l s, fun r n b hwait hoffered hfull hr hb hlost => fullQueueLosesRecord l r n b s hwait hoffered hfull hr hb hlost,
    fun site n x => gapRecordEnters l site n x s⟩

end Sys2Proof.Machine
end

section
/-! PROOF. Ledgers: from the queue to the ring, across, and into host memory (O42). -/

namespace Sys2Proof.Machine

/-! ### What leaves the Ledgers and the host rings alone -/

theorem channel_of_stream {s t : State} (h : t.stream = s.stream) (l : FLink) : channel l t = channel l s := by
  cases l <;> simp [channel, h]

@[simp] theorem channel_putHeld (l : FLink) (s : State) : channel l (putHeld s) = channel l s := rfl

@[simp] theorem channel_setLedger (k l : FLink) (q : Ledger) (s : State) : channel k (setLedger l q s) = channel k s :=
  channel_of_stream (by simp) k

@[simp] theorem channel_popHostInbox (l : FLink) (typ : Nat) (s : State) : channel l (popHostInbox typ s) = channel l s := rfl

@[simp] theorem ledger_sendMsg (l : FLink) (d : Dir) (typ n v : Nat) (s : State) : ledger l (sendMsg d typ n v s) = ledger l s :=
  ledger_of_ledgers (by simp) (by simp) l

@[simp] theorem ledger_csWrite (l : FLink) (a : Nat) (bs : List Byte) (s : State) : ledger l (csWrite a bs s) = ledger l s :=
  ledger_of_ledgers rfl rfl l

@[simp] theorem ledger_putHeld (l : FLink) (s : State) : ledger l (putHeld s) = ledger l s := ledger_of_ledgers rfl rfl l

@[simp] theorem ledger_popHostInbox (l : FLink) (typ : Nat) (s : State) : ledger l (popHostInbox typ s) = ledger l s :=
  ledger_of_ledgers rfl rfl l

@[simp] theorem ledger_hostWrite (l : FLink) (addr n v : Nat) (s : State) : ledger l (hostWrite addr n v s) = ledger l s :=
  ledger_of_ledgers rfl rfl l

@[simp] theorem ledger_setChannel (k l : FLink) (c : RingChannel) (s : State) : ledger k (setChannel l c s) = ledger k s :=
  ledger_of_ledgers (by simp) (by simp) k

@[simp] theorem ledger_csReadCounts (l : FLink) (a n : Nat) (s : State) : ledger l (csReadCounts a n s) = ledger l s := by
  induction n generalizing a s with
  | zero => rfl
  | succ n ih => exact (ih _ _).trans (ledger_of_ledgers (by simp) (by simp) l)

@[simp] theorem ledger_readRingSlot (k l : FLink) (slot index : Nat) (s : State) :
    ledger k (readRingSlot l slot index s).2 = ledger k s := by
  have hfault : ∀ code detail u, ledger k (faultEvent code detail u) = ledger k u := fun _ _ _ =>
    ledger_of_ledgers (by simp [faultEvent]) (by simp [faultEvent]) k
  simp only [readRingSlot]
  split
  · rw [hfault, ledger_csReadCounts]
  · rw [ledger_csReadCounts]

@[simp] theorem ledger_readRing (k l : FLink) (rs : List RingRec) (index : Nat) (s : State) :
    ledger k (readRing l rs index s).2 = ledger k s := by
  induction rs generalizing index s with
  | nil => rfl
  | cons r rest ih => exact (ih _ _).trans (ledger_readRingSlot _ _ _ _ _)

/-! ### Records on their way (R298, R300) -/

/-- The records that have left the queue and not reached the host die, in order. -/
def onTheWay (q : Ledger) : List QRec := q.flying.map (fun f => f.qrec) ++ q.ring.map (fun x => x.qrec)

/-- The Ledger's records at most move along the way: its queue and its counters stand. -/
def movedAlong (q q' : Ledger) : Prop :=
  onTheWay q' = onTheWay q ∧ q'.queue = q.queue ∧ q'.seq = q.seq ∧ q'.linkSeq = q.linkSeq

/-- The records read are those of the ring, whatever bits a slot delivers. -/
theorem readRing_qrecs (l : FLink) (rs : List RingRec) (index : Nat) (s : State) :
    (readRing l rs index s).1.map (fun f => f.qrec) = rs.map (fun x => x.qrec) := by
  induction rs generalizing index s with
  | nil => rfl
  | cons r rest ih => exact congrArg (r.qrec :: ·) (ih _ _)

/-- A cell takes the records at the head of the ring. -/
theorem sendLedger_movedAlong (l : FLink) (s : State) : movedAlong (ledger l s) (ledger l (sendLedger l s)) := by
  unfold sendLedger
  dsimp only
  split
  · exact ⟨rfl, rfl, rfl, rfl⟩
  · simp only [movedAlong, ledger_sendMsg, ledger_setLedger, ledger_readRing, onTheWay, and_true]
    rw [List.map_append, readRing_qrecs, List.append_assoc, ← List.map_append, List.take_append_drop]

/-- A commit record that passes on marks its batch and the counters of its commit. -/
theorem notePassed_movedAlong (l : FLink) (r : QRec) (s : State) : movedAlong (ledger l s) (ledger l (notePassed l r s)) := by
  unfold notePassed
  split
  · split
    · exact ⟨rfl, rfl, rfl, rfl⟩
    · simp [movedAlong, onTheWay]
  · exact ⟨rfl, rfl, rfl, rfl⟩

/-- What passing a record on does to a Ledger, its own marks of the passage aside: `q` numbers the record. -/
def passed (r : QRec) (q q' : Ledger) : Prop :=
  onTheWay q' = onTheWay q ++ [r] ∧ q'.queue = q.queue.erase r ∧ q'.seq = (takeSeq r.bits q).2.seq
    ∧ q'.linkSeq = (takeSeq r.bits q).2.linkSeq

theorem passed_of_movedAlong {r : QRec} {q q1 q2 : Ledger} (h : passed r q q1) (k : movedAlong q1 q2) : passed r q q2 := by
  obtain ⟨hway, hqueue, hseq, hlink⟩ := h
  obtain ⟨kway, kqueue, kseq, klink⟩ := k
  exact ⟨kway.trans hway, kqueue.trans hqueue, kseq.trans hseq, klink.trans hlink⟩

theorem takeSeq_flying (r : Record) (q : Ledger) : (takeSeq r q).2.flying = q.flying := by
  unfold takeSeq
  split <;> rfl

theorem passOn_passed (l : FLink) (r : QRec) (s : State) : passed r (ledger l s) (ledger l (passOn l r s)) := by
  simp only [passOn, ledger_csWrite]
  refine passed_of_movedAlong ?_ (notePassed_movedAlong _ _ _)
  simp [passed, onTheWay, takeSeq_flying]

theorem nextRecordPassesOn (l : FLink) (r : QRec) (s : State) (hnext : nextToPass l s = some r)
    (hroom : (ledger l s).ring.length < ringRecords l s) :
    ∃ t, exec (.recordPassOn l) s = .next t ∧ passed r (ledger l s) (ledger l t) := by
  have hpass : passNext l s = passOn l r s := by simp only [passNext, hnext, hroom, if_true]
  refine ⟨_, rfl, ?_⟩
  rw [ledger_putHeld, hpass]
  exact passed_of_movedAlong (passOn_passed l r s) (sendLedger_movedAlong _ _)

theorem noRecordPassesOn (l : FLink) (s : State) (h : nextToPass l s = none ∨ ringRecords l s ≤ (ledger l s).ring.length) :
    ∃ t, exec (.recordPassOn l) s = .next t ∧ movedAlong (ledger l s) (ledger l t) := by
  have hpass : passNext l s = s := by
    unfold passNext
    split
    · next r hr => exact if_neg (Nat.not_lt.2 (h.resolve_left (by simp [hr])))
    · rfl
  refine ⟨_, rfl, ?_⟩
  rw [ledger_putHeld, hpass]
  exact sendLedger_movedAlong _ _

theorem recordsPassOn : Claims.RecordsPassOn := by
  refine fun l s => ⟨fun r hnext hroom => ?_, noRecordPassesOn l s⟩
  obtain ⟨t, ht, hway, hqueue, hseq, hlink⟩ := nextRecordPassesOn l r s hnext hroom
  refine ⟨t, ht, hway, hqueue, fun his => ?_, fun his => ?_⟩
  · exact ⟨by simp [hlink, takeSeq, his], by simp [hseq, takeSeq, his]⟩
  · refine ⟨by simp [hlink, takeSeq, his], ?_, fun x hx => ?_⟩
    · simp [hseq, takeSeq, his]
    · simp [hseq, takeSeq, his, tget_tset_ne _ _ _ _ _ hx]

/-! ### A record that has crossed (R300) -/

/-- A record that is no commit, verdict or link record is written to its slot, and the numbering moves on. -/
theorem writeHostRecord_of_plain (l : FLink) (f : FlightRec) (s : State) (h3 : recKind f.bits ≠ 3) (h7 : recKind f.bits ≠ 7)
    (h8 : recKind f.bits ≠ 8) : writeHostRecord l f s = setChannel l { channel l s with next := (channel l s).next + 1 }
      (hostWrite ((channel l s).base.toNat + 16 * ((channel l s).next % 2 ^ (channel l s).size.toNat)) 16 f.bits.toNat s) := by
  simp [writeHostRecord, h3, h7, h8]

theorem takeLedgerCell_of_one (l : FLink) (f : FlightRec) (bits : Record) (s : State) (hflying : (ledger l s).flying = [f])
    (hkeep : f.keep = true) (hcrossed : (ledger l s).crossed = []) : takeLedgerCell l [bits] s
      = drainCrossed l [{ f with bits := bits }] (setLedger l { ledger l s with flying := [] } s) := by
  simp [takeLedgerCell, hflying, hkeep, hcrossed]

theorem exec_ledgerBatch_of_one (l : FLink) (f : FlightRec) (bits : Record) (s : State) (hflying : (ledger l s).flying = [f])
    (hkeep : f.keep = true) (hcrossed : (ledger l s).crossed = []) : exec (.ledgerBatch l [bits]) s = .next (putHeld
      (drainCrossed l [{ f with bits := bits }] (setLedger l { ledger l s with flying := [] } (popHostInbox 0x06 s)))) := by
  simp only [exec, execLedgerBatch]
  rw [takeLedgerCell_of_one l f bits _ (by simpa using hflying) hkeep (by simpa using hcrossed), ledger_popHostInbox]

theorem crossedRecordIsWritten (l : FLink) (f : FlightRec) (bits : Record) (s : State) (hflying : (ledger l s).flying = [f])
    (hkeep : f.keep = true) (hcrossed : (ledger l s).crossed = []) (h3 : recKind bits ≠ 3) (h7 : recKind bits ≠ 7)
    (h8 : recKind bits ≠ 8) (hroom : hostRoom (channel l s) (channel l s).next = true) :
    ∃ t, exec (.ledgerBatch l [bits]) s = .next t
      ∧ t.hostOut = s.hostOut ++ [.memWrite ((channel l s).base.toNat + 16 * ((channel l s).next % 2 ^ (channel l s).size.toNat))
          (bytesOf 16 bits.toNat)]
      ∧ channel l t = { channel l s with next := (channel l s).next + 1 } ∧ (ledger l t).crossed = [] ∧ (ledger l t).flying = [] := by
  have hchannel : channel l (setLedger l { ledger l s with flying := [] } (popHostInbox 0x06 s)) = channel l s := by simp
  refine ⟨_, exec_ledgerBatch_of_one l f bits s hflying hkeep hcrossed, ?_⟩
  rw [drainCrossed, hchannel, if_pos hroom, writeHostRecord_of_plain l { f with bits := bits } _ h3 h7 h8, hchannel, drainCrossed]
  exact ⟨by simp [putHeld, hostWrite, emit], by simp, by simp, by simp⟩

theorem crossedRecordIsHeld (l : FLink) (f : FlightRec) (bits : Record) (s : State) (hflying : (ledger l s).flying = [f])
    (hkeep : f.keep = true) (hcrossed : (ledger l s).crossed = []) (hfull : hostRoom (channel l s) (channel l s).next = false) :
    ∃ t, exec (.ledgerBatch l [bits]) s = .next t ∧ t.hostOut = s.hostOut ∧ channel l t = channel l s
      ∧ (ledger l t).crossed = [{ f with bits := bits }] ∧ (ledger l t).flying = [] := by
  have hchannel : channel l (setLedger l { ledger l s with flying := [] } (popHostInbox 0x06 s)) = channel l s := by simp
  refine ⟨_, exec_ledgerBatch_of_one l f bits s hflying hkeep hcrossed, ?_⟩
  rw [drainCrossed, hchannel, if_neg (by simp [hfull])]
  exact ⟨by simp [putHeld], by simp, by simp, by simp⟩

end Sys2Proof.Machine
end

section
/-! PROOF. Ledgers: the writeback of a commit (O42). -/

namespace Sys2Proof.Machine

/-! ### What follows a writeback only reports (R301, R313) -/

/-- Events, status bits and vectors: they add to what the host is sent and leave FAIL_STATUS, the Ledgers and the stream alone. -/
structure OnlyReports (s t : State) : Prop where
  hostOut : ∃ more, t.hostOut = s.hostOut ++ more
  failStatus : t.regs.failStatus = s.regs.failStatus
  ledger0 : t.ledger0 = s.ledger0
  ledger1 : t.ledger1 = s.ledger1
  stream : t.stream = s.stream

/-- A change that sends the host nothing. -/
theorem OnlyReports.silent {s t : State} (hout : t.hostOut = s.hostOut) (hstatus : t.regs.failStatus = s.regs.failStatus)
    (h0 : t.ledger0 = s.ledger0) (h1 : t.ledger1 = s.ledger1) (hstream : t.stream = s.stream) : OnlyReports s t :=
  ⟨⟨[], by rw [hout, List.append_nil]⟩, hstatus, h0, h1, hstream⟩

theorem OnlyReports.refl (s : State) : OnlyReports s s := .silent rfl rfl rfl rfl rfl

theorem OnlyReports.trans {s t u : State} (h : OnlyReports s t) (k : OnlyReports t u) : OnlyReports s u where
  hostOut := by
    obtain ⟨first, hfirst⟩ := h.hostOut
    obtain ⟨second, hsecond⟩ := k.hostOut
    exact ⟨first ++ second, by rw [hsecond, hfirst, List.append_assoc]⟩
  failStatus := k.failStatus.trans h.failStatus
  ledger0 := k.ledger0.trans h.ledger0
  ledger1 := k.ledger1.trans h.ledger1
  stream := k.stream.trans h.stream

theorem OnlyReports.ite {s t u : State} (c : Prop) [Decidable c] (h : OnlyReports s t) (k : OnlyReports s u) :
    OnlyReports s (if c then t else u) := by
  split
  · exact h
  · exact k

theorem onlyReports_foldl {α : Type} (f : State → α → State) (h : ∀ s a, OnlyReports s (f s a)) (xs : List α) (s : State) :
    OnlyReports s (xs.foldl f s) :=
  List.foldlRecOn xs f (motive := OnlyReports s) (.refl s) fun _ hu a _ => hu.trans (h _ a)

theorem onlyReports_msix (v : Nat) (s : State) : OnlyReports s (msix v s) := ⟨⟨_, rfl⟩, rfl, rfl, rfl, rfl⟩

theorem onlyReports_setEvent (b : Nat) (s : State) : OnlyReports s (setEvent b s) := by
  have hbit : OnlyReports s { s with regs := { s.regs with eventStatus := s.regs.eventStatus ||| BitVec.twoPow 16 b } } :=
    .silent rfl rfl rfl rfl rfl
  exact .ite _ (hbit.trans (onlyReports_msix 0 _)) hbit

theorem onlyReports_setTwinStatus (b : Nat) (s : State) : OnlyReports s (setTwinStatus b s) := by
  have hbit : OnlyReports s { s with regs := { s.regs with twinStatus := s.regs.twinStatus ||| BitVec.twoPow 16 b } } :=
    .silent rfl rfl rfl rfl rfl
  exact .ite _ (.refl s) (.ite _ hbit (hbit.trans (onlyReports_setEvent _ _)))

theorem onlyReports_setSurveyStatus (b : Nat) (s : State) : OnlyReports s (setSurveyStatus b s) := by
  have hbit : OnlyReports s { s with regs := { s.regs with surveyStatus := s.regs.surveyStatus ||| BitVec.twoPow 16 b } } :=
    .silent rfl rfl rfl rfl rfl
  exact .ite _ hbit (hbit.trans (onlyReports_setEvent _ _))

theorem onlyReports_putArrayBit (b : Nat) (v : Bool) (s : State) : OnlyReports s (putArrayBit b v s) :=
  .silent rfl rfl rfl rfl rfl

theorem onlyReports_fieldEvent (ev detail : Nat) (s : State) : OnlyReports s (fieldEvent ev detail s) :=
  .silent rfl rfl rfl rfl rfl

theorem onlyReports_fieldEventFree (ev : Nat) (s : State) : OnlyReports s (fieldEventFree ev s) := onlyReports_fieldEvent ev _ s

theorem onlyReports_modBatch (n : DWord) (f : Batch → Batch) (s : State) : OnlyReports s (modBatch n f s) :=
  .silent rfl rfl rfl rfl rfl

theorem onlyReports_snapshotDone (b : Batch) (s : State) : OnlyReports s (snapshotDone b s) := by
  have htaken : OnlyReports s { s with array := { s.array with snapshotBatch := none } } := .silent rfl rfl rfl rfl rfl
  exact .ite _ (((htaken.trans (onlyReports_putArrayBit _ _ _)).trans (onlyReports_setEvent _ _)).trans
    (onlyReports_fieldEventFree _ _)) (.refl s)

theorem onlyReports_batchVisible (b : Batch) (s : State) : OnlyReports s (batchVisible b s) :=
  .ite _ (((onlyReports_snapshotDone b s).trans (onlyReports_foldl _ (fun s k => onlyReports_setTwinStatus k s) _ _)).trans
    (onlyReports_modBatch _ _ _)) (.refl s)

theorem onlyReports_raiseRepair (l : FLink) (s : State) : OnlyReports s (raiseRepair l s) := by
  have htaken : OnlyReports s { s with repair := { s.repair with eventsDue := s.repair.eventsDue.filter (fun e => e.1 ≠ l) } } :=
    .silent rfl rfl rfl rfl rfl
  exact htaken.trans (onlyReports_foldl _ (fun s _ => (onlyReports_setEvent _ s).trans (onlyReports_fieldEvent _ _ _)) _ _)

/-! ### The writeback (R301, R319) -/

/-- The bits of FAIL_STATUS that a commit sets. -/
def commitBits (d : CommitDue) : Word := BitVec.ofNat 16 (4 * d.indet.toNat + 8 * d.retest.toNat + 16 * d.rerun.toNat)

theorem commitBits_bits (d : CommitDue) : (commitBits d).getLsbD 0 = false ∧ (commitBits d).getLsbD 2 = d.indet
    ∧ (commitBits d).getLsbD 3 = d.retest ∧ (commitBits d).getLsbD 4 = d.rerun := by
  have hbits : ∀ i r e : Bool, let w : Word := BitVec.ofNat 16 (4 * i.toNat + 8 * r.toNat + 16 * e.toNat)
      w.getLsbD 0 = false ∧ w.getLsbD 2 = i ∧ w.getLsbD 3 = r ∧ w.getLsbD 4 = e := by decide
  exact hbits _ _ _

/-- What the writeback of a commit writes: host memory, the ring's last writeback, the commits still due, and FAIL_STATUS. -/
def coverCommit (l : FLink) (d : CommitDue) (rest : List CommitDue) (s : State) : State :=
  let written := setChannel l { channel l s with lastWb := d.index, lastWbBatch := d.batch }
    (hostWrite (channel l s).wb.toNat 8 (d.index % 2 ^ 32 * 2 ^ 32 + d.batch.toNat) s)
  let covered := setLedger l { ledger l written with commitDue := rest } written
  { covered with regs := { covered.regs with failStatus := covered.regs.failStatus ||| commitBits d } }

/-- Besides its bits, a change of FAIL_STATUS only reports. -/
theorem onlyReports_setFailStatus (w : Word) (s : State) :
    OnlyReports { s with regs := { s.regs with failStatus := s.regs.failStatus ||| w } } (setFailStatus w s) :=
  .ite _ (.refl _) (onlyReports_setEvent _ _)

/-- Once the host has the commit and FAIL_STATUS its bits, the rest of a writeback only reports. -/
theorem onlyReports_writeback (l : FLink) (d : CommitDue) (rest : List CommitDue) (s : State) :
    OnlyReports (coverCommit l d rest s) (refreshEndOfTest (writeback l d rest s)) := by
  have hsurvey : ∀ u, OnlyReports u (if d.decided then setSurveyStatus 0 u else u) := fun u =>
    .ite _ (onlyReports_setSurveyStatus 0 u) (.refl u)
  have hvisible : ∀ (o : Option Batch) u, OnlyReports u (match o with | some b => batchVisible b u | none => u) := fun o u => by
    cases o
    · exact .refl u
    · exact onlyReports_batchVisible _ u
  have hvector : ∀ u, OnlyReports u (if notifies d s then msix (3 + linkNum l) u else u) := fun u =>
    .ite _ (onlyReports_msix _ u) (.refl u)
  have hfreed : ∀ u bs, OnlyReports u (refreshEndOfTest { u with batches := bs }) := fun u bs => .silent rfl rfl rfl rfl rfl
  exact (onlyReports_setFailStatus (commitBits d) _).trans ((hsurvey _).trans ((onlyReports_modBatch _ _ _).trans
    ((hvisible _ _).trans ((onlyReports_raiseRepair l _).trans ((hvector _).trans (hfreed _ _))))))

theorem coverCommit_effect (l : FLink) (d : CommitDue) (rest : List CommitDue) (s : State) :
    (coverCommit l d rest s).hostOut
      = s.hostOut ++ [.memWrite (channel l s).wb.toNat (bytesOf 8 (d.index % 2 ^ 32 * 2 ^ 32 + d.batch.toNat))]
    ∧ channel l (coverCommit l d rest s) = { channel l s with lastWb := d.index, lastWbBatch := d.batch }
    ∧ (ledger l (coverCommit l d rest s)).commitDue = rest
    ∧ (coverCommit l d rest s).regs.failStatus = s.regs.failStatus ||| commitBits d := by
  cases l <;> exact ⟨rfl, rfl, rfl, rfl⟩

theorem commitIsWrittenBack (l : FLink) (d : CommitDue) (rest : List CommitDue) (s : State)
    (hdue : (ledger l s).commitDue = d :: rest) : ∃ t more, exec (.ledgerWriteback l) s = .next t
      ∧ t.hostOut = s.hostOut ++ .memWrite (channel l s).wb.toNat (bytesOf 8 (d.index % 2 ^ 32 * 2 ^ 32 + d.batch.toNat)) :: more
      ∧ (channel l t).lastWb = d.index ∧ (channel l t).lastWbBatch = d.batch ∧ (ledger l t).commitDue = rest
      ∧ t.regs.failStatus = s.regs.failStatus ||| commitBits d := by
  have hexec : exec (.ledgerWriteback l) s = .next (refreshEndOfTest (writeback l d rest s)) := by
    simp only [exec, execLedgerWriteback, hdue]
  obtain ⟨hwrite, hchannel, hrest, hstatus⟩ := coverCommit_effect l d rest s
  have hreports := onlyReports_writeback l d rest s
  obtain ⟨more, hmore⟩ := hreports.hostOut
  have hring := channel_of_stream hreports.stream l
  have hledger := ledger_of_ledgers hreports.ledger0 hreports.ledger1 l
  refine ⟨_, more, hexec, ?_, by rw [hring, hchannel], by rw [hring, hchannel], by rw [hledger, hrest],
    hreports.failStatus.trans hstatus⟩
  rw [hmore, hwrite, List.append_assoc]
  rfl

theorem recordsReachTheHost : Claims.RecordsReachTheHost := by
  refine fun l bits s => ⟨fun f hflying hkeep hcrossed h3 h7 h8 => ⟨?_, ?_⟩, fun d rest hdue => ?_⟩
  · exact crossedRecordIsWritten l f bits s hflying hkeep hcrossed h3 h7 h8
  · exact crossedRecordIsHeld l f bits s hflying hkeep hcrossed
  · obtain ⟨t, more, hexec, hout, hindex, hbatch, hrest, hstatus⟩ := commitIsWrittenBack l d rest s hdue
    obtain ⟨h0, h2, h3, h4⟩ := commitBits_bits d
    refine ⟨t, more, hexec, hout, hindex, hbatch, hrest, fun hindet => ?_, fun hretest => ?_, fun hrerun => ?_, ?_⟩
    · rw [hstatus, BitVec.getLsbD_or, h2, hindet, Bool.or_true]
    · rw [hstatus, BitVec.getLsbD_or, h3, hretest, Bool.or_true]
    · rw [hstatus, BitVec.getLsbD_or, h4, hrerun, Bool.or_true]
    · rw [hstatus, BitVec.getLsbD_or, h0, Bool.or_false]

end Sys2Proof.Machine
end

section
/-! PROOF. Ledgers: verdicts, and the commit of a link (O42). -/

namespace Sys2Proof.Machine

/-! ### Verdicts (R305) -/

theorem firstWindow_eq_none (b : Batch) (site : Nat) (h : ∀ w ∈ b.windows, w.site ≠ site) : firstWindow b site = none := by
  have hnone : b.windows.filter (fun w => w.site = site) = [] := List.filter_eq_nil_iff.2 fun w hw => by simpa using h w hw
  simp [firstWindow, hnone]

/-- The first window of a site is one of its windows, and none begins before it. -/
theorem firstWindow_eq_some (b : Batch) (site : Nat) (h : ∃ w ∈ b.windows, w.site = site) : ∃ m, firstWindow b site = some m
    ∧ (∃ w ∈ b.windows, w.site = site ∧ w.first = m) ∧ ∀ w ∈ b.windows, w.site = site → m ≤ w.first := by
  obtain ⟨w, hw, hsite⟩ := h
  have hmem : w.first ∈ (b.windows.filter (fun w => w.site = site)).map (fun w => w.first) :=
    List.mem_map_of_mem (List.mem_filter.2 ⟨hw, by simpa using hsite⟩)
  obtain ⟨m, hm⟩ := Option.isSome_iff_exists.1 (List.isSome_min?_of_mem hmem)
  obtain ⟨hin, hleast⟩ := List.min?_eq_some_iff.1 hm
  refine ⟨m, hm, ?_, fun v hv hvsite => hleast _ (List.mem_map_of_mem (List.mem_filter.2 ⟨hv, by simpa using hvsite⟩))⟩
  obtain ⟨v, hv, hfirst⟩ := List.mem_map.1 hin
  obtain ⟨hv, hvsite⟩ := List.mem_filter.1 hv
  exact ⟨v, hv, by simpa using hvsite, hfirst⟩

theorem siteFails_eq_none (b : Batch) (site : Nat) (h : ∀ f ∈ b.fails, f.1 ≠ site) : siteFails b site = none := by
  have hnone : b.fails.find? (fun f => f.1 = site) = none := List.find?_eq_none.2 fun f hf => by simpa using h f hf
  simp [siteFails, hnone]

theorem siteFails_eq_some (b : Batch) (site : Nat) (h : ∃ f ∈ b.fails, f.1 = site) :
    ∃ f ∈ b.fails, f.1 = site ∧ siteFails b site = some f.2 := by
  obtain ⟨g, hg, hsite⟩ := h
  have hfound : (b.fails.find? (fun f => f.1 = site)).isSome = true := List.find?_isSome.2 ⟨g, hg, by simpa using hsite⟩
  obtain ⟨f, hf⟩ := Option.isSome_iff_exists.1 hfound
  exact ⟨f, List.mem_of_find?_eq_some hf, by simpa using List.find?_some hf, by simp [siteFails, hf]⟩

theorem verdictOf_of_cause (b : Batch) (site k : Nat) (h : (site, k) ∈ b.causes) : verdictOf b site = 2 :=
  if_pos (List.any_eq_true.2 ⟨_, h, by simp⟩)

theorem causes_any_eq_false (b : Batch) (site : Nat) (h : ∀ c ∈ b.causes, c.1 ≠ site) :
    b.causes.any (fun c => c.1 = site) = false :=
  List.any_eq_false.2 fun c hc => by simpa using h c hc

/-- Without a cause a fail counts only before the site's first window. -/
theorem verdictOf_of_window_of_fail (b : Batch) (site m : Nat) (f : Nat × Nat) (hcause : ∀ c ∈ b.causes, c.1 ≠ site)
    (hwindow : firstWindow b site = some m) (hfail : siteFails b site = some f) :
    verdictOf b site = if f.2 < m then 1 else 3 := by
  simp [verdictOf, causes_any_eq_false b site hcause, hwindow, hfail]

theorem verdictOf_of_window (b : Batch) (site m : Nat) (hcause : ∀ c ∈ b.causes, c.1 ≠ site)
    (hwindow : firstWindow b site = some m) (hfail : siteFails b site = none) : verdictOf b site = 3 := by
  simp [verdictOf, causes_any_eq_false b site hcause, hwindow, hfail]

theorem verdictOf_of_fail (b : Batch) (site : Nat) (f : Nat × Nat) (hcause : ∀ c ∈ b.causes, c.1 ≠ site)
    (hwindow : firstWindow b site = none) (hfail : siteFails b site = some f) : verdictOf b site = 1 := by
  simp [verdictOf, causes_any_eq_false b site hcause, hwindow, hfail]

theorem verdictOf_of_none (b : Batch) (site : Nat) (hcause : ∀ c ∈ b.causes, c.1 ≠ site) (hwindow : firstWindow b site = none)
    (hfail : siteFails b site = none) : verdictOf b site = 0 := by
  simp [verdictOf, causes_any_eq_false b site hcause, hwindow, hfail]

theorem verdictOfAWindowedSite (b : Batch) (site : Nat) (hcause : ∀ c ∈ b.causes, c.1 ≠ site)
    (hwindow : ∃ w ∈ b.windows, w.site = site) :
    ((∀ f ∈ b.fails, f.1 = site → ∃ w ∈ b.windows, w.site = site ∧ w.first ≤ f.2.2) → verdictOf b site = 3)
    ∧ (∀ f, b.fails.find? (fun f => f.1 = site) = some f → (∀ w ∈ b.windows, w.site = site → f.2.2 < w.first) →
      verdictOf b site = 1) := by
  obtain ⟨m, hm, ⟨w, hw, hwsite, hfirst⟩, hleast⟩ := firstWindow_eq_some b site hwindow
  refine ⟨fun hcovered => ?_, fun f hf hbefore => ?_⟩
  · by_cases hfails : ∃ f ∈ b.fails, f.1 = site
    · obtain ⟨f, hf, hsite, hsome⟩ := siteFails_eq_some b site hfails
      obtain ⟨v, hv, hvsite, hle⟩ := hcovered f hf hsite
      rw [verdictOf_of_window_of_fail b site m f.2 hcause hm hsome]
      exact if_neg (Nat.not_lt.2 ((hleast v hv hvsite).trans hle))
    · exact verdictOf_of_window b site m hcause hm (siteFails_eq_none b site fun f hf hsite => hfails ⟨f, hf, hsite⟩)
  · rw [verdictOf_of_window_of_fail b site m f.2 hcause hm (by simp [siteFails, hf])]
    exact if_pos (hfirst ▸ hbefore w hw hwsite)

theorem verdictOfAWindowlessSite (b : Batch) (site : Nat) (hcause : ∀ c ∈ b.causes, c.1 ≠ site)
    (hwindow : ∀ w ∈ b.windows, w.site ≠ site) : ((∃ f ∈ b.fails, f.1 = site) → verdictOf b site = 1)
      ∧ ((∀ f ∈ b.fails, f.1 ≠ site) → verdictOf b site = 0) := by
  have hnone := firstWindow_eq_none b site hwindow
  refine ⟨fun hfails => ?_, fun hfails => verdictOf_of_none b site hcause hnone (siteFails_eq_none b site hfails)⟩
  obtain ⟨f, -, -, hsome⟩ := siteFails_eq_some b site hfails
  exact verdictOf_of_fail b site f.2 hcause hnone hsome

/-! ### Windows that last into the commit leave the twin alone (R238, R276) -/

theorem addWindow_twin (n : DWord) (w : Window) (s : State) : (addWindow n w s).twin = s.twin := by
  unfold addWindow
  split
  · rfl
  · dsimp only
    split <;> simp [wait]

theorem foldl_twin {α : Type} (f : State → α → State) (h : ∀ s a, (f s a).twin = s.twin) (xs : List α) (s : State) :
    (xs.foldl f s).twin = s.twin :=
  List.foldlRecOn xs f (motive := fun u => u.twin = s.twin) rfl fun _ hu a _ => (h _ a).trans hu

theorem linkDrift_twin (l : FLink) (s : State) : (linkDrift l s).twin = s.twin := by
  refine foldl_twin _ (fun u i => ?_) _ _
  unfold driftWindows
  split
  · rfl
  · exact foldl_twin _ (fun u b => foldl_twin _ (fun u x => addWindow_twin _ _ u) _ u) _ u

theorem ongoingWindows_twin (b : Batch) (s : State) : (ongoingWindows b s).twin = s.twin := by
  refine (foldl_twin _ (fun u a => ?_) _ _).trans ((linkDrift_twin _ _).trans (linkDrift_twin _ _))
  dsimp only
  split
  · exact foldl_twin _ (fun u x => addWindow_twin _ _ u) _ u
  · rfl

/-! ### The commit of a link (R304) -/

theorem sitesOf_sorted (l : FLink) (s : State) : (sitesOf l s).Pairwise (fun x y => x < y) := List.pairwise_lt_range.filter _

/-- Records that belong to a batch wait as they are. -/
theorem wait_of_batched (l : FLink) (rs : List QRec) (s : State) (h : ∀ r ∈ rs, r.batch.isNone = false) :
    wait l rs s = setLedger l { ledger l s with waiting := (ledger l s).waiting ++ rs } s := by
  have hplace : rs.map (fun r => if r.batch.isNone then { r with batch := (oldestIssued l s).map (fun b => b.d.batch) } else r)
      = rs := (List.map_congr_left fun r hr => if_neg (by simp [h r hr])).trans (List.map_id rs)
  simp only [wait, hplace]

/-- The records that a link places at a commit: a verdict for each site, then the commit record. -/
def commitRecords (b : Batch) (sites : List Nat) : List QRec := sites.map (verdictRecord b) ++ [commitRecord b sites]

theorem commitRecords_batched (b : Batch) (sites : List Nat) : ∀ r ∈ commitRecords b sites, r.batch.isNone = false := by
  refine fun r hr => ?_
  rcases List.mem_append.1 hr with hverdict | hcommit
  · obtain ⟨x, -, rfl⟩ := List.mem_map.1 hverdict
    rfl
  · rw [List.mem_singleton.1 hcommit]
    rfl

theorem absorb_keeps (l : FLink) (b : Batch) (sites : List Nat) (s : State) :
    (absorb l b sites s).batches = s.batches ∧ (absorb l b sites s).twin = s.twin
    ∧ ∀ k, ledger k (absorb l b sites s) = ledger k s := by
  unfold absorb
  split
  · exact ⟨rfl, rfl, fun _ => rfl⟩
  · exact ⟨rfl, rfl, ledger_of_ledgers rfl rfl⟩

/-- The second link's commit releases what the batch held; the waiting records, the batches and the member's role stand. -/
theorem commitDone_keeps (k : FLink) (b : Batch) (s : State) : (ledger k (commitDone b s)).waiting = (ledger k s).waiting
    ∧ (commitDone b s).batches = s.batches ∧ (commitDone b s).twin.role = s.twin.role
    ∧ (commitDone b s).twin.detachDue = s.twin.detachDue := by
  cases k <;> exact ⟨rfl, rfl, rfl, rfl⟩

/-- The batch of a number is marked committed on a link, its verdicts formed. -/
def markBatch (l : FLink) (n : DWord) (x : Batch) : Batch :=
  if x.d.batch = n then markCommitted l { x with verdictsFormed := true } else x

/-- A batch still open on a link saves its lost counts (R309). -/
def saveLost (l : FLink) (x : Batch) : Batch := if committedOn l x then x else { x with lostSaved := x.lost }

theorem markCommitted_marks (l : FLink) (b : Batch) :
    committedOn l (markCommitted l b) = true ∧ (markCommitted l b).verdictsFormed = b.verdictsFormed
    ∧ (markCommitted l b).d = b.d := by
  cases l <;> exact ⟨rfl, rfl, rfl⟩

theorem markBatch_number (l : FLink) (n : DWord) (x : Batch) : (markBatch l n x).d = x.d := by
  unfold markBatch
  split
  · simp [markCommitted_marks]
  · rfl

theorem saveLost_number (l : FLink) (x : Batch) : (saveLost l x).d = x.d := by
  unfold saveLost
  split <;> rfl

theorem saveLost_markBatch_of_number (l : FLink) (x : Batch) :
    saveLost l (markBatch l x.d.batch x) = markCommitted l { x with verdictsFormed := true } := by
  simp [saveLost, markBatch, markCommitted_marks]

/-- A commit before what the second link's commit does besides: the records placed, the batches marked, the trackers absorbed. -/
def placeCommit (l : FLink) (n : DWord) (b : Batch) (s : State) : State :=
  let sites := sitesOf l s
  let marked := { s with batches := s.batches.map (markBatch l n) }
  let waited := wait l (commitRecords b sites) marked
  let placed := setLedger l { ledger l waited with commitPlaced := true } waited
  absorb l b sites { placed with
    batches := placed.batches.map (saveLost l)
    history := addHistory b (sites.map (fun x => (x, verdictOf b x))) placed.history }

theorem ledger_withBatches (l : FLink) (bs : List Batch) (s : State) : ledger l { s with batches := bs } = ledger l s :=
  ledger_of_ledgers rfl rfl l

theorem placeCommit_effect (l : FLink) (n : DWord) (b : Batch) (s : State) :
    (ledger l (placeCommit l n b s)).waiting = (ledger l s).waiting ++ commitRecords b (sitesOf l s)
    ∧ (placeCommit l n b s).batches = s.batches.map (fun x => saveLost l (markBatch l n x)) ∧ (placeCommit l n b s).twin = s.twin := by
  simp only [placeCommit, absorb_keeps, wait_of_batched _ _ _ (commitRecords_batched _ _)]
  refine ⟨?_, ?_, by simp⟩
  · refine (congrArg Ledger.waiting (ledger_of_ledgers (s := setLedger l _ _) rfl rfl l)).trans ?_
    simp [ledger_withBatches]
  · simp only [setLedger_fields, List.map_map]
    rfl

/-- What the batch to commit is, once the windows that last into the commit have entered. -/
def commitBatch (b : Batch) (s : State) : Batch := (findBatch b.d.batch (ongoingWindows b s)).getD b

theorem commitLink_eq (l : FLink) (b : Batch) (s : State) : commitLink l b s
    = if committedOn (otherLink l) (commitBatch b s)
      then commitDone (commitBatch b s) (placeCommit l b.d.batch (commitBatch b s) (ongoingWindows b s))
      else placeCommit l b.d.batch (commitBatch b s) (ongoingWindows b s) := rfl

theorem commitLink_effect (l : FLink) (b : Batch) (s : State) :
    (ledger l (commitLink l b s)).waiting
      = (ledger l (ongoingWindows b s)).waiting ++ commitRecords (commitBatch b s) (sitesOf l (ongoingWindows b s))
    ∧ (commitLink l b s).batches = (ongoingWindows b s).batches.map (fun x => saveLost l (markBatch l b.d.batch x))
    ∧ (commitLink l b s).twin.role = s.twin.role ∧ (commitLink l b s).twin.detachDue = s.twin.detachDue := by
  obtain ⟨hwaiting, hbatches, htwin⟩ := placeCommit_effect l b.d.batch (commitBatch b s) (ongoingWindows b s)
  rw [ongoingWindows_twin] at htwin
  rw [commitLink_eq]
  split
  · obtain ⟨kwaiting, kbatches, krole, kdetach⟩ := commitDone_keeps l (commitBatch b s)
      (placeCommit l b.d.batch (commitBatch b s) (ongoingWindows b s))
    exact ⟨kwaiting.trans hwaiting, kbatches.trans hbatches, krole.trans (by rw [htwin]), kdetach.trans (by rw [htwin])⟩
  · exact ⟨hwaiting, hbatches, by rw [htwin], by rw [htwin]⟩

/-- A solo member that no detach awaits neither retires, detaches nor serves a join. -/
theorem afterCommit_of_solo (s : State) (hrole : s.twin.role = .solo) (hdetach : s.twin.detachDue = false) :
    afterCommit s = putHeld (refreshEndOfTest s) := by
  have hretire : retireCheck s = s := by simp [retireCheck, inLockstep, hrole]
  have hstep : detachStep s = s := by simp [detachStep, hdetach]
  have hjoin : serveJoin s = s := by simp [serveJoin, hrole]
  rw [afterCommit, hretire, hstep, hjoin]

theorem exec_batchCommit_of_solo (l : FLink) (b : Batch) (s : State) (hrerun : s.egress.rerunFrom = none)
    (hopen : oldestOpen l s = some b) (hready : linkReady l b s = true) (hrole : s.twin.role = .solo)
    (hdetach : s.twin.detachDue = false) (hjoint : jointly b s = false) (hdecided : rerunDecided b s = false) :
    exec (.batchCommit l) s = .next (putHeld (refreshEndOfTest (commitLink l b s))) := by
  obtain ⟨-, -, krole, kdetach⟩ := commitLink_effect l b s
  have hneeds : needsDigest s = false := by simp [needsDigest, hrole]
  have htry : tryCommit l b s = afterCommit (commitLink l b s) := by simp [tryCommit, hready, hneeds, hjoint, hdecided]
  simp only [exec, execBatchCommit, hrerun, hopen, htry]
  rw [afterCommit_of_solo _ (krole.trans hrole) (kdetach.trans hdetach)]

theorem linksCommit : Claims.LinksCommit := by
  refine ⟨fun b site => ⟨fun ⟨k, hk⟩ => verdictOf_of_cause b site k hk, fun hcause =>
    ⟨verdictOfAWindowedSite b site hcause, verdictOfAWindowlessSite b site hcause⟩⟩, ?_⟩
  intro l b s hrerun hopen hready hrole hdetach hjoint hdecided
  obtain ⟨hwaiting, hbatches, -, -⟩ := commitLink_effect l b s
  have hexec := exec_batchCommit_of_solo l b s hrerun hopen hready hrole hdetach hjoint hdecided
  refine ⟨_, hexec, ?_, sitesOf_sorted _ _, fun b' hb' hn => ?_⟩
  · exact hwaiting.trans (List.append_assoc _ _ _).symm
  · obtain ⟨x, -, rfl⟩ := List.mem_map.1 (hbatches ▸ hb' : b' ∈ (ongoingWindows b s).batches.map _)
    rw [saveLost_number, markBatch_number] at hn
    rw [← hn, saveLost_markBatch_of_number]
    simp [markCommitted_marks]

/-- Settles O42: records pass through the queue, the ring and the cells in order, and a commit places its verdicts before its record. -/
theorem recordsFlow : Obligations.RecordsFlow :=
  ⟨queueTakesRecords, recordsPassOn, recordsReachTheHost, linksCommit⟩

end Sys2Proof.Machine
end

section
/-! PROOF. The Repair Analyser's calls (O56): what each answers, and what waits for the batch boundary. -/

namespace Sys2Proof.Machine

/-! ### Replies leave the boundary where it is -/

theorem reply_batches (c : QueuedCall) (result : Nat) (data : List QWord) (s : State) : (reply c result data s).batches = s.batches := by
  simp only [reply, writeReply]
  split <;> simp [sendReply]

theorem atBoundary_reply (c : QueuedCall) (result : Nat) (data : List QWord) (s : State) :
    atBoundary (reply c result data s) = atBoundary s :=
  atBoundary_of_batches (reply_batches c result data s) (by simp)

/-- Within a batch, a call that asks for a change of the Repair Analyser is answered, and the change only waits (R338, log 105). -/
theorem settle_reply_repair (c : QueuedCall) (result : Nat) (data : List QWord) (r : Repair) (s : State) (hbound : atBoundary s = false) :
    settle (reply c result data { s with repair := r }) = reply c result data { s with repair := r } :=
  settle_of_not_atBoundary _ ((atBoundary_reply c result data _).trans hbound)

/-! ### A part without the Repair Analyser (R329) -/

theorem repairCallsOfAbsentUnit (slot : Nat) (c : QueuedCall) (s : State) (habsent : hasRepair s = false) :
    (callOf slot 0x0009 s = some c → exec (.raConfigure slot) s = .next (reply c resNotPresent [] s))
    ∧ (callOf slot 0x000A s = some c → exec (.raClear slot) s = .next (reply c resNotPresent [] s))
    ∧ (callOf slot 0x000B s = some c → exec (.raRead slot) s = .next (reply c resNotPresent [] s))
    ∧ (callOf slot 0x000C s = some c → exec (.raStatus slot) s = .next (reply c resNotPresent [] s)) := by
  refine ⟨fun hc => ?_, fun hc => ?_, fun hc => ?_, fun hc => ?_⟩
  · simp [exec, execRaConfigure, hc, habsent]
  · simp [exec, execRaClear, hc, habsent]
  · simp [exec, execRaRead, hc, habsent]
  · simp [exec, execRaStatus, hc, habsent]

/-! ### The calls of a part that has it (R330, R337 to R339, R674) -/

/-- The 16 bytes of the geometry in a call's first two arguments (R674). -/
def geometryArg (c : QueuedCall) : List Byte := bytesOf 8 (argOf c 0).toNat ++ bytesOf 8 (argOf c 1).toNat

theorem exec_raConfigure_of_range (slot : Nat) (c : QueuedCall) (s : State) (hc : callOf slot 0x0009 s = some c)
    (hpresent : hasRepair s = true) (hbad : geometryReserved (geometryArg c) ≠ 0 ∨ geometryOk (geometryOf (geometryArg c)) = false) :
    exec (.raConfigure slot) s = .next (reply c resRange [] s) := by
  rw [geometryArg] at hbad
  simp [exec, execRaConfigure, hc, hpresent, hbad]

theorem exec_raConfigure_of_good (slot : Nat) (c : QueuedCall) (s : State) (hc : callOf slot 0x0009 s = some c)
    (hpresent : hasRepair s = true) (hreserved : geometryReserved (geometryArg c) = 0)
    (hok : geometryOk (geometryOf (geometryArg c)) = true) :
    exec (.raConfigure slot) s = .next (settle (reply c resOk []
      { s with repair := { s.repair with pendingConfig := some (geometryOf (geometryArg c)) } })) := by
  rw [geometryArg] at hreserved hok
  simp [exec, execRaConfigure, hc, hpresent, hreserved, hok, geometryArg]

theorem exec_raClear_of_present (slot : Nat) (c : QueuedCall) (s : State) (hc : callOf slot 0x000A s = some c)
    (hpresent : hasRepair s = true) :
    exec (.raClear slot) s = .next (
      if trackersConfigured s < (argOf c 0).toNat + (argOf c 1).toNat then reply c resRange [] s
      else settle (reply c resOk [] { s with repair := { s.repair with
        pendingClear := s.repair.pendingClear ++ [((argOf c 0).toNat, (argOf c 1).toNat)] } })) := by
  simp [exec, execRaClear, hc, hpresent]

/-- The results of `count` trackers from `first` on (R337). -/
def trackerResults (s : State) (first count : Nat) : List Byte :=
  (List.range count).flatMap fun k => trackerBytes (s.repair.geometry.getD {}) (first + k) (tget {} s.repair.committed (first + k))

theorem trackerResults_one (s : State) (first : Nat) :
    trackerResults s first 1 = trackerBytes (s.repair.geometry.getD {}) first (tget {} s.repair.committed first) := by
  simp [trackerResults]

theorem exec_raRead_of_present (slot : Nat) (c : QueuedCall) (s : State) (hc : callOf slot 0x000B s = some c)
    (hpresent : hasRepair s = true) :
    exec (.raRead slot) s = .next (
      if trackersConfigured s < (argOf c 0).toNat + (argOf c 1).toNat then reply c resRange [] s
      else replyBulk c (argOf c 2).toNat (trackerResults s (argOf c 0).toNat (argOf c 1).toNat) s) := by
  simp [exec, execRaRead, hc, hpresent, trackerResults]

theorem exec_raStatus_of_present (slot : Nat) (c : QueuedCall) (s : State) (hc : callOf slot 0x000C s = some c)
    (hpresent : hasRepair s = true) :
    exec (.raStatus slot) s = .next (reply c resOk [BitVec.ofNat 64 (trackersConfigured s),
      BitVec.ofNat 64 (s.repair.committed.countP (fun t => t.2.unrepairable)), s.repair.dropped.setWidth 64] s) := by
  simp [exec, execRaStatus, hc, hpresent]

/-- Settles O56: a call is refused by its limits or takes effect, and the effect of one that changes the unit waits for the boundary. -/
theorem repairCalls : Obligations.RepairCalls := by
  intro slot c s
  dsimp only
  refine ⟨repairCallsOfAbsentUnit slot c s, fun hpresent =>
    ⟨fun hc => ?configure, fun hc => ?clear, fun hc hbeyond => ?readBeyond, fun hc hwithin haddr hone => ?readOne, fun hc => ?status⟩⟩
  case configure =>
    refine ⟨fun hbad => exec_raConfigure_of_range slot c s hc hpresent (.inr hbad), fun hreserved hok hbound => ?_⟩
    rw [exec_raConfigure_of_good slot c s hc hpresent hreserved hok, settle_reply_repair c _ _ _ s hbound]
    rfl
  case clear =>
    rw [exec_raClear_of_present slot c s hc hpresent]
    refine ⟨fun hbeyond => ?_, fun hwithin hbound => ?_⟩
    · rw [if_pos hbeyond]
    · rw [if_neg (Nat.not_lt.2 hwithin), settle_reply_repair c _ _ _ s hbound]
  case readBeyond => rw [exec_raRead_of_present slot c s hc hpresent, if_pos hbeyond]
  case readOne =>
    rw [exec_raRead_of_present slot c s hc hpresent, if_neg (Nat.not_lt.2 hwithin), replyBulk_of_aligned c _ _ s haddr, hone,
      trackerResults_one]
  case status => exact exec_raStatus_of_present slot c s hc hpresent

end Sys2Proof.Machine
end

section
/-! PROOF. The twin's member state: what TWIN_STATUS reads after an update, and what a change of role, a time mark, a handover and
leaving lockstep do. -/

namespace Sys2Proof.Machine

/-! ### The bits of TWIN_STATUS (R377) -/

/-- Bit `j` of TWIN_STATUS. -/
def twinStatusBit (j : Nat) (s : State) : Bool := s.regs.twinStatus.getLsbD j

theorem twinStatusBit_of_regs {s t : State} (h : t.regs = s.regs) (j : Nat) : twinStatusBit j t = twinStatusBit j s := by
  rw [twinStatusBit, h, twinStatusBit]

@[simp] theorem twinStatusBit_setEvent (j b : Nat) (s : State) : twinStatusBit j (setEvent b s) = twinStatusBit j s := by
  simp [twinStatusBit]

/-- A status bit is set beside those that stand. -/
theorem twinStatusBit_setTwinStatus (j b : Nat) (s : State) (htwin : hasTwin s = true) (hb : b < 16) :
    twinStatusBit j (setTwinStatus b s) = (twinStatusBit j s || decide (j = b)) := by
  have hset : twinStatusBit j { s with regs := { s.regs with twinStatus := s.regs.twinStatus ||| BitVec.twoPow 16 b } }
      = (twinStatusBit j s || decide (j = b)) := by
    refine (getLsbD_or_twoPow _ _ _).trans (congrArg _ ?_)
    by_cases h : j = b <;> simp [h, hb]
  rw [setTwinStatus, htwin]
  dsimp only
  split
  · contradiction
  · split
    · exact hset
    · rw [twinStatusBit_setEvent, hset]

theorem twinStatusBit_putTwinBit_of_ne {j b : Nat} (v : Bool) (s : State) (h : j ≠ b) :
    twinStatusBit j (putTwinBit b v s) = twinStatusBit j s :=
  (getLsbD_setBit _ _ _ _).trans (if_neg h)

@[simp] theorem setTwinStatus_keeps (b : Nat) (s : State) :
    (setTwinStatus b s).twin = s.twin ∧ (setTwinStatus b s).batches = s.batches := by
  unfold setTwinStatus
  split
  · exact ⟨rfl, rfl⟩
  · dsimp only
    split <;> simp

/-! ### Whether the part has a twin -/

theorem hasTwin_of_variant {s t : State} (h : t.variant = s.variant) : hasTwin t = hasTwin s := by rw [hasTwin, h, hasTwin]

@[simp] theorem hasTwin_setTwinStatus (b : Nat) (s : State) : hasTwin (setTwinStatus b s) = hasTwin s := by simp [hasTwin]
@[simp] theorem hasTwin_setRole (r : Role) (s : State) : hasTwin (setRole r s) = hasTwin s := by simp [hasTwin]
@[simp] theorem hasTwin_lapseLease (s : State) : hasTwin (lapseLease s) = hasTwin s := by simp [hasTwin]

/-! ### Time marks, roles and handovers (R352, R357, R368) -/

/-- A time mark waits in the Ledgers, and changes nothing of the member. -/
@[simp] theorem roleMark_keeps (code : Nat) (s : State) :
    (roleMark code s).twin = s.twin ∧ (roleMark code s).regs = s.regs ∧ (roleMark code s).batches = s.batches
    ∧ (roleMark code s).array = s.array ∧ (roleMark code s).fabric = s.fabric ∧ (roleMark code s).lastBatch = s.lastBatch := by
  simp [roleMark, timeMarks, wait]

@[simp] theorem twinStatusBit_roleMark (j code : Nat) (s : State) : twinStatusBit j (roleMark code s) = twinStatusBit j s :=
  twinStatusBit_of_regs (by simp) j

@[simp] theorem setRole_keeps (r : Role) (s : State) :
    (setRole r s).batches = s.batches ∧ (setRole r s).array = s.array ∧ (setRole r s).fabric = s.fabric
    ∧ (setRole r s).lastBatch = s.lastBatch := by
  unfold setRole
  split
  · exact ⟨rfl, rfl, rfl, rfl⟩
  · simp

/-- A change of role is the only change of the twin's own state. -/
theorem setRole_twin (r : Role) (s : State) (htwin : hasTwin s = true) : (setRole r s).twin = { s.twin with role := r } := by
  unfold setRole
  rw [htwin]
  split
  · next h =>
    have hrole : s.twin.role = r := by simpa using h
    rw [← hrole]
  · simp

/-- ROLE stands in the three highest bits of TWIN_STATUS; the others keep their values. -/
theorem twinStatusBit_setRole (j : Nat) (r : Role) (s : State) (hj : j < 13) : twinStatusBit j (setRole r s) = twinStatusBit j s := by
  unfold setRole
  split
  · rfl
  · rw [twinStatusBit_setEvent]
    exact (getLsbD_setFld _ _ _ _ _ (by norm_num)).trans (if_neg (by omega))

/-- The lease lapses: the token and the lease go, and the rest of the twin's state but the line stays. -/
theorem lapseLease_twin (s : State) : (lapseLease s).twin = { s.twin with
    leaseValid := false, token := false, line := if s.twin.token then !s.twin.peerToken else s.twin.line } := by
  unfold lapseLease
  dsimp only
  split <;> simp

theorem lapseLease_batches (s : State) : (lapseLease s).batches = s.batches := by rw [lapseLease_shape]

theorem twinStatusBit_lapseLease (j : Nat) (s : State) (hj : j < 11) : twinStatusBit j (lapseLease s) = twinStatusBit j s := by
  unfold lapseLease
  dsimp only
  split
  · rw [twinStatusBit_putTwinBit_of_ne _ _ (by omega), twinStatusBit_putTwinBit_of_ne _ _ (by omega)]
    rfl
  · rfl

theorem handOver_of_no_token (s : State) (h : s.twin.token = false) : handOver s = s := if_neg (by simp [h])

/-- Whoever hands over holds no token afterwards, in the role it has. -/
theorem handOver_effect (s : State) : (handOver s).twin.token = false ∧ (handOver s).twin.role = s.twin.role
    ∧ (handOver s).batches = s.batches ∧ ∀ j, j < 11 → twinStatusBit j (handOver s) = twinStatusBit j s := by
  cases h : s.twin.token with
  | false => simp [handOver_of_no_token s h, h]
  | true =>
    rw [handOver, if_pos h]
    refine ⟨by simp [lapseLease_twin], by simp [lapseLease_twin, sendTwin], by simp [lapseLease_batches, sendTwin], fun j hj => ?_⟩
    rw [twinStatusBit_lapseLease j _ hj, twinStatusBit_roleMark]
    rfl

/-! ### Leaving lockstep (R367) -/

/-- A member that leaves lockstep, before it hands over. -/
def outOfStep (code : Nat) (s : State) : State :=
  let told := fieldEventFree evTwin (setTwinStatus 5 (setRole .outOfLockstep s))
  if code = 0 then told else roleMark code told

theorem leaveLockstep_of_lockstep (code : Nat) (s : State) (hin : inLockstep s = true) :
    leaveLockstep code s = handOver (outOfStep code s) := if_pos hin

theorem leaveLockstep_of_not_lockstep (code : Nat) (s : State) (hout : inLockstep s = false) : leaveLockstep code s = s :=
  if_neg (by simp [hout])

theorem outOfStep_effect (code : Nat) (s : State) (htwin : hasTwin s = true) :
    (outOfStep code s).twin = { s.twin with role := .outOfLockstep } ∧ (outOfStep code s).batches = s.batches
    ∧ ∀ j, j < 13 → twinStatusBit j (outOfStep code s) = (twinStatusBit j s || decide (j = 5)) := by
  have hbits : ∀ j, j < 13 → twinStatusBit j (fieldEventFree evTwin (setTwinStatus 5 (setRole .outOfLockstep s)))
      = (twinStatusBit j s || decide (j = 5)) := by
    intro j hj
    have hquiet : ∀ u : State, twinStatusBit j (fieldEventFree evTwin u) = twinStatusBit j u := fun u =>
      twinStatusBit_of_regs rfl j
    rw [hquiet, twinStatusBit_setTwinStatus j 5 _ (by simpa using htwin) (by norm_num), twinStatusBit_setRole j _ _ hj]
  unfold outOfStep
  dsimp only
  split
  · exact ⟨by simp [fieldEventFree, fieldEvent, setRole_twin _ s htwin], by simp [fieldEventFree, fieldEvent], hbits⟩
  · refine ⟨by simp [fieldEventFree, fieldEvent, setRole_twin _ s htwin], by simp [fieldEventFree, fieldEvent], fun j hj => ?_⟩
    rw [twinStatusBit_roleMark, hbits j hj]

/-- A member that leaves lockstep is out of it without the token, with LEFT set and every lower status bit and batch kept. -/
theorem leaveLockstep_effect (code : Nat) (s : State) (htwin : hasTwin s = true) (hin : inLockstep s = true) :
    (leaveLockstep code s).twin.role = .outOfLockstep ∧ (leaveLockstep code s).twin.token = false
    ∧ (leaveLockstep code s).batches = s.batches
    ∧ ∀ j, j < 11 → twinStatusBit j (leaveLockstep code s) = (twinStatusBit j s || decide (j = 5)) := by
  obtain ⟨htw, hbatches, hbits⟩ := outOfStep_effect code s htwin
  obtain ⟨htoken, hrole, kbatches, kbits⟩ := handOver_effect (outOfStep code s)
  rw [leaveLockstep_of_lockstep code s hin]
  exact ⟨by rw [hrole, htw], htoken, kbatches.trans hbatches, fun j hj => (kbits j hj).trans (hbits j (by omega))⟩

/-- Without the token, leaving lockstep changes the member's role and nothing else of the twin's state. -/
theorem leaveLockstep_twin_of_no_token (code : Nat) (s : State) (htwin : hasTwin s = true) (htoken : s.twin.token = false) :
    (leaveLockstep code s).twin = if inLockstep s then { s.twin with role := .outOfLockstep } else s.twin := by
  obtain ⟨htw, -, -⟩ := outOfStep_effect code s htwin
  split
  · next hin => rw [leaveLockstep_of_lockstep code s hin, handOver_of_no_token _ (by rw [htw]; exact htoken), htw]
  · next hout => rw [leaveLockstep_of_not_lockstep code s (by simpa using hout)]

/-! ### A join that fails (R373) -/

/-- A join that fails leaves the member out of lockstep with JOIN_FAIL set, and every other status bit as it was. -/
theorem failJoin_of_joining (s : State) (htwin : hasTwin s = true) (hrole : s.twin.role = .joining) :
    (failJoin s).twin = { s.twin with joinBatch := none, role := .outOfLockstep }
    ∧ ∀ j, j < 13 → twinStatusBit j (failJoin s) = (twinStatusBit j s || decide (j = 8)) := by
  have hfail : failJoin s = setRole .outOfLockstep (setTwinStatus 8 { s with twin := { s.twin with joinBatch := none } }) := by
    simp [failJoin, hrole]
  rw [hfail]
  refine ⟨?_, fun j hj => ?_⟩
  · rw [setRole_twin _ _ (by rw [hasTwin_setTwinStatus]; exact htwin)]
    simp
  · rw [twinStatusBit_setRole j _ _ hj, twinStatusBit_setTwinStatus j 8 _ (by exact htwin) (by norm_num)]
    rfl

/-- At any other member only a join it serves ends, and no status bit falls. -/
theorem failJoin_of_not_joining (s : State) (htwin : hasTwin s = true) (hrole : s.twin.role ≠ .joining) :
    (failJoin s).twin = { s.twin with joinBatch := none }
    ∧ ∀ j, j < 13 → twinStatusBit j s = true → twinStatusBit j (failJoin s) = true := by
  unfold failJoin
  split
  · refine ⟨by simp, fun j _ hset => ?_⟩
    rw [twinStatusBit_setTwinStatus j 8 _ (by exact htwin) (by norm_num), Bool.or_eq_true]
    exact .inl hset
  · next h =>
    have hnone : s.twin.joinBatch = none := by simpa [hrole] using h
    exact ⟨by rw [← hnone], fun _ _ hset => hset⟩

end Sys2Proof.Machine
end

section
/-! PROOF. Twin heartbeats, leases and the token (O44). -/

namespace Sys2Proof.Machine

/-! ### Heartbeats (R349, R350) -/

theorem followPeer_of_not_negotiating (s : State) (h : s.twin.role ≠ .negotiating) : followPeer s = s := if_neg (by simp [h])

theorem serveJoin_of_not_primary (s : State) (h : s.twin.role ≠ .primary) : serveJoin s = s := if_neg (by simp [h])

theorem twinHeartbeats : Claims.TwinHeartbeats := by
  intro role token epoch last ack join s
  refine ⟨fun htwin hlease => ?sent, fun hlease => ?silent, fun x rest hx => ?resent, fun htwin hneg hprim => ?taken, ?damaged⟩
  case sent => simp [exec, execTwinHeartbeatDue, htwin, hlease, sendHeartbeat]
  case silent => simp [exec, execTwinHeartbeatDue, hlease]
  case resent => simp [exec, execTwinBlockResend, hx]
  case taken =>
    have htaken : exec (.twinHeartbeatReceive true role token epoch last ack join) s
        = .next (takeHeartbeat role token epoch last ack join s) := by
      simp [exec, execTwinHeartbeatReceive, htwin]
    rw [htaken, takeHeartbeat]
    dsimp only
    rw [followPeer_of_not_negotiating _ (by exact hneg), serveJoin_of_not_primary _ (by exact hprim)]
  case damaged => simp [exec, execTwinHeartbeatReceive]

/-! ### The token (R351 to R353, R369) -/

theorem leaseLapses (s : State) (htwin : hasTwin s = true) (hlease : s.twin.leaseValid = true) :
    ∃ t, exec .leaseLapse s = .next t ∧ t.twin.token = false ∧ t.twin.leaseValid = false
      ∧ (inLockstep s = true → t.twin.role = .outOfLockstep ∧ t.regs.twinStatus.getLsbD 5 = true) := by
  have hexec : exec .leaseLapse s = .next (leaveLockstep 0 (lapseLease s)) := by
    simp [exec, execLeaseLapse, htwin, hlease]
  have htw := lapseLease_twin s
  have hstep : inLockstep (lapseLease s) = inLockstep s := by simp [inLockstep, htw]
  have hleft := leaveLockstep_twin_of_no_token 0 (lapseLease s) (by simpa using htwin) (by rw [htw])
  refine ⟨_, hexec, ?_, ?_, fun hin => ?_⟩
  · rw [hleft, htw]; split <;> rfl
  · rw [hleft, htw]; split <;> rfl
  · obtain ⟨hrole, -, -, hbits⟩ := leaveLockstep_effect 0 (lapseLease s) (by simpa using htwin) (hstep.trans hin)
    exact ⟨hrole, (hbits 5 (by norm_num)).trans (by simp)⟩

/-- The epoch that a member takes with the token (R353): above its own and its peer's. -/
def newEpoch (s : State) : DWord :=
  (if s.twin.epoch.toNat < s.twin.peerEpoch.toNat then s.twin.peerEpoch else s.twin.epoch) + 1

theorem takeToken'_keeps (s : State) :
    (takeToken' s).twin = { s.twin with token := true, line := false, epoch := newEpoch s } ∧ (takeToken' s).batches = s.batches := by
  simp [takeToken', newEpoch]

theorem switchBatches_of_none_open (s : State) (h : ∀ b ∈ s.batches, issued b = true → committedBoth b = true) :
    switchBatches s = s := by
  have hnone : s.batches.find? (fun b => issued b && !committedBoth b) = none := by
    refine List.find?_eq_none.2 fun b hb hopen => ?_
    obtain ⟨hissued, hcommitted⟩ : issued b = true ∧ committedBoth b = false := by simpa using hopen
    exact absurd (h b hb hissued) (by simp [hcommitted])
  rw [switchBatches, hnone]

/-- A Mirror as it becomes Primary, before it turns to the batches its Primary left. -/
def promoted (s : State) : State :=
  let s1 := takeToken' s
  setTwinStatus 4 (roleMark 3 (setRole .primary { s1 with twin := { s1.twin with
    switchoverFrames := 16, peerRole := 0, announced := [], handoverSeen := false } }))

theorem promoted_effect (s : State) (htwin : hasTwin s = true) :
    (promoted s).twin = { s.twin with
      token := true, line := false, epoch := newEpoch s, role := .primary, switchoverFrames := 16, peerRole := 0, announced := []
      handoverSeen := false }
    ∧ (promoted s).batches = s.batches ∧ twinStatusBit 4 (promoted s) = true := by
  unfold promoted
  refine ⟨?_, by simp [takeToken'_keeps], ?_⟩
  · rw [(setTwinStatus_keeps _ _).1, (roleMark_keeps _ _).1, setRole_twin _ _ (by simpa [hasTwin] using htwin), (takeToken'_keeps s).1]
  · rw [twinStatusBit_setTwinStatus 4 4 _ (by simpa [hasTwin] using htwin) (by norm_num)]
    exact Bool.or_true _

theorem mirrorTakesToken (s : State) (htwin : hasTwin s = true) (hlease : s.twin.leaseValid = true) (hline : s.twin.line = true)
    (htoken : s.twin.token = false) (hrole : s.twin.role = .mirror)
    (hdone : ∀ b ∈ s.batches, issued b = true → committedBoth b = true) :
    exec .tokenTake s = .next (promoted s) := by
  obtain ⟨-, hbatches, -⟩ := promoted_effect s htwin
  have hnone : switchBatches (promoted s) = promoted s := switchBatches_of_none_open _ (hbatches ▸ hdone)
  have hover : switchOver s = promoted s := (congrArg (ite _ (promoted s)) hnone).trans (ite_self _)
  simp [exec, execTokenTake, htwin, hlease, hline, htoken, hrole, hover]

/-- T as lost, before a join fails with it (R351). -/
def unlinkTwin (s : State) : State :=
  setTwinStatus 6 (putTwinBit 10 false { s with twin := { s.twin with
    tUp := false, lanesLocked := [], unacked := [], peerRole := 0, capsAgree := false, caps0 := none, caps1 := none } })

theorem loseT_eq (s : State) : loseT s = failJoin (unlinkTwin s) := rfl

theorem unlinkTwin_effect (s : State) (htwin : hasTwin s = true) :
    (unlinkTwin s).twin = { s.twin with
      tUp := false, lanesLocked := [], unacked := [], peerRole := 0, capsAgree := false, caps0 := none, caps1 := none }
    ∧ hasTwin (unlinkTwin s) = true ∧ twinStatusBit 6 (unlinkTwin s) = true := by
  unfold unlinkTwin
  refine ⟨by simp, by rw [hasTwin_setTwinStatus]; exact htwin, ?_⟩
  rw [twinStatusBit_setTwinStatus 6 6 _ (by exact htwin) (by norm_num)]
  exact Bool.or_true _

theorem linkIsLost (s : State) (htwin : hasTwin s = true) (hup : s.twin.tUp = true) :
    ∃ t, exec .tLost s = .next t ∧ t.twin.tUp = false ∧ t.twin.unacked = []
      ∧ t.regs.twinStatus.getLsbD 6 = true ∧ t.twin.token = s.twin.token
      ∧ (s.twin.role = .joining → t.twin.role = .outOfLockstep ∧ t.regs.twinStatus.getLsbD 8 = true) := by
  have hexec : exec .tLost s = .next (failJoin (unlinkTwin s)) := by
    simp [exec, execTLost, htwin, hup, loseT_eq]
  obtain ⟨htw, hpart, hlost⟩ := unlinkTwin_effect s htwin
  refine ⟨_, hexec, ?_⟩
  by_cases hrole : s.twin.role = .joining
  · obtain ⟨hfail, hbits⟩ := failJoin_of_joining (unlinkTwin s) hpart (by rw [htw]; exact hrole)
    rw [hfail, htw]
    exact ⟨rfl, rfl, (hbits 6 (by norm_num)).trans (by simp [hlost]), rfl, fun _ => ⟨rfl, (hbits 8 (by norm_num)).trans (by simp)⟩⟩
  · obtain ⟨hfail, hbits⟩ := failJoin_of_not_joining (unlinkTwin s) hpart (by rw [htw]; exact hrole)
    rw [hfail, htw]
    exact ⟨rfl, rfl, hbits 6 (by norm_num) hlost, rfl, fun h => absurd h hrole⟩

/-- A Mirror that waits in vain for the line leaves lockstep (R369). -/
theorem tokenWaitTimesOut (s : State) (htwin : hasTwin s = true) (hrole : s.twin.role = .mirror) (hup : s.twin.tUp = false)
    (hline : s.twin.line = false) :
    ∃ t, exec .tokenWaitTimeout s = .next t ∧ t.twin.role = .outOfLockstep ∧ t.twin.token = false := by
  have hexec : exec .tokenWaitTimeout s = .next (leaveLockstep 6 (setTwinStatus 6 s)) := by
    simp [exec, execTokenWaitTimeout, hrole, hup, hline]
  obtain ⟨hout, htoken, -⟩ := leaveLockstep_effect 6 (setTwinStatus 6 s) (by simpa using htwin) (by simp [inLockstep, hrole])
  exact ⟨_, hexec, hout, htoken⟩

theorem tokenMoves : Claims.TokenMoves := by
  intro s htwin
  refine ⟨fun hwarden hawake henable hrole => ?renewed, leaseLapses s htwin, fun hlease hline htoken hrole hdone => ?taken,
    fun hline => ?held, linkIsLost s htwin, tokenWaitTimesOut s htwin⟩
  case renewed => simp [exec, execLeaseRenew, htwin, hwarden, hawake, henable, hrole]
  case taken =>
    obtain ⟨htw, -, hswitched⟩ := promoted_effect s htwin
    refine ⟨_, mirrorTakesToken s htwin hlease hline htoken hrole hdone, ?_⟩
    rw [htw]
    exact ⟨rfl, rfl, rfl, rfl, rfl, hswitched⟩
  case held => simp [exec, execTokenTake, hline]

/-- Settles O44: heartbeats and blocks go out and come in as the lease allows, and the token moves only over a line that reads high. -/
theorem twinToken : Obligations.TwinToken := ⟨twinHeartbeats, tokenMoves⟩

end Sys2Proof.Machine
end

section
/-! PROOF. Capability blocks, digests, and joining (O45). -/

namespace Sys2Proof.Machine

/-! ### Blocks in and out of order (R348, R350) -/

theorem hasTwin_of_inOrder {crcOk : Bool} {tseq : Word} {s : State} (h : inOrder crcOk tseq s = true) : hasTwin s = true := by
  simp only [inOrder, Bool.and_eq_true] at h
  exact h.1.1

theorem inOrder_of_damaged (tseq : Word) (s : State) : inOrder false tseq s = false := by simp [inOrder]

/-- A damaged block is not even counted. -/
theorem countReserved_of_damaged (b : Block) (s : State) (h : twinCrcOk b = false) : countReserved b s = s := if_neg (by simp [h])

/-! ### Capabilities and handover (R354 to R356, R368) -/

theorem exec_capabilityReceive_of_inOrder (b : Block) (s : State) (hkind : twinKind b = 2)
    (horder : inOrder (twinCrcOk b) (twinTseq b) s = true) :
    exec (.capabilityReceive b) s = .next (takeCapability b s) := by
  simp [exec, execCapabilityReceive, hkind, horder]

/-- Capabilities that differ, or a partner without a second port: MISMATCH, and a member without the token is out of lockstep. -/
theorem decideRoles_of_mismatch (s : State) (htwin : hasTwin s = true) (h : capsMatch s = false ∨ dualPorted s = false) :
    twinStatusBit 7 (decideRoles s) = true
    ∧ (decideRoles s).twin.role = if s.twin.token then s.twin.role else .outOfLockstep := by
  have hbad : decideRoles s = setTwinStatus 7 (if s.twin.token then s else setRole .outOfLockstep s) :=
    if_pos (by simpa using h)
  have hpart : hasTwin (if s.twin.token then s else setRole .outOfLockstep s) = true := by split <;> simp [htwin]
  rw [hbad]
  refine ⟨?_, ?_⟩
  · rw [twinStatusBit_setTwinStatus 7 7 _ hpart (by norm_num)]
    exact Bool.or_true _
  · rw [(setTwinStatus_keeps _ _).1]
    split
    · rfl
    · rw [setRole_twin _ s htwin]

/-- Capabilities that agree, with the token on either side yet to move: the member notes that they agree. -/
theorem decideRoles_of_match (s : State) (hmatch : capsMatch s = true) (hdual : dualPorted s = true)
    (hfree : s.twin.token = true ∨ s.twin.line = true) :
    decideRoles s = { s with twin := { s.twin with capsAgree := true } } := by
  have hgood : ¬ (!capsMatch s || !dualPorted s) = true := by simp [hmatch, hdual]
  rw [decideRoles, if_neg hgood]
  dsimp only
  rcases hfree with htoken | hline
  · exact if_pos htoken
  · rw [hline]
    exact ite_self _

theorem capabilitiesDecide : Claims.CapabilitiesDecide := by
  intro b s htwin s1 s2
  refine ⟨fun hkind horder => ?capability, fun hkind horder => ⟨fun haddr => ?handover, fun haddr hjoin hrole => ?acknowledged⟩,
    fun hcrc => ?damaged⟩
  case capability =>
    have hsecond : twinAddr b ≠ 0 → takeCapability b s = decideRoles s2 := fun haddr => if_neg haddr
    rw [exec_capabilityReceive_of_inOrder b s hkind horder]
    refine ⟨fun haddr => ?_, fun haddr hbad => ?_, fun haddr hmatch hdual hfree => ?_⟩
    · exact congrArg Host.Outcome.next (if_pos haddr)
    · obtain ⟨hstatus, hrole⟩ := decideRoles_of_mismatch s2 htwin hbad
      rw [hsecond haddr]
      exact ⟨_, rfl, hstatus, fun htoken => hrole.trans (if_pos htoken),
        fun htoken => hrole.trans (if_neg (ne_true_of_eq_false htoken))⟩
    · rw [hsecond haddr, decideRoles_of_match s2 hmatch hdual hfree]
  case handover => simp [exec, execHandover, hkind, haddr, horder, s1]
  case acknowledged => simp [exec, execJoinAck, hkind, haddr, horder, hjoin, hrole, s1]
  case damaged =>
    have hout : inOrder (twinCrcOk b) (twinTseq b) s = false := by rw [hcrc, inOrder_of_damaged]
    simp [exec, execCapabilityReceive, execHandover, execJoinAck, hout, countReserved_of_damaged b s hcrc]

/-! ### Digests (R361, R365) -/

theorem findBatch_of_batches {s t : State} (h : t.batches = s.batches) (n : DWord) : findBatch n t = findBatch n s := by
  rw [findBatch, h, findBatch]

/-- A batch with the digest and the fault bit that its peer reports. -/
def withPeerDigest (d : QWord) (fault : Bool) (b : Batch) : Batch := { b with digestPeer := some d, peerFault := fault }

/-- The state as a digest in order is noted, before it is compared. -/
def digestNoted (n : DWord) (d : QWord) (fault : Bool) (s : State) : State := modBatch n (withPeerDigest d fault) (noteTseq s)

theorem findBatch_digestNoted (n : DWord) (d : QWord) (fault : Bool) (b : Batch) (s : State) (hb : findBatch n s = some b) :
    findBatch n (digestNoted n d fault s) = some (withPeerDigest d fault b) := by
  have hkept : findBatch n (noteTseq s) = some b := hb
  rw [digestNoted, findBatch_modBatch n (withPeerDigest d fault) _ (fun _ => rfl), hkept]
  rfl

/-- A digest in order, of a batch not yet agreed, is noted and judged. -/
theorem exec_digestReceive_of_open (tseq : Word) (n : DWord) (d : QWord) (fault : Bool) (b : Batch) (s : State)
    (horder : inOrder true tseq s = true) (hb : findBatch n s = some b) (hopen : b.agreed = false) :
    exec (.digestReceive true tseq n d fault) s
      = .next (arbitrate (withPeerDigest d fault b) (digestNoted n d fault s)) := by
  have hfound := findBatch_digestNoted n d fault b s hb
  have htake : takeDigest n d fault s = arbitrate (withPeerDigest d fault b) (digestNoted n d fault s) := by
    unfold takeDigest
    dsimp only
    split
    · next b' hb' =>
      obtain rfl := Option.some.inj (hfound.symm.trans hb')
      exact if_neg (ne_true_of_eq_false hopen)
    · next hnone => exact absurd (hfound.symm.trans hnone) (Option.some_ne_none _)
  simp [exec, execDigestReceive, horder, htake]

/-- The state as a compare of digests begins: the peer's fault bit joins its history (R396). -/
def judged (b : Batch) (s : State) : State :=
  { s with twin := { s.twin with peerHistory := (b.peerFault :: s.twin.peerHistory).take 256 } }

section
variable (n : DWord) (d : QWord) (fault : Bool) (b : Batch) (s : State)

theorem findBatch_judged (hb : findBatch n s = some b) :
    findBatch n (judged (withPeerDigest d fault b) (digestNoted n d fault s)) = some (withPeerDigest d fault b) :=
  findBatch_digestNoted n d fault b s hb

theorem number_withPeerDigest (hb : findBatch n s = some b) : (withPeerDigest d fault b).d.batch = n := by
  have hnum : b.d.batch = n := by simpa using List.find?_some hb
  exact hnum

theorem hasTwin_judged : hasTwin (judged (withPeerDigest d fault b) (digestNoted n d fault s)) = hasTwin s := rfl

theorem inLockstep_judged : inLockstep (judged (withPeerDigest d fault b) (digestNoted n d fault s)) = inLockstep s := rfl

end

theorem arbitrate_of_none (b : Batch) (s : State) (h : b.digestMine = none) : arbitrate b s = s := by simp [arbitrate, h]

theorem arbitrate_of_equal (b : Batch) (d : QWord) (s : State) (hmine : b.digestMine = some d) (hpeer : b.digestPeer = some d) :
    arbitrate b s = digestsAgree b d (judged b s) := by
  simp [arbitrate, hmine, hpeer, judged]

/-- Digests differ and exactly one member logged a fault: that member's run loses. -/
theorem arbitrate_of_one_fault (b : Batch) (mine peer : QWord) (s : State) (hmine : b.digestMine = some mine)
    (hpeer : b.digestPeer = some peer) (hne : mine ≠ peer) (hfault : s.twin.faultSinceCommit = !b.peerFault) :
    arbitrate b s = if s.twin.faultSinceCommit then loseRun b.d.batch (judged b s)
      else agree b.d.batch [1] (roleMark 9 (judged b s)) := by
  simp [arbitrate, hmine, hpeer, hne, hfault, judged]

/-- The batch of the number agrees, and its status bits fall due. -/
theorem agree_marks (n : DWord) (due : List Nat) (b : Batch) (s : State) (hb : findBatch n s = some b) :
    ∃ b' ∈ (agree n due s).batches, b'.d = b.d ∧ b'.agreed = true ∧ b'.twinDue = b.twinDue ++ due :=
  ⟨_, mem_modBatch_of_findBatch _ hb, rfl, rfl, rfl⟩

theorem digestsAgree_eq_agree (b : Batch) (mine : QWord) (s : State) : ∃ due, digestsAgree b mine s = agree b.d.batch due s := by
  unfold digestsAgree
  split <;> exact ⟨_, rfl⟩

/-! ### The run that loses (R365) -/

@[simp] theorem discardLink_keeps (ns : List DWord) (l : FLink) (s : State) :
    (discardLink ns l s).twin = s.twin ∧ (discardLink ns l s).batches = s.batches := by
  unfold discardLink
  dsimp only
  split <;> simp

theorem mem_batchesFrom_of_findBatch {n : DWord} {b : Batch} {s : State} (hb : findBatch n s = some b) : n ∈ batchesFrom n s := by
  have hnum : b.d.batch = n := by simpa using List.find?_some hb
  obtain ⟨before, after, hsplit, hbefore⟩ := (List.find?_eq_some_iff_append.1 hb).2
  refine List.mem_map.2 ⟨b, ?_, hnum⟩
  have hdrop : s.batches.dropWhile (fun x => decide (x.d.batch ≠ n)) = b :: after := by
    rw [hsplit, List.dropWhile_append_of_pos (fun x hx => by simpa using hbefore x hx)]
    exact List.dropWhile_cons_of_neg (by simp [hnum])
  rw [hdrop]
  exact List.mem_cons_self

/-- A run that loses, before its member leaves lockstep: the batches from `n` on are gone. -/
def runDropped (n : DWord) (s : State) : State :=
  let ns := batchesFrom n s
  let s1 := revertRepair (discardLink ns .f1 (discardLink ns .f0 s))
  setTwinStatus 1 (roleMark 9 { s1 with
    batches := s1.batches.filter (fun b => !ns.contains b.d.batch)
    array := { s1.array with phase := .idle, running := none, stim := [], halves := [] }
    unload := { s1.unload with due := [], read := [] }
    egress := { s1.egress with phase := .idle, batch := none, waitingUnload := none } })

theorem loseRun_eq (n : DWord) (s : State) : loseRun n s = leaveLockstep 5 (runDropped n s) := rfl

theorem runDropped_effect (n : DWord) (s : State) (htwin : hasTwin s = true) :
    (runDropped n s).twin = s.twin ∧ hasTwin (runDropped n s) = true
    ∧ (runDropped n s).batches = s.batches.filter (fun b => !(batchesFrom n s).contains b.d.batch)
    ∧ twinStatusBit 1 (runDropped n s) = true := by
  have hpart : ∀ u : State, u.variant = s.variant → hasTwin u = true := fun u hu => (hasTwin_of_variant hu).trans htwin
  unfold runDropped
  refine ⟨by simp [revertRepair], hpart _ (by simp [revertRepair]), by simp [revertRepair], ?_⟩
  rw [twinStatusBit_setTwinStatus 1 1 _ (hpart _ (by simp [revertRepair])) (by norm_num)]
  exact Bool.or_true _

theorem loseRun_effect (n : DWord) (b : Batch) (s : State) (htwin : hasTwin s = true) (hin : inLockstep s = true)
    (hb : findBatch n s = some b) :
    (loseRun n s).twin.role = .outOfLockstep ∧ (∀ b' ∈ (loseRun n s).batches, b'.d.batch ≠ n)
    ∧ twinStatusBit 1 (loseRun n s) = true ∧ twinStatusBit 5 (loseRun n s) = true := by
  obtain ⟨htw, hpart, hdropped, hlost⟩ := runDropped_effect n s htwin
  obtain ⟨hrole, -, hbatches, hbits⟩ := leaveLockstep_effect 5 (runDropped n s) hpart (by rw [inLockstep, htw]; exact hin)
  rw [loseRun_eq, hbatches, hdropped]
  refine ⟨hrole, fun b' hb' hn => ?_, (hbits 1 (by norm_num)).trans (by simp [hlost]), (hbits 5 (by norm_num)).trans (by simp)⟩
  have hkept := (List.mem_filter.1 hb').2
  simp [hn, mem_batchesFrom_of_findBatch hb] at hkept

/-! ### The four outcomes of a digest (R361, R365) -/

section
variable {tseq : Word} {n : DWord} {d mine : QWord} {fault : Bool} {b : Batch} {s : State}

theorem digestWaits (horder : inOrder true tseq s = true) (hb : findBatch n s = some b) (hopen : b.agreed = false)
    (hmine : b.digestMine = none) : ∃ t, exec (.digestReceive true tseq n d fault) s = .next t
      ∧ ∃ b' ∈ t.batches, b'.d = b.d ∧ b'.digestPeer = some d ∧ b'.peerFault = fault ∧ b'.agreed = false := by
  rw [exec_digestReceive_of_open tseq n d fault b s horder hb hopen, arbitrate_of_none (withPeerDigest d fault b) _ hmine]
  exact ⟨_, rfl, _, List.mem_of_find?_eq_some (findBatch_digestNoted n d fault b s hb), rfl, rfl, rfl, hopen⟩

theorem digestAgrees (horder : inOrder true tseq s = true) (hb : findBatch n s = some b) (hopen : b.agreed = false)
    (hmine : b.digestMine = some d) : ∃ t, exec (.digestReceive true tseq n d fault) s = .next t
      ∧ ∃ b' ∈ t.batches, b'.d = b.d ∧ b'.agreed = true := by
  have hnum := number_withPeerDigest n d fault b s hb
  have hfound := findBatch_judged n d fault b s hb
  obtain ⟨due, hagree⟩ := digestsAgree_eq_agree (withPeerDigest d fault b) d
    (judged (withPeerDigest d fault b) (digestNoted n d fault s))
  obtain ⟨b', hb', hd, hagreed, -⟩ := agree_marks n due _ _ hfound
  rw [exec_digestReceive_of_open tseq n d fault b s horder hb hopen,
    arbitrate_of_equal (withPeerDigest d fault b) d _ hmine rfl, hagree, hnum]
  exact ⟨_, rfl, b', hb', hd, hagreed⟩

theorem digestFaultHere (horder : inOrder true tseq s = true) (hb : findBatch n s = some b) (hopen : b.agreed = false)
    (hmine : b.digestMine = some mine) (hne : mine ≠ d) (hme : s.twin.faultSinceCommit = true) (hin : inLockstep s = true) :
    ∃ t, exec (.digestReceive true tseq n d false) s = .next t ∧ t.twin.role = .outOfLockstep
      ∧ (∀ b' ∈ t.batches, b'.d.batch ≠ n) ∧ t.regs.twinStatus.getLsbD 1 = true ∧ t.regs.twinStatus.getLsbD 5 = true := by
  have hnum := number_withPeerDigest n d false b s hb
  have hhere : (digestNoted n d false s).twin.faultSinceCommit = true := hme
  have hlost := loseRun_effect n _ _ ((hasTwin_judged n d false b s).trans (hasTwin_of_inOrder horder))
    ((inLockstep_judged n d false b s).trans hin) (findBatch_judged n d false b s hb)
  rw [exec_digestReceive_of_open tseq n d false b s horder hb hopen,
    arbitrate_of_one_fault (withPeerDigest d false b) mine d _ hmine rfl hne hhere, if_pos hhere, hnum]
  exact ⟨_, rfl, hlost⟩

theorem digestFaultThere (horder : inOrder true tseq s = true) (hb : findBatch n s = some b) (hopen : b.agreed = false)
    (hmine : b.digestMine = some mine) (hne : mine ≠ d) (hme : s.twin.faultSinceCommit = false) :
    ∃ t, exec (.digestReceive true tseq n d true) s = .next t ∧ t.twin.role = s.twin.role
      ∧ ∃ b' ∈ t.batches, b'.d = b.d ∧ b'.agreed = true ∧ 1 ∈ b'.twinDue := by
  have hnum := number_withPeerDigest n d true b s hb
  have hhere : (digestNoted n d true s).twin.faultSinceCommit = false := hme
  have hfound := (findBatch_of_batches (roleMark_keeps 9 _).2.2.1 n).trans (findBatch_judged n d true b s hb)
  obtain ⟨b', hb', hd, hagreed, hdue⟩ := agree_marks n [1] _ _ hfound
  rw [exec_digestReceive_of_open tseq n d true b s horder hb hopen,
    arbitrate_of_one_fault (withPeerDigest d true b) mine d _ hmine rfl hne hhere, if_neg (ne_true_of_eq_false hhere), hnum]
  exact ⟨_, rfl, by simp [agree, judged, digestNoted, noteTseq], b', hb', hd, hagreed, by simp [hdue]⟩

end

/-! ### Announcements (R359) -/

/-- A batch as announced, its start counted from the member's own egress frame and word. -/
def announcement (n : DWord) (frame : BitVec 6) (word : Byte) (freeze : Bool) (s : State) : Announced :=
  let now := s.link0.frame * 256 + s.link0.word
  let words := (frame.toNat * 256 + word.toNat + 16384 - now % 16384) % 16384
  ⟨n, s.power.fclk + words * (if halfRate .f0 s then 2 else 1), freeze⟩

theorem exec_batchAnnounce_of_inOrder (tseq : Word) (n : DWord) (frame : BitVec 6) (word : Byte) (freeze : Bool) (s : State)
    (horder : inOrder true tseq s = true) :
    exec (.batchAnnounce true tseq n frame word freeze) s = .next { noteTseq s with twin := { (noteTseq s).twin with
      announced := s.twin.announced ++ [announcement n frame word freeze s] } } := by
  simp only [exec, execBatchAnnounce, horder, if_true]
  rfl

theorem digestsDecide : Claims.DigestsDecide := by
  intro tseq n d fault freeze frame word b s horder
  refine ⟨fun hb _ hopen => ⟨digestWaits horder hb hopen, digestAgrees horder hb hopen, fun mine hmine hne hme hpeer hin => ?here,
    fun mine hmine hne hme hpeer => ?there⟩, ?announced, ?damagedDigest, ?damagedAnnouncement⟩
  case here => exact hpeer ▸ digestFaultHere horder hb hopen hmine hne hme hin
  case there => exact hpeer ▸ digestFaultThere horder hb hopen hmine hne hme
  case announced => exact ⟨_, _, exec_batchAnnounce_of_inOrder tseq n frame word freeze s horder, rfl, rfl⟩
  case damagedDigest => simp [exec, execDigestReceive, inOrder_of_damaged]
  case damagedAnnouncement => simp [exec, execBatchAnnounce, inOrder_of_damaged]

/-! ### Joining (R372, R373) -/

@[simp] theorem reply_twin (c : QueuedCall) (result : Nat) (data : List QWord) (s : State) :
    (reply c result data s).twin = s.twin := by
  simp only [reply, writeReply]
  split <;> simp [sendReply]

theorem exec_twinJoin (slot : Nat) (c : QueuedCall) (s : State) (hc : callOf slot 0x000D s = some c) :
    exec (.twinJoin slot) s = .next (startJoin c s) := by
  simp only [exec, execTwinJoin, hc]

/-- A call that meets every condition begins the join before the batch it names. -/
theorem startJoin_of_ready (c : QueuedCall) (s : State) (htwin : hasTwin s = true) (hrole : s.twin.role = .outOfLockstep)
    (hup : s.twin.tUp = true) (hagree : s.twin.capsAgree = true) (hline : s.twin.line = false) (htoken : s.twin.token = false) :
    startJoin c s = reply c resOk [] (setRole .joining { s with twin := { s.twin with
      joinBatch := some (BitVec.ofNat 32 (argOf c 0).toNat) } }) := by
  simp [startJoin, htwin, hrole, hup, hagree, hline, htoken]

theorem startJoin_of_not_ready (c : QueuedCall) (s : State) (htwin : hasTwin s = true)
    (h : s.twin.role ≠ .outOfLockstep ∨ s.twin.tUp = false ∨ s.twin.capsAgree = false ∨ s.twin.line = true ∨ s.twin.token = true) :
    startJoin c s = reply c resRefused [] s := by
  have hnot : ¬ (s.twin.role = .outOfLockstep && s.twin.tUp && s.twin.capsAgree && !s.twin.line && !s.twin.token) = true := by
    rcases h with h | h | h | h | h <;> simp [h]
  rw [startJoin, htwin, if_neg (by decide), if_neg hnot]

/-- The last item: the member is Mirror, and its stores stand as the items before left them. -/
theorem finishJoin_effect (next : DWord) (s : State) (htwin : hasTwin s = true) :
    (finishJoin next s).twin.role = .mirror ∧ (finishJoin next s).lastBatch = next - 1
    ∧ (finishJoin next s).twin.joinBatch = none ∧ (finishJoin next s).array = s.array
    ∧ (finishJoin next s).fabric = s.fabric := by
  unfold finishJoin
  refine ⟨?_, by simp [sendTwin], ?_, by simp [sendTwin], by simp [sendTwin]⟩
  · rw [(roleMark_keeps _ _).1, setRole_twin _ _ (by exact htwin)]
  · rw [(roleMark_keeps _ _).1, setRole_twin _ _ (by exact htwin)]
    rfl

theorem stateItemsAreTaken (tseq : Word) (item : StateItem) (s : State) (horder : inOrder true tseq s = true)
    (hrole : s.twin.role = .joining) :
    ((∀ n w, item ≠ .finish n w) → exec (.stateBlockReceive true tseq item) s = .next (applyItem item (noteTseq s)))
    ∧ (∀ n w, item = .finish n w → ∃ t, exec (.stateBlockReceive true tseq item) s = .next t ∧ t.twin.role = .mirror
      ∧ t.lastBatch = n - 1 ∧ t.twin.joinBatch = none ∧ t.array = s.array ∧ t.fabric = s.fabric) := by
  refine ⟨fun hitem => ?_, fun n w hitem => ?_⟩
  · simp only [exec, execStateBlockReceive, horder, hrole, if_true]
    cases item with
    | finish n w => exact absurd rfl (hitem n w)
    | _ => rfl
  · subst hitem
    have htwin : hasTwin s = true := hasTwin_of_inOrder horder
    refine ⟨finishJoin n (noteTseq s), ?_, finishJoin_effect n (noteTseq s) htwin⟩
    simp only [exec, execStateBlockReceive, horder, hrole, if_true]

theorem joinsProceed : Claims.JoinsProceed := by
  intro slot tseq item s htwin
  refine ⟨fun c hc => ?called, stateItemsAreTaken tseq item s, fun horder hrole => ?ignored, fun hrole => ?timeout⟩
  case called =>
    rw [exec_twinJoin slot c s hc]
    refine ⟨fun hrole hup hagree hline htoken => ?_, fun h => ?_⟩
    · rw [startJoin_of_ready c s htwin hrole hup hagree hline htoken]
      refine ⟨_, rfl, ?_⟩
      rw [reply_twin, setRole_twin _ _ (by exact htwin)]
      exact ⟨rfl, rfl⟩
    · rw [startJoin_of_not_ready c s htwin h]
  case ignored => simp only [exec, execStateBlockReceive, horder, if_true, if_neg hrole]
  case timeout =>
    obtain ⟨hfail, hbits⟩ := failJoin_of_joining s htwin hrole
    refine ⟨_, rfl, ?_⟩
    rw [hfail]
    exact ⟨rfl, rfl, (hbits 8 (by norm_num)).trans (by simp)⟩

/-- Settles O45: capabilities, digests and joins each decide on what the peer sent in order, and a damaged block decides nothing. -/
theorem twinJoins : Obligations.TwinJoins := ⟨capabilitiesDecide, digestsDecide, joinsProceed⟩

end Sys2Proof.Machine
end

section
/-! PROOF. What each command reaches (O4, O5, O6, O9, O10). -/

namespace Sys2Proof.Machine

/-! ### What a command leaves alone -/

/-- The commands that can change the fuses (R445, R448). -/
def programsFuses : Instr → Bool
  | .otpProgrammed | .keyProvision .. => true
  | _ => false

/-- The commands that can change the granted debug level (R557, R558, R560). -/
def setsLevel : Instr → Bool
  | .registerWrite .. | .debugLevel .. | .railsGood .. | .railFail .. | .hrefLoss | .debugResponse .. | .debugWrite .. |
    .response .. | .debugReset => true
  | _ => false

/-- What Common Store reads at every address: its bytes, their deviations, and which granules are valid. -/
def storeReads (s : State) : List Host.Cell × Table (BitVec 5) × NatSet := (s.store.cs, s.store.csDev, s.store.granules)

/-- In `u`, which the command leaves of `s`, the queue and the variant stand, and so does each kind of state that the command does not
reach by the lists of Safety.lean and the two above. -/
def keptBy (c : Instr) (s u : State) : Prop :=
  (u.pending = s.pending ∧ u.variant = s.variant)
  ∧ (programsFuses c = false → u.otp = s.otp)
  ∧ (setsLevel c = false → u.regs.debugLevel = s.regs.debugLevel)
  ∧ (writesStore c = false → storeReads u = storeReads s)
  ∧ (movesPins c = false → u.pins = s.pins)
  ∧ (movesStream c = false → u.stream = s.stream)
  ∧ (movesPower c = false → u.power = s.power)
  ∧ (movesLoader c = false → u.loader = s.loader)
  ∧ (movesRepair c = false → u.repair = s.repair)
  ∧ (movesConservator c = false → u.conservator = s.conservator)
  ∧ (stages c = false → u.shadow = s.shadow)
  ∧ (applies c = false → u.inForce = s.inForce)
  ∧ (crosses c = false → u.crossReads = s.crossReads)

/-- Every command keeps what its own frame says. -/
theorem keptBy_of_exec (c : Instr) (s u : State) (h : exec c s = .next u) : keptBy c s u := by
  cases c with
  | registerWrite m target pcieLost =>
    dsimp only [keptBy, setsLevel, writesStore, movesPins, movesStream, movesPower, movesLoader, movesRepair, movesConservator, stages,
      applies]
    simp [storeReads, execRegisterWrite_frame m target pcieLost s u h]
  | regReadTimeout m =>
    dsimp only [keptBy, crosses]
    simp [storeReads, execRegReadTimeout_frame m s u h]
  | stageCommit m data pcieLost =>
    dsimp only [keptBy, movesPins, movesPower, applies]
    simp [storeReads, execStageCommit_frame m data pcieLost s u h]
  | stagedSetApply =>
    dsimp only [keptBy, movesPins, movesPower, movesRepair, movesConservator, applies]
    simp [storeReads, execStagedSetApply_frame s u h]
  | tableEntryFetch m reg =>
    dsimp only [keptBy, crosses]
    simp [storeReads, execTableEntryFetch_frame m reg s u h]
  | tableEntryWrite m reg data pcieLost =>
    dsimp only [keptBy, movesPins, movesRepair, movesConservator, stages]
    simp [storeReads, execTableEntryWrite_frame m reg data pcieLost s u h]
  | correctionLogPop m => simp [keptBy, storeReads, execCorrectionLogPop_frame m s u h]
  | loadBegin m slot group devIndex =>
    dsimp only [keptBy, movesStream, movesPower, movesLoader, movesRepair, movesConservator]
    simp [storeReads, execLoadBegin_frame m slot group devIndex s u h]
  | loadAbort m =>
    dsimp only [keptBy, movesLoader, movesRepair]
    simp [storeReads, execLoadAbort_frame m s u h]
  | resync m =>
    dsimp only [keptBy, movesPower]
    simp [storeReads, execResync_frame m s u h]
  | release m =>
    dsimp only [keptBy, movesPower]
    simp [storeReads, execRelease_frame m s u h]
  | run m value =>
    dsimp only [keptBy, movesPins]
    simp [storeReads, execRun_frame m value s u h]
  | retrain m link =>
    dsimp only [keptBy, movesPower]
    simp [storeReads, execRetrain_frame m link s u h]
  | failResume m =>
    dsimp only [keptBy, movesPower]
    simp [storeReads, execFailResume_frame m s u h]
  | detach m =>
    dsimp only [keptBy, movesPower]
    simp [storeReads, execDetach_frame m s u h]
  | remeasure m =>
    dsimp only [keptBy, movesPower]
    simp [storeReads, execRemeasure_frame m s u h]
  | countClear m =>
    dsimp only [keptBy, movesPower]
    simp [storeReads, execCountClear_frame m s u h]
  | logClear m =>
    dsimp only [keptBy, movesPower]
    simp [storeReads, execLogClear_frame m s u h]
  | conservatorRestart m =>
    dsimp only [keptBy, movesPower, movesConservator]
    simp [storeReads, execConservatorRestart_frame m s u h]
  | checkTest m value => simp [keptBy, storeReads, execCheckTest_frame m value s u h]
  | hostSleep m pcieDown =>
    dsimp only [keptBy, movesPins, movesPower]
    simp [storeReads, execHostSleep_frame m pcieDown s u h]
  | pwrRequestField m value => simp [keptBy, storeReads, execPwrRequestField_frame m value s u h]
  | securityLock m data => simp [keptBy, storeReads, execSecurityLock_frame m data s u h]
  | otpProgrammed =>
    dsimp only [keptBy, programsFuses, movesLoader, movesRepair]
    simp [storeReads, execOtpProgrammed_frame s u h]
  | pinLockKey m data =>
    dsimp only [keptBy, movesPins]
    simp [storeReads, execPinLockKey_frame m data s u h]
  | debugLevel m level =>
    dsimp only [keptBy, setsLevel]
    simp [storeReads, execDebugLevel_frame m level s u h]
  | alertClr m key => simp [keptBy, storeReads, execAlertClr_frame m key s u h]
  | coreRestart m key cores => simp [keptBy, storeReads, execCoreRestart_frame m key cores s u h]
  | mailboxDoorbell m slot =>
    dsimp only [keptBy, movesPower]
    simp [storeReads, execMailboxDoorbell_frame m slot s u h]
  | pinFunctionChange m index value =>
    dsimp only [keptBy, movesPins]
    simp [storeReads, execPinFunctionChange_frame m index value s u h]
  | batchDoorbell value =>
    dsimp only [keptBy, movesStream]
    simp [storeReads, execBatchDoorbell_frame value s u h]
  | batchRingSetup size value =>
    dsimp only [keptBy, movesStream]
    simp [storeReads, execBatchRingSetup_frame size value s u h]
  | lcons link value =>
    dsimp only [keptBy, writesStore, movesStream]
    simp [storeReads, execLcons_frame link value s u h]
  | lsize link value =>
    dsimp only [keptBy, writesStore, movesStream]
    simp [storeReads, execLsize_frame link value s u h]
  | rcons value =>
    dsimp only [keptBy, movesStream, movesLoader]
    simp [storeReads, execRcons_frame value s u h]
  | sgo data =>
    dsimp only [keptBy, movesStream]
    simp [storeReads, execSgo_frame data s u h]
  | stimDmaDone bytes =>
    dsimp only [keptBy, writesStore, movesStream]
    simp [storeReads, execStimDmaDone_frame bytes s u h]
  | imageFrameTake slot =>
    dsimp only [keptBy, movesStream, movesLoader, movesRepair]
    simp [storeReads, execImageFrameTake_frame slot s u h]
  | repeatRetry frame =>
    dsimp only [keptBy, movesStream, movesLoader]
    simp [storeReads, execRepeatRetry_frame frame s u h]
  | loadDeadline =>
    dsimp only [keptBy, movesLoader, movesRepair]
    simp [storeReads, execLoadDeadline_frame s u h]
  | verify =>
    dsimp only [keptBy, movesLoader, movesRepair]
    simp [storeReads, execVerify_frame s u h]
  | verificationDone =>
    dsimp only [keptBy, movesPower, movesLoader, movesRepair]
    simp [storeReads, execVerificationDone_frame s u h]
  | pllLock =>
    dsimp only [keptBy, movesLoader]
    simp [storeReads, execPllLock_frame s u h]
  | pllLockTimeout =>
    dsimp only [keptBy, movesLoader, movesRepair]
    simp [storeReads, execPllLockTimeout_frame s u h]
  | stageRelease =>
    dsimp only [keptBy, writesStore, movesStream, movesPower, movesLoader, movesRepair, movesConservator]
    simp [storeReads, execStageRelease_frame s u h]
  | regWrite dir addr master data => simp [keptBy, storeReads, execRegWrite_frame dir addr master data s u h]
  | regRead addr master tag =>
    dsimp only [keptBy, crosses]
    simp [storeReads, execRegRead_frame addr master tag s u h]
  | regReply tag data status =>
    dsimp only [keptBy, crosses]
    simp [storeReads, execRegReply_frame tag data status s u h]
  | imageFrame frame prefixBits payload =>
    dsimp only [keptBy, writesStore, movesLoader]
    simp [storeReads, execImageFrame_frame frame prefixBits payload s u h]
  | repeatRequest frame reason =>
    dsimp only [keptBy, movesStream, movesLoader]
    simp [storeReads, execRepeatRequest_frame frame reason s u h]
  | ledgerBatch link records =>
    dsimp only [keptBy, movesStream]
    simp [storeReads, execLedgerBatch_frame link records s u h]
  | ledgerWriteback link =>
    dsimp only [keptBy, movesPins, movesStream, movesRepair]
    simp [storeReads, execLedgerWriteback_frame link s u h]
  | event code unit detail => simp [keptBy, storeReads, execEvent_frame code unit detail s u h]
  | timeMark ns =>
    dsimp only [keptBy, movesPower]
    simp [storeReads, execTimeMark_frame ns s u h]
  | serviceCall core tag call args => simp [keptBy, storeReads, execServiceCall_frame core tag call args s u h]
  | serviceReply core tag result data => simp [keptBy, storeReads, execServiceReply_frame core tag result data s u h]
  | heartbeat dir power reset ticks ack =>
    dsimp only [keptBy, movesPins, movesStream]
    simp [storeReads, execHeartbeat_frame dir power reset ticks ack s u h]
  | heartbeatDue side => simp [keptBy, storeReads, execHeartbeatDue_frame side s u h]
  | barrierCellReceive dir lane cell =>
    dsimp only [keptBy, movesPins]
    simp [storeReads, execBarrierCellReceive_frame dir lane cell s u h]
  | nak dir ack => simp [keptBy, storeReads, execNak_frame dir ack s u h]
  | retransmitTimeout dir => simp [keptBy, storeReads, execRetransmitTimeout_frame dir s u h]
  | barrierLaneFail dir lane => simp [keptBy, storeReads, execBarrierLaneFail_frame dir lane s u h]
  | spareReq dir lane =>
    dsimp only [keptBy, movesLoader, movesRepair]
    simp [storeReads, execSpareReq_frame dir lane s u h]
  | barrierTrained dir locked =>
    dsimp only [keptBy, movesLoader, movesRepair]
    simp [storeReads, execBarrierTrained_frame dir locked s u h]
  | counterpartSilent side =>
    dsimp only [keptBy, movesLoader, movesRepair]
    simp [storeReads, execCounterpartSilent_frame side s u h]
  | descriptorFetch =>
    dsimp only [keptBy, writesStore, movesStream]
    simp [storeReads, execDescriptorFetch_frame s u h]
  | batchIssue d => simp [keptBy, storeReads, execBatchIssue_frame d s u h]
  | stimRefill =>
    dsimp only [keptBy, writesStore]
    simp [storeReads, execStimRefill_frame s u h]
  | burstBegin =>
    dsimp only [keptBy, writesStore, movesPower]
    simp [storeReads, execBurstBegin_frame s u h]
  | validClear =>
    dsimp only [keptBy, movesPower]
    simp [storeReads, execValidClear_frame s u h]
  | passBegin => simp [keptBy, storeReads, execPassBegin_frame s u h]
  | nop g bp idx => simp [keptBy, storeReads, execNop_frame g bp idx s u h]
  | eval g bp idx => simp [keptBy, storeReads, execEval_frame g bp idx s u h]
  | evalExport g bp idx => simp [keptBy, storeReads, execEvalExport_frame g bp idx s u h]
  | evalCommit g bp idx => simp [keptBy, storeReads, execEvalCommit_frame g bp idx s u h]
  | evalCommitExport g bp idx => simp [keptBy, storeReads, execEvalCommitExport_frame g bp idx s u h]
  | send g bp idx => simp [keptBy, storeReads, execSend_frame g bp idx s u h]
  | meshSend g bp idx => simp [keptBy, storeReads, execMeshSend_frame g bp idx s u h]
  | stim g bp idx => simp [keptBy, storeReads, execStim_frame g bp idx s u h]
  | eval3 g bp idx => simp [keptBy, storeReads, execEval3_frame g bp idx s u h]
  | eval3Commit g bp idx => simp [keptBy, storeReads, execEval3Commit_frame g bp idx s u h]
  | endOp g bp idx => simp [keptBy, storeReads, execEndOp_frame g bp idx s u h]
  | illegalInstruction g bp idx => simp [keptBy, storeReads, execIllegalInstruction_frame g bp idx s u h]
  | poisonedFetch g bp idx => simp [keptBy, storeReads, execPoisonedFetch_frame g bp idx s u h]
  | boulevardDelivery step => simp [keptBy, storeReads, execBoulevardDelivery_frame step s u h]
  | passTail =>
    dsimp only [keptBy, movesPower]
    simp [storeReads, execPassTail_frame s u h]
  | passTokenReceive link block => simp [keptBy, storeReads, execPassTokenReceive_frame link block s u h]
  | tokenResend => simp [keptBy, storeReads, execTokenResend_frame s u h]
  | meshBlockReceive link block wordsOk => simp [keptBy, storeReads, execMeshBlockReceive_frame link block wordsOk s u h]
  | meshHold step => simp [keptBy, storeReads, execMeshHold_frame step s u h]
  | meshTimeout =>
    dsimp only [keptBy, movesPower]
    simp [storeReads, execMeshTimeout_frame s u h]
  | egressBegin =>
    dsimp only [keptBy, movesRepair, movesConservator]
    simp [storeReads, execEgressBegin_frame s u h]
  | flushLoad => simp [keptBy, storeReads, execFlushLoad_frame s u h]
  | rowRead =>
    dsimp only [keptBy, writesStore]
    simp [storeReads, execRowRead_frame s u h]
  | delivery => simp [keptBy, storeReads, execDelivery_frame s u h]
  | bankRelease => simp [keptBy, storeReads, execBankRelease_frame s u h]
  | docentStop d => simp [keptBy, storeReads, execDocentStop_frame d s u h]
  | docentResume => simp [keptBy, storeReads, execDocentResume_frame s u h]
  | siteStrobe site =>
    dsimp only [keptBy, movesRepair]
    simp [storeReads, execSiteStrobe_frame site s u h]
  | bitFailProcess =>
    dsimp only [keptBy, movesRepair]
    simp [storeReads, execBitFailProcess_frame s u h]
  | blockMemoryWrite block => simp [keptBy, storeReads, execBlockMemoryWrite_frame block s u h]
  | vaultWrite v => simp [keptBy, storeReads, execVaultWrite_frame v s u h]
  | vaultRead v => simp [keptBy, storeReads, execVaultRead_frame v s u h]
  | vaultPush v => simp [keptBy, storeReads, execVaultPush_frame v s u h]
  | vaultPop v => simp [keptBy, storeReads, execVaultPop_frame v s u h]
  | vaultClr v => simp [keptBy, storeReads, execVaultClr_frame v s u h]
  | avenueContention avenue => simp [keptBy, storeReads, execAvenueContention_frame avenue s u h]
  | contentionEnd avenue => simp [keptBy, storeReads, execContentionEnd_frame avenue s u h]
  | ingressWord link lane word =>
    dsimp only [keptBy, movesRepair, movesConservator]
    simp [storeReads, execIngressWord_frame link lane word s u h]
  | frameCrc link lane quarter echo64 =>
    dsimp only [keptBy, movesRepair, movesConservator]
    simp [storeReads, execFrameCrc_frame link lane quarter echo64 s u h]
  | status link lane quarter => simp [keptBy, storeReads, execStatus_frame link lane quarter s u h]
  | desc link lane quarter => simp [keptBy, storeReads, execDesc_frame link lane quarter s u h]
  | train link lane quarter => simp [keptBy, storeReads, execTrain_frame link lane quarter s u h]
  | sideChannelLockLoss link lane => simp [keptBy, storeReads, execSideChannelLockLoss_frame link lane s u h]
  | arrivalDrift link lane drift64 => simp [keptBy, storeReads, execArrivalDrift_frame link lane drift64 s u h]
  | linkTrain link =>
    dsimp only [keptBy, movesRepair, movesConservator]
    simp [storeReads, execLinkTrain_frame link s u h]
  | linkUp link => simp [keptBy, storeReads, execLinkUp_frame link s u h]
  | trainingStepTimeout link lane => simp [keptBy, storeReads, execTrainingStepTimeout_frame link lane s u h]
  | partnerLost link lane => simp [keptBy, storeReads, execPartnerLost_frame link lane s u h]
  | partnerRetry link lane echo64 =>
    dsimp only [keptBy, movesRepair, movesConservator]
    simp [storeReads, execPartnerRetry_frame link lane echo64 s u h]
  | remeasurementDone link echoes => simp [keptBy, storeReads, execRemeasurementDone_frame link echoes s u h]
  | alignmentApply =>
    dsimp only [keptBy, movesRepair, movesConservator]
    simp [storeReads, execAlignmentApply_frame s u h]
  | recordEnter link => simp [keptBy, storeReads, execRecordEnter_frame link s u h]
  | gapRecord link site => simp [keptBy, storeReads, execGapRecord_frame link site s u h]
  | recordPassOn link =>
    dsimp only [keptBy, writesStore]
    simp [storeReads, execRecordPassOn_frame link s u h]
  | batchCommit link =>
    dsimp only [keptBy, movesPins, movesStream, movesPower, movesRepair]
    simp [storeReads, execBatchCommit_frame link s u h]
  | twinHeartbeatReceive crcOk role token epoch last ack join =>
    simp [keptBy, storeReads, execTwinHeartbeatReceive_frame crcOk role token epoch last ack join s u h]
  | twinHeartbeatDue => simp [keptBy, storeReads, execTwinHeartbeatDue_frame s u h]
  | twinBlockResend => simp [keptBy, storeReads, execTwinBlockResend_frame s u h]
  | tLost => simp [keptBy, storeReads, execTLost_frame s u h]
  | leaseRenew => simp [keptBy, storeReads, execLeaseRenew_frame s u h]
  | leaseLapse => simp [keptBy, storeReads, execLeaseLapse_frame s u h]
  | tokenTake =>
    dsimp only [keptBy, movesStream, movesPower, movesRepair]
    simp [storeReads, execTokenTake_frame s u h]
  | tokenWaitTimeout => simp [keptBy, storeReads, execTokenWaitTimeout_frame s u h]
  | capabilityReceive block => simp [keptBy, storeReads, execCapabilityReceive_frame block s u h]
  | batchAnnounce crcOk tseq batch frame word freeze =>
    simp [keptBy, storeReads, execBatchAnnounce_frame crcOk tseq batch frame word freeze s u h]
  | digestReceive crcOk tseq batch digest fault =>
    dsimp only [keptBy, movesStream, movesPower, movesRepair]
    simp [storeReads, execDigestReceive_frame crcOk tseq batch digest fault s u h]
  | handover block => simp [keptBy, storeReads, execHandover_frame block s u h]
  | twinJoin slot => simp [keptBy, storeReads, execTwinJoin_frame slot s u h]
  | stateBlockReceive crcOk tseq item =>
    dsimp only [keptBy, movesRepair]
    simp [storeReads, execStateBlockReceive_frame crcOk tseq item s u h]
  | joinAck block => simp [keptBy, storeReads, execJoinAck_frame block s u h]
  | joinTimeout => simp [keptBy, storeReads, execJoinTimeout_frame s u h]
  | sweepSignatureReceive crcOk tseq sweep => simp [keptBy, storeReads, execSweepSignatureReceive_frame crcOk tseq sweep s u h]
  | surveySample point => simp [keptBy, storeReads, execSurveySample_frame point s u h]
  | hostReadingCopy busy => simp [keptBy, storeReads, execHostReadingCopy_frame busy s u h]
  | upsetWindow =>
    dsimp only [keptBy, movesRepair, movesConservator]
    simp [storeReads, execUpsetWindow_frame s u h]
  | throttleRaise => simp [keptBy, storeReads, execThrottleRaise_frame s u h]
  | throttleLower => simp [keptBy, storeReads, execThrottleLower_frame s u h]
  | galleryPowerUp => simp [keptBy, storeReads, execGalleryPowerUp_frame s u h]
  | patrolCycle => simp [keptBy, storeReads, execPatrolCycle_frame s u h]
  | lineRepair slot => simp [keptBy, storeReads, execLineRepair_frame slot s u h]
  | frameCheck =>
    dsimp only [keptBy, writesStore, movesRepair, movesConservator]
    simp [storeReads, execFrameCheck_frame s u h]
  | sweepEnd =>
    dsimp only [keptBy, writesStore, movesRepair, movesConservator]
    simp [storeReads, execSweepEnd_frame s u h]
  | read header =>
    dsimp only [keptBy, writesStore]
    simp [storeReads, execRead_frame header s u h]
  | write header flits =>
    dsimp only [keptBy, writesStore]
    simp [storeReads, execWrite_frame header flits s u h]
  | exclRead header =>
    dsimp only [keptBy, writesStore]
    simp [storeReads, execExclRead_frame header s u h]
  | condWrite header flits =>
    dsimp only [keptBy, writesStore]
    simp [storeReads, execCondWrite_frame header flits s u h]
  | completion header flits => simp [keptBy, storeReads, execCompletion_frame header flits s u h]
  | asleepResend src tag =>
    dsimp only [keptBy, writesStore]
    simp [storeReads, execAsleepResend_frame src tag s u h]
  | urgencyRise src tag => simp [keptBy, storeReads, execUrgencyRise_frame src tag s u h]
  | routeSwitch entries => simp [keptBy, storeReads, execRouteSwitch_frame entries s u h]
  | reservationBreak core => simp [keptBy, storeReads, execReservationBreak_frame core s u h]
  | bankTestStart => simp [keptBy, storeReads, execBankTestStart_frame s u h]
  | bankMapSwitch =>
    dsimp only [keptBy, writesStore]
    simp [storeReads, execBankMapSwitch_frame s u h]
  | marchDone passed =>
    dsimp only [keptBy, movesStream, movesPower, movesLoader, movesRepair, movesConservator]
    simp [storeReads, execMarchDone_frame passed s u h]
  | bankGroupSleep k => simp [keptBy, storeReads, execBankGroupSleep_frame k s u h]
  | domainPowerDown d =>
    dsimp only [keptBy, movesPower]
    simp [storeReads, execDomainPowerDown_frame d s u h]
  | wakePin sample =>
    dsimp only [keptBy, movesPower]
    simp [storeReads, execWakePin_frame sample s u h]
  | perstDeassert =>
    dsimp only [keptBy, movesPower]
    simp [storeReads, execPerstDeassert_frame s u h]
  | controlBusWake =>
    dsimp only [keptBy, movesPower]
    simp [storeReads, execControlBusWake_frame s u h]
  | powerTransitionDone =>
    dsimp only [keptBy, movesPins, movesPower, movesConservator]
    simp [storeReads, execPowerTransitionDone_frame s u h]
  | railsGood side =>
    dsimp only [keptBy, setsLevel, movesPins, movesStream, movesPower, movesLoader, stages, applies, crosses]
    simp [storeReads, execRailsGood_frame side s u h]
  | railFail side =>
    dsimp only [keptBy, setsLevel, writesStore, movesPins, movesStream, movesPower, movesLoader, movesRepair, movesConservator, stages,
      applies, crosses]
    simp [storeReads, execRailFail_frame side s u h]
  | trefLoss =>
    dsimp only [keptBy, movesPower]
    simp [storeReads, execTrefLoss_frame s u h]
  | trefReturn =>
    dsimp only [keptBy, movesPins, movesPower]
    simp [storeReads, execTrefReturn_frame s u h]
  | hrefLoss =>
    dsimp only [keptBy, setsLevel, movesPins, movesStream, movesPower, movesLoader, stages, applies, crosses]
    simp [storeReads, execHrefLoss_frame s u h]
  | clockChange =>
    dsimp only [keptBy, movesPower]
    simp [storeReads, execClockChange_frame s u h]
  | relockFail =>
    dsimp only [keptBy, movesPower, stages, applies]
    simp [storeReads, execRelockFail_frame s u h]
  | fieldResetDuringLoad =>
    dsimp only [keptBy, movesLoader]
    simp [storeReads, execFieldResetDuringLoad_frame s u h]
  | watchdogExpiry core => simp [keptBy, storeReads, execWatchdogExpiry_frame core s u h]
  | coreRestarted core => simp [keptBy, storeReads, execCoreRestarted_frame core s u h]
  | serviceCallTimeout slot => simp [keptBy, storeReads, execServiceCallTimeout_frame slot s u h]
  | loadReport slot => simp [keptBy, storeReads, execLoadReport_frame slot s u h]
  | keyProvision slot =>
    dsimp only [keptBy, programsFuses]
    simp [storeReads, execKeyProvision_frame slot s u h]
  | barrierCounters slot => simp [keptBy, storeReads, execBarrierCounters_frame slot s u h]
  | linkCounters slot => simp [keptBy, storeReads, execLinkCounters_frame slot s u h]
  | snapshotCopy slot => simp [keptBy, storeReads, execSnapshotCopy_frame slot s u h]
  | fabricCapture slot => simp [keptBy, storeReads, execFabricCapture_frame slot s u h]
  | captureOnStop => simp [keptBy, storeReads, execCaptureOnStop_frame s u h]
  | fabricReadback slot => simp [keptBy, storeReads, execFabricReadback_frame slot s u h]
  | memInfo slot => simp [keptBy, storeReads, execMemInfo_frame slot s u h]
  | raConfigure slot =>
    dsimp only [keptBy, movesRepair, movesConservator]
    simp [storeReads, execRaConfigure_frame slot s u h]
  | raClear slot =>
    dsimp only [keptBy, movesRepair, movesConservator]
    simp [storeReads, execRaClear_frame slot s u h]
  | raRead slot => simp [keptBy, storeReads, execRaRead_frame slot s u h]
  | raStatus slot => simp [keptBy, storeReads, execRaStatus_frame slot s u h]
  | surveyRead slot => simp [keptBy, storeReads, execSurveyRead_frame slot s u h]
  | scrubUnlock slot => simp [keptBy, storeReads, execScrubUnlock_frame slot s u h]
  | checkWrite slot =>
    dsimp only [keptBy, writesStore]
    simp [storeReads, execCheckWrite_frame slot s u h]
  | checkRead slot => simp [keptBy, storeReads, execCheckRead_frame slot s u h]
  | checkInject slot => simp [keptBy, storeReads, execCheckInject_frame slot s u h]
  | scrubCounters slot => simp [keptBy, storeReads, execScrubCounters_frame slot s u h]
  | nocStatus slot => simp [keptBy, storeReads, execNocStatus_frame slot s u h]
  | eventRead slot => simp [keptBy, storeReads, execEventRead_frame slot s u h]
  | debugChallenge slot => simp [keptBy, storeReads, execDebugChallenge_frame slot s u h]
  | debugResponse slot =>
    dsimp only [keptBy, setsLevel]
    simp [storeReads, execDebugResponse_frame slot s u h]
  | traceConfig slot => simp [keptBy, storeReads, execTraceConfig_frame slot s u h]
  | connect flags => simp [keptBy, storeReads, execConnect_frame flags s u h]
  | debugRead space addr count => simp [keptBy, storeReads, execDebugRead_frame space addr count s u h]
  | debugWrite space addr words =>
    dsimp only [keptBy, setsLevel, writesStore, movesPins, movesStream, movesPower, movesLoader, movesRepair, movesConservator, stages,
      applies]
    simp [storeReads, execDebugWrite_frame space addr words s u h]
  | halt cores =>
    dsimp only [keptBy, movesPins]
    simp [storeReads, execHalt_frame cores s u h]
  | resume cores => simp [keptBy, storeReads, execResume_frame cores s u h]
  | step core n => simp [keptBy, storeReads, execStep_frame core n s u h]
  | stepEnd core =>
    dsimp only [keptBy, movesPins]
    simp [storeReads, execStepEnd_frame core s u h]
  | coreStatus => simp [keptBy, storeReads, execCoreStatus_frame s u h]
  | challenge level => simp [keptBy, storeReads, execChallenge_frame level s u h]
  | response token =>
    dsimp only [keptBy, setsLevel]
    simp [storeReads, execResponse_frame token s u h]
  | nonceExpiry => simp [keptBy, storeReads, execNonceExpiry_frame s u h]
  | challengeLockoutEnd => simp [keptBy, storeReads, execChallengeLockoutEnd_frame s u h]
  | trigger channel sources sinks matchIndex => simp [keptBy, storeReads, execTrigger_frame channel sources sinks matchIndex s u h]
  | trace max => simp [keptBy, storeReads, execTrace_frame max s u h]
  | crossTrigger channel source =>
    dsimp only [keptBy, movesPins]
    simp [storeReads, execCrossTrigger_frame channel source s u h]
  | tracePacket core port value =>
    dsimp only [keptBy, writesStore]
    simp [storeReads, execTracePacket_frame core port value s u h]
  | debugBreak => simp [keptBy, storeReads, execDebugBreak_frame s u h]
  | debugReset =>
    dsimp only [keptBy, setsLevel, movesPins, movesStream, movesPower, movesLoader, stages, applies, crosses]
    simp [storeReads, execDebugReset_frame s u h]
  | debugFrame body crc => simp [keptBy, storeReads, execDebugFrame_frame body crc s u h]
  | resetHoldEnd => simp [keptBy, storeReads, execResetHoldEnd_frame s u h]
  | handlerStart =>
    dsimp only [keptBy, movesPins]
    simp [storeReads, execHandlerStart_frame s u h]
  | fabricCycle =>
    dsimp only [keptBy, movesPower]
    simp [storeReads, execFabricCycle_frame s u h]
  | egressWord =>
    dsimp only [keptBy, writesStore]
    simp [storeReads, execEgressWord_frame s u h]
  | quarterLost link lane quarter crcOk =>
    dsimp only [keptBy, movesRepair, movesConservator]
    simp [storeReads, execQuarterLost_frame link lane quarter crcOk s u h]
  | frameApertureWrite slot offset bytes =>
    dsimp only [keptBy, movesLoader]
    simp [storeReads, execFrameApertureWrite_frame slot offset bytes s u h]
  | padLevelChange index level =>
    dsimp only [keptBy, movesPins]
    simp [storeReads, execPadLevelChange_frame index level s u h]
  | breakpoint core =>
    dsimp only [keptBy, movesPins]
    simp [storeReads, execBreakpoint_frame core s u h]
  | watchdogReload core => simp [keptBy, storeReads, execWatchdogReload_frame core s u h]
  | pllRelocked =>
    dsimp only [keptBy, movesPower]
    simp [storeReads, execPllRelocked_frame s u h]
  | wordLock lane => simp [keptBy, storeReads, execWordLock_frame lane s u h]

/-! ### Every command answers (O9) -/

theorem exec_answers (c : Instr) (s : State) : ∃ t, exec c s = .next t := by
  cases c <;> exact ⟨_, rfl⟩

/-- Settles O9: every command's meaning ends in a next state, which keeps the queue and the variant. -/
theorem everyCommandAnswers : Obligations.EveryCommandAnswers := by
  intro c s
  obtain ⟨t, h⟩ := exec_answers c s
  obtain ⟨⟨hpending, hvariant⟩, -⟩ := keptBy_of_exec c s t h
  exact ⟨t, h, hpending, hvariant⟩

/-- Settles O1: `step` takes the queue's front. -/
theorem stepRunsFrontCommand : Obligations.StepRunsFrontCommand :=
  ⟨fun _ _ _ => rfl, fun s hs => by simp only [step, hs]⟩

/-! ### Each kind of state is reached by its own commands (O10) -/

theorem csByte_of_storeReads {s t : State} (h : storeReads t = storeReads s) (a : Nat) : csByte a t.store = csByte a s.store := by
  simp only [storeReads, Prod.mk.injEq] at h
  obtain ⟨hcs, hdev, hgranules⟩ := h
  simp [csByte, csDecode, granuleValid, hcs, hdev, hgranules]

/-- Settles O10: each kind of state is kept by every command outside its list. -/
theorem onlyItsCommandsReachIt : Obligations.OnlyItsCommandsReachIt := by
  intro c s t h
  obtain ⟨-, -, -, hstore, hothers⟩ := keptBy_of_exec c s t h
  refine ⟨fun hc => ⟨congrArg Prod.fst (hstore hc), csByte_of_storeReads (hstore hc)⟩, hothers⟩

/-! ### Fuses (O4, O5) -/

theorem otpKept_refl (a : Otp) : otpKept a a := by simp [otpKept]

/-- The bits that a security request names are added to the fuses (R444, R445). -/
theorem execOtpProgrammed_otpKept (s u : State) (h : execOtpProgrammed s = .next u) : otpKept s.otp u.otp := by
  simp only [execOtpProgrammed, Host.Outcome.next.injEq] at h
  subst h
  split
  · exact otpKept_refl _
  · split <;> split <;> simp +contextual [otpKept]

/-- A key goes into a slot that is not yet programmed (R448). -/
theorem provision_otpKept (c : QueuedCall) (key : Option (BitVec 256)) (s : State) : otpKept s.otp (provision c key s).otp := by
  unfold provision
  split
  · simpa using otpKept_refl _
  · split
    · simpa using otpKept_refl _
    · next hfree =>
      have hne : ∀ i, s.otp.programmed.getLsbD i = true → i ≠ (argOf c 0).toNat := fun i hi he => hfree (he ▸ hi)
      cases key with
      | none => simpa using otpKept_refl _
      | some key => simp +contextual [otpKept, tget_tput, hne]

theorem exec_keyProvision_otpKept (slot : Nat) (s u : State) (h : exec (.keyProvision slot) s = .next u) :
    otpKept s.otp u.otp := by
  cases hc : callOf slot 0x0002 s with
  | none =>
    have hexec : exec (.keyProvision slot) s = .next s := by simp only [exec, execKeyProvision, hc]
    cases hexec.symm.trans h
    exact otpKept_refl _
  | some c =>
    cases (exec_keyProvision slot c s hc).symm.trans h
    exact provision_otpKept c _ s

/-- Settles O4: only two commands change the fuses, and each adds to them. -/
theorem fusesOneWay : Obligations.FusesOneWay := by
  intro c s t h
  cases hc : programsFuses c with
  | false =>
    obtain ⟨-, hotp, -⟩ := keptBy_of_exec c s t h
    rw [hotp hc]
    exact otpKept_refl _
  | true =>
    cases c with
    | otpProgrammed => exact execOtpProgrammed_otpKept s t h
    | keyProvision slot => exact exec_keyProvision_otpKept slot s t h
    | _ => cases hc

theorem onlyProgrammingChangesFuses : Claims.OnlyProgrammingChangesFuses := by
  intro c s t h hprogram hprovision
  obtain ⟨-, hotp, -⟩ := keptBy_of_exec c s t h
  refine hotp ?_
  cases c with
  | otpProgrammed => exact absurd rfl hprogram
  | keyProvision slot => exact absurd rfl (hprovision slot)
  | _ => rfl

/-- Of the commands that can change the debug level, all but a response lower it at most (R557, R558). -/
theorem levelRaisedOnlyByResponse : Claims.LevelRaisedOnlyByResponse := by
  intro c s t h hresponse hcall
  cases hc : setsLevel c with
  | false =>
    obtain ⟨-, -, hlevel, -⟩ := keptBy_of_exec c s t h
    exact le_of_eq (congrArg _ (hlevel hc))
  | true =>
    cases c with
    | response token => exact absurd rfl (hresponse token)
    | debugResponse slot => exact absurd rfl (hcall slot)
    | registerWrite m target lost => cases h; exact registerWrite_le m target lost s
    | debugLevel m level => cases h; simpa using writeLevel_le level (dropKeys m s)
    | railsGood side => cases h; exact railsGood_le side s
    | railFail side => cases h; exact railFail_le side s
    | hrefLoss =>
      cases h
      split
      · exact hostReset_le false s
      · exact le_rfl
    | debugReset => cases h; exact hostReset_le false s
    | debugWrite space addr words =>
      cases h
      unfold permitted
      split
      · simp
      · exact debugWrite_le _ _ _ _
    | _ => cases hc

/-- Settles O5: programming and provisioning alone change the fuses, and responses alone raise the level. -/
theorem whatRaisesPrivilege : Obligations.WhatRaisesPrivilege := ⟨onlyProgrammingChangesFuses, levelRaisedOnlyByResponse⟩

/-! ### The canonical form of Common Store (O6) -/

theorem execEgressWord_wf (s u : State) (h : execEgressWord s = .next u) (hs : Memory.wf s.store.cs = true) :
    Memory.wf u.store.cs = true := by
  cases h
  (repeat' split) <;> simp [hs]

/-- The commands that write Common Store keep its form: each writes it through the operations of Laws/Store. -/
theorem storeWf_of_writesStore (c : Instr) (s u : State) (hc : writesStore c = true) (h : exec c s = .next u) (hs : storeWf s) :
    storeWf u := by
  unfold storeWf at *
  cases c with
  | registerWrite m target lost => cases h; exact registerWrite_wf m target lost s hs
  | lcons l v => cases h; exact writeLcons_wf l v _ (by simpa using hs)
  | lsize l v => cases h; exact writeLsize_wf l v _ (by simpa using hs)
  | stimDmaDone bytes => cases h; split <;> simp [hs]
  | stageRelease => cases h; (repeat' split) <;> simp [hs]
  | imageFrame n pre payload => cases h; split <;> simp [hs]
  | descriptorFetch => cases h; split <;> simp [hs]
  | stimRefill => cases h; split <;> simp [hs]
  | burstBegin => cases h; (repeat' split) <;> simp [hs]
  | rowRead => cases h; (repeat' split) <;> simp [hs]
  | recordPassOn l => cases h; simp [hs]
  | frameCheck => cases h; (repeat' split) <;> simp [hs]
  | sweepEnd => cases h; (repeat' split) <;> simp [hs]
  | read header => cases h; exact request_wf _ _ _ _ hs
  | write header flits => cases h; exact request_wf _ _ _ _ hs
  | exclRead header => cases h; exact request_wf _ _ _ _ hs
  | condWrite header flits => cases h; exact request_wf _ _ _ _ hs
  | asleepResend src tag => cases h; (repeat' split) <;> simp [hs]
  | bankMapSwitch => cases h; split <;> simp [hs]
  | railFail side => cases h; exact railFail_wf side s hs
  | checkWrite slot => cases h; (repeat' split) <;> simp [hs]
  | debugWrite space addr words =>
    cases h
    unfold permitted
    split
    · simp [hs]
    · exact debugWrite_wf _ _ _ _ hs
  | tracePacket core port value =>
    cases h
    dsimp only
    split
    · split
      · simp [hs]
      · exact emitPacket_wf _ _ _ s hs
    · exact hs
  | egressWord => exact execEgressWord_wf s u h hs
  | _ => cases hc

/-- Settles O6: a command writes Common Store through operations that keep its form, or not at all. -/
theorem storeFormKept : Obligations.StoreFormKept := by
  intro s t hs hstep
  cases hpend : s.pending with
  | nil =>
    simp only [step, hpend, Host.Outcome.next.injEq] at hstep
    exact hstep ▸ hs
  | cons c rest =>
    simp only [step, hpend] at hstep
    cases hc : writesStore c with
    | true => exact storeWf_of_writesStore c { s with pending := rest } t hc hstep hs
    | false =>
      obtain ⟨-, -, -, hstore, -⟩ := keptBy_of_exec c { s with pending := rest } t hstep
      have hcs : t.store.cs = s.store.cs := congrArg Prod.fst (hstore hc)
      simpa only [storeWf, hcs] using hs

end Sys2Proof.Machine
end

section
/-! PROOF. The windows' bounds (O13), security bits (O19), pins (O20), and what a reset of the host die gives (O2, O3). -/

namespace Sys2Proof.Machine

/-! ### The debug level across resets (R557) -/

/-- Settles O3: a reset keeps the level, and the one at power-up gives it the value 0. -/
theorem debugLevelOutlivesReset : Obligations.DebugLevelOutlivesReset := by
  refine ⟨fun s => ⟨_, rfl, ?_⟩, fun s hrails => ⟨_, rfl, ?_⟩⟩
  · simp [hostReset]
  · simp [railsGood, hrails, hostReset]

/-! ### Reset values (R615, R616) -/

/-- With the register file at its reset values, an empty set in force and a Curator that does not run, each numbered register reads
its reset value, and on a part without the twin link TWIN_STATUS reads 0. -/
theorem regValue_of_fresh (level : BitVec 2) (a : Nat) (t : State) (hregs : t.regs = { debugLevel := level }) (hforce : t.inForce = {})
    (hcurator : coreRuns t.cores.curator = false) (ha : numbered a) (hpower : a ≠ 0x04) (hlevel : a ≠ 0x17) :
    regValue {} a t = resetOf a t := by
  have hset : viewSet {} t = {} := hforce
  have hclock : sclkAct t = 0 := by simp [sclkAct, hregs]
  have htwin : twinControl {} t = 0 := by simp only [twinControl, hset, hregs]; decide
  obtain ⟨hlt, h1, h2, h3, h15⟩ := ha
  by_cases hcontrol : a = 0x26
  · subst hcontrol
    change (if hasTwin t then twinControl {} t else 0) = 0
    rw [htwin, ite_self]
  by_cases hstatus : a = 0x27
  · subst hstatus
    change (if hasTwin t then t.regs.twinStatus else 0) = _
    rw [hregs]
    cases hpart : hasTwin t <;> simp [resetOf, hpart, resetValue]
  by_cases hmailbox : a = 0x37
  · subst hmailbox
    change setBit t.regs.mailboxStatus 8 (coreRuns t.cores.curator) = 0
    rw [hregs, hcurator]
    change setBit (0#16) 8 false = 0#16
    decide
  unfold resetOf regValue
  rw [hset, hregs, hclock]
  interval_cases a <;> first | contradiction | rfl

theorem resetRegisters : Claims.ResetRegisters := by
  refine ⟨fun a ha => ?_, rfl⟩
  by_cases hpower : a = 0x04
  · subst hpower; rfl
  by_cases hlevel : a = 0x17
  · subst hlevel; rfl
  rw [regValue_of_fresh 0 a State.reset rfl rfl rfl ha hpower hlevel]
  simp [resetOf, show hasTwin State.reset = true from rfl]

theorem hostResetRestoresRegisters : Claims.HostResetRestoresRegisters := by
  refine fun s => ⟨_, rfl, fun a ha hpower hlevel => ?_⟩
  exact regValue_of_fresh s.regs.debugLevel a _ rfl rfl rfl ha hpower hlevel

/-- Settles O2: a fresh register file reads its reset values, and a reset of the host die gives one. -/
theorem resetValues : Obligations.ResetValues := ⟨resetRegisters, hostResetRestoresRegisters⟩

/-! ### Beyond a window (R636) -/

/-- Settles O13: an index beyond the entries is looked at before anything else. -/
theorem beyondTheWindow : Obligations.BeyondTheWindow := by
  intro m k data s hbeyond
  refine ⟨fun hfive hfree => ?_, fun hk => ?_⟩
  · have hread : readTable m k s = setView m { view m s with readData := 0 } s := by
      simp only [readTable, hbeyond, decide_true, Bool.true_or, if_true]
    refine ⟨_, (exec_tableEntryFetch m k s hfree).trans (congrArg _ hread), ?_⟩
    rw [view_setView _ _ _ hfive]
    exact ⟨rfl, rfl⟩
  · have hview : windowEntries (view m (wrote m (0x1A + k) data s)).select.toNat
        ≤ (view m (wrote m (0x1A + k) data s)).index.toNat := by rw [view_wrote]; exact hbeyond
    rw [exec_tableEntryWrite m k data s hk, writeTable, if_pos hview]

/-! ### Security bits (R444, R445, R447) -/

theorem securityLock_of_open (m : Master) (data : Word) (s : State) (hopen : (view m s).lockPrev = true)
    (hdata : data.extractLsb' 8 8 = 0#8) : exec (.securityLock m data) s = .next (requestSecurity data (dropKeys m s)) := by
  simp [exec, execSecurityLock, securityLock, hopen, hdata]

/-- A value that the sequence does not take as its second notes only whether it is its first. -/
theorem securityLock_of_first (m : Master) (data : Word) (s : State)
    (h : (view m s).lockPrev = false ∨ data.extractLsb' 8 8 ≠ 0#8) : exec (.securityLock m data) s
      = .next (setView m { view m (dropKeys m s) with lockPrev := decide (data = 0xB10C#16) } s) := by
  have hnot : ¬ ((view m s).lockPrev && decide (data.extractLsb' 8 8 = 0#8)) = true := by
    rcases h with h | h <;> simp [h]
  simp only [exec, execSecurityLock, securityLock, if_neg hnot]
  rw [dropKeys, setView_setView]

theorem setView_view_setView (m : Master) (v : MasterView) (s : State) :
    setView m v s = setView m (view m (setView m v s)) s := by
  by_cases h : masterNum m < s.masters.length
  · rw [view_setView_eq_ite, if_pos h]
  · simp [setView, lset, List.set_eq_of_length_le (Nat.le_of_not_lt h)]

theorem securityLockSequence : Claims.SecurityLockSequence := by
  intro m data s live
  refine ⟨fun hfive => ?_, fun hopen hdata hlive => ?_, fun hopen hdata hlive hretired => ?_, fun hclosed => ?_⟩
  · have hfirst := securityLock_of_first m 0xB10C#16 s (Or.inr (by decide))
    refine ⟨_, hfirst, ?_, setView_view_setView _ _ _⟩
    rw [view_setView _ _ _ hfive]
    rfl
  · have hleft : ¬ (decide (live ≠ 0) && decide (live &&& ~~~data.extractLsb' 4 4 = 0)) = true := by
      rw [Bool.and_eq_true, decide_eq_true_iff, decide_eq_true_iff]
      exact fun ⟨hsome, hnone⟩ => hlive.elim hsome (fun h => h hnone)
    rw [securityLock_of_open m data s hopen hdata]
    exact congrArg _ (if_neg hleft)
  · have hlast : (decide (live ≠ 0) && decide (live &&& ~~~data.extractLsb' 4 4 = 0)) = true := by
      rw [decide_eq_true hlive, decide_eq_true hretired, Bool.and_self]
    rw [securityLock_of_open m data s hopen hdata]
    exact congrArg _ (if_pos hlast)
  · rw [securityLock_of_first m data s (Or.inl hclosed)]
    exact ⟨_, rfl, by simp, setView_view_setView _ _ _⟩

theorem requestedBitsAreProgrammed : Claims.RequestedBitsAreProgrammed := by
  intro r s hr
  refine ⟨_, rfl, ?_⟩
  simp only [hr]
  constructor <;> (repeat' split) <;> simp

/-- Settles O19: the sequence's second value requests its bits, and the programming adds them to the fuses. -/
theorem securityBits : Obligations.SecurityBits := ⟨securityLockSequence, requestedBitsAreProgrammed⟩

/-! ### Pins (R583, R589, R592 to R595) -/

theorem faultSet_of_setFault (code : Nat) (s : State) (h : faultAbsent code s = false) (hc : code < 48) :
    faultSet code (setFault code s) := setFault_bit code s h hc

/-- A write of PIN_LOCK in the phase that its master's sequence is in (R594). -/
theorem pinLockSequence : Claims.PinLockSequence := by
  intro m data s hfive
  have hdrop : (dropKeys m s).masters.length = 5 := by simpa [fiveMasters] using hfive
  refine ⟨fun hphase => ?_, fun hphase => ?_, fun hphase hdata => ?_, fun hphase hdata => ?_⟩
  · refine ⟨_, rfl, ?_⟩
    simp [pinLockKey, hphase, view_setView _ _ _ hdrop]
  · refine ⟨_, rfl, ?_⟩
    simp [pinLockKey, hphase, view_setView _ _ _ hdrop]
  · have hmod : data.toNat % 64 = data.toNat := Nat.mod_eq_of_lt (by omega)
    refine ⟨_, rfl, ?_⟩
    rw [pinLockKey, if_pos hphase, hmod, if_neg (by omega), if_neg (by omega)]
    exact ⟨congrArg MasterView.pinKeyPhase (view_dropKeys m s), rfl⟩
  · refine ⟨_, rfl, ?_⟩
    rw [pinLockKey, if_pos hphase, if_pos hdata]
    refine ⟨?_, by simp, faultSet_of_setFault _ _ rfl (by decide)⟩
    rw [view, (setFault_fields _ _).2.2.2.2.1]
    exact congrArg MasterView.pinKeyPhase (view_dropKeys m s)

/-- A sample of the pad inputs leaves the pins themselves as they are (R589). -/
theorem sampleInputs_keeps (s : State) :
    (sampleInputs s).pins.pins = s.pins.pins ∧ (sampleInputs s).cores = s.cores ∧ (sampleInputs s).store = s.store := by
  unfold sampleInputs
  (repeat' split) <;> simp

theorem pinSelects_of_ok (i : Nat) (p : Pin) (s : State) (ho : pinCodeOk i p.osel.toNat s = true)
    (hi : pinCodeOk i p.isel.toNat s = true) : pinSelects i p s = (p, false) := by
  simp [pinSelects, ho, hi]

theorem putPinFunction_effect (i : Nat) (q : Pin) (s : State) :
    (putPinFunction i q s).pins.pins = lset s.pins.pins i { q with pad := padLevel i s }
    ∧ (putPinFunction i q s).cores = s.cores ∧ (putPinFunction i q s).store = s.store := by
  dsimp only [putPinFunction]
  (repeat' split) <;> simp only [setFault_fields, sampleInputs_keeps, setPin, and_self]

theorem exec_pinFunctionChange (m : Master) (i : Nat) (v : DWord) (s : State) (hi : i < 40) :
    exec (.pinFunctionChange m i v) s = .next (writePin i v (dropKeys m s)) := by
  simp only [exec, execPinFunctionChange, if_pos hi]

theorem pinFunctionChanges : Claims.PinFunctionChanges := by
  intro m i v s hi p q hosel hisel
  have hselects : pinSelects i (pinOf v (pinAt i (dropKeys m s))) (dropKeys m s) = (q, false) := pinSelects_of_ok i q s hosel hisel
  rw [exec_pinFunctionChange m i v s hi]
  refine ⟨fun hfree htwin => ⟨_, rfl, ?_⟩, fun hlocked => ⟨_, rfl, ?_⟩⟩
  · have hunlocked : ¬ (pinAt i (dropKeys m s)).locked = true := by rw [show (pinAt i (dropKeys m s)).locked = false from hfree]; decide
    have htoken : ¬ ((dropKeys m s).inForce.twinEnable && hasTwin (dropKeys m s) && !tokenPinOk (setPin i q (dropKeys m s))) = true := by
      rcases htwin with h | h
      · simp [h]
      · simp [show hasTwin (dropKeys m s) = false from h]
    rw [writePin, hselects]
    simp only [Bool.false_eq_true, if_false, if_neg hunlocked, if_neg htoken]
    exact putPinFunction_effect i q (dropKeys m s)
  · have hlock : (pinAt i (dropKeys m s)).locked = true := hlocked
    rw [writePin, hselects]
    simp only [Bool.false_eq_true, if_false, if_pos hlock]
    refine ⟨?_, fun hother => ?_⟩
    · split
      · rfl
      · rw [(setFault_frame _ _).2.2.2.2.2.2.2.2.2.1]
        rfl
    · rw [if_neg (by exact hother)]
      exact faultSet_of_setFault _ _ rfl (by decide)

theorem padsAndEdges : Claims.PadsAndEdges := by
  refine ⟨fun i level s hi => ⟨_, rfl, ?_⟩, fun s hawake hinput hprev => ?_⟩
  · rw [if_pos hi, (sampleInputs_keeps _).1]
    rfl
  · have hexec : exec .handlerStart s = .next (setEvent evHandler { s with pins := { s.pins with handlerPrev := true } }) := by
      simp [exec, execHandlerStart, hawake, hinput, hprev]
    exact ⟨_, hexec, eventSet_setEvent _ _ (by decide), by simp, by simp, by simp⟩

/-- Settles O20: the phase decides what a lock write does, the lock what a function write does, and a pad's level is its own pin's. -/
theorem pinsChange : Obligations.PinsChange := ⟨pinLockSequence, pinFunctionChanges, padsAndEdges⟩

end Sys2Proof.Machine
end

section
/-! PROOF. Staged sets: the checks of a commit, and what stands pending (O15). -/

namespace Sys2Proof.Machine

/-! ### What leaves the pending set alone (R623) -/

@[simp] theorem foldl_pendingSet {α : Type} (f : State → α → State) (h : ∀ s a, (f s a).pendingSet = s.pendingSet) (l : List α)
    (s : State) : (l.foldl f s).pendingSet = s.pendingSet := by
  induction l generalizing s with
  | nil => rfl
  | cons a l ih => rw [List.foldl_cons, ih, h]

@[simp] theorem lapseLease_pendingSet (s : State) : (lapseLease s).pendingSet = s.pendingSet := by rw [lapseLease_shape]

@[simp] theorem roleMark_pendingSet (code : Nat) (s : State) : (roleMark code s).pendingSet = s.pendingSet := by
  simp [roleMark, timeMarks, wait]

@[simp] theorem setRole_pendingSet (r : Role) (s : State) : (setRole r s).pendingSet = s.pendingSet := by
  unfold setRole
  split <;> simp

@[simp] theorem setTwinStatus_pendingSet (b : Nat) (s : State) : (setTwinStatus b s).pendingSet = s.pendingSet := by
  unfold setTwinStatus
  split
  · rfl
  · dsimp only
    split <;> simp

@[simp] theorem leaveLockstep_pendingSet (code : Nat) (s : State) : (leaveLockstep code s).pendingSet = s.pendingSet := by
  have hand : ∀ t, (handOver t).pendingSet = t.pendingSet := fun t => by
    unfold handOver
    split <;> simp [sendTwin]
  unfold leaveLockstep
  split
  · dsimp only
    rw [hand]
    split <;> simp [fieldEventFree, fieldEvent]
  · rfl

@[simp] theorem decideAtBoundary_pendingSet (code arg : Nat) (s : State) :
    (decideAtBoundary code arg s).pendingSet = s.pendingSet := by
  simp [decideAtBoundary, putLastCode, waitAhead]

@[simp] theorem withhold_pendingSet (c : Nat) (s : State) : (withhold c s).pendingSet = s.pendingSet := by
  unfold withhold
  split <;> simp [decide1, putLastCode, timeMarks, wait]

@[simp] theorem retrainLink_pendingSet (l : FLink) (full : Bool) (s : State) : (retrainLink l full s).pendingSet = s.pendingSet := by
  unfold retrainLink
  split <;> simp

@[simp] theorem refreshLinkState_pendingSet (l : FLink) (s : State) : (refreshLinkState l s).pendingSet = s.pendingSet := by
  unfold refreshLinkState
  split <;> simp

@[simp] theorem addCause_pendingSet (n : DWord) (cause x : Nat) (s : State) : (addCause n cause x s).pendingSet = s.pendingSet := by
  unfold addCause
  split
  · rfl
  · split <;> simp [wait]

@[simp] theorem losePartner_pendingSet (l : FLink) (i : Nat) (st : LaneState) (s : State) :
    (losePartner l i st s).pendingSet = s.pendingSet := by
  simp [losePartner, lostCauses, addCauses, faultEventFree, faultEvent]

/-! ### The boundary's work and the application of a set -/

theorem enterRepairWait_pendingSet (s : State) : (enterRepairWait s).pendingSet = s.pendingSet := by
  unfold enterRepairWait
  split <;> simp

theorem moveClasses_pendingSet (s : State) : (moveClasses s).pendingSet = s.pendingSet := by
  have hmove : ∀ taken c t, (moveClass taken c t).pendingSet = t.pendingSet := fun taken c t => by
    unfold moveClass
    dsimp only
    split
    · unfold takeClass
      split
      · rw [foldl_pendingSet _ fun s l => by dsimp only; split <;> simp]; simp
      · rw [foldl_pendingSet _ fun s l => by dsimp only; split <;> simp]; simp
      all_goals simp [refreshStealing, setSweep, putScrubBit]
    · unfold giveClass
      split <;> simp [refreshStealing, putScrubBit]
  unfold moveClasses
  rw [foldl_pendingSet _ fun s c => by split <;> simp [hmove]]

theorem decideOne_pendingSet (d : Decision) (s : State) : (decideOne d s).1.pendingSet = s.pendingSet := by
  unfold decideOne decidePersistent decideScrub
  dsimp only
  (repeat' split) <;> simp [refreshStealing, setSweep, putScrubBit]

theorem pendingDecisions_pendingSet (s : State) : (pendingDecisions s).pendingSet = s.pendingSet := by
  have hall : ∀ ds t, (decideAll ds t).pendingSet = t.pendingSet := fun ds => by
    induction ds with
    | nil => exact fun t => rfl
    | cons d ds ih =>
      intro t
      rw [decideAll, ih, ← decideOne_pendingSet d t]
      split <;> rfl
  exact hall _ _

theorem rejoinLanes_pendingSet (s : State) : (rejoinLanes s).pendingSet = s.pendingSet :=
  foldl_pendingSet _ (fun s l => by simp) _ _

theorem settle_pendingSet (s : State) : (settle s).pendingSet = s.pendingSet := by
  unfold settle boundaryWork
  split
  · rw [rejoinLanes_pendingSet]
    change (pendingDecisions _).pendingSet = _
    rw [pendingDecisions_pendingSet, moveClasses_pendingSet]
    exact enterRepairWait_pendingSet s
  · rfl

theorem applyLink_pendingSet (l : FLink) (old : StagedSet) (s : State) : (applyLink l old s).pendingSet = s.pendingSet := by
  unfold applyLink
  dsimp only
  (repeat' split) <;> simp

theorem applyTwin_pendingSet (was : Bool) (s : State) : (applyTwin was s).pendingSet = s.pendingSet := by
  unfold applyTwin negotiate
  (repeat' split) <;> simp [sendTwin]

/-- The whole set goes into force, and none is pending any more (R623). -/
theorem applySet_effect (q : StagedSet) (s : State) :
    (applySet q s).inForce = q ∧ (applySet q s).pendingSet = none ∧ (applySet q s).shadow = s.shadow := by
  refine ⟨by simp [applySet], ?_, by simp⟩
  change (applyTwin _ _).pendingSet = none
  rw [applyTwin_pendingSet, applyLink_pendingSet, applyLink_pendingSet]
  simp [applyGalleries, applyMode, setStageStatus]

/-! ### Commits (R622, R623) -/

theorem exec_stageCommit (m : Master) (data : Word) (s : State) :
    exec (.stageCommit m data false) s = .next (commitSet m data (dropKeys m s)) := by
  simp [exec, execStageCommit, collided]

/-- The state in which an unblocked commit decides: its master's staged writes are noted as committed. -/
def committing (m : Master) (s : State) : State := setView m { view m (dropKeys m s) with stagedWritten := false } (dropKeys m s)

theorem commitSet_of_refused (m : Master) (s : State) (hopen : (view m s).commitBlocked = false) (hbad : refusal s.shadow s ≠ 0) :
    commitSet m 0xC0DE#16 (dropKeys m s)
      = setStageStatus (setBit (setFld s.regs.stageStatus 7 0 (refusal s.shadow s)) 14 true) (committing m s) := by
  have hblocked : ¬ (view m (dropKeys m s)).commitBlocked = true := by rw [view_dropKeys]; simp [hopen]
  rw [commitSet, if_neg (by decide), if_neg hblocked]
  exact if_pos hbad

/-- An accepted set stands pending with reason 0 (R623). -/
def accepted (m : Master) (s : State) : State :=
  { committing m s with
    pendingSet := some s.shadow
    regs := { s.regs with stageStatus := setBit (setFld s.regs.stageStatus 7 0 0) 15 true } }

theorem commitSet_of_accepted (m : Master) (s : State) (hopen : (view m s).commitBlocked = false) (hgood : refusal s.shadow s = 0) :
    commitSet m 0xC0DE#16 (dropKeys m s) = if noBatch s then applySet s.shadow (accepted m s) else accepted m s := by
  have hblocked : ¬ (view m (dropKeys m s)).commitBlocked = true := by rw [view_dropKeys]; simp [hopen]
  have hreason : ¬ refusal (dropKeys m s).shadow (dropKeys m s) ≠ 0 := not_not.2 hgood
  rw [commitSet, if_neg (by decide), if_neg hblocked, if_neg hreason]
  have hsame : noBatch (accepted m s) = noBatch s := by simp [noBatch, accepted, committing]
  rw [← hsame]
  rfl

theorem commitChecksTheWholeSet : Claims.CommitChecksTheWholeSet := by
  intro m data s
  refine ⟨fun hdata => ?_, fun hopen => ⟨fun hbad => ?_, fun hgood hbatch => ?_, fun hgood hbatch => ?_⟩⟩
  · rw [exec_stageCommit, commitSet, if_pos hdata]
  · refine ⟨_, (exec_stageCommit m _ s).trans (congrArg _ (commitSet_of_refused m s hopen hbad)), ?_⟩
    have hreason : refusal s.shadow s < 256 := by
      unfold refusal
      cases h : (List.range 17).find? (fun k => refusedFor k s.shadow s) with
      | none => decide
      | some k => simpa using lt_trans (List.mem_range.1 (List.mem_of_find?_eq_some h)) (by decide)
    refine ⟨by simp [setStageStatus, committing], by simp [setStageStatus, committing], by simp [setStageStatus, committing], ?_, ?_,
      eventSet_setEvent _ _ (by decide)⟩
    · simp [setStageStatus, getLsbD_setBit]
    · rw [setStageStatus, setEvent_regs]
      dsimp only
      rw [fld_setBit_ne _ _ _ _ _ (by decide), fld_setFld _ _ _ _ (by decide) (by decide)]
      exact Nat.mod_eq_of_lt hreason
  · refine ⟨_, (exec_stageCommit m _ s).trans (congrArg _ (commitSet_of_accepted m s hopen hgood)), ?_⟩
    rw [hbatch, if_neg (by decide)]
    refine ⟨by simp [accepted, committing], by simp [accepted, committing], rfl, ?_, ?_⟩
    · simp [accepted, getLsbD_setBit]
    · change fld (setBit (setFld s.regs.stageStatus 7 0 0) 15 true) 7 0 = 0
      rw [fld_setBit_ne _ _ _ _ _ (by decide), fld_setFld _ _ _ _ (by decide) (by decide), Nat.zero_mod]
  · refine ⟨_, (exec_stageCommit m _ s).trans (congrArg _ (commitSet_of_accepted m s hopen hgood)), ?_⟩
    rw [hbatch, if_pos rfl]
    obtain ⟨hforce, hpending, hshadow⟩ := applySet_effect s.shadow (accepted m s)
    exact ⟨hforce, hshadow.trans (by simp [accepted, committing]), hpending⟩

theorem pendingSetApplies : Claims.PendingSetApplies := by
  intro q s hpending hboundary hrunning
  have hexec : exec .stagedSetApply s = .next (settle (applySet q s)) := by
    simp [exec, execStagedSetApply, hpending, hboundary, hrunning]
  obtain ⟨hforce, hnone, hshadow⟩ := applySet_effect q s
  exact ⟨_, hexec, by simp [hforce], by rw [settle_pendingSet, hnone], (by simp : (settle (applySet q s)).shadow = s.shadow)⟩

/-- Settles O15: a commit is refused for its lowest reason, or its set stands pending until no batch is in progress. -/
theorem stagedSets : Obligations.StagedSets := ⟨commitChecksTheWholeSet, pendingSetApplies⟩

end Sys2Proof.Machine
end

section
/-! PROOF. The network and Common Store: bytes that Common Store lists twice (O50, O51). -/

namespace Sys2Proof.Machine

/-! ### A write request to a byte listed twice (R509) -/

/-- An armed field side whose Common Store lists byte 248, of a valid granule, twice: `Memory.wf` does not hold of the list, and the
statements do not ask for it. -/
def armedListedTwice : State :=
  { State.reset with
    power := { State.reset.power with field := .armed }
    store := { State.reset.store with cs := [(248, 1#8), (248, 2#8)], granules := [31] } }

/-- WRITE of one flit from node 0x4E to node 0x47, which holds byte 248, with that byte alone enabled. -/
def writeByte248 : QWord := 0x8F380123800000F8#64

theorem writeByte248_reachesBank : reachesBank opWrite writeByte248 armedListedTwice := by
  unfold reachesBank reachesNode
  decide +kernel

/-- The flit's zero byte removes the first entry of byte 248, and the second one shows. -/
theorem csByte_after_zero_write : ∃ t, exec (.write writeByte248 [0]) armedListedTwice = .next t ∧ csByte 248 t.store = 2#8 :=
  ⟨_, rfl, by decide +kernel⟩

theorem not_requestsAreServed : ¬ Claims.RequestsAreServed := by
  intro h
  obtain ⟨-, -, hwrite⟩ := h writeByte248 0 armedListedTwice
  have hclean : granuleClean (pAddr writeByte248) armedListedTwice.store := Or.inl (by decide +kernel)
  obtain ⟨-, hstores⟩ := hwrite writeByte248_reachesBank (by decide +kernel) hclean
  obtain ⟨t, ht, -, hbytes, -⟩ := hstores (by decide +kernel)
  obtain ⟨u, hu, hbyte⟩ := csByte_after_zero_write
  cases ht.symm.trans hu
  have hzero : csByte 248 t.store = 0#8 := (hbytes 0 (by decide)).trans (by decide +kernel)
  exact absurd (hbyte.symm.trans hzero) (by decide)

/-- Refutes O50: a zero byte written over a byte that Common Store lists twice reads back as the second entry, not as 0. -/
theorem not_networkRequests : ¬ Obligations.NetworkRequests := fun ⟨hserved, _⟩ => not_requestsAreServed hserved

/-! ### The copy of a bank with a byte listed twice (R458, R512) -/

/-- A bank test that copies bank 0, in which byte 0 is listed twice and its first entry holds 0 with data bit 0 in error. -/
def copyListedTwice : State :=
  { State.reset with
    store := { State.reset.store with
      cs := [(0, 1#8), (0, 2#8)], csDev := [(0, 19#5)], granules := [0], test := .copying 0 0 32 } }

/-- The copy rewrites byte 0 corrected, as 0, which removes its first entry. -/
theorem csByte_after_copy : csByte 0 copyListedTwice.store = 0#8
    ∧ ∃ t, exec .bankMapSwitch copyListedTwice = .next t ∧ csByte 0 t.store = 2#8 :=
  ⟨by decide +kernel, _, rfl, by decide +kernel⟩

theorem not_banksAreTested : ¬ Claims.BanksAreTested := by
  intro h
  obtain ⟨-, -, hswitch, -⟩ := h 32 0 0 copyListedTwice
  obtain ⟨t, ht, -, -, -, hsame⟩ := hswitch rfl
  obtain ⟨hbefore, u, hu, hafter⟩ := csByte_after_copy
  cases ht.symm.trans hu
  exact absurd (hafter.symm.trans ((hsame 0).trans hbefore)) (by decide)

/-- Refutes O51: the copy of a bank changes what a byte reads that Common Store lists twice and whose first entry is corrected to 0. -/
theorem not_networkUpkeep : ¬ Obligations.NetworkUpkeep := fun ⟨_, _, hbanks, _⟩ => not_banksAreTested hbanks

end Sys2Proof.Machine
end

section
/-! PROOF. The cores: watchdogs (O53), debug levels (O57), halting and cross-triggers (O59), trace and the wire (O60). -/

namespace Sys2Proof.Machine

/-! ### What replies and halts leave of the cores -/

/-- A reply changes the calls and the mailbox of the cores' state alone. -/
theorem reply_cores (c : QueuedCall) (result : Nat) (data : List QWord) (s : State) :
    ∃ calls mailbox, (reply c result data s).cores = { s.cores with calls := calls, mailbox := mailbox } := by
  unfold reply writeReply
  split
  · exact ⟨s.cores.calls.filter (fun x => decide (x.slot ≠ c.slot) || decide (x.tag ≠ c.tag)), s.cores.mailbox, by
      simp [sendReply, putLoad]⟩
  · exact ⟨_, _, rfl⟩

@[simp] theorem coreState_reply (k : Core) (c : QueuedCall) (result : Nat) (data : List QWord) (s : State) :
    coreState k (reply c result data s) = coreState k s := by
  obtain ⟨calls, mailbox, h⟩ := reply_cores c result data s
  cases k <;> simp only [coreState, h]

@[simp] theorem reply_trace (c : QueuedCall) (result : Nat) (data : List QWord) (s : State) :
    (reply c result data s).cores.traceToRing = s.cores.traceToRing ∧ (reply c result data s).cores.resetHold = s.cores.resetHold := by
  obtain ⟨calls, mailbox, h⟩ := reply_cores c result data s
  simp only [h, and_self]

/-- The answers that need no service reach no core. -/
theorem answerAtOnce_keeps (s : State) :
    (∀ k, coreState k (answerAtOnce s) = coreState k s) ∧ (answerAtOnce s).cores.resetHold = s.cores.resetHold := by
  have hfold : ∀ (qs : List QueuedCall) (t : State),
      let u := qs.foldl (fun s c =>
        if decide (c.slot < 64) && !callListed c.call.toNat then reply c resUnknownCall [] s
        else if decide (c.slot < 64) && s.loader.active && !hostCall c.call then reply c resBusy [] s else s) t
      (∀ k, coreState k u = coreState k t) ∧ u.cores.resetHold = t.cores.resetHold := by
    intro qs
    induction qs with
    | nil => exact fun t => ⟨fun _ => rfl, rfl⟩
    | cons q qs ih =>
      intro t
      obtain ⟨hcores, hhold⟩ := ih (if decide (q.slot < 64) && !callListed q.call.toNat then reply q resUnknownCall [] t
        else if decide (q.slot < 64) && t.loader.active && !hostCall q.call then reply q resBusy [] t else t)
      refine ⟨fun k => (hcores k).trans ?_, hhold.trans ?_⟩
      · (repeat' split) <;> simp
      · (repeat' split) <;> simp
  unfold answerAtOnce
  split
  · exact hfold _ s
  · exact ⟨fun _ => rfl, rfl⟩

/-! ### Watchdogs (R572, R573, R575) -/

theorem exec_watchdogExpiry (c : Core) (s : State) (hruns : coreRuns (coreState c s) = true)
    (hperiod : (coreState c s).wdogPeriod ≠ 0) : exec (.watchdogExpiry c) s
      = .next (if c = .curator then
          { watchdogEvent c (resetCore c s) with cores := { (watchdogEvent c (resetCore c s)).cores with alert := true } }
        else watchdogEvent c (resetCore c s)) := by
  simp [exec, execWatchdogExpiry, hruns, hperiod]

theorem faultBit_logEvent (code : Nat) (ev : Word) (unit : Byte) (detail : DWord) (s : State) :
    faultBit code (logEvent ev unit detail s).regs = faultBit code s.regs := by
  unfold logEvent setMailboxStatus
  dsimp only
  split <;> rfl

theorem coreState_logEvent (k : Core) (ev : Word) (unit : Byte) (detail : DWord) (s : State) :
    coreState k (logEvent ev unit detail s) = coreState k s := by
  unfold logEvent setMailboxStatus
  dsimp only
  split
  · rfl
  · cases k <;> simp only [coreState]

/-- The report of an expiry sets WDOG and reaches no core. -/
theorem watchdogEvent_effect (c : Core) (s : State) :
    faultSet fcWdog (watchdogEvent c s) ∧ (∀ k, coreState k (watchdogEvent c s) = coreState k s)
    ∧ (watchdogEvent c s).twin = s.twin := by
  have hfield : ∀ d, faultSet fcWdog (faultEvent fcWdog d s) ∧ (∀ k, coreState k (faultEvent fcWdog d s) = coreState k s)
      ∧ (faultEvent fcWdog d s).twin = s.twin := fun d => by
    refine ⟨?_, fun k => coreState_of_cores (by simp [faultEvent]) k, by simp [faultEvent]⟩
    rw [faultEvent, faultSet, (raiseField_fields _ _ _ _ _).2.1]
    exact faultSet_of_setFault _ _ rfl (by decide)
  cases c with
  | curator =>
    refine ⟨?_, fun k => ?_, ?_⟩
    · rw [watchdogEvent, faultSet, faultBit_logEvent]
      exact faultSet_of_setFault _ _ rfl (by decide)
    · exact (coreState_logEvent k _ _ _ _).trans (coreState_of_cores (by simp) k)
    · simp only [watchdogEvent, logEvent, setMailboxStatus]
      split <;> simp
  | docentA => exact hfield _
  | docentB => exact hfield _
  | warden => exact hfield _

theorem cellsKept_refl (s : State) : cellsKept s s := fun _ => le_rfl

theorem setRole_barrier (r : Role) (s : State) : (setRole r s).barrier = s.barrier := by
  unfold setRole
  split <;> simp

theorem setTwinStatus_barrier (b : Nat) (s : State) : (setTwinStatus b s).barrier = s.barrier := by
  unfold setTwinStatus
  split
  · rfl
  · dsimp only
    split <;> simp

/-- A member that leaves lockstep adds a cell for the host and takes none away. -/
theorem cellsKept_leaveLockstep (code : Nat) (s : State) : cellsKept s (leaveLockstep code s) := by
  have hmark : ∀ n t, (roleMark n t).barrier = t.barrier := fun n t => by simp [roleMark, timeMarks, wait]
  have hhand : ∀ t, (handOver t).barrier = t.barrier := fun t => by
    unfold handOver
    split
    · rw [lapseLease_shape]
      exact hmark 4 _
    · rfl
  cases hin : inLockstep s with
  | false =>
    rw [leaveLockstep_of_not_lockstep code s hin]
    exact cellsKept_refl s
  | true =>
    have htold : cellsKept s (setTwinStatus 5 (setRole .outOfLockstep s)) :=
      cellsKept_of_barrier (by rw [setTwinStatus_barrier, setRole_barrier])
    have hsent : cellsKept s (fieldEventFree evTwin (setTwinStatus 5 (setRole .outOfLockstep s))) :=
      htold.trans (cellsKept_raiseField _ _ _ _ _)
    rw [leaveLockstep_of_lockstep code s hin]
    refine hsent.trans (cellsKept_of_barrier ?_)
    rw [hhand, outOfStep]
    split
    · rfl
    · exact hmark _ _

/-- A field core's reset takes no cell for the host away. -/
theorem cellsKept_resetCore (c : Core) (s : State) (hc : c ≠ .curator) : cellsKept s (resetCore c s) := by
  cases c with
  | curator => exact absurd rfl hc
  | docentA => exact cellsKept_of_barrier rfl
  | docentB => exact cellsKept_of_barrier rfl
  | warden => exact (cellsKept_of_barrier (by rw [lapseLease_shape]; simp)).trans (cellsKept_leaveLockstep 0 _)

theorem leaveLockstep_leaseValid (code : Nat) (s : State) (hlease : s.twin.leaseValid = false) :
    (leaveLockstep code s).twin.leaseValid = false := by
  have hrole : (setRole .outOfLockstep s).twin.leaseValid = false := by
    unfold setRole
    split
    · exact hlease
    · simpa using hlease
  have hout : (outOfStep code s).twin.leaseValid = false := by
    unfold outOfStep
    dsimp only
    split <;> simpa [fieldEventFree, fieldEvent] using hrole
  cases hin : inLockstep s with
  | false => rw [leaveLockstep_of_not_lockstep code s hin, hlease]
  | true =>
    rw [leaveLockstep_of_lockstep code s hin, handOver]
    split
    · rw [lapseLease_twin]
    · exact hout

/-- Settles O53: a reset reaches its own core, and its report no core. -/
theorem watchdogsResetCores : Obligations.WatchdogsResetCores := by
  intro c s
  refine ⟨fun hruns hperiod => ?_, fun hstopped => ?_, fun hruns => ?_, fun hrestarting => ?_⟩
  · obtain ⟨hfault, hcores, htwin⟩ := watchdogEvent_effect c (resetCore c s)
    refine ⟨_, exec_watchdogExpiry c s hruns hperiod, ?_, ?_, fun k hk hc => ?_, fun hc => ?_, fun hc => ?_⟩
    · obtain ⟨hrestarting, -⟩ := resetCore_resetting c s
      split
      · next h =>
        subst h
        exact (congrArg CoreState.restarting (hcores .curator)).trans hrestarting
      · exact (congrArg CoreState.restarting (hcores c)).trans hrestarting
    · split <;> exact hfault
    · rw [if_neg hc, hcores, coreState_resetCore, coreState_setCore_ne c k _ s hk]
    · have hdetail : coreNum c < 2 ^ 32 := by cases c <;> decide
      have hsent : ∀ d, d < 2 ^ 32 → eventSent evFault fcWdog d s (faultEvent fcWdog d (resetCore c s)) := fun d hd =>
        eventSent_raiseField _ _ _ _ _ _ (by decide) (by decide) (Config.eventUnit fcWdog).isLt hd
          ((cellsKept_resetCore c s hc).trans (cellsKept_of_barrier (by simp)))
      rw [if_neg hc]
      cases c with
      | curator => exact absurd rfl hc
      | docentA => exact hsent _ hdetail
      | docentB => exact hsent _ hdetail
      | warden => exact hsent _ hdetail
    · subst hc
      rw [if_neg (by decide), htwin]
      exact leaveLockstep_leaseValid 0 _ (by rw [lapseLease_twin])
  · simp [exec, execWatchdogExpiry, execWatchdogReload, hstopped]
  · simp only [exec, execWatchdogReload, hruns, if_true]
    rfl
  · have hexec : exec (.coreRestarted c) s = .next (answerAtOnce (reloadWatchdog c (freeRegs c (setCore c
        { coreState c s with restarting := false, atReset := !coreStarts c s } s)))) := by
      simp only [exec, execCoreRestarted, hrestarting, if_true]
    refine ⟨_, hexec, ?_⟩
    rw [(answerAtOnce_keeps _).1]
    cases c <;> rfl

/-! ### Debug levels (R552, R560, R561) -/

@[simp] theorem setCore_nonce (c : Core) (v : CoreState) (s : State) : (setCore c v s).cores.nonce = s.cores.nonce := by
  cases c <;> rfl

@[simp] theorem resumeCore_nonce (c : Core) (s : State) : (resumeCore c s).cores.nonce = s.cores.nonce := by
  unfold resumeCore
  dsimp only
  split
  · simp [reloadWatchdog, freeRegs]
  · rfl

theorem foldl_nonce {α : Type} (f : State → α → State) (h : ∀ s a, (f s a).cores.nonce = s.cores.nonce) (l : List α) (s : State) :
    (l.foldl f s).cores.nonce = s.cores.nonce := by
  induction l generalizing s with
  | nil => rfl
  | cons a l ih => rw [List.foldl_cons, ih, h]

theorem applyLevel_nonce (s : State) : (applyLevel s).cores.nonce = s.cores.nonce := by
  unfold applyLevel
  dsimp only
  split
  · rw [foldl_nonce _ fun s c => setCore_nonce _ _ _]
    split
    · exact foldl_nonce _ (fun s c => resumeCore_nonce c s) _ _
    · rfl
  · split
    · exact foldl_nonce _ (fun s c => resumeCore_nonce c s) _ _
    · rfl

/-- The right token makes LEVEL the level that its nonce was drawn for, and ends the nonce. -/
theorem checkResponse_of_right (token n : QWord) (level : BitVec 2) (s : State) (hnonce : s.cores.nonce = some (n, level))
    (htoken : token.toNat = tokenFor n level) : (checkResponse token s).1 = true
      ∧ (checkResponse token s).2.regs.debugLevel = level ∧ (checkResponse token s).2.cores.nonce = none := by
  simp only [checkResponse, hnonce, htoken, if_true, true_and]
  rw [putLevel, applyLevel_nonce, (applyLevel_frame _).2.2.2.2.2.1]
  exact ⟨by simp, rfl⟩

theorem logEvent_cores (ev : Word) (unit : Byte) (detail : DWord) (s : State) :
    (logEvent ev unit detail s).cores.lockedOut = s.cores.lockedOut := by
  unfold logEvent
  dsimp only
  split <;> simp

/-- A wrong response is an event, ends the nonce, keeps LEVEL, and as the fourth in a row begins the lockout. -/
theorem wrongResponse_effect (s : State) : (wrongResponse s).regs.debugLevel = s.regs.debugLevel
    ∧ (wrongResponse s).cores.nonce = none ∧ eventSet evDebug (wrongResponse s)
    ∧ (wrongResponse s).cores.lockedOut = (s.cores.lockedOut || decide (3 ≤ s.cores.wrongResponses)) := by
  refine ⟨by simp [wrongResponse], rfl, eventSet_setEvent _ _ (by decide), ?_⟩
  simp [wrongResponse, logEvent_cores]

theorem checkResponse_of_wrong (token n : QWord) (level : BitVec 2) (s : State) (hnonce : s.cores.nonce = some (n, level))
    (htoken : token.toNat ≠ tokenFor n level) : checkResponse token s = (false, wrongResponse s) := by
  simp only [checkResponse, hnonce, if_neg htoken]

theorem exec_response (token : QWord) (s : State) : exec (.response token) s
    = .next (if (checkResponse token s).1 then answer dbgOk [(checkResponse token s).2.regs.debugLevel.setWidth 8] (checkResponse token s).2
      else answer dbgDenied [] (checkResponse token s).2) := rfl

theorem exec_debugResponse (slot : Nat) (c : QueuedCall) (s : State) (hc : callOf slot 0x0018 s = some c) :
    exec (.debugResponse slot) s = .next (if (checkResponse (argOf c 0) s).1
      then reply c resOk [(checkResponse (argOf c 0) s).2.regs.debugLevel.setWidth 64] (checkResponse (argOf c 0) s).2
      else reply c resDenied [] (checkResponse (argOf c 0) s).2) := by
  simp only [exec, execDebugResponse, hc]

theorem responsesGrantOrCount : Claims.ResponsesGrantOrCount := by
  intro token n level slot c s hnonce
  refine ⟨fun htoken => ?_, fun htoken => ?_, fun hc harg => ⟨fun htoken => ?_, fun htoken => ?_⟩⟩
  · obtain ⟨hright, hlevel, hended⟩ := checkResponse_of_right token n level s hnonce htoken
    refine ⟨_, exec_response token s, ?_⟩
    rw [if_pos hright]
    exact ⟨hlevel, hended, by rw [hlevel]; rfl⟩
  · obtain ⟨hlevel, hended, hevent, hlocked⟩ := wrongResponse_effect s
    refine ⟨_, exec_response token s, ?_⟩
    rw [checkResponse_of_wrong token n level s hnonce htoken, if_neg Bool.false_ne_true]
    exact ⟨hlevel, hended, rfl, hevent, hlocked⟩
  · obtain ⟨hright, hlevel, hended⟩ := checkResponse_of_right token n level s hnonce htoken
    refine ⟨(checkResponse token s).2, hlevel, hended, ?_⟩
    rw [exec_debugResponse slot c s hc, harg, if_pos hright, hlevel]
  · obtain ⟨hlevel, hended, -⟩ := wrongResponse_effect s
    refine ⟨wrongResponse s, hlevel, hended, ?_⟩
    rw [exec_debugResponse slot c s hc, harg, checkResponse_of_wrong token n level s hnonce htoken, if_neg Bool.false_ne_true]

theorem exec_debugChallenge (slot : Nat) (c : QueuedCall) (s : State) (hc : callOf slot 0x0017 s = some c) :
    exec (.debugChallenge slot) s = .next (if s.cores.lockedOut then reply c resDenied [] s
      else if 2 < (argOf c 0).toNat then reply c resRange [] s
      else reply c resOk [(drawNonce (BitVec.ofNat 2 (argOf c 0).toNat) s).1] (drawNonce (BitVec.ofNat 2 (argOf c 0).toNat) s).2) := by
  simp only [exec, execDebugChallenge, hc]

theorem challengesDrawNonces : Claims.ChallengesDrawNonces := by
  intro level slot c s
  have hchallenge : exec (.challenge level) s = .next (challenge level s) := rfl
  refine ⟨fun hlocked => ?_, fun hopen hlevel => ?_, fun hopen hlevel hstopped => ?_, fun hopen hlevel hruns => ?_,
    fun hc => ⟨fun hlocked => ?_, fun hopen hrange => ?_, fun hopen harg hlevel => ?_⟩, rfl, rfl⟩
  · rw [hchallenge, challenge, if_pos hlocked]
  · rw [hchallenge, challenge, if_neg (by simp [hopen]), if_pos hlevel]
  · rw [hchallenge, challenge, if_neg (by simp [hopen]), if_neg hlevel, if_pos (by simp [hstopped])]
  · refine ⟨(drawNonce level s).1, _, hchallenge, ?_⟩
    rw [challenge, if_neg (by simp [hopen]), if_neg hlevel, if_neg (by simp [hruns])]
    exact ⟨rfl, rfl, rfl⟩
  · rw [exec_debugChallenge slot c s hc, if_pos hlocked]
  · rw [exec_debugChallenge slot c s hc, if_neg (by simp [hopen]), if_pos hrange]
  · have hrange : ¬ 2 < level.toNat := fun h => hlevel (BitVec.eq_of_toNat_eq (by have := level.isLt; simp; omega))
    refine ⟨(drawNonce level s).1, (drawNonce level s).2, rfl, rfl, rfl, ?_⟩
    rw [exec_debugChallenge slot c s hc, if_neg (by simp [hopen]), harg, if_neg hrange, BitVec.ofNat_toNat, BitVec.setWidth_eq]

/-- Settles O57: a challenge is refused for the first reason it meets or draws its nonce, and a response is checked against it. -/
theorem debugLevelsAreGranted : Obligations.DebugLevelsAreGranted := ⟨challengesDrawNonces, responsesGrantOrCount⟩

/-! ### Halting (R563, R565) -/

/-- Every core halted in `s` stands as it was. -/
def haltsKept (s t : State) : Prop := ∀ k, (coreState k s).halted = true → coreState k t = coreState k s

theorem haltsKept.refl (s : State) : haltsKept s s := fun _ _ => rfl

theorem haltsKept.trans {s t u : State} (h : haltsKept s t) (h' : haltsKept t u) : haltsKept s u := fun k hk =>
  (h' k ((congrArg CoreState.halted (h k hk)).trans hk)).trans (h k hk)

theorem haltsKept_foldl {α : Type} (f : State → α → State) (h : ∀ s a, haltsKept s (f s a)) (l : List α) (s : State) :
    haltsKept s (l.foldl f s) := by
  induction l generalizing s with
  | nil => exact haltsKept.refl s
  | cons a l ih => exact (h s a).trans (ih _)

/-- A fold of steps that keep halted cores halts every core that one of its steps halts. -/
theorem halted_of_foldl {α : Type} (f : State → α → State) (h : ∀ s a, haltsKept s (f s a)) (k : Core) (a : α)
    (ha : ∀ s, (coreState k (f s a)).halted = true) (l : List α) (hl : a ∈ l) (s : State) :
    (coreState k (l.foldl f s)).halted = true := by
  induction l generalizing s with
  | nil => exact absurd hl List.not_mem_nil
  | cons b l ih =>
    rw [List.foldl_cons]
    rcases List.mem_cons.1 hl with rfl | hl
    · rw [haltsKept_foldl f h l _ k (ha s)]
      exact ha s
    · exact ih hl _

theorem abortSequences_cores (m : Master) (s : State) : (abortSequences m s).cores = s.cores := by
  unfold abortSequences
  dsimp only
  split <;> simp

/-- A core that halts takes its cause; one already halted stays as it is, and so does every other core. -/
theorem coreState_haltCore (cause : Nat) (c k : Core) (s : State) : coreState k (haltCore cause c s)
    = if k = c ∧ (coreState c s).halted = false
      then { coreState c s with halted := true, cause := BitVec.ofNat 8 cause, stepLeft := 0 } else coreState k s := by
  unfold haltCore
  cases hhalted : (coreState c s).halted with
  | true => simp
  | false =>
    simp only [Bool.false_eq_true, if_false, and_true]
    rw [coreState_of_cores (abortSequences_cores _ _) k]
    split
    · next h => rw [h, coreState_setCore]
    · next h => exact coreState_setCore_ne c k _ s h

theorem haltsKept_haltCore (cause : Nat) (c : Core) (s : State) : haltsKept s (haltCore cause c s) := fun k hk => by
  rw [coreState_haltCore]
  exact if_neg (fun ⟨hkc, hrunning⟩ => by simp [hkc ▸ hk] at hrunning)

theorem haltCore_halted (cause : Nat) (c : Core) (s : State) : (coreState c (haltCore cause c s)).halted = true := by
  rw [coreState_haltCore]
  split
  · rfl
  · next h => simpa using h

/-- The pulses of a channel's sinks reach no core. -/
theorem assertChannel_cores (k : Nat) (s : State) : (assertChannel k s).cores
    = ((coresOf ((lget {} s.cores.channels k).sinks.extractLsb' 0 4)).foldl (fun s c => haltCore (4 + 32 * k) c s) s).cores := by
  unfold assertChannel
  have hpulses : ∀ (ns : List Nat) (f : Nat → Bool) (t : State),
      (ns.foldl (fun s n => if f n then pulseTrig n s else s) t).cores = t.cores := by
    intro ns f
    induction ns with
    | nil => exact fun _ => rfl
    | cons n ns ih =>
      intro t
      rw [List.foldl_cons, ih]
      split <;> rfl
  exact hpulses _ _ _

theorem haltsKept_assertChannel (k : Nat) (s : State) : haltsKept s (assertChannel k s) := fun c hc =>
  (coreState_of_cores (assertChannel_cores k s) c).trans (haltsKept_foldl _ (fun s c => haltsKept_haltCore _ c s) _ s c hc)

theorem assertChannel_halts (k : Nat) (c : Core) (s : State)
    (hc : (lget {} s.cores.channels k).sinks.getLsbD (coreNum c) = true) : (coreState c (assertChannel k s)).halted = true := by
  have hlow : coreNum c < 4 := by cases c <;> decide
  rw [coreState_of_cores (assertChannel_cores k s) c]
  refine halted_of_foldl _ (fun s c => haltsKept_haltCore _ c s) c c (fun s => haltCore_halted _ c s) _ ?_ s
  rw [mem_coresOf, BitVec.getLsbD_extractLsb']
  rw [decide_eq_true hlow, Bool.true_and, Nat.zero_add]
  exact hc

theorem haltsKept_fireSource (b : Nat) (s : State) : haltsKept s (fireSource b s) :=
  haltsKept_foldl _ (fun s k => by
    split
    · exact haltsKept_assertChannel k s
    · exact haltsKept.refl s) _ s

theorem haltsKept_haltBySource (cause : Nat) (c : Core) (s : State) : haltsKept s (haltBySource cause c s) := by
  unfold haltBySource
  split
  · exact haltsKept.refl s
  · exact (haltsKept_haltCore cause c s).trans (haltsKept_fireSource _ _)

/-- A running core halts with its cause, whatever its channel halts besides. -/
theorem haltBySource_of_running (cause : Nat) (c : Core) (s : State) (hrunning : (coreState c s).halted = false) :
    coreState c (haltBySource cause c s)
      = { coreState c s with halted := true, cause := BitVec.ofNat 8 cause, stepLeft := 0 } := by
  rw [haltBySource, if_neg (by simp [hrunning]), haltsKept_fireSource _ _ c (haltCore_halted cause c s), coreState_haltCore,
    if_pos ⟨rfl, hrunning⟩]

theorem haltBySource_halted (cause : Nat) (c : Core) (s : State) : (coreState c (haltBySource cause c s)).halted = true := by
  cases hrunning : (coreState c s).halted with
  | true => rw [haltsKept_haltBySource cause c s c hrunning, hrunning]
  | false => rw [haltBySource_of_running cause c s hrunning]

theorem halted_of_coreRuns {x : CoreState} (h : coreRuns x = true) : x.halted = false := by
  simp only [coreRuns, Bool.and_eq_true, Bool.not_eq_true'] at h
  exact h.1.1

/-! ### Resuming and stepping (R563, R566) -/

theorem coreState_freeRegs_ne (c k : Core) (s : State) (hk : k ≠ c) : coreState k (freeRegs c s) = coreState k s := by
  cases c <;> cases k <;> first | contradiction | rfl

/-- A resume reaches its own core alone. -/
theorem coreState_resumeCore_ne (c k : Core) (s : State) (hk : k ≠ c) : coreState k (resumeCore c s) = coreState k s := by
  unfold resumeCore
  dsimp only
  split
  · rw [reloadWatchdog, coreState_setCore_ne c k _ _ hk, coreState_freeRegs_ne c k _ hk, coreState_setCore_ne c k _ _ hk]
  · rfl

theorem resumeCore_halted (c : Core) (s : State) : (coreState c (resumeCore c s)).halted = false := by
  unfold resumeCore
  dsimp only
  split
  · cases c <;> rfl
  · next h => simpa using h

theorem resumeCore_keeps_running (c k : Core) (s : State) (h : (coreState k s).halted = false) :
    (coreState k (resumeCore c s)).halted = false := by
  by_cases hk : k = c
  · exact hk ▸ resumeCore_halted k s
  · rw [coreState_resumeCore_ne c k s hk, h]

theorem foldl_resumeCore_halted (cs : List Core) (k : Core) (s : State) (h : k ∈ cs ∨ (coreState k s).halted = false) :
    (coreState k (cs.foldl (fun s c => resumeCore c s) s)).halted = false := by
  induction cs generalizing s with
  | nil => exact h.resolve_left List.not_mem_nil
  | cons c cs ih =>
    refine ih _ ?_
    rcases h with h | h
    · rcases List.mem_cons.1 h with rfl | h
      · exact Or.inr (resumeCore_halted k s)
      · exact Or.inl h
    · exact Or.inr (resumeCore_keeps_running c k s h)

/-- The commands that need FULL, at FULL (R552). -/
theorem exec_of_full (cores : BitVec 4) (c : Core) (n : Nat) (s : State) (hfull : effectiveLevel s = 2) :
    exec (.halt cores) s = .next (haltCores cores s) ∧ exec (.resume cores) s = .next (resumeCores cores s)
    ∧ exec (.step c n) s = .next (stepCore c n s) := by
  simp only [exec, execHalt, execResume, execStep, permitted_of_level 2 _ s hfull.ge, and_self]

theorem coresHaltAndRunOnCommand : Claims.CoresHaltAndRun := by
  intro cores c n s
  refine ⟨fun hfull => ⟨⟨_, (exec_of_full cores c n s hfull).1, rfl, fun x hx => ?halted⟩,
      ⟨_, (exec_of_full cores c n s hfull).2.1, rfl, fun x hx => ?resumed⟩, fun hn => ?range, fun hlow hhigh hrunning => ?running,
      fun hlow hhigh hhalted => ?steps, fun hruns => ?breaks⟩, fun hbelow => ?below, fun hruns hleft => ?stepEnds,
    fun hlevel => ?status⟩
  case halted =>
    rw [haltCores, coreState_answer]
    exact halted_of_foldl _ (fun s c => haltsKept_haltBySource _ c s) x x (fun s => haltBySource_halted _ x s) _
      ((mem_coresOf _ _).2 hx) s
  case resumed =>
    rw [resumeCores, coreState_answer]
    exact foldl_resumeCore_halted _ x s (Or.inl ((mem_coresOf _ _).2 hx))
  case range =>
    have hbad : (decide (n = 0) || decide (65535 < n)) = true := by simpa using hn
    rw [(exec_of_full cores c n s hfull).2.2, stepCore, if_pos hbad]
  case running =>
    have hgood : ¬ (decide (n = 0) || decide (65535 < n)) = true := by simp; omega
    rw [(exec_of_full cores c n s hfull).2.2, stepCore, if_neg hgood, if_pos (by simp [hrunning])]
  case steps =>
    have hgood : ¬ (decide (n = 0) || decide (65535 < n)) = true := by simp; omega
    refine ⟨_, (exec_of_full cores c n s hfull).2.2, ?_⟩
    rw [stepCore, if_neg hgood, if_neg (by simp [hhalted])]
    refine ⟨?_, ?_, fun x hx => ?_⟩
    · rw [coreState_answer, coreState_setCore]
    · rw [coreState_answer, coreState_setCore]
      exact resumeCore_halted c s
    · rw [coreState_answer, coreState_setCore_ne c x _ _ hx, coreState_resumeCore_ne c x s hx]
  case breaks =>
    have hexec : exec (.breakpoint c) s = .next (haltBySource 3 c s) := by simp [exec, execBreakpoint, hruns, hfull]
    refine ⟨_, hexec, ?_⟩
    rw [haltBySource_of_running 3 c s (halted_of_coreRuns hruns)]
    exact ⟨rfl, rfl⟩
  case below => simp [exec, execBreakpoint, hbelow]
  case stepEnds =>
    have hexec : exec (.stepEnd c) s = .next (haltBySource 2 c s) := by simp [exec, execStepEnd, hruns, hleft]
    refine ⟨_, hexec, ?_⟩
    rw [haltBySource_of_running 2 c s (halted_of_coreRuns hruns)]
    exact ⟨rfl, rfl⟩
  case status =>
    refine ⟨_, congrArg Host.Outcome.next (permitted_of_level 1 _ s hlevel), rfl, fun hc hhalted => ?_⟩
    subst hc
    change (if (coreState .curator s).halted then (coreState .curator s).cause else 0) = _
    rw [if_pos hhalted]

theorem crossTriggersHalt : Claims.CrossTriggers := by
  intro channel source sources matchIndex sinks s
  refine ⟨fun hfull hchannel hlen => ?_, fun hchannel henabled hon => ?_, fun hdisabled => ?_⟩
  · have hallowed : ¬ (decide (sinks &&& 0xF#16 ≠ 0) && decide (effectiveLevel s < 2)) = true := by simp [hfull]
    refine ⟨_, congrArg Host.Outcome.next (permitted_of_level 1 _ s (by omega)), ?_⟩
    rw [trigger, if_neg hallowed, if_neg (Nat.not_le.2 hchannel)]
    exact ⟨rfl, lget_lset_self _ _ _ _ (hlen ▸ hchannel), fun k hk => lget_lset_ne _ _ _ _ _ (Ne.symm hk)⟩
  · have hexec : exec (.crossTrigger channel source) s = .next (assertChannel channel s) := by
      simp only [exec, execCrossTrigger, hchannel, henabled, hon, decide_true, Bool.and_self, if_true]
    exact ⟨_, hexec, fun c hc => assertChannel_halts channel c s hc, haltsKept_assertChannel channel s⟩
  · simp only [exec, execCrossTrigger, hdisabled, Bool.and_false, Bool.false_and, Bool.false_eq_true, if_false]

/-- Settles O59: no halt changes a halted core, so each core that a command or a channel names ends halted. -/
theorem coresHaltAndRun : Obligations.CoresHaltAndRun := ⟨coresHaltAndRunOnCommand, crossTriggersHalt⟩

/-! ### Trace (R559, R570, R571) -/

theorem exec_traceConfig (slot : Nat) (q : QueuedCall) (s : State) (hq : callOf slot 0x0019 s = some q) :
    exec (.traceConfig slot) s = .next (traceConfig q s) := by
  simp only [exec, execTraceConfig, hq]

/-- The four masks that a call of trace_config carries, and the state in which each core has its own. -/
def carriedMasks (q : QueuedCall) : List Nat := (List.range 4).map (fun k => (argOf q k).toNat)
def withMasks (q : QueuedCall) (s : State) : State :=
  allCores.foldl (fun s k => setCore k { coreState k s with traceMask := BitVec.ofNat 31 (lget 0 (carriedMasks q) (coreNum k)) } s) s

theorem coreState_withMasks (q : QueuedCall) (x : Core) (s : State) :
    coreState x (withMasks q s) = { coreState x s with traceMask := BitVec.ofNat 31 (lget 0 (carriedMasks q) (coreNum x)) } := by
  cases x <;> rfl

theorem carriedMasks_at (q : QueuedCall) (x : Core) :
    BitVec.ofNat 31 (lget 0 (carriedMasks q) (coreNum x)) = (argOf q (coreNum x)).setWidth 31 := by
  cases x <;> rfl

/-- Masks within 31 bits and the trace store as destination: the call is accepted. -/
theorem traceConfig_of_store (q : QueuedCall) (s : State) (hlevel : 1 ≤ effectiveLevel s) (hdest : argOf q 4 = 0)
    (hmasks : ∀ k, k < 4 → (argOf q k).toNat < 2 ^ 31) : traceConfig q s
      = reply q resOk [] { withMasks q s with cores := { (withMasks q s).cores with
          traceToRing := false, traceBase := (argOf q 5).toNat, traceSize := (argOf q 6).toNat, traceNext := 0 } } := by
  have hwide : (carriedMasks q).any (fun m => decide (2 ^ 31 ≤ m)) = false := by
    rw [List.any_eq_false]
    intro m hm
    obtain ⟨k, hk, rfl⟩ := List.mem_map.1 hm
    simpa using hmasks k (List.mem_range.1 hk)
  have hgood : ¬ ((carriedMasks q).any (fun m => decide (2 ^ 31 ≤ m)) || decide (1 < (argOf q 4).toNat)
      || (decide ((argOf q 4).toNat = 1) && !traceRingOk (argOf q 5).toNat (argOf q 6).toNat)) = true := by
    rw [hwide, hdest]
    simp
  rw [traceConfig, if_neg (by omega)]
  refine (if_neg hgood).trans ?_
  rw [hdest]
  rfl

/-- The upper part of a number that two fields make up. -/
theorem add_low_div (a b n : Nat) (h : b < n) : (a * n + b) / n = a := by
  rw [Nat.mul_comm, Nat.mul_add_div (by omega), Nat.div_eq_of_lt h, Nat.add_zero]

/-- A packet's fields read back (R570). -/
theorem packet_fields (core port count value : Nat) (hcore : core < 4) (hport : port < 32) (hvalue : value < 2 ^ 32) :
    (packet core port count value).extractLsb' 0 32 = BitVec.ofNat 32 value
    ∧ ((packet core port count value).extractLsb' 57 5).toNat = port
    ∧ ((packet core port count value).extractLsb' 62 2).toNat = core := by
  have hlow : count % 2 ^ 25 < 2 ^ 25 := Nat.mod_lt _ (by norm_num)
  generalize hc : count % 2 ^ 25 = low at hlow
  have hword : (packet core port count value).toNat = ((core * 32 + port) * 2 ^ 25 + low) * 2 ^ 32 + value := by
    rw [packet, hc, Nat.mod_eq_of_lt hvalue, BitVec.toNat_ofNat]
    exact Nat.mod_eq_of_lt (by omega)
  have hport57 : (((core * 32 + port) * 2 ^ 25 + low) * 2 ^ 32 + value) / 2 ^ 57 = core * 32 + port := by
    rw [show 2 ^ 57 = 2 ^ 32 * 2 ^ 25 by norm_num, ← Nat.div_div_eq_div_mul, add_low_div _ _ _ hvalue, add_low_div _ _ _ hlow]
  have hcore62 : (((core * 32 + port) * 2 ^ 25 + low) * 2 ^ 32 + value) / 2 ^ 62 = core := by
    rw [show 2 ^ 62 = 2 ^ 57 * 32 by norm_num, ← Nat.div_div_eq_div_mul, hport57, add_low_div _ _ _ hport]
  refine ⟨BitVec.eq_of_toNat_eq ?_, ?_, ?_⟩
  · rw [BitVec.extractLsb'_toNat, hword, Nat.shiftRight_zero, Nat.mul_add_mod_self_right]
    rfl
  · rw [BitVec.extractLsb'_toNat, hword, Nat.shiftRight_eq_div_pow, hport57]
    omega
  · rw [BitVec.extractLsb'_toNat, hword, Nat.shiftRight_eq_div_pow, hcore62]
    omega

theorem tracePacket_silent (c : Core) (port : Nat) (value : DWord) (s : State)
    (h : (coreState c s).halted = true ∨ (coreState c s).traceMask.getLsbD port = false ∨ effectiveLevel s = 0) :
    exec (.tracePacket c port value) s = .next s := by
  have hnot : (coreRuns (coreState c s) && decide (1 ≤ effectiveLevel s) && decide (port < 31)
      && (coreState c s).traceMask.getLsbD port) = false := by
    rcases h with h | h | h
    · simp [coreRuns, h]
    · simp [h]
    · simp [h]
  simp only [exec, execTracePacket, hnot, Bool.false_eq_true, if_false]

theorem traceFlows : Claims.TraceFlows := by
  intro slot q c port max value s
  refine ⟨fun hq => ⟨fun hlevel => ?denied, fun hlevel hdest hmasks => ?configured⟩,
    fun hruns hlevel hport hmask hring hdropped hroom => ?packet, tracePacket_silent c port value s, fun hlevel hmin hmax => ?drained⟩
  case denied => rw [exec_traceConfig slot q s hq, traceConfig, if_pos (by omega)]
  case configured =>
    refine ⟨_, (exec_traceConfig slot q s hq).trans (congrArg _ (traceConfig_of_store q s hlevel hdest hmasks)), ?_, fun x => ?_⟩
    · rw [(reply_trace _ _ _ _).1]
    · rw [coreState_reply, ← carriedMasks_at]
      exact congrArg CoreState.traceMask (coreState_withMasks q x s)
  case packet =>
    have hemits : (coreRuns (coreState c s) && decide (1 ≤ effectiveLevel s) && decide (port < 31)
        && (coreState c s).traceMask.getLsbD port) = true := by simp [hruns, hlevel, hport, hmask]
    have hexec : exec (.tracePacket c port value) s = .next (emitPacket (coreNum c) port value.toNat s) := by
      simp only [exec, execTracePacket, hemits, hroom, if_true, Bool.false_eq_true, if_false]
    have hcore : coreNum c < 4 := by cases c <;> decide
    obtain ⟨hv, hp, hn⟩ := packet_fields (coreNum c) port (Config.freeTicks s.cores.freeCount).toNat value.toNat hcore (by omega)
      value.isLt
    refine ⟨_, packet (coreNum c) port (Config.freeTicks s.cores.freeCount).toNat value.toNat, hexec, ?_,
      hv.trans (BitVec.ofNat_toNat _ _ |>.trans (BitVec.setWidth_eq _)), hp, hn⟩
    have hkept : (drawFree s).cores.traceDropped = 0 := hdropped
    have hstore : ¬ (drawFree s).cores.traceToRing = true := by rw [show (drawFree s).cores.traceToRing = false from hring]; decide
    rw [emitPacket, if_pos hkept, putPacket, if_neg hstore]
    rfl
  case drained =>
    have hgood : ¬ (decide (max = 0) || decide (16 < max)) = true := by simp; omega
    refine ⟨_, congrArg Host.Outcome.next (permitted_of_level 1 _ s hlevel), ?_⟩
    rw [drainTrace, if_neg hgood]
    exact ⟨rfl, rfl⟩

/-! ### The wire and the hold after a reset (R549 to R552, R556) -/

/-- A core that starts at the end of the hold takes up its watchdog and its registers. -/
def leaveReset (s : State) (c : Core) : State :=
  if coreStarts c s then reloadWatchdog c (freeRegs c (setCore c { coreState c s with atReset := false } s)) else s

theorem leaveReset_hold (c : Core) (s : State) : (leaveReset s c).cores.resetHold = s.cores.resetHold := by
  unfold leaveReset
  split
  · cases c <;> rfl
  · rfl

theorem leaveReset_curator (c : Core) (s : State) (h : c = .curator ∨ s.cores.curator.atReset = false) :
    (leaveReset s c).cores.curator.atReset = false := by
  unfold leaveReset
  cases c with
  | curator => rfl
  | _ => split <;> exact h.resolve_left (by decide)

/-- The cores that start leave the hold, the Curator among them. -/
theorem foldl_leaveReset (s : State) : (allCores.foldl leaveReset s).cores.resetHold = s.cores.resetHold
    ∧ (allCores.foldl leaveReset s).cores.curator.atReset = false := by
  simp only [allCores, List.foldl_cons, List.foldl_nil, leaveReset_hold, true_and]
  exact leaveReset_curator _ _ (Or.inr (leaveReset_curator _ _ (Or.inr (leaveReset_curator _ _ (Or.inr
    (leaveReset_curator _ _ (Or.inl rfl)))))))

theorem exec_resetHoldEnd (s : State) (hhold : s.cores.resetHold = true) : exec .resetHoldEnd s
    = .next (if s.cores.haltOnReset then haltAtReset { s with cores := { s.cores with resetHold := false, haltOnReset := false } }
        else answerAtOnce (allCores.foldl leaveReset { s with cores := { s.cores with resetHold := false, haltOnReset := false } })) := by
  simp only [exec, execResetHoldEnd, hhold, Bool.not_true, Bool.false_eq_true, if_false]
  rfl

theorem wireAndReset : Claims.WireAndReset := by
  intro body crc flags s
  refine ⟨fun hbad => ?_, fun hgood => ?_, rfl, ⟨_, rfl, rfl, fun hbelow => ?_, fun hfull hhold hflag => ?_⟩,
    fun hhold => ⟨fun hhalt => ?_, fun hhalt => ?_⟩⟩
  · simp only [exec, execDebugFrame, if_neg hbad]
  · simp only [exec, execDebugFrame, if_pos hgood]
    exact ⟨_, rfl, rfl⟩
  · change (s.cores.haltOnReset || (flags.getLsbD 0 && s.cores.resetHold && decide (effectiveLevel s = 2))) = _
    simp [hbelow]
  · change (s.cores.haltOnReset || (flags.getLsbD 0 && s.cores.resetHold && decide (effectiveLevel s = 2))) = _
    simp [hfull, hhold, hflag]
  · refine ⟨_, exec_resetHoldEnd s hhold, ?_⟩
    rw [if_pos hhalt]
    exact ⟨rfl, fun c => by cases c <;> exact ⟨rfl, rfl⟩⟩
  · obtain ⟨hends, hruns⟩ := foldl_leaveReset { s with cores := { s.cores with resetHold := false, haltOnReset := false } }
    refine ⟨_, exec_resetHoldEnd s hhold, ?_⟩
    rw [if_neg (by simp [hhalt])]
    obtain ⟨hcores, hkept⟩ := answerAtOnce_keeps
      (allCores.foldl leaveReset { s with cores := { s.cores with resetHold := false, haltOnReset := false } })
    exact ⟨hkept.trans hends, (congrArg CoreState.atReset (hcores .curator)).trans hruns⟩

/-- Settles O60: packets, frames and the hold's end each change the trace, the request and the cores as the state asks. -/
theorem traceAndWire : Obligations.TraceAndWire := ⟨traceFlows, wireAndReset⟩

end Sys2Proof.Machine
end
section

/-! PROOF. O31, a fetch of a poisoned instruction, and O46, the survey's readings and decisions. -/

namespace Sys2Proof.Machine

/-- A poisoned instruction is no good fetch within the part of the program that is there. -/
theorem fetchGood_of_poisoned (bpn i : Nat) (s : State) (hlength : i ≤ bpLength bpn s) (hpoison : instrPoisoned bpn i s = true) :
    fetchGood bpn i s = false := by
  simp [fetchGood, hpoison, Nat.not_lt.2 hlength]

/-- The fetch of an instruction already poisoned: the row's cursor moves, word i takes 0x0000, and the batch's verdicts are lost. -/
theorem exec_poisonedFetch (g bp i : Nat) (s : State) (hruns : bpRuns g bp i s = true) (hlength : i ≤ bpLength (bpNum g bp) s)
    (hpoison : instrPoisoned (bpNum g bp) i s = true) :
    exec (.poisonedFetch g bp i) s = .next (indetNow 6 (stateWrite false (bpNum g bp) i 0 (atStep i s))) := by
  have hstep : poisonInstr g bp i (atStep i s) = atStep i s := by
    refine if_pos ?_
    rw [atStep_shape]
    exact hpoison
  change execPoisonedFetch g bp i s = _
  rw [execPoisonedFetch, hruns, fetchGood_of_poisoned _ _ _ hlength hpoison, hstep]
  rfl

/-- Settles O31: the fetch writes 0x0000 to word i and marks the verdicts with CAUSE 0x0006; the cursor's step is all else that moves. -/
theorem poisonedFetchIsNop : Obligations.PoisonedFetchIsNop := by
  intro g bp i s hruns hlength hpoison hw
  refine ⟨_, exec_poisonedFetch g bp i s hruns hlength hpoison, ?_⟩
  have hshape := atStep_shape i s
  have hcurrent : sameCurrent s (atStep i s) := by
    rw [hshape]
    exact ⟨rfl, rfl, rfl, rfl⟩
  have hprogress : sameProgress s (atStep i s) := by
    rw [hshape]
    exact ⟨rfl, rfl, rfl, rfl⟩
  obtain ⟨-, harray⟩ := indetNow_causeless 6 (stateWrite false (bpNum g bp) i 0 (atStep i s))
  refine ⟨?_, indetBy_indetNow 6 s _ (hprogress.trans (stateWrite_sameProgress _ i 0 _)), ?_⟩
  · rw [stateValue_of_sameCurrent (sameCurrent_of_array harray)]
    exact stateValue_stateWrite _ i 0 _ (rowWrites_of_sameCurrent hcurrent hw)
  · rw [harray, stateWrite_cur_shape]
    refine ⟨rfl, ?_⟩
    rw [hshape]
    exact ⟨rfl, rfl, rfl, rfl, rfl⟩

/-! ### Readings -/

@[simp] theorem setSurveyStatus_survey (b : Nat) (s : State) : (setSurveyStatus b s).survey = s.survey := by
  unfold setSurveyStatus
  dsimp only
  split
  · rfl
  · rw [(setEvent_shape evSurvey _)]

theorem setSurveyStatus_bit (b j : Nat) (s : State) :
    (setSurveyStatus b s).regs.surveyStatus.getLsbD j = (s.regs.surveyStatus.getLsbD j || (decide (j < 16) && decide (j = b))) := by
  unfold setSurveyStatus
  dsimp only
  split
  · exact getLsbD_or_twoPow _ _ _
  · rw [setEvent_regs]
    exact getLsbD_or_twoPow _ _ _

/-- A sample's conditions: sag and heat are judged on the readings, each sets its status bit, and neither touches a register when
absent (R401). -/
theorem noteConditions_effect (s : State) :
    (noteConditions s).survey = { s.survey with
        sag := sagging s, hot := isHot s, hotFirst := (noteConditions s).survey.hotFirst }
      ∧ (sagging s = true → (noteConditions s).regs.surveyStatus.getLsbD 1 = true)
      ∧ (isHot s = true → (noteConditions s).regs.surveyStatus.getLsbD 2 = true)
      ∧ (sagging s = false → isHot s = false → (noteConditions s).regs = s.regs) := by
  unfold noteConditions
  dsimp only
  cases hsag : sagging s <;> cases hhot : isHot s <;>
    simp only [if_true, if_false, Bool.false_eq_true, setSurveyStatus_survey, setSurveyStatus_bit] <;> simp

theorem exec_surveySample_rail (i mv : Nat) (s : State) (hruns : surveyRuns s = true) (hi : i < 5) :
    exec (.surveySample (.rail i mv)) s
      = .next (noteConditions { s with survey := { s.survey with rails := lset s.survey.rails i mv } }) := by
  change execSurveySample _ s = _
  rw [execSurveySample, sample, if_pos hi, if_pos hruns]

/-- A sensor of the field die other than the two beside the links. -/
theorem exec_surveySample_sensor (i : Nat) (q : Int) (s : State) (hruns : surveyRuns s = true) (hi : i < 12) :
    exec (.surveySample (.sensor i q)) s
      = .next (noteConditions { s with survey := { s.survey with sensors := lset s.survey.sensors i q } }) := by
  change execSurveySample _ s = _
  rw [execSurveySample, sample, if_neg (by omega), if_pos hruns, if_neg (by omega), if_neg (by omega)]

theorem isHot_of_lget (s : State) (i : Nat) (hi : i < 12) (h : (4 * policy 10 s : Int) ≤ lget 0 s.survey.sensors i) : isHot s = true :=
  List.any_eq_true.2 ⟨i, List.mem_range.2 hi, decide_eq_true h⟩

theorem readingsArrive : Claims.ReadingsArrive := by
  intro i mv q s hruns
  refine ⟨fun hi => ⟨_, exec_surveySample_rail i mv s hruns hi, ?_⟩, fun hi => ?_, ?_, fun hi hlength =>
    ⟨_, exec_surveySample_sensor i q s hruns hi, ?_⟩, ?_, ?_⟩
  · obtain ⟨hsurvey, hsag, -, hquiet⟩ :=
      noteConditions_effect { s with survey := { s.survey with rails := lset s.survey.rails i mv } }
    rw [hsurvey]
    exact ⟨rfl, rfl, rfl, hsag, hquiet⟩
  · change execSurveySample _ s = _
    rw [execSurveySample, sample, if_neg (by omega)]
  · rfl
  · obtain ⟨hsurvey, -, hhot, -⟩ :=
      noteConditions_effect { s with survey := { s.survey with sensors := lset s.survey.sensors i q } }
    refine ⟨by rw [hsurvey], fun hq => ?_⟩
    have his := isHot_of_lget { s with survey := { s.survey with sensors := lset s.survey.sensors i q } } i hi
      (by rw [lget_lset_self _ _ _ _ hlength]; exact hq)
    exact ⟨by rw [hsurvey, his], hhot his⟩
  · change execHostReadingCopy false s = _
    rw [execHostReadingCopy, hruns]
    rfl
  · change execHostReadingCopy true s = _
    rw [execHostReadingCopy, hruns]
    rfl

/-! ### Windows, throttling and Gallery power-up -/

/-- `t` is `s` with no batch changed and perhaps more decisions waiting. -/
def pendsMore (s t : State) : Prop := t.batches = s.batches ∧ ∃ more, t.survey.pending = s.survey.pending ++ more

theorem pendsMore_of_eq {s t : State} (hbatches : t.batches = s.batches) (hpending : t.survey.pending = s.survey.pending) :
    pendsMore s t := ⟨hbatches, [], by rw [hpending, List.append_nil]⟩

theorem pendsMore_pend (code arg : Nat) (s : State) : pendsMore s (pend code arg s) := ⟨rfl, _, rfl⟩

theorem pendsMore.ite {s t u : State} (c : Prop) [Decidable c] (ht : pendsMore s t) (hu : pendsMore s u) :
    pendsMore s (if c then t else u) := by split <;> assumption

theorem pendsMore_windowSweep (s : State) : pendsMore s (windowSweep s) := by
  have hstay : pendsMore s { s with survey := { s.survey with
      quietWindows := if decide (10 ≤ if s.survey.upsets = 0 then s.survey.quietWindows + 1 else 0) then 0
        else if s.survey.upsets = 0 then s.survey.quietWindows + 1 else 0 } } := pendsMore_of_eq rfl rfl
  exact .ite _ hstay (.ite _ (pendsMore_pend 9 _ _) (.ite _ (pendsMore_pend 9 _ _) hstay))

theorem pendsMore_windowSteal (s : State) : pendsMore s (windowSteal s) := by
  have hstay : pendsMore s { s with survey := { s.survey with
      lowCeWindows := if decide (10 ≤ if 4 * s.survey.arrayCe < policy 8 s then s.survey.lowCeWindows + 1 else 0) then 0
        else if 4 * s.survey.arrayCe < policy 8 s then s.survey.lowCeWindows + 1 else 0 } } := pendsMore_of_eq rfl rfl
  exact .ite _ hstay (.ite _ (pendsMore_pend 10 _ _) (.ite _ (pendsMore_pend 10 _ _) hstay))

/-- Under the override of class 5 a window takes no decision (R384). -/
theorem windows_overridden (s : State) (h : overridden 5 s = true) :
    (windowSteal (windowSweep s)).survey.pending = s.survey.pending := by
  have hsweep : (windowSweep s).survey = { s.survey with quietWindows := (windowSweep s).survey.quietWindows } := by
    rw [windowSweep, if_pos h]
  have hover : overridden 5 (windowSweep s) = true := by
    rw [overridden, hsweep]
    exact h
  have hsteal : (windowSteal (windowSweep s)).survey.pending = (windowSweep s).survey.pending := by
    rw [windowSteal, if_pos (by rw [hover]; rfl)]
  rw [hsteal, hsweep]

/-- A window with UPSET_HIGH upsets asks for the next faster level (R392). -/
theorem windowSweep_faster (s : State) (hover : overridden 5 s = false) (hupsets : policy 6 s ≤ s.survey.upsets)
    (hlevel : sweepTarget s < policy 5 s) :
    ⟨9#8, BitVec.ofNat 8 (sweepTarget s + 1)⟩ ∈ (windowSweep s).survey.pending := by
  rw [windowSweep, if_neg (by rw [hover]; exact Bool.false_ne_true), if_pos (by simp [hupsets, hlevel])]
  exact List.mem_append_right _ (List.mem_singleton.2 rfl)

/-- The tenth window in a row without an upset asks for the next slower level (R392). -/
theorem windowSweep_slower (s : State) (hover : overridden 5 s = false) (hupsets : s.survey.upsets = 0)
    (hquiet : 9 ≤ s.survey.quietWindows) (hlevel : 0 < sweepTarget s) (hhigh : 0 < policy 6 s) :
    ⟨9#8, BitVec.ofNat 8 (sweepTarget s - 1)⟩ ∈ (windowSweep s).survey.pending := by
  have hnot : ¬ policy 6 s ≤ s.survey.upsets := by omega
  have hslow : 10 ≤ s.survey.quietWindows + 1 := by omega
  rw [windowSweep, if_neg (by rw [hover]; exact Bool.false_ne_true), if_neg (by simp [hnot]), if_pos (by simp [hupsets, hslow, hlevel])]
  exact List.mem_append_right _ (List.mem_singleton.2 rfl)

theorem exec_upsetWindow (s : State) (hruns : surveyRuns s = true) (hboundary : atBoundary s = false) :
    exec .upsetWindow s = .next { windowSteal (windowSweep s) with
      survey := { (windowSteal (windowSweep s)).survey with upsets := 0, arrayCe := 0 } } := by
  change execUpsetWindow s = _
  rw [execUpsetWindow, if_pos hruns]
  refine congrArg Host.Outcome.next (settle_of_not_atBoundary _ ?_)
  obtain ⟨hsteal, -⟩ := pendsMore_windowSteal (windowSweep s)
  obtain ⟨hsweep, -⟩ := pendsMore_windowSweep s
  have hegress : (windowSteal (windowSweep s)).egress = s.egress := by simp
  rw [atBoundary, hegress, hsteal, hsweep]
  exact hboundary

/-- A window's decisions survive its end. -/
theorem mem_windows {s : State} {d : Decision} (h : d ∈ (windowSweep s).survey.pending) :
    d ∈ (windowSteal (windowSweep s)).survey.pending := by
  obtain ⟨-, more, hmore⟩ := pendsMore_windowSteal (windowSweep s)
  rw [hmore]
  exact List.mem_append_left _ h

@[simp] theorem decide1_survey (code arg : Nat) (s : State) : (decide1 code arg s).survey = s.survey
    ∧ (decide1 code arg s).regs = { s.regs with surveyStatus := setFld s.regs.surveyStatus 15 8 code } := by
  simp [decide1, putLastCode, timeMarks, wait]

/-- A throttle decision between passes takes effect at once and shows in SURVEY_STATUS (R394). -/
theorem applyThrottle_effect (v : Nat) (hot : Bool) (s : State) (hdue : s.survey.levelDue = some (v, hot)) :
    (applyThrottle s).survey.level = v ∧ (applyThrottle s).survey.levelDue = none
      ∧ fld (applyThrottle s).regs.surveyStatus 7 6 = v % 4 := by
  have hfld : ∀ w : Word, fld (setFld w 7 6 v) 7 6 = v % 4 := fun w => fld_setFld w 7 6 v (by decide) (by decide)
  rw [applyThrottle, hdue]
  dsimp only
  split
  · exact ⟨rfl, rfl, hfld _⟩
  · obtain ⟨hsurvey, hregs⟩ := decide1_survey (code := 0xB) (arg := hot.toNat * 128 + v) { s with
      survey := { s.survey with level := v, levelDue := none }
      regs := { s.regs with surveyStatus := setFld s.regs.surveyStatus 7 6 v } }
    rw [hsurvey, hregs]
    exact ⟨rfl, rfl, (fld_setFld_ne _ _ _ _ _ _ (by decide) (by decide)).trans (hfld _)⟩

theorem throttleTo_inPass (v : Nat) (s : State) (hover : overridden 7 s = false) (hhold : surveyHold s = false)
    (hphase : s.array.phase = .inPass) :
    throttleTo v s = { s with survey := { s.survey with levelDue := some (v, s.survey.hotFirst) } } := by
  rw [throttleTo, hover, hhold]
  change settleThrottle _ = _
  exact if_neg (by simp [atPassBoundary, hphase])

theorem throttleTo_betweenPasses (v : Nat) (s : State) (hover : overridden 7 s = false) (hhold : surveyHold s = false)
    (hphase : s.array.phase ≠ .inPass) :
    throttleTo v s = applyThrottle { s with survey := { s.survey with levelDue := some (v, s.survey.hotFirst) } } := by
  rw [throttleTo, hover, hhold]
  change settleThrottle _ = _
  exact if_pos (decide_eq_true hphase)

theorem exec_throttleRaise (s : State) (hcond : s.survey.sag = true ∨ s.survey.hot = true) (hlevel : levelTarget s < policy 11 s) :
    exec .throttleRaise s = .next (throttleTo (levelTarget s + 1) s) := by
  change execThrottleRaise s = _
  rw [execThrottleRaise, if_pos (by simp [hcond, hlevel])]

theorem exec_throttleLower (s : State) (hsag : s.survey.sag = false) (hhot : s.survey.hot = false) (hlevel : 0 < levelTarget s) :
    exec .throttleLower s = .next (throttleTo (levelTarget s - 1) s) := by
  change execThrottleLower s = _
  rw [execThrottleLower, if_pos (by simp [hsag, hhot, hlevel])]

/-- Powering a list of Galleries turns each of them on and leaves the others as they are. -/
theorem tget_foldl_powered (gs : List Nat) (t : Table GalleryInfo) (g : Nat) :
    tget {} (gs.foldl (fun t g => tset {} t g { tget {} t g with powered := true }) t) g
      = if g ∈ gs then { tget {} t g with powered := true } else tget {} t g := by
  induction gs generalizing t with
  | nil => rfl
  | cons x xs ih =>
    rw [List.foldl_cons, ih, tget_tset]
    by_cases hx : g = x
    · subst hx
      simp
    · simp [hx]

/-- What a power-up step does once its group size is chosen (R391). -/
theorem powerGroup_effect (s : State) :
    (powerGroup s).array.toPower = s.array.toPower.drop s.array.powerGroup
      ∧ (∀ g ∈ s.array.toPower.take s.array.powerGroup, (tget {} (powerGroup s).array.galleries g).powered = true)
      ∧ (∀ g, g ∉ s.array.toPower.take s.array.powerGroup →
          tget {} (powerGroup s).array.galleries g = tget {} s.array.galleries g)
      ∧ (powerGroup s).regs = s.regs := by
  refine ⟨rfl, fun g hg => ?_, fun g hg => ?_, rfl⟩
  · exact (congrArg GalleryInfo.powered (tget_foldl_powered _ _ g)).trans (by rw [if_pos hg])
  · exact (tget_foldl_powered _ _ g).trans (if_neg hg)

theorem exec_galleryPowerUp (s : State) (h : s.array.toPower ≠ []) :
    exec .galleryPowerUp s = .next (powerGroup (if s.array.powerGroup = 0 then beginPowerUp s else s)) := by
  change execGalleryPowerUp s = _
  rw [execGalleryPowerUp, if_neg (by simpa using h)]

/-- The size of the first group: WAKE_GROUP, or an eighth of the Galleries if more (R391). -/
theorem beginPowerUp_array (s : State) (hhold : surveyHold s = false) (hover : overridden 4 s = false) :
    (beginPowerUp s).array = { s.array with powerGroup := max (policy 4 s) ((s.array.toPower.length + 7) / 8) } := by
  have hsize : groupSize s.array.toPower.length s = max (policy 4 s) ((s.array.toPower.length + 7) / 8) := by
    rw [groupSize, hover, hhold]
    rfl
  rw [beginPowerUp, hover, hhold, hsize]
  simp [decideAtBoundary, putLastCode, waitAhead]

theorem surveyDecides : Claims.SurveyDecides := by
  intro s v
  refine ⟨fun hruns hboundary => ⟨_, exec_upsetWindow s hruns hboundary, rfl, rfl,
      fun hover hupsets hlevel => mem_windows (windowSweep_faster s hover hupsets hlevel),
      fun hover hupsets hquiet hlevel hhigh => mem_windows (windowSweep_slower s hover hupsets hquiet hlevel hhigh),
      windows_overridden s⟩, fun hover hhold hphase => ⟨fun hcond hlevel => ?_, fun hsag hhot hlevel => ?_⟩,
    fun hover hhold hphase hcond hlevel hsmall => ⟨_, exec_throttleRaise s hcond hlevel, ?_⟩,
    fun n hn hne => ⟨_, exec_galleryPowerUp s hne, ?_⟩, fun hzero hne hhold hover => ⟨_, exec_galleryPowerUp s hne, ?_⟩⟩
  · rw [exec_throttleRaise s hcond hlevel, throttleTo_inPass _ s hover hhold hphase]
  · rw [exec_throttleLower s hsag hhot hlevel, throttleTo_inPass _ s hover hhold hphase]
  · rw [throttleTo_betweenPasses _ s hover hhold hphase]
    obtain ⟨hnow, hdue, hfld⟩ := applyThrottle_effect (levelTarget s + 1) s.survey.hotFirst
      { s with survey := { s.survey with levelDue := some (levelTarget s + 1, s.survey.hotFirst) } } rfl
    exact ⟨hnow, hdue, hfld.trans (Nat.mod_eq_of_lt (by omega))⟩
  · rw [if_neg (by omega), ← hn]
    exact powerGroup_effect s
  · rw [if_pos hzero]
    obtain ⟨hdrop, -⟩ := powerGroup_effect (beginPowerUp s)
    rw [hdrop, beginPowerUp_array s hhold hover]

/-- Settles O46: readings go to their own places, and each decision is one level or one group at a time. -/
theorem surveys : Obligations.Surveys := ⟨readingsArrive, surveyDecides⟩

end Sys2Proof.Machine
end
section

/-! PROOF. O24, verification and the start-up stages (R435, R436, R439 to R442). -/

namespace Sys2Proof.Machine

/-! ### What a start-up step leaves as it is -/

theorem setRole_shape (r : Role) (s : State) : setRole r s = { s with
    twin := (setRole r s).twin, hostOut := (setRole r s).hostOut
    regs := { s.regs with twinStatus := (setRole r s).regs.twinStatus, eventStatus := (setRole r s).regs.eventStatus } } := by
  unfold setRole
  split
  · rfl
  · dsimp only
    rw [setEvent_shape, setEvent_regs]

theorem setRole_load (r : Role) (s : State) : (setRole r s).loader = s.loader ∧ (setRole r s).cores = s.cores
    ∧ (setRole r s).imageId = s.imageId ∧ (setRole r s).regs.loadStatus = s.regs.loadStatus := by
  rw [setRole_shape]
  exact ⟨rfl, rfl, rfl, rfl⟩

/-- Firmware placed in a core's memory leaves the cores' run state and the image's number. -/
theorem placeFirmware_cores (core o : Nat) (bs : List Byte) (s : State) :
    (placeAll (placeFirmware core) o bs s).cores = { s.cores with localMem := (placeAll (placeFirmware core) o bs s).cores.localMem }
      ∧ (placeAll (placeFirmware core) o bs s).imageId = s.imageId := by
  induction bs generalizing o s with
  | nil => exact ⟨rfl, rfl⟩
  | cons b rest ih =>
    obtain ⟨hcores, himage⟩ := ih (o + 1) (placeFirmware core o b s)
    rw [placeAll, himage, hcores]
    exact ⟨rfl, rfl⟩

theorem foldl_placeFirmware_imageId (updates : List (Nat × List Byte)) (s : State) :
    (updates.foldl (fun s x => placeAll (placeFirmware 0) x.1 x.2 s) s).imageId = s.imageId := by
  induction updates generalizing s with
  | nil => rfl
  | cons x rest ih => rw [List.foldl_cons, ih, (placeFirmware_cores 0 x.1 x.2 s).2]

/-- Every core runs after start-up. -/
theorem startCores_run (s : State) : coreRuns (startCores s).cores.curator = true ∧ coreRuns (startCores s).cores.docentA = true
    ∧ coreRuns (startCores s).cores.docentB = true ∧ coreRuns (startCores s).cores.warden = true := ⟨rfl, rfl, rfl, rfl⟩

theorem startCores_imageId (s : State) : (startCores s).imageId = s.imageId := foldl_placeFirmware_imageId _ s

/-- The state in which the cores start: everything the image brings is in place. -/
def beforeCores (s : State) : State :=
  let now := s.power.fclk + 1
  let s1 : State := { s with power := { s.power with
    fclk := now, hostTimeAt := if s.power.timeMarked then s.power.hostTimeAt else now } }
  let s2 := startConservator (writeRepairCrcs (writeFrameCrcs (setGalleries (applyParams s1))))
  freshLink .f1 (freshLink .f0 (loadRoutes (freshBatches s2)))

theorem beforeCores_imageId (s : State) : (beforeCores s).imageId = s.loader.imageId := rfl

/-- The load's end, once the cores run. -/
def loadEnded (u : State) : State :=
  { setLoadState stLoaded u with
    loader := { u.loader with active := false, keyEpochs := [], stagesLeft := [], frames := [], shadowUpdate := [] } }

/-- The load's end, and a detached device on its own again. -/
def loadDone (u : State) : State :=
  if (loadEnded u).twin.role = Role.detached then setRole .solo (loadEnded u) else loadEnded u

/-- What LOAD_STATUS.STATE reads after it was put. -/
theorem fld_loadState (w : Word) (v : Nat) (hv : v < 8) : fld (setFld w 15 13 v) 15 13 = v :=
  (fld_setFld w 15 13 v (by decide) (by decide)).trans (Nat.mod_eq_of_lt hv)

theorem loadEnded_state (u : State) : loadState (loadEnded u) = stLoaded := by
  rw [loadState]
  exact fld_loadState u.regs.loadStatus stLoaded (by decide)

theorem loadEnded_keeps (u : State) : (loadEnded u).loader.active = false ∧ (loadEnded u).cores = u.cores
    ∧ (loadEnded u).imageId = u.imageId := by simp [loadEnded]

/-- The twin's role is no part of what the load leaves. -/
theorem loadDone_effect (u : State) : loadState (loadDone u) = stLoaded ∧ (loadDone u).loader.active = false
    ∧ (loadDone u).cores = u.cores ∧ (loadDone u).imageId = u.imageId := by
  have hended := And.intro (loadEnded_state u) (loadEnded_keeps u)
  unfold loadDone
  split
  · obtain ⟨hloader, hcores, himage, hstatus⟩ := setRole_load .solo (loadEnded u)
    rw [loadState, hstatus, hloader, hcores, himage]
    exact hended
  · exact hended

theorem completeLoad_eq (s : State) : completeLoad s = setEvent evLoad (putIoDisabled false
    (loadDone (refreshStealing (putScrubBit 11 false (startCores (beforeCores s)))))) := rfl

/-- Start-up ends with the image loaded, every core running and field I/O enabled (R442). -/
theorem completeLoad_effect (s : State) :
    loadState (completeLoad s) = stLoaded ∧ (completeLoad s).loader.active = false ∧ ioDisabled (completeLoad s) = false
      ∧ coreRuns (completeLoad s).cores.curator = true ∧ coreRuns (completeLoad s).cores.docentA = true
      ∧ coreRuns (completeLoad s).cores.docentB = true ∧ coreRuns (completeLoad s).cores.warden = true
      ∧ (completeLoad s).imageId = s.loader.imageId ∧ eventSet evLoad (completeLoad s) := by
  obtain ⟨hcurator, hdocentA, hdocentB, hwarden⟩ := startCores_run (beforeCores s)
  obtain ⟨hstate, hactive, hcores, himage⟩ := loadDone_effect (refreshStealing (putScrubBit 11 false (startCores (beforeCores s))))
  have hsame : (refreshStealing (putScrubBit 11 false (startCores (beforeCores s)))).cores = (startCores (beforeCores s)).cores
      ∧ (refreshStealing (putScrubBit 11 false (startCores (beforeCores s)))).imageId = (startCores (beforeCores s)).imageId := by
    simp [refreshStealing]
  obtain ⟨hsameCores, hsameImage⟩ := hsame
  rw [hsameCores] at hcores
  rw [hsameImage, startCores_imageId, beforeCores_imageId] at himage
  rw [completeLoad_eq]
  generalize loadDone (refreshStealing (putScrubBit 11 false (startCores (beforeCores s)))) = u at hstate hactive hcores himage ⊢
  have hbit : (putIoDisabled false u).regs.pwrState.getLsbD 3 = false := getLsbD_setBit _ 3 3 false
  simp only [loadState, ioDisabled, setEvent_fields, setEvent_regs, putIoDisabled_fields, hcores, himage]
  exact ⟨hstate, hactive, hbit, hcurator, hdocentA, hdocentB, hwarden, trivial, eventSet_setEvent _ _ (by decide)⟩

/-! ### The commands -/

theorem exec_verify (s : State) (hactive : s.loader.active = true) (hstate : loadState s = stReceiving)
    (hmanifest : s.loader.manifestDone = true) (hheld : ∀ k, k < s.loader.frameCount → holdsFrame k s = true) :
    exec .verify s = .next (verifyFrames s) := by
  have hall : (List.range s.loader.frameCount).all (fun k => holdsFrame k s) = true :=
    List.all_eq_true.2 fun k hk => hheld k (List.mem_range.1 hk)
  change execVerify s = _
  rw [execVerify, if_pos (by rw [hactive, hmanifest, hall, hstate]; rfl)]

theorem verifyFrames_good (s : State) (hepochs : epochsOk s s.loader.frameCount 0 0 0 = true) (htrailer : trailerOk s = true)
    (hcrc : trailerCrcOk s = true) : verifyFrames s = setLoadState stVerifying s := by
  rw [verifyFrames, hepochs, htrailer, hcrc]
  rfl

/-- Both banks are cleared and the PLLs are enabled (R439). -/
theorem beginStartUp_effect (s : State) : loadState (beginStartUp s) = stStarting ∧ (beginStartUp s).loader.pllWait = true
    ∧ (beginStartUp s).array.curValid = [] ∧ (beginStartUp s).array.prevValid = [] :=
  ⟨by
    rw [loadState, beginStartUp]
    exact fld_loadState s.regs.loadStatus stStarting (by decide), rfl, rfl, rfl⟩

/-- Both PLLs lock: the first stage is 64 FCLK cycles away (R439). -/
theorem exec_pllLock (s : State) (hactive : s.loader.active = true) (hwait : s.loader.pllWait = true) :
    exec .pllLock s = .next { putClkBit 15 true (putClkBit 14 true s) with
      loader := { s.loader with
        pllWait := false, stagesLeft := stageOrder (fld s.inForce.startup 10 8), releaseAt := s.power.fclk + 64 }
      fabric := zeroRouting s.fabric } := by
  change execPllLock s = _
  rw [execPllLock, if_pos (by rw [hactive, hwait]; rfl)]

/-- The state once a stage is released and `rest` are left (R440). -/
def stageReleased (k : Nat) (rest : List Nat) (s : State) : State :=
  let now := max s.power.fclk s.loader.releaseAt
  let s1 := releaseStage k { s with power := { s.power with fclk := now } }
  { s1 with loader := { s1.loader with stagesLeft := rest, releaseAt := now + fld s.inForce.startup 7 0 } }

theorem exec_stageRelease (k : Nat) (rest : List Nat) (s : State) (h : s.loader.stagesLeft = k :: rest) :
    exec .stageRelease s = .next (if rest.isEmpty then completeLoad (stageReleased k rest s) else stageReleased k rest s) := by
  change execStageRelease s = _
  rw [execStageRelease, h]
  rfl

theorem releaseStage_loader (k : Nat) (s : State) : (releaseStage k s).loader = s.loader := by
  unfold releaseStage
  split <;> rfl

theorem stageReleased_imageId (k : Nat) (rest : List Nat) (s : State) :
    (stageReleased k rest s).loader.imageId = s.loader.imageId :=
  (congrArg Loader.imageId
    (releaseStage_loader k { s with power := { s.power with fclk := max s.power.fclk s.loader.releaseAt } }) :)

/-- Settles O24: each command of verification and start-up takes the load to its next state. -/
theorem startUpRuns : Obligations.StartUpRuns := by
  intro s hactive
  refine ⟨fun hstate hmanifest hheld hepochs htrailer hcrc => ?_, fun hstate hplaced hgood => ⟨beginStartUp (fillDefaults s), ?_,
    beginStartUp_effect _⟩, fun hwait => ⟨_, exec_pllLock s hactive hwait, rfl, rfl, rfl, ?_, ?_⟩,
    fun k j rest hleft => ⟨_, exec_stageRelease k _ s hleft, ?_⟩,
    fun k hleft => ⟨_, exec_stageRelease k _ s hleft, ?_⟩⟩
  · rw [exec_verify s hactive hstate hmanifest hheld, verifyFrames_good s hepochs htrailer hcrc]
  · obtain ⟨hsignature, hschedule, hmap, havenues, hfabric⟩ := hgood
    change execVerificationDone s = _
    rw [execVerificationDone, if_pos (by rw [hactive, hplaced, hstate]; rfl), verifyContent, hsignature, hschedule, hmap, havenues,
      hfabric]
    rfl
  · exact (getLsbD_setBit _ 15 15 true).trans rfl
  · exact (getLsbD_setBit _ 15 14 true).trans (getLsbD_setBit _ 14 14 true)
  · dsimp only [List.isEmpty_cons]
    rw [if_neg Bool.false_ne_true]
    refine ⟨rfl, ?_, ?_, ?_, rfl⟩
    all_goals
      rintro rfl
      rfl
  · obtain ⟨hstate, hdone, hio, hcurator, hdocentA, hdocentB, hwarden, himage, hevent⟩ := completeLoad_effect (stageReleased k [] s)
    exact ⟨hstate, hdone, hio, hcurator, hdocentA, hdocentB, hwarden, himage.trans (stageReleased_imageId k [] s), hevent⟩

end Sys2Proof.Machine
end
section

/-! PROOF. O23, a load begins, takes its frames, hands them over, or fails (R403 to R405, R418, R424 to R430, R437). -/

namespace Sys2Proof.Machine

/-! ### A load begins -/

/-- `t` has the load, the batches, the released stages and field I/O as `s` has them. -/
structure SameLoad (s t : State) : Prop where
  loader : t.loader = s.loader
  status : t.regs.loadStatus = s.regs.loadStatus
  batches : t.batches = s.batches
  released : t.released = s.released
  io : ioDisabled t = ioDisabled s

theorem SameLoad.refl (s : State) : SameLoad s s := ⟨rfl, rfl, rfl, rfl, rfl⟩

theorem sameLoad_power (s : State) (p : Power) : SameLoad s { s with power := p } := ⟨rfl, rfl, rfl, rfl, rfl⟩

theorem SameLoad.trans {s t u : State} (h : SameLoad s t) (g : SameLoad t u) : SameLoad s u :=
  ⟨g.loader.trans h.loader, g.status.trans h.status, g.batches.trans h.batches, g.released.trans h.released, g.io.trans h.io⟩

theorem sameLoad_reply (c : QueuedCall) (result : Nat) (data : List QWord) (s : State) : SameLoad s (reply c result data s) := by
  have hparts : (reply c result data s).released = s.released
      ∧ (reply c result data s).regs = { s.regs with mailboxStatus := (reply c result data s).regs.mailboxStatus } := by
    simp only [reply, writeReply]
    split <;> simp [sendReply, putLoad]
  obtain ⟨hreleased, hregs⟩ := hparts
  refine ⟨by simp, ?_, reply_batches c result data s, hreleased, ?_⟩
  · rw [hregs]
  · rw [ioDisabled, hregs]
    rfl

/-- Calls answered BUSY leave the load and the power state. -/
theorem busyCalls_keeps (s : State) : SameLoad s (busyCalls s) ∧ (busyCalls s).power = s.power := by
  unfold busyCalls
  generalize s.cores.calls.filter (fun c => !hostCall c.call) = calls
  induction calls generalizing s with
  | nil => exact ⟨.refl s, rfl⟩
  | cons c rest ih =>
    obtain ⟨hload, hpower⟩ := ih (reply c resBusy [] s)
    exact ⟨(sameLoad_reply c resBusy [] s).trans hload, hpower.trans (by simp)⟩

theorem reportPower_regs (code : Nat) (s : State) : (reportPower code s).regs = { s.regs with
    pwrState := setFld s.regs.pwrState 2 0 code, eventStatus := (reportPower code s).regs.eventStatus } := by
  unfold reportPower
  dsimp only
  split
  · rfl
  · split
    · rw [setEvent_regs]
    · rfl

theorem sameLoad_reportPower (code : Nat) (s : State) : SameLoad s (reportPower code s) := by
  refine ⟨by simp, ?_, by simp, ?_, ?_⟩
  · rw [reportPower_regs]
  · unfold reportPower
    dsimp only
    split
    · rfl
    · split <;> simp
  · rw [ioDisabled, reportPower_regs]
    exact (getLsbD_setFld s.regs.pwrState 2 0 code 3 (by decide)).trans (if_neg (by decide))

theorem sameLoad_setWakeCause (b : Nat) (s : State) : SameLoad s (setWakeCause b s) := by
  rw [setWakeCause_shape]
  exact ⟨rfl, rfl, rfl, rfl, rfl⟩

/-- The field side is brought to Standby for the load (R405). -/
theorem wakeForLoad_effect (s : State) : SameLoad s (wakeForLoad s)
    ∧ (s.power.field = .dormant → (wakeForLoad s).power.target = some .standby)
    ∧ (armed s = true → (wakeForLoad s).power.field = .standby) := by
  unfold wakeForLoad
  split
  next hdormant =>
    refine ⟨(sameLoad_power s _).trans (sameLoad_setWakeCause 2 _), fun _ => ?_, fun harmed => ?_⟩
    · rw [setWakeCause_shape]
    · simp [armed, hdormant] at harmed
  next hawake =>
    split
    · exact ⟨(sameLoad_power s _).trans (sameLoad_reportPower 2 _), fun h => absurd h hawake, fun _ => by simp⟩
    next hnot => exact ⟨.refl s, fun h => absurd h hawake, fun h => absurd h hnot⟩


/-- A load before the field side is woken: the batches are gone, the load is fresh, field I/O is disabled (R405). -/
def freshStart (slot : BitVec 2) (group : BitVec 4) (dev : Byte) (s : State) : State :=
  putScrubBit 10 false (putScrubBit 12 false (freshLoad slot group dev
    (disableFieldIo (dropBatches (leaveLockstep 6 (lapseLease (failLoad ldAbort s)))))))

/-- What a failing load leaves of itself: its code, no key and no frame (R437). -/
def failedLoad (code : Nat) (s : State) : State :=
  { s with
    regs := { s.regs with loadStatus := setFld (setFld s.regs.loadStatus 15 13 5) 7 0 code }
    loader := { s.loader with
      active := false
      keyEpochs := []
      cfgFault := true
      stagesLeft := []
      pllWait := false
      frames := []
      buffered := []
      begun := []
      shadowUpdate := [] }
    repair := {} }

theorem failLoad_of_active (code : Nat) (s : State) (hactive : s.loader.active = true) :
    failLoad code s = setEvent evLoad (disableFieldIo (failedLoad code s)) := if_pos hactive

theorem failLoad_of_idle (code : Nat) (s : State) (hidle : s.loader.active = false) : failLoad code s = s :=
  if_neg (by rw [hidle]; exact Bool.false_ne_true)

theorem failLoad_aperture (code : Nat) (s : State) : (failLoad code s).loader.aperture = s.loader.aperture := by
  cases hactive : s.loader.active with
  | false => rw [failLoad_of_idle code s hactive]
  | true =>
    obtain ⟨-, hloader, -⟩ := disableFieldIo_keeps (failedLoad code s)
    simp only [failLoad_of_active code s hactive, setEvent_fields, hloader]
    rfl

theorem fld_freshStatus : ∀ slot : BitVec 2, fld (BitVec.ofNat 16 (stReceiving * 8192 + slot.toNat * 1024)) 15 13 = stReceiving := by
  decide

theorem freshStart_effect (slot : BitVec 2) (group : BitVec 4) (dev : Byte) (s : State) :
    (freshStart slot group dev s).loader = { active := true, slot := slot, group := group, devIndex := dev, aperture := s.loader.aperture }
      ∧ loadState (freshStart slot group dev s) = stReceiving ∧ (freshStart slot group dev s).batches = []
      ∧ (freshStart slot group dev s).released = {} ∧ ioDisabled (freshStart slot group dev s) = true
      ∧ (freshStart slot group dev s).power = s.power := by
  have haperture : (leaveLockstep 6 (lapseLease (failLoad ldAbort s))).loader.aperture = s.loader.aperture := by
    simp [failLoad_aperture]
  have hpower : (leaveLockstep 6 (lapseLease (failLoad ldAbort s))).power = s.power := by simp
  unfold freshStart
  generalize leaveLockstep 6 (lapseLease (failLoad ldAbort s)) = u at haperture hpower ⊢
  obtain ⟨-, hloader, hbatches, hreleased, hpwr⟩ := disableFieldIo_keeps (dropBatches u)
  have hkept : (disableFieldIo (dropBatches u)).power = u.power := by simp [dropBatches]
  generalize disableFieldIo (dropBatches u) = w at hloader hbatches hreleased hpwr hkept ⊢
  refine ⟨?_, fld_freshStatus slot, ?_, ?_, ioDisabled_of_setBit u w hpwr, ?_⟩
  · simp only [putScrubBit_fields, freshLoad, hloader]
    rw [dropBatches, haperture]
  · exact hbatches
  · exact hreleased
  · exact hkept.trans hpower

theorem startLoad_eq (slot : BitVec 2) (group : BitVec 4) (dev : Byte) (s : State) :
    startLoad slot group dev s = busyCalls (wakeForLoad (freshStart slot group dev s)) := rfl

theorem beginLoad_of_idle (slot : BitVec 2) (group : BitVec 4) (dev : Byte) (s : State) (hdev : dev ≠ 0xFF#8)
    (hidle : s.store.test = .idle) : beginLoad slot group dev s = startLoad slot group dev s := by
  rw [beginLoad, if_neg hdev, if_neg hdev, if_pos hidle]

theorem beginLoad_of_testing (slot : BitVec 2) (group : BitVec 4) (dev : Byte) (s : State) (hdev : dev ≠ 0xFF#8)
    (htest : s.store.test ≠ .idle) :
    beginLoad slot group dev s = { s with loader := { s.loader with waiting := some (slot, group, dev) } } := by
  rw [beginLoad, if_neg hdev, if_neg hdev, if_neg htest]

theorem loadBegins : Claims.LoadBegins := by
  intro m slot group dev s hdev
  refine ⟨fun hidle => ⟨startLoad slot group dev (dropKeys m s), ?_, ?_⟩, fun htest => ?_⟩
  · exact congrArg Host.Outcome.next (beginLoad_of_idle slot group dev (dropKeys m s) hdev hidle)
  · obtain ⟨hfresh, hstate, hbatches, hreleased, hio, hpower⟩ := freshStart_effect slot group dev (dropKeys m s)
    obtain ⟨hwake, hdormant, harmed⟩ := wakeForLoad_effect (freshStart slot group dev (dropKeys m s))
    obtain ⟨hbusy, hbusyPower⟩ := busyCalls_keeps (wakeForLoad (freshStart slot group dev (dropKeys m s)))
    have hsame := hwake.trans hbusy
    have hframe := startLoad_frame slot group dev (dropKeys m s)
    simp only [dropKeys_fields] at hframe hpower hfresh
    obtain ⟨-, -, hotp, -, -, -, hcs, -, -, -, -, hforce, -⟩ := hframe
    rw [startLoad_eq] at hotp hcs hforce ⊢
    have harmedEq : armed (freshStart slot group dev (dropKeys m s)) = armed s := by rw [armed, hpower, armed]
    refine ⟨hsame.loader.trans hfresh, ?_, hsame.batches.trans hbatches, hsame.released.trans hreleased, hsame.io.trans hio,
      hotp, hforce, hcs, fun h => ?_, fun h => ?_⟩
    · rw [loadState, hsame.status]
      exact hstate
    · rw [hbusyPower]
      exact hdormant (by rw [hpower]; exact h)
    · rw [hbusyPower]
      exact harmed (harmedEq.trans h)
  · exact congrArg Host.Outcome.next (beginLoad_of_testing slot group dev (dropKeys m s) hdev htest)

/-! ### A load fails -/

/-- A load in progress fails with its code in LOAD_STATUS, its keys erased and field I/O disabled (R437). -/
theorem failLoad_effect (code : Nat) (s : State) (hactive : s.loader.active = true) (hcode : code < 256) :
    loadState (failLoad code s) = 5 ∧ fld (failLoad code s).regs.loadStatus 7 0 = code ∧ (failLoad code s).loader.active = false
      ∧ (failLoad code s).loader.keyEpochs = [] ∧ (failLoad code s).loader.cfgFault = true ∧ ioDisabled (failLoad code s) = true
      ∧ (failLoad code s).released = {} ∧ eventSet evLoad (failLoad code s) := by
  obtain ⟨-, hloader, -, hreleased, hpwr⟩ := disableFieldIo_keeps (failedLoad code s)
  have hstatus : (disableFieldIo (failedLoad code s)).regs.loadStatus = setFld (setFld s.regs.loadStatus 15 13 5) 7 0 code := by
    simp only [disableFieldIo]
    rw [downMeshTwin_shape, lapseLease_shape]
    rfl
  have hstate : fld (setFld (setFld s.regs.loadStatus 15 13 5) 7 0 code) 15 13 = 5 :=
    (fld_setFld_ne _ _ _ _ _ _ (by decide) (by decide)).trans (fld_loadState _ 5 (by decide))
  have hkept : fld (setFld (setFld s.regs.loadStatus 15 13 5) 7 0 code) 7 0 = code :=
    (fld_setFld _ _ _ _ (by decide) (by decide)).trans (Nat.mod_eq_of_lt hcode)
  rw [failLoad_of_active code s hactive]
  simp only [loadState, ioDisabled, setEvent_fields, setEvent_regs, hstatus, hloader, hreleased, hstate, hkept]
  exact ⟨trivial, trivial, rfl, rfl, rfl, ioDisabled_of_setBit _ _ hpwr, trivial, eventSet_setEvent _ _ (by decide)⟩

theorem loadFails : Claims.LoadFails := by
  intro m s failed
  refine ⟨fun hactive => ⟨failLoad ldAbort (dropKeys m s), rfl, ?_⟩, fun hidle => ?_, fun hactive hstate hdeadline =>
    ⟨failLoad ldDeadline { s with regs := { s.regs with loadElapsed := s.regs.loadDeadline } }, ?_, ?_⟩,
    fun hactive hwait => ⟨failLoad ldPllLock s, ?_, ?_⟩⟩
  · exact failLoad_effect ldAbort (dropKeys m s) hactive (by decide)
  · exact congrArg Host.Outcome.next (failLoad_of_idle ldAbort (dropKeys m s) hidle)
  · change execLoadDeadline s = _
    rw [execLoadDeadline, if_pos (by simpa [hactive, hstate] using hdeadline)]
  · exact failLoad_effect ldDeadline { s with regs := { s.regs with loadElapsed := s.regs.loadDeadline } } hactive (by decide)
  · change execPllLockTimeout s = _
    rw [execPllLockTimeout, if_pos (by rw [hactive, hwait]; rfl)]
  · exact failLoad_effect ldPllLock s hactive (by decide)


/-! ### Frames are taken -/

theorem exec_frameApertureWrite_byte (slot off : Nat) (b : Byte) (s : State) (hslot : slot < 64) (hoff : off < 4096)
    (hroom : (tget [] s.loader.aperture slot).length < 4096) :
    exec (.frameApertureWrite slot off [b]) s = .next { s with loader := { s.loader with
      aperture := tput s.loader.aperture slot (tput (tget [] s.loader.aperture slot) off b) } } := by
  obtain ⟨n, hn⟩ : ∃ n, 4096 - off = n + 1 := ⟨4095 - off, by omega⟩
  change execFrameApertureWrite slot off [b] s = _
  rw [execFrameApertureWrite, if_pos (by simp [hslot, hoff])]
  simp [putAperture, hn, Nat.not_le.2 hroom]

/-- The state with a slot of the aperture emptied. -/
def slotEmptied (slot : Nat) (s : State) : State :=
  { s with loader := { s.loader with aperture := tdel s.loader.aperture slot } }

theorem exec_imageFrameTake (slot : Nat) (s : State) (hfull : 4096 ≤ (tget [] s.loader.aperture slot).length) :
    exec (.imageFrameTake slot) s = .next (
      if !s.loader.active then setFault fcCfgWrite (countDiscarded (slotEmptied slot s))
      else if loadState s ≠ stReceiving then countDiscarded (slotEmptied slot s)
      else checkFrameBytes ((tget [] s.loader.aperture slot).map (fun e => e.2)) (slotEmptied slot s)) := by
  change execImageFrameTake slot s = _
  rw [execImageFrameTake, takeSlot]
  dsimp only
  rw [if_neg (Nat.not_lt.2 hfull)]
  rfl

/-- A frame whose header is right is opened: it is accepted, or its repeat is asked for (R424, R426). -/
theorem checkFrameBytes_plain (bs : List Byte) (s : State) (hmagic : hMagicOk (frameHeader bs) = true)
    (hplain : hPlain (frameHeader bs) = true) (hauth : s.otp.authOnly = false)
    (hnonce : s.loader.nonce = some (hNonce (frameHeader bs))) (hnew : holdsFrame (hFrame (frameHeader bs)) s = false) :
    (openFrame bs (frameHeader bs) s = none →
      checkFrameBytes bs s = requestRepeat (hFrame (frameHeader bs)) 3 (countFailed s))
    ∧ ∀ area, openFrame bs (frameHeader bs) s = some area → checkFrameBytes bs s = acceptFrame (frameHeader bs) area s := by
  refine ⟨fun hopen => ?_, fun area hopen => ?_⟩ <;>
    simp [checkFrameBytes, hmagic, hplain, hauth, hnonce, hnew, hopen]

theorem framesTaken : Claims.FramesTaken := by
  intro slot off b s t0 s1 bs h
  refine ⟨exec_frameApertureWrite_byte slot off b s, fun hfull hidle => ?_, fun hfull hactive hstate hmagic => ?_,
    fun hfull hactive hstate hmagic hplain hauth hnonce hnew => ?_⟩
  · rw [exec_imageFrameTake slot s hfull, hidle]
    rfl
  · rw [exec_imageFrameTake slot s hfull, hactive, if_neg (by decide), if_neg (not_not_intro hstate), checkFrameBytes]
    exact congrArg Host.Outcome.next (if_pos (by rw [hmagic]; rfl))
  · have hcheck := checkFrameBytes_plain bs s1 hmagic hplain hauth hnonce hnew
    have htake : exec (.imageFrameTake slot) s = .next (checkFrameBytes bs s1) := by
      rw [exec_imageFrameTake slot s hfull, hactive, if_neg (by decide), if_neg (not_not_intro hstate)]
      rfl
    obtain ⟨hbroken, hopened⟩ := hcheck
    exact ⟨fun hopen => htake.trans (congrArg _ (hbroken hopen)), fun area hopen => htake.trans (congrArg _ (hopened area hopen))⟩

/-! ### Frames cross -/

/-- What a request says: its frame and its reason. -/
def repeatKey (r : RepeatReq) : Nat × Byte := (r.frame, r.reason)

theorem map_markFirst (rs : List RepeatReq) : (writeRepeats.markFirst rs).map repeatKey = rs.map repeatKey := by
  induction rs with
  | nil => rfl
  | cons r rest ih =>
    rw [writeRepeats.markFirst]
    split
    · rw [List.map_cons, ih, List.map_cons]
    · rfl

/-- `t` has the load as `s` has it, but that requests may have been marked as written. -/
structure SameRequests (s t : State) : Prop where
  loader : t.loader = { s.loader with repeats := t.loader.repeats }
  requests : t.loader.repeats.map repeatKey = s.loader.repeats.map repeatKey

theorem sameRequests_of_loader {s t : State} (h : t.loader = s.loader) : SameRequests s t := ⟨by rw [h], by rw [h]⟩

theorem SameRequests.trans {s t u : State} (h : SameRequests s t) (g : SameRequests t u) : SameRequests s u := by
  refine ⟨?_, g.requests.trans h.requests⟩
  rw [g.loader, h.loader]

theorem sameRequests_writeRepeats (n : Nat) (s : State) : SameRequests s (writeRepeats n s) := by
  induction n generalizing s with
  | zero => exact sameRequests_of_loader rfl
  | succ n ih =>
    rw [writeRepeats]
    dsimp only
    split
    · exact sameRequests_of_loader rfl
    · split
      · refine SameRequests.trans ?_ (ih _)
        exact ⟨rfl, map_markFirst s.loader.repeats⟩
      · exact sameRequests_of_loader rfl

theorem sameRequests_drainRepeats (s : State) : SameRequests s (drainRepeats s) := by
  have hwritten := sameRequests_writeRepeats s.loader.repeats.length s
  unfold drainRepeats
  dsimp only
  split
  · exact sameRequests_of_loader rfl
  · exact hwritten.trans (sameRequests_of_loader (by simp))

/-- A repeat request stands in the list, and of the rest of the load only its count changes (R426 to R428). -/
theorem requestRepeat_effect (n reason : Nat) (s : State) :
    (∃ r ∈ (requestRepeat n reason s).loader.repeats, r.frame = n ∧ r.reason = BitVec.ofNat 8 reason)
      ∧ (requestRepeat n reason s).loader = { s.loader with
        repeats := (requestRepeat n reason s).loader.repeats, repeated := satInc s.loader.repeated } := by
  obtain ⟨hloader, hrequests⟩ := sameRequests_drainRepeats { s with loader := { s.loader with
    repeats := s.loader.repeats ++ [⟨n, BitVec.ofNat 8 reason, false⟩], repeated := satInc s.loader.repeated } }
  refine ⟨?_, hloader⟩
  have hmem : (n, BitVec.ofNat 8 reason) ∈ (requestRepeat n reason s).loader.repeats.map repeatKey := by
    rw [requestRepeat, hrequests, List.map_append]
    exact List.mem_append_right _ (List.mem_singleton.2 rfl)
  obtain ⟨r, hr, hkey⟩ := List.mem_map.1 hmem
  exact ⟨r, hr, congrArg Prod.fst hkey, congrArg Prod.snd hkey⟩

theorem exec_imageFrame_store (n : Nat) (pre : Record) (payload : List Byte) (s : State) (hawake : fieldAwake s = true)
    (hactive : s.loader.active = true) (hbegun : s.loader.begun.contains n = true) (hunit : fld pre 127 120 = 7)
    (hindex : fld pre 119 112 = 0) (hfits : fld pre 95 64 + (payload.take (fld pre 63 48)).length ≤ 0xE00000) :
    exec (.imageFrame n pre payload) s = .next { popParts n s with
      store := csPutAll (fld pre 95 64) (payload.take (fld pre 63 48)) s.store
      loader := { s.loader with
        begun := ndel s.loader.begun n, buffered := ndel s.loader.buffered n, placed := nins s.loader.placed n } } := by
  have hfit : (decide (0 < 1) && decide (fld pre 95 64 + (payload.take (fld pre 63 48)).length ≤ 0xE00000)) = true := by
    rw [decide_eq_true hfits]
    rfl
  change execImageFrame n pre payload s = _
  rw [execImageFrame, if_pos hawake, placeFrame]
  dsimp only
  rw [if_pos (by rw [hactive, hbegun]; rfl), hunit, hindex]
  simp only [unitSpace, hfit]
  rfl

/-- The state in which a broken frame is no longer held (R426). -/
def frameDropped (n : Nat) (s : State) : State :=
  setLoadState stReceiving { popHostInbox 0x05 s with loader := { s.loader with
    frames := s.loader.frames.filter (fun f => f.number ≠ n)
    buffered := ndel s.loader.buffered n
    begun := ndel s.loader.begun n
    placed := ndel s.loader.placed n } }

theorem exec_repeatRequest (n : Nat) (reason : Byte) (s : State) (hactive : s.loader.active = true) (hstate : loadState s = stReceiving) :
    exec (.repeatRequest n reason) s = .next (requestRepeat n reason.toNat (frameDropped n s)) := by
  change execRepeatRequest n reason s = _
  rw [execRepeatRequest, takeRepeatRequest]
  exact congrArg Host.Outcome.next (if_pos (by rw [hactive, hstate]; rfl))

theorem holdsFrame_of_filtered (n : Nat) (frames : List HeldFrame) (s : State)
    (h : s.loader.frames = frames.filter (fun f => f.number ≠ n)) : holdsFrame n s = false := by
  rw [holdsFrame, heldFrame, h]
  simp

theorem framesCross : Claims.FramesCross := by
  intro n pre payload reason s
  refine ⟨fun hawake hactive hbegun hunit hindex hfits =>
      ⟨_, exec_imageFrame_store n pre payload s hawake hactive hbegun hunit hindex hfits, rfl, rfl, rfl, rfl, rfl⟩,
    fun hactive hstate => ⟨_, exec_repeatRequest n reason s hactive hstate, ?_⟩, fun hactive hstate hbegun => ?_,
    fun hactive hany hnew => ⟨requestRepeat n 6 s, ?_, ?_⟩⟩
  · obtain ⟨hrequest, hloader⟩ := requestRepeat_effect n reason.toNat (frameDropped n s)
    rw [BitVec.ofNat_toNat, BitVec.setWidth_eq] at hrequest
    refine ⟨holdsFrame_of_filtered n s.loader.frames _ ?_, hrequest, ?_⟩
    · rw [hloader]
      rfl
    · rw [hloader]
      rfl
  · change execFieldResetDuringLoad s = _
    rw [execFieldResetDuringLoad, if_pos (by rw [hactive, hstate]; rfl), hbegun]
    rfl
  · change execRepeatRetry n s = _
    rw [execRepeatRetry, if_pos (by rw [hactive, hany, hnew]; rfl)]
  · obtain ⟨hrequest, hloader⟩ := requestRepeat_effect n 6 s
    refine ⟨hrequest, ?_, ?_⟩
    · rw [hloader]
    · rw [hloader]

/-- Settles O23: what each command of a load does to the load's state, to its requests and to what it leaves. -/
theorem loadsBeginAndCross : Obligations.LoadsBeginAndCross := ⟨loadBegins, loadFails, framesTaken, framesCross⟩

end Sys2Proof.Machine
end
section

/-! PROOF. O52, power transitions, wakes, rails, references and clock changes (R516 to R536, R655, R670). -/

namespace Sys2Proof.Machine

/-! ### Reports and arrivals -/

theorem reportPower_shape (code : Nat) (s : State) : reportPower code s = { s with
    regs := { s.regs with pwrState := setFld s.regs.pwrState 2 0 code, eventStatus := (reportPower code s).regs.eventStatus }
    hostOut := (reportPower code s).hostOut } := by
  unfold reportPower
  dsimp only
  split
  · rfl
  · split
    · rw [setEvent_shape]
      simp
    · rfl

theorem reportField_of_heard (code : Nat) (s : State) (h : s.barrier.fieldSilent = false) :
    reportField code s = reportPower code s := if_neg (by rw [h]; exact Bool.false_ne_true)

theorem freePins_shape (is : List Nat) (s : State) : freePins is s = { s with pins := (freePins is s).pins } := by
  unfold freePins
  induction is generalizing s with
  | nil => rfl
  | cons i is ih => exact ih (setPin i { pinAt i s with held := none } s)

/-- `t` has what a power transition reports of the field side as `s` has it. -/
structure SameSide (s t : State) : Prop where
  field : t.power.field = s.power.field
  target : t.power.target = s.power.target
  pwrState : t.regs.pwrState = s.regs.pwrState
  loadStatus : t.regs.loadStatus = s.regs.loadStatus
  linkStatus : t.regs.linkStatus = s.regs.linkStatus
  store : t.store = s.store
  array : t.array = s.array
  fabric : t.fabric = s.fabric
  link0 : t.link0 = s.link0
  link1 : t.link1 = s.link1
  twin : t.twin = s.twin

theorem SameSide.trans {s t u : State} (h : SameSide s t) (g : SameSide t u) : SameSide s u :=
  ⟨g.field.trans h.field, g.target.trans h.target, g.pwrState.trans h.pwrState, g.loadStatus.trans h.loadStatus,
    g.linkStatus.trans h.linkStatus, g.store.trans h.store, g.array.trans h.array, g.fabric.trans h.fabric, g.link0.trans h.link0,
    g.link1.trans h.link1, g.twin.trans h.twin⟩

theorem sameSide_freePins (is : List Nat) (s : State) : SameSide s (freePins is s) := by
  rw [freePins_shape]
  exact ⟨rfl, rfl, rfl, rfl, rfl, rfl, rfl, rfl, rfl, rfl, rfl⟩

theorem sameSide_putClkBit (b : Nat) (v : Bool) (s : State) : SameSide s (putClkBit b v s) :=
  ⟨rfl, rfl, rfl, rfl, rfl, rfl, rfl, rfl, rfl, rfl, rfl⟩

/-- The host die's own return. -/
theorem sameSide_hostBack (s : State) :
    SameSide s { s with power := { s.power with host := .standby, hostWake := false, cbHeld := false } } :=
  ⟨rfl, rfl, rfl, rfl, rfl, rfl, rfl, rfl, rfl, rfl, rfl⟩

theorem hostArrives_side (s : State) : SameSide s (hostArrives s) := by
  have hclock := (sameSide_putClkBit 10 true s).trans (sameSide_putClkBit 12 true (putClkBit 10 true s))
  unfold hostArrives
  split
  · exact ⟨rfl, rfl, rfl, rfl, rfl, rfl, rfl, rfl, rfl, rfl, rfl⟩
  · dsimp only
    split
    · exact hclock.trans ((sameSide_hostBack _).trans (sameSide_freePins _ _))
    · exact hclock

/-- The field side's new state shows in PWR_STATE, whose other bits stay. -/
theorem report_side (code : Nat) (s : State) (h : s.barrier.fieldSilent = false) :
    SameSide { s with regs := { s.regs with pwrState := setFld s.regs.pwrState 2 0 code } } (hostArrives (reportField code s)) := by
  have hside := hostArrives_side (reportPower code s)
  rw [reportField_of_heard code s h]
  generalize hostArrives (reportPower code s) = t at hside ⊢
  rw [reportPower_shape] at hside
  exact ⟨hside.field, hside.target, hside.pwrState, hside.loadStatus, hside.linkStatus, hside.store, hside.array, hside.fabric,
    hside.link0, hside.link1, hside.twin⟩

theorem fld_pwrState (w : Word) (code : Nat) (hcode : code < 8) : fld (setFld w 2 0 code) 2 0 = code :=
  (fld_setFld w 2 0 code (by decide) (by decide)).trans (Nat.mod_eq_of_lt hcode)

theorem getLsbD_pwrState (w : Word) (code : Nat) : (setFld w 2 0 code).getLsbD 3 = w.getLsbD 3 :=
  (getLsbD_setFld w 2 0 code 3 (by decide)).trans (if_neg (by decide))

/-- A transition with no command held runs none (R54). -/
theorem exec_powerTransitionDone (s : State) (hheld : s.heldCommands = []) :
    exec .powerTransitionDone s = .next (hostArrives (fieldArrives s)) := by
  have hnone : ∀ u : State, u.heldCommands = [] → runHeld u = u := by
    intro u hu
    rw [runHeld, hu, List.foldl_nil, ← hu]
  have hkept : (fieldArrives s).heldCommands = [] := by simp [hheld]
  change execPowerTransitionDone s = _
  rw [execPowerTransitionDone]
  dsimp only
  rw [hnone _ hkept, ite_self]

/-! ### The transitions (R516, R518 to R520) -/

theorem fieldArrives_of_off (s : State) (hoff : s.power.field = .off) (hrails : s.power.fieldRails = true)
    (htref : s.power.tref = true) : fieldArrives s = leaveOff s := by
  simp [fieldArrives, dueTransition, hoff, hrails, htref]

/-- From Off the field side reaches Standby with field I/O disabled and nothing loaded (R518). -/
theorem leaveOff_effect (s : State) (hheard : s.barrier.fieldSilent = false) :
    (hostArrives (leaveOff s)).power.field = .standby ∧ fld (hostArrives (leaveOff s)).regs.pwrState 2 0 = 2
      ∧ ioDisabled (hostArrives (leaveOff s)) = true ∧ loaded (hostArrives (leaveOff s)) = false := by
  unfold leaveOff
  have hunloaded := unloadStatus_shape (refreshField { s with power := { s.power with field := .standby } })
  have hnone := unloadStatus_not_loaded (refreshField { s with power := { s.power with field := .standby } })
  dsimp only
  generalize unloadStatus (refreshField { s with power := { s.power with field := .standby } }) = u at hunloaded hnone ⊢
  have hsilent : u.barrier.fieldSilent = false := by
    rw [hunloaded]
    exact hheard
  have hside := report_side 2 (putClkBit 13 true (putClkBit 11 true (putIoDisabled true u))) hsilent
  refine ⟨hside.field.trans ?_, ?_, ?_, ?_⟩
  · rw [hunloaded]
    rfl
  · rw [hside.pwrState]
    exact fld_pwrState _ 2 (by decide)
  · rw [ioDisabled, hside.pwrState]
    exact (getLsbD_pwrState _ 2).trans (ioDisabled_of_setBit u (putIoDisabled true u) rfl)
  · rw [loaded, hside.loadStatus]
    exact hnone

theorem fieldArrives_of_dormant (s : State) (hdormant : s.power.field = .dormant) (htarget : s.power.target = some .standby) :
    fieldArrives s = leaveDormant s := by
  simp [fieldArrives, dueTransition, hdormant, htarget]

theorem sampleInputs_shape (s : State) : sampleInputs s = { s with
    fabric := (sampleInputs s).fabric, pins := (sampleInputs s).pins, twin := (sampleInputs s).twin
    regs := { s.regs with twinStatus := (sampleInputs s).regs.twinStatus } } := by
  unfold sampleInputs
  (repeat' split) <;> rfl

/-- From Dormant the field side reaches Standby with its stores and its array kept (R516). -/
theorem leaveDormant_effect (s : State) (hheard : s.barrier.fieldSilent = false) :
    (hostArrives (leaveDormant s)).power.field = .standby ∧ (hostArrives (leaveDormant s)).power.target = none
      ∧ fld (hostArrives (leaveDormant s)).regs.pwrState 2 0 = 2 ∧ (hostArrives (leaveDormant s)).store = s.store
      ∧ (hostArrives (leaveDormant s)).array = s.array := by
  unfold leaveDormant
  dsimp only
  have hfree := freePins_shape ((List.range 32).map (· + 8)) (refreshField { s with
    power := { s.power with field := .standby, target := none } })
  generalize freePins ((List.range 32).map (· + 8)) (refreshField { s with
    power := { s.power with field := .standby, target := none } }) = v at hfree ⊢
  have hsample := sampleInputs_shape v
  generalize sampleInputs v = u at hsample ⊢
  have hsilent : u.barrier.fieldSilent = false := by
    rw [hsample, hfree]
    exact hheard
  have hside := report_side 2 (putClkBit 15 (loaded s) (putClkBit 14 (loaded s) (putClkBit 13 true u))) hsilent
  refine ⟨hside.field.trans ?_, hside.target.trans ?_, ?_, hside.store.trans ?_, hside.array.trans ?_⟩
  · rw [hsample, hfree]
    rfl
  · rw [hsample, hfree]
    rfl
  · rw [hside.pwrState]
    exact fld_pwrState _ 2 (by decide)
  · rw [hsample, hfree]
    rfl
  · rw [hsample, hfree]
    rfl

theorem fieldArrives_of_armed (s : State) (harmed : s.power.field = .armed) (hrequest : requested s ≠ .armed)
    (hidle : s.loader.active = false) (hboundary : atBoundary s = true) (hcommitted : s.batches.all committedBoth = true) :
    fieldArrives s = leaveArmed s := by
  simp only [fieldArrives, dueTransition, harmed, hidle, hboundary, hcommitted, decide_eq_true hrequest]
  rfl

/-- From Armed the field side reaches Standby with both links down (R519). -/
theorem leaveArmed_effect (s : State) (hheard : s.barrier.fieldSilent = false) :
    (hostArrives (leaveArmed s)).power.field = .standby ∧ fld (hostArrives (leaveArmed s)).regs.pwrState 2 0 = 2
      ∧ linkState .f0 (hostArrives (leaveArmed s)) = 0 ∧ linkState .f1 (hostArrives (leaveArmed s)) = 0
      ∧ (hostArrives (leaveArmed s)).store = s.store := by
  have hside := report_side 2 (sleepLinks { s with power := { s.power with field := .standby } }) hheard
  refine ⟨hside.field, ?_, ?_, ?_, hside.store⟩
  · rw [leaveArmed, hside.pwrState]
    exact fld_pwrState _ 2 (by decide)
  · rw [linkState, if_pos rfl, leaveArmed, hside.linkStatus]
    exact fld_setFld _ 1 0 0 (by decide) (by decide)
  · rw [linkState, if_neg (by decide), leaveArmed, hside.linkStatus]
    exact (fld_setFld_ne _ _ _ _ _ _ (by decide) (by decide)).trans (fld_setFld _ 5 4 0 (by decide) (by decide))

theorem fieldArrives_of_held (s : State) (hstandby : s.power.field = .standby) (hdue : dueTransition s = none) :
    fieldArrives s = s := by
  simp [fieldArrives, hstandby, hdue]


/-! ### To Armed -/

theorem startRelock_shape (new : Word) (s : State) : startRelock new s = { s with
    power := (startRelock new s).power, regs := { s.regs with clkStatus := (startRelock new s).regs.clkStatus } } := by
  unfold startRelock
  dsimp only
  (repeat' split) <;> rfl

theorem startRelock_power (new : Word) (s : State) : (startRelock new s).power = { s.power with
    hostTimeBase := hostTime s, hostTimeAt := s.power.fclk, clkInForce := new, clkPrev := s.power.clkInForce
    relockS := s.power.relockS || stepClockDiffers s.power.clkInForce new
    relockF := s.power.relockF || fabricClockDiffers s.power.clkInForce new, clkDue := false } := by
  unfold startRelock
  dsimp only
  (repeat' split) <;> rfl

/-- Both links retrain if they are named. -/
def retrainBoth (full : Bool) (s : State) : State := retrainLink .f1 full (retrainLink .f0 full s)

theorem retrainLink_of_named (l : FLink) (full : Bool) (s : State) (h : linkNamed l s = true) : retrainLink l full s
    = setFlink l { flink l s with retrainDue := true, fullDue := (flink l s).fullDue || full } s := if_pos h

theorem retrainLink_of_unnamed (l : FLink) (full : Bool) (s : State) (h : linkNamed l s = false) : retrainLink l full s = s :=
  if_neg (by rw [h]; exact Bool.false_ne_true)

theorem retrainBoth_shape (full : Bool) (s : State) :
    retrainBoth full s = { s with link0 := (retrainBoth full s).link0, link1 := (retrainBoth full s).link1 } := by
  unfold retrainBoth retrainLink
  (repeat' split) <;> rfl

/-- Each named link is due to retrain, at its full rate where that is asked for (R264). -/
theorem retrainBoth_due (full : Bool) (s : State) (l : FLink) (h : linkNamed l s = true) :
    (flink l (retrainBoth full s)).retrainDue = true
      ∧ (flink l (retrainBoth full s)).fullDue = ((flink l s).fullDue || full) := by
  unfold retrainBoth
  cases l with
  | f0 =>
    rw [retrainLink_of_named .f0 full s h]
    unfold retrainLink
    split <;> exact ⟨rfl, rfl⟩
  | f1 =>
    have hnamed : linkNamed .f1 (retrainLink .f0 full s) = true := by
      unfold retrainLink
      split <;> exact h
    have hother : flink .f1 (retrainLink .f0 full s) = flink .f1 s := by
      unfold retrainLink
      split <;> rfl
    rw [retrainLink_of_named .f1 full _ hnamed, flink_setFlink, hother]
    exact ⟨rfl, rfl⟩

theorem fieldArrives_to_armed (s : State) (hstandby : s.power.field = .standby) (hidle : s.loader.active = false)
    (hrequest : requested s = .armed) (hloaded : loaded s = true) : fieldArrives s = enterArmed s := by
  simp [fieldArrives, dueTransition, hstandby, hidle, hrequest, hloaded]

/-- The field side as it enters Armed: bank groups awake, routing at 0, Galleries in use to be powered (R234, R391, R504). -/
def armedSide (s : State) : State :=
  { s with
    power := { s.power with field := .armed, target := none }
    store := { s.store with sleepingGroups := [] }
    fabric := zeroRouting s.fabric
    array := { s.array with
      toPower := (List.range (galleryCount s)).filter (fun g => galleryInUse g s && !(gallery g s).powered) } }

/-- The side entering Armed with the clock change that waited. -/
def clockedSide (s : State) : State := if s.power.clkDue then startRelock s.inForce.clk (armedSide s) else armedSide s

theorem clockedSide_shape (s : State) : clockedSide s = { armedSide s with
    power := (clockedSide s).power, regs := { s.regs with clkStatus := (clockedSide s).regs.clkStatus } } := by
  unfold clockedSide
  split
  · rw [startRelock_shape]
    rfl
  · rfl

theorem clockedSide_field (s : State) : (clockedSide s).power.field = .armed := by
  unfold clockedSide
  split
  · rw [startRelock_power]
    rfl
  · rfl

theorem enterArmed_eq (s : State) : enterArmed s = reportField 3 { retrainBoth false (clockedSide s) with
    power := { (retrainBoth false (clockedSide s)).power with domains :=
      (retrainBoth false (clockedSide s)).power.domains.filter (fun d => domainSleeps d (retrainBoth false (clockedSide s))) } } := rfl

/-- From Standby the field side reaches Armed with routing at 0, every bank group awake and the named links due to train. -/
theorem enterArmed_effect (s : State) (hheard : s.barrier.fieldSilent = false) :
    (hostArrives (enterArmed s)).power.field = .armed ∧ fld (hostArrives (enterArmed s)).regs.pwrState 2 0 = 3
      ∧ (hostArrives (enterArmed s)).fabric = zeroRouting s.fabric ∧ (hostArrives (enterArmed s)).store.sleepingGroups = []
      ∧ (hostArrives (enterArmed s)).store.cs = s.store.cs
      ∧ ∀ l, linkNamed l s = true → (flink l (hostArrives (enterArmed s))).retrainDue = true := by
  rw [enterArmed_eq]
  have hclocked := clockedSide_shape s
  have hfield := clockedSide_field s
  generalize clockedSide s = v at hclocked hfield ⊢
  have hboth := retrainBoth_shape false v
  have hdue := retrainBoth_due false v
  generalize retrainBoth false v = u at hboth hdue ⊢
  have hpower : u.power = v.power := by rw [hboth]
  have hparts : u.barrier = s.barrier ∧ u.fabric = zeroRouting s.fabric ∧ u.store = { s.store with sleepingGroups := [] } := by
    rw [hboth, hclocked]
    exact ⟨rfl, rfl, rfl⟩
  have hnamed : ∀ l, linkNamed l v = linkNamed l s := fun l => by
    rw [hclocked]
    rfl
  obtain ⟨hbarrier, hfabric, hstore⟩ := hparts
  have hside := report_side 3 { u with power := { u.power with domains := u.power.domains.filter (fun d => domainSleeps d u) } }
    (by
      change u.barrier.fieldSilent = false
      rw [hbarrier, hheard])
  refine ⟨hside.field.trans ?_, ?_, hside.fabric.trans hfabric, ?_, ?_, fun l hl => ?_⟩
  · change u.power.field = .armed
    rw [hpower, hfield]
  · rw [hside.pwrState]
    exact fld_pwrState _ 3 (by decide)
  · rw [hside.store]
    change u.store.sleepingGroups = []
    rw [hstore]
  · rw [hside.store]
    change u.store.cs = s.store.cs
    rw [hstore]
  · have hlinks : flink l (hostArrives (reportField 3 { u with
        power := { u.power with domains := u.power.domains.filter (fun d => domainSleeps d u) } })) = flink l u := by
      cases l with
      | f0 => exact hside.link0
      | f1 => exact hside.link1
    rw [hlinks]
    exact (hdue l ((hnamed l).trans hl)).1

/-! ### To Dormant -/

theorem fieldArrives_to_dormant (s : State) (hstandby : s.power.field = .standby) (hidle : s.loader.active = false)
    (hrequest : requested s = .dormant) (h0 : ledgerHolds s.ledger0 = false) (h1 : ledgerHolds s.ledger1 = false)
    (htest : s.store.test = .idle) (hnone : s.store.outstanding = []) (hheld : s.heldCommands = []) :
    fieldArrives s = enterDormant s := by
  simp [fieldArrives, dueTransition, hstandby, hidle, hrequest, h0, h1, htest, hnone, hheld]

/-- `t` has the stores of `s`, and its host die hears the field side as before. -/
def sameReach (s t : State) : Prop := t.store = s.store ∧ t.barrier.fieldSilent = s.barrier.fieldSilent

theorem sameReach.trans {s t u : State} (h : sameReach s t) (g : sameReach t u) : sameReach s u := ⟨g.1.trans h.1, g.2.trans h.2⟩

theorem sameReach_setTwinStatus (b : Nat) (s : State) : sameReach s (setTwinStatus b s) := by
  unfold setTwinStatus
  split
  · exact ⟨rfl, rfl⟩
  · dsimp only
    split
    · exact ⟨rfl, rfl⟩
    · rw [setEvent_shape]
      exact ⟨rfl, rfl⟩

theorem sameReach_roleMark (code : Nat) (s : State) : sameReach s (roleMark code s) := by
  simp [sameReach, roleMark, timeMarks, wait]

theorem sameReach_leaveLockstep (code : Nat) (s : State) : sameReach s (leaveLockstep code s) := by
  have hrole : sameReach s (setRole .outOfLockstep s) := by
    rw [setRole_shape]
    exact ⟨rfl, rfl⟩
  have htold : sameReach s (fieldEventFree evTwin (setTwinStatus 5 (setRole .outOfLockstep s))) :=
    (hrole.trans (sameReach_setTwinStatus 5 _)).trans ⟨rfl, rfl⟩
  have hout : sameReach s (outOfStep code s) := by
    unfold outOfStep
    dsimp only
    split
    · exact htold
    · exact htold.trans (sameReach_roleMark code _)
  cases hin : inLockstep s with
  | false =>
    rw [leaveLockstep_of_not_lockstep code s hin]
    exact ⟨rfl, rfl⟩
  | true =>
    rw [leaveLockstep_of_lockstep code s hin, handOver]
    split
    · refine hout.trans ((sameReach_roleMark 4 (sendTwin (.control 1) (outOfStep code s))).trans ?_)
      rw [lapseLease_shape]
      exact ⟨rfl, rfl⟩
    · exact hout

/-- From Standby the field side reaches Dormant: the lease has lapsed and the stores are kept (R352, R520). -/
theorem enterDormant_effect (s : State) (hheard : s.barrier.fieldSilent = false) :
    (hostArrives (enterDormant s)).power.field = .dormant ∧ fld (hostArrives (enterDormant s)).regs.pwrState 2 0 = 1
      ∧ (hostArrives (enterDormant s)).twin.leaseValid = false ∧ (hostArrives (enterDormant s)).store = s.store := by
  have hlapsed : (leaveLockstep 0 (lapseLease s)).twin.leaseValid = false :=
    leaveLockstep_leaseValid 0 (lapseLease s) (by rw [lapseLease_twin])
  have hreach : sameReach s (leaveLockstep 0 (lapseLease s)) := by
    refine sameReach.trans ?_ (sameReach_leaveLockstep 0 (lapseLease s))
    rw [lapseLease_shape]
    exact ⟨rfl, rfl⟩
  obtain ⟨hstore, hsilent⟩ := hreach
  unfold enterDormant
  dsimp only
  generalize leaveLockstep 0 (lapseLease s) = v at hlapsed hstore hsilent ⊢
  have hheld := holdPins_shape ((List.range 32).map (· + 8)) v
  generalize holdPins ((List.range 32).map (· + 8)) v = w at hheld ⊢
  have hdown := downMeshTwin_shape w
  have hlease : (downMeshTwin w).twin.leaseValid = w.twin.leaseValid := by
    unfold downMeshTwin
    dsimp only
    split <;> rfl
  generalize downMeshTwin w = u at hdown hlease ⊢
  have hside := report_side 1 (putClkBit 15 false (putClkBit 14 false (putClkBit 13 false { u with
    power := { u.power with field := .dormant }
    array := { u.array with
      galleries := (List.range 64).foldl (fun t g => tset {} t g { tget {} t g with powered := false }) u.array.galleries
      toPower := [], powerGroup := 0 } }))) (by
    change u.barrier.fieldSilent = false
    rw [hdown, hheld]
    exact hsilent.trans hheard)
  refine ⟨hside.field, ?_, ?_, hside.store.trans ?_⟩
  · rw [hside.pwrState]
    exact fld_pwrState _ 1 (by decide)
  · rw [hside.twin]
    change u.twin.leaseValid = false
    rw [hlease, hheld]
    exact hlapsed
  · change u.store = s.store
    rw [hdown, hheld]
    exact hstore

theorem powerTransitions : Claims.PowerTransitions := by
  intro s hheard hheld
  have hexec := exec_powerTransitionDone s hheld
  have hstays : s.power.field = .standby → dueTransition s = none →
      ∃ t, exec .powerTransitionDone s = .next t ∧ t.power.field = .standby := by
    intro hstandby hdue
    refine ⟨_, hexec, ?_⟩
    rw [fieldArrives_of_held s hstandby hdue]
    exact (hostArrives_side s).field.trans hstandby
  refine ⟨fun hoff hrails htref => ⟨_, hexec, ?_⟩, fun hdormant htarget => ⟨_, hexec, ?_⟩,
    fun hstandby hidle hrequest hloaded => ⟨_, hexec, ?_⟩, fun hstandby hrequest hloaded => hstays hstandby ?_,
    fun harmed hrequest hidle hboundary hcommitted => ⟨_, hexec, ?_⟩,
    fun hstandby hidle hrequest => ⟨fun hbusy => hstays hstandby ?_, fun h0 h1 htest hnone => ⟨_, hexec, ?_⟩⟩⟩
  · rw [fieldArrives_of_off s hoff hrails htref]
    exact leaveOff_effect s hheard
  · rw [fieldArrives_of_dormant s hdormant htarget]
    exact leaveDormant_effect s hheard
  · rw [fieldArrives_to_armed s hstandby hidle hrequest hloaded]
    exact enterArmed_effect s hheard
  · simp [dueTransition, hstandby, hrequest, hloaded]
  · rw [fieldArrives_of_armed s harmed hrequest hidle hboundary hcommitted]
    exact leaveArmed_effect s hheard
  · simp only [dueTransition, hstandby, hidle, hrequest]
    obtain h | h | h := hbusy <;> simp [h]
  · rw [fieldArrives_to_dormant s hstandby hidle hrequest h0 h1 htest hnone hheld]
    exact enterDormant_effect s hheard

/-! ### Wakes (R521, R522, R527) -/

theorem setWakeCause_bit (b : Nat) (s : State) (hb : b < 16) : (setWakeCause b s).regs.wakeCause.getLsbD b = true := by
  rw [setWakeCause_shape]
  exact (getLsbD_or_twoPow s.regs.wakeCause b b).trans (by simp [hb])

/-- A wake cause once set stays while another is set. -/
theorem setWakeCause_keeps (b j : Nat) (s : State) (h : s.regs.wakeCause.getLsbD j = true) :
    (setWakeCause b s).regs.wakeCause.getLsbD j = true := by
  rw [setWakeCause_shape]
  exact (getLsbD_or_twoPow s.regs.wakeCause b j).trans (by simp [h])

theorem setWakeCause_power (b : Nat) (s : State) :
    (setWakeCause b s).power = s.power ∧ (setWakeCause b s).regs.pwrRequest = s.regs.pwrRequest := by
  rw [setWakeCause_shape]
  exact ⟨rfl, rfl⟩

theorem wakeHost_regs (s : State) : (wakeHost s).regs = s.regs ∧ (wakeHost s).power.field = s.power.field := by
  unfold wakeHost
  split <;> exact ⟨rfl, rfl⟩

theorem wakeHost_of_dormant (s : State) (h : s.power.host = .dormant) :
    (wakeHost s).power = { s.power with hostWake := true } := by
  rw [wakeHost, if_pos h]

/-- A request for 1 to 3 stands in PWR_REQUEST.FIELD. -/
theorem putRequest_effect (v : Nat) (s : State) (hlow : 1 ≤ v) (hhigh : v ≤ 3) :
    fld (putRequest v s).regs.pwrRequest 2 0 = v ∧ (putRequest v s).power = s.power := by
  unfold putRequest
  simp only [hlow, hhigh, decide_true, Bool.and_self, if_true]
  exact ⟨(fld_setFld _ 2 0 v (by decide) (by decide)).trans (Nat.mod_eq_of_lt (by omega)), trivial⟩

/-- The requested state as a wake leaves it. -/
def wakeRequest (s : State) : State :=
  if fld s.regs.pwrRequest 2 0 < fld s.regs.wakeEnable 1 0 then
    putRequest (fld s.regs.wakeEnable 1 0)
      (wrote .fieldUnit 0x05 (setFld s.regs.pwrRequest 2 0 (fld s.regs.wakeEnable 1 0)) s)
  else s

theorem wakeRequest_power (s : State) : (wakeRequest s).power = s.power := by
  unfold wakeRequest putRequest
  (repeat' split) <;> simp

theorem exec_wakePin (p : WakeSample) (s : State) (f h : Bool)
    (hf : (p.fieldPin && s.regs.wakeEnable.getLsbD 15
      && (decide (s.power.field = .dormant) || decide (s.power.field = .standby))) = f)
    (hh : (p.hostPin && s.regs.wakeEnable.getLsbD 8
      && (decide (s.power.host = .dormant) || decide (s.power.host = .standby))) = h) :
    exec (.wakePin p) s = .next (if !(f || h) then s else
      let raises := decide (fld s.regs.pwrRequest 2 0 < fld s.regs.wakeEnable 1 0) || decide (s.power.host = .dormant)
      let s2 := if f && raises then setWakeCause 7 (wakeRequest s) else wakeRequest s
      wakeHost (if h && raises then setWakeCause 6 s2 else s2)) := by
  subst hf hh
  change execWakePin p s = _
  rw [execWakePin, wakePins, wakeRequest]
  simp only [decide_eq_true_eq]

/-- What a field pin's wake leaves: the request as it stands, the cause FIELD_PIN, the field side Dormant until it arrives. -/
theorem fieldWake_effect {request : Nat} (host : Prop) [Decidable host] (u : State) (hrequest : fld u.regs.pwrRequest 2 0 = request)
    (hdormant : u.power.field = .dormant) :
    let t := wakeHost (if host then setWakeCause 6 (setWakeCause 7 u) else setWakeCause 7 u)
    fld t.regs.pwrRequest 2 0 = request ∧ t.regs.wakeCause.getLsbD 7 = true ∧ t.power.field = .dormant := by
  intro t
  obtain ⟨hpower, hkept⟩ := setWakeCause_power 7 u
  obtain ⟨hpower', hkept'⟩ := setWakeCause_power 6 (setWakeCause 7 u)
  obtain ⟨hregs, hfield⟩ := wakeHost_regs (if host then setWakeCause 6 (setWakeCause 7 u) else setWakeCause 7 u)
  rw [hregs, hfield]
  have hcause := setWakeCause_bit 7 u (by decide)
  split
  · rw [hpower', hkept', hpower, hkept]
    exact ⟨hrequest, setWakeCause_keeps 6 7 _ hcause, hdormant⟩
  · rw [hpower, hkept]
    exact ⟨hrequest, hcause, hdormant⟩

/-- A call of the host die from Dormant. -/
theorem hostCall_effect (b : Nat) (s : State) (hb : b < 16) (hdormant : s.power.host = .dormant) :
    (wakeHost (setWakeCause b s)).regs.wakeCause.getLsbD b = true
      ∧ (wakeHost (setWakeCause b s)).power = { s.power with hostWake := true } := by
  obtain ⟨hpower, -⟩ := setWakeCause_power b s
  rw [(wakeHost_regs (setWakeCause b s)).1, wakeHost_of_dormant _ (by rw [hpower]; exact hdormant), hpower]
  exact ⟨setWakeCause_bit b s hb, rfl⟩

theorem wakesRaise : Claims.WakesRaise := by
  intro p s
  refine ⟨fun hfield hhost => ?_, fun hpin hselect hdormant hlow hup => ⟨_, exec_wakePin p s _ _ rfl rfl, ?_⟩,
    fun hpin hselect hdormant => ⟨_, exec_wakePin p s _ _ rfl rfl, ?_⟩, fun hdormant => ⟨wakeHost (setWakeCause 4 s), ?_, ?_⟩,
    fun hdormant hselect => ⟨{ wakeHost (setWakeCause 5 s) with
      power := { (wakeHost (setWakeCause 5 s)).power with cbHeld := true } }, ?_, ?_⟩, fun hawake => ⟨?_, ?_⟩⟩
  · rw [exec_wakePin p s false false (by rw [hfield, Bool.and_false, Bool.false_and])
      (by rw [hhost, Bool.and_false, Bool.false_and])]
    rfl
  · have ht : fld s.regs.wakeEnable 1 0 ≤ 3 := by
      rw [fld]
      omega
    have hrequest : fld (wakeRequest s).regs.pwrRequest 2 0 = fld s.regs.wakeEnable 1 0 := by
      rw [wakeRequest, if_pos hup]
      exact (putRequest_effect _ _ (by omega) ht).1
    simp only [hpin, hselect, hdormant, hup, decide_true, Bool.true_and, Bool.true_or, Bool.not_true, if_true, if_false,
      Bool.false_eq_true]
    exact fieldWake_effect _ (wakeRequest s) hrequest ((congrArg Power.field (wakeRequest_power s)).trans hdormant)
  · have hhost : ∀ u : State, u = wakeRequest s ∨ u = setWakeCause 7 (wakeRequest s) → u.power.host = .dormant := by
      rintro u (rfl | rfl)
      · rw [wakeRequest_power, hdormant]
      · rw [(setWakeCause_power 7 _).1, wakeRequest_power, hdormant]
    simp only [hpin, hselect, hdormant, decide_true, Bool.true_or, Bool.or_true, Bool.and_true, Bool.not_true, if_true,
      Bool.false_eq_true, if_false]
    split
    · obtain ⟨hcause, hpower⟩ := hostCall_effect 6 _ (by decide) (hhost (setWakeCause 7 (wakeRequest s)) (.inr rfl))
      exact ⟨by rw [hpower], hcause⟩
    · obtain ⟨hcause, hpower⟩ := hostCall_effect 6 _ (by decide) (hhost (wakeRequest s) (.inl rfl))
      exact ⟨by rw [hpower], hcause⟩
  · change execPerstDeassert s = _
    rw [execPerstDeassert, if_pos hdormant]
  · exact hostCall_effect 4 s (by decide) hdormant
  · change execControlBusWake s = _
    rw [execControlBusWake, if_pos (by rw [hselect, decide_eq_true hdormant]; rfl)]
  · obtain ⟨hcause, hpower⟩ := hostCall_effect 5 s (by decide) hdormant
    exact ⟨hcause, by rw [hpower]⟩
  · change execPerstDeassert s = _
    rw [execPerstDeassert, if_neg hawake]
  · change execControlBusWake s = _
    rw [execControlBusWake, if_neg (by simp [hawake])]


/-! ### Rails and references (R534, R535, R655, R670) -/

theorem beginWaiting_of_none (s : State) (h : s.loader.waiting = none) : beginWaiting s = s := by rw [beginWaiting, h]

/-- A reset of the field side leaves it Off, with nothing in its stores (R655). -/
theorem fieldReset_effect (s : State) : (fieldReset s).power.field = .off ∧ (fieldReset s).power.fieldRails = s.power.fieldRails
    ∧ (fieldReset s).store = {} ∧ (fieldReset s).array = {} ∧ (fieldReset s).fabric = {} ∧ (fieldReset s).batches = []
    ∧ (fieldReset s).otp = s.otp ∧ (fieldReset s).loader = s.loader := by
  obtain ⟨hbatches, -⟩ := discardConfig_drops s
  have hkept : (discardConfig s).power = s.power ∧ (discardConfig s).otp = s.otp ∧ (discardConfig s).loader = s.loader := by simp
  unfold fieldReset
  dsimp only
  generalize discardConfig s = u at hbatches hkept ⊢
  obtain ⟨hpower, hotp, hloader⟩ := hkept
  exact ⟨rfl, congrArg Power.fieldRails hpower, rfl, rfl, rfl, hbatches, hotp, hloader⟩

theorem disableFieldIo_rest (s : State) : (disableFieldIo s).store = s.store ∧ (disableFieldIo s).ledger0 = s.ledger0
    ∧ (disableFieldIo s).ledger1 = s.ledger1 ∧ (disableFieldIo s).twin.leaseValid = false := by
  have hdown : ∀ u : State, (downMeshTwin u).twin.leaseValid = u.twin.leaseValid := by
    intro u
    unfold downMeshTwin
    dsimp only
    split <;> rfl
  have hlease : (downMeshTwin (lapseLease s)).twin.leaseValid = false := by rw [hdown, lapseLease_twin]
  refine ⟨?_, ?_, ?_, hlease⟩
  all_goals
    simp only [disableFieldIo]
    rw [downMeshTwin_shape, lapseLease_shape]
    rfl

theorem setBit_getLsbD_three (w : Word) (b : Bool) : (setBit w 3 b).getLsbD 3 = b :=
  (getLsbD_setBit w 3 3 b).trans (by simp)

/-- Without TREF the field side counts as Off and keeps its stores (R534). -/
theorem trefLoss_effect (s : State) (hrails : s.power.fieldRails = true) (htref : s.power.tref = true) (hon : s.power.field ≠ .off) :
    (trefLoss s).power.tref = false ∧ (trefLoss s).power.field = .off ∧ (trefLoss s).store = s.store
      ∧ (trefLoss s).twin.leaseValid = false ∧ ledger .f0 (trefLoss s) = ledger .f0 s ∧ ledger .f1 (trefLoss s) = ledger .f1 s
      ∧ ioDisabled (trefLoss s) = ioDisabled s := by
  obtain ⟨hstore, hledger0, hledger1, hlease⟩ := disableFieldIo_rest s
  rw [trefLoss, if_pos (by simp [hrails, htref, hon])]
  dsimp only
  generalize disableFieldIo s = u at hstore hledger0 hledger1 hlease ⊢
  exact ⟨rfl, rfl, hstore, hlease, hledger0, hledger1, setBit_getLsbD_three u.regs.pwrState (ioDisabled s)⟩

theorem keepCommitted_shape (l : FLink) (s : State) : keepCommitted l s = { s with
    ledger0 := (keepCommitted l s).ledger0, ledger1 := (keepCommitted l s).ledger1 } := by
  cases l <;> rfl

/-- The field side relocked, before its return is reported: only committed batches are left (R534). -/
def relockedSide (s : State) : State :=
  let s1 := keepCommitted .f1 (keepCommitted .f0 s)
  let s2 := { s1 with
    power := { s1.power with tref := true, field := .standby, target := none }
    batches := s1.batches.filter committedBoth
    fetchStopped := false
    unload := {} }
  putClkBit 13 true (putClkBit 11 true (putClkBit 14 false (putClkBit 15 false (putIoDisabled true (unloadStatus (refreshField s2))))))

theorem relockedSide_effect (s : State) : (relockedSide s).power.tref = true ∧ (relockedSide s).power.field = .standby
    ∧ ioDisabled (relockedSide s) = true ∧ (relockedSide s).batches = s.batches.filter committedBoth
    ∧ (relockedSide s).store = s.store ∧ loaded (relockedSide s) = false := by
  unfold relockedSide
  dsimp only
  rw [keepCommitted_shape .f1, keepCommitted_shape .f0 s]
  generalize hv : refreshField _ = v
  have hparts : v.power.tref = true ∧ v.power.field = .standby ∧ v.batches = s.batches.filter committedBoth ∧ v.store = s.store := by
    rw [← hv]
    exact ⟨rfl, rfl, rfl, rfl⟩
  obtain ⟨htref, hfield, hbatches, hstore⟩ := hparts
  have hshape := unloadStatus_shape v
  have hnone := unloadStatus_not_loaded v
  generalize unloadStatus v = u at hshape hnone ⊢
  refine ⟨?_, ?_, setBit_getLsbD_three u.regs.pwrState true, ?_, ?_, hnone⟩
  · change u.power.tref = true
    rw [hshape]
    exact htref
  · change u.power.field = .standby
    rw [hshape]
    exact hfield
  · change u.batches = _
    rw [hshape]
    exact hbatches
  · change u.store = _
    rw [hshape]
    exact hstore

theorem setClkStatus_shape (b : Nat) (s : State) : setClkStatus b s = { s with
    regs := { s.regs with
      clkStatus := s.regs.clkStatus ||| BitVec.twoPow 16 b, eventStatus := (setClkStatus b s).regs.eventStatus }
    hostOut := (setClkStatus b s).hostOut } := by
  unfold setClkStatus
  dsimp only
  split
  · rfl
  · rw [setEvent_shape]
    simp

theorem setClkStatus_bit (b : Nat) (s : State) (hb : b < 16) : (setClkStatus b s).regs.clkStatus.getLsbD b = true := by
  rw [setClkStatus_shape]
  exact (getLsbD_or_twoPow s.regs.clkStatus b b).trans (by simp [hb])

theorem trefReturn_eq (s : State) (hrails : s.power.fieldRails = true) (htref : s.power.tref = false) :
    trefReturn s = reportField 2 (setWakeCause 1 (setClkStatus 8 (relockedSide s))) := by
  rw [trefReturn, if_neg (by simp [htref]), if_neg (by simp [hrails])]
  rfl

/-- The report of the field side's state, or none while the host die hears nothing. -/
theorem reportField_shape (code : Nat) (s : State) : ∃ pwrState eventStatus out, reportField code s = { s with
    regs := { s.regs with pwrState := pwrState, eventStatus := eventStatus }, hostOut := out }
    ∧ pwrState.getLsbD 3 = s.regs.pwrState.getLsbD 3 := by
  unfold reportField
  split
  · exact ⟨_, _, _, rfl, rfl⟩
  · exact ⟨_, _, _, reportPower_shape code s, getLsbD_pwrState _ _⟩

/-- With TREF back the field side is in Standby, with TREF_LOSS set and only committed batches (R534, R527). -/
theorem trefReturn_effect (s : State) (hrails : s.power.fieldRails = true) (htref : s.power.tref = false) :
    (trefReturn s).power.tref = true ∧ (trefReturn s).power.field = .standby ∧ ioDisabled (trefReturn s) = true
      ∧ (trefReturn s).regs.clkStatus.getLsbD 8 = true ∧ (trefReturn s).regs.wakeCause.getLsbD 1 = true
      ∧ (trefReturn s).batches = s.batches.filter committedBoth ∧ (trefReturn s).store = s.store ∧ loaded (trefReturn s) = false := by
  obtain ⟨hback, hfield, hio, hbatches, hstore, hloaded⟩ := relockedSide_effect s
  have hwake := setWakeCause_bit 1 (setClkStatus 8 (relockedSide s)) (by decide)
  have hclock : (setWakeCause 1 (setClkStatus 8 (relockedSide s))).regs.clkStatus.getLsbD 8 = true := by
    rw [setWakeCause_shape]
    exact setClkStatus_bit 8 (relockedSide s) (by decide)
  have hrest : SameLoad (relockedSide s) (setWakeCause 1 (setClkStatus 8 (relockedSide s)))
      ∧ (setWakeCause 1 (setClkStatus 8 (relockedSide s))).power = (relockedSide s).power
      ∧ (setWakeCause 1 (setClkStatus 8 (relockedSide s))).store = (relockedSide s).store := by
    rw [setWakeCause_shape, setClkStatus_shape]
    exact ⟨⟨rfl, rfl, rfl, rfl, rfl⟩, rfl, rfl⟩
  obtain ⟨hsame, hpower, hkept⟩ := hrest
  obtain ⟨pwrState, eventStatus, out, hshape, hbit⟩ := reportField_shape 2 (setWakeCause 1 (setClkStatus 8 (relockedSide s)))
  rw [trefReturn_eq s hrails htref, hshape]
  refine ⟨?_, ?_, (hbit.trans hsame.io).trans hio, hclock, hwake, hsame.batches.trans hbatches, hkept.trans hstore, ?_⟩
  · change (setWakeCause 1 (setClkStatus 8 (relockedSide s))).power.tref = true
    rw [hpower, hback]
  · change (setWakeCause 1 (setClkStatus 8 (relockedSide s))).power.field = .standby
    rw [hpower, hfield]
  · change decide (fld (setWakeCause 1 (setClkStatus 8 (relockedSide s))).regs.loadStatus 15 13 = 4) = false
    rw [hsame.status]
    exact hloaded

theorem railsAndReferences : Claims.RailsAndReferences := by
  intro s
  refine ⟨fun hdown => ?_, fun hup hwaiting => ⟨fieldReset { s with power := { s.power with fieldRails := false } }, ?_, ?_⟩,
    fun hup => ⟨{ hostReset false { s with power := { s.power with hostRails := false } } with
      power := { (hostReset false { s with power := { s.power with hostRails := false } }).power with host := .off } }, ?_,
      rfl, rfl, fun a ha hpower hlevel => ?_, rfl, rfl⟩,
    fun hup hon => ⟨hostReset false s, ?_, rfl, fun a ha hpower hlevel => ?_, rfl, rfl⟩,
    fun hup htref hon => ⟨trefLoss s, rfl, trefLoss_effect s hup htref hon⟩,
    fun hup htref => ⟨trefReturn s, rfl, trefReturn_effect s hup htref⟩⟩
  · exact congrArg Host.Outcome.next (if_neg (by rw [hdown]; exact Bool.false_ne_true))
  · obtain ⟨-, -, -, -, -, -, -, hloader⟩ := fieldReset_effect { s with power := { s.power with fieldRails := false } }
    refine congrArg Host.Outcome.next ((if_pos hup).trans (beginWaiting_of_none _ ?_))
    rw [hloader]
    exact hwaiting
  · obtain ⟨hoff, hrails, hstore, harray, hfabric, hbatches, hotp, -⟩ :=
      fieldReset_effect { s with power := { s.power with fieldRails := false } }
    exact ⟨hoff, hrails, hstore, harray, hfabric, hbatches, hotp⟩
  · exact congrArg Host.Outcome.next (if_pos hup)
  · exact regValue_of_fresh s.regs.debugLevel a _ rfl rfl rfl ha hpower hlevel
  · change execHrefLoss s = _
    rw [execHrefLoss, if_pos (by simp [hup, hon])]
  · exact regValue_of_fresh s.regs.debugLevel a _ rfl rfl rfl ha hpower hlevel

/-! ### Clock changes (R532, R533) -/

theorem clkStatus_startRelock (new : Word) (s : State) :
    (stepClockDiffers s.power.clkInForce new = true → (startRelock new s).regs.clkStatus.getLsbD 15 = false)
      ∧ (fabricClockDiffers s.power.clkInForce new = true → (startRelock new s).regs.clkStatus.getLsbD 14 = false) := by
  have hput : ∀ (b : Nat) (v : Bool) (u : State) (j : Nat), (putClkBit b v u).regs.clkStatus.getLsbD j
      = if j = b then decide (j < 16) && v else u.regs.clkStatus.getLsbD j := fun b v u j => getLsbD_setBit _ b j v
  unfold startRelock
  dsimp only [rebaseTime]
  refine ⟨fun h => ?_, fun h => ?_⟩
  · rw [if_pos h]
    split
    · rw [hput, if_neg (by decide), hput, if_pos rfl, Bool.and_false]
    · rw [hput, if_pos rfl, Bool.and_false]
  · rw [if_pos h, hput, if_pos rfl, Bool.and_false]

theorem exec_pllRelocked_step (s : State) (hs : s.power.relockS = true) (hf : s.power.relockF = false) :
    exec .pllRelocked s = .next (putClkBit 15 true { s with power := { s.power with relockS := false, relockF := false } }) := by
  change execPllRelocked s = _
  rw [execPllRelocked, hs, hf]
  rfl

/-- The state with FCLK relocked, before the links retrain. -/
def fabricRelocked (s : State) : State :=
  let s1 := { s with power := { s.power with relockS := false, relockF := false } }
  let s3 := putClkBit 14 true (if s.power.relockS then putClkBit 15 true s1 else s1)
  { s3 with fabric := zeroRouting s3.fabric }

theorem fabricRelocked_effect (s : State) : (fabricRelocked s).fabric = zeroRouting s.fabric
    ∧ (fabricRelocked s).regs.clkStatus.getLsbD 14 = true ∧ (fabricRelocked s).inForce = s.inForce := by
  unfold fabricRelocked
  dsimp only
  refine ⟨?_, (getLsbD_setBit _ 14 14 true).trans rfl, ?_⟩
  all_goals split <;> simp

theorem exec_pllRelocked_fabric (s : State) (hf : s.power.relockF = true) :
    exec .pllRelocked s = .next (retrainBoth true (fabricRelocked s)) := by
  change execPllRelocked s = _
  rw [execPllRelocked, if_pos (by rw [hf, Bool.or_true]), if_pos hf]
  rfl

/-- The state in which the clocks have their previous values back (R533). -/
def clockRestored (s : State) : State :=
  { rebaseTime s with
    power := { (rebaseTime s).power with clkInForce := s.power.clkPrev }
    inForce := { s.inForce with clk := s.power.clkPrev }
    shadow := { s.shadow with clk := s.power.clkPrev } }

theorem clocksChange : Claims.ClocksChange := by
  intro s
  refine ⟨fun hdue harmed hboundary hstopped hidle => ⟨startRelock s.inForce.clk s, ?_, ?_⟩, fun hnot => ?_,
    fun hs hf => ⟨_, exec_pllRelocked_step s hs hf, (getLsbD_setBit _ 15 15 true).trans rfl, ?_, by simp⟩,
    fun hf => ⟨_, exec_pllRelocked_fabric s hf, ?_⟩, fun hrelock hidle => ⟨setClkStatus 9 (clockRestored s), ?_, ?_⟩⟩
  · change execClockChange s = _
    rw [execClockChange, if_pos (by simp [hdue, harmed, hboundary, hstopped, hidle])]
  · obtain ⟨hstep, hfabric⟩ := clkStatus_startRelock s.inForce.clk s
    rw [startRelock_power]
    refine ⟨rfl, rfl, rfl, ?_, fun h => ⟨?_, hstep h⟩, fun h => ⟨?_, hfabric h⟩⟩
    · rw [startRelock_shape]
    · rw [h, Bool.or_true]
    · rw [h, Bool.or_true]
  · change execClockChange s = _
    rw [execClockChange, if_neg]
    obtain h | h | h := hnot
    · simp [h]
    · simp [Option.isNone_eq_false_iff.2 h]
    · simp [h]
  · change { s.power with relockS := false, relockF := false } = { s.power with relockS := false }
    rw [← hf]
  · obtain ⟨hfabric, hlock, hforce⟩ := fabricRelocked_effect s
    have hdue := retrainBoth_due true (fabricRelocked s)
    have hshape := retrainBoth_shape true (fabricRelocked s)
    refine ⟨?_, ?_, fun l hl => ?_⟩
    · rw [hshape]
      exact hlock
    · rw [hshape]
      exact hfabric
    · obtain ⟨hretrain, hfull⟩ := hdue l (by rw [linkNamed, hforce]; exact hl)
      exact ⟨hretrain, by rw [hfull, Bool.or_true]⟩
  · change execRelockFail s = _
    rw [execRelockFail, if_pos (by simpa [hidle] using hrelock)]
    rfl
  · have hlock := setClkStatus_bit 9 (clockRestored s) (by decide)
    refine ⟨?_, ?_, ?_, hlock⟩
    all_goals
      rw [setClkStatus_shape]
      rfl

/-- Settles O52: each transition, wake, rail, reference and clock change by the state it leaves. -/
theorem powerAndClocks : Obligations.PowerAndClocks := ⟨powerTransitions, wakesRaise, railsAndReferences, clocksChange⟩

end Sys2Proof.Machine
end
section

/-! PROOF. O48, patrol, line repair, checker test mode and the scrub counters (R467 to R475, R486, R487, R676). -/

namespace Sys2Proof.Machine

/-! ### The array patrol (R468 to R473) -/

theorem bchDecode_ne_clean (d : QWord) (dev : BitVec 15) (h : dev ≠ 0) : (bchDecode d dev).1 ≠ .clean := by
  rw [bchDecode, if_neg h]
  split
  · dsimp only
    split <;> decide
  · split <;> exact fun hclean => EccClass.noConfusion hclean

theorem patrolMesh_of_clean (i : Nat) (s : State) (h : s.array.meshDev = []) : patrolMesh i s = s := by
  rw [patrolMesh, meshDecode, h]
  rfl

/-- The rows that a patrol cycle reads, when none deviates. -/
theorem patrolRows_of_clean (k : Nat) (s : State) (hcur : s.array.curDev = []) (hprev : s.array.prevDev = []) :
    ∃ last, patrolRows k s = { s with array := { s.array with patrolLast := last } } := by
  have hnone : ∀ prev, bankDev prev s = [] := fun prev => by cases prev <;> simp [bankDev, hcur, hprev]
  unfold patrolRows
  split
  · exact ⟨s.array.patrolLast, rfl⟩
  · dsimp only
    rw [hnone]
    exact ⟨_, rfl⟩

/-- A cycle over codewords without an error changes only what the patrol remembers (R468). -/
theorem patrolAt_of_clean (k : Nat) (s : State) (hinstr : s.array.instrDev = []) (hcur : s.array.curDev = [])
    (hprev : s.array.prevDev = []) (hroute : s.array.routeDev = []) (hmesh : s.array.meshDev = []) :
    ∃ last, patrolAt k s = { s with array := { s.array with patrolLast := last } } := by
  obtain ⟨last, hrows⟩ := patrolRows_of_clean k s hcur hprev
  refine ⟨last, ?_⟩
  have hfirst : (if k < 512 then (patrolKeys s.array.instrDev 512 (512 * 256) k s).foldl (fun s x => patrolInstr x s) s else s) = s := by
    rw [hinstr]
    exact ite_self s
  unfold patrolAt
  dsimp only
  rw [hfirst, hrows]
  dsimp only
  rw [hroute]
  split
  · exact patrolMesh_of_clean k _ hmesh
  · rfl

/-- A cycle that meets one deviating instruction codeword and no other. -/
theorem patrolAt_of_one (key k : Nat) (dev : BitVec 15) (s : State) (hk : k < 512) (hinstr : s.array.instrDev = [(key, dev)])
    (hkey : key % 512 = k) (hpowered : galleryPowered (key / 131072) s = true)
    (hroute : (patrolInstr key s).array.routeDev = []) (hmesh : (patrolInstr key s).array.meshDev = []) :
    patrolAt k s = patrolInstr key s := by
  have hkeys : patrolKeys s.array.instrDev 512 (512 * 256) k s = [key] := by
    simp [patrolKeys, hinstr, hkey, hpowered]
  have hrows : patrolRows k (patrolInstr key s) = patrolInstr key s := by
    rw [patrolRows, if_pos (by simp [hk])]
  unfold patrolAt
  dsimp only
  simp only [if_pos hk, hkeys, List.foldl_cons, List.foldl_nil, hrows, hroute]
  exact patrolMesh_of_clean k _ hmesh

theorem setScrubStatus_regs (b : Nat) (s : State) : (setScrubStatus b s).regs = { s.regs with
    scrubStatus := s.regs.scrubStatus ||| BitVec.twoPow 16 b, eventStatus := (setScrubStatus b s).regs.eventStatus } := by
  unfold setScrubStatus
  dsimp only
  split
  · rfl
  · rw [setEvent_regs]

/-- An error is counted by its class (R464, R466). -/
theorem countError_counts (store cls loc bytes : Nat) (s : State) :
    (countError store cls loc bytes s).regs.eccCountCe = (if cls = 3 then s.regs.eccCountCe else satInc s.regs.eccCountCe)
      ∧ (countError store cls loc bytes s).regs.eccCountUe = (if cls = 3 then satInc s.regs.eccCountUe else s.regs.eccCountUe) := by
  unfold countError
  dsimp only [markFault]
  split
  · rw [setScrubStatus_regs]
    dsimp only
    split <;> exact ⟨rfl, rfl⟩
  · split <;> exact ⟨rfl, rfl⟩

theorem fieldEvent_regs (ev detail : Nat) (s : State) : (fieldEvent ev detail s).regs = s.regs := rfl

theorem putScrubBit_regs (b : Nat) (v : Bool) (s : State) :
    (putScrubBit b v s).regs = { s.regs with scrubStatus := setBit s.regs.scrubStatus b v } := rfl

theorem awaitRepair_effect (g bp row : Nat) (s : State) : (awaitRepair g bp row s).regs.eccCountUe = s.regs.eccCountUe
    ∧ (s.array.awaiting.contains (g, bp, row) = true ∨ (awaitRepair g bp row s).regs.scrubStatus.getLsbD 11 = true) := by
  unfold awaitRepair
  split
  next h => exact ⟨rfl, .inl h⟩
  · rw [fieldEvent_regs, putScrubBit_regs]
    exact ⟨rfl, .inr ((getLsbD_setBit _ 11 11 true).trans rfl)⟩

/-- The codeword of an instruction key. -/
theorem instrDecode_key (key : Nat) (s : State) :
    instrDecode (key / 512) (key % 512) s = bchDecode (tget endWord s.array.instr key) (tget 0 s.array.instrDev key) := by
  have hkey : key / 512 * 512 + key % 512 = key := Nat.div_add_mod' key 512
  rw [instrDecode, instrWord, hkey]

/-- A correctable codeword is rewritten corrected and counted (R471). -/
theorem patrolInstr_correctable (key : Nat) (s : State) (r : EccClass × QWord)
    (hr : instrDecode (key / 512) (key % 512) s = r) (hclean : r.1 ≠ .clean) (hue : r.1 ≠ .uncorrectable) :
    (patrolInstr key s).array = { s.array with instr := tset endWord s.array.instr key r.2, instrDev := tdel s.array.instrDev key }
      ∧ (patrolInstr key s).regs.eccCountCe = satInc s.regs.eccCountCe := by
  have hcount : ∀ (cls loc : Nat) (u : State), cls ≠ 3 → u.regs = s.regs →
      (countError stInstr cls loc 0 u).array = u.array ∧ (countError stInstr cls loc 0 u).regs.eccCountCe = satInc s.regs.eccCountCe := by
    intro cls loc u hcls hregs
    obtain ⟨-, harray, -⟩ := countError_keeps stInstr cls loc 0 u
    obtain ⟨hce, -⟩ := countError_counts stInstr cls loc 0 u
    rw [harray, hce, if_neg hcls, hregs]
    exact ⟨rfl, rfl⟩
  obtain ⟨cls, d⟩ := r
  unfold patrolInstr
  dsimp only
  rw [hr]
  cases cls with
  | clean => exact absurd rfl hclean
  | uncorrectable => exact absurd rfl hue
  | dataBit => exact hcount (classCode .dataBit) _ _ (by decide) rfl
  | checkBit => exact hcount (classCode .checkBit) _ _ (by decide) rfl
  | twoBits => exact hcount (classCode .twoBits) _ _ (by decide) rfl

/-- An uncorrectable codeword is poisoned and awaits repair (R471, R473). -/
theorem patrolInstr_uncorrectable (key : Nat) (s : State) (h : (instrDecode (key / 512) (key % 512) s).1 = .uncorrectable) :
    (patrolInstr key s).array = { s.array with
        instrPoison := nins s.array.instrPoison key, awaiting := (patrolInstr key s).array.awaiting }
      ∧ (patrolInstr key s).regs.eccCountUe = satInc s.regs.eccCountUe
      ∧ (s.array.awaiting.contains (key / 512 / 256, key / 512 % 256, key % 512) = true
        ∨ (patrolInstr key s).regs.scrubStatus.getLsbD 11 = true) := by
  unfold patrolInstr
  dsimp only
  rw [h]
  dsimp only
  obtain ⟨-, hue⟩ := countError_counts stInstr 3 (codeLocation (key / 512) (key % 512)) 0 s
  obtain ⟨-, harray, -⟩ := countError_keeps stInstr 3 (codeLocation (key / 512) (key % 512)) 0 s
  generalize countError stInstr 3 (codeLocation (key / 512) (key % 512)) 0 s = u at hue harray ⊢
  generalize hv : setScrubStatus 0 { u with array := { u.array with instrPoison := nins u.array.instrPoison key } } = v
  have hvArray : v.array = { s.array with instrPoison := nins s.array.instrPoison key } := by
    rw [← hv, ← harray]
    simp
  have hvCount : v.regs.eccCountUe = satInc s.regs.eccCountUe := by
    rw [← hv, setScrubStatus_regs]
    exact hue
  obtain ⟨hcount, hawait⟩ := awaitRepair_effect (key / 512 / 256) (key / 512 % 256) (key % 512) v
  refine ⟨?_, hcount.trans hvCount, ?_⟩
  · rw [awaitRepair_shape, hvArray]
  · rw [hvArray] at hawait
    exact hawait

/-- The times of the array patrol (R469). -/
def patrolOn (s : State) : Prop :=
  (s.array.running.isNone = true ∧ s.regs.scrubControl.getLsbD 2 = true)
    ∨ (s.array.running.isSome = true ∧ s.regs.scrubStatus.getLsbD 13 = true)

theorem exec_patrolCycle (s : State) (harmed : armed s = true) (hloaded : loaded s = true) (hidle : s.loader.active = false)
    (hon : patrolOn s) : exec .patrolCycle s = .next { patrolAt s.array.patrolPos s with
      array := { (patrolAt s.array.patrolPos s).array with patrolPos := (s.array.patrolPos + 1) % 1024 } } := by
  change execPatrolCycle s = _
  rw [execPatrolCycle]
  dsimp only
  rw [if_pos]
  obtain ⟨hrun, hbit⟩ | ⟨hrun, hbit⟩ := hon
  · rw [harmed, hloaded, hidle, hrun, hbit]
    rfl
  · rw [harmed, hloaded, hidle, hrun, hbit]
    simp

theorem exec_patrolCycle_off (s : State) (hoff : armed s = false ∨ loaded s = false ∨ s.loader.active = true ∨ ¬ patrolOn s) :
    exec .patrolCycle s = .next s := by
  change execPatrolCycle s = _
  rw [execPatrolCycle]
  dsimp only
  rw [if_neg]
  obtain h | h | h | h := hoff
  · simp [h]
  · simp [h]
  · simp [h]
  · intro hcond
    simp only [Bool.and_eq_true, Bool.or_eq_true] at hcond
    exact h hcond.2

theorem patrolSweeps : Claims.PatrolSweeps := by
  intro s on k
  refine ⟨fun harmed hloaded hidle hon => ⟨_, exec_patrolCycle s harmed hloaded hidle hon, rfl,
    fun hinstr hcur hprev hroute hmesh => ?_, fun key dev hk hinstr hkey hpowered hroute hmesh hdev => ?_⟩,
    exec_patrolCycle_off s⟩
  · obtain ⟨last, hclean⟩ := patrolAt_of_clean s.array.patrolPos s hinstr hcur hprev hroute hmesh
    rw [hclean]
    exact ⟨rfl, rfl⟩
  · have hdecode : instrDecode (key / 512) (key % 512) s = bchDecode (tget endWord s.array.instr key) dev := by
      rw [instrDecode_key, hinstr, tget, if_pos rfl]
    have hkeyDiv : key / 512 / 256 = key / 131072 := Nat.div_div_eq_div_mul key 512 256
    refine ⟨fun hue => ?_, fun hue => ?_⟩
    · obtain ⟨harray, hcount⟩ := patrolInstr_correctable key s _ hdecode (bchDecode_ne_clean _ dev hdev) hue
      have hone := patrolAt_of_one key k dev s hk hinstr hkey hpowered (by rw [harray]; exact hroute) (by rw [harray]; exact hmesh)
      rw [hone, harray, hinstr]
      exact ⟨tget_tset_self _ _ _ _, if_pos rfl, hcount, rfl⟩
    · obtain ⟨harray, hcount, hawait⟩ := patrolInstr_uncorrectable key s (by rw [hdecode]; exact hue)
      have hone := patrolAt_of_one key k dev s hk hinstr hkey hpowered (by rw [harray]; exact hroute) (by rw [harray]; exact hmesh)
      rw [hkeyDiv, hkey] at hawait
      rw [hone, harray]
      exact ⟨contains_nins _ _, hcount, hawait.symm⟩

/-! ### Line repair (R475) -/

theorem reply_stores (c : QueuedCall) (result : Nat) (data : List QWord) (s : State) :
    (reply c result data s).array = s.array ∧ (reply c result data s).fabric = s.fabric ∧ (reply c result data s).store = s.store := by
  refine ⟨?_, by simp, ?_⟩
  all_goals
    simp only [reply, writeReply]
    split <;> simp [sendReply]

theorem exec_lineRepair (slot : Nat) (c : QueuedCall) (s : State) (hc : callOf slot 0x000F s = some c) :
    exec (.lineRepair slot) s = .next (lineRepair c (popFieldInbox 0x0B s)) := by
  change execLineRepair slot s = _
  rw [execLineRepair, hc]

/-- A repaired codeword changes neither the waits nor a current word nor the fabric. -/
theorem putRepaired_keeps (g bp row : Nat) (d : QWord) (s : State) :
    (putRepaired g bp row d s).array.awaiting = s.array.awaiting ∧ (putRepaired g bp row d s).array.cur = s.array.cur
      ∧ (putRepaired g bp row d s).fabric = s.fabric := by
  unfold putRepaired
  split
  · exact ⟨rfl, rfl, rfl⟩
  · split <;> exact ⟨rfl, rfl, rfl⟩

/-- A repaired instruction codeword stands with fresh check bits. -/
theorem putRepaired_instr (g bp row : Nat) (d : QWord) (s : State) (hg : g ≠ 0xFF) (hrow : row < 0x200) :
    tget endWord (putRepaired g bp row d s).array.instr (bpNum g bp * 512 + row) = d
      ∧ tget 0 (putRepaired g bp row d s).array.instrDev (bpNum g bp * 512 + row) = 0 := by
  rw [putRepaired, if_neg hg, if_neg (Nat.not_le.2 hrow)]
  exact ⟨tget_tset_self _ _ _ _, (tget_tdel _ _ _ _).trans (if_pos rfl)⟩

theorem endRepair_array (g bp row : Nat) (s : State) : (endRepair g bp row s).array = { s.array with
      awaiting := s.array.awaiting.filter (fun a => a ≠ (g, bp, row)), repairHold := (endRepair g bp row s).array.repairHold }
    ∧ (endRepair g bp row s).fabric = s.fabric := ⟨rfl, rfl⟩

theorem linesAreRepaired : Claims.LinesAreRepaired := by
  intro slot c s hc s1 g row bp fixed w
  have hexec := exec_lineRepair slot c s hc
  have hchecks : lineRepair c s1 =
      if s1.loader.active then reply c resRefused [] s1
      else if !s1.array.awaiting.contains (g, bp, row) then reply c resNotWaiting [] s1
      else if s1.otp.authOnly then reply c resRefused [] s1
      else if !scheduleOk (schedLength s1) fixed then reply c resRefused [] s1
      else if repairCrc w.1 ≠ csNat (repairCrcAddr g bp row) 4 s1.store then reply c resMismatch [] s1
      else reply c resOk [] (endRepair g bp row fixed) := rfl
  have hpassed : s.loader.active = false → s.array.awaiting.contains (g, bp, row) = true → s.otp.authOnly = false →
      lineRepair c s1 = if !scheduleOk (schedLength s1) fixed then reply c resRefused [] s1
        else if repairCrc w.1 ≠ csNat (repairCrcAddr g bp row) 4 s1.store then reply c resMismatch [] s1
        else reply c resOk [] (endRepair g bp row fixed) := by
    intro hidle hwaits hopen
    change s1.loader.active = false at hidle
    change s1.array.awaiting.contains (g, bp, row) = true at hwaits
    change s1.otp.authOnly = false at hopen
    rw [hchecks, hidle, hwaits, hopen]
    rfl
  refine ⟨fun hactive => ?_, fun hidle hnot => ?_, fun hidle hwaits => ⟨fun hlocked => ?_, fun hopen => ⟨fun hbad => ?_, fun hgood =>
    ⟨fun hcrc => ?_, fun hcrc => ⟨reply c resOk [] (endRepair g bp row fixed), ?_, ?_⟩⟩⟩⟩⟩
  · rw [hexec]
    exact congrArg Host.Outcome.next (hchecks.trans (if_pos hactive))
  · change s1.loader.active = false at hidle
    change s1.array.awaiting.contains (g, bp, row) = false at hnot
    rw [hexec, hchecks, hidle, hnot]
    rfl
  · change s1.loader.active = false at hidle
    change s1.array.awaiting.contains (g, bp, row) = true at hwaits
    change s1.otp.authOnly = true at hlocked
    rw [hexec, hchecks, hidle, hwaits, hlocked]
    rfl
  · rw [hexec, hpassed hidle hwaits hopen, hbad]
    rfl
  · rw [hexec, hpassed hidle hwaits hopen, hgood]
    exact congrArg Host.Outcome.next (if_pos hcrc)
  · rw [hexec, hpassed hidle hwaits hopen, hgood]
    exact congrArg Host.Outcome.next (if_neg (not_not_intro hcrc))
  · obtain ⟨harray, hfabric, -⟩ := reply_stores c resOk [] (endRepair g bp row fixed)
    obtain ⟨hended, hsame⟩ := endRepair_array g bp row fixed
    obtain ⟨hwait, hcur, hkept⟩ := putRepaired_keeps g bp row (argOf c 3) s1
    rw [harray, hfabric, hended, hsame]
    refine ⟨?_, putRepaired_instr g bp row (argOf c 3) s1, hcur, hkept⟩
    change fixed.array.awaiting.filter _ = _
    rw [hwait]
    rfl

/-! ### Checker test mode (R486, R487) -/

theorem exec_scrubUnlock (slot : Nat) (c : QueuedCall) (s : State) (hc : callOf slot 0x0010 s = some c) :
    exec (.scrubUnlock slot) s = .next (if !s.regs.batchControl.getLsbD 0 && noBatch s then reply c resOk [] (putUnlock true s)
      else reply c resRefused [] s) := by
  change execScrubUnlock slot s = _
  rw [execScrubUnlock, hc]

theorem exec_checkWrite_vault (slot : Nat) (c : QueuedCall) (s : State) (hc : callOf slot 0x0011 s = some c)
    (htest : checkTest s = true) (hstore : argOf c 0 = 6) :
    exec (.checkWrite slot) s = .next (reply c resOk [] (checkWrite 6 (argOf c 1).toNat (argOf c 2) (argOf c 3) s)) := by
  change execCheckWrite slot s = _
  rw [execCheckWrite, hc, htest]
  dsimp only
  rw [hstore]
  rfl

theorem exec_checkRead_vault (slot : Nat) (c : QueuedCall) (s : State) (hc : callOf slot 0x0012 s = some c)
    (htest : checkTest s = true) (hstore : argOf c 0 = 6) :
    exec (.checkRead slot) s = .next (reply c resOk (checkRead 6 (argOf c 1).toNat s) s) := by
  change execCheckRead slot s = _
  rw [execCheckRead, hc, htest]
  dsimp only
  rw [hstore]
  rfl

theorem exec_checkInject (slot : Nat) (c : QueuedCall) (s : State) (hc : callOf slot 0x0013 s = some c)
    (htest : checkTest s = true) (hstore : argOf c 0 = 0 ∨ argOf c 0 = 3 ∨ argOf c 0 = 4) :
    exec (.checkInject slot) s = .next (
      let r := bchDecode (argOf c 1) ((argOf c 2).setWidth 15 ^^^ bchCode (argOf c 1))
      reply c resOk [reportClass r.1, r.2] s) := by
  change execCheckInject slot s = _
  rw [execCheckInject, hc, htest]
  dsimp only
  obtain h | h | h := hstore <;>
  · rw [h]
    rfl

/-- Two check codes of 5 bits, put side by side, are the 10 bits that were written. -/
theorem checkBits_joined (k : QWord) (a b : BitVec 5) : BitVec.ofNat 64
    ((a ^^^ (k.extractLsb' 5 5 ^^^ a)).toNat * 32 + (b ^^^ (k.extractLsb' 0 5 ^^^ b)).toNat) = (k.setWidth 10).setWidth 64 := by
  have hxor : ∀ x y : BitVec 5, x ^^^ (y ^^^ x) = y := fun x y => by
    rw [BitVec.xor_comm y x, ← BitVec.xor_assoc, BitVec.xor_self, BitVec.zero_xor]
  rw [hxor, hxor]
  apply BitVec.eq_of_toNat_eq
  simp only [BitVec.toNat_ofNat, BitVec.extractLsb'_toNat, BitVec.toNat_setWidth, Nat.shiftRight_eq_div_pow]
  omega

/-- What checker test mode writes to a Vault word reads back raw (R487). -/
theorem checkRead_checkWrite_vault (loc : Nat) (d k : QWord) (s : State) :
    checkRead 6 loc (checkWrite 6 loc d k s) = [(d.setWidth 16).setWidth 64, (k.setWidth 10).setWidth 64,
      (checkRead 6 loc (checkWrite 6 loc d k s)).getD 2 0] := by
  have hword : tget 0 (checkWrite 6 loc d k s).fabric.vaultWords (vaultOfLocation loc) = d.setWidth 16 := tget_tset_self _ _ _ _
  have hhigh : tget 0 (checkWrite 6 loc d k s).fabric.vaultDev (2 * vaultOfLocation loc)
      = k.extractLsb' 5 5 ^^^ secdedCode (d.extractLsb' 8 8) :=
    (tget_tset_ne _ _ _ _ _ (by omega)).trans (tget_tset_self _ _ _ _)
  have hlow : tget 0 (checkWrite 6 loc d k s).fabric.vaultDev (2 * vaultOfLocation loc + 1)
      = k.extractLsb' 0 5 ^^^ secdedCode (d.extractLsb' 0 8) := tget_tset_self _ _ _ _
  have hbytes : (d.setWidth 16).extractLsb' 8 8 = d.extractLsb' 8 8 ∧ (d.setWidth 16).extractLsb' 0 8 = d.extractLsb' 0 8 := by
    constructor <;>
    · apply BitVec.eq_of_toNat_eq
      simp only [BitVec.extractLsb'_toNat, BitVec.toNat_setWidth, Nat.shiftRight_eq_div_pow]
      omega
  obtain ⟨hbyte1, hbyte0⟩ := hbytes
  generalize checkWrite 6 loc d k s = t at hword hhigh hlow ⊢
  have hcode := checkBits_joined k (secdedCode (d.extractLsb' 8 8)) (secdedCode (d.extractLsb' 0 8))
  simp only [checkRead, hword, hhigh, hlow, hbyte1, hbyte0, hcode]
  rfl

theorem checkerTestMode : Claims.CheckerTestMode := by
  intro slot c s
  refine ⟨fun hc => ⟨fun hrun hno => ?_, fun hbusy => ?_⟩, fun hc => ⟨fun hoff => ?_, fun htest hstore =>
    ⟨_, exec_checkWrite_vault slot c s hc htest hstore, ?_⟩⟩, fun hc => ⟨fun hoff => ?_, exec_checkRead_vault slot c s hc⟩,
    fun hc => ⟨fun hoff => ?_, exec_checkInject slot c s hc⟩, fun loc d k => checkRead_checkWrite_vault loc d k s⟩
  · rw [exec_scrubUnlock slot c s hc, hrun, hno]
    rfl
  · rw [exec_scrubUnlock slot c s hc]
    refine congrArg Host.Outcome.next (if_neg ?_)
    obtain h | h := hbusy
    · rw [h]
      exact Bool.false_ne_true
    · rw [h, Bool.and_false]
      exact Bool.false_ne_true
  · change execCheckWrite slot s = _
    rw [execCheckWrite, hc, hoff]
    rfl
  · obtain ⟨harray, hfabric, hkept⟩ := reply_stores c resOk [] (checkWrite 6 (argOf c 1).toNat (argOf c 2) (argOf c 3) s)
    rw [harray, hfabric, hkept]
    exact ⟨tget_tset_self _ _ _ _, rfl, rfl⟩
  · change execCheckRead slot s = _
    rw [execCheckRead, hc, hoff]
    rfl
  · change execCheckInject slot s = _
    rw [execCheckInject, hc, hoff]
    rfl

/-! ### The scrub counters (R467, R676) -/

/-- The counts as they go to host memory: ten pairs, then the Conservator's three. -/
def scrubCountBytes (s : State) : List Byte :=
  packed ((List.range 10).flatMap (fun k => [(tget (0, 0) s.protection.perStore k).1.toNat, (tget (0, 0) s.protection.perStore k).2.toNat])
    ++ [s.conservator.essential.toNat, s.conservator.nonEssential.toNat, s.conservator.falseMismatch.toNat])

theorem scrubCountBytes_effect (s : State) : (scrubCountBytes s).length = 184
    ∧ (scrubCountBytes s).drop 160 = bytesOf 8 s.conservator.essential.toNat ++ bytesOf 8 s.conservator.nonEssential.toNat
      ++ bytesOf 8 s.conservator.falseMismatch.toNat := by
  have hpairs : (packed ((List.range 10).flatMap (fun k =>
      [(tget (0, 0) s.protection.perStore k).1.toNat, (tget (0, 0) s.protection.perStore k).2.toNat]))).length = 160 := by
    rw [length_packed, length_flatMap_of_const _ 2 (fun _ => rfl)]
    rfl
  have hlast : packed [s.conservator.essential.toNat, s.conservator.nonEssential.toNat, s.conservator.falseMismatch.toNat]
      = bytesOf 8 s.conservator.essential.toNat ++ bytesOf 8 s.conservator.nonEssential.toNat
        ++ bytesOf 8 s.conservator.falseMismatch.toNat := by simp [packed]
  have hsplit : scrubCountBytes s = packed ((List.range 10).flatMap (fun k =>
      [(tget (0, 0) s.protection.perStore k).1.toNat, (tget (0, 0) s.protection.perStore k).2.toNat]))
      ++ packed [s.conservator.essential.toNat, s.conservator.nonEssential.toNat, s.conservator.falseMismatch.toNat] :=
    List.flatMap_append ..
  rw [hsplit, List.length_append, hpairs, length_packed, ← hlast]
  exact ⟨rfl, List.drop_left' hpairs⟩

theorem scrubCountersAreRead : Claims.ScrubCountersAreRead := by
  intro slot c s hc
  have hexec : exec (.scrubCounters slot) s = .next (replyBulk c (argOf c 0).toNat (scrubCountBytes s) s) := by
    change execScrubCounters slot s = _
    rw [execScrubCounters, hc]
    rfl
  obtain ⟨hlength, hlast⟩ := scrubCountBytes_effect s
  refine ⟨fun haligned => ⟨_, scrubCountBytes s, hexec, hlength, ?_, hlast⟩, fun hodd => ?_⟩
  · rw [replyBulk_of_aligned c _ _ s haligned, hlength]
    rfl
  · rw [hexec, replyBulk_of_unaligned c _ _ s hodd]

/-- Settles O48: the patrol by what one cycle meets, the calls by their checks in order. -/
theorem storesArePatrolled : Obligations.StoresArePatrolled :=
  ⟨patrolSweeps, linesAreRepaired, checkerTestMode, scrubCountersAreRead⟩

end Sys2Proof.Machine
end
section

/-! PROOF. O49, frame checks and the signature at the end of a sweep (R477 to R485). -/

namespace Sys2Proof.Machine

/-! ### The Conservator stops -/

theorem setScrubStatus_bit (b j : Nat) (s : State) : (setScrubStatus b s).regs.scrubStatus.getLsbD j
    = (s.regs.scrubStatus.getLsbD j || (decide (j < 16) && decide (j = b))) := by
  rw [setScrubStatus_regs]
  exact getLsbD_or_twoPow _ _ _

theorem setScrubStatus_shape (b : Nat) (s : State) : setScrubStatus b s = { s with
    regs := (setScrubStatus b s).regs, hostOut := (setScrubStatus b s).hostOut } := by
  unfold setScrubStatus
  dsimp only
  split
  · rfl
  · rw [setEvent_shape]

/-- What a stopping Conservator reports, before anything that the twin and the batch boundary add. -/
def stopReport (s : State) : State :=
  setScrubStatus 2 (putScrubBit 12 false { s with conservator := { s.conservator with running := false, stopDue := true } })

/-- Outside lockstep and between no two batches a stop is the report alone (R485). -/
theorem stopConservator_eq (s : State) (hout : inLockstep s = false) (hboundary : atBoundary s = false) :
    stopConservator s = faultEventFree fcConservator (stopReport s) := by
  have hshape := setScrubStatus_shape 2 (putScrubBit 12 false { s with
    conservator := { s.conservator with running := false, stopDue := true } })
  have hkept : (stopReport s).twin = s.twin ∧ (stopReport s).egress = s.egress ∧ (stopReport s).batches = s.batches := by
    rw [stopReport, hshape]
    exact ⟨rfl, rfl, rfl⟩
  obtain ⟨htwin, hegress, hbatches⟩ := hkept
  have hsame : (faultEventFree fcConservator (stopReport s)).twin = s.twin
      ∧ (faultEventFree fcConservator (stopReport s)).egress = s.egress
      ∧ (faultEventFree fcConservator (stopReport s)).batches = s.batches := by
    simp only [faultEventFree, faultEvent, raiseField_fields, setFault_fields, htwin, hegress, hbatches, and_self]
  obtain ⟨htwin', hegress', hbatches'⟩ := hsame
  have hstop : stopConservator s = settle (leaveLockstep 0 (faultEventFree fcConservator (stopReport s))) := by
    rw [stopConservator, hout]
    rfl
  rw [hstop, leaveLockstep_of_not_lockstep _ _ (by rw [inLockstep, htwin']; exact hout),
    settle_of_not_atBoundary _ (by rw [atBoundary, hegress', hbatches']; exact hboundary)]

theorem stopConservator_effect (s : State) (hout : inLockstep s = false) (hboundary : atBoundary s = false) :
    (stopConservator s).conservator.running = false ∧ faultSet fcConservator (stopConservator s)
      ∧ (stopConservator s).regs.scrubStatus.getLsbD 12 = false ∧ (stopConservator s).fabric = s.fabric
      ∧ (s.regs.scrubStatus.getLsbD 4 = true → (stopConservator s).regs.scrubStatus.getLsbD 4 = true) := by
  rw [stopConservator_eq s hout hboundary]
  have hstatus : (faultEventFree fcConservator (stopReport s)).regs.scrubStatus = (stopReport s).regs.scrubStatus := by
    change (setFault fcConservator (stopReport s)).regs.scrubStatus = _
    simp only [setFault_regs]
  have hkept : (faultEventFree fcConservator (stopReport s)).conservator = (stopReport s).conservator
      ∧ (faultEventFree fcConservator (stopReport s)).fabric = (stopReport s).fabric := by
    simp only [faultEventFree, faultEvent, raiseField_fields, setFault_fields, and_self]
  obtain ⟨hconservator, hfabric⟩ := hkept
  rw [hstatus, hconservator, hfabric]
  refine ⟨?_, faultEventFree_faultSet _ _ (by rfl) (by decide), ?_, ?_, fun hbit => ?_⟩
  · rw [stopReport, setScrubStatus_shape]
    rfl
  · rw [stopReport, setScrubStatus_bit, putScrubBit_regs]
    dsimp only
    rw [getLsbD_setBit, if_pos rfl]
    rfl
  · rw [stopReport, setScrubStatus_shape]
    rfl
  · rw [stopReport, setScrubStatus_bit, putScrubBit_regs]
    dsimp only
    rw [getLsbD_setBit, if_neg (by decide), hbit, Bool.true_or]

/-! ### Common Store without a deviation -/

theorem csDecode_of_none (a : Nat) (st : Store) (h : st.csDev = []) : (csDecode a st).1 = .clean := by
  unfold csDecode
  split
  · rw [h]
    rfl
  · rfl

theorem csReadCounts_of_none (a n : Nat) (s : State) (h : s.store.csDev = []) : csReadCounts a n s = s := by
  induction n generalizing a with
  | zero => rfl
  | succ n ih =>
    have hread : csReadCount a s = s := by rw [csReadCount, csDecode_of_none a s.store h]
    rw [csReadCounts, hread, ih]

/-- A stored CRC is read as delivered. -/
theorem rawBytes_of_none (a : Nat) (st : Store) (h : st.csDev = []) :
    ofBytes ((List.range 4).map (fun k => checkOne.rawByte (a + k) st)) = csNat a 4 st := by
  have hbyte : ∀ k, checkOne.rawByte k st = csByte k st := fun k => by
    rw [checkOne.rawByte, csDecode_of_none k st h]
    rfl
  simp only [hbyte]
  rfl

/-! ### One frame -/

/-- `t` has the fabric, the Conservator and the cells for the host as `s` has them. -/
def sameSweep (s t : State) : Prop := t.fabric = s.fabric ∧ t.conservator = s.conservator ∧ t.barrier = s.barrier

theorem sameSweep.refl (s : State) : sameSweep s s := ⟨rfl, rfl, rfl⟩

theorem sameSweep.trans {s t u : State} (h : sameSweep s t) (g : sameSweep t u) : sameSweep s u :=
  ⟨g.1.trans h.1, g.2.1.trans h.2.1, g.2.2.trans h.2.2⟩

theorem sameSweep_foldl {α : Type} (f : State → α → State) (hf : ∀ s x, sameSweep s (f s x)) (xs : List α) (s : State) :
    sameSweep s (xs.foldl f s) := by
  induction xs generalizing s with
  | nil => exact .refl s
  | cons x xs ih => exact (hf s x).trans (ih (f s x))

theorem sameSweep_wait (l : FLink) (rs : List QRec) (s : State) : sameSweep s (wait l rs s) := by
  simp [sameSweep, wait]

theorem sameSweep_revise (n : DWord) (reason : Nat) (sites : List Nat) (verdict : Nat → Nat) (s : State) :
    sameSweep s (revise n reason sites verdict s) := sameSweep_foldl _ (fun s _ => sameSweep_wait _ _ s) sites s

theorem sameSweep_addWindow (n : DWord) (w : Window) (s : State) : sameSweep s (addWindow n w s) := by
  refine ⟨addWindow_fabric n w s, by simp, ?_⟩
  unfold addWindow
  split
  · rfl
  · dsimp only
    split <;> simp [wait, modBatch]

theorem sameSweep_windowOver (sites : List Nat) (source detail a e : Nat) (s : State) :
    sameSweep s (windowOver sites source detail a e s) :=
  sameSweep_foldl _ (fun s _ => sameSweep_foldl _ (fun s _ => sameSweep_addWindow _ _ s) sites s) _ s

/-- The records of an essential repair end with its fault and its event (R479). -/
theorem repairRecords_effect (f t0 : Nat) (s : State) (hf : f < 6144) :
    (repairRecords f t0 s).fabric = s.fabric ∧ (repairRecords f t0 s).conservator = s.conservator
      ∧ faultSet fcCfgUpset (repairRecords f t0 s)
      ∧ ∀ u, u.barrier = s.barrier → eventSent evFault fcCfgUpset f u (repairRecords f t0 s) := by
  unfold repairRecords
  dsimp only
  generalize hv : List.foldl _ _ _ = v
  have hsame : sameSweep s v := by
    rw [← hv]
    exact (sameSweep_windowOver _ 4 0 t0 _ s).trans (sameSweep_foldl _ (fun s _ => sameSweep_revise _ _ _ _ s) _ _)
  obtain ⟨hfabric, hconservator, hbarrier⟩ := hsame
  have hdetail : f % 2 ^ 13 = f := Nat.mod_eq_of_lt (by omega)
  rw [hdetail]
  refine ⟨?_, ?_, setFault_bit fcCfgUpset v rfl (by decide), fun u hu => ?_⟩
  · simp only [faultEvent, raiseField_fields, setFault_fields, hfabric]
  · simp only [faultEvent, raiseField_fields, setFault_fields, hconservator]
  · refine eventSent_raiseField _ _ _ _ u _ (by decide) (by decide) (Config.eventUnit fcCfgUpset).isLt (by omega) ?_
    exact cellsKept_of_barrier (by simp only [setFault_fields, hbarrier, hu])

/-- A frame in error is compared with its shadow: equal, its CRC entry is written anew (R478). -/
theorem frameInError_of_equal (f t0 : Nat) (q : ConsSettings) (live : CfgFrame) (s : State) (hdev : s.store.csDev = [])
    (hue : csUe (q.shadowBase + 128 * f) 128 s.store = false)
    (hequal : live = BitVec.ofNat 1024 (csNat (q.shadowBase + 128 * f) 128 s.store)) :
    frameInError f t0 false q live s = csWrite (q.crcBase + 4 * f) (bytesOf 4 (frameCrcOf live)) { s with
      conservator := { s.conservator with falseMismatch := satInc s.conservator.falseMismatch } } := by
  rw [frameInError]
  dsimp only
  rw [if_neg (by rw [hue]; exact Bool.false_ne_true), if_pos hequal, csReadCounts_of_none _ _ s hdev, ← hequal]

/-- Different, it is rewritten at once where an essential bit is in error, and kept for the end of the sweep elsewhere (R478). -/
theorem frameInError_of_different (f t0 : Nat) (q : ConsSettings) (live shadow : CfgFrame) (s : State) (hdev : s.store.csDev = [])
    (hue : csUe (q.shadowBase + 128 * f) 128 s.store = false)
    (hshadow : shadow = BitVec.ofNat 1024 (csNat (q.shadowBase + 128 * f) 128 s.store)) (hdiffer : live ≠ shadow) :
    frameInError f t0 false q live s
      = if (live ^^^ shadow) &&& BitVec.ofNat 1024 (inventoryBits q.inventoryBase f s.store) ≠ 0 then
          repairRecords f t0 (rewriteFrame f shadow true s)
        else { s with conservator := { s.conservator with lateRepairs := nins s.conservator.lateRepairs f } } := by
  have hexcl : ∀ x : CfgFrame, x &&& ~~~(BitVec.ofNat 1024 (if false = true then contendedBits f s else 0)) = x := by
    intro x
    rw [if_neg Bool.false_ne_true]
    rw [BitVec.not_zero, BitVec.and_allOnes]
  rw [frameInError]
  dsimp only
  rw [← hshadow, if_neg (by rw [hue]; exact Bool.false_ne_true), if_neg hdiffer, csReadCounts_of_none _ _ s hdev,
    csReadCounts_of_none _ _ s hdev, hexcl]
  rfl

/-- The state with the settings copies rewritten and the sweep at its next frame. -/
def frameBegun (q : ConsSettings) (f : Nat) (s : State) : State :=
  { s with conservator := { s.conservator with copies := [q, q, q], next := f + 1 } }

/-- The frame's check, before the Conservator notes it. -/
def frameJudged (q : ConsSettings) (f : Nat) (s : State) : State :=
  if frameCrcOf (tget 0 s.fabric.frames f) = csNat (q.crcBase + 4 * f) 4 s.store then frameBegun q f s
  else frameInError f (tget s.conservator.loadEnd s.conservator.lastCheck f) false q (tget 0 s.fabric.frames f) (frameBegun q f s)

/-- The Conservator notes a check: the frame's time and its CRC. -/
def frameNoted (f cycle : Nat) (s : State) : State :=
  { s with conservator := { s.conservator with
    lastCheck := tput s.conservator.lastCheck f cycle
    computed := tput s.conservator.computed f (BitVec.ofNat 32 (frameCrcOf (tget 0 s.fabric.frames f))) } }

theorem exec_frameCheck (q : ConsSettings) (f : Nat) (s : State) (hruns : conservatorRuns s = true)
    (hvote : votedSettings s.conservator = some (q, false)) (hnext : s.conservator.next = f) (hf : f < q.frameCount)
    (hskip : q.skip.contains f = false) (hdriver : s.fabric.driverCheck = []) (hdev : s.store.csDev = []) :
    exec .frameCheck s = .next (frameNoted f s.power.fclk (frameJudged q f s)) := by
  have hframe : frameCheck q { s with conservator := { s.conservator with copies := [q, q, q] } }
      = checkOne f false q (frameBegun q f s) := by
    rw [frameCheck]
    dsimp only
    rw [hdriver, hnext]
    dsimp only
    rw [if_neg (Nat.not_le.2 hf), if_neg (by rw [hskip]; exact Bool.false_ne_true)]
    rfl
  have hcheck : checkOne f false q (frameBegun q f s) = frameNoted f s.power.fclk (frameJudged q f s) := by
    rw [checkOne]
    dsimp only
    rw [rawBytes_of_none _ (frameBegun q f s).store hdev, csReadCounts_of_none _ _ (frameBegun q f s) hdev]
    rfl
  change execFrameCheck s = _
  rw [execFrameCheck, hruns, hvote]
  exact congrArg Host.Outcome.next (hframe.trans hcheck)

theorem csUe_of_none (a n : Nat) (st : Store) (h : st.csDev = []) : csUe a n st = false := by
  induction n generalizing a with
  | zero => rfl
  | succ n ih =>
    rw [csUe, csDecode_of_none a st h, ih]
    rfl

/-- The content of a frame's shadow. -/
def frameShadow (q : ConsSettings) (f : Nat) (s : State) : CfgFrame := BitVec.ofNat 1024 (csNat (q.shadowBase + 128 * f) 128 s.store)

/-- The bits of a frame in error that the Inventory calls essential (R478). -/
def essentialErrors (q : ConsSettings) (f : Nat) (s : State) : CfgFrame :=
  (tget 0 s.fabric.frames f ^^^ frameShadow q f s) &&& BitVec.ofNat 1024 (inventoryBits q.inventoryBase f s.store)

section
variable (q : ConsSettings) (f : Nat) (s : State)

theorem frameJudged_of_good (hcrc : frameCrcOf (tget 0 s.fabric.frames f) = csNat (q.crcBase + 4 * f) 4 s.store) :
    frameJudged q f s = frameBegun q f s := if_pos hcrc

theorem frameJudged_of_equal (hdev : s.store.csDev = [])
    (hcrc : frameCrcOf (tget 0 s.fabric.frames f) ≠ csNat (q.crcBase + 4 * f) 4 s.store)
    (hequal : tget 0 s.fabric.frames f = frameShadow q f s) :
    frameJudged q f s = csWrite (q.crcBase + 4 * f) (bytesOf 4 (frameCrcOf (tget 0 s.fabric.frames f))) { frameBegun q f s with
      conservator := { (frameBegun q f s).conservator with falseMismatch := satInc s.conservator.falseMismatch } } := by
  rw [frameJudged, if_neg hcrc]
  exact frameInError_of_equal f _ q _ (frameBegun q f s) hdev (csUe_of_none _ _ s.store hdev) hequal

theorem frameJudged_of_different (hdev : s.store.csDev = [])
    (hcrc : frameCrcOf (tget 0 s.fabric.frames f) ≠ csNat (q.crcBase + 4 * f) 4 s.store)
    (hdiffer : tget 0 s.fabric.frames f ≠ frameShadow q f s) :
    frameJudged q f s = if essentialErrors q f s ≠ 0 then
        repairRecords f (tget s.conservator.loadEnd s.conservator.lastCheck f)
          (rewriteFrame f (frameShadow q f s) true (frameBegun q f s))
      else { frameBegun q f s with conservator := { (frameBegun q f s).conservator with
        lateRepairs := nins s.conservator.lateRepairs f } } := by
  rw [frameJudged, if_neg hcrc]
  exact frameInError_of_different f _ q _ (frameShadow q f s) (frameBegun q f s) hdev (csUe_of_none _ _ s.store hdev) rfl hdiffer

/-- What a check does to the settings and to the sweep's place: the copies agree and the next frame is due. -/
theorem frameJudged_place (hdev : s.store.csDev = []) (hf : f < 6144) :
    (frameJudged q f s).conservator.next = f + 1 ∧ (frameJudged q f s).conservator.copies = [q, q, q] := by
  by_cases hcrc : frameCrcOf (tget 0 s.fabric.frames f) = csNat (q.crcBase + 4 * f) 4 s.store
  · rw [frameJudged_of_good q f s hcrc]
    exact ⟨rfl, rfl⟩
  · by_cases hequal : tget 0 s.fabric.frames f = frameShadow q f s
    · rw [frameJudged_of_equal q f s hdev hcrc hequal]
      exact ⟨rfl, rfl⟩
    · rw [frameJudged_of_different q f s hdev hcrc hequal]
      split
      · rw [(repairRecords_effect f _ _ hf).2.1]
        exact ⟨rfl, rfl⟩
      · exact ⟨rfl, rfl⟩

end

theorem frameNoted_keeps (f cycle : Nat) (s : State) : (frameNoted f cycle s).fabric = s.fabric ∧ (frameNoted f cycle s).regs = s.regs
    ∧ (frameNoted f cycle s).store = s.store ∧ (frameNoted f cycle s).barrier = s.barrier := ⟨rfl, rfl, rfl, rfl⟩

theorem liveFramesAreChecked : Claims.FramesAreChecked := by
  intro q f s hruns live shadow
  refine ⟨fun hvote hout hboundary => ⟨stopConservator s, ?_, ?_⟩, fun hvote hnext hf hskip hdriver hdev hframe =>
    ⟨_, exec_frameCheck q f s hruns hvote hnext hf hskip hdriver hdev, ?_⟩⟩
  · change execFrameCheck s = _
    rw [execFrameCheck, hruns, hvote]
    rfl
  · obtain ⟨hstopped, hfault, hbit, hfabric, -⟩ := stopConservator_effect s hout hboundary
    exact ⟨hstopped, hfault, hbit, hfabric⟩
  · obtain ⟨hplace, hcopies⟩ := frameJudged_place q f s hdev hframe
    refine ⟨hplace, hcopies, fun hcrc => ?_, fun hcrc hue => ⟨fun hequal => ?_, fun hdiffer hessential => ?_,
      fun hdiffer hnone => ?_⟩⟩
    · rw [frameJudged_of_good q f s hcrc]
      exact ⟨rfl, rfl, rfl⟩
    · rw [frameJudged_of_equal q f s hdev hcrc hequal]
      exact ⟨rfl, rfl⟩
    · have hjudged := (frameJudged_of_different q f s hdev hcrc hdiffer).trans (if_pos hessential)
      obtain ⟨hfabric, hconservator, hfault, hevent⟩ := repairRecords_effect f (tget s.conservator.loadEnd s.conservator.lastCheck f)
        (rewriteFrame f (frameShadow q f s) true (frameBegun q f s)) hframe
      have hsent := hevent s rfl
      rw [← hjudged] at hfabric hconservator hfault hsent
      refine ⟨?_, hfault, eventSent_of_barrier hsent rfl, ?_⟩
      · change tget 0 (frameJudged q f s).fabric.frames f = _
        rw [hfabric]
        exact tget_tset_self _ _ _ _
      · change (frameJudged q f s).conservator.essential = _
        rw [hconservator]
        rfl
    · rw [(frameJudged_of_different q f s hdev hcrc hdiffer).trans (if_neg (not_not_intro hnone))]
      exact ⟨rfl, contains_nins _ _⟩

/-! ### The end of a sweep -/

/-- The sweep has ended with its signature `own` and `n` mismatches so far. -/
def sweepEnded (own : DWord) (n : Nat) (s : State) : State :=
  { s with conservator := { s.conservator with next := 0, computed := [], lastSignature := some own, mismatches := n } }

/-- A mismatch is reported by SIG_FAIL and its event (R484). -/
def mismatchReported (own : DWord) (s : State) : State :=
  fieldEventFree evScrub (setScrubStatus 4 (sweepEnded own (s.conservator.mismatches + 1) s))

theorem exec_sweepEnd (q : ConsSettings) (o : Bool) (s : State) (hruns : conservatorRuns s = true)
    (hvote : votedSettings s.conservator = some (q, o)) (hdone : q.frameCount ≤ s.conservator.next)
    (hlate : s.conservator.lateRepairs = []) (hout : inLockstep s = false) :
    exec .sweepEnd s = .next (
      if signature s.conservator.computed = s.conservator.signatureAtLoad then sweepEnded (signature s.conservator.computed) 0 s
      else if 2 ≤ s.conservator.mismatches + 1 then stopConservator (mismatchReported (signature s.conservator.computed) s)
      else restartConservator (mismatchReported (signature s.conservator.computed) s)) := by
  have hkept : ({ s with conservator := { s.conservator with
      lateRepairs := [], next := 0, computed := [], lastSignature := some (signature s.conservator.computed) } } : State)
      = sweepEnded (signature s.conservator.computed) s.conservator.mismatches s := by
    rw [← hlate]
    rfl
  have hstill : inLockstep (sweepEnded (signature s.conservator.computed) s.conservator.mismatches s) = false := hout
  change execSweepEnd s = _
  rw [execSweepEnd, hruns, hvote]
  dsimp only
  rw [if_neg (by decide), if_pos hdone]
  simp only [sweepEnd, hlate, List.foldl_nil, hkept, hstill, Bool.false_eq_true, if_false]
  rfl

theorem mismatchReported_effect (own : DWord) (s : State) : (mismatchReported own s).regs.scrubStatus.getLsbD 4 = true
    ∧ (mismatchReported own s).conservator = (sweepEnded own (s.conservator.mismatches + 1) s).conservator
    ∧ inLockstep (mismatchReported own s) = inLockstep s ∧ atBoundary (mismatchReported own s) = atBoundary s := by
  have hbit := setScrubStatus_bit 4 4 (sweepEnded own (s.conservator.mismatches + 1) s)
  have hshape := setScrubStatus_shape 4 (sweepEnded own (s.conservator.mismatches + 1) s)
  unfold mismatchReported
  generalize setScrubStatus 4 (sweepEnded own (s.conservator.mismatches + 1) s) = u at hbit hshape ⊢
  have hkept : u.conservator = (sweepEnded own (s.conservator.mismatches + 1) s).conservator ∧ u.twin = s.twin
      ∧ u.egress = s.egress ∧ u.batches = s.batches := by
    rw [hshape]
    exact ⟨rfl, rfl, rfl, rfl⟩
  obtain ⟨hconservator, htwin, hegress, hbatches⟩ := hkept
  simp only [fieldEventFree, inLockstep, atBoundary, fieldEvent, raiseField_fields, hconservator, htwin, hegress,
    hbatches, and_true]
  exact hbit.trans (by simp)

theorem restartConservator_bit (s : State) (h : s.regs.scrubStatus.getLsbD 4 = true) :
    (restartConservator s).regs.scrubStatus.getLsbD 4 = true := by
  refine (getLsbD_setBit _ 12 4 true).trans ((if_neg (by decide)).trans ?_)
  exact (getLsbD_setFld s.regs.scrubStatus 15 14 s.conservator.reference.sweepLevel 4 (by decide)).trans
    ((if_neg (by decide)).trans h)

theorem sweepsAreSigned : Claims.SweepsAreSigned := by
  intro q o tseq sig s own
  refine ⟨fun hruns hvote hdone hlate hout => ?_, fun horder => ⟨fun hlast => ?_, fun x hlast hdiffer => ?_⟩⟩
  · have hexec := exec_sweepEnd q o s hruns hvote hdone hlate hout
    obtain ⟨hbit, hconservator, hlock, hboundaryEq⟩ := mismatchReported_effect own s
    refine ⟨fun hagree => ?_, fun hdiffer hfirst => ⟨restartConservator (mismatchReported own s), ?_, ?_, rfl, rfl, ?_⟩,
      fun hdiffer hsecond hboundary => ⟨stopConservator (mismatchReported own s), ?_, ?_⟩⟩
    · rw [hexec, if_pos hagree]
      rfl
    · rw [hexec, if_neg hdiffer, if_neg (by omega)]
    · exact restartConservator_bit _ hbit
    · change (mismatchReported own s).conservator.mismatches = 1
      rw [hconservator]
      exact congrArg (· + 1) hfirst
    · rw [hexec, if_neg hdiffer, if_pos (by omega)]
    · obtain ⟨hstopped, hfault, -, -, hkept⟩ := stopConservator_effect (mismatchReported own s) (hlock.trans hout)
        (hboundaryEq.trans hboundary)
      exact ⟨hkept hbit, hstopped, hfault⟩
  · change execSweepSignatureReceive true tseq sig s = _
    rw [execSweepSignatureReceive, if_pos horder, compareSignature, hlast]
    exact congrArg Host.Outcome.next (if_pos rfl)
  · have hcompare : compareSignature sig s = (let s2 := setScrubStatus 5 (noteTseq { s with twin := { s.twin with peerSig := some sig } })
        if x = s.conservator.signatureAtLoad then s2 else markFault s2) := by
      rw [compareSignature, hlast]
      exact if_neg hdiffer
    refine ⟨compareSignature sig s, ?_, ?_⟩
    · change execSweepSignatureReceive true tseq sig s = _
      rw [execSweepSignatureReceive, if_pos horder]
    · have hbit := (setScrubStatus_bit 5 5 (noteTseq { s with twin := { s.twin with peerSig := some sig } })).trans
        (by rw [decide_eq_true rfl, Bool.and_true, decide_eq_true (by decide), Bool.or_true])
      have hkept : (setScrubStatus 5 (noteTseq { s with twin := { s.twin with peerSig := some sig } })).conservator = s.conservator := by
        rw [setScrubStatus_shape]
        rfl
      rw [hcompare]
      dsimp only
      split
      · exact ⟨hbit, hkept⟩
      · exact ⟨hbit, hkept⟩

/-- Settles O49: a check by its three outcomes, a sweep's end by its signature. -/
theorem framesAreSwept : Obligations.FramesAreSwept := ⟨liveFramesAreChecked, sweepsAreSigned⟩

end Sys2Proof.Machine
end
